-- ==== Sys2Proof/Word.lean ====
section
/-! DEFINITION. The word types of the package and nothing else: bytes, CSR words, memory lines. -/

namespace Sys2Proof

/-- One byte of memory. -/
abbrev Byte := BitVec 8
/-- One CSR word (R417: every CSR access is 32 bits). -/
abbrev Word := BitVec 32
/-- A 64-bit value: a general scalar register, a global address, a counter. -/
abbrev DWord := BitVec 64
/-- One 128-byte memory line (R23), byte 0 in bits [7:0] (R12). -/
abbrev Line := BitVec 1024
/-- One 16-byte slot of a flit (R260). -/
abbrev Slot := BitVec 128
/-- A sparse map from natural numbers: a strictly rising list of (key, value) pairs.
A key that is not listed holds the map's background value. -/
abbrev Store (α : Type) := List (Nat × α)
/-- Byte memory: a strictly rising list of (address, byte) pairs. -/
abbrev Mem := List (Nat × Byte)

end Sys2Proof
end

