-- ==== Sys2Proof/Syntax.lean ====
section
/-! DEFINITION. The commands of the block: one constructor of `Instr` for every row of
spec/opcode_table.json, with the row's operands, and the data the operands are made of. -/

namespace Sys2Proof

/-- The path by which a CSR access or a command reaches the package (R417, R431). -/
inductive Path where
  /-- The companion processor over Halter (host agent). -/
  | halter
  /-- The board's management controller over the I3C or SMBus sideband. -/
  | sideband
  /-- Package sequencer core n. -/
  | psc (n : Fin 8)
  /-- Drover core of package cluster c. -/
  | drover (c : Fin 36)
  deriving DecidableEq, Repr

/-- What ECC reported on the data one command read: corrected errors and the byte addresses of
uncorrectable ones (R94, R128, R194, R220). Errors come from outside the model's rules. For the SX an address of 2^64 + a
is the window buffer's copy of the datum at a. -/
structure Ecc where
  corrected : Nat
  bad : List Nat
  deriving DecidableEq, Repr

/-- What ECC reported on one core load: nothing, a corrected error, an uncorrectable error in a line, or
one in a directory entry (R163, R253). -/
structure LoadEv where
  corrected : Bool
  ue : Bool
  dirUe : Bool
  deriving DecidableEq, Repr

/-- What ECC reports on the descriptor an engine reads at acceptance: whether it is uncorrectable, and how many errors were corrected (R94, R143). -/
structure DescEcc where
  ue : Bool
  ce : Nat
  deriving DecidableEq, Repr

/-- What ECC reports on the descriptor and the tap table a stencil engine reads at acceptance (R126, R128). -/
structure TapEcc where
  ue : Bool
  tapUe : Bool
  ce : Nat
  deriving DecidableEq, Repr

/-- Fields of a Caravan message header (R263). -/
structure MsgHdr where
  opc : BitVec 4
  vc : BitVec 2
  hop : BitVec 2
  len : BitVec 3
  lat : Bool
  epoch : BitVec 2
  tag : BitVec 16
  src : BitVec 16
  dst : BitVec 16
  txid : BitVec 15
  line : BitVec 41
  pmask : BitVec 8
  deriving DecidableEq, Repr

/-- A Caravan or Route message: header slot and data slots (R263). -/
structure Msg where
  hdr : MsgHdr
  slots : List Slot
  deriving DecidableEq, Repr

/-- A Halter message: the header fields of R289 and whole lines of data, or one slot for a CSR message. -/
structure HalMsg where
  opc : BitVec 6
  vc : BitVec 2
  len : BitVec 3
  lat : Bool
  txid : BitVec 16
  line : BitVec 41
  pmask : BitVec 8
  lines : List Line
  deriving DecidableEq, Repr

/-- One 512-byte flit as received: the fields of slot 0 and slots 1 to 31 (R260). -/
structure Flit where
  seq : BitVec 12
  ack : BitVec 12
  crQ : BitVec 4
  crSlots : BitVec 12
  nak : Bool
  idle : Bool
  rsv : BitVec 22
  crc : BitVec 64
  slots : List Slot
  deriving DecidableEq, Repr

/-- One Route frame: destination and source MAC, the VID of its 802.1Q tag and the tag's PCP, transport header fields, message slots, CRC-32C and Ethernet FCS (R285, R286). -/
structure RouteFrame where
  dmac : BitVec 48
  smac : BitVec 48
  vid : Option (BitVec 12)
  pcp : BitVec 3
  etherType : BitVec 16
  ver : BitVec 4
  typ : BitVec 4
  flags : BitVec 8
  tag : BitVec 16
  src : BitVec 16
  dst : BitVec 16
  seq : BitVec 32
  ackSeq : BitVec 32
  sack : BitVec 32
  epoch : BitVec 2
  nslots : BitVec 16
  crc : BitVec 32
  slots : List Slot
  fcs : BitVec 32
  deriving DecidableEq, Repr

/-- The collective slot (R312) with its message's place in the stream and its data slots. -/
structure ColMsg where
  group : Fin 256
  seq : BitVec 16
  flags : BitVec 4
  src : BitVec 16
  rank : BitVec 16
  step : BitVec 16
  chunk : BitVec 41
  crc : BitVec 64
  pmask : BitVec 8
  slots : List Slot
  deriving DecidableEq, Repr

/-- The call signature a JOIN carries (R303), with the algorithm choice of rank 0 (R310). -/
structure CallSig where
  op : Nat
  dtype : Nat
  redop : Nat
  root : Nat
  count : Nat
  rowBytes : Nat
  contribs : Nat
  sig : Nat
  deriving DecidableEq, Repr

/-- A checkpoint vote (R361, R376): STEP by minimum and maximum, the four flags, and the candidate cuts of a restore. The fields are combined up the control tree. -/
structure VoteMsg where
  stepMin : Nat
  stepMax : Nat
  err : Bool
  bad : Bool
  idle : Bool
  quar : Bool
  cuts : Option (List Nat)
  deriving DecidableEq, Repr

/-- One 100 us sample of a junction sensor (R405): die, sensor of the die, temperature in degrees C. -/
structure SensorReading where
  die : Fin 7
  sensor : Fin 24
  tempC : Int
  deriving DecidableEq, Repr

/-- One 10 us power and current sample (R400): input power, voltage and current, and the current of each core rail in A. -/
structure PowerSample where
  watts : Nat
  vinMv : Nat
  iinDa : Nat
  rails : List Nat
  deriving DecidableEq, Repr

/-- The contents of a rating record (R471): serial, SEQ, grade code, REFURB, healthy tiles of the four compute dies, test voltages of
the 16 points on each of the 5 dies with an arithmetic island, BASE_MV, the core-rail current limits in A, and the tile map and shares of R88: the
physical tile of its die that is the home of each of the 288 logical tiles, and how each logical tile's work is divided (which only times it, R89). -/
structure Rating where
  serial : DWord
  seq : Nat
  grade : Nat
  refurb : Bool
  tiles : List Nat
  testMv : List Nat
  baseMv : Nat
  limits : List Nat
  homes : List Nat
  shares : List Nat
  deriving DecidableEq, Repr

/-- What boot reads at a cold start (R445, R447, R448): SVN, whether the signature verifies, FLAGS.ADVANCE, KEY_SLOT and the SHA-512 of PUBKEY of the
image in each bank, and whether the signatures of the active and of the pending rating record verify. -/
structure BootInputs where
  svnA : BitVec 6
  okA : Bool
  advA : Bool
  slotA : Fin 4
  keyA : BitVec 512
  svnB : BitVec 6
  okB : Bool
  advB : Bool
  slotB : Fin 4
  keyB : BitVec 512
  activeOk : Bool
  pendingOk : Bool
  deriving DecidableEq, Repr


/-- The commands of the package: one constructor for every row of the opcode table. -/
inductive Instr where
  /-- CSR_WRITE (R422): A write to a register field that has no row of its own takes effect when its block next samples it, subject to level, state and slow-domain rules. -/
  | csrWrite (path : Path) (off : BitVec 26) (val : Word)
  /-- SLOW_WRITE_CROSSED (R424): A POSTED or STALL write to a slow domain finishes crossing, the block takes the value and its crossing bit falls. -/
  | slowWriteCrossed (dom : Fin 24)
  /-- SLOW_ACCESS_ABANDON (R425): A slow access not crossed within 2 us is abandoned, returns all ones, is counted and writes XD_TIMEOUT. -/
  | slowAccessAbandon (dom : Fin 24)
  /-- NOP (R433): Command NOP completes with OK at once. -/
  | nop (path : Path)
  /-- POWER_UP (R449): Command POWER_UP starts the rails, PLLs, self-tests and training on the way from STANDBY to READY. -/
  | powerUp (path : Path)
  /-- POWER_UP_DONE (R449): The POWER_UP sequence ends in READY, or returns to STANDBY with TIMEOUT and SELFTEST_FAIL. -/
  | powerUpDone (fail : Option (BitVec 16 × BitVec 16))
  /-- POWER_DOWN (R433): Command POWER_DOWN returns the package to STANDBY. -/
  | powerDown (path : Path)
  /-- SERVICE_ENTER (R468): Command SERVICE_ENTER verifies a signed service authorisation, consumes the nonce and enters SERVICE. -/
  | serviceEnter (path : Path) (ok : Bool)
  /-- SERVICE_EXIT (R469): Command SERVICE_EXIT clears the authorisation and returns to READY. -/
  | serviceExit (path : Path)
  /-- SLEEP (R412): Command SLEEP writes back the Depots, discards state, removes the rails and puts the stacks in self-refresh within 5 ms. -/
  | sleep (path : Path)
  /-- WAKE (R413): Command WAKE starts the rails, PLLs, SRAM tests and stack exit from self-refresh. -/
  | wake (path : Path)
  /-- WAKE_DONE (R413): Wake completes in READY at OP15 and records LAST_WAKE_US. -/
  | wakeDone
  /-- REPAIR (R244): Command REPAIR copies each pending row into a spare row and moves failing TSV lanes to spares. -/
  | repair (path : Path)
  /-- REPAIR_DONE (R244): Pending repairs finish, are stored in the repair store and entered in the Cairn record, and the command completes. -/
  | repairDone (ok : Bool)
  /-- ADMIT (R457): Command ADMIT checks the admission block, loads the key, sets S and the job ID, and arms the fence epoch with the new tag. -/
  | admitJob (path : Path)
  /-- LAUNCH (R158): Command LAUNCH accepts the entry, count C and argument, starts the code fetch and joins the launch protocol. -/
  | launch (path : Path)
  /-- FREEZE (R373): Command FREEZE sets the freeze count F and the SAVE choice for the two-phase all-stop cut. -/
  | freeze (path : Path)
  /-- RESUME (R378): Command RESUME runs the launch protocol to restart at C, from a boundary cut at CKP_ENTRY or from saved state. -/
  | resume (path : Path)
  /-- RESTORE (R375): Command RESTORE forms the candidate set of cuts and votes it across the members. -/
  | restore (path : Path)
  /-- TAKEOVER (R381): Command TAKEOVER makes a spare take a rank and rechecks its partners. -/
  | takeover (path : Path)
  /-- RECOVER (R433): Command RECOVER moves a package FAULTED by a sequencer fault to FROZEN with idle cores and empty queues. -/
  | recover (path : Path)
  /-- TEARDOWN (R458): Command TEARDOWN stops cores, discards engine work, tears down the fabric, writes back the Depots and clears ENABLE. -/
  | teardown (path : Path)
  /-- TEARDOWN_DONE (R284): Teardown ends: the tag becomes 0, PASSED clears, and the package enters READY. -/
  | teardownDone
  /-- ERASE (R460): Command ERASE overwrites the custody key, zeroes the state, loads a new key and optionally fills HBM. -/
  | erase (path : Path)
  /-- ERASE_DONE (R461): Erase finishes: the Cairn CUSTODY entry is committed, the custody ID changes, and the signed statement is written. -/
  | eraseDone
  /-- ATTEST (R455): Command ATTEST takes a snapshot of the identity and state fields for a signed report. -/
  | attest (path : Path)
  /-- ATTEST_SIGNED (R455): Signing of the attestation report finishes, the report is written and the count rises. -/
  | attestSigned
  /-- RERATE (R472): Command RERATE verifies a rating record and stores it as pending in the inactive bank. -/
  | rerate (path : Path) (ok : Bool) (rec : Rating)
  /-- RESET_WARM (R451): A warm reset stops cores and engines, writes back the Depots, resets registers except RWS and reruns the firmware. -/
  | resetWarm (path : Path)
  /-- EVENT_ACCEPT (R435): The Logbook accepts a raised event from a source queue into its 4 us hold, or drops it when the queue is full. -/
  | eventAccept (src : BitVec 16)
  /-- EVENT_STORE (R435): After its hold an event is merged into a record or stored as a new one, replacing or dropping records when full. -/
  | eventStore
  /-- EVR_CUR_SEQ (R440): A write sets a cursor's sought SEQ and latches the least present record at or after it. -/
  | evrCurSeq (cur : Fin 3) (seq : Word)
  /-- EVR_CUR_NEXT (R440): A write latches the next present record after the cursor's sought value. -/
  | evrCurNext (cur : Fin 3)
  /-- EVR_CLEAR (R441): A write discards every record in SERVICE; outside SERVICE it is ignored. -/
  | evrClear (path : Path)
  /-- ADD (R138): Scalar add, wrapping. -/
  | add (c : Fin 44) (w : BitVec 22)
  /-- SUB (R138): Scalar subtract, wrapping. -/
  | sub (c : Fin 44) (w : BitVec 22)
  /-- AND (R136): Scalar bitwise AND. -/
  | and (c : Fin 44) (w : BitVec 22)
  /-- OR (R136): Scalar bitwise OR. -/
  | or (c : Fin 44) (w : BitVec 22)
  /-- XOR (R136): Scalar bitwise XOR. -/
  | xor (c : Fin 44) (w : BitVec 22)
  /-- SHL (R138): Scalar shift left, count modulo 64. -/
  | shl (c : Fin 44) (w : BitVec 22)
  /-- SHRL (R138): Scalar logical shift right. -/
  | shrl (c : Fin 44) (w : BitVec 22)
  /-- SHRA (R138): Scalar arithmetic shift right. -/
  | shra (c : Fin 44) (w : BitVec 22)
  /-- MUL (R138): Scalar multiply, low 64 bits. -/
  | mul (c : Fin 44) (w : BitVec 22)
  /-- MULH (R138): High 64 bits of the signed product. -/
  | mulh (c : Fin 44) (w : BitVec 22)
  /-- MULHU (R138): High 64 bits of the unsigned product. -/
  | mulhu (c : Fin 44) (w : BitVec 22)
  /-- DIVU (R138): Unsigned divide; division by zero returns all ones. -/
  | divu (c : Fin 44) (w : BitVec 22)
  /-- REMU (R138): Unsigned remainder; division by zero returns the dividend. -/
  | remu (c : Fin 44) (w : BitVec 22)
  /-- MIN (R136): Signed minimum. -/
  | min (c : Fin 44) (w : BitVec 22)
  /-- MAX (R136): Signed maximum. -/
  | max (c : Fin 44) (w : BitVec 22)
  /-- MINU (R136): Unsigned minimum. -/
  | minu (c : Fin 44) (w : BitVec 22)
  /-- MAXU (R136): Unsigned maximum. -/
  | maxu (c : Fin 44) (w : BitVec 22)
  /-- SLT (R136): Set if signed less than. -/
  | slt (c : Fin 44) (w : BitVec 22)
  /-- SLTU (R136): Set if unsigned less than. -/
  | sltu (c : Fin 44) (w : BitVec 22)
  /-- SEQ (R136): Set if equal. -/
  | seq (c : Fin 44) (w : BitVec 22)
  /-- CLZ (R491): Count leading zeros. -/
  | clz (c : Fin 44) (w : BitVec 22)
  /-- POPCNT (R491): Population count. -/
  | popcnt (c : Fin 44) (w : BitVec 22)
  /-- ADDI (R136): Add a signed 12-bit immediate. -/
  | addi (c : Fin 44) (w : BitVec 22)
  /-- ANDI (R136): AND with an immediate. -/
  | andi (c : Fin 44) (w : BitVec 22)
  /-- ORI (R136): OR with an immediate. -/
  | ori (c : Fin 44) (w : BitVec 22)
  /-- XORI (R136): XOR with an immediate. -/
  | xori (c : Fin 44) (w : BitVec 22)
  /-- SHLI (R136): Shift left by an immediate. -/
  | shli (c : Fin 44) (w : BitVec 22)
  /-- SHRLI (R136): Logical shift right by an immediate. -/
  | shrli (c : Fin 44) (w : BitVec 22)
  /-- SHRAI (R136): Arithmetic shift right by an immediate. -/
  | shrai (c : Fin 44) (w : BitVec 22)
  /-- SLTI (R136): Set if less than an immediate. -/
  | slti (c : Fin 44) (w : BitVec 22)
  /-- STRIP (R138): Set g[D] to min(g[P], lanes) minus 1 for the VX format in the immediate. -/
  | strip (c : Fin 44) (w : BitVec 22)
  /-- MOVZ (R136): Place a 16-bit immediate and clear the other bits. -/
  | movz (c : Fin 44) (hw : BitVec 2) (w : BitVec 22)
  /-- MOVK (R136): Place a 16-bit immediate and keep the other bits. -/
  | movk (c : Fin 44) (hw : BitVec 2) (w : BitVec 22)
  /-- LD8 (R140): Signed 1-byte load from a global address. -/
  | ld8 (c : Fin 44) (w : BitVec 22) (ev : LoadEv)
  /-- LD16 (R140): Signed 2-byte load. -/
  | ld16 (c : Fin 44) (w : BitVec 22) (ev : LoadEv)
  /-- LD32 (R140): Signed 4-byte load. -/
  | ld32 (c : Fin 44) (w : BitVec 22) (ev : LoadEv)
  /-- LD64 (R140): 8-byte load. -/
  | ld64 (c : Fin 44) (w : BitVec 22) (ev : LoadEv)
  /-- LDU8 (R140): Unsigned 1-byte load. -/
  | ldu8 (c : Fin 44) (w : BitVec 22) (ev : LoadEv)
  /-- LDU16 (R140): Unsigned 2-byte load. -/
  | ldu16 (c : Fin 44) (w : BitVec 22) (ev : LoadEv)
  /-- LDU32 (R140): Unsigned 4-byte load. -/
  | ldu32 (c : Fin 44) (w : BitVec 22) (ev : LoadEv)
  /-- ST8 (R140): 1-byte store. -/
  | st8 (c : Fin 44) (w : BitVec 22)
  /-- ST16 (R140): 2-byte store. -/
  | st16 (c : Fin 44) (w : BitVec 22)
  /-- ST32 (R140): 4-byte store. -/
  | st32 (c : Fin 44) (w : BitVec 22)
  /-- ST64 (R140): 8-byte store. -/
  | st64 (c : Fin 44) (w : BitVec 22)
  /-- LDH (R140): 32-byte load into an h register. -/
  | ldh (c : Fin 44) (w : BitVec 22) (ev : LoadEv)
  /-- STH (R140): 32-byte store from an h register. -/
  | sth (c : Fin 44) (w : BitVec 22)
  /-- LOAD_DATA_RETURN (R140): Data of a load that missed the Depot, or of a remote line read, returns to the stalled core. -/
  | loadDataReturn (c : Fin 44)
  /-- BEQ (R136): Branch if equal. -/
  | beq (c : Fin 44) (w : BitVec 22)
  /-- BNE (R136): Branch if not equal. -/
  | bne (c : Fin 44) (w : BitVec 22)
  /-- BLT (R136): Branch if signed less than. -/
  | blt (c : Fin 44) (w : BitVec 22)
  /-- BGE (R136): Branch if signed greater or equal. -/
  | bge (c : Fin 44) (w : BitVec 22)
  /-- BLTU (R136): Branch if unsigned less than. -/
  | bltu (c : Fin 44) (w : BitVec 22)
  /-- BGEU (R136): Branch if unsigned greater or equal. -/
  | bgeu (c : Fin 44) (w : BitVec 22)
  /-- JAL (R136): Jump and link by offset. -/
  | jal (c : Fin 44) (w : BitVec 22)
  /-- JALR (R161): Jump and link to a register target, which must be word aligned. -/
  | jalr (c : Fin 44) (w : BitVec 22)
  /-- BS_MARK (R149): Branch on summary MARK = 1. -/
  | bsMark (c : Fin 44) (w : BitVec 22)
  /-- BS_NMARK (R149): Branch on summary MARK = 0. -/
  | bsNmark (c : Fin 44) (w : BitVec 22)
  /-- BS_TRAP (R149): Branch on summary TRAP = 1. -/
  | bsTrap (c : Fin 44) (w : BitVec 22)
  /-- BS_UE (R149): Branch on summary UE = 1. -/
  | bsUe (c : Fin 44) (w : BitVec 22)
  /-- BS_CNZ (R149): Branch if summary COUNT is non-zero. -/
  | bsCnz (c : Fin 44) (w : BitVec 22)
  /-- BS_CZ (R149): Branch if summary COUNT is zero. -/
  | bsCz (c : Fin 44) (w : BitVec 22)
  /-- BS_VGT (R149): Branch if VALUE is greater than g[Q] under VF. -/
  | bsVgt (c : Fin 44) (w : BitVec 22)
  /-- BS_VLE (R149): Branch if VALUE is at most g[Q] under VF. -/
  | bsVle (c : Fin 44) (w : BitVec 22)
  /-- BS_VEQ (R149): Branch if VALUE equals g[Q] under VF. -/
  | bsVeq (c : Fin 44) (w : BitVec 22)
  /-- SGET_VALUE (R149): Copy summary VALUE to a register. -/
  | sgetValue (c : Fin 44) (w : BitVec 22)
  /-- SGET_COUNT (R149): Copy summary COUNT to a register. -/
  | sgetCount (c : Fin 44) (w : BitVec 22)
  /-- SGET_FIRST (R149): Copy summary FIRST to a register. -/
  | sgetFirst (c : Fin 44) (w : BitVec 22)
  /-- SGET_FLAGS (R149): Copy summary flag bits to a register. -/
  | sgetFlags (c : Fin 44) (w : BitVec 22)
  /-- SVADD (R139): Short-vector add. -/
  | svadd (c : Fin 44) (w : BitVec 22)
  /-- SVSUB (R139): Short-vector subtract. -/
  | svsub (c : Fin 44) (w : BitVec 22)
  /-- SVMUL (R139): Short-vector multiply. -/
  | svmul (c : Fin 44) (w : BitVec 22)
  /-- SVFMA (R139): Short-vector fused multiply-add. -/
  | svfma (c : Fin 44) (w : BitVec 22)
  /-- SVMIN (R139): Short-vector minimum. -/
  | svmin (c : Fin 44) (w : BitVec 22)
  /-- SVMAX (R139): Short-vector maximum. -/
  | svmax (c : Fin 44) (w : BitVec 22)
  /-- SVCVT (R139): Short-vector conversion. -/
  | svcvt (c : Fin 44) (w : BitVec 22)
  /-- SVWMUL (R139): Short-vector widening multiply. -/
  | svwmul (c : Fin 44) (w : BitVec 22)
  /-- SVDOT4 (R139): INT8 four-way dot product into INT32. -/
  | svdot4 (c : Fin 44) (w : BitVec 22)
  /-- SVDOT2 (R139): BF16 or FP16 two-way dot product into FP32. -/
  | svdot2 (c : Fin 44) (w : BitVec 22)
  /-- SVWDOT2 (R139): FP32 two-way dot product into FP64. -/
  | svwdot2 (c : Fin 44) (w : BitVec 22)
  /-- SVBCAST (R139): Broadcast g[P] to the lanes. -/
  | svbcast (c : Fin 44) (w : BitVec 22)
  /-- SVINS (R139): Insert g[P] into a lane. -/
  | svins (c : Fin 44) (w : BitVec 22)
  /-- SVEXT (R139): Extract a lane into g[D]. -/
  | svext (c : Fin 44) (w : BitVec 22)
  /-- SVMV (R139): Copy an h register. -/
  | svmv (c : Fin 44) (w : BitVec 22)
  /-- AMO_ADD (R248): Atomic add at the home Depot. -/
  | amoAdd (c : Fin 44) (w : BitVec 22) (ev : LoadEv)
  /-- AMO_SWAP (R248): Atomic swap. -/
  | amoSwap (c : Fin 44) (w : BitVec 22) (ev : LoadEv)
  /-- AMO_CAS (R248): Atomic compare and swap. -/
  | amoCas (c : Fin 44) (w : BitVec 22) (ev : LoadEv)
  /-- AMO_AND (R248): Atomic AND. -/
  | amoAnd (c : Fin 44) (w : BitVec 22) (ev : LoadEv)
  /-- AMO_OR (R248): Atomic OR. -/
  | amoOr (c : Fin 44) (w : BitVec 22) (ev : LoadEv)
  /-- AMO_MINU (R248): Atomic unsigned minimum. -/
  | amoMinu (c : Fin 44) (w : BitVec 22) (ev : LoadEv)
  /-- AMO_MAXU (R248): Atomic unsigned maximum. -/
  | amoMaxu (c : Fin 44) (w : BitVec 22) (ev : LoadEv)
  /-- SYSRD (R136): Read CORE_ID, package number, global counter or TAG. -/
  | sysrd (c : Fin 44) (w : BitVec 22)
  /-- CSRRD (R140): Core read of a CSR within its reach. -/
  | csrrd (c : Fin 44) (w : BitVec 22)
  /-- CSRWR (R140): Core write of a CSR within its reach. -/
  | csrwr (c : Fin 44) (w : BitVec 22)
  /-- TRET (R153): Return from a trap handler to the delivering instruction and unmask delivery. -/
  | tret (c : Fin 44) (w : BitVec 22)
  /-- HALT (R160): Return a Drover core to IDLE, or end a package sequencer core's part of the job. -/
  | halt (c : Fin 44) (w : BitVec 22)
  /-- FLETRUM_NOP (R136): System-class no-operation. -/
  | fletrumNop (c : Fin 44) (w : BitVec 22)
  /-- WAIT_E (R145): Wait until every instruction issued to one engine, at or before a tag, is complete. -/
  | waitE (c : Fin 44) (w : BitVec 22)
  /-- WAIT_ALL (R145): Wait until every issued instruction is complete. -/
  | waitAll (c : Fin 44) (w : BitVec 22)
  /-- FENCE_LOCAL (R145): Wait until earlier stores and atomics are visible in the package. -/
  | fenceLocal (c : Fin 44) (w : BitVec 22)
  /-- FENCE_REMOTE (R25): Wait until earlier remote writes are acknowledged or meet the dead-target bound. -/
  | fenceRemote (c : Fin 44) (w : BitVec 22)
  /-- WAITSIG (R145): Wait until a Depot word satisfies a condition. -/
  | waitsig (c : Fin 44) (w : BitVec 22)
  /-- BAR (R145): Increment a barrier word atomically and wait for the next multiple of the count. -/
  | bar (c : Fin 44) (w : BitVec 22)
  /-- RHINT (R403): Send a ramp hint for a release count. -/
  | rhint (c : Fin 44) (w : BitVec 22)
  /-- QPT (R154): Mark a quiesce point, check the interval and park if a freeze is due. -/
  | qpt (c : Fin 44) (w : BitVec 22)
  /-- DEPOT_NOTIFY (R147): A Depot write satisfies a waiting WAITSIG or BAR and notifies the core. -/
  | depotNotify (c : Fin 44)
  /-- WAIT_TIMEOUT (R147): A WAITSIG or BAR wait exceeds SEQ_WAIT_LIMIT and the core faults. -/
  | waitTimeout (c : Fin 44)
  /-- CORE_STOP (R163): The command die stops every other core after a fault and the package enters FAULTED. -/
  | coreStop
  /-- ISSUE_MX (R141): ISSUE of kind 0x0 sends a descriptor address to an MX. -/
  | issueMx (c : Fin 44) (w : BitVec 24)
  /-- ISSUE_VX (R141): ISSUE of kind 0x1 sends an operation word and scalar to a VX. -/
  | issueVx (c : Fin 44) (w : BitVec 24)
  /-- ISSUE_VX_RESUME (R141): ISSUE of kind 0x2 sends a resume mode and fix value to a trapped VX. -/
  | issueVxResume (c : Fin 44) (w : BitVec 24)
  /-- ISSUE_SX (R141): ISSUE of kind 0x3 to the stencil engine. -/
  | issueSx (c : Fin 44) (w : BitVec 24)
  /-- ISSUE_ASSAY (R141): ISSUE of kind 0x4 to the Assay unit. -/
  | issueAssay (c : Fin 44) (w : BitVec 24)
  /-- ISSUE_PORTER (R141): ISSUE of kind 0x5 to the Porter. -/
  | issuePorter (c : Fin 44) (w : BitVec 24)
  /-- ISSUE_DISPATCHER (R141): ISSUE of kind 0x6 contributes to a routing batch. -/
  | issueDispatcher (c : Fin 44) (w : BitVec 24)
  /-- ISSUE_SOLVER (R141): ISSUE of kind 0x8 to a solver engine. -/
  | issueSolver (c : Fin 44) (w : BitVec 24)
  /-- ISSUE_COLLECTIVE (R141): ISSUE of kind 0x9 to the collective engine. -/
  | issueCollective (c : Fin 44) (w : BitVec 24)
  /-- ISSUE_CLUSTER_START (R160): ISSUE of kind 0xA reads a start block and starts the named Drover cores. -/
  | issueClusterStart (c : Fin 44) (w : BitVec 24)
  /-- CLUSTER_START_AT_COUNT (R160): A named Drover core starts at ENTRY when the counter reaches START. -/
  | clusterStartAtCount (cl : Fin 36)
  /-- CORE_START_AT_COUNT (R158): Package sequencer cores retire their first instruction at C holding GO; the package enters RUNNING. -/
  | coreStartAtCount
  /-- FREEZE_COUNT_REACHED (R155): The counter reaches F while a core waits at a quiesce point, and the core starts parking. -/
  | freezeCountReached (c : Fin 44)
  /-- CORE_PARK (R155): A core's engine queues empty and it becomes PARKED; when all 44 park the package is FROZEN. -/
  | corePark (c : Fin 44)
  /-- SEQ_STATE_WINDOW (R490): A write of a sequencer state window while FROZEN restores registers or state. -/
  | seqStateWindow (path : Path) (c : Fin 44) (off : BitVec 12) (val : Word)
  /-- MX_ACCEPT (R71): The MX accepts an issued instruction when it has room, reads the descriptor and runs the acceptance checks. -/
  | mxAccept (t : Fin 288) (ecc : DescEcc)
  /-- MX_MM (R42): MX.MM computes D = A.B with exact group sums once its interlock clears. -/
  | mxMm (t : Fin 288) (ecc : Ecc)
  /-- MX_MMA (R42): MX.MMA computes D = A.B + C with exact group sums. -/
  | mxMma (t : Fin 288) (ecc : Ecc)
  /-- MX_COMPLETE (R145): An MX instruction writes its last output and bitmap, sets its flags and delivers any summary. -/
  | mxComplete (t : Fin 288)
  /-- MX_RESTORE (R96): A write while FROZEN restores the MX flags, FLAG_COUNT and LAST_TAG. -/
  | mxRestore (path : Path) (t : Fin 288) (val : Word)
  /-- VX_ACCEPT (R116): The VX accepts an operation word when it has room, reads the stream descriptor and checks it. -/
  | vxAccept (t : Fin 288) (ecc : DescEcc)
  /-- VADD (R103): Vector add. -/
  | vadd (t : Fin 288) (ecc : Ecc)
  /-- VSUB (R103): Vector subtract. -/
  | vsub (t : Fin 288) (ecc : Ecc)
  /-- VMUL (R103): Vector multiply. -/
  | vmul (t : Fin 288) (ecc : Ecc)
  /-- VFMA (R103): Vector s1 x s2 + s3. -/
  | vfma (t : Fin 288) (ecc : Ecc)
  /-- VFMS (R103): Vector s1 x s2 - s3. -/
  | vfms (t : Fin 288) (ecc : Ecc)
  /-- VFNMA (R103): Vector -(s1 x s2) + s3. -/
  | vfnma (t : Fin 288) (ecc : Ecc)
  /-- VMIN (R61): Vector IEEE minimum. -/
  | vmin (t : Fin 288) (ecc : Ecc)
  /-- VMAX (R61): Vector IEEE maximum. -/
  | vmax (t : Fin 288) (ecc : Ecc)
  /-- VMINNUM (R61): Vector minimumNumber. -/
  | vminnum (t : Fin 288) (ecc : Ecc)
  /-- VMAXNUM (R61): Vector maximumNumber. -/
  | vmaxnum (t : Fin 288) (ecc : Ecc)
  /-- VABS (R103): Vector absolute value. -/
  | vabs (t : Fin 288) (ecc : Ecc)
  /-- VNEG (R103): Vector negation. -/
  | vneg (t : Fin 288) (ecc : Ecc)
  /-- VCOPYSIGN (R103): Vector copy of sign. -/
  | vcopysign (t : Fin 288) (ecc : Ecc)
  /-- VGETEXP (R106): Vector floor(log2|x|). -/
  | vgetexp (t : Fin 288) (ecc : Ecc)
  /-- VGETMANT (R106): Vector significand in [1, 2). -/
  | vgetmant (t : Fin 288) (ecc : Ecc)
  /-- VSCALE (R106): Vector s1 x 2^n, rounded once. -/
  | vscale (t : Fin 288) (ecc : Ecc)
  /-- VROUNDI (R106): Vector round to integral under RM. -/
  | vroundi (t : Fin 288) (ecc : Ecc)
  /-- VCMPEQ (R60): Vector compare equal into a mask. -/
  | vcmpeq (t : Fin 288) (ecc : Ecc)
  /-- VCMPNE (R60): Vector compare not equal. -/
  | vcmpne (t : Fin 288) (ecc : Ecc)
  /-- VCMPLT (R60): Vector compare less than. -/
  | vcmplt (t : Fin 288) (ecc : Ecc)
  /-- VCMPLE (R60): Vector compare less or equal. -/
  | vcmple (t : Fin 288) (ecc : Ecc)
  /-- VCMPGT (R60): Vector compare greater than. -/
  | vcmpgt (t : Fin 288) (ecc : Ecc)
  /-- VCMPGE (R60): Vector compare greater or equal. -/
  | vcmpge (t : Fin 288) (ecc : Ecc)
  /-- VCMPUN (R60): Vector compare unordered. -/
  | vcmpun (t : Fin 288) (ecc : Ecc)
  /-- VSEL (R103): Vector select by mask. -/
  | vsel (t : Fin 288) (ecc : Ecc)
  /-- VCLASS (R103): Vector classification into a mask. -/
  | vclass (t : Fin 288) (ecc : Ecc)
  /-- VCVT (R107): Vector format conversion. -/
  | vcvt (t : Fin 288) (ecc : Ecc)
  /-- VIADD (R103): Vector wrapping integer add. -/
  | viadd (t : Fin 288) (ecc : Ecc)
  /-- VISUB (R103): Vector wrapping integer subtract. -/
  | visub (t : Fin 288) (ecc : Ecc)
  /-- VIMUL (R103): Vector wrapping integer multiply. -/
  | vimul (t : Fin 288) (ecc : Ecc)
  /-- VAND (R103): Vector bitwise AND. -/
  | vand (t : Fin 288) (ecc : Ecc)
  /-- VOR (R103): Vector bitwise OR. -/
  | vor (t : Fin 288) (ecc : Ecc)
  /-- VXOR (R103): Vector bitwise XOR. -/
  | vxor (t : Fin 288) (ecc : Ecc)
  /-- VNOT (R103): Vector bitwise NOT. -/
  | vnot (t : Fin 288) (ecc : Ecc)
  /-- VSHL (R103): Vector shift left. -/
  | vshl (t : Fin 288) (ecc : Ecc)
  /-- VSHRL (R103): Vector logical shift right. -/
  | vshrl (t : Fin 288) (ecc : Ecc)
  /-- VSHRA (R103): Vector arithmetic shift right. -/
  | vshra (t : Fin 288) (ecc : Ecc)
  /-- VROTL (R103): Vector rotate left. -/
  | vrotl (t : Fin 288) (ecc : Ecc)
  /-- VIMIN (R103): Vector integer minimum. -/
  | vimin (t : Fin 288) (ecc : Ecc)
  /-- VIMAX (R103): Vector integer maximum. -/
  | vimax (t : Fin 288) (ecc : Ecc)
  /-- VIABS (R103): Vector integer absolute value. -/
  | viabs (t : Fin 288) (ecc : Ecc)
  /-- VSADD (R108): Vector saturating add. -/
  | vsadd (t : Fin 288) (ecc : Ecc)
  /-- VSSUB (R108): Vector saturating subtract. -/
  | vssub (t : Fin 288) (ecc : Ecc)
  /-- VSMUL (R108): Vector saturating multiply. -/
  | vsmul (t : Fin 288) (ecc : Ecc)
  /-- VSABS (R108): Vector saturating absolute value. -/
  | vsabs (t : Fin 288) (ecc : Ecc)
  /-- VSNEG (R108): Vector saturating negation. -/
  | vsneg (t : Fin 288) (ecc : Ecc)
  /-- VSNARROW (R108): Vector saturating narrowing from INT32 to INT8. -/
  | vsnarrow (t : Fin 288) (ecc : Ecc)
  /-- VQMULH (R108): Vector rounding fixed-point multiply, high part. -/
  | vqmulh (t : Fin 288) (ecc : Ecc)
  /-- VQRDMLAH (R108): Vector rounding fixed-point multiply-accumulate. -/
  | vqrdmlah (t : Fin 288) (ecc : Ecc)
  /-- VQRSHR (R108): Vector rounding shift right. -/
  | vqrshr (t : Fin 288) (ecc : Ecc)
  /-- VQRSHRN (R108): Vector rounding shift right with narrowing from Q31 to Q7. -/
  | vqrshrn (t : Fin 288) (ecc : Ecc)
  /-- VQAVG (R108): Vector rounding average. -/
  | vqavg (t : Fin 288) (ecc : Ecc)
  /-- VRSUM (R109): Vector sum reduction to the summary. -/
  | vrsum (t : Fin 288) (ecc : Ecc)
  /-- VRSUMSQ (R109): Vector sum of squares. -/
  | vrsumsq (t : Fin 288) (ecc : Ecc)
  /-- VRMAX (R109): Vector maximum reduction. -/
  | vrmax (t : Fin 288) (ecc : Ecc)
  /-- VRMIN (R109): Vector minimum reduction. -/
  | vrmin (t : Fin 288) (ecc : Ecc)
  /-- VRMAXABS (R109): Vector maximum-magnitude reduction. -/
  | vrmaxabs (t : Fin 288) (ecc : Ecc)
  /-- VRISUM (R109): Exact integer sum reduction. -/
  | vrisum (t : Fin 288) (ecc : Ecc)
  /-- VRIMAX (R109): Integer maximum reduction. -/
  | vrimax (t : Fin 288) (ecc : Ecc)
  /-- VLD (R104): Vector load from tile SRAM. -/
  | vld (t : Fin 288) (ecc : Ecc)
  /-- VST (R104): Vector store to tile SRAM. -/
  | vst (t : Fin 288) (ecc : Ecc)
  /-- VLDS (R104): Strided vector load. -/
  | vlds (t : Fin 288) (ecc : Ecc)
  /-- VSTS (R104): Strided vector store. -/
  | vsts (t : Fin 288) (ecc : Ecc)
  /-- VBCAST (R103): Vector broadcast. -/
  | vbcast (t : Fin 288) (ecc : Ecc)
  /-- VPERM (R106): Vector permute by lane index. -/
  | vperm (t : Fin 288) (ecc : Ecc)
  /-- VSLIDEUP (R103): Vector slide up. -/
  | vslideup (t : Fin 288) (ecc : Ecc)
  /-- VSLIDEDN (R103): Vector slide down. -/
  | vslidedn (t : Fin 288) (ecc : Ecc)
  /-- VMV (R103): Vector register move. -/
  | vmv (t : Fin 288) (ecc : Ecc)
  /-- VX_RESUME_RECOMPUTE (R113): Resume mode 0b00 recomputes the trapped element with its trap masked and continues. -/
  | vxResumeRecompute (t : Fin 288)
  /-- VX_RESUME_FIX (R113): Resume mode 0b01 writes VX_FIX at the trapped element and continues. -/
  | vxResumeFix (t : Fin 288)
  /-- VX_RESUME_END (R113): Resume mode 0b10 ends the instruction and delivers its summary. -/
  | vxResumeEnd (t : Fin 288)
  /-- VX_COMPLETE (R111): A VX instruction finishes its writes and delivers its summary if enabled. -/
  | vxComplete (t : Fin 288)
  /-- VX_RESTORE (R130): A write while FROZEN restores the VX status fields. -/
  | vxRestore (path : Path) (t : Fin 288) (val : Word)
  /-- VX_REGFILE_WINDOW (R130): A write of the vector or mask register window while FROZEN restores registers. -/
  | vxRegfileWindow (path : Path) (t : Fin 288) (off : BitVec 14) (val : Word)
  /-- SX_ACCEPT (R126): The SX accepts an instruction when it has room, reads the descriptor and tap table and checks them. -/
  | sxAccept (cl : Fin 36) (ecc : TapEcc)
  /-- SX_STENCIL (R120): The SX applies the tap table to every point of the region with its boundary modes. -/
  | sxStencil (cl : Fin 36) (ecc : Ecc)
  /-- SX_COMPLETE (R111): An SX instruction finishes and delivers its summary. -/
  | sxComplete (cl : Fin 36)
  /-- SX_RESTORE (R130): A write while FROZEN restores the SX status fields. -/
  | sxRestore (path : Path) (cl : Fin 36) (val : Word)
  /-- DSP_CONTRIBUTION (R174): The Dispatcher checks and accepts a contribution, opening a batch or joining one when a slot is free. -/
  | dspContribution (d : Fin 4) (ecc : Ecc)
  /-- DSP_EXCHANGE_DONE (R169): Every named die has written its count slot, so offsets are formed and lists are placed. -/
  | dspExchangeDone (d : Fin 4)
  /-- DSP_BATCH_DONE (R171): A batch finishes its lists, counts, pads and drop map and sends every contributor its summary. -/
  | dspBatchDone (d : Fin 4)
  /-- DSP_BATCH_TIMEOUT (R173): A batch timeout expires and every contributing core takes WAIT_TIMEOUT. -/
  | dspBatchTimeout (d : Fin 4)
  /-- DSP_STATE_WINDOW (R196): A write of the Dispatcher state window while FROZEN restores open batches. -/
  | dspStateWindow (path : Path) (d : Fin 4) (off : BitVec 11) (val : Word)
  /-- ASY_ACCEPT (R185): The Assay unit accepts and checks a conversion descriptor. -/
  | asyAccept (cl : Fin 36) (ecc : DescEcc)
  /-- ASY_NARROW (R179): A narrowing chooses block scales, rounds elements and writes the error sidecar. -/
  | asyNarrow (cl : Fin 36) (ecc : Ecc)
  /-- ASY_WIDEN (R182): A widening converts exactly and writes magnitudes or errors against a reference. -/
  | asyWiden (cl : Fin 36) (ecc : Ecc)
  /-- ASY_COMPLETE (R183): An Assay instruction finishes and delivers its summary. -/
  | asyComplete (cl : Fin 36)
  /-- ASY_RESTORE (R196): A write while FROZEN restores the Assay status fields. -/
  | asyRestore (path : Path) (cl : Fin 36) (val : Word)
  /-- POR_ACCEPT (R193): The Porter accepts and checks a movement descriptor. -/
  | porAccept (cl : Fin 36) (ecc : DescEcc)
  /-- POR_COPY (R186): Porter three-dimensional strided copy. -/
  | porCopy (cl : Fin 36) (ecc : Ecc)
  /-- POR_GATHER (R187): Porter gather of rows by index list. -/
  | porGather (cl : Fin 36) (ecc : Ecc)
  /-- POR_SCATTER (R187): Porter scatter of rows by index list. -/
  | porScatter (cl : Fin 36) (ecc : Ecc)
  /-- POR_TRANSPOSE (R186): Porter transpose. -/
  | porTranspose (cl : Fin 36) (ecc : Ecc)
  /-- POR_FILL (R186): Porter fill with a constant. -/
  | porFill (cl : Fin 36) (ecc : Ecc)
  /-- POR_COMPLETE (R189): Once remote reads have returned and writes are acknowledged, the Porter writes its bitmap and digest and delivers its summary. -/
  | porComplete (cl : Fin 36)
  /-- POR_RESTORE (R196): A write while FROZEN restores the Porter status fields. -/
  | porRestore (path : Path) (cl : Fin 36) (val : Word)
  /-- SLV_ACCEPT (R218): A solver engine accepts and checks a descriptor. -/
  | slvAccept (e : Fin 8) (ecc : DescEcc)
  /-- CHOL (R208): Batched Cholesky factorisation and optional solve. -/
  | chol (e : Fin 8) (ecc : Ecc)
  /-- LDLT (R208): Batched LDLT factorisation without pivoting. -/
  | ldlt (e : Fin 8) (ecc : Ecc)
  /-- QR (R208): Batched Householder QR and least squares. -/
  | qr (e : Fin 8) (ecc : Ecc)
  /-- GN (R210): Batched Gauss-Newton step. -/
  | gn (e : Fin 8) (ecc : Ecc)
  /-- LM (R214): Batched Levenberg-Marquardt step with lambda update. -/
  | lm (e : Fin 8) (ecc : Ecc)
  /-- SLV_PROBLEM_END (R215): A problem ends and writes its outputs, status word and warm record. -/
  | slvProblemEnd (e : Fin 8)
  /-- SLV_COMPLETE (R198): A solver instruction completes and increments its DONE word. -/
  | slvComplete (e : Fin 8)
  /-- SLV_RESTORE (R222): A write while FROZEN restores the solver status. -/
  | slvRestore (path : Path) (e : Fin 8) (val : Word)
  /-- SLV_STATE_WINDOW (R222): A write of the solver state window while FROZEN restores held instructions. -/
  | slvStateWindow (path : Path) (e : Fin 8) (off : BitVec 10) (val : Word)
  /-- HBM_LINE_READ (R235): A channel reads a line, correcting or poisoning it and updating repair qualification. -/
  | hbmLineRead (s : Fin 12) (c : Fin 32) (line : BitVec 24) (row : BitVec 16) (bank : BitVec 8) (err : Fin 3)
  /-- HBM_LINE_WRITE (R226): A channel writes a line, encrypted, clearing poison when the line is written whole. -/
  | hbmLineWrite (s : Fin 12) (c : Fin 32) (line : BitVec 24) (data : Line)
  /-- PATROL_SCRUB (R235): The patrol scrubber reads a line in idle cycles. -/
  | patrolScrub (s : Fin 12) (c : Fin 32) (line : BitVec 24) (row : BitVec 16) (bank : BitVec 8) (err : Fin 3)
  /-- REFRESH (R239): A channel refresh falls due, postponed during a retrain slice. -/
  | refresh (s : Fin 12) (c : Fin 32)
  /-- REDUCING_WRITE (R250): A home Depot combines a whole-line reduction-window write into the target line. -/
  | reducingWrite (off : BitVec 48) (data : Line) (poison : Bool) (ue : Bool)
  /-- RETRAIN_ON_ERRORS (R240): A channel's interface-error count reaches the threshold within 1 ms and a retrain starts. -/
  | retrainOnErrors (s : Fin 12) (c : Fin 32)
  /-- RETRAIN_PERIODIC (R240): 200 ms after its last retrain a channel starts a retrain. -/
  | retrainPeriodic (s : Fin 12) (c : Fin 32)
  /-- MEM_RETRAIN (R240): A write requests a retrain of an in-service channel. -/
  | memRetrain (s : Fin 12) (c : Fin 32)
  /-- RETRAIN_SLICE_START (R241): A retrain slice begins and requests to the channel wait. -/
  | retrainSliceStart (s : Fin 12) (c : Fin 32)
  /-- RETRAIN_SLICE_END (R241): A slice ends; after the last one the margin check passes, retries or takes the channel out of service. -/
  | retrainSliceEnd (s : Fin 12) (c : Fin 32) (last : Bool) (marginOk : Bool)
  /-- MEM_SELFTEST (R243): A write starts the isolated self-test of an out-of-service channel. -/
  | memSelftest (s : Fin 12) (c : Fin 32)
  /-- MEM_SELFTEST_DONE (R243): The channel self-test ends with PASS or failure. -/
  | memSelftestDone (s : Fin 12) (c : Fin 32) (pass : Bool)
  /-- MEM_ADMIT (R243): A write requests admission of a passed channel at the next step boundary and epoch switch. -/
  | memAdmit (s : Fin 12) (c : Fin 32)
  /-- MEM_SPREAD_WRITE (R230): A write of the spread size takes effect in READY, or is ignored and logged. -/
  | memSpreadWrite (path : Path) (val : Word)
  /-- DEP_FLUSH (R255): A write starts the write-back of every modified Depot line. -/
  | depFlush (d : Fin 4)
  /-- DEP_INVAL (R255): A write starts the write-back and invalidation of every Depot line. -/
  | depInval (path : Path) (d : Fin 4)
  /-- DEPOT_FLUSH_DONE (R255): A Depot flush or invalidation finishes and FLUSHING clears. -/
  | depotFlushDone (d : Fin 4)
  /-- FLIT_RECEIVE (R261): A link receiver takes a flit, checks CRC and SEQ, acknowledges, and delivers or discards its messages. -/
  | flitReceive (port : Fin 24) (f : Flit)
  /-- LINK_REPLAY_TIMEOUT (R261): 2 us without an acknowledgement makes the sender resend, or retrain after 8 sends. -/
  | linkReplayTimeout (port : Fin 24)
  /-- RD (R270): A remote line read request is served at the home Depot, or refused. -/
  | rd (fd : Fin 2) (m : Msg)
  /-- RDRSP (R264): Read data return and complete a remote read; a late one is dropped. -/
  | rdrsp (fd : Fin 2) (m : Msg)
  /-- WR (R270): A remote line write is applied coherently, or as a reducing write, then acknowledged. -/
  | wr (fd : Fin 2) (m : Msg)
  /-- WRACK (R264): A write acknowledgement completes a remote write. -/
  | wrack (fd : Fin 2) (m : Msg)
  /-- CARAVAN_NACK (R274): A refusal completes a read as poison, or a write as acknowledged, and is logged. -/
  | caravanNack (fd : Fin 2) (m : Msg)
  /-- DEAD_TARGET_EXPIRY (R272): A remote request's timer expires: a read completes as poison, a write is dropped, and REMOTE_DEAD is logged. -/
  | deadTargetExpiry (fd : Fin 2) (txid : BitVec 15)
  /-- PORT_LOSS_OF_SIGNAL (R275): 1 us without signal takes a port DOWN and resends or reports its replay buffer. -/
  | portLossOfSignal (p : Fin 22)
  /-- PORT_TRAINED (R278): A port finishes training and sends its identity message. -/
  | portTrained (p : Fin 22) (lanes : Fin 9)
  /-- PORT_IDENTITY (R279): A received identity is compared with the cabling plan and the port is classified. -/
  | portIdentity (p : Fin 22) (serial : DWord) (pkg : BitVec 16) (port : BitVec 5)
  /-- PORT_MISSING_TIMEOUT (R279): No peer trains within 100 ms of enable and the port is classed MISSING. -/
  | portMissingTimeout (p : Fin 22)
  /-- PORT_SELFTEST (R277): A 1 ms isolated self-test starts, by request or on the way back to service. -/
  | portSelftest (p : Fin 22)
  /-- PORT_SELFTEST_DONE (R277): The port self-test ends and sets SELFTEST_PASS. -/
  | portSelftestDone (p : Fin 22) (pass : Bool)
  /-- PORT_ADMIT (R277): A request to admit a passed port at the next epoch switch. -/
  | portAdmit (p : Fin 22)
  /-- PORT_RETRAIN (R275): A request to retrain a port. -/
  | portRetrain (p : Fin 22)
  /-- PORT_DISABLE (R275): Clearing PORT_CTRL.ENABLE takes the port DOWN at once. -/
  | portDisable (p : Fin 22)
  /-- FAB_EPOCH_ARM (R280): ARM samples the epoch count and arms a switch on the fabric die. -/
  | fabEpochArm (fd : Fin 2)
  /-- FAB_EPOCH_DISARM (R280): DISARM cancels an armed epoch switch. -/
  | fabEpochDisarm (fd : Fin 2)
  /-- EPOCH_SWITCH (R280): At a commit or the armed count, tables and the tag swap if armed, and pending units are admitted. -/
  | epochSwitch (commit : Bool)
  /-- EPOCH_GRACE_END (R281): The grace period after an armed switch ends and previous-epoch messages are dropped. -/
  | epochGraceEnd (fd : Fin 2)
  /-- EPOCH_MARK (R283): A fence-epoch mark is received and counts toward FAB_JOB.PASSED. -/
  | epochMark (p : Fin 22)
  /-- ROUTE_DATA (R287): A Route DATA frame is checked, sequenced, acknowledged and its messages delivered once. -/
  | routeData (r : Fin 4) (f : RouteFrame)
  /-- ROUTE_ACK (R287): A Route ACK frame releases acknowledged frames from the window. -/
  | routeAck (r : Fin 4) (f : RouteFrame)
  /-- ROUTE_ANNOUNCE (R285): A Route port sends its announce frame every 100 ms. -/
  | routeAnnounce (r : Fin 4)
  /-- ROUTE_RTO_EXPIRY (R287): An unacknowledged frame is resent, or the peer becomes unreachable after MAX_TX. -/
  | routeRtoExpiry (fd : Fin 2) (peer : BitVec 16) (seq : BitVec 32)
  /-- RD_S (R291): Halter request for a shared copy. -/
  | rdS (m : HalMsg)
  /-- RD_O (R291): Halter request for the only copy. -/
  | rdO (m : HalMsg)
  /-- UPG (R292): Halter upgrade from shared to owned. -/
  | upg (m : HalMsg)
  /-- RD_NC (R291): Halter uncached read of 1 to 8 lines. -/
  | rdNc (m : HalMsg)
  /-- WR_FULL (R291): Halter uncached write of whole lines. -/
  | wrFull (m : HalMsg)
  /-- SNP_INV (R291): Snoop to invalidate a copy. -/
  | snpInv (m : HalMsg)
  /-- SNP_DOWN (R291): Snoop to downgrade to shared. -/
  | snpDown (m : HalMsg)
  /-- RSP_I (R291): Snoop response: no copy held. -/
  | rspI (m : HalMsg)
  /-- RSP_S (R291): Snoop response: shared copy kept. -/
  | rspS (m : HalMsg)
  /-- RSP_DATA_I (R291): Snoop response with modified data, copy given up. -/
  | rspDataI (m : HalMsg)
  /-- RSP_DATA_S (R291): Snoop response with modified data, shared copy kept. -/
  | rspDataS (m : HalMsg)
  /-- WB (R292): Write back of a modified line. -/
  | wb (m : HalMsg)
  /-- CMP (R291): Completion of an upgrade, write or write-back. -/
  | cmp (m : HalMsg)
  /-- DATA_S (R291): Data for RD_S. -/
  | dataS (m : HalMsg)
  /-- DATA_O (R291): Data for RD_O or RD_NC. -/
  | dataO (m : HalMsg)
  /-- CSR_RD (R417): Companion CSR read over Halter. -/
  | csrRd (m : HalMsg)
  /-- CSR_WR (R417): Companion CSR write over Halter. -/
  | csrWr (m : HalMsg)
  /-- CSR_RSP (R291): CSR read data returned to the companion. -/
  | csrRsp
  /-- HALTER_NACK (R290): A refused Halter request. -/
  | halterNack (m : HalMsg)
  /-- HALTER_SNP_TIMEOUT (R293): A snoop or companion request unanswered for HAL_SNP_TIMEOUT is taken back poisoned. -/
  | halterSnpTimeout (txid : BitVec 16)
  /-- HALTER_PORT_DOWN (R294): One Halter port goes down and its traffic moves to the other port. -/
  | halterPortDown (port : Fin 2)
  /-- HALTER_DOWN (R294): Both Halter ports down for 1 ms: owned lines are taken back and companion requests poisoned. -/
  | halterDown
  /-- GROUP_ENTRY_WRITE (R299): A write of a group table entry takes effect when no collective names the group, or is logged. -/
  | groupEntryWrite (path : Path) (off : BitVec 26) (val : Word)
  /-- COL_ACCEPT (R325): The collective engine accepts a descriptor, checks it and assigns SEQ. -/
  | colAccept (ue : Bool)
  /-- BARRIER (R301): A collective that completes when every member has joined. -/
  | barrier (g : Fin 256)
  /-- BROADCAST (R301): Collective copy from the root. -/
  | broadcast (g : Fin 256)
  /-- REDUCE (R301): Collective combination delivered at the root. -/
  | reduce (g : Fin 256)
  /-- ALLREDUCE (R301): Collective combination delivered at every member. -/
  | allreduce (g : Fin 256)
  /-- REDUCE_SCATTER (R301): Collective combination scattered by block. -/
  | reduceScatter (g : Fin 256)
  /-- ALLGATHER (R301): Collective gather to every member. -/
  | allgather (g : Fin 256)
  /-- ALLTOALLV (R314): Count-led all-to-all with allowances. -/
  | alltoallv (g : Fin 256)
  /-- ALLTOALL_CAP (R315): Capacity-padded all-to-all. -/
  | alltoallCap (g : Fin 256)
  /-- JOIN (R303): A received join carries a call signature, algorithm choice and claim flag. -/
  | join (m : ColMsg) (sig : CallSig) (algo : Fin 5)
  /-- EXP (R306): A phase-1 exponent and special-value word of a FIX64 sum. -/
  | exp (m : ColMsg)
  /-- DATA (R313): A collective data chunk is received, CRC-checked and then combined, forwarded or delivered. -/
  | data (m : ColMsg)
  /-- COUNTS (R314): All-to-all send counts received. -/
  | counts (m : ColMsg) (n : Nat)
  /-- ALLOW (R314): All-to-all grant received. -/
  | allow (m : ColMsg) (n : Nat)
  /-- PROGRESS (R316): A progress message records a neighbour's state and quiesce count. -/
  | progress (m : ColMsg) (state : BitVec 4) (qcount : Nat)
  /-- PROGRESS_SEND_TIMER (R316): The progress period elapses and PROGRESS is sent to the control-tree neighbours. -/
  | progressSendTimer (g : Fin 256)
  /-- ABORT (R318): An abort is received and forwarded; the collective completes with TRAP and the group is BROKEN. -/
  | abort (m : ColMsg) (cause : BitVec 8) (origin : BitVec 16)
  /-- COL_PROGRESS_TIMEOUT (R316): No progress for COL_TIMEOUT aborts the collective with TIMEOUT. -/
  | colProgressTimeout (g : Fin 256)
  /-- PEER_SILENT (R317): Four progress periods without a message from a member abort with PEER_DEAD. -/
  | peerSilent (g : Fin 256) (rank : BitVec 16)
  /-- FREEZE_MARK (R319): A peer's freeze mark is received; with all marks held the collective state is complete for saving. -/
  | freezeMark (m : ColMsg)
  /-- COL_COMPLETE (R302): A collective completes at a member and delivers its summary. -/
  | colComplete (g : Fin 256)
  /-- COL_RESTORE (R319): A write while FROZEN restores the collective status. -/
  | colRestore (path : Path) (val : Word)
  /-- COL_STATE_WINDOW (R319): A write of the collective state window while FROZEN restores open collectives. -/
  | colStateWindow (path : Path) (off : BitVec 14) (val : Word)
  /-- PREPARE (R320): A launch PREPARE is received, its table CRC checked, and forwarded once the launch is accepted. -/
  | prepare (src : BitVec 16) (crc : DWord)
  /-- READY (R320): A child's READY is received; once all are held, READY goes to the parent. -/
  | ready (src : BitVec 16)
  /-- GO (R320): A launch GO is received and forwarded down the tree. -/
  | go (src : BitVec 16)
  /-- ADOPT (R321): An alternate adopts an orphaned node and sends it PREPARE. -/
  | adopt (src : BitVec 16) (orphan : BitVec 16)
  /-- LAUNCH_CHILD_TIMEOUT (R321): No READY from a child within CHILD_US: abort for a member, re-parenting for a relay. -/
  | launchChildTimeout (child : BitVec 16)
  /-- LAUNCH_MARGIN (R320): The root reaches C - MARGIN and sends GO, or ABORT with LATE_READY. -/
  | launchMargin
  /-- GCT_DIG_GO (R343): A write starts the digest combiner on a slot. -/
  | gctDigGo (slot : Fin 2)
  /-- DIG_COMBINER_DONE (R343): The combiner writes the layer table, or stops on an order error. -/
  | digCombinerDone
  /-- SYNC_EXCHANGE_TIMER (R345): Every 1 ms a follower sends a sync request to its parent. -/
  | syncExchangeTimer
  /-- SYNC_REQUEST (R345): A parent timestamps a sync request and returns a response. -/
  | syncRequest (port : Fin 22) (src : BitVec 16) (slot : Slot)
  /-- SYNC_RESPONSE (R345): A follower timestamps a response and computes offset and delay. -/
  | syncResponse (port : Fin 22) (slot : Slot)
  /-- SYNC_CORRECTION (R344): After 16 exchanges the least-delay offset corrects the counter by slewing or stepping. -/
  | syncCorrection
  /-- ROUTE_SYNC_TIMER (R346): Every 10 ms a Caravan reference exchanges sync messages over the Route. -/
  | routeSyncTimer (ref : BitVec 16)
  /-- PPS_EDGE (R346): A PPS rising edge is taken as a whole second, or rejected. -/
  | ppsEdge (at_ : DWord)
  /-- PPS_MISSING (R481): 1.5 s after the expected instant without an edge counts one missing edge. -/
  | ppsMissing
  /-- PARENT_SILENT (R348): A silent parent for 16 ms moves the follower to another parent or to HOLDOVER. -/
  | parentSilent
  /-- REFERENCE_SILENT (R348): A silent Caravan reference is replaced by the lowest locked candidate. -/
  | referenceSilent (lowest : Bool)
  /-- GCT_SET (R344): A write of GCT_SET_HI steps the counter outside a job. -/
  | gctSet (path : Path) (val : DWord)
  /-- CKP_ENABLE (R357): Setting ENABLE checks the region placements and enables cuts, or rejects. -/
  | ckpEnable (path : Path)
  /-- CKP_BOUNDARY (R360): A write of CKP_BOUNDARY_LO checks the boundary and sends the vote. -/
  | ckpBoundary (path : Path) (lo : Word)
  /-- VOTE (R361): A vote is combined up the control tree; rank 0 decides. -/
  | vote (src : BitVec 16) (v : VoteMsg)
  /-- DECIDE_COMMIT (R363): COMMIT advances the step, switches the epoch, starts the Firn copy and starts any drain. -/
  | decideCommit (step : DWord) (drain : Bool)
  /-- DECIDE_REPLAY (R366): REPLAY idles the cores, restores the step's ranges and votes again. -/
  | decideReplay (step : DWord)
  /-- DECIDE_FAIL (R365): FAIL makes a recovery freeze. -/
  | decideFail (step : DWord) (code : Byte)
  /-- DECIDE_GO (R366): GO sets the restart count of a replayed step. -/
  | decideGo (step : DWord) (count : DWord)
  /-- REPLAY_RESTART (R366): At COUNT, the package sequencer cores restart at CKP_ENTRY. -/
  | replayRestart
  /-- FIRN_COPY_DONE (R363): A Firn copy commits its slot and writes the notify word, or fails as COPY_BAD. -/
  | firnCopyDone (ok : Bool) (ns : Word)
  /-- MIRROR_COPY_DONE (R368): The mirror copy to the rope partner commits. -/
  | mirrorCopyDone (ok : Bool)
  /-- DURABLE_COPY_DONE (R368): The durable copy over Halter commits; with the mirror done the pin is released. -/
  | durableCopyDone (ok : Bool)
  /-- FREEZE_PHASE1_READY (R373): Parked, settled and drained, the package votes ready for the all-stop cut. -/
  | freezePhase1Ready
  /-- FREEZE_SAVE_DONE (R373): The Depot flush and freeze-cut save finish and FREEZE completes. -/
  | freezeSaveDone
  /-- RESTORE_COPY_DONE (R377): A member finishes restoring the chosen cut from a source, or tries the next. -/
  | restoreCopyDone (ok : Bool)
  /-- CKP_AUDIT_GO (R387): A write starts comparing audit entries with the owner's records. -/
  | ckpAuditGo (n : BitVec 16)
  /-- AUDIT_DONE (R387): Audit comparisons end, updating the score and reporting mismatches. -/
  | auditDone
  /-- AUDIT_MISMATCH (R387): An auditor's mismatch report is received by the owner. -/
  | auditMismatch (auditor : BitVec 16) (layer : Word) (piece : Word)
  /-- SUSPICION_CLEAR (R388): CKP_SUSPICION.CLEAR in SERVICE clears the quarantine. -/
  | suspicionClear (path : Path)
  /-- PWR_PREF (R396): A write sets the preferred operating point. -/
  | pwrPref (path : Path) (val : Word)
  /-- PWR_HOST_OP (R397): A write sets the HOST_REQ demand. -/
  | pwrHostOp (path : Path) (val : Word)
  /-- PWR_CAP (R398): A write sets the power cap. -/
  | pwrCap (path : Path) (val : Word)
  /-- OP_CHANGE (R394): A new effective operating point is applied by switching frequency and ramping voltage. -/
  | opChange
  /-- OP_FREQ_SWITCH (R394): A rail reaches within 3 mV of the new setpoint and the faster clock is switched in. -/
  | opFreqSwitch
  /-- CAP_TICK (R398): Every 1 ms the cap, droop and thermal loops evaluate their demands. -/
  | capTick (avgW : Nat) (avg10W : Nat) (stretch : List Nat)
  /-- DEMAND_RECOVERY (R398): UP_TICKS quiet ticks lower a demand by one. -/
  | demandRecovery (reason : Fin 7)
  /-- CAP_UNMET (R399): Ten ticks at OP15 above the cap set CAP_UNMET. -/
  | capUnmet
  /-- CURRENT_SAMPLE (R400): A 10 us power and current sample raises the CURRENT demand on a breach. -/
  | currentSample (p : PowerSample)
  /-- CURRENT_OVER_TOTAL (R400): 800 us above 4,600 W within 10 ms raises the CURRENT demand. -/
  | currentOverTotal
  /-- DROOP_TRIP (R401): A droop detector trips and halves its die's arithmetic clock. -/
  | droopTrip (d : Fin 7)
  /-- DROOP_STRETCH_END (R401): After 32 clean cycles the clock runs at three quarters, then full after 16 more. -/
  | droopStretchEnd (d : Fin 7)
  /-- RAMP_BOOST_START (R403): At Rc - 20 us every die raises its setpoint by the boost. -/
  | rampBoostStart
  /-- RAMP_BOOST_END (R403): At Rc + 20 us the boost ends. -/
  | rampBoostEnd
  /-- SENSOR_SAMPLE (R405): Every 100 us sensors are sampled, validated and checked against thermal limits. -/
  | sensorSample (rs : List SensorReading) (stackTemps : List Nat) (inletC : Int) (outletC : Int)
  /-- THERMAL_TRIP (R407): 115 C for 1 ms, or a stack at 110 C, removes the rails and faults the package. -/
  | thermalTrip (die : Fin 19) (tempC : Nat)
  /-- POWER_STAGE_WARN (R409): A power-stage warning sets the FAULT demand to 15. -/
  | powerStageWarn (rail : BitVec 8)
  /-- FAULT_DEMAND_CLEAR (R409): 100 ms after the last warning or sensor shortage the FAULT demand clears. -/
  | faultDemandClear
  /-- POWER_STAGE_FAIL (R409): A rail out of 5 % for 100 us removes the rails and faults the package. -/
  | powerStageFail (rail : BitVec 8)
  /-- POWER_HANDOVER (R411): Hourly, at SLEEP and at teardown, power figures go to the Cairn record. -/
  | powerHandover
  /-- COLD_START (R452): HOST_PWR_EN and LEVER_CLOSED held for 50 ms start the always-on rails and boot. -/
  | coldStart
  /-- BOOT_DONE (R445): Boot verifies an image and a rating record and enters STANDBY, or stays with BOOT_FAIL. -/
  | bootDone (b : BootInputs)
  /-- LEVER_OPEN (R453): LEVER_CLOSED deasserts: collectives abort, cores stop, the rails fall and REMOVE is committed. -/
  | leverOpen
  /-- HOST_PWR_EN_DEASSERT (R453): HOST_PWR_EN deasserts and the removal sequence ends in OFF. -/
  | hostPwrEnDeassert
  /-- MOD_PRESENT_LOST (R477): Not present with the lever closed for 1 s acts as a lever opening. -/
  | modPresentLost
  /-- INPUT_LOSS (R454): 48 V is lost without warning and hold-up finishes any started Cairn entry. -/
  | inputLoss
  /-- INPUT_OUT_OF_RANGE (R478): The input leaves 40 to 60 V and the FAULT demand is raised. -/
  | inputOutOfRange (mv : Nat)
  /-- INPUT_LOCKOUT (R478): Under 35 V or over 65 V for 100 us removes the rails and faults the package. -/
  | inputLockout (mv : Nat)
  /-- STRAP_SAMPLE (R479): Three agreeing strap samples with good parity set the slot, or the Caravan ports stay disabled. -/
  | strapSample (a b c : BitVec 7)
  /-- STRAP_CHANGE (R479): A filtered strap change after acceptance is logged and changes nothing. -/
  | strapChange (v : BitVec 7)
  /-- REFCLK_MEASURE (R480): Every 100 us REFCLK is measured against the local oscillator. -/
  | refclkMeasure (off : BitVec 16) (present : Bool)
  /-- REFCLK_SWITCH (R480): REFCLK absent or out of range for 100 us switches the PLLs to the local oscillator. -/
  | refclkSwitch
  /-- REFCLK_RETURN (R480): REFCLK in range for 100 ms, in an allowed state, switches back. -/
  | refclkReturn
  /-- SB_WRITE (R483): A sideband write frame carries a CSR write. -/
  | sbWrite (off : BitVec 32) (val : Word)
  /-- SB_SET_OFFSET (R483): A sideband frame sets the read offset and prepares a slow read. -/
  | sbSetOffset (off : BitVec 32)
  /-- SB_READ (R483): A sideband read returns data at the set offset, clearing nothing. -/
  | sbRead
  /-- SB_READ_EVENT_SEQ (R483): An SMBus read of the event SEQ releases SB_ALERT_N. -/
  | sbReadEventSeq
  /-- SB_BUS_STUCK (R483): A line held low for 25 ms resets the sideband interface. -/
  | sbBusStuck
  /-- ENTDAA (R482): I3C dynamic address assignment. -/
  | entdaa (addr : BitVec 7)
  /-- SETDASA (R482): I3C set dynamic address from the static one. -/
  | setdasa (addr : BitVec 7)
  /-- GETPID (R482): I3C get provisional ID. -/
  | getpid
  /-- GETBCR (R482): I3C get bus characteristics. -/
  | getbcr
  /-- GETDCR (R482): I3C get device characteristics. -/
  | getdcr
  /-- GETSTATUS (R482): I3C get status. -/
  | getstatus
  /-- ENEC (R441): I3C enable in-band interrupts. -/
  | enec
  /-- DISEC (R441): I3C disable in-band interrupts. -/
  | disec
  /-- RSTACT (R482): I3C reset action. -/
  | rstact (action : Byte)
  /-- TAP_BYPASS (R484): TAP instruction BYPASS. -/
  | tapBypass
  /-- TAP_IDCODE (R484): TAP instruction IDCODE. -/
  | tapIdcode
  /-- TAP_SAMPLE_PRELOAD (R484): TAP instruction SAMPLE/PRELOAD. -/
  | tapSamplePreload
  /-- TAP_EXTEST (R484): TAP instruction EXTEST, in STANDBY only. -/
  | tapExtest
  /-- TAP_IDLE_TIMEOUT (R484): TCK idle for 1 s with an active instruction resets the TAP. -/
  | tapIdleTimeout
  /-- SEC_NONCE_GEN (R468): A write draws a new service nonce. -/
  | secNonceGen (path : Path)
  /-- SEC_FLASH_UNLOCK (R445): A write unlocks a flash bank for programming. -/
  | secFlashUnlock (path : Path) (bank : BitVec 2)
  /-- FLASH_PAGE_WRITE (R446): A page write into the unlocked, non-running flash bank. -/
  | flashPageWrite (path : Path) (page : BitVec 16) (data : List Byte)
  /-- SEC_CAIRN_COMPACT (R470): A write under CAIRN_COMPACT archives the oldest entries and writes COMPACT. -/
  | secCairnCompact (path : Path) (n : Word)
  /-- SEC_CAIRN_SEL (R463): A write of the _LO index latches a Cairn entry into the window. -/
  | secCairnSel (path : Path) (lo : Word)
  /-- DAILY_PERIOD (R466): Each day of power-on time, PERIOD and HEALTH entries are written and every part is scored. -/
  | dailyPeriod
  /-- SLOW_READ_CROSSED (R424): A slow read from a base, fabric or compute die finishes crossing within 2 us and its data returns to the stalled requester. -/
  | slowReadCrossed (dom : Fin 24)
  /-- OP_VOLTAGE_SETTLED (R394): After a change to a slower point the falling rail reaches its new setpoint, TRANSITION clears and a waiting faster demand may start. -/
  | opVoltageSettled
  /-- REPLAY_RESTORE_DONE (R366): The restore of the step's ranges from the local slot of cut 2t finishes, its DIGEST is checked and the package votes again. -/
  | replayRestoreDone (ok : Bool)
  /-- BOUNDARY_CHECK_TIMEOUT (R360): 10 us after the boundary write a core is still neither IDLE nor WAITING, so BOUNDARY_BAD is set, CKP_ERR records 0x04 and the vote is sent. -/
  | boundaryCheckTimeout
  /-- FREEZE_DECIDE (R373): The DECIDE of the phase-1 freeze vote arrives, and the package flushes its Depots and, with SAVE, writes the freeze cut. -/
  | freezeDecide (err : Bool)
  /-- WARM_RESET_DONE (R451): The rerun firmware program finishes and the package reaches READY within 150 ms of the warm reset. -/
  | warmResetDone
  /-- SLEEP_ENTRY_DONE (R412): The Depot write-back, the rail removal and the entry of the stacks into self-refresh finish within 5 ms, the package enters SLEEP and the command completes. -/
  | sleepEntryDone
  /-- PORT_ENABLE (R275): A write that sets PORT_CTRL.ENABLE to 1 on a disabled port starts its training again. -/
  | portEnable (p : Fin 22)
  deriving DecidableEq, Repr

end Sys2Proof
end

