-- ==== Sys2Proof/Decode.lean ====
section
/-! DEFINITION. Reading commands from words. spec/opcode_table.json gives bits to none of its rows, so no word of the table spells a command; the instruction
words of a Fletrum core (R136, R491) name the instruction commands by class and operation. -/

namespace Sys2Proof

/-- The command that the `nbits`-bit word `w` spells: none, because no row of the table has bits. -/
def decodeTableWord (_nbits _w : Nat) : Option Instr := none

/-! ### Fletrum instruction words (R136, R141, R149, R491) -/

/-- Class 0x0, scalar ALU, in the order of R136. -/
def aluOps (c : Fin 44) (w : BitVec 22) : List Instr :=
  [.add c w, .sub c w, .and c w, .or c w, .xor c w, .shl c w, .shrl c w, .shra c w, .mul c w, .mulh c w, .mulhu c w, .divu c w, .remu c w, .min c w,
   .max c w, .minu c w, .maxu c w, .slt c w, .sltu c w, .seq c w, .clz c w, .popcnt c w]
/-- Class 0x1, ALU immediate. -/
def immOps (c : Fin 44) (w : BitVec 22) : List Instr :=
  [.addi c w, .andi c w, .ori c w, .xori c w, .shli c w, .shrli c w, .shrai c w, .slti c w, .strip c w]
/-- Class 0x2, constant: OP stands in bits [25:22], HW in [27:26]. -/
def constOps (c : Fin 44) (hw : BitVec 2) (w : BitVec 22) : List Instr := [.movz c hw w, .movk c hw w]
/-- Class 0x3, load and store; `ev` is what ECC reports on the data. -/
def memOps (c : Fin 44) (ev : LoadEv) (w : BitVec 22) : List Instr :=
  [.ld8 c w ev, .ld16 c w ev, .ld32 c w ev, .ld64 c w ev, .ldu8 c w ev, .ldu16 c w ev, .ldu32 c w ev, .st8 c w, .st16 c w, .st32 c w, .st64 c w,
   .ldh c w ev, .sth c w]
/-- Class 0x4, branch. -/
def branchOps (c : Fin 44) (w : BitVec 22) : List Instr := [.beq c w, .bne c w, .blt c w, .bge c w, .bltu c w, .bgeu c w]
/-- Class 0x5, summary: the branches from OP 0x00 (R149). -/
def bsOps (c : Fin 44) (w : BitVec 22) : List Instr :=
  [.bsMark c w, .bsNmark c w, .bsTrap c w, .bsUe c w, .bsCnz c w, .bsCz c w, .bsVgt c w, .bsVle c w, .bsVeq c w]
/-- Class 0x5, summary: the reads from OP 0x10 (R149). -/
def sgetOps (c : Fin 44) (w : BitVec 22) : List Instr := [.sgetValue c w, .sgetCount c w, .sgetFirst c w, .sgetFlags c w]
/-- Class 0x6, jump. -/
def jumpOps (c : Fin 44) (w : BitVec 22) : List Instr := [.jal c w, .jalr c w]
/-- Class 0x7, ISSUE by KIND in bits [27:24]; KIND 0x7 and those above 0xA are reserved (R141). -/
def issueOf (c : Fin 44) (w : BitVec 24) (kind : Nat) : Option Instr :=
  match kind with
  | 0 => some (.issueMx c w) | 1 => some (.issueVx c w) | 2 => some (.issueVxResume c w) | 3 => some (.issueSx c w) | 4 => some (.issueAssay c w)
  | 5 => some (.issuePorter c w) | 6 => some (.issueDispatcher c w) | 8 => some (.issueSolver c w) | 9 => some (.issueCollective c w)
  | 0xA => some (.issueClusterStart c w)
  | _ => none
/-- Class 0x8, wait and fence. -/
def waitOps (c : Fin 44) (w : BitVec 22) : List Instr :=
  [.waitE c w, .waitAll c w, .fenceLocal c w, .fenceRemote c w, .waitsig c w, .bar c w, .rhint c w, .qpt c w]
/-- Class 0x9, short vector. -/
def svOps (c : Fin 44) (w : BitVec 22) : List Instr :=
  [.svadd c w, .svsub c w, .svmul c w, .svfma c w, .svmin c w, .svmax c w, .svcvt c w, .svwmul c w, .svdot4 c w, .svdot2 c w, .svwdot2 c w, .svbcast c w,
   .svins c w, .svext c w, .svmv c w]
/-- Class 0xA, atomic. -/
def amoOps (c : Fin 44) (ev : LoadEv) (w : BitVec 22) : List Instr :=
  [.amoAdd c w ev, .amoSwap c w ev, .amoCas c w ev, .amoAnd c w ev, .amoOr c w ev, .amoMinu c w ev, .amoMaxu c w ev]
/-- Class 0xB, system. -/
def sysOps (c : Fin 44) (w : BitVec 22) : List Instr := [.sysrd c w, .csrrd c w, .csrwr c w, .tret c w, .halt c w, .fletrumNop c w]

/-- The instruction that word `v` spells on core `c`: class in bits [31:28], operation in [27:22]; none for a reserved class, operation or KIND (R136, R137,
R141, R149, R491). `ev` is what ECC reports on the data that a load or an atomic reads. -/
def decodeInsn (c : Fin 44) (ev : LoadEv) (v : BitVec 32) : Option Instr :=
  let n := v.toNat
  let w : BitVec 22 := BitVec.ofNat 22 n
  let op := n / 2 ^ 22 % 64
  match n / 2 ^ 28 with
  | 0x0 => (aluOps c w)[op]?
  | 0x1 => (immOps c w)[op]?
  | 0x2 => (constOps c (BitVec.ofNat 2 (n / 2 ^ 26)) w)[op % 16]?
  | 0x3 => (memOps c ev w)[op]?
  | 0x4 => (branchOps c w)[op]?
  | 0x5 => if op < 0x10 then (bsOps c w)[op]? else (sgetOps c w)[op - 0x10]?
  | 0x6 => (jumpOps c w)[op]?
  | 0x7 => issueOf c (BitVec.ofNat 24 n) (n / 2 ^ 24 % 16)
  | 0x8 => (waitOps c w)[op]?
  | 0x9 => (svOps c w)[op]?
  | 0xA => (amoOps c ev w)[op]?
  | 0xB => (sysOps c w)[op]?
  | _ => none

end Sys2Proof
end

