-- ==== Sys2Proof/Machine/Bits.lean ====
section
/-! DEFINITION. Bit-field, sign and byte-order helpers over natural numbers. -/

namespace Sys2Proof.Machine

/-- Bits [lo + w - 1 : lo] of `v`. -/
def bitsAt (v lo w : Nat) : Nat := (v >>> lo) % 2 ^ w

/-- One bit of `v`. -/
def bitAt (v i : Nat) : Bool := (v >>> i) % 2 = 1

/-- `v` with bits [lo + w - 1 : lo] replaced by the low `w` bits of `x`. -/
def putBits (v lo w x : Nat) : Nat := v - (bitsAt v lo w <<< lo) + ((x % 2 ^ w) <<< lo)

/-- The low `w` bits of `v` as a two's-complement integer. -/
def signed (w v : Nat) : Int :=
  let x := v % 2 ^ w
  if x < 2 ^ (w - 1) then (x : Int) else (x : Int) - (2 ^ w : Nat)

/-- An integer modulo 2^w. -/
def wrap (w : Nat) (i : Int) : Nat := (i % ((2 ^ w : Nat) : Int)).toNat

/-- An integer clamped to the signed range of `w` bits. -/
def clampS (w : Nat) (i : Int) : Int :=
  let hi : Int := ((2 ^ (w - 1) : Nat) : Int) - 1
  let lo : Int := -((2 ^ (w - 1) : Nat) : Int)
  if i > hi then hi else if i < lo then lo else i

/-- Saturating count of `w` bits: "a saturated count means at least" (R423). -/
def satAdd (w a n : Nat) : Nat := min (a + n) (2 ^ w - 1)

/-- One bit as a number. -/
def b2n (b : Bool) : Nat := if b then 1 else 0

/-- `n` rounded up to a multiple of `k`. -/
def roundUp (n k : Nat) : Nat := (n + k - 1) / k * k

/-- The bytes of `n` bytes of `v`, lowest first. -/
def natBytes (v : Nat) : Nat → List Byte
  | 0 => []
  | n + 1 => BitVec.ofNat 8 v :: natBytes (v / 256) n

/-- A little-endian byte list as a number. -/
def bytesNat : List Byte → Nat
  | [] => 0
  | b :: bs => b.toNat + 256 * bytesNat bs

/-- A list of `w`-bit elements packed lowest first. -/
def packBits (w : Nat) : List Nat → Nat
  | [] => 0
  | x :: xs => x % 2 ^ w + 2 ^ w * packBits w xs

/-- The byte-reversed value of `n` bytes of `v`. -/
def bswap (v n : Nat) : Nat := bytesNat (natBytes v n).reverse

/-- Position of the highest set bit plus one; 0 for 0. -/
def bitLen (v : Nat) : Nat := if v = 0 then 0 else Nat.log2 v + 1

/-- Number of set bits among the low `w`. -/
def popCount (v : Nat) : Nat → Nat
  | 0 => 0
  | w + 1 => v % 2 + popCount (v / 2) w

/-- Exclusive OR of the 5-bit pieces of `x` (R228). -/
def fold5 (x : Nat) : Nat → Nat
  | 0 => 0
  | n + 1 => (x % 32) ^^^ fold5 (x / 32) n

/-- Sum of the 4-bit pieces of `q` (R229). -/
def nibbleSum (q : Nat) : Nat → Nat
  | 0 => 0
  | n + 1 => q % 16 + nibbleSum (q / 16) n

/-- One step of CRC-64/ECMA-182 over one byte, most significant bit first (R191). -/
def crc64Bits (crc : Nat) : Nat → Nat
  | 0 => crc
  | n + 1 =>
    let sh := (crc * 2) % 2 ^ 64
    crc64Bits (if crc / 2 ^ 63 % 2 = 1 then sh ^^^ 0x42F0E1EBA9EA3693 else sh) n

/-- CRC-64/ECMA-182 continued over a byte list (R191). -/
def crc64Go (crc : Nat) : List Byte → Nat
  | [] => crc
  | b :: bs => crc64Go (crc64Bits (crc ^^^ (b.toNat <<< 56)) 8) bs

/-- CRC-32C continued over a byte list, reflected. -/
def crc32cBits (crc : Nat) : Nat → Nat
  | 0 => crc
  | n + 1 => crc32cBits (if crc % 2 = 1 then (crc / 2) ^^^ 0x82F63B78 else crc / 2) n

/-- CRC-32C continued over a byte list (R287). -/
def crc32cGo (crc : Nat) : List Byte → Nat
  | [] => crc
  | b :: bs => crc32cGo (crc32cBits (crc ^^^ b.toNat) 8) bs

/-- CRC-32C of a byte list: initial value and final exclusive OR all ones (PRESUMED: the common parameters). -/
def crc32c (bs : List Byte) : Nat := crc32cGo 0xFFFFFFFF bs ^^^ 0xFFFFFFFF

end Sys2Proof.Machine
end

