-- ==== Sys2Proof/Machine/Flags.lean ====
section
/-! DEFINITION. The flags of an arithmetic result and the summary of an operation (R111, R135). -/

namespace Sys2Proof.Machine

/-- Flag NV, bit 0 (R111). -/
def flNV : Nat := 1
/-- Flag OF, bit 1 (R111). -/
def flOF : Nat := 2
/-- Flag UF, bit 2 (R111). -/
def flUF : Nat := 4
/-- Flag NX, bit 3 (R111). -/
def flNX : Nat := 8
/-- Flag SATD, bit 4 (R111). -/
def flSATD : Nat := 16

/-- A summary register after reset reads 0 except FIRST, 0x1FF_FFFF (R135). -/
def sumReset : BitVec 128 := BitVec.ofNat 128 (0x1FFFFFF * 2 ^ 89)

/-! ### Fields of a summary (R111) -/

/-- VALUE, bits [63:0]. -/
def sumValue (v : BitVec 128) : Nat := bitsAt v.toNat 0 64
/-- COUNT, bits [88:64]. -/
def sumCount (v : BitVec 128) : Nat := bitsAt v.toNat 64 25
/-- FIRST, bits [113:89]. -/
def sumFirst (v : BitVec 128) : Nat := bitsAt v.toNat 89 25
/-- The flag byte, bits [121:114]: NV, OF, UF, NX, SATD, MARK, TRAP, UE. -/
def sumFlags (v : BitVec 128) : Nat := bitsAt v.toNat 114 8
/-- MARK. -/
def sumMark (v : BitVec 128) : Bool := bitAt v.toNat 119
/-- TRAP. -/
def sumTrap (v : BitVec 128) : Bool := bitAt v.toNat 120
/-- UE. -/
def sumUe (v : BitVec 128) : Bool := bitAt v.toNat 121

/-- Build a summary; COUNT saturates and FIRST reports at least 0x1FF_FFFE from there on (R111). -/
def mkSummary (value count : Nat) (first : Option Nat) (flags : Nat) (mark trap ue : Bool) : BitVec 128 :=
  BitVec.ofNat 128 (value % 2 ^ 64 + min count 0x1FFFFFF * 2 ^ 64
    + (match first with
       | some i => min i 0x1FFFFFE
       | none => 0x1FFFFFF) * 2 ^ 89
    + flags % 32 * 2 ^ 114 + b2n mark * 2 ^ 119 + b2n trap * 2 ^ 120 + b2n ue * 2 ^ 121)

end Sys2Proof.Machine
end

