-- ==== Sys2Proof/Machine/Float.lean ====
section
/-! DEFINITION. Number formats and exact arithmetic (R34 to R37, R53 to R62): decoding a format, exact dyadic numbers, one
rounding with its flags, and the element-wise operations over them. -/

namespace Sys2Proof.Machine

/-- A floating-point format (R34): exponent and fraction bits, bias, and the greatest finite magnitude's encoding; `nanCode` is its
canonical NaN, `inf` tells whether it has infinities, `finite` whether every encoding is a number. -/
structure Fmt where
  ew : Nat
  fw : Nat
  bias : Nat
  maxCode : Nat
  nanCode : Nat
  inf : Bool
  finite : Bool
  deriving DecidableEq, Repr

def e4m3 : Fmt := ⟨4, 3, 7, 0x7E, 0x7F, false, false⟩
def e5m2 : Fmt := ⟨5, 2, 15, 0x7B, 0x7E, true, false⟩
def e2m3 : Fmt := ⟨2, 3, 1, 0x1F, 0x1F, false, true⟩
def e3m2 : Fmt := ⟨3, 2, 3, 0x1F, 0x1F, false, true⟩
def e2m1 : Fmt := ⟨2, 1, 1, 0x7, 0x7, false, true⟩
def bf16 : Fmt := ⟨8, 7, 127, 0x7F7F, 0x7FC0, true, false⟩
def fp16 : Fmt := ⟨5, 10, 15, 0x7BFF, 0x7E00, true, false⟩
def fp32 : Fmt := ⟨8, 23, 127, 0x7F7FFFFF, 0x7FC00000, true, false⟩
def fp64 : Fmt := ⟨11, 52, 1023, 0x7FEFFFFFFFFFFFFF, 0x7FF8000000000000, true, false⟩

/-- Width of a format in bits. -/
def Fmt.bits (f : Fmt) : Nat := 1 + f.ew + f.fw

/-- The floating-point format of a format code; the integer codes 0x5 and 0xA have none (R34). -/
def fmtOf (code : Nat) : Option Fmt :=
  match code with
  | 0 => some e4m3 | 1 => some e5m2 | 2 => some e2m3 | 3 => some e3m2 | 4 => some e2m1
  | 6 => some bf16 | 7 => some fp16 | 8 => some fp32 | 9 => some fp64 | _ => none

/-- Element width in bits of a format code. -/
def codeBits (code : Nat) : Nat :=
  match code with
  | 0 => 8 | 1 => 8 | 2 => 6 | 3 => 6 | 4 => 4 | 5 => 8 | 6 => 16 | 7 => 16 | 8 => 32 | 9 => 64 | 10 => 32 | _ => 0

/-- A decoded element: a NaN, an infinity, or m × 2^e with its sign. -/
inductive FVal where
  | nan (signalling : Bool)
  | inf (neg : Bool)
  | fin (neg : Bool) (m : Nat) (e : Int)
  deriving DecidableEq, Repr

/-- Decode an element (R34 to R36). -/
def decodeF (f : Fmt) (v : Nat) : FVal :=
  let neg := bitAt v (f.ew + f.fw)
  let mag := v % 2 ^ (f.ew + f.fw)
  let ex := mag / 2 ^ f.fw
  let fr := mag % 2 ^ f.fw
  if !f.finite && f.inf && ex = 2 ^ f.ew - 1 then
    if fr = 0 then .inf neg else .nan (!bitAt v (f.fw - 1))
  else if !f.finite && !f.inf && mag = 2 ^ (f.ew + f.fw) - 1 then .nan false
  else if ex = 0 then .fin neg fr (1 - (f.bias : Int) - f.fw)
  else .fin neg (2 ^ f.fw + fr) ((ex : Int) - f.bias - f.fw)

/-- Rounding modes: to nearest even, toward zero, down, up. -/
inductive Rm where
  | rne | rtz | rdn | rup
  deriving DecidableEq, Repr

/-- Round m × 2^(-s) to an integer under a mode, for a magnitude of sign `neg`. -/
def roundShift (rm : Rm) (neg : Bool) (m s : Nat) : Nat :=
  let q := m / 2 ^ s
  let r := m % 2 ^ s
  match rm with
  | .rne => if 2 * r > 2 ^ s || (2 * r = 2 ^ s && q % 2 = 1) then q + 1 else q
  | .rtz => q
  | .rdn => if neg && r ≠ 0 then q + 1 else q
  | .rup => if !neg && r ≠ 0 then q + 1 else q

/-- m × 2^e as a multiple of 2^q, rounded: the multiple and whether it is inexact. -/
def quantize (rm : Rm) (neg : Bool) (m : Nat) (e q : Int) : Nat × Bool :=
  if e ≥ q then (m * 2 ^ (e - q).toNat, false)
  else (roundShift rm neg m (q - e).toNat, m % 2 ^ (q - e).toNat ≠ 0)

/-- The encoding of a signed magnitude code. -/
def withSign (f : Fmt) (neg : Bool) (code : Nat) : Nat := code + b2n neg * 2 ^ (f.ew + f.fw)

/-- The canonical NaN of a format (R37). -/
def nanOf (f : Fmt) : Nat := f.nanCode

/-- An infinity, or what stands for it: E4M3 has the NaN, the all-finite formats the greatest magnitude (R34, R55). -/
def infOf (f : Fmt) (neg : Bool) : Nat :=
  if f.inf then withSign f neg (f.maxCode + 1) else if f.finite then withSign f neg f.maxCode else f.nanCode

/-- Round a non-zero or zero magnitude m × 2^e of sign `neg` into a format once: the encoding and flags OF, UF, NX (R54, R55, R59);
tininess is detected after rounding. Overflow gives `infOf`, or the greatest finite value with SATD where `sat` is set. -/
def roundTo (rm : Rm) (f : Fmt) (sat neg : Bool) (m : Nat) (e : Int) : Nat × Nat :=
  if m = 0 then (withSign f neg 0, 0)
  else
    let emin : Int := 1 - f.bias
    let top : Int := e + (bitLen m : Int) - 1
    let q := max (top - f.fw) (emin - f.fw)
    let (n, nx) := quantize rm neg m e q
    let code := (q + f.fw + f.bias - 1).toNat * 2 ^ f.fw + n
    if code > f.maxCode then
      if sat then (withSign f neg f.maxCode, flOF + flNX + flSATD) else (infOf f neg, flOF + flNX)
    else
      let tiny := decide (top < emin) &&
        !(decide (top = emin - 1) && decide ((quantize rm neg m e (top - f.fw)).1 = 2 ^ (f.fw + 1)))
      (withSign f neg code, (if nx then flNX else 0) + (if nx && tiny then flUF else 0))

/-- An exact dyadic number m × 2^e. -/
structure Dy where
  m : Int
  e : Int
  deriving DecidableEq, Repr

/-- Exact sum. -/
def Dy.add (a b : Dy) : Dy :=
  let e := min a.e b.e
  ⟨a.m * 2 ^ (a.e - e).toNat + b.m * 2 ^ (b.e - e).toNat, e⟩
/-- Exact product. -/
def Dy.mul (a b : Dy) : Dy := ⟨a.m * b.m, a.e + b.e⟩
/-- Negation. -/
def Dy.neg (a : Dy) : Dy := ⟨-a.m, a.e⟩
/-- The order of exact numbers. -/
def Dy.lt (a b : Dy) : Bool := decide ((a.add b.neg).m < 0)
/-- floor(log2 |x|) of a non-zero number. -/
def Dy.exp (a : Dy) : Int := a.e + (bitLen a.m.natAbs : Int) - 1

/-- The number of a finite value. -/
def FVal.dy : FVal → Dy
  | .fin neg m e => ⟨if neg then -(m : Int) else m, e⟩
  | _ => ⟨0, 0⟩
/-- Sign of a value. -/
def FVal.isNeg : FVal → Bool
  | .fin n _ _ => n
  | .inf n => n
  | .nan _ => false
def FVal.isNan : FVal → Bool
  | .nan _ => true
  | _ => false
def FVal.isSnan : FVal → Bool
  | .nan s => s
  | _ => false
def FVal.isInf : FVal → Bool
  | .inf _ => true
  | _ => false
def FVal.isZero : FVal → Bool
  | .fin _ m _ => m = 0
  | _ => false
/-- NaN or infinity. -/
def FVal.special (v : FVal) : Bool := v.isNan || v.isInf

/-- Round an exact number into a format; `zneg` is the sign of an exact zero. -/
def roundDy (f : Fmt) (sat zneg : Bool) (x : Dy) : Nat × Nat :=
  if x.m = 0 then (withSign f zneg 0, 0) else roundTo .rne f sat (decide (x.m < 0)) x.m.natAbs x.e

/-- a × b + c with one rounding to nearest even (R59): encoding and flags. -/
def fmaV (f : Fmt) (a b c : FVal) : Nat × Nat :=
  let pneg := a.isNeg != b.isNeg
  if a.isSnan || b.isSnan || c.isSnan then (nanOf f, flNV)
  else if (a.isZero && b.isInf) || (a.isInf && b.isZero) then (nanOf f, flNV)
  else if a.isNan || b.isNan || c.isNan then (nanOf f, 0)
  else if a.isInf || b.isInf then
    if c.isInf && c.isNeg != pneg then (nanOf f, flNV) else (infOf f pneg, 0)
  else if c.isInf then (infOf f c.isNeg, 0)
  else
    let p := a.dy.mul b.dy
    let zneg := if p.m = 0 && c.isZero then pneg && c.isNeg else false
    roundDy f false zneg (p.add c.dy)

/-- The value 1. -/
def fOne : FVal := .fin false 1 0
/-- The value -0, the identity of addition (R43). -/
def fNegZero : FVal := .fin true 0 0
/-- Negate a value. -/
def FVal.flip : FVal → FVal
  | .fin n m e => .fin (!n) m e
  | .inf n => .inf (!n)
  | v => v

/-- Sum, difference and product (R59). -/
def addV (f : Fmt) (a b : FVal) : Nat × Nat := fmaV f a fOne b
def subV (f : Fmt) (a b : FVal) : Nat × Nat := fmaV f a fOne b.flip
def mulV (f : Fmt) (a b : FVal) : Nat × Nat := fmaV f a b fNegZero

/-- a < b for values that are no NaN; -0 and +0 are equal. -/
def ltV (a b : FVal) : Bool :=
  match a, b with
  | .inf na, .inf nb => na && !nb
  | .inf na, _ => na
  | _, .inf nb => !nb
  | x, y => x.dy.lt y.dy
/-- a = b for values that are no NaN. -/
def eqV (a b : FVal) : Bool := !ltV a b && !ltV b a

/-- Equality and inequality signal only a signalling NaN; the orders signal any NaN (R60). Answers the relation and flags. -/
def cmpV (quiet : Bool) (rel : FVal → FVal → Bool) (unordered : Bool) (a b : FVal) : Bool × Nat :=
  if a.isNan || b.isNan then (unordered, if !quiet || a.isSnan || b.isSnan then flNV else 0) else (rel a b, 0)

/-- IEEE 754-2019 minimum and maximum, and the number forms (R61): chosen operand's encoding, or the canonical NaN. -/
def minmaxV (f : Fmt) (isMax number : Bool) (x y : Nat) : Nat × Nat :=
  let a := decodeF f x
  let b := decodeF f y
  let fl := if a.isSnan || b.isSnan then flNV else 0
  if a.isNan && b.isNan then (nanOf f, fl)
  else if a.isNan then (if number then y else nanOf f, fl)
  else if b.isNan then (if number then x else nanOf f, fl)
  else
    let less := ltV a b || (a.isZero && b.isZero && a.isNeg && !b.isNeg)
    let more := ltV b a || (a.isZero && b.isZero && b.isNeg && !a.isNeg)
    (if isMax then if less then y else x else if more then y else x, fl)

/-- Floating-point to a signed integer of `w` bits: to nearest even; a value beyond the range, before rounding, is clamped with OF and NX; a NaN gives 0
and NV (R62). -/
def toIntV (rm : Rm) (w : Nat) (v : FVal) : Int × Nat :=
  let hi : Int := ((2 ^ (w - 1) : Nat) : Int) - 1
  let lo : Int := -((2 ^ (w - 1) : Nat) : Int)
  match v with
  | .nan _ => (0, flNV)
  | .inf n => (if n then lo else hi, flOF + flNX)
  | .fin n m e =>
    let (k, nx) := quantize rm n m e 0
    let i : Int := if n then -(k : Int) else k
    let x : Dy := ⟨if n then -(m : Int) else m, e⟩
    if Dy.lt ⟨hi, 0⟩ x then (hi, flOF + flNX) else if Dy.lt x ⟨lo, 0⟩ then (lo, flOF + flNX) else (i, if nx then flNX else 0)

/-- Signed integer to floating point, to nearest even (R62). -/
def ofIntV (f : Fmt) (sat : Bool) (i : Int) : Nat × Nat := roundDy f sat false ⟨i, 0⟩

/-- Floating point to floating point, rounded once (R55, R56, R59); with `sat` an overflow saturates and an infinity in a format that
has none becomes the greatest value. -/
def cvtV (f : Fmt) (sat : Bool) (v : FVal) : Nat × Nat :=
  match v with
  | .nan s => (nanOf f, if s then flNV else 0)
  | .inf n =>
    if f.inf then (infOf f n, 0)
    else if sat then (withSign f n f.maxCode, flOF + flSATD) else (infOf f n, flOF)
  | .fin n m e => roundTo .rne f sat n m e

/-- One product of a group (R42, R57): what is special about it, or its exact value and sign. `ovf` marks a product that
overflowed to an infinity (R53). -/
structure Prod1 where
  snan : Bool
  invalid : Bool
  nan : Bool
  inf : Bool
  ovf : Bool
  neg : Bool
  v : Dy
  deriving DecidableEq, Repr

/-- The product of two elements scaled by 2^k; `scaleNan` marks a NaN scale (R38, R57). -/
def prodOf (a b : FVal) (k : Int) (scaleNan : Bool) : Prod1 :=
  let v := a.dy.mul b.dy
  ⟨a.isSnan || b.isSnan, (a.isZero && b.isInf) || (a.isInf && b.isZero), a.isNan || b.isNan || scaleNan,
   a.isInf || b.isInf, false, a.isNeg != b.isNeg, ⟨v.m, v.e + k⟩⟩

/-- The exact sum of the products. -/
def sumProds : List Prod1 → Dy
  | [] => ⟨0, 0⟩
  | p :: ps => if p.v.m = 0 then sumProds ps else p.v.add (sumProds ps)

/-- The accumulator update of one group (R42, R45, R54, R57, R58): the new accumulator in format `f` and the flags. -/
def groupUpdate (f : Fmt) (acc : FVal) (ps : List Prod1) : Nat × Nat :=
  let o := if ps.any (·.ovf) then flOF else 0
  if ps.any (·.snan) then (nanOf f, flNV ||| o)
  else if ps.any (·.invalid) then (nanOf f, flNV ||| o)
  else if ps.any (·.nan) then (nanOf f, o)
  else if acc.isNan then (nanOf f, o)
  else
    let pos := ps.any (fun p => p.inf && !p.neg) || (acc.isInf && !acc.isNeg)
    let neg := ps.any (fun p => p.inf && p.neg) || (acc.isInf && acc.isNeg)
    if pos && neg then (nanOf f, flNV ||| o)
    else if pos then (infOf f false, o)
    else if neg then (infOf f true, o)
    else
      let s := sumProds ps
      let szero := ps.all (fun p => p.v.m = 0 && p.neg)
      roundDy f false (acc.isZero && acc.isNeg && szero) (acc.dy.add s)

end Sys2Proof.Machine
end

