-- ==== Sys2Proof/Config.lean ====
section
/-! DEFINITION. The values the spec leaves open, as constants without a body: nothing in Lean can
evaluate one, so a statement about one holds for every value it may have. -/

namespace Sys2Proof.Config

/-- FREE VALUE (log 3). A byte of HBM after the custody data key was replaced: "every earlier line then
decrypts to unpredictable data" (R234, R447, R457, R460). First argument: the key epoch; second: the
physical byte address. -/
opaque freeHbmByte : Nat → Nat → Byte

/-- FREE VALUE (log 4). The n-th number the DRBG of the security block draws (R444, R468): nonces. -/
opaque freeNonce : Nat → DWord

/-- FREE VALUE (log 4). SHA-512 (named by R444, R464; its value is not computed in this model). -/
opaque sha512 : List Byte → BitVec 512

/-- FREE VALUE (log 4). RSASSA-PSS signature by the identity key (R444, R455): 512 bytes. -/
opaque signature : List Byte → BitVec 4096

/-- FREE VALUE (log 5). A bad tile-SRAM or HBM line still returns bits; which ones the spec does not say
(R235 "returns the stored bits with the poison flag"; a tile line has no such rule). -/
opaque freeBadByte : Nat → Byte

/-- FREE VALUE (log 6). Contents of a destination after an abort or a discard: "unpredictable"
(R318, R458). First argument: a fresh number from the state's counter; second: the address. -/
opaque freeAbortByte : Nat → Nat → Byte

/-- FREE VALUE (log 7). Result the spec does not state for some operand values (see the log rows that
name the place); first argument names the place, second is a fresh number or the operands' code. -/
opaque freeResult : Nat → Nat → Nat

/-- FREE VALUE (log 8). The stepping of the silicon (R7, R421): 0 B1, 1 B2, 2 C0. -/
opaque stepping : Fin 3

/-- FREE VALUE (log 9). The package serial, fused at manufacture (R421). -/
opaque serial : DWord

/-- FREE VALUE (log 198). The hashes fused at manufacture (R444): firmware key slots 0 to 3, service key slots 4 and 5. -/
opaque keyHash : Nat → BitVec 512

/-- FREE VALUE (log 10). The bytes of the companion processor's memory, which the package reads over Halter: what lies outside the
package is not the model's to choose. First argument: a fresh number; second: the offset in the companion window. -/
opaque companionByte : Nat → Nat → Byte

end Sys2Proof.Config
end

