-- ==== Sys2Proof/Machine/RegMap.lean ====
section
/-! DEFINITION. The register tables of the spec: every field of every register with its place, access code
(R13), reset value, level and clamp. -/

namespace Sys2Proof.Machine

/-- The access codes of R13. -/
inductive Acc where
  | ro | rw | rc | wo | rws
  deriving DecidableEq, Repr

/-- A register field: byte offset of its register in the block, lowest bit, width, access, reset value, whether it is
an expert field (R427), the clamp of a field whose "values outside clamp", and the register's whole reset word. -/
structure Fld where
  off : Nat
  lo : Nat
  w : Nat
  acc : Acc
  rst : Nat
  expert : Bool
  clamp : Option (Nat × Nat)
  word : Nat
  deriving DecidableEq, Repr

/-- A register: offset in its block, the offset of the register whose bit 31 is the governing LEVEL bit (R427), fields. -/
structure Reg where
  off : Nat
  level : Option Nat
  flds : List Fld
  deriving DecidableEq, Repr

namespace R

/-! ### MX -/

def MX_CFG_FMT_A : Fld := ⟨0x0, 0, 4, .rw, 0x0, false, none, 0xCD800⟩
def MX_CFG_FMT_B : Fld := ⟨0x0, 4, 4, .rw, 0x0, false, none, 0xCD800⟩
def MX_CFG_FMT_OUT : Fld := ⟨0x0, 8, 4, .rw, 0x8, false, none, 0xCD800⟩
def MX_CFG_PASS : Fld := ⟨0x0, 12, 2, .rw, 0x1, false, none, 0xCD800⟩
def MX_CFG_SAT : Fld := ⟨0x0, 14, 1, .rw, 0x1, true, none, 0xCD800⟩
def MX_CFG_SCALE_EN : Fld := ⟨0x0, 15, 1, .rw, 0x1, false, none, 0xCD800⟩
def MX_CFG_SPARSE24 : Fld := ⟨0x0, 16, 1, .rw, 0x0, false, none, 0xCD800⟩
def MX_CFG_SKIP : Fld := ⟨0x0, 17, 1, .rw, 0x0, false, none, 0xCD800⟩
def MX_CFG_FLAG_SUM_EN : Fld := ⟨0x0, 18, 4, .rw, 0x3, true, none, 0xCD800⟩
def MX_CFG_LEVEL : Fld := ⟨0x0, 31, 1, .rw, 0x0, false, none, 0xCD800⟩
def MX_STATUS_NV : Fld := ⟨0x8, 0, 1, .rc, 0x0, false, none, 0x0⟩
def MX_STATUS_OF : Fld := ⟨0x8, 1, 1, .rc, 0x0, false, none, 0x0⟩
def MX_STATUS_UF : Fld := ⟨0x8, 2, 1, .rc, 0x0, false, none, 0x0⟩
def MX_STATUS_NX : Fld := ⟨0x8, 3, 1, .rc, 0x0, false, none, 0x0⟩
def MX_STATUS_SATD : Fld := ⟨0x8, 4, 1, .rc, 0x0, false, none, 0x0⟩
def MX_STATUS_BUSY : Fld := ⟨0x8, 7, 1, .ro, 0x0, false, none, 0x0⟩
def MX_STATUS_FLAG_COUNT : Fld := ⟨0x8, 8, 16, .rc, 0x0, false, none, 0x0⟩
def MX_STATUS_LAST_TAG : Fld := ⟨0x8, 24, 8, .rc, 0x0, false, none, 0x0⟩
def MX_ERR_META : Fld := ⟨0x10, 0, 1, .rc, 0x0, false, none, 0x0⟩
def MX_ERR_UE : Fld := ⟨0x10, 1, 1, .rc, 0x0, false, none, 0x0⟩
def MX_ERR_META_COUNT : Fld := ⟨0x10, 8, 8, .rc, 0x0, false, none, 0x0⟩
def MX_ERR_UE_COUNT : Fld := ⟨0x10, 16, 8, .rc, 0x0, false, none, 0x0⟩
def MX_ERR_LAST_TAG : Fld := ⟨0x10, 24, 8, .rc, 0x0, false, none, 0x0⟩
def MX_UE_ADDR_ADDR : Fld := ⟨0x18, 0, 23, .ro, 0x0, false, none, 0x0⟩
def MX_UE_ADDR_VALID : Fld := ⟨0x18, 31, 1, .ro, 0x0, false, none, 0x0⟩
def MX_META_POS_ROW : Fld := ⟨0x20, 0, 8, .ro, 0x0, false, none, 0x0⟩
def MX_META_POS_QUAD : Fld := ⟨0x20, 8, 12, .ro, 0x0, false, none, 0x0⟩
def MX_META_POS_VALID : Fld := ⟨0x20, 31, 1, .ro, 0x0, false, none, 0x0⟩
def MX_CE_COUNT_COUNT : Fld := ⟨0x28, 0, 32, .rc, 0x0, false, none, 0x0⟩
def MX_QUEUE_DEPTH : Fld := ⟨0x30, 0, 3, .ro, 0x0, false, none, 0x0⟩
def MX_QUEUE_RAMPING : Fld := ⟨0x30, 3, 1, .ro, 0x0, false, none, 0x0⟩
def MX_RAMP_AUTO : Fld := ⟨0x38, 0, 1, .rw, 0x1, true, none, 0x3001⟩
def MX_RAMP_FORCE_FULL : Fld := ⟨0x38, 1, 1, .rw, 0x0, true, none, 0x3001⟩
def MX_RAMP_STAGE_LEN : Fld := ⟨0x38, 8, 8, .rw, 0x30, true, none, 0x3001⟩
def MX_RAMP_LEVEL : Fld := ⟨0x38, 31, 1, .rw, 0x0, false, none, 0x3001⟩
def MX_RESTORE_VALUE : Fld := ⟨0x40, 0, 32, .wo, 0x0, false, none, 0x0⟩
def MX_CYC_BUSY_LO_VALUE : Fld := ⟨0x48, 0, 32, .ro, 0x0, false, none, 0x0⟩
def MX_CYC_BUSY_HI_VALUE : Fld := ⟨0x4C, 0, 32, .ro, 0x0, false, none, 0x0⟩
def MX_CYC_STALL_LO_VALUE : Fld := ⟨0x50, 0, 32, .ro, 0x0, false, none, 0x0⟩
def MX_CYC_STALL_HI_VALUE : Fld := ⟨0x54, 0, 32, .ro, 0x0, false, none, 0x0⟩
def MX_SKIP_LO_VALUE : Fld := ⟨0x58, 0, 32, .ro, 0x0, false, none, 0x0⟩
def MX_SKIP_HI_VALUE : Fld := ⟨0x5C, 0, 32, .ro, 0x0, false, none, 0x0⟩
def VX_CFG_SAT : Fld := ⟨0x100, 0, 1, .rw, 0x1, true, none, 0x61⟩
def VX_CFG_TRAP_EN : Fld := ⟨0x100, 1, 4, .rw, 0x0, true, none, 0x61⟩
def VX_CFG_FLAG_SUM_EN : Fld := ⟨0x100, 5, 4, .rw, 0x3, true, none, 0x61⟩
def VX_CFG_LEVEL : Fld := ⟨0x100, 31, 1, .rw, 0x0, false, none, 0x61⟩
def VX_STATUS_NV : Fld := ⟨0x108, 0, 1, .rc, 0x0, false, none, 0x0⟩
def VX_STATUS_OF : Fld := ⟨0x108, 1, 1, .rc, 0x0, false, none, 0x0⟩
def VX_STATUS_UF : Fld := ⟨0x108, 2, 1, .rc, 0x0, false, none, 0x0⟩
def VX_STATUS_NX : Fld := ⟨0x108, 3, 1, .rc, 0x0, false, none, 0x0⟩
def VX_STATUS_SATD : Fld := ⟨0x108, 4, 1, .rc, 0x0, false, none, 0x0⟩
def VX_STATUS_TRAPPED : Fld := ⟨0x108, 6, 1, .ro, 0x0, false, none, 0x0⟩
def VX_STATUS_BUSY : Fld := ⟨0x108, 7, 1, .ro, 0x0, false, none, 0x0⟩
def VX_STATUS_FLAG_COUNT : Fld := ⟨0x108, 8, 16, .rc, 0x0, false, none, 0x0⟩
def VX_STATUS_LAST_TAG : Fld := ⟨0x108, 24, 8, .rc, 0x0, false, none, 0x0⟩
def VX_EXC_INDEX : Fld := ⟨0x110, 0, 16, .ro, 0x0, false, none, 0x0⟩
def VX_EXC_FLAGS : Fld := ⟨0x110, 16, 4, .ro, 0x0, false, none, 0x0⟩
def VX_EXC_TAG : Fld := ⟨0x110, 20, 8, .ro, 0x0, false, none, 0x0⟩
def VX_EXC_VALID : Fld := ⟨0x110, 31, 1, .ro, 0x0, false, none, 0x0⟩
def VX_RESUME_MODE : Fld := ⟨0x118, 0, 2, .wo, 0x0, false, none, 0x0⟩
def VX_FIX_LO_VALUE : Fld := ⟨0x120, 0, 32, .rw, 0x0, false, none, 0x0⟩
def VX_FIX_HI_VALUE : Fld := ⟨0x124, 0, 32, .rw, 0x0, false, none, 0x0⟩
def VX_ERR_UE : Fld := ⟨0x128, 0, 1, .rc, 0x0, false, none, 0x0⟩
def VX_ERR_UE_COUNT : Fld := ⟨0x128, 8, 8, .rc, 0x0, false, none, 0x0⟩
def VX_ERR_LAST_TAG : Fld := ⟨0x128, 24, 8, .rc, 0x0, false, none, 0x0⟩
def VX_UE_ADDR_ADDR : Fld := ⟨0x130, 0, 23, .ro, 0x0, false, none, 0x0⟩
def VX_UE_ADDR_VALID : Fld := ⟨0x130, 31, 1, .ro, 0x0, false, none, 0x0⟩
def VX_CE_COUNT_COUNT : Fld := ⟨0x138, 0, 32, .rc, 0x0, false, none, 0x0⟩
def VX_QUEUE_DEPTH : Fld := ⟨0x140, 0, 4, .ro, 0x0, false, none, 0x0⟩
def VX_CYC_BUSY_LO_VALUE : Fld := ⟨0x148, 0, 32, .ro, 0x0, false, none, 0x0⟩
def VX_CYC_BUSY_HI_VALUE : Fld := ⟨0x14C, 0, 32, .ro, 0x0, false, none, 0x0⟩
def VX_CYC_STALL_LO_VALUE : Fld := ⟨0x150, 0, 32, .ro, 0x0, false, none, 0x0⟩
def VX_CYC_STALL_HI_VALUE : Fld := ⟨0x154, 0, 32, .ro, 0x0, false, none, 0x0⟩
def VX_RESTORE_VALUE : Fld := ⟨0x158, 0, 32, .wo, 0x0, false, none, 0x0⟩

/-! ### SX -/

def SX_CFG_FLAG_SUM_EN : Fld := ⟨0x0, 0, 4, .rw, 0x3, true, none, 0x23⟩
def SX_CFG_LOOKAHEAD : Fld := ⟨0x0, 4, 3, .rw, 0x2, true, none, 0x23⟩
def SX_CFG_LEVEL : Fld := ⟨0x0, 31, 1, .rw, 0x0, false, none, 0x23⟩
def SX_STATUS_NV : Fld := ⟨0x8, 0, 1, .rc, 0x0, false, none, 0x0⟩
def SX_STATUS_OF : Fld := ⟨0x8, 1, 1, .rc, 0x0, false, none, 0x0⟩
def SX_STATUS_UF : Fld := ⟨0x8, 2, 1, .rc, 0x0, false, none, 0x0⟩
def SX_STATUS_NX : Fld := ⟨0x8, 3, 1, .rc, 0x0, false, none, 0x0⟩
def SX_STATUS_BUSY : Fld := ⟨0x8, 7, 1, .ro, 0x0, false, none, 0x0⟩
def SX_STATUS_FLAG_COUNT : Fld := ⟨0x8, 8, 16, .rc, 0x0, false, none, 0x0⟩
def SX_STATUS_LAST_TAG : Fld := ⟨0x8, 24, 8, .rc, 0x0, false, none, 0x0⟩
def SX_ERR_UE : Fld := ⟨0x10, 0, 1, .rc, 0x0, false, none, 0x0⟩
def SX_ERR_UE_COUNT : Fld := ⟨0x10, 8, 8, .rc, 0x0, false, none, 0x0⟩
def SX_ERR_LAST_TAG : Fld := ⟨0x10, 24, 8, .rc, 0x0, false, none, 0x0⟩
def SX_UE_ADDR_ADDR : Fld := ⟨0x18, 0, 23, .ro, 0x0, false, none, 0x0⟩
def SX_UE_ADDR_TILE : Fld := ⟨0x18, 24, 3, .ro, 0x0, false, none, 0x0⟩
def SX_UE_ADDR_VALID : Fld := ⟨0x18, 31, 1, .ro, 0x0, false, none, 0x0⟩
def SX_CE_COUNT_COUNT : Fld := ⟨0x20, 0, 32, .rc, 0x0, false, none, 0x0⟩
def SX_QUEUE_DEPTH : Fld := ⟨0x28, 0, 2, .ro, 0x0, false, none, 0x0⟩
def SX_PROGRESS_BX : Fld := ⟨0x30, 0, 8, .ro, 0x0, false, none, 0x0⟩
def SX_PROGRESS_BY : Fld := ⟨0x30, 8, 8, .ro, 0x0, false, none, 0x0⟩
def SX_PROGRESS_PLANE : Fld := ⟨0x30, 16, 8, .ro, 0x0, false, none, 0x0⟩
def SX_CYC_BUSY_LO_VALUE : Fld := ⟨0x38, 0, 32, .ro, 0x0, false, none, 0x0⟩
def SX_CYC_BUSY_HI_VALUE : Fld := ⟨0x3C, 0, 32, .ro, 0x0, false, none, 0x0⟩
def SX_CYC_STALL_LO_VALUE : Fld := ⟨0x40, 0, 32, .ro, 0x0, false, none, 0x0⟩
def SX_CYC_STALL_HI_VALUE : Fld := ⟨0x44, 0, 32, .ro, 0x0, false, none, 0x0⟩
def SX_WIN_SIZE_BYTES : Fld := ⟨0x48, 0, 32, .ro, 0x200000, false, none, 0x200000⟩
def SX_RESTORE_VALUE : Fld := ⟨0x50, 0, 32, .wo, 0x0, false, none, 0x0⟩

/-! ### SEQ -/

def SEQ_CTRL_QP_CHECK : Fld := ⟨0x0, 0, 1, .rw, 0x1, true, none, 0x3⟩
def SEQ_CTRL_WAIT_LIMIT_EN : Fld := ⟨0x0, 1, 1, .rw, 0x1, true, none, 0x3⟩
def SEQ_CTRL_LEVEL : Fld := ⟨0x0, 31, 1, .rw, 0x0, false, none, 0x3⟩
def SEQ_STATUS_STATE : Fld := ⟨0x8, 0, 3, .ro, 0x0, false, none, 0x0⟩
def SEQ_STATUS_QP_OVER : Fld := ⟨0x8, 3, 1, .rc, 0x0, false, none, 0x0⟩
def SEQ_STATUS_TRAP_PENDING : Fld := ⟨0x8, 4, 1, .ro, 0x0, false, none, 0x0⟩
def SEQ_STATUS_QP_OVER_COUNT : Fld := ⟨0x8, 8, 8, .rc, 0x0, false, none, 0x0⟩
def SEQ_STATUS_TAG : Fld := ⟨0x8, 16, 16, .ro, 0x0, false, none, 0x0⟩
def SEQ_PC_LO_VALUE : Fld := ⟨0x10, 0, 32, .ro, 0x0, false, none, 0x0⟩
def SEQ_PC_HI_VALUE : Fld := ⟨0x14, 0, 32, .ro, 0x0, false, none, 0x0⟩
def SEQ_FAULT_CODE : Fld := ⟨0x18, 0, 8, .ro, 0x0, false, none, 0x0⟩
def SEQ_FAULT_KIND : Fld := ⟨0x18, 8, 4, .ro, 0x0, false, none, 0x0⟩
def SEQ_FAULT_TILE : Fld := ⟨0x18, 12, 3, .ro, 0x0, false, none, 0x0⟩
def SEQ_FAULT_CAUSE : Fld := ⟨0x18, 16, 8, .ro, 0x0, false, none, 0x0⟩
def SEQ_FAULT_VALID : Fld := ⟨0x18, 31, 1, .ro, 0x0, false, none, 0x0⟩
def SEQ_FAULT_PC_LO_VALUE : Fld := ⟨0x20, 0, 32, .ro, 0x0, false, none, 0x0⟩
def SEQ_FAULT_PC_HI_VALUE : Fld := ⟨0x24, 0, 32, .ro, 0x0, false, none, 0x0⟩
def SEQ_FAULT_ADDR_LO_VALUE : Fld := ⟨0x28, 0, 32, .ro, 0x0, false, none, 0x0⟩
def SEQ_FAULT_ADDR_HI_VALUE : Fld := ⟨0x2C, 0, 32, .ro, 0x0, false, none, 0x0⟩
def SEQ_TVEC_LO_ADDR : Fld := ⟨0x30, 0, 32, .rw, 0x0, false, none, 0x0⟩
def SEQ_TVEC_HI_ADDR : Fld := ⟨0x34, 0, 32, .rw, 0x0, false, none, 0x0⟩
def SEQ_TRAP_PC_LO_VALUE : Fld := ⟨0x38, 0, 32, .ro, 0x0, false, none, 0x0⟩
def SEQ_TRAP_PC_HI_VALUE : Fld := ⟨0x3C, 0, 32, .ro, 0x0, false, none, 0x0⟩
def SEQ_TCAUSE_TILE : Fld := ⟨0x40, 0, 3, .ro, 0x0, false, none, 0x0⟩
def SEQ_TCAUSE_TAG : Fld := ⟨0x40, 8, 8, .ro, 0x0, false, none, 0x0⟩
def SEQ_TCAUSE_VALID : Fld := ⟨0x40, 31, 1, .ro, 0x0, false, none, 0x0⟩
def SEQ_WAIT_LIMIT_LIMIT_US : Fld := ⟨0x48, 0, 32, .rw, 0x2710, true, none, 0x2710⟩
def SEQ_QP_LIMIT_LIMIT_NS : Fld := ⟨0x4C, 0, 32, .rw, 0xC350, true, none, 0xC350⟩
def SEQ_QP_MAX_MAX_NS : Fld := ⟨0x50, 0, 32, .rc, 0x0, false, none, 0x0⟩
def SEQ_QP_LAST_LO_VALUE : Fld := ⟨0x58, 0, 32, .ro, 0x0, false, none, 0x0⟩
def SEQ_QP_LAST_HI_VALUE : Fld := ⟨0x5C, 0, 32, .ro, 0x0, false, none, 0x0⟩
def SEQ_FLAGS_NV : Fld := ⟨0x60, 0, 1, .rc, 0x0, false, none, 0x0⟩
def SEQ_FLAGS_OF : Fld := ⟨0x60, 1, 1, .rc, 0x0, false, none, 0x0⟩
def SEQ_FLAGS_UF : Fld := ⟨0x60, 2, 1, .rc, 0x0, false, none, 0x0⟩
def SEQ_FLAGS_NX : Fld := ⟨0x60, 3, 1, .rc, 0x0, false, none, 0x0⟩
def SEQ_ISSUED_LO_VALUE : Fld := ⟨0x68, 0, 32, .ro, 0x0, false, none, 0x0⟩
def SEQ_ISSUED_HI_VALUE : Fld := ⟨0x6C, 0, 32, .ro, 0x0, false, none, 0x0⟩
def SEQ_CYC_WAIT_LO_VALUE : Fld := ⟨0x70, 0, 32, .ro, 0x0, false, none, 0x0⟩
def SEQ_CYC_WAIT_HI_VALUE : Fld := ⟨0x74, 0, 32, .ro, 0x0, false, none, 0x0⟩
def SEQ_DRAIN_NS_DRAIN_NS : Fld := ⟨0x78, 0, 32, .ro, 0x0, false, none, 0x0⟩

/-! ### DSP -/

def DSP_CFG_TIMEOUT_OWN : Fld := ⟨0x0, 0, 1, .rw, 0x0, true, none, 0x2⟩
def DSP_CFG_PAD_FILL : Fld := ⟨0x0, 1, 1, .rw, 0x1, true, none, 0x2⟩
def DSP_CFG_LEVEL : Fld := ⟨0x0, 31, 1, .rw, 0x0, false, none, 0x2⟩
def DSP_STATUS_OPEN : Fld := ⟨0x8, 0, 2, .ro, 0x0, false, none, 0x0⟩
def DSP_STATUS_BUSY : Fld := ⟨0x8, 2, 1, .ro, 0x0, false, none, 0x0⟩
def DSP_STATUS_DROP : Fld := ⟨0x8, 3, 1, .rc, 0x0, false, none, 0x0⟩
def DSP_STATUS_NAN_COUNT : Fld := ⟨0x8, 8, 8, .rc, 0x0, false, none, 0x0⟩
def DSP_STATUS_DROP_COUNT : Fld := ⟨0x8, 16, 16, .rc, 0x0, false, none, 0x0⟩
def DSP_ERR_TIMEOUT : Fld := ⟨0x10, 0, 1, .rc, 0x0, false, none, 0x0⟩
def DSP_ERR_UE : Fld := ⟨0x10, 1, 1, .rc, 0x0, false, none, 0x0⟩
def DSP_ERR_UE_COUNT : Fld := ⟨0x10, 8, 8, .rc, 0x0, false, none, 0x0⟩
def DSP_ERR_MISSING : Fld := ⟨0x10, 16, 9, .ro, 0x0, false, none, 0x0⟩
def DSP_TIMEOUT_LIMIT_US : Fld := ⟨0x18, 0, 32, .rw, 0x2710, true, none, 0x2710⟩
def DSP_CE_COUNT_COUNT : Fld := ⟨0x1C, 0, 32, .rc, 0x0, false, none, 0x0⟩
def DSP_ENTRIES_LO_VALUE : Fld := ⟨0x20, 0, 32, .ro, 0x0, false, none, 0x0⟩
def DSP_ENTRIES_HI_VALUE : Fld := ⟨0x24, 0, 32, .ro, 0x0, false, none, 0x0⟩
def DSP_CYC_BUSY_LO_VALUE : Fld := ⟨0x28, 0, 32, .ro, 0x0, false, none, 0x0⟩
def DSP_CYC_BUSY_HI_VALUE : Fld := ⟨0x2C, 0, 32, .ro, 0x0, false, none, 0x0⟩

/-! ### ASY -/

def ASY_CFG_SAT : Fld := ⟨0x0, 0, 1, .rw, 0x1, true, none, 0x7⟩
def ASY_CFG_FLAG_SUM_EN : Fld := ⟨0x0, 1, 4, .rw, 0x3, true, none, 0x7⟩
def ASY_CFG_LEVEL : Fld := ⟨0x0, 31, 1, .rw, 0x0, false, none, 0x7⟩
def ASY_STATUS_NV : Fld := ⟨0x8, 0, 1, .rc, 0x0, false, none, 0x0⟩
def ASY_STATUS_OF : Fld := ⟨0x8, 1, 1, .rc, 0x0, false, none, 0x0⟩
def ASY_STATUS_UF : Fld := ⟨0x8, 2, 1, .rc, 0x0, false, none, 0x0⟩
def ASY_STATUS_NX : Fld := ⟨0x8, 3, 1, .rc, 0x0, false, none, 0x0⟩
def ASY_STATUS_SATD : Fld := ⟨0x8, 4, 1, .rc, 0x0, false, none, 0x0⟩
def ASY_STATUS_BUSY : Fld := ⟨0x8, 7, 1, .ro, 0x0, false, none, 0x0⟩
def ASY_STATUS_FLAG_COUNT : Fld := ⟨0x8, 8, 16, .rc, 0x0, false, none, 0x0⟩
def ASY_STATUS_LAST_TAG : Fld := ⟨0x8, 24, 8, .rc, 0x0, false, none, 0x0⟩
def ASY_ERR_UE : Fld := ⟨0x10, 0, 1, .rc, 0x0, false, none, 0x0⟩
def ASY_ERR_ADDR_VALID : Fld := ⟨0x10, 2, 1, .ro, 0x0, false, none, 0x0⟩
def ASY_ERR_UE_COUNT : Fld := ⟨0x10, 8, 8, .rc, 0x0, false, none, 0x0⟩
def ASY_ERR_LAST_TAG : Fld := ⟨0x10, 24, 8, .rc, 0x0, false, none, 0x0⟩
def ASY_UE_ADDR_LO_ADDR : Fld := ⟨0x18, 0, 32, .ro, 0x0, false, none, 0x0⟩
def ASY_UE_ADDR_HI_ADDR : Fld := ⟨0x1C, 0, 32, .ro, 0x0, false, none, 0x0⟩
def ASY_CE_COUNT_COUNT : Fld := ⟨0x20, 0, 32, .rc, 0x0, false, none, 0x0⟩
def ASY_QUEUE_DEPTH : Fld := ⟨0x28, 0, 3, .ro, 0x0, false, none, 0x0⟩
def ASY_NONFIN_COUNT : Fld := ⟨0x30, 0, 32, .rc, 0x0, false, none, 0x0⟩
def ASY_CYC_BUSY_LO_VALUE : Fld := ⟨0x38, 0, 32, .ro, 0x0, false, none, 0x0⟩
def ASY_CYC_BUSY_HI_VALUE : Fld := ⟨0x3C, 0, 32, .ro, 0x0, false, none, 0x0⟩
def ASY_RESTORE_VALUE : Fld := ⟨0x48, 0, 32, .wo, 0x0, false, none, 0x0⟩

/-! ### POR -/

def POR_CFG_MAX_OUT : Fld := ⟨0x0, 0, 4, .rw, 0xF, true, none, 0xF⟩
def POR_CFG_SX_FIRST : Fld := ⟨0x0, 4, 1, .rw, 0x0, true, none, 0xF⟩
def POR_CFG_LEVEL : Fld := ⟨0x0, 31, 1, .rw, 0x0, false, none, 0xF⟩
def POR_STATUS_POISON : Fld := ⟨0x8, 0, 1, .rc, 0x0, false, none, 0x0⟩
def POR_STATUS_DROPPED : Fld := ⟨0x8, 1, 1, .rc, 0x0, false, none, 0x0⟩
def POR_STATUS_UE : Fld := ⟨0x8, 2, 1, .rc, 0x0, false, none, 0x0⟩
def POR_STATUS_UE_VALID : Fld := ⟨0x8, 3, 1, .ro, 0x0, false, none, 0x0⟩
def POR_STATUS_BUSY : Fld := ⟨0x8, 7, 1, .ro, 0x0, false, none, 0x0⟩
def POR_STATUS_POISON_COUNT : Fld := ⟨0x8, 8, 8, .rc, 0x0, false, none, 0x0⟩
def POR_STATUS_DROP_COUNT : Fld := ⟨0x8, 16, 8, .rc, 0x0, false, none, 0x0⟩
def POR_STATUS_LAST_TAG : Fld := ⟨0x8, 24, 8, .rc, 0x0, false, none, 0x0⟩
def POR_UE_ADDR_LO_ADDR : Fld := ⟨0x10, 0, 32, .ro, 0x0, false, none, 0x0⟩
def POR_UE_ADDR_HI_ADDR : Fld := ⟨0x14, 0, 32, .ro, 0x0, false, none, 0x0⟩
def POR_CE_COUNT_COUNT : Fld := ⟨0x18, 0, 32, .rc, 0x0, false, none, 0x0⟩
def POR_QUEUE_DEPTH : Fld := ⟨0x20, 0, 4, .ro, 0x0, false, none, 0x0⟩
def POR_RD_BYTES_LO_VALUE : Fld := ⟨0x28, 0, 32, .ro, 0x0, false, none, 0x0⟩
def POR_RD_BYTES_HI_VALUE : Fld := ⟨0x2C, 0, 32, .ro, 0x0, false, none, 0x0⟩
def POR_WR_BYTES_LO_VALUE : Fld := ⟨0x30, 0, 32, .ro, 0x0, false, none, 0x0⟩
def POR_WR_BYTES_HI_VALUE : Fld := ⟨0x34, 0, 32, .ro, 0x0, false, none, 0x0⟩
def POR_REMOTE_BYTES_LO_VALUE : Fld := ⟨0x38, 0, 32, .ro, 0x0, false, none, 0x0⟩
def POR_REMOTE_BYTES_HI_VALUE : Fld := ⟨0x3C, 0, 32, .ro, 0x0, false, none, 0x0⟩
def POR_CYC_STALL_LO_VALUE : Fld := ⟨0x40, 0, 32, .ro, 0x0, false, none, 0x0⟩
def POR_CYC_STALL_HI_VALUE : Fld := ⟨0x44, 0, 32, .ro, 0x0, false, none, 0x0⟩
def POR_RESTORE_VALUE : Fld := ⟨0x48, 0, 32, .wo, 0x0, false, none, 0x0⟩

/-! ### SLV -/

def SLV_CFG_INTERLEAVE : Fld := ⟨0x0, 0, 2, .rw, 0x0, true, none, 0x0⟩
def SLV_CFG_LEVEL : Fld := ⟨0x0, 31, 1, .rw, 0x0, false, none, 0x0⟩
def SLV_STATUS_SINGULAR : Fld := ⟨0x8, 0, 1, .rc, 0x0, false, none, 0x0⟩
def SLV_STATUS_RANGE : Fld := ⟨0x8, 1, 1, .rc, 0x0, false, none, 0x0⟩
def SLV_STATUS_WARM_REJECT : Fld := ⟨0x8, 2, 1, .rc, 0x0, false, none, 0x0⟩
def SLV_STATUS_UE : Fld := ⟨0x8, 3, 1, .rc, 0x0, false, none, 0x0⟩
def SLV_STATUS_BUSY : Fld := ⟨0x8, 7, 1, .ro, 0x0, false, none, 0x0⟩
def SLV_STATUS_SING_PROBLEMS : Fld := ⟨0x8, 8, 8, .rc, 0x0, false, none, 0x0⟩
def SLV_STATUS_RANGE_PROBLEMS : Fld := ⟨0x8, 16, 8, .rc, 0x0, false, none, 0x0⟩
def SLV_STATUS_LAST_TAG : Fld := ⟨0x8, 24, 8, .rc, 0x0, false, none, 0x0⟩
def SLV_SING_POS_PROBLEM : Fld := ⟨0x10, 0, 16, .ro, 0x0, false, none, 0x0⟩
def SLV_SING_POS_COL : Fld := ⟨0x10, 16, 6, .ro, 0x0, false, none, 0x0⟩
def SLV_SING_POS_VALID : Fld := ⟨0x10, 31, 1, .ro, 0x0, false, none, 0x0⟩
def SLV_RANGE_POS_ELEM : Fld := ⟨0x18, 0, 18, .ro, 0x0, false, none, 0x0⟩
def SLV_RANGE_POS_VAR : Fld := ⟨0x18, 20, 3, .ro, 0x0, false, none, 0x0⟩
def SLV_RANGE_POS_VALID : Fld := ⟨0x18, 31, 1, .ro, 0x0, false, none, 0x0⟩
def SLV_RANGE_PROB_PROBLEM : Fld := ⟨0x1C, 0, 16, .ro, 0x0, false, none, 0x0⟩
def SLV_PIVOT_MIN_LO_MIN : Fld := ⟨0x20, 0, 32, .rw, 0x1, true, none, 0x1⟩
def SLV_PIVOT_MIN_HI_MIN : Fld := ⟨0x24, 0, 32, .rw, 0x0, true, none, 0x0⟩
def SLV_UE_ADDR_LO_ADDR : Fld := ⟨0x28, 0, 32, .ro, 0x0, false, none, 0x0⟩
def SLV_UE_ADDR_HI_ADDR : Fld := ⟨0x2C, 0, 32, .ro, 0x0, false, none, 0x0⟩
def SLV_CE_COUNT_COUNT : Fld := ⟨0x30, 0, 32, .rc, 0x0, false, none, 0x0⟩
def SLV_QUEUE_DEPTH : Fld := ⟨0x38, 0, 2, .ro, 0x0, false, none, 0x0⟩
def SLV_QUEUE_DONE : Fld := ⟨0x38, 16, 16, .ro, 0x0, false, none, 0x0⟩
def SLV_WARM_COUNT_COUNT : Fld := ⟨0x40, 0, 32, .rc, 0x0, false, none, 0x0⟩
def SLV_CYC_BUSY_LO_VALUE : Fld := ⟨0x48, 0, 32, .ro, 0x0, false, none, 0x0⟩
def SLV_CYC_BUSY_HI_VALUE : Fld := ⟨0x4C, 0, 32, .ro, 0x0, false, none, 0x0⟩
def SLV_PROBLEMS_LO_VALUE : Fld := ⟨0x50, 0, 32, .ro, 0x0, false, none, 0x0⟩
def SLV_PROBLEMS_HI_VALUE : Fld := ⟨0x54, 0, 32, .ro, 0x0, false, none, 0x0⟩
def SLV_RESTORE_VALUE : Fld := ⟨0x58, 0, 32, .wo, 0x0, false, none, 0x0⟩

/-! ### MEM -/

def MEM_CFG_RETRAIN_AUTO : Fld := ⟨0x0, 0, 1, .rw, 0x1, true, none, 0x201003⟩
def MEM_CFG_SCRUB_EN : Fld := ⟨0x0, 1, 1, .rw, 0x1, true, none, 0x201003⟩
def MEM_CFG_CE_RETRAIN_THR : Fld := ⟨0x0, 8, 8, .rw, 0x10, true, none, 0x201003⟩
def MEM_CFG_WR_RUN : Fld := ⟨0x0, 16, 8, .rw, 0x20, true, none, 0x201003⟩
def MEM_CFG_LEVEL : Fld := ⟨0x0, 31, 1, .rw, 0x0, false, none, 0x201003⟩
def MEM_STATUS_BUSY : Fld := ⟨0x8, 0, 1, .ro, 0x0, false, none, 0x0⟩
def MEM_STATUS_RETRAINING : Fld := ⟨0x8, 1, 1, .ro, 0x0, false, none, 0x0⟩
def MEM_STATUS_HOT : Fld := ⟨0x8, 2, 1, .ro, 0x0, false, none, 0x0⟩
def MEM_STATUS_UE : Fld := ⟨0x8, 3, 1, .rc, 0x0, false, none, 0x0⟩
def MEM_STATUS_OOS_COUNT : Fld := ⟨0x8, 4, 4, .ro, 0x0, false, none, 0x0⟩
def MEM_STATUS_UE_COUNT : Fld := ⟨0x8, 8, 16, .rc, 0x0, false, none, 0x0⟩
def MEM_STATUS_RETRAIN_COUNT : Fld := ⟨0x8, 24, 8, .rc, 0x0, false, none, 0x0⟩
def MEM_CHAN_SEL_CHAN : Fld := ⟨0x10, 0, 5, .rw, 0x0, false, none, 0x0⟩
def MEM_CHAN_STATUS_STATE : Fld := ⟨0x18, 0, 2, .ro, 0x0, false, none, 0x0⟩
def MEM_CHAN_STATUS_SLICES : Fld := ⟨0x18, 2, 5, .ro, 0x0, false, none, 0x0⟩
def MEM_CHAN_STATUS_RETRAINS : Fld := ⟨0x18, 8, 8, .rc, 0x0, false, none, 0x0⟩
def MEM_CHAN_STATUS_CE_COUNT : Fld := ⟨0x18, 16, 16, .rc, 0x0, false, none, 0x0⟩
def MEM_UE_ADDR_LO_ADDR : Fld := ⟨0x20, 0, 32, .ro, 0x0, false, none, 0x0⟩
def MEM_UE_ADDR_HI_ADDR : Fld := ⟨0x24, 0, 31, .ro, 0x0, false, none, 0x0⟩
def MEM_UE_ADDR_HI_VALID : Fld := ⟨0x24, 31, 1, .ro, 0x0, false, none, 0x0⟩
def MEM_CE_COUNT_COUNT : Fld := ⟨0x28, 0, 32, .rc, 0x0, false, none, 0x0⟩
def MEM_RETRAIN_CHAN : Fld := ⟨0x30, 0, 5, .wo, 0x0, false, none, 0x0⟩
def MEM_RETRAIN_START : Fld := ⟨0x30, 8, 1, .wo, 0x0, false, none, 0x0⟩
def MEM_SELFTEST_CHAN : Fld := ⟨0x38, 0, 5, .wo, 0x0, false, none, 0x0⟩
def MEM_SELFTEST_START : Fld := ⟨0x38, 8, 1, .wo, 0x0, false, none, 0x0⟩
def MEM_SELFTEST_PASS : Fld := ⟨0x38, 16, 1, .ro, 0x0, false, none, 0x0⟩
def MEM_SELFTEST_DONE : Fld := ⟨0x38, 17, 1, .rc, 0x0, false, none, 0x0⟩
def MEM_ADMIT_CHAN : Fld := ⟨0x3C, 0, 5, .wo, 0x0, false, none, 0x0⟩
def MEM_ADMIT_REQUEST : Fld := ⟨0x3C, 8, 1, .wo, 0x0, false, none, 0x0⟩
def MEM_REPAIR_STATUS_PENDING_ROWS : Fld := ⟨0x40, 0, 9, .ro, 0x0, false, none, 0x48000⟩
def MEM_REPAIR_STATUS_SPARE_ROWS_MIN : Fld := ⟨0x40, 12, 4, .ro, 0x8, false, none, 0x48000⟩
def MEM_REPAIR_STATUS_SPARE_TSV_MIN : Fld := ⟨0x40, 16, 3, .ro, 0x4, false, none, 0x48000⟩
def MEM_REPAIR_STATUS_LIST_OVERFLOW : Fld := ⟨0x40, 20, 8, .rc, 0x0, false, none, 0x48000⟩
def MEM_REPAIR_STATUS_REPAIRING : Fld := ⟨0x40, 31, 1, .ro, 0x0, false, none, 0x48000⟩
def MEM_TEMP_TEMP_C : Fld := ⟨0x48, 0, 8, .ro, 0x0, false, none, 0x0⟩
def MEM_TEMP_MAX_C : Fld := ⟨0x48, 8, 8, .rc, 0x0, false, none, 0x0⟩
def MEM_RD_BYTES_LO_VALUE : Fld := ⟨0x50, 0, 32, .ro, 0x0, false, none, 0x0⟩
def MEM_RD_BYTES_HI_VALUE : Fld := ⟨0x54, 0, 32, .ro, 0x0, false, none, 0x0⟩
def MEM_WR_BYTES_LO_VALUE : Fld := ⟨0x58, 0, 32, .ro, 0x0, false, none, 0x0⟩
def MEM_WR_BYTES_HI_VALUE : Fld := ⟨0x5C, 0, 32, .ro, 0x0, false, none, 0x0⟩
def MEM_CYC_REFRESH_LO_VALUE : Fld := ⟨0x60, 0, 32, .ro, 0x0, false, none, 0x0⟩
def MEM_CYC_REFRESH_HI_VALUE : Fld := ⟨0x64, 0, 32, .ro, 0x0, false, none, 0x0⟩

/-! ### MEMP -/

def MEM_SPREAD_SIZE : Fld := ⟨0x0, 0, 4, .rw, 0x0, false, none, 0x0⟩
def MEM_LAT_CFG_AGE_NS : Fld := ⟨0x8, 0, 16, .rw, 0x7D0, true, none, 0x7D0⟩
def MEM_LAT_CFG_LEVEL : Fld := ⟨0x8, 31, 1, .rw, 0x0, false, none, 0x7D0⟩
def MEM_UNMAPPED_COUNT : Fld := ⟨0x10, 0, 32, .rc, 0x0, false, none, 0x0⟩

/-! ### DEP -/

def DEP_CFG_STREAM_ALLOC : Fld := ⟨0x0, 0, 1, .rw, 0x0, true, none, 0x2⟩
def DEP_CFG_PREFETCH : Fld := ⟨0x0, 1, 1, .rw, 0x1, true, none, 0x2⟩
def DEP_CFG_LEVEL : Fld := ⟨0x0, 31, 1, .rw, 0x0, false, none, 0x2⟩
def DEP_STATUS_BUSY : Fld := ⟨0x8, 0, 1, .ro, 0x0, false, none, 0x0⟩
def DEP_STATUS_FLUSHING : Fld := ⟨0x8, 1, 1, .ro, 0x0, false, none, 0x0⟩
def DEP_STATUS_UE : Fld := ⟨0x8, 2, 1, .rc, 0x0, false, none, 0x0⟩
def DEP_STATUS_UE_COUNT : Fld := ⟨0x8, 8, 8, .rc, 0x0, false, none, 0x0⟩
def DEP_UE_ADDR_LO_ADDR : Fld := ⟨0x10, 0, 32, .ro, 0x0, false, none, 0x0⟩
def DEP_UE_ADDR_HI_ADDR : Fld := ⟨0x14, 0, 31, .ro, 0x0, false, none, 0x0⟩
def DEP_UE_ADDR_HI_VALID : Fld := ⟨0x14, 31, 1, .ro, 0x0, false, none, 0x0⟩
def DEP_CE_COUNT_COUNT : Fld := ⟨0x18, 0, 32, .rc, 0x0, false, none, 0x0⟩
def DEP_HIT_LO_VALUE : Fld := ⟨0x20, 0, 32, .ro, 0x0, false, none, 0x0⟩
def DEP_HIT_HI_VALUE : Fld := ⟨0x24, 0, 32, .ro, 0x0, false, none, 0x0⟩
def DEP_MISS_LO_VALUE : Fld := ⟨0x28, 0, 32, .ro, 0x0, false, none, 0x0⟩
def DEP_MISS_HI_VALUE : Fld := ⟨0x2C, 0, 32, .ro, 0x0, false, none, 0x0⟩
def DEP_ATOMIC_LO_VALUE : Fld := ⟨0x30, 0, 32, .ro, 0x0, false, none, 0x0⟩
def DEP_ATOMIC_HI_VALUE : Fld := ⟨0x34, 0, 32, .ro, 0x0, false, none, 0x0⟩
def DEP_REDUCE_LO_VALUE : Fld := ⟨0x38, 0, 32, .ro, 0x0, false, none, 0x0⟩
def DEP_REDUCE_HI_VALUE : Fld := ⟨0x3C, 0, 32, .ro, 0x0, false, none, 0x0⟩
def DEP_BACKINV_LO_VALUE : Fld := ⟨0x40, 0, 32, .ro, 0x0, false, none, 0x0⟩
def DEP_BACKINV_HI_VALUE : Fld := ⟨0x44, 0, 32, .ro, 0x0, false, none, 0x0⟩
def DEP_FLUSH_GO : Fld := ⟨0x48, 0, 1, .wo, 0x0, false, none, 0x0⟩
def DEP_INVAL_GO : Fld := ⟨0x4C, 0, 1, .wo, 0x0, false, none, 0x0⟩

/-! ### FAB -/

def FAB_CFG_GRACE_US : Fld := ⟨0x0, 0, 8, .rw, 0x64, true, none, 0x64⟩
def FAB_CFG_LEVEL : Fld := ⟨0x0, 31, 1, .rw, 0x0, false, none, 0x64⟩
def FAB_STATUS_BUSY : Fld := ⟨0x8, 0, 1, .ro, 0x0, false, none, 0x0⟩
def FAB_STATUS_ARMED : Fld := ⟨0x8, 1, 1, .ro, 0x0, false, none, 0x0⟩
def FAB_STATUS_REMOTE_DEAD : Fld := ⟨0x8, 2, 1, .rc, 0x0, false, none, 0x0⟩
def FAB_STATUS_RED_UNCERTAIN : Fld := ⟨0x8, 3, 1, .rc, 0x0, false, none, 0x0⟩
def FAB_STATUS_PORTS_ACTIVE : Fld := ⟨0x8, 8, 8, .ro, 0x0, false, none, 0x0⟩
def FAB_STATUS_DEAD_COUNT : Fld := ⟨0x8, 16, 8, .rc, 0x0, false, none, 0x0⟩
def FAB_STATUS_REFUSED_COUNT : Fld := ⟨0x8, 24, 8, .rc, 0x0, false, none, 0x0⟩
def FAB_SELF_SLOT : Fld := ⟨0x10, 0, 6, .ro, 0x0, false, none, 0x0⟩
def FAB_SELF_CARAVAN : Fld := ⟨0x10, 6, 10, .rws, 0x0, false, none, 0x0⟩
def FAB_JOB_TAG : Fld := ⟨0x18, 0, 16, .ro, 0x0, false, none, 0x0⟩
def FAB_JOB_PASSED : Fld := ⟨0x18, 16, 1, .ro, 0x0, false, none, 0x0⟩
def FAB_EPOCH_CURRENT : Fld := ⟨0x20, 0, 2, .ro, 0x0, false, none, 0x0⟩
def FAB_EPOCH_ARM : Fld := ⟨0x20, 8, 1, .wo, 0x0, false, none, 0x0⟩
def FAB_EPOCH_DISARM : Fld := ⟨0x20, 9, 1, .wo, 0x0, false, none, 0x0⟩
def FAB_EPOCH_TAG_APPLY : Fld := ⟨0x20, 10, 1, .rw, 0x0, false, none, 0x0⟩
def FAB_EPOCH_NEW_TAG : Fld := ⟨0x20, 16, 16, .rw, 0x0, false, none, 0x0⟩
def FAB_EPOCH_AT_LO_COUNT : Fld := ⟨0x28, 0, 32, .rw, 0x0, false, none, 0x0⟩
def FAB_EPOCH_AT_HI_COUNT : Fld := ⟨0x2C, 0, 32, .rw, 0x0, false, none, 0x0⟩
def FAB_DEAD_PKG_PACKAGE : Fld := ⟨0x30, 0, 16, .ro, 0x0, false, none, 0x0⟩
def FAB_DEAD_PKG_VALID : Fld := ⟨0x30, 31, 1, .ro, 0x0, false, none, 0x0⟩
def FAB_TIMEOUT_CARAVAN_US : Fld := ⟨0x38, 0, 16, .rw, 0x28, true, (some (10, 40)), 0x1900028⟩
def FAB_TIMEOUT_ROUTE_US : Fld := ⟨0x38, 16, 16, .rw, 0x190, true, (some (100, 400)), 0x1900028⟩
def FAB_STALE_COUNT_COUNT : Fld := ⟨0x40, 0, 32, .rc, 0x0, false, none, 0x0⟩
def FAB_EPOCH_DROP_COUNT : Fld := ⟨0x44, 0, 32, .rc, 0x0, false, none, 0x0⟩
def FAB_LATE_RSP_COUNT : Fld := ⟨0x48, 0, 32, .rc, 0x0, false, none, 0x0⟩
def FAB_NO_PATH_COUNT : Fld := ⟨0x4C, 0, 32, .rc, 0x0, false, none, 0x0⟩
def FAB_TX_BYTES_LO_VALUE : Fld := ⟨0x50, 0, 32, .ro, 0x0, false, none, 0x0⟩
def FAB_TX_BYTES_HI_VALUE : Fld := ⟨0x54, 0, 32, .ro, 0x0, false, none, 0x0⟩
def FAB_RX_BYTES_LO_VALUE : Fld := ⟨0x58, 0, 32, .ro, 0x0, false, none, 0x0⟩
def FAB_RX_BYTES_HI_VALUE : Fld := ⟨0x5C, 0, 32, .ro, 0x0, false, none, 0x0⟩
def FAB_FWD_BYTES_LO_VALUE : Fld := ⟨0x60, 0, 32, .ro, 0x0, false, none, 0x0⟩
def FAB_FWD_BYTES_HI_VALUE : Fld := ⟨0x64, 0, 32, .ro, 0x0, false, none, 0x0⟩

/-! ### PORT -/

def PORT_CTRL_ENABLE : Fld := ⟨0x0, 0, 1, .rws, 0x1, false, none, 0x3⟩
def PORT_CTRL_AUTO_ADMIT : Fld := ⟨0x0, 1, 1, .rw, 0x1, true, none, 0x3⟩
def PORT_CTRL_ACCEPT_ANY : Fld := ⟨0x0, 2, 1, .rw, 0x0, true, none, 0x3⟩
def PORT_CTRL_ADMIT : Fld := ⟨0x0, 8, 1, .wo, 0x0, false, none, 0x3⟩
def PORT_CTRL_RETRAIN : Fld := ⟨0x0, 9, 1, .wo, 0x0, false, none, 0x3⟩
def PORT_CTRL_SELFTEST : Fld := ⟨0x0, 10, 1, .wo, 0x0, false, none, 0x3⟩
def PORT_CTRL_LEVEL : Fld := ⟨0x0, 31, 1, .rw, 0x0, false, none, 0x3⟩
def PORT_STATUS_STATE : Fld := ⟨0x8, 0, 3, .ro, 0x1, false, none, 0x1⟩
def PORT_STATUS_CHECK : Fld := ⟨0x8, 3, 3, .ro, 0x0, false, none, 0x1⟩
def PORT_STATUS_SELFTEST_PASS : Fld := ⟨0x8, 6, 1, .ro, 0x0, false, none, 0x1⟩
def PORT_STATUS_DOWN : Fld := ⟨0x8, 7, 1, .rc, 0x0, false, none, 0x1⟩
def PORT_STATUS_LANES_UP : Fld := ⟨0x8, 8, 4, .ro, 0x0, false, none, 0x1⟩
def PORT_STATUS_SWAP_PORT : Fld := ⟨0x8, 12, 5, .ro, 0x0, false, none, 0x1⟩
def PORT_STATUS_DOWN_COUNT : Fld := ⟨0x8, 24, 8, .rc, 0x0, false, none, 0x1⟩
def PORT_PEER_PACKAGE : Fld := ⟨0x10, 0, 16, .ro, 0x0, false, none, 0x0⟩
def PORT_PEER_PORT : Fld := ⟨0x10, 16, 5, .ro, 0x0, false, none, 0x0⟩
def PORT_PEER_VALID : Fld := ⟨0x10, 31, 1, .ro, 0x0, false, none, 0x0⟩
def PORT_PEER_SERIAL_LO_SERIAL : Fld := ⟨0x18, 0, 32, .ro, 0x0, false, none, 0x0⟩
def PORT_PEER_SERIAL_HI_SERIAL : Fld := ⟨0x1C, 0, 32, .ro, 0x0, false, none, 0x0⟩
def PORT_REPLAY_REPLAYS : Fld := ⟨0x20, 0, 16, .rc, 0x0, false, none, 0x0⟩
def PORT_REPLAY_CRC_ERRORS : Fld := ⟨0x20, 16, 16, .rc, 0x0, false, none, 0x0⟩
def PORT_FEC_CORRECTED : Fld := ⟨0x24, 0, 24, .rc, 0x0, false, none, 0x0⟩
def PORT_FEC_UNCORRECTED : Fld := ⟨0x24, 24, 8, .rc, 0x0, false, none, 0x0⟩
def PORT_RETRAINS_COUNT : Fld := ⟨0x28, 0, 8, .rc, 0x0, false, none, 0x0⟩
def PORT_RETRAIN_THR_REPLAYS_PER_MS : Fld := ⟨0x2C, 0, 16, .rw, 0x40, true, none, 0x40⟩
def PORT_TX_BYTES_LO_VALUE : Fld := ⟨0x30, 0, 32, .ro, 0x0, false, none, 0x0⟩
def PORT_TX_BYTES_HI_VALUE : Fld := ⟨0x34, 0, 32, .ro, 0x0, false, none, 0x0⟩
def PORT_RX_BYTES_LO_VALUE : Fld := ⟨0x38, 0, 32, .ro, 0x0, false, none, 0x0⟩
def PORT_RX_BYTES_HI_VALUE : Fld := ⟨0x3C, 0, 32, .ro, 0x0, false, none, 0x0⟩

/-! ### RT -/

def RT_CFG_VLAN_EN : Fld := ⟨0x0, 0, 1, .rws, 0x0, false, none, 0x0⟩
def RT_CFG_JUMBO : Fld := ⟨0x0, 1, 1, .rw, 0x0, true, none, 0x0⟩
def RT_CFG_PCP : Fld := ⟨0x0, 2, 3, .rws, 0x0, false, none, 0x0⟩
def RT_CFG_VID : Fld := ⟨0x0, 16, 12, .rws, 0x0, false, none, 0x0⟩
def RT_CFG_LEVEL : Fld := ⟨0x0, 31, 1, .rw, 0x0, false, none, 0x0⟩
def RT_MAC_BYTE_BYTE : Fld := ⟨0x4, 0, 8, .rws, 0x4B, false, none, 0x4B⟩
def RT_ETHERTYPE_TYPE : Fld := ⟨0x8, 0, 16, .ro, 0xA3C1, false, none, 0xA3C1⟩
def RT_RTO_RTO_US : Fld := ⟨0xC, 0, 8, .rw, 0x20, true, (some (16, 32)), 0xB20⟩
def RT_RTO_MAX_TX : Fld := ⟨0xC, 8, 4, .rw, 0xB, true, (some (1, 11)), 0xB20⟩
def RT_RETX_COUNT : Fld := ⟨0x10, 0, 32, .rc, 0x0, false, none, 0x0⟩
def RT_CRC_COUNT : Fld := ⟨0x14, 0, 32, .rc, 0x0, false, none, 0x0⟩
def RT_DUP_COUNT : Fld := ⟨0x18, 0, 32, .rc, 0x0, false, none, 0x0⟩
def RT_FOREIGN_COUNT : Fld := ⟨0x1C, 0, 32, .rc, 0x0, false, none, 0x0⟩
def RT_PEERS_ACTIVE : Fld := ⟨0x20, 0, 13, .ro, 0x0, false, none, 0x0⟩

/-! ### HAL -/

def HAL_CFG_PORT0_EN : Fld := ⟨0x0, 0, 1, .rws, 0x1, false, none, 0x3⟩
def HAL_CFG_PORT1_EN : Fld := ⟨0x0, 1, 1, .rws, 0x1, false, none, 0x3⟩
def HAL_CFG_LEVEL : Fld := ⟨0x0, 31, 1, .rw, 0x0, false, none, 0x3⟩
def HAL_STATUS_STATE0 : Fld := ⟨0x8, 0, 3, .ro, 0x1, false, none, 0x9⟩
def HAL_STATUS_STATE1 : Fld := ⟨0x8, 3, 3, .ro, 0x1, false, none, 0x9⟩
def HAL_STATUS_DEGRADED : Fld := ⟨0x8, 6, 1, .ro, 0x0, false, none, 0x9⟩
def HAL_STATUS_DOWN : Fld := ⟨0x8, 7, 1, .ro, 0x0, false, none, 0x9⟩
def HAL_STATUS_SNP_TIMEOUT : Fld := ⟨0x8, 8, 1, .rc, 0x0, false, none, 0x9⟩
def HAL_STATUS_SNP_TIMEOUT_COUNT : Fld := ⟨0x8, 16, 16, .rc, 0x0, false, none, 0x9⟩
def HAL_WIN_BASE_LO_BASE : Fld := ⟨0x10, 0, 32, .rws, 0x0, false, none, 0x0⟩
def HAL_WIN_BASE_HI_BASE : Fld := ⟨0x14, 0, 32, .rws, 0x0, false, none, 0x0⟩
def HAL_WIN_SIZE_GIB : Fld := ⟨0x18, 0, 17, .rws, 0x0, false, none, 0x0⟩
def HAL_SNP_TIMEOUT_US : Fld := ⟨0x1C, 0, 16, .rw, 0x32, true, (some (10, 1000)), 0x32⟩
def HAL_REPLAY_COUNT : Fld := ⟨0x20, 0, 32, .rc, 0x0, false, none, 0x0⟩
def HAL_RECALLS_LO_VALUE : Fld := ⟨0x28, 0, 32, .ro, 0x0, false, none, 0x0⟩
def HAL_RECALLS_HI_VALUE : Fld := ⟨0x2C, 0, 32, .ro, 0x0, false, none, 0x0⟩

/-! ### COL -/

def COL_CFG_ALGO : Fld := ⟨0x0, 0, 3, .rw, 0x0, true, none, 0x408⟩
def COL_CFG_INR_EN : Fld := ⟨0x0, 3, 1, .rw, 0x1, true, none, 0x408⟩
def COL_CFG_CLAIM_MIB : Fld := ⟨0x0, 8, 4, .rw, 0x4, true, none, 0x408⟩
def COL_CFG_LEVEL : Fld := ⟨0x0, 31, 1, .rw, 0x0, false, none, 0x408⟩
def COL_STATUS_BUSY : Fld := ⟨0x8, 0, 1, .ro, 0x0, false, none, 0x0⟩
def COL_STATUS_NV : Fld := ⟨0x8, 1, 1, .rc, 0x0, false, none, 0x0⟩
def COL_STATUS_OF : Fld := ⟨0x8, 2, 1, .rc, 0x0, false, none, 0x0⟩
def COL_STATUS_UF : Fld := ⟨0x8, 3, 1, .rc, 0x0, false, none, 0x0⟩
def COL_STATUS_NX : Fld := ⟨0x8, 4, 1, .rc, 0x0, false, none, 0x0⟩
def COL_STATUS_ABORTED : Fld := ⟨0x8, 5, 1, .rc, 0x0, false, none, 0x0⟩
def COL_STATUS_DIRTY : Fld := ⟨0x8, 6, 1, .rc, 0x0, false, none, 0x0⟩
def COL_STATUS_RUNNING : Fld := ⟨0x8, 8, 5, .ro, 0x0, false, none, 0x0⟩
def COL_STATUS_ABORT_COUNT : Fld := ⟨0x8, 16, 8, .rc, 0x0, false, none, 0x0⟩
def COL_STATUS_LAST_TAG : Fld := ⟨0x8, 24, 8, .rc, 0x0, false, none, 0x0⟩
def COL_ABORT_INFO_LO_GROUP : Fld := ⟨0x10, 0, 8, .ro, 0x0, false, none, 0x0⟩
def COL_ABORT_INFO_LO_CAUSE : Fld := ⟨0x10, 8, 8, .ro, 0x0, false, none, 0x0⟩
def COL_ABORT_INFO_LO_SEQ : Fld := ⟨0x10, 16, 16, .ro, 0x0, false, none, 0x0⟩
def COL_ABORT_INFO_HI_PKG : Fld := ⟨0x14, 0, 16, .ro, 0x0, false, none, 0x0⟩
def COL_ABORT_INFO_HI_VALID : Fld := ⟨0x14, 31, 1, .ro, 0x0, false, none, 0x0⟩
def COL_CRC_INFO_LO_CHUNK : Fld := ⟨0x18, 0, 29, .ro, 0x0, false, none, 0x0⟩
def COL_CRC_INFO_HI_FROM_PKG : Fld := ⟨0x1C, 0, 16, .ro, 0x0, false, none, 0x0⟩
def COL_CRC_INFO_HI_GROUP : Fld := ⟨0x1C, 16, 8, .ro, 0x0, false, none, 0x0⟩
def COL_CRC_INFO_HI_VALID : Fld := ⟨0x1C, 31, 1, .ro, 0x0, false, none, 0x0⟩
def COL_CRC_COUNT_COUNT : Fld := ⟨0x20, 0, 32, .rc, 0x0, false, none, 0x0⟩
def COL_NOINR_COUNT_COUNT : Fld := ⟨0x24, 0, 32, .rc, 0x0, false, none, 0x0⟩
def COL_DROP_COUNT_COUNT : Fld := ⟨0x28, 0, 32, .rc, 0x0, false, none, 0x0⟩
def COL_RSRAM_USED0 : Fld := ⟨0x2C, 0, 8, .ro, 0x0, false, none, 0x0⟩
def COL_RSRAM_USED1 : Fld := ⟨0x2C, 8, 8, .ro, 0x0, false, none, 0x0⟩
def COL_QUEUE_DEPTH : Fld := ⟨0x30, 0, 7, .ro, 0x0, false, none, 0x0⟩
def COL_XOVER_ALPHA_C : Fld := ⟨0x34, 0, 16, .rw, 0x7D0, true, none, 0xC807D0⟩
def COL_XOVER_ALPHA_R : Fld := ⟨0x34, 16, 16, .rw, 0xC8, true, none, 0xC807D0⟩
def COL_TIMEOUT_CARAVAN_MS : Fld := ⟨0x38, 0, 8, .rw, 0xA, true, (some (1, 10)), 0x640A⟩
def COL_TIMEOUT_ROUTE_MS : Fld := ⟨0x38, 8, 16, .rw, 0x64, true, (some (10, 100)), 0x640A⟩
def COL_LAUNCH_TBL_LO_ADDR : Fld := ⟨0x40, 0, 32, .rw, 0x0, false, none, 0x0⟩
def COL_LAUNCH_TBL_HI_ADDR : Fld := ⟨0x44, 0, 32, .rw, 0x0, false, none, 0x0⟩
def COL_LAUNCH_CFG_CHILD_US : Fld := ⟨0x48, 0, 8, .rw, 0xC8, true, (some (100, 255)), 0x321F4C8⟩
def COL_LAUNCH_CFG_MARGIN_C : Fld := ⟨0x48, 8, 12, .rw, 0x1F4, true, (some (200, 4095)), 0x321F4C8⟩
def COL_LAUNCH_CFG_MARGIN_R : Fld := ⟨0x48, 20, 8, .rw, 0x32, true, (some (20, 255)), 0x321F4C8⟩
def COL_LAUNCH_STATUS_STATE : Fld := ⟨0x50, 0, 3, .ro, 0x0, false, none, 0x0⟩
def COL_LAUNCH_STATUS_REPARENTS : Fld := ⟨0x50, 8, 8, .rc, 0x0, false, none, 0x0⟩
def COL_LAUNCH_STATUS_DEAD_PKG : Fld := ⟨0x50, 16, 16, .ro, 0x0, false, none, 0x0⟩
def COL_TX_BYTES_LO_VALUE : Fld := ⟨0x58, 0, 32, .ro, 0x0, false, none, 0x0⟩
def COL_TX_BYTES_HI_VALUE : Fld := ⟨0x5C, 0, 32, .ro, 0x0, false, none, 0x0⟩
def COL_RX_BYTES_LO_VALUE : Fld := ⟨0x60, 0, 32, .ro, 0x0, false, none, 0x0⟩
def COL_RX_BYTES_HI_VALUE : Fld := ⟨0x64, 0, 32, .ro, 0x0, false, none, 0x0⟩
def COL_DONE_LO_VALUE : Fld := ⟨0x68, 0, 32, .ro, 0x0, false, none, 0x0⟩
def COL_DONE_HI_VALUE : Fld := ⟨0x6C, 0, 32, .ro, 0x0, false, none, 0x0⟩
def COL_RESTORE_VALUE : Fld := ⟨0x70, 0, 32, .wo, 0x0, false, none, 0x0⟩

/-! ### GCT -/

def GCT_CFG_ROLE : Fld := ⟨0x0, 0, 2, .rws, 0x0, false, none, 0x6400⟩
def GCT_CFG_REF_CAND : Fld := ⟨0x0, 2, 1, .rws, 0x0, false, none, 0x6400⟩
def GCT_CFG_PPS_EN : Fld := ⟨0x0, 3, 1, .rws, 0x0, false, none, 0x6400⟩
def GCT_CFG_SLEW_PPM : Fld := ⟨0x0, 8, 8, .rw, 0x64, true, (some (10, 100)), 0x6400⟩
def GCT_CFG_LEVEL : Fld := ⟨0x0, 31, 1, .rw, 0x0, false, none, 0x6400⟩
def GCT_STATUS_STATE : Fld := ⟨0x8, 0, 3, .ro, 0x0, false, none, 0x1F70⟩
def GCT_STATUS_STRATUM : Fld := ⟨0x8, 4, 3, .ro, 0x7, false, none, 0x1F70⟩
def GCT_STATUS_ROUTE_LOCKED : Fld := ⟨0x8, 7, 1, .ro, 0x0, false, none, 0x1F70⟩
def GCT_STATUS_PARENT_PORT : Fld := ⟨0x8, 8, 5, .ro, 0x1F, false, none, 0x1F70⟩
def GCT_STATUS_STEPPED : Fld := ⟨0x8, 13, 1, .rc, 0x0, false, none, 0x1F70⟩
def GCT_STATUS_HOLDOVER_SEEN : Fld := ⟨0x8, 14, 1, .rc, 0x0, false, none, 0x1F70⟩
def GCT_STATUS_PPS_OK : Fld := ⟨0x8, 15, 1, .ro, 0x0, false, none, 0x1F70⟩
def GCT_STATUS_LOSS_COUNT : Fld := ⟨0x8, 16, 8, .rc, 0x0, false, none, 0x1F70⟩
def GCT_COUNT_LO_COUNT : Fld := ⟨0x10, 0, 32, .ro, 0x0, false, none, 0x0⟩
def GCT_COUNT_HI_COUNT : Fld := ⟨0x14, 0, 32, .ro, 0x0, false, none, 0x0⟩
def GCT_SET_LO_VALUE : Fld := ⟨0x18, 0, 32, .wo, 0x0, false, none, 0x0⟩
def GCT_SET_HI_VALUE : Fld := ⟨0x1C, 0, 32, .wo, 0x0, false, none, 0x0⟩
def GCT_OFFSET_OFFSET : Fld := ⟨0x20, 0, 32, .ro, 0x0, false, none, 0x0⟩
def GCT_DELAY_DELAY : Fld := ⟨0x24, 0, 32, .ro, 0x0, false, none, 0x0⟩
def GCT_FREQ_FREQ : Fld := ⟨0x28, 0, 32, .ro, 0x0, false, none, 0x0⟩
def GCT_LAUNCH_LO_COUNT : Fld := ⟨0x30, 0, 32, .ro, 0x0, false, none, 0x0⟩
def GCT_LAUNCH_HI_COUNT : Fld := ⟨0x34, 0, 32, .ro, 0x0, false, none, 0x0⟩
def GCT_START_LO_COUNT : Fld := ⟨0x38, 0, 32, .ro, 0x0, false, none, 0x0⟩
def GCT_START_HI_COUNT : Fld := ⟨0x3C, 0, 32, .ro, 0x0, false, none, 0x0⟩
def GCT_CFGSIG_LO_SIG : Fld := ⟨0x40, 0, 32, .ro, 0x0, false, none, 0x0⟩
def GCT_CFGSIG_HI_SIG : Fld := ⟨0x44, 0, 32, .ro, 0x0, false, none, 0x0⟩
def GCT_PPS_LAST_LO_COUNT : Fld := ⟨0x48, 0, 32, .ro, 0x0, false, none, 0x0⟩
def GCT_PPS_LAST_HI_COUNT : Fld := ⟨0x4C, 0, 32, .ro, 0x0, false, none, 0x0⟩
def GCT_PPS_ERR_ERR_NS : Fld := ⟨0x50, 0, 16, .ro, 0x0, false, none, 0x0⟩
def GCT_PPS_ERR_MISSING : Fld := ⟨0x50, 16, 8, .rc, 0x0, false, none, 0x0⟩
def GCT_DIG_BASE_LO_ADDR : Fld := ⟨0x60, 0, 32, .rw, 0x0, false, none, 0x0⟩
def GCT_DIG_BASE_HI_ADDR : Fld := ⟨0x64, 0, 32, .rw, 0x0, false, none, 0x0⟩
def GCT_DIG_SLOT_RECORDS : Fld := ⟨0x68, 0, 20, .rw, 0x0, false, none, 0x0⟩
def GCT_DIG_OUT_LO_ADDR : Fld := ⟨0x70, 0, 32, .rw, 0x0, false, none, 0x0⟩
def GCT_DIG_OUT_HI_ADDR : Fld := ⟨0x74, 0, 32, .rw, 0x0, false, none, 0x0⟩
def GCT_DIG_CTRL_GO : Fld := ⟨0x78, 0, 1, .wo, 0x0, false, none, 0x0⟩
def GCT_DIG_CTRL_SLOT : Fld := ⟨0x78, 1, 1, .wo, 0x0, false, none, 0x0⟩
def GCT_DIG_STATUS_BUSY : Fld := ⟨0x80, 0, 1, .ro, 0x0, false, none, 0x0⟩
def GCT_DIG_STATUS_DONE : Fld := ⟨0x80, 1, 1, .rc, 0x0, false, none, 0x0⟩
def GCT_DIG_STATUS_ORDER_ERR : Fld := ⟨0x80, 2, 1, .rc, 0x0, false, none, 0x0⟩
def GCT_DIG_STATUS_EMPTY : Fld := ⟨0x80, 8, 16, .rc, 0x0, false, none, 0x0⟩
def GCT_DIG_LAYERS_LAYERS : Fld := ⟨0x88, 0, 32, .ro, 0x0, false, none, 0x0⟩
def GCT_DIG_ERRIDX_INDEX : Fld := ⟨0x8C, 0, 20, .ro, 0x0, false, none, 0x0⟩
def GCT_DIG_ERRIDX_VALID : Fld := ⟨0x8C, 31, 1, .ro, 0x0, false, none, 0x0⟩

/-! ### CKP -/

def CKP_CFG_ENABLE : Fld := ⟨0x0, 0, 1, .rw, 0x0, false, none, 0x130⟩
def CKP_CFG_AUDIT_EN : Fld := ⟨0x0, 1, 1, .rw, 0x0, false, none, 0x130⟩
def CKP_CFG_REPLAY_MAX : Fld := ⟨0x0, 4, 4, .rw, 0x3, true, none, 0x130⟩
def CKP_CFG_DURABLE_EVERY : Fld := ⟨0x0, 8, 4, .rw, 0x1, true, none, 0x130⟩
def CKP_CFG_GROUP : Fld := ⟨0x0, 16, 8, .rw, 0x0, false, none, 0x130⟩
def CKP_CFG_LEVEL : Fld := ⟨0x0, 31, 1, .rw, 0x0, false, none, 0x130⟩
def CKP_STATUS_STATE : Fld := ⟨0x8, 0, 3, .ro, 0x0, false, none, 0x0⟩
def CKP_STATUS_PINNED : Fld := ⟨0x8, 3, 2, .ro, 0x0, false, none, 0x0⟩
def CKP_STATUS_DRAINING : Fld := ⟨0x8, 5, 1, .ro, 0x0, false, none, 0x0⟩
def CKP_STATUS_PARTNER_BAD : Fld := ⟨0x8, 6, 1, .ro, 0x0, false, none, 0x0⟩
def CKP_STATUS_QUARANTINED : Fld := ⟨0x8, 7, 1, .ro, 0x0, false, none, 0x0⟩
def CKP_STATUS_REPLAYED : Fld := ⟨0x8, 8, 1, .rc, 0x0, false, none, 0x0⟩
def CKP_STATUS_SAVE_SKIPPED : Fld := ⟨0x8, 9, 1, .rc, 0x0, false, none, 0x0⟩
def CKP_STATUS_COPY_BAD : Fld := ⟨0x8, 10, 1, .rc, 0x0, false, none, 0x0⟩
def CKP_STATUS_REPLAY_COUNT : Fld := ⟨0x8, 16, 8, .rc, 0x0, false, none, 0x0⟩
def CKP_STATUS_DRAIN_COUNT : Fld := ⟨0x8, 24, 8, .rc, 0x0, false, none, 0x0⟩
def CKP_STEP_LO_VALUE : Fld := ⟨0x10, 0, 32, .ro, 0x0, false, none, 0x0⟩
def CKP_STEP_HI_VALUE : Fld := ⟨0x14, 0, 32, .ro, 0x0, false, none, 0x0⟩
def CKP_BOUNDARY_LO_VALUE : Fld := ⟨0x18, 0, 32, .wo, 0x0, false, none, 0x0⟩
def CKP_BOUNDARY_HI_VALUE : Fld := ⟨0x1C, 0, 32, .wo, 0x0, false, none, 0x0⟩
def CKP_NOTIFY_LO_ADDR : Fld := ⟨0x20, 0, 32, .rw, 0x0, false, none, 0x0⟩
def CKP_NOTIFY_HI_ADDR : Fld := ⟨0x24, 0, 32, .rw, 0x0, false, none, 0x0⟩
def CKP_ENTRY_LO_ADDR : Fld := ⟨0x28, 0, 32, .rw, 0x0, false, none, 0x0⟩
def CKP_ENTRY_HI_ADDR : Fld := ⟨0x2C, 0, 32, .rw, 0x0, false, none, 0x0⟩
def CKP_RANGES_LO_ADDR : Fld := ⟨0x30, 0, 32, .rw, 0x0, false, none, 0x0⟩
def CKP_RANGES_HI_ADDR : Fld := ⟨0x34, 0, 32, .rw, 0x0, false, none, 0x0⟩
def CKP_NRANGES_N : Fld := ⟨0x38, 0, 11, .rw, 0x0, false, none, 0x0⟩
def CKP_SLOT_SIZE_LO_VALUE : Fld := ⟨0x40, 0, 32, .ro, 0x0, false, none, 0x0⟩
def CKP_SLOT_SIZE_HI_VALUE : Fld := ⟨0x44, 0, 32, .ro, 0x0, false, none, 0x0⟩
def CKP_FIRN_BASE_LO_ADDR : Fld := ⟨0x48, 0, 32, .rw, 0x0, false, none, 0x0⟩
def CKP_FIRN_BASE_HI_ADDR : Fld := ⟨0x4C, 0, 32, .rw, 0x0, false, none, 0x0⟩
def CKP_MIRROR_BASE_LO_ADDR : Fld := ⟨0x50, 0, 32, .rw, 0x0, false, none, 0x0⟩
def CKP_MIRROR_BASE_HI_ADDR : Fld := ⟨0x54, 0, 32, .rw, 0x0, false, none, 0x0⟩
def CKP_DURABLE_BASE_LO_ADDR : Fld := ⟨0x58, 0, 32, .rw, 0x0, false, none, 0x0⟩
def CKP_DURABLE_BASE_HI_ADDR : Fld := ⟨0x5C, 0, 32, .rw, 0x0, false, none, 0x0⟩
def CKP_PARTNER_TBL_LO_ADDR : Fld := ⟨0x60, 0, 32, .rw, 0x0, false, none, 0x0⟩
def CKP_PARTNER_TBL_HI_ADDR : Fld := ⟨0x64, 0, 32, .rw, 0x0, false, none, 0x0⟩
def CKP_RANK_RANK : Fld := ⟨0x68, 0, 16, .rw, 0x0, false, none, 0x0⟩
def CKP_RANK_ROLE : Fld := ⟨0x68, 16, 2, .rw, 0x0, false, none, 0x0⟩
def CKP_JOB_ID_LO_VALUE : Fld := ⟨0x70, 0, 32, .rw, 0x0, false, none, 0x0⟩
def CKP_JOB_ID_HI_VALUE : Fld := ⟨0x74, 0, 32, .rw, 0x0, false, none, 0x0⟩
def CKP_DRAIN_CFG_RATE_GBS : Fld := ⟨0x78, 0, 10, .rw, 0x190, true, (some (1, 400)), 0x32190⟩
def CKP_DRAIN_CFG_DURABLE_GBS : Fld := ⟨0x78, 10, 10, .rw, 0xC8, true, (some (1, 760)), 0x32190⟩
def CKP_DRAIN_CFG_INTERVAL : Fld := ⟨0x78, 20, 12, .rw, 0x0, true, none, 0x32190⟩
def CKP_SLOT_SEL_SEL : Fld := ⟨0x80, 0, 3, .rw, 0x0, false, none, 0x0⟩
def CKP_SLOT_CUT_LO_VALUE : Fld := ⟨0x88, 0, 32, .ro, 0x0, false, none, 0x0⟩
def CKP_SLOT_CUT_HI_VALUE : Fld := ⟨0x8C, 0, 32, .ro, 0x0, false, none, 0x0⟩
def CKP_SLOT_STATE_STATE : Fld := ⟨0x90, 0, 2, .ro, 0x0, false, none, 0x0⟩
def CKP_SLOT_STATE_KIND : Fld := ⟨0x90, 2, 1, .ro, 0x0, false, none, 0x0⟩
def CKP_SLOT_STATE_RANK : Fld := ⟨0x90, 16, 16, .ro, 0x0, false, none, 0x0⟩
def CKP_ERR_CODE : Fld := ⟨0x98, 0, 8, .rc, 0x0, false, none, 0x0⟩
def CKP_COPY_NS_VALUE : Fld := ⟨0xA0, 0, 32, .ro, 0x0, false, none, 0x0⟩
def CKP_RESTORE_CUT_LO_VALUE : Fld := ⟨0xA8, 0, 32, .ro, 0x0, false, none, 0x0⟩
def CKP_RESTORE_CUT_HI_VALUE : Fld := ⟨0xAC, 0, 32, .ro, 0x0, false, none, 0x0⟩
def CKP_AUDIT_CFG_THRESH : Fld := ⟨0xC0, 0, 8, .rw, 0x8, true, none, 0x808⟩
def CKP_AUDIT_CFG_DECAY : Fld := ⟨0xC0, 8, 8, .rw, 0x8, true, none, 0x808⟩
def CKP_AUDIT_LOG_LO_ADDR : Fld := ⟨0xC8, 0, 32, .rw, 0x0, false, none, 0x0⟩
def CKP_AUDIT_LOG_HI_ADDR : Fld := ⟨0xCC, 0, 32, .rw, 0x0, false, none, 0x0⟩
def CKP_AUDIT_GO_N : Fld := ⟨0xD0, 0, 16, .wo, 0x0, false, none, 0x0⟩
def CKP_AUDIT_PICK_LO_VALUE : Fld := ⟨0xD8, 0, 32, .ro, 0x0, false, none, 0x0⟩
def CKP_AUDIT_PICK_HI_VALUE : Fld := ⟨0xDC, 0, 32, .ro, 0x0, false, none, 0x0⟩
def CKP_LOAD_TAG_TAG : Fld := ⟨0xE0, 0, 8, .rw, 0x0, false, none, 0x0⟩
def CKP_SUSPICION_SCORE : Fld := ⟨0xE8, 0, 16, .ro, 0x0, false, none, 0x0⟩
def CKP_SUSPICION_MISMATCHES : Fld := ⟨0xE8, 16, 8, .rc, 0x0, false, none, 0x0⟩
def CKP_SUSPICION_CLEAR : Fld := ⟨0xE8, 31, 1, .wo, 0x0, false, none, 0x0⟩
def CKP_AUDIT_LAST_TEMP : Fld := ⟨0xF0, 0, 8, .ro, 0x0, false, none, 0x0⟩
def CKP_AUDIT_LAST_OP : Fld := ⟨0xF0, 8, 4, .ro, 0x0, false, none, 0x0⟩
def CKP_AUDIT_LAST_LOAD : Fld := ⟨0xF0, 12, 8, .ro, 0x0, false, none, 0x0⟩
def CKP_AUDIT_LAST_ROLE : Fld := ⟨0xF0, 20, 1, .ro, 0x0, false, none, 0x0⟩

/-! ### PWR -/

def PWR_CFG_RAMP_EN : Fld := ⟨0x0, 0, 1, .rw, 0x1, true, none, 0xA0C01⟩
def PWR_CFG_RAMP_BOOST_MV : Fld := ⟨0x0, 8, 8, .rw, 0xC, true, (some (0, 30)), 0xA0C01⟩
def PWR_CFG_UP_TICKS : Fld := ⟨0x0, 16, 8, .rw, 0xA, true, (some (10, 100)), 0xA0C01⟩
def PWR_CFG_LEVEL : Fld := ⟨0x0, 31, 1, .rw, 0x0, false, none, 0xA0C01⟩
def PWR_STATUS_OP : Fld := ⟨0x8, 0, 4, .ro, 0xF, false, none, 0xF⟩
def PWR_STATUS_TRANSITION : Fld := ⟨0x8, 4, 1, .ro, 0x0, false, none, 0xF⟩
def PWR_STATUS_BINDING : Fld := ⟨0x8, 8, 6, .ro, 0x0, false, none, 0xF⟩
def PWR_STATUS_TOP_OP : Fld := ⟨0x8, 16, 4, .ro, 0x0, false, none, 0xF⟩
def PWR_STATUS_CAP_UNMET : Fld := ⟨0x8, 20, 1, .rc, 0x0, false, none, 0xF⟩
def PWR_STATUS_DIE_STRETCHED : Fld := ⟨0x8, 21, 1, .ro, 0x0, false, none, 0xF⟩
def PWR_STATUS_STEP_COUNT : Fld := ⟨0x8, 24, 8, .rc, 0x0, false, none, 0xF⟩
def PWR_PREF_OP : Fld := ⟨0x10, 0, 4, .rw, 0x0, false, none, 0x0⟩
def PWR_HOST_OP_OP : Fld := ⟨0x14, 0, 4, .rws, 0x0, false, none, 0x0⟩
def PWR_CAP_CAP_W : Fld := ⟨0x18, 0, 13, .rws, 0x11F8, false, (some (1500, 4600)), 0x11F8⟩
def PWR_POWER_INST_W : Fld := ⟨0x20, 0, 16, .ro, 0x0, false, none, 0x0⟩
def PWR_POWER_AVG_W : Fld := ⟨0x20, 16, 16, .ro, 0x0, false, none, 0x0⟩
def PWR_POWER_10MS_AVG10_W : Fld := ⟨0x24, 0, 16, .ro, 0x0, false, none, 0x0⟩
def PWR_POWER_10MS_PEAK_W : Fld := ⟨0x24, 16, 16, .rc, 0x0, false, none, 0x0⟩
def PWR_ENERGY_LO_MJ : Fld := ⟨0x28, 0, 32, .ro, 0x0, false, none, 0x0⟩
def PWR_ENERGY_HI_MJ : Fld := ⟨0x2C, 0, 32, .ro, 0x0, false, none, 0x0⟩
def PWR_INPUT_VIN_MV : Fld := ⟨0x30, 0, 16, .ro, 0x0, false, none, 0x0⟩
def PWR_INPUT_IIN_DA : Fld := ⟨0x30, 16, 16, .ro, 0x0, false, none, 0x0⟩
def PWR_THR_SEL_REASON : Fld := ⟨0x38, 0, 3, .rw, 0x1, false, none, 0x1⟩
def PWR_THR_US_LO_US : Fld := ⟨0x40, 0, 32, .ro, 0x0, false, none, 0x0⟩
def PWR_THR_US_HI_US : Fld := ⟨0x44, 0, 32, .ro, 0x0, false, none, 0x0⟩
def PWR_THR_EPISODES_COUNT : Fld := ⟨0x48, 0, 32, .ro, 0x0, false, none, 0x0⟩
def PWR_DIE_SEL_DIE : Fld := ⟨0x50, 0, 3, .rw, 0x0, false, none, 0x0⟩
def PWR_DIE_STATUS_TEMP_C : Fld := ⟨0x58, 0, 8, .ro, 0x0, false, none, 0x0⟩
def PWR_DIE_STATUS_MAX_C : Fld := ⟨0x58, 8, 8, .rc, 0x0, false, none, 0x0⟩
def PWR_DIE_STATUS_SENSORS_OK : Fld := ⟨0x58, 16, 8, .ro, 0x0, false, none, 0x0⟩
def PWR_DIE_STATUS_STRETCH_PCT : Fld := ⟨0x58, 24, 8, .ro, 0x0, false, none, 0x0⟩
def PWR_DIE_VID_VID_MV : Fld := ⟨0x5C, 0, 12, .ro, 0x0, false, none, 0x0⟩
def PWR_DIE_DROOP_COUNT : Fld := ⟨0x60, 0, 32, .rc, 0x0, false, none, 0x0⟩
def PWR_VT_SEL_DIE : Fld := ⟨0x68, 0, 3, .rw, 0x0, false, none, 0x0⟩
def PWR_VT_SEL_OP : Fld := ⟨0x68, 8, 4, .rw, 0x0, false, none, 0x0⟩
def PWR_VT_ENTRY_VID_MV : Fld := ⟨0x6C, 0, 12, .ro, 0x0, false, none, 0x0⟩
def PWR_VT_ENTRY_FREQ_MHZ : Fld := ⟨0x6C, 16, 12, .ro, 0x0, false, none, 0x0⟩
def PWR_GUARD_BASE_MV : Fld := ⟨0x70, 0, 8, .ro, 0x0, false, none, 0x0⟩
def PWR_GUARD_AGE_MV : Fld := ⟨0x70, 8, 8, .ro, 0x0, false, none, 0x0⟩
def PWR_GUARD_TOTAL_MV : Fld := ⟨0x70, 16, 8, .ro, 0x0, false, none, 0x0⟩
def PWR_THERM_CFG_T_THROTTLE : Fld := ⟨0x78, 0, 8, .rw, 0x64, true, (some (85, 100)), 0x64⟩
def PWR_DROOP_CFG_DROOP_MV : Fld := ⟨0x7C, 0, 8, .rw, 0x1E, true, (some (15, 60)), 0x1E⟩
def PWR_COOLANT_INLET_C : Fld := ⟨0x80, 0, 8, .ro, 0x0, false, none, 0x0⟩
def PWR_COOLANT_OUTLET_C : Fld := ⟨0x80, 8, 8, .ro, 0x0, false, none, 0x0⟩
def PWR_COOLANT_INLET_MAX : Fld := ⟨0x80, 16, 8, .rc, 0x0, false, none, 0x0⟩
def PWR_RAMP_STATUS_PENDING : Fld := ⟨0x88, 0, 4, .ro, 0x0, false, none, 0x0⟩
def PWR_RAMP_STATUS_LATE_COUNT : Fld := ⟨0x88, 8, 8, .rc, 0x0, false, none, 0x0⟩
def PWR_RAMP_STATUS_DROPPED : Fld := ⟨0x88, 16, 8, .rc, 0x0, false, none, 0x0⟩
def PWR_SLEEP_STATUS_LAST_WAKE_US : Fld := ⟨0x90, 0, 16, .ro, 0x0, false, none, 0x0⟩
def PWR_SLEEP_STATUS_SLEEP_COUNT : Fld := ⟨0x90, 16, 16, .rc, 0x0, false, none, 0x0⟩

/-! ### CMD -/

def CMD_OPCODE_OPCODE : Fld := ⟨0x0, 0, 8, .rw, 0x0, false, none, 0x0⟩
def CMD_GO_GO : Fld := ⟨0x4, 0, 1, .wo, 0x0, false, none, 0x0⟩
def CMD_STATUS_CODE : Fld := ⟨0x8, 0, 8, .ro, 0x0, false, none, 0x0⟩
def CMD_STATUS_BUSY : Fld := ⟨0x8, 8, 1, .ro, 0x0, false, none, 0x0⟩
def CMD_STATUS_DONE : Fld := ⟨0x8, 9, 1, .rc, 0x0, false, none, 0x0⟩
def CMD_STATUS_LAST_OPCODE : Fld := ⟨0x8, 16, 8, .ro, 0x0, false, none, 0x0⟩
def CMD_STATUS_ISSUED : Fld := ⟨0x8, 24, 8, .ro, 0x0, false, none, 0x0⟩
def CMD_REFUSED_COUNT : Fld := ⟨0xC, 0, 8, .rc, 0x0, false, none, 0x0⟩
def CMD_REFUSED_OPCODE : Fld := ⟨0xC, 8, 8, .ro, 0x0, false, none, 0x0⟩
def CMD_ARG0_LO_VALUE : Fld := ⟨0x10, 0, 32, .rw, 0x0, false, none, 0x0⟩
def CMD_ARG0_HI_VALUE : Fld := ⟨0x14, 0, 32, .rw, 0x0, false, none, 0x0⟩
def CMD_ARG1_LO_VALUE : Fld := ⟨0x18, 0, 32, .rw, 0x0, false, none, 0x0⟩
def CMD_ARG1_HI_VALUE : Fld := ⟨0x1C, 0, 32, .rw, 0x0, false, none, 0x0⟩
def CMD_ARG2_LO_VALUE : Fld := ⟨0x20, 0, 32, .rw, 0x0, false, none, 0x0⟩
def CMD_ARG2_HI_VALUE : Fld := ⟨0x24, 0, 32, .rw, 0x0, false, none, 0x0⟩
def CMD_ARG3_LO_VALUE : Fld := ⟨0x28, 0, 32, .rw, 0x0, false, none, 0x0⟩
def CMD_ARG3_HI_VALUE : Fld := ⟨0x2C, 0, 32, .rw, 0x0, false, none, 0x0⟩
def CMD_RESULT_LO_VALUE : Fld := ⟨0x30, 0, 32, .ro, 0x0, false, none, 0x0⟩
def CMD_RESULT_HI_VALUE : Fld := ⟨0x34, 0, 32, .ro, 0x0, false, none, 0x0⟩

/-! ### PKG -/

def PKG_STATE_STATE : Fld := ⟨0x0, 0, 4, .ro, 0x1, false, none, 0x1⟩
def PKG_STATE_PREV : Fld := ⟨0x0, 4, 4, .ro, 0x0, false, none, 0x1⟩
def PKG_STATE_CAUSE : Fld := ⟨0x0, 8, 4, .ro, 0x0, false, none, 0x1⟩
def PKG_STATE_RAILS_ON : Fld := ⟨0x0, 12, 1, .ro, 0x0, false, none, 0x1⟩
def PKG_XD_MODE_MODE : Fld := ⟨0x8, 0, 1, .rw, 0x0, false, none, 0x0⟩
def PKG_XD_STATUS_STACK_PEND : Fld := ⟨0x10, 0, 12, .ro, 0x0, false, none, 0x0⟩
def PKG_XD_STATUS_FAB_PEND : Fld := ⟨0x10, 12, 2, .ro, 0x0, false, none, 0x0⟩
def PKG_XD_STATUS_DIE_PEND : Fld := ⟨0x10, 16, 4, .ro, 0x0, false, none, 0x0⟩
def PKG_XD_STATUS_TIMEOUT : Fld := ⟨0x10, 24, 1, .rc, 0x0, false, none, 0x0⟩
def PKG_XD_STATUS_TO_COUNT : Fld := ⟨0x10, 25, 7, .rc, 0x0, false, none, 0x0⟩
def PKG_XD_OFF_COUNT : Fld := ⟨0x14, 0, 32, .rc, 0x0, false, none, 0x0⟩
def PKG_CSR_ERR_COUNT : Fld := ⟨0x18, 0, 16, .rc, 0x0, false, none, 0x0⟩
def PKG_CSR_ERR_OFFSET : Fld := ⟨0x18, 16, 16, .ro, 0x0, false, none, 0x0⟩
def PKG_INPUTS_SLOT : Fld := ⟨0x20, 0, 6, .ro, 0x0, false, none, 0x0⟩
def PKG_INPUTS_SLOT_PAR : Fld := ⟨0x20, 6, 1, .ro, 0x0, false, none, 0x0⟩
def PKG_INPUTS_SLOT_OK : Fld := ⟨0x20, 7, 1, .ro, 0x0, false, none, 0x0⟩
def PKG_INPUTS_REFCLK_SRC : Fld := ⟨0x20, 8, 1, .ro, 0x0, false, none, 0x0⟩
def PKG_INPUTS_PPS_FITTED : Fld := ⟨0x20, 9, 1, .ro, 0x0, false, none, 0x0⟩
def PKG_INPUTS_SB_MODE : Fld := ⟨0x20, 10, 1, .ro, 0x0, false, none, 0x0⟩
def PKG_INPUTS_TAP_ACTIVE : Fld := ⟨0x20, 11, 1, .ro, 0x0, false, none, 0x0⟩
def PKG_INPUTS_CARRIER_REV : Fld := ⟨0x20, 16, 4, .ro, 0x0, false, none, 0x0⟩
def PKG_INPUT_ERR_VIN_OUT : Fld := ⟨0x28, 0, 8, .rc, 0x0, false, none, 0x0⟩
def PKG_INPUT_ERR_REFCLK_LOSS : Fld := ⟨0x28, 8, 8, .rc, 0x0, false, none, 0x0⟩
def PKG_INPUT_ERR_SB_TIMEOUT : Fld := ⟨0x28, 16, 8, .rc, 0x0, false, none, 0x0⟩
def PKG_INPUT_ERR_STRAP_CHANGES : Fld := ⟨0x28, 24, 8, .rc, 0x0, false, none, 0x0⟩
def PKG_REFCLK_OFFSET : Fld := ⟨0x30, 0, 16, .ro, 0x0, false, none, 0x0⟩
def PKG_REFCLK_IN_RANGE : Fld := ⟨0x30, 16, 1, .ro, 0x0, false, none, 0x0⟩
def PKG_INPUT_CFG_REFCLK_RETURN : Fld := ⟨0x38, 0, 1, .rw, 0x1, true, none, 0x1⟩
def PKG_INPUT_CFG_LEVEL : Fld := ⟨0x38, 31, 1, .rw, 0x0, false, none, 0x1⟩

/-! ### EVR -/

def EVR_CFG_NOTIFY_SEV : Fld := ⟨0x0, 0, 2, .rw, 0x2, false, none, 0xA0A⟩
def EVR_CFG_IBI_SEV : Fld := ⟨0x0, 2, 2, .rw, 0x2, false, none, 0xA0A⟩
def EVR_CFG_NOTIFY_EN : Fld := ⟨0x0, 4, 1, .rw, 0x0, false, none, 0xA0A⟩
def EVR_CFG_MERGE_MS : Fld := ⟨0x0, 8, 8, .rw, 0xA, true, none, 0xA0A⟩
def EVR_CFG_LEVEL : Fld := ⟨0x0, 31, 1, .rw, 0x0, false, none, 0xA0A⟩
def EVR_STATUS_RECORDS : Fld := ⟨0x8, 0, 14, .ro, 0x0, false, none, 0x0⟩
def EVR_STATUS_FULL : Fld := ⟨0x8, 14, 1, .ro, 0x0, false, none, 0x0⟩
def EVR_STATUS_SEV3_PRESENT : Fld := ⟨0x8, 15, 1, .ro, 0x0, false, none, 0x0⟩
def EVR_LOST_SEV0 : Fld := ⟨0x10, 0, 8, .rc, 0x0, false, none, 0x0⟩
def EVR_LOST_SEV1 : Fld := ⟨0x10, 8, 8, .rc, 0x0, false, none, 0x0⟩
def EVR_LOST_SEV2 : Fld := ⟨0x10, 16, 8, .rc, 0x0, false, none, 0x0⟩
def EVR_LOST_SEV3 : Fld := ⟨0x10, 24, 8, .rc, 0x0, false, none, 0x0⟩
def EVR_HEAD_SEQ : Fld := ⟨0x18, 0, 32, .ro, 0x0, false, none, 0x0⟩
def EVR_OLDEST_SEQ : Fld := ⟨0x1C, 0, 32, .ro, 0x0, false, none, 0x0⟩
def EVR_NOTIFY_LO_ADDR : Fld := ⟨0x20, 0, 32, .rw, 0x0, false, none, 0x0⟩
def EVR_NOTIFY_HI_ADDR : Fld := ⟨0x24, 0, 32, .rw, 0x0, false, none, 0x0⟩
def EVR_CLEAR_GO : Fld := ⟨0x28, 0, 1, .wo, 0x0, false, none, 0x0⟩

/-! ### SEC -/

def SEC_CFG_HEALTH_EN : Fld := ⟨0x0, 0, 1, .rw, 0x1, true, none, 0xC08001⟩
def SEC_CFG_WATCH_THR : Fld := ⟨0x0, 8, 8, .rw, 0x80, true, (some (32, 254)), 0xC08001⟩
def SEC_CFG_PREDICT_THR : Fld := ⟨0x0, 16, 8, .rw, 0xC0, true, none, 0xC08001⟩
def SEC_CFG_LEVEL : Fld := ⟨0x0, 31, 1, .rw, 0x0, false, none, 0xC08001⟩
def SEC_STATUS_BANK : Fld := ⟨0x8, 0, 1, .ro, 0x0, false, none, 0x0⟩
def SEC_STATUS_BANK_FAIL : Fld := ⟨0x8, 1, 1, .rc, 0x0, false, none, 0x0⟩
def SEC_STATUS_UNCLEAN : Fld := ⟨0x8, 2, 1, .rc, 0x0, false, none, 0x0⟩
def SEC_STATUS_RATING_PENDING : Fld := ⟨0x8, 3, 1, .ro, 0x0, false, none, 0x0⟩
def SEC_STATUS_ERASED : Fld := ⟨0x8, 4, 1, .rc, 0x0, false, none, 0x0⟩
def SEC_STATUS_CAIRN_LOW : Fld := ⟨0x8, 5, 1, .ro, 0x0, false, none, 0x0⟩
def SEC_STATUS_SVN : Fld := ⟨0x8, 8, 6, .ro, 0x0, false, none, 0x0⟩
def SEC_STATUS_ROLLBACK : Fld := ⟨0x8, 16, 6, .ro, 0x0, false, none, 0x0⟩
def SEC_STATUS_ATTEST_COUNT : Fld := ⟨0x8, 24, 8, .rc, 0x0, false, none, 0x0⟩
def SEC_FW_SVN_A : Fld := ⟨0x10, 0, 6, .ro, 0x0, false, none, 0x0⟩
def SEC_FW_VALID_A : Fld := ⟨0x10, 6, 1, .ro, 0x0, false, none, 0x0⟩
def SEC_FW_SVN_B : Fld := ⟨0x10, 8, 6, .ro, 0x0, false, none, 0x0⟩
def SEC_FW_VALID_B : Fld := ⟨0x10, 14, 1, .ro, 0x0, false, none, 0x0⟩
def SEC_NONCE_LO_NONCE : Fld := ⟨0x18, 0, 32, .ro, 0x0, false, none, 0x0⟩
def SEC_NONCE_HI_NONCE : Fld := ⟨0x1C, 0, 32, .ro, 0x0, false, none, 0x0⟩
def SEC_NONCE_GEN_GO : Fld := ⟨0x20, 0, 1, .wo, 0x0, false, none, 0x0⟩
def SEC_CUSTODY_LO_CUSTODY : Fld := ⟨0x28, 0, 32, .ro, 0x0, false, none, 0x0⟩
def SEC_CUSTODY_HI_CUSTODY : Fld := ⟨0x2C, 0, 32, .ro, 0x0, false, none, 0x0⟩
def SEC_ERASE_COUNT_COUNT : Fld := ⟨0x30, 0, 32, .ro, 0x0, false, none, 0x0⟩
def SEC_RATING_SEQ : Fld := ⟨0x34, 0, 16, .ro, 0x0, false, none, 0x0⟩
def SEC_RATING_PENDING_SEQ : Fld := ⟨0x34, 16, 16, .ro, 0x0, false, none, 0x0⟩
def SEC_HEALTH_SEL_KIND : Fld := ⟨0x38, 0, 3, .rw, 0x0, false, none, 0x0⟩
def SEC_HEALTH_SEL_INDEX : Fld := ⟨0x38, 8, 10, .rw, 0x0, false, none, 0x0⟩
def SEC_HEALTH_SCORE : Fld := ⟨0x3C, 0, 8, .ro, 0x0, false, none, 0x0⟩
def SEC_HEALTH_STATE : Fld := ⟨0x3C, 8, 2, .ro, 0x0, false, none, 0x0⟩
def SEC_HEALTH_DAYS : Fld := ⟨0x3C, 16, 8, .ro, 0x0, false, none, 0x0⟩
def SEC_HEALTH_SUM_MAX_SCORE : Fld := ⟨0x40, 0, 8, .ro, 0x0, false, none, 0x0⟩
def SEC_HEALTH_SUM_WATCH_PARTS : Fld := ⟨0x40, 8, 8, .ro, 0x0, false, none, 0x0⟩
def SEC_HEALTH_SUM_PREDICT_PARTS : Fld := ⟨0x40, 16, 8, .ro, 0x0, false, none, 0x0⟩
def SEC_CAIRN_COUNT_LO_COUNT : Fld := ⟨0x48, 0, 32, .ro, 0x0, false, none, 0x0⟩
def SEC_CAIRN_COUNT_HI_COUNT : Fld := ⟨0x4C, 0, 32, .ro, 0x0, false, none, 0x0⟩
def SEC_CAIRN_FREE_FREE : Fld := ⟨0x50, 0, 17, .ro, 0x0, false, none, 0x0⟩
def SEC_CAIRN_LOST_COUNT : Fld := ⟨0x54, 0, 32, .rc, 0x0, false, none, 0x0⟩
def SEC_CAIRN_SEL_LO_INDEX : Fld := ⟨0x58, 0, 32, .rw, 0x0, false, none, 0x0⟩
def SEC_CAIRN_SEL_HI_INDEX : Fld := ⟨0x5C, 0, 32, .rw, 0x0, false, none, 0x0⟩
def SEC_CERT_LEN_BYTES : Fld := ⟨0x60, 0, 12, .ro, 0x0, false, none, 0x0⟩
def SEC_CAIRN_COMPACT_N : Fld := ⟨0x64, 0, 32, .wo, 0x0, false, none, 0x0⟩
def SEC_HOTPLUG_PRESENT : Fld := ⟨0x68, 0, 1, .ro, 0x0, false, none, 0x0⟩
def SEC_HOTPLUG_PWR_EN : Fld := ⟨0x68, 1, 1, .ro, 0x0, false, none, 0x0⟩
def SEC_HOTPLUG_LEVER : Fld := ⟨0x68, 2, 1, .ro, 0x0, false, none, 0x0⟩
def SEC_HOTPLUG_REMOVALS : Fld := ⟨0x68, 8, 8, .rc, 0x0, false, none, 0x0⟩
def SEC_POWERON_S_LO_SECONDS : Fld := ⟨0x70, 0, 32, .ro, 0x0, false, none, 0x0⟩
def SEC_POWERON_S_HI_SECONDS : Fld := ⟨0x74, 0, 32, .ro, 0x0, false, none, 0x0⟩
def SEC_FLASH_UNLOCK_BANK : Fld := ⟨0x78, 0, 2, .wo, 0x0, false, none, 0x0⟩

end R

/-- Registers of block MX, part 0. -/
def regsMX0 : List Reg := [
  ⟨0x0, (some 0x0), [R.MX_CFG_FMT_A, R.MX_CFG_FMT_B, R.MX_CFG_FMT_OUT, R.MX_CFG_PASS, R.MX_CFG_SAT, R.MX_CFG_SCALE_EN, R.MX_CFG_SPARSE24, R.MX_CFG_SKIP, R.MX_CFG_FLAG_SUM_EN, R.MX_CFG_LEVEL]⟩,
  ⟨0x8, none, [R.MX_STATUS_NV, R.MX_STATUS_OF, R.MX_STATUS_UF, R.MX_STATUS_NX, R.MX_STATUS_SATD, R.MX_STATUS_BUSY, R.MX_STATUS_FLAG_COUNT, R.MX_STATUS_LAST_TAG]⟩,
  ⟨0x10, none, [R.MX_ERR_META, R.MX_ERR_UE, R.MX_ERR_META_COUNT, R.MX_ERR_UE_COUNT, R.MX_ERR_LAST_TAG]⟩,
  ⟨0x18, none, [R.MX_UE_ADDR_ADDR, R.MX_UE_ADDR_VALID]⟩,
  ⟨0x20, none, [R.MX_META_POS_ROW, R.MX_META_POS_QUAD, R.MX_META_POS_VALID]⟩,
  ⟨0x28, none, [R.MX_CE_COUNT_COUNT]⟩,
  ⟨0x30, none, [R.MX_QUEUE_DEPTH, R.MX_QUEUE_RAMPING]⟩,
  ⟨0x38, (some 0x38), [R.MX_RAMP_AUTO, R.MX_RAMP_FORCE_FULL, R.MX_RAMP_STAGE_LEN, R.MX_RAMP_LEVEL]⟩,
  ⟨0x40, none, [R.MX_RESTORE_VALUE]⟩,
  ⟨0x48, none, [R.MX_CYC_BUSY_LO_VALUE]⟩,
  ⟨0x4C, none, [R.MX_CYC_BUSY_HI_VALUE]⟩,
  ⟨0x50, none, [R.MX_CYC_STALL_LO_VALUE]⟩,
  ⟨0x54, none, [R.MX_CYC_STALL_HI_VALUE]⟩,
  ⟨0x58, none, [R.MX_SKIP_LO_VALUE]⟩,
  ⟨0x5C, none, [R.MX_SKIP_HI_VALUE]⟩,
  ⟨0x100, (some 0x100), [R.VX_CFG_SAT, R.VX_CFG_TRAP_EN, R.VX_CFG_FLAG_SUM_EN, R.VX_CFG_LEVEL]⟩,
  ⟨0x108, none, [R.VX_STATUS_NV, R.VX_STATUS_OF, R.VX_STATUS_UF, R.VX_STATUS_NX, R.VX_STATUS_SATD, R.VX_STATUS_TRAPPED, R.VX_STATUS_BUSY, R.VX_STATUS_FLAG_COUNT, R.VX_STATUS_LAST_TAG]⟩,
  ⟨0x110, none, [R.VX_EXC_INDEX, R.VX_EXC_FLAGS, R.VX_EXC_TAG, R.VX_EXC_VALID]⟩,
  ⟨0x118, none, [R.VX_RESUME_MODE]⟩,
  ⟨0x120, none, [R.VX_FIX_LO_VALUE]⟩]

/-- Registers of block MX, part 1. -/
def regsMX1 : List Reg := [
  ⟨0x124, none, [R.VX_FIX_HI_VALUE]⟩,
  ⟨0x128, none, [R.VX_ERR_UE, R.VX_ERR_UE_COUNT, R.VX_ERR_LAST_TAG]⟩,
  ⟨0x130, none, [R.VX_UE_ADDR_ADDR, R.VX_UE_ADDR_VALID]⟩,
  ⟨0x138, none, [R.VX_CE_COUNT_COUNT]⟩,
  ⟨0x140, none, [R.VX_QUEUE_DEPTH]⟩,
  ⟨0x148, none, [R.VX_CYC_BUSY_LO_VALUE]⟩,
  ⟨0x14C, none, [R.VX_CYC_BUSY_HI_VALUE]⟩,
  ⟨0x150, none, [R.VX_CYC_STALL_LO_VALUE]⟩,
  ⟨0x154, none, [R.VX_CYC_STALL_HI_VALUE]⟩,
  ⟨0x158, none, [R.VX_RESTORE_VALUE]⟩]

/-- Registers of block MX. -/
def regsMX : List Reg := regsMX0 ++ regsMX1

/-- Registers of block SX, part 0. -/
def regsSX0 : List Reg := [
  ⟨0x0, (some 0x0), [R.SX_CFG_FLAG_SUM_EN, R.SX_CFG_LOOKAHEAD, R.SX_CFG_LEVEL]⟩,
  ⟨0x8, none, [R.SX_STATUS_NV, R.SX_STATUS_OF, R.SX_STATUS_UF, R.SX_STATUS_NX, R.SX_STATUS_BUSY, R.SX_STATUS_FLAG_COUNT, R.SX_STATUS_LAST_TAG]⟩,
  ⟨0x10, none, [R.SX_ERR_UE, R.SX_ERR_UE_COUNT, R.SX_ERR_LAST_TAG]⟩,
  ⟨0x18, none, [R.SX_UE_ADDR_ADDR, R.SX_UE_ADDR_TILE, R.SX_UE_ADDR_VALID]⟩,
  ⟨0x20, none, [R.SX_CE_COUNT_COUNT]⟩,
  ⟨0x28, none, [R.SX_QUEUE_DEPTH]⟩,
  ⟨0x30, none, [R.SX_PROGRESS_BX, R.SX_PROGRESS_BY, R.SX_PROGRESS_PLANE]⟩,
  ⟨0x38, none, [R.SX_CYC_BUSY_LO_VALUE]⟩,
  ⟨0x3C, none, [R.SX_CYC_BUSY_HI_VALUE]⟩,
  ⟨0x40, none, [R.SX_CYC_STALL_LO_VALUE]⟩,
  ⟨0x44, none, [R.SX_CYC_STALL_HI_VALUE]⟩,
  ⟨0x48, none, [R.SX_WIN_SIZE_BYTES]⟩,
  ⟨0x50, none, [R.SX_RESTORE_VALUE]⟩]

/-- Registers of block SX. -/
def regsSX : List Reg := regsSX0

/-- Registers of block SEQ, part 0. -/
def regsSEQ0 : List Reg := [
  ⟨0x0, (some 0x0), [R.SEQ_CTRL_QP_CHECK, R.SEQ_CTRL_WAIT_LIMIT_EN, R.SEQ_CTRL_LEVEL]⟩,
  ⟨0x8, none, [R.SEQ_STATUS_STATE, R.SEQ_STATUS_QP_OVER, R.SEQ_STATUS_TRAP_PENDING, R.SEQ_STATUS_QP_OVER_COUNT, R.SEQ_STATUS_TAG]⟩,
  ⟨0x10, none, [R.SEQ_PC_LO_VALUE]⟩,
  ⟨0x14, none, [R.SEQ_PC_HI_VALUE]⟩,
  ⟨0x18, none, [R.SEQ_FAULT_CODE, R.SEQ_FAULT_KIND, R.SEQ_FAULT_TILE, R.SEQ_FAULT_CAUSE, R.SEQ_FAULT_VALID]⟩,
  ⟨0x20, none, [R.SEQ_FAULT_PC_LO_VALUE]⟩,
  ⟨0x24, none, [R.SEQ_FAULT_PC_HI_VALUE]⟩,
  ⟨0x28, none, [R.SEQ_FAULT_ADDR_LO_VALUE]⟩,
  ⟨0x2C, none, [R.SEQ_FAULT_ADDR_HI_VALUE]⟩,
  ⟨0x30, none, [R.SEQ_TVEC_LO_ADDR]⟩,
  ⟨0x34, none, [R.SEQ_TVEC_HI_ADDR]⟩,
  ⟨0x38, none, [R.SEQ_TRAP_PC_LO_VALUE]⟩,
  ⟨0x3C, none, [R.SEQ_TRAP_PC_HI_VALUE]⟩,
  ⟨0x40, none, [R.SEQ_TCAUSE_TILE, R.SEQ_TCAUSE_TAG, R.SEQ_TCAUSE_VALID]⟩,
  ⟨0x48, (some 0x0), [R.SEQ_WAIT_LIMIT_LIMIT_US]⟩,
  ⟨0x4C, (some 0x0), [R.SEQ_QP_LIMIT_LIMIT_NS]⟩,
  ⟨0x50, none, [R.SEQ_QP_MAX_MAX_NS]⟩,
  ⟨0x58, none, [R.SEQ_QP_LAST_LO_VALUE]⟩,
  ⟨0x5C, none, [R.SEQ_QP_LAST_HI_VALUE]⟩,
  ⟨0x60, none, [R.SEQ_FLAGS_NV, R.SEQ_FLAGS_OF, R.SEQ_FLAGS_UF, R.SEQ_FLAGS_NX]⟩]

/-- Registers of block SEQ, part 1. -/
def regsSEQ1 : List Reg := [
  ⟨0x68, none, [R.SEQ_ISSUED_LO_VALUE]⟩,
  ⟨0x6C, none, [R.SEQ_ISSUED_HI_VALUE]⟩,
  ⟨0x70, none, [R.SEQ_CYC_WAIT_LO_VALUE]⟩,
  ⟨0x74, none, [R.SEQ_CYC_WAIT_HI_VALUE]⟩,
  ⟨0x78, none, [R.SEQ_DRAIN_NS_DRAIN_NS]⟩]

/-- Registers of block SEQ. -/
def regsSEQ : List Reg := regsSEQ0 ++ regsSEQ1

/-- Registers of block DSP, part 0. -/
def regsDSP0 : List Reg := [
  ⟨0x0, (some 0x0), [R.DSP_CFG_TIMEOUT_OWN, R.DSP_CFG_PAD_FILL, R.DSP_CFG_LEVEL]⟩,
  ⟨0x8, none, [R.DSP_STATUS_OPEN, R.DSP_STATUS_BUSY, R.DSP_STATUS_DROP, R.DSP_STATUS_NAN_COUNT, R.DSP_STATUS_DROP_COUNT]⟩,
  ⟨0x10, none, [R.DSP_ERR_TIMEOUT, R.DSP_ERR_UE, R.DSP_ERR_UE_COUNT, R.DSP_ERR_MISSING]⟩,
  ⟨0x18, (some 0x0), [R.DSP_TIMEOUT_LIMIT_US]⟩,
  ⟨0x1C, none, [R.DSP_CE_COUNT_COUNT]⟩,
  ⟨0x20, none, [R.DSP_ENTRIES_LO_VALUE]⟩,
  ⟨0x24, none, [R.DSP_ENTRIES_HI_VALUE]⟩,
  ⟨0x28, none, [R.DSP_CYC_BUSY_LO_VALUE]⟩,
  ⟨0x2C, none, [R.DSP_CYC_BUSY_HI_VALUE]⟩]

/-- Registers of block DSP. -/
def regsDSP : List Reg := regsDSP0

/-- Registers of block ASY, part 0. -/
def regsASY0 : List Reg := [
  ⟨0x0, (some 0x0), [R.ASY_CFG_SAT, R.ASY_CFG_FLAG_SUM_EN, R.ASY_CFG_LEVEL]⟩,
  ⟨0x8, none, [R.ASY_STATUS_NV, R.ASY_STATUS_OF, R.ASY_STATUS_UF, R.ASY_STATUS_NX, R.ASY_STATUS_SATD, R.ASY_STATUS_BUSY, R.ASY_STATUS_FLAG_COUNT, R.ASY_STATUS_LAST_TAG]⟩,
  ⟨0x10, none, [R.ASY_ERR_UE, R.ASY_ERR_ADDR_VALID, R.ASY_ERR_UE_COUNT, R.ASY_ERR_LAST_TAG]⟩,
  ⟨0x18, none, [R.ASY_UE_ADDR_LO_ADDR]⟩,
  ⟨0x1C, none, [R.ASY_UE_ADDR_HI_ADDR]⟩,
  ⟨0x20, none, [R.ASY_CE_COUNT_COUNT]⟩,
  ⟨0x28, none, [R.ASY_QUEUE_DEPTH]⟩,
  ⟨0x30, none, [R.ASY_NONFIN_COUNT]⟩,
  ⟨0x38, none, [R.ASY_CYC_BUSY_LO_VALUE]⟩,
  ⟨0x3C, none, [R.ASY_CYC_BUSY_HI_VALUE]⟩,
  ⟨0x48, none, [R.ASY_RESTORE_VALUE]⟩]

/-- Registers of block ASY. -/
def regsASY : List Reg := regsASY0

/-- Registers of block POR, part 0. -/
def regsPOR0 : List Reg := [
  ⟨0x0, (some 0x0), [R.POR_CFG_MAX_OUT, R.POR_CFG_SX_FIRST, R.POR_CFG_LEVEL]⟩,
  ⟨0x8, none, [R.POR_STATUS_POISON, R.POR_STATUS_DROPPED, R.POR_STATUS_UE, R.POR_STATUS_UE_VALID, R.POR_STATUS_BUSY, R.POR_STATUS_POISON_COUNT, R.POR_STATUS_DROP_COUNT, R.POR_STATUS_LAST_TAG]⟩,
  ⟨0x10, none, [R.POR_UE_ADDR_LO_ADDR]⟩,
  ⟨0x14, none, [R.POR_UE_ADDR_HI_ADDR]⟩,
  ⟨0x18, none, [R.POR_CE_COUNT_COUNT]⟩,
  ⟨0x20, none, [R.POR_QUEUE_DEPTH]⟩,
  ⟨0x28, none, [R.POR_RD_BYTES_LO_VALUE]⟩,
  ⟨0x2C, none, [R.POR_RD_BYTES_HI_VALUE]⟩,
  ⟨0x30, none, [R.POR_WR_BYTES_LO_VALUE]⟩,
  ⟨0x34, none, [R.POR_WR_BYTES_HI_VALUE]⟩,
  ⟨0x38, none, [R.POR_REMOTE_BYTES_LO_VALUE]⟩,
  ⟨0x3C, none, [R.POR_REMOTE_BYTES_HI_VALUE]⟩,
  ⟨0x40, none, [R.POR_CYC_STALL_LO_VALUE]⟩,
  ⟨0x44, none, [R.POR_CYC_STALL_HI_VALUE]⟩,
  ⟨0x48, none, [R.POR_RESTORE_VALUE]⟩]

/-- Registers of block POR. -/
def regsPOR : List Reg := regsPOR0

/-- Registers of block SLV, part 0. -/
def regsSLV0 : List Reg := [
  ⟨0x0, (some 0x0), [R.SLV_CFG_INTERLEAVE, R.SLV_CFG_LEVEL]⟩,
  ⟨0x8, none, [R.SLV_STATUS_SINGULAR, R.SLV_STATUS_RANGE, R.SLV_STATUS_WARM_REJECT, R.SLV_STATUS_UE, R.SLV_STATUS_BUSY, R.SLV_STATUS_SING_PROBLEMS, R.SLV_STATUS_RANGE_PROBLEMS, R.SLV_STATUS_LAST_TAG]⟩,
  ⟨0x10, none, [R.SLV_SING_POS_PROBLEM, R.SLV_SING_POS_COL, R.SLV_SING_POS_VALID]⟩,
  ⟨0x18, none, [R.SLV_RANGE_POS_ELEM, R.SLV_RANGE_POS_VAR, R.SLV_RANGE_POS_VALID]⟩,
  ⟨0x1C, none, [R.SLV_RANGE_PROB_PROBLEM]⟩,
  ⟨0x20, (some 0x0), [R.SLV_PIVOT_MIN_LO_MIN]⟩,
  ⟨0x24, (some 0x0), [R.SLV_PIVOT_MIN_HI_MIN]⟩,
  ⟨0x28, none, [R.SLV_UE_ADDR_LO_ADDR]⟩,
  ⟨0x2C, none, [R.SLV_UE_ADDR_HI_ADDR]⟩,
  ⟨0x30, none, [R.SLV_CE_COUNT_COUNT]⟩,
  ⟨0x38, none, [R.SLV_QUEUE_DEPTH, R.SLV_QUEUE_DONE]⟩,
  ⟨0x40, none, [R.SLV_WARM_COUNT_COUNT]⟩,
  ⟨0x48, none, [R.SLV_CYC_BUSY_LO_VALUE]⟩,
  ⟨0x4C, none, [R.SLV_CYC_BUSY_HI_VALUE]⟩,
  ⟨0x50, none, [R.SLV_PROBLEMS_LO_VALUE]⟩,
  ⟨0x54, none, [R.SLV_PROBLEMS_HI_VALUE]⟩,
  ⟨0x58, none, [R.SLV_RESTORE_VALUE]⟩]

/-- Registers of block SLV. -/
def regsSLV : List Reg := regsSLV0

/-- Registers of block MEM, part 0. -/
def regsMEM0 : List Reg := [
  ⟨0x0, (some 0x0), [R.MEM_CFG_RETRAIN_AUTO, R.MEM_CFG_SCRUB_EN, R.MEM_CFG_CE_RETRAIN_THR, R.MEM_CFG_WR_RUN, R.MEM_CFG_LEVEL]⟩,
  ⟨0x8, none, [R.MEM_STATUS_BUSY, R.MEM_STATUS_RETRAINING, R.MEM_STATUS_HOT, R.MEM_STATUS_UE, R.MEM_STATUS_OOS_COUNT, R.MEM_STATUS_UE_COUNT, R.MEM_STATUS_RETRAIN_COUNT]⟩,
  ⟨0x10, none, [R.MEM_CHAN_SEL_CHAN]⟩,
  ⟨0x18, none, [R.MEM_CHAN_STATUS_STATE, R.MEM_CHAN_STATUS_SLICES, R.MEM_CHAN_STATUS_RETRAINS, R.MEM_CHAN_STATUS_CE_COUNT]⟩,
  ⟨0x20, none, [R.MEM_UE_ADDR_LO_ADDR]⟩,
  ⟨0x24, none, [R.MEM_UE_ADDR_HI_ADDR, R.MEM_UE_ADDR_HI_VALID]⟩,
  ⟨0x28, none, [R.MEM_CE_COUNT_COUNT]⟩,
  ⟨0x30, none, [R.MEM_RETRAIN_CHAN, R.MEM_RETRAIN_START]⟩,
  ⟨0x38, none, [R.MEM_SELFTEST_CHAN, R.MEM_SELFTEST_START, R.MEM_SELFTEST_PASS, R.MEM_SELFTEST_DONE]⟩,
  ⟨0x3C, none, [R.MEM_ADMIT_CHAN, R.MEM_ADMIT_REQUEST]⟩,
  ⟨0x40, none, [R.MEM_REPAIR_STATUS_PENDING_ROWS, R.MEM_REPAIR_STATUS_SPARE_ROWS_MIN, R.MEM_REPAIR_STATUS_SPARE_TSV_MIN, R.MEM_REPAIR_STATUS_LIST_OVERFLOW, R.MEM_REPAIR_STATUS_REPAIRING]⟩,
  ⟨0x48, none, [R.MEM_TEMP_TEMP_C, R.MEM_TEMP_MAX_C]⟩,
  ⟨0x50, none, [R.MEM_RD_BYTES_LO_VALUE]⟩,
  ⟨0x54, none, [R.MEM_RD_BYTES_HI_VALUE]⟩,
  ⟨0x58, none, [R.MEM_WR_BYTES_LO_VALUE]⟩,
  ⟨0x5C, none, [R.MEM_WR_BYTES_HI_VALUE]⟩,
  ⟨0x60, none, [R.MEM_CYC_REFRESH_LO_VALUE]⟩,
  ⟨0x64, none, [R.MEM_CYC_REFRESH_HI_VALUE]⟩]

/-- Registers of block MEM. -/
def regsMEM : List Reg := regsMEM0

/-- Registers of block MEMP, part 0. -/
def regsMEMP0 : List Reg := [
  ⟨0x0, none, [R.MEM_SPREAD_SIZE]⟩,
  ⟨0x8, (some 0x8), [R.MEM_LAT_CFG_AGE_NS, R.MEM_LAT_CFG_LEVEL]⟩,
  ⟨0x10, none, [R.MEM_UNMAPPED_COUNT]⟩]

/-- Registers of block MEMP. -/
def regsMEMP : List Reg := regsMEMP0

/-- Registers of block DEP, part 0. -/
def regsDEP0 : List Reg := [
  ⟨0x0, (some 0x0), [R.DEP_CFG_STREAM_ALLOC, R.DEP_CFG_PREFETCH, R.DEP_CFG_LEVEL]⟩,
  ⟨0x8, none, [R.DEP_STATUS_BUSY, R.DEP_STATUS_FLUSHING, R.DEP_STATUS_UE, R.DEP_STATUS_UE_COUNT]⟩,
  ⟨0x10, none, [R.DEP_UE_ADDR_LO_ADDR]⟩,
  ⟨0x14, none, [R.DEP_UE_ADDR_HI_ADDR, R.DEP_UE_ADDR_HI_VALID]⟩,
  ⟨0x18, none, [R.DEP_CE_COUNT_COUNT]⟩,
  ⟨0x20, none, [R.DEP_HIT_LO_VALUE]⟩,
  ⟨0x24, none, [R.DEP_HIT_HI_VALUE]⟩,
  ⟨0x28, none, [R.DEP_MISS_LO_VALUE]⟩,
  ⟨0x2C, none, [R.DEP_MISS_HI_VALUE]⟩,
  ⟨0x30, none, [R.DEP_ATOMIC_LO_VALUE]⟩,
  ⟨0x34, none, [R.DEP_ATOMIC_HI_VALUE]⟩,
  ⟨0x38, none, [R.DEP_REDUCE_LO_VALUE]⟩,
  ⟨0x3C, none, [R.DEP_REDUCE_HI_VALUE]⟩,
  ⟨0x40, none, [R.DEP_BACKINV_LO_VALUE]⟩,
  ⟨0x44, none, [R.DEP_BACKINV_HI_VALUE]⟩,
  ⟨0x48, none, [R.DEP_FLUSH_GO]⟩,
  ⟨0x4C, none, [R.DEP_INVAL_GO]⟩]

/-- Registers of block DEP. -/
def regsDEP : List Reg := regsDEP0

/-- Registers of block FAB, part 0. -/
def regsFAB0 : List Reg := [
  ⟨0x0, (some 0x0), [R.FAB_CFG_GRACE_US, R.FAB_CFG_LEVEL]⟩,
  ⟨0x8, none, [R.FAB_STATUS_BUSY, R.FAB_STATUS_ARMED, R.FAB_STATUS_REMOTE_DEAD, R.FAB_STATUS_RED_UNCERTAIN, R.FAB_STATUS_PORTS_ACTIVE, R.FAB_STATUS_DEAD_COUNT, R.FAB_STATUS_REFUSED_COUNT]⟩,
  ⟨0x10, none, [R.FAB_SELF_SLOT, R.FAB_SELF_CARAVAN]⟩,
  ⟨0x18, none, [R.FAB_JOB_TAG, R.FAB_JOB_PASSED]⟩,
  ⟨0x20, none, [R.FAB_EPOCH_CURRENT, R.FAB_EPOCH_ARM, R.FAB_EPOCH_DISARM, R.FAB_EPOCH_TAG_APPLY, R.FAB_EPOCH_NEW_TAG]⟩,
  ⟨0x28, none, [R.FAB_EPOCH_AT_LO_COUNT]⟩,
  ⟨0x2C, none, [R.FAB_EPOCH_AT_HI_COUNT]⟩,
  ⟨0x30, none, [R.FAB_DEAD_PKG_PACKAGE, R.FAB_DEAD_PKG_VALID]⟩,
  ⟨0x38, (some 0x0), [R.FAB_TIMEOUT_CARAVAN_US, R.FAB_TIMEOUT_ROUTE_US]⟩,
  ⟨0x40, none, [R.FAB_STALE_COUNT_COUNT]⟩,
  ⟨0x44, none, [R.FAB_EPOCH_DROP_COUNT]⟩,
  ⟨0x48, none, [R.FAB_LATE_RSP_COUNT]⟩,
  ⟨0x4C, none, [R.FAB_NO_PATH_COUNT]⟩,
  ⟨0x50, none, [R.FAB_TX_BYTES_LO_VALUE]⟩,
  ⟨0x54, none, [R.FAB_TX_BYTES_HI_VALUE]⟩,
  ⟨0x58, none, [R.FAB_RX_BYTES_LO_VALUE]⟩,
  ⟨0x5C, none, [R.FAB_RX_BYTES_HI_VALUE]⟩,
  ⟨0x60, none, [R.FAB_FWD_BYTES_LO_VALUE]⟩,
  ⟨0x64, none, [R.FAB_FWD_BYTES_HI_VALUE]⟩]

/-- Registers of block FAB. -/
def regsFAB : List Reg := regsFAB0

/-- Registers of block PORT, part 0. -/
def regsPORT0 : List Reg := [
  ⟨0x0, (some 0x0), [R.PORT_CTRL_ENABLE, R.PORT_CTRL_AUTO_ADMIT, R.PORT_CTRL_ACCEPT_ANY, R.PORT_CTRL_ADMIT, R.PORT_CTRL_RETRAIN, R.PORT_CTRL_SELFTEST, R.PORT_CTRL_LEVEL]⟩,
  ⟨0x8, none, [R.PORT_STATUS_STATE, R.PORT_STATUS_CHECK, R.PORT_STATUS_SELFTEST_PASS, R.PORT_STATUS_DOWN, R.PORT_STATUS_LANES_UP, R.PORT_STATUS_SWAP_PORT, R.PORT_STATUS_DOWN_COUNT]⟩,
  ⟨0x10, none, [R.PORT_PEER_PACKAGE, R.PORT_PEER_PORT, R.PORT_PEER_VALID]⟩,
  ⟨0x18, none, [R.PORT_PEER_SERIAL_LO_SERIAL]⟩,
  ⟨0x1C, none, [R.PORT_PEER_SERIAL_HI_SERIAL]⟩,
  ⟨0x20, none, [R.PORT_REPLAY_REPLAYS, R.PORT_REPLAY_CRC_ERRORS]⟩,
  ⟨0x24, none, [R.PORT_FEC_CORRECTED, R.PORT_FEC_UNCORRECTED]⟩,
  ⟨0x28, none, [R.PORT_RETRAINS_COUNT]⟩,
  ⟨0x2C, (some 0x0), [R.PORT_RETRAIN_THR_REPLAYS_PER_MS]⟩,
  ⟨0x30, none, [R.PORT_TX_BYTES_LO_VALUE]⟩,
  ⟨0x34, none, [R.PORT_TX_BYTES_HI_VALUE]⟩,
  ⟨0x38, none, [R.PORT_RX_BYTES_LO_VALUE]⟩,
  ⟨0x3C, none, [R.PORT_RX_BYTES_HI_VALUE]⟩]

/-- Registers of block PORT. -/
def regsPORT : List Reg := regsPORT0

/-- Registers of block RT, part 0. -/
def regsRT0 : List Reg := [
  ⟨0x0, (some 0x0), [R.RT_CFG_VLAN_EN, R.RT_CFG_JUMBO, R.RT_CFG_PCP, R.RT_CFG_VID, R.RT_CFG_LEVEL]⟩,
  ⟨0x4, none, [R.RT_MAC_BYTE_BYTE]⟩,
  ⟨0x8, none, [R.RT_ETHERTYPE_TYPE]⟩,
  ⟨0xC, (some 0x0), [R.RT_RTO_RTO_US, R.RT_RTO_MAX_TX]⟩,
  ⟨0x10, none, [R.RT_RETX_COUNT]⟩,
  ⟨0x14, none, [R.RT_CRC_COUNT]⟩,
  ⟨0x18, none, [R.RT_DUP_COUNT]⟩,
  ⟨0x1C, none, [R.RT_FOREIGN_COUNT]⟩,
  ⟨0x20, none, [R.RT_PEERS_ACTIVE]⟩]

/-- Registers of block RT. -/
def regsRT : List Reg := regsRT0

/-- Registers of block HAL, part 0. -/
def regsHAL0 : List Reg := [
  ⟨0x0, (some 0x0), [R.HAL_CFG_PORT0_EN, R.HAL_CFG_PORT1_EN, R.HAL_CFG_LEVEL]⟩,
  ⟨0x8, none, [R.HAL_STATUS_STATE0, R.HAL_STATUS_STATE1, R.HAL_STATUS_DEGRADED, R.HAL_STATUS_DOWN, R.HAL_STATUS_SNP_TIMEOUT, R.HAL_STATUS_SNP_TIMEOUT_COUNT]⟩,
  ⟨0x10, none, [R.HAL_WIN_BASE_LO_BASE]⟩,
  ⟨0x14, none, [R.HAL_WIN_BASE_HI_BASE]⟩,
  ⟨0x18, none, [R.HAL_WIN_SIZE_GIB]⟩,
  ⟨0x1C, (some 0x0), [R.HAL_SNP_TIMEOUT_US]⟩,
  ⟨0x20, none, [R.HAL_REPLAY_COUNT]⟩,
  ⟨0x28, none, [R.HAL_RECALLS_LO_VALUE]⟩,
  ⟨0x2C, none, [R.HAL_RECALLS_HI_VALUE]⟩]

/-- Registers of block HAL. -/
def regsHAL : List Reg := regsHAL0

/-- Registers of block COL, part 0. -/
def regsCOL0 : List Reg := [
  ⟨0x0, (some 0x0), [R.COL_CFG_ALGO, R.COL_CFG_INR_EN, R.COL_CFG_CLAIM_MIB, R.COL_CFG_LEVEL]⟩,
  ⟨0x8, none, [R.COL_STATUS_BUSY, R.COL_STATUS_NV, R.COL_STATUS_OF, R.COL_STATUS_UF, R.COL_STATUS_NX, R.COL_STATUS_ABORTED, R.COL_STATUS_DIRTY, R.COL_STATUS_RUNNING, R.COL_STATUS_ABORT_COUNT, R.COL_STATUS_LAST_TAG]⟩,
  ⟨0x10, none, [R.COL_ABORT_INFO_LO_GROUP, R.COL_ABORT_INFO_LO_CAUSE, R.COL_ABORT_INFO_LO_SEQ]⟩,
  ⟨0x14, none, [R.COL_ABORT_INFO_HI_PKG, R.COL_ABORT_INFO_HI_VALID]⟩,
  ⟨0x18, none, [R.COL_CRC_INFO_LO_CHUNK]⟩,
  ⟨0x1C, none, [R.COL_CRC_INFO_HI_FROM_PKG, R.COL_CRC_INFO_HI_GROUP, R.COL_CRC_INFO_HI_VALID]⟩,
  ⟨0x20, none, [R.COL_CRC_COUNT_COUNT]⟩,
  ⟨0x24, none, [R.COL_NOINR_COUNT_COUNT]⟩,
  ⟨0x28, none, [R.COL_DROP_COUNT_COUNT]⟩,
  ⟨0x2C, none, [R.COL_RSRAM_USED0, R.COL_RSRAM_USED1]⟩,
  ⟨0x30, none, [R.COL_QUEUE_DEPTH]⟩,
  ⟨0x34, (some 0x0), [R.COL_XOVER_ALPHA_C, R.COL_XOVER_ALPHA_R]⟩,
  ⟨0x38, (some 0x0), [R.COL_TIMEOUT_CARAVAN_MS, R.COL_TIMEOUT_ROUTE_MS]⟩,
  ⟨0x40, none, [R.COL_LAUNCH_TBL_LO_ADDR]⟩,
  ⟨0x44, none, [R.COL_LAUNCH_TBL_HI_ADDR]⟩,
  ⟨0x48, (some 0x0), [R.COL_LAUNCH_CFG_CHILD_US, R.COL_LAUNCH_CFG_MARGIN_C, R.COL_LAUNCH_CFG_MARGIN_R]⟩,
  ⟨0x50, none, [R.COL_LAUNCH_STATUS_STATE, R.COL_LAUNCH_STATUS_REPARENTS, R.COL_LAUNCH_STATUS_DEAD_PKG]⟩,
  ⟨0x58, none, [R.COL_TX_BYTES_LO_VALUE]⟩,
  ⟨0x5C, none, [R.COL_TX_BYTES_HI_VALUE]⟩,
  ⟨0x60, none, [R.COL_RX_BYTES_LO_VALUE]⟩]

/-- Registers of block COL, part 1. -/
def regsCOL1 : List Reg := [
  ⟨0x64, none, [R.COL_RX_BYTES_HI_VALUE]⟩,
  ⟨0x68, none, [R.COL_DONE_LO_VALUE]⟩,
  ⟨0x6C, none, [R.COL_DONE_HI_VALUE]⟩,
  ⟨0x70, none, [R.COL_RESTORE_VALUE]⟩]

/-- Registers of block COL. -/
def regsCOL : List Reg := regsCOL0 ++ regsCOL1

/-- Registers of block GCT, part 0. -/
def regsGCT0 : List Reg := [
  ⟨0x0, (some 0x0), [R.GCT_CFG_ROLE, R.GCT_CFG_REF_CAND, R.GCT_CFG_PPS_EN, R.GCT_CFG_SLEW_PPM, R.GCT_CFG_LEVEL]⟩,
  ⟨0x8, none, [R.GCT_STATUS_STATE, R.GCT_STATUS_STRATUM, R.GCT_STATUS_ROUTE_LOCKED, R.GCT_STATUS_PARENT_PORT, R.GCT_STATUS_STEPPED, R.GCT_STATUS_HOLDOVER_SEEN, R.GCT_STATUS_PPS_OK, R.GCT_STATUS_LOSS_COUNT]⟩,
  ⟨0x10, none, [R.GCT_COUNT_LO_COUNT]⟩,
  ⟨0x14, none, [R.GCT_COUNT_HI_COUNT]⟩,
  ⟨0x18, none, [R.GCT_SET_LO_VALUE]⟩,
  ⟨0x1C, none, [R.GCT_SET_HI_VALUE]⟩,
  ⟨0x20, none, [R.GCT_OFFSET_OFFSET]⟩,
  ⟨0x24, none, [R.GCT_DELAY_DELAY]⟩,
  ⟨0x28, none, [R.GCT_FREQ_FREQ]⟩,
  ⟨0x30, none, [R.GCT_LAUNCH_LO_COUNT]⟩,
  ⟨0x34, none, [R.GCT_LAUNCH_HI_COUNT]⟩,
  ⟨0x38, none, [R.GCT_START_LO_COUNT]⟩,
  ⟨0x3C, none, [R.GCT_START_HI_COUNT]⟩,
  ⟨0x40, none, [R.GCT_CFGSIG_LO_SIG]⟩,
  ⟨0x44, none, [R.GCT_CFGSIG_HI_SIG]⟩,
  ⟨0x48, none, [R.GCT_PPS_LAST_LO_COUNT]⟩,
  ⟨0x4C, none, [R.GCT_PPS_LAST_HI_COUNT]⟩,
  ⟨0x50, none, [R.GCT_PPS_ERR_ERR_NS, R.GCT_PPS_ERR_MISSING]⟩,
  ⟨0x60, none, [R.GCT_DIG_BASE_LO_ADDR]⟩,
  ⟨0x64, none, [R.GCT_DIG_BASE_HI_ADDR]⟩]

/-- Registers of block GCT, part 1. -/
def regsGCT1 : List Reg := [
  ⟨0x68, none, [R.GCT_DIG_SLOT_RECORDS]⟩,
  ⟨0x70, none, [R.GCT_DIG_OUT_LO_ADDR]⟩,
  ⟨0x74, none, [R.GCT_DIG_OUT_HI_ADDR]⟩,
  ⟨0x78, none, [R.GCT_DIG_CTRL_GO, R.GCT_DIG_CTRL_SLOT]⟩,
  ⟨0x80, none, [R.GCT_DIG_STATUS_BUSY, R.GCT_DIG_STATUS_DONE, R.GCT_DIG_STATUS_ORDER_ERR, R.GCT_DIG_STATUS_EMPTY]⟩,
  ⟨0x88, none, [R.GCT_DIG_LAYERS_LAYERS]⟩,
  ⟨0x8C, none, [R.GCT_DIG_ERRIDX_INDEX, R.GCT_DIG_ERRIDX_VALID]⟩]

/-- Registers of block GCT. -/
def regsGCT : List Reg := regsGCT0 ++ regsGCT1

/-- Registers of block CKP, part 0. -/
def regsCKP0 : List Reg := [
  ⟨0x0, (some 0x0), [R.CKP_CFG_ENABLE, R.CKP_CFG_AUDIT_EN, R.CKP_CFG_REPLAY_MAX, R.CKP_CFG_DURABLE_EVERY, R.CKP_CFG_GROUP, R.CKP_CFG_LEVEL]⟩,
  ⟨0x8, none, [R.CKP_STATUS_STATE, R.CKP_STATUS_PINNED, R.CKP_STATUS_DRAINING, R.CKP_STATUS_PARTNER_BAD, R.CKP_STATUS_QUARANTINED, R.CKP_STATUS_REPLAYED, R.CKP_STATUS_SAVE_SKIPPED, R.CKP_STATUS_COPY_BAD, R.CKP_STATUS_REPLAY_COUNT, R.CKP_STATUS_DRAIN_COUNT]⟩,
  ⟨0x10, none, [R.CKP_STEP_LO_VALUE]⟩,
  ⟨0x14, none, [R.CKP_STEP_HI_VALUE]⟩,
  ⟨0x18, none, [R.CKP_BOUNDARY_LO_VALUE]⟩,
  ⟨0x1C, none, [R.CKP_BOUNDARY_HI_VALUE]⟩,
  ⟨0x20, none, [R.CKP_NOTIFY_LO_ADDR]⟩,
  ⟨0x24, none, [R.CKP_NOTIFY_HI_ADDR]⟩,
  ⟨0x28, none, [R.CKP_ENTRY_LO_ADDR]⟩,
  ⟨0x2C, none, [R.CKP_ENTRY_HI_ADDR]⟩,
  ⟨0x30, none, [R.CKP_RANGES_LO_ADDR]⟩,
  ⟨0x34, none, [R.CKP_RANGES_HI_ADDR]⟩,
  ⟨0x38, none, [R.CKP_NRANGES_N]⟩,
  ⟨0x40, none, [R.CKP_SLOT_SIZE_LO_VALUE]⟩,
  ⟨0x44, none, [R.CKP_SLOT_SIZE_HI_VALUE]⟩,
  ⟨0x48, none, [R.CKP_FIRN_BASE_LO_ADDR]⟩,
  ⟨0x4C, none, [R.CKP_FIRN_BASE_HI_ADDR]⟩,
  ⟨0x50, none, [R.CKP_MIRROR_BASE_LO_ADDR]⟩,
  ⟨0x54, none, [R.CKP_MIRROR_BASE_HI_ADDR]⟩,
  ⟨0x58, none, [R.CKP_DURABLE_BASE_LO_ADDR]⟩]

/-- Registers of block CKP, part 1. -/
def regsCKP1 : List Reg := [
  ⟨0x5C, none, [R.CKP_DURABLE_BASE_HI_ADDR]⟩,
  ⟨0x60, none, [R.CKP_PARTNER_TBL_LO_ADDR]⟩,
  ⟨0x64, none, [R.CKP_PARTNER_TBL_HI_ADDR]⟩,
  ⟨0x68, none, [R.CKP_RANK_RANK, R.CKP_RANK_ROLE]⟩,
  ⟨0x70, none, [R.CKP_JOB_ID_LO_VALUE]⟩,
  ⟨0x74, none, [R.CKP_JOB_ID_HI_VALUE]⟩,
  ⟨0x78, (some 0x0), [R.CKP_DRAIN_CFG_RATE_GBS, R.CKP_DRAIN_CFG_DURABLE_GBS, R.CKP_DRAIN_CFG_INTERVAL]⟩,
  ⟨0x80, none, [R.CKP_SLOT_SEL_SEL]⟩,
  ⟨0x88, none, [R.CKP_SLOT_CUT_LO_VALUE]⟩,
  ⟨0x8C, none, [R.CKP_SLOT_CUT_HI_VALUE]⟩,
  ⟨0x90, none, [R.CKP_SLOT_STATE_STATE, R.CKP_SLOT_STATE_KIND, R.CKP_SLOT_STATE_RANK]⟩,
  ⟨0x98, none, [R.CKP_ERR_CODE]⟩,
  ⟨0xA0, none, [R.CKP_COPY_NS_VALUE]⟩,
  ⟨0xA8, none, [R.CKP_RESTORE_CUT_LO_VALUE]⟩,
  ⟨0xAC, none, [R.CKP_RESTORE_CUT_HI_VALUE]⟩,
  ⟨0xC0, (some 0x0), [R.CKP_AUDIT_CFG_THRESH, R.CKP_AUDIT_CFG_DECAY]⟩,
  ⟨0xC8, none, [R.CKP_AUDIT_LOG_LO_ADDR]⟩,
  ⟨0xCC, none, [R.CKP_AUDIT_LOG_HI_ADDR]⟩,
  ⟨0xD0, none, [R.CKP_AUDIT_GO_N]⟩,
  ⟨0xD8, none, [R.CKP_AUDIT_PICK_LO_VALUE]⟩]

/-- Registers of block CKP, part 2. -/
def regsCKP2 : List Reg := [
  ⟨0xDC, none, [R.CKP_AUDIT_PICK_HI_VALUE]⟩,
  ⟨0xE0, none, [R.CKP_LOAD_TAG_TAG]⟩,
  ⟨0xE8, none, [R.CKP_SUSPICION_SCORE, R.CKP_SUSPICION_MISMATCHES, R.CKP_SUSPICION_CLEAR]⟩,
  ⟨0xF0, none, [R.CKP_AUDIT_LAST_TEMP, R.CKP_AUDIT_LAST_OP, R.CKP_AUDIT_LAST_LOAD, R.CKP_AUDIT_LAST_ROLE]⟩]

/-- Registers of block CKP. -/
def regsCKP : List Reg := regsCKP0 ++ regsCKP1 ++ regsCKP2

/-- Registers of block PWR, part 0. -/
def regsPWR0 : List Reg := [
  ⟨0x0, (some 0x0), [R.PWR_CFG_RAMP_EN, R.PWR_CFG_RAMP_BOOST_MV, R.PWR_CFG_UP_TICKS, R.PWR_CFG_LEVEL]⟩,
  ⟨0x8, none, [R.PWR_STATUS_OP, R.PWR_STATUS_TRANSITION, R.PWR_STATUS_BINDING, R.PWR_STATUS_TOP_OP, R.PWR_STATUS_CAP_UNMET, R.PWR_STATUS_DIE_STRETCHED, R.PWR_STATUS_STEP_COUNT]⟩,
  ⟨0x10, none, [R.PWR_PREF_OP]⟩,
  ⟨0x14, none, [R.PWR_HOST_OP_OP]⟩,
  ⟨0x18, none, [R.PWR_CAP_CAP_W]⟩,
  ⟨0x20, none, [R.PWR_POWER_INST_W, R.PWR_POWER_AVG_W]⟩,
  ⟨0x24, none, [R.PWR_POWER_10MS_AVG10_W, R.PWR_POWER_10MS_PEAK_W]⟩,
  ⟨0x28, none, [R.PWR_ENERGY_LO_MJ]⟩,
  ⟨0x2C, none, [R.PWR_ENERGY_HI_MJ]⟩,
  ⟨0x30, none, [R.PWR_INPUT_VIN_MV, R.PWR_INPUT_IIN_DA]⟩,
  ⟨0x38, none, [R.PWR_THR_SEL_REASON]⟩,
  ⟨0x40, none, [R.PWR_THR_US_LO_US]⟩,
  ⟨0x44, none, [R.PWR_THR_US_HI_US]⟩,
  ⟨0x48, none, [R.PWR_THR_EPISODES_COUNT]⟩,
  ⟨0x50, none, [R.PWR_DIE_SEL_DIE]⟩,
  ⟨0x58, none, [R.PWR_DIE_STATUS_TEMP_C, R.PWR_DIE_STATUS_MAX_C, R.PWR_DIE_STATUS_SENSORS_OK, R.PWR_DIE_STATUS_STRETCH_PCT]⟩,
  ⟨0x5C, none, [R.PWR_DIE_VID_VID_MV]⟩,
  ⟨0x60, none, [R.PWR_DIE_DROOP_COUNT]⟩,
  ⟨0x68, none, [R.PWR_VT_SEL_DIE, R.PWR_VT_SEL_OP]⟩,
  ⟨0x6C, none, [R.PWR_VT_ENTRY_VID_MV, R.PWR_VT_ENTRY_FREQ_MHZ]⟩]

/-- Registers of block PWR, part 1. -/
def regsPWR1 : List Reg := [
  ⟨0x70, none, [R.PWR_GUARD_BASE_MV, R.PWR_GUARD_AGE_MV, R.PWR_GUARD_TOTAL_MV]⟩,
  ⟨0x78, (some 0x0), [R.PWR_THERM_CFG_T_THROTTLE]⟩,
  ⟨0x7C, (some 0x0), [R.PWR_DROOP_CFG_DROOP_MV]⟩,
  ⟨0x80, none, [R.PWR_COOLANT_INLET_C, R.PWR_COOLANT_OUTLET_C, R.PWR_COOLANT_INLET_MAX]⟩,
  ⟨0x88, none, [R.PWR_RAMP_STATUS_PENDING, R.PWR_RAMP_STATUS_LATE_COUNT, R.PWR_RAMP_STATUS_DROPPED]⟩,
  ⟨0x90, none, [R.PWR_SLEEP_STATUS_LAST_WAKE_US, R.PWR_SLEEP_STATUS_SLEEP_COUNT]⟩]

/-- Registers of block PWR. -/
def regsPWR : List Reg := regsPWR0 ++ regsPWR1

/-- Registers of block CMD, part 0. -/
def regsCMD0 : List Reg := [
  ⟨0x0, none, [R.CMD_OPCODE_OPCODE]⟩,
  ⟨0x4, none, [R.CMD_GO_GO]⟩,
  ⟨0x8, none, [R.CMD_STATUS_CODE, R.CMD_STATUS_BUSY, R.CMD_STATUS_DONE, R.CMD_STATUS_LAST_OPCODE, R.CMD_STATUS_ISSUED]⟩,
  ⟨0xC, none, [R.CMD_REFUSED_COUNT, R.CMD_REFUSED_OPCODE]⟩,
  ⟨0x10, none, [R.CMD_ARG0_LO_VALUE]⟩,
  ⟨0x14, none, [R.CMD_ARG0_HI_VALUE]⟩,
  ⟨0x18, none, [R.CMD_ARG1_LO_VALUE]⟩,
  ⟨0x1C, none, [R.CMD_ARG1_HI_VALUE]⟩,
  ⟨0x20, none, [R.CMD_ARG2_LO_VALUE]⟩,
  ⟨0x24, none, [R.CMD_ARG2_HI_VALUE]⟩,
  ⟨0x28, none, [R.CMD_ARG3_LO_VALUE]⟩,
  ⟨0x2C, none, [R.CMD_ARG3_HI_VALUE]⟩,
  ⟨0x30, none, [R.CMD_RESULT_LO_VALUE]⟩,
  ⟨0x34, none, [R.CMD_RESULT_HI_VALUE]⟩]

/-- Registers of block CMD. -/
def regsCMD : List Reg := regsCMD0

/-- Registers of block PKG, part 0. -/
def regsPKG0 : List Reg := [
  ⟨0x0, none, [R.PKG_STATE_STATE, R.PKG_STATE_PREV, R.PKG_STATE_CAUSE, R.PKG_STATE_RAILS_ON]⟩,
  ⟨0x8, none, [R.PKG_XD_MODE_MODE]⟩,
  ⟨0x10, none, [R.PKG_XD_STATUS_STACK_PEND, R.PKG_XD_STATUS_FAB_PEND, R.PKG_XD_STATUS_DIE_PEND, R.PKG_XD_STATUS_TIMEOUT, R.PKG_XD_STATUS_TO_COUNT]⟩,
  ⟨0x14, none, [R.PKG_XD_OFF_COUNT]⟩,
  ⟨0x18, none, [R.PKG_CSR_ERR_COUNT, R.PKG_CSR_ERR_OFFSET]⟩,
  ⟨0x20, none, [R.PKG_INPUTS_SLOT, R.PKG_INPUTS_SLOT_PAR, R.PKG_INPUTS_SLOT_OK, R.PKG_INPUTS_REFCLK_SRC, R.PKG_INPUTS_PPS_FITTED, R.PKG_INPUTS_SB_MODE, R.PKG_INPUTS_TAP_ACTIVE, R.PKG_INPUTS_CARRIER_REV]⟩,
  ⟨0x28, none, [R.PKG_INPUT_ERR_VIN_OUT, R.PKG_INPUT_ERR_REFCLK_LOSS, R.PKG_INPUT_ERR_SB_TIMEOUT, R.PKG_INPUT_ERR_STRAP_CHANGES]⟩,
  ⟨0x30, none, [R.PKG_REFCLK_OFFSET, R.PKG_REFCLK_IN_RANGE]⟩,
  ⟨0x38, (some 0x38), [R.PKG_INPUT_CFG_REFCLK_RETURN, R.PKG_INPUT_CFG_LEVEL]⟩]

/-- Registers of block PKG. -/
def regsPKG : List Reg := regsPKG0

/-- Registers of block EVR, part 0. -/
def regsEVR0 : List Reg := [
  ⟨0x0, (some 0x0), [R.EVR_CFG_NOTIFY_SEV, R.EVR_CFG_IBI_SEV, R.EVR_CFG_NOTIFY_EN, R.EVR_CFG_MERGE_MS, R.EVR_CFG_LEVEL]⟩,
  ⟨0x8, none, [R.EVR_STATUS_RECORDS, R.EVR_STATUS_FULL, R.EVR_STATUS_SEV3_PRESENT]⟩,
  ⟨0x10, none, [R.EVR_LOST_SEV0, R.EVR_LOST_SEV1, R.EVR_LOST_SEV2, R.EVR_LOST_SEV3]⟩,
  ⟨0x18, none, [R.EVR_HEAD_SEQ]⟩,
  ⟨0x1C, none, [R.EVR_OLDEST_SEQ]⟩,
  ⟨0x20, none, [R.EVR_NOTIFY_LO_ADDR]⟩,
  ⟨0x24, none, [R.EVR_NOTIFY_HI_ADDR]⟩,
  ⟨0x28, none, [R.EVR_CLEAR_GO]⟩]

/-- Registers of block EVR. -/
def regsEVR : List Reg := regsEVR0

/-- Registers of block SEC, part 0. -/
def regsSEC0 : List Reg := [
  ⟨0x0, (some 0x0), [R.SEC_CFG_HEALTH_EN, R.SEC_CFG_WATCH_THR, R.SEC_CFG_PREDICT_THR, R.SEC_CFG_LEVEL]⟩,
  ⟨0x8, none, [R.SEC_STATUS_BANK, R.SEC_STATUS_BANK_FAIL, R.SEC_STATUS_UNCLEAN, R.SEC_STATUS_RATING_PENDING, R.SEC_STATUS_ERASED, R.SEC_STATUS_CAIRN_LOW, R.SEC_STATUS_SVN, R.SEC_STATUS_ROLLBACK, R.SEC_STATUS_ATTEST_COUNT]⟩,
  ⟨0x10, none, [R.SEC_FW_SVN_A, R.SEC_FW_VALID_A, R.SEC_FW_SVN_B, R.SEC_FW_VALID_B]⟩,
  ⟨0x18, none, [R.SEC_NONCE_LO_NONCE]⟩,
  ⟨0x1C, none, [R.SEC_NONCE_HI_NONCE]⟩,
  ⟨0x20, none, [R.SEC_NONCE_GEN_GO]⟩,
  ⟨0x28, none, [R.SEC_CUSTODY_LO_CUSTODY]⟩,
  ⟨0x2C, none, [R.SEC_CUSTODY_HI_CUSTODY]⟩,
  ⟨0x30, none, [R.SEC_ERASE_COUNT_COUNT]⟩,
  ⟨0x34, none, [R.SEC_RATING_SEQ, R.SEC_RATING_PENDING_SEQ]⟩,
  ⟨0x38, none, [R.SEC_HEALTH_SEL_KIND, R.SEC_HEALTH_SEL_INDEX]⟩,
  ⟨0x3C, none, [R.SEC_HEALTH_SCORE, R.SEC_HEALTH_STATE, R.SEC_HEALTH_DAYS]⟩,
  ⟨0x40, none, [R.SEC_HEALTH_SUM_MAX_SCORE, R.SEC_HEALTH_SUM_WATCH_PARTS, R.SEC_HEALTH_SUM_PREDICT_PARTS]⟩,
  ⟨0x48, none, [R.SEC_CAIRN_COUNT_LO_COUNT]⟩,
  ⟨0x4C, none, [R.SEC_CAIRN_COUNT_HI_COUNT]⟩,
  ⟨0x50, none, [R.SEC_CAIRN_FREE_FREE]⟩,
  ⟨0x54, none, [R.SEC_CAIRN_LOST_COUNT]⟩,
  ⟨0x58, none, [R.SEC_CAIRN_SEL_LO_INDEX]⟩,
  ⟨0x5C, none, [R.SEC_CAIRN_SEL_HI_INDEX]⟩,
  ⟨0x60, none, [R.SEC_CERT_LEN_BYTES]⟩]

/-- Registers of block SEC, part 1. -/
def regsSEC1 : List Reg := [
  ⟨0x64, none, [R.SEC_CAIRN_COMPACT_N]⟩,
  ⟨0x68, none, [R.SEC_HOTPLUG_PRESENT, R.SEC_HOTPLUG_PWR_EN, R.SEC_HOTPLUG_LEVER, R.SEC_HOTPLUG_REMOVALS]⟩,
  ⟨0x70, none, [R.SEC_POWERON_S_LO_SECONDS]⟩,
  ⟨0x74, none, [R.SEC_POWERON_S_HI_SECONDS]⟩,
  ⟨0x78, none, [R.SEC_FLASH_UNLOCK_BANK]⟩]

/-- Registers of block SEC. -/
def regsSEC : List Reg := regsSEC0 ++ regsSEC1

end Sys2Proof.Machine
end

