-- ==== Sys2Proof/Machine/State.lean ====
section
/-! DEFINITION. The state of the package: every register, queue, buffer, memory and mode the spec names, as plain
data; the reasons a step can stop; and the state after reset. -/

namespace Sys2Proof.Machine

/-- Package states (R428). -/
inductive PkgSt where
  | off | standby | service | ready | admitted | running | frozen | sleep | faulted
  deriving DecidableEq, Repr

/-- States of a Fletrum core, SEQ_STATUS.STATE. -/
inductive CoreSt where
  | idle | running | waiting | inTrap | parked | faulted | stopped
  deriving DecidableEq, Repr

/-- One instruction a core has issued and that is not complete (R142, R145). -/
structure OutIns where
  kind : Nat
  tile : Nat
  tag : BitVec 16
  sum : Option Nat
  deriving DecidableEq, Repr

/-- A wait in progress: which wait (its OP), since which counter value or, while FROZEN, for how long (R147), the target word value of a BAR (R145), the watched
word, value and condition, and the wait limit in us as it stood when the wait began (R147, R166). -/
structure WaitRec where
  op : Nat
  since : DWord
  target : Option Nat
  addr : DWord
  value : DWord
  cond : Nat
  limit : Option Nat
  deriving DecidableEq, Repr

/-- A load whose data has not come back (R140): destination, size, form, address and the line that has arrived. -/
structure LoadWait where
  dreg : Nat
  size : Nat
  sign : Bool
  toH : Bool
  addr : DWord
  line : Option Line
  poison : Bool
  deriving DecidableEq, Repr

/-- A start that waits for its count: a launch (R158), a cluster start (R160) or a restart (R366, R378). -/
structure StartRec where
  entry : BitVec 48
  count : DWord
  arg : DWord
  deriving DecidableEq, Repr

/-- One Fletrum core (R134), with what the package keeps for it: issued instructions, a wait, a load in flight,
the quiesce-point history (R154), the park in progress (R155), and the wait that a trap delivered while the core parks has interrupted. -/
structure Core where
  st : CoreSt
  pc : BitVec 48
  g : Store DWord
  s : Store (BitVec 128)
  sPend : List Nat
  h : Store (BitVec 256)
  tag : BitVec 16
  trapMask : Bool
  out : List OutIns
  wait : Option WaitRec
  load : Option LoadWait
  start : Option StartRec
  first : Bool
  qpLast : Option DWord
  qpCount : Nat
  parkFrom : Option DWord
  held : Option CoreSt
  heldWait : Option WaitRec
  deriving DecidableEq, Repr

/-- A core after reset and at launch (R135, R158, R165): every register at its reset value. -/
def Core.init : Core :=
  ⟨.idle, 0, [], [], [], [], 0, false, [], none, none, none, false, none, 0, none, none, none⟩

/-- One instruction sent to an engine: issuer, ISSUE fields and operands; and, once accepted, the sampled control
register, the descriptor as read, how far execution has come and the results its completion delivers. -/
structure EngIns where
  core : Nat
  kind : Nat
  tile : Nat
  tag : BitVec 16
  pc : BitVec 48
  p : DWord
  q : DWord
  stride : DWord
  sum : Option Nat
  cfg : Word
  desc : Nat
  phase : Nat
  flags : Nat
  value : Nat
  count : Nat
  first : Nat
  ue : Bool
  trap : Bool
  digest : Nat
  deriving DecidableEq, Repr

/-- A VX stopped by a trap (R112): the element index, its flags, the contents of register VS1 when the instruction began, and the bad data the instruction
uses (R128). -/
structure VxTrap where
  index : Nat
  flags : Nat
  src : BitVec 2048
  bad : List Nat
  delivered : Bool
  deriving DecidableEq, Repr

/-- A line on its way out, as an engine's writes fill it: which of its 128 bytes are written, the bytes, whether it is poisoned (R25, R189, R236). -/
structure TxLine where
  mask : Nat
  data : Nat
  poison : Bool
  deriving DecidableEq, Repr

/-- One engine: instructions crossing into its island, its accepted instructions, remote and companion lines received for
the executing one (by global line address), lines that arrived marked poisoned, lines that are the poison line of a dead or refused
read, lines of its writes that were dropped, a VX trap, the lines that leave as whole lines and that its writes are filling, and, for a Porter, the lowest index that each line it wrote reports (R189). -/
structure Engine where
  cross : List EngIns
  queue : List EngIns
  rx : Store Line
  rxPoison : List Nat
  rxDead : List Nat
  drops : List Nat
  trap : Option VxTrap
  tx : Store TxLine
  rows : Store Nat
  deriving DecidableEq, Repr

/-- An engine after reset. -/
def Engine.init : Engine := ⟨[], [], [], [], [], [], none, [], []⟩

/-- A contribution a Dispatcher has accepted (R167): the ISSUE with the contribution's 16 bytes in `desc`, and the score rows that hold
uncorrectable data. -/
structure Contrib where
  ins : EngIns
  bad : List Nat
  deriving DecidableEq, Repr

/-- A routing batch (R167): its header's address and bytes, PAD_FILL and the timeout in us as sampled (R173, R197), since which counter value the timeout runs or,
while FROZEN, for how long it has run, the contributions, and its progress: 0 open or closed, 1 counts written, 2 exchange done. -/
structure Batch where
  addr : Nat
  header : Nat
  pad : Bool
  limit : Nat
  since : DWord
  contribs : List Contrib
  phase : Nat
  deriving DecidableEq, Repr

/-- A Dispatcher (R167 to R173): batches in the order of their first contribution, and the count slots other dies have written. -/
structure Dsp where
  batches : List Batch
  got : List (Nat × Nat)
  deriving DecidableEq, Repr

/-- A Dispatcher after reset. -/
def Dsp.init : Dsp := ⟨[], []⟩

/-- What the problem a solver engine has in progress will write at its end (R215): X, F, the status word, the warm record's new SIG,
LAMBDA and COUNT, the first singular column, the lowest clamp, and the address of uncorrectable data. -/
structure SlvRes where
  x : List DWord
  f : List DWord
  status : DWord
  warm : Option (DWord × DWord × Word)
  sing : Option Nat
  range : Option (Nat × Nat)
  ue : List Nat
  deriving DecidableEq, Repr

/-- A Logbook event (R434, R435): source, code, severity, counter value, arguments, merge window in us, and the path
bits a merge ignores are in `arg1`. -/
structure Event where
  src : Nat
  code : Nat
  sev : Nat
  time : DWord
  arg0 : DWord
  arg1 : Nat
  window : Nat
  deriving DecidableEq, Repr

/-- A stored Logbook record (R434), with the time of its latest event (R436). -/
structure Rec where
  seq : Word
  code : Nat
  sev : Nat
  lostBefore : Bool
  late : Bool
  upd : Nat
  src : Nat
  time : DWord
  rep : Nat
  arg1 : Nat
  lastDt : Nat
  arg0 : DWord
  latest : DWord
  deriving DecidableEq, Repr

/-- A Logbook cursor (R440): the sought value (none before the first latch), the latched SEQ, EVR_CUR_INFO, the window. -/
structure Cursor where
  sought : Option Word
  seq : Word
  valid : Bool
  atEnd : Bool
  stale : Bool
  gone : Bool
  win : List Word
  deriving DecidableEq, Repr

/-- A cursor after reset. -/
def Cursor.init : Cursor := ⟨none, 0, false, false, false, false, []⟩

/-- The Logbook (R434 to R441): the sources' queues, the sources that lost an event, the hold, the records in the order of
their SEQ, EVR_HEAD, the three cursors, the in-band interrupt state and its enable. -/
structure Logbook where
  queues : Store (List Event)
  lost : List Nat
  hold : List Event
  recs : List Rec
  head : Word
  cur0 : Cursor
  cur1 : Cursor
  cur2 : Cursor
  ibi : Bool
  ibiEn : Bool
  deriving DecidableEq, Repr

/-- The Logbook after cold reset. -/
def Logbook.init : Logbook := ⟨[], [], [], [], 0, .init, .init, .init, false, true⟩

/-- An access waiting at the CSR root or crossing to a slow domain (R424): path, offset, the data of a write; for a Halter read its TXID, which 4-byte half
it is, and whether it is the message's last (R417). -/
structure CsrAcc where
  path : Path
  off : Nat
  data : Option Word
  txid : BitVec 16
  half : Nat
  last : Bool
  deriving DecidableEq, Repr

/-- The CSR root (R424): the access that holds it (STALL writes and slow reads), the accesses waiting behind it in order of
arrival, the POSTED writes crossing by block, the data of the Halter read in progress, and the CSR_RSP messages ready to leave. -/
structure CsrRoot where
  held : Option CsrAcc
  waiting : List CsrAcc
  posted : Store CsrAcc
  rdHalter : DWord
  rsps : List HalMsg
  deriving DecidableEq, Repr

/-- The CSR root after reset. -/
def CsrRoot.init : CsrRoot := ⟨none, [], [], 0, []⟩

/-- Channel states, MEM_CHAN_STATUS.STATE. -/
inductive ChanSt where
  | inService | retraining | outOfService | selfTest
  deriving DecidableEq, Repr

/-- One row waiting for repair or under qualification (R244). -/
structure RowRec where
  chan : Nat
  bank : Nat
  row : Nat
  days : List Nat
  deriving DecidableEq, Repr

/-- One HBM channel (R239 to R244): state, slices of the current or last retrain, failed margin checks of it, a retrain trigger that
waits, counts, refreshes owed, whether a slice runs, the last self-test, an admission request, spare TSV lanes, and, after
a passed self-test, that every line reads poisoned but those written whole since. -/
structure Chan where
  st : ChanSt
  slices : Nat
  fails : Nat
  retrains : Nat
  ceCount : Nat
  owed : Nat
  inSlice : Bool
  passed : Bool
  admitReq : Bool
  spareTsv : Nat
  trig : Bool
  allPoison : Bool
  clean : List Nat
  deriving DecidableEq, Repr

/-- A channel after reset. -/
def Chan.init : Chan := ⟨.inService, 0, 0, 0, 0, 0, false, false, false, 4, false, false, []⟩

/-- A line that Depots hold (R245, R246): contents, whether modified, whether poisoned, the compute die that holds it, the other dies that hold clean
copies of it (the directory's sharer vector, less the line's home), and, for a line of the companion window, whether the companion has granted it as the only copy. -/
structure DepotLine where
  data : Line
  dirty : Bool
  poison : Bool
  die : Fin 4
  more : List (Fin 4)
  own : Bool
  deriving DecidableEq, Repr

/-- The companion's copy of an HBM line, as the home directory records it (R246). -/
inductive DirSt where
  | shared | owned
  deriving DecidableEq, Repr

/-- Who waits for a remote or companion line: a core's load, an engine (by engine key), or nobody. -/
inductive Owner where
  | core (c : Nat)
  | eng (k : Nat)
  | none
  deriving DecidableEq, Repr

/-- One request a fabric die has sent and times (R272): direction, target, first line, lines, issuer, whether reducing. -/
structure Txn where
  txid : BitVec 15
  isRead : Bool
  dst : BitVec 16
  line : BitVec 41
  n : Nat
  owner : Owner
  reducing : Bool
  deriving DecidableEq, Repr

/-- One fabric die (R272, R280, R281): requests outstanding, next TXID, the armed count, the grace period after an armed switch,
and whether the epoch's first stale drop has been recorded (R282). -/
structure FabDie where
  txns : List Txn
  nextTx : BitVec 15
  armedAt : Option DWord
  grace : Bool
  staleSeen : Bool
  deriving DecidableEq, Repr

/-- A fabric die after reset. -/
def FabDie.init : FabDie := ⟨[], 0, none, false, false⟩

/-- What a port's flits carry: a Caravan message or a Halter message. -/
inductive LinkMsg where
  | caravan (m : Msg)
  | halter (m : HalMsg)
  deriving DecidableEq, Repr

/-- A message in a replay buffer: the SEQ of its last flit, the message, its flits. -/
structure Replay where
  last : BitVec 12
  body : LinkMsg
  flits : List Flit
  deriving DecidableEq, Repr

/-- One Caravan, Route or Halter port's link layer (R260 to R262, R275 to R279): next SEQ to send, messages kept for replay, how often the oldest was sent, next SEQ
expected, NAK owed, the slots of an unfinished message, slots spent and not yet returned by queue, slots of receive credit to return by queue, messages that wait for room
in the replay buffer, every flit sent, the times of the replays of the last ms, an admission request, whether a fence-epoch mark came, whether the
far end reports ACTIVE, and the FEC codewords corrected and uncorrected since PORT_FEC was read. -/
structure Link where
  txSeq : BitVec 12
  replay : List Replay
  sends : Nat
  rxSeq : BitVec 12
  nak : Bool
  asm : List Slot
  spent : Store Nat
  owed : Store Nat
  waiting : List LinkMsg
  sent : List Flit
  replayAt : List DWord
  admitReq : Bool
  marked : Bool
  farActive : Bool
  fecOk : Nat
  fecBad : Nat
  deriving DecidableEq, Repr

/-- A port after reset. -/
def Link.init : Link := ⟨0, [], 0, 0, false, [], [], [], [], [], [], false, false, false, 0, 0⟩

/-- Transport state kept for one Route peer (R287): frames sent and not acknowledged with their transmission counts, next SEQ to
send, messages waiting for the window, next SEQ expected and the SEQs received beyond it. -/
structure RoutePeer where
  txSeq : BitVec 32
  window : List (RouteFrame × Nat)
  queue : List Msg
  rxNext : BitVec 32
  rxBeyond : List (BitVec 32)
  deriving DecidableEq, Repr

/-- A Route peer without state. -/
def RoutePeer.init : RoutePeer := ⟨0, [], [], 0, []⟩

/-- What the package has sent outside, newest last: messages on a Caravan port, Route frames, Halter messages, sideband bytes, and
messages whose bit layout no rule states or that this model keeps typed, by name. -/
inductive OutMsg where
  | link (port : Nat) (m : Msg)
  | route (r : Nat) (f : RouteFrame)
  | halter (m : HalMsg)
  | sideband (b : List Byte)
  | control (what : String) (dst : Nat) (args : List Nat)
  deriving DecidableEq, Repr

/-- A snoop the package has sent to the companion (R291, R293): TXID, line, whether it invalidates, and the companion request
it serves, if any. -/
structure Snoop where
  txid : BitVec 16
  line : Nat
  inv : Bool
  deriving DecidableEq, Repr

/-- A request the package has sent to the companion for a companion-window line (R290, R291). -/
structure HalReq where
  txid : BitVec 16
  line : Nat
  opc : Nat
  owner : Owner
  deriving DecidableEq, Repr

/-- A write that waits at its line's home (R247, R292): who waits for it, the line (physical, or the Depot key of a companion-window line), its first byte
in the line, bytes, data, reducing operation (0 for a plain write), and whether its data are poisoned. -/
structure HeldWrite where
  owner : Owner
  line : Nat
  off : Nat
  n : Nat
  data : Nat
  op : Nat
  poison : Bool
  deriving DecidableEq, Repr

/-- What waits at a home, with the lines it names: a request of the companion, a request another package sent to a fabric die, or a write of this package. -/
inductive HomeReq where
  | companion (ls : List Nat) (m : HalMsg)
  | remote (ls : List Nat) (fd : Nat) (m : Msg)
  | write (w : HeldWrite)
  deriving DecidableEq, Repr

/-- The Halter controller (R289 to R294) with what waits at the homes for lines whose copies are being recalled, in order of arrival (R292). -/
structure Halter where
  dir : Store DirSt
  snoops : List Snoop
  waiting : List HomeReq
  reqs : List HalReq
  nextTx : BitVec 16
  down : Bool
  deriving DecidableEq, Repr

/-- The Halter controller after reset. -/
def Halter.init : Halter := ⟨[], [], [], [], 0, false⟩

/-- Reasons a step can stop the model with a fault. No rule of the spec stops the package itself; the constructor stands for
behaviour the spec calls undefined. -/
inductive Fault where
  /-- Raised by the four state windows of R490 when an image other than the one last read is written: "leaves the block's
  behaviour undefined". Safe: the model stops where the hardware goes on in a way the spec does not give. -/
  | undefinedImage
  deriving DecidableEq, Repr

/-- Reasons a command has no meaning in this model. -/
inductive Refusal where
  /-- Raised by `exec` for a command whose meaning is not written yet. Safe: the run stops. -/
  | notModelled (mnemonic : String)
  deriving DecidableEq, Repr

/-- A cluster start whose cores have not all executed HALT (R160): issuing core, tag, cores left. -/
structure StartGroup where
  core : Nat
  tag : BitVec 16
  left : List Nat
  deriving DecidableEq, Repr

/-- One entry of the Cairn record (R463): kind, power-on seconds and custody when written, the body's fields in the order R464 names
them, and the chain hash of the entry before it. -/
structure CairnEntry where
  kind : Nat
  powerOn : Nat
  custody : DWord
  args : List Nat
  prev : BitVec 512
  deriving DecidableEq, Repr

/-- One part that health scoring knows (R466, R467): the day's events of each kind, oldest first, at most 30 days; last score; state; days in
it; consecutive days below the threshold of the state. -/
structure Part where
  days : List (List Nat)
  score : Nat
  st : Nat
  inState : Nat
  below : Nat
  deriving DecidableEq, Repr

/-- A part before its first scoring. -/
def Part.init : Part := ⟨[], 0, 0, 0, 0⟩

/-- A rating record as made at manufacture for a full package: DESIGN CHOICE (log 197), the spec gives no contents of it. This package's serial, SEQ 1, grade A, no
voltages and limits entered (every point reads 0 mV), each logical tile on the physical tile of its own number and engine. -/
def ratingMade : Rating := ⟨Config.serial, 1, 0xA, false, [72, 72, 72, 72], [], 0, [], (List.range 288).map (· % 72), []⟩

/-- The security block (R444 to R474): the Cairn record with the number of its first entry still held and the entry its window shows, the OPS
of the service authorisation in force, the active and pending rating records, the flash bank unlocked for programming and the
flash contents, the flags of the running image, the health-scoring parts, the totals at the last scoring, the snapshot that
an attestation or erase statement signs, whether the last power loss was unclean; the accumulators of the open period as last saved and the totals since
manufacture (R411, R463); the nonce, new custody and FLAGS of an erase in progress; whether REMOVE was the last of INSERT and REMOVE; which number of the DRBG
SEC_NONCE shows, and whether it has been consumed (R468). -/
structure Sec where
  cairn : List CairnEntry
  base : Nat
  win : Option (Nat × CairnEntry)
  ops : Option Nat
  rating : Rating
  pendRating : Option Rating
  unlocked : Option Nat
  page : Nat
  flash : Mem
  fwKeys : List (BitVec 512 × Bool)
  svcKeys : List (BitVec 512 × Bool)
  advance : Bool
  parts : Store Part
  scored : Store Nat
  report : List Byte
  reportAt : Nat
  unclean : Bool
  saved : Store Nat
  life : Store Nat
  erase : Option (DWord × DWord × Nat)
  removed : Bool
  nonceN : Nat
  nonceUsed : Bool
  deriving DecidableEq, Repr

/-- The security block as manufacture leaves it. -/
def Sec.init : Sec := ⟨[], 0, none, none, ratingMade, none, none, 0, [], (List.range 4).map (fun i => (Config.keyHash i, false)),
  (List.range 2).map (fun i => (Config.keyHash (4 + i), false)), false, [], [], [], 0, false, [], [], none, false, 0, false⟩

/-- A drain in progress (R368): the cut, the pinned Firn slot, which copies are still to commit, the partner's package and mirror slot
address, the lines its copy has sent so far, the durable slot, and whether the partner's slot heads are still being read to choose the mirror slot. -/
structure Drain where
  cut : Nat
  slot : Nat
  mirror : Bool
  durable : Bool
  pkg : Nat
  mirrorAt : Nat
  mirrorSlot : Nat
  sent : Nat
  durableSlot : Nat
  asked : Bool
  deriving DecidableEq, Repr

/-- A collective message that has arrived (R312): its kind, fields and slots, with the call signature and algorithm of a JOIN and the number
a COUNTS or ALLOW carries. -/
structure ColMail where
  kind : Nat
  m : ColMsg
  sig : CallSig
  algo : Nat
  n : Nat
  deriving DecidableEq, Repr

/-- Contributions to one chunk that have arrived: from which ranks, combined, and whether one was DIRTY (R313). -/
structure ColPart where
  got : List Nat
  data : Nat
  dirty : Bool
  deriving DecidableEq, Repr

/-- No contribution. -/
def ColPart.init : ColPart := ⟨[], 0, false⟩

/-- One accepted collective (R300 to R319): its ISSUE with the descriptor, group, SEQ; whether it runs, its claim on each fabric die and
whether a claim failed in its subtree; joins held and sent; the algorithm; the phase-1 words combined, those received, final and sent;
chunk parts, chunks sent up, results; counts, grants and rows of an all-to-all; done marks, and whether the endpoint writes and marks
went out; flags raised in combining; freeze marks received and sent; whether the scratch was filled, phase-1 messages that are DIRTY, chunks whose own part was, whether
the destination was written; the count of its last progress (while FROZEN, how long ago that was), and COL_TIMEOUT in ns as sampled then (R316, R326). -/
structure ColX where
  ins : EngIns
  grp : Nat
  seq : Nat
  started : Bool
  claim : Nat
  failed : Bool
  joins : List Nat
  joinSent : Bool
  joined : Bool
  joinFwd : Bool
  algo : Nat
  exp : Store Nat
  expGot : List (Nat × Nat)
  expFin : Store Nat
  expSent : List Nat
  expFwd : List Nat
  parts : Store ColPart
  sent : List Nat
  fwd : List Nat
  res : Store (Nat × Bool)
  counts : Store Nat
  allow : Store Nat
  granted : Bool
  rowsSent : List Nat
  rowsIn : Store (Nat × Bool)
  done : List Nat
  wrote : Bool
  marksOut : Bool
  flags : Nat
  fmarks : List Nat
  fsent : Bool
  filled : Bool
  expBad : List Nat
  ownBad : List Nat
  put : Bool
  since : DWord
  limit : Nat
  deriving DecidableEq, Repr

/-- What the engine read at the first collective after a group entry was written (R299): the member list in rank order. -/
structure ColGroup where
  read : Bool
  members : List Nat
  deriving DecidableEq, Repr

/-- The collective engine (R298 to R326): accepted collectives in order, group lists, messages of collectives not accepted yet, the epoch of
the last COL_NOINR record, the last PROGRESS of each member (by group × 65,536 + rank: state and quiesce count), and groups that met a
member without a path. -/
structure ColEng where
  runs : List ColX
  groups : Store ColGroup
  mail : List ColMail
  noinr : Option Nat
  seen : Store (Nat × Nat)
  lost : List Nat
  deriving DecidableEq, Repr

/-- The collective engine after reset. -/
def ColEng.init : ColEng := ⟨[], [], [], none, [], []⟩

/-- A restore in progress (R375 to R377): the allowed sources with PROXY, the cut asked for, the value for g2, the cut chosen, and the sources left to
try: 0 local, 1 mirror, 2 durable. -/
structure Restore where
  sources : Nat
  want : DWord
  g2 : DWord
  cut : Option Nat
  left : List Nat
  deriving DecidableEq, Repr

/-- The control class of a freeze cut (R355): the state outside HBM on which a program in mid-step depends. -/
structure CtrlImage where
  cut : Nat
  tileSram : Mem
  vregs : Store (BitVec 2048)
  masks : Store (BitVec 256)
  cores : Store Core
  starts : List StartGroup
  dsps : Store Dsp
  slvs : Store SlvRes
  engines : Store Engine
  col : ColEng
  csr : Store Word
  deriving DecidableEq, Repr

/-- The checkpoint controller (R353 to R391) beyond its registers: votes received by rank, the own vote, whether it went up and which vote it is
(0 none, 1 boundary, 2 after a replay's restore, 3 freeze, 4 restore candidates, 5 restore loaded); consecutive replays of
the present step; CKP_BOUNDARY_HI as last written; the boundary whose core check is open; the slot a Firn copy fills; whether a drain follows it; the drain in
progress, drains started and the step of the last; the slots of the newest mirror and durable copies; the cause of a recovery freeze; a FREEZE command's SAVE and
phase (0 parking, 1 voted, 2 decided, 3 decided with the save skipped); a restore; the cut restored and its g2; slots found BAD; the control class saved in each
Firn slot; line ranges still to read from other packages; entries to audit, clean audits and the conditions of the last mismatch; the count of a GO. -/
structure Ckp where
  votes : List (Nat × VoteMsg)
  mine : Option VoteMsg
  sent : Bool
  phase : Nat
  replays : Nat
  boundaryHi : Word
  checking : Option DWord
  copy : Option Nat
  wantDrain : Bool
  drain : Option Drain
  drains : Nat
  lastDrain : Option Nat
  lastMirror : Option Nat
  lastDurable : Option Nat
  halt : Option Nat
  freeze : Option (Bool × Nat)
  restore : Option Restore
  restored : Option (Nat × DWord)
  bad : List Nat
  saved : Store CtrlImage
  reads : List (Nat × Nat)
  auditN : Option Nat
  clean : Nat
  conds : Option (Nat × Nat × Nat)
  go : Option DWord
  deriving DecidableEq, Repr

/-- The checkpoint controller after reset. -/
def Ckp.init : Ckp :=
  ⟨[], none, false, 0, 0, 0, none, none, false, none, 0, none, none, none, none, none, none, none, [], [], [], none, 0, none, none⟩

/-- A launch or restart in progress (R158, R320): the command's opcode, entry, count, argument and g2; this package's node, its tree as
read with its CRC; parent; children by node, those that reported READY, those known dead, READYs to pass on to another parent, orphans awaited from an adopter; whether
PREPARE came, to whom READY went, whether GO is held; MARGIN in ns as sampled at the start, when the timer of a node under this one ends, and the alternates an orphan was
given to (R321, R326). -/
structure LaunchRec where
  op : Nat
  entry : BitVec 48
  count : DWord
  arg : DWord
  g2 : DWord
  me : Nat
  tree : Store (BitVec 512)
  crc : Nat
  up : Option Nat
  kids : List Nat
  ready : List Nat
  dead : List Nat
  report : List (Nat × Nat)
  await : List (Nat × Nat)
  prep : Bool
  sentTo : Option Nat
  go : Bool
  margin : Nat
  timers : List (Nat × Nat)
  tried : List (Nat × Nat)
  deriving DecidableEq, Repr

/-- A temperature sensor (R405, R486): its last reading and whether it is marked failed. -/
structure Sensor where
  last : Option Int
  failed : Bool
  deriving DecidableEq, Repr

/-- A sensor after its rails start. -/
def Sensor.init : Sensor := ⟨none, false⟩

/-- The power and thermal controller (R392 to R416) beyond its registers. By throttle reason: demand, quiet ticks, start of the binding episode, start of the running
accumulation, accumulated ns, episodes. Ticks above the cap at OP15; whether a condition of R400 occurred since the last tick; times of the samples above 4,600 W and of
the last step they caused. Sensors by die × 32 + index, the last stack temperatures; by die the hottest junction, its maximum, the stretch
percentage and the droop trips since read; the dies stretched; whether a boost holds; the last warning or sensor shortage; the coolant sensors and the last
COOLANT_HOT; energy in uJ; the figures since the last hand-over (R411); the point whose frequency the islands run at, while the voltage follows; when a wake began. -/
structure Pwr where
  demand : Store Nat
  quiet : Store Nat
  bindAt : Store DWord
  accAt : Store DWord
  ns : Store Nat
  episodes : Store Nat
  capOver : Nat
  breach : Bool
  overs : List DWord
  overAt : Option DWord
  sensors : Store Sensor
  stackC : List Nat
  hotC : Store Nat
  maxC : Store Nat
  stretch : Store Nat
  trips : Store Nat
  slow : List Nat
  boost : Bool
  faultAt : Option DWord
  inlet : Sensor
  outlet : Sensor
  coolHotAt : Option DWord
  energyUj : Nat
  acc : Store Nat
  clk : Nat
  wakeAt : Option DWord
  deriving DecidableEq, Repr

/-- The power controller after cold reset. -/
def Pwr.init : Pwr :=
  ⟨[], [], [], [], [], [], 0, false, [], none, [], [], [], [], [], [], [], false, none, .init, .init, none, 0, [], 15, none⟩

/-- Counter synchronisation (R344 to R349) beyond its registers. For the exchange with the parent: the request outstanding (port, SEQ, t1), the next SEQ, exchanges done, the
one with the least delay (offset and delay in 1/16 ns), corrections within 1 ns in a row. The same for the Route exchange. The strata neighbours announced, by
port; the offset still to slew and the part of a tick gained beyond the count, both in 10^-9 of 1/16 ns; the count at the last accepted PPS edge; ROLE, REF_CAND and PPS_EN
as taken at the last exchange (R352). -/
structure Sync where
  sent : Option (Nat × Nat × Nat)
  seq : Nat
  n : Nat
  best : Option (Int × Int)
  good : Nat
  rsent : Option (Nat × Nat)
  rseq : Nat
  rn : Nat
  rbest : Option (Int × Int)
  rgood : Nat
  strata : Store Nat
  slew : Int
  frac : Int
  lastPps : Option DWord
  role : Nat
  cand : Bool
  pps : Bool
  deriving DecidableEq, Repr

/-- Synchronisation after reset. -/
def Sync.init : Sync := ⟨none, 0, 0, none, 0, none, 0, 0, none, 0, [], 0, 0, none, 0, false, false⟩

/-- What a digest combiner run sampled at GO (R343, R352): slot, log base, records and output address. -/
structure Dig where
  slot : Nat
  base : Nat
  records : Nat
  out : Nat
  deriving DecidableEq, Repr

/-- Contacts and test access (R477 to R484): the filtered hot-plug levels; whether boot runs, and whether it has failed; the straps sampled, and whether sampling has failed; the sideband's read offset, the data of a prepared
slow read, its dynamic address; the TAP instruction (0 IDCODE, 1 BYPASS, 2 SAMPLE/PRELOAD, 3 EXTEST); since when REFCLK is in or out of range. -/
structure Pins where
  present : Bool
  pwrEn : Bool
  lever : Bool
  boot : Bool
  bootBad : Bool
  straps : BitVec 7
  strapsBad : Bool
  sbOff : Nat
  sbData : Option Word
  sbAddr : Option (BitVec 7)
  tap : Nat
  refGood : Option DWord
  refBad : Option DWord
  deriving DecidableEq, Repr

/-- A module fitted and enabled, as it must be to have reached STANDBY, with the straps of slot 0. -/
def Pins.init : Pins := ⟨true, true, true, false, false, 0, false, 0, none, none, 0, none, none⟩

/-- The package. -/
structure State where
  pending : List Instr
  fresh : Nat
  ran : List Nat
  pkg : PkgSt
  prev : PkgSt
  cause : Nat
  rails : Bool
  count : DWord
  counting : Bool
  csr : Store Word
  root : CsrRoot
  log : Logbook
  stepErr : Bool
  freezeF : Option DWord
  cores : Store Core
  starts : List StartGroup
  ramps : List DWord
  engines : Store Engine
  hbm : Mem
  hbmBg : Nat
  poison : List Nat
  depot : Store DepotLine
  depotCtl : Store Byte
  tileSram : Mem
  vregs : Store (BitVec 2048)
  masks : Store (BitVec 256)
  chans : Store Chan
  rows : Store (List RowRec)
  spares : Store Nat
  fab : Store FabDie
  links : Store Link
  peers : Store RoutePeer
  hal : Halter
  out : List OutMsg
  dsps : Store Dsp
  imgCore : Store (Nat × Core × Store Word)
  imgDsp : Store (Nat × Dsp)
  slvs : Store SlvRes
  imgSlv : Store (Nat × Engine)
  sec : Sec
  upNs : Nat
  totals : Store Nat
  ckp : Ckp
  col : ColEng
  imgCol : Option (Nat × ColEng)
  launch : Option LaunchRec
  ownAbort : Option (Nat × Nat × DWord)
  pwr : Pwr
  sync : Sync
  dig : Option Dig
  pins : Pins
  deriving DecidableEq, Repr

/-- The package right after reset: STANDBY, as boot leaves it at cold reset (R443). Every register holds its reset word; the listed words are
PKG_INPUTS of a carrier of revision 2 with the PPS receiver and I3C, both Halter ports in service, and the slot-table entries of this package's own slot, which alone is PRESENT (R296). -/
def State.reset : State where
  pending := []
  fresh := 0
  ran := []
  pkg := .standby
  prev := .off
  cause := 0
  rails := false
  count := 0
  counting := true
  csr := [(0x020020, 0x20600), (0x420100, 1), (0x420300, 1), (0x4C0008, 0x2D), (0x520100, 1), (0x520300, 1)]
  root := .init
  log := .init
  stepErr := false
  freezeF := none
  cores := []
  starts := []
  ramps := []
  engines := []
  hbm := []
  hbmBg := 0
  poison := []
  depot := []
  depotCtl := []
  tileSram := []
  vregs := []
  masks := []
  chans := []
  rows := []
  spares := []
  fab := []
  links := []
  peers := []
  hal := .init
  out := []
  dsps := []
  imgCore := []
  imgDsp := []
  slvs := []
  imgSlv := []
  sec := .init
  upNs := 0
  totals := []
  ckp := .init
  col := .init
  imgCol := none
  launch := none
  ownAbort := none
  pwr := .init
  sync := .init
  dig := none
  pins := .init

end Sys2Proof.Machine
end

