-- ==== Sys2Proof/Machine/Store.lean ====
section
/-! DEFINITION. The two container operations of the package: sparse maps with strictly rising keys, and
byte memories in canonical form. -/

namespace Sys2Proof.Machine

/-- The value at key `k`, or `d` where the map does not list `k`. -/
def sGet {α : Type} (d : α) : Store α → Nat → α
  | [], _ => d
  | (a, v) :: m, k => if k = a then v else sGet d m k

/-- The listed value at key `k`. -/
def sFind {α : Type} : Store α → Nat → Option α
  | [], _ => none
  | (a, v) :: m, k => if k = a then some v else sFind m k

/-- List `v` at key `k`. -/
def sIns {α : Type} (k : Nat) (v : α) : Store α → Store α
  | [] => [(k, v)]
  | (a, x) :: m => if k < a then (k, v) :: (a, x) :: m else if k = a then (k, v) :: m else (a, x) :: sIns k v m

/-- Unlist key `k`. -/
def sDel {α : Type} (k : Nat) : Store α → Store α
  | [] => []
  | (a, x) :: m => if k = a then sDel k m else (a, x) :: sDel k m

/-- Canonical write: a value equal to the background `d` unlists the key. -/
def sSet {α : Type} [DecidableEq α] (d : α) (k : Nat) (v : α) (m : Store α) : Store α :=
  if v = d then sDel k m else sIns k v m

/-- Every key of the map is above `b` and the keys rise strictly. -/
def sRising {α : Type} : Option Nat → Store α → Bool
  | _, [] => true
  | none, (a, _) :: m => sRising (some a) m
  | some b, (a, _) :: m => decide (b < a) && sRising (some a) m

/-- The byte at address `a`; `bg` is what an unlisted address reads as. -/
def memRead (bg : Nat → Byte) (m : Mem) (a : Nat) : Byte :=
  match sFind m a with
  | some b => b
  | none => bg a

/-- Store one byte, keeping the canonical form: the background value is not listed. -/
def memWrite (bg : Nat → Byte) (a : Nat) (b : Byte) (m : Mem) : Mem :=
  if b = bg a then sDel a m else sIns a b m

/-- The canonical form of a byte memory over background `bg`: strictly rising addresses and no entry equal to
what an unlisted address reads as. -/
def Mem.wf (bg : Nat → Byte) (m : Mem) : Bool :=
  sRising none m && m.all (fun c => decide (c.2 ≠ bg c.1))

/-- `n` bytes from address `a` as a little-endian number (R12). -/
def memReadN (bg : Nat → Byte) (m : Mem) (a : Nat) : Nat → Nat
  | 0 => 0
  | n + 1 => (memRead bg m a).toNat + 256 * memReadN bg m (a + 1) n

/-- Store the `n` low bytes of `v` at address `a`, little-endian (R12). -/
def memWriteN (bg : Nat → Byte) (a : Nat) (v : Nat) : Nat → Mem → Mem
  | 0, m => m
  | n + 1, m => memWriteN bg (a + 1) (v / 256) n (memWrite bg a (BitVec.ofNat 8 v) m)

end Sys2Proof.Machine
end

