-- ==== Sys2Proof/Machine/Ops.lean ====
section
/-! DEFINITION. The named operations over the package's state: register fields, events, state changes, the address maps,
memory, messages and the recording of core faults. -/

namespace Sys2Proof.Machine

/-! ### Places of the register blocks (R33) -/

/-- Base of compute die `d`. -/
def dieBase (d : Nat) : Nat := 0x1000000 + d * 0x400000
/-- Base of package cluster `cl`, 9 clusters a die. -/
def clusterBase (cl : Nat) : Nat := dieBase (cl / 9) + (cl % 9) * 0x40000
/-- Base of logical tile `p` = 72 d + 8 c + i (R16). -/
def tileBase (p : Nat) : Nat := clusterBase (p / 8) + (p % 8) * 0x4000
/-- Base of core `c`: 0 to 35 are Drover cores, 36 + n is package sequencer core n. -/
def seqBase (c : Nat) : Nat := if c < 36 then clusterBase c + 0x20000 else 0x028000 + (c - 36) * 0x1000
/-- Base of the SX of cluster `cl`. -/
def sxBase (cl : Nat) : Nat := clusterBase cl + 0x24000
/-- Base of the Assay unit of cluster `cl`. -/
def asyBase (cl : Nat) : Nat := clusterBase cl + 0x28000
/-- Base of the Porter of cluster `cl`. -/
def porBase (cl : Nat) : Nat := clusterBase cl + 0x2C000
/-- Base of the Depot of compute die `d`. -/
def depBase (d : Nat) : Nat := dieBase d + 0x300000
/-- Base of the Dispatcher of compute die `d`. -/
def dspBase (d : Nat) : Nat := dieBase d + 0x340000
/-- Base of solver engine `e`. -/
def slvBase (e : Nat) : Nat := 0x080000 + e * 0x2000
/-- Base of stack `s`. -/
def stackBase (s : Nat) : Nat := 0x200000 + s * 0x10000
/-- Package-wide memory registers. -/
def mempBase : Nat := 0x2C0000
/-- Base of fabric die `f`. -/
def fabBase (f : Nat) : Nat := 0x400000 + f * 0x100000
/-- Base of port `p`: 0 to 17 Caravan, 18 to 21 Route (R265). -/
def portBase (p : Nat) : Nat :=
  if p < 18 then fabBase (p / 9) + 0x10000 + 0x100 * (p % 9) else fabBase ((p - 18) / 2) + 0x11000 + 0x100 * ((p - 18) % 2)
/-- Route settings of fabric die `f`. -/
def rtBase (f : Nat) : Nat := fabBase f + 0x12000
/-- Tables of fabric die `f`. -/
def tabBase (f : Nat) : Nat := fabBase f + 0x20000
def halBase : Nat := 0x4C0000
def colBase : Nat := 0x600000
def gctBase : Nat := 0x060000
def ckpBase : Nat := 0x100000
def pwrBase : Nat := 0x040000
def cmdBase : Nat := 0x010000
def pkgBase : Nat := 0x020000
def evrBase : Nat := 0x030000
def secBase : Nat := 0x050000

/-! ### Register fields -/

/-- The stored word at a CSR offset whose reset word is `d`. -/
def csrGet (d : Nat) (off : Nat) (s : State) : Word := sGet (BitVec.ofNat 32 d) s.csr off
/-- Store a word at a CSR offset whose reset word is `d`. -/
def csrSet (d : Nat) (off : Nat) (v : Word) (s : State) : State :=
  { s with csr := sSet (BitVec.ofNat 32 d) off v s.csr }
/-- The value of field `f` of the block at `base`. -/
def getF (base : Nat) (f : Fld) (s : State) : Nat := bitsAt (csrGet f.word (base + f.off) s).toNat f.lo f.w
/-- Set field `f` of the block at `base`. -/
def setF (base : Nat) (f : Fld) (v : Nat) (s : State) : State :=
  csrSet f.word (base + f.off) (BitVec.ofNat 32 (putBits (csrGet f.word (base + f.off) s).toNat f.lo f.w v)) s
/-- The value field `f` acts with: an expert field acts at its basic value while the LEVEL bit is 0 (R427). -/
def effF (base : Nat) (f lvl : Fld) (s : State) : Nat :=
  if f.expert && getF base lvl s = 0 then f.rst else getF base f s
/-- Add to the companion total with key `k`, which only increases and which no read clears (R466). -/
def tally (k n : Nat) (s : State) : State := { s with totals := sSet 0 k (sGet 0 s.totals k + n) s.totals }
/-- The key of the companion total of a count field. -/
def totalKey (base : Nat) (f : Fld) : Nat := (base + f.off) * 32 + f.lo
/-- Add to a saturating count field (R423) and to its companion total (R466). -/
def bumpF (base : Nat) (f : Fld) (n : Nat) (s : State) : State :=
  tally (totalKey base f) n (setF base f (satAdd f.w (getF base f s) n) s)
/-- The 64-bit value of a _LO and _HI pair (R426). -/
def getPair (base : Nat) (lo hi : Fld) (s : State) : Nat := getF base lo s + 2 ^ 32 * getF base hi s
/-- Set a _LO and _HI pair. -/
def setPair (base : Nat) (lo hi : Fld) (v : Nat) (s : State) : State :=
  setF base hi (v / 2 ^ 32) (setF base lo v s)
/-- Add to a 64-bit count that wraps. -/
def addPair (base : Nat) (lo hi : Fld) (n : Nat) (s : State) : State :=
  setPair base lo hi ((getPair base lo hi s + n) % 2 ^ 64) s
/-- Capture a value in a field with its own VALID bit, unless one is held (R423). -/
def capture (base : Nat) (valid : Fld) (put : State → State) (s : State) : State :=
  if getF base valid s = 1 then s else setF base valid 1 (put s)

/-! ### Cores and engines -/

/-- Core `c`. -/
def getCore (c : Nat) (s : State) : Core := sGet Core.init s.cores c
/-- Replace core `c`. -/
def setCore (c : Nat) (k : Core) (s : State) : State := { s with cores := sSet Core.init c k s.cores }
/-- Engine with key `k`. -/
def getEng (k : Nat) (s : State) : Engine := sGet Engine.init s.engines k
/-- Replace engine `k`. -/
def setEng (k : Nat) (e : Engine) (s : State) : State := { s with engines := sSet Engine.init k e s.engines }

/-- Keys of the engines: MX of tile p, VX of tile p, then SX, Assay and Porter of a cluster, Dispatcher of a die,
solver engine, collective engine. -/
def kMx (p : Nat) : Nat := p
def kVx (p : Nat) : Nat := 288 + p
def kSx (cl : Nat) : Nat := 576 + cl
def kAsy (cl : Nat) : Nat := 612 + cl
def kPor (cl : Nat) : Nat := 648 + cl
def kDsp (d : Nat) : Nat := 684 + d
def kSlv (e : Nat) : Nat := 688 + e
def kCol : Nat := 696

/-- CORE_ID of core `c` (R133). -/
def coreId (c : Nat) : Nat := if c < 36 then c else 64 + (c - 36)

/-- A block has run since reset: its counters of cycles have values that timing decides. Keys: an engine's, 1000 + core, 2000 + stack. -/
def ranAdd (k : Nat) (s : State) : State := if s.ran.contains k then s else { s with ran := k :: s.ran }

/-- A fresh number for a free value, and the state after drawing it. -/
def drawFresh (s : State) : Nat × State := (s.fresh, { s with fresh := s.fresh + 1 })

/-! ### Events (R434 to R439) and package state (R428) -/

/-- The merge window of an event code in us (R436): REMOTE_DEAD 1 ms (R272), THROTTLE 100 ms (R410), else EVR_CFG.MERGE_MS. -/
def mergeUs (code : Nat) (s : State) : Nat :=
  if code = 0x50 then 1000
  else if code = 0x90 then 100000
  else 1000 * max 1 (effF evrBase R.EVR_CFG_MERGE_MS R.EVR_CFG_LEVEL s)

/-- The EVR_LOST count of a severity. -/
def lostFld (sev : Nat) : Fld :=
  if sev = 0 then R.EVR_LOST_SEV0 else if sev = 1 then R.EVR_LOST_SEV1 else if sev = 2 then R.EVR_LOST_SEV2 else R.EVR_LOST_SEV3

/-- A dropped event is counted and its source marked (R439). -/
def dropEvent (src sev : Nat) (s : State) : State :=
  let s := bumpF evrBase (lostFld sev) 1 s
  { s with log := { s.log with lost := src :: s.log.lost } }

/-- Raise an event: it enters its source's queue of 4, or is dropped (R435, R439). The checkpoint controller takes
its ERR flag at this instant for severity 2 and 3 (R437). -/
def raise (src code sev arg0 arg1 : Nat) (s : State) : State :=
  let s := if sev ≥ 2 then { s with stepErr := true } else s
  let q := sGet [] s.log.queues src
  if q.length ≥ 4 then dropEvent src sev s
  else
    let e : Event := ⟨src, code, sev, s.count, BitVec.ofNat 64 arg0, arg1 % 2 ^ 16, mergeUs code s⟩
    { s with log := { s.log with queues := sIns src (q ++ [e]) s.log.queues } }

/-- The code of a package state (R428). -/
def stCode : PkgSt → Nat
  | .off => 0 | .standby => 1 | .service => 2 | .ready => 3 | .admitted => 4
  | .running => 5 | .frozen => 6 | .sleep => 7 | .faulted => 8

/-- Change the package state; every change writes a STATE_CHANGE record (R428, R489). -/
def setPkg (p : PkgSt) (s : State) : State :=
  raise 0 0x05 0 (stCode p + 16 * stCode s.pkg + 256 * (if p = .faulted then s.cause else 0)) 0
    { s with pkg := p, prev := s.pkg }

/-- The path code of CSR_WRITE_REJECT (R489). -/
def pathCode : Path → Nat
  | .halter => 0 | .sideband => 1 | .psc _ => 2 | .drover _ => 3

/-- An ignored state-bound write or action writes CSR_WRITE_REJECT (R442, R489). -/
def rejectWrite (path : Path) (off : Nat) (data : Nat) (s : State) : State :=
  raise 0 0x08 1 (off % 2 ^ 26 + pathCode path * 2 ^ 26 + stCode s.pkg * 2 ^ 28 + (data % 2 ^ 32) * 2 ^ 32) 0 s

/-! ### Package number and the local offset map (R28, R227 to R229) -/

/-- The package's own number: Caravan number and slot (R28, FAB_SELF). -/
def pkgNum (s : State) : Nat := getF (fabBase 0) R.FAB_SELF_SLOT s + 64 * getF (fabBase 0) R.FAB_SELF_CARAVAN s

/-- Whether a global address names this package (R28, R269). -/
def isLocal (a : Nat) (s : State) : Bool := a / 2 ^ 48 % 2 ^ 16 = 0xFFFF || a / 2 ^ 48 % 2 ^ 16 = pkgNum s

/-- The local offset of a global address. -/
def offOf (a : Nat) : Nat := a % 2 ^ 48

/-- The spread size S in GiB; a value above 12 in MEM_SPREAD.SIZE acts as 12 (R230). -/
def spreadGib (s : State) : Nat := 4 * min 12 (getF mempBase R.MEM_SPREAD_SIZE s)

/-- What a local offset names (R227). -/
inductive Target where
  | hbm (phys : Nat)
  | tile (p : Nat) (a : Nat)
  | depotCtl (d : Nat) (a : Nat)
  | reduction (op : Nat) (phys : Nat)
  | companion (w : Nat)
  | csr (o : Nat)
  | unmapped
  deriving DecidableEq, Repr

/-- The physical place of a byte of HBM: stack, channel and channel-local address in one number. -/
def physOf (stack chan loc : Nat) : Nat := stack * 2 ^ 36 + chan * 2 ^ 31 + loc
/-- The linear window's map (R228). -/
def linearMap (off : Nat) : Nat :=
  let g := off % 2 ^ 36 / 512
  physOf (off / 2 ^ 36) (fold5 g 6) (g / 32 * 512 + off % 512)
/-- The spread window's map (R229). -/
def spreadMap (o sg : Nat) : Nat :=
  let g := o / 4096
  let q := g / 12
  physOf ((g % 12 + nibbleSum q 12) % 12) (fold5 q 10) (2 ^ 31 - sg * 2 ^ 25 + q / 32 * 4096 + o % 4096)
/-- The HBM place of an offset of the two HBM windows, the spread window counted from its base. -/
def hbmOf (spread : Bool) (o : Nat) (s : State) : Option Nat :=
  if spread then if o < 12 * spreadGib s * 2 ^ 30 then some (spreadMap o (spreadGib s)) else none
  else if o / 2 ^ 36 < 12 ∧ o % 2 ^ 36 < (64 - spreadGib s) * 2 ^ 30 then some (linearMap o) else none

/-- The local offset that names a physical line: the inverse of the two maps (R228, R229). -/
def localOf (pl : Nat) (s : State) : Nat :=
  let st := pl / 2 ^ 29
  let ch := pl / 2 ^ 24 % 32
  let loc := pl % 2 ^ 24 * 128
  let sg := spreadGib s
  let base := 2 ^ 31 - sg * 2 ^ 25
  if loc < base then
    let hi := loc / 512
    st * 2 ^ 36 + (hi * 32 + (ch ^^^ fold5 hi 6)) * 512 + loc % 512
  else
    let hi := (loc - base) / 4096
    let q := hi * 32 + (ch ^^^ fold5 hi 10)
    2 ^ 44 + (12 * q + (st + 12 * nibbleSum q 12 - nibbleSum q 12) % 12) * 4096 + loc % 4096

/-- HAL_WIN_SIZE in bytes, at most the 64 TiB of the window (R227, R290). -/
def halWinBytes (s : State) : Nat := min (getF halBase R.HAL_WIN_SIZE_GIB s * 2 ^ 30) (2 ^ 46)

/-- Decode a local offset (R227, R233, R290). -/
def target (off : Nat) (s : State) : Target :=
  if off < 2 ^ 44 then
    match hbmOf false off s with
    | some p => .hbm p
    | none => .unmapped
  else if off < 2 ^ 45 then
    match hbmOf true (off - 2 ^ 44) s with
    | some p => .hbm p
    | none => .unmapped
  else if off < 3 * 2 ^ 44 then
    let o := off - 2 ^ 45
    if o / 2 ^ 23 < 288 ∧ o % 2 ^ 23 < 0x600000 then .tile (o / 2 ^ 23) (o % 2 ^ 23) else .unmapped
  else if off < 2 ^ 46 then
    let o := off - 3 * 2 ^ 44
    if o / 2 ^ 41 = 0 then if o / 2 ^ 24 < 4 then .depotCtl (o / 2 ^ 24) (o % 2 ^ 24) else .unmapped
    else match hbmOf (o / 2 ^ 40 % 2 = 1) (o % 2 ^ 40) s with
      | some p => .reduction (o / 2 ^ 41) p
      | none => .unmapped
  else if off < 2 ^ 47 then
    if off - 2 ^ 46 < halWinBytes s then .companion (off - 2 ^ 46) else .unmapped
  else if 0xF00000000000 ≤ off ∧ off < 0xF00004000000 then .csr (off - 0xF00000000000)
  else .unmapped

/-! ### Memory -/

/-- What a byte of HBM that nothing has written reads as: 0 before any key change (a choice of this model), and
unpredictable after one (R234). -/
def hbmBgByte (s : State) (a : Nat) : Byte := if s.hbmBg = 0 then 0 else Config.freeHbmByte s.hbmBg a
/-- The background of tile SRAM, which POWER_UP and WAKE leave at zero by choice of this model. -/
def zeroByte (_ : Nat) : Byte := 0

/-- Channel `c` of stack `st`. -/
def getChan (st c : Nat) (s : State) : Chan := sGet Chan.init s.chans (st * 32 + c)
/-- Replace a channel. -/
def setChan (st c : Nat) (x : Chan) (s : State) : State := { s with chans := sSet Chan.init (st * 32 + c) x s.chans }

/-- The channel number (stack × 32 + channel) of a physical line. -/
def chanOf (pl : Nat) : Nat := pl / 2 ^ 24
/-- The compute die whose Depot is home of a physical line: three stacks a die (R15, R23). -/
def homeDie (pl : Nat) : Nat := pl / 2 ^ 29 / 3
/-- Whether the line's channel is out of service (R242). -/
def chanOos (pl : Nat) (s : State) : Bool := (sGet Chan.init s.chans (chanOf pl)).st ≠ .inService &&
  (sGet Chan.init s.chans (chanOf pl)).st ≠ .retraining

/-- The stored 128 bytes of a physical HBM line. -/
def hbmLine (pl : Nat) (s : State) : Nat := memReadN (hbmBgByte s) s.hbm (pl * 128) 128
/-- The coherent value of a line: a Depot's copy, else HBM (R245, R247). -/
def lineNat (pl : Nat) (s : State) : Nat :=
  match sFind s.depot pl with
  | some d => d.data.toNat
  | none => hbmLine pl s
/-- Whether HBM holds a line marked poisoned: marked itself, or in a channel whose lines all read poisoned since a self-test (R236, R243). -/
def markedPoison (pl : Nat) (s : State) : Bool :=
  let c := sGet Chan.init s.chans (chanOf pl)
  s.poison.contains pl || (c.allPoison && !c.clean.contains pl)
/-- Whether a line reads poisoned (R236, R242). -/
def linePoison (pl : Nat) (s : State) : Bool :=
  match sFind s.depot pl with
  | some d => d.poison
  | none => markedPoison pl s || chanOos pl s

/-- Mark a line poisoned in HBM. -/
def poisonAdd (pl : Nat) (s : State) : State := if s.poison.contains pl then s else { s with poison := pl :: s.poison }
/-- Clear a line's poison. -/
def poisonDel (pl : Nat) (s : State) : State :=
  let c := sGet Chan.init s.chans (chanOf pl)
  let s := { s with poison := s.poison.filter (· ≠ pl) }
  if c.allPoison && !c.clean.contains pl then { s with chans := sIns (chanOf pl) { c with clean := pl :: c.clean } s.chans } else s

/-- Write `n` bytes at physical address `phys` of HBM itself; a write to a channel out of service is dropped (R242); a write of
the whole line clears poison (R236). A self-test shares its channel with no other traffic (R243). -/
def hbmWrite (phys n v : Nat) (s : State) : State :=
  if chanOos (phys / 128) s then s
  else
    let s := { s with hbm := memWriteN (hbmBgByte s) phys v n s.hbm }
    if n = 128 then poisonDel (phys / 128) s else s

/-- Key among the Depot lines of a line of the companion window. -/
def compKey (line : Nat) : Nat := 2 ^ 33 + line
/-- HAL_WIN_BASE: the companion address of offset 0 of the companion window, a multiple of 1 GiB (R290). -/
def winBase (s : State) : Nat := 2 ^ 30 * (getPair halBase R.HAL_WIN_BASE_LO_BASE R.HAL_WIN_BASE_HI_BASE s / 2 ^ 30)

end Sys2Proof.Machine
end

