-- ==== Sys2Proof/Machine/Link.lean ====
section
/-! DEFINITION. The sending side of the link layer: messages as slots, flits, replay buffers and credits of the Caravan and Halter ports (R259 to R263, R289). -/

namespace Sys2Proof.Machine

/-- Append to what the package has sent. -/
def emit (o : OutMsg) (s : State) : State := { s with out := s.out ++ [o] }

/-- Port `p`'s link: 0 to 17 Caravan, 18 to 21 Route, 22 and 23 Halter. -/
def getLink (p : Nat) (s : State) : Link := sGet Link.init s.links p
/-- Replace port `p`'s link. -/
def setLink (p : Nat) (x : Link) (s : State) : State := { s with links := sSet Link.init p x s.links }

/-! ### Messages in slots (R259, R263, R289) -/

/-- The eight 16-byte slots of a line, byte 0 first: bits [127:120] of a slot are its first byte (R259). -/
def lineSlots (v : Nat) : List Slot :=
  (List.range 8).map (fun i => BitVec.ofNat 128 (bswap (bitsAt v (128 * i) 128) 16))
/-- The line that eight slots carry. -/
def slotsLine : List Slot → Nat
  | [] => 0
  | x :: xs => bswap x.toNat 16 + 2 ^ 128 * slotsLine xs

/-- The header slot's 128 bits (R263). -/
def hdrNat (h : MsgHdr) : Nat :=
  h.pmask.toNat + h.line.toNat * 2 ^ 8 + h.txid.toNat * 2 ^ 49 + h.dst.toNat * 2 ^ 64 + h.src.toNat * 2 ^ 80 + h.tag.toNat * 2 ^ 96 +
  h.epoch.toNat * 2 ^ 114 + b2n h.lat * 2 ^ 116 + h.len.toNat * 2 ^ 117 + h.hop.toNat * 2 ^ 120 + h.vc.toNat * 2 ^ 122 + h.opc.toNat * 2 ^ 124
/-- The header a slot spells (R263). -/
def hdrOf (v : Nat) : MsgHdr :=
  ⟨BitVec.ofNat 4 (bitsAt v 124 4), BitVec.ofNat 2 (bitsAt v 122 2), BitVec.ofNat 2 (bitsAt v 120 2), BitVec.ofNat 3 (bitsAt v 117 3),
   bitAt v 116, BitVec.ofNat 2 (bitsAt v 114 2), BitVec.ofNat 16 (bitsAt v 96 16), BitVec.ofNat 16 (bitsAt v 80 16),
   BitVec.ofNat 16 (bitsAt v 64 16), BitVec.ofNat 15 (bitsAt v 49 15), BitVec.ofNat 41 (bitsAt v 8 41), BitVec.ofNat 8 v⟩
/-- The slots of a message. -/
def msgSlots (m : Msg) : List Slot := BitVec.ofNat 128 (hdrNat m.hdr) :: m.slots
/-- Bytes of a message: 16 a slot. -/
def msgBytes (m : Msg) : Nat := 16 * (1 + m.slots.length)

/-- The slots of a Halter message: its header (R289), then its lines, or the one data slot of a CSR message. -/
def halSlots (m : HalMsg) : List Slot :=
  BitVec.ofNat 128 (m.pmask.toNat + m.line.toNat * 2 ^ 8 + m.txid.toNat * 2 ^ 96 + b2n m.lat * 2 ^ 116 + m.len.toNat * 2 ^ 117 + m.vc.toNat * 2 ^ 120 +
    m.opc.toNat * 2 ^ 122) ::
  (if m.opc = 0x21 ∨ m.opc = 0x22 then m.lines.map (fun d => BitVec.ofNat 128 d.toNat) else m.lines.flatMap (fun d => lineSlots d.toNat))

/-- The slots of what a port carries. -/
def bodyOf : LinkMsg → List Slot
  | .caravan m => msgSlots m
  | .halter m => halSlots m

/-- The credit queue of a message (R262): its channel and hop class; that CR_Q numbers the queues so is a choice (log 182). -/
def queueOf : LinkMsg → Nat
  | .caravan m => 4 * m.hdr.vc.toNat + m.hdr.hop.toNat
  | .halter m => 4 * m.vc.toNat

/-! ### Flits (R260) -/

/-- Bits [127:64] of a slot and further slots, most significant byte first: what a CRC-64 of this chapter covers (R260, R312). -/
def colBytes (top : Nat) (data : List Slot) : List Byte :=
  (natBytes top 8).reverse ++ data.flatMap (fun x => (natBytes x.toNat 16).reverse)
/-- Bits [127:64] of a flit's header slot. -/
def flitTop (f : Flit) : Nat :=
  f.rsv.toNat + b2n f.idle * 2 ^ 22 + b2n f.nak * 2 ^ 23 + f.crSlots.toNat * 2 ^ 24 + f.crQ.toNat * 2 ^ 36 + f.ack.toNat * 2 ^ 40 +
  f.seq.toNat * 2 ^ 52
/-- The CRC-64 a flit must carry. -/
def flitCrc (f : Flit) : Nat := crc64Go 0 (colBytes (flitTop f) f.slots)

/-- Slots cut into flits of 31; the last is filled with NOP slots. -/
def flitChunks : Nat → List Slot → List (List Slot)
  | 0, _ => []
  | fuel + 1, l => if l.isEmpty then [] else (l.take 31 ++ List.replicate (31 - l.length) 0) :: flitChunks fuel (l.drop 31)

/-- Form a flit: SEQ, the last SEQ received in order, the credit of the first queue owed any, and NAK if it is owed (R260, R261). -/
def formFlit (idle : Bool) (slots : List Slot) (l : Link) : Flit × Link :=
  let c := l.owed.headD (0, 0)
  let f : Flit := ⟨l.txSeq, l.rxSeq - 1, BitVec.ofNat 4 c.1, BitVec.ofNat 12 (min 4095 c.2), l.nak, idle, 0, 0, slots⟩
  let f := { f with crc := BitVec.ofNat 64 (flitCrc f) }
  (f, { l with txSeq := if idle then l.txSeq else l.txSeq + 1, nak := false, sent := l.sent ++ [f],
               owed := if c.2 > 4095 then sIns c.1 (c.2 - 4095) l.owed else l.owed.tail })

/-- Form the flits of slots. -/
def formFlits : List (List Slot) → Link → List Flit × Link
  | [], l => ([], l)
  | c :: m, l =>
    let r := formFlit false c l
    let t := formFlits m r.2
    (r.1 :: t.1, t.2)

/-- Add to the count of a queue. -/
def addQueue (k n : Nat) (m : Store Nat) : Store Nat := sIns k (sGet 0 m k + n) m

/-- Send a message: whole flits of its own, kept for replay until acknowledged (R261); its slots are spent from its queue's credit (R262). -/
def linkSend (b : LinkMsg) (l : Link) : Link :=
  let x := bodyOf b
  let r := formFlits (flitChunks x.length x) { l with spent := addQueue (queueOf b) x.length l.spent }
  { r.2 with replay := r.2.replay ++ [⟨r.2.txSeq - 1, b, r.1⟩] }

/-- Flits in the replay buffer. -/
def replayFlits (l : Link) : Nat := (l.replay.map (fun e => e.flits.length)).sum

/-- Whether the replay buffer of 512 flits has room for a message (R261), with none waiting before it. -/
def linkRoom (b : LinkMsg) (l : Link) : Bool := l.waiting.isEmpty && decide (replayFlits l + ((bodyOf b).length + 30) / 31 ≤ 512)

/-- What the package has sent when a message leaves on port `p`. -/
def outOf (p : Nat) : LinkMsg → OutMsg
  | .caravan m => .link p m
  | .halter m => .halter m

/-- Put a message on port `p`, or keep it until the replay buffer has room. -/
def linkPut (p : Nat) (b : LinkMsg) (s : State) : State :=
  let l := getLink p s
  if linkRoom b l then emit (outOf p b) (setLink p (linkSend b l) s) else setLink p { l with waiting := l.waiting ++ [b] } s

/-- Send what waited for room, in order. -/
def linkFlush (p : Nat) (s : State) : State :=
  let l := getLink p s
  l.waiting.foldl (fun s b => linkPut p b s) (setLink p { l with waiting := [] } s)

/-- An IDLE flit: acknowledgement, credit and NAK only; it is not kept for replay (R260). That one leaves at once after each flit received is a choice (log 182). -/
def sendIdle (p : Nat) (s : State) : State := setLink p (formFlit true (List.replicate 31 0) (getLink p s)).2 s

/-- Put a Caravan message on port `p`. -/
def portSend (p : Nat) (m : Msg) (s : State) : State :=
  linkPut p (.caravan m) (addPair (portBase p) R.PORT_TX_BYTES_LO_VALUE R.PORT_TX_BYTES_HI_VALUE (msgBytes m) s)

/-! ### Halter ports (R289, R294) -/

/-- The STATE field of Halter port `p`. -/
def halState (p : Nat) : Fld := if p = 0 then R.HAL_STATUS_STATE0 else R.HAL_STATUS_STATE1

/-- The Halter port of a line: LINE bit 0 and the next four bits exclusive-ORed, while both ports are up; else the one that is up (R289, R294). -/
def halPort (line : Nat) (s : State) : Nat :=
  let h := (line % 2 + line / 2 % 2 + line / 4 % 2 + line / 8 % 2 + line / 16 % 2) % 2
  if getF halBase (halState h) s = 5 then h
  else if getF halBase (halState (1 - h)) s = 5 then 1 - h
  else h

/-- Send a Halter message on the port of its line. -/
def halPut (m : HalMsg) (s : State) : State := linkPut (22 + halPort m.line.toNat s) (.halter m) s

/-- Send a Halter message. -/
def halSend (opc vc len : Nat) (txid : BitVec 16) (line : BitVec 41) (pmask : Nat) (lines : List Line) (s : State) : State :=
  halPut ⟨BitVec.ofNat 6 opc, BitVec.ofNat 2 vc, BitVec.ofNat 3 len, false, txid, line, BitVec.ofNat 8 pmask, lines⟩ s

/-- Send one of the package's own requests or snoops, with the next TXID. -/
def halAsk (opc vc len : Nat) (line pmask : Nat) (lines : List Line) (s : State) : State :=
  halSend opc vc len s.hal.nextTx (BitVec.ofNat 41 line) pmask lines { s with hal := { s.hal with nextTx := s.hal.nextTx + 1 } }

end Sys2Proof.Machine
end

