-- ==== Sys2Proof/Machine/Depot.lean ====
section
/-! DEFINITION. The Depots and the coherence directory (R245 to R247, R253 to R255): which lines the Depots and the companion hold, snoops, allocation and eviction,
coherent reads and writes of lines; and tile SRAM. -/

namespace Sys2Proof.Machine

/-! ### The companion's copies (R246, R291, R292) -/

/-- The directory's entry for a line held by the companion. -/
def setDir (pl : Nat) (d : DirSt) (s : State) : State := { s with hal := { s.hal with dir := sIns pl d s.hal.dir } }
/-- The companion holds no copy. -/
def delDir (pl : Nat) (s : State) : State := { s with hal := { s.hal with dir := sDel pl s.hal.dir } }

/-- The lines a waiting request names. -/
def HomeReq.lines : HomeReq → List Nat
  | .companion ls _ => ls
  | .remote ls _ _ => ls
  | .write w => [w.line]

/-- Whether a snoop for the line is unanswered. -/
def snooped (pl : Nat) (s : State) : Bool := s.hal.snoops.any (fun x => x.line = pl)
/-- Whether an earlier request waits at the line's home. -/
def awaited (pl : Nat) (s : State) : Bool := s.hal.waiting.any (fun r => r.lines.contains pl)

/-- Send a snoop for an HBM line the companion holds, unless one is outstanding for it (R291, R292). LINE carries the line's local offset. -/
def snoop (inv : Bool) (pl : Nat) (s : State) : State :=
  if snooped pl s then s
  else
    let t := s.hal.nextTx
    let s := addPair halBase R.HAL_RECALLS_LO_VALUE R.HAL_RECALLS_HI_VALUE 1 s
    halAsk (if inv then 0x08 else 0x09) 1 0 (localOf pl s / 128) 0 [] { s with hal := { s.hal with snoops := s.hal.snoops ++ [⟨t, pl, inv⟩] } }

/-- A read of an HBM line must wait: the companion owns it, or a transaction for it is open (R246, R292). -/
def readHeld (pl : Nat) (s : State) : Bool := sFind s.hal.dir pl = some .owned || snooped pl s || awaited pl s
/-- A write of an HBM line must wait: the companion holds a copy, or a transaction for it is open (R247, R292). -/
def writeHeld (pl : Nat) (s : State) : Bool := (sFind s.hal.dir pl).isSome || snooped pl s || awaited pl s

/-- Recall the companion's copy: for a read its ownership, for a write any copy. -/
def recallLine (inv : Bool) (pl : Nat) (s : State) : State :=
  match sFind s.hal.dir pl with
  | some .owned => snoop inv pl s
  | some .shared => if inv then snoop true pl s else s
  | none => s

/-! ### Depots (R245, R246) -/

/-- The dies whose Depots hold a line. -/
def DepotLine.holders (x : DepotLine) : List (Fin 4) := x.die :: x.more

/-- Write one Depot line back to HBM: a modified line is written whole and keeps its poison (R254, R255). A modified companion line goes to the companion as WB,
a request that its CMP completes (R291 to R293). -/
def writeBack (pl : Nat) (d : DepotLine) (s : State) : State :=
  if d.dirty then
    if pl ≥ compKey 0 then
      let s' := { s with hal := { s.hal with reqs := s.hal.reqs ++ [⟨s.hal.nextTx, pl - compKey 0, 0x14, .none⟩] } }
      halAsk 0x14 2 0 (winBase s / 128 + (pl - compKey 0)) (b2n d.poison) [d.data] s'
    else
      let s := hbmWrite (pl * 128) 128 d.data.toNat s
      if d.poison then poisonAdd pl s else s
  else s

/-- The Depot of die `d` gives up its copy of a line; a modified line is written back. -/
def depotGiveUp (d : Fin 4) (pl : Nat) (x : DepotLine) (s : State) : State :=
  match x.holders.filter (· ≠ d) with
  | [] => writeBack pl x { s with depot := sDel pl s.depot }
  | e :: m => { s with depot := sIns pl { x with die := e, more := m } s.depot }

/-- The lines that share a line's set in the Depot of die `d`: 65,536 sets of 16 ways (R245). That the line number's low bits select the set is a choice (log 183). -/
def waysOf (d : Fin 4) (pl : Nat) (s : State) : Store DepotLine :=
  s.depot.filter (fun e => e.2.holders.contains d && e.1 % 65536 = pl % 65536)

/-- Make room for a line in the Depot of die `d`: with 16 ways taken a victim leaves; which one, the pseudo-LRU history decides that this model leaves free (R245). -/
def depotRoom (d : Fin 4) (pl : Nat) (s : State) : State :=
  let w := waysOf d pl s
  if w.length < 16 then s
  else match w[Config.freeResult 102 s.fresh % w.length]? with
    | some e => depotGiveUp d e.1 e.2 { s with fresh := s.fresh + 1 }
    | none => s

/-- The lines of home `h` with a copy outside it: the entries its directory holds (R246). -/
def dirLines (h : Nat) (s : State) : List Nat :=
  ((s.depot.filter (fun e => e.1 < compKey 0 && homeDie e.1 = h && e.2.holders.any (fun d => d.val ≠ h))).map (·.1) ++
   (s.hal.dir.filter (fun e => homeDie e.1 = h)).map (·.1)).dedup

/-- The home recalls every copy of a line held outside it (R246, R253). -/
def recallAll (pl : Nat) (s : State) : State :=
  let s := match sFind s.depot pl with
    | some x => x.holders.foldl (fun s d => if d.val = homeDie pl then s else match sFind s.depot pl with
        | some y => depotGiveUp d pl y s
        | none => s) s
    | none => s
  recallLine true pl s

/-- Make room for a directory entry at a line's home: with all 4 Mi taken the copies of a victim are recalled and counted (R246). The sets of a directory are not
stated; the model takes one set, and leaves the victim free (log 183). -/
def dirRoom (pl : Nat) (s : State) : State :=
  let l := dirLines (homeDie pl) s
  if l.length < 4194304 ∨ l.contains pl then s
  else match l[Config.freeResult 103 s.fresh % l.length]? with
    | some v => recallAll v (addPair (depBase (homeDie pl)) R.DEP_BACKINV_LO_VALUE R.DEP_BACKINV_HI_VALUE 1 { s with fresh := s.fresh + 1 })
    | none => s

/-- A line enters the Depot of die `d`. -/
def depotPut (d : Fin 4) (pl : Nat) (x : DepotLine) (s : State) : State :=
  let s := if pl < compKey 0 ∧ d.val ≠ homeDie pl then dirRoom pl s else s
  let s := depotRoom d pl s
  { s with depot := sIns pl x s.depot }

/-- Write `n` bytes inside one line, coherently (R245, R247). With `alloc` the line comes into the Depot of that die as the only copy; otherwise a present
copy is updated and further copies are dropped, or HBM is written. -/
def lineWrite (alloc : Option (Fin 4)) (phys n v : Nat) (s : State) : State :=
  let pl := phys / 128
  let merged := BitVec.ofNat 1024 (putBits (lineNat pl s) (8 * (phys % 128)) (8 * n) v)
  let pois := if n = 128 then false else linePoison pl s
  match sFind s.depot pl, alloc with
  | some x, none => { s with depot := sIns pl ⟨merged, true, pois, x.die, [], x.own⟩ s.depot }
  | some x, some d =>
    if x.holders.contains d then { s with depot := sIns pl ⟨merged, true, pois, d, [], x.own⟩ s.depot }
    else depotPut d pl ⟨merged, true, pois, d, [], x.own⟩ s
  | none, some d => depotPut d pl ⟨merged, true, pois, d, [], true⟩ s
  | none, none => hbmWrite phys n v s

/-- A modified copy outside the line's home is written back and kept clean, before another copy is made (R246). -/
def depotClean (pl : Nat) (s : State) : State :=
  match sFind s.depot pl with
  | some x =>
    if x.dirty ∧ pl < compKey 0 ∧ x.die.val ≠ homeDie pl then writeBack pl x { s with depot := sIns pl { x with dirty := false } s.depot } else s
  | none => s

/-- Bring a line into the Depot of die `d`, clean, unless it holds it (R245): from another Depot's copy, else from HBM. -/
def depotFill (d : Fin 4) (pl : Nat) (s : State) : State :=
  match sFind s.depot pl with
  | some x =>
    if x.holders.contains d then s
    else match sFind (depotClean pl s).depot pl with
      | some y => depotPut d pl { y with more := y.more ++ [d] } (depotClean pl s)
      | none => s
  | none => depotPut d pl ⟨BitVec.ofNat 1024 (lineNat pl s), false, linePoison pl s, d, [], false⟩ s

/-- Drop a line from the Depots, its modified contents first written to HBM. -/
def depotDrop (pl : Nat) (s : State) : State :=
  match sFind s.depot pl with
  | some x => writeBack pl x { s with depot := sDel pl s.depot }
  | none => s

/-- Mark a line poisoned where it is held: in the Depot or in HBM (R236). -/
def poisonLine (pl : Nat) (s : State) : State :=
  match sFind s.depot pl with
  | some d => { s with depot := sIns pl { d with poison := true } s.depot }
  | none => poisonAdd pl s

/-- Write back the modified lines of the Depots that `sel` selects; with `inval` their copies are dropped, else kept clean (R255). A modified companion line is
given up by its write-back (R292). -/
def flushGo (sel : Fin 4 → Bool) (inval : Bool) : Store DepotLine → Store DepotLine → State → State
  | [], keep, s => { s with depot := keep.reverse }
  | (pl, x) :: m, keep, s =>
    let rest := if inval then x.holders.filter (fun d => !sel d) else x.holders
    let gone := x.dirty && sel x.die
    let s := if gone then writeBack pl x s else s
    if gone && (inval || decide (pl ≥ compKey 0)) then flushGo sel inval m keep s
    else match rest with
      | [] => flushGo sel inval m keep s
      | d :: ds => flushGo sel inval m ((pl, { x with dirty := x.dirty && !gone, die := d, more := ds }) :: keep) s

/-- Flush (R255). -/
def flush (sel : Fin 4 → Bool) (inval : Bool) (s : State) : State := flushGo sel inval s.depot [] s

/-! ### Tile SRAM and the Depot control windows -/

/-- Tile SRAM bytes. -/
def tileAddr (p a : Nat) : Nat := p * 2 ^ 23 + a
def tileReadN (p a n : Nat) (s : State) : Nat := memReadN zeroByte s.tileSram (tileAddr p a) n
def tileWriteN (p a n v : Nat) (s : State) : State := { s with tileSram := memWriteN zeroByte (tileAddr p a) v n s.tileSram }

/-- Key among the poisoned lines of a line of tile SRAM. -/
def tileKey (p a : Nat) : Nat := 2 ^ 34 + tileAddr p a / 128
/-- Write `n` bytes inside one line of tile SRAM as a Porter does: poisoned data mark the line, a whole line without poison clears the mark (R236). -/
def tilePut (p a n v : Nat) (poison : Bool) (s : State) : State :=
  let s := tileWriteN p a n v s
  if poison then poisonAdd (tileKey p a) s
  else if n = 128 then { s with poison := s.poison.filter (· ≠ tileKey p a) } else s

/-- Whether one of `n` bytes of tile SRAM lies in a poisoned line. -/
def tileMarked (p a n : Nat) (s : State) : Bool :=
  (List.range ((a % 128 + n + 127) / 128)).any (fun i => s.poison.contains (tileKey p (a - a % 128 + 128 * i)))
/-- The bytes of tile SRAM that lie in poisoned lines: an engine's reads of them are uncorrectable errors (R94, R128, R194, R236). -/
def tileMarks (p : Nat) (s : State) : List Nat :=
  (s.poison.filter (fun l => decide (tileKey p 0 ≤ l) && decide (l < tileKey (p + 1) 0))).flatMap (fun l =>
    (List.range 128).map (fun i => (l - tileKey p 0) * 128 + i))
/-- The first byte that a list names of each line. -/
def lineFirsts (l : List Nat) : List Nat := l.filter (fun a => !l.any (fun b => decide (b < a) && decide (b / 128 = a / 128)))
/-- Write a row of tile SRAM; the lines it covers whole lose their marks (R236). -/
def tileWriteRow (p a n v : Nat) (s : State) : State :=
  let s := tileWriteN p a n v s
  { s with poison := s.poison.filter (fun l =>
      !(decide (2 ^ 34 * 128 + tileAddr p a ≤ l * 128) && decide (l * 128 + 128 ≤ 2 ^ 34 * 128 + tileAddr p a + n))) }

/-- A byte of a Depot control window: what SERVICE has written there, else a free value: the layout of the data and tag arrays is not stated (R232, log 184). -/
def ctlByte (d a : Nat) (s : State) : Nat :=
  match sFind s.depotCtl (d * 2 ^ 24 + a) with
  | some b => b.toNat
  | none => Config.freeResult 1 (d * 2 ^ 24 + a) % 256
/-- Bytes of a Depot control window, little-endian. -/
def ctlRead (d a n : Nat) (s : State) : Nat := packBits 8 ((List.range n).map (fun i => ctlByte d (a + i) s))
/-- Write bytes of a Depot control window. -/
def ctlWrite (d a n v : Nat) (s : State) : State :=
  { s with depotCtl := (List.range n).foldl (fun m i => sIns (d * 2 ^ 24 + a + i) (BitVec.ofNat 8 (v / 256 ^ i)) m) s.depotCtl }

/-! ### Reading local memory -/

/-- The 128 bytes of the line at a local offset (a multiple of 128), as local memory holds it; 0 where nothing is readable. -/
def localLine (off : Nat) (s : State) : Nat :=
  match target off s with
  | .hbm p => lineNat (p / 128) s
  | .tile p a => tileReadN p a 128 s
  | .companion w => match sFind s.depot (compKey (w / 128)) with
    | some d => d.data.toNat
    | none => 0
  | _ => 0

/-- Whether the line at a local offset reads poisoned. -/
def localPoison (off : Nat) (s : State) : Bool :=
  match target off s with
  | .hbm p => linePoison (p / 128) s
  | .tile p a => s.poison.contains (tileKey p a)
  | .companion w => match sFind s.depot (compKey (w / 128)) with
    | some d => d.poison
    | none => false
  | _ => false

/-- `n` bytes at local offset `off`, line by line; `fuel` bounds the lines. -/
def readOffGo (s : State) : Nat → Nat → Nat → Nat
  | 0, _, _ => 0
  | fuel + 1, off, n =>
    if n = 0 then 0
    else
      let k := off % 128
      let m := min n (128 - k)
      bitsAt (localLine (off - k) s) (8 * k) (8 * m) + 2 ^ (8 * m) * readOffGo s fuel (off + m) (n - m)

/-- `n` bytes at local offset `off` as a little-endian number (R12). -/
def readOff (off n : Nat) (s : State) : Nat := readOffGo s (n / 128 + 2) off n

/-- Whether any of `n` bytes at a local offset lies in a poisoned line. -/
def poisonOff (off n : Nat) (s : State) : Bool :=
  (List.range ((off % 128 + n + 127) / 128)).any (fun i => localPoison (off - off % 128 + 128 * i) s)

/-- Whether `n` bytes at a local offset lie wholly in the HBM windows. -/
def inHbm (off n : Nat) (s : State) : Bool :=
  let isH := fun o => match target o s with
    | .hbm _ => true
    | _ => false
  n = 0 || (isH off && isH (off + n - 1) && (off / 2 ^ 36 = (off + n - 1) / 2 ^ 36 || off ≥ 2 ^ 44) && off + n ≤ 2 ^ 48)

end Sys2Proof.Machine
end

