-- ==== Sys2Proof/Machine/Elem.lean ====
section
/-! DEFINITION. The element-wise operations of the vector engine and of the short-vector extension, one element at a time
(R59 to R62, R103 to R108), and the reduction tree (R109). -/

namespace Sys2Proof.Machine

/-- Shift right with rounding under RM: 0 nearest even, 1 nearest ties up, 2 toward zero, 3 toward minus infinity (R108). -/
def rndShift (v : Int) (sh rm : Nat) : Int :=
  if sh = 0 then v
  else
    let p : Int := ((2 ^ sh : Nat) : Int)
    let q := v / p
    let r := v % p
    if rm = 0 then if 2 * r > p ∨ (2 * r = p ∧ q % 2 = 1) then q + 1 else q
    else if rm = 1 then if 2 * r ≥ p then q + 1 else q
    else if rm = 2 then if v < 0 ∧ r ≠ 0 then q + 1 else q
    else q

/-- Clamp to `w` bits; SATD where it clamps (R108). -/
def satI (w : Nat) (i : Int) : Nat × Nat := (wrap w (clampS w i), if clampS w i = i then 0 else flSATD)

/-- A canonical NaN for a NaN operand, else the pattern (R37). -/
def canon (f : Fmt) (v bits : Nat) : Nat := if (decodeF f v).isNan then nanOf f else bits

/-- VGETEXP (R106). -/
def getExp (f : Fmt) (x : Nat) : Nat × Nat :=
  match decodeF f x with
  | .nan s => (nanOf f, if s then flNV else 0)
  | .inf _ => (infOf f false, 0)
  | .fin _ m e => if m = 0 then (infOf f true, 0) else roundDy f false false ⟨e + (bitLen m : Int) - 1, 0⟩

/-- VGETMANT (R106). -/
def getMant (f : Fmt) (x : Nat) : Nat × Nat :=
  match decodeF f x with
  | .nan s => (nanOf f, if s then flNV else 0)
  | .inf _ => (nanOf f, flNV)
  | .fin n m _ => if m = 0 then (withSign f n 0, 0) else roundTo .rne f false n m (1 - (bitLen m : Int))

/-- VSCALE (R106): s1 × 2^n, n the truncated s2. For an infinite s2 the spec states no result: a free value, and no flag (DESIGN CHOICE, log 194). -/
def scaleF (f : Fmt) (x y : Nat) : Nat × Nat :=
  match decodeF f x, decodeF f y with
  | .nan s, b => (nanOf f, if s || b.isSnan then flNV else 0)
  | _, .nan s => (nanOf f, if s then flNV else 0)
  | _, .inf _ => (Config.freeResult 20 (x + y * 2 ^ 64) % 2 ^ f.bits, 0)
  | .inf n, _ => (infOf f n, 0)
  | .fin n m e, .fin yn ym ye =>
    let k := (quantize .rtz yn (if ye > 20 then (if ym = 0 then 0 else 1) else ym) (min ye 20) 0).1
    let k : Int := ((min k 5000 : Nat) : Int)
    roundTo .rne f false n m (if m = 0 then 0 else e + (if yn then -k else k))

/-- VROUNDI (R106, R108): to an integral value under RM, never NX. -/
def roundI (f : Fmt) (rm x : Nat) : Nat × Nat :=
  match decodeF f x with
  | .nan s => (nanOf f, if s then flNV else 0)
  | .inf n => (infOf f n, 0)
  | .fin n m e =>
    if e ≥ 0 then (x % 2 ^ f.bits, 0)
    else
      let v : Int := if n then -(m : Int) else m
      let i := rndShift v (min (-e).toNat 4000) rm
      (roundDy f false n ⟨i, 0⟩).1 |> fun b => (b, 0)

/-- The class bits of a value (R103): 0 NaN, 1 infinity, 2 zero, 3 subnormal, 4 negative. -/
def classBits (f : Fmt) (x : Nat) : Nat :=
  let v := decodeF f x
  let mag := x % 2 ^ (f.ew + f.fw)
  b2n v.isNan + 2 * b2n v.isInf + 4 * b2n v.isZero + 8 * b2n (!v.special && mag ≠ 0 && mag < 2 ^ f.fw) + 16 * b2n v.isNeg

/-- VCVT (R59, R62, R107): from format code `src` to format code `dst`. SAT acts on BF16, FP16, E4M3 and E5M2 destinations; FP32 overflows to infinity (R59). -/
def convert (sat : Bool) (src dst : Nat) (x : Nat) : Nat × Nat :=
  let sat := sat && (dst = 0 || dst = 1 || dst = 6 || dst = 7)
  match fmtOf src, fmtOf dst with
  | some fs, some fd => cvtV fd sat (decodeF fs x)
  | some fs, none => let (i, fl) := toIntV .rne (codeBits dst) (decodeF fs x); (wrap (codeBits dst) i, fl)
  | none, some fd => ofIntV fd sat (signed (codeBits src) x)
  | none, none =>
    let i := signed (codeBits src) x
    (wrap (codeBits dst) (clampS (codeBits dst) i), if clampS (codeBits dst) i = i then 0 else flOF + flNX)

/-- Floating-point element operations of OPC 0x00 to 0x13 (R103, R106). -/
def elemFp (opc rm : Nat) (f : Fmt) (x y z : Nat) : Nat × Nat :=
  let a := decodeF f x
  let b := decodeF f y
  let c := decodeF f z
  match opc with
  | 0x00 => addV f a b
  | 0x01 => subV f a b
  | 0x02 => mulV f a b
  | 0x03 => fmaV f a b c
  | 0x04 => fmaV f a b c.flip
  | 0x05 => fmaV f a.flip b c
  | 0x06 => minmaxV f false false x y
  | 0x07 => minmaxV f true false x y
  | 0x08 => minmaxV f false true x y
  | 0x09 => minmaxV f true true x y
  | 0x0A => (canon f x (x % 2 ^ (f.ew + f.fw)), 0)
  | 0x0B => (canon f x (withSign f (!a.isNeg) (x % 2 ^ (f.ew + f.fw))), 0)
  | 0x0C => (canon f x (withSign f (bitAt y (f.ew + f.fw)) (x % 2 ^ (f.ew + f.fw))), 0)
  | 0x10 => getExp f x
  | 0x11 => getMant f x
  | 0x12 => scaleF f x y
  | _ => roundI f rm x

/-- Comparison OPC 0x20 to 0x26 on a floating-point format (R60). -/
def cmpFp (opc : Nat) (f : Fmt) (x y : Nat) : Bool × Nat :=
  let a := decodeF f x
  let b := decodeF f y
  match opc with
  | 0x20 => cmpV true eqV false a b
  | 0x21 => cmpV true (fun a b => !eqV a b) true a b
  | 0x22 => cmpV false ltV false a b
  | 0x23 => cmpV false (fun a b => !ltV b a) false a b
  | 0x24 => cmpV false (fun a b => ltV b a) false a b
  | 0x25 => cmpV false (fun a b => !ltV a b) false a b
  | _ => cmpV true (fun _ _ => false) true a b

/-- Comparison on signed integers; nothing is unordered. -/
def cmpInt (opc w x y : Nat) : Bool :=
  let a := signed w x
  let b := signed w y
  match opc with
  | 0x20 => a = b
  | 0x21 => a ≠ b
  | 0x22 => a < b
  | 0x23 => a ≤ b
  | 0x24 => a > b
  | 0x25 => a ≥ b
  | _ => false

/-- Integer, logic, shift, saturating and fixed-point operations OPC 0x40 to 0x5C on `w`-bit lanes (R103, R108). -/
def elemInt (opc rm w x y z : Nat) : Nat × Nat :=
  let a := signed w x
  let b := signed w y
  let c := signed w z
  let sh := y % w
  match opc with
  | 0x40 => (wrap w (a + b), 0)
  | 0x41 => (wrap w (a - b), 0)
  | 0x42 => (wrap w (a * b), 0)
  | 0x43 => ((x &&& y) % 2 ^ w, 0)
  | 0x44 => ((x ||| y) % 2 ^ w, 0)
  | 0x45 => ((x ^^^ y) % 2 ^ w, 0)
  | 0x46 => (2 ^ w - 1 - x % 2 ^ w, 0)
  | 0x47 => ((x <<< sh) % 2 ^ w, 0)
  | 0x48 => ((x % 2 ^ w) >>> sh, 0)
  | 0x49 => (wrap w (a / ((2 ^ sh : Nat) : Int)), 0)
  | 0x4A => (((x % 2 ^ w) <<< sh) % 2 ^ w + ((x % 2 ^ w) >>> (w - sh)), 0)
  | 0x4B => (wrap w (min a b), 0)
  | 0x4C => (wrap w (max a b), 0)
  | 0x4D => (wrap w (a.natAbs : Int), 0)
  | 0x50 => satI w (a + b)
  | 0x51 => satI w (a - b)
  | 0x52 => satI w (a * b)
  | 0x53 => satI w (a.natAbs : Int)
  | 0x54 => satI w (-a)
  | 0x55 => satI 8 a
  | 0x58 => satI w (rndShift (a * b) (w - 1) rm)
  | 0x59 => satI w (c + rndShift (a * b) (w - 1) rm)
  | 0x5A => satI w (rndShift a sh rm)
  | 0x5B => satI 8 (rndShift a (y % 32) rm)
  | _ => (wrap w (rndShift (a + b) 1 rm), 0)

/-! ### The reduction tree (R109) -/

/-- The accumulation format of a reduction. -/
def accFmt (fmt : Nat) : Fmt := if fmt = 9 then fp64 else fp32

/-- The identity of a reduction opcode in its accumulation format. -/
def redIdentity (opc fmt : Nat) : Nat :=
  let f := accFmt fmt
  match opc with
  | 0x60 => withSign f true 0
  | 0x61 => withSign f true 0
  | 0x62 => infOf f true
  | 0x63 => infOf f false
  | 0x64 => 0
  | 0x65 => 0
  | _ => 2 ^ (codeBits fmt - 1)

/-- The leaf an element gives: widened exactly, squared, or its magnitude; integers as 64-bit values. -/
def redLeaf (opc fmt x : Nat) : Nat × Nat :=
  let w := codeBits fmt
  if opc = 0x65 then (wrap 64 (signed w x), 0)
  else if opc = 0x66 then (x % 2 ^ w, 0)
  else
    let f := accFmt fmt
    let v := match fmtOf fmt with
      | some g => decodeF g x
      | none => .fin false 0 0
    if opc = 0x61 then mulV f v v
    else match v with
      | .nan s => (nanOf f, if s then flNV else 0)
      | .inf n => (infOf f (n && opc ≠ 0x64), 0)
      | .fin n m e => ((roundTo .rne f false (n && opc ≠ 0x64) m e).1, 0)

/-- One combine of two present values. -/
def redCombine (opc fmt : Nat) (a b : Nat) : Nat × Nat :=
  let f := accFmt fmt
  if opc = 0x65 then ((a + b) % 2 ^ 64, 0)
  else if opc = 0x66 then (if signed (codeBits fmt) a < signed (codeBits fmt) b then b else a, 0)
  else if opc = 0x62 ∨ opc = 0x64 then minmaxV f true false a b
  else if opc = 0x63 then minmaxV f false false a b
  else addV f (decodeF f a) (decodeF f b)

/-- Combine two leaves that may be absent, gathering flags. -/
def redPair (opc fmt : Nat) (a b : Option Nat × Nat) : Option Nat × Nat :=
  match a.1, b.1 with
  | none, _ => (b.1, a.2 ||| b.2)
  | _, none => (a.1, a.2 ||| b.2)
  | some x, some y => let (r, fl) := redCombine opc fmt x y; (some r, a.2 ||| b.2 ||| fl)

/-- One level of the tree: adjacent pairs. -/
def redLevel (opc fmt : Nat) : List (Option Nat × Nat) → List (Option Nat × Nat)
  | a :: b :: m => redPair opc fmt a b :: redLevel opc fmt m
  | m => m

/-- The tree over one strip; `fuel` levels. -/
def redTree (opc fmt : Nat) : Nat → List (Option Nat × Nat) → Option Nat × Nat
  | 0, m => m.headD (none, 0)
  | n + 1, m => match m with
    | [] => (none, 0)
    | [a] => a
    | _ => redTree opc fmt n (redLevel opc fmt m)

/-- The strips in ascending order, `n` lanes each; `fuel` bounds them. -/
def redStrips (opc fmt n : Nat) : Nat → List (Option Nat × Nat) → Option Nat × Nat → Option Nat × Nat
  | 0, _, acc => acc
  | k + 1, m, acc =>
    if m.isEmpty then acc
    else
      let strip := m.take n
      let strip := strip ++ List.replicate (n - strip.length) (none, 0)
      redStrips opc fmt n k (m.drop n) (redPair opc fmt acc (redTree opc fmt 9 strip))

/-- A reduction over elements, `none` where inactive: result and flags (R109). -/
def reduce (opc fmt n : Nat) (xs : List (Option Nat)) : Nat × Nat :=
  let leaves := xs.map (fun x => match x with
    | none => ((none : Option Nat), 0)
    | some v => let (b, fl) := redLeaf opc fmt v; (some b, fl))
  let r := redStrips opc fmt n (xs.length / n + 1) leaves (none, 0)
  (r.1.getD (redIdentity opc fmt), r.2)

end Sys2Proof.Machine
end

