-- ==== Sys2Proof/Machine/Reduce.lean ====
section
/-! DEFINITION. Reducing writes at the home Depot (R250, R251). -/

namespace Sys2Proof.Machine

/-- One word of a reducing write (R250, R251). -/
def reduceWord (op a b : Nat) : Nat :=
  match op with
  | 1 => (a + b) % 2 ^ 64
  | 2 => (a % 2 ^ 32 + b % 2 ^ 32) % 2 ^ 32 + (a / 2 ^ 32 + b / 2 ^ 32) % 2 ^ 32 * 2 ^ 32
  | 3 => if signed 64 a < signed 64 b then b else a
  | 4 => if signed 64 b < signed 64 a then b else a
  | 5 => (minmaxV fp64 true false a b).1
  | 6 => (minmaxV fp64 false false a b).1
  | _ => a ||| b

/-- The identity of a reducing operation as a 64-bit word (R251). -/
def reduceIdentity (op : Nat) : Nat :=
  match op with
  | 3 => 2 ^ 63
  | 4 => 2 ^ 63 - 1
  | 5 => infOf fp64 true
  | 6 => infOf fp64 false
  | _ => 0

/-- The 16 words of a line combined. -/
def reduceWords (op a b : Nat) : Nat :=
  packBits 64 ((List.range 16).map (fun i => reduceWord op (bitsAt a (64 * i) 64) (bitsAt b (64 * i) 64)))

/-- A reducing write of a whole line into physical line `pl` (R250): the home Depot holds the result; poison on either side stays. -/
def reduceLine (op pl data : Nat) (poison : Bool) (s : State) : State :=
  let p := linePoison pl s || poison
  let s := addPair (depBase (homeDie pl)) R.DEP_REDUCE_LO_VALUE R.DEP_REDUCE_HI_VALUE 1 s
  let s := lineWrite (some (Fin.ofNat 4 (homeDie pl))) (pl * 128) 128 (reduceWords op (lineNat pl s) data) s
  if p then poisonLine pl s else s

end Sys2Proof.Machine
end

