-- ==== Sys2Proof/Machine/Home.lean ====
section
/-! DEFINITION. Writes at a line's home: at once, or in order after the companion has given its copy up (R18, R23, R247, R252, R292); lines of the companion window,
whose home is the companion (R290, R291); and writes at local offsets. -/

namespace Sys2Proof.Machine

/-- Whether a write or a companion request of an owner is still to be performed. -/
def writesOpen (o : Owner) (s : State) : Bool :=
  s.hal.waiting.any (fun r => match r with
    | .write w => decide (w.owner = o)
    | _ => false) ||
  s.hal.reqs.any (fun r => r.owner = o && r.opc = 0x05)

/-- Keep a request at its line's home, behind those that wait. -/
def homeWait (r : HomeReq) (s : State) : State := { s with hal := { s.hal with waiting := s.hal.waiting ++ [r] } }

/-- The die whose Depot an engine's traffic allocates in when that die's DEP_CFG.STREAM_ALLOC is 1 (R245): the engine's own die; for an engine of the command die or
a fabric die the line's home, and Depot 0 for a companion line (log 185). -/
def ownerDie (o : Owner) (pl : Nat) : Nat :=
  match o with
  | .eng k =>
    if k < 288 then k / 72 else if k < 576 then (k - 288) / 72
    else if k < 684 then (k - 576) % 36 / 9
    else if k < 688 then k - 684
    else if pl ≥ compKey 0 then 0 else homeDie pl
  | _ => if pl ≥ compKey 0 then 0 else homeDie pl

/-- Whether engine traffic allocates in the Depot of die `d` (R245). -/
def streamAlloc (d : Nat) (s : State) : Bool := effF (depBase d) R.DEP_CFG_STREAM_ALLOC R.DEP_CFG_LEVEL s = 1

/-- Where a write of an owner allocates. -/
def writeAlloc (o : Owner) (pl : Nat) (s : State) : Option (Fin 4) :=
  match o with
  | .eng _ => if streamAlloc (ownerDie o pl) s then some (Fin.ofNat 4 (ownerDie o pl)) else none
  | _ => none

/-- Perform a write at its line. -/
def writeDo (w : HeldWrite) (s : State) : State :=
  if w.op = 0 then
    let s := lineWrite (writeAlloc w.owner w.line s) (w.line * 128 + w.off) w.n w.data s
    if w.poison then poisonLine w.line s else s
  else reduceLine w.op w.line w.data w.poison s

/-- A write of an HBM line: it waits for other copies to be given up, behind earlier requests for the line (R247, R292). -/
def homeWrite (w : HeldWrite) (s : State) : State :=
  if writeHeld w.line s then homeWait (.write w) (recallLine true w.line s) else writeDo w s

/-! ### The companion window (R290, R291) -/

/-- Send a Halter request for a companion-window line, unless this owner has one outstanding for that line (R290, R291). -/
def halRequest (opc : Nat) (wline : Nat) (owner : Owner) (s : State) : State :=
  if s.hal.reqs.any (fun r => r.line = wline ∧ r.owner = owner) then s
  else halAsk opc 0 0 (winBase s / 128 + wline) 0 [] { s with hal := { s.hal with reqs := s.hal.reqs ++ [⟨s.hal.nextTx, wline, opc, owner⟩] } }

/-- Write one whole companion-window line, not cached: a request that its CMP completes. -/
def halWrFull (w : HeldWrite) (s : State) : State :=
  let s' := { s with hal := { s.hal with reqs := s.hal.reqs ++ [⟨s.hal.nextTx, w.line - compKey 0, 0x05, w.owner⟩] } }
  halAsk 0x05 0 0 (winBase s / 128 + (w.line - compKey 0)) (b2n w.poison) [BitVec.ofNat 1024 w.data] s'

/-- A write into a companion-window line: into the only copy a Depot holds; a whole line that no Depot holds as WR_FULL; else once the companion has granted the
only copy, which the package then holds (a choice: no message writes part of a line, log 185). -/
def compWrite (w : HeldWrite) (s : State) : State :=
  let ask := fun (opc : Nat) => homeWait (.write w) (halRequest opc (w.line - compKey 0) w.owner s)
  match sFind s.depot w.line with
  | some x => if x.own && !awaited w.line s then writeDo w s else ask 0x03
  | none => if w.n = 128 && !awaited w.line s then halWrFull w s else ask 0x02

/-- Perform the writes that waited for a companion-window line, in order. -/
def compRelease (key : Nat) (s : State) : State :=
  let mine := fun (r : HomeReq) => match r with
    | .write w => decide (w.line = key)
    | _ => false
  let ws := s.hal.waiting.filter mine
  ws.foldl (fun s r => match r with
    | .write w => writeDo w s
    | _ => s) { s with hal := { s.hal with waiting := s.hal.waiting.filter (fun r => !mine r) } }

/-! ### Writes at local offsets -/

/-- One write inside one line at a local offset, by `o`. A reducing write of part of a line has the identity in the rest (R189, R251). -/
def putLine (o : Owner) (off n v : Nat) (poison : Bool) (s : State) : State :=
  match target off s with
  | .hbm p => homeWrite ⟨o, p / 128, p % 128, n, v, 0, poison⟩ s
  | .reduction op p =>
    if op = 0 then s
    else homeWrite ⟨o, p / 128, 0, 128, putBits (packBits 64 (List.replicate 16 (reduceIdentity op))) (8 * (p % 128)) (8 * n) v, op, poison⟩ s
  | .tile p a => tilePut p a n v poison s
  | .companion w => compWrite ⟨o, compKey (w / 128), w % 128, n, v, 0, poison⟩ s
  | _ => s

/-- Write `n` bytes at local offset `off` by `o`, line by line; `fuel` bounds the lines. -/
def writeByGo (o : Owner) : Nat → Nat → Nat → Nat → State → State
  | 0, _, _, _, s => s
  | fuel + 1, off, n, v, s =>
    if n = 0 then s
    else
      let m := min n (128 - off % 128)
      writeByGo o fuel (off + m) (n - m) (v / 2 ^ (8 * m)) (putLine o off m (v % 2 ^ (8 * m)) false s)

/-- Write `n` bytes at a local offset by `o`. -/
def writeBy (o : Owner) (off n v : Nat) (s : State) : State := writeByGo o (n / 128 + 2) off n v s

/-- Write `n` bytes at a local offset by the package itself, which writes HBM and companion memory only: tile SRAM is written by its own cluster and by Porters (R22). -/
def writeOff (off n v : Nat) (s : State) : State :=
  match target off s with
  | .hbm _ | .companion _ => writeBy .none off n v s
  | _ => s

end Sys2Proof.Machine
end

