-- ==== Sys2Proof/Machine/Mesg.lean ====
section
/-! DEFINITION. Sending: Caravan and Route messages and frames, routing, and requests with their timers (R263 to R268, R272, R285 to R287). -/

namespace Sys2Proof.Machine

/-- Fabric die `f`. -/
def getFab (f : Nat) (s : State) : FabDie := sGet FabDie.init s.fab f
/-- Replace fabric die `f`. -/
def setFab (f : Nat) (x : FabDie) (s : State) : State := { s with fab := sSet FabDie.init f x s.fab }

/-- A table word of fabric die `f` (tables at + 0x2_0000). -/
def tabWord (f off : Nat) (s : State) : Nat := (csrGet 0 (tabBase f + off) s).toNat
/-- Whether package `n` is in the active member map (R280). -/
def isMember (f n : Nat) (s : State) : Bool := n < 0x8000 && bitAt (tabWord f (0x1000 + 4 * (n / 32)) s) (n % 32)

/-- The plane a message takes: the exclusive OR of SRC, DST and LINE bits [15:0], folded to the number of planes by
its low bits (R268; the fold is a choice of this model and affects timing only). -/
def planeOf (src dst line : Nat) (s : State) : Nat :=
  let h := src ^^^ dst ^^^ (line % 2 ^ 16)
  if dst / 64 = pkgNum s / 64 then h % 2 else h / 2 % 2

/-- The header of a message this package sends (R263). -/
def header (fd opc vc len : Nat) (lat : Bool) (dst txid line pmask : Nat) (s : State) : MsgHdr :=
  ⟨BitVec.ofNat 4 opc, BitVec.ofNat 2 vc, 0, BitVec.ofNat 3 len, lat, BitVec.ofNat 2 (getF (fabBase fd) R.FAB_EPOCH_CURRENT s),
   BitVec.ofNat 16 (getF (fabBase fd) R.FAB_JOB_TAG s), BitVec.ofNat 16 (pkgNum s), BitVec.ofNat 16 dst,
   BitVec.ofNat 15 txid, BitVec.ofNat 41 line, BitVec.ofNat 8 pmask⟩

/-! ### Routing (R265 to R268) -/

/-- The coordinate of a slot on an axis, 0 for x, 1 for y, 2 for z (R28). -/
def coord (slot axis : Nat) : Nat := slot / 4 ^ (2 - axis) % 4
/-- The six axis orders of a slot-table entry (R267). -/
def axisOrder (code : Nat) : List Nat :=
  match code with
  | 0 => [0, 1, 2] | 1 => [0, 2, 1] | 2 => [1, 0, 2] | 3 => [1, 2, 0] | 4 => [2, 0, 1] | _ => [2, 1, 0]
/-- The port of fabric die `f` that corrects the first axis in which two slots differ (R265, R267). -/
def hopPort (f self dst code : Nat) : Option Nat :=
  match (axisOrder code).find? (fun a => coord self a ≠ coord dst a) with
  | none => none
  | some a =>
    let d := (coord dst a + 4 - coord self a) % 4
    some (9 * f + 3 * a + (if d = 1 then 0 else if d = 3 then 1 else 2))
/-- Whether port `p` is ACTIVE. -/
def portUsable (p : Nat) (s : State) : Bool := getF (portBase p) R.PORT_STATUS_STATE s = 5
/-- Whether port `p` carries a message of channel `vc`: an ACTIVE port carries only VC3 until the far end reports ACTIVE (R277). -/
def portCarries (vc p : Nat) (s : State) : Bool := portUsable p s && (vc = 3 || (getLink p s).farActive)
/-- The far end of port `p` has shown itself ACTIVE (R277). -/
def portFar (p : Nat) (s : State) : State := setLink p { getLink p s with farActive := true } s
/-- The next hop of a message of channel `vc` for slot `dst` on die `f` under the slot table at `tab`: the entry's order, else the first remaining order
whose next hop is usable (R267). -/
def nextHop (vc f tab dst : Nat) (s : State) : Option Nat :=
  let e := tabWord f (tab + 8 * dst) s
  let self := pkgNum s % 64
  if e % 2 = 0 then none
  else (bitsAt e 1 3 :: (List.range 6)).findSome? (fun c =>
    match hopPort f self dst c with
    | some p => if portCarries vc p s then some p else none
    | none => none)
/-- The next hop on the message's plane, or, where that plane has none, on the other (R276). -/
def pathHop (vc f tab dst : Nat) (s : State) : Option Nat :=
  match nextHop vc f tab dst s with
  | some p => some p
  | none => nextHop vc (1 - f) tab dst s

/-! ### Route frames (R286, R287) -/

/-- The key of a peer's transport state on a fabric die. -/
def peerKey (fd peer : Nat) : Nat := fd * 65536 + peer
/-- Transport state of a peer. -/
def getPeer (k : Nat) (s : State) : RoutePeer := sGet RoutePeer.init s.peers k
/-- Replace a peer's transport state. -/
def setPeer (k : Nat) (x : RoutePeer) (s : State) : State := { s with peers := sIns k x s.peers }

/-- The 32 bytes of a transport header, most significant first (R286). -/
def routeHdrBytes (f : RouteFrame) : List Byte :=
  (natBytes (f.nslots.toNat + f.epoch.toNat * 2 ^ 62 + f.sack.toNat * 2 ^ 64 + f.ackSeq.toNat * 2 ^ 96 + f.seq.toNat * 2 ^ 128 +
    f.dst.toNat * 2 ^ 176 + f.src.toNat * 2 ^ 192 + f.tag.toNat * 2 ^ 208 + f.flags.toNat * 2 ^ 240 + f.typ.toNat * 2 ^ 248 +
    f.ver.toNat * 2 ^ 252) 32).reverse
/-- The CRC-32C over the transport header and the messages (R286). -/
def routeCrc (f : RouteFrame) : Nat := crc32c (routeHdrBytes f ++ f.slots.flatMap (fun x => (natBytes x.toNat 16).reverse))

/-- SACK bits for the SEQs received beyond `nxt`: bit i for nxt + i (a choice of this model: R287 names the bitmap only). -/
def sackBits (nxt : BitVec 32) (l : List (BitVec 32)) : Nat :=
  l.foldl (fun m q => let d := (q - nxt).toNat; if d < 32 then m ||| 2 ^ d else m) 0

/-- The fabric die of a Route port. -/
def routeDie (r : Nat) : Nat := r / 2
/-- The MAC address of Route port `r` of package `n`: 02-xx-nn-nn-00-0r (R285). -/
def routeMac (byte n r : Nat) : BitVec 48 := BitVec.ofNat 48 (r % 16 + n % 2 ^ 16 * 2 ^ 16 + byte % 256 * 2 ^ 32 + 2 * 2 ^ 40)
/-- The broadcast address. -/
def broadcastMac : BitVec 48 := BitVec.allOnes 48
/-- The Ethernet FCS of a frame, which the MAC of IEEE 802.3 forms: a free value of the frame's contents (R285, log 186). -/
def frameFcs (f : RouteFrame) : Nat :=
  Config.freeResult 97 (packBits 48 ([f.dmac.toNat, f.smac.toNat, f.crc.toNat, f.seq.toNat] ++ f.slots.map BitVec.toNat))

/-- A frame of Route port `r` of this package for `dst` (R285, R286), to the port of the same number there (a choice, log 186); an announce frame goes to the broadcast
address. ACK_SEQ names the last SEQ received in order. The value of VER is not stated. -/
def routeFrame (r typ dst : Nat) (seq : BitVec 32) (slots : List Slot) (p : RoutePeer) (s : State) : RouteFrame :=
  let fd := routeDie r
  let b := rtBase fd
  let mb := getF b R.RT_MAC_BYTE_BYTE s
  let tagged := getF b R.RT_CFG_VLAN_EN s = 1
  let f : RouteFrame :=
    ⟨if typ = 2 then broadcastMac else routeMac mb dst r, routeMac mb (pkgNum s) r,
     if tagged then some (BitVec.ofNat 12 (getF b R.RT_CFG_VID s)) else none, if tagged then BitVec.ofNat 3 (getF b R.RT_CFG_PCP s) else 0, 0xA3C1,
     BitVec.ofNat 4 (Config.freeResult 72 0), BitVec.ofNat 4 typ, if typ = 0 ∧ seq = 0 then 1 else 0,
     BitVec.ofNat 16 (getF (fabBase fd) R.FAB_JOB_TAG s), BitVec.ofNat 16 (pkgNum s), BitVec.ofNat 16 dst, seq, p.rxNext - 1,
     BitVec.ofNat 32 (sackBits p.rxNext p.rxBeyond), BitVec.ofNat 2 (getF (fabBase fd) R.FAB_EPOCH_CURRENT s),
     BitVec.ofNat 16 slots.length, 0, slots, 0⟩
  let f := { f with crc := BitVec.ofNat 32 (routeCrc f) }
  { f with fcs := BitVec.ofNat 32 (frameFcs f) }

/-- Peers for which a fabric die keeps transport state. -/
def peersOf (fd : Nat) (s : State) : List (Nat × RoutePeer) := s.peers.filter (fun e => e.1 / 65536 = fd)
/-- Slots a frame holds at most (R286). -/
def frameSlots (fd : Nat) (s : State) : Nat := if effF (rtBase fd) R.RT_CFG_JUMBO R.RT_CFG_LEVEL s = 1 then 560 else 91

/-- Whether a message is a reducing write: a WR whose LINE lies in the reduction window (R264). -/
def isReducing (m : Msg) : Bool := m.hdr.opc = 3 && decide (3 * 2 ^ 44 ≤ m.hdr.line.toNat * 128) && decide (m.hdr.line.toNat * 128 < 2 ^ 46)
/-- LOCAL source number of a fabric die. -/
def srcFab (fd : Nat) : Nat := 0x9000 + fd * 32 + 31
/-- The fabric die cannot tell whether an unacknowledged reducing write was combined (R275). -/
def redUncertain (fd src : Nat) (s : State) : State :=
  raise src 0x56 2 0 0 (setF (fabBase fd) R.FAB_STATUS_RED_UNCERTAIN 1 s)

/-! Messages out of slots (R260, R263). -/

/-- The slots after a Caravan message's header (R263, R264, R312): lines, slots of a CTRL message, and the collective slot of a COL message. -/
def bodySlots (h : MsgHdr) : Nat :=
  match h.opc.toNat with
  | 2 | 3 => 8 * (h.len.toNat + 1)
  | 6 => 1 + 8 * (h.len.toNat + 1)
  | 7 => h.len.toNat + 1
  | _ => 0

/-- Cut a list of slots into messages: `len` gives the slots after a header, `nop` ends the list. The rest is an unfinished message. -/
def cutMsgs (len : Nat → Nat) (nop : Nat → Bool) : Nat → List Slot → List (List Slot) × List Slot
  | 0, l => ([], l)
  | _ + 1, [] => ([], [])
  | fuel + 1, h :: t =>
    if nop h.toNat then ([], [])
    else if t.length < len h.toNat then ([], h :: t)
    else
      let r := cutMsgs len nop fuel (t.drop (len h.toNat))
      ((h :: t.take (len h.toNat)) :: r.1, r.2)

/-- The Caravan messages of a list of slots, and the slots of an unfinished one. -/
def cutCaravan (l : List Slot) : List Msg × List Slot :=
  let r := cutMsgs (fun v => bodySlots (hdrOf v)) (fun v => bitsAt v 124 4 = 0) l.length l
  (r.1.map (fun x => ⟨hdrOf (x.headD 0).toNat, x.tail⟩), r.2)

/-- The messages of a frame. -/
def frameMsgs (f : RouteFrame) : List Msg := (cutCaravan f.slots).1

/-- A peer's state is cleared (R287); a reducing write in a frame that was sent and not acknowledged is uncertain. -/
def routeUnreachable (fd k : Nat) (p : RoutePeer) (s : State) : State :=
  (p.window.flatMap (fun e => frameMsgs e.1)).foldl (fun s m => if isReducing m then redUncertain fd (srcFab fd) s else s)
    { s with peers := sDel k s.peers }

/-- Make room for a new peer among the 4,096 of a die: an idle peer is evicted first (R287); with none idle the first is, as one that has become unreachable (a choice, log 63). -/
def peerRoom (fd k : Nat) (s : State) : State :=
  if (sFind s.peers k).isSome ∨ (peersOf fd s).length < 4096 then s
  else match (peersOf fd s).find? (fun e => e.2.window.isEmpty && e.2.queue.isEmpty) with
    | some e => { s with peers := sDel e.1 s.peers }
    | none => match peersOf fd s with
      | e :: _ => routeUnreachable fd e.1 e.2 s
      | [] => s

/-- The Route port of a message (R268): by its key, or the die's other port where only that one is ACTIVE. -/
def routePort (fd : Nat) (h : MsgHdr) (s : State) : Nat :=
  let r := 2 * fd + (h.src.toNat ^^^ h.dst.toNat ^^^ (h.line.toNat % 2 ^ 16)) % 2
  let q := 4 * fd + 1 - r
  if !portUsable (18 + r) s && portUsable (18 + q) s then q else r

/-- Bytes of a frame's messages count on its Route port. -/
def routeCount (r : Nat) (f : RouteFrame) (s : State) : State :=
  addPair (portBase (18 + r)) R.PORT_TX_BYTES_LO_VALUE R.PORT_TX_BYTES_HI_VALUE (16 * f.slots.length) s

/-- Put a frame on a Route port; a port that is not ACTIVE carries nothing. -/
def routeOut (r : Nat) (f : RouteFrame) (s : State) : State := if portUsable (18 + r) s then emit (.route r f) (routeCount r f s) else s

/-- Send messages to a peer in one frame, on the port of the first. -/
def routeEmit (fd k : Nat) (dst : Nat) (ms : List Msg) (s : State) : State :=
  match ms with
  | [] => s
  | m :: _ =>
    let p := getPeer k s
    let r := routePort fd m.hdr s
    let f := routeFrame r 0 dst p.txSeq (ms.flatMap msgSlots) p s
    routeOut r f (setPeer k { p with txSeq := p.txSeq + 1, window := p.window ++ [(f, 1)] } s)

/-- Send one message in a frame of its own to a peer, or keep it until the window of 64 frames has room (R287). -/
def routeSend (fd : Nat) (m : Msg) (s : State) : State :=
  let k := peerKey fd m.hdr.dst.toNat
  let s := peerRoom fd k s
  let p := getPeer k s
  if p.window.length ≥ 64 ∨ p.queue ≠ [] then setPeer k { p with queue := p.queue ++ [m] } s
  else routeEmit fd k m.hdr.dst.toNat [m] s

/-- As many messages as fit into a frame of `n` slots, at least one; and the rest. -/
def frameFill : Nat → List Msg → List Msg × List Msg
  | _, [] => ([], [])
  | n, m :: l =>
    let c := 1 + m.slots.length
    match l.head? with
    | none => ([m], [])
    | some x =>
      if n ≥ c + (1 + x.slots.length) then
        let r := frameFill (n - c) l
        (m :: r.1, r.2)
      else ([m], l)

/-- Send what waited for room in the window, in order, filling frames (R286); `fuel` bounds the frames. -/
def routeFlush (fd k : Nat) : Nat → State → State
  | 0, s => s
  | fuel + 1, s =>
    let p := getPeer k s
    if p.window.length ≥ 64 then s
    else match p.queue with
      | [] => s
      | m :: _ =>
        let x := frameFill (frameSlots fd s) p.queue
        routeFlush fd k fuel (routeEmit fd k m.hdr.dst.toNat x.1 (setPeer k { p with queue := x.2 } s))

/-- Inject a message on die `fd`: to its port in this Caravan, or by the Route transport (R267, R268); with no usable next hop it is dropped
and counted. -/
def sendMsg (fd : Nat) (m : Msg) (s : State) : State :=
  let s := addPair (fabBase fd) R.FAB_TX_BYTES_LO_VALUE R.FAB_TX_BYTES_HI_VALUE (msgBytes m) s
  if m.hdr.dst.toNat / 64 = pkgNum s / 64 then
    match pathHop m.hdr.vc.toNat fd 0x100 (m.hdr.dst.toNat % 64) s with
    | some p => portSend p m s
    | none => bumpF (fabBase fd) R.FAB_NO_PATH_COUNT 1 s
  else routeSend fd m s

/-- Send a remote request of `n` lines and start its timer; a request to a package outside the member map is not sent (R272). -/
def sendReq (isRead : Bool) (lat : Bool) (dst line n : Nat) (data : List Slot) (pmask : Nat) (owner : Owner) (reducing : Bool)
    (s : State) : State :=
  let fd := planeOf (pkgNum s) dst line s
  let f := getFab fd s
  let x : Txn := ⟨f.nextTx, isRead, BitVec.ofNat 16 dst, BitVec.ofNat 41 line, n, owner, reducing⟩
  let s' := setFab fd { f with txns := f.txns ++ [x], nextTx := f.nextTx + 1 } s
  if isMember fd dst s then
    sendMsg fd ⟨header fd (if isRead then 1 else 3) 0 (n - 1) lat dst f.nextTx.toNat line pmask s, data⟩ s'
  else s'

/-- Whether an owner has a remote request outstanding that `sel` selects. -/
def hasTxn (sel : Txn → Bool) (s : State) : Bool := (getFab 0 s).txns.any sel || (getFab 1 s).txns.any sel

end Sys2Proof.Machine
end

