-- ==== Sys2Proof/Machine/Operands.lean ====
section
/-! DEFINITION. The operand fields of a Fletrum instruction word, the registers of a core, and the common shape of
retiring an instruction: fetch checks, the kind and reserved-bit checks, faults and traps. -/

namespace Sys2Proof.Machine

/-! ### Fields of the common layout (R136); `w` holds bits [21:0] -/

def fD (w : BitVec 22) : Nat := bitsAt w.toNat 17 5
def fP (w : BitVec 22) : Nat := bitsAt w.toNat 12 5
def fQ (w : BitVec 22) : Nat := bitsAt w.toNat 7 5
def fX (w : BitVec 22) : Nat := bitsAt w.toNat 0 7
/-- IMM12 and OFF12, signed. -/
def fImm (w : BitVec 22) : Int := signed 12 w.toNat

/-! ### Registers (R134, R135) -/

/-- g[n]; g0 reads 0. -/
def getG (k : Core) (n : Nat) : DWord := if n = 0 then 0 else sGet 0 k.g n
/-- Write g[n]; g0 ignores writes. -/
def setG (n : Nat) (v : DWord) (k : Core) : Core := if n = 0 then k else { k with g := sSet 0 n v k.g }
/-- h[n]. -/
def getH (k : Core) (n : Nat) : BitVec 256 := sGet 0 k.h n
/-- Write h[n]. -/
def setH (n : Nat) (v : BitVec 256) (k : Core) : Core := { k with h := sSet 0 n v k.h }
/-- s[n]. -/
def getS (k : Core) (n : Nat) : BitVec 128 := sGet sumReset k.s n
/-- An engine writes s[n], which becomes valid (R135). -/
def putSum (n : Nat) (v : BitVec 128) (k : Core) : Core :=
  { k with s := sSet sumReset n v k.s, sPend := k.sPend.filter (· ≠ n) }

/-- The LOCAL source number of a core's Logbook records (R434). -/
def srcCore (c : Nat) : Nat := if c < 36 then 0x2000 + c else 0x1000 + (c - 36)
/-- The compute die of core `c`; package sequencer cores have no Depot of their own and use the line's home (R246), and Depot 0 for a companion line (log 185). -/
def coreDie (c : Nat) (pl : Nat) : Fin 4 :=
  if c < 36 then Fin.ofNat 4 (c / 9) else if pl ≥ compKey 0 then 0 else Fin.ofNat 4 (homeDie pl)

/-! ### Faults (R161, R163) -/

/-- Core `c` takes fault `code`: it records SEQ_FAULT, SEQ_FAULT_PC and SEQ_FAULT_ADDR, becomes FAULTED and writes the severity-2
record; the faulting instruction has no effect. `kind`, `tile` and `cause` are those of ENGINE_CONFIG. -/
def coreFault (c code : Nat) (pc : BitVec 48) (addr kind tile cause : Nat) (s : State) : State :=
  let b := seqBase c
  let s := setF b R.SEQ_FAULT_CODE code (setF b R.SEQ_FAULT_KIND kind (setF b R.SEQ_FAULT_TILE tile
    (setF b R.SEQ_FAULT_CAUSE cause (setF b R.SEQ_FAULT_VALID 1 s))))
  let s := setPair b R.SEQ_FAULT_PC_LO_VALUE R.SEQ_FAULT_PC_HI_VALUE pc.toNat s
  let s := setPair b R.SEQ_FAULT_ADDR_LO_VALUE R.SEQ_FAULT_ADDR_HI_VALUE addr s
  let k := getCore c s
  raise (srcCore c) 0x10 2 (coreId c + code * 2 ^ 8 + pc.toNat * 2 ^ 16) 0 (setCore c { k with st := .faulted, wait := none } s)

/-- A precise fault at the core's present instruction. -/
def faultHere (c code addr : Nat) (s : State) : State := coreFault c code (getCore c s).pc addr 0 0 0 s

/-! ### Retiring an instruction -/

/-- The instruction word of class `cls`, operation `op` and operand bits `w` (R136). -/
def insnWord (cls op : Nat) (w : BitVec 22) : Nat := cls * 2 ^ 28 + op * 2 ^ 22 + w.toNat

/-- Whether the core retires instructions: running or in a trap handler, no load in flight, and, once it parks, only in
the handler that resolves its traps (R155). -/
def canRetire (k : Core) : Bool :=
  (k.st = .running || k.st = .inTrap) && k.load.isNone && (k.parkFrom.isNone || k.trapMask)

/-- The fetch check: a start at an entry that is not a multiple of 4 (R161), a fetch outside the HBM and companion
windows (R157), a fetch of an uncorrectable line. Answers the fault code. -/
def fetchFault (k : Core) (s : State) : Option Nat :=
  if k.first && k.pc.toNat % 4 ≠ 0 then some 4
  else match target k.pc.toNat s with
    | .hbm p => if linePoison (p / 128) s then some 5 else none
    | .companion w => match sFind s.depot (compKey (w / 128)) with
      | some x => if x.poison then some 5 else none
      | none => none
    | _ => some 3

/-- Core `c` retires its instruction and goes on at `pc`; the first retirement of a run starts the quiesce interval (R154) and,
on package sequencer core 0, sets GCT_START (R349). -/
def retireAt (c : Nat) (pc : BitVec 48) (k : Core) (s : State) : State :=
  let s := if k.first && c = 36 then setPair gctBase R.GCT_START_LO_COUNT R.GCT_START_HI_COUNT s.count.toNat s else s
  setCore c { k with pc := pc, first := false, wait := none, qpLast := if k.first then some s.count else k.qpLast,
                     st := if k.trapMask then .inTrap else .running } s

/-- Retire and go on at the next instruction. -/
def retire (c : Nat) (k : Core) (s : State) : State := retireAt c (k.pc + 4) k s

/-- One instruction of core `c`: nothing while the core does not retire; the fetch check; ILLEGAL_INSN where `legal` fails
(R137); else its effect. -/
def insn (c : Nat) (word : Nat) (legal : Bool) (body : Core → State → State) (s : State) : State :=
  let k := getCore c s
  if canRetire k then
    match fetchFault k s with
    | some f => faultHere c f k.pc.toNat s
    | none => if legal then body k s else faultHere c 1 word s
  else s

/-- Branch target: OFF12 or OFF17 words from the instruction. -/
def branchTo (k : Core) (offWords : Int) : BitVec 48 := k.pc + BitVec.ofInt 48 (4 * offWords)

/-! ### VX traps at the core (R152, R153) -/

/-- The lowest tile of core `c`'s cluster whose VX is trapped and satisfies `sel`. -/
def trappedTile (c : Nat) (sel : EngIns → Bool) (s : State) : Option (Nat × EngIns) :=
  if c < 36 then
    (List.range 8).findSome? (fun i =>
      let e := getEng (kVx (8 * c + i)) s
      match e.trap, e.queue with
      | some _, x :: _ => if sel x then some (i, x) else none
      | _, _ => none)
  else none

/-- Whether a VX trap of core `c`'s cluster awaits delivery: all that are held, but one already delivered whose handler still runs (R152, R165). -/
def trapAwaits (c : Nat) (s : State) : Bool :=
  decide (c < 36) && (List.range 8).any (fun i =>
    let e := getEng (kVx (8 * c + i)) s
    !e.queue.isEmpty && e.trap.any (fun t => !((getCore c s).trapMask && t.delivered)))

/-- Deliver a pending VX trap to core `c`: trap PC, SEQ_TCAUSE, mask, jump to SEQ_TVEC; no handler is a fault (R153). A wait it interrupts is kept for TRET. -/
def deliverTrap (c tile : Nat) (x : EngIns) (k : Core) (s : State) : State :=
  let b := seqBase c
  let tv := getPair b R.SEQ_TVEC_LO_ADDR R.SEQ_TVEC_HI_ADDR s
  if tv = 0 then faultHere c 8 (tile + x.tag.toNat % 256 * 256) s
  else
    let s := setPair b R.SEQ_TRAP_PC_LO_VALUE R.SEQ_TRAP_PC_HI_VALUE k.pc.toNat s
    let s := setF b R.SEQ_TCAUSE_TILE tile (setF b R.SEQ_TCAUSE_TAG x.tag.toNat (setF b R.SEQ_TCAUSE_VALID 1 s))
    let e := getEng (kVx (8 * c + tile)) s
    let s := setEng (kVx (8 * c + tile)) { e with trap := e.trap.map (fun t => { t with delivered := true }) } s
    setCore c { k with trapMask := true, st := .inTrap, wait := none, heldWait := k.wait, pc := BitVec.ofNat 48 tv } s

/-- At a delivery point, a covered pending trap is delivered unless delivery is masked; else `body` goes on. -/
def orTrap (c : Nat) (sel : EngIns → Bool) (body : Core → State → State) (k : Core) (s : State) : State :=
  if k.trapMask then body k s
  else match trappedTile c sel s with
    | some (i, x) => deliverTrap c i x k s
    | none => body k s

/-- An instruction that reads or names summary register `r`: a covered trap is delivered (R152), a pending register
stalls it (R135). -/
def withSummary (c r : Nat) (body : Core → State → State) (k : Core) (s : State) : State :=
  orTrap c (fun x => x.sum = some r) (fun k s => if k.sPend.contains r then s else body k s) k s

end Sys2Proof.Machine
end

