-- ==== Sys2Proof/Machine/Scalar.lean ====
section
/-! DEFINITION. The scalar instructions of a Fletrum core: ALU, immediate, constant, branch and jump classes (R136, R138, R491). -/

namespace Sys2Proof.Machine

/-- Class 0x0: g[D] ← g[P] op g[Q]; X is reserved, and Q too for the unary operations (R491). -/
def alu (op : Nat) (unary : Bool) (f : Core → DWord) (c : Fin 44) (w : BitVec 22) (s : State) : State :=
  insn c (insnWord 0 op w) (fX w = 0 && (!unary || fQ w = 0)) (fun k s => retire c (setG (fD w) (f k) k) s) s

/-- Class 0x1: g[D] ← g[P] op IMM12 (R136). -/
def aluImm (op : Nat) (f : Core → DWord) (c : Fin 44) (w : BitVec 22) (s : State) : State :=
  insn c (insnWord 1 op w) true (fun k s => retire c (setG (fD w) (f k) k) s) s

/-- IMM12 sign-extended to 64 bits. -/
def immG (w : BitVec 22) : DWord := BitVec.ofInt 64 (fImm w)

/-- VX lanes per register of a format code, for the codes that have lanes (R99, R138). -/
def vxLanes (fmt : Nat) : Option Nat :=
  match fmt with
  | 0 => some 256 | 1 => some 256 | 5 => some 256 | 6 => some 128 | 7 => some 128 | 8 => some 64
  | 9 => some 32 | 10 => some 64 | _ => none

/-- Class 0x2: IMM16 at bits [16 × HW + 15 : 16 × HW]; [16] is 0 (R136). -/
def constant (op : Nat) (keep : Bool) (c : Fin 44) (hw : BitVec 2) (w : BitVec 22) (s : State) : State :=
  insn c (2 * 2 ^ 28 + hw.toNat * 2 ^ 26 + op * 2 ^ 22 + w.toNat) (bitsAt w.toNat 16 1 = 0) (fun k s =>
    let old := if keep then (getG k (fD w)).toNat else 0
    retire c (setG (fD w) (BitVec.ofNat 64 (putBits old (16 * hw.toNat) 16 w.toNat)) k) s) s

/-- Class 0x4: compare g[D] with g[P], branch by OFF12 words (R136). -/
def branch (op : Nat) (taken : DWord → DWord → Bool) (c : Fin 44) (w : BitVec 22) (s : State) : State :=
  insn c (insnWord 4 op w) true (fun k s =>
    retireAt c (if taken (getG k (fD w)) (getG k (fP w)) then branchTo k (fImm w) else k.pc + 4) k s) s

/-- ADD (R138). -/
def execAdd (c : Fin 44) (w : BitVec 22) (s : State) : Host.Outcome State Fault Refusal :=
  .next (alu 0 false (fun k => getG k (fP w) + getG k (fQ w)) c w s)

/-- SUB (R138). -/
def execSub (c : Fin 44) (w : BitVec 22) (s : State) : Host.Outcome State Fault Refusal :=
  .next (alu 1 false (fun k => getG k (fP w) - getG k (fQ w)) c w s)

/-- AND (R136). -/
def execAnd (c : Fin 44) (w : BitVec 22) (s : State) : Host.Outcome State Fault Refusal :=
  .next (alu 2 false (fun k => getG k (fP w) &&& getG k (fQ w)) c w s)

/-- OR (R136). -/
def execOr (c : Fin 44) (w : BitVec 22) (s : State) : Host.Outcome State Fault Refusal :=
  .next (alu 3 false (fun k => getG k (fP w) ||| getG k (fQ w)) c w s)

/-- XOR (R136). -/
def execXor (c : Fin 44) (w : BitVec 22) (s : State) : Host.Outcome State Fault Refusal :=
  .next (alu 4 false (fun k => getG k (fP w) ^^^ getG k (fQ w)) c w s)

/-- SHL (R138). -/
def execShl (c : Fin 44) (w : BitVec 22) (s : State) : Host.Outcome State Fault Refusal :=
  .next (alu 5 false (fun k => getG k (fP w) <<< ((getG k (fQ w)).toNat % 64)) c w s)

/-- SHRL (R138). -/
def execShrl (c : Fin 44) (w : BitVec 22) (s : State) : Host.Outcome State Fault Refusal :=
  .next (alu 6 false (fun k => getG k (fP w) >>> ((getG k (fQ w)).toNat % 64)) c w s)

/-- SHRA (R138). -/
def execShra (c : Fin 44) (w : BitVec 22) (s : State) : Host.Outcome State Fault Refusal :=
  .next (alu 7 false (fun k => (getG k (fP w)).sshiftRight ((getG k (fQ w)).toNat % 64)) c w s)

/-- MUL (R138). -/
def execMul (c : Fin 44) (w : BitVec 22) (s : State) : Host.Outcome State Fault Refusal :=
  .next (alu 8 false (fun k => getG k (fP w) * getG k (fQ w)) c w s)

/-- MULH (R138). -/
def execMulh (c : Fin 44) (w : BitVec 22) (s : State) : Host.Outcome State Fault Refusal :=
  .next (alu 9 false (fun k => BitVec.ofInt 64 ((getG k (fP w)).toInt * (getG k (fQ w)).toInt / 2 ^ 64)) c w s)

/-- MULHU (R138). -/
def execMulhu (c : Fin 44) (w : BitVec 22) (s : State) : Host.Outcome State Fault Refusal :=
  .next (alu 10 false (fun k => BitVec.ofNat 64 ((getG k (fP w)).toNat * (getG k (fQ w)).toNat / 2 ^ 64)) c w s)

/-- DIVU (R138). -/
def execDivu (c : Fin 44) (w : BitVec 22) (s : State) : Host.Outcome State Fault Refusal :=
  .next (alu 11 false (fun k => if getG k (fQ w) = 0 then BitVec.allOnes 64 else getG k (fP w) / getG k (fQ w)) c w s)

/-- REMU (R138). -/
def execRemu (c : Fin 44) (w : BitVec 22) (s : State) : Host.Outcome State Fault Refusal :=
  .next (alu 12 false (fun k => if getG k (fQ w) = 0 then getG k (fP w) else getG k (fP w) % getG k (fQ w)) c w s)

/-- MIN (R136). -/
def execMin (c : Fin 44) (w : BitVec 22) (s : State) : Host.Outcome State Fault Refusal :=
  .next (alu 13 false (fun k => if (getG k (fP w)).slt (getG k (fQ w)) then getG k (fP w) else getG k (fQ w)) c w s)

/-- MAX (R136). -/
def execMax (c : Fin 44) (w : BitVec 22) (s : State) : Host.Outcome State Fault Refusal :=
  .next (alu 14 false (fun k => if (getG k (fP w)).slt (getG k (fQ w)) then getG k (fQ w) else getG k (fP w)) c w s)

/-- MINU (R136). -/
def execMinu (c : Fin 44) (w : BitVec 22) (s : State) : Host.Outcome State Fault Refusal :=
  .next (alu 15 false (fun k => if getG k (fP w) < getG k (fQ w) then getG k (fP w) else getG k (fQ w)) c w s)

/-- MAXU (R136). -/
def execMaxu (c : Fin 44) (w : BitVec 22) (s : State) : Host.Outcome State Fault Refusal :=
  .next (alu 16 false (fun k => if getG k (fP w) < getG k (fQ w) then getG k (fQ w) else getG k (fP w)) c w s)

/-- SLT (R136). -/
def execSlt (c : Fin 44) (w : BitVec 22) (s : State) : Host.Outcome State Fault Refusal :=
  .next (alu 17 false (fun k => BitVec.ofNat 64 (b2n ((getG k (fP w)).slt (getG k (fQ w))))) c w s)

/-- SLTU (R136). -/
def execSltu (c : Fin 44) (w : BitVec 22) (s : State) : Host.Outcome State Fault Refusal :=
  .next (alu 18 false (fun k => BitVec.ofNat 64 (b2n (decide (getG k (fP w) < getG k (fQ w))))) c w s)

/-- SEQ (R136). -/
def execSeq (c : Fin 44) (w : BitVec 22) (s : State) : Host.Outcome State Fault Refusal :=
  .next (alu 19 false (fun k => BitVec.ofNat 64 (b2n (decide (getG k (fP w) = getG k (fQ w))))) c w s)

/-- CLZ (R491). -/
def execClz (c : Fin 44) (w : BitVec 22) (s : State) : Host.Outcome State Fault Refusal :=
  .next (alu 20 true (fun k => BitVec.ofNat 64 (64 - bitLen (getG k (fP w)).toNat)) c w s)

/-- POPCNT (R491). -/
def execPopcnt (c : Fin 44) (w : BitVec 22) (s : State) : Host.Outcome State Fault Refusal :=
  .next (alu 21 true (fun k => BitVec.ofNat 64 (popCount (getG k (fP w)).toNat 64)) c w s)

/-- ADDI (R136, R138). -/
def execAddi (c : Fin 44) (w : BitVec 22) (s : State) : Host.Outcome State Fault Refusal :=
  .next (aluImm 0 (fun k => getG k (fP w) + immG w) c w s)

/-- ANDI (R136, R138). -/
def execAndi (c : Fin 44) (w : BitVec 22) (s : State) : Host.Outcome State Fault Refusal :=
  .next (aluImm 1 (fun k => getG k (fP w) &&& immG w) c w s)

/-- ORI (R136, R138). -/
def execOri (c : Fin 44) (w : BitVec 22) (s : State) : Host.Outcome State Fault Refusal :=
  .next (aluImm 2 (fun k => getG k (fP w) ||| immG w) c w s)

/-- XORI (R136, R138). -/
def execXori (c : Fin 44) (w : BitVec 22) (s : State) : Host.Outcome State Fault Refusal :=
  .next (aluImm 3 (fun k => getG k (fP w) ^^^ immG w) c w s)

/-- SHLI (R136, R138). -/
def execShli (c : Fin 44) (w : BitVec 22) (s : State) : Host.Outcome State Fault Refusal :=
  .next (aluImm 4 (fun k => getG k (fP w) <<< ((immG w).toNat % 64)) c w s)

/-- SHRLI (R136, R138). -/
def execShrli (c : Fin 44) (w : BitVec 22) (s : State) : Host.Outcome State Fault Refusal :=
  .next (aluImm 5 (fun k => getG k (fP w) >>> ((immG w).toNat % 64)) c w s)

/-- SHRAI (R136, R138). -/
def execShrai (c : Fin 44) (w : BitVec 22) (s : State) : Host.Outcome State Fault Refusal :=
  .next (aluImm 6 (fun k => (getG k (fP w)).sshiftRight ((immG w).toNat % 64)) c w s)

/-- SLTI (R136, R138). -/
def execSlti (c : Fin 44) (w : BitVec 22) (s : State) : Host.Outcome State Fault Refusal :=
  .next (aluImm 7 (fun k => BitVec.ofNat 64 (b2n ((getG k (fP w)).slt (immG w)))) c w s)

/-- STRIP (R138): min(g[P], L) - 1 for g[P] > 0, else -1; a format code without lanes or other bits of IMM12 set is illegal. -/
def execStrip (c : Fin 44) (w : BitVec 22) (s : State) : Host.Outcome State Fault Refusal :=
  .next (insn c (insnWord 1 8 w) (bitsAt w.toNat 4 8 = 0 && (vxLanes (bitsAt w.toNat 0 4)).isSome) (fun k s =>
    let g := (getG k (fP w)).toInt
    let l : Int := ((vxLanes (bitsAt w.toNat 0 4)).getD 0 : Nat)
    retire c (setG (fD w) (BitVec.ofInt 64 (if g > 0 then min g l - 1 else -1)) k) s) s)

/-- MOVZ (R136). -/
def execMovz (c : Fin 44) (hw : BitVec 2) (w : BitVec 22) (s : State) : Host.Outcome State Fault Refusal :=
  .next (constant 0 false c hw w s)

/-- MOVK (R136). -/
def execMovk (c : Fin 44) (hw : BitVec 2) (w : BitVec 22) (s : State) : Host.Outcome State Fault Refusal :=
  .next (constant 1 true c hw w s)

/-- BEQ (R136). -/
def execBeq (c : Fin 44) (w : BitVec 22) (s : State) : Host.Outcome State Fault Refusal :=
  .next (branch 0 (fun a b => decide (a = b)) c w s)

/-- BNE (R136). -/
def execBne (c : Fin 44) (w : BitVec 22) (s : State) : Host.Outcome State Fault Refusal :=
  .next (branch 1 (fun a b => decide (a ≠ b)) c w s)

/-- BLT (R136). -/
def execBlt (c : Fin 44) (w : BitVec 22) (s : State) : Host.Outcome State Fault Refusal :=
  .next (branch 2 (fun a b => a.slt b) c w s)

/-- BGE (R136). -/
def execBge (c : Fin 44) (w : BitVec 22) (s : State) : Host.Outcome State Fault Refusal :=
  .next (branch 3 (fun a b => !(a.slt b)) c w s)

/-- BLTU (R136). -/
def execBltu (c : Fin 44) (w : BitVec 22) (s : State) : Host.Outcome State Fault Refusal :=
  .next (branch 4 (fun a b => decide (a < b)) c w s)

/-- BGEU (R136). -/
def execBgeu (c : Fin 44) (w : BitVec 22) (s : State) : Host.Outcome State Fault Refusal :=
  .next (branch 5 (fun a b => !decide (a < b)) c w s)

/-- The return address a jump links: the local offset of the next instruction. -/
def linkOf (k : Core) : DWord := BitVec.ofNat 64 (k.pc + 4).toNat

/-- JAL (R136): link D, OFF17 in words from the jump. -/
def execJal (c : Fin 44) (w : BitVec 22) (s : State) : Host.Outcome State Fault Refusal :=
  .next (insn c (insnWord 6 0 w) true (fun k s =>
    retireAt c (branchTo k (signed 17 w.toNat)) (setG (fD w) (linkOf k) k) s) s)

/-- JALR (R136, R161): target g[P] + IMM12; a target that is not a multiple of 4 is MEM_ALIGN with the target. -/
def execJalr (c : Fin 44) (w : BitVec 22) (s : State) : Host.Outcome State Fault Refusal :=
  .next (insn c (insnWord 6 1 w) true (fun k s =>
    let t := getG k (fP w) + immG w
    if t.toNat % 4 ≠ 0 then faultHere c 4 t.toNat s
    else retireAt c (BitVec.ofNat 48 t.toNat) (setG (fD w) (linkOf k) k) s) s)

end Sys2Proof.Machine
end

