-- ==== Sys2Proof/Machine/LoadStore.lean ====
section
/-! DEFINITION. Loads and stores of a Fletrum core (R140, R231, R232), and the return of a load's data. -/

namespace Sys2Proof.Machine

/-- The value a load of `size` bytes delivers, sign-extended for the signed forms. -/
def extend (size : Nat) (sign : Bool) (v : Nat) : Nat := if sign then wrap 64 (signed (8 * size) v) else v

/-- Deliver a load's value to its register and retire. -/
def loadDone (c : Nat) (dreg size : Nat) (sign toH : Bool) (v : Nat) (k : Core) (s : State) : State :=
  retire c (if toH then setH dreg (BitVec.ofNat 256 v) k else setG dreg (BitVec.ofNat 64 (extend size sign v)) k) s

/-- Count a corrected Depot error (R253). -/
def depotCe (d : Fin 4) (s : State) : State := bumpF (depBase d) R.DEP_CE_COUNT_COUNT 1 s

/-- An uncorrectable error in the copy of a line that the Depot of die `d` holds (R253): a clean copy is discarded, to be fetched again, and counts as corrected; a
modified line is written back poisoned, with DEP_STATUS.UE, the captured address and the severity-2 record. -/
def depotUe (d : Fin 4) (pl gaddr : Nat) (s : State) : State :=
  match sFind s.depot pl with
  | none => s
  | some x =>
    if !x.holders.contains d then s
    else if x.dirty ∧ x.die = d then
      let s' := writeBack pl { x with poison := true } { s with depot := sDel pl s.depot }
      let b := depBase d
      let s' := setF b R.DEP_STATUS_UE 1 (bumpF b R.DEP_STATUS_UE_COUNT 1 s')
      let s' := capture b R.DEP_UE_ADDR_HI_VALID
        (fun s => setF b R.DEP_UE_ADDR_LO_ADDR gaddr (setF b R.DEP_UE_ADDR_HI_ADDR (gaddr / 2 ^ 32) s)) s'
      raise (0x8000 + d) 0x34 2 0 0 s'
    else depotCe d (depotGiveUp d pl x s)

/-- An uncorrectable error in a directory entry: the home recalls every copy the entry could cover, shows UE and writes a severity-2 record
(R253). The model's entry covers one line. -/
def dirUe (pl : Nat) (s : State) : State :=
  let b := depBase (homeDie pl)
  recallAll pl (raise (0x8000 + homeDie pl) 0x35 2 0 0 (setF b R.DEP_STATUS_UE 1 (bumpF b R.DEP_STATUS_UE_COUNT 1 s)))

/-- The errors an access by die `d` meets in its Depot's copy of a line and in the line's directory entry (R253). -/
def depotErrs (d : Fin 4) (pl gaddr : Nat) (ev : LoadEv) (s : State) : State :=
  let s := if ev.dirUe ∧ pl < compKey 0 then dirUe pl s else s
  match sFind s.depot pl with
  | some x =>
    if !x.holders.contains d then s
    else if ev.ue then depotUe d pl gaddr s else if ev.corrected then depotCe d s else s
  | none => s

/-- A load from the line `pl` at physical byte `phys`: a hit in the Depot of the core's die, else a miss (R245). -/
def loadLine (c : Nat) (lw : LoadWait) (pl phys : Nat) (ev : LoadEv) (k : Core) (s : State) : State :=
  let d := coreDie c pl
  let s := depotErrs d pl lw.addr.toNat ev s
  let miss := fun (s : State) =>
    setCore c { k with load := some lw } (addPair (depBase d) R.DEP_MISS_LO_VALUE R.DEP_MISS_HI_VALUE 1 s)
  match sFind s.depot pl with
  | some x =>
    if x.holders.contains d then
      let s := addPair (depBase d) R.DEP_HIT_LO_VALUE R.DEP_HIT_HI_VALUE 1 s
      if x.poison then faultHere c 6 lw.addr.toNat s
      else loadDone c lw.dreg lw.size lw.sign lw.toH (bitsAt x.data.toNat (8 * (phys % 128)) (8 * lw.size)) k s
    else miss s
  | none => miss (if pl ≥ compKey 0 then halRequest 0x01 (pl - compKey 0) (.core c) s else if readHeld pl s then recallLine false pl s else s)

/-- A load (R140): alignment, attribute, then the access. A load from another package is a remote line read. -/
def load (op size : Nat) (sign toH : Bool) (c : Fin 44) (w : BitVec 22) (ev : LoadEv) (s : State) : State :=
  insn c (insnWord 3 op w) (!toH || fD w < 16) (fun k s =>
    let a := getG k (fP w) + immG w
    let lw : LoadWait := ⟨fD w, size, sign, toH, a, none, false⟩
    if a.toNat % size ≠ 0 then faultHere c 4 a.toNat s
    else if isLocal a.toNat s then
      match target (offOf a.toNat) s with
      | .hbm p => loadLine c lw (p / 128) p ev k s
      | .companion x => loadLine c lw (compKey (x / 128)) x ev k s
      | .tile p b =>
        if c < 36 ∧ p / 8 = c then
          if ev.ue ∨ s.poison.contains (tileKey p b) then faultHere c 6 a.toNat s else loadDone c (fD w) size sign toH (tileReadN p b size s) k s
        else faultHere c 3 a.toNat s
      | .depotCtl d b =>
        if s.pkg = .service then loadDone c (fD w) size sign toH (ctlRead d b size s) k s
        else loadDone c (fD w) size sign toH 0 k s
      | _ => faultHere c 3 a.toNat s
    else
      setCore c { k with load := some lw } (sendReq true true (a.toNat / 2 ^ 48) (offOf a.toNat / 128) 1 [] 0 (.core c) false s)) s

/-- A store into the line `pl` by core `c` (R140, R247): it waits until the companion has given up its copy; a companion line is first
granted as the only copy. A waiting store does not retire. -/
def storeLine (c : Nat) (pl phys size v : Nat) (k : Core) (s : State) : State :=
  if pl ≥ compKey 0 then
    match sFind s.depot pl with
    | some x =>
      if x.own && !awaited pl s then retire c k (lineWrite (some (coreDie c pl)) phys size v s)
      else halRequest 0x03 (pl - compKey 0) (.core c) s
    | none => halRequest 0x02 (pl - compKey 0) (.core c) s
  else if writeHeld pl s then recallLine true pl s
  else retire c k (lineWrite (some (coreDie c pl)) phys size v s)

/-- A store (R140): alignment, attribute, then the access; a store to another package is MEM_ATTR. -/
def store (op size : Nat) (fromH : Bool) (c : Fin 44) (w : BitVec 22) (s : State) : State :=
  insn c (insnWord 3 op w) (!fromH || fD w < 16) (fun k s =>
    let a := getG k (fP w) + immG w
    let v := (if fromH then (getH k (fD w)).toNat else (getG k (fD w)).toNat) % 2 ^ (8 * size)
    if a.toNat % size ≠ 0 then faultHere c 4 a.toNat s
    else if isLocal a.toNat s then
      match target (offOf a.toNat) s with
      | .hbm p => storeLine c (p / 128) p size v k s
      | .companion x => storeLine c (compKey (x / 128)) (2 ^ 40 + x) size v k s
      | .tile p b => if c < 36 ∧ p / 8 = c then retire c k (tileWriteN p b size v s) else faultHere c 3 a.toNat s
      | .depotCtl d b => retire c k (if s.pkg = .service then ctlWrite d b size v s else s)
      | _ => faultHere c 3 a.toNat s
    else faultHere c 3 a.toNat s) s

/-- Data of a load come back (R140): of a local miss from HBM once the companion has given the line up, of a companion line or of a
remote line once received. Poisoned data are DATA_UE; the line of a dead target is data (R272). -/
def loadReturn (c : Fin 44) (s : State) : State :=
  let k := getCore c s
  match k.load with
  | none => s
  | some lw =>
    let k' := { k with load := none }
    let give := fun (line : Nat) (poison : Bool) (s : State) =>
      if poison then faultHere c 6 lw.addr.toNat (setCore c k' s)
      else loadDone c lw.dreg lw.size lw.sign lw.toH (bitsAt line (8 * (lw.addr.toNat % 128)) (8 * lw.size)) k' s
    if k.st = .stopped ∨ k.st = .faulted then s
    else if isLocal lw.addr.toNat s then
      match target (offOf lw.addr.toNat) s with
      | .hbm p =>
        if readHeld (p / 128) s then recallLine false (p / 128) s
        else give (lineNat (p / 128) s) (linePoison (p / 128) s) (depotFill (coreDie c (p / 128)) (p / 128) s)
      | .companion x =>
        match sFind s.depot (compKey (x / 128)) with
        | some x' => give x'.data.toNat x'.poison (depotFill (coreDie c (compKey (x / 128))) (compKey (x / 128)) s)
        | none => match lw.line with
          | some l => give l.toNat lw.poison s
          | none => s
      | _ => setCore c k' s
    else match lw.line with
      | some l => give l.toNat lw.poison s
      | none => s

/-- LD8 (R140). -/
def execLd8 (c : Fin 44) (w : BitVec 22) (ev : LoadEv) (s : State) : Host.Outcome State Fault Refusal :=
  .next (load 0 1 true false c w ev s)

/-- LD16 (R140). -/
def execLd16 (c : Fin 44) (w : BitVec 22) (ev : LoadEv) (s : State) : Host.Outcome State Fault Refusal :=
  .next (load 1 2 true false c w ev s)

/-- LD32 (R140). -/
def execLd32 (c : Fin 44) (w : BitVec 22) (ev : LoadEv) (s : State) : Host.Outcome State Fault Refusal :=
  .next (load 2 4 true false c w ev s)

/-- LD64 (R140). -/
def execLd64 (c : Fin 44) (w : BitVec 22) (ev : LoadEv) (s : State) : Host.Outcome State Fault Refusal :=
  .next (load 3 8 false false c w ev s)

/-- LDU8 (R140). -/
def execLdu8 (c : Fin 44) (w : BitVec 22) (ev : LoadEv) (s : State) : Host.Outcome State Fault Refusal :=
  .next (load 4 1 false false c w ev s)

/-- LDU16 (R140). -/
def execLdu16 (c : Fin 44) (w : BitVec 22) (ev : LoadEv) (s : State) : Host.Outcome State Fault Refusal :=
  .next (load 5 2 false false c w ev s)

/-- LDU32 (R140). -/
def execLdu32 (c : Fin 44) (w : BitVec 22) (ev : LoadEv) (s : State) : Host.Outcome State Fault Refusal :=
  .next (load 6 4 false false c w ev s)

/-- LDH (R140). -/
def execLdh (c : Fin 44) (w : BitVec 22) (ev : LoadEv) (s : State) : Host.Outcome State Fault Refusal :=
  .next (load 11 32 false true c w ev s)

/-- ST8 (R140). -/
def execSt8 (c : Fin 44) (w : BitVec 22) (s : State) : Host.Outcome State Fault Refusal :=
  .next (store 7 1 false c w s)

/-- ST16 (R140). -/
def execSt16 (c : Fin 44) (w : BitVec 22) (s : State) : Host.Outcome State Fault Refusal :=
  .next (store 8 2 false c w s)

/-- ST32 (R140). -/
def execSt32 (c : Fin 44) (w : BitVec 22) (s : State) : Host.Outcome State Fault Refusal :=
  .next (store 9 4 false c w s)

/-- ST64 (R140). -/
def execSt64 (c : Fin 44) (w : BitVec 22) (s : State) : Host.Outcome State Fault Refusal :=
  .next (store 10 8 false c w s)

/-- STH (R140). -/
def execSth (c : Fin 44) (w : BitVec 22) (s : State) : Host.Outcome State Fault Refusal :=
  .next (store 12 32 true c w s)

/-- LOAD_DATA_RETURN (R140). -/
def execLoadDataReturn (c : Fin 44) (s : State) : Host.Outcome State Fault Refusal :=
  .next (loadReturn c s)

end Sys2Proof.Machine
end

