-- ==== Sys2Proof/Machine/Atomic.lean ====
section
/-! DEFINITION. The atomics of a Fletrum core (R24, R248). -/

namespace Sys2Proof.Machine

/-- One atomic on the 8-byte word at physical byte `phys`, executed at the home Depot: the new value and the state. -/
def atomicAt (phys : Nat) (f : Nat → Nat) (s : State) : Nat × State :=
  let pl := phys / 128
  let home : Fin 4 := Fin.ofNat 4 (homeDie pl)
  let old := bitsAt (lineNat pl s) (8 * (phys % 128)) 64
  let s := addPair (depBase home) R.DEP_ATOMIC_LO_VALUE R.DEP_ATOMIC_HI_VALUE 1 s
  (old, lineWrite (some home) phys 8 (f old) s)

/-- An atomic instruction: g[D] receives the old value; X is reserved. `f old d q` is the value written (R248). A line the companion
holds is recalled first; a poisoned or uncorrectable line is DATA_UE. -/
def amo (op : Nat) (f : Nat → Nat → Nat → Nat) (c : Fin 44) (w : BitVec 22) (ev : LoadEv) (s : State) : State :=
  insn c (insnWord 0xA op w) (fX w = 0) (fun k s =>
    let a := (getG k (fP w)).toNat
    if a % 8 ≠ 0 then faultHere c 4 a s
    else if isLocal a s then
      match target (offOf a) s with
      | .hbm p =>
        let pl := p / 128
        let s := depotErrs (Fin.ofNat 4 (homeDie pl)) pl a ev s
        if writeHeld pl s then recallLine true pl s
        else if linePoison pl s then faultHere c 6 a s
        else
          let r := atomicAt p (fun old => f old (getG k (fD w)).toNat (getG k (fQ w)).toNat) s
          retire c (setG (fD w) (BitVec.ofNat 64 r.1) k) r.2
      | _ => faultHere c 3 a s
    else faultHere c 3 a s) s

/-- AmoAdd (R248). -/
def execAmoAdd (c : Fin 44) (w : BitVec 22) (ev : LoadEv) (s : State) : Host.Outcome State Fault Refusal :=
  .next (amo 0 (fun o _ q => o + q) c w ev s)

/-- AmoSwap (R248). -/
def execAmoSwap (c : Fin 44) (w : BitVec 22) (ev : LoadEv) (s : State) : Host.Outcome State Fault Refusal :=
  .next (amo 1 (fun _ _ q => q) c w ev s)

/-- AmoCas (R248). -/
def execAmoCas (c : Fin 44) (w : BitVec 22) (ev : LoadEv) (s : State) : Host.Outcome State Fault Refusal :=
  .next (amo 2 (fun o d q => if o = d then q else o) c w ev s)

/-- AmoAnd (R248). -/
def execAmoAnd (c : Fin 44) (w : BitVec 22) (ev : LoadEv) (s : State) : Host.Outcome State Fault Refusal :=
  .next (amo 3 (fun o _ q => o &&& q) c w ev s)

/-- AmoOr (R248). -/
def execAmoOr (c : Fin 44) (w : BitVec 22) (ev : LoadEv) (s : State) : Host.Outcome State Fault Refusal :=
  .next (amo 4 (fun o _ q => o ||| q) c w ev s)

/-- AmoMinu (R248). -/
def execAmoMinu (c : Fin 44) (w : BitVec 22) (ev : LoadEv) (s : State) : Host.Outcome State Fault Refusal :=
  .next (amo 5 (fun o _ q => min o q) c w ev s)

/-- AmoMaxu (R248). -/
def execAmoMaxu (c : Fin 44) (w : BitVec 22) (ev : LoadEv) (s : State) : Host.Outcome State Fault Refusal :=
  .next (amo 6 (fun o _ q => max o q) c w ev s)

end Sys2Proof.Machine
end

