-- ==== Sys2Proof/Machine/Summary.lean ====
section
/-! DEFINITION. The summary class of a Fletrum core (R135, R149). -/

namespace Sys2Proof.Machine

/-- Summary register field S, bits [21:19]. -/
def fS (w : BitVec 22) : Nat := bitsAt w.toNat 19 3
/-- VF, bits [18:17]: how VALUE is read. -/
def fVf (w : BitVec 22) : Nat := bitsAt w.toNat 17 2

/-- A key that orders finite and infinite IEEE values of `w` bits, `none` for NaN; zeros of either sign are equal. -/
def fpKey (ew fw v : Nat) : Option Int :=
  let mag := v % 2 ^ (ew + fw)
  if mag > (2 ^ ew - 1) * 2 ^ fw then none
  else some (if bitAt v (ew + fw) then -(mag : Int) else (mag : Int))

/-- VALUE and g[Q] under VF: FP64, FP32 in bits [31:0], unsigned, signed (R149). -/
def vfKey (vf : Nat) (v : Nat) : Option Int :=
  if vf = 0 then fpKey 11 52 v
  else if vf = 1 then fpKey 8 23 (v % 2 ^ 32)
  else if vf = 2 then some (v : Int)
  else some (signed 64 v)

/-- Compare VALUE with g[Q]; unordered is not taken (R149). -/
def vfCompare (rel : Int → Int → Bool) (w : BitVec 22) (k : Core) : Bool :=
  match vfKey (fVf w) (sumValue (getS k (fS w))), vfKey (fVf w) (getG k (fP w)).toNat with
  | some a, some b => rel a b
  | _, _ => false

/-- A summary branch: a trap is delivered, a pending register stalls, else branch by OFF12 (R135, R149, R152). -/
def bs (op : Nat) (taken : Core → Bool) (c : Fin 44) (w : BitVec 22) (s : State) : State :=
  insn c (insnWord 5 op w) true (withSummary c (fS w) (fun k s =>
    retireAt c (if taken k then branchTo k (fImm w) else k.pc + 4) k s)) s

/-- A summary read: g[Q] ← field (R149); Q is at [16:12]. -/
def sget (op : Nat) (f : BitVec 128 → Nat) (c : Fin 44) (w : BitVec 22) (s : State) : State :=
  insn c (insnWord 5 op w) true (withSummary c (fS w) (fun k s =>
    retire c (setG (fP w) (BitVec.ofNat 64 (f (getS k (fS w)))) k) s)) s

/-- BsMark (R149). -/
def execBsMark (c : Fin 44) (w : BitVec 22) (s : State) : Host.Outcome State Fault Refusal :=
  .next (bs 0 (fun k => sumMark (getS k (fS w))) c w s)

/-- BsNmark (R149). -/
def execBsNmark (c : Fin 44) (w : BitVec 22) (s : State) : Host.Outcome State Fault Refusal :=
  .next (bs 1 (fun k => !sumMark (getS k (fS w))) c w s)

/-- BsTrap (R149). -/
def execBsTrap (c : Fin 44) (w : BitVec 22) (s : State) : Host.Outcome State Fault Refusal :=
  .next (bs 2 (fun k => sumTrap (getS k (fS w))) c w s)

/-- BsUe (R149). -/
def execBsUe (c : Fin 44) (w : BitVec 22) (s : State) : Host.Outcome State Fault Refusal :=
  .next (bs 3 (fun k => sumUe (getS k (fS w))) c w s)

/-- BsCnz (R149). -/
def execBsCnz (c : Fin 44) (w : BitVec 22) (s : State) : Host.Outcome State Fault Refusal :=
  .next (bs 4 (fun k => sumCount (getS k (fS w)) ≠ 0) c w s)

/-- BsCz (R149). -/
def execBsCz (c : Fin 44) (w : BitVec 22) (s : State) : Host.Outcome State Fault Refusal :=
  .next (bs 5 (fun k => sumCount (getS k (fS w)) = 0) c w s)

/-- BsVgt (R149). -/
def execBsVgt (c : Fin 44) (w : BitVec 22) (s : State) : Host.Outcome State Fault Refusal :=
  .next (bs 6 (vfCompare (fun a b => decide (a > b)) w) c w s)

/-- BsVle (R149). -/
def execBsVle (c : Fin 44) (w : BitVec 22) (s : State) : Host.Outcome State Fault Refusal :=
  .next (bs 7 (vfCompare (fun a b => decide (a ≤ b)) w) c w s)

/-- BsVeq (R149). -/
def execBsVeq (c : Fin 44) (w : BitVec 22) (s : State) : Host.Outcome State Fault Refusal :=
  .next (bs 8 (vfCompare (fun a b => decide (a = b)) w) c w s)

/-- SgetValue (R149). -/
def execSgetValue (c : Fin 44) (w : BitVec 22) (s : State) : Host.Outcome State Fault Refusal :=
  .next (sget 16 sumValue c w s)

/-- SgetCount (R149). -/
def execSgetCount (c : Fin 44) (w : BitVec 22) (s : State) : Host.Outcome State Fault Refusal :=
  .next (sget 17 sumCount c w s)

/-- SgetFirst (R149). -/
def execSgetFirst (c : Fin 44) (w : BitVec 22) (s : State) : Host.Outcome State Fault Refusal :=
  .next (sget 18 sumFirst c w s)

/-- SgetFlags (R149). -/
def execSgetFlags (c : Fin 44) (w : BitVec 22) (s : State) : Host.Outcome State Fault Refusal :=
  .next (sget 19 sumFlags c w s)

end Sys2Proof.Machine
end

