-- ==== Sys2Proof/Machine/Wait.lean ====
section
/-! DEFINITION. Waits, fences, barriers, quiesce points and the system class of a Fletrum core (R145 to R155, R160, R403). -/

namespace Sys2Proof.Machine

/-- A wait instruction runs when the core retires, or when it waits at this same instruction (R145). -/
def waitInsn (op : Nat) (c : Nat) (word : Nat) (legal : Bool) (body : Core → State → State) (s : State) : State :=
  let k := getCore c s
  match k.wait with
  | some r => if k.st = .waiting && r.op = op && (k.parkFrom.isNone || k.trapMask) then body k s else s
  | none => insn c word legal body s

/-- The freeze count has come (R155). -/
def freezeDue (s : State) : Bool :=
  match s.freezeF with
  | some f => f ≤ s.count
  | none => false

/-- Whether a wait counts as a quiesce point while the core waits at it: WAITSIG, BAR, and WAIT.E on the collective engine (R154). -/
def quiesceWait (r : WaitRec) : Bool := r.op = 4 || r.op = 5 || (r.op = 0 && r.addr = 9)

/-- The limit of a WAITSIG or BAR that starts now, in us; none without WAIT_LIMIT_EN (R147, R166). -/
def waitLimit (c : Nat) (s : State) : Option Nat :=
  let b := seqBase c
  if effF b R.SEQ_CTRL_WAIT_LIMIT_EN R.SEQ_CTRL_LEVEL s = 1 then some (max 1 (effF b R.SEQ_WAIT_LIMIT_LIMIT_US R.SEQ_CTRL_LEVEL s)) else none

/-- A core that waits at a quiesce point parks when a freeze is due, unless it runs its trap handler (R155). -/
def parkWaiting (r : WaitRec) (k : Core) (s : State) : Core :=
  if freezeDue s && quiesceWait r && k.parkFrom.isNone && !k.trapMask then { k with parkFrom := some s.count, held := some .waiting } else k

/-- The core waits, from now or from when this wait began. -/
def waitOn (c op : Nat) (target : Option Nat) (addr value : DWord) (cond : Nat) (k : Core) (s : State) : State :=
  let r : WaitRec := match k.wait with
    | some r => { r with target := target }
    | none => ⟨op, s.count, target, addr, value, cond, waitLimit c s⟩
  setCore c (parkWaiting r { k with st := .waiting, wait := some r } s) s

/-- A tag t counts as issued at or before n when (n - t) mod 2^16 ≤ 32,768 (R142). -/
def tagCovers (n t : BitVec 16) : Bool := (n - t).toNat ≤ 32768

/-- The instruction kinds that name an engine a core can wait on (R141). -/
def kindOk (kind : Nat) : Bool := kind ≤ 0xA && kind ≠ 7

/-- WAIT.E: every instruction this core issued to the engine at or before the tag is complete (R145, R491). -/
def waitE (c : Nat) (w : BitVec 22) (s : State) : State :=
  let kind := bitsAt w.toNat 18 4
  let tile := bitsAt w.toNat 14 4
  waitInsn 0 c (insnWord 8 0 w) (kindOk kind && tile < 8 && bitsAt w.toNat 12 2 = 0 && fX w = 0) (fun k s =>
    let n : BitVec 16 := BitVec.ofNat 16 (getG k (fQ w)).toNat
    orTrap c (fun x => kind = 1 && x.tile = tile && tagCovers n x.tag) (fun k s =>
      if k.out.any (fun o => o.kind = kind && o.tile = tile && tagCovers n o.tag) then
        waitOn c 0 none (BitVec.ofNat 64 kind) 0 0 k s
      else retire c k s) k s) s

/-- WAIT.ALL (R145). -/
def waitAll (c : Nat) (w : BitVec 22) (s : State) : State :=
  waitInsn 1 c (insnWord 8 1 w) (w = 0) (fun k s =>
    orTrap c (fun _ => true) (fun k s => if k.out.isEmpty then retire c k s else waitOn c 1 none 0 0 0 k s) k s) s

/-- FENCE.LOCAL: the core's stores and atomics are visible when they retire, so it completes (R145, R247). -/
def fenceLocal (c : Nat) (w : BitVec 22) (s : State) : State :=
  waitInsn 2 c (insnWord 8 2 w) (w = 0) (fun k s => retire c k s) s

/-- Whether an engine key belongs to the cluster of core `c`. -/
def ownEngine (c : Nat) (o : Owner) : Bool :=
  match o with
  | .eng k => c < 36 && (k = kSx c || k = kAsy c || k = kPor c)
  | _ => false

/-- FENCE.REMOTE: every remote write of the core's engines is acknowledged or has met its bound (R25, R145, R146). -/
def fenceRemote (c : Nat) (w : BitVec 22) (s : State) : State :=
  waitInsn 3 c (insnWord 8 3 w) (w = 0) (fun k s =>
    if hasTxn (fun x => !x.isRead && ownEngine c x.owner) s then waitOn c 3 none 0 0 0 k s else retire c k s) s

/-- The Depot word a WAITSIG or BAR names: 8-byte aligned in the HBM windows of this package. -/
def depotWord (c a : Nat) (body : Nat → State → State) (s : State) : State :=
  if a % 8 ≠ 0 then faultHere c 4 a s
  else if isLocal a s then
    match target (offOf a) s with
    | .hbm p => if linePoison (p / 128) s then faultHere c 6 a s else body p s
    | _ => faultHere c 3 a s
  else faultHere c 3 a s

/-- The 64-bit word at a physical byte. -/
def wordAt (p : Nat) (s : State) : Nat := bitsAt (lineNat (p / 128) s) (8 * (p % 128)) 64

/-- The condition codes of WAITSIG (R145). -/
def sigHolds (cond word value : Nat) : Bool :=
  if cond = 0 then word = value else if cond = 1 then word ≠ value else word ≥ value

/-- WAITSIG (R145). -/
def waitSig (c : Nat) (w : BitVec 22) (s : State) : State :=
  waitInsn 4 c (insnWord 8 4 w) (fD w = 0 && bitsAt w.toNat 2 5 = 0 && bitsAt w.toNat 0 2 ≠ 3) (fun k s =>
    let a := getG k (fP w)
    let v := getG k (fQ w)
    depotWord c a.toNat (fun p s =>
      if readHeld (p / 128) s then recallLine false (p / 128) s
      else if sigHolds (bitsAt w.toNat 0 2) (wordAt p s) v.toNat then retire c k s
      else waitOn c 4 none a v (bitsAt w.toNat 0 2) k s) s) s

/-- The least multiple of `n` at or above `v`. -/
def leastMultiple (v n : Nat) : Nat := (v + n - 1) / n * n

/-- BAR: one atomic increment, then the wait for the next multiple of the count (R145). -/
def barInsn (c : Nat) (w : BitVec 22) (s : State) : State :=
  waitInsn 5 c (insnWord 8 5 w) (fD w = 0 && fX w = 0) (fun k s =>
    let a := getG k (fP w)
    let n := (getG k (fQ w)).toNat
    depotWord c a.toNat (fun p s =>
      match k.wait with
      | some r => if readHeld (p / 128) s then recallLine false (p / 128) s else if wordAt p s ≥ r.target.getD 0 then retire c k s else s
      | none =>
        if writeHeld (p / 128) s then recallLine true (p / 128) s
        else
          let r := atomicAt p (fun o => o + 1) s
          let v := (r.1 + 1) % 2 ^ 64
          if n ≤ 1 then retire c k r.2
          else if v ≥ leastMultiple v n then retire c k r.2
          else waitOn c 5 (some (leastMultiple v n)) a 0 0 k r.2) s) s

/-- A ramp hint for a release at count `rc` (R403): merged with a pending count within 1 us, dropped beyond eight, counted when past or
late. The controller keeps the pending counts. -/
def rampHint (rc : DWord) (s : State) : State :=
  let near := fun (x : DWord) => decide ((x.toNat : Int) - rc.toNat ≤ 1000 ∧ (rc.toNat : Int) - x.toNat ≤ 1000)
  let late := fun s => raise 0xD00F 0x92 0 0 0 (bumpF pwrBase R.PWR_RAMP_STATUS_LATE_COUNT 1 s)
  if rc.toNat < s.count.toNat then late s
  else if s.ramps.any near then s
  else if s.ramps.length ≥ 8 then bumpF pwrBase R.PWR_RAMP_STATUS_DROPPED 1 s
  else
    let s := if rc.toNat < s.count.toNat + 20000 then late s else s
    { s with ramps := s.ramps ++ [rc] }

/-- RHINT (R145, R403). -/
def rhintInsn (c : Nat) (w : BitVec 22) (s : State) : State :=
  waitInsn 6 c (insnWord 8 6 w) (fD w = 0 && fQ w = 0 && fX w = 0) (fun k s => retire c k (rampHint (getG k (fP w)) s)) s

/-- A quiesce-point interval above the limit is reported (R154). -/
def qpInterval (c : Nat) (k : Core) (s : State) : State :=
  let b := seqBase c
  let iv := (s.count - k.qpLast.getD s.count).toNat
  let s := if effF b R.SEQ_CTRL_QP_CHECK R.SEQ_CTRL_LEVEL s = 1 ∧ iv > effF b R.SEQ_QP_LIMIT_LIMIT_NS R.SEQ_CTRL_LEVEL s then
      raise (srcCore c) 0x11 1 (coreId c + min iv (2 ^ 32 - 1) * 2 ^ 8) 0
        (bumpF b R.SEQ_STATUS_QP_OVER_COUNT 1 (setF b R.SEQ_STATUS_QP_OVER 1 s))
    else s
  let s := setF b R.SEQ_QP_MAX_MAX_NS (max (getF b R.SEQ_QP_MAX_MAX_NS s) (min iv (2 ^ 32 - 1))) s
  setPair b R.SEQ_QP_LAST_LO_VALUE R.SEQ_QP_LAST_HI_VALUE s.count.toNat s

/-- QPT (R154, R155): a pending trap is delivered; else the interval is checked and the core retires, and parks if a freeze is due. -/
def qptInsn (c : Nat) (w : BitVec 22) (s : State) : State :=
  waitInsn 7 c (insnWord 8 7 w) (w = 0) (fun k s =>
    orTrap c (fun _ => true) (fun k s =>
      let due := freezeDue s
      let s := qpInterval c k s
      let k := { k with qpCount := k.qpCount + 1, qpLast := some s.count }
      retire c (if due && k.parkFrom.isNone then { k with parkFrom := some s.count, held := some .running } else k) s) k s) s

/-- Whether the engine queues a core feeds are empty (R155): MX, VX, SX, Assay unit and Porter of a Drover core's cluster; for a package
sequencer core the solver problems in progress. -/
def queuesEmpty (c : Nat) (s : State) : Bool :=
  let idle := fun k => let e := getEng k s; e.cross.isEmpty && e.queue.isEmpty
  if c < 36 then
    (List.range 8).all (fun i => idle (kMx (8 * c + i)) && idle (kVx (8 * c + i))) && idle (kSx c) && idle (kAsy c) && idle (kPor c)
  else (List.range 8).all (fun e => !((getEng (kSlv e) s).queue.any (fun x => x.core = c && x.phase ≠ 0)))

/-- Whether core `c` counts as parked at a freeze: PARKED, or IDLE (R155). An IDLE core's engines may then still hold accepted work, against the words of
R96 (DESIGN CHOICE, log 195). -/
def countsParked (c : Nat) (s : State) : Bool := (getCore c s).st = .parked || (getCore c s).st = .idle

/-- Time spent FROZEN does not count toward a wait limit, a batch timeout or a collective's progress (R147, R173, R316): from FROZEN on they hold how long they have run, from the resumption
since when. -/
def flipClocks (s : State) : State :=
  let flip := fun (r : WaitRec) => { r with since := s.count - r.since }
  { s with cores := s.cores.map (fun e => (e.1, { e.2 with wait := e.2.wait.map flip, heldWait := e.2.heldWait.map flip }))
           dsps := s.dsps.map (fun e => (e.1, { e.2 with batches := e.2.batches.map (fun b => { b with since := s.count - b.since }) }))
           col := { s.col with runs := s.col.runs.map (fun x => { x with since := s.count - x.since }) } }

/-- With all 44 cores parked the package is FROZEN; after a recovery freeze CKP_STATUS.STATE reads HALTED (R155, R365). -/
def frozenCheck (s : State) : State :=
  if s.pkg = .running ∧ freezeDue s ∧ (List.range 44).all (fun c => countsParked c s) then
    let s := setPkg .frozen (flipClocks s)
    if s.ckp.halt.isSome then setF ckpBase R.CKP_STATUS_STATE 7 s else s
  else s

/-- FREEZE_COUNT_REACHED (R155): a core waiting at a quiesce point starts to park. -/
def freezeReached (c : Nat) (s : State) : State :=
  let k := getCore c s
  frozenCheck (match k.wait with
    | some r => if k.st = .waiting then setCore c (parkWaiting r k s) s else s
    | none => s)

/-- CORE_PARK (R155): a parking core with a pending trap runs its handler; with empty queues it becomes PARKED and SEQ_DRAIN_NS is set. -/
def corePark (c : Nat) (s : State) : State :=
  let k := getCore c s
  match k.parkFrom with
  | none => s
  | some t =>
    if k.st = .parked ∨ k.trapMask then s
    else match trappedTile c (fun _ => true) s with
      | some (i, x) => deliverTrap c i x k s
      | none =>
        if queuesEmpty c s then
          frozenCheck (setCore c { k with st := .parked } (setF (seqBase c) R.SEQ_DRAIN_NS_DRAIN_NS (s.count - t).toNat s))
        else s

/-! ### The Depot's notices and the wait limit (R147) -/

/-- DEPOT_NOTIFY: the word satisfies the wait and the core goes on. -/
def depotNotify (c : Nat) (s : State) : State :=
  let k := getCore c s
  match k.wait with
  | none => s
  | some r =>
    if k.st = .waiting ∧ (k.parkFrom.isNone ∨ k.trapMask) then
      match target (offOf r.addr.toNat) s with
      | .hbm p =>
        if (r.op = 4 && sigHolds r.cond (wordAt p s) r.value.toNat) || (r.op = 5 && wordAt p s ≥ r.target.getD 0)
        then retire c k s else s
      | _ => s
    else s

/-- WAIT_TIMEOUT: a WAITSIG or BAR that has waited longer than its limit faults; time FROZEN does not count (R147, R166). -/
def waitTimeout (c : Nat) (s : State) : State :=
  let k := getCore c s
  match k.wait with
  | none => s
  | some r =>
    if k.st = .waiting ∧ (r.op = 4 ∨ r.op = 5) ∧ (k.parkFrom.isNone ∨ k.trapMask) ∧ (r.limit.any (fun l => decide (1000 * l < (s.count - r.since).toNat)))
    then faultHere c 7 r.addr.toNat s
    else s

/-! ### The system class -/

/-- SYSRD (R136): CORE_ID, package number, global counter, TAG. -/
def sysrd (c : Nat) (w : BitVec 22) (s : State) : State :=
  let sel := bitsAt w.toNat 0 12
  insn c (insnWord 0xB 0 w) (fP w = 0 && sel < 4) (fun k s =>
    let v := if sel = 0 then coreId c else if sel = 1 then pkgNum s else if sel = 2 then s.count.toNat else k.tag.toNat
    retire c (setG (fD w) (BitVec.ofNat 64 v) k) s) s

/-- TRET (R153): back to the delivering instruction, which executes again; delivery is unmasked. A wait that the trap interrupted goes on. -/
def tret (c : Nat) (w : BitVec 22) (s : State) : State :=
  insn c (insnWord 0xB 3 w) (w = 0) (fun k s =>
    let b := seqBase c
    let pc := getPair b R.SEQ_TRAP_PC_LO_VALUE R.SEQ_TRAP_PC_HI_VALUE s
    let s := retireAt c (BitVec.ofNat 48 pc) { k with trapMask := false, heldWait := none } (setF b R.SEQ_TCAUSE_VALID 0 s)
    match k.heldWait with
    | some r => setCore c { getCore c s with st := .waiting, wait := some r } s
    | none => s) s

/-- The engine queues of the package are empty (R429). -/
def allEnginesIdle (s : State) : Bool := s.engines.all (fun e => e.2.cross.isEmpty && e.2.queue.isEmpty)

/-- RUNNING → ADMITTED when all eight package sequencer cores have executed HALT and every engine queue is empty: JOB_END (R429). -/
def jobEnd (s : State) : State :=
  if s.pkg = .running ∧ (List.range 8).all (fun n => (getCore (36 + n) s).st = .idle) ∧ allEnginesIdle s then
    setPkg .admitted (raise 0 0x06 0 0 0 s)
  else s

/-- A started Drover core has executed HALT: the cluster starts that named it count it, and complete when all have (R160). -/
def startHalted (c : Nat) (s : State) : State :=
  s.starts.foldl (fun s g =>
    let left := g.left.filter (· ≠ c)
    if left.isEmpty then
      let k := getCore g.core s
      setCore g.core { k with out := k.out.filter (fun o => !(o.kind = 0xA && o.tag = g.tag)) } s
    else { s with starts := s.starts ++ [{ g with left := left }] }) { s with starts := [] }

/-- HALT (R160): the core becomes IDLE. -/
def halt (c : Nat) (w : BitVec 22) (s : State) : State :=
  insn c (insnWord 0xB 4 w) (w = 0) (fun k s =>
    frozenCheck (jobEnd (startHalted c (retire c k s |> fun s => setCore c { (getCore c s) with st := .idle } s)))) s

/-- NOP of the system class. -/
def sysNop (c : Nat) (w : BitVec 22) (s : State) : State :=
  insn c (insnWord 0xB 5 w) (w = 0) (fun k s => retire c k s) s

/-- WAIT.E (R145). -/
def execWaitE (c : Fin 44) (w : BitVec 22) (s : State) : Host.Outcome State Fault Refusal :=
  .next (waitE c w s)

/-- WAIT.ALL (R145). -/
def execWaitAll (c : Fin 44) (w : BitVec 22) (s : State) : Host.Outcome State Fault Refusal :=
  .next (waitAll c w s)

/-- FENCE.LOCAL (R145). -/
def execFenceLocal (c : Fin 44) (w : BitVec 22) (s : State) : Host.Outcome State Fault Refusal :=
  .next (fenceLocal c w s)

/-- FENCE.REMOTE (R25, R145). -/
def execFenceRemote (c : Fin 44) (w : BitVec 22) (s : State) : Host.Outcome State Fault Refusal :=
  .next (fenceRemote c w s)

/-- WAITSIG (R145). -/
def execWaitsig (c : Fin 44) (w : BitVec 22) (s : State) : Host.Outcome State Fault Refusal :=
  .next (waitSig c w s)

/-- BAR (R145). -/
def execBar (c : Fin 44) (w : BitVec 22) (s : State) : Host.Outcome State Fault Refusal :=
  .next (barInsn c w s)

/-- RHINT (R145, R403). -/
def execRhint (c : Fin 44) (w : BitVec 22) (s : State) : Host.Outcome State Fault Refusal :=
  .next (rhintInsn c w s)

/-- QPT (R154). -/
def execQpt (c : Fin 44) (w : BitVec 22) (s : State) : Host.Outcome State Fault Refusal :=
  .next (qptInsn c w s)

/-- SYSRD (R136). -/
def execSysrd (c : Fin 44) (w : BitVec 22) (s : State) : Host.Outcome State Fault Refusal :=
  .next (sysrd c w s)

/-- TRET (R153). -/
def execTret (c : Fin 44) (w : BitVec 22) (s : State) : Host.Outcome State Fault Refusal :=
  .next (tret c w s)

/-- HALT (R160). -/
def execHalt (c : Fin 44) (w : BitVec 22) (s : State) : Host.Outcome State Fault Refusal :=
  .next (halt c w s)

/-- NOP of the system class (R136). -/
def execFletrumNop (c : Fin 44) (w : BitVec 22) (s : State) : Host.Outcome State Fault Refusal :=
  .next (sysNop c w s)

/-- DEPOT_NOTIFY (R147). -/
def execDepotNotify (c : Fin 44) (s : State) : Host.Outcome State Fault Refusal :=
  .next (depotNotify c s)

/-- WAIT_TIMEOUT (R147). -/
def execWaitTimeout (c : Fin 44) (s : State) : Host.Outcome State Fault Refusal :=
  .next (waitTimeout c s)

/-- CORE_PARK (R155). -/
def execCorePark (c : Fin 44) (s : State) : Host.Outcome State Fault Refusal :=
  .next (corePark c s)


end Sys2Proof.Machine
end

