-- ==== Sys2Proof/Machine/EngOps.lean ====
section
/-! DEFINITION. What every engine shares: its queue, acceptance and rejection (R143), reading its sources on this package, on others
and in companion memory (R140, R189, R236), and completion with a summary (R111, R145). -/

namespace Sys2Proof.Machine

/-- How many accepted instructions an engine of an issue kind holds (R68, R114, R120, R185, R193, R219, R302). -/
def queueCap (kind : Nat) : Nat :=
  match kind with
  | 0 => 4 | 1 => 8 | 3 => 2 | 4 => 4 | 5 => 8 | 6 => 18 | 8 => 2 | 9 => 64 | _ => 0

/-- The engine key an issue of core `c` names (R141). -/
def engKey (kind c tile : Nat) : Nat :=
  match kind with
  | 0 => kMx (8 * c + tile) | 1 => kVx (8 * c + tile) | 3 => kSx c | 4 => kAsy c | 5 => kPor c
  | 6 => kDsp (c / 9) | 8 => kSlv tile | _ => kCol

/-- The front of an engine's crossing instructions. -/
def crossHead (k : Nat) (s : State) : Option EngIns := (getEng k s).cross.head?
/-- The instruction an engine executes: the front of its queue. -/
def engHead (k : Nat) (s : State) : Option EngIns := (getEng k s).queue.head?
/-- Replace the front of an engine's queue. -/
def setHead (k : Nat) (x : EngIns) (s : State) : State :=
  let e := getEng k s
  setEng k { e with queue := x :: e.queue.tail } s

/-- An acceptance check fails: the instruction is not executed and the issuing core takes ENGINE_CONFIG with the ISSUE's PC, tag, kind,
tile and cause; a core already stopped drops the fault (R143, R163). -/
def engReject (k cause : Nat) (s : State) : State :=
  match crossHead k s with
  | none => s
  | some x =>
    let e := getEng k s
    let s := setEng k { e with cross := e.cross.tail } s
    if (getCore x.core s).st = .stopped then s
    else coreFault x.core 2 x.pc x.tag.toNat x.kind x.tile cause s

/-- The front crossing instruction is accepted, with what acceptance sampled. -/
def engAccept (k : Nat) (cfg : Word) (desc : Nat) (s : State) : State :=
  let e := getEng k s
  match e.cross with
  | [] => s
  | x :: rest => ranAdd k (setEng k { e with cross := rest, queue := e.queue ++ [{ x with cfg := cfg, desc := desc }] } s)

/-- The first failing check of a list of causes in the order of R143. -/
def firstCause : List (Bool × Nat) → Option Nat
  | [] => none
  | (bad, c) :: m => if bad then some c else firstCause m

/-- Accept or reject the front crossing instruction: with room in the queue, the checks run and the first that fails rejects (R143). -/
def accept (k cap : Nat) (checks : EngIns → List (Bool × Nat)) (cfg : EngIns → Word) (desc : EngIns → Nat) (s : State) : State :=
  match crossHead k s with
  | none => s
  | some x =>
    if (getEng k s).queue.length ≥ cap then s
    else match firstCause (checks x) with
      | some c => engReject k c s
      | none => engAccept k (cfg x) (desc x) s

/-- What a block of `n` bytes at `a` needs before it can be read: a companion line that no Depot holds, or a line that the companion owns (R247, R291). -/
def blockAsk (n a : Nat) (s : State) : Option (State → State) :=
  if isLocal a s ∧ a % n = 0 then
    match target (offOf a) s with
    | .companion w => if (sFind s.depot (compKey (w / 128))).isNone then some (halRequest 0x01 (w / 128) .none) else none
    | .hbm p => if readHeld (p / 128) s then some (recallLine false (p / 128)) else none
    | _ => none
  else none

/-- `body`, once the descriptor of `n` bytes that the front crossing instruction names can be read; it is read when there is room (R143). -/
def withBlock (k cap n : Nat) (body : State → State) (s : State) : State :=
  match crossHead k s with
  | none => s
  | some x =>
    if (getEng k s).queue.length ≥ cap then s
    else match blockAsk n x.p.toNat s with
      | some f => f s
      | none => body s

/-- Corrected errors in the block that acceptance reads: they count when it is read, which is when an instruction crosses, there is room, and no check
on the block's own address fails (R94, R128, R143, R194). -/
def acceptCe (k cap : Nat) (own : EngIns → Bool) (base : Nat) (f : Fld) (n : Nat) (s : State) : State :=
  match crossHead k s with
  | none => s
  | some x => if n ≠ 0 && decide ((getEng k s).queue.length < cap) && own x then bumpF base f n s else s

/-- The issuing core learns that its instruction is complete: the summary register becomes valid and the instruction leaves its list
of issued ones (R135, R145). -/
def coreComplete (x : EngIns) (v : BitVec 128) (s : State) : State :=
  let k := getCore x.core s
  let k := match x.sum with
    | some r => putSum r v k
    | none => k
  setCore x.core { k with out := k.out.filter (fun o => !(o.kind = x.kind && o.tile = x.tile && o.tag = x.tag)) } s

/-- The engine's executed front instruction completes and leaves the queue. -/
def engComplete (k : Nat) (v : BitVec 128) (s : State) : State :=
  match engHead k s with
  | none => s
  | some x =>
    let e := getEng k s
    jobEnd (coreComplete x v (setEng k { e with queue := e.queue.tail, rx := [], rxPoison := [], rxDead := [], drops := [], trap := none, rows := [] } s))

/-! ### Addresses that name the same bytes (R28, R230, R250) -/

/-- A window offset with the reduction window's lines at their target: the linear or the spread window (R250). -/
def canonOff (off : Nat) : Nat :=
  if 3 * 2 ^ 44 ≤ off ∧ off < 2 ^ 46 then off / 2 ^ 40 % 2 * 2 ^ 44 + off % 2 ^ 40 else off
/-- One name for the bytes at a global address: this package by 0xFFFF, a reduction window by its target. -/
def canonGa (ga : Nat) (s : State) : Nat :=
  canonOff (offOf ga) + 2 ^ 48 * (if isLocal ga s then 0xFFFF else ga / 2 ^ 48 % 2 ^ 16)

/-! ### Sources on any package (R28, R140, R231) -/

/-- Whether a line of the global map must be fetched from outside: another package's, or companion memory no Depot holds. -/
def lineOutside (ga : Nat) (s : State) : Bool :=
  if isLocal ga s then
    match target (offOf ga) s with
    | .companion w => (sFind s.depot (compKey (w / 128))).isNone
    | _ => false
  else true

/-- The key of a global line in an engine's receive buffer. -/
def lineKey (ga : Nat) : Nat := ga / 128

/-- The 128 bytes of a global line as engine `k` sees them. -/
def engLine (k ga : Nat) (s : State) : Nat :=
  if lineOutside ga s then
    match sFind (getEng k s).rx (lineKey ga) with
    | some l => l.toNat
    | none => 0
  else localLine (offOf ga) s

/-- Whether a global line arrived, or reads, poisoned (R236). -/
def engPoison (k ga : Nat) (s : State) : Bool :=
  if lineOutside ga s then (getEng k s).rxPoison.contains (lineKey ga) else localPoison (offOf ga) s

/-- `n` bytes at a global address as engine `k` reads them, line by line. -/
def engReadGo (k : Nat) (s : State) : Nat → Nat → Nat → Nat
  | 0, _, _ => 0
  | fuel + 1, a, n =>
    if n = 0 then 0
    else
      let o := a % 128
      let m := min n (128 - o)
      bitsAt (engLine k (a - o) s) (8 * o) (8 * m) + 2 ^ (8 * m) * engReadGo k s fuel (a + m) (n - m)

/-- `n` bytes at a global address as engine `k` reads them. -/
def engRead (k a n : Nat) (s : State) : Nat := engReadGo k s (n / 128 + 2) a n

/-- The lines of a byte range. -/
def rangeLines (a n : Nat) : List Nat :=
  if n = 0 then [] else (List.range ((a % 128 + n + 127) / 128)).map (fun i => a - a % 128 + 128 * i)

/-- The lines of several ranges that must come from outside and have not arrived. -/
def missingLines (k : Nat) (ranges : List (Nat × Nat)) (s : State) : List Nat :=
  ((ranges.flatMap (fun r => rangeLines r.1 r.2)).filter (fun l => lineOutside l s && (sFind (getEng k s).rx (lineKey l)).isNone)).dedup

/-- Runs of lines that follow one another, at most 8 each: first line and count. -/
def lineRuns : List Nat → List (Nat × Nat)
  | [] => []
  | a :: m =>
    match lineRuns m with
    | [] => [(a, 1)]
    | (b, n) :: r => if b = a + 128 ∧ n < 8 then (a, n + 1) :: r else (a, 1) :: (b, n) :: r

/-- Whether a remote line has been asked for. -/
def lineAsked (k ga : Nat) (s : State) : Bool :=
  hasTxn (fun x => x.isRead && x.owner = .eng k && x.dst.toNat = ga / 2 ^ 48 % 2 ^ 16 && decide (x.line.toNat ≤ offOf ga / 128) &&
    decide (offOf ga / 128 < x.line.toNat + x.n)) s

/-- Ask for outside lines: runs of a package's lines by an RD each, up to 8 lines (R264), and uncached reads of companion memory. `lat` marks the reads
latency-critical (R186, R237). -/
def fetchLines (k : Nat) (lat : Bool) (l : List Nat) (s : State) : State :=
  let far := l.filter (fun ga => !isLocal ga s && !lineAsked k ga s)
  let s := l.foldl (fun s ga =>
    if isLocal ga s then match target (offOf ga) s with
      | .companion w => halRequest 0x04 (w / 128) (.eng k) s
      | _ => s
    else s) s
  (lineRuns far).foldl (fun s r => sendReq true lat (r.1 / 2 ^ 48 % 2 ^ 16) (offOf r.1 / 128) r.2 [] 0 (.eng k) false s) s

/-- Lines of HBM in the ranges. -/
def rangeHbm (ranges : List (Nat × Nat)) (s : State) : List Nat :=
  ((ranges.flatMap (fun r => rangeLines r.1 r.2)).filterMap (fun l =>
    if isLocal l s then
      match target (offOf l) s with
      | .hbm p => some (p / 128)
      | _ => none
    else none)).dedup

/-- Run `body` once no line of the ranges, which it writes, has a copy or a request before it at its home; until then recall them (R246, R292). -/
def withRoom (ranges : List (Nat × Nat)) (body : State → State) (s : State) : State :=
  if s.hal.dir.isEmpty && s.hal.snoops.isEmpty && s.hal.waiting.isEmpty then body s
  else match (rangeHbm ranges s).filter (fun pl => writeHeld pl s) with
    | [] => body s
    | m => m.foldl (fun s l => recallLine true l s) s

/-- Lines of HBM in the ranges that must be recalled, or awaited, before an engine reads them (R246, R292). -/
def heldLines (ranges : List (Nat × Nat)) (s : State) : List Nat :=
  if s.hal.dir.isEmpty && s.hal.snoops.isEmpty && s.hal.waiting.isEmpty then [] else (rangeHbm ranges s).filter (fun pl => readHeld pl s)

/-- Engine traffic that reads allocates in its Depot with STREAM_ALLOC = 1 (R245). -/
def streamFill (k : Nat) (ranges : List (Nat × Nat)) (s : State) : State :=
  if [0, 1, 2, 3].any (fun d => streamAlloc d s) then
    (rangeHbm ranges s).foldl (fun s pl => match writeAlloc (.eng k) pl s with
      | some d => depotFill d pl s
      | none => s) s
  else s

/-- Run `body` once every source line is at hand; until then ask for what is missing and change nothing else. -/
def withSourcesLat (lat : Bool) (k : Nat) (ranges : List (Nat × Nat)) (body : State → State) (s : State) : State :=
  match heldLines ranges s with
  | p :: ps => (p :: ps).foldl (fun s l => recallLine false l s) s
  | [] =>
    match missingLines k ranges s with
    | [] => body (streamFill k ranges s)
    | m => fetchLines k lat m s

/-- Run `body` once every source line is at hand, with normal reads. -/
def withSources (k : Nat) (ranges : List (Nat × Nat)) (body : State → State) (s : State) : State := withSourcesLat false k ranges body s

/-! ### Writing (R25, R145, R189) -/

/-- The rest of a partly written line that leaves: the identity of a reducing write (R189, R251); zeros from a Porter to another package (R189); else a
free value: the spec gives no write of part of such a line (log 189). -/
def txPad (k : Nat) (far : Bool) (off n : Nat) : Nat :=
  if 3 * 2 ^ 44 ≤ off ∧ off < 2 ^ 46 then packBits 64 (List.replicate 16 (reduceIdentity ((off - 3 * 2 ^ 44) / 2 ^ 41)))
  else if far ∧ 648 ≤ k ∧ k < 684 then 0
  else Config.freeResult 95 n % 2 ^ 1024

/-- The 128 bytes of `a` where the mask is set, else those of `b`. -/
def maskBytes (m a b : Nat) : Nat :=
  if m = 2 ^ 128 - 1 then a
  else packBits 8 ((List.range 128).map (fun i => if bitAt m i then bitsAt a (8 * i) 8 else bitsAt b (8 * i) 8))

/-- Fill part of an outgoing line. -/
def txPut (k key o n v : Nat) (poison : Bool) (s : State) : State :=
  let e := getEng k s
  let x := sGet ⟨0, 0, false⟩ e.tx key
  setEng k { e with tx := sIns key ⟨x.mask ||| ((2 ^ n - 1) * 2 ^ o), putBits x.data (8 * o) (8 * n) v, x.poison || poison⟩ e.tx } s

/-- The cluster of an SX, an Assay unit or a Porter, whose writes to other clusters' tile windows leave through a Porter. -/
def porterCluster (k : Nat) : Option Nat := if 576 ≤ k ∧ k < 684 then some ((k - 576) % 36) else none

/-- Whether a write of engine `k` is gathered into whole lines: to another package (R25), into a tile window of another cluster (R22, R231), or a
reducing write (R250, R251). -/
def leaves (k a : Nat) (s : State) : Bool :=
  if isLocal a s then match target (offOf a) s with
    | .tile p _ => (porterCluster k).any (fun cl => decide (p / 8 ≠ cl))
    | .reduction _ _ => true
    | _ => false
  else true

/-- One write inside one line by engine `k`: at once, or into the line that leaves. -/
def engPut (k a n v : Nat) (poison : Bool) (s : State) : State :=
  if leaves k a s then txPut k (a / 128) (a % 128) n v poison s else putLine (.eng k) (offOf a) n v poison s

/-- Write `n` bytes at a global address by engine `k`, line by line; `fuel` bounds the lines. -/
def engWriteGo (k : Nat) (poison : Bool) : Nat → Nat → Nat → Nat → State → State
  | 0, _, _, _, s => s
  | fuel + 1, a, n, v, s =>
    if n = 0 then s
    else
      let m := min n (128 - a % 128)
      engWriteGo k poison fuel (a + m) (n - m) (v / 2 ^ (8 * m)) (engPut k a m (v % 2 ^ (8 * m)) poison s)

/-- Write `n` bytes at a global address by engine `k`. -/
def engWrite (k a n v : Nat) (s : State) : State := engWriteGo k false (n / 128 + 2) a n v s

/-- Write `n` bytes at a global address by engine `k`, marked poisoned where `poison` says so (R194, R236). -/
def engWriteBad (k : Nat) (poison : Bool) (a n v : Nat) (s : State) : State := engWriteGo k poison (n / 128 + 2) a n v s

/-- Send a run of outgoing lines: as one WR, or line by line into tile windows of this package. -/
def txSend (k : Nat) (e : Store TxLine) (r : Nat × Nat) (s : State) : State :=
  let off := offOf r.1
  let xs := (List.range r.2).map (fun i =>
    let x := sGet ⟨0, 0, false⟩ e (r.1 / 128 + i)
    (off + 128 * i, maskBytes x.mask x.data (txPad k (!isLocal r.1 s) (off + 128 * i) (s.fresh * 2 ^ 48 + off + 128 * i)), x.poison))
  if isLocal r.1 s then xs.foldl (fun s x => putLine (.eng k) x.1 128 x.2.1 x.2.2 s) s
  else
    sendReq false false (r.1 / 2 ^ 48 % 2 ^ 16) (off / 128) r.2 (xs.flatMap (fun x => lineSlots x.2.1)) (packBits 1 (xs.map (fun x => b2n x.2.2)))
      (.eng k) (3 * 2 ^ 44 ≤ off ∧ off < 2 ^ 46) s

/-- Whether writes of engine `k` are still to be acknowledged or performed (R145). -/
def engOpen (k : Nat) (s : State) : Bool := hasTxn (fun x => !x.isRead && x.owner = .eng k) s || writesOpen (.eng k) s

/-- Send what the engine's writes have filled, in messages of up to 8 lines (R25, R264). -/
def engFlush (k : Nat) (s : State) : State :=
  let e := getEng k s
  match e.tx with
  | [] => s
  | tx => (lineRuns (tx.map (fun x => x.1 * 128))).foldl (fun s r => txSend k tx r s) (setEng k { e with tx := [] } { s with fresh := s.fresh + 1 })

/-! ### Flags and errors of an engine's instruction -/

/-- Set the sticky flags an instruction raised: `fs` lists the flag bit and its field. -/
def setFlags (base fl : Nat) : List (Nat × Fld) → State → State
  | [], s => s
  | (i, f) :: m, s => setFlags base fl m (if bitAt fl i then setF base f 1 s else s)

/-- Bytes [a, a + n) and [b, b + m) overlap. -/
def overlaps (a n b m : Nat) : Bool := decide (a < b + m) && decide (b < a + n) && n ≠ 0 && m ≠ 0

/-- Little-endian 32-bit word `i` of a descriptor. -/
def dw (d i : Nat) : Nat := bitsAt d (32 * i) 32
/-- 64-bit field of a descriptor at byte `b`. -/
def dq (d b : Nat) : Nat := bitsAt d (8 * b) 64

/-- Rows of bytes: `rows` rows of `len` bytes at `base` + r × `stride`. -/
structure Rng where
  base : Nat
  rows : Nat
  stride : Nat
  len : Nat
  deriving DecidableEq, Repr

/-- The end of the last row. -/
def Rng.stop (r : Rng) : Nat := if r.rows = 0 then 0 else r.base + (r.rows - 1) * r.stride + r.len
/-- Whether some row of `r` overlaps some row of `q`. -/
def Rng.meets (r q : Rng) : Bool :=
  (List.range r.rows).any (fun i => (List.range q.rows).any (fun j =>
    overlaps (r.base + i * r.stride) r.len (q.base + j * q.stride) q.len))
/-- The rows under the one name of their bytes. -/
def Rng.canon (r : Rng) (s : State) : Rng := { r with base := canonGa r.base s }
/-- Whether byte `a` lies in one of the rows [lo, hi). -/
def Rng.has (r : Rng) (lo hi a : Nat) : Bool :=
  (List.range r.rows).any (fun i => lo ≤ i && i < hi && r.base + i * r.stride ≤ a && a < r.base + i * r.stride + r.len)

/-- A register's word with its expert fields as they act (R427). -/
def effReg (base : Nat) (r lvl : Fld) (ex : List Fld) (s : State) : Nat :=
  ex.foldl (fun w f => putBits w f.lo f.w (effF base f lvl s)) (csrGet r.word (base + r.off) s).toNat

/-- Uncorrectable errors an instruction read are counted one by one: the UE bit, its count, the first address, the tag, and a
severity-2 record each (R94, R128, R194). -/
def engUe (base : Nat) (ue cnt tag valid : Fld) (put : Nat → State → State) (rec : Nat → State → State) (t : BitVec 16) :
    List Nat → State → State
  | [], s => s
  | a :: m, s =>
    engUe base ue cnt tag valid put rec t m
      (rec a (setF base tag (t.toNat % 256) (bumpF base cnt 1 (setF base ue 1 (capture base valid (put a) s)))))

/-- Whether one of the bytes [ga, ga + n) is bad: ECC reported it, or its line reads poisoned (R236). -/
def badGlobal (k : Nat) (bad : List Nat) (ga n : Nat) (s : State) : Bool :=
  bad.any (fun a => decide (ga ≤ a) && decide (a < ga + n)) || (rangeLines ga n).any (fun l => engPoison k l s)

/-- The bad addresses in ranges: bytes ECC reported, then lines that read poisoned. -/
def badAddrs (k : Nat) (bad : List Nat) (ranges : List (Nat × Nat)) (s : State) : List Nat :=
  bad.filter (fun a => ranges.any (fun r => decide (r.1 ≤ a) && decide (a < r.1 + r.2))) ++
  ((ranges.flatMap (fun r => rangeLines r.1 r.2)).filter (fun l => engPoison k l s)).dedup

/-- Local windows an engine of cluster `cl` may name (R231 to R233): HBM, companion, tile windows it may use. -/
inductive Use where
  | read
  | write
  deriving DecidableEq, Repr

/-- Whether byte address `ga` may be named by an engine of cluster `cl` for the use; `red` allows the reduction window. Addresses on
another package are not checked (R233). -/
def placeOk (cl : Nat) (u : Use) (red : Bool) (ga : Nat) (s : State) : Bool :=
  if isLocal ga s then
    match target (offOf ga) s with
    | .hbm _ => true
    | .companion _ => true
    | .tile p _ => u = .write || p / 8 = cl
    | .reduction op _ => red && op ≠ 0
    | _ => false
  else true

/-- Whether a descriptor address lies in the own cluster's tile SRAM or in this package's HBM windows (R177, R186). -/
def descPlaceOk (cl ga n : Nat) (s : State) : Bool :=
  isLocal ga s && (match target (offOf ga) s with
    | .hbm _ => inHbm (offOf ga) n s
    | .tile p a => p / 8 = cl && a + n ≤ 0x600000
    | _ => false)

end Sys2Proof.Machine
end

