-- ==== Sys2Proof/Machine/Matrix.lean ====
section
/-! DEFINITION. The matrix engine (R38 to R58, R63 to R97): acceptance checks, operand layouts, 2:4 sparsity, skipping, the
exact group sums, output conversion, and completion. -/

namespace Sys2Proof.Machine

/-- The descriptor (R70) with the sampled MX_CFG fields (R65). -/
structure MxD where
  fa : Nat
  fb : Nat
  fo : Nat
  pass : Nat
  sat : Bool
  scaleEn : Bool
  sparse : Bool
  skip : Bool
  flagSum : Nat
  op : Nat
  bmdEn : Bool
  m : Nat
  n : Nat
  k : Nat
  desc : Nat

/-- Fields of an accepted instruction. -/
def mxD (cfg : Word) (desc : Nat) : MxD :=
  let c := cfg.toNat
  ⟨bitsAt c 0 4, bitsAt c 4 4, bitsAt c 8 4, bitsAt c 12 2, bitAt c 14, bitAt c 15, bitAt c 16, bitAt c 17, bitsAt c 18 4,
   bitsAt desc 0 2, bitAt desc 3, bitsAt (dw desc 1) 0 8 + 1, bitsAt (dw desc 1) 8 8 + 1, bitsAt (dw desc 1) 16 14 + 1, desc⟩

/-- Address word `i` of the descriptor. -/
def MxD.addr (x : MxD) (i : Nat) : Nat := bitsAt (dw x.desc i) 0 23
/-- Row strides in bytes: LDA, LDB, LDC, LDD. -/
def MxD.lda (x : MxD) : Nat := 128 * bitsAt (dw x.desc 12) 0 16
def MxD.ldb (x : MxD) : Nat := 128 * bitsAt (dw x.desc 12) 16 16
def MxD.ldc (x : MxD) : Nat := 128 * bitsAt (dw x.desc 13) 0 16
def MxD.ldd (x : MxD) : Nat := 128 * bitsAt (dw x.desc 13) 16 16

/-- The kind two operand formats must share (R40): 4, 6, 8, the INT8, BF16, FP16, FP32 and FP64 codes shifted by 16; 0 none. -/
def mxKind (f : Nat) : Nat :=
  match f with
  | 0 => 8 | 1 => 8 | 2 => 6 | 3 => 6 | 4 => 4 | 5 => 21 | 6 => 22 | 7 => 23 | 8 => 24 | 9 => 25 | _ => 0

/-- The legal combinations of R40. -/
def mxLegal (x : MxD) : Bool :=
  let k := mxKind x.fa
  let short := x.fo = 8 || x.fo = 6 || x.fo = 7 || x.fo = 0 || x.fo = 1
  k ≠ 0 && k = mxKind x.fb &&
    (if k = 21 then x.pass = 1 && x.fo = 10
     else if k = 24 then (x.pass = 2 || x.pass = 3) && (x.fo = 8 || x.fo = 6 || x.fo = 7)
     else if k = 25 then x.pass ≠ 0 && x.fo = 9
     else x.pass = 1 && short)

/-- Group size G (R40). -/
def MxD.g (x : MxD) : Nat := if mxKind x.fa = 4 then 32 else 16
/-- Bytes of an accumulator element. -/
def MxD.accBytes (x : MxD) : Nat := if mxKind x.fa = 25 then 8 else 4
/-- Bytes of an output element. -/
def MxD.outBytes (x : MxD) : Nat := codeBits x.fo / 8
/-- Whether block scales are read (R38, R39). -/
def MxD.scaled (x : MxD) : Bool := x.scaleEn && mxKind x.fa ≤ 8
/-- Blocks of 32 along K. -/
def MxD.nb (x : MxD) : Nat := (x.k + 31) / 32
/-- Bytes of an occupancy bitmap of `r` rows × `l` elements (R81). -/
def bmBytes (r l : Nat) : Nat := ((r + 31) / 32 * ((l + 31) / 32) + 7) / 8

/-- Ranges read and written (R70, R76, R78, R81); an unused operand has no rows. -/
def MxD.rA (x : MxD) : Rng := ⟨x.addr 2, x.m, x.lda, ((if x.sparse then 2 * ((x.k + 3) / 4) else x.k) * codeBits x.fa + 7) / 8⟩
def MxD.rB (x : MxD) : Rng := ⟨x.addr 3, x.n, x.ldb, (x.k * codeBits x.fb + 7) / 8⟩
def MxD.rC (x : MxD) : Rng := ⟨x.addr 4, if x.op = 1 then x.m else 0, x.ldc, x.n * x.accBytes⟩
def MxD.rD (x : MxD) : Rng := ⟨x.addr 5, x.m, x.ldd, x.n * x.outBytes⟩
def MxD.rSA (x : MxD) : Rng := ⟨x.addr 6, if x.scaled then x.m else 0, roundUp x.nb 16, x.nb⟩
def MxD.rSB (x : MxD) : Rng := ⟨x.addr 7, if x.scaled then x.n else 0, roundUp x.nb 16, x.nb⟩
def MxD.rMeta (x : MxD) : Rng := ⟨x.addr 8, if x.sparse then x.m else 0, roundUp ((x.k + 7) / 8) 16, (x.k + 7) / 8⟩
def MxD.rBma (x : MxD) : Rng := ⟨x.addr 9, if x.skip && !x.sparse then 1 else 0, 0, bmBytes x.m x.k⟩
def MxD.rBmb (x : MxD) : Rng := ⟨x.addr 10, if x.skip then 1 else 0, 0, bmBytes x.n x.k⟩
def MxD.rBmd (x : MxD) : Rng := ⟨x.addr 11, if x.bmdEn then 1 else 0, 0, bmBytes x.m x.n⟩

/-- Input ranges other than C. -/
def MxD.inputs (x : MxD) : List Rng := [x.rA, x.rB, x.rSA, x.rSB, x.rMeta, x.rBma, x.rBmb]
/-- The four 128-byte aligned operands. -/
def MxD.big (x : MxD) : List Rng := [x.rA, x.rB, x.rC, x.rD]
/-- The 16-byte aligned ones. -/
def MxD.small (x : MxD) : List Rng := [x.rSA, x.rSB, x.rMeta, x.rBma, x.rBmb, x.rBmd]

/-- A reserved bit of the descriptor is 1, or OP is reserved (R70). -/
def mxReserved (d : Nat) : Bool :=
  bitsAt d 0 2 > 1 || bitsAt (dw d 0) 4 28 ≠ 0 || bitsAt (dw d 1) 30 2 ≠ 0 ||
  (List.range 10).any (fun i => bitsAt (dw d (i + 2)) 23 9 ≠ 0) || dw d 14 ≠ 0 || dw d 15 ≠ 0

/-- D overlaps what it must not (R71, cause 0x06). -/
def mxOverlap (x : MxD) : Bool :=
  x.inputs.any (fun r => r.meets x.rD || r.meets x.rBmd) ||
  (x.rC.meets x.rD && !(x.addr 4 = x.addr 5 && x.ldc = x.ldd && x.accBytes = x.outBytes))

/-- Tile SRAM ends here. -/
def sramEnd : Nat := 0x600000

/-- The acceptance checks in the order of R143 (R41, R71, R77). -/
def mxChecks (ue : Bool) (p : Nat) (x : MxD) : List (Bool × Nat) :=
  [(p % 64 ≠ 0, 3), (p + 64 > sramEnd, 4), (ue, 8), (!mxLegal x, 1), (mxReserved x.desc, 2),
   (x.big.any (fun r => r.rows ≠ 0 && r.base % 128 ≠ 0) || x.small.any (fun r => r.rows ≠ 0 && r.base % 16 ≠ 0), 3),
   (x.big.any (fun r => r.stop > sramEnd) || x.small.any (fun r => r.stop > sramEnd), 4),
   (x.big.any (fun r => r.rows ≠ 0 && r.stride < r.len), 5), (mxOverlap x, 6),
   (x.sparse && !(x.pass = 1 && (mxKind x.fa ≤ 8 || mxKind x.fa = 21)), 7)]

/-- MX_CFG as it acts. -/
def mxCfg (p : Nat) (s : State) : Word :=
  BitVec.ofNat 32 (effReg (tileBase p) R.MX_CFG_FMT_A R.MX_CFG_LEVEL [R.MX_CFG_SAT, R.MX_CFG_FLAG_SUM_EN] s)
/-- The 64 bytes of the descriptor. -/
def mxDesc (p : Nat) (x : EngIns) (s : State) : Nat := tileReadN p x.p.toNat 64 s

/-- MX_ACCEPT (R41, R70, R71). The descriptor is read at acceptance, also where an earlier accepted instruction is still to write its line: R70 names
the moment, and R72's interlock is read as one of execution (log 192). -/
def mxAccept (p : Nat) (ue : Bool) (ce : Nat) (s : State) : State :=
  let s := acceptCe (kMx p) 4 (fun x => decide (x.p.toNat % 64 = 0) && decide (x.p.toNat + 64 ≤ sramEnd)) (tileBase p) R.MX_CE_COUNT_COUNT ce s
  accept (kMx p) 4 (fun x => mxChecks (ue || tileMarked p x.p.toNat 64 s) x.p.toNat (mxD (mxCfg p s) (mxDesc p x s)))
    (fun _ => mxCfg p s) (fun x => mxDesc p x s) s

/-! ### Operands -/

/-- Row `r` of a range, as a number. -/
def rowOf (p : Nat) (r : Rng) (i : Nat) (s : State) : Nat := tileReadN p (r.base + i * r.stride) r.len s

/-- The stored element of A at K index `k` of row `m`; none where 2:4 metadata leaves it out (R78 to R80). -/
def mxA (x : MxD) (p m k : Nat) (s : State) : Option Nat :=
  let w := codeBits x.fa
  let row := rowOf p x.rA m s
  if x.sparse then
    let nib := bitsAt (rowOf p x.rMeta m s) (4 * (k / 4)) 4
    let p1 := nib % 4
    let p2 := nib / 4
    if p1 ≥ p2 then none
    else if k % 4 = p1 then some (bitsAt row (2 * (k / 4) * w) w)
    else if k % 4 = p2 then some (bitsAt row ((2 * (k / 4) + 1) * w) w)
    else none
  else some (bitsAt row (k * w) w)

/-- B at K index `k` of column `n`. -/
def mxB (x : MxD) (p n k : Nat) (s : State) : Nat := bitsAt (rowOf p x.rB n s) (k * codeBits x.fb) (codeBits x.fb)

/-- Whether K block `j` of output tile (i, l) is absent by the bitmaps (R80, R83). -/
def mxSkip (x : MxD) (p i l j : Nat) (s : State) : Bool :=
  x.skip && ((!x.sparse && !bitAt (rowOf p x.rBma 0 s) (i * x.nb + j)) || !bitAt (rowOf p x.rBmb 0 s) (l * x.nb + j))

/-- The present pairs of group `g` of output element (m, n) (R44). -/
def mxPairs (x : MxD) (p m n g : Nat) (s : State) : List (Nat × Nat) :=
  (List.range x.g).filterMap (fun t =>
    let k := g * x.g + t
    if k < x.k && !mxSkip x p (m / 32) (n / 32) (k / 32) s then (mxA x p m k s).map (fun a => (a, mxB x p n k s)) else none)

/-! ### Products -/

/-- Round to 8 significant bits with an unbounded exponent and the spacing 2^-133 of the smallest values (R47). -/
def bf16Slice (v : Dy) : Dy :=
  if v.m = 0 then ⟨0, 0⟩
  else
    let q := max (v.exp - 7) (-133)
    let n := (quantize .rne (decide (v.m < 0)) v.m.natAbs v.e q).1
    ⟨if v.m < 0 then -(n : Int) else n, q⟩

/-- The three BF16 slices of an FP32 operand (R47). -/
def split32 (v : Dy) : List Dy :=
  let x1 := bf16Slice v
  let r1 := v.add x1.neg
  let x2 := bf16Slice r1
  [x1, x2, bf16Slice (r1.add x2.neg)]

/-- Slice products of the diagonals that PASS uses (R48). -/
def prod32 (pass : Nat) (a b : Dy) : Dy :=
  (List.range 3).foldl (fun acc i => (List.range 3).foldl (fun acc j =>
    if i + j < pass then acc.add (((split32 a).getD i ⟨0, 0⟩).mul ((split32 b).getD j ⟨0, 0⟩)) else acc) acc) ⟨0, 0⟩

/-- The seven balanced digits of m, most significant first (R50). -/
def digits7 (m : Int) : Nat → List Int → List Int
  | 0, acc => acc
  | n + 1, acc =>
    let d := (m + 128) % 256 - 128
    digits7 ((m - d) / 256) n (d :: acc)

/-- m = trunc(x × 2^(54 - E)) in seven slices (R50). -/
def slices64 (v : Dy) (e : Int) : List Int :=
  let k := (quantize .rtz false v.m.natAbs (v.e + 54 - e) 0).1
  digits7 (if v.m < 0 then -(k : Int) else k) 7 []

/-- Last diagonal of slice mode by PASS (R51). -/
def lastDiag (pass : Nat) : Nat := if pass = 1 then 4 else if pass = 2 then 6 else 7

/-- The selected slice products of a pair, scaled by 2^(Ea + Eb - 108) (R51, R52). -/
def prod64 (pass : Nat) (a b : Dy) (ea eb : Int) : Dy :=
  let sa := slices64 a ea
  let sb := slices64 b eb
  ⟨(List.range 7).foldl (fun acc i => (List.range 7).foldl (fun acc j =>
    if i + j < lastDiag pass then acc + sa.getD i 0 * sb.getD j 0 * 2 ^ (8 * (12 - i - j)) else acc) acc) 0, ea + eb - 108⟩

/-- The block exponent of a row or column group: the largest exponent of its finite non-zero elements; a subnormal counts as
-1022; 0 with none (R49). -/
def blockExp (vs : List FVal) : Int :=
  (vs.foldl (fun (acc : Option Int) v =>
    match v with
    | .fin _ m e =>
      if m = 0 then acc
      else
        let x := max (e + (bitLen m : Int) - 1) (-1022)
        some (match acc with
          | none => x
          | some y => max x y)
    | _ => acc) none).getD 0

/-- A product that overflows becomes an infinity and sets OF (R53): |v| ≥ t × 2^q. -/
def overflowed (p : Prod1) (t : Nat) (q : Int) : Prod1 :=
  if !p.nan && !p.inf && !(Dy.lt ⟨p.v.m.natAbs, p.v.e⟩ ⟨t, q⟩) then { p with inf := true, ovf := true } else p

/-- The products of one group (R42, R47 to R53). -/
def mxProds (x : MxD) (sa sb : Nat) (ps : List (Nat × Nat)) : List Prod1 :=
  match fmtOf x.fa, fmtOf x.fb with
  | some fa, some fb =>
    let vs := ps.map (fun c => (decodeF fa c.1, decodeF fb c.2))
    if mxKind x.fa = 24 then
      vs.map (fun c => overflowed { prodOf c.1 c.2 0 false with v := prod32 x.pass c.1.dy c.2.dy } (2 ^ 25 - 1) 103)
    else if mxKind x.fa = 25 then
      let ea := blockExp (vs.map (·.1))
      let eb := blockExp (vs.map (·.2))
      vs.map (fun c => overflowed { prodOf c.1 c.2 0 false with v := prod64 x.pass c.1.dy c.2.dy ea eb } (2 ^ 54 - 1) 970)
    else
      vs.map (fun c => prodOf c.1 c.2 ((sa : Int) - 127 + ((sb : Int) - 127)) (sa = 255 || sb = 255))
  | _, _ => []

/-- The scale of block `j` in row `r` of a scale array, 0x7F where none is read (R38, R39). -/
def mxScale (x : MxD) (p : Nat) (r : Rng) (i j : Nat) (s : State) : Nat :=
  if x.scaled then bitsAt (rowOf p r i s) (8 * j) 8 else 0x7F

/-- The groups in ascending order over a floating-point accumulator (R42, R43). -/
def mxDotFp (x : MxD) (p m n : Nat) (f : Fmt) (s : State) : Nat → Nat × Nat → Nat × Nat
  | 0, acc => acc
  | c + 1, acc =>
    let g := (x.k + x.g - 1) / x.g - (c + 1)
    let j := g * x.g / 32
    let r := groupUpdate f (decodeF f acc.1) (mxProds x (mxScale x p x.rSA m j s) (mxScale x p x.rSB n j s) (mxPairs x p m n g s))
    mxDotFp x p m n f s c (r.1, acc.2 ||| r.2)

/-- The groups in ascending order over the INT32 accumulator, clamped with OF (R46). -/
def mxDotInt (x : MxD) (p m n : Nat) (s : State) : Nat → Int × Nat → Int × Nat
  | 0, acc => acc
  | c + 1, acc =>
    let g := (x.k + x.g - 1) / x.g - (c + 1)
    let t := (mxPairs x p m n g s).foldl (fun t c => t + signed 8 c.1 * signed 8 c.2) acc.1
    mxDotInt x p m n s c (clampS 32 t, acc.2 ||| (if clampS 32 t = t then 0 else flOF))

/-- The C element of (m, n), or the start value without one (R43). -/
def mxC (x : MxD) (p m n : Nat) (s : State) : Option Nat :=
  if x.op = 1 then some (bitsAt (rowOf p x.rC m s) (8 * x.accBytes * n) (8 * x.accBytes)) else none

/-- One output element: its encoding and flags (R42, R46, R55, R56). -/
def mxElem (x : MxD) (p m n : Nat) (s : State) : Nat × Nat :=
  let groups := (x.k + x.g - 1) / x.g
  if mxKind x.fa = 21 then
    let r := mxDotInt x p m n s groups (match mxC x p m n s with
      | some c => signed 32 c
      | none => 0, 0)
    (wrap 32 r.1, r.2)
  else
    let f := if mxKind x.fa = 25 then fp64 else fp32
    let r := mxDotFp x p m n f s groups ((mxC x p m n s).getD (withSign f true 0), 0)
    if x.fo ≥ 8 then r
    else match fmtOf x.fo with
      | some fo => let o := cvtV fo x.sat (decodeF f r.1); (o.1, r.2 ||| o.2)
      | none => r

/-! ### Bad data (R94) -/

/-- Whether bad byte `a` lies in the 16-byte unit of bit `b` of a bitmap. -/
def bmUnitBad (r : Rng) (b a : Nat) : Bool := r.rows ≠ 0 && (r.base + b / 8) / 16 = a / 16

/-- Whether output tile (i, l) read bad byte `a`. Every byte of an operand row counts as read. -/
def mxSpoilt (x : MxD) (i l a : Nat) : Bool :=
  let rows := fun r => Rng.has r (32 * i) (32 * i + 32) a
  let cols := fun r => Rng.has r (32 * l) (32 * l + 32) a
  rows x.rA || rows x.rSA || rows x.rMeta || cols x.rB || cols x.rSB ||
  (rows x.rC && (let o := (a - x.rC.base) % x.ldc / x.accBytes; x.ldc = 0 || (32 * l ≤ o && o < 32 * l + 32))) ||
  (List.range x.nb).any (fun j => bmUnitBad x.rBma (i * x.nb + j) a || bmUnitBad x.rBmb (l * x.nb + j) a)

/-- What an output of a spoilt tile becomes. -/
def mxNan (fo : Nat) : Nat :=
  match fmtOf fo with
  | some f => nanOf f
  | none => 2 ^ 31

/-- Bad bytes that the instruction reads. -/
def mxBad (x : MxD) (bad : List Nat) : List Nat :=
  bad.filter (fun a => (x.rC :: x.inputs).any (fun r => r.has 0 r.rows a ||
    (r.rows ≠ 0 && (r = x.rBma || r = x.rBmb) && r.base / 16 ≤ a / 16 && a / 16 ≤ (r.base + r.len - 1) / 16)))

/-- One row of D with the flags it raised. -/
def mxRow (x : MxD) (p m : Nat) (bad : List Nat) (s : State) : List (Nat × Nat) :=
  (List.range x.n).map (fun n =>
    if bad.any (fun a => mxSpoilt x (m / 32) (n / 32) a) then (mxNan x.fo, 0) else mxElem x p m n s)

/-- Write rows of D and gather the flags. -/
def mxWrite (x : MxD) (p : Nat) : List (List (Nat × Nat)) → Nat → State × Nat → State × Nat
  | [], _, r => r
  | row :: rows, m, (s, fl) =>
    mxWrite x p rows (m + 1)
      (tileWriteRow p (x.rD.base + m * x.rD.stride) x.rD.len (packBits (codeBits x.fo) (row.map (·.1))) s,
       row.foldl (fun fl c => fl ||| c.2) fl)

/-- Invalid 2:4 nibbles in the order of their rows and quads (R79). -/
def mxMetaBad (x : MxD) (p : Nat) (s : State) : List (Nat × Nat) :=
  if x.sparse then
    (List.range x.m).flatMap (fun m => (List.range ((x.k + 3) / 4)).filterMap (fun q =>
      let nib := bitsAt (rowOf p x.rMeta m s) (4 * q) 4
      if nib % 4 ≥ nib / 4 then some (m, q) else none))
  else []

/-- Record invalid nibbles (R79). -/
def mxMetaErr (p : Nat) (tag : BitVec 16) (l : List (Nat × Nat)) (s : State) : State :=
  match l with
  | [] => s
  | (m, q) :: _ =>
    let b := tileBase p
    let s := capture b R.MX_META_POS_VALID (fun s => setF b R.MX_META_POS_ROW m (setF b R.MX_META_POS_QUAD q s)) s
    setF b R.MX_ERR_LAST_TAG (tag.toNat % 256) (bumpF b R.MX_ERR_META_COUNT l.length (setF b R.MX_ERR_META 1 s))

/-- K blocks made absent by the bitmaps, over all output tiles. -/
def mxSkipped (x : MxD) (p : Nat) (s : State) : Nat :=
  ((List.range ((x.m + 31) / 32)).flatMap (fun i => (List.range ((x.n + 31) / 32)).flatMap (fun l =>
    (List.range x.nb).filter (fun j => mxSkip x p i l j s)))).length

/-- The MX computes its front instruction (R42 to R58, R76 to R83, R94): D is written, errors are recorded, and the flags wait
for completion. `op` is the form the command names. -/
def mxRun (op p : Nat) (ecc : Ecc) (s : State) : State :=
  match engHead (kMx p) s with
  | none => s
  | some e =>
    let x := mxD e.cfg e.desc
    if e.phase ≠ 0 ∨ x.op ≠ op then s
    else
      let b := tileBase p
      let errs := mxBad x ecc.bad ++ lineFirsts (mxBad x (tileMarks p s))
      let bad := mxBad x (ecc.bad ++ tileMarks p s)
      let rows := (List.range x.m).map (fun m => mxRow x p m bad s)
      let skipped := mxSkipped x p s
      let nibs := mxMetaBad x p s
      let (s, fl) := mxWrite x p rows 0 (s, 0)
      let s := mxMetaErr p e.tag nibs s
      let s := engUe b R.MX_ERR_UE R.MX_ERR_UE_COUNT R.MX_ERR_LAST_TAG R.MX_UE_ADDR_VALID (fun a => setF b R.MX_UE_ADDR_ADDR a)
        (fun a => raise (0x3000 + p) 0x20 2 (p + a * 2 ^ 16) 0) e.tag errs s
      let s := bumpF b R.MX_CE_COUNT_COUNT ecc.corrected s
      let s := addPair b R.MX_SKIP_LO_VALUE R.MX_SKIP_HI_VALUE skipped s
      setHead (kMx p) { e with phase := 1, flags := fl, ue := !bad.isEmpty } s

/-- The occupancy bitmap of `rows` rows of `n` elements of width `w`: a bit is 0 where every element encodes a zero (R81, R82). -/
def occBitmap (isZero : Nat → Bool) (w n : Nat) (rows : List Nat) : Nat :=
  let r := rows.length
  packBits 1 ((List.range ((r + 31) / 32)).flatMap (fun i => (List.range ((n + 31) / 32)).map (fun l =>
    b2n (((rows.drop (32 * i)).take 32).any (fun row => (List.range (min 32 (n - 32 * l))).any (fun t =>
      !isZero (bitsAt row ((32 * l + t) * w) w)))))))

/-- Whether an element of a format encodes +0 or -0. -/
def zeroCode (fmt v : Nat) : Bool :=
  match fmtOf fmt with
  | some f => v % 2 ^ (f.ew + f.fw) = 0
  | none => v = 0

/-- MX_COMPLETE: the bitmap of D, the sticky flags, FLAG_COUNT and LAST_TAG, and the summary MSE asked for (R63, R64, R82, R111). -/
def mxComplete (p : Nat) (s : State) : State :=
  match engHead (kMx p) s with
  | none => s
  | some e =>
    let x := mxD e.cfg e.desc
    if e.phase = 0 then s
    else
      let b := tileBase p
      let rows := (List.range x.m).map (fun m => rowOf p x.rD m s)
      let s := if x.bmdEn then tileWriteRow p x.rBmd.base x.rBmd.len (occBitmap (zeroCode x.fo) (codeBits x.fo) x.n rows) s else s
      let s := setFlags b e.flags [(0, R.MX_STATUS_NV), (1, R.MX_STATUS_OF), (2, R.MX_STATUS_UF), (3, R.MX_STATUS_NX),
        (4, R.MX_STATUS_SATD)] s
      let s := if e.flags % 4 ≠ 0 then
          setF b R.MX_STATUS_LAST_TAG (e.tag.toNat % 256) (bumpF b R.MX_STATUS_FLAG_COUNT 1 s) else s
      engComplete (kMx p) (mkSummary 0 0 none e.flags (e.flags % 16 &&& x.flagSum ≠ 0) false e.ue) s

/-- Restore the status fields of an engine while FROZEN (R96, R130, R196, R222) through the write-only register at `reg`: `fs` lists the fields the
value holds. In another state the write is ignored and recorded (R442). -/
def restoreStatus (path : Path) (reg base : Nat) (fs : List Fld) (v : Nat) (s : State) : State :=
  if s.pkg = .frozen then fs.foldl (fun s f => setF base f (bitsAt v f.lo f.w) s) s else rejectWrite path reg v s

/-- MX_RESTORE (R96). -/
def mxRestore (path : Path) (p : Nat) (v : Word) (s : State) : State :=
  restoreStatus path (tileBase p + 0x40) (tileBase p) [R.MX_STATUS_NV, R.MX_STATUS_OF, R.MX_STATUS_UF, R.MX_STATUS_NX, R.MX_STATUS_SATD,
    R.MX_STATUS_FLAG_COUNT, R.MX_STATUS_LAST_TAG] v.toNat s

/-- MX_ACCEPT (R71). -/
def execMxAccept (t : Fin 288) (ecc : DescEcc) (s : State) : Host.Outcome State Fault Refusal :=
  .next (mxAccept t ecc.ue ecc.ce s)

/-- MX_MM (R42, R69). -/
def execMxMm (t : Fin 288) (ecc : Ecc) (s : State) : Host.Outcome State Fault Refusal :=
  .next (mxRun 0 t ecc s)

/-- MX_MMA (R42, R69). -/
def execMxMma (t : Fin 288) (ecc : Ecc) (s : State) : Host.Outcome State Fault Refusal :=
  .next (mxRun 1 t ecc s)

/-- MX_COMPLETE (R64, R82, R145). -/
def execMxComplete (t : Fin 288) (s : State) : Host.Outcome State Fault Refusal :=
  .next (mxComplete t s)

/-- MX_RESTORE (R96). -/
def execMxRestore (path : Path) (t : Fin 288) (val : Word) (s : State) : Host.Outcome State Fault Refusal :=
  .next (mxRestore path t val s)

end Sys2Proof.Machine
end

