-- ==== Sys2Proof/Machine/Stencil.lean ====
section
/-! DEFINITION. The stencil engine (R120 to R132): descriptor and tap table, boundaries, points, completion. -/

namespace Sys2Proof.Machine

/-- The tile and tile-SRAM offset that a cluster-relative or global tile address names: bits [25:23] and [22:0]. -/
def clTile (cl a : Nat) : Nat := 8 * cl + bitsAt a 23 3
def clOff (a : Nat) : Nat := bitsAt a 0 23

/-- A descriptor of 128 bytes with its tap table above it (R122, R125). -/
structure SxD where
  d : Nat

def SxD.acc (x : SxD) : Bool := bitAt x.d 0
def SxD.taps (x : SxD) : Nat := bitsAt x.d 1 6 + 1
def SxD.nf (x : SxD) : Nat := bitsAt x.d 7 2 + 1
def SxD.nc (x : SxD) : Nat := bitsAt x.d 9 2
/-- Boundary mode of face `f`: -x, +x, -y, +y, -z, +z. -/
def SxD.bnd (x : SxD) (f : Nat) : Nat := bitsAt x.d (11 + 3 * f) 3
/-- Extent of axis `a`. -/
def SxD.ext (x : SxD) (a : Nat) : Nat := bitsAt (dw x.d 1) (8 * a) 8 + 1
def SxD.tapAddr (x : SxD) : Nat := bitsAt (dw x.d 2) 0 23
def SxD.out (x : SxD) : Nat := dq x.d 12
def SxD.inp (x : SxD) (i : Nat) : Nat := dq x.d (20 + 8 * i)
def SxD.cf (x : SxD) (i : Nat) : Nat := dq x.d (52 + 8 * i)
def SxD.sy (x : SxD) : Nat := dw x.d 19
def SxD.sz (x : SxD) : Nat := dq x.d 80
def SxD.bconst (x : SxD) : Nat := dq x.d 88
/-- Tap entry `t`, 16 bytes. -/
def SxD.tap (x : SxD) (t : Nat) : Nat := bitsAt x.d (1024 + 128 * t) 128
/-- Offset of tap `t` on axis `a`. -/
def SxD.off (x : SxD) (t a : Nat) : Int := signed 4 (bitsAt (x.tap t) (4 * a) 4)
def SxD.field (x : SxD) (t : Nat) : Nat := bitsAt (x.tap t) 12 2
def SxD.varc (x : SxD) (t : Nat) : Bool := bitAt (x.tap t) 14
def SxD.cfield (x : SxD) (t : Nat) : Nat := bitsAt (x.tap t) 15 2
def SxD.coef (x : SxD) (t : Nat) : Nat := dq (x.tap t) 8

/-- Address of element (i, j, k) of the field at `base` (R120). -/
def SxD.elem (x : SxD) (base : Nat) (i j k : Int) : Nat :=
  wrap 64 ((base : Int) + 8 * i + (x.sy : Int) * j + (x.sz : Int) * k)

/-- How an index resolves on axis `a` (R123): the mapped index, whether the value is negated, whether it is the constant. -/
def SxD.resolve (x : SxD) (a : Nat) (i : Int) : Int × Bool × Bool :=
  let n : Int := x.ext a
  let low := decide (i < 0)
  if !low && decide (i < n) then (i, false, false)
  else
    match x.bnd (2 * a + (if low then 0 else 1)) with
    | 1 => (if low then 0 else n - 1, false, false)
    | 2 => (if low then -1 - i else 2 * n - 1 - i, false, false)
    | 3 => (if low then -1 - i else 2 * n - 1 - i, true, false)
    | 4 => (if low then i + n else i - n, false, false)
    | 5 => (0, false, true)
    | _ => (i, false, false)

/-- Where tap `t` reads at point (i, j, k): none for the constant, else the address and whether the value is negated. -/
def SxD.fetch (x : SxD) (t : Nat) (i j k : Nat) : Option (Nat × Bool) :=
  let a := x.resolve 0 ((i : Int) + x.off t 0)
  let b := x.resolve 1 ((j : Int) + x.off t 1)
  let c := x.resolve 2 ((k : Int) + x.off t 2)
  if a.2.2 || b.2.2 || c.2.2 then none
  else some (x.elem (x.inp (x.field t)) a.1 b.1 c.1, xor a.2.1 (xor b.2.1 c.2.1))

/-- The points of the region in ascending linear index. -/
def SxD.points (x : SxD) : List (Nat × Nat × Nat) :=
  (List.range (x.ext 2)).flatMap (fun k => (List.range (x.ext 1)).flatMap (fun j => (List.range (x.ext 0)).map (fun i => (i, j, k))))

/-- Addresses read for the inputs and coefficients of one point. -/
def SxD.reads (x : SxD) (q : Nat × Nat × Nat) : List Nat :=
  (List.range x.taps).flatMap (fun t =>
    (match x.fetch t q.1 q.2.1 q.2.2 with
     | some r => [r.1]
     | none => []) ++ (if x.varc t then [x.elem (x.cf (x.cfield t)) q.1 q.2.1 q.2.2] else []))
/-- Address written for one point. -/
def SxD.outAt (x : SxD) (q : Nat × Nat × Nat) : Nat := x.elem x.out q.1 q.2.1 q.2.2

/-- Largest offset of an axis over the taps. -/
def SxD.radius (x : SxD) (a : Nat) : Nat := (List.range x.taps).foldl (fun r t => max r (x.off t a).natAbs) 0

/-- A reserved bit or boundary mode (R126, cause 0x01). -/
def sxReserved (x : SxD) : Bool :=
  bitsAt x.d 29 3 ≠ 0 || bitsAt (dw x.d 1) 24 8 ≠ 0 || bitsAt (dw x.d 2) 23 9 ≠ 0 || bitsAt x.d 768 256 ≠ 0 ||
  (List.range 6).any (fun f => x.bnd f ≥ 6) || (List.range x.taps).any (fun t => bitsAt (x.tap t) 17 47 ≠ 0)

/-- MIRROR, ODD or PERIODIC on too short an axis, or PERIODIC on one face (R126, cause 0x04). -/
def sxBounds (x : SxD) : Bool :=
  (List.range 3).any (fun a =>
    let m0 := x.bnd (2 * a)
    let m1 := x.bnd (2 * a + 1)
    let refl := fun m => m = 2 || m = 3 || m = 4
    ((refl m0 || refl m1) && decide (x.ext a < x.radius a)) || ((m0 = 4) != (m1 = 4)))

/-- The acceptance checks in the order of R143 (R126). A descriptor or tap table beyond tile SRAM lies at an unmapped offset, cause 0x07. Item 2 of R143
is the descriptor's own read; an uncorrectable tap table has its place among the remaining causes, and no check is made on taps that did not read
(`x` then holds none). -/
def sxChecks (cl : Nat) (ue tapUe : Bool) (p : Nat) (x : SxD) (s : State) : List (Bool × Nat) :=
  [(p % 128 ≠ 0, 3), (clOff p + 128 > 0x600000, 7), (ue, 6), (sxReserved x, 1),
   ((List.range x.taps).any (fun t => (List.range 3).any (fun a => (x.off t a).natAbs > 4) || x.field t ≥ x.nf || (x.varc t && x.cfield t ≥ x.nc)), 2),
   (x.tapAddr % 16 ≠ 0 || x.out % 8 ≠ 0 || (List.range x.nf).any (fun i => x.inp i % 8 ≠ 0) || (List.range x.nc).any (fun i => x.cf i % 8 ≠ 0) ||
     x.sy % 8 ≠ 0 || x.sz % 8 ≠ 0, 3),
   (sxBounds x, 4),
   (!tapUe && x.points.any (fun q => x.points.any (fun r => (x.reads r).any (fun a => overlaps (canonGa (x.outAt q) s) 8 (canonGa a s) 8))), 5),
   (tapUe, 6),
   (x.tapAddr + 16 * x.taps > 0x600000 || x.points.any (fun q => !placeOk cl .write false (x.outAt q) s ||
     (x.reads q).any (fun a => !placeOk cl .read false a s)), 7)]

/-- SX_CFG as it acts. -/
def sxCfg (cl : Nat) (s : State) : Word :=
  BitVec.ofNat 32 (effReg (sxBase cl) R.SX_CFG_FLAG_SUM_EN R.SX_CFG_LEVEL [R.SX_CFG_FLAG_SUM_EN, R.SX_CFG_LOOKAHEAD] s)
/-- The descriptor with its tap table above it. -/
def sxDesc (cl : Nat) (tapUe : Bool) (e : EngIns) (s : State) : Nat :=
  let p := clTile cl e.p.toNat
  let d := tileReadN p (clOff e.p.toNat) 128 s
  if tapUe then d else d + 2 ^ 1024 * tileReadN p (bitsAt (dw d 2) 0 23) (16 * (bitsAt d 1 6 + 1)) s

/-- SX_ACCEPT (R126, R132). -/
def sxAccept (cl : Nat) (ue tapUe : Bool) (ce : Nat) (s : State) : State :=
  let s := acceptCe (kSx cl) 2 (fun e => decide (e.p.toNat % 128 = 0) && decide (clOff e.p.toNat + 128 ≤ 0x600000)) (sxBase cl) R.SX_CE_COUNT_COUNT ce s
  let tile := fun (e : EngIns) => clTile cl e.p.toNat
  let tapBad := fun (e : EngIns) => let x : SxD := ⟨sxDesc cl false e s⟩; tapUe || tileMarked (tile e) x.tapAddr (16 * x.taps) s
  accept (kSx cl) 2 (fun e => sxChecks cl (ue || tileMarked (tile e) (clOff e.p.toNat) 128 s) (tapBad e) e.p.toNat ⟨sxDesc cl (tapBad e) e s⟩ s)
    (fun _ => sxCfg cl s) (fun e => sxDesc cl (tapBad e) e s) s

/-- The accumulation over the taps at one point, in ascending tap index (R120). -/
def sxTaps (k : Nat) (x : SxD) (s : State) (q : Nat × Nat × Nat) : List Nat → Nat × Nat → Nat × Nat
  | [], a => a
  | t :: ts, a =>
    let v := match x.fetch t q.1 q.2.1 q.2.2 with
      | some (ad, neg) => let v := decodeF fp64 (engRead k ad 8 s); if neg then v.flip else v
      | none => decodeF fp64 x.bconst
    let w := if x.varc t then engRead k (x.elem (x.cf (x.cfield t)) q.1 q.2.1 q.2.2) 8 s else x.coef t
    let r := fmaV fp64 (decodeF fp64 w) v (decodeF fp64 a.1)
    sxTaps k x s q ts (r.1, a.2 ||| r.2)

/-- One point: the output and its flags; bad data give the canonical NaN (R128). -/
def sxPoint (k : Nat) (x : SxD) (bad : List Nat) (s : State) (q : Nat × Nat × Nat) : Nat × Nat :=
  if ((if x.acc then [x.outAt q] else []) ++ x.reads q).any (fun a => badGlobal k bad a 8 s) then (nanOf fp64, 0)
  else sxTaps k x s q (List.range x.taps) (if x.acc then engRead k (x.outAt q) 8 s else withSign fp64 true 0, 0)

/-- Everything the instruction reads, as ranges. -/
def sxRanges (x : SxD) : List (Nat × Nat) :=
  x.points.flatMap (fun q => ((if x.acc then [x.outAt q] else []) ++ x.reads q).map (fun a => (a, 8)))

/-- Write the outputs and gather flags, the largest magnitude, and the NaN and infinite outputs (R111). -/
def sxWrite (k : Nat) : List (Nat × Nat × Nat) → EngIns → Nat → State → EngIns × State
  | [], e, _, s => (e, s)
  | (a, v, fl) :: m, e, i, s =>
    let f := decodeF fp64 v
    let e := { e with
      flags := e.flags ||| fl
      value := if f.isNan then e.value else max e.value (v % 2 ^ 63)
      count := if f.special then e.count + 1 else e.count
      first := if f.special then min e.first i else e.first }
    sxWrite k m e (i + 1) (engWrite k a 8 v s)

/-- Addresses at 2^64 and above in an `Ecc` of the SX name the window buffer's copy of the datum at the address less 2^64 (R128). -/
def sxWindowBad (bad : List Nat) (ranges : List (Nat × Nat)) : List Nat :=
  bad.filter (fun a => decide (2 ^ 64 ≤ a) && ranges.any (fun r => decide (r.1 ≤ a % 2 ^ 64) && decide (a % 2 ^ 64 < r.1 + r.2)))

/-- SX_STENCIL (R120): the front instruction computes every point from the fields as they were and writes the outputs. -/
def sxRun (cl : Nat) (ecc : Ecc) (s : State) : State :=
  match engHead (kSx cl) s with
  | none => s
  | some e =>
    if e.phase ≠ 0 then s
    else
      let x : SxD := ⟨e.desc⟩
      withSources (kSx cl) (sxRanges x) (fun s =>
        let b := sxBase cl
        let bad := badAddrs (kSx cl) ecc.bad (sxRanges x) s ++ sxWindowBad ecc.bad (sxRanges x)
        let outs := x.points.map (fun q => (x.outAt q, sxPoint (kSx cl) x (ecc.bad.map (· % 2 ^ 64)) s q))
        let inTile := fun a => match target (offOf a) s with
          | .tile p o => if decide (a < 2 ^ 64) && isLocal a s && p / 8 = cl then some (p % 8, o) else none
          | _ => none
        let r := sxWrite (kSx cl) outs { e with first := 0x1FFFFFF, ue := !bad.isEmpty } 0 s
        let s := engUe b R.SX_ERR_UE R.SX_ERR_UE_COUNT R.SX_ERR_LAST_TAG R.SX_UE_ADDR_VALID
          (fun a s => let (t, o) := (inTile a).getD (0, 0x7FFFFF); setF b R.SX_UE_ADDR_ADDR o (setF b R.SX_UE_ADDR_TILE t s))
          (fun a => let (t, o) := (inTile a).getD (0, 0x7FFFFF); raise (0x4000 + 4 * cl) 0x21 2 o (cl + t * 2 ^ 8)) e.tag bad r.2
        setHead (kSx cl) { r.1 with phase := 1 } (engFlush (kSx cl) (bumpF b R.SX_CE_COUNT_COUNT ecc.corrected s))) s

/-- SX_COMPLETE (R111): once every write on this package is visible; writes to other packages are issued (R145). -/
def sxComplete (cl : Nat) (s : State) : State :=
  match engHead (kSx cl) s with
  | none => s
  | some e =>
    if e.phase = 0 ∨ writesOpen (.eng (kSx cl)) s then s
    else
      let b := sxBase cl
      let s := setFlags b e.flags [(0, R.SX_STATUS_NV), (1, R.SX_STATUS_OF), (2, R.SX_STATUS_UF), (3, R.SX_STATUS_NX)] s
      let s := if e.flags % 4 ≠ 0 then
          setF b R.SX_STATUS_LAST_TAG (e.tag.toNat % 256) (bumpF b R.SX_STATUS_FLAG_COUNT 1 s) else s
      engComplete (kSx cl) (mkSummary e.value e.count (if e.first = 0x1FFFFFF then none else some e.first) e.flags
        (decide (e.flags % 16 &&& bitsAt e.cfg.toNat 0 4 ≠ 0)) false e.ue) s

/-- SX_RESTORE (R130). -/
def sxRestore (path : Path) (cl : Nat) (v : Word) (s : State) : State :=
  restoreStatus path (sxBase cl + 0x50) (sxBase cl) [R.SX_STATUS_NV, R.SX_STATUS_OF, R.SX_STATUS_UF, R.SX_STATUS_NX, R.SX_STATUS_FLAG_COUNT,
    R.SX_STATUS_LAST_TAG] v.toNat s

/-- SX_ACCEPT (R126). -/
def execSxAccept (cl : Fin 36) (ecc : TapEcc) (s : State) : Host.Outcome State Fault Refusal :=
  .next (sxAccept cl ecc.ue ecc.tapUe ecc.ce s)

/-- SX_STENCIL (R120). -/
def execSxStencil (cl : Fin 36) (ecc : Ecc) (s : State) : Host.Outcome State Fault Refusal :=
  .next (sxRun cl ecc s)

/-- SX_COMPLETE (R111). -/
def execSxComplete (cl : Fin 36) (s : State) : Host.Outcome State Fault Refusal :=
  .next (sxComplete cl s)

/-- SX_RESTORE (R130). -/
def execSxRestore (path : Path) (cl : Fin 36) (val : Word) (s : State) : Host.Outcome State Fault Refusal :=
  .next (sxRestore path cl val s)

end Sys2Proof.Machine
end

