-- ==== Sys2Proof/Machine/Assay.lean ====
section
/-! DEFINITION. The Assay units (R176 to R185, R194 to R197): field conversion with block scales, error sidecars and summaries. -/

namespace Sys2Proof.Machine

/-- The 64-byte descriptor (R177). -/
structure AsyD where
  d : Nat

def AsyD.widen (x : AsyD) : Bool := bitAt x.d 0
def AsyD.sf (x : AsyD) : Nat := bitsAt x.d 1 4
def AsyD.df (x : AsyD) : Nat := bitsAt x.d 5 4
def AsyD.ceil (x : AsyD) : Bool := bitAt x.d 9
def AsyD.scEn (x : AsyD) : Bool := bitAt x.d 10
def AsyD.refEn (x : AsyD) : Bool := bitAt x.d 11
def AsyD.bmpEn (x : AsyD) : Bool := bitAt x.d 12
def AsyD.rows (x : AsyD) : Nat := bitsAt (dw x.d 1) 0 16 + 1
def AsyD.len (x : AsyD) : Nat := bitsAt (dw x.d 1) 16 14 + 1
def AsyD.nb (x : AsyD) : Nat := (x.len + 31) / 32
/-- Formats that carry block scales (R38). -/
def scaledFmt (f : Nat) : Bool := f ≤ 4
/-- Whether the conversion has scales (R176). -/
def AsyD.scaled (x : AsyD) : Bool := scaledFmt (if x.widen then x.sf else x.df)

def AsyD.rSrc (x : AsyD) : Rng := ⟨dq x.d 8, x.rows, 128 * bitsAt (dw x.d 14) 0 16, (x.len * codeBits x.sf + 7) / 8⟩
def AsyD.rDst (x : AsyD) : Rng := ⟨dq x.d 16, x.rows, 128 * bitsAt (dw x.d 14) 16 16, (x.len * codeBits x.df + 7) / 8⟩
def AsyD.rScl (x : AsyD) : Rng := ⟨dq x.d 24, if x.scaled then x.rows else 0, 16 * bitsAt (dw x.d 15) 0 16, x.nb⟩
def AsyD.rSide (x : AsyD) : Rng := ⟨dq x.d 32, if x.scEn then 1 else 0, 0, 8 * x.rows * x.nb⟩
def AsyD.rRef (x : AsyD) : Rng := ⟨dq x.d 40, if x.refEn then x.rows else 0, 128 * bitsAt (dw x.d 15) 16 16, (x.len * codeBits x.df + 7) / 8⟩
def AsyD.rBmp (x : AsyD) : Rng := ⟨dq x.d 48, if x.bmpEn then 1 else 0, 0, bmBytes x.rows x.len⟩

/-- What the instruction reads and writes. -/
def AsyD.reads (x : AsyD) : List Rng := [x.rSrc, x.rRef] ++ (if x.widen then [x.rScl] else [])
def AsyD.writes (x : AsyD) : List Rng := [x.rDst, x.rSide, x.rBmp] ++ (if x.widen then [] else [x.rScl])
/-- The rows of ranges as (address, length). -/
def rowList (l : List Rng) : List (Nat × Nat) := l.flatMap (fun r => (List.range r.rows).map (fun i => (r.base + i * r.stride, r.len)))

/-- The conversions of R176. -/
def asyLegal (x : AsyD) : Bool :=
  if x.widen then
    ((scaledFmt x.sf || x.sf = 6 || x.sf = 7) && (x.df = 9 || x.df = 8)) || (x.sf = 8 && x.df = 9)
  else ((x.sf = 9 || x.sf = 8) && (scaledFmt x.df || x.df = 6 || x.df = 7)) || (x.sf = 9 && x.df = 8)

/-- Every line of some rows may be named for a use (R231 to R233, R251). -/
def rowsOk (cl : Nat) (u : Use) (red : Bool) (rows : List (Nat × Nat)) (s : State) : Bool :=
  rows.all (fun r => r.2 = 0 || ((rangeLines r.1 r.2).all (fun a => placeOk cl u red (max a r.1) s) && placeOk cl u red (r.1 + r.2 - 1) s))

/-- The acceptance checks in the order of R143 (R185). -/
def asyChecks (cl : Nat) (ue : Bool) (p : Nat) (x : AsyD) (s : State) : List (Bool × Nat) :=
  [(p % 64 ≠ 0, 3), (!descPlaceOk cl p 64 s, 4), (ue || poisonOff (offOf p) 64 s, 6),
   (bitsAt x.d 13 19 ≠ 0 || bitsAt (dw x.d 1) 30 2 ≠ 0 || !asyLegal x, 1),
   ((x.ceil && (x.widen || !x.scaled)) || (x.refEn && !x.widen) ||
     (!x.scaled && (dq x.d 24 ≠ 0 || bitsAt (dw x.d 15) 0 16 ≠ 0)), 2),
   (x.rSrc.base % 128 ≠ 0 || x.rDst.base % 128 ≠ 0 || (x.refEn && x.rRef.base % 128 ≠ 0) || (x.scaled && x.rScl.base % 16 ≠ 0), 3),
   ([x.rSrc, x.rDst, x.rScl, x.rRef].any (fun r => r.rows ≠ 0 && r.stride < r.len) ||
     !rowsOk cl .read false (rowList x.reads) s || !rowsOk cl .write true (rowList x.writes) s, 4),
   (x.writes.any (fun w => x.reads.any (fun r => (w.canon s).meets (r.canon s))), 5)]

/-- ASY_CFG as it acts. -/
def asyCfg (cl : Nat) (s : State) : Word :=
  BitVec.ofNat 32 (effReg (asyBase cl) R.ASY_CFG_SAT R.ASY_CFG_LEVEL [R.ASY_CFG_SAT, R.ASY_CFG_FLAG_SUM_EN] s)

/-- ASY_ACCEPT (R177, R185). -/
def asyAccept (cl : Nat) (ue : Bool) (ce : Nat) (s : State) : State :=
  withBlock (kAsy cl) 4 64 (fun s =>
  let s := acceptCe (kAsy cl) 4 (fun e => decide (e.p.toNat % 64 = 0) && descPlaceOk cl e.p.toNat 64 s) (asyBase cl) R.ASY_CE_COUNT_COUNT ce s
  accept (kAsy cl) 4 (fun e => asyChecks cl ue e.p.toNat ⟨readOff (offOf e.p.toNat) 64 s⟩ s) (fun _ => asyCfg cl s)
    (fun e => readOff (offOf e.p.toNat) 64 s) s) s

/-! ### Errors rounded up to FP32 (R181) -/

/-- The canonical NaN of both sidecar fields. -/
def nan32 : Nat := 0x7FC00000

/-- |v| rounded toward +∞ to FP32. -/
def up32 (v : Dy) : Nat := (roundTo .rup fp32 false false v.m.natAbs v.e).1

/-- |a| / |b| rounded toward +∞ to FP32, for b ≠ 0. -/
def upRatio (a b : Dy) : Nat :=
  let m := a.m.natAbs
  let n := b.m.natAbs
  if m = 0 then 0
  else
    let l0 : Int := (bitLen m : Int) - bitLen n
    let ge := if l0 ≥ 0 then decide (m ≥ n * 2 ^ l0.toNat) else decide (m * 2 ^ (-l0).toNat ≥ n)
    let top := (if ge then l0 else l0 - 1) + a.e - b.e
    let q := max (top - 23) (-149)
    let k := a.e - b.e - q
    let num := if k ≥ 0 then m * 2 ^ k.toNat else m
    let den := if k ≥ 0 then n else n * 2 ^ (-k).toNat
    (roundTo .rup fp32 false false ((num + den - 1) / den) q).1

/-- What a block gives: its elements, its scale, ABS_ERR, REL_ERR, flags and whether it is non-finite. -/
structure AsyBlk where
  out : List Nat
  scale : Nat
  abs : Nat
  rel : Nat
  flags : Nat
  nonfin : Bool

/-- The E8M0 scale of a block whose largest magnitude is `amax` (R178). -/
def asyScale (ceil : Bool) (f : Fmt) (amax : Dy) : Nat :=
  if amax.m = 0 then 0x7F
  else
    let top := (decodeF f f.maxCode).dy
    let e := amax.exp - top.exp
    let e := if ceil && Dy.lt ⟨top.m, top.e + e⟩ amax then e + 1 else e
    (min (max (e + 127) 0) 0xFE).toNat

/-- Narrow one block (R178 to R181). Under CEIL a scaled magnitude beyond the largest finite value sets OF and SATD, also where rounding alone would have
brought it back (R179). -/
def asyNarrowBlk (x : AsyD) (sat bad : Bool) (vs : List FVal) : AsyBlk :=
  let f := (fmtOf x.df).getD fp32
  let nonfin := bad || vs.any (·.special)
  let nv := if vs.any (·.isSnan) then flNV else 0
  if x.scaled && nonfin then ⟨vs.map (fun _ => 0), 0xFF, nan32, nan32, nv, true⟩
  else
    let amax := vs.foldl (fun (a : Dy) v => let m : Dy := ⟨v.dy.m.natAbs, v.dy.e⟩; if Dy.lt a m then m else a) ⟨0, 0⟩
    let s := if x.scaled then asyScale x.ceil f amax else 0x7F
    let k : Int := if x.scaled then 127 - (s : Int) else 0
    let top := (decodeF f f.maxCode).dy
    let conv := fun (v : FVal) =>
      let r := if bad then (nanOf f, 0) else match v with
        | .fin n m e => cvtV f (x.scaled || sat) (.fin n m (e + k))
        | v => cvtV f (x.scaled || sat) v
      let past := x.scaled && x.ceil && !v.special && Dy.lt top ⟨v.dy.m.natAbs, v.dy.e + k⟩
      let fl := if x.scaled && !x.ceil then r.2 &&& flNX
        else (r.2 &&& (flNV + flOF + flNX + flSATD)) ||| (if past then flOF + flNX + flSATD else 0)
      (r.1, fl ||| (if !v.special && !v.isZero && (decodeF f r.1).isZero then flUF else 0))
    let rs := vs.map conv
    let flags := rs.foldl (fun a r => a ||| r.2) nv
    if nonfin then ⟨rs.map (·.1), s, nan32, nan32, flags, true⟩
    else
      let errs := (vs.zip rs).map (fun p =>
        let y := decodeF f p.2.1
        if y.special then (infOf fp32 false, infOf fp32 false)
        else
          let d := p.1.dy.add (Dy.neg ⟨y.dy.m, y.dy.e - k⟩)
          (up32 d, if p.1.isZero then 0 else upRatio d p.1.dy))
      ⟨rs.map (·.1), s, errs.foldl (fun a e => max a e.1) 0, errs.foldl (fun a e => max a e.2) 0, flags, false⟩

/-- Widen one block (R182); `refs` is the reference, `badRef` marks uncorrectable data in it. -/
def asyWidenBlk (x : AsyD) (bad badRef : Bool) (scale : Nat) (vs : List FVal) (refs : Option (List FVal)) : AsyBlk :=
  let f := (fmtOf x.df).getD fp32
  let nonfin := bad || vs.any (·.special) || (x.scaled && scale = 0xFF)
  let k : Int := if x.scaled then (scale : Int) - 127 else 0
  let rs := vs.map (fun v =>
    if bad || (x.scaled && scale = 0xFF) then (nanOf f, 0)
    else match v with
      | .fin n m e => cvtV f false (.fin n m (e + k))
      | v => cvtV f false v)
  let flags := rs.foldl (fun a r => a ||| r.2) 0
  let ys := rs.map (fun r => decodeF f r.1)
  let out := rs.map (·.1)
  if nonfin || badRef then ⟨out, scale, nan32, nan32, flags, true⟩
  else match refs with
    | none =>
      ⟨out, scale, ys.foldl (fun a y => max a (if y.isInf then infOf fp32 false else up32 y.dy)) 0, 0, flags, false⟩
    | some ws =>
      let ps := ys.zip ws
      if ps.any (fun p => p.1.special || p.2.special) then ⟨out, scale, nan32, nan32, flags, false⟩
      else
        ⟨out, scale, ps.foldl (fun a p => max a (up32 (p.1.dy.add p.2.dy.neg))) 0,
          ps.foldl (fun a p => max a (if p.2.isZero then (if p.1.isZero then 0 else infOf fp32 false)
            else upRatio (p.1.dy.add p.2.dy.neg) p.2.dy)) 0, flags, false⟩

/-- Elements [lo, hi) of a row as values. -/
def rowVals (fmt row lo hi : Nat) : List FVal :=
  match fmtOf fmt with
  | some f => (List.range (hi - lo)).map (fun i => decodeF f (bitsAt row ((lo + i) * codeBits fmt) (codeBits fmt)))
  | none => []

/-- One block: row `r`, block `j`. -/
def asyBlk (k : Nat) (x : AsyD) (sat : Bool) (bad : List Nat) (s : State) (r j : Nat) : AsyBlk :=
  let lo := 32 * j
  let hi := min x.len (lo + 32)
  let part := fun (q : Rng) (w : Nat) =>
    let b := lo * w / 8
    (q.base + r * q.stride + b, (hi * w + 7) / 8 - b)
  let src := part x.rSrc (codeBits x.sf)
  let isBad := badGlobal k bad src.1 src.2 s
  let vs := rowVals x.sf (engRead k (x.rSrc.base + r * x.rSrc.stride) x.rSrc.len s) lo hi
  if x.widen then
    let sa := x.rScl.base + r * x.rScl.stride + j
    let sbad := x.scaled && badGlobal k bad sa 1 s
    let rp := part x.rRef (codeBits x.df)
    let rv := if x.refEn then some (rowVals x.df (engRead k (x.rRef.base + r * x.rRef.stride) x.rRef.len s) lo hi) else none
    asyWidenBlk x (isBad || sbad) (x.refEn && badGlobal k bad rp.1 rp.2 s) (if x.scaled then engRead k sa 1 s else 0x7F) vs rv
  else asyNarrowBlk x sat isBad vs

/-- Write the converted rows, scales and sidecars; gather flags, COUNT, FIRST and VALUE. -/
def asyWrite (k : Nat) (x : AsyD) : List (Nat × List AsyBlk) → EngIns → State → EngIns × State
  | [], e, s => (e, s)
  | (r, bs) :: m, e, s =>
    let s := engWrite k (x.rDst.base + r * x.rDst.stride) x.rDst.len (packBits (codeBits x.df) (bs.flatMap (·.out))) s
    let s := if x.scaled && !x.widen then engWrite k (x.rScl.base + r * x.rScl.stride) x.rScl.len (packBits 8 (bs.map (·.scale))) s else s
    let s := if x.scEn then
        engWrite k (x.rSide.base + 8 * r * x.nb) (8 * x.nb) (packBits 64 (bs.map (fun b => b.abs + 2 ^ 32 * b.rel))) s else s
    let val := fun (b : AsyBlk) => if x.widen && !x.refEn then b.abs else b.rel
    let e := { e with
      flags := bs.foldl (fun a b => a ||| b.flags) e.flags
      value := bs.foldl (fun a b => if val b > 0x7F800000 then a else max a (val b)) e.value
      count := e.count + (bs.filter (·.nonfin)).length
      first := min e.first ((bs.findIdx? (·.nonfin)).map (fun j => r * x.nb + j) |>.getD 0x1FFFFFF) }
    asyWrite k x m e s

/-- ASY_NARROW and ASY_WIDEN: the front instruction converts its tensor (R176 to R183). -/
def asyRun (widen : Bool) (cl : Nat) (ecc : Ecc) (s : State) : State :=
  let k := kAsy cl
  match engHead k s with
  | none => s
  | some e =>
    let x : AsyD := ⟨e.desc⟩
    if e.phase ≠ 0 ∨ x.widen ≠ widen then s
    else
      let src := rowList x.reads
      withSources k src (fun s =>
        let b := asyBase cl
        let bad := badAddrs k ecc.bad src s
        let blks := (List.range x.rows).map (fun r => (r, (List.range x.nb).map (fun j => asyBlk k x (bitAt e.cfg.toNat 0) ecc.bad s r j)))
        let rows := blks.map (fun p => packBits (codeBits x.df) (p.2.flatMap (·.out)))
        let r := asyWrite k x blks { e with first := 0x1FFFFFF, ue := !bad.isEmpty } s
        let s := if x.bmpEn then engWrite k x.rBmp.base x.rBmp.len (occBitmap (zeroCode x.df) (codeBits x.df) x.len rows) r.2 else r.2
        let s := engUe b R.ASY_ERR_UE R.ASY_ERR_UE_COUNT R.ASY_ERR_LAST_TAG R.ASY_ERR_ADDR_VALID
          (fun a => setPair b R.ASY_UE_ADDR_LO_ADDR R.ASY_UE_ADDR_HI_ADDR a) (fun a => raise (0x4000 + 4 * cl + 1) 0x21 2 a cl) e.tag bad s
        let s := bumpF b R.ASY_NONFIN_COUNT r.1.count (bumpF b R.ASY_CE_COUNT_COUNT ecc.corrected s)
        setHead k { r.1 with phase := 1 } (engFlush k s)) s

/-- ASY_COMPLETE (R183): once every write on this package is visible (R145). -/
def asyComplete (cl : Nat) (s : State) : State :=
  match engHead (kAsy cl) s with
  | none => s
  | some e =>
    if e.phase = 0 ∨ writesOpen (.eng (kAsy cl)) s then s
    else
      let b := asyBase cl
      let s := setFlags b e.flags [(0, R.ASY_STATUS_NV), (1, R.ASY_STATUS_OF), (2, R.ASY_STATUS_UF), (3, R.ASY_STATUS_NX),
        (4, R.ASY_STATUS_SATD)] s
      let s := if e.flags % 4 ≠ 0 then
          setF b R.ASY_STATUS_LAST_TAG (e.tag.toNat % 256) (bumpF b R.ASY_STATUS_FLAG_COUNT 1 s) else s
      let value := (cvtV fp64 false (decodeF fp32 e.value)).1
      engComplete (kAsy cl) (mkSummary value e.count (if e.first = 0x1FFFFFF then none else some e.first) e.flags
        (decide (e.flags % 16 &&& bitsAt e.cfg.toNat 1 4 ≠ 0)) false e.ue) s

/-- ASY_RESTORE (R196). -/
def asyRestore (path : Path) (cl : Nat) (v : Word) (s : State) : State :=
  restoreStatus path (asyBase cl + 0x48) (asyBase cl) [R.ASY_STATUS_NV, R.ASY_STATUS_OF, R.ASY_STATUS_UF, R.ASY_STATUS_NX, R.ASY_STATUS_SATD,
    R.ASY_STATUS_FLAG_COUNT, R.ASY_STATUS_LAST_TAG] v.toNat s

/-- ASY_ACCEPT (R185). -/
def execAsyAccept (cl : Fin 36) (ecc : DescEcc) (s : State) : Host.Outcome State Fault Refusal :=
  .next (asyAccept cl ecc.ue ecc.ce s)

/-- ASY_NARROW (R178 to R181). -/
def execAsyNarrow (cl : Fin 36) (ecc : Ecc) (s : State) : Host.Outcome State Fault Refusal :=
  .next (asyRun false cl ecc s)

/-- ASY_WIDEN (R182). -/
def execAsyWiden (cl : Fin 36) (ecc : Ecc) (s : State) : Host.Outcome State Fault Refusal :=
  .next (asyRun true cl ecc s)

/-- ASY_COMPLETE (R183). -/
def execAsyComplete (cl : Fin 36) (s : State) : Host.Outcome State Fault Refusal :=
  .next (asyComplete cl s)

/-- ASY_RESTORE (R196). -/
def execAsyRestore (path : Path) (cl : Fin 36) (val : Word) (s : State) : Host.Outcome State Fault Refusal :=
  .next (asyRestore path cl val s)

end Sys2Proof.Machine
end

