-- ==== Sys2Proof/Machine/Dispatcher.lean ====
section
/-! DEFINITION. The Dispatchers (R167 to R174, R194 to R197): contributions, batches, selection, count exchange, lists, drop
map, summaries and timeouts. -/

namespace Sys2Proof.Machine

/-- The Dispatcher of die `d`. -/
def getDsp (d : Nat) (s : State) : Dsp := sGet Dsp.init s.dsps d
/-- Replace a Dispatcher. -/
def setDsp (d : Nat) (x : Dsp) (s : State) : State := { s with dsps := sSet Dsp.init d x s.dsps }

/-- The own number's address of a local offset: [63:48] = 0xFFFF (R28). -/
def selfAddr (off : Nat) : Nat := 0xFFFF * 2 ^ 48 + off
/-- Local offset of byte `a` of the tile window of logical tile `p` (R227). -/
def tileWin (p a : Nat) : Nat := 2 ^ 45 + p * 2 ^ 23 + a

/-! ### Header and contribution fields (R167) -/

def hdrE (h : Nat) : Nat := bitsAt h 0 8 + 1
def hdrK (h : Nat) : Nat := bitsAt h 8 3 + 1
def hdrBf16 (h : Nat) : Bool := bitAt h 11
def hdrExch (h : Nat) : Nat := bitsAt h 12 4
def hdrDmap (h : Nat) : Bool := bitAt h 16
def hdrCap (h : Nat) : Nat := bitsAt h 32 16 + 1
def hdrToken (h : Nat) : Nat := bitsAt h 64 29
def hdrList (h : Nat) : Nat := dq h 16
def hdrCount (h : Nat) : Nat := dq h 24
def hdrDmapAddr (h : Nat) : Nat := dq h 32
def conHeader (c : Nat) : Nat := dq c 0
def conScore (c : Nat) : Nat := bitsAt (dw c 2) 0 23
def conTile (c : Nat) : Nat := bitsAt (dw c 2) 23 3
def conT (c : Nat) : Nat := bitsAt (dw c 3) 0 14
def conLds (c : Nat) : Nat := 128 * bitsAt (dw c 3) 16 14
/-- Bytes of a score. -/
def hdrSize (h : Nat) : Nat := if hdrBf16 h then 2 else 4

/-- `n` bytes at a global address lie in this package's HBM windows. -/
def hbmRange (ga n : Nat) (s : State) : Bool := isLocal ga s && inHbm (offOf ga) n s

/-- The tile a global address names when it lies in the tile SRAM of cluster `cl`, with the offset. -/
def ownTile (cl ga : Nat) (s : State) : Option (Nat × Nat) :=
  if isLocal ga s then
    match target (offOf ga) s with
    | .tile p a => if p / 8 = cl then some (p, a) else none
    | _ => none
  else none

/-- A reported address lies in [ga, ga + n); local offsets are compared. -/
def eccHits (bad : List Nat) (ga n : Nat) : Bool := bad.any (fun a => decide (offOf ga ≤ offOf a) && decide (offOf a < offOf ga + n))

/-- The 16 bytes of a contribution. -/
def conRead (cl ga : Nat) (s : State) : Nat :=
  match ownTile cl ga s with
  | some (p, a) => tileReadN p a 16 s
  | none => 0

/-- Whether the contribution's own bytes read poisoned (R236). -/
def conMarked (cl ga : Nat) (s : State) : Bool :=
  match ownTile cl ga s with
  | some (p, a) => tileMarked p a 16 s
  | none => false

/-- A batch is open until all nine clusters have contributed (R167). -/
def Batch.isOpen (b : Batch) : Bool := decide (b.contribs.length < 9)
/-- The open batches of a Dispatcher. -/
def dspOpen (d : Nat) (s : State) : List Batch := (getDsp d s).batches.filter (·.isOpen)
/-- The open batch of a header. -/
def dspFind (d ha : Nat) (s : State) : Option Batch := (dspOpen d s).find? (fun b => b.addr = ha)

/-- The header a contribution uses: the copy of the open batch, else memory (R167). -/
def hdrRead (d ha : Nat) (s : State) : Nat :=
  match dspFind d ha s with
  | some b => b.header
  | none => readOff (offOf ha) 64 s

/-- The checks of a contribution in the order of R143 (R174). Item 2 of R143 is the contribution's own read; an uncorrectable header has its place among the
remaining causes, and no check is made on contents that did not read. -/
def dspChecks (d cl : Nat) (bad : List Nat) (ga : Nat) (s : State) : List (Bool × Nat) :=
  let c := conRead cl ga s
  let ha := conHeader c
  let opened := dspFind d ha s
  let hPlace := ha % 64 = 0 && hbmRange ha 64 s
  let hBad := hPlace && opened.isNone && (eccHits bad ha 64 || poisonOff (offOf ha) 64 s)
  let hOk := hPlace && !hBad
  let h := hdrRead d ha s
  let sz := hdrSize h
  [(ga % 16 ≠ 0, 3), ((ownTile cl ga s).isNone || bitsAt ga 0 23 + 16 > 0x600000, 5), (eccHits bad ga 16 || conMarked cl ga s, 6),
   (bitsAt (dw c 2) 26 6 ≠ 0 || bitsAt (dw c 3) 14 2 ≠ 0 || bitsAt (dw c 3) 30 2 ≠ 0 ||
     (hOk && (bitsAt h 17 15 ≠ 0 || bitsAt h 48 16 ≠ 0 || bitsAt h 93 35 ≠ 0 || bitsAt h 320 192 ≠ 0 || hdrK h > hdrE h)), 1),
   (conT c > 8192 || (conT c > 0 && hOk && (conLds c < hdrE h * sz || conScore c + (conT c - 1) * conLds c + hdrE h * sz > 0x600000)), 2),
   (ha % 64 ≠ 0 || (conT c > 0 && conScore c % 128 ≠ 0) || (hOk && (hdrCount h % 128 ≠ 0 || hdrList h % 8 ≠ 0)), 3),
   ((opened.map (fun b => b.contribs.any (fun x => x.ins.core = cl))).getD false, 4),
   (!hbmRange ha 64 s ||
     (hOk && (hdrToken h + 73728 > 0x1FFFFFFF || !hbmRange (hdrList h) (hdrE h * hdrCap h * 8) s || !hbmRange (hdrCount h) 5120 s ||
       (hdrDmap h && !hbmRange (hdrDmapAddr h) 73728 s) || (hdrExch h ≠ 0 && !bitAt (hdrExch h) d))), 5), (hBad, 6)]

/-! ### Selection (R168) -/

/-- Score `e` of row `t` of a contribution, as FP32 bits. -/
def conScoreAt (h c core t e : Nat) (s : State) : Nat :=
  let v := tileReadN (8 * core + conTile c) (conScore c + t * conLds c + e * hdrSize h) (hdrSize h) s
  if hdrBf16 h then v * 2 ^ 16 else v

/-- Score (i, a) ranks before (j, b): the higher number, the lower index of equals, numbers before NaNs. -/
def ranksBefore (a b : Nat × Nat) : Bool :=
  let x := decodeF fp32 a.2
  let y := decodeF fp32 b.2
  if x.isNan then y.isNan && decide (a.1 < b.1)
  else if y.isNan then true
  else ltV y x || (eqV x y && decide (a.1 < b.1))

/-- The first of a list in the ranking. -/
def bestOf (x : Nat × Nat) (l : List (Nat × Nat)) : Nat × Nat := l.foldl (fun a b => if ranksBefore b a then b else a) x

/-- The first `k` of the ranking. -/
def topK : Nat → List (Nat × Nat) → List (Nat × Nat)
  | 0, _ => []
  | k + 1, l =>
    match l with
    | [] => []
    | x :: xs => let b := bestOf x xs; b :: topK k (l.filter (fun y => y.1 ≠ b.1))

/-- One token of a batch: its offset, its selections (expert, FP32 score) in rank order, whether it had a NaN, whether its row was bad. -/
structure Token where
  off : Nat
  sels : List (Nat × Nat)
  nan : Bool
  bad : Bool

/-- The contributions in ascending cluster index (R167). -/
def byCluster (b : Batch) : List Contrib :=
  (List.range 36).filterMap (fun cl => b.contribs.find? (fun x => x.ins.core = cl))

/-- The tokens of a list of contributions from offset `o` on. -/
def tokensGo (h : Nat) (s : State) : List Contrib → Nat → List Token
  | [], _ => []
  | x :: xs, o =>
    let c := x.ins.desc
    (List.range (conT c)).map (fun t =>
      let row := (List.range (hdrE h)).map (fun e => (e, conScoreAt h c x.ins.core t e s))
      let isBad := x.bad.contains t
      ⟨o + t, if isBad then [] else topK (hdrK h) row, !isBad && row.any (fun y => (decodeF fp32 y.2).isNan), isBad⟩) ++
    tokensGo h s xs (o + conT c)

/-- All tokens of a batch. -/
def batchTokens (b : Batch) (s : State) : List Token := tokensGo b.header s (byCluster b) 0

/-- Selections of expert `e` in ascending token order: token offset, rank, score. -/
def selsOf (ts : List Token) (e : Nat) : List (Nat × Nat × Nat) :=
  ts.flatMap (fun t => t.sels.zipIdx.filterMap (fun x => if x.1.1 = e then some (t.off, x.2, x.1.2) else none))

/-- The dies that share a batch: those EXCH_MASK names, or this one alone. -/
def namedDies (h d : Nat) : List Nat := if hdrExch h = 0 then [d] else (List.range 4).filter (fun i => bitAt (hdrExch h) i)

/-- Write words of `n` bytes from an address on. -/
def writeWords (k n : Nat) : List Nat → Nat → State → State
  | [], _, s => s
  | v :: vs, a, s => writeWords k n vs (a + n) (engWrite k a n v s)

/-- A closed batch at the front starts: its counts go to slot d of the count table, which the named dies learn (R169); the timeout runs again (R173). -/
def dspStart (d : Nat) (s : State) : State :=
  let x := getDsp d s
  match x.batches with
  | [] => s
  | b :: bs =>
    if b.isOpen ∨ b.phase ≠ 0 then s
    else
      let ts := batchTokens b s
      let counts := (List.range 256).map (fun e => (selsOf ts e).length)
      let s := setDsp d { x with batches := { b with phase := 1, since := s.count } :: bs } s
      let s := writeWords (kDsp d) 4 counts (hdrCount b.header + 1024 * d) s
      (namedDies b.header d).foldl (fun s i =>
        if i = d then s else let y := getDsp i s; setDsp i { y with got := y.got ++ [(d, offOf (hdrCount b.header))] } s) s

/-- Whether a contribution's header has an open batch or may open one: at most two are open at once (R167). -/
def dspTakes (d cl ga : Nat) (s : State) : Bool :=
  let bs := dspOpen d s
  decide (bs.length < 2) || bs.any (fun b => decide (b.addr = conHeader (conRead cl ga s)))

/-- The crossing contribution the Dispatcher takes next: the first whose batch is open or may open, in the order of each core (R167). -/
def dspPick (d : Nat) (s : State) : List EngIns → List Nat → Option EngIns
  | [], _ => none
  | x :: xs, seen =>
    if seen.contains x.core then dspPick d s xs seen
    else if dspTakes d x.core x.p.toNat s then some x
    else dspPick d s xs (x.core :: seen)

/-- Count bad score rows (R194): DSP_ERR and one record each. -/
def dspUe (d : Nat) : List Nat → State → State
  | [], s => s
  | a :: m, s => dspUe d m (raise (0x5000 + d) 0x21 2 a d (bumpF (dspBase d) R.DSP_ERR_UE_COUNT 1 (setF (dspBase d) R.DSP_ERR_UE 1 s)))

/-- The batch timeout as sampled when core `c` opens a batch, in us: DSP_TIMEOUT with TIMEOUT_OWN, else the opener's SEQ_WAIT_LIMIT (R173, R197). -/
def dspLimit (d c : Nat) (s : State) : Nat :=
  if effF (dspBase d) R.DSP_CFG_TIMEOUT_OWN R.DSP_CFG_LEVEL s = 1 then max 1 (effF (dspBase d) R.DSP_TIMEOUT_LIMIT_US R.DSP_CFG_LEVEL s)
  else max 1 (effF (seqBase c) R.SEQ_WAIT_LIMIT_LIMIT_US R.SEQ_CTRL_LEVEL s)

/-- Add a contribution to its open batch, or open one with what opening samples (R167, R173, R197). -/
def dspJoin (d ha h : Nat) (con : Contrib) (s : State) : State :=
  let y := getDsp d s
  if (dspFind d ha s).isSome then
    setDsp d { y with batches := y.batches.map (fun b => if b.isOpen && b.addr = ha then { b with contribs := b.contribs ++ [con] } else b) } s
  else
    let pad := effF (dspBase d) R.DSP_CFG_PAD_FILL R.DSP_CFG_LEVEL s = 1
    setDsp d { y with batches := y.batches ++ [⟨ha, h, decide pad, dspLimit d con.ins.core s, s.count, [con], 0⟩] } s

/-- What the header that a contribution names needs before it can be read; the header of an open batch is held already. -/
def dspAsk (d cl : Nat) (bad : List Nat) (ga : Nat) (s : State) : Option (State → State) :=
  let ha := conHeader (conRead cl ga s)
  if ga % 16 = 0 ∧ (ownTile cl ga s).isSome ∧ eccHits bad ga 16 = false ∧ conMarked cl ga s = false ∧ (dspFind d ha s).isNone then blockAsk 64 ha s else none

/-- DSP_CONTRIBUTION (R167, R174): the next contribution is checked and accepted; the ninth closes its batch. -/
def dspContribution (d : Nat) (ecc : Ecc) (s : State) : State :=
  let k := kDsp d
  match dspPick d s (getEng k s).cross [] with
  | none => s
  | some x =>
    match dspAsk d x.core ecc.bad x.p.toNat s with
    | some f => f s
    | none =>
    let g := getEng k s
    let rest := g.cross.erase x
    let s := bumpF (dspBase d) R.DSP_CE_COUNT_COUNT ecc.corrected (setEng k { g with cross := x :: rest } s)
    match firstCause (dspChecks d x.core ecc.bad x.p.toNat s) with
    | some c => engReject k c s
    | none =>
      let c := conRead x.core x.p.toNat s
      let ha := conHeader c
      let h := hdrRead d ha s
      let rowAt := fun t => selfAddr (tileWin (8 * x.core + conTile c) (conScore c + t * conLds c))
      let rowBad := fun t => eccHits ecc.bad (rowAt t) (hdrE h * hdrSize h) ||
        tileMarked (8 * x.core + conTile c) (conScore c + t * conLds c) (hdrE h * hdrSize h) s
      let bad := (List.range (conT c)).filter rowBad
      let con : Contrib := ⟨{ x with desc := c }, bad⟩
      dspStart d (dspUe d (bad.map rowAt) (ranAdd k (setEng k { getEng k s with cross := rest } (dspJoin d ha h con s))))

/-- DSP_EXCHANGE_DONE (R169): every named die has written its slot, and the writes are performed. -/
def dspExchange (d : Nat) (s : State) : State :=
  let x := getDsp d s
  match x.batches with
  | [] => s
  | b :: bs =>
    let ca := offOf (hdrCount b.header)
    let others := (namedDies b.header d).filter (· ≠ d)
    if b.phase = 1 ∧ hdrExch b.header ≠ 0 ∧ others.all (fun i => x.got.contains (i, ca)) ∧
        (namedDies b.header d).all (fun i => !writesOpen (.eng (kDsp i)) s) then
      setDsp d { batches := { b with phase := 2 } :: bs, got := others.foldl (fun g i => g.erase (i, ca)) x.got } s
    else s

/-- Count of expert `e` in slot `i` of the count table. -/
def slotCount (h i e : Nat) (s : State) : Nat := readOff (offOf (hdrCount h) + 1024 * i + 4 * e) 4 s

/-- Write the kept entries of expert `e`: those with an offset below CAP (R170, R171). -/
def writeList (d h e base : Nat) : List (Nat × Nat × Nat) → Nat → State → State
  | [], _, s => s
  | (o, r, sc) :: m, i, s =>
    let s := if base + i < hdrCap h then
        engWrite (kDsp d) (hdrList h + 8 * (e * hdrCap h + base + i)) 8 (sc * 2 ^ 32 + r * 2 ^ 29 + (hdrToken h + o)) s else s
    writeList d h e base m (i + 1) s

/-- What a batch writes at its end, and the count table it reads there. -/
def dspRanges (h n : Nat) : List (Nat × Nat) :=
  [(hdrList h, hdrE h * hdrCap h * 8), (hdrCount h, 5120)] ++ (if hdrDmap h then [(hdrDmapAddr h, n)] else [])

/-- DSP_BATCH_DONE (R170 to R172): lists, pads, kept counts and drop map are written, every contributor gets the summary, and the next
closed batch starts. The writes are complete when the summary is delivered (R145, R171): a line with a copy elsewhere is recalled first. -/
def dspBatchDone (d : Nat) (s : State) : State :=
  let x := getDsp d s
  match x.batches with
  | [] => s
  | b :: bs =>
    let h := b.header
    if ¬ (b.phase = 2 ∨ (b.phase = 1 ∧ hdrExch h = 0)) then s
    else
      let k := kDsp d
      withRoom (dspRanges h (batchTokens b s).length) (fun s =>
      let ts := batchTokens b s
      let es := List.range (hdrE h)
      let dies := namedDies h d
      let first := dies.headD d
      let base := fun e => (dies.filter (· < d)).foldl (fun n i => n + slotCount h i e s) 0
      let total := fun e => dies.foldl (fun n i => n + slotCount h i e s) 0
      let cap := hdrCap h
      -- per expert: this die's selections with their offsets in the list
      let placed := es.map (fun e => (e, base e, selsOf ts e))
      let keptN := placed.foldl (fun n p => n + min p.2.2.length (cap - p.2.1)) 0
      let kept := fun (o r : Nat) => placed.any (fun p => p.2.2.zipIdx.any (fun y => y.1.1 = o && y.1.2.1 = r && p.2.1 + y.2 < cap))
      let lost := fun (t : Token) => if t.bad then hdrK h else ((List.range t.sels.length).filter (fun r => !kept t.off r)).length
      let drops := ts.foldl (fun n t => n + lost t) 0
      let firstLost := (ts.find? (fun t => lost t ≠ 0)).map (·.off)
      let padN := if b.pad && d = first then es.foldl (fun n e => n + (cap - total e)) 0 else 0
      let big := es.foldl (fun m e => max m (total e)) 0
      let totals := es.map total
      let dmap := ts.map (fun t => packBits 1 ((List.range 8).map (fun r => b2n (kept t.off r))))
      let nans := (ts.filter (·.nan)).length
      let ue := b.contribs.any (fun c => !c.bad.isEmpty)
      let s := placed.foldl (fun s p => writeList d h p.1 p.2.1 p.2.2 0 s) s
      let s := if b.pad && d = first then
          (es.zip totals).foldl (fun s p => writeWords k 8 (List.replicate (cap - p.2) 0xFFFFFFFF) (hdrList h + 8 * (p.1 * cap + min p.2 cap)) s) s
        else s
      let s := if d = first then writeWords k 4 (totals.map (fun t => min t cap)) (hdrCount h + 4096) s else s
      let s := if hdrDmap h then writeWords k 1 dmap (hdrDmapAddr h) s else s
      let s := addPair (dspBase d) R.DSP_ENTRIES_LO_VALUE R.DSP_ENTRIES_HI_VALUE (keptN + padN) s
      let s := if drops = 0 then s else bumpF (dspBase d) R.DSP_STATUS_DROP_COUNT drops (setF (dspBase d) R.DSP_STATUS_DROP 1 s)
      let s := bumpF (dspBase d) R.DSP_STATUS_NAN_COUNT nans s
      let v := mkSummary big drops firstLost 0 false false ue
      let s := b.contribs.foldl (fun s c => coreComplete c.ins v s) (setDsp d { getDsp d s with batches := bs } s)
      jobEnd (dspStart d s)) s

/-- Whether a batch that is collecting or waits for the exchange has run longer than its limit; a count is 1 ns (R173). -/
def batchExpired (b : Batch) (s : State) : Bool :=
  (b.isOpen || (b.phase = 1 && hdrExch b.header ≠ 0)) && decide (1000 * b.limit < (s.count - b.since).toNat)

/-- DSP_BATCH_TIMEOUT (R173): the first batch whose time has run out expires, but not while FROZEN; every contributing core takes WAIT_TIMEOUT with the header
address, except one already stopped (R163). -/
def dspTimeout (d : Nat) (s : State) : State :=
  if s.pkg = .frozen then s
  else
  match (getDsp d s).batches.find? (fun b => batchExpired b s) with
  | none => s
  | some b =>
    let missing := (List.range 9).foldl (fun m i => if b.contribs.any (fun c => c.ins.core = 9 * d + i) then m else m + 2 ^ i) 0
    let s := setF (dspBase d) R.DSP_ERR_MISSING missing (setF (dspBase d) R.DSP_ERR_TIMEOUT 1 s)
    b.contribs.foldl (fun s c =>
      if (getCore c.ins.core s).st = .stopped then s else faultHere c.ins.core 7 b.addr s) s

/-- The word at `off` of an image numbered `n` of the state window at CSR offset `base`: internal to the package, a free value (R490). -/
def imageWord (base n off : Nat) : Word := BitVec.ofNat 32 (Config.freeResult 60 (base + off / 4 * 4 + n * 2 ^ 28))

/-- A write of a state window while FROZEN (R490): the word last read puts the block back as it was when the image was read; any
other word leaves the block's behaviour undefined. -/
def windowWrite {α : Type} (path : Path) (img : Option (Nat × α)) (base off : Nat) (v : Word) (put : α → State → State) (s : State) :
    Host.Outcome State Fault Refusal :=
  if s.pkg ≠ .frozen then .next (rejectWrite path (base + off) v.toNat s)
  else match img with
    | none => .fault .undefinedImage
    | some (n, x) => if v = imageWord base n off then .next (put x s) else .fault .undefinedImage

/-- DSP_CONTRIBUTION (R174). -/
def execDspContribution (d : Fin 4) (ecc : Ecc) (s : State) : Host.Outcome State Fault Refusal :=
  .next (dspContribution d ecc s)

/-- DSP_EXCHANGE_DONE (R169). -/
def execDspExchangeDone (d : Fin 4) (s : State) : Host.Outcome State Fault Refusal :=
  .next (dspExchange d s)

/-- DSP_BATCH_DONE (R171). -/
def execDspBatchDone (d : Fin 4) (s : State) : Host.Outcome State Fault Refusal :=
  .next (dspBatchDone d s)

/-- DSP_BATCH_TIMEOUT (R173). -/
def execDspBatchTimeout (d : Fin 4) (s : State) : Host.Outcome State Fault Refusal :=
  .next (dspTimeout d s)

/-- DSP_STATE_WINDOW (R196, R490). -/
def execDspStateWindow (path : Path) (d : Fin 4) (off : BitVec 11) (val : Word) (s : State) : Host.Outcome State Fault Refusal :=
  windowWrite path (sFind s.imgDsp d) (dspBase d + 0x800) off.toNat val (fun x s => setDsp d x s) s

end Sys2Proof.Machine
end

