-- ==== Sys2Proof/Machine/Cairn.lean ====
section
/-! DEFINITION. The Cairn record (R463 to R465): appending an entry, its bytes and its chain hash. -/

namespace Sys2Proof.Machine

/-- Entries the Cairn area holds. -/
def cairnCap : Nat := 65536

/-- The number of entries committed since manufacture. -/
def cairnCount (s : State) : Nat := s.sec.base + s.sec.cairn.length
/-- Free entries (SEC_CAIRN_FREE). -/
def cairnFree (s : State) : Nat := cairnCap - s.sec.cairn.length

/-- Byte `i` of the body of entry `n`: an EVENT entry holds the 32 bytes of its Logbook record, which `args` lists as words; the byte
layout of every other body is not stated (a free value). -/
def cairnBody (n : Nat) (e : CairnEntry) (i : Nat) : Byte :=
  if e.kind = 3 then if i < 32 then BitVec.ofNat 8 (e.args.getD (i / 4) 0 / 2 ^ (8 * (i % 4))) else 0
  else BitVec.ofNat 8 (Config.freeResult 70 (n * 512 + i))

/-- The 512 bytes of entry `n` (R463). -/
def cairnBytes (n : Nat) (e : CairnEntry) : List Byte :=
  natBytes n 8 ++ natBytes e.kind 2 ++ natBytes (if e.kind = 3 then 32 else Config.freeResult 71 n) 2 ++ natBytes 0 4 ++
  natBytes e.powerOn 8 ++ natBytes e.custody.toNat 8 ++ (List.range 408).map (cairnBody n e) ++ natBytes 1 8 ++
  natBytes e.prev.toNat 64

/-- The chain hash of the newest entry (R464), or zeros before entry 0. -/
def cairnHead (s : State) : BitVec 512 :=
  match s.sec.cairn.getLast? with
  | none => 0
  | some e => Config.sha512 (cairnBytes (cairnCount s - 1) e)

/-- Seconds of STANDBY or higher since manufacture (R463). -/
def powerOnS (s : State) : Nat := s.upNs / 1000000000

/-- The current custody ID. -/
def custody (s : State) : DWord := BitVec.ofNat 64 (getPair secBase R.SEC_CUSTODY_LO_CUSTODY R.SEC_CUSTODY_HI_CUSTODY s)

/-- Append an entry (R463, R465): a full area loses it and counts it; falling below 6,554 free entries sets CAIRN_LOW. -/
def cairnAdd (kind : Nat) (args : List Nat) (s : State) : State :=
  if s.sec.cairn.length ≥ cairnCap then bumpF secBase R.SEC_CAIRN_LOST_COUNT 1 s
  else
    let e : CairnEntry := ⟨kind, powerOnS s, custody s, args, cairnHead s⟩
    let s := { s with sec := { s.sec with cairn := s.sec.cairn ++ [e] } }
    if cairnFree s < 6554 ∧ getF secBase R.SEC_STATUS_CAIRN_LOW s = 0 then
      raise 0xE000 0xAB 1 0 0 (setF secBase R.SEC_STATUS_CAIRN_LOW 1 s)
    else s

end Sys2Proof.Machine
end

