-- ==== Sys2Proof/Machine/Cmd.lean ====
section
/-! DEFINITION. The command interface (R430 to R433): the checks of a GO, acceptance, completion and abandonment; and the bytes a command
reads from HBM or from the companion processor's memory. -/

namespace Sys2Proof.Machine

/-- CMD_ARG n. -/
def cmdArg (n : Nat) (s : State) : Nat :=
  if n = 0 then getPair cmdBase R.CMD_ARG0_LO_VALUE R.CMD_ARG0_HI_VALUE s
  else if n = 1 then getPair cmdBase R.CMD_ARG1_LO_VALUE R.CMD_ARG1_HI_VALUE s
  else if n = 2 then getPair cmdBase R.CMD_ARG2_LO_VALUE R.CMD_ARG2_HI_VALUE s
  else getPair cmdBase R.CMD_ARG3_LO_VALUE R.CMD_ARG3_HI_VALUE s

/-- Whether a command is in progress. -/
def cmdBusy (s : State) : Bool := getF cmdBase R.CMD_STATUS_BUSY s = 1
/-- The opcode of the command shown. -/
def cmdOp (s : State) : Nat := getF cmdBase R.CMD_STATUS_LAST_OPCODE s

/-- A command completes with a status code (R430). -/
def cmdFinish (code : Nat) (s : State) : State :=
  setF cmdBase R.CMD_STATUS_CODE code (setF cmdBase R.CMD_STATUS_BUSY 0 (setF cmdBase R.CMD_STATUS_DONE 1 s))
/-- Complete the command in progress, if it is one of opcode `op`. -/
def cmdFinishOf (op code : Nat) (s : State) : State := if cmdBusy s && cmdOp s = op then cmdFinish code s else s
/-- Set CMD_RESULT. -/
def cmdResult (v : Nat) (s : State) : State := setPair cmdBase R.CMD_RESULT_LO_VALUE R.CMD_RESULT_HI_VALUE v s

/-- A fault abandons the command in progress (R432). -/
def cmdAbandon (s : State) : State :=
  if cmdBusy s then raise 0 0x04 1 (cmdOp s) 0 (cmdFinish 5 { s with launch := none }) else s

/-- The package becomes FAULTED with a cause; a command in progress is abandoned (R429, R432). -/
def setFaulted (cause : Nat) (s : State) : State :=
  cmdAbandon (setPkg .faulted { s with cause := cause })

/-- The states a command is legal in (R433); a loaded EXTEST counts as part of the state for POWER_UP (R484). -/
def cmdLegal (op : Nat) (s : State) : Bool :=
  let p := s.pkg
  match op with
  | 0x00 => true
  | 0x01 => p = .standby && s.pins.tap ≠ 3
  | 0x02 => p = .service || p = .ready || p = .sleep || p = .faulted
  | 0x03 => p = .ready
  | 0x04 => p = .service
  | 0x05 => p = .ready
  | 0x06 => p = .sleep
  | 0x07 => p = .ready || p = .sleep || p = .service
  | 0x08 => p = .ready && getF ckpBase R.CKP_STATUS_QUARANTINED s = 0
  | 0x09 => p = .admitted
  | 0x0A => p = .running
  | 0x0B => p = .frozen
  | 0x0C => p = .frozen || p = .admitted
  | 0x0D => p = .admitted && getF ckpBase R.CKP_RANK_ROLE s = 1
  | 0x0E => p = .faulted && s.cause = 1
  | 0x0F => p = .admitted || p = .running || p = .frozen || (p = .faulted && s.cause = 1)
  | 0x10 => p = .ready
  | 0x11 => true
  | 0x12 => p = .service
  | 0x13 => p ≠ .standby
  | _ => false

/-- Whether a path may issue an opcode (R433): both H and S, or H only. -/
def cmdPath (op : Nat) (path : Path) : Bool :=
  match path with
  | .halter => true
  | .sideband => op = 0 || op = 1 || op = 2 || op = 5 || op = 6 || op = 0xF || op = 0x13
  | _ => false

/-- A command rejected by checks 2 to 6: no side effect but the outcome and one record (R431). -/
def cmdReject (path : Path) (op outcome rec : Nat) (s : State) : State :=
  raise 0 rec 1 (op % 256 + stCode s.pkg * 256) (pathCode path)
    (setF cmdBase R.CMD_STATUS_CODE outcome (setF cmdBase R.CMD_STATUS_DONE 1 (setF cmdBase R.CMD_STATUS_LAST_OPCODE op s)))

/-- A command is accepted (R430). -/
def cmdAccept (op : Nat) (s : State) : State :=
  cmdResult 0 (setF cmdBase R.CMD_STATUS_CODE 1 (setF cmdBase R.CMD_STATUS_BUSY 1 (setF cmdBase R.CMD_STATUS_LAST_OPCODE op
    (setF cmdBase R.CMD_STATUS_ISSUED ((getF cmdBase R.CMD_STATUS_ISSUED s + 1) % 256) s))))

/-- A GO of opcode `op` on `path` (R430): the checks in order, then acceptance and `body`. `argOk` and `auth` are checks 5 and 6; `tried` is what a
verification attempt leaves even when it fails. -/
def command (path : Path) (op : Nat) (argOk : State → Bool) (auth : State → Bool) (tried : State → State) (body : State → State)
    (s : State) : State :=
  if s.pkg = .off then s
  else if cmdBusy s then setF cmdBase R.CMD_REFUSED_OPCODE op (bumpF cmdBase R.CMD_REFUSED_COUNT 1 s)
  else if op > 0x13 then cmdReject path op 3 0x02 s
  else if cmdPath op path = false then cmdReject path op 4 0x03 s
  else if cmdLegal op s = false then cmdReject path op 2 0x01 s
  else if argOk s = false then cmdReject path op 3 0x02 s
  else if auth s = false then cmdReject path op 4 0x03 (tried s)
  else body (cmdAccept op (tried s))

/-- A command without arguments to check or an authorisation. -/
def plainCommand (path : Path) (op : Nat) (body : State → State) (s : State) : State :=
  command path op (fun _ => true) (fun _ => true) id body s

/-! ### Bytes that a command reads (R455, R456, R459, R468) -/

/-- Whether `n` bytes at a local offset lie in the companion window. -/
def inCompanion (off n : Nat) (s : State) : Bool :=
  match target off s, target (off + n - 1) s with
  | .companion _, .companion _ => n ≠ 0
  | _, _ => false

/-- One byte at a local offset as a command reads it: a Depot's copy or HBM, else the companion processor's own byte. -/
def extByte (off : Nat) (s : State) : Nat :=
  match target off s with
  | .companion w =>
    match sFind s.depot (compKey (w / 128)) with
    | some d => bitsAt d.data.toNat (8 * (w % 128)) 8
    | none => (Config.companionByte s.fresh w).toNat
  | .hbm p => bitsAt (lineNat (p / 128) s) (8 * (p % 128)) 8
  | _ => 0

/-- `n` bytes at a local offset as a command reads them. -/
def readExt (off n : Nat) (s : State) : Nat := bytesNat ((List.range n).map (fun i => BitVec.ofNat 8 (extByte (off + i) s)))

/-- Write bytes at a local offset for a command: HBM lines coherently, companion lines as R291 has them (R455, R459). -/
def writeExt (off : Nat) (bs : List Byte) (s : State) : State := writeOff off bs.length (bytesNat bs) s

end Sys2Proof.Machine
end

