-- ==== Sys2Proof/Machine/Recover.lean ====
section
/-! DEFINITION. The recovery freeze (R365) and what abandons a drain (R371). -/

namespace Sys2Proof.Machine

/-- The LOCAL source number of the checkpoint controller. -/
def srcCkp : Nat := 0xC000
/-- CKP_STEP. -/
def ckpStep (s : State) : Nat := getPair ckpBase R.CKP_STEP_LO_VALUE R.CKP_STEP_HI_VALUE s

/-- A drain is abandoned: its destination slot stays without a commit line, the pin is released, and a record is written (R371). -/
def drainAbandon (s : State) : State :=
  match s.ckp.drain with
  | none => s
  | some _ =>
    raise srcCkp 0x83 1 0 0 (setF ckpBase R.CKP_STATUS_PINNED 0 (setF ckpBase R.CKP_STATUS_DRAINING 0
      { s with ckp := { s.ckp with drain := none } }))

/-- The vote in progress, a boundary check and a waiting restart end. -/
def voteClear (s : State) : State :=
  { s with ckp := { s.ckp with votes := [], mine := none, sent := false, phase := 0, checking := none, go := none } }

/-- A Firn copy in progress ends without a commit line. -/
def copyClear (s : State) : State := { s with ckp := { s.ckp with copy := none, wantDrain := false } }

/-- A FREEZE in progress saves nothing after a recovery freeze: no cut, no commit line (R365, R373). -/
def freezeSkip (s : State) : State :=
  match s.ckp.freeze with
  | some (save, _) =>
    let s := if save then setF ckpBase R.CKP_STATUS_SAVE_SKIPPED 1 s else s
    { s with ckp := { s.ckp with freeze := some (save, 3) } }
  | none => s

/-- A recovery freeze with its cause (R365, R489): every core parks with F equal to the current count; nothing is sent or written but the
RECOVERY_FREEZE record. A package already FROZEN stays so, and what it was saving is not committed. -/
def recoveryFreeze (cause : Nat) (s : State) : State :=
  if (s.pkg = .running ∨ (s.pkg = .frozen ∧ s.ckp.restore.isNone)) ∧ s.ckp.halt.isNone then
    let s := copyClear (voteClear s)
    let s := drainAbandon (raise srcCkp 0x81 2 (cause + ckpStep s % 2 ^ 56 * 2 ^ 8) 0 { s with ckp := { s.ckp with halt := some cause } })
    if s.pkg = .running then frozenCheck { s with freezeF := some s.count }
    else setF ckpBase R.CKP_STATUS_STATE 7 (freezeSkip s)
  else s

/-- CKP_STATUS.STATE of a package whose restore has ended without effect: HALTED after a recovery freeze, IN_STEP in mid-step, else IDLE. -/
def ckpRest (s : State) : Nat := if s.ckp.halt.isSome then 7 else if s.pkg = .running ∨ s.pkg = .frozen then 1 else 0

/-- The phase-1 vote of a freeze is decided (R373): the controller writes DEP_FLUSH on every die (R255), and with SAVE the freeze cut is written unless the vote carried ERR or no cut
is taken (R358). -/
def freezeDecided (err : Bool) (s : State) : State :=
  match s.ckp.freeze with
  | some (save, 1) =>
    let skip := save && (err || getF ckpBase R.CKP_CFG_ENABLE s = 0)
    let s := [0, 1, 2, 3].foldl (fun s d => setF (depBase d) R.DEP_STATUS_FLUSHING 1 s) (flush (fun _ => true) false (voteClear s))
    let s := if skip then setF ckpBase R.CKP_STATUS_SAVE_SKIPPED 1 s else s
    let s := if save && !skip then setF ckpBase R.CKP_STATUS_STATE 6 s else s
    { s with ckp := { s.ckp with freeze := some (save, if skip then 3 else 2) } }
  | _ => s

/-- A vote aborts because a member is dead (R362, R365): a restore ends with TIMEOUT, a freeze saves nothing, and a job that runs makes a recovery freeze. -/
def voteAborted (s : State) : State :=
  if s.ckp.restore.isSome then
    let s := voteClear s
    cmdFinishOf 0x0C 5 (setF ckpBase R.CKP_STATUS_STATE (ckpRest s) { s with ckp := { s.ckp with restore := none, reads := [] } })
  else if s.ckp.freeze.isSome then freezeDecided true s
  else recoveryFreeze 2 s

end Sys2Proof.Machine
end

