-- ==== Sys2Proof/Machine/Collective.lean ====
section
/-! DEFINITION. The collective engine (R298 to R319): groups, acceptance, joins, exact sums, the paths of chunks, all-to-all, aborts
and freezing. -/

namespace Sys2Proof.Machine

/-- LOCAL source number of the collective engine. -/
def srcCol : Nat := 0xA000

/-! ### Groups (R298, R299) -/

/-- Base of group entry `g`. -/
def grpBase (g : Nat) : Nat := colBase + 0x1000 + 32 * g
/-- Word `i` of group entry `g`. -/
def grpWord (g i : Nat) (s : State) : Nat := (csrGet 0 (grpBase g + 4 * i) s).toNat
/-- Set word `i` of group entry `g`. -/
def setGrpWord (g i v : Nat) (s : State) : State := csrSet 0 (grpBase g + 4 * i) (BitVec.ofNat 32 v) s
/-- MY_RANK. -/
def grpRank (g : Nat) (s : State) : Nat := bitsAt (grpWord g 0 s) 0 16
/-- Members. -/
def grpN (g : Nat) (s : State) : Nat := bitsAt (grpWord g 0 s) 16 15 + 1
/-- VALID. -/
def grpValid (g : Nat) (s : State) : Bool := bitAt (grpWord g 0 s) 31
/-- SEQ of the next collective accepted. -/
def grpSeq (g : Nat) (s : State) : Nat := bitsAt (grpWord g 1 s) 0 16
/-- BROKEN. -/
def grpBroken (g : Nat) (s : State) : Bool := bitAt (grpWord g 1 s) 16
/-- SPAN. -/
def grpSpan (g : Nat) (s : State) : Nat := bitsAt (grpWord g 1 s) 17 1
/-- The group's member list as the engine read it. -/
def grpMembers (g : Nat) (s : State) : List Nat := (sGet ⟨false, []⟩ s.col.groups g).members

/-- The list of group `g` as a range of the global map. -/
def grpListAt (g : Nat) (s : State) : Nat × Nat := (0xFFFF * 2 ^ 48 + (grpWord g 2 s + 2 ^ 32 * grpWord g 3 s) % 2 ^ 48, 2 * grpN g s)

/-- The engine reads the list and computes SIG and SPAN at the first collective accepted after the entry was written (R299). -/
def grpLoad (g : Nat) (s : State) : State :=
  if (sGet ⟨false, []⟩ s.col.groups g).read then s
  else
    let n := grpN g s
    let off := (grpWord g 2 s + 2 ^ 32 * grpWord g 3 s) % 2 ^ 48
    let v := readOff off (2 * n) s
    let ms := (List.range n).map (fun i => bitsAt v (16 * i) 16)
    let sig := crc64Go 0 (natBytes v (2 * n))
    let span := b2n (ms.any (fun m => m / 64 ≠ pkgNum s / 64))
    let s := setGrpWord g 1 (putBits (grpWord g 1 s) 17 1 span) s
    let s := setGrpWord g 5 (sig / 2 ^ 32) (setGrpWord g 4 (sig % 2 ^ 32) s)
    { s with col := { s.col with groups := sIns g ⟨true, ms⟩ s.col.groups } }

/-- GROUP_ENTRY_WRITE: takes effect only when no accepted collective names the group; setting VALID clears SEQ and BROKEN (R299). -/
def groupWrite (off : Nat) (v : Word) (s : State) : State :=
  if off < colBase + 0x1000 ∨ colBase + 0x3000 ≤ off then s
  else
    let g := (off - colBase - 0x1000) / 32
    let i := (off - colBase - 0x1000) % 32 / 4
    if s.col.runs.any (fun x => x.grp = g) then raise srcCol 0x65 1 0 0 s
    else if i = 0 ∨ i = 2 ∨ i = 3 then
      let s := setGrpWord g i v.toNat s
      let s := { s with col := { s.col with groups := sDel g s.col.groups } }
      if i = 0 ∧ bitAt v.toNat 31 then setGrpWord g 1 (putBits (grpWord g 1 s) 0 17 0) s else s
    else s

/-- GROUP_ENTRY_WRITE and writes of the entry words: Drover cores cannot reach them (R133, R299). -/
def groupPut (path : Path) (off : Nat) (v : Word) (s : State) : State :=
  match path with
  | .drover _ => s
  | _ => groupWrite off v s

/-! ### The descriptor (R301) -/

def cOp (d : Nat) : Nat := bitsAt d 0 4
def cType (d : Nat) : Nat := bitsAt d 4 3
def cRed (d : Nat) : Nat := bitsAt d 8 2
def cGroup (d : Nat) : Nat := bitsAt d 16 8
def cRoot (d : Nat) : Nat := bitsAt d 32 16
def cNsrc (d : Nat) : Nat := bitsAt d 48 8 + 1
def cCount (d : Nat) : Nat := dw d 2
def cRow (d : Nat) : Nat := bitsAt d 96 16
def cSrc (d : Nat) : Nat := dq d 16
def cDst (d : Nat) : Nat := dq d 24
def cScr (d : Nat) : Nat := dq d 32
def cCnt (d : Nat) : Nat := dq d 40
def cRcnt (d : Nat) : Nat := dq d 48
def cStride (d : Nat) : Nat := dw d 14

/-- Bytes of an element of a data type. -/
def cSize (t : Nat) : Nat := if t = 1 ∨ t = 3 then 8 else if t = 4 then 1 else 4
/-- Whether an operation combines. -/
def cReduces (op : Nat) : Bool := op = 2 || op = 3 || op = 4
/-- Whether an operation is an all-to-all. -/
def cA2a (op : Nat) : Bool := op = 6 || op = 7
/-- Whether the collective is a floating-point SUM, which runs in FIX64 (R304). -/
def cFix (d : Nat) : Bool := cReduces (cOp d) && cRed d = 0 && cType d ≤ 1
/-- Wire bytes of an element (R306). -/
def cWire (d : Nat) : Nat := if cFix d then 8 else cSize (cType d)
/-- Elements of a wire chunk (R312). -/
def cEpc (d : Nat) : Nat := 1024 / cWire d
/-- The element block of REDUCE_SCATTER (R301). -/
def cBlock (d n : Nat) : Nat := roundUp ((cCount d + n - 1) / n) 128
/-- Chunks of an element block, which the endpoint path gathers block by block (R311). -/
def blockChunks (d n : Nat) : Nat := (cBlock d n + cEpc d - 1) / cEpc d
/-- The elements [lo, hi) that chunk `c` carries, in buffer order; on the endpoint path the chunks of each block are numbered after those of the block before. -/
def chunkElems (algo d n c : Nat) : Nat × Nat :=
  if algo = 4 then
    let r := c / blockChunks d n
    let lo := r * cBlock d n + c % blockChunks d n * cEpc d
    (lo, min (cCount d) (min (lo + cEpc d) ((r + 1) * cBlock d n)))
  else (c * cEpc d, min (cCount d) ((c + 1) * cEpc d))
/-- The chunk of an element and its place there. -/
def elemChunk (algo d n i : Nat) : Nat × Nat :=
  if algo = 4 then (i / cBlock d n * blockChunks d n + i % cBlock d n / cEpc d, i % cBlock d n % cEpc d) else (i / cEpc d, i % cEpc d)
/-- The elements of the result that member `r` receives. -/
def cRange (d n r : Nat) : Nat × Nat :=
  if cOp d = 4 then (min (cCount d) (r * cBlock d n), min (cCount d) ((r + 1) * cBlock d n))
  else if cOp d = 2 then if r = cRoot d then (0, cCount d) else (0, 0)
  else (0, cCount d)
/-- Bytes of one ALLGATHER or BROADCAST contribution. -/
def cBytes (d : Nat) : Nat := cCount d * cSize (cType d)
/-- Send counts in rank order. -/
def cCounts (d n : Nat) (s : State) : List Nat :=
  let v := readOff (offOf (cCnt d)) (4 * n) s
  (List.range n).map (fun i => bitsAt v (32 * i) 32)
/-- Bytes of DST that member `r` writes. -/
def cDstBytes (d n r : Nat) : Nat :=
  match cOp d with
  | 0 => 0
  | 1 => cBytes d
  | 5 => n * cBytes d
  | 6 => cCount d * cRow d
  | 7 => n * cCount d * cRow d
  | _ => ((cRange d n r).2 - (cRange d n r).1) * cSize (cType d)

/-- The byte ranges the collective reads at this member. -/
def cSources (d n : Nat) (s : State) : List (Nat × Nat) :=
  if cReduces (cOp d) then (List.range (cNsrc d)).map (fun j => (cSrc d + j * cStride d, cBytes d))
  else if cOp d = 1 ∨ cOp d = 5 then [(cSrc d, cBytes d)]
  else if cA2a (cOp d) then [(cSrc d, (cCounts d n s).foldl (· + ·) 0 * cRow d), (cCnt d, 4 * n)]
  else []

/-! ### Acceptance (R302, R325) -/

/-- Whether `n` bytes at a global address lie in this package's HBM windows. -/
def ownHbm (a n : Nat) (s : State) : Bool := isLocal a s && inHbm (offOf a) n s

/-- Whether one range of a list overlaps one of another. -/
def anyOverlap (xs ys : List (Nat × Nat)) : Bool :=
  xs.any (fun x => ys.any (fun y => overlaps (offOf x.1) x.2 (offOf y.1) y.2))

/-- The acceptance checks in the order of R143: the descriptor's own address and read, then the causes in ascending order (R325). -/
def colChecks (ue : Bool) (x : EngIns) (d : Nat) (s : State) : List (Bool × Nat) :=
  let a := x.p.toNat
  let op := cOp d
  let g := cGroup d
  let n := grpN g s
  let me := grpRank g s
  let dst := (cDst d, cDstBytes d n me)
  let scr := (cScr d, if cReduces op then 8 * cBlock d n else 0)
  let rcn := (cRcnt d, if cA2a op then 4 * n else 0)
  let src := cSources d n s
  let same := (op = 3 ∨ op = 1) ∧ cNsrc d = 1 ∧ cDst d = cSrc d
  [(a % 64 ≠ 0, 3), (!ownHbm a 64 s, 4), (ue || localPoison (offOf a / 128 * 128) s, 6),
   (op > 7 || cType d > 4 || bitsAt d 7 1 ≠ 0 || bitsAt d 10 6 ≠ 0 || bitsAt d 24 8 ≠ 0 || bitsAt d 56 8 ≠ 0 || bitsAt d 112 16 ≠ 0 ||
     dw d 15 ≠ 0 || (cReduces op && (cType d = 4 || (cRed d = 3 && cType d ≤ 1))), 1),
   (!grpValid g s || (grpMembers g s).getD me 0x10000 ≠ pkgNum s || cRoot d ≥ n || cCount d = 0 || cCount d > 2 ^ 30 ||
     (cA2a op && (cRow d = 0 || cRow d % 8 ≠ 0)) || (cReduces op && n * cNsrc d > 32768), 2),
   (cSrc d % 128 ≠ 0 || cDst d % 128 ≠ 0 || cScr d % 128 ≠ 0 || cCnt d % 4 ≠ 0 || cRcnt d % 4 ≠ 0 || cStride d % 128 ≠ 0, 3),
   ((dst :: scr :: rcn :: src).any (fun r => r.2 ≠ 0 && !ownHbm r.1 r.2 s), 4),
   ((!same && anyOverlap [dst] src) || anyOverlap [scr] (dst :: rcn :: src), 5)]

/-! ### Bookkeeping -/

/-- A collective just accepted. -/
def ColX.new (x : EngIns) (g q : Nat) : ColX :=
  ⟨x, g, q, false, 0, false, [], false, false, false, 0, [], [], [], [], [], [], [], [], [], [], [], false, [], [], [], false, false, 0, [], false, false, [], [],
    false, 0, 0⟩

/-- Show RUNNING, the queue depth and the claims. -/
def colShow (s : State) : State :=
  let mib := (s.col.runs.foldl (fun n x => n + x.claim) 0 + 2 ^ 20 - 1) / 2 ^ 20
  setF colBase R.COL_STATUS_RUNNING ((s.col.runs.filter (fun x => x.started)).length)
    (setF colBase R.COL_QUEUE_DEPTH s.col.runs.length (setF colBase R.COL_RSRAM_USED0 mib (setF colBase R.COL_RSRAM_USED1 mib s)))

/-- The collective `q` of group `g`. -/
def getRun (g q : Nat) (s : State) : Option ColX := s.col.runs.find? (fun x => x.grp = g && x.seq = q)
/-- Replace a collective. -/
def setRun (x : ColX) (s : State) : State :=
  { s with col := { s.col with runs := s.col.runs.map (fun y => if y.grp = x.grp ∧ y.seq = x.seq then x else y) } }
/-- Act on a collective that runs. -/
def withRun (g q : Nat) (body : ColX → State → State) (s : State) : State :=
  match getRun g q s with
  | some x => if x.started then body x s else s
  | none => s

/-- A collective leaves the engine and delivers its summary (R145, R302). -/
def colEnd (x : ColX) (v : BitVec 128) (s : State) : State :=
  let e := getEng kCol s
  let s := setEng kCol { e with queue := e.queue.filter (fun y => !(y.core = x.ins.core && y.tag = x.ins.tag)) } s
  let s := { s with col := { s.col with runs := s.col.runs.filter (fun y => !(y.grp = x.grp && y.seq = x.seq)) } }
  jobEnd (colShow (addPair colBase R.COL_DONE_LO_VALUE R.COL_DONE_HI_VALUE 1 (coreComplete x.ins v s)))

/-! ### Messages (R312) -/

/-- Slots whose layout no rule states: free values that depend on the kind and the arguments. -/
def freeSlots (kind : Nat) (args : List Nat) (n : Nat) : List Slot :=
  (List.range n).map (fun i => BitVec.ofNat 128 (Config.freeResult 81 (packBits 64 (args ++ [kind, i]))))

/-- Bits [127:64] of a collective slot. -/
def colTop (g q kind flags rank step : Nat) : Nat :=
  step % 2 ^ 16 + rank % 2 ^ 16 * 2 ^ 16 + flags % 16 * 2 ^ 32 + kind % 16 * 2 ^ 36 + q % 2 ^ 16 * 2 ^ 40 + g % 256 * 2 ^ 56

/-- Send a message with a collective slot to a package (R312); `rank` produced its contents. -/
def slotSend (ctrl : Bool) (g q kind flags rank step chunk pm : Nat) (data : List Slot) (dst : Nat) (s : State) : State :=
  let top := colTop g q kind flags rank step
  let slot : Slot := BitVec.ofNat 128 (top * 2 ^ 64 + crc64Go 0 (colBytes top data))
  let fd := planeOf (pkgNum s) dst chunk s
  let len := if ctrl then data.length else data.length / 8 - 1
  let m : Msg := ⟨header fd (if ctrl then 7 else 6) (if ctrl then 3 else 2) len false dst 0 chunk pm s, slot :: data⟩
  sendMsg fd m (addPair colBase R.COL_TX_BYTES_LO_VALUE R.COL_TX_BYTES_HI_VALUE (msgBytes m) s)

/-- Whether a message of channel `vc` has no way to a package: no next hop in this Caravan, or no ACTIVE Route port (R267, R317). -/
def noPath (vc dst chunk : Nat) (s : State) : Bool :=
  if dst / 64 = pkgNum s / 64 then (pathHop vc (planeOf (pkgNum s) dst chunk s) 0x100 (dst % 64) s).isNone && dst ≠ pkgNum s
  else (List.range 4).all (fun r => !portUsable (18 + r) s)

/-- Send a message of a group; a package without a path is noted (R317). -/
def colSendTo (ctrl : Bool) (g q kind flags rank step chunk pm : Nat) (data : List Slot) (dst : Nat) (s : State) : State :=
  let lost := noPath (if ctrl then 3 else 2) dst chunk s
  slotSend ctrl g q kind flags rank step chunk pm data dst (if lost then { s with col := { s.col with lost := g :: s.col.lost } } else s)

/-- COL_TIMEOUT in ns for a group (R316). -/
def colLimit (g : Nat) (s : State) : Nat :=
  1000000 * (if grpSpan g s = 0 then effF colBase R.COL_TIMEOUT_CARAVAN_MS R.COL_CFG_LEVEL s else effF colBase R.COL_TIMEOUT_ROUTE_MS R.COL_CFG_LEVEL s)
/-- A running collective makes progress: its timer starts again, with COL_TIMEOUT as it stands (R316, R326). -/
def colProgress (g q : Nat) (s : State) : State := withRun g q (fun x s => setRun { x with since := s.count, limit := colLimit g s } s) s

/-- Send a message of a collective to a rank, as the rank that produced its contents. -/
def colSendAs (x : ColX) (ctrl : Bool) (kind flags rank step chunk pm : Nat) (data : List Slot) (r : Nat) (s : State) : State :=
  colProgress x.grp x.seq (colSendTo ctrl x.grp x.seq kind flags rank step chunk pm data ((grpMembers x.grp s).getD r 0) s)
/-- Send a message of a collective to a rank. -/
def colSend (x : ColX) (ctrl : Bool) (kind flags step chunk pm : Nat) (data : List Slot) (r : Nat) (s : State) : State :=
  colSendAs x ctrl kind flags (grpRank x.grp s) step chunk pm data r s

/-! ### What has not been acknowledged (R302) -/

/-- Whether a message is one of collective `q` of group `g` that this package sent. -/
def colOwn (g q : Nat) (m : Msg) (s : State) : Bool :=
  (m.hdr.opc = 6 || m.hdr.opc = 7) && m.hdr.src.toNat = pkgNum s &&
    (m.slots.head?).any (fun x => bitsAt x.toNat 120 8 = g && bitsAt x.toNat 104 16 = q)
/-- Whether a message of a collective is still to be acknowledged by its link or its Route peer. -/
def colUnacked (g q : Nat) (s : State) : Bool :=
  let mine := fun (b : LinkMsg) => match b with
    | .caravan m => colOwn g q m s
    | .halter _ => false
  s.links.any (fun l => l.2.replay.any (fun e => mine e.body) || l.2.waiting.any mine) ||
  s.peers.any (fun p => p.2.window.any (fun e => (frameMsgs e.1).any (fun m => colOwn g q m s)) || p.2.queue.any (fun m => colOwn g q m s))

/-- The 64 slots of a wire chunk. -/
def chunkSlots (v : Nat) : List Slot := (List.range 8).flatMap (fun i => lineSlots (bitsAt v (1024 * i) 1024))
/-- The 1,024 wire bytes that data slots carry. -/
def slotsChunk (l : List Slot) : Nat := slotsLine l

/-! ### Trees and paths (R303, R310, R316) -/

/-- ⌈log8 n⌉. -/
def log8 (n : Nat) : Nat := ((List.range 6).find? (fun l => n ≤ 8 ^ l)).getD 5
/-- ⌈n^(1/l)⌉, at most 8. -/
def fanIn (n : Nat) : Nat := ((List.range 9).find? (fun f => f ≥ 1 && n ≤ f ^ log8 n)).getD 8
/-- The parent in the TREE algorithm. -/
def treeUp (n r : Nat) : Option Nat := if r = 0 then none else some ((r - 1) / max 1 (fanIn n))
/-- The neighbours in the control tree (R316): the parent, then the children. -/
def ctlNeighbours (n r : Nat) : List Nat :=
  (if r = 0 then [] else [(r - 1) / 32]) ++ (List.range 32).filterMap (fun i => if 32 * r + 1 + i < n then some (32 * r + 1 + i) else none)

/-- A slot with one coordinate replaced. -/
def withCoord (slot axis v : Nat) : Nat := slot - coord slot axis * 4 ^ (2 - axis) + v * 4 ^ (2 - axis)
/-- The rank of a package. -/
def rankOf (ms : List Nat) (p : Nat) : Option Nat := ms.findIdx? (· = p)

/-- One exchange per axis toward rank `t` of the same Caravan (TORUS). -/
def torusUp (ms : List Nat) (t r : Nat) : Option Nat :=
  let a := ms.getD r 0
  let b := ms.getD t 0
  match [0, 1, 2].find? (fun i => coord (a % 64) i ≠ coord (b % 64) i) with
  | none => none
  | some i => rankOf ms (a / 64 * 64 + withCoord (a % 64) i (coord (b % 64) i))

/-- The ranks of the members in a Caravan. -/
def caravanRanks (ms : List Nat) (c : Nat) : List Nat := (List.range ms.length).filter (fun r => ms.getD r 0 / 64 = c)
/-- The Caravans of a group in rank order. -/
def caravans (ms : List Nat) : List Nat := (ms.map (· / 64)).dedup

/-- TORUS inside each Caravan to the member of the owner's index, then RING of Caravans (HIER). -/
def hierUp (ms : List Nat) (t r : Nat) : Option Nat :=
  let c := ms.getD r 0 / 64
  let ct := ms.getD t 0 / 64
  let j := (caravanRanks ms ct).findIdx (· = t)
  let here := (caravanRanks ms c).getD j 0
  if r ≠ here then torusUp ms here r
  else if c = ct then none
  else
    let cs := caravans ms
    let i := cs.findIdx (· = c)
    some ((caravanRanks ms (cs.getD ((i + 1) % cs.length) 0)).getD j 0)

/-- The next rank on chunk `c`'s way to where it is combined whole: rank 0 (TREE), the rank that owns the chunk (RING, TORUS, HIER), or the
rank whose element block holds it (ENDPOINT). -/
def colUp (x : ColX) (ms : List Nat) (c r : Nat) : Option Nat :=
  let n := ms.length
  match x.algo with
  | 1 => if r = c % n then none else some ((r + 1) % n)
  | 2 => if r = c % n then none else torusUp ms (c % n) r
  | 3 => hierUp ms (c % n) r
  | 4 => let o := min (n - 1) (c / max 1 (blockChunks x.ins.desc n)); if r = o then none else some o
  | _ => treeUp n r

/-- The ranks from `r` to where chunk `c` is combined whole. -/
def colPath (x : ColX) (ms : List Nat) (c : Nat) : Nat → Nat → List Nat
  | 0, r => [r]
  | fuel + 1, r => match colUp x ms c r with
    | none => [r]
    | some p => r :: colPath x ms c fuel p

/-- Chunks of one ALLGATHER block. -/
def gatherChunks (d : Nat) : Nat := (cBytes d + 1023) / 1024
/-- Chunks of a collective. -/
def colChunks (x : ColX) (n : Nat) : Nat :=
  let d := x.ins.desc
  if cOp d = 5 then n * gatherChunks d
  else if cReduces (cOp d) ∧ x.algo = 4 then n * blockChunks d n
  else if cReduces (cOp d) ∨ cOp d = 1 then (cCount d + cEpc d - 1) / cEpc d else 0
/-- Whether rank `r` contributes to chunk `c`. -/
def contributes (d c r : Nat) : Bool := if cOp d = 1 then r = cRoot d else if cOp d = 5 then c / gatherChunks d = r else true
/-- Whether rank `r` must receive the result of chunk `c`. -/
def needs (x : ColX) (n c r : Nat) : Bool :=
  let d := x.ins.desc
  if cOp d = 1 then r ≠ cRoot d
  else if cOp d = 5 then c / gatherChunks d ≠ r
  else
    let e := cRange d n r
    let k := chunkElems x.algo d n c
    k.1 < k.2 && k.1 < e.2 && e.1 < k.2

/-- Whether rank `r` lies on the way of a contribution to chunk `c`. -/
def carries (x : ColX) (ms : List Nat) (c r : Nat) : Bool :=
  let n := ms.length
  contributes x.ins.desc c r || (List.range n).any (fun q => contributes x.ins.desc c q && (colPath x ms c n q).contains r)
/-- Whether the result of chunk `c` passes through or ends at rank `r`. -/
def wants (x : ColX) (ms : List Nat) (c r : Nat) : Bool :=
  let n := ms.length
  needs x n c r || (List.range n).any (fun q => needs x n c q && (colPath x ms c n q).contains r)
/-- The rank that produced the result of chunk `c`: the contributor, or where it is combined whole (R312). -/
def resultRank (x : ColX) (ms : List Nat) (c r : Nat) : Nat :=
  let d := x.ins.desc
  if cOp d = 1 then cRoot d else if cOp d = 5 then c / gatherChunks d else (colPath x ms c ms.length r).getLastD r
/-- The ranks next to `r` on chunk `c`'s paths, away from where it is combined. -/
def colKids (x : ColX) (ms : List Nat) (c r : Nat) : List Nat := (List.range ms.length).filter (fun q => colUp x ms c q = some r)

/-! ### Arithmetic (R304 to R308) -/

/-- Apply `f` to the words of two chunks. -/
def zipWords (w : Nat) (f : Nat → Nat → Nat) (a b : Nat) : Nat :=
  packBits w ((List.range (8192 / w)).map (fun i => f (bitsAt a (w * i) w) (bitsAt b (w * i) w)))

/-- Two elements combined: value and flags (R308). -/
def colCombine (d a b : Nat) : Nat × Nat :=
  let w := 8 * cSize (cType d)
  let f := if cType d = 1 then fp64 else fp32
  if cFix d then ((a + b) % 2 ^ 64, 0)
  else match cRed d with
    | 0 => ((a + b) % 2 ^ w, 0)
    | 3 => (a ||| b, 0)
    | r =>
      if cType d ≤ 1 then minmaxV f (r = 1) false a b
      else if (signed w a < signed w b) = (r = 1) then (b, 0) else (a, 0)

/-- Two wire chunks combined. -/
def combineChunks (d a b : Nat) : Nat := zipWords (8 * cWire d) (fun p q => (colCombine d p q).1) a b
/-- The flags that combining two wire chunks raises. -/
def combineFlags (d a b : Nat) : Nat :=
  let w := 8 * cWire d
  (List.range (8192 / w)).foldl (fun fl i => fl ||| (colCombine d (bitsAt a (w * i) w) (bitsAt b (w * i) w)).2) 0

/-- floor(log2 |x|) of a finite non-zero element, a subnormal at its true value (R304). -/
def elemExp (f : Fmt) (v : Nat) : Option Int :=
  match decodeF f v with
  | .fin _ m e => if m = 0 then none else some ((FVal.fin false m e).dy.exp)
  | _ => none

/-- The phase-1 bits [3:0] of one element (R306). -/
def elemBits (f : Fmt) (v : Nat) : Nat :=
  let x := decodeF f v
  if x.isNan then 8 + b2n x.isSnan else if x.isInf then if x.isNeg then 2 else 4 else 0

/-- The phase-1 word of elements: E in bits [15:4], the special-value bits in [3:0] (R304, R306). -/
def phase1Word (f : Fmt) (vs : List Nat) : Nat :=
  let e := vs.foldl (fun (m : Int) v => match elemExp f v with
    | some k => max m k
    | none => m) (-2048)
  wrap 12 e * 16 + vs.foldl (fun b v => b ||| elemBits f v) 0

/-- Two phase-1 words combined: maximum of E, OR of the bits. -/
def phase1Max (a b : Nat) : Nat :=
  (if signed 12 (a / 16) < signed 12 (b / 16) then b / 16 else a / 16) % 2 ^ 12 * 16 + (a % 16 ||| b % 16)

/-- An element as an integer scaled by 2^(47 - E), truncated (R305); a NaN or an infinity, whose chunk's result is NaN, sends 0. -/
def fixOf (f : Fmt) (e : Int) (v : Nat) : Nat :=
  let x := decodeF f v
  if x.special then 0
  else
    let y := x.dy
    let k := y.e + 47 - e
    let m := if k ≥ 0 then y.m.natAbs * 2 ^ k.toNat else y.m.natAbs / 2 ^ (-k).toNat
    wrap 64 (if y.m < 0 then -(m : Int) else m)

/-- Element `i` of local contribution `j`. -/
def colElem (d j i : Nat) (s : State) : Nat := readOff (offOf (cSrc d) + j * cStride d + i * cSize (cType d)) (cSize (cType d)) s

/-- The phase-1 word of chunk `c` of this member's contributions. -/
def ownPhase1 (d c : Nat) (s : State) : Nat :=
  let f := if cType d = 1 then fp64 else fp32
  let is := (List.range 128).filterMap (fun i => if 128 * c + i < cCount d then some (128 * c + i) else none)
  phase1Word f ((List.range (cNsrc d)).flatMap (fun j => is.map (fun i => colElem d j i s)))

/-- Phase-1 messages carry the words of 512 chunks. -/
def expMsgs (d : Nat) : Nat := ((cCount d + 127) / 128 + 511) / 512
/-- The words of phase-1 message `j` of this member. -/
def ownExp (d j : Nat) (s : State) : Nat :=
  packBits 16 ((List.range 512).map (fun i => if 128 * (512 * j + i) < cCount d then ownPhase1 d (512 * j + i) s else 0x8000))
/-- Whether a source line of the elements of phase-1 message `j` reads poisoned (R313). -/
def expPoison (d j : Nat) (s : State) : Bool :=
  let z := cSize (cType d)
  (List.range (cNsrc d)).any (fun i => poisonOff (offOf (cSrc d) + i * cStride d + 65536 * j * z) (min 65536 (cCount d - 65536 * j) * z) s)
/-- The final phase-1 word of the chunk that holds element `i`. -/
def finalWord (x : ColX) (i : Nat) : Nat := bitsAt (sGet 0 x.expFin (i / 128 / 512)) (16 * (i / 128 % 512)) 16
/-- E of a phase-1 word. -/
def wordE (w : Nat) : Int := signed 12 (w / 16 % 2 ^ 12)

/-- Element `i` of this member's combined contribution in its wire form, and the flags raised. -/
def ownElem (x : ColX) (i : Nat) (s : State) : Nat × Nat :=
  let d := x.ins.desc
  let f := if cType d = 1 then fp64 else fp32
  let wire := fun j => if cFix d then fixOf f (wordE (finalWord x i)) (colElem d j i s) else colElem d j i s
  (List.range (cNsrc d - 1)).foldl (fun (a : Nat × Nat) j =>
    let r := colCombine d a.1 (wire (j + 1))
    (r.1, a.2 ||| r.2)) (wire 0, 0)

/-- This member's part of wire chunk `c`: data, flags, and whether a source line reads poisoned (R313). -/
def ownChunk (x : ColX) (c : Nat) (s : State) : Nat × Nat × Bool :=
  let d := x.ins.desc
  if cReduces (cOp d) then
    let e := cEpc d
    let vs := (List.range e).map (fun i => if c * e + i < cCount d then ownElem x (c * e + i) s else (0, 0))
    let z := cSize (cType d)
    (packBits (8 * cWire d) (vs.map (fun v => v.1)), vs.foldl (fun fl v => fl ||| v.2) 0,
      (List.range (cNsrc d)).any (fun j => poisonOff (offOf (cSrc d) + j * cStride d + c * e * z) (min e (cCount d - c * e) * z) s))
  else
    let k := if cOp d = 5 then c % gatherChunks d else c
    let a := offOf (cSrc d) + 1024 * k
    let n := min 1024 (cBytes d - 1024 * k)
    (readOff a n s, 0, poisonOff a n s)

/-! ### DIRTY chunks (R313) -/

/-- Companion total of the chunk CRC mismatches of a fabric die (R466). -/
def dirtyTotal (f : Nat) : Nat := 2 ^ 42 + f
/-- A chunk failed its check: DIRTY, the count, the first chunk's place, and a record of severity 2; `tag` is that of the collective it belongs to here. -/
def colDirty (g q chunk pkg : Nat) (tag : Option Nat) (s : State) : State :=
  let s := setF colBase R.COL_STATUS_DIRTY 1 (bumpF colBase R.COL_CRC_COUNT_COUNT 1 (tally (dirtyTotal (chunk % 2)) 1 s))
  let s := match tag with
    | some t => setF colBase R.COL_STATUS_LAST_TAG (t % 256) s
    | none => s
  let s := capture colBase R.COL_CRC_INFO_HI_VALID (fun s => setF colBase R.COL_CRC_INFO_LO_CHUNK chunk
    (setF colBase R.COL_CRC_INFO_HI_FROM_PKG pkg (setF colBase R.COL_CRC_INFO_HI_GROUP g s))) s
  raise srcCol 0x61 2 (chunk % 2 ^ 32 + pkg * 2 ^ 32 + g * 2 ^ 48) q s

/-- A chunk that a fabric die forwards: its CRC is checked, and a bad one goes on DIRTY with a new CRC (R313). -/
def colForward (m : Msg) (s : State) : Msg × State :=
  match m.slots with
  | [] => (m, s)
  | x :: data =>
    let top := x.toNat / 2 ^ 64
    let kind := bitsAt top 36 4
    if m.hdr.opc ≠ 6 ∨ (kind ≠ 1 ∧ kind ≠ 2) ∨ crc64Go 0 (colBytes top data) = x.toNat % 2 ^ 64 then (m, s)
    else
      let top := top ||| 2 ^ 32
      ({ m with slots := BitVec.ofNat 128 (top * 2 ^ 64 + crc64Go 0 (colBytes top data)) :: data },
       colDirty (bitsAt top 56 8) (bitsAt top 40 16) m.hdr.line.toNat m.hdr.src.toNat none s)

/-! ### The algorithm (R310) -/

/-- Coordinates that a list of slots takes on an axis. -/
def coordsOf (slots : List Nat) (axis : Nat) : List Nat := (slots.map (fun v => coord v axis)).dedup
/-- Whether slots fill a box with sides of 1, 2 or 4: the axes with a side above 1. -/
def boxAxes (slots : List Nat) : Option Nat :=
  let l := [0, 1, 2].map (fun a => (coordsOf slots a).length)
  if l.all (fun n => n = 1 || n = 2 || n = 4) && l.foldl (· * ·) 1 = slots.length then some (l.filter (· > 1)).length else none

/-- The modelled times of the eligible algorithms 0 to 3 in units of 1 ns / (4800 N m k) (R310). -/
def colTimes (d g : Nat) (s : State) : List (Nat × Nat) :=
  let ms := grpMembers g s
  let n := ms.length
  let span := grpSpan g s
  let ac := effF colBase R.COL_XOVER_ALPHA_C R.COL_CFG_LEVEL s
  let ar := 100 * effF colBase R.COL_XOVER_ALPHA_R R.COL_CFG_LEVEL s
  let st := if span = 0 then ac else ar
  let bw := if span = 0 then 400 else 800
  let w := if cA2a (cOp d) then cCount d * cRow d else cCount d * cWire d
  let cs := caravans ms
  let k := cs.length
  let m := n / max 1 k
  let u := 4800 * n * m * k
  let l := log8 n
  let red := cReduces (cOp d)
  let axes := fun (q : List Nat) => boxAxes (q.map (fun r => ms.getD r 0 % 64))
  let boxes := cs.map (fun c => axes (caravanRanks ms c))
  let ax := ((boxes.filterMap id).foldl max 0)
  [(0, 2 * l * st * u + l * w * ((if red then fanIn n * (u / 800) else 0) + u / bw))] ++
  (if n ≥ 2 then [(1, 2 * (n - 1) * st * u + 2 * (n - 1) * w * (u / n / bw))] else []) ++
  (match axes (List.range n) with
    | some a => if span = 0 then [(2, 2 * a * st * u + 2 * (n - 1) * w * (u / n / 1200))] else []
    | none => []) ++
  (if span = 1 ∧ m ≥ 2 ∧ k ≥ 2 ∧ cs.all (fun c => (caravanRanks ms c).length = m) ∧ boxes.all (fun b => b.isSome) then
    [(3, (2 * ax * ac + 2 * (k - 1) * ar) * u + 2 * (m - 1) * w * (u / m / 1200) + 2 * (k - 1) * w * (u / (k * m) / 800))] else [])

/-- The algorithm this member would choose (R310): forced when eligible, else the least time and the lower code on a tie. -/
def colChoose (d g : Nat) (s : State) : Nat :=
  let ts := colTimes d g s
  let a := effF colBase R.COL_CFG_ALGO R.COL_CFG_LEVEL s
  if 1 ≤ a ∧ a ≤ 4 ∧ ts.any (fun t => t.1 = a - 1) then a - 1
  else if a = 5 ∧ cReduces (cOp d) then 4
  else (ts.foldl (fun (b : Nat × Nat) t => if t.2 < b.2 then t else b) (ts.headD (0, 0))).1

/-- This member's call signature (R303). -/
def ownSig (x : ColX) (s : State) : CallSig :=
  let d := x.ins.desc
  ⟨cOp d, cType d, cRed d, cRoot d, cCount d, cRow d, grpN x.grp s * cNsrc d, grpWord x.grp 4 s + 2 ^ 32 * grpWord x.grp 5 s⟩

/-! ### Aborts (R317, R318) -/

/-- Send ABORT to the control-tree neighbours of a group. -/
def abortFlood (g q cause origin : Nat) (s : State) : State :=
  ((ctlNeighbours (grpN g s) (grpRank g s)).filterMap (fun r => (grpMembers g s)[r]?)).foldl (fun s p =>
    colSendTo true g q 6 0 (grpRank g s) 0 0 0 (freeSlots 6 [cause, origin] 1) p s) s

/-- One collective aborts: its destination is unpredictable, its summary says TRAP, and it is captured, counted and recorded (R318). -/
def abortRun (x : ColX) (cause origin : Nat) (s : State) : State :=
  let d := x.ins.desc
  let n := cDstBytes d (grpN x.grp s) (grpRank x.grp s)
  let s := writeOff (offOf (cDst d)) n (bytesNat ((List.range n).map (fun i => Config.freeAbortByte s.fresh (offOf (cDst d) + i))))
    { s with fresh := s.fresh + 1 }
  let s := setGrpWord x.grp 1 (putBits (grpWord x.grp 1 s) 16 1 1) s
  let s := setF colBase R.COL_STATUS_LAST_TAG (x.ins.tag.toNat % 256) (bumpF colBase R.COL_STATUS_ABORT_COUNT 1
    (setF colBase R.COL_STATUS_ABORTED 1 s))
  let s := capture colBase R.COL_ABORT_INFO_HI_VALID (fun s => setF colBase R.COL_ABORT_INFO_LO_GROUP x.grp
    (setF colBase R.COL_ABORT_INFO_LO_CAUSE cause (setF colBase R.COL_ABORT_INFO_LO_SEQ x.seq (setF colBase R.COL_ABORT_INFO_HI_PKG origin s)))) s
  let s := raise srcCol 0x60 2 (x.grp + x.seq * 2 ^ 8 + cause * 2 ^ 24 + origin * 2 ^ 32) 0 s
  let s := colEnd x (mkSummary 0 0 none 0 false true false) s
  if cause = 1 then recoveryFreeze 3 s else if cause = 2 then recoveryFreeze 4 s else s

/-- Every accepted collective of a group aborts: SEQ `q` with the cause, the others as BROKEN_GROUP; at a teardown all with TEARDOWN (R318). The group is BROKEN. -/
def abortGroup (g q cause origin : Nat) (s : State) : State :=
  let s := { s with col := { s.col with mail := s.col.mail.filter (fun w => w.m.group.val ≠ g), lost := s.col.lost.filter (· ≠ g) } }
  let s := setGrpWord g 1 (putBits (grpWord g 1 s) 16 1 1) s
  (s.col.runs.filter (fun x => x.grp = g)).foldl (fun s x =>
    if x.seq = q ∨ cause = 5 then abortRun x cause origin s else abortRun x 6 (pkgNum s) s) s

/-- A member detects a fault, or receives ABORT: it aborts its collectives of the group and tells its control-tree neighbours, once (R317). -/
def colAbort (g q cause origin : Nat) (s : State) : State :=
  if grpBroken g s then s else abortFlood g q cause origin (abortGroup g q cause origin s)

/-- Abort the running collective of a group, or its first. -/
def colAbortFirst (g cause origin : Nat) (s : State) : State :=
  match s.col.runs.find? (fun x => x.grp = g) with
  | some x => colAbort g x.seq cause origin s
  | none => s

/-- Every collective of the job aborts at this member (R317 FAULTED, R318 TEARDOWN); with `tell`, ABORT is sent. -/
def colAbortAll (cause : Nat) (tell : Bool) (s : State) : State :=
  ((s.col.runs.map (fun x => x.grp)).dedup).foldl (fun s g =>
    if tell then colAbortFirst g cause (pkgNum s) s
    else match s.col.runs.find? (fun x => x.grp = g) with
      | some x => abortGroup g x.seq cause (pkgNum s) s
      | none => s) s

/-- Groups that met a member without a path abort with PEER_DEAD (R317). -/
def colLost (s : State) : State :=
  s.col.lost.dedup.foldl (fun s g => colAbortFirst g 2 (pkgNum s) s) s

/-! ### The endpoint path (R311) -/

/-- The reducing-write operation and the bytes of a scratch word: FP32 and INT32 extremes are widened to 8 bytes. -/
def scratchOp (d : Nat) : Nat × Nat :=
  if cFix d then (1, 8)
  else match cRed d with
    | 0 => if cType d = 3 then (1, 8) else (2, 4)
    | 1 => (if cType d ≤ 1 then 5 else 3, 8)
    | 2 => (if cType d ≤ 1 then 6 else 4, 8)
    | _ => (7, cSize (cType d))
/-- A wire element as a scratch word. -/
def toScratch (d v : Nat) : Nat :=
  if cFix d ∨ cRed d = 0 ∨ cRed d = 3 ∨ cType d = 1 ∨ cType d = 3 then v
  else if cType d = 0 then (cvtV fp64 false (decodeF fp32 v)).1
  else wrap 64 (signed 32 v)
/-- A scratch word as a wire element. -/
def ofScratch (d v : Nat) : Nat :=
  if cFix d ∨ cRed d = 0 ∨ cRed d = 3 ∨ cType d = 1 ∨ cType d = 3 then v
  else if cType d = 0 then (cvtV fp32 false (decodeF fp64 v)).1
  else v % 2 ^ 32
/-- The reduction-window offset that names a local HBM offset for an operation (R227, R250). -/
def reductionOff (op off : Nat) : Nat := 3 * 2 ^ 44 + op * 2 ^ 41 + (if off ≥ 2 ^ 44 then 2 ^ 40 else 0) + off % 2 ^ 40

/-- Fill the own scratch with the identity. -/
def scratchFill (x : ColX) (s : State) : State :=
  let d := x.ins.desc
  let words := cBlock d (grpN x.grp s)
  engWrite kCol (cScr d) (8 * words) (packBits 64 (List.replicate words (reduceIdentity (scratchOp d).1))) s

/-- Fill the scratch of a collective once (R311). -/
def scratchOpen (x : ColX) (s : State) : State := if x.filled then s else scratchFill x (setRun { x with filled := true } s)

/-- A reducing write reaches a line: the scratch it lies in is filled first, where the join has not come down yet (R311). -/
def scratchTouch (pl : Nat) (s : State) : State :=
  s.col.runs.foldl (fun s x =>
    let d := x.ins.desc
    if x.started && cReduces (cOp d) && !x.filled && (!x.joined || x.algo = 4) &&
        (rangeHbm [(0xFFFF * 2 ^ 48 + offOf (cScr d), 8 * cBlock d (grpN x.grp s))] s).contains pl then scratchOpen x s
    else s) s

/-- Send every block as reducing writes into its owner's scratch, which lies at the same local offset on every member. A line made of a poisoned source line is marked
(R236, R313). -/
def endpointWrites (x : ColX) (s : State) : State :=
  let d := x.ins.desc
  let ms := grpMembers x.grp s
  let n := ms.length
  let b := cBlock d n
  let z := (scratchOp d).2
  (List.range n).foldl (fun s r =>
    let cnt := min b (cCount d - r * b)
    let ident := bitsAt (reduceIdentity (scratchOp d).1) 0 (8 * z)
    let lines := (cnt * z + 127) / 128
    let per := 128 / z
    let es := cSize (cType d)
    (List.range lines).foldl (fun s l =>
      let vs := (List.range per).map (fun i => if l * per + i < cnt then toScratch d (ownElem x (r * b + l * per + i) s).1 else ident)
      let bad := (List.range (cNsrc d)).any (fun j =>
        poisonOff (offOf (cSrc d) + j * cStride d + (r * b + l * per) * es) (min per (cnt - l * per) * es) s)
      engWriteBad kCol bad (ms.getD r 0 * 2 ^ 48 + reductionOff (scratchOp d).1 (offOf (cScr d)) + 128 * l) 128 (packBits (8 * z) vs) s) s) s

/-- The endpoint path at this member: the writes, then the done marks once they are acknowledged, then the own block from scratch. -/
def stepEndpoint (g q : Nat) (s : State) : State :=
  withRun g q (fun x s =>
    let d := x.ins.desc
    let ms := grpMembers g s
    let n := ms.length
    let me := grpRank g s
    if !x.wrote then
      setRun { x with wrote := true, flags := x.flags ||| (List.range (cCount d)).foldl (fun fl i => fl ||| (ownElem x i s).2) 0 }
        (engFlush kCol (endpointWrites x s))
    else if !x.marksOut then
      if engOpen kCol s then s
      else (List.range n).foldl (fun s r => if r = me then s else colSend x false 2 2 2 0 0 (freeSlots 2 [] 8) r s)
        (setRun { x with marksOut := true, done := me :: x.done } s)
    else if (List.range n).all (fun r => x.done.contains r) then
      let z := (scratchOp d).2
      let b := cBlock d n
      setRun { x with res := (List.range (colChunks x n)).foldl (fun m c =>
        if (sFind m c).isSome ∨ colUp x ms c me ≠ none then m
        else
          let k := chunkElems 4 d n c
          let vs := (List.range (cEpc d)).map (fun i =>
            if k.1 + i < k.2 then ofScratch d (readOff (offOf (cScr d) + (k.1 + i - me * b) * z) z s) else 0)
          sIns c (packBits (8 * cWire d) vs, poisonOff (offOf (cScr d) + (k.1 - me * b) * z) ((k.2 - k.1) * z) s) m) x.res } s
    else s) s

/-! ### Sending (R303, R306, R312) -/

/-- The algorithm is known: a reduction that runs ENDPOINT releases its claim, counts, records the first of an epoch, and fills its scratch. -/
def colJoined (g q algo : Nat) (s : State) : State :=
  withRun g q (fun x s =>
    if cReduces (cOp x.ins.desc) ∧ algo = 4 then
      let x := { x with joined := true, algo := 4, claim := 0 }
      let ep := getF (fabBase 0) R.FAB_EPOCH_CURRENT s
      let s := bumpF colBase R.COL_NOINR_COUNT_COUNT 1 (setRun x s)
      let s := if s.col.noinr = some ep then s else raise srcCol 0x62 0 0 0 { s with col := { s.col with noinr := some ep } }
      scratchOpen x (colShow s)
    else setRun { x with joined := true, algo := algo } s) s

/-- The children of this member in the TREE. -/
def treeKids (n me : Nat) : List Nat := (List.range n).filter (fun r => treeUp n r = some me)

/-- Send a JOIN: CTRL for a BARRIER, else COL. -/
def sendJoin (x : ColX) (algo : Nat) (r : Nat) (s : State) : State :=
  let g := ownSig x s
  let args := [g.op, g.dtype, g.redop, g.root, g.count, g.rowBytes, g.contribs, g.sig, algo]
  if cOp x.ins.desc = 0 then colSend x true 0 (4 * b2n x.failed) 0 0 0 (freeSlots 0 args 1) r s
  else colSend x false 0 (4 * b2n x.failed) 0 0 0 (freeSlots 0 args 8) r s

/-- The join: up once every child has joined, decided at rank 0, then down (R303, R311). -/
def stepJoin (g q : Nat) (s : State) : State :=
  let n := grpN g s
  let me := grpRank g s
  let s := withRun g q (fun x s =>
    if !x.joinSent && (treeKids n me).all (fun r => x.joins.contains r) then
      match treeUp n me with
      | some p => sendJoin x 0 p (setRun { x with joinSent := true } s)
      | none =>
        let a := if cReduces (cOp x.ins.desc) && x.failed then 4 else colChoose x.ins.desc g s
        colJoined g q a (setRun { x with joinSent := true } s)
    else s) s
  withRun g q (fun x s =>
    if x.joined && !x.joinFwd then
      (treeKids n me).foldl (fun s r => sendJoin x x.algo r s) (setRun { x with joinFwd := true } s)
    else s) s

/-- Phase 1 of a FIX64 sum: words up the TREE, the final words down (R303, R306). -/
def stepExp (g q : Nat) (s : State) : State :=
  let n := grpN g s
  let me := grpRank g s
  let kids := treeKids n me
  withRun g q (fun x s =>
    if cFix x.ins.desc then
      (List.range (expMsgs x.ins.desc)).foldl (fun s j =>
        let s := withRun g q (fun x s =>
          if !x.expSent.contains j && kids.all (fun r => x.expGot.contains (r, j)) then
            let v := sGet 0 x.exp j
            match treeUp n me with
            | some p => colSend x false 1 (b2n (x.expBad.contains j)) 0 j 0 (chunkSlots v) p (setRun { x with expSent := j :: x.expSent } s)
            | none => setRun { x with expSent := j :: x.expSent, expFin := sIns j v x.expFin } s
          else s) s
        withRun g q (fun x s =>
          match sFind x.expFin j with
          | some v => if x.expFwd.contains j then s
            else kids.foldl (fun s r => colSendAs x false 1 (b2n (x.expBad.contains j)) 0 1 j 0 (chunkSlots v) r s) (setRun { x with expFwd := j :: x.expFwd } s)
          | none => s) s) s
    else s) s

/-- Data chunks: a chunk whose parts are all here goes on toward where it is combined whole; its result goes back (R310 to R313). -/
def stepData (g q : Nat) (s : State) : State :=
  withRun g q (fun x0 s =>
    let d := x0.ins.desc
    let ms := grpMembers g s
    let me := grpRank g s
    let n := ms.length
    let ready := x0.joined && (!cFix d || (List.range (expMsgs d)).all (fun j => (sFind x0.expFin j).isSome))
    if !ready then s
    else
      let last := fun c => if c + 1 = colChunks x0 n then 2 else 0
      let s := if cReduces (cOp d) ∧ x0.algo = 4 then stepEndpoint g q (stepEndpoint g q (stepEndpoint g q s)) else s
      (List.range (colChunks x0 n)).foldl (fun s c =>
        let s := withRun g q (fun x s =>
          let part := sGet ColPart.init x.parts c
          let from_ := (colKids x ms c me).filter (fun r => carries x ms c r)
          let here := if cReduces (cOp d) then from_.all (fun r => part.got.contains r) else from_.isEmpty || !part.got.isEmpty
          if (cReduces (cOp d) && x.algo = 4) || x.sent.contains c || !carries x ms c me || !here then s
          else
            let own := if contributes d c me then ownChunk x c s else (part.data, 0, false)
            let both := contributes d c me && !from_.isEmpty
            let v := if both then combineChunks d own.1 part.data else own.1
            let fl := own.2.1 ||| (if both && cReduces (cOp d) then combineFlags d own.1 part.data else 0)
            let s := if own.2.2 then colDirty g q c (pkgNum s) (some x.ins.tag.toNat) s else s
            let dirty := own.2.2 || part.dirty
            let x := { x with sent := c :: x.sent, flags := x.flags ||| fl, ownBad := if own.2.2 then c :: x.ownBad else x.ownBad }
            let rank := if cReduces (cOp d) then me else resultRank x ms c me
            match colUp x ms c me with
            | some p => colSendAs x false 2 (b2n dirty + last c) rank 0 c 0 (chunkSlots v) p (setRun x s)
            | none => setRun { x with res := sIns c (v, dirty) x.res } s) s
        withRun g q (fun x s =>
          match sFind x.res c with
          | some v => if x.fwd.contains c then s
            else ((colKids x ms c me).filter (fun r => wants x ms c r)).foldl (fun s r =>
              colSendAs x false 2 (b2n v.2 + last c) (resultRank x ms c me) 1 c 0 (chunkSlots v.1) r s) (setRun { x with fwd := c :: x.fwd } s)
          | none => s) s) s) s

/-! ### All-to-all (R314, R315) -/

/-- The grants of a receiver: sources in ascending rank order (R314); the counts themselves for the fixed form (R315). -/
def grantsOf (d : Nat) : List Nat → Nat → List Nat
  | [], _ => []
  | c :: m, used =>
    let g := if cOp d = 6 then min c (cCount d - used) else min c (cCount d)
    g :: grantsOf d m (used + g)
/-- The grants this member gives by source rank. -/
def myGrants (x : ColX) (n : Nat) : List Nat := grantsOf x.ins.desc ((List.range n).map (fun r => sGet 0 x.counts r)) 0

/-- Send the first `k` rows for rank `r`, chunk by chunk; the own rows are taken at once. -/
def sendRows (g q r k : Nat) (s : State) : State :=
  withRun g q (fun x s =>
    let d := x.ins.desc
    let n := grpN g s
    let me := grpRank g s
    let base := offOf (cSrc d) + ((cCounts d n s).take r).foldl (· + ·) 0 * cRow d
    let bytes := k * cRow d
    let chunks := (bytes + 1023) / 1024
    (List.range chunks).foldl (fun s c =>
      let len := min 1024 (bytes - 1024 * c)
      let v := readOff (base + 1024 * c) len s
      let p := poisonOff (base + 1024 * c) len s
      let s := if p then colDirty g q c (pkgNum s) (some x.ins.tag.toNat) s else s
      if r = me then withRun g q (fun x s => setRun { x with rowsIn := sIns (r * 2 ^ 32 + c) (v, p) x.rowsIn } s) s
      else colSend x false 2 (b2n p + (if c + 1 = chunks then 2 else 0)) 0 c 0 (chunkSlots v) r s)
      (setRun { x with rowsSent := r :: x.rowsSent } s)) s

/-- The stages of an all-to-all. -/
def stepA2a (g q : Nat) (s : State) : State :=
  let n := grpN g s
  let me := grpRank g s
  let s := withRun g q (fun x s =>
    let d := x.ins.desc
    if cA2a (cOp d) && x.joined && !x.wrote then
      let cs := cCounts d n s
      let num := fun r => if cOp d = 6 then cs.getD r 0 else min (cs.getD r 0) (cCount d)
      let x := { x with wrote := true, counts := sIns me (num me) x.counts,
                        allow := if cOp d = 7 then (List.range n).foldl (fun m r => sIns r (num r) m) x.allow else x.allow }
      (List.range n).foldl (fun s r => if r = me then s else colSend x false 3 0 0 0 0 (freeSlots 3 [num r] 8) r s) (setRun x s)
    else s) s
  let s := withRun g q (fun x s =>
    if cA2a (cOp x.ins.desc) && x.wrote && !x.granted && (List.range n).all (fun r => (sFind x.counts r).isSome) then
      let gs := myGrants x n
      if cOp x.ins.desc = 7 then setRun { x with granted := true } s
      else (List.range n).foldl (fun s r => if r = me then s else colSend x false 4 0 0 0 0 (freeSlots 4 [gs.getD r 0] 8) r s)
        (setRun { x with granted := true, allow := sIns me (gs.getD me 0) x.allow } s)
    else s) s
  (List.range n).foldl (fun s r => withRun g q (fun x s =>
    match sFind x.allow r with
    | some k => if x.wrote && !x.rowsSent.contains r then sendRows g q r k s else s
    | none => s) s) s

/-- Everything a running collective can send now; nothing from the freeze count on (R319). -/
def colAdvance (g q : Nat) (s : State) : State :=
  if freezeDue s ∨ s.ckp.halt.isSome then s else colLost (stepA2a g q (stepData g q (stepExp g q (stepJoin g q s))))

/-- Every running collective sends what it can. -/
def colWake (s : State) : State := (s.col.runs.map (fun x => (x.grp, x.seq))).foldl (fun s k => colAdvance k.1 k.2 s) s

/-! ### Receiving -/

/-- A chunk fails its check: its CRC, its DIRTY flag, or a poisoned line (R313). -/
def chunkBad (kind : Nat) (m : ColMsg) : Bool :=
  crc64Go 0 (colBytes (colTop m.group.val m.seq.toNat kind m.flags.toNat m.rank.toNat m.step.toNat) m.slots) ≠ m.crc.toNat

/-- A message for a running collective. -/
def colTake (w : ColMail) (s : State) : State :=
  let g := w.m.group.val
  let q := w.m.seq.toNat
  let r := w.m.rank.toNat
  let c := w.m.chunk.toNat
  let n := grpN g s
  let me := grpRank g s
  let ms := grpMembers g s
  let pkg := ms.getD r 0
  let chunk := w.kind = 1 || w.kind = 2
  let bad := chunk && chunkBad w.kind w.m
  let s := colProgress g q (addPair colBase R.COL_RX_BYTES_LO_VALUE R.COL_RX_BYTES_HI_VALUE (32 + 16 * w.m.slots.length) s)
  withRun g q (fun x s =>
    let s := if bad ∨ (chunk ∧ w.m.pmask ≠ 0) then colDirty g q c pkg (some x.ins.tag.toNat) s else s
    let dirty := bad || w.m.pmask ≠ 0 || bitAt w.m.flags.toNat 0
    let d := x.ins.desc
    match w.kind with
    | 0 =>
      if treeUp n me = some r then
        if w.sig = ownSig x s then
          let f := x.failed || bitAt w.m.flags.toNat 2
          colJoined g q (if cReduces (cOp d) && f then 4 else w.algo) (setRun { x with failed := f } s)
        else colAbort g q 3 (pkgNum s) s
      else setRun { x with joins := r :: x.joins, failed := x.failed || bitAt w.m.flags.toNat 2 } s
    | 1 =>
      let v := slotsChunk w.m.slots % 2 ^ 8192
      let x := { x with expBad := if dirty && !x.expBad.contains c then c :: x.expBad else x.expBad }
      if w.m.step.toNat = 1 then setRun { x with expFin := sIns c v x.expFin } s
      else setRun { x with expGot := (r, c) :: x.expGot, exp := sIns c (zipWords 16 phase1Max (sGet 0 x.exp c) v) x.exp } s
    | 2 =>
      let v := slotsChunk w.m.slots % 2 ^ 8192
      if cA2a (cOp d) then setRun { x with rowsIn := sIns (r * 2 ^ 32 + c) (v, dirty) x.rowsIn } s
      else if w.m.step.toNat = 2 then setRun { x with done := r :: x.done } s
      else if w.m.step.toNat = 1 then setRun { x with res := sIns c (v, dirty) x.res } s
      else
        let p := sGet ColPart.init x.parts c
        if p.got.contains r then s
        else
          let fl := if p.got.isEmpty || !cReduces (cOp d) then 0 else combineFlags d p.data v
          let v := if p.got.isEmpty then v else combineChunks d p.data v
          setRun { x with parts := sIns c ⟨r :: p.got, v, p.dirty || dirty⟩ x.parts, flags := x.flags ||| fl } s
    | 3 => setRun { x with counts := sIns r w.n x.counts } s
    | 4 => setRun { x with allow := sIns r w.n x.allow } s
    | _ => setRun { x with fmarks := if x.fmarks.contains r then x.fmarks else r :: x.fmarks } s) s

/-- A FREEZE_MARK for a collective that has not begun here is answered by one: nothing of it is on the way (R319, log 199). -/
def markAnswer (w : ColMail) (s : State) : State :=
  let g := w.m.group.val
  slotSend false g w.m.seq.toNat 7 0 (grpRank g s) 0 0 0 (freeSlots 7 [] 8) w.m.src.toNat s

/-- Keep a message of a collective that has not begun here; from the freeze count on a mark is answered. -/
def colKeep (w : ColMail) (s : State) : State :=
  if w.kind = 7 && freezeDue s && s.ckp.halt.isNone then markAnswer w s else { s with col := { s.col with mail := s.col.mail ++ [w] } }

/-- A collective message arrives: for a running collective it acts; for one not begun here it is kept; an old one, or one of a BROKEN group, is
dropped. -/
def colArrive (w : ColMail) (s : State) : State :=
  let g := w.m.group.val
  let q := w.m.seq.toNat
  match getRun g q s with
  | some x => if x.started then colAdvance g q (colTake w s) else colKeep w s
  | none =>
    if grpBroken g s || (q + 2 ^ 16 - grpSeq g s) % 2 ^ 16 ≥ 2 ^ 15 then s
    else colKeep w s

/-- A message without a signature or a number. -/
def plainMail (kind : Nat) (m : ColMsg) : ColMail := ⟨kind, m, ⟨0, 0, 0, 0, 0, 0, 0, 0⟩, 0, 0⟩

/-! ### Acceptance and start -/

/-- COL_ACCEPT: the checks, SEQ, and the collectives that abort at once: on a BROKEN group, or with a member outside the member map (R299, R300, R318, R325). -/
def colAccept (ue : Bool) (s : State) : State :=
  match crossHead kCol s with
  | none => s
  | some y =>
    let a := y.p.toNat
    let pre : Bool := a % 64 = 0 && ownHbm a 64 s
    withSources kCol (if pre then [(0xFFFF * 2 ^ 48 + offOf a, 64)] else []) (fun s =>
      let d := if pre then readOff (offOf a) 64 s else 0
      let load := pre && grpValid (cGroup d) s
      withSources kCol (if load && !(sGet ⟨false, []⟩ s.col.groups (cGroup d)).read then [grpListAt (cGroup d) s] else []) (fun s =>
      let n0 := (getEng kCol s).queue.length
      let s' := accept kCol (queueCap 9) (fun x => colChecks ue x d (if load then grpLoad (cGroup d) s else s)) (fun _ => 0) (fun _ => d) s
      match (getEng kCol s').queue.getLast? with
      | some x =>
        if (getEng kCol s').queue.length = n0 then s'
        else
          let g := cGroup d
          let s' := grpLoad g s'
          let q := grpSeq g s'
          let s' := setGrpWord g 1 (putBits (grpWord g 1 s') 0 16 ((q + 1) % 2 ^ 16)) s'
          let z := ColX.new x g q
          let s' := colShow { s' with col := { s'.col with runs := s'.col.runs ++ [z] } }
          if grpBroken g s' then abortRun z 6 (pkgNum s') s'
          else if (grpMembers g s').all (fun m => isMember 0 m s') then s'
          else colAbort g q 7 (pkgNum s') s'
      | none => s') s) s

/-- Whether a reducing collective accepted before `x` could begin and has not: claims are granted in acceptance order (R311). -/
def claimBefore (x : ColX) (s : State) : Bool :=
  (s.col.runs.takeWhile (fun y => !(y.grp = x.grp && y.seq = x.seq))).any (fun y =>
    !y.started && cReduces (cOp y.ins.desc) && (s.col.runs.find? (fun z => z.grp = y.grp)).any (fun z => z.seq = y.seq))

/-- A collective of group `g` begins: one of a group at a time and 16 in all, in SEQ order (R302); a reduction claims its memory (R311); the messages
that came early are taken. -/
def colStart (op g : Nat) (s : State) : State :=
  match s.col.runs.find? (fun x => x.grp = g) with
  | none => s
  | some x =>
    let d := x.ins.desc
    if x.started ∨ cOp d ≠ op ∨ (cReduces op ∧ claimBefore x s) ∨ (s.col.runs.filter (fun y => y.started)).length ≥ 16 ∨ freezeDue s ∨ s.ckp.halt.isSome then s
    else withSources kCol (cSources d (grpN g s) s) (fun s =>
      let need := min (cCount d * cWire d) (max 1 (effF colBase R.COL_CFG_CLAIM_MIB R.COL_CFG_LEVEL s) * 2 ^ 20)
      let used := s.col.runs.foldl (fun n y => n + y.claim) 0
      let inr := effF colBase R.COL_CFG_INR_EN R.COL_CFG_LEVEL s = 1
      let red := cReduces op
      let ok := inr ∧ used + need ≤ 64 * 2 ^ 20
      let x := { x with started := true, claim := if red ∧ ok then need else 0, failed := red && !decide ok,
                        exp := if cFix d then (List.range (expMsgs d)).foldl (fun m j => sIns j (ownExp d j s) m) [] else [],
                        expBad := if cFix d then (List.range (expMsgs d)).filter (fun j => expPoison d j s) else [] }
      let mine := s.col.mail.filter (fun w => w.m.group.val = g && w.m.seq.toNat = x.seq)
      let s := { s with col := { s.col with mail := s.col.mail.filter (fun w => !(w.m.group.val = g && w.m.seq.toNat = x.seq)) } }
      let s := colProgress g x.seq (colShow (setRun x s))
      colAdvance g x.seq (mine.foldl (fun s w => colTake w s) s)) s

/-! ### Completion (R302, R305, R307) -/

/-- Element `i` of the result with its flags, from its wire word (R305, R307, R308). -/
def resultElem (x : ColX) (i v : Nat) : Nat × Nat :=
  let d := x.ins.desc
  let f := if cType d = 1 then fp64 else fp32
  if cFix d then
    let w := finalWord x i
    if w % 16 ≥ 2 then (nanOf f, if bitAt w 0 ∨ (bitAt w 2 ∧ bitAt w 1) then flNV else 0)
    else roundDy f false false ⟨signed 64 v, wordE w - 47⟩
  else if cType d ≤ 1 ∧ cRed d ≠ 0 then (canon f v v, 0)
  else (v, 0)

/-- The wire word of element `i`. -/
def resultWord (x : ColX) (n i : Nat) : Nat :=
  let k := elemChunk x.algo x.ins.desc n i
  let w := 8 * cWire x.ins.desc
  bitsAt (sGet (0, false) x.res k.1).1 (w * k.2) w

/-- Rows of source `r` as received. -/
def rowsOf (x : ColX) (r bytes : Nat) : Nat :=
  packBits 8192 ((List.range ((bytes + 1023) / 1024)).map (fun c => (sGet (0, false) x.rowsIn (r * 2 ^ 32 + c)).1))

/-- Whether every destination byte of this member is at hand and everything it must send has gone (R302). -/
def colFinished (x : ColX) (s : State) : Bool :=
  let d := x.ins.desc
  let ms := grpMembers x.grp s
  let n := ms.length
  let me := grpRank x.grp s
  x.started && x.joined && x.joinFwd &&
  (if cA2a (cOp d) then
    let gs := myGrants x n
    x.granted && (List.range n).all (fun r => x.rowsSent.contains r &&
      (List.range ((gs.getD r 0 * cRow d + 1023) / 1024)).all (fun c => (sFind x.rowsIn (r * 2 ^ 32 + c)).isSome))
  else (List.range (colChunks x n)).all (fun c =>
    (!wants x ms c me || ((sFind x.res c).isSome && x.fwd.contains c)) &&
    ((cReduces (cOp d) && x.algo = 4) || !carries x ms c me || x.sent.contains c)) &&
    (!(cReduces (cOp d) && x.algo = 4) || x.marksOut)) &&
  !hasTxn (fun t => t.owner = .eng kCol) s && !writesOpen (.eng kCol) s && !colUnacked x.grp x.seq s

/-- Write the destination and the received counts. -/
def colWrites (x : ColX) (s : State) : State :=
  let d := x.ins.desc
  let n := grpN x.grp s
  let me := grpRank x.grp s
  let put := fun off len v (s : State) => engWrite kCol (0xFFFF * 2 ^ 48 + off) len v s
  let dst := offOf (cDst d)
  let z := cSize (cType d)
  if cReduces (cOp d) then
    let e := cRange d n me
    put dst ((e.2 - e.1) * z) (packBits (8 * z) ((List.range (e.2 - e.1)).map (fun i => (resultElem x (e.1 + i) (resultWord x n (e.1 + i))).1))) s
  else if cOp d = 1 ∨ cOp d = 5 then
    let own := readOff (offOf (cSrc d)) (cBytes d) s
    let blk := fun q => packBits 8192 ((List.range (gatherChunks d)).map (fun c => (sGet (0, false) x.res (q * gatherChunks d + c)).1))
    if cOp d = 1 then put dst (cBytes d) (if me = cRoot d then own else blk 0) s
    else (List.range n).foldl (fun s q => put (dst + q * cBytes d) (cBytes d) (if q = me then own else blk q) s) s
  else if cA2a (cOp d) then
    let gs := myGrants x n
    let s := (List.range n).foldl (fun s r =>
      let bytes := gs.getD r 0 * cRow d
      if cOp d = 6 then put (dst + (gs.take r).foldl (· + ·) 0 * cRow d) bytes (rowsOf x r bytes) s
      else put (dst + r * cCount d * cRow d) (cCount d * cRow d) (rowsOf x r bytes % 2 ^ (8 * bytes)) s) s
    put (offOf (cRcnt d)) (4 * n) (packBits 32 gs) s
  else s

/-- Rows this member dropped by rank whose rows they were: as receiver, and as source its own (R314, R315). -/
def colDrops (x : ColX) (n me : Nat) (s : State) : List (Nat × Nat) :=
  let d := x.ins.desc
  let gs := myGrants x n
  let cs := cCounts d n s
  (if cOp d = 6 then (List.range n).map (fun r => (r, sGet 0 x.counts r - gs.getD r 0)) else []) ++
  (List.range n).filterMap (fun r => if cOp d = 6 ∧ r = me then none else some (me, cs.getD r 0 - sGet 0 x.allow r))

/-- Whether a DIRTY chunk is in this member's result (R313, R315). -/
def colUe (x : ColX) (n me : Nat) : Bool :=
  let d := x.ins.desc
  let e := cRange d n me
  if cA2a (cOp d) then x.rowsIn.any (fun p => p.2.2)
  else x.res.any (fun p => p.2.2 && needs x n p.1 me) || (!cReduces (cOp d) && !x.ownBad.isEmpty) ||
    (cFix d && x.expBad.any (fun j => decide (65536 * j < e.2) && decide (e.1 < 65536 * (j + 1))))

/-- COL_COMPLETE: the destination becomes visible, the sticky flags are set and the summary is delivered (R302); a line of it that the companion still gives up is awaited. -/
def colComplete (g : Nat) (s : State) : State :=
  match s.col.runs.find? (fun x => x.grp = g) with
  | none => s
  | some x =>
    let s := if colFinished x s && !x.put then colWrites x (setRun { x with put := true } s) else s
    if (colFinished x s || x.put) && !writesOpen (.eng kCol) s then
      let d := x.ins.desc
      let n := grpN g s
      let me := grpRank g s
      let e := cRange d n me
      let red := cReduces (cOp d)
      let fl := if red then (List.range (e.2 - e.1)).foldl (fun fl i => fl ||| (resultElem x (e.1 + i) (resultWord x n (e.1 + i))).2) x.flags % 16 else 0
      let nonfin := if red && cFix d then (List.range ((cCount d + 127) / 128)).filter (fun c =>
        decide (128 * c < e.2) && decide (e.1 < 128 * (c + 1)) && finalWord x (128 * c) % 16 ≥ 2) else []
      let a2a := cA2a (cOp d)
      let drops := if a2a then (colDrops x n me s).filter (fun p => p.2 ≠ 0) else []
      let dropped := drops.foldl (fun t p => t + p.2) 0
      let dirty := colUe x n me
      let value := if a2a then (myGrants x n).foldl (· + ·) 0 else 0
      let first := if a2a then drops.foldl (fun (m : Option Nat) p => some (match m with
        | some k => min k p.1
        | none => p.1)) none else nonfin.head?
      let s := setFlags colBase fl [(0, R.COL_STATUS_NV), (1, R.COL_STATUS_OF), (2, R.COL_STATUS_UF), (3, R.COL_STATUS_NX)] s
      let s := if dropped = 0 then s else bumpF colBase R.COL_DROP_COUNT_COUNT dropped s
      colEnd x (mkSummary value (if a2a then dropped else nonfin.length) first fl false false dirty) s
    else s

/-! ### Timers, freezing and restoring (R316, R319) -/

/-- Quiesce points the package's cores have passed. -/
def quiesceCount (s : State) : Nat := s.cores.foldl (fun n c => n + c.2.qpCount) 0

/-- The member list of a group: as the collective engine read it, else as it stands in memory. -/
def grpList (g : Nat) (s : State) : List Nat :=
  let c := sGet ⟨false, []⟩ s.col.groups g
  if c.read then c.members
  else
    let v := readOff ((grpWord g 2 s + 2 ^ 32 * grpWord g 3 s) % 2 ^ 48) (2 * grpN g s) s
    (List.range (grpN g s)).map (fun i => bitsAt v (16 * i) 16)

/-- Send PROGRESS of collective `q` of a group to the control-tree neighbours: the package's state and its quiesce count (R316). -/
def progressOut (g q : Nat) (s : State) : State :=
  ((ctlNeighbours (grpN g s) (grpRank g s)).filterMap (fun r => (grpList g s)[r]?)).foldl (fun s p =>
    colSendTo true g q 5 0 (grpRank g s) 0 0 0 (freeSlots 5 [stCode s.pkg, quiesceCount s] 1) p s) s

/-- PROGRESS_SEND_TIMER: with a collective open on the group, PROGRESS goes to the control-tree neighbours (R316); so it does from a package whose launch was aborted, to
report it not running (R320). -/
def progressSend (g : Nat) (s : State) : State :=
  match s.col.runs.find? (fun x => x.grp = g) with
  | none => if grpValid g s && s.pkg ≠ .running && getF colBase R.COL_LAUNCH_STATUS_STATE s = 5 then progressOut g (grpSeq g s) s else s
  | some x => progressOut g x.seq s

/-- PROGRESS: the neighbour's state and quiesce count are recorded; more quiesce points are progress of what waits for it (R316). A neighbour that is not running aborts the
collective that waits for it (R317, R320): with PEER_FAULT when it is FAULTED, else with PEER_DEAD. -/
def progressTake (m : ColMsg) (st q : Nat) (s : State) : State :=
  let g := m.group.val
  let key := g * 65536 + m.rank.toNat
  let before := (sGet (0, 0) s.col.seen key).2
  let s := { s with col := { s.col with seen := sIns key (st, q) s.col.seen } }
  if st = stCode .running ∨ st = stCode .frozen then
    colWake (if q > before then s.col.runs.foldl (fun s x => if x.grp = g then colProgress g x.seq s else s) s else s)
  else colAbortFirst g (if st = stCode .faulted then 1 else 2) m.src.toNat s

/-- COL_PROGRESS_TIMEOUT: a running collective without progress for COL_TIMEOUT aborts; time spent FROZEN does not count (R316). -/
def colTimeout (g : Nat) (s : State) : State :=
  if s.pkg ≠ .frozen ∧ s.col.runs.any (fun x => x.grp = g && x.started && decide (x.limit ≤ (s.count - x.since).toNat)) then
    colAbortFirst g 4 (pkgNum s) s
  else s

/-- Whether this package has a vote over the group open (R361). -/
def voteOpen (g : Nat) (s : State) : Bool := s.ckp.mine.isSome && getF ckpBase R.CKP_CFG_GROUP s = g

/-- A member of a group is dead: its collectives abort and ABORT goes over the control tree, also where only a vote over the group is open; the vote aborts, and every
member takes FAIL (R317, R362). -/
def memberDead (g q cause origin : Nat) (s : State) : State :=
  let v := voteOpen g s
  let s := if s.col.runs.any (fun x => x.grp = g) && !grpBroken g s then colAbort g q cause origin s
    else if v then abortFlood g q cause origin s else s
  if v then voteAborted s else s

/-- PEER_SILENT: four periods without a message from a control-tree neighbour: it is dead (R317, R362). -/
def peerSilent (g r : Nat) (s : State) : State :=
  if (ctlNeighbours (grpN g s) (grpRank g s)).contains r then
    memberDead g ((s.col.runs.find? (fun x => x.grp = g)).elim (grpSeq g s) (·.seq)) 2 ((grpMembers g s).getD r 0) s
  else s

/-- A request to a member met its dead-target bound: the collectives with that member abort (R317). -/
def colDeadTarget (pkg : Nat) (s : State) : State :=
  ((s.col.runs.filter (fun x => x.started && (grpMembers x.grp s).contains pkg)).map (fun x => x.grp)).dedup.foldl
    (fun s g => colAbortFirst g 2 pkg s) s

/-- The ranks a running collective exchanges with. -/
def colPeers (x : ColX) (s : State) : List Nat :=
  let ms := grpMembers x.grp s
  let n := ms.length
  let me := grpRank x.grp s
  if cA2a (cOp x.ins.desc) then (List.range n).filter (· ≠ me)
  else (treeKids n me ++ (treeUp n me).toList ++
    (List.range (colChunks x n)).flatMap (fun c => colKids x ms c me ++ (colUp x ms c me).toList)).dedup

/-- From the freeze count each running collective sends FREEZE_MARK to every peer, once; marks that came for collectives not begun here are answered (R319). -/
def colFreeze (s : State) : State :=
  if freezeDue s && s.ckp.halt.isNone then
    let early := s.col.mail.filter (fun w => w.kind = 7)
    let s := early.foldl (fun s w => markAnswer w s) { s with col := { s.col with mail := s.col.mail.filter (fun w => w.kind ≠ 7) } }
    s.col.runs.foldl (fun s x =>
      if x.started && !x.fsent then
        (colPeers x s).foldl (fun s r => colSend x false 7 0 0 0 0 (freeSlots 7 [] 8) r s) (setRun { x with fsent := true } s)
      else s) s
  else s

/-- Whether every running collective holds a mark from every peer it exchanges with (R319). -/
def colSettled (s : State) : Bool :=
  s.col.runs.all (fun x => !x.started || (x.fsent && (colPeers x s).all (fun r => x.fmarks.contains r)))

/-- After a freeze, sending goes on (R319). -/
def colThaw (s : State) : State :=
  colWake { s with col := { s.col with runs := s.col.runs.map (fun x => { x with fmarks := [], fsent := false }),
                                          mail := s.col.mail.filter (fun w => w.kind ≠ 7) } }

/-- COL_RESTORE (R319). -/
def colRestore (path : Path) (v : Word) (s : State) : State :=
  restoreStatus path (colBase + 0x70) colBase [R.COL_STATUS_NV, R.COL_STATUS_OF, R.COL_STATUS_UF, R.COL_STATUS_NX, R.COL_STATUS_ABORTED, R.COL_STATUS_DIRTY,
    R.COL_STATUS_ABORT_COUNT, R.COL_STATUS_LAST_TAG] v.toNat s

/-- FREEZE_COUNT_REACHED (R155): the core starts to park; the collective engine stops sending (R319). -/
def execFreezeCountReached (c : Fin 44) (s : State) : Host.Outcome State Fault Refusal :=
  .next (colFreeze (freezeReached c s))

/-- GROUP_ENTRY_WRITE (R299). -/
def execGroupEntryWrite (path : Path) (off : BitVec 26) (val : Word) (s : State) : Host.Outcome State Fault Refusal :=
  .next (groupPut path off.toNat val s)

/-- COL_ACCEPT (R325). -/
def execColAccept (ue : Bool) (s : State) : Host.Outcome State Fault Refusal := .next (colAccept ue s)

/-- BARRIER (R301). -/
def execBarrier (g : Fin 256) (s : State) : Host.Outcome State Fault Refusal := .next (colStart 0 g s)
/-- BROADCAST (R301). -/
def execBroadcast (g : Fin 256) (s : State) : Host.Outcome State Fault Refusal := .next (colStart 1 g s)
/-- REDUCE (R301). -/
def execReduce (g : Fin 256) (s : State) : Host.Outcome State Fault Refusal := .next (colStart 2 g s)
/-- ALLREDUCE (R301). -/
def execAllreduce (g : Fin 256) (s : State) : Host.Outcome State Fault Refusal := .next (colStart 3 g s)
/-- REDUCE_SCATTER (R301). -/
def execReduceScatter (g : Fin 256) (s : State) : Host.Outcome State Fault Refusal := .next (colStart 4 g s)
/-- ALLGATHER (R301). -/
def execAllgather (g : Fin 256) (s : State) : Host.Outcome State Fault Refusal := .next (colStart 5 g s)
/-- ALLTOALLV (R314). -/
def execAlltoallv (g : Fin 256) (s : State) : Host.Outcome State Fault Refusal := .next (colStart 6 g s)
/-- ALLTOALL_CAP (R315). -/
def execAlltoallCap (g : Fin 256) (s : State) : Host.Outcome State Fault Refusal := .next (colStart 7 g s)

/-- JOIN (R303). -/
def execJoin (m : ColMsg) (sig : CallSig) (algo : Fin 5) (s : State) : Host.Outcome State Fault Refusal :=
  .next (colArrive ⟨0, m, sig, algo, 0⟩ s)
/-- EXP (R306). -/
def execExp (m : ColMsg) (s : State) : Host.Outcome State Fault Refusal := .next (colArrive (plainMail 1 m) s)
/-- DATA (R313). -/
def execData (m : ColMsg) (s : State) : Host.Outcome State Fault Refusal := .next (colArrive (plainMail 2 m) s)
/-- COUNTS (R314). -/
def execCounts (m : ColMsg) (n : Nat) (s : State) : Host.Outcome State Fault Refusal :=
  .next (colArrive { plainMail 3 m with n := n } s)
/-- ALLOW (R314). -/
def execAllow (m : ColMsg) (n : Nat) (s : State) : Host.Outcome State Fault Refusal :=
  .next (colArrive { plainMail 4 m with n := n } s)
/-- PROGRESS (R316). -/
def execProgress (m : ColMsg) (state : BitVec 4) (qcount : Nat) (s : State) : Host.Outcome State Fault Refusal :=
  .next (progressTake m state.toNat qcount s)
/-- PROGRESS_SEND_TIMER (R316). -/
def execProgressSendTimer (g : Fin 256) (s : State) : Host.Outcome State Fault Refusal := .next (progressSend g s)
/-- COL_PROGRESS_TIMEOUT (R316). -/
def execColProgressTimeout (g : Fin 256) (s : State) : Host.Outcome State Fault Refusal := .next (colTimeout g s)
/-- PEER_SILENT (R317). -/
def execPeerSilent (g : Fin 256) (rank : BitVec 16) (s : State) : Host.Outcome State Fault Refusal := .next (peerSilent g rank.toNat s)
/-- FREEZE_MARK (R319). -/
def execFreezeMark (m : ColMsg) (s : State) : Host.Outcome State Fault Refusal := .next (colArrive (plainMail 7 m) s)
/-- COL_COMPLETE (R302). -/
def execColComplete (g : Fin 256) (s : State) : Host.Outcome State Fault Refusal := .next (colComplete g s)
/-- COL_RESTORE (R319). -/
def execColRestore (path : Path) (val : Word) (s : State) : Host.Outcome State Fault Refusal := .next (colRestore path val s)
/-- COL_STATE_WINDOW (R319, R490). -/
def execColStateWindow (path : Path) (off : BitVec 14) (val : Word) (s : State) : Host.Outcome State Fault Refusal :=
  windowWrite path s.imgCol (colBase + 0x8000) off.toNat val
    (fun x s => colShow (setEng kCol { getEng kCol s with queue := x.runs.map (fun r => r.ins) } { s with col := x })) s

end Sys2Proof.Machine
end

