-- ==== Sys2Proof/Machine/Halter.lean ====
section
/-! DEFINITION. The Halter controller: the companion's requests for HBM lines, snoops and their answers, companion-window lines, and
lost ports (R289 to R294). -/

namespace Sys2Proof.Machine

/-- Whether the compute dies and their stacks answer: the rails are on (R412, R425, R444). -/
def hbmUp (s : State) : Bool := s.rails

/-- The HBM lines a companion request names: LEN + 1 from LINE; none when one of them is outside the HBM windows (R290). -/
def halLines (m : HalMsg) (s : State) : Option (List Nat) :=
  if hbmUp s then
    (List.range (m.len.toNat + 1)).mapM (fun i =>
      match target (128 * (m.line.toNat + i) % 2 ^ 48) s with
      | .hbm p => some (p / 128)
      | _ => none)
  else none

/-- Refuse a request: NACK and a record of severity 1 (R290). -/
def halRefuse (m : HalMsg) (s : State) : State := raise 0xF003 0x51 1 0 0 (halSend 0x3F 2 0 m.txid m.line 0 [] s)

/-- PMASK of a list of lines. -/
def pmaskOf (l : List Nat) (s : State) : Nat := packBits 1 (l.map (fun pl => b2n (linePoison pl s)))

/-- Write whole lines from the companion: other copies are invalidated (R291); PMASK marks poison (R236). -/
def halWriteLines (pm : Nat) : List Nat → List Line → Nat → State → State
  | pl :: m, x :: xs, i, s =>
    let s := lineWrite none (pl * 128) 128 x.toNat (delDir pl s)
    halWriteLines pm m xs (i + 1) (if bitAt pm i then poisonLine pl s else s)
  | _, _, _, s => s

/-- Serve a companion request for HBM lines (R291, R292). -/
def halServe (m : HalMsg) (s : State) : State :=
  match halLines m s with
  | none => halRefuse m s
  | some ls =>
    let pl := ls.headD 0
    let data := fun (s : State) => ls.map (fun pl => BitVec.ofNat 1024 (lineNat pl s))
    match m.opc.toNat with
    | 0x01 => setDir pl .shared (depotClean pl (dirRoom pl (halSend 0x18 3 0 m.txid m.line (pmaskOf [pl] s) [BitVec.ofNat 1024 (lineNat pl s)] s)))
    | 0x02 => setDir pl .owned (depotDrop pl (dirRoom pl (halSend 0x19 3 0 m.txid m.line (pmaskOf [pl] s) [BitVec.ofNat 1024 (lineNat pl s)] s)))
    | 0x03 =>
      if (sFind s.hal.dir pl).isSome then setDir pl .owned (depotDrop pl (halSend 0x15 2 0 m.txid m.line 0 [] s))
      else setDir pl .owned (depotDrop pl (dirRoom pl (halSend 0x19 3 0 m.txid m.line (pmaskOf [pl] s) [BitVec.ofNat 1024 (lineNat pl s)] s)))
    | 0x04 => halSend 0x19 3 m.len.toNat m.txid m.line (pmaskOf ls s) (data s) s
    | _ => halSend 0x15 2 0 m.txid m.line 0 [] (halWriteLines m.pmask.toNat ls m.lines 0 s)

/-- A companion request waits at the home while a transaction for one of its lines is open, else it is served (R292). -/
def halAccept (m : HalMsg) (s : State) : State :=
  match halLines m s with
  | none => halRefuse m s
  | some ls => if ls.any (fun pl => snooped pl s || awaited pl s) then homeWait (.companion ls m) s else halServe m s

/-- Close a snoop: the companion's copy is gone or shared; modified data become the line's value. -/
def snoopClose (t : BitVec 16) (shared : Bool) (data : Option (Line × Bool)) (s : State) : State :=
  match s.hal.snoops.find? (fun x => x.txid = t) with
  | none => s
  | some x =>
    let s := { s with hal := { s.hal with snoops := s.hal.snoops.filter (fun y => y.txid ≠ t) } }
    let s := if shared && !x.inv then setDir x.line .shared s else delDir x.line s
    match data with
    | some (d, p) =>
      let s := lineWrite none (x.line * 128) 128 d.toNat s
      if p then poisonLine x.line s else s
    | none => s

/-- WB of an HBM line by the companion: its data are the line's value and it gives the line up (R292). -/
def halWb (m : HalMsg) (s : State) : State :=
  match halLines m s, m.lines with
  | some (pl :: _), x :: _ =>
    let s := lineWrite none (pl * 128) 128 x.toNat (delDir pl s)
    halSend 0x15 2 0 m.txid m.line 0 [] (if bitAt m.pmask.toNat 0 then poisonLine pl s else s)
  | _, _ => halRefuse m s

/-- The line of the companion window a companion address names. -/
def winLine (line : Nat) (s : State) : Option Nat :=
  let base := winBase s / 128
  if base ≤ line ∧ (line - base) * 128 < halWinBytes s then some (line - base) else none

/-- Answer a snoop for a line that a Depot holds: the copy goes or stays clean, and modified data go with the answer. -/
def snoopHeld (inv : Bool) (m : HalMsg) (key : Nat) (d : DepotLine) (s : State) : State :=
  let t : State := { s with depot := if inv then sDel key s.depot else sIns key { d with dirty := false, own := false } s.depot }
  if d.dirty then halSend (if inv then 0x12 else 0x13) 2 0 m.txid m.line (b2n d.poison) [d.data] t
  else halSend (if inv then 0x10 else 0x11) 2 0 m.txid m.line 0 [] t

/-- A snoop from the companion for one of its own lines: answered from the Depots' present state (R291, R292). -/
def halSnooped (inv : Bool) (m : HalMsg) (s : State) : State :=
  match winLine m.line.toNat s with
  | none => halSend 0x10 2 0 m.txid m.line 0 [] s
  | some w =>
    match sFind s.depot (compKey w) with
    | none => halSend 0x10 2 0 m.txid m.line 0 [] s
    | some d => snoopHeld inv m (compKey w) d s

/-- The Depot that takes a companion line for an owner: that of a Drover core's or an engine's die, else Depot 0 (log 185). -/
def companionDie (o : Owner) (key : Nat) : Fin 4 :=
  match o with
  | .core c => coreDie c key
  | o => Fin.ofNat 4 (ownerDie o key)

/-- A request of the package ends: it leaves the list. -/
def reqClose (r : HalReq) (s : State) : State := { s with hal := { s.hal with reqs := s.hal.reqs.filter (fun x => x.txid ≠ r.txid) } }

/-- Give a companion-window line to the one that asked for it (R291): an uncached read to its engine; a copy, with `own` the only one, into a Depot, where a core's
load finds it and the writes that waited for it are performed. A write-back or a whole-line write only ends. -/
def giveCompanion (r : HalReq) (own : Bool) (data : Line) (poison : Bool) (s : State) : State :=
  let s := reqClose r s
  let key := compKey r.line
  let keep := fun (s : State) => depotPut (companionDie r.owner key) key ⟨data, false, poison, companionDie r.owner key, [], own⟩ s
  if r.opc = 0x04 then
    match r.owner with
    | .eng k =>
      let e := getEng k s
      let keys := [0xFFFF * 2 ^ 41 + 2 ^ 39 + r.line, pkgNum s * 2 ^ 41 + 2 ^ 39 + r.line]
      setEng k { e with rx := keys.foldl (fun m q => sIns q data m) e.rx,
                        rxPoison := if poison then keys ++ e.rxPoison else e.rxPoison } s
    | _ => s
  else if r.opc ≥ 0x05 then s
  else
    let s := if own then compRelease key (keep s) else keep s
    match r.owner with
    | .core c =>
      let k := getCore c s
      match k.load with
      | some lw =>
        if isLocal lw.addr.toNat s ∧ offOf lw.addr.toNat / 128 = 2 ^ 39 + r.line then
          setCore c { k with load := some { lw with line := some data, poison := poison } } s
        else s
      | none => s
    | _ => s

/-- Data for one of the package's own requests. -/
def halAnswered (own : Bool) (m : HalMsg) (data : Line) (poison : Bool) (s : State) : State :=
  match s.hal.reqs.find? (fun x => x.txid = m.txid) with
  | some r => giveCompanion r own data poison s
  | none => s

/-- A request completes poisoned: it was refused, went unanswered, or the link is lost (R290, R293, R294). -/
def reqFailed (r : HalReq) (s : State) : State := giveCompanion r (decide (r.opc = 2 ∨ r.opc = 3)) 0 true s

/-- The package's own request is complete (R291): a granted upgrade makes the Depot's copy the only one. -/
def halComplete (m : HalMsg) (s : State) : State :=
  match s.hal.reqs.find? (fun x => x.txid = m.txid) with
  | none => s
  | some r =>
    let s := reqClose r s
    let key := compKey r.line
    if r.opc = 0x03 then
      match sFind s.depot key with
      | some x => compRelease key { s with depot := sIns key { x with own := true } s.depot }
      | none => s
    else s

/-- The home takes a line back from a companion that did not answer: poisoned, counted and recorded (R293). -/
def takenBack (pl : Nat) (s : State) : State :=
  raise 0xF003 0x5B 2 0 0 (poisonLine pl (setF halBase R.HAL_STATUS_SNP_TIMEOUT 1 (bumpF halBase R.HAL_STATUS_SNP_TIMEOUT_COUNT 1 s)))

/-- The snoop or package request `t` went unanswered for HAL_SNP_TIMEOUT: the line is taken back poisoned, or the request completes
poisoned; a record of severity 2 (R293). -/
def halTimeout (t : BitVec 16) (s : State) : State :=
  match s.hal.snoops.find? (fun x => x.txid = t) with
  | some x => takenBack x.line (snoopClose t false none s)
  | none =>
    match s.hal.reqs.find? (fun x => x.txid = t) with
    | some r => raise 0xF003 0x5B 2 0 0 (reqFailed r s)
    | none => s

/-- One Halter port goes DOWN: its replayed messages move to the other, which is then the only one (R294). -/
def halPortDown (p : Nat) (s : State) : State :=
  if getF halBase (halState p) s ≤ 1 ∧ getF halBase R.HAL_STATUS_DEGRADED s = 1 then s
  else
    let l := getLink (22 + p) s
    let s := setLink (22 + p) Link.init (setF halBase (halState p) 1 s)
    let s := (l.replay.map (·.body) ++ l.waiting).foldl (fun s b => match b with
      | .halter m => halPut m s
      | .caravan _ => s) s
    if getF halBase (halState (1 - p)) s = 5 then
      raise (0xF000 + p) 0x59 1 0 0 (setF halBase R.HAL_STATUS_DEGRADED 1 s)
    else s

/-- The Halter ports train: each enabled port becomes ACTIVE, and one alone is degraded (R294). That boot trains them is a choice of this model; no rule names
the moment. -/
def halTrain (s : State) : State :=
  let a := getF halBase R.HAL_CFG_PORT0_EN s
  let b := getF halBase R.HAL_CFG_PORT1_EN s
  setF halBase R.HAL_STATUS_STATE0 (5 * a) (setF halBase R.HAL_STATUS_STATE1 (5 * b) (setF halBase R.HAL_STATUS_DEGRADED (b2n (a ≠ b))
    (setF halBase R.HAL_STATUS_DOWN 0 { s with hal := { s.hal with down := false } })))

/-- The enabled Halter ports retrain, as at a warm reset (R296). -/
def halRetrain (s : State) : State :=
  setF halBase R.HAL_STATUS_STATE0 (2 * getF halBase R.HAL_CFG_PORT0_EN s) (setF halBase R.HAL_STATUS_STATE1 (2 * getF halBase R.HAL_CFG_PORT1_EN s) s)

/-- Every HBM line the companion owns is taken back as R293 does (R294). -/
def takeBackAll (s : State) : State :=
  let ls := (s.hal.dir.filter (fun e => e.2 = .owned)).map (fun e => e.1)
  let s := { s with hal := { s.hal with dir := [], snoops := [] } }
  ls.foldl (fun s pl => takenBack pl s) s

/-- Both ports DOWN for 1 ms (R294): the record, lines taken back, outstanding requests completed poisoned, and a recovery freeze (R365). -/
def halDown (s : State) : State :=
  if getF halBase R.HAL_STATUS_STATE0 s = 5 ∨ getF halBase R.HAL_STATUS_STATE1 s = 5 then s
  else
    let s := raise 0xF003 0x5A 3 0 0 (setF halBase R.HAL_STATUS_DOWN 1 { s with hal := { s.hal with down := true } })
    let s := takeBackAll s
    recoveryFreeze 5 (s.hal.reqs.foldl (fun s r => reqFailed r s) s)

end Sys2Proof.Machine
end

