-- ==== Sys2Proof/Machine/MemSys.lean ====
section
/-! DEFINITION. The stacks, their channels and the Depots (R225 to R257): line transfers and their errors, refresh, retraining,
self-test and admission, repair, reducing writes and flushes. -/

namespace Sys2Proof.Machine

/-- The physical line of a channel-local line number. -/
def chanLine (st c line : Nat) : Nat := st * 2 ^ 29 + c * 2 ^ 24 + line

/-- LOCAL source number of a channel. -/
def srcChan (st c : Nat) : Nat := 0x7000 + st * 32 + c

/-- The day of service, counted in power-on time (R244, R466). -/
def serviceDay (s : State) : Nat := powerOnS s / 86400

/-- PENDING_ROWS follows the length of the stack's list. -/
def showPending (st : Nat) (s : State) : State :=
  setF (stackBase st) R.MEM_REPAIR_STATUS_PENDING_ROWS (sGet [] s.rows st).length s

/-- A row qualifies for repair: it is listed, or, with 256 listed, counted and recorded (R244). Its days start again. -/
def rowQualifies (st c bank row : Nat) (s : State) : State :=
  let l := sGet [] s.rows st
  let drop := fun (s : State) =>
    let rest := (sGet [] s.rows (100 + st)).filter (fun x => !(x.chan = c && x.bank = bank && x.row = row))
    { s with rows := sIns (100 + st) rest s.rows }
  if l.any (fun x => x.chan = c && x.bank = bank && x.row = row) then drop s
  else if l.length < 256 then
    let s := drop s
    showPending st { s with rows := sIns st (l ++ [⟨c, bank, row, []⟩]) s.rows }
  else raise (srcChan st c) 0x36 1 (st + c * 2 ^ 8 + row * 2 ^ 16) 0 (bumpF (stackBase st) R.MEM_REPAIR_STATUS_LIST_OVERFLOW 1 (drop s))

/-- A corrected error in a row on the present day: three distinct days qualify it (R244). -/
def rowCorrected (st c bank row : Nat) (s : State) : State :=
  if (sGet [] s.rows st).any (fun x => x.chan = c && x.bank = bank && x.row = row) then s
  else
    let l := sGet [] s.rows (100 + st)
    let day := serviceDay s
    let days := match l.find? (fun x => x.chan = c && x.bank = bank && x.row = row) with
      | some x => if x.days.contains day then x.days else day :: x.days
      | none => [day]
    let l' := ⟨c, bank, row, days⟩ :: l.filter (fun x => !(x.chan = c && x.bank = bank && x.row = row))
    if days.length ≥ 3 then rowQualifies st c bank row s else { s with rows := sIns (100 + st) l' s.rows }

/-- Companion totals of a channel: corrected errors, retrains, uncorrectable errors (R466). -/
def chanTotal (st c e : Nat) : Nat := 2 ^ 40 + (st * 32 + c) * 4 + e

/-- A channel read of a line: bytes counted; `err` 0 none, 1 corrected, 2 uncorrectable (R235, R244). A channel out of service gives no
traffic. -/
def lineRead (st c line row bank err : Nat) (s : State) : State :=
  let b := stackBase st
  let pl := chanLine st c line
  if chanOos pl s then s
  else
    let s := addPair b R.MEM_RD_BYTES_LO_VALUE R.MEM_RD_BYTES_HI_VALUE 128 s
    let k := getChan st c s
    if err = 1 then
      rowCorrected st c bank row (tally (chanTotal st c 0) 1 (bumpF b R.MEM_CE_COUNT_COUNT 1
        (setChan st c { k with ceCount := satAdd 16 k.ceCount 1 } s)))
    else if err = 2 then
      let off := localOf pl s
      let s := bumpF b R.MEM_STATUS_UE_COUNT 1 (setF b R.MEM_STATUS_UE 1 (poisonAdd pl s))
      let s := capture b R.MEM_UE_ADDR_HI_VALID
        (fun s => setF b R.MEM_UE_ADDR_LO_ADDR off (setF b R.MEM_UE_ADDR_HI_ADDR (off / 2 ^ 32) s)) s
      let s := raise (srcChan st c) 0x30 2 (st + c * 2 ^ 8 + off * 2 ^ 16) 0 (tally (chanTotal st c 2) 1 s)
      rowQualifies st c bank row s
    else s

/-- A channel write of a whole line (R226, R236); dropped while the channel is out of service (R242). -/
def lineStore (st c line : Nat) (data : Line) (s : State) : State :=
  let pl := chanLine st c line
  if chanOos pl s then s
  else addPair (stackBase st) R.MEM_WR_BYTES_LO_VALUE R.MEM_WR_BYTES_HI_VALUE 128 (hbmWrite (pl * 128) 128 data.toNat s)

/-- PATROL_SCRUB: a read in idle cycles, with SCRUB_EN (R235). -/
def patrol (st c line row bank err : Nat) (s : State) : State :=
  if effF (stackBase st) R.MEM_CFG_SCRUB_EN R.MEM_CFG_LEVEL s = 1 then lineRead st c line row bank err s else s

/-- REFRESH: postponed during a slice, at most 8 owed; else what is owed is done (R239). -/
def refresh (st c : Nat) (s : State) : State :=
  let k := getChan st c s
  setChan st c { k with owed := if k.inSlice then min 8 (k.owed + 1) else 0 } s

/-! ### Retraining (R240 to R242) -/

/-- Whether another channel of the stack retrains. -/
def otherRetrains (st c : Nat) (s : State) : Bool := (List.range 32).any (fun j => j ≠ c && (getChan st j s).st = .retraining)

/-- A retrain begins: it is counted. -/
def retrainBegin (st c fails : Nat) (s : State) : State :=
  let k := getChan st c s
  setF (stackBase st) R.MEM_STATUS_RETRAINING 1 (bumpF (stackBase st) R.MEM_STATUS_RETRAIN_COUNT 1 (tally (chanTotal st c 1) 1
    (setChan st c { k with st := .retraining, slices := 0, fails := fails, trig := false, inSlice := false,
                           retrains := satAdd 8 k.retrains 1 } s)))

/-- A trigger: ignored unless the channel is in service; it waits while another channel of the stack retrains (R240). -/
def retrainTrigger (st c : Nat) (s : State) : State :=
  let k := getChan st c s
  if k.st ≠ .inService then s
  else if otherRetrains st c s then setChan st c { k with trig := true } s
  else retrainBegin st c 0 s

/-- A trigger that RETRAIN_AUTO governs. -/
def retrainAuto (st c : Nat) (s : State) : State :=
  if effF (stackBase st) R.MEM_CFG_RETRAIN_AUTO R.MEM_CFG_LEVEL s = 1 then retrainTrigger st c s else s

/-- A slice begins: at most 24 a retrain (R240, R241). -/
def sliceStart (st c : Nat) (s : State) : State :=
  let k := getChan st c s
  if k.st = .retraining ∧ k.inSlice = false ∧ k.slices < 24 then
    setChan st c { k with inSlice := true, slices := k.slices + 1 } s
  else s

/-- A retrain of the stack ends: the waiting trigger of the lowest channel starts. -/
def retrainNext (st : Nat) (s : State) : State :=
  let s := setF (stackBase st) R.MEM_STATUS_RETRAINING 0 s
  match (List.range 32).find? (fun j => (getChan st j s).trig && (getChan st j s).st = .inService) with
  | some j => retrainBegin st j 0 s
  | none => s

/-- A slice ends; after the last the margin check passes, a second retrain begins, or the channel goes out of service (R242). -/
def sliceEnd (st c : Nat) (last ok : Bool) (s : State) : State :=
  let k := getChan st c s
  if k.st = .retraining ∧ k.inSlice then
    let s := setChan st c { k with inSlice := false } s
    if last || k.slices ≥ 24 then
      if ok then retrainNext st (setChan st c { k with inSlice := false, st := .inService, fails := 0 } s)
      else if k.fails = 0 then retrainBegin st c 1 s
      else
        let b := stackBase st
        let s := setChan st c { k with inSlice := false, st := .outOfService, fails := 0, passed := false } s
        let s := setF b R.MEM_STATUS_OOS_COUNT (satAdd 4 (getF b R.MEM_STATUS_OOS_COUNT s) 1) s
        recoveryFreeze 6 (raise (srcChan st c) 0x32 3 0 0 (retrainNext st s))
    else s
  else s

/-! ### Self-test and admission (R243) -/

/-- MEM_SELFTEST: starts where the channel is out of service; an admission requested after an earlier test falls with it. -/
def selftest (st c : Nat) (s : State) : State :=
  let k := getChan st c s
  if k.st = .outOfService then setChan st c { k with st := .selfTest, passed := false, admitReq := false } s else s

/-- MEM_SELFTEST_DONE: the result; after a pass every line reads poisoned until written whole. -/
def selftestDone (st c : Nat) (pass : Bool) (s : State) : State :=
  let k := getChan st c s
  if k.st = .selfTest then
    setF (stackBase st) R.MEM_SELFTEST_PASS (b2n pass) (setF (stackBase st) R.MEM_SELFTEST_DONE 1
      (setChan st c { k with st := .outOfService, passed := pass, allPoison := k.allPoison || pass, clean := if pass then [] else k.clean } s))
  else s

/-- MEM_ADMIT: a request without a passed self-test is ignored and recorded. -/
def memAdmit (st c : Nat) (s : State) : State :=
  let k := getChan st c s
  if k.st = .outOfService ∧ k.passed then setChan st c { k with admitReq := true } s
  else raise (srcChan st c) 0x33 1 0 0 s

/-- Admission of the requested channels at an epoch switch. -/
def admitChannels (s : State) : State :=
  (List.range 384).foldl (fun s i =>
    let k := getChan (i / 32) (i % 32) s
    if k.admitReq ∧ k.st = .outOfService then
      let b := stackBase (i / 32)
      setF b R.MEM_STATUS_OOS_COUNT (getF b R.MEM_STATUS_OOS_COUNT s - 1)
        (setChan (i / 32) (i % 32) { k with st := .inService, admitReq := false, passed := false } s)
    else s) s

/-- MEM_SPREAD_WRITE: takes effect in READY, else ignored and recorded (R230). -/
def spreadWrite (path : Path) (v : Nat) (s : State) : State :=
  if s.pkg = .ready then setF mempBase R.MEM_SPREAD_SIZE v s else rejectWrite path (mempBase + R.MEM_SPREAD_SIZE.off) v s

/-! ### Repair (R244) -/

/-- REPAIR: the pending repairs start. -/
def repairCmd (path : Path) (s : State) : State :=
  plainCommand path 7 (fun s => (List.range 12).foldl (fun s st => setF (stackBase st) R.MEM_REPAIR_STATUS_REPAIRING 1 s) s) s

/-- The key of a bank's spare-row count. -/
def bankKey (st c bank : Nat) : Nat := (st * 32 + c) * 256 + bank
/-- Spare rows left in a bank, 8 at first. -/
def sparesOf (st c bank : Nat) (s : State) : Nat := sGet 8 s.spares (bankKey st c bank)

/-- The pending rows of a stack moved into spare rows; a row whose bank has none stays listed. Answers the rows repaired. -/
def repairRows (st : Nat) : List RowRec → List RowRec → State → List RowRec × State
  | [], done, s => (done, s)
  | r :: m, done, s =>
    if sparesOf st r.chan r.bank s = 0 then repairRows st m done s
    else
      let s := { s with spares := sSet 8 (bankKey st r.chan r.bank) (sparesOf st r.chan r.bank s - 1) s.spares
                        rows := sIns st ((sGet [] s.rows st).filter (fun x => x ≠ r)) s.rows }
      repairRows st m (done ++ [r]) s

/-- The fewest spare rows left in any bank of a stack. -/
def spareMin (st : Nat) (s : State) : Nat :=
  s.spares.foldl (fun m e => if e.1 / 8192 = st then min m e.2 else m) 8

/-- The fewest spare TSV lanes left in any channel of a stack. -/
def tsvMin (st : Nat) (s : State) : Nat :=
  (List.range 32).foldl (fun m c => min m (getChan st c s).spareTsv) 4

/-- The failing TSV lanes of a channel that a repair moves to spare lanes: a free value of at most the lanes left; no rule says how a lane is found failing (log 190). -/
def tsvFailing (n st c : Nat) (s : State) : Nat := Config.freeResult 98 (n * 512 + st * 32 + c) % ((getChan st c s).spareTsv + 1)

/-- A channel's failing lanes are moved to spares, and the channel retrains (R244). -/
def repairTsv (n st c : Nat) (s : State) : State :=
  let m := tsvFailing n st c s
  if m = 0 then s
  else
    let k := getChan st c s
    retrainTrigger st c (setChan st c { k with spareTsv := k.spareTsv - m } s)

/-- One stack's repairs, of the command `n` counts: the Cairn entries name stack, channel, rows repaired, TSV lanes moved and spare rows left. -/
def repairStack (n : Nat) (s : State) (st : Nat) : State :=
  let lanes := (List.range 32).map (fun c => tsvFailing n st c s)
  let r := repairRows st (sGet [] s.rows st) [] ((List.range 32).foldl (fun s c => repairTsv n st c s) s)
  let s := (List.range 32).foldl (fun s c =>
    let rows := (r.1.filter (fun x => x.chan = c)).length
    if rows = 0 ∧ lanes.getD c 0 = 0 then s else cairnAdd 4 [st, c, rows, lanes.getD c 0, spareMin st s] s) r.2
  showPending st (setF (stackBase st) R.MEM_REPAIR_STATUS_SPARE_ROWS_MIN (spareMin st s)
    (setF (stackBase st) R.MEM_REPAIR_STATUS_SPARE_TSV_MIN (tsvMin st s) (setF (stackBase st) R.MEM_REPAIR_STATUS_REPAIRING 0 s)))

/-- REPAIR_DONE: the repairs end and the command completes; data survive, so no byte and no poison changes. -/
def repairDone (ok : Bool) (s : State) : State :=
  if cmdBusy s && cmdOp s = 7 then
    if ok then cmdFinish 0 ((List.range 12).foldl (repairStack s.fresh) { s with fresh := s.fresh + 1 })
    else cmdFinish 5 ((List.range 12).foldl (fun s st => setF (stackBase st) R.MEM_REPAIR_STATUS_REPAIRING 0 s) s)
  else s

/-! ### Depots -/

/-- The global address of a physical line. -/
def lineGlobal (pl : Nat) (s : State) : Nat := pkgNum s * 2 ^ 48 + localOf pl s

/-- REDUCING_WRITE (R250): `off` names the reduction window; an uncorrectable error in a line the home Depot holds is handled first; a line that is held elsewhere
is recalled first, and the write waits at the home. -/
def reducingWrite (off : Nat) (data : Line) (poison ue : Bool) (s : State) : State :=
  match target off s with
  | .reduction op p =>
    let pl := p / 128
    let s := if ue then depotUe (Fin.ofNat 4 (homeDie pl)) pl (lineGlobal pl s) s else s
    if op = 0 then s else homeWrite ⟨.none, pl, 0, 128, data.toNat, op, poison⟩ s
  | _ => s

/-- DEP_FLUSH: every modified line of the Depot is written back (R255). -/
def depFlush (d : Fin 4) (s : State) : State :=
  flush (fun x => x = d) false (setF (depBase d) R.DEP_STATUS_FLUSHING 1 s)

/-- DEP_INVAL: acts in SERVICE and READY, else ignored and recorded. -/
def depInval (path : Path) (d : Fin 4) (s : State) : State :=
  if s.pkg = .service ∨ s.pkg = .ready then flush (fun x => x = d) true (setF (depBase d) R.DEP_STATUS_FLUSHING 1 s)
  else rejectWrite path (depBase d + R.DEP_INVAL_GO.off) 1 s

/-- HBM_LINE_READ (R235). -/
def execHbmLineRead (st : Fin 12) (c : Fin 32) (line : BitVec 24) (row : BitVec 16) (bank : BitVec 8) (err : Fin 3) (s : State) :
    Host.Outcome State Fault Refusal :=
  .next (lineRead st c line.toNat row.toNat bank.toNat err s)

/-- HBM_LINE_WRITE (R226). -/
def execHbmLineWrite (st : Fin 12) (c : Fin 32) (line : BitVec 24) (data : Line) (s : State) : Host.Outcome State Fault Refusal :=
  .next (lineStore st c line.toNat data s)

/-- PATROL_SCRUB (R235). -/
def execPatrolScrub (st : Fin 12) (c : Fin 32) (line : BitVec 24) (row : BitVec 16) (bank : BitVec 8) (err : Fin 3) (s : State) :
    Host.Outcome State Fault Refusal :=
  .next (patrol st c line.toNat row.toNat bank.toNat err s)

/-- REFRESH (R239). -/
def execRefresh (st : Fin 12) (c : Fin 32) (s : State) : Host.Outcome State Fault Refusal :=
  .next (refresh st c s)

/-- REDUCING_WRITE (R250). -/
def execReducingWrite (off : BitVec 48) (data : Line) (poison : Bool) (ue : Bool) (s : State) : Host.Outcome State Fault Refusal :=
  .next (reducingWrite off.toNat data poison ue s)

/-- RETRAIN_ON_ERRORS (R240). -/
def execRetrainOnErrors (st : Fin 12) (c : Fin 32) (s : State) : Host.Outcome State Fault Refusal :=
  .next (retrainAuto st c s)

/-- RETRAIN_PERIODIC (R240). -/
def execRetrainPeriodic (st : Fin 12) (c : Fin 32) (s : State) : Host.Outcome State Fault Refusal :=
  .next (retrainAuto st c s)

/-- MEM_RETRAIN (R240). -/
def execMemRetrain (st : Fin 12) (c : Fin 32) (s : State) : Host.Outcome State Fault Refusal :=
  .next (retrainTrigger st c s)

/-- RETRAIN_SLICE_START (R241). -/
def execRetrainSliceStart (st : Fin 12) (c : Fin 32) (s : State) : Host.Outcome State Fault Refusal :=
  .next (sliceStart st c s)

/-- RETRAIN_SLICE_END (R241, R242). -/
def execRetrainSliceEnd (st : Fin 12) (c : Fin 32) (last : Bool) (marginOk : Bool) (s : State) : Host.Outcome State Fault Refusal :=
  .next (sliceEnd st c last marginOk s)

/-- MEM_SELFTEST (R243). -/
def execMemSelftest (st : Fin 12) (c : Fin 32) (s : State) : Host.Outcome State Fault Refusal :=
  .next (selftest st c s)

/-- MEM_SELFTEST_DONE (R243). -/
def execMemSelftestDone (st : Fin 12) (c : Fin 32) (pass : Bool) (s : State) : Host.Outcome State Fault Refusal :=
  .next (selftestDone st c pass s)

/-- MEM_ADMIT (R243). -/
def execMemAdmit (st : Fin 12) (c : Fin 32) (s : State) : Host.Outcome State Fault Refusal :=
  .next (memAdmit st c s)

/-- MEM_SPREAD_WRITE (R230). -/
def execMemSpreadWrite (path : Path) (val : Word) (s : State) : Host.Outcome State Fault Refusal :=
  .next (spreadWrite path val.toNat s)

/-- REPAIR (R244). -/
def execRepair (path : Path) (s : State) : Host.Outcome State Fault Refusal :=
  .next (repairCmd path s)

/-- REPAIR_DONE (R244). -/
def execRepairDone (ok : Bool) (s : State) : Host.Outcome State Fault Refusal :=
  .next (repairDone ok s)

/-- DEP_FLUSH (R255). -/
def execDepFlush (d : Fin 4) (s : State) : Host.Outcome State Fault Refusal :=
  .next (depFlush d s)

/-- DEP_INVAL (R255). -/
def execDepInval (path : Path) (d : Fin 4) (s : State) : Host.Outcome State Fault Refusal :=
  .next (depInval path d s)

/-- DEPOT_FLUSH_DONE (R255). -/
def execDepotFlushDone (d : Fin 4) (s : State) : Host.Outcome State Fault Refusal :=
  .next (setF (depBase d) R.DEP_STATUS_FLUSHING 0 s)

end Sys2Proof.Machine
end

