-- ==== Sys2Proof/Machine/Fabric.lean ====
section
/-! DEFINITION. The fabric dies: remote reads and writes, dead targets, ports, epochs and tags (R258 to R288). -/

namespace Sys2Proof.Machine

/-- The fabric die of a port. -/
def portDie (p : Nat) : Nat := if p < 18 then p / 9 else (p - 18) / 2
/-- LOCAL source number of a port: die × 32 + port, with the package's port number of R265. -/
def srcPort (p : Nat) : Nat := 0x9000 + portDie p * 32 + p
/-- The poison line of a dead target (R272): 0xDEAD_F1E7 in each 32-bit word. -/
def poisonPattern : Nat := packBits 32 (List.replicate 32 0xDEADF1E7)
/-! ### Answers to this package's own requests (R264, R272 to R274) -/

/-- Give the lines of a read to its owner. `dead` marks the poison line of a dead or refused target. -/
def giveLines (x : Txn) (dead : Bool) : List (Nat × Bool) → Nat → State → State
  | [], _, s => s
  | (d, p) :: m, i, s =>
    let key := x.dst.toNat * 2 ^ 41 + x.line.toNat + i
    let s := match x.owner with
      | .core c =>
        let k := getCore c s
        match k.load with
        | some lw => setCore c { k with load := some { lw with line := some (BitVec.ofNat 1024 d), poison := p } } s
        | none => s
      | .eng k =>
        let e := getEng k s
        setEng k { e with rx := sIns key (BitVec.ofNat 1024 d) e.rx, rxPoison := if p then key :: e.rxPoison else e.rxPoison,
                          rxDead := if dead then key :: e.rxDead else e.rxDead } s
      | .none => s
    giveLines x dead m (i + 1) s

/-- Close a request on die `fd`. -/
def txnClose (fd : Nat) (x : Txn) (s : State) : State :=
  let f := getFab fd s
  setFab fd { f with txns := f.txns.filter (fun y => !(y.txid = x.txid && y.isRead = x.isRead)) } s

/-- The outstanding request a response names. -/
def txnFind (fd : Nat) (rd : Bool) (t : BitVec 15) (s : State) : Option Txn :=
  (getFab fd s).txns.find? (fun x => x.txid = t && x.isRead = rd)

/-- RDRSP: the read completes; a late one is dropped (R273). -/
def onRdrsp (fd : Nat) (m : Msg) (s : State) : State :=
  match txnFind fd true m.hdr.txid s with
  | none => bumpF (fabBase fd) R.FAB_LATE_RSP_COUNT 1 s
  | some x =>
    giveLines x false ((List.range x.n).map (fun i => (slotsLine ((m.slots.drop (8 * i)).take 8), bitAt m.hdr.pmask.toNat i))) 0
      (txnClose fd x s)

/-- A request of the collective engine has ended: what waited for it goes on (R311). -/
def colAcked (x : Txn) (s : State) : State := if x.owner = .eng kCol then colWake s else s

/-- WRACK: the write completes; a late one is dropped (R273). -/
def onWrack (fd : Nat) (m : Msg) (s : State) : State :=
  match txnFind fd false m.hdr.txid s with
  | none => bumpF (fabBase fd) R.FAB_LATE_RSP_COUNT 1 s
  | some x => colAcked x (txnClose fd x s)

/-- A read completes as poison lines; a write counts its lines as dropped. -/
def txnDead (x : Txn) (s : State) : State :=
  if x.isRead then giveLines x true (List.replicate x.n (poisonPattern, false)) 0 s
  else match x.owner with
    | .eng k =>
      let e := getEng k s
      setEng k { e with drops := e.drops ++ (List.range x.n).map (fun i => x.dst.toNat * 2 ^ 41 + x.line.toNat + i) } s
    | _ => s

/-- NACK: a refused read completes as the poison line at once, a refused write counts as acknowledged (R274). -/
def onNack (fd : Nat) (m : Msg) (s : State) : State :=
  match (getFab fd s).txns.find? (fun x => x.txid = m.hdr.txid) with
  | none => bumpF (fabBase fd) R.FAB_LATE_RSP_COUNT 1 s
  | some x =>
    let s := raise (srcFab fd) 0x51 1 0 0 (bumpF (fabBase fd) R.FAB_STATUS_REFUSED_COUNT 1 (txnClose fd x s))
    if x.isRead then txnDead x s else colAcked x s

/-- DEAD_TARGET_EXPIRY (R272): a read completes as poison lines, a write is dropped; counted, captured and recorded. -/
def deadExpiry (fd : Nat) (t : BitVec 15) (s : State) : State :=
  match (getFab fd s).txns.find? (fun x => x.txid = t) with
  | none => s
  | some x =>
    let b := fabBase fd
    let s := setF b R.FAB_STATUS_REMOTE_DEAD 1 (bumpF b R.FAB_STATUS_DEAD_COUNT 1 (txnDead x (txnClose fd x s)))
    let s := capture b R.FAB_DEAD_PKG_VALID (setF b R.FAB_DEAD_PKG_PACKAGE x.dst.toNat) s
    let s := raise (srcFab fd) 0x50 2 x.dst.toNat 0 s
    if x.owner = .eng kCol then colDeadTarget x.dst.toNat s else s

/-! ### Requests from other packages (R233, R269, R270) -/

/-- A response to a message. -/
def respond (fd : Nat) (m : Msg) (opc len pmask : Nat) (slots : List Slot) (s : State) : State :=
  sendMsg fd ⟨header fd opc 1 len false m.hdr.src.toNat m.hdr.txid.toNat m.hdr.line.toNat pmask s, slots⟩ s

/-- Refuse an unmapped or forbidden request: NACK, counted and recorded (R233, R274). -/
def refuseRemote (fd : Nat) (m : Msg) (s : State) : State :=
  let s := raise (srcFab fd) 0x31 2 (m.hdr.src.toNat + m.hdr.line.toNat * 128 % 2 ^ 48 * 2 ^ 16) 0 (bumpF mempBase R.MEM_UNMAPPED_COUNT 1 s)
  respond fd m 5 0 0 [] s

/-- The targets of the lines of a message. -/
def lineTargets (m : Msg) (s : State) : List Target :=
  (List.range (m.hdr.len.toNat + 1)).map (fun i => target ((m.hdr.line.toNat + i) * 128 % 2 ^ 48) s)

/-- The physical lines of a list of targets. -/
def hbmLines (l : List Target) : List Nat :=
  l.filterMap (fun t => match t with
    | .hbm p => some (p / 128)
    | .reduction _ p => some (p / 128)
    | _ => none)

/-- Apply the lines of a WR: whole lines of HBM or tile SRAM, or reducing writes (R269, R270). -/
def applyWr (m : Msg) : List Target → Nat → State → State
  | [], _, s => s
  | t :: ts, i, s =>
    let d := slotsLine ((m.slots.drop (8 * i)).take 8)
    let p := bitAt m.hdr.pmask.toNat i
    let s := match t with
      | .hbm a =>
        let s := lineWrite none (a / 128 * 128) 128 d s
        if p then poisonLine (a / 128) s else s
      | .tile q a => tilePut q a 128 d p s
      | .reduction op a => reduceLine op (a / 128) d p (scratchTouch (a / 128) s)
      | _ => s
    applyWr m ts (i + 1) s

/-- Serve a request for lines that are at hand: RD answers their coherent values, WR applies and acknowledges (R270). -/
def remoteServe (fd : Nat) (m : Msg) (s : State) : State :=
  let ts := lineTargets m s
  if m.hdr.opc = 1 then
    let ls := hbmLines ts
    respond fd m 2 m.hdr.len.toNat (pmaskOf ls s) (ls.flatMap (fun pl => lineSlots (lineNat pl s))) s
  else respond fd m 4 0 0 [] (applyWr m ts 0 s)

/-- A request waits at its lines' homes while one of them is held or awaited, in order of arrival (R270, R292). -/
def remoteAccept (fd : Nat) (m : Msg) (s : State) : State :=
  let ls := hbmLines (lineTargets m s)
  let inv := decide (m.hdr.opc = 3)
  if ls.any (fun pl => if inv then writeHeld pl s else readHeld pl s) then
    homeWait (.remote ls fd m) (ls.foldl (fun s pl => recallLine inv pl s) s)
  else remoteServe fd m s

/-- RD: the coherent value of every line, or a refusal (R269, R270). -/
def onRd (fd : Nat) (m : Msg) (s : State) : State :=
  let ok := (lineTargets m s).all (fun t => match t with
    | .hbm _ => true
    | _ => false)
  if ok then remoteAccept fd m s else refuseRemote fd m s

/-- WR: applied and acknowledged, or refused (R269, R270). -/
def onWr (fd : Nat) (m : Msg) (s : State) : State :=
  let ok := (lineTargets m s).all (fun t => match t with
    | .hbm _ => true
    | .tile _ _ => true
    | .reduction op _ => op ≠ 0
    | _ => false)
  if ok then remoteAccept fd m s else refuseRemote fd m s

/-! ### The homes' waiting requests (R292) -/

/-- Serve a waiting request whose lines no transaction holds, or recallLine what it needs; answers whether it waits on. -/
def homeTry (r : HomeReq) (s : State) : State × Bool :=
  match r with
  | .companion _ m => (halServe m s, false)
  | .remote ls fd m =>
    let inv := decide (m.hdr.opc = 3)
    if ls.any (fun pl => if inv then writeHeld pl s else readHeld pl s) then (ls.foldl (fun s pl => recallLine inv pl s) s, true)
    else (remoteServe fd m s, false)
  | .write w =>
    if w.line ≥ compKey 0 then (s, true)
    else if writeHeld w.line s then (recallLine true w.line s, true)
    else (writeDo w s, false)

/-- Go through the waiting requests in order of arrival; `keep` holds those that wait on, and holds back later requests for their lines. -/
def homeGo : List HomeReq → List HomeReq → State → State
  | [], keep, s => { s with hal := { s.hal with waiting := keep ++ s.hal.waiting } }
  | r :: m, keep, s =>
    if r.lines.any (fun pl => snooped pl s || keep.any (fun x => x.lines.contains pl)) then homeGo m (keep ++ [r]) s
    else
      let x := homeTry r s
      homeGo m (if x.2 then keep ++ [r] else keep) x.1

/-- After a line came back, the requests that waited go on. -/
def afterSnoop (s : State) : State := homeGo s.hal.waiting [] { s with hal := { s.hal with waiting := [] } }

/-! ### Epochs and tags at ingress (R281, R282) -/

/-- The slot table a message's epoch selects: active, the previous or next tables in the shadow copy, or none, so that it is dropped (R281). -/
def epochTable (fd : Nat) (e : BitVec 2) (s : State) : Option Nat :=
  let d := (e - BitVec.ofNat 2 (getF (fabBase fd) R.FAB_EPOCH_CURRENT s)).toNat
  if d = 0 then some 0x100
  else if d = 3 ∧ (getFab fd s).grace then some 0x300
  else if d = 1 ∧ getF (fabBase fd) R.FAB_STATUS_ARMED s = 1 then some 0x300
  else none

/-- Whether this package delivers a message of a tag (R282). -/
def tagOk (fd : Nat) (h : MsgHdr) (s : State) : Bool :=
  h.tag.toNat = getF (fabBase fd) R.FAB_JOB_TAG s || (h.vc = 3 && h.tag = 0)

/-- A stale message is dropped and counted; the first of each epoch is recorded (R282). -/
def staleDrop (fd : Nat) (s : State) : State :=
  let f := getFab fd s
  let s := bumpF (fabBase fd) R.FAB_STALE_COUNT_COUNT 1 s
  if f.staleSeen then s else raise (srcFab fd) 0x57 0 0 0 (setFab fd { f with staleSeen := true } s)

/-- Whether the fabric dies are powered: in every state but OFF and STANDBY (R428). -/
def fabUp (s : State) : Bool := s.pkg ≠ .off && s.pkg ≠ .standby
/-- A message of an epoch that no table serves is dropped, counted and recorded (R281). -/
def epochDrop (fd : Nat) (s : State) : State :=
  raise (srcFab fd) 0x58 1 0 0 (bumpF (fabBase fd) R.FAB_EPOCH_DROP_COUNT 1 s)

/-- A message arrives at die `fd`: it is dropped by its epoch, forwarded (a collective chunk is
checked on its way, R313), dropped by its tag, or delivered to `body` (R267, R281, R282). -/
def ingress (fd : Nat) (m : Msg) (body : State → State) (s : State) : State :=
  let b := fabBase fd
  if fabUp s = false then s
  else match epochTable fd m.hdr.epoch s with
  | none => epochDrop fd s
  | some tab =>
    if m.hdr.opc.toNat = 0 ∨ m.hdr.opc.toNat > 7 then bumpF b R.FAB_NO_PATH_COUNT 1 s
    else if m.hdr.dst.toNat ≠ pkgNum s then
      if m.hdr.dst.toNat / 64 ≠ pkgNum s / 64 ∨ m.hdr.hop = 3 then bumpF b R.FAB_NO_PATH_COUNT 1 s
      else match pathHop m.hdr.vc.toNat fd tab (m.hdr.dst.toNat % 64) s with
        | some p =>
          let x := colForward m s
          addPair b R.FAB_FWD_BYTES_LO_VALUE R.FAB_FWD_BYTES_HI_VALUE (msgBytes m)
            (portSend p { x.1 with hdr := { m.hdr with hop := m.hdr.hop + 1 } } x.2)
        | none => bumpF b R.FAB_NO_PATH_COUNT 1 s
    else if tagOk fd m.hdr s then
      body (addPair b R.FAB_RX_BYTES_LO_VALUE R.FAB_RX_BYTES_HI_VALUE (msgBytes m) s)
    else staleDrop fd s

/-! ### Ports (R261, R275 to R279) -/

/-- The ports of a fabric die. -/
def diePorts (fd : Nat) : List Nat := (List.range 9).map (fun i => 9 * fd + i) ++ [18 + 2 * fd, 19 + 2 * fd]
/-- Set a port's STATE and the die's count of ACTIVE ports. -/
def setPort (p st : Nat) (s : State) : State :=
  let s := setF (portBase p) R.PORT_STATUS_STATE st s
  setF (fabBase (portDie p)) R.FAB_STATUS_PORTS_ACTIVE ((diePorts (portDie p)).filter (fun q => portUsable q s)).length s
/-- A port's STATE. -/
def portState (p : Nat) (s : State) : Nat := getF (portBase p) R.PORT_STATUS_STATE s

/-- Resend a message of a failed port: on the parallel port of the other plane, else as R267 routes it by the tables of the message's own epoch (R275, R281); a reducing
write is not resent. -/
def resend (p : Nat) (m : Msg) (s : State) : State :=
  let fd := portDie p
  let vc := m.hdr.vc.toNat
  if isReducing m then redUncertain fd (srcPort p) s
  else
    let q := if p < 9 then p + 9 else p - 9
    if portCarries vc q s then portSend q m s
    else match epochTable fd m.hdr.epoch s with
      | none => epochDrop fd s
      | some tab => match pathHop vc fd tab (m.hdr.dst.toNat % 64) s with
        | some q => portSend q m s
        | none => bumpF (fabBase fd) R.FAB_NO_PATH_COUNT 1 s

/-- The cabling plan's entry of a Caravan port: package, port, mode. -/
def planOf (p : Nat) (s : State) : Nat × Nat × Nat :=
  let w := tabWord (portDie p) (8 * (p % 9)) s
  (bitsAt w 0 16, bitsAt w 16 5, bitsAt w 28 2)
/-- The peer a port observed. -/
def peerOf (p : Nat) (s : State) : Option (Nat × Nat) :=
  if getF (portBase p) R.PORT_PEER_VALID s = 1 then
    some (getF (portBase p) R.PORT_PEER_PACKAGE s, getF (portBase p) R.PORT_PEER_PORT s)
  else none
/-- Another port that sees the peer planned for `p` while `p` sees the one planned for it (R279). -/
def swapOf (p : Nat) (s : State) : Option Nat :=
  (List.range 18).find? (fun q =>
    let a := planOf p s
    let b := planOf q s
    q ≠ p && portState q s ≥ 3 && a.2.2 = 1 && b.2.2 = 1 && peerOf p s = some (b.1, b.2.1) && peerOf q s = some (a.1, a.2.1))
/-- Whether a port trains or awaits its peer's identity. -/
def portLooking (p : Nat) (s : State) : Bool :=
  portState p s = 1 || portState p s = 2 || (portState p s = 3 && (peerOf p s).isNone)
/-- Whether a port that sees another peer than the planned one may be half of a swap not yet seen whole: the port planned for that peer still looks (a choice, log 205). -/
def swapOpen (p : Nat) (s : State) : Bool :=
  (List.range 18).any (fun q =>
    let b := planOf q s
    q ≠ p && b.2.2 = 1 && peerOf p s = some (b.1, b.2.1) && portLooking q s)

/-- A checked port goes on to STANDBY on a MATCH or where its entry or ACCEPT_ANY takes any peer, else to CHECK_FAIL (R279). -/
def portChecked (p c : Nat) (s : State) : State :=
  let b := portBase p
  let any := c = 1 || (planOf p s).2.2 = 2 || effF b R.PORT_CTRL_ACCEPT_ANY R.PORT_CTRL_LEVEL s = 1
  setPort p (if any then 4 else 6) (setF b R.PORT_STATUS_CHECK c s)

/-- Classify a port whose peer is observed (R279). -/
def portClass (p : Nat) (s : State) : State :=
  let e := planOf p s
  if e.2.2 = 2 ∨ (e.2.2 = 1 ∧ peerOf p s = some (e.1, e.2.1)) then portChecked p 1 s
  else if e.2.2 = 0 ∨ e.2.2 = 3 then portChecked p 4 s
  else match swapOf p s with
    | some q =>
      let lo := min p q
      let hi := max p q
      let pa := (peerOf lo s).getD (0, 0)
      let pb := (peerOf hi s).getD (0, 0)
      let s := setF (portBase p) R.PORT_STATUS_SWAP_PORT q (setF (portBase q) R.PORT_STATUS_SWAP_PORT p s)
      raise (srcPort lo) 0x55 1 (lo + hi * 2 ^ 8 + pa.1 * 2 ^ 16 + pa.2 * 2 ^ 32 + pb.1 * 2 ^ 40 + pb.2 * 2 ^ 56) 0
        (portChecked q 3 (portChecked p 3 s))
    | none => if swapOpen p s then s else raise (srcPort p) 0x54 1 0 0 (portChecked p 2 s)

/-- The ports that are in CHECK with an observed peer look again once another port's peer, or its absence, is known (R279). -/
def recheck (s : State) : State :=
  (List.range 18).foldl (fun s p => if portState p s = 3 && (peerOf p s).isSome then portClass p s else s) s

/-! ### The parent of the counter's synchronisation (R345, R348) -/

/-- LOCAL source number of the global counter and the digest combiner. -/
def srcGct : Nat := 0xB000
/-- GCT_STATUS.STATE. -/
def gctState (s : State) : Nat := getF gctBase R.GCT_STATUS_STATE s
/-- Set GCT_STATUS.STATE. -/
def setGct (n : Nat) (s : State) : State := setF gctBase R.GCT_STATUS_STATE n s
/-- The role in force: GCT_CFG.ROLE as the last exchange took it (R352). -/
def gctRole (s : State) : Nat := s.sync.role
/-- GCT_STATUS.STRATUM. -/
def stratum (s : State) : Nat := getF gctBase R.GCT_STATUS_STRATUM s
/-- GCT_STATUS.PARENT_PORT. -/
def parentPort (s : State) : Nat := getF gctBase R.GCT_STATUS_PARENT_PORT s

/-- The ACTIVE Caravan port with the lowest announced stratum, the lowest number on a tie; a neighbour of stratum 3 or none is no parent, since no stratum exceeds
3 (R345). -/
def choosePort (s : State) : Option Nat :=
  (List.range 18).foldl (fun m p =>
    let v := sGet 7 s.sync.strata p
    if portUsable p s && v < 3 then
      match m with
      | some q => if v < sGet 7 s.sync.strata q then some p else m
      | none => some p
    else m) none

/-- Take a parent, or none. -/
def setParent (p : Option Nat) (s : State) : State :=
  let s := { s with sync := { s.sync with n := 0, best := none } }
  match p with
  | some q => setF gctBase R.GCT_STATUS_PARENT_PORT q (setF gctBase R.GCT_STATUS_STRATUM (sGet 7 s.sync.strata q + 1) s)
  | none => setF gctBase R.GCT_STATUS_PARENT_PORT 0x1F (setF gctBase R.GCT_STATUS_STRATUM 7 s)

/-- A parent is lost: the next is taken, or the package enters HOLDOVER (R348). -/
def parentLost (s : State) : State :=
  let s := bumpF gctBase R.GCT_STATUS_LOSS_COUNT 1 { s with sync := { s.sync with strata := sDel (parentPort s) s.sync.strata } }
  match choosePort s with
  | some p => setParent (some p) s
  | none =>
    raise srcGct 0x72 1 0 0 (setF gctBase R.GCT_STATUS_HOLDOVER_SEEN 1 (setGct 3 (setParent none { s with sync := { s.sync with good := 0 } })))

/-- A port went DOWN: what was heard on it is forgotten, and a follower whose parent was there moves on at once (R348). -/
def parentDown (p : Nat) (s : State) : State :=
  if gctRole s = 0 ∧ parentPort s = p then parentLost s
  else if p < 18 then { s with sync := { s.sync with strata := sDel p s.sync.strata } } else s

/-- A port goes DOWN (R275): recorded and counted, its replay buffer and what waited for it resent; it then trains while enabled. A follower's parent there is
lost (R348). -/
def portDown (p : Nat) (s : State) : State :=
  let b := portBase p
  let l := getLink p s
  let s := setPort p (if getF b R.PORT_CTRL_ENABLE s = 1 then 2 else 0) s
  let s := setF b R.PORT_STATUS_DOWN 1 (bumpF b R.PORT_STATUS_DOWN_COUNT 1 s)
  let s := setF b R.PORT_STATUS_SELFTEST_PASS 0 (setF b R.PORT_STATUS_LANES_UP 0 (setF b R.PORT_STATUS_CHECK 0 s))
  let s := raise (srcPort p) 0x52 1 0 0 (setLink p { Link.init with fecOk := l.fecOk, fecBad := l.fecBad } s)
  let s := parentDown p s
  if p < 18 then recheck ((l.replay.map (·.body) ++ l.waiting).foldl (fun s b => match b with
    | .caravan m => resend p m s
    | .halter _ => s) s)
  else s

/-- A retrain (R261): recorded, counted, and the port goes DOWN. -/
def portRetrain (p : Nat) (s : State) : State :=
  portDown p (raise (srcPort p) 0x53 0 0 0 (bumpF (portBase p) R.PORT_RETRAINS_COUNT 1 s))

/-- PORT_LOSS_OF_SIGNAL: a port that was up goes DOWN. -/
def lossOfSignal (p : Nat) (s : State) : State := if portState p s ≥ 3 then portDown p s else s

/-- Whether a port trains: DOWN or TRAINING, or a MISSING port whose peer comes at last (R279). -/
def portTraining (p : Nat) (s : State) : Bool :=
  portState p s = 1 || portState p s = 2 || (portState p s = 6 && getF (portBase p) R.PORT_STATUS_CHECK s = 5)

/-- PORT_TRAINED: training with no lane fails; else a Caravan port sends its identity and is checked, a Route port waits in STANDBY (R278, R279). -/
def portTrained (p lanes : Nat) (s : State) : State :=
  let b := portBase p
  if portTraining p s ∧ getF b R.PORT_CTRL_ENABLE s = 1 then
    if lanes = 0 then portDown p s
    else
      let s := setF b R.PORT_PEER_VALID 0 (setF b R.PORT_STATUS_CHECK 0 (setF b R.PORT_STATUS_LANES_UP lanes s))
      if p < 18 then emit (.control "IDENTITY" p [Config.serial.toNat, pkgNum s, p]) (setPort p 3 s) else setPort p 4 s
  else s

/-- PORT_IDENTITY: the observed peer is recorded and the port classified, with the ports that waited to see this one (R279). -/
def portIdentity (p : Nat) (serial : DWord) (pkg port : Nat) (s : State) : State :=
  let b := portBase p
  if p ≥ 18 ∨ portState p s ≠ 3 then s
  else
    recheck (setF b R.PORT_PEER_PACKAGE pkg (setF b R.PORT_PEER_PORT port (setF b R.PORT_PEER_VALID 1
      (setPair b R.PORT_PEER_SERIAL_LO_SERIAL R.PORT_PEER_SERIAL_HI_SERIAL serial.toNat s))))

/-- PORT_MISSING_TIMEOUT: the plan expects a peer and none trained; CHECK_FAIL until one does (R279). -/
def portMissing (p : Nat) (s : State) : State :=
  if p < 18 ∧ (portState p s = 1 ∨ portState p s = 2) ∧ (planOf p s).2.2 = 1 then
    recheck (setPort p 6 (setF (portBase p) R.PORT_STATUS_CHECK 5 s))
  else s

/-- Whether a job holds the package: ADMITTED, RUNNING or FROZEN. -/
def inJob (s : State) : Bool := s.pkg = .admitted || s.pkg = .running || s.pkg = .frozen

/-- PORT_SELFTEST: from STANDBY (R277). -/
def portSelftest (p : Nat) (s : State) : State :=
  if portState p s = 4 then setPort p 7 (setF (portBase p) R.PORT_STATUS_SELFTEST_PASS 0 s) else s

/-- PORT_SELFTEST_DONE: the result; outside a job a passing port is admitted at once (R277). -/
def portSelftestDone (p : Nat) (pass : Bool) (s : State) : State :=
  if portState p s = 7 then
    let s := setF (portBase p) R.PORT_STATUS_SELFTEST_PASS (b2n pass) s
    setPort p (if pass && !inJob s then 5 else 4) s
  else s

/-- PORT_ADMIT: a passed port is admitted at the next epoch switch, or at once outside a job; another request is ignored and recorded (R277). -/
def portAdmit (p : Nat) (s : State) : State :=
  if portState p s = 4 ∧ getF (portBase p) R.PORT_STATUS_SELFTEST_PASS s = 1 then
    if inJob s then setLink p { getLink p s with admitReq := true } s else setPort p 5 s
  else raise (srcPort p) 0x33 1 0 0 s

/-- Admission of the ports that have passed, at an epoch switch after a step boundary (R277). -/
def admitPorts (s : State) : State :=
  (List.range 22).foldl (fun s p =>
    if portState p s = 4 ∧ getF (portBase p) R.PORT_STATUS_SELFTEST_PASS s = 1 ∧
        (effF (portBase p) R.PORT_CTRL_AUTO_ADMIT R.PORT_CTRL_LEVEL s = 1 ∨ (getLink p s).admitReq) then
      setPort p 5 (setLink p { getLink p s with admitReq := false } s)
    else s) s

/-- PORT_DISABLE: ENABLE clears and the port goes DOWN at once (R275). -/
def portDisable (p : Nat) (s : State) : State :=
  let s := setF (portBase p) R.PORT_CTRL_ENABLE 0 s
  if portState p s = 0 then s else portDown p s

/-- Whether the straps let a port train: a Caravan port of a package without accepted straps stays DISABLED (R479). -/
def canTrain (p : Nat) (s : State) : Bool := p ≥ 18 || getF pkgBase R.PKG_INPUTS_SLOT_OK s = 1
/-- PORT_ENABLE: a disabled port trains again (R275). -/
def portEnable (p : Nat) (s : State) : State :=
  let s := setF (portBase p) R.PORT_CTRL_ENABLE 1 s
  if portState p s = 0 ∧ canTrain p s then setPort p 2 s else s

/-! ### Epochs (R280, R283) -/

/-- ARM samples FAB_EPOCH_AT. -/
def epochArm (fd : Nat) (s : State) : State :=
  let b := fabBase fd
  let at_ := BitVec.ofNat 64 (getPair b R.FAB_EPOCH_AT_LO_COUNT R.FAB_EPOCH_AT_HI_COUNT s)
  setF b R.FAB_STATUS_ARMED 1 (setFab fd { getFab fd s with armedAt := some at_ } s)
/-- DISARM. -/
def epochDisarm (fd : Nat) (s : State) : State :=
  setF (fabBase fd) R.FAB_STATUS_ARMED 0 (setFab fd { getFab fd s with armedAt := none } s)

/-- Swap the words of two tables of `n` words (R280). -/
def swapTables (fd a b n : Nat) (s : State) : State :=
  let ba := tabBase fd + a
  let bb := tabBase fd + b
  let pick := fun (lo : Nat) => s.csr.filter (fun e => lo ≤ e.1 && e.1 < lo + 4 * n)
  let rest := s.csr.filter (fun e => !(ba ≤ e.1 && e.1 < ba + 4 * n) && !(bb ≤ e.1 && e.1 < bb + 4 * n))
  let csr := (pick bb).foldr (fun e m => sIns (e.1 - bb + ba) e.2 m) rest
  { s with csr := (pick ba).foldr (fun e m => sIns (e.1 - ba + bb) e.2 m) csr }

/-- Send a fence-epoch mark on every ACTIVE port of a die (R283). -/
def sendMarks (fd : Nat) (s : State) : State :=
  (diePorts fd).foldl (fun s p => if portUsable p s then emit (.control "EPOCH_MARK" p [getF (fabBase fd) R.FAB_EPOCH_CURRENT s]) s else s) s

/-- Whether a TEARDOWN is in progress. -/
def tearing (s : State) : Bool := cmdBusy s && cmdOp s = 0xF

/-- Die `fd` makes its armed switch: tables swap, the tag applies, CURRENT is incremented; with a new tag marks are sent and PASSED is set once no teardown is in
progress (R280, R283). -/
def dieSwitch (fd : Nat) (s : State) : State :=
  let b := fabBase fd
  let s := setFab fd { getFab fd s with armedAt := none, grace := true, staleSeen := false } s
  let s := setF b R.FAB_STATUS_ARMED 0 (swapTables fd 0x1000 0x2000 1024 (swapTables fd 0x100 0x300 128 s))
  let s := setF b R.FAB_EPOCH_CURRENT ((getF b R.FAB_EPOCH_CURRENT s + 1) % 4) s
  if getF b R.FAB_EPOCH_TAG_APPLY s = 1 then
    let t := getF b R.FAB_EPOCH_NEW_TAG s
    sendMarks fd (setF b R.FAB_JOB_PASSED (b2n (t ≠ 0 && !tearing s)) (setF b R.FAB_JOB_TAG t s))
  else s

/-- Whether die `fd` is armed with a count that has come, its previous grace period over. -/
def dieDue (fd : Nat) (s : State) : Bool :=
  let f := getFab fd s
  match f.armedAt with
  | some a => decide (a ≤ s.count) && !f.grace
  | none => false
/-- Whether the armed switch is due: both dies make it together, so both must be ready (R280; that one die alone makes none is deduced, log 204). -/
def switchDue (s : State) : Bool := dieDue 0 s && dieDue 1 s

/-- ADMIT completes once both dies have made the armed switch (R457): ADMITTED, OK, ADMIT_DONE. -/
def admitCheck (s : State) : State :=
  if cmdBusy s ∧ cmdOp s = 8 ∧ (getFab 0 s).armedAt.isNone ∧ (getFab 1 s).armedAt.isNone then
    raise 0xE000 0xA8 0 (cmdArg 0 s) (cmdArg 1 s) (cmdFinish 0 (setPkg .admitted s))
  else s

/-- An epoch switch (R280): at a step commit, or at the armed count while no job is RUNNING. An armed switch that is due is made by both dies; units pending
admission are admitted at every switch, armed or not (R243, R277). -/
def epochSwitch (commit : Bool) (s : State) : State :=
  let due := switchDue s
  if commit || (due && decide (s.pkg ≠ .running)) then
    admitPorts (admitChannels (if due then admitCheck (dieSwitch 1 (dieSwitch 0 s)) else s))
  else s

/-- The grace period ends (R281). -/
def graceEnd (fd : Nat) (s : State) : State := setFab fd { getFab fd s with grace := false } s

/-- EPOCH_MARK: a fence-epoch mark came in on a port; only an ACTIVE port sends one (R277, R283). -/
def epochMark (p : Nat) (s : State) : State := portFar p (setLink p { getLink p s with marked := true } s)

/-! ### Link replay (R261) -/

/-- Send again the flits of the replay buffer (R261). -/
def replaySend (p : Nat) (s : State) : State :=
  let l := getLink p s
  l.replay.foldl (fun s e => emit (outOf p e.body) s) (setLink p { l with sent := l.sent ++ l.replay.flatMap (·.flits) } s)

/-- Count a replay of a Caravan port; more than the threshold within 1 ms calls for a retrain, and so does the eighth sending of one flit. -/
def portReplay (p : Nat) (s : State) : State :=
  let b := portBase p
  let l := getLink p s
  let times := s.count :: l.replayAt.filter (fun t => decide (s.count.toNat ≤ t.toNat + 1000000))
  let s := replaySend p (bumpF b R.PORT_REPLAY_REPLAYS 1 (setLink p { l with sends := l.sends + 1, replayAt := times } s))
  if l.sends + 1 ≥ 8 ∨ times.length > max 1 (effF b R.PORT_RETRAIN_THR_REPLAYS_PER_MS R.PORT_CTRL_LEVEL s) then portRetrain p s else s

/-- A replay of a Halter port; the eighth sending of one flit takes the port DOWN. -/
def halReplay (p : Nat) (s : State) : State :=
  let l := getLink p s
  let s := replaySend p (bumpF halBase R.HAL_REPLAY_COUNT 1 (setLink p { l with sends := l.sends + 1 } s))
  if l.sends + 1 ≥ 8 then halPortDown (p - 22) s else s

/-- LINK_REPLAY_TIMEOUT: 2 us without an acknowledgement resend what is unacknowledged. -/
def replayTimeout (p : Nat) (s : State) : State :=
  if p < 18 then
    if portState p s ≥ 3 ∧ (getLink p s).replay ≠ [] then portReplay p s else s
  else if p ≥ 22 ∧ (getLink p s).replay ≠ [] then halReplay p s else s

/-- LINK_REPLAY_TIMEOUT (R261). -/
def execLinkReplayTimeout (port : Fin 24) (s : State) : Host.Outcome State Fault Refusal :=
  .next (replayTimeout port s)

/-- PORT_LOSS_OF_SIGNAL (R275). -/
def execPortLossOfSignal (p : Fin 22) (s : State) : Host.Outcome State Fault Refusal :=
  .next (lossOfSignal p s)

/-- PORT_TRAINED (R278). -/
def execPortTrained (p : Fin 22) (lanes : Fin 9) (s : State) : Host.Outcome State Fault Refusal :=
  .next (portTrained p lanes s)

/-- PORT_IDENTITY (R279). -/
def execPortIdentity (p : Fin 22) (serial : DWord) (pkg : BitVec 16) (port : BitVec 5) (s : State) : Host.Outcome State Fault Refusal :=
  .next (portIdentity p serial pkg.toNat port.toNat s)

/-- PORT_MISSING_TIMEOUT (R279). -/
def execPortMissingTimeout (p : Fin 22) (s : State) : Host.Outcome State Fault Refusal :=
  .next (portMissing p s)

/-- PORT_SELFTEST (R277). -/
def execPortSelftest (p : Fin 22) (s : State) : Host.Outcome State Fault Refusal :=
  .next (portSelftest p s)

/-- PORT_SELFTEST_DONE (R277). -/
def execPortSelftestDone (p : Fin 22) (pass : Bool) (s : State) : Host.Outcome State Fault Refusal :=
  .next (portSelftestDone p pass s)

/-- PORT_ADMIT (R277). -/
def execPortAdmit (p : Fin 22) (s : State) : Host.Outcome State Fault Refusal :=
  .next (portAdmit p s)

/-- PORT_RETRAIN (R275). -/
def execPortRetrain (p : Fin 22) (s : State) : Host.Outcome State Fault Refusal :=
  .next (if portState p s = 0 then s else portRetrain p s)

/-- PORT_DISABLE (R275). -/
def execPortDisable (p : Fin 22) (s : State) : Host.Outcome State Fault Refusal :=
  .next (portDisable p s)

/-- PORT_ENABLE (R275). -/
def execPortEnable (p : Fin 22) (s : State) : Host.Outcome State Fault Refusal :=
  .next (portEnable p s)

/-- FAB_EPOCH_ARM (R280). -/
def execFabEpochArm (fd : Fin 2) (s : State) : Host.Outcome State Fault Refusal :=
  .next (epochArm fd s)

/-- FAB_EPOCH_DISARM (R280). -/
def execFabEpochDisarm (fd : Fin 2) (s : State) : Host.Outcome State Fault Refusal :=
  .next (epochDisarm fd s)

/-- EPOCH_SWITCH (R280). -/
def execEpochSwitch (commit : Bool) (s : State) : Host.Outcome State Fault Refusal :=
  .next (epochSwitch commit s)

/-- EPOCH_GRACE_END (R281). -/
def execEpochGraceEnd (fd : Fin 2) (s : State) : Host.Outcome State Fault Refusal :=
  .next (graceEnd fd s)

/-- EPOCH_MARK (R283). -/
def execEpochMark (p : Fin 22) (s : State) : Host.Outcome State Fault Refusal :=
  .next (epochMark p s)

/-! ### Halter messages -/

/-- A companion request of an opcode; a message of another opcode is not this command. -/
def halMsg (opc : Nat) (m : HalMsg) (body : State → State) (s : State) : State := if m.opc.toNat = opc then body s else s

/-- A snoop answer (R291, R292). -/
def onSnoopRsp (shared withData : Bool) (m : HalMsg) (s : State) : State :=
  afterSnoop (snoopClose m.txid shared
    (if withData then (m.lines.head?).map (fun d => (d, bitAt m.pmask.toNat 0)) else none) s)

/-- RD_S (R291). -/
def execRdS (m : HalMsg) (s : State) : Host.Outcome State Fault Refusal :=
  .next (halMsg 0x01 m (halAccept m) s)

/-- RD_O (R291). -/
def execRdO (m : HalMsg) (s : State) : Host.Outcome State Fault Refusal :=
  .next (halMsg 0x02 m (halAccept m) s)

/-- UPG (R292). -/
def execUpg (m : HalMsg) (s : State) : Host.Outcome State Fault Refusal :=
  .next (halMsg 0x03 m (halAccept m) s)

/-- RD_NC (R291). -/
def execRdNc (m : HalMsg) (s : State) : Host.Outcome State Fault Refusal :=
  .next (halMsg 0x04 m (halAccept m) s)

/-- WR_FULL (R291). -/
def execWrFull (m : HalMsg) (s : State) : Host.Outcome State Fault Refusal :=
  .next (halMsg 0x05 m (halAccept m) s)

/-- SNP_INV (R291). -/
def execSnpInv (m : HalMsg) (s : State) : Host.Outcome State Fault Refusal :=
  .next (halMsg 0x08 m (halSnooped true m) s)

/-- SNP_DOWN (R291). -/
def execSnpDown (m : HalMsg) (s : State) : Host.Outcome State Fault Refusal :=
  .next (halMsg 0x09 m (halSnooped false m) s)

/-- RSP_I (R291). -/
def execRspI (m : HalMsg) (s : State) : Host.Outcome State Fault Refusal :=
  .next (halMsg 0x10 m (onSnoopRsp false false m) s)

/-- RSP_S (R291). -/
def execRspS (m : HalMsg) (s : State) : Host.Outcome State Fault Refusal :=
  .next (halMsg 0x11 m (onSnoopRsp true false m) s)

/-- RSP_DATA_I (R291). -/
def execRspDataI (m : HalMsg) (s : State) : Host.Outcome State Fault Refusal :=
  .next (halMsg 0x12 m (onSnoopRsp false true m) s)

/-- RSP_DATA_S (R291). -/
def execRspDataS (m : HalMsg) (s : State) : Host.Outcome State Fault Refusal :=
  .next (halMsg 0x13 m (onSnoopRsp true true m) s)

/-- WB (R292). -/
def execWb (m : HalMsg) (s : State) : Host.Outcome State Fault Refusal :=
  .next (halMsg 0x14 m (fun s => afterSnoop (halWb m s)) s)

/-- CMP (R291). -/
def execCmp (m : HalMsg) (s : State) : Host.Outcome State Fault Refusal :=
  .next (halMsg 0x15 m (halComplete m) s)

/-- DATA_S (R291). -/
def execDataS (m : HalMsg) (s : State) : Host.Outcome State Fault Refusal :=
  .next (halMsg 0x18 m (halAnswered false m (m.lines.headD 0) (bitAt m.pmask.toNat 0)) s)

/-- DATA_O (R291). -/
def execDataO (m : HalMsg) (s : State) : Host.Outcome State Fault Refusal :=
  .next (halMsg 0x19 m (halAnswered true m (m.lines.headD 0) (bitAt m.pmask.toNat 0)) s)

/-- A refused request of the package completes poisoned. -/
def halNack (m : HalMsg) (s : State) : State :=
  match s.hal.reqs.find? (fun x => x.txid = m.txid) with
  | some r => reqFailed r s
  | none => s

/-- HALTER_NACK (R290): the package's own request was refused, and completes poisoned. -/
def execHalterNack (m : HalMsg) (s : State) : Host.Outcome State Fault Refusal :=
  .next (halMsg 0x3F m (halNack m) s)

/-- HALTER_SNP_TIMEOUT (R293). -/
def execHalterSnpTimeout (txid : BitVec 16) (s : State) : Host.Outcome State Fault Refusal :=
  .next (afterSnoop (halTimeout txid s))

/-- HALTER_PORT_DOWN (R294). -/
def execHalterPortDown (port : Fin 2) (s : State) : Host.Outcome State Fault Refusal :=
  .next (halPortDown port s)

/-- HALTER_DOWN (R294). -/
def execHalterDown (s : State) : Host.Outcome State Fault Refusal :=
  .next (afterSnoop (halDown s))

end Sys2Proof.Machine
end

