-- ==== Sys2Proof/Machine/Vector.lean ====
section
/-! DEFINITION. The vector engine (R98 to R119, R128 to R131): operation words, acceptance checks, elements, traps and resume,
summaries and the register-file windows. -/

namespace Sys2Proof.Machine

/-- v[n] of tile `p`. -/
def getV (p n : Nat) (s : State) : BitVec 2048 := sGet 0 s.vregs (p * 32 + n)
/-- Replace v[n] of tile `p`. -/
def setV (p n : Nat) (v : BitVec 2048) (s : State) : State := { s with vregs := sSet 0 (p * 32 + n) v s.vregs }
/-- m[n] of tile `p`; m0 reads all ones, and m1 to m7 are all ones after reset (R98, R129). -/
def getM (p n : Nat) (s : State) : BitVec 256 := if n = 0 then BitVec.allOnes 256 else sGet (BitVec.allOnes 256) s.masks (p * 8 + n)
/-- Replace m[n] of tile `p`; m0 ignores writes (R98). -/
def setM (p n : Nat) (v : BitVec 256) (s : State) : State :=
  if n = 0 then s else { s with masks := sSet (BitVec.allOnes 256) (p * 8 + n) v s.masks }

/-! ### The operation word (R101, R102) -/

/-- An instruction as issued (operation word, scalar operand, element stride) with its stream descriptor. -/
structure VxD where
  op : Nat
  scalar : Nat
  stride : Nat
  desc : Nat

def vxD (x : EngIns) (desc : Nat) : VxD := ⟨x.p.toNat, x.q.toNat, x.stride.toNat, desc⟩
def VxD.opc (x : VxD) : Nat := bitsAt x.op 0 8
def VxD.fmt (x : VxD) : Nat := bitsAt x.op 8 4
def VxD.stream (x : VxD) : Bool := bitAt x.op 12
def VxD.mask (x : VxD) : Nat := bitsAt x.op 13 3
def VxD.vd (x : VxD) : Nat := bitsAt x.op 16 5
def VxD.rm (x : VxD) : Nat := bitsAt x.op 36 2
def VxD.useScalar (x : VxD) : Bool := bitAt x.op 50
def VxD.descAddr (x : VxD) : Nat := 32 * bitsAt x.op 16 18
/-- VS1 to VS3. -/
def VxD.vs (x : VxD) (i : Nat) : Nat := bitsAt x.op (16 + 5 * i) 5
/-- The VS3 field. The stream form has none, and the spec states no source for it there: a free value. -/
def VxD.vs3 (x : VxD) : Nat := if x.stream then Config.freeResult 21 x.op % 32 else x.vs 3
/-- Number of elements. -/
def VxD.vl (x : VxD) : Nat := if x.stream then bitsAt (dw x.desc 0) 0 16 + 1 else bitsAt x.op 38 8 + 1
/-- Address word of a stream: 1 destination, 2 to 4 the sources, 7 the mask. -/
def VxD.addr (x : VxD) (i : Nat) : Nat := bitsAt (dw x.desc i) 0 23
/-- Stride in elements: 0 destination, 1 to 3 the sources. -/
def VxD.str (x : VxD) (i : Nat) : Int := signed 16 (bitsAt (dw x.desc (5 + i / 2)) (16 * (i % 2)) 16)

/-- The formats of VX lanes (R99). -/
def vxFmts : List Nat := [9, 8, 6, 7, 10, 5, 0, 1]
/-- The source format of VCVT (R103); in the stream form one of the eight, by a free value. -/
def VxD.srcFmt (x : VxD) : Nat :=
  if x.opc = 0x30 then if x.stream then vxFmts.getD (x.vs3 % 8) 9 else x.vs3 % 16 else x.fmt
/-- Width of source elements. -/
def VxD.ws (x : VxD) : Nat := codeBits x.srcFmt
/-- Width of destination elements: the narrowing forms write 8-bit lanes (R103, R108). -/
def VxD.wd (x : VxD) : Nat := if x.opc = 0x55 ∨ x.opc = 0x5B then 8 else codeBits x.fmt

/-- Opcode classes (R103). -/
def vxIsCmp (o : Nat) : Bool := 0x20 ≤ o && o ≤ 0x26 || o = 0x28
def vxIsRed (o : Nat) : Bool := 0x60 ≤ o && o ≤ 0x66
def vxIsMove (o : Nat) : Bool := 0x70 ≤ o && o ≤ 0x78
def vxIsLoad (o : Nat) : Bool := o = 0x70 || o = 0x72
def vxIsStore (o : Nat) : Bool := o = 0x71 || o = 0x73

/-- Whether the opcode exists and takes the format (R103). -/
def vxLegal (x : VxD) : Bool :=
  let o := x.opc
  let fp := x.fmt = 9 || x.fmt = 8 || x.fmt = 6 || x.fmt = 7
  let int := x.fmt = 5 || x.fmt = 10
  if o ≤ 0x0C || (0x10 ≤ o && o ≤ 0x13) || o = 0x28 || (0x60 ≤ o && o ≤ 0x64) then fp
  else if 0x20 ≤ o && o ≤ 0x27 || (0x43 ≤ o && o ≤ 0x4A) then fp || int
  else if o = 0x30 then vxFmts.contains x.fmt && vxFmts.contains x.srcFmt
  else if o = 0x55 || o = 0x5B then x.fmt = 10
  else if 0x40 ≤ o && o ≤ 0x4D || (0x50 ≤ o && o ≤ 0x54) || o = 0x58 || o = 0x59 || o = 0x5A || o = 0x5C || o = 0x65 || o = 0x66 then int
  else if vxIsMove o then vxFmts.contains x.fmt
  else false

/-- The sources an opcode reads, 2 left out where the scalar takes its place (R101, R103). -/
def VxD.srcs (x : VxD) : List Nat :=
  let o := x.opc
  let l :=
    if vxIsLoad o then []
    else if o = 0x03 ∨ o = 0x04 ∨ o = 0x05 ∨ o = 0x59 then [1, 2, 3]
    else if o = 0x0A ∨ o = 0x0B ∨ o = 0x10 ∨ o = 0x11 ∨ o = 0x13 ∨ o = 0x28 ∨ o = 0x30 ∨ o = 0x46 ∨ o = 0x4D ∨ o = 0x53 ∨ o = 0x54 ∨
      o = 0x55 ∨ vxIsRed o ∨ (vxIsMove o ∧ o ≠ 0x75) then [1]
    else [1, 2]
  if x.useScalar then if o = 0x74 then [] else l.filter (· ≠ 2) else l

/-- Whether the instruction reads a mask stream. -/
def VxD.maskStream (x : VxD) : Bool := x.stream && x.mask ≠ 0

/-- Tile-SRAM byte address of element `e` of source `i` (1 to 3), of the destination (0), or of a load or store. -/
def VxD.elAddr (x : VxD) (i e : Nat) : Int :=
  if vxIsMove x.opc then
    (x.scalar : Int) + (e : Int) * (if x.opc ≥ 0x72 then signed 64 x.stride else 1) * ((x.ws / 8 : Nat) : Int)
  else (x.addr (i + 1) : Int) + (e : Int) * x.str i * (((if i = 0 then x.wd else x.ws) / 8 : Nat) : Int)

/-- The memory the instruction writes: element addresses and size, or the bit vector of a compare. -/
def VxD.dstBytes (x : VxD) : List (Int × Nat) :=
  if vxIsStore x.opc then (List.range x.vl).map (fun e => (x.elAddr 0 e, x.ws / 8))
  else if !x.stream || vxIsRed x.opc then []
  else if vxIsCmp x.opc then [((x.addr 1 : Int), (x.vl + 7) / 8)]
  else (List.range x.vl).map (fun e => (x.elAddr 0 e, x.wd / 8))
/-- The memory it reads: sources, then the mask. -/
def VxD.srcBytes (x : VxD) : List (Int × Nat) :=
  if vxIsLoad x.opc then (List.range x.vl).map (fun e => (x.elAddr 0 e, x.ws / 8))
  else if x.stream then
    x.srcs.flatMap (fun i => (List.range x.vl).map (fun e => (x.elAddr i e, x.ws / 8))) ++
    (if x.maskStream then [((x.addr 7 : Int), (x.vl + 7) / 8)] else [])
  else []

/-- Byte ranges at signed addresses overlap. -/
def bytesMeet (a b : Int × Nat) : Bool := decide (a.1 < b.1 + b.2) && decide (b.1 < a.1 + a.2)

/-- The destination overlaps a source or the mask other than as an exact alias (R116, cause 0x05): by the bytes of each element, so that interleaved strided
streams do not overlap (DESIGN CHOICE, log 194). -/
def vxOverlap (x : VxD) : Bool :=
  x.stream && !vxIsMove x.opc &&
  (x.srcs.any (fun i =>
      !(x.addr (i + 1) = x.addr 1 && x.str i = x.str 0 && x.ws = x.wd && !vxIsCmp x.opc) &&
      x.dstBytes.any (fun d => (List.range x.vl).any (fun e => bytesMeet d (x.elAddr i e, x.ws / 8)))) ||
   (x.maskStream && x.dstBytes.any (fun d => bytesMeet d ((x.addr 7 : Int), (x.vl + 7) / 8))))

/-- A reserved bit of the operation word or of the stream descriptor (R101, R102). -/
def vxReserved (x : VxD) : Bool :=
  bitsAt x.op 51 13 ≠ 0 ||
  (x.stream && (bitsAt x.op 34 2 ≠ 0 || bitsAt x.op 38 8 ≠ 0 || bitsAt (dw x.desc 0) 16 16 ≠ 0 ||
    bitsAt (dw x.desc 1) 23 9 ≠ 0 || bitsAt (dw x.desc 2) 23 9 ≠ 0 || bitsAt (dw x.desc 3) 23 9 ≠ 0 ||
    bitsAt (dw x.desc 4) 23 9 ≠ 0 || bitsAt (dw x.desc 7) 23 9 ≠ 0))

/-- The acceptance checks in the order of R143 (R116). The bit vector of a stream compare needs no alignment, and an element below byte 0 is cause 0x04
(DESIGN CHOICE, log 194). -/
def vxChecks (ue : Bool) (x : VxD) : List (Bool × Nat) :=
  let bad := fun (c : Int × Nat) => c.1 < 0 || c.1 + (c.2 : Int) > (sramEnd : Int)
  [(x.stream && x.descAddr + 32 > sramEnd, 4), (x.stream && ue, 6), (!vxLegal x, 1),
   (vxReserved x || (!x.stream && x.vl > 2048 / codeBits x.fmt) || (x.stream && (x.str 0 = 0 || vxIsMove x.opc)), 2),
   ((x.stream && ((!vxIsRed x.opc && !vxIsCmp x.opc && x.addr 1 % (x.wd / 8) ≠ 0) ||
       x.srcs.any (fun i => x.addr (i + 1) % (x.ws / 8) ≠ 0) || (x.maskStream && x.addr 7 % 16 ≠ 0))) ||
     ((x.opc = 0x70 || x.opc = 0x71) && x.scalar % 128 ≠ 0) || ((x.opc = 0x72 || x.opc = 0x73) && x.scalar % (x.ws / 8) ≠ 0), 3),
   (x.dstBytes.any bad || x.srcBytes.any bad, 4), (vxOverlap x, 5)]

/-- VX_CFG as it acts. -/
def vxCfg (p : Nat) (s : State) : Word :=
  BitVec.ofNat 32 (effReg (tileBase p) R.VX_CFG_SAT R.VX_CFG_LEVEL [R.VX_CFG_SAT, R.VX_CFG_TRAP_EN, R.VX_CFG_FLAG_SUM_EN] s)
/-- The 32 bytes of a stream descriptor, 0 for the register form. -/
def vxDesc (p : Nat) (x : EngIns) (s : State) : Nat :=
  if bitAt x.p.toNat 12 then tileReadN p (32 * bitsAt x.p.toNat 16 18) 32 s else 0

/-- VX_ACCEPT (R116, R131). -/
def vxAccept (p : Nat) (ue : Bool) (ce : Nat) (s : State) : State :=
  let s := acceptCe (kVx p) 8 (fun x => let d := vxD x 0; d.stream && decide (d.descAddr + 32 ≤ sramEnd)) (tileBase p) R.VX_CE_COUNT_COUNT ce s
  accept (kVx p) 8 (fun x => vxChecks (ue || tileMarked p (32 * bitsAt x.p.toNat 16 18) 32 s) (vxD x (vxDesc p x s))) (fun _ => vxCfg p s) (fun x => vxDesc p x s) s

/-! ### Elements -/

/-- What one run of an instruction reads: the tile, the fields, the state before it, VS1 as it was when the instruction began,
the sampled SAT, and the bad bytes ECC reported. -/
structure VxEnv where
  p : Nat
  x : VxD
  s : State
  v1 : BitVec 2048
  sat : Bool
  bad : List Nat

/-- Source `i` of element `e`. -/
def VxEnv.src (v : VxEnv) (i e : Nat) : Nat :=
  let w := v.x.ws
  if i = 2 ∧ v.x.useScalar then v.x.scalar % 2 ^ w
  else if v.x.stream then tileReadN v.p (v.x.elAddr i e).toNat (w / 8) v.s
  else
    let r := if i = 1 then v.v1 else getV v.p (v.x.vs i) v.s
    if (e + 1) * w ≤ 2048 then bitsAt r.toNat (e * w) w else Config.freeResult 24 (e + 2 ^ 16 * v.x.op) % 2 ^ w

/-- The mask bit of element `e` (R101). -/
def VxEnv.maskBit (v : VxEnv) (e : Nat) : Bool :=
  if v.x.stream then v.x.mask = 0 || bitAt (tileReadN v.p (v.x.addr 7 + e / 8) 1 v.s) (e % 8)
  else bitAt (getM v.p v.x.mask v.s).toNat e
/-- Whether element `e` is active (R104); VSEL uses the mask to choose its source. -/
def VxEnv.active (v : VxEnv) (e : Nat) : Bool := v.x.opc = 0x27 || v.maskBit e

/-- Whether element `e` uses bad byte `a` of tile SRAM, or a bad register 0x7FFF00 + n (R128). -/
def VxEnv.usesBad (v : VxEnv) (e a : Nat) : Bool :=
  let inEl := fun (c : Int) (n : Nat) => decide (c ≤ (a : Int)) && decide ((a : Int) < c + n)
  (vxIsLoad v.x.opc && inEl (v.x.elAddr 0 e) (v.x.ws / 8)) ||
  (v.x.stream && v.x.srcs.any (fun i => inEl (v.x.elAddr i e) (v.x.ws / 8))) ||
  (v.x.maskStream && a = v.x.addr 7 + e / 8) ||
  (!v.x.stream && v.x.srcs.any (fun i => a = 0x7FFF00 + v.x.vs i))

/-- What a result with bad data becomes: the canonical NaN, or the most negative value (R128). -/
def badResult (fmt w : Nat) : Nat :=
  match fmtOf fmt with
  | some f => nanOf f
  | none => 2 ^ (w - 1)

/-- The result of element `e` of an element-wise instruction or of a data movement, and its flags (R103 to R108). For the slides the
spec states no distance: the distance and the lanes left open are free values that depend on the operation word (DESIGN CHOICE, log 194). VBCAST without a
scalar operand takes lane 0 of VS1 (DESIGN CHOICE, log 194). -/
def VxEnv.value (v : VxEnv) (e : Nat) : Nat × Nat :=
  let x := v.x
  let o := x.opc
  let a := v.src 1 e
  let b := v.src 2 e
  let f := (fmtOf x.fmt).getD fp64
  let n := 2048 / x.ws
  if o ≤ 0x13 then elemFp o x.rm f a b (v.src 3 e)
  else if o ≤ 0x26 then
    match fmtOf x.fmt with
    | some f => let r := cmpFp o f a b; (b2n r.1, r.2)
    | none => (b2n (cmpInt o x.ws a b), 0)
  else if o = 0x27 then (if v.maskBit e then a else b, 0)
  else if o = 0x28 then (b2n (classBits f a &&& x.vs3 ≠ 0), 0)
  else if o = 0x30 then convert v.sat x.srcFmt x.fmt a
  else if o ≤ 0x5C then elemInt o x.rm x.ws a b (v.src 3 e)
  else if vxIsLoad o then (tileReadN v.p (x.elAddr 0 e).toNat (x.ws / 8) v.s, 0)
  else if o = 0x74 then (if x.useScalar then x.scalar % 2 ^ x.ws else v.src 1 0, 0)
  else if o = 0x75 then (v.src 2 (a % n), 0)
  else if o = 0x76 then
    let d := Config.freeResult 22 x.op
    (if d ≤ e then v.src 1 (e - d) else Config.freeResult 25 (e + 2 ^ 16 * x.op) % 2 ^ x.ws, 0)
  else if o = 0x77 then
    let d := Config.freeResult 22 x.op
    (if e + d < n then v.src 1 (e + d) else Config.freeResult 25 (e + 2 ^ 16 * x.op) % 2 ^ x.ws, 0)
  else (a, 0)

/-- The result with bad data taken into account; a mask bit has no NaN, so it is a free value. -/
def VxEnv.result (v : VxEnv) (e : Nat) : Nat × Nat :=
  if v.bad.any (fun a => v.usesBad e a) then
    if vxIsCmp v.x.opc then (Config.freeResult 23 (e + 2 ^ 16 * v.x.op) % 2, 0)
    else (badResult v.x.fmt v.x.wd % 2 ^ v.x.wd, 0)
  else v.value e

/-- Write the result of element `e`. -/
def vxPut (p : Nat) (x : VxD) (e r : Nat) (s : State) : State :=
  if vxIsStore x.opc then tileWriteN p (x.elAddr 0 e).toNat (x.ws / 8) r s
  else if x.stream then
    if vxIsCmp x.opc then
      let a := x.addr 1 + e / 8
      tileWriteN p a 1 (putBits (tileReadN p a 1 s) (e % 8) 1 r) s
    else tileWriteN p (x.elAddr 0 e).toNat (x.wd / 8) r s
  else if vxIsCmp x.opc then
    setM p (x.vd % 8) (BitVec.ofNat 256 (putBits (getM p (x.vd % 8) s).toNat e 1 r)) s
  else setV p x.vd (BitVec.ofNat 2048 (putBits (getV p x.vd s).toNat (e * x.wd) x.wd r)) s

/-- Whether a written result counts in the summary (R111). -/
def vxCounts (x : VxD) (r fl : Nat) : Bool :=
  if vxIsMove x.opc then false
  else if vxIsCmp x.opc then r = 1
  else bitAt fl 4 || (match fmtOf x.fmt with
    | some f => (decodeF f r).special
    | none => false)

/-- What a run gathers: the state, all flags, flags not yet in VX_STATUS, COUNT, FIRST, and where it trapped. -/
structure VxAcc where
  s : State
  flags : Nat
  pend : Nat
  count : Nat
  first : Nat
  stop : Option (Nat × Nat)

/-- Elements in ascending order until one traps (R104, R112); element `masked` does not trap. -/
def vxGo (v : VxEnv) (trapEn : Nat) (masked : Option Nat) : List Nat → VxAcc → VxAcc
  | [], a => a
  | e :: es, a =>
    if v.active e then
      let r := v.result e
      if r.2 % 16 &&& trapEn ≠ 0 ∧ masked ≠ some e then { a with stop := some (e, r.2) }
      else
        let hit := vxCounts v.x r.1 r.2
        vxGo v trapEn masked es ⟨vxPut v.p v.x e r.1 a.s, a.flags ||| r.2, a.pend ||| r.2, if hit then a.count + 1 else a.count,
          if hit then min a.first e else a.first, none⟩
    else vxGo v trapEn masked es a

/-- Set VX_STATUS flags. -/
def vxFlags (p fl : Nat) (s : State) : State :=
  setFlags (tileBase p) fl [(0, R.VX_STATUS_NV), (1, R.VX_STATUS_OF), (2, R.VX_STATUS_UF), (3, R.VX_STATUS_NX), (4, R.VX_STATUS_SATD)] s

/-- Run the elements `es` of the front instruction; a trap stops the VX (R112), the end makes it ready to complete. -/
def vxElems (p : Nat) (v1 : BitVec 2048) (masked : Option Nat) (bad : List Nat) (es : List Nat) (e : EngIns) (s : State) : State :=
  let x := vxD e e.desc
  let b := tileBase p
  let v : VxEnv := ⟨p, x, s, v1, bitAt e.cfg.toNat 0, bad⟩
  let trapEn := if vxIsMove x.opc then 0 else bitsAt e.cfg.toNat 1 4
  let a := vxGo v trapEn masked es ⟨s, e.flags, e.digest, e.count, e.first, none⟩
  let e := { e with flags := a.flags, digest := a.pend, count := a.count, first := a.first }
  match a.stop with
  | none => setHead (kVx p) { e with phase := 1 } a.s
  | some (j, fl) =>
    let s := setHead (kVx p) { e with digest := 0, trap := true } (vxFlags p a.pend a.s)
    let s := setF b R.VX_EXC_INDEX j (setF b R.VX_EXC_FLAGS fl (setF b R.VX_EXC_TAG (e.tag.toNat % 256) (setF b R.VX_EXC_VALID 1
      (setF b R.VX_STATUS_TRAPPED 1 s))))
    setEng (kVx p) { getEng (kVx p) s with trap := some ⟨j, fl, v1, bad, false⟩ } s

/-- A reduction (R109): the value, the flags and the count of NaN and infinite inputs. With bad data the most negative lane value enters the 64-bit sum of
VRISUM as a number and the VALUE of VRIMAX zero-extended (R111, R128). -/
def vxReduce (p : Nat) (bad : List Nat) (e : EngIns) (s : State) : State :=
  let x := vxD e e.desc
  let v : VxEnv := ⟨p, x, s, getV p (x.vs 1) s, false, bad⟩
  let xs := (List.range x.vl).map (fun i => if v.active i then some (v.src 1 i) else none)
  let r := reduce x.opc x.fmt (2048 / x.ws) xs
  let spec := (List.range x.vl).filter (fun i => v.active i && (match fmtOf x.fmt with
    | some f => (decodeF f (v.src 1 i)).special
    | none => false))
  let isBad := (List.range x.vl).any (fun i => v.active i && bad.any (fun a => v.usesBad i a))
  let val := if isBad then
      if x.opc = 0x65 then wrap 64 (signed x.ws (2 ^ (x.ws - 1))) else if x.opc = 0x66 then 2 ^ (x.ws - 1) else nanOf (accFmt x.fmt)
    else r.1
  let fl := if isBad then 0 else r.2
  setHead (kVx p) { e with phase := 1, value := val, flags := fl, digest := fl, count := spec.length, first := spec.headD 0x1FFFFFF } s

/-- Record the bad data the instruction used (R128). -/
def vxUe (p : Nat) (bad : List Nat) (e : EngIns) (s : State) : State :=
  let b := tileBase p
  engUe b R.VX_ERR_UE R.VX_ERR_UE_COUNT R.VX_ERR_LAST_TAG R.VX_UE_ADDR_VALID (fun a => setF b R.VX_UE_ADDR_ADDR a)
    (fun a => raise (0x3000 + p) 0x20 2 (p + a * 2 ^ 16 + 2 ^ 48) 0) e.tag bad s

/-- Opcode `op` executes at the front of the VX of tile `p`. -/
def vxRun (op p : Nat) (ecc : Ecc) (s : State) : State :=
  match engHead (kVx p) s with
  | none => s
  | some e =>
    let x := vxD e e.desc
    if x.opc ≠ op ∨ e.phase ≠ 0 ∨ (getEng (kVx p) s).trap.isSome then s
    else
      let v : VxEnv := ⟨p, x, s, 0, false, []⟩
      let used := fun (l : List Nat) => l.filter (fun a => (List.range x.vl).any (fun i => v.active i && v.usesBad i a))
      let bad := used (ecc.bad ++ tileMarks p s)
      let s1 := bumpF (tileBase p) R.VX_CE_COUNT_COUNT ecc.corrected (vxUe p (used ecc.bad ++ lineFirsts (used (tileMarks p s))) e s)
      let e := { e with ue := !bad.isEmpty, first := 0x1FFFFFF }
      if vxIsRed op then vxReduce p bad e s1
      else vxElems p (getV p (x.vs 1) s) none bad (List.range x.vl) e s1

/-- A resume of a trapped VX (R113); modes 0b00 to 0b10. Mode 0b01 of a compare writes bit 0 of VX_FIX as the mask bit (DESIGN CHOICE, log 194). -/
def vxResume (p mode : Nat) (s : State) : State :=
  let g := getEng (kVx p) s
  match g.trap, g.queue with
  | some t, e :: _ =>
    if mode ≥ 3 then s
    else
      let b := tileBase p
      let x := vxD e e.desc
      let s := setF b R.VX_EXC_VALID 0 (setF b R.VX_STATUS_TRAPPED 0 (setEng (kVx p) { g with trap := none } s))
      if mode = 0 then vxElems p t.src (some t.index) t.bad ((List.range x.vl).drop t.index) e s
      else if mode = 1 then
        let r := getPair b R.VX_FIX_LO_VALUE R.VX_FIX_HI_VALUE s % 2 ^ (if vxIsCmp x.opc then 1 else x.wd)
        let hit := vxCounts x r 0
        let e := { e with count := if hit then e.count + 1 else e.count, first := if hit then min e.first t.index else e.first }
        vxElems p t.src none t.bad ((List.range x.vl).drop (t.index + 1)) e (vxPut p x t.index r s)
      else setHead (kVx p) { e with phase := 1 } s
  | _, _ => s

/-- VX_COMPLETE: flags, FLAG_COUNT, LAST_TAG and the summary, if enabled (R111). -/
def vxComplete (p : Nat) (s : State) : State :=
  match engHead (kVx p) s with
  | none => s
  | some e =>
    let b := tileBase p
    if e.phase = 0 then s
    else
      let s := vxFlags p e.digest s
      let s := if e.flags &&& 19 ≠ 0 then
          setF b R.VX_STATUS_LAST_TAG (e.tag.toNat % 256) (bumpF b R.VX_STATUS_FLAG_COUNT 1 s) else s
      let mark := decide (e.flags % 16 &&& bitsAt e.cfg.toNat 5 4 ≠ 0)
      engComplete (kVx p) (mkSummary e.value e.count (if e.first = 0x1FFFFFF then none else some e.first) e.flags mark e.trap e.ue) s

/-- VX_RESTORE (R130). -/
def vxRestore (path : Path) (p : Nat) (v : Word) (s : State) : State :=
  restoreStatus path (tileBase p + 0x158) (tileBase p) [R.VX_STATUS_NV, R.VX_STATUS_OF, R.VX_STATUS_UF, R.VX_STATUS_NX, R.VX_STATUS_SATD,
    R.VX_STATUS_FLAG_COUNT, R.VX_STATUS_LAST_TAG] v.toNat s

/-- A write of the register-file windows while FROZEN: masks at + 0x1000, registers at + 0x2000 (R130). -/
def vxWindow (path : Path) (p off : Nat) (v : Word) (s : State) : State :=
  if s.pkg ≠ .frozen then rejectWrite path (tileBase p + off) v.toNat s
  else if 0x1000 ≤ off ∧ off < 0x1100 then
    let m := (off - 0x1000) / 32
    setM p m (BitVec.ofNat 256 (putBits (getM p m s).toNat (off % 32 / 4 * 32) 32 v.toNat)) s
  else if 0x2000 ≤ off then
    let n := (off - 0x2000) / 0x100 % 32
    setV p n (BitVec.ofNat 2048 (putBits (getV p n s).toNat (off % 0x100 / 4 * 32) 32 v.toNat)) s
  else s

/-- What the register-file windows read: 0 outside FROZEN (R130). -/
def vxWindowRead (p off : Nat) (s : State) : Nat :=
  if s.pkg ≠ .frozen then 0
  else if 0x1000 ≤ off ∧ off < 0x1100 then bitsAt (getM p ((off - 0x1000) / 32) s).toNat (off % 32 / 4 * 32) 32
  else if 0x2000 ≤ off then bitsAt (getV p ((off - 0x2000) / 0x100 % 32) s).toNat (off % 0x100 / 4 * 32) 32
  else 0

/-- VADD, OPC 0x00 (R103). -/
def execVadd (t : Fin 288) (ecc : Ecc) (s : State) : Host.Outcome State Fault Refusal :=
  .next (vxRun 0x00 t ecc s)

/-- VSUB, OPC 0x01 (R103). -/
def execVsub (t : Fin 288) (ecc : Ecc) (s : State) : Host.Outcome State Fault Refusal :=
  .next (vxRun 0x01 t ecc s)

/-- VMUL, OPC 0x02 (R103). -/
def execVmul (t : Fin 288) (ecc : Ecc) (s : State) : Host.Outcome State Fault Refusal :=
  .next (vxRun 0x02 t ecc s)

/-- VFMA, OPC 0x03 (R103). -/
def execVfma (t : Fin 288) (ecc : Ecc) (s : State) : Host.Outcome State Fault Refusal :=
  .next (vxRun 0x03 t ecc s)

/-- VFMS, OPC 0x04 (R103). -/
def execVfms (t : Fin 288) (ecc : Ecc) (s : State) : Host.Outcome State Fault Refusal :=
  .next (vxRun 0x04 t ecc s)

/-- VFNMA, OPC 0x05 (R103). -/
def execVfnma (t : Fin 288) (ecc : Ecc) (s : State) : Host.Outcome State Fault Refusal :=
  .next (vxRun 0x05 t ecc s)

/-- VMIN, OPC 0x06 (R61). -/
def execVmin (t : Fin 288) (ecc : Ecc) (s : State) : Host.Outcome State Fault Refusal :=
  .next (vxRun 0x06 t ecc s)

/-- VMAX, OPC 0x07 (R61). -/
def execVmax (t : Fin 288) (ecc : Ecc) (s : State) : Host.Outcome State Fault Refusal :=
  .next (vxRun 0x07 t ecc s)

/-- VMINNUM, OPC 0x08 (R61). -/
def execVminnum (t : Fin 288) (ecc : Ecc) (s : State) : Host.Outcome State Fault Refusal :=
  .next (vxRun 0x08 t ecc s)

/-- VMAXNUM, OPC 0x09 (R61). -/
def execVmaxnum (t : Fin 288) (ecc : Ecc) (s : State) : Host.Outcome State Fault Refusal :=
  .next (vxRun 0x09 t ecc s)

/-- VABS, OPC 0x0A (R103). -/
def execVabs (t : Fin 288) (ecc : Ecc) (s : State) : Host.Outcome State Fault Refusal :=
  .next (vxRun 0x0A t ecc s)

/-- VNEG, OPC 0x0B (R103). -/
def execVneg (t : Fin 288) (ecc : Ecc) (s : State) : Host.Outcome State Fault Refusal :=
  .next (vxRun 0x0B t ecc s)

/-- VCOPYSIGN, OPC 0x0C (R103). -/
def execVcopysign (t : Fin 288) (ecc : Ecc) (s : State) : Host.Outcome State Fault Refusal :=
  .next (vxRun 0x0C t ecc s)

/-- VGETEXP, OPC 0x10 (R106). -/
def execVgetexp (t : Fin 288) (ecc : Ecc) (s : State) : Host.Outcome State Fault Refusal :=
  .next (vxRun 0x10 t ecc s)

/-- VGETMANT, OPC 0x11 (R106). -/
def execVgetmant (t : Fin 288) (ecc : Ecc) (s : State) : Host.Outcome State Fault Refusal :=
  .next (vxRun 0x11 t ecc s)

/-- VSCALE, OPC 0x12 (R106). -/
def execVscale (t : Fin 288) (ecc : Ecc) (s : State) : Host.Outcome State Fault Refusal :=
  .next (vxRun 0x12 t ecc s)

/-- VROUNDI, OPC 0x13 (R106). -/
def execVroundi (t : Fin 288) (ecc : Ecc) (s : State) : Host.Outcome State Fault Refusal :=
  .next (vxRun 0x13 t ecc s)

/-- VCMPEQ, OPC 0x20 (R60). -/
def execVcmpeq (t : Fin 288) (ecc : Ecc) (s : State) : Host.Outcome State Fault Refusal :=
  .next (vxRun 0x20 t ecc s)

/-- VCMPNE, OPC 0x21 (R60). -/
def execVcmpne (t : Fin 288) (ecc : Ecc) (s : State) : Host.Outcome State Fault Refusal :=
  .next (vxRun 0x21 t ecc s)

/-- VCMPLT, OPC 0x22 (R60). -/
def execVcmplt (t : Fin 288) (ecc : Ecc) (s : State) : Host.Outcome State Fault Refusal :=
  .next (vxRun 0x22 t ecc s)

/-- VCMPLE, OPC 0x23 (R60). -/
def execVcmple (t : Fin 288) (ecc : Ecc) (s : State) : Host.Outcome State Fault Refusal :=
  .next (vxRun 0x23 t ecc s)

/-- VCMPGT, OPC 0x24 (R60). -/
def execVcmpgt (t : Fin 288) (ecc : Ecc) (s : State) : Host.Outcome State Fault Refusal :=
  .next (vxRun 0x24 t ecc s)

/-- VCMPGE, OPC 0x25 (R60). -/
def execVcmpge (t : Fin 288) (ecc : Ecc) (s : State) : Host.Outcome State Fault Refusal :=
  .next (vxRun 0x25 t ecc s)

/-- VCMPUN, OPC 0x26 (R60). -/
def execVcmpun (t : Fin 288) (ecc : Ecc) (s : State) : Host.Outcome State Fault Refusal :=
  .next (vxRun 0x26 t ecc s)

/-- VSEL, OPC 0x27 (R103). -/
def execVsel (t : Fin 288) (ecc : Ecc) (s : State) : Host.Outcome State Fault Refusal :=
  .next (vxRun 0x27 t ecc s)

/-- VCLASS, OPC 0x28 (R103). -/
def execVclass (t : Fin 288) (ecc : Ecc) (s : State) : Host.Outcome State Fault Refusal :=
  .next (vxRun 0x28 t ecc s)

/-- VCVT, OPC 0x30 (R62, R107). -/
def execVcvt (t : Fin 288) (ecc : Ecc) (s : State) : Host.Outcome State Fault Refusal :=
  .next (vxRun 0x30 t ecc s)

/-- VIADD, OPC 0x40 (R103). -/
def execViadd (t : Fin 288) (ecc : Ecc) (s : State) : Host.Outcome State Fault Refusal :=
  .next (vxRun 0x40 t ecc s)

/-- VISUB, OPC 0x41 (R103). -/
def execVisub (t : Fin 288) (ecc : Ecc) (s : State) : Host.Outcome State Fault Refusal :=
  .next (vxRun 0x41 t ecc s)

/-- VIMUL, OPC 0x42 (R103). -/
def execVimul (t : Fin 288) (ecc : Ecc) (s : State) : Host.Outcome State Fault Refusal :=
  .next (vxRun 0x42 t ecc s)

/-- VAND, OPC 0x43 (R103). -/
def execVand (t : Fin 288) (ecc : Ecc) (s : State) : Host.Outcome State Fault Refusal :=
  .next (vxRun 0x43 t ecc s)

/-- VOR, OPC 0x44 (R103). -/
def execVor (t : Fin 288) (ecc : Ecc) (s : State) : Host.Outcome State Fault Refusal :=
  .next (vxRun 0x44 t ecc s)

/-- VXOR, OPC 0x45 (R103). -/
def execVxor (t : Fin 288) (ecc : Ecc) (s : State) : Host.Outcome State Fault Refusal :=
  .next (vxRun 0x45 t ecc s)

/-- VNOT, OPC 0x46 (R103). -/
def execVnot (t : Fin 288) (ecc : Ecc) (s : State) : Host.Outcome State Fault Refusal :=
  .next (vxRun 0x46 t ecc s)

/-- VSHL, OPC 0x47 (R103). -/
def execVshl (t : Fin 288) (ecc : Ecc) (s : State) : Host.Outcome State Fault Refusal :=
  .next (vxRun 0x47 t ecc s)

/-- VSHRL, OPC 0x48 (R103). -/
def execVshrl (t : Fin 288) (ecc : Ecc) (s : State) : Host.Outcome State Fault Refusal :=
  .next (vxRun 0x48 t ecc s)

/-- VSHRA, OPC 0x49 (R103). -/
def execVshra (t : Fin 288) (ecc : Ecc) (s : State) : Host.Outcome State Fault Refusal :=
  .next (vxRun 0x49 t ecc s)

/-- VROTL, OPC 0x4A (R103). -/
def execVrotl (t : Fin 288) (ecc : Ecc) (s : State) : Host.Outcome State Fault Refusal :=
  .next (vxRun 0x4A t ecc s)

/-- VIMIN, OPC 0x4B (R103). -/
def execVimin (t : Fin 288) (ecc : Ecc) (s : State) : Host.Outcome State Fault Refusal :=
  .next (vxRun 0x4B t ecc s)

/-- VIMAX, OPC 0x4C (R103). -/
def execVimax (t : Fin 288) (ecc : Ecc) (s : State) : Host.Outcome State Fault Refusal :=
  .next (vxRun 0x4C t ecc s)

/-- VIABS, OPC 0x4D (R103). -/
def execViabs (t : Fin 288) (ecc : Ecc) (s : State) : Host.Outcome State Fault Refusal :=
  .next (vxRun 0x4D t ecc s)

/-- VSADD, OPC 0x50 (R108). -/
def execVsadd (t : Fin 288) (ecc : Ecc) (s : State) : Host.Outcome State Fault Refusal :=
  .next (vxRun 0x50 t ecc s)

/-- VSSUB, OPC 0x51 (R108). -/
def execVssub (t : Fin 288) (ecc : Ecc) (s : State) : Host.Outcome State Fault Refusal :=
  .next (vxRun 0x51 t ecc s)

/-- VSMUL, OPC 0x52 (R108). -/
def execVsmul (t : Fin 288) (ecc : Ecc) (s : State) : Host.Outcome State Fault Refusal :=
  .next (vxRun 0x52 t ecc s)

/-- VSABS, OPC 0x53 (R108). -/
def execVsabs (t : Fin 288) (ecc : Ecc) (s : State) : Host.Outcome State Fault Refusal :=
  .next (vxRun 0x53 t ecc s)

/-- VSNEG, OPC 0x54 (R108). -/
def execVsneg (t : Fin 288) (ecc : Ecc) (s : State) : Host.Outcome State Fault Refusal :=
  .next (vxRun 0x54 t ecc s)

/-- VSNARROW, OPC 0x55 (R108). -/
def execVsnarrow (t : Fin 288) (ecc : Ecc) (s : State) : Host.Outcome State Fault Refusal :=
  .next (vxRun 0x55 t ecc s)

/-- VQMULH, OPC 0x58 (R108). -/
def execVqmulh (t : Fin 288) (ecc : Ecc) (s : State) : Host.Outcome State Fault Refusal :=
  .next (vxRun 0x58 t ecc s)

/-- VQRDMLAH, OPC 0x59 (R108). -/
def execVqrdmlah (t : Fin 288) (ecc : Ecc) (s : State) : Host.Outcome State Fault Refusal :=
  .next (vxRun 0x59 t ecc s)

/-- VQRSHR, OPC 0x5A (R108). -/
def execVqrshr (t : Fin 288) (ecc : Ecc) (s : State) : Host.Outcome State Fault Refusal :=
  .next (vxRun 0x5A t ecc s)

/-- VQRSHRN, OPC 0x5B (R108). -/
def execVqrshrn (t : Fin 288) (ecc : Ecc) (s : State) : Host.Outcome State Fault Refusal :=
  .next (vxRun 0x5B t ecc s)

/-- VQAVG, OPC 0x5C (R108). -/
def execVqavg (t : Fin 288) (ecc : Ecc) (s : State) : Host.Outcome State Fault Refusal :=
  .next (vxRun 0x5C t ecc s)

/-- VRSUM, OPC 0x60 (R109). -/
def execVrsum (t : Fin 288) (ecc : Ecc) (s : State) : Host.Outcome State Fault Refusal :=
  .next (vxRun 0x60 t ecc s)

/-- VRSUMSQ, OPC 0x61 (R109). -/
def execVrsumsq (t : Fin 288) (ecc : Ecc) (s : State) : Host.Outcome State Fault Refusal :=
  .next (vxRun 0x61 t ecc s)

/-- VRMAX, OPC 0x62 (R109). -/
def execVrmax (t : Fin 288) (ecc : Ecc) (s : State) : Host.Outcome State Fault Refusal :=
  .next (vxRun 0x62 t ecc s)

/-- VRMIN, OPC 0x63 (R109). -/
def execVrmin (t : Fin 288) (ecc : Ecc) (s : State) : Host.Outcome State Fault Refusal :=
  .next (vxRun 0x63 t ecc s)

/-- VRMAXABS, OPC 0x64 (R109). -/
def execVrmaxabs (t : Fin 288) (ecc : Ecc) (s : State) : Host.Outcome State Fault Refusal :=
  .next (vxRun 0x64 t ecc s)

/-- VRISUM, OPC 0x65 (R109). -/
def execVrisum (t : Fin 288) (ecc : Ecc) (s : State) : Host.Outcome State Fault Refusal :=
  .next (vxRun 0x65 t ecc s)

/-- VRIMAX, OPC 0x66 (R109). -/
def execVrimax (t : Fin 288) (ecc : Ecc) (s : State) : Host.Outcome State Fault Refusal :=
  .next (vxRun 0x66 t ecc s)

/-- VLD, OPC 0x70 (R104). -/
def execVld (t : Fin 288) (ecc : Ecc) (s : State) : Host.Outcome State Fault Refusal :=
  .next (vxRun 0x70 t ecc s)

/-- VST, OPC 0x71 (R104). -/
def execVst (t : Fin 288) (ecc : Ecc) (s : State) : Host.Outcome State Fault Refusal :=
  .next (vxRun 0x71 t ecc s)

/-- VLDS, OPC 0x72 (R104). -/
def execVlds (t : Fin 288) (ecc : Ecc) (s : State) : Host.Outcome State Fault Refusal :=
  .next (vxRun 0x72 t ecc s)

/-- VSTS, OPC 0x73 (R104). -/
def execVsts (t : Fin 288) (ecc : Ecc) (s : State) : Host.Outcome State Fault Refusal :=
  .next (vxRun 0x73 t ecc s)

/-- VBCAST, OPC 0x74 (R103). -/
def execVbcast (t : Fin 288) (ecc : Ecc) (s : State) : Host.Outcome State Fault Refusal :=
  .next (vxRun 0x74 t ecc s)

/-- VPERM, OPC 0x75 (R103). -/
def execVperm (t : Fin 288) (ecc : Ecc) (s : State) : Host.Outcome State Fault Refusal :=
  .next (vxRun 0x75 t ecc s)

/-- VSLIDEUP, OPC 0x76 (R103). -/
def execVslideup (t : Fin 288) (ecc : Ecc) (s : State) : Host.Outcome State Fault Refusal :=
  .next (vxRun 0x76 t ecc s)

/-- VSLIDEDN, OPC 0x77 (R103). -/
def execVslidedn (t : Fin 288) (ecc : Ecc) (s : State) : Host.Outcome State Fault Refusal :=
  .next (vxRun 0x77 t ecc s)

/-- VMV, OPC 0x78 (R103). -/
def execVmv (t : Fin 288) (ecc : Ecc) (s : State) : Host.Outcome State Fault Refusal :=
  .next (vxRun 0x78 t ecc s)

/-- VX_ACCEPT (R116). -/
def execVxAccept (t : Fin 288) (ecc : DescEcc) (s : State) : Host.Outcome State Fault Refusal :=
  .next (vxAccept t ecc.ue ecc.ce s)

/-- VX_RESUME_RECOMPUTE, mode 0b00 (R113). -/
def execVxResumeRecompute (t : Fin 288) (s : State) : Host.Outcome State Fault Refusal :=
  .next (vxResume t 0 s)

/-- VX_RESUME_FIX, mode 0b01 (R113). -/
def execVxResumeFix (t : Fin 288) (s : State) : Host.Outcome State Fault Refusal :=
  .next (vxResume t 1 s)

/-- VX_RESUME_END, mode 0b10 (R113). -/
def execVxResumeEnd (t : Fin 288) (s : State) : Host.Outcome State Fault Refusal :=
  .next (vxResume t 2 s)

/-- VX_COMPLETE (R111). -/
def execVxComplete (t : Fin 288) (s : State) : Host.Outcome State Fault Refusal :=
  .next (vxComplete t s)

/-- VX_RESTORE (R130). -/
def execVxRestore (path : Path) (t : Fin 288) (val : Word) (s : State) : Host.Outcome State Fault Refusal :=
  .next (vxRestore path t val s)

/-- VX_REGFILE_WINDOW (R130). -/
def execVxRegfileWindow (path : Path) (t : Fin 288) (off : BitVec 14) (val : Word) (s : State) : Host.Outcome State Fault Refusal :=
  .next (vxWindow path t off.toNat val s)

end Sys2Proof.Machine
end

