-- ==== Sys2Proof/Machine/Issue.lean ====
section
/-! DEFINITION. Issuing work (R141 to R144), cluster start (R160), and the state windows of a core (R490). -/

namespace Sys2Proof.Machine

/-! ### Fields of ISSUE (R141); `w` holds bits [23:0] -/

def iTile (w : BitVec 24) : Nat := bitsAt w.toNat 21 3
def iD (w : BitVec 24) : Nat := bitsAt w.toNat 16 5
def iP (w : BitVec 24) : Nat := bitsAt w.toNat 11 5
def iQ (w : BitVec 24) : Nat := bitsAt w.toNat 6 5
def iSum (w : BitVec 24) : Nat := bitsAt w.toNat 3 3
def iMse (w : BitVec 24) : Bool := bitAt w.toNat 2

/-- Whether an ISSUE of a kind is legal on core `c` (R137, R141): the reserved bits, TILE on a kind that takes 0, and who may issue it. -/
def issueLegal (kind c : Nat) (w : BitVec 24) : Bool :=
  bitsAt w.toNat 0 2 = 0 && (kind = 0 || !iMse w) && (kind ≤ 2 || kind = 8 || iTile w = 0) &&
    (if kind ≤ 6 then decide (c < 36) else kind = 9 || decide (36 ≤ c))

/-- The summary register an ISSUE names (R141): by MSE, by the VX operation word, or always. -/
def issueSum (kind : Nat) (w : BitVec 24) (p : Nat) : Option Nat :=
  if kind = 0 then if iMse w then some (iSum w) else none
  else if kind = 1 then if bitAt p 46 then some (bitsAt p 47 3) else none
  else if kind = 3 ∨ kind = 4 ∨ kind = 5 ∨ kind = 6 ∨ kind = 9 then some (iSum w)
  else none

/-- The bookkeeping of every ISSUE (R142): g[D] receives the tag, TAG is incremented, SEQ_ISSUED counts, the summary register is pending. -/
def issueRetire (c : Nat) (w : BitVec 24) (out : Option OutIns) (k : Core) (s : State) : State :=
  let k := match out with
    | some o => { k with out := k.out ++ [o], sPend := match o.sum with
        | some r => r :: k.sPend
        | none => k.sPend }
    | none => k
  let tag := k.tag
  let s := addPair (seqBase c) R.SEQ_ISSUED_LO_VALUE R.SEQ_ISSUED_HI_VALUE 1 s
  retire c (setG (iD w) (tag.zeroExtend 64) { k with tag := tag + 1 }) s

/-- Whether an ISSUE stalls: the target's queue is full (R143), or a contribution names a third header (R167). -/
def issueStalls (kind c key p : Nat) (s : State) : Bool :=
  decide ((getEng key s).cross.length + (getEng key s).queue.length ≥ queueCap kind) || (kind = 6 && !dspTakes (c / 9) c p s)

/-- An ISSUE to a queue: it stalls, or the instruction enters its crossing to the engine (R143, R144, R167). -/
def issueTo (kind : Nat) (c : Nat) (w : BitVec 24) (k : Core) (s : State) : State :=
  let p := getG k (iP w)
  let q := getG k (iQ w)
  let sum := issueSum kind w p.toNat
  let key := engKey kind c (iTile w)
  let send := fun (k : Core) (s : State) =>
    let e := getEng key s
    if issueStalls kind c key p.toNat s then s
    else
      let stride : DWord := if kind = 1 then getG k (bitsAt p.toNat 26 5) else 0
      let x : EngIns := ⟨c, kind, iTile w, k.tag, k.pc, p, q, stride, sum, 0, 0, 0, 0, 0, 0, 0x1FFFFFF, false, false, 0⟩
      issueRetire c w (some ⟨kind, iTile w, k.tag, sum⟩) k (setEng key { e with cross := e.cross ++ [x] } s)
  match sum with
  | some r => withSummary c r send k s
  | none => send k s

/-- An ISSUE of a kind with a queue. -/
def issueInsn (kind : Nat) (c : Fin 44) (w : BitVec 24) (s : State) : State :=
  insn c (7 * 2 ^ 28 + kind * 2 ^ 24 + w.toNat) (issueLegal kind c w) (fun k s => issueTo kind c w k s) s

/-- A VX resume goes to the trapped VX at once: VX_FIX takes g[Q] and the mode acts; ignored when the VX is not trapped (R113, R141). -/
def issueResume (c : Fin 44) (w : BitVec 24) (s : State) : State :=
  insn c (7 * 2 ^ 28 + 2 * 2 ^ 24 + w.toNat) (issueLegal 2 c w) (fun k s =>
    let t := 8 * c.val + iTile w
    let s := issueRetire c w none k s
    match (getEng (kVx t) s).trap with
    | none => s
    | some _ =>
      vxResume t ((getG k (iP w)).toNat % 4)
        (setPair (tileBase t) R.VX_FIX_LO_VALUE R.VX_FIX_HI_VALUE (getG k (iQ w)).toNat s)) s

/-! ### Starting cores (R158, R160) -/

/-- Core `c` starts at `entry` with g1 = `arg` and every other register in its reset state; SEQ_FAULT.VALID clears (R158, R160). -/
def startCore (c : Nat) (entry : BitVec 48) (arg : DWord) (s : State) : State :=
  let b := seqBase c
  let s := setF b R.SEQ_FAULT_VALID 0 (setF b R.SEQ_TCAUSE_TILE 0 (setF b R.SEQ_TCAUSE_TAG 0 (setF b R.SEQ_TCAUSE_VALID 0 s)))
  let s := setF b R.SEQ_FLAGS_NV 0 (setF b R.SEQ_FLAGS_OF 0 (setF b R.SEQ_FLAGS_UF 0 (setF b R.SEQ_FLAGS_NX 0 s)))
  let s := setPair b R.SEQ_TRAP_PC_LO_VALUE R.SEQ_TRAP_PC_HI_VALUE 0 s
  setCore c (setG 1 arg { Core.init with st := .running, pc := entry, first := true }) (ranAdd (1000 + c) s)

/-- An IDLE core with a start waiting starts when the counter reaches its count. -/
def startAtCount (c : Nat) (s : State) : State :=
  match (getCore c s).start with
  | some r => if r.count ≤ s.count ∧ (getCore c s).st = .idle then startCore c r.entry r.arg s else s
  | none => s

/-- The cores a start block's MASK names. -/
def maskCores (m : Nat) : List Nat := (List.range 36).filter (fun i => bitAt m i)

/-- The causes of a cluster start in the order of R143 and R160, for the block at `a` with contents `b`. -/
def startCause (a b : Nat) (s : State) : Option Nat :=
  let off := offOf a
  let place := isLocal a s && (match target off s with
    | .hbm _ => true
    | .companion _ => true
    | _ => false)
  firstCause [(a % 32 ≠ 0, 3), (!place, 4), (localPoison (off - off % 128) s, 6),
    ((maskCores (bitsAt b 192 36)).any (fun n => (getCore n s).st ≠ .idle), 1), (bitsAt b 228 28 ≠ 0, 2)]

/-- Start the named cores: those with START = 0 at once, the others when the counter reaches START (R160). -/
def startCores (b : Nat) (s : State) : State :=
  let entry := BitVec.ofNat 48 (bitsAt b 0 64)
  let at_ := BitVec.ofNat 64 (bitsAt b 64 64)
  let arg := BitVec.ofNat 64 (bitsAt b 128 64)
  (maskCores (bitsAt b 192 36)).foldl (fun s n =>
    if at_ = 0 then startCore n entry arg s
    else setCore n { getCore n s with start := some ⟨entry, at_, arg⟩ } s) s

/-- ISSUE of kind 0xA (R160): the start block is read and checked; the cores it names start; the issue completes when each has executed
HALT, and at once when it names none. -/
def issueStart (c : Fin 44) (w : BitVec 24) (s : State) : State :=
  insn c (7 * 2 ^ 28 + 0xA * 2 ^ 24 + w.toNat) (issueLegal 0xA c w) (fun k s =>
    let a := (getG k (iP w)).toNat
    match blockAsk 32 a s with
    | some f => f s
    | none =>
      let b := readOff (offOf a) 32 s
      match startCause a b s with
      | some e => coreFault c 2 k.pc k.tag.toNat 0xA 0 e (issueRetire c w none k s)
      | none =>
        let left := maskCores (bitsAt b 192 36)
        if left.isEmpty then issueRetire c w none k s
        else
          let s := issueRetire c w (some ⟨0xA, 0, k.tag, none⟩) k s
          startCores b { s with starts := s.starts ++ [⟨c, k.tag, left⟩] }) s

/-! ### State windows of a core -/

/-- The 16 bytes of s register `n` in its window: the summary in [121:0] and, by choice of this model, its valid state in bit 127. -/
def sumWindow (k : Core) (n : Nat) : Nat := (getS k n).toNat % 2 ^ 127 + (if k.sPend.contains n then 0 else 2 ^ 127)

/-- Put the 16 bytes of an s register's window. -/
def putSumWindow (n v : Nat) (k : Core) : Core :=
  let k := { k with s := sSet sumReset n (BitVec.ofNat 128 (v % 2 ^ 122)) k.s }
  { k with sPend := if bitAt v 127 then k.sPend.filter (· ≠ n) else if k.sPend.contains n then k.sPend else n :: k.sPend }

/-- The registers of the trap state in a core's image: the trap PC and the trap cause (R134, R490). -/
def trapRegs (c : Nat) : List Nat := [R.SEQ_TRAP_PC_LO_VALUE.off, R.SEQ_TRAP_PC_HI_VALUE.off, R.SEQ_TCAUSE_VALID.off].map (fun o => seqBase c + o)
/-- Their words. -/
def takeTrap (c : Nat) (s : State) : Store Word := (trapRegs c).map (fun o => (o, csrGet 0 o s))
/-- Put them back. -/
def putTrap (c : Nat) (x : Store Word) (s : State) : State := (trapRegs c).foldl (fun s o => csrSet 0 o (sGet 0 x o) s) s

/-- A write of a sequencer state window (R490): g, s and h registers, and the image at + 0xE00, FROZEN only. -/
def seqWindow (path : Path) (c : Nat) (off : Nat) (v : Word) (s : State) : Host.Outcome State Fault Refusal :=
  let k := getCore c s
  if s.pkg ≠ .frozen then .next (rejectWrite path (seqBase c + off) v.toNat s)
  else if 0x800 ≤ off ∧ off < 0x900 then
    let n := (off - 0x800) / 8
    .next (setCore c (setG n (BitVec.ofNat 64 (putBits (getG k n).toNat (off % 8 / 4 * 32) 32 v.toNat)) k) s)
  else if 0xA00 ≤ off ∧ off < 0xA80 then
    let n := (off - 0xA00) / 16
    .next (setCore c (putSumWindow n (putBits (sumWindow k n) (off % 16 / 4 * 32) 32 v.toNat) k) s)
  else if 0xC00 ≤ off ∧ off < 0xE00 then
    let n := (off - 0xC00) / 32
    .next (setCore c (setH n (BitVec.ofNat 256 (putBits (getH k n).toNat (off % 32 / 4 * 32) 32 v.toNat)) k) s)
  else if 0xE00 ≤ off ∧ off < 0xE20 then
    windowWrite path (sFind s.imgCore c) (seqBase c + 0xE00) (off - 0xE00) v (fun x s =>
      setCore c { getCore c s with pc := x.1.pc, tag := x.1.tag, trapMask := x.1.trapMask, heldWait := x.1.heldWait, qpLast := x.1.qpLast, qpCount := x.1.qpCount }
        (putTrap c x.2 s)) s
  else .next s

/-- What the g, s and h windows read: 0 outside FROZEN. -/
def seqWindowRead (c off : Nat) (s : State) : Nat :=
  let k := getCore c s
  if s.pkg ≠ .frozen then 0
  else if 0x800 ≤ off ∧ off < 0x900 then bitsAt (getG k ((off - 0x800) / 8)).toNat (off % 8 / 4 * 32) 32
  else if 0xA00 ≤ off ∧ off < 0xA80 then bitsAt (sumWindow k ((off - 0xA00) / 16)) (off % 16 / 4 * 32) 32
  else if 0xC00 ≤ off ∧ off < 0xE00 then bitsAt (getH k ((off - 0xC00) / 32)).toNat (off % 32 / 4 * 32) 32
  else 0

/-- ISSUE_MX, kind 0x0 (R141). -/
def execIssueMx (c : Fin 44) (w : BitVec 24) (s : State) : Host.Outcome State Fault Refusal :=
  .next (issueInsn 0 c w s)

/-- ISSUE_VX, kind 0x1 (R141). -/
def execIssueVx (c : Fin 44) (w : BitVec 24) (s : State) : Host.Outcome State Fault Refusal :=
  .next (issueInsn 1 c w s)

/-- ISSUE_VX_RESUME, kind 0x2 (R113, R141). -/
def execIssueVxResume (c : Fin 44) (w : BitVec 24) (s : State) : Host.Outcome State Fault Refusal :=
  .next (issueResume c w s)

/-- ISSUE_SX, kind 0x3 (R141). -/
def execIssueSx (c : Fin 44) (w : BitVec 24) (s : State) : Host.Outcome State Fault Refusal :=
  .next (issueInsn 3 c w s)

/-- ISSUE_ASSAY, kind 0x4 (R141). -/
def execIssueAssay (c : Fin 44) (w : BitVec 24) (s : State) : Host.Outcome State Fault Refusal :=
  .next (issueInsn 4 c w s)

/-- ISSUE_PORTER, kind 0x5 (R141). -/
def execIssuePorter (c : Fin 44) (w : BitVec 24) (s : State) : Host.Outcome State Fault Refusal :=
  .next (issueInsn 5 c w s)

/-- ISSUE_DISPATCHER, kind 0x6 (R141). -/
def execIssueDispatcher (c : Fin 44) (w : BitVec 24) (s : State) : Host.Outcome State Fault Refusal :=
  .next (issueInsn 6 c w s)

/-- ISSUE_SOLVER, kind 0x8 (R141). -/
def execIssueSolver (c : Fin 44) (w : BitVec 24) (s : State) : Host.Outcome State Fault Refusal :=
  .next (issueInsn 8 c w s)

/-- ISSUE_COLLECTIVE, kind 0x9 (R141). -/
def execIssueCollective (c : Fin 44) (w : BitVec 24) (s : State) : Host.Outcome State Fault Refusal :=
  .next (issueInsn 9 c w s)

/-- ISSUE_CLUSTER_START, kind 0xA (R160). -/
def execIssueClusterStart (c : Fin 44) (w : BitVec 24) (s : State) : Host.Outcome State Fault Refusal :=
  .next (issueStart c w s)

/-- CLUSTER_START_AT_COUNT (R160). -/
def execClusterStartAtCount (cl : Fin 36) (s : State) : Host.Outcome State Fault Refusal :=
  .next (startAtCount cl s)

/-- SEQ_STATE_WINDOW (R490). -/
def execSeqStateWindow (path : Path) (c : Fin 44) (off : BitVec 12) (val : Word) (s : State) : Host.Outcome State Fault Refusal :=
  seqWindow path c off.toNat val s

end Sys2Proof.Machine
end

