-- ==== Sys2Proof/Machine/Launch.lean ====
section
/-! DEFINITION. Starting a job: the launch and resume commands, the launch tree and its messages, the start at the count, and the stop of
every core after a fault (R158, R159, R163, R320 to R322, R329, R378). -/

namespace Sys2Proof.Machine

/-! ### The launch tree (R320) -/

/-- The 64 bytes of a node's entry. -/
def nodeOf (l : LaunchRec) (i : Nat) : Nat := (sGet 0 l.tree i).toNat
/-- Package of a node. -/
def nodePkg (l : LaunchRec) (i : Nat) : Nat := bitsAt (nodeOf l i) 0 16
/-- Whether a node is a relay. -/
def nodeRelay (l : LaunchRec) (i : Nat) : Bool := bitsAt (nodeOf l i) 16 8 = 1
/-- The children an entry lists. -/
def entryKids (e : Nat) : List Nat := (List.range (min 16 (bitsAt e 24 8))).map (fun k => bitsAt e (64 + 16 * k) 16)
/-- The alternates an entry lists. -/
def entryAlts (e : Nat) : List Nat := ((List.range 4).map (fun k => bitsAt e (320 + 16 * k) 16)).filter (· ≠ 0xFFFF)

/-- Read the entries that node 0 reaches through CHILD and ALT; the number of entries is not stored. -/
def treeRead (off : Nat) (s : State) : Nat → List Nat → Store (BitVec 512) → Store (BitVec 512)
  | 0, _, t => t
  | _, [], t => t
  | fuel + 1, i :: m, t =>
    if (sFind t i).isSome then treeRead off s fuel m t
    else
      let e := readExt (off + 64 * i) 64 s
      treeRead off s fuel (entryKids e ++ entryAlts e ++ m) (sIns i (BitVec.ofNat 512 e) t)

/-- The table's CRC-64, over entry 0 to the highest entry reached. -/
def treeCrc (off : Nat) (t : Store (BitVec 512)) (s : State) : Nat :=
  let n := t.foldl (fun m e => max m (e.1 + 1)) 0
  crc64Go 0 (natBytes (readExt off (64 * n) s) (64 * n))

/-- The node of a package. -/
def nodeAt (l : LaunchRec) (p : Nat) : Option Nat := (l.tree.find? (fun e => bitsAt e.2.toNat 0 16 = p)).map (fun e => e.1)

/-- MARGIN in ns for a tree (R320, R326). -/
def launchMargin (tree : Store (BitVec 512)) (s : State) : Nat :=
  if tree.all (fun e => bitsAt e.2.toNat 0 16 / 64 = pkgNum s / 64) then 1000 * effF colBase R.COL_LAUNCH_CFG_MARGIN_C R.COL_CFG_LEVEL s
  else 100000 * effF colBase R.COL_LAUNCH_CFG_MARGIN_R R.COL_CFG_LEVEL s

/-- COL_LAUNCH_STATUS.STATE. -/
def launchState (n : Nat) (s : State) : State := setF colBase R.COL_LAUNCH_STATUS_STATE n s
/-- Send a launch message to a package. -/
def launchSend (kind : Nat) (args : List Nat) (dst : Nat) (s : State) : State := slotSend true 0 0 kind 0 (grpRank 0 s) 0 0 0 (freeSlots kind args 1) dst s
/-- Replace the launch in progress. -/
def setLaunch (l : LaunchRec) (s : State) : State := { s with launch := some l }

/-! ### ABORT (R320, R322) -/

/-- The launch ends with an abort at this package: status, DEAD_PKG, and the command completes with LAUNCH_ABORT. -/
def launchStop (dead : Nat) (s : State) : State :=
  let s := launchState 5 (setF colBase R.COL_LAUNCH_STATUS_DEAD_PKG dead { s with launch := none })
  if cmdBusy s ∧ (cmdOp s = 9 ∨ cmdOp s = 0xB) then cmdFinish 6 s else s

/-- Tell the launch tree's neighbours but `from_`. -/
def launchFlood (l : LaunchRec) (from_ : Nat) (cause dead : Nat) (s : State) : State :=
  ((l.up.toList ++ (l.kids.filter (fun i => !l.dead.contains i)).map (fun i => nodePkg l i)).filter (· ≠ from_)).foldl
    (fun s p => launchSend 6 [cause, dead] p s) s

/-- LAUNCH_FAILED (R322). -/
def launchFailed (cause dead : Nat) (s : State) : State := raise srcCol 0x64 2 (cause + dead * 2 ^ 8) 0 s

/-- This node originates an ABORT; it is told to `to` as well when that is not a neighbour. -/
def launchOrigin (l : LaunchRec) (cause dead : Nat) (s : State) : State :=
  launchFlood l 0x10000 cause dead (launchStop dead (launchFailed cause dead { s with ownAbort := some (cause, dead, l.count) }))

/-- ABORT of a launch arrives: it is passed on, and the root records the cause once more (R322). -/
def launchAborted (l : LaunchRec) (src cause dead : Nat) (s : State) : State :=
  let s := if l.me = 0 then launchFailed cause dead s else s
  launchFlood l src cause dead (launchStop dead s)

/-! ### PREPARE, READY, GO, ADOPT (R320, R321) -/

/-- Send GO to the children. -/
def launchGo (l : LaunchRec) (s : State) : State :=
  let s := launchState 4 (setLaunch { l with go := true } s)
  (l.kids.filter (fun i => !l.dead.contains i)).foldl (fun s i => launchSend 0xA [] (nodePkg l i) s) s

/-- Whether every child and every adopted orphan has reported READY. -/
def launchReady (l : LaunchRec) : Bool :=
  l.prep && l.await.isEmpty && l.kids.all (fun i => l.dead.contains i || l.ready.contains i)

/-- With every READY held: the root sends GO if C - MARGIN has not passed; another node reports READY to its parent. -/
def launchCheck (s : State) : State :=
  match s.launch with
  | none => s
  | some l =>
    if !launchReady l || l.go then s
    else if l.me = 0 then if s.count.toNat + l.margin ≤ l.count.toNat then launchGo l s else s
    else match l.up with
      | some p => if l.sentTo = some p then s
        else launchSend 9 [] p (launchState 3 (setLaunch { l with sentTo := some p } s))
      | none => s

/-- When the timer of a node started now ends (R321, R326). -/
def childDeadline (s : State) : Nat := s.count.toNat + 1000 * effF colBase R.COL_LAUNCH_CFG_CHILD_US R.COL_CFG_LEVEL s
/-- Start the timer of a node. -/
def timerStart (i : Nat) (l : LaunchRec) (s : State) : LaunchRec := { l with timers := (i, childDeadline s) :: l.timers.filter (fun e => e.1 ≠ i) }
/-- Whether the timer of a node has ended. -/
def timerOver (i : Nat) (l : LaunchRec) (s : State) : Bool := l.timers.any (fun e => e.1 = i && decide (e.2 ≤ s.count.toNat))

/-- Pass PREPARE on to the children; their timers start (R321). -/
def launchPrepare (l : LaunchRec) (s : State) : State :=
  let l := l.kids.foldl (fun l i => timerStart i l s) { l with prep := true }
  let s := launchState 2 (setLaunch l s)
  launchCheck (l.kids.foldl (fun s i => launchSend 8 [l.crc] (nodePkg l i) s) s)

/-- PREPARE: no accepted launch or another table's CRC answers ABORT; else it is passed on, or READY is sent again to an adopter. -/
def onPrepare (src crc : Nat) (s : State) : State :=
  match s.launch with
  | none =>
    match s.ownAbort with
    | some (cause, dead, c) =>
      if s.count < c then launchSend 6 [cause, dead] src s
      else launchSend 6 [0xB, pkgNum s] src (launchStop (pkgNum s) (launchFailed 0xB (pkgNum s) s))
    | none => launchSend 6 [0xB, pkgNum s] src (launchStop (pkgNum s) (launchFailed 0xB (pkgNum s) s))
  | some l =>
    let l := { l with up := some src }
    if crc ≠ l.crc then launchOrigin l 9 (pkgNum s) s
    else if l.prep then launchCheck (setLaunch { l with sentTo := none } s)
    else launchPrepare l s

/-- READY from a child or an adopter. -/
def onReady (src : Nat) (s : State) : State :=
  match s.launch with
  | none => s
  | some l =>
    match l.kids.find? (fun i => nodePkg l i = src && !l.ready.contains i) with
    | some i =>
      let s := setLaunch { l with ready := i :: l.ready } s
      launchCheck ((l.report.filter (fun e => e.1 = i)).foldl (fun s e => launchSend 9 [] e.2 s) s)
    | none =>
      match l.await.find? (fun e => nodePkg l e.2 = src) with
      | some e => launchCheck (setLaunch { l with await := l.await.erase e } s)
      | none => s

/-- GO. -/
def onGo (s : State) : State :=
  match s.launch with
  | some l => if l.go then s else launchGo l s
  | none => s

/-- This node adopts an orphan: PREPARE goes to it. -/
def launchAdopt (i : Nat) (report : Option Nat) (s : State) : State :=
  match s.launch with
  | none => s
  | some l =>
    let l := { l with kids := l.kids ++ [i], report := l.report ++ (report.map (fun p => (i, p))).toList }
    let l := if l.prep then timerStart i l s else l
    let s := bumpF colBase R.COL_LAUNCH_STATUS_REPARENTS 1 (setLaunch l s)
    if l.prep then launchSend 8 [l.crc] (nodePkg l i) s else s

/-- ADOPT. -/
def onAdopt (src orphan : Nat) (s : State) : State :=
  match s.launch with
  | none => s
  | some l => match nodeAt l orphan with
    | some i => launchAdopt i (some src) s
    | none => s

/-- Give an orphan of a dead relay a new parent: the first alternate not known dead nor tried; with none left it counts as lost. The adoption's own timer starts (R321). -/
def reparent (relay : Nat) (orphan : Nat) (s : State) : State :=
  match s.launch with
  | none => s
  | some l =>
    match (entryAlts (nodeOf l orphan)).find? (fun a => !l.dead.contains a && !l.tried.contains (orphan, a)) with
    | none => launchOrigin l 2 (nodePkg l orphan) s
    | some a =>
      let s := raise srcCol 0x63 1 (nodePkg l relay + nodePkg l orphan * 2 ^ 16 + nodePkg l a * 2 ^ 32) 0 s
      let l := timerStart orphan { l with tried := (orphan, a) :: l.tried } s
      if a = l.me then launchAdopt orphan none (setLaunch l s)
      else launchSend 0xB [nodePkg l orphan] (nodePkg l a) (setLaunch { l with await := l.await ++ [(orphan, a)] } s)

/-- LAUNCH_CHILD_TIMEOUT: a member child aborts the launch; a relay child's children get new parents; an orphan whose adopter has not reported it READY gets the next
alternate (R321). Before CHILD_US has passed nothing happens. -/
def childTimeout (p : Nat) (s : State) : State :=
  match s.launch with
  | none => s
  | some l =>
    match l.kids.find? (fun i => nodePkg l i = p && !l.ready.contains i && !l.dead.contains i) with
    | none =>
      match l.await.find? (fun e => nodePkg l e.1 = p) with
      | some e => if !l.prep || l.go || !timerOver e.1 l s then s else reparent e.2 e.1 (setLaunch { l with await := l.await.erase e } s)
      | none => s
    | some i =>
      if !l.prep || l.go || !timerOver i l s then s
      else if nodeRelay l i then
        let s := setLaunch { l with dead := i :: l.dead } s
        launchCheck ((entryKids (nodeOf l i)).foldl (fun s o => reparent i o s) s)
      else launchOrigin l 2 p s

/-- LAUNCH_MARGIN: at C - MARGIN the root sends GO, or ABORT with LATE_READY (R320). -/
def launchDeadline (s : State) : State :=
  match s.launch with
  | none => s
  | some l =>
    if l.me ≠ 0 ∨ l.go ∨ s.count.toNat + l.margin < l.count.toNat then s
    else if launchReady l ∧ s.count.toNat + l.margin = l.count.toNat then launchGo l s
    else launchOrigin l 8 (pkgNum s) s

/-! ### Acceptance (R158, R159, R329) -/

/-- A field in place, as the block reads it. -/
def sigField (base : Nat) (f : Fld) (lvl : Option Fld) (s : State) : Nat :=
  (match lvl with
    | some l => effF base f l s
    | none => getF base f s) * 2 ^ f.lo

/-- The result-bearing fields of a block, by address (R329). -/
def sigPut (base : Nat) (lvl : Option Fld) (fs : List Fld) (s : State) (m : Store Nat) : Store Nat :=
  fs.foldl (fun m f => sIns (base + f.off) (sGet 0 m (base + f.off) + sigField base f lvl s) m) m

/-- Every result-bearing register with its listed fields, in ascending address (R329). -/
def sigRegs (s : State) : Store Nat :=
  let m := sigPut mempBase none [R.MEM_SPREAD_SIZE] s []
  let m := sigPut halBase none [R.HAL_WIN_BASE_LO_BASE, R.HAL_WIN_BASE_HI_BASE, R.HAL_WIN_SIZE_GIB] s m
  let m := (List.range 288).foldl (fun m p => sigPut (tileBase p) (some R.VX_CFG_LEVEL)
    [R.VX_CFG_SAT, R.VX_CFG_TRAP_EN, R.VX_CFG_FLAG_SUM_EN, R.VX_CFG_LEVEL] s (sigPut (tileBase p) (some R.MX_CFG_LEVEL)
      [R.MX_CFG_FMT_A, R.MX_CFG_FMT_B, R.MX_CFG_FMT_OUT, R.MX_CFG_PASS, R.MX_CFG_SAT, R.MX_CFG_SCALE_EN, R.MX_CFG_SPARSE24, R.MX_CFG_SKIP,
       R.MX_CFG_FLAG_SUM_EN, R.MX_CFG_LEVEL] s m)) m
  let m := (List.range 36).foldl (fun m c => sigPut (asyBase c) (some R.ASY_CFG_LEVEL) [R.ASY_CFG_SAT, R.ASY_CFG_FLAG_SUM_EN, R.ASY_CFG_LEVEL] s
    (sigPut (sxBase c) (some R.SX_CFG_LEVEL) [R.SX_CFG_FLAG_SUM_EN, R.SX_CFG_LEVEL] s m)) m
  let m := (List.range 4).foldl (fun m d => sigPut (dspBase d) (some R.DSP_CFG_LEVEL) [R.DSP_CFG_PAD_FILL, R.DSP_CFG_LEVEL] s m) m
  let m := (List.range 8).foldl (fun m e => sigPut (slvBase e) (some R.SLV_CFG_LEVEL)
    [R.SLV_CFG_LEVEL, R.SLV_PIVOT_MIN_LO_MIN, R.SLV_PIVOT_MIN_HI_MIN] s m) m
  (List.range 44).foldl (fun m c => sigPut (seqBase c) none [R.SEQ_TVEC_LO_ADDR, R.SEQ_TVEC_HI_ADDR] s m) m

/-- The job configuration signature (R329). -/
def cfgSig (s : State) : Nat := crc64Go 0 ((sigRegs s).flatMap (fun e => natBytes e.2 4))

/-- A launch or resume is accepted: the tree is read; a table without this package, or a launch less than 10 us before C, aborts; the root
sends PREPARE (R159, R320). -/
def launchBegin (op : Nat) (entry : BitVec 48) (c arg g2 : DWord) (s : State) : State :=
  let off := getPair colBase R.COL_LAUNCH_TBL_LO_ADDR R.COL_LAUNCH_TBL_HI_ADDR s % 2 ^ 48
  let t := treeRead off s 0x200000 [0] []
  let l0 : LaunchRec := ⟨op, entry, c, arg, g2, 0xFFFF, t, treeCrc off t s, none, [], [], [], [], [], false, none, false, launchMargin t s, [], []⟩
  let s := launchState 1 { s with ownAbort := none }
  match nodeAt l0 (pkgNum s) with
  | none => launchOrigin l0 9 (pkgNum s) s
  | some i =>
    let par := bitsAt (nodeOf l0 i) 32 16
    let l := { l0 with me := i, kids := entryKids (nodeOf l0 i), up := if i = 0 ∨ par = 0xFFFF then none else some (nodePkg l0 par) }
    if c.toNat < s.count.toNat + 10000 then launchOrigin l 0xA (pkgNum s) s
    else if i = 0 then launchPrepare l s
    else setLaunch l s

/-- LAUNCH (R158): GCT_LAUNCH and GCT_CFGSIG are set, and the launch protocol begins. -/
def launchCmd (path : Path) (s : State) : State :=
  plainCommand path 0x09 (fun s =>
    let c := BitVec.ofNat 64 (cmdArg 1 s)
    let s := setPair gctBase R.GCT_LAUNCH_LO_COUNT R.GCT_LAUNCH_HI_COUNT c.toNat s
    let s := setPair gctBase R.GCT_CFGSIG_LO_SIG R.GCT_CFGSIG_HI_SIG (cfgSig s) s
    launchBegin 9 (BitVec.ofNat 48 (cmdArg 0 s)) c (BitVec.ofNat 64 (cmdArg 2 s)) 0 s) s

/-- RESUME (R378): the launch protocol for a restart at C. -/
def resumeCmd (path : Path) (s : State) : State :=
  plainCommand path 0x0B (fun s => launchBegin 0xB 0 (BitVec.ofNat 64 (cmdArg 0 s)) 0 0 s) s

/-! ### The start (R158, R378) -/

/-- A step begins: its events count anew (R362). -/
def stepBegin (s : State) : State := setF ckpBase R.CKP_STATUS_STATE 1 { s with stepErr := false }

/-- All eight package sequencer cores start with g1 and g2. -/
def startPsc (entry : BitVec 48) (g1 g2 : DWord) (s : State) : State :=
  (List.range 8).foldl (fun s n =>
    let s := startCore (36 + n) entry g1 s
    setCore (36 + n) (setG 2 g2 (getCore (36 + n) s)) s) s

/-- Parked cores go on from where they stood (R155, R378), and their quiesce-point interval restarts (R154); time spent FROZEN does not count (R147). -/
def unpark (s : State) : State :=
  (List.range 44).foldl (fun s c =>
    let k := getCore c s
    if k.st = .parked then setCore c { k with st := k.held.getD .running, parkFrom := none, held := none, qpLast := some s.count } s
    else if k.parkFrom.isSome ∨ k.held.isSome then setCore c { k with parkFrom := none, held := none } s
    else s)
    (flipClocks { s with freezeF := none, ckp := { s.ckp with halt := none } })

/-- CORE_START_AT_COUNT: at C a package holding GO starts; one without it completes with LAUNCH_ABORT (R158, R320). -/
def coreStartAtCount (s : State) : State :=
  match s.launch with
  | none => s
  | some l =>
    if s.count < l.count then s
    else if !l.go then launchStop (getF colBase R.COL_LAUNCH_STATUS_DEAD_PKG s) s
    else
      let s := { s with launch := none }
      if l.op = 9 then
        if getF ckpBase R.CKP_RANK_ROLE s = 1 then cmdFinishOf 9 0 s
        else
          let s := setPair ckpBase R.CKP_STEP_LO_VALUE R.CKP_STEP_HI_VALUE 0 { s with ckp := { s.ckp with lastDrain := none } }
          cmdFinishOf 9 0 (stepBegin (setPkg .running (startPsc l.entry l.arg 0 s)))
      else
        match s.ckp.restored with
        | some (cut, g2) =>
          let s := { s with ckp := { s.ckp with restored := none, halt := none }, freezeF := none }
          if cut % 2 = 0 then
            let s := setPair ckpBase R.CKP_STEP_LO_VALUE R.CKP_STEP_HI_VALUE (cut / 2) s
            let e := getPair ckpBase R.CKP_ENTRY_LO_ADDR R.CKP_ENTRY_HI_ADDR s
            cmdFinishOf 0xB 0 (stepBegin (setPkg .running (startPsc (BitVec.ofNat 48 e) (BitVec.ofNat 64 (cut / 2)) g2 s)))
          else cmdFinishOf 0xB 0 (stepBegin (colThaw (setPkg .running (unpark s))))
        | none => cmdFinishOf 0xB 0 (setF ckpBase R.CKP_STATUS_STATE 1 (colThaw (setPkg .running (unpark s))))

/-- Whether an ABORT is of the launch in progress: its causes are those of the launch protocol and PEER_DEAD, which a collective that is open here claims first (R318, R321). -/
def launchAbort (m : ColMsg) (cause : Nat) (s : State) : Bool :=
  decide (8 ≤ cause) || (cause = 2 && (getRun m.group m.seq.toNat s).isNone)

/-- ABORT of a collective, or of a vote over the group (R317, R362). A member of the job group that has not voted yet takes FAIL as well. -/
def groupAbort (m : ColMsg) (cause origin : Nat) (s : State) : State :=
  let g := m.group.val
  let v := voteOpen g s
  let s := if grpBroken g s ∨ !grpValid g s then (if v then abortFlood g m.seq.toNat cause origin s else s) else colAbort g m.seq.toNat cause origin s
  if v ∨ ((cause = 1 ∨ cause = 2) ∧ grpValid g s ∧ getF ckpBase R.CKP_CFG_GROUP s = g ∧ s.pkg = .running) then voteAborted s else s

/-- ABORT: of the launch in progress, or of a collective (R317, R318, R320). -/
def onAbort (m : ColMsg) (cause origin : Nat) (s : State) : State :=
  match s.launch with
  | some l => if launchAbort m cause s then launchAborted l m.src.toNat cause origin s else groupAbort m cause origin s
  | none => if 8 ≤ cause then s else groupAbort m cause origin s

/-- CORE_STOP: after a core's fault every other core is STOPPED, the collectives abort with PEER_FAULT, and the package is FAULTED with
CAUSE 1 (R163, R317, R429). -/
def coreStop (s : State) : State :=
  if s.pkg = .running ∧ (List.range 44).any (fun c => (getCore c s).st = .faulted) then
    let s := (List.range 44).foldl (fun s c =>
      let k := getCore c s
      if k.st = .faulted then s else setCore c { k with st := .stopped, wait := none, load := none, parkFrom := none, start := none } s) s
    colAbortAll 1 true (setFaulted 1 s)
  else s

/-- LAUNCH (R158). -/
def execLaunch (path : Path) (s : State) : Host.Outcome State Fault Refusal := .next (launchCmd path s)
/-- RESUME (R378). -/
def execResume (path : Path) (s : State) : Host.Outcome State Fault Refusal := .next (resumeCmd path s)
/-- PREPARE (R320). -/
def execPrepare (src : BitVec 16) (crc : DWord) (s : State) : Host.Outcome State Fault Refusal := .next (onPrepare src.toNat crc.toNat s)
/-- READY (R320). -/
def execReady (src : BitVec 16) (s : State) : Host.Outcome State Fault Refusal := .next (onReady src.toNat s)
/-- GO (R320). -/
def execGo (_src : BitVec 16) (s : State) : Host.Outcome State Fault Refusal := .next (onGo s)
/-- ADOPT (R321). -/
def execAdopt (src orphan : BitVec 16) (s : State) : Host.Outcome State Fault Refusal := .next (onAdopt src.toNat orphan.toNat s)
/-- LAUNCH_CHILD_TIMEOUT (R321). -/
def execLaunchChildTimeout (child : BitVec 16) (s : State) : Host.Outcome State Fault Refusal := .next (childTimeout child.toNat s)
/-- LAUNCH_MARGIN (R320). -/
def execLaunchMargin (s : State) : Host.Outcome State Fault Refusal := .next (launchDeadline s)
/-- ABORT (R318). -/
def execAbort (m : ColMsg) (cause : BitVec 8) (origin : BitVec 16) (s : State) : Host.Outcome State Fault Refusal :=
  .next (onAbort m cause.toNat origin.toNat s)
/-- CORE_STOP (R163). -/
def execCoreStop (s : State) : Host.Outcome State Fault Refusal := .next (coreStop s)

end Sys2Proof.Machine
end

