-- ==== Sys2Proof/Machine/Slots.lean ====
section
/-! DEFINITION. What the checkpoint controller keeps in memory: the range table, the slots with their headers and commit lines, the data and
control classes, the partner table and the checks at ENABLE (R354 to R359, R379, R380). -/

namespace Sys2Proof.Machine

/-! ### Ranges and slots (R354, R357, R358) -/

/-- Local offset of the range table. -/
def rangesAt (s : State) : Nat := getPair ckpBase R.CKP_RANGES_LO_ADDR R.CKP_RANGES_HI_ADDR s
/-- CKP_NRANGES. -/
def nRanges (s : State) : Nat := getF ckpBase R.CKP_NRANGES_N s
/-- The range table: offset and bytes of each entry. -/
def ranges (s : State) : List (Nat × Nat) :=
  (List.range (nRanges s)).map (fun i => (readOff (rangesAt s + 16 * i) 8 s, readOff (rangesAt s + 16 * i + 8) 8 s))
/-- DATA_BYTES. -/
def dataBytes (s : State) : Nat := (ranges s).foldl (fun n r => n + r.2) 0
/-- Bytes of the control block. -/
def ctrlBytes : Nat := 1732 * 2 ^ 20
/-- CKP_SLOT_SIZE; 0 while no range is set. -/
def slotSize (s : State) : Nat := if nRanges s = 0 then 0 else 0x10000 + dataBytes s + ctrlBytes
/-- RANGE_SIG. -/
def rangeSig (s : State) : Nat := crc64Go 0 (natBytes (readOff (rangesAt s) (16 * nRanges s) s) (16 * nRanges s))

/-- Base of a region: 0 Firn, 1 mirror, 2 durable. -/
def regionBase (r : Nat) (s : State) : Nat :=
  if r = 0 then getPair ckpBase R.CKP_FIRN_BASE_LO_ADDR R.CKP_FIRN_BASE_HI_ADDR s
  else if r = 1 then getPair ckpBase R.CKP_MIRROR_BASE_LO_ADDR R.CKP_MIRROR_BASE_HI_ADDR s
  else getPair ckpBase R.CKP_DURABLE_BASE_LO_ADDR R.CKP_DURABLE_BASE_HI_ADDR s
/-- Base of slot `k`, numbered as CKP_SLOT_SEL. -/
def slotBase (k : Nat) (s : State) : Nat := regionBase (k / 2) s + k % 2 * slotSize s

/-- A slot's header and commit line, 256 bytes. -/
def slotHead (k : Nat) (s : State) : Nat := readExt (slotBase k s) 256 s
def hJob (h : Nat) : Nat := bitsAt h 0 64
def hCut (h : Nat) : Nat := bitsAt h 64 64
def hRank (h : Nat) : Nat := bitsAt h 128 16
def hPkg (h : Nat) : Nat := bitsAt h 144 16
def hKind (h : Nat) : Nat := bitsAt h 168 8
def hSig (h : Nat) : Nat := bitsAt h 320 64
def hDigest (h : Nat) : Nat := bitsAt h 448 64
/-- Whether a slot is committed: COMMIT = 1, and CUT and DIGEST equal those of the header (R359). -/
def committed (h : Nat) : Bool := bitsAt h 1152 64 = 1 && bitsAt h 1024 64 = hCut h && bitsAt h 1088 64 = hDigest h

/-- CKP_SLOT_STATE.STATE of a slot: 0 EMPTY, 1 PARTIAL, 2 COMMITTED, 3 BAD. -/
def slotState (k : Nat) (s : State) : Nat :=
  if slotSize s = 0 then 0
  else
    let h := slotHead k s
    if committed h then if s.ckp.bad.contains k then 3 else 2
    else if bitsAt h 0 512 = 0 then 0 else 1

/-- The local Firn slot that holds a committed cut. -/
def slotOfCut (cut : Nat) (s : State) : Option Nat := [0, 1].find? (fun k => slotState k s = 2 && hCut (slotHead k s) = cut)

/-- The Firn slot that holds, or is taking, the inputs of the current step. -/
def inputSlot (s : State) : Option Nat :=
  match s.ckp.copy with
  | some k => some k
  | none => slotOfCut (2 * getPair ckpBase R.CKP_STEP_LO_VALUE R.CKP_STEP_HI_VALUE s) s

/-- The slot a Firn copy fills: not the pinned one; with none pinned, not the one that holds the newest committed cut (R363). -/
def firnPick (s : State) : Nat :=
  let p := getF ckpBase R.CKP_STATUS_PINNED s
  if p ≠ 0 then 1 - (p - 1)
  else
    let c := fun k => if committed (slotHead k s) then hCut (slotHead k s) + 1 else 0
    if c 0 > c 1 then 1 else 0

/-- The 128 header bytes (R358). -/
def headBytes (cut slot kind digest ctrl : Nat) (s : State) : Nat :=
  getPair ckpBase R.CKP_JOB_ID_LO_VALUE R.CKP_JOB_ID_HI_VALUE s + cut % 2 ^ 64 * 2 ^ 64 + getF ckpBase R.CKP_RANK_RANK s * 2 ^ 128 +
    pkgNum s * 2 ^ 144 + slot * 2 ^ 160 + kind * 2 ^ 168 + nRanges s % 2 ^ 16 * 2 ^ 176 + dataBytes s % 2 ^ 64 * 2 ^ 192 + ctrl * 2 ^ 256 +
    rangeSig s * 2 ^ 320 + getPair gctBase R.GCT_CFGSIG_LO_SIG R.GCT_CFGSIG_HI_SIG s * 2 ^ 384 + digest * 2 ^ 448

/-- A commit line (R358). -/
def commitLine (cut digest : Nat) : Nat := cut % 2 ^ 64 + digest * 2 ^ 64 + 2 ^ 128

/-- Write bytes in a slot. -/
def slotWrite (k off : Nat) (bs : List Byte) (s : State) : State := writeExt (slotBase k s + off) bs s

/-- The writer's first step: the commit line is zeros (R359). The slot is no longer known BAD. -/
def slotOpen (k : Nat) (s : State) : State :=
  slotWrite k 0x80 (natBytes 0 128) { s with ckp := { s.ckp with bad := s.ckp.bad.filter (· ≠ k) } }

/-- The data class: the bytes of the ranges in table order. -/
def gatherData (s : State) : List Byte := (ranges s).flatMap (fun r => natBytes (readOff r.1 r.2 s) r.2)
/-- Whether a line of the ranges reads poisoned. -/
def dataPoison (s : State) : Bool := (ranges s).any (fun r => poisonOff r.1 r.2 s)
/-- Put the data class back into its ranges. -/
def scatterData : List (Nat × Nat) → List Byte → State → State
  | [], _, s => s
  | r :: m, bs, s => scatterData m (bs.drop r.2) (writeOff r.1 r.2 (bytesNat (bs.take r.2)) s)

/-- Fill slot `k` after its commit line was zeroed: header, range table, data and control block, and, with `ok`, the commit line (R359). -/
def slotFill (k cut : Nat) (ctrl : List Byte) (ok : Bool) (s : State) : State :=
  let data := gatherData s
  let digest := crc64Go 0 (data ++ ctrl)
  let n := 16 * nRanges s
  let s1 := slotWrite k 0 (natBytes (headBytes cut (k % 2) (b2n (!ctrl.isEmpty)) digest ctrl.length s) 128) s
  let s1 := slotWrite k 0x1000 (natBytes (readOff (rangesAt s) n s) n) s1
  let s1 := slotWrite k 0x10000 (data ++ ctrl) s1
  if ok then slotWrite k 0x80 (natBytes (commitLine cut digest) 128) s1 else s1

/-- Bytes of a slot that its DIGEST covers. -/
def slotPayload (k : Nat) (s : State) : Nat := dataBytes s + (if hKind (slotHead k s) = 1 then ctrlBytes else 0)

/-- Restore the ranges from slot `k`: whether the copy held, whether its digest failed, and the state with the ranges written (R366, R377). -/
def slotLoad (k : Nat) (s : State) : Bool × Bool × State :=
  let n := slotPayload k s
  let bs := natBytes (readExt (slotBase k s + 0x10000) n s) n
  let bad := decide (crc64Go 0 bs ≠ hDigest (slotHead k s))
  (!bad && !poisonOff (slotBase k s + 0x10000) n s, bad, scatterData (ranges s) bs s)

/-! ### The control class (R355) -/

/-- The registers of a core in the control class: trap vector, trap PC and cause. -/
def cutSeq (o : Nat) : Bool :=
  [R.SEQ_TVEC_LO_ADDR.off, R.SEQ_TVEC_HI_ADDR.off, R.SEQ_TRAP_PC_LO_VALUE.off, R.SEQ_TRAP_PC_HI_VALUE.off, R.SEQ_TCAUSE_VALID.off].contains o
/-- The CSR words a freeze cut saves: engine configuration and status, trap state, the group table, the fields of R329. -/
def inCut (o : Nat) : Bool :=
  if 0x1000000 ≤ o then
    let r := (o - 0x1000000) % 0x400000
    let q := r % 0x40000
    if 0x240000 ≤ r then r = 0x340000
    else if q < 0x20000 then [0x0, 0x8, 0x38, 0x100, 0x108].contains (q % 0x4000)
    else if q < 0x24000 then cutSeq (q - 0x20000)
    else [0x0, 0x8].contains (q % 0x4000)
  else if 0x080000 ≤ o ∧ o < 0x090000 then [0x0, 0x8, 0x20, 0x24].contains ((o - 0x080000) % 0x2000)
  else if 0x028000 ≤ o ∧ o < 0x030000 then cutSeq ((o - 0x028000) % 0x1000)
  else (colBase + 0x1000 ≤ o && o < colBase + 0x3000) || o = colBase + R.COL_STATUS_NV.off || o = mempBase + R.MEM_SPREAD_SIZE.off ||
    [R.HAL_WIN_BASE_LO_BASE.off, R.HAL_WIN_BASE_HI_BASE.off, R.HAL_WIN_SIZE_GIB.off].any (fun x => o = halBase + x)

/-- The control class as it stands. The controller's reads of status registers leave their RC fields as they are (DESIGN CHOICE, log 195). -/
def ctrlTake (cut : Nat) (s : State) : CtrlImage :=
  ⟨cut, s.tileSram, s.vregs, s.masks, s.cores, s.starts, s.dsps, s.slvs, s.engines, s.col, s.csr.filter (fun e => inCut e.1)⟩
/-- The bytes of the control block, whose layout no rule states: free values. -/
def ctrlBlock (s : State) : List Byte := (List.range ctrlBytes).map (fun i => BitVec.ofNat 8 (Config.freeResult 83 (s.fresh * 2 ^ 32 + i)))
/-- Put a saved control class back. -/
def ctrlPut (c : CtrlImage) (s : State) : State :=
  { s with tileSram := c.tileSram, vregs := c.vregs, masks := c.masks, cores := c.cores, starts := c.starts, dsps := c.dsps, slvs := c.slvs,
           engines := c.engines, col := c.col,
           csr := c.csr.foldl (fun m e => sIns e.1 e.2 m) (s.csr.filter (fun e => !inCut e.1)) }

/-! ### The job group and the partner table (R361, R379, R380) -/

/-- The members of the job group and this package's rank; a package whose group is not VALID votes alone. -/
def voteGroup (s : State) : List Nat × Nat :=
  let g := getF ckpBase R.CKP_CFG_GROUP s
  if grpValid g s then (grpList g s, grpRank g s) else ([pkgNum s], 0)

/-- The partner-table entry of a rank. -/
def partner (r : Nat) (s : State) : Nat :=
  readExt (getPair ckpBase R.CKP_PARTNER_TBL_LO_ADDR R.CKP_PARTNER_TBL_HI_ADDR s + 32 * r) 32 s
def pPkg (e : Nat) : Nat := bitsAt e 0 16
def pPartner (e : Nat) : Nat := bitsAt e 16 16
def pMirror (e : Nat) : Nat := bitsAt e 128 64
/-- This package's own rank. -/
def ckpRank (s : State) : Nat := getF ckpBase R.CKP_RANK_RANK s
/-- The ranks of the table. -/
def tableRanks (s : State) : List Nat := List.range (voteGroup s).1.length
/-- The rank whose cuts this package mirrors. -/
def mirrored (s : State) : Option Nat := (tableRanks s).find? (fun r => pPartner (partner r s) = pkgNum s && r ≠ ckpRank s)

/-- The checks of one entry (R380). TRAY, SHELF and LOOP of the partner come from its own entry. -/
def entryOk (r : Nat) (s : State) : Bool :=
  let e := partner r s
  let p := pPartner e
  p / 64 = pPkg e / 64 && p ≠ pPkg e &&
    (match (tableRanks s).find? (fun q => pPkg (partner q s) = p) with
      | some q => bitsAt (partner q s) 32 16 ≠ bitsAt e 32 16 && bitsAt (partner q s) 48 16 ≠ bitsAt e 48 16 && bitsAt (partner q s) 64 16 ≠ bitsAt e 64 16
      | none => true) &&
    ((tableRanks s).filter (fun q => pPartner (partner q s) = p)).length ≤ 1
/-- The check at ENABLE and TAKEOVER: the own entry and every entry that names this package (R380). -/
def partnerCheck (s : State) : State :=
  if (ckpRank s :: (tableRanks s).filter (fun r => pPartner (partner r s) = pkgNum s)).all (fun r => entryOk r s) then
    setF ckpBase R.CKP_STATUS_PARTNER_BAD 0 s
  else raise srcCkp 0x86 1 0 0 (setF ckpBase R.CKP_ERR_CODE 0x06 (setF ckpBase R.CKP_STATUS_PARTNER_BAD 1 s))

/-! ### ENABLE (R357, R391) -/

/-- The range table is well placed and well formed (code 0x01). -/
def rangesOk (s : State) : Bool :=
  decide (1 ≤ nRanges s ∧ nRanges s ≤ 1024 ∧ rangesAt s % 16 = 0) && inHbm (rangesAt s) (16 * nRanges s) s &&
    (ranges s).all (fun r => r.1 % 128 = 0 && r.2 % 128 = 0 && inHbm r.1 r.2 s)
/-- The Firn and mirror regions are clear of each other and of every range (code 0x02). -/
def regionsClear (s : State) : Bool :=
  let n := 2 * slotSize s
  let f := (regionBase 0 s, n)
  let m := (regionBase 1 s, n)
  !anyOverlap [f] [m] && !anyOverlap [f, m] (ranges s)
/-- The regions lie in their windows (code 0x03). -/
def regionsPlaced (s : State) : Bool :=
  let n := 2 * slotSize s
  inHbm (regionBase 0 s) n s && inHbm (regionBase 1 s) n s && inCompanion (regionBase 2 s) n s &&
    [0, 1, 2].all (fun r => regionBase r s % 4096 = 0)
/-- The lowest code of a placement check that fails. -/
def enableCode (s : State) : Option Nat :=
  if !rangesOk s then some 0x01 else if !regionsClear s then some 0x02 else if !regionsPlaced s then some 0x03 else none

/-- An ignored write (R391). -/
def ckpReject (off data : Nat) (s : State) : State :=
  raise srcCkp 0x89 1 (off % 2 ^ 26 + stCode s.pkg * 2 ^ 28 + data % 2 ^ 32 * 2 ^ 32) 0 s

/-- CKP_ENABLE: a write of 1 to ENABLE (R357, R380, R391). -/
def ckpEnable (s : State) : State :=
  if s.pkg = .running then ckpReject ckpBase 1 s
  else match enableCode s with
    | some c => raise srcCkp 0x89 1 0 c (setF ckpBase R.CKP_ERR_CODE c (setF ckpBase R.CKP_CFG_ENABLE 0 s))
    | none => partnerCheck (setF ckpBase R.CKP_CFG_ENABLE 1 s)

end Sys2Proof.Machine
end

