-- ==== Sys2Proof/Machine/Checkpoint.lean ====
section
/-! DEFINITION. The checkpoint controller: the step boundary, the votes and decisions, step replay, drains, the all-stop cut, restore and takeover
(R360 to R381). -/

namespace Sys2Proof.Machine

/-- The controller's own key in the engines' numbering: it owns remote requests and receives their lines. -/
def kCkp : Nat := 697
/-- CKP_STATUS.STATE. -/
def ckpState (n : Nat) (s : State) : State := setF ckpBase R.CKP_STATUS_STATE n s
/-- CKP_STEP changes. -/
def setStep (t : Nat) (s : State) : State := setPair ckpBase R.CKP_STEP_LO_VALUE R.CKP_STEP_HI_VALUE t s
/-- Whether the controller has a remote request of a direction outstanding. -/
def ckpBusy (rd : Bool) (s : State) : Bool := hasTxn (fun x => x.isRead = rd && x.owner = .eng kCkp) s

/-! ### Remote traffic of the controller (R368, R375, R387): one request at a time -/

/-- The lines of a drain's mirror copy: zero commit line, header, range table, data, commit line. -/
def drainLines (s : State) : Nat := 3 + (16 * nRanges s + 127) / 128 + dataBytes s / 128
/-- Line `i` of a drain's mirror copy: its offset in the slot and its contents (R359). -/
def drainLine (d : Drain) (i : Nat) (s : State) : Nat × Nat :=
  let t := (16 * nRanges s + 127) / 128
  let rd := fun o => readOff (slotBase d.slot s + o) 128 s
  if i = 0 then (0x80, 0)
  else if i = 1 then (0, putBits (rd 0) 160 8 d.mirrorSlot)
  else if i < 2 + t then (0x1000 + 128 * (i - 2), rd (0x1000 + 128 * (i - 2)))
  else if i + 1 < drainLines s then (0x10000 + 128 * (i - 2 - t), rd (0x10000 + 128 * (i - 2 - t)))
  else (0x80, rd 0x80)

/-- Bytes of another package as received. -/
def farRead (pkg off n : Nat) (s : State) : Nat := engRead kCkp (pkg * 2 ^ 48 + off) n s
/-- The head of the partner's mirror slot `k` as received. -/
def mirrorHead (k : Nat) (s : State) : Nat :=
  let e := partner (ckpRank s) s
  farRead (pPartner e) (pMirror e + k * slotSize s) 256 s
/-- Of two slot heads, the slot that does not hold the newest committed copy of this shard (R368). -/
def olderSlot (h : Nat → Nat) (s : State) : Nat :=
  let age := fun k => if committed (h k) && hRank (h k) = ckpRank s && hJob (h k) = getPair ckpBase R.CKP_JOB_ID_LO_VALUE R.CKP_JOB_ID_HI_VALUE s then hCut (h k) + 1 else 0
  if age 0 > age 1 then 1 else 0
/-- Choose the partner's mirror slot once its heads have been read. -/
def drainChoose (s : State) : State :=
  match s.ckp.drain with
  | some d =>
    if d.asked && s.ckp.reads.isEmpty && !ckpBusy true s then
      let ms := olderSlot (fun k => mirrorHead k s) s
      { s with ckp := { s.ckp with drain := some { d with asked := false, mirrorSlot := ms, mirrorAt := d.mirrorAt + ms * slotSize s } } }
    else s
  | none => s

/-- Send the next line of a mirror copy once the one before it is acknowledged; from a freeze count on none is sent, so that every remote write of before has landed (R373). -/
def pumpWrites (s : State) : State :=
  let s := drainChoose s
  match s.ckp.drain with
  | none => s
  | some d =>
    if !d.mirror || d.asked || freezeDue s || ckpBusy false s || decide (drainLines s ≤ d.sent) then s
    else
      let l := drainLine d d.sent s
      sendReq false false d.pkg ((d.mirrorAt + l.1) % 2 ^ 48 / 128) 1 (lineSlots l.2) 0 (.eng kCkp) false
        { s with ckp := { s.ckp with drain := some { d with sent := d.sent + 1 } } }

/-- Send the next read of another package's slot or digest record. -/
def pumpReads (s : State) : State :=
  match s.ckp.reads with
  | [] => s
  | (l, n) :: m =>
    if ckpBusy true s then s
    else
      let s := { s with ckp := { s.ckp with reads := if n ≤ 1 then m else (l + 1, n - 1) :: m } }
      if n = 0 then s else sendReq true false (l / 2 ^ 41) (l % 2 ^ 41) 1 [] 0 (.eng kCkp) false s

/-- Start reading line ranges of other packages. -/
def readFrom (rs : List (Nat × Nat)) (s : State) : State := pumpReads { s with ckp := { s.ckp with reads := rs } }
/-- The global line of a byte of another package. -/
def farLine (pkg off : Nat) : Nat := pkg * 2 ^ 41 + off % 2 ^ 48 / 128
/-- Forget what was received. -/
def farClear (s : State) : State := setEng kCkp Engine.init s

/-! ### Messages of a vote (R361, R376) -/

/-- The ranks below rank `r` of `n` in the control tree (R316). -/
def voteKids (n r : Nat) : List Nat := (List.range 32).filterMap (fun i => if 32 * r + 1 + i < n then some (32 * r + 1 + i) else none)
/-- Send a control message of the job group to a rank. -/
def voteSend (kind : Nat) (data : List Slot) (r : Nat) (s : State) : State :=
  slotSend true (getF ckpBase R.CKP_CFG_GROUP s) 0 kind 0 (voteGroup s).2 0 0 0 data ((voteGroup s).1.getD r 0) s
/-- The data slots of a VOTE: STEP and flags; the place of a second STEP and of the cuts is not stated. -/
def voteSlots (v : VoteMsg) : List Slot :=
  let flags := b2n v.err + 2 * b2n v.bad + 4 * b2n v.idle + 8 * b2n v.quar
  let first : Slot := BitVec.ofNat 128 (v.stepMin % 2 ^ 64 * 2 ^ 64 + flags +
    (if v.stepMax = v.stepMin then 0 else 16 * (Config.freeResult 84 v.stepMax % 2 ^ 60)))
  match v.cuts with
  | none => [first]
  | some cs => first :: freeSlots 12 cs 3
/-- The data slots of a DECIDE. -/
def decideSlots (o : Nat) (drain : Bool) (step count : Nat) : List Slot :=
  [BitVec.ofNat 128 (step % 2 ^ 64 * 2 ^ 64 + o + 4 * b2n drain), BitVec.ofNat 128 (count % 2 ^ 64)]
/-- Votes combine up the tree. -/
def voteJoin (a b : VoteMsg) : VoteMsg :=
  ⟨min a.stepMin b.stepMin, max a.stepMax b.stepMax, a.err || b.err, a.bad || b.bad, a.idle && b.idle, a.quar || b.quar,
   match a.cuts, b.cuts with
   | some x, some y => some (x.filter (fun c => y.contains c))
   | some x, none => some x
   | none, y => y⟩
/-- QUARANTINED. -/
def quarantined (s : State) : Bool := getF ckpBase R.CKP_STATUS_QUARANTINED s = 1
/-- A vote of this package: STEP, ERR, BOUNDARY_BAD and the cuts. -/
def voteOf (t : Nat) (err bad : Bool) (cuts : Option (List Nat)) (s : State) : VoteMsg :=
  ⟨t, t, err, bad, s.ckp.drain.isNone, quarantined s, cuts⟩

/-! ### Stopping the program's work (R366, R377) -/

/-- Every core is IDLE, without a fault. -/
def coresIdle (s : State) : State :=
  (List.range 44).foldl (fun s c =>
    setCore c { getCore c s with st := .idle, wait := none, load := none, out := [], start := none, parkFrom := none, held := none, trapMask := false } s) s
/-- Engines and collectives discard their work. -/
def discardWork (s : State) : State :=
  colShow { s with engines := [], starts := [], dsps := [], slvs := [], col := { s.col with runs := [], mail := [], lost := [] } }
/-- SEQ and BROKEN clear in every VALID group entry. -/
def clearGroups (s : State) : State :=
  (List.range 256).foldl (fun s g => if grpValid g s then setGrpWord g 1 (putBits (grpWord g 1 s) 0 17 0) s else s) s

/-! ### Drains (R368 to R371) -/

/-- A drain whose copies have committed releases the pin and counts. -/
def drainCheck (s : State) : State :=
  match s.ckp.drain with
  | none => s
  | some d =>
    if d.mirror || d.durable then s
    else bumpF ckpBase R.CKP_STATUS_DRAIN_COUNT 1 (setF ckpBase R.CKP_STATUS_PINNED 0 (setF ckpBase R.CKP_STATUS_DRAINING 0
      { s with ckp := { s.ckp with drain := none } }))

/-- A drain of Firn slot `k` starts: the slot is pinned and the copies begin; the mirror slot follows from the last mirror made, or from the partner's slot heads, which
are read first. -/
def drainStart (k cut : Nat) (s : State) : State :=
  let e := partner (ckpRank s) s
  let n := s.ckp.drains + 1
  let every := effF ckpBase R.CKP_CFG_DURABLE_EVERY R.CKP_CFG_LEVEL s
  let mirror := decide (getF ckpBase R.CKP_STATUS_PARTNER_BAD s = 0)
  let ask := mirror && s.ckp.lastMirror.isNone
  let ms := if s.ckp.lastMirror = some 0 then 1 else 0
  let ds := olderSlot (fun i => slotHead (4 + i) s) s
  let dur := decide (every ≠ 0 ∧ n % every = 0)
  let d : Drain := ⟨cut, k, mirror, dur, pPartner e, pMirror e + ms * slotSize s, ms, 0, ds, ask⟩
  let s := setF ckpBase R.CKP_STATUS_PINNED (k + 1) (setF ckpBase R.CKP_STATUS_DRAINING 1
    { s with ckp := { s.ckp with drain := some d, drains := n, lastDrain := some (ckpStep s) } })
  let s := if dur then slotOpen (4 + ds) s else s
  let s := if ask then pumpReads { s with ckp := { s.ckp with reads := s.ckp.reads ++ [(farLine d.pkg (pMirror e), 2), (farLine d.pkg (pMirror e + slotSize s), 2)] } } else s
  drainCheck (pumpWrites s)

/-- MIRROR_COPY_DONE: every line is acknowledged, or the copy failed. -/
def mirrorDone (ok : Bool) (s : State) : State :=
  match s.ckp.drain with
  | none => s
  | some d =>
    if !d.mirror then s
    else if !ok then drainAbandon s
    else if d.sent < drainLines s ∨ ckpBusy false s then s
    else drainCheck { s with ckp := { s.ckp with drain := some { d with mirror := false }, lastMirror := some d.mirrorSlot } }

/-- DURABLE_COPY_DONE: the slot's used bytes go to the durable slot over Halter, the commit line last (R359, R368). -/
def durableDone (ok : Bool) (s : State) : State :=
  match s.ckp.drain with
  | none => s
  | some d =>
    if !d.durable then s
    else if !ok then drainAbandon s
    else
      let k := 4 + d.durableSlot
      let h := slotHead d.slot s
      let n := 16 * nRanges s
      let cp := fun off len (s : State) => natBytes (readOff (slotBase d.slot s + off) len s) len
      let s := slotWrite k 0 (natBytes (putBits (bitsAt h 0 1024) 160 8 d.durableSlot) 128) s
      let s := slotWrite k 0x1000 (cp 0x1000 n s) s
      let s := slotWrite k 0x10000 (cp 0x10000 (dataBytes s) s) s
      let s := slotWrite k 0x80 (cp 0x80 128 s) s
      drainCheck { s with ckp := { s.ckp with drain := some { d with durable := false }, lastDurable := some d.durableSlot } }

/-! ### COMMIT and the Firn copy (R363, R364, R386) -/

/-- Write the step to the word at CKP_NOTIFY. -/
def ckpNotify (s : State) : State :=
  writeOff (getPair ckpBase R.CKP_NOTIFY_LO_ADDR R.CKP_NOTIFY_HI_ADDR s / 8 * 8) 8 (ckpStep s) s

/-- CKP_AUDIT_PICK after the commit of step `t`: CRC-64 over t and the rank of the shard mirrored here (R386). -/
def auditPick (t : Nat) (s : State) : State :=
  if getF ckpBase R.CKP_CFG_AUDIT_EN s = 0 then s
  else match mirrored s with
    | some r => setPair ckpBase R.CKP_AUDIT_PICK_LO_VALUE R.CKP_AUDIT_PICK_HI_VALUE (crc64Go 0 (natBytes t 8 ++ natBytes r 8)) s
    | none => s

/-- COMMIT of step `t` (R363). -/
def stepCommit (t : Nat) (drain : Bool) (s : State) : State :=
  let s := auditPick t (epochSwitch true (setStep (t + 1) { s with ckp := { s.ckp with replays := 0 } }))
  if getF ckpBase R.CKP_CFG_ENABLE s = 1 then
    let k := firnPick s
    ckpState 3 (slotOpen k { s with ckp := { s.ckp with copy := some k, wantDrain := drain } })
  else ckpState 1 (ckpNotify s)

/-- FIRN_COPY_DONE: the slot commits and the notify word is written, and a drain starts; or a bad line leaves the slot uncommitted and makes a
recovery freeze (R363, R364, R368). -/
def firnDone (ok : Bool) (dur : Nat) (s : State) : State :=
  match s.ckp.copy with
  | none => s
  | some k =>
    let cut := 2 * ckpStep s
    let good := ok && !dataPoison s
    let want := s.ckp.wantDrain
    let s := slotFill k cut [] good { s with ckp := { s.ckp with copy := none, wantDrain := false } }
    let s := setF ckpBase R.CKP_COPY_NS_VALUE dur s
    if good then
      let s := ckpNotify s
      let s := if getF ckpBase R.CKP_STATUS_STATE s = 3 then ckpState 1 s else s
      if want then drainStart k cut s else s
    else recoveryFreeze 7 (raise srcCkp 0x82 2 0 0 (setF ckpBase R.CKP_STATUS_COPY_BAD 1 s))

/-! ### Restore (R375 to R377) -/

/-- A slot head that is a candidate for rank `r`: committed, with this job and range table; a freeze cut only from a local slot this package wrote. -/
def candidate (loc : Bool) (r h : Nat) (s : State) : Bool :=
  committed h && hRank h = r && hJob h = getPair ckpBase R.CKP_JOB_ID_LO_VALUE R.CKP_JOB_ID_HI_VALUE s && hSig h = rangeSig s &&
    (hKind h = 0 || (loc && hPkg h = pkgNum s))
/-- The candidate cut of a slot of this package, if it has one. -/
def cutAt (loc : Bool) (r k : Nat) (s : State) : Option Nat :=
  let h := slotHead k s
  if slotState k s = 2 && candidate loc r h s then some (hCut h) else none
/-- The candidate cuts of each source of this shard. -/
def sourceCuts (src : Nat) (s : State) : List Nat :=
  if src = 0 then [0, 1].filterMap (fun k => cutAt true (ckpRank s) k s)
  else if src = 1 then [0, 1].filterMap (fun k => let h := mirrorHead k s; if candidate false (ckpRank s) h s then some (hCut h) else none)
  else [4, 5].filterMap (fun k => cutAt false (ckpRank s) k s)
/-- The sources that CMD_ARG1 allows. -/
def sourcesOf (r : Restore) : List Nat := [0, 1, 2].filter (fun i => bitAt r.sources i)
/-- The candidate set of the shard mirrored here (PROXY). -/
def proxyCuts (s : State) : List Nat :=
  match mirrored s with
  | some r => [2, 3].filterMap (fun k => cutAt false r k s)
  | none => []

/-- Whether a read of the controller met a dead package. -/
def farDead (s : State) : Bool := !(getEng kCkp s).rxDead.isEmpty
/-- The restore leaves the controller. -/
def restoreClear (s : State) : State := farClear { s with ckp := { s.ckp with restore := none, reads := [] } }
/-- RESTORE ends without a restored cut. -/
def restoreEnd (code : Nat) (s : State) : State := cmdFinishOf 0x0C code (ckpState (ckpRest s) (restoreClear s))
/-- RESTORE ends with the cut restored: FROZEN, the Depots empty (R255), the program's work gone, or the control class put back (R377, R378). -/
def restoreDone (cut : Nat) (g2 : DWord) (s : State) : State :=
  let s := restoreClear s
  let s := if cut % 2 = 0 then discardWork (clearGroups (coresIdle s))
    else match s.ckp.saved.find? (fun e => e.2.cut = cut) with
      | some e => colShow (ctrlPut e.2 s)
      | none => s
  let s := flush (fun _ => true) true s
  let s := setStep (cut / 2) { s with ckp := { s.ckp with restored := some (cut, g2), halt := none, replays := 0, lastDrain := none, lastMirror := none } }
  let s := setPair ckpBase R.CKP_RESTORE_CUT_LO_VALUE R.CKP_RESTORE_CUT_HI_VALUE cut s
  cmdFinishOf 0x0C 0 (ckpState (cut % 2) (if s.pkg = .frozen then s else setPkg .frozen s))

/-! ### Decisions (R362, R366, R373, R376, R377) -/

/-- The cut that combined candidate sets choose: the one asked for, else the newest. -/
def chooseCut (want : DWord) (cs : List Nat) : Option Nat :=
  if want.toNat = 2 ^ 64 - 1 then cs.foldl (fun m c => match m with
    | some x => some (max x c)
    | none => some c) none
  else cs.find? (· = want.toNat)

/-- Whether a vote over a job that leaves this Caravan has SPAN 1. -/
def voteSpan (s : State) : Bool := (voteGroup s).1.any (fun p => p / 64 ≠ pkgNum s / 64)

/-- What rank 0 decides from a combined vote: OUTCOME, DRAIN, STEP and COUNT. -/
def decision (t : Nat) (v : VoteMsg) (s : State) : Nat × Bool × Nat × Nat :=
  match s.ckp.phase with
  | 1 =>
    let same := v.stepMin = t && v.stepMax = t && !v.quar
    let lim := max 1 (effF ckpBase R.CKP_CFG_REPLAY_MAX R.CKP_CFG_LEVEL s)
    let spaced := match s.ckp.lastDrain with
      | none => true
      | some l => decide (l + effF ckpBase R.CKP_DRAIN_CFG_INTERVAL R.CKP_CFG_LEVEL s ≤ t + 1)
    if same && !v.err && !v.bad then (0, v.idle && spaced, t, 0)
    else if same && decide (s.ckp.replays < lim) then (1, false, t, 0)
    else (2, false, t, 0)
  | 2 => if v.err then (2, false, t, 0) else (3, false, t, s.count.toNat + (if voteSpan s then 1000000 else 100000))
  | 3 => (if v.err then 2 else 0, false, t, 0)
  | 4 =>
    match s.ckp.restore with
    | none => (2, false, 0, 5)
    | some r =>
      if v.bad then (2, false, 0, 5)
      else if v.err then (2, false, 0, 8)
      else match chooseCut r.want (v.cuts.getD []) with
        | some c => (0, false, c, 0)
        | none => (2, false, 0, 7)
  | _ => if v.bad then (2, false, t, 5) else if v.err then (2, false, t, 8) else (3, false, t, 0)

/-- Whether an outcome answers the vote in progress. -/
def decideFits (p o : Nat) : Bool :=
  match p with
  | 1 => o ≤ 2
  | 2 => o = 2 || o = 3
  | 3 => o = 0 || o = 2
  | 4 => o = 0 || o = 2
  | 5 => o = 2 || o = 3
  | _ => false

/-- The newest own and received votes combined. -/
def voteSum (m : VoteMsg) (s : State) : VoteMsg := s.ckp.votes.foldl (fun v e => voteJoin v e.2) m

/-- The vote is open and everything below this rank has arrived. -/
def voteFull (s : State) : Bool :=
  let g := voteGroup s
  s.ckp.mine.isSome && !s.ckp.sent && (voteKids g.1.length g.2).all (fun r => s.ckp.votes.any (fun e => e.1 = r))

/-- Pass a decision down the tree. -/
def decideDown (o : Nat) (drain : Bool) (step count : Nat) (s : State) : State :=
  let g := voteGroup s
  (voteKids g.1.length g.2).foldl (fun s r => voteSend 0xD (decideSlots o drain step count) r s) s

/-- A recovery freeze after a decision (R365). -/
def failFreeze (s : State) : State := recoveryFreeze 1 s

/-- REPLAY begins: the cores become IDLE and the program's work is gone (R366). -/
def replayBegin (s : State) : State :=
  let s := discardWork (coresIdle s)
  ckpState 4 { s with ckp := { s.ckp with phase := 6 } }

/-- One more source of a restore is tried, or none is left: then the vote says so (R377). -/
def restoreStart (s : State) : State :=
  match s.ckp.restore with
  | none => s
  | some r =>
    match r.left with
    | [] => { s with ckp := { s.ckp with phase := 5, mine := some (voteOf (ckpStep s) true false none s) } }
    | src :: _ =>
      let s := { s with ckp := { s.ckp with phase := 8 } }
      if src = 1 then
        let e := partner (ckpRank s) s
        let cut := r.cut.getD 0
        match [0, 1].find? (fun k => hCut (mirrorHead k s) = cut && candidate false (ckpRank s) (mirrorHead k s) s) with
        | some k => readFrom [(farLine (pPartner e) (pMirror e + k * slotSize s + 0x10000), dataBytes s / 128)] s
        | none => s
      else s

/-- A cut is chosen: the sources that hold it are tried in order (R377). -/
def restoreChosen (cut : Nat) (s : State) : State :=
  match s.ckp.restore with
  | none => s
  | some r => restoreStart (ckpState 4 { s with ckp := { s.ckp with
      restore := some { r with cut := some cut, left := (sourcesOf r).filter (fun i => (sourceCuts i s).contains cut) } } })

/-- What a decision does on this package. -/
def decideAct (p o : Nat) (drain : Bool) (step count : Nat) (s : State) : State :=
  match p, o with
  | 1, 0 => stepCommit (ckpStep s) drain s
  | 1, 1 => if getF ckpBase R.CKP_CFG_ENABLE s = 0 then failFreeze s else replayBegin s
  | 1, _ => failFreeze s
  | 2, 3 => { s with ckp := { s.ckp with go := some (BitVec.ofNat 64 count) } }
  | 2, _ => failFreeze s
  | 3, _ => freezeDecided (o ≠ 0) s
  | 4, 0 => restoreChosen step s
  | 4, _ => restoreEnd count (raise srcCkp 0x84 2 0 0 s)
  | 5, 3 =>
    match s.ckp.restore with
    | some r => restoreDone (r.cut.getD 0) r.g2 s
    | none => s
  | 5, _ => restoreEnd count s
  | _, _ => s

/-- A decision reaches this package, or is made here: it goes down the tree, the vote closes, and it acts. -/
def onDecide (o : Nat) (drain : Bool) (step count : Nat) (s : State) : State :=
  let p := s.ckp.phase
  decideAct p o drain step count (voteClear (decideDown o drain step count s))

/-- A DECIDE message: the answer to the vote this package sent up. -/
def decideMsg (o : Nat) (drain : Bool) (step count : Nat) (s : State) : State :=
  if s.ckp.mine.isSome && s.ckp.sent && decideFits s.ckp.phase o then onDecide o drain step count s else s

/-- With every vote in, rank 0 decides; another rank sends the combined vote to its parent. -/
def voteCheck (s : State) : State :=
  match s.ckp.mine with
  | none => s
  | some m =>
    if !voteFull s then s
    else
      let v := voteSum m s
      let me := (voteGroup s).2
      if me = 0 then
        let d := decision m.stepMin v s
        onDecide d.1 d.2.1 d.2.2.1 d.2.2.2 s
      else voteSend 0xC (voteSlots v) ((me - 1) / 32) { s with ckp := { s.ckp with sent := true } }

/-- This package votes. -/
def voteCast (phase : Nat) (v : VoteMsg) (s : State) : State :=
  voteCheck { s with ckp := { s.ckp with mine := some v, sent := false, phase := phase } }

/-- VOTE arrives from a member of the job group. -/
def onVote (src : Nat) (v : VoteMsg) (s : State) : State :=
  match rankOf (voteGroup s).1 src with
  | none => s
  | some r => voteCheck { s with ckp := { s.ckp with votes := s.ckp.votes.filter (fun e => e.1 ≠ r) ++ [(r, v)] } }

/-! ### The boundary (R360, R362) -/

/-- Every core but package sequencer core 0 is IDLE or WAITING. -/
def coresQuiet (s : State) : Bool :=
  (List.range 44).all (fun c => c = 36 || (getCore c s).st = .idle || (getCore c s).st = .waiting)

/-- Whether some HBM channel is out of service (R242). -/
def anyChanOos (s : State) : Bool := s.chans.any (fun e => e.2.st = .outOfService || e.2.st = .selfTest)

/-- The vote of a boundary: ERR is taken and counts anew (R362); while a channel is out of service no step commits (R242). -/
def boundaryVote (t : Nat) (bad : Bool) (s : State) : State :=
  let s := if bad then setF ckpBase R.CKP_ERR_CODE 0x04 s else s
  let v := voteOf t (s.stepErr || anyChanOos s) bad none s
  voteCast 1 v (ckpState 2 { s with stepErr := false, ckp := { s.ckp with checking := none } })

/-- CKP_BOUNDARY: the write of _LO acts (R360). A write outside RUNNING, or while a vote is open, is ignored and recorded. -/
def boundary (path : Path) (lo : Word) (s : State) : State :=
  if s.pkg ≠ .running ∨ s.ckp.phase ≠ 0 ∨ s.ckp.checking.isSome then rejectWrite path (ckpBase + 0x18) lo.toNat s
  else
    let t := lo.toNat + 2 ^ 32 * s.ckp.boundaryHi.toNat
    if t ≠ ckpStep s || !allEnginesIdle s then boundaryVote t true s
    else if coresQuiet s then boundaryVote t false s
    else { s with ckp := { s.ckp with checking := some (BitVec.ofNat 64 t) } }

/-- The open check of a boundary: it ends well once the cores are quiet. -/
def ckpPoll (s : State) : State :=
  match s.ckp.checking with
  | some t => if coresQuiet s then boundaryVote t.toNat false s else s
  | none => s

/-- BOUNDARY_CHECK_TIMEOUT: 10 us after the write. -/
def boundaryTimeout (s : State) : State :=
  match s.ckp.checking with
  | some t => boundaryVote t.toNat (!coresQuiet s) s
  | none => s

/-! ### Replay (R366) -/

/-- REPLAY_RESTORE_DONE: the ranges come from the slot of cut 2t, and the package votes again. -/
def replayRestored (ok : Bool) (s : State) : State :=
  if s.ckp.phase ≠ 6 then s
  else
    let t := ckpStep s
    let r := match slotOfCut (2 * t) s with
      | none => (false, s)
      | some k =>
        let l := slotLoad k s
        let s' := l.2.2
        (l.1, if l.2.1 then setF ckpBase R.CKP_ERR_CODE 0x05 { s' with ckp := { s'.ckp with bad := k :: s'.ckp.bad } } else s')
    let s := clearGroups r.2
    let s := bumpF ckpBase R.CKP_STATUS_REPLAY_COUNT 1 (setF ckpBase R.CKP_STATUS_REPLAYED 1 s)
    let s := raise srcCkp 0x80 1 0 0 { s with ckp := { s.ckp with replays := s.ckp.replays + 1 } }
    voteCast 2 (voteOf t (!(ok && r.1)) false none s) s

/-- REPLAY_RESTART: at COUNT the package sequencer cores start at CKP_ENTRY (R366). -/
def replayRestart (s : State) : State :=
  match s.ckp.go with
  | none => s
  | some c =>
    if s.count < c then s
    else
      let e := getPair ckpBase R.CKP_ENTRY_LO_ADDR R.CKP_ENTRY_HI_ADDR s
      ckpState 1 (startPsc (BitVec.ofNat 48 e) (BitVec.ofNat 64 (ckpStep s)) 0 { s with ckp := { s.ckp with go := none } })

/-! ### The all-stop cut (R373, R374) -/

/-- FREEZE. -/
def freezeCmd (path : Path) (s : State) : State :=
  plainCommand path 0x0A (fun s => ckpState 5
    { s with freezeF := some (BitVec.ofNat 64 (cmdArg 0 s)), ckp := { s.ckp with freeze := some (bitAt (cmdArg 1 s) 0, 0) } }) s

/-- FREEZE_PHASE1_READY: parked, settled, and every remote write issued before the park answered or expired. A package halted by a recovery freeze
meanwhile sends no vote and saves nothing (R365). -/
def phase1Ready (s : State) : State :=
  let s := frozenCheck s
  match s.ckp.freeze with
  | some (_, 0) =>
    if s.ckp.halt.isSome then
      if s.pkg = .frozen then
        freezeSkip s
      else s
    else if s.pkg = .frozen && colSettled s && !hasTxn (fun x => !x.isRead) s then
      voteCast 3 (voteOf (ckpStep s) s.stepErr false none s) { s with ckp := { s.ckp with freeze := s.ckp.freeze.map (fun f => (f.1, 1)) } }
    else s
  | _ => s

/-- FREEZE_SAVE_DONE: once no Depot flushes any more (R255), the freeze cut goes to the slot without the inputs of the current step, and FREEZE completes (R373, R374). -/
def freezeSaved (s : State) : State :=
  match s.ckp.freeze with
  | some (save, n) =>
    if n < 2 ∨ [0, 1, 2, 3].any (fun d => getF (depBase d) R.DEP_STATUS_FLUSHING s = 1) then s
    else
      let s := { s with ckp := { s.ckp with freeze := none } }
      let s := if !save || n = 3 then s
        else
          let k := if inputSlot s = some 0 then 1 else 0
          let cut := 2 * ckpStep s + 1
          let s := if getF ckpBase R.CKP_STATUS_PINNED s = k + 1 then drainAbandon s else s
          let good := !dataPoison s
          let ctrl := ctrlBlock s
          let img := ctrlTake cut s
          let s := slotFill k cut ctrl good (slotOpen k { s with fresh := s.fresh + 1 })
          if good then { s with ckp := { s.ckp with saved := sIns k img s.ckp.saved } }
          else raise srcCkp 0x82 2 0 0 (setF ckpBase R.CKP_STATUS_COPY_BAD 1 s)
      let s := if s.ckp.copy.isSome then ckpState 3 s else ckpState (ckpRest s) s
      cmdFinishOf 0x0A 0 s
  | none => s

/-! ### RESTORE, TAKEOVER, RECOVER -/

/-- The candidate set is complete: the package votes it (R375, R376). -/
def restoreVote (s : State) : State :=
  match s.ckp.restore with
  | none => s
  | some r =>
    let own := ((sourcesOf r).flatMap (fun i => sourceCuts i s)).dedup
    let px := proxyCuts s
    let proxy := bitAt r.sources 3
    let err := own.isEmpty || (proxy && px.isEmpty)
    voteCast 4 (voteOf (ckpStep s) err (farDead s) (some (if proxy then own.filter (fun c => px.contains c) else own)) s) s

/-- RESTORE: the candidate set is formed, reading the partner's slots where they are allowed. -/
def restoreCmd (path : Path) (s : State) : State :=
  plainCommand path 0x0C (fun s =>
    let r : Restore := ⟨cmdArg 1 s, BitVec.ofNat 64 (cmdArg 0 s), BitVec.ofNat 64 (cmdArg 2 s), none, []⟩
    let s := ckpState 4 (farClear { s with ckp := { s.ckp with restore := some r, restored := none, auditN := none, copy := none, wantDrain := false } })
    if bitAt r.sources 1 then
      let e := partner (ckpRank s) s
      readFrom [(farLine (pPartner e) (pMirror e), 2), (farLine (pPartner e) (pMirror e + slotSize s), 2)]
        { s with ckp := { s.ckp with phase := 7 } }
    else restoreVote s) s

/-- RESTORE_COPY_DONE: the copy is checked as it is read; a bad one gives way to the next source, a dead source ends the restore (R377). -/
def restoreCopied (ok : Bool) (s : State) : State :=
  match s.ckp.restore with
  | none => s
  | some r =>
    if s.ckp.phase ≠ 8 ∨ !s.ckp.reads.isEmpty ∨ ckpBusy true s then s
    else
      let cut := r.cut.getD 0
      let src := r.left.headD 0
      if farDead s then voteCast 5 (voteOf (ckpStep s) false true none s) s
      else
        let l : Bool × Bool × State := if src = 1 then
            let e := partner (ckpRank s) s
            let k := if hCut (mirrorHead 0 s) = cut then 0 else 1
            let bs := natBytes (farRead (pPartner e) (pMirror e + k * slotSize s + 0x10000) (dataBytes s) s) (dataBytes s)
            let bad := decide (crc64Go 0 bs ≠ hDigest (mirrorHead k s))
            (!bad && (getEng kCkp s).rxPoison.isEmpty, bad, scatterData (ranges s) bs s)
          else match (if src = 0 then [0, 1] else [4, 5]).find? (fun k => cutAt (src = 0) (ckpRank s) k s = some cut) with
            | some k =>
              let x := slotLoad k s
              let s' := x.2.2
              (x.1, x.2.1, if x.2.1 then { s' with ckp := { s'.ckp with bad := k :: s'.ckp.bad } } else s')
            | none => (false, false, s)
        let s := l.2.2
        if ok && l.1 then
          let s := if src = 2 then raise srcCkp 0x85 3 0 0 s else s
          voteCast 5 (voteOf (ckpStep s) false false none s) s
        else
          let s := if l.2.1 then setF ckpBase R.CKP_ERR_CODE 0x05 s else s
          let s := raise srcCkp 0x82 2 0 0 s
          voteCheck (restoreStart { s with ckp := { s.ckp with restore := some { r with left := r.left.tail } } })

/-- A request of the controller was answered: its traffic goes on, and a candidate set may be complete. -/
def ckpWake (s : State) : State :=
  let s := pumpReads (pumpWrites s)
  if s.ckp.phase = 7 ∧ s.ckp.reads.isEmpty ∧ ckpBusy true s = false then restoreVote s else s

/-- A request of the controller met its dead-target bound: a drain is abandoned (R371); a read stops, and a restore ends with TIMEOUT (R377, R383). -/
def ckpDead (isRead : Bool) (s : State) : State :=
  if isRead then
    let s := { s with ckp := { s.ckp with reads := [] } }
    if s.ckp.phase = 7 then restoreVote s
    else if s.ckp.phase = 8 then voteCast 5 (voteOf (ckpStep s) false true none s) s
    else if s.ckp.drain.any (fun d => d.asked) then drainAbandon s
    else s
  else drainAbandon s

/-- TAKEOVER: the spare becomes the member of the rank (R381). -/
def takeoverCmd (path : Path) (s : State) : State :=
  plainCommand path 0x0D (fun s =>
    cmdFinish 0 (partnerCheck (setF ckpBase R.CKP_RANK_RANK (cmdArg 0 s) (setF ckpBase R.CKP_RANK_ROLE 0
      { s with ckp := { s.ckp with lastMirror := none, lastDrain := none } })))) s

/-- RECOVER: FROZEN with every core IDLE and every queue empty (R433). -/
def recoverCmd (path : Path) (s : State) : State :=
  plainCommand path 0x0E (fun s =>
    cmdFinish 0 (setPkg .frozen (discardWork (coresIdle (copyClear (voteClear (drainAbandon { s with freezeF := none, cause := 0 }))))))) s

/-! ### The commands -/

/-- CORE_START_AT_COUNT (R158); a drain that the freeze held back goes on. -/
def execCoreStartAtCount (s : State) : Host.Outcome State Fault Refusal := .next (pumpWrites (coreStartAtCount s))
/-- CKP_ENABLE (R357). -/
def execCkpEnable (_path : Path) (s : State) : Host.Outcome State Fault Refusal := .next (ckpEnable s)
/-- CKP_BOUNDARY (R360). -/
def execCkpBoundary (path : Path) (lo : Word) (s : State) : Host.Outcome State Fault Refusal := .next (boundary path lo s)
/-- VOTE (R361). -/
def execVote (src : BitVec 16) (v : VoteMsg) (s : State) : Host.Outcome State Fault Refusal := .next (onVote src.toNat v s)
/-- DECIDE_COMMIT (R363); in a restore it names the chosen cut (R376). -/
def execDecideCommit (t : DWord) (drain : Bool) (s : State) : Host.Outcome State Fault Refusal :=
  .next (if s.ckp.phase = 3 then s else voteCheck (decideMsg 0 drain t.toNat 0 s))
/-- DECIDE_REPLAY (R366). -/
def execDecideReplay (t : DWord) (s : State) : Host.Outcome State Fault Refusal := .next (decideMsg 1 false t.toNat 0 s)
/-- DECIDE_FAIL (R365); in a restore it carries the status code (R376, R377). -/
def execDecideFail (t : DWord) (code : Byte) (s : State) : Host.Outcome State Fault Refusal :=
  .next (if s.ckp.phase = 3 then s else decideMsg 2 false t.toNat code.toNat s)
/-- DECIDE_GO (R366); in a restore every member is done (R377). -/
def execDecideGo (t c : DWord) (s : State) : Host.Outcome State Fault Refusal := .next (decideMsg 3 false t.toNat c.toNat s)
/-- REPLAY_RESTART (R366). -/
def execReplayRestart (s : State) : Host.Outcome State Fault Refusal := .next (replayRestart s)
/-- FIRN_COPY_DONE (R363, R364). -/
def execFirnCopyDone (ok : Bool) (ns : Word) (s : State) : Host.Outcome State Fault Refusal := .next (firnDone ok ns.toNat s)
/-- MIRROR_COPY_DONE (R368). -/
def execMirrorCopyDone (ok : Bool) (s : State) : Host.Outcome State Fault Refusal := .next (mirrorDone ok s)
/-- DURABLE_COPY_DONE (R368). -/
def execDurableCopyDone (ok : Bool) (s : State) : Host.Outcome State Fault Refusal := .next (durableDone ok s)
/-- FREEZE (R373). -/
def execFreeze (path : Path) (s : State) : Host.Outcome State Fault Refusal := .next (freezeCmd path s)
/-- FREEZE_PHASE1_READY (R373). -/
def execFreezePhase1Ready (s : State) : Host.Outcome State Fault Refusal := .next (phase1Ready s)
/-- FREEZE_DECIDE (R373). -/
def execFreezeDecide (err : Bool) (s : State) : Host.Outcome State Fault Refusal :=
  .next (if s.ckp.phase = 3 then decideMsg (if err then 2 else 0) false 0 0 s else s)
/-- FREEZE_SAVE_DONE (R373). -/
def execFreezeSaveDone (s : State) : Host.Outcome State Fault Refusal := .next (freezeSaved s)
/-- RESTORE (R375). -/
def execRestore (path : Path) (s : State) : Host.Outcome State Fault Refusal := .next (restoreCmd path s)
/-- RESTORE_COPY_DONE (R377). -/
def execRestoreCopyDone (ok : Bool) (s : State) : Host.Outcome State Fault Refusal := .next (restoreCopied ok s)
/-- TAKEOVER (R381). -/
def execTakeover (path : Path) (s : State) : Host.Outcome State Fault Refusal := .next (takeoverCmd path s)
/-- RECOVER (R433). -/
def execRecover (path : Path) (s : State) : Host.Outcome State Fault Refusal := .next (recoverCmd path s)
/-- REPLAY_RESTORE_DONE (R366). -/
def execReplayRestoreDone (ok : Bool) (s : State) : Host.Outcome State Fault Refusal := .next (replayRestored ok s)
/-- BOUNDARY_CHECK_TIMEOUT (R360). -/
def execBoundaryCheckTimeout (s : State) : Host.Outcome State Fault Refusal := .next (boundaryTimeout s)

end Sys2Proof.Machine
end

