-- ==== Sys2Proof/Machine/Logbook.lean ====
section
/-! DEFINITION. The Logbook: accepting, merging, storing and replacing records, notices, and the cursors (R434 to R441). -/

namespace Sys2Proof.Machine

/-- The records the buffer holds: 4,096 on stepping B1, 8,192 on B2 and C0 (R420). -/
def bufferFull (n : Nat) : Bool := if n < 4096 then false else if Config.stepping = 0 then true else decide (8192 ≤ n)

/-- The eight words of a record (R434). -/
def recWords (r : Rec) : List Word :=
  [r.seq,
   BitVec.ofNat 32 (r.code % 256 + r.sev % 4 * 2 ^ 8 + b2n r.lostBefore * 2 ^ 10 + b2n r.late * 2 ^ 11 + r.upd % 16 * 2 ^ 12
     + r.src % 2 ^ 16 * 2 ^ 16),
   BitVec.ofNat 32 r.time.toNat, BitVec.ofNat 32 (r.time.toNat / 2 ^ 32),
   BitVec.ofNat 32 (r.rep + r.arg1 % 2 ^ 16 * 2 ^ 16), BitVec.ofNat 32 r.lastDt,
   BitVec.ofNat 32 r.arg0.toNat, BitVec.ofNat 32 (r.arg0.toNat / 2 ^ 32)]

/-- EVR_OLDEST: the least SEQ present, or EVR_HEAD (R441). -/
def oldestSeq (s : State) : Word :=
  match s.log.recs with
  | r :: _ => r.seq
  | [] => s.log.head

/-- Apply a change to the three cursors. -/
def mapCursors (f : Cursor → Cursor) (s : State) : State :=
  { s with log := { s.log with cur0 := f s.log.cur0, cur1 := f s.log.cur1, cur2 := f s.log.cur2 } }

/-- The latched record was merged (STALE, R440). -/
def markStale (q : Word) (s : State) : State :=
  mapCursors (fun c => if c.valid && !c.gone && c.seq = q then { c with stale := true } else c) s
/-- The latched record is no longer present (GONE, R440). -/
def markGone (q : Word) (s : State) : State :=
  mapCursors (fun c => if c.valid && c.seq = q then { c with gone := true } else c) s

/-- A record of severity 3 enters the Cairn record (R437, R464); a notice word and an interrupt are sent as configured (R441). -/
def afterStore (r : Rec) (s : State) : State :=
  let s := if r.sev = 3 then cairnAdd 3 ((recWords r).map BitVec.toNat) s else s
  let s := if getF evrBase R.EVR_CFG_NOTIFY_EN s = 1 ∧ r.sev ≥ getF evrBase R.EVR_CFG_NOTIFY_SEV s then
      writeOff (getPair evrBase R.EVR_NOTIFY_LO_ADDR R.EVR_NOTIFY_HI_ADDR s / 8 * 8 % 2 ^ 48) 8 (r.seq.toNat + r.sev * 2 ^ 32) s
    else s
  if r.sev < getF evrBase R.EVR_CFG_IBI_SEV s then s
  else if getF pkgBase R.PKG_INPUTS_SB_MODE s = 0 then { s with log := { s.log with ibi := true } }
  else if s.log.ibiEn then { s with out := s.out ++ [.sideband (natBytes r.seq.toNat 4)] }
  else s

/-- Whether event `e` merges into record `r`, the newest of its code and source (R436). A THROTTLE episode repeats the record of the same reason,
which ARG0 [7:0] holds, whatever its duration (R410). -/
def mergesWith (e : Event) (r : Rec) : Bool :=
  (if e.code = 0x90 then r.arg0.toNat % 256 = e.arg0.toNat % 256 else r.arg0 = e.arg0) && decide (r.rep < 0xFFFF) && r.sev = e.sev &&
    decide (e.time.toNat ≤ r.latest.toNat + 1000 * e.window) && decide (r.latest.toNat ≤ e.time.toNat + 1000 * e.window)

/-- The record after one merge (R436). -/
def mergeRec (e : Event) (r : Rec) : Rec :=
  { r with rep := r.rep + 1, upd := (r.upd + 1) % 16, lastDt := min ((e.time.toNat - r.time.toNat) / 1000) (2 ^ 32 - 1), latest := e.time }

/-- Replace the last record of a list that `sel` selects. -/
def replaceLast (sel : Rec → Bool) (f : Rec → Rec) (l : List Rec) : List Rec :=
  let rec go : List Rec → List Rec
    | [] => []
    | r :: m => if sel r then f r :: m else r :: go m
  (go l.reverse).reverse

/-- The lowest severity present. -/
def lowestSev (l : List Rec) : Nat := l.foldl (fun m r => min m r.sev) 4

/-- Store an event as a new record; a full buffer replaces the oldest record of the lowest severity, or the event is dropped (R438, R439). -/
def storeNew (e : Event) (late : Bool) (s : State) : State :=
  let put := fun (s : State) =>
    let r : Rec := ⟨s.log.head, e.code, e.sev, s.log.lost.contains e.src, late, 0, e.src, e.time, 0, e.arg1, 0, e.arg0, e.time⟩
    afterStore r { s with log := { s.log with recs := s.log.recs ++ [r], head := s.log.head + 1, lost := s.log.lost.filter (· ≠ e.src) } }
  if bufferFull s.log.recs.length then
    let m := lowestSev s.log.recs
    if m ≤ e.sev then
      match s.log.recs.find? (fun r => r.sev = m) with
      | some r => put (markGone r.seq { s with log := { s.log with recs := s.log.recs.eraseP (fun x => x.sev = m) } })
      | none => put s
    else dropEvent e.src e.sev s
  else put s

/-- An event leaves the hold: it is merged into the newest record of its code and source, or stored (R435, R436). -/
def storeEvent (e : Event) (late : Bool) (s : State) : State :=
  let same := fun (r : Rec) => r.code = e.code && r.src = e.src
  match s.log.recs.reverse.find? same with
  | some r =>
    if mergesWith e r then
      afterStore (mergeRec e r) (markStale r.seq { s with log := { s.log with recs := replaceLast same (mergeRec e) s.log.recs } })
    else storeNew e late s
  | none => storeNew e late s

/-- The order of records with equal TIME: ascending SRC (R435), and for core faults ascending CORE_ID (R164), in which the package sequencer cores, 64 + n, come
after the Drover cores (log 193). -/
def holdOrder (e : Event) : Nat := if e.code = 0x10 ∧ e.src / 0x1000 = 1 then 0x2040 + e.src % 0x1000 else e.src

/-- Insert into the hold in ascending TIME, then SRC (R164, R435). -/
def holdInsert (e : Event) : List Event → List Event
  | [] => [e]
  | x :: m => if e.time < x.time || (e.time = x.time && decide (holdOrder e < holdOrder x)) then e :: x :: m else x :: holdInsert e m

/-- EVENT_ACCEPT: the oldest event of a source's queue enters the hold; one more than 4 us late is numbered on arrival (R435). -/
def eventAccept (src : Nat) (s : State) : State :=
  match sGet [] s.log.queues src with
  | [] => s
  | e :: rest =>
    let s := { s with log := { s.log with queues := if rest.isEmpty then sDel src s.log.queues else sIns src rest s.log.queues } }
    if s.count.toNat > e.time.toNat + 4000 then storeEvent e true s
    else { s with log := { s.log with hold := holdInsert e s.log.hold } }

/-- EVENT_STORE: the first event in the hold's order is numbered (R435). -/
def eventStore (s : State) : State :=
  match s.log.hold with
  | [] => s
  | e :: rest => storeEvent e false { s with log := { s.log with hold := rest } }

/-! ### Cursors (R440) -/

/-- Cursor `k`. -/
def getCur (k : Nat) (s : State) : Cursor := if k = 0 then s.log.cur0 else if k = 1 then s.log.cur1 else s.log.cur2
/-- Replace cursor `k`. -/
def setCur (k : Nat) (c : Cursor) (s : State) : State :=
  { s with log := if k = 0 then { s.log with cur0 := c } else if k = 1 then { s.log with cur1 := c } else { s.log with cur2 := c } }

/-- Latch the present record whose SEQ is the least at or after `v`, by distance from EVR_OLDEST (R440). -/
def latch (k : Nat) (v : Word) (s : State) : State :=
  let o := oldestSeq s
  let d := fun (x : Word) => (x - o).toNat
  let before := 1 ≤ (o - v).toNat && (o - v).toNat ≤ 2 ^ 31
  match s.log.recs.find? (fun r => before || d r.seq ≥ d v) with
  | some r => setCur k ⟨some (r.seq + 1), r.seq, true, false, false, false, recWords r⟩ s
  | none => setCur k ⟨some v, 0, false, true, false, false, []⟩ s

/-- EVR_CUR_SEQ (R440). -/
def curSeq (k : Nat) (v : Word) (s : State) : State := latch k v s
/-- EVR_CUR_NEXT (R440). -/
def curNext (k : Nat) (s : State) : State := latch k ((getCur k s).sought.getD (oldestSeq s)) s

/-- EVR_CUR_INFO. -/
def curInfo (c : Cursor) : Nat := b2n c.valid + 2 * b2n c.atEnd + 4 * b2n c.stale + 8 * b2n c.gone

/-- Whether the service authorisation in force names operation bit `i` (R468, R469). -/
def opsBit (i : Nat) (s : State) : Bool := s.pkg = .service && bitAt (s.sec.ops.getD 0) i

/-- EVR_CLEAR: in SERVICE, under the authorisation's EVR_CLEAR bit, every record is discarded; else it is ignored and logged (R441, R469). -/
def evrClear (path : Path) (data : Nat) (s : State) : State :=
  if opsBit 1 s then
    mapCursors (fun c => if c.valid then { c with gone := true } else c) { s with log := { s.log with recs := [] } }
  else rejectWrite path (evrBase + R.EVR_CLEAR_GO.off) data s

/-- EVENT_ACCEPT (R435). -/
def execEventAccept (src : BitVec 16) (s : State) : Host.Outcome State Fault Refusal :=
  .next (eventAccept src.toNat s)

/-- EVENT_STORE (R435). -/
def execEventStore (s : State) : Host.Outcome State Fault Refusal :=
  .next (eventStore s)

/-- EVR_CUR_SEQ (R440). -/
def execEvrCurSeq (cur : Fin 3) (seq : Word) (s : State) : Host.Outcome State Fault Refusal :=
  .next (curSeq cur seq s)

/-- EVR_CUR_NEXT (R440). -/
def execEvrCurNext (cur : Fin 3) (s : State) : Host.Outcome State Fault Refusal :=
  .next (curNext cur s)

/-- EVR_CLEAR (R441). -/
def execEvrClear (path : Path) (s : State) : Host.Outcome State Fault Refusal :=
  .next (evrClear path 1 s)

end Sys2Proof.Machine
end

