-- ==== Sys2Proof/Machine/Audit.lean ====
section
/-! DEFINITION. The audit duty, suspicion and quarantine (R386 to R388). -/

namespace Sys2Proof.Machine

/-- Base of slot `k` of the digest log (R342). -/
def digSlot (k : Nat) (s : State) : Nat :=
  getPair gctBase R.GCT_DIG_BASE_LO_ADDR R.GCT_DIG_BASE_HI_ADDR s / 128 * 128 + k * (64 + 32 * getF gctBase R.GCT_DIG_SLOT_RECORDS s)
/-- Entry `i` of the audit log: the local offset of the recomputed record and the index of the owner's. -/
def auditEntry (i : Nat) (s : State) : Nat × Nat :=
  let a := getPair ckpBase R.CKP_AUDIT_LOG_LO_ADDR R.CKP_AUDIT_LOG_HI_ADDR s + 16 * i
  (readOff a 8 s, readOff (a + 8) 8 s)
/-- Local offset of the owner's record `i` of the step committed last; the owner's digest log is taken to lie where this package's does. -/
def auditAt (i : Nat) (s : State) : Nat := digSlot ((ckpStep s + 1) % 2) s + 64 + 32 * i
/-- The package whose shard is audited here. -/
def auditOwner (s : State) : Option Nat := (mirrored s).map (fun r => pPkg (partner r s))

/-- CKP_AUDIT_GO: the owner's records are read (R387). -/
def auditGo (n : Nat) (s : State) : State :=
  if getF ckpBase R.CKP_CFG_AUDIT_EN s = 0 ∨ s.ckp.auditN.isSome then s
  else match auditOwner s with
    | none => s
    | some p =>
      let rs := (List.range n).map (fun i => let a := auditAt (auditEntry i s).2 s; (farLine p a, (a % 128 + 159) / 128))
      readFrom rs (farClear { s with ckp := { s.ckp with auditN := some n } })

/-- The hottest junction of the package in degrees C. -/
def hottest (s : State) : Nat := (List.range 7).foldl (fun m d => max m (sGet 0 s.pwr.hotC d)) 0
/-- The conditions of a mismatch: 10 degree band of the hottest die, operating point, load tag. -/
def auditConds (s : State) : Nat × Nat × Nat :=
  (hottest s / 10, getF pwrBase R.PWR_STATUS_OP s, getF ckpBase R.CKP_LOAD_TAG_TAG s)
/-- THRESH in force; 0 acts as 1. -/
def thresh (s : State) : Nat := max 1 (effF ckpBase R.CKP_AUDIT_CFG_THRESH R.CKP_CFG_LEVEL s)

/-- A mismatch on either side: the score, its repeat under the same conditions, the last conditions, and the quarantine at THRESH (R387, R388). -/
def suspect (auditee : Bool) (other : Nat) (s : State) : State :=
  let c := auditConds s
  let sc := satAdd 16 (getF ckpBase R.CKP_SUSPICION_SCORE s) (if s.ckp.conds = some c then 2 else 1)
  let s := setF ckpBase R.CKP_SUSPICION_SCORE sc (bumpF ckpBase R.CKP_SUSPICION_MISMATCHES 1 { s with ckp := { s.ckp with conds := some c } })
  let s := setF ckpBase R.CKP_AUDIT_LAST_TEMP (min (hottest s) 255) (setF ckpBase R.CKP_AUDIT_LAST_OP c.2.1
    (setF ckpBase R.CKP_AUDIT_LAST_LOAD c.2.2 (setF ckpBase R.CKP_AUDIT_LAST_ROLE (b2n auditee) s)))
  if sc ≥ thresh s ∧ getF ckpBase R.CKP_STATUS_QUARANTINED s = 0 then
    cairnAdd 7 [other, b2n auditee, c.1, c.2.1, c.2.2, sc, 0] (raise srcCkp 0x88 3 0 0 (setF ckpBase R.CKP_STATUS_QUARANTINED 1 s))
  else s

/-- The AUDIT_MISMATCH record: owner, layer and piece (R387, R434). -/
def auditRecord (owner layer piece : Nat) (s : State) : State :=
  raise srcCkp 0x87 1 (owner + layer * 2 ^ 16 + piece % 2 ^ 16 * 2 ^ 48) (piece / 2 ^ 16) s

/-- The owner's record for entry `i`, if its lines came from a live package. -/
def ownerRecord (p i : Nat) (s : State) : Option Nat :=
  let a := auditAt (auditEntry i s).2 s
  if (List.range ((a % 128 + 159) / 128)).any (fun j => (getEng kCkp s).rxDead.contains (farLine p a + j)) then none
  else some (farRead p a 32 s)

/-- AUDIT_DONE: LAYER, PIECE, BYTES and CRC of every entry are compared (R387). -/
def auditDone (s : State) : State :=
  match s.ckp.auditN, auditOwner s with
  | some n, some p =>
    if !s.ckp.reads.isEmpty || ckpBusy true s then s
    else
      let wrong := (List.range n).filter (fun i => match ownerRecord p i s with
        | some r => bitsAt r 0 192 ≠ readOff (auditEntry i s).1 24 s
        | none => false)
      let tell := wrong.map (fun i => let v := readOff (auditEntry i s).1 8 s; (v % 2 ^ 32, v / 2 ^ 32))
      let s := farClear { s with ckp := { s.ckp with auditN := none } }
      if tell.isEmpty then
        let c := s.ckp.clean + 1
        let decay := 32 * max 1 (effF ckpBase R.CKP_AUDIT_CFG_DECAY R.CKP_CFG_LEVEL s)
        if c ≥ decay then setF ckpBase R.CKP_SUSPICION_SCORE (getF ckpBase R.CKP_SUSPICION_SCORE s - 1) { s with ckp := { s.ckp with clean := 0 } }
        else { s with ckp := { s.ckp with clean := c } }
      else tell.foldl (fun s e => suspect false p (emit (.control "AUDIT_MISMATCH" p [e.1, e.2]) (auditRecord p e.1 e.2 s))) s
  | _, _ => s

/-- AUDIT_MISMATCH: the auditor's report reaches the owner, which logs it and scores it (R387). -/
def auditReport (auditor layer piece : Nat) (s : State) : State :=
  suspect true auditor (auditRecord (pkgNum s) layer piece s)

/-- SUSPICION_CLEAR: in SERVICE under QUARANTINE_CLEAR the quarantine is lifted and entered; else the write is ignored and recorded (R388, R469). -/
def suspicionClear (path : Path) (s : State) : State :=
  if opsBit 2 s then cairnAdd 7 [1] (setF ckpBase R.CKP_STATUS_QUARANTINED 0 s)
  else rejectWrite path (ckpBase + 0xE8) (2 ^ 31) s

/-- CKP_AUDIT_GO (R387). -/
def execCkpAuditGo (n : BitVec 16) (s : State) : Host.Outcome State Fault Refusal := .next (auditGo n.toNat s)
/-- AUDIT_DONE (R387). -/
def execAuditDone (s : State) : Host.Outcome State Fault Refusal := .next (auditDone s)
/-- AUDIT_MISMATCH (R387). -/
def execAuditMismatch (auditor : BitVec 16) (layer piece : Word) (s : State) : Host.Outcome State Fault Refusal :=
  .next (auditReport auditor.toNat layer.toNat piece.toNat s)
/-- SUSPICION_CLEAR (R388). -/
def execSuspicionClear (path : Path) (s : State) : Host.Outcome State Fault Refusal := .next (suspicionClear path s)

end Sys2Proof.Machine
end

