-- ==== Sys2Proof/Machine/Porter.lean ====
section
/-! DEFINITION. The Porters (R186 to R197): strided copies, gather, scatter, transpose and fill, remote layouts, bitmaps, digests
and summaries. -/

namespace Sys2Proof.Machine

/-- The 128-byte descriptor (R186). -/
structure PorD where
  d : Nat

def PorD.op (x : PorD) : Nat := bitsAt x.d 0 3
def PorD.elem (x : PorD) : Nat := bitsAt x.d 3 4
def PorD.bmpEn (x : PorD) : Bool := bitAt x.d 7
def PorD.digEn (x : PorD) : Bool := bitAt x.d 8
def PorD.lat (x : PorD) : Bool := bitAt x.d 11
def PorD.idxFmt (x : PorD) : Nat := bitsAt x.d 9 2
def PorD.e0 (x : PorD) : Nat := bitsAt (dw x.d 1) 0 20 + 1
def PorD.e1 (x : PorD) : Nat := bitsAt (dw x.d 2) 0 20 + 1
def PorD.e2 (x : PorD) : Nat := bitsAt (dw x.d 3) 0 16 + 1
def PorD.src (x : PorD) : Nat := dq x.d 16
def PorD.dst (x : PorD) : Nat := dq x.d 24
/-- SRC_S1, SRC_S2, DST_S1, DST_S2 as signed strides. -/
def PorD.str (x : PorD) (i : Nat) : Int := signed 32 (dw x.d (8 + i))
/-- SRC_S2 or DST_S2 read as a row count (R187). -/
def PorD.rowsOf (x : PorD) (i : Nat) : Nat := dw x.d (8 + i)
def PorD.idx (x : PorD) : Nat := dq x.d 48
def PorD.bias (x : PorD) : Nat := dw x.d 14
def PorD.mul (x : PorD) : Nat := bitsAt (dw x.d 15) 0 16
def PorD.bmp (x : PorD) : Nat := dq x.d 64
def PorD.dig (x : PorD) : Nat := dq x.d 72
def PorD.fill (x : PorD) : Nat := dq x.d 88
/-- Element width in bits. -/
def PorD.w (x : PorD) : Nat := codeBits x.elem
/-- Bytes of a row of the source. -/
def PorD.rowB (x : PorD) : Nat := (x.e0 * x.w + 7) / 8
/-- Bytes of a row of the destination. -/
def PorD.dstB (x : PorD) : Nat := if x.op = 3 then x.e1 * (x.w / 8) else x.rowB
/-- Bytes of an index entry. -/
def PorD.idxB (x : PorD) : Nat := if x.idxFmt = 0 then 4 else 8
/-- GATHER or SCATTER. -/
def PorD.indexed (x : PorD) : Bool := x.op = 1 || x.op = 2

/-- A base plus signed strides, modulo 2^64. -/
def at64 (base : Nat) (o : Int) : Nat := wrap 64 ((base : Int) + o)
/-- Address of source row `r` of plane `p`. -/
def PorD.srcRow (x : PorD) (p r : Nat) : Nat := at64 x.src ((r : Int) * x.str 0 + (if x.op = 0 then (p : Int) * x.str 1 else 0))
/-- Address of destination row `r` of plane `p`. -/
def PorD.dstRow (x : PorD) (p r : Nat) : Nat := at64 x.dst ((r : Int) * x.str 2 + (if x.op = 0 ∨ x.op = 4 then (p : Int) * x.str 3 else 0))
/-- Rows of a destination plane. -/
def PorD.dstRows (x : PorD) : Nat := if x.op = 3 then x.e0 else x.e1

/-- Every row that can be read, every row that can be written, the index list, bitmap and digest record. -/
def PorD.srcRanges (x : PorD) : List (Nat × Nat) :=
  if x.op = 4 then []
  else if x.op = 1 then (List.range (x.rowsOf 1)).map (fun r => (x.srcRow 0 r, x.rowB))
  else (List.range (if x.op = 0 then x.e2 else 1)).flatMap (fun p => (List.range x.e1).map (fun r => (x.srcRow p r, x.rowB)))
def PorD.dstRanges (x : PorD) : List (Nat × Nat) :=
  if x.op = 2 then (List.range (x.rowsOf 3)).map (fun r => (x.dstRow 0 r, x.dstB))
  else (List.range (if x.op = 0 ∨ x.op = 4 then x.e2 else 1)).flatMap (fun p => (List.range x.dstRows).map (fun r => (x.dstRow p r, x.dstB)))
def PorD.idxRange (x : PorD) : List (Nat × Nat) := if x.indexed then [(x.idx, x.e1 * x.idxB)] else []
/-- Rows and elements of the destination tensor (R190). -/
def PorD.bmpDims (x : PorD) : Nat × Nat := if x.op = 3 then (x.e0, x.e1) else (x.e2 * x.e1, x.e0)
def PorD.bmpRange (x : PorD) : List (Nat × Nat) := if x.bmpEn then [(x.bmp, bmBytes x.bmpDims.1 x.bmpDims.2)] else []
def PorD.digRange (x : PorD) : List (Nat × Nat) := if x.digEn then [(x.dig, 32)] else []

/-- The destination is another package or this package's reduction window (R189). -/
def porWhole (x : PorD) (s : State) : Bool :=
  !isLocal x.dst s || (match target (offOf x.dst) s with
    | .reduction _ _ => true
    | _ => false)

/-- A destination that breaks R189, or a bitmap or digest on another package (R193, cause 0x03). -/
def porLayoutBad (x : PorD) (s : State) : Bool :=
  (porWhole x s &&
    (if x.op = 2 then x.dst % 128 ≠ 0 || x.str 2 % 128 ≠ 0
     else x.dst % 128 ≠ 0 || x.str 2 ≠ (x.dstB : Int) || ((x.op = 0 || x.op = 3 || x.op = 4) && x.str 3 ≠ (x.dstRows * x.dstB : Nat)))) ||
  (x.bmpEn && !isLocal x.bmp s) || (x.digEn && !isLocal x.dig s)

/-- The acceptance checks in the order of R143 (R193). -/
def porChecks (cl : Nat) (ue : Bool) (p : Nat) (x : PorD) (s : State) : List (Bool × Nat) :=
  let es := max 1 (x.w / 8)
  [(p % 128 ≠ 0, 3), (!descPlaceOk cl p 128 s, 4), (ue || poisonOff (offOf p) 128 s, 6),
   (x.op > 4 || x.idxFmt = 3 || x.elem > 10 || bitsAt x.d 12 20 ≠ 0 || bitsAt (dw x.d 1) 20 12 ≠ 0 || bitsAt (dw x.d 2) 20 12 ≠ 0 ||
     bitsAt (dw x.d 3) 16 16 ≠ 0 || bitsAt (dw x.d 15) 16 16 ≠ 0 || bitsAt x.d 768 256 ≠ 0, 1),
   ((x.e2 ≠ 1 && (x.op = 1 || x.op = 2 || x.op = 3)) || (x.w % 8 ≠ 0 && (x.op = 3 || x.e0 * x.w % 8 ≠ 0)), 2),
   ((x.op ≠ 4 && x.src % es ≠ 0) || x.dst % es ≠ 0 || porLayoutBad x s, 3),
   (!rowsOk cl .read false (x.srcRanges ++ x.idxRange) s || !rowsOk cl .write true x.dstRanges s ||
     !rowsOk cl .write false (x.bmpRange ++ x.digRange) s, 4),
   ((x.dstRanges ++ x.bmpRange ++ x.digRange).any (fun w => (x.srcRanges ++ x.idxRange).any (fun r => overlaps (canonGa w.1 s) w.2 (canonGa r.1 s) r.2)), 5)]

/-- POR_CFG as it acts. -/
def porCfg (cl : Nat) (s : State) : Word :=
  BitVec.ofNat 32 (effReg (porBase cl) R.POR_CFG_MAX_OUT R.POR_CFG_LEVEL [R.POR_CFG_MAX_OUT, R.POR_CFG_SX_FIRST] s)

/-- POR_ACCEPT (R186, R193). -/
def porAccept (cl : Nat) (ue : Bool) (ce : Nat) (s : State) : State :=
  withBlock (kPor cl) 8 128 (fun s =>
  let s := acceptCe (kPor cl) 8 (fun e => decide (e.p.toNat % 128 = 0) && descPlaceOk cl e.p.toNat 128 s) (porBase cl) R.POR_CE_COUNT_COUNT ce s
  accept (kPor cl) 8 (fun e => porChecks cl ue e.p.toNat ⟨readOff (offOf e.p.toNat) 128 s⟩ s) (fun _ => porCfg cl s)
    (fun e => readOff (offOf e.p.toNat) 128 s) s) s

/-! ### Index lists (R187) -/

/-- What an index entry says: a row, a pad, or an index out of range. -/
inductive PorIdx where
  | row (i : Nat)
  | pad
  | out
  deriving DecidableEq, Repr

/-- Entry `r` of the index list, against `n` rows; an entry with bad data is a pad. -/
def porIdx (k : Nat) (x : PorD) (bad : List Nat) (n : Nat) (s : State) (r : Nat) : PorIdx :=
  let a := x.idx + r * x.idxB
  let v := engRead k a x.idxB s
  if badGlobal k bad a x.idxB s || v % 2 ^ 32 = 0xFFFFFFFF then .pad
  else
    let tok : Int := (bitsAt v 0 29 : Nat)
    let i : Int :=
      if x.idxFmt = 0 then (v : Nat)
      else if x.idxFmt = 1 then tok - (x.bias : Int)
      else (tok - (x.bias : Int)) * (x.mul : Int) + (bitsAt v 29 3 : Nat)
    if i < 0 ∨ i ≥ (n : Int) then .out else .row i.toNat

/-- One destination row: its address if it is written, its bytes, the source ranges, and the descriptor row FIRST reports. -/
structure PorRow where
  dst : Option Nat
  data : Nat
  srcs : List (Nat × Nat)
  row : Nat
  outIdx : Bool

/-- The destination tensor in its logical order (R186, R187, R190). -/
def porRows (k : Nat) (x : PorD) (bad : List Nat) (s : State) : List PorRow :=
  let rd := fun a => engRead k a x.rowB s
  match x.op with
  | 0 => (List.range x.e2).flatMap (fun p => (List.range x.e1).map (fun r =>
      ⟨some (x.dstRow p r), rd (x.srcRow p r), [(x.srcRow p r, x.rowB)], p * x.e1 + r, false⟩))
  | 1 => (List.range x.e1).map (fun r =>
      match porIdx k x bad (x.rowsOf 1) s r with
      | .row i => ⟨some (x.dstRow 0 r), rd (x.srcRow 0 i), [(x.srcRow 0 i, x.rowB)], r, false⟩
      | .pad => ⟨some (x.dstRow 0 r), 0, [], r, false⟩
      | .out => ⟨some (x.dstRow 0 r), 0, [], r, true⟩)
  | 2 => (List.range x.e1).map (fun r =>
      match porIdx k x bad (x.rowsOf 3) s r with
      | .row i => ⟨some (x.dstRow 0 i), rd (x.srcRow 0 r), [(x.srcRow 0 r, x.rowB)], r, false⟩
      | .pad => ⟨none, 0, [], r, false⟩
      | .out => ⟨none, 0, [], r, true⟩)
  | 3 => (List.range x.e0).map (fun j =>
      let el := fun i => (at64 (x.srcRow 0 i) (j * (x.w / 8) : Nat), x.w / 8)
      ⟨some (x.dstRow 0 j), packBits x.w ((List.range x.e1).map (fun i => engRead k (el i).1 (el i).2 s)),
       (List.range x.e1).map el, 0, false⟩)
  | _ => (List.range x.e2).flatMap (fun p => (List.range x.e1).map (fun r =>
      ⟨some (x.dstRow p r), packBits x.w (List.replicate x.e0 x.fill), [], p * x.e1 + r, false⟩))

/-- The source rows the instruction reads, with the row FIRST reports for each. -/
def porReads (k : Nat) (x : PorD) (bad : List Nat) (s : State) : List ((Nat × Nat) × Nat) :=
  if x.op = 3 then (List.range x.e1).map (fun i => ((x.srcRow 0 i, x.rowB), i))
  else (porRows k x bad s).flatMap (fun r => r.srcs.map (fun q => (q, r.row)))

/-- Whether the source of bytes [b, b + m) of a destination row is bad: the same bytes of its source row, or the elements of a transposition. -/
def porSegBad (k : Nat) (x : PorD) (bad : List Nat) (r : PorRow) (b m : Nat) (s : State) : Bool :=
  if x.op = 3 then
    let es := max 1 (x.w / 8)
    ((r.srcs.drop (b / es)).take ((b + m + es - 1) / es - b / es)).any (fun q => badGlobal k bad q.1 q.2 s)
  else r.srcs.any (fun q => badGlobal k bad (q.1 + b) m s)

/-- The row FIRST reports for byte `b` of a destination row: the source row of a transposition (R189). -/
def PorRow.rowAt (r : PorRow) (x : PorD) (b : Nat) : Nat := if x.op = 3 then b / max 1 (x.w / 8) else r.row

/-- The pieces of `n` bytes at `a` that lie in one line each: offset and length. -/
def linePieces (a n : Nat) : List (Nat × Nat) :=
  (rangeLines a n).map (fun l => (max a l - a, min (a + n) (l + 128) - max a l))

/-- Note the lowest row that a line which leaves carries. -/
def porNote (k key row : Nat) (s : State) : State :=
  let e := getEng k s
  setEng k { e with rows := sIns key (min row (sGet row e.rows key)) e.rows } s

/-- Write one destination row, line by line; a line that takes bad data is marked poisoned (R194, R236). `s0` holds the sources. -/
def porWriteRow (k : Nat) (x : PorD) (bad : List Nat) (s0 s : State) (r : PorRow) : State :=
  match r.dst with
  | none => s
  | some a =>
    (linePieces a x.dstB).foldl (fun s c =>
      let s := if isLocal a s then s else porNote k (lineKey (a + c.1)) (r.rowAt x c.1) s
      engWriteBad k (porSegBad k x bad r c.1 c.2 s0) (a + c.1) c.2 (bitsAt r.data (8 * c.1) (8 * c.2)) s) s

/-- The index-list positions whose entries lie in lines that a dead target answered. -/
def porDeadIdx (x : PorD) (deads : List Nat) : List Nat :=
  if x.indexed then (List.range x.e1).filter (fun r => deads.contains ((x.idx + r * x.idxB) / 128 * 128)) else []

/-- Poison lines read from dead targets (R189): the rows of a GATHER are separate reads (R187), so a line two rows share counts for each; other forms
and the index list read a line once (log 191). -/
def porDeadCount (x : PorD) (deads : List Nat) (idx rows : List (Nat × Nat)) : Nat :=
  let hit := fun (l : List (Nat × Nat)) => (l.flatMap (fun q => rangeLines q.1 q.2)).filter (fun l => deads.contains l)
  if x.op = 1 then (hit idx).dedup.length + (rows.map (fun q => (hit [q]).length)).sum
  else (hit (idx ++ rows)).dedup.length

/-- POR_COPY, POR_GATHER, POR_SCATTER, POR_TRANSPOSE and POR_FILL: the front instruction moves its data (R186 to R191, R194). -/
def porRun (op cl : Nat) (ecc : Ecc) (s : State) : State :=
  let k := kPor cl
  match engHead k s with
  | none => s
  | some e =>
    let x : PorD := ⟨e.desc⟩
    if e.phase ≠ 0 ∨ x.op ≠ op then s
    else
      withSourcesLat x.lat k x.idxRange (fun s =>
        withSourcesLat x.lat k ((porReads k x ecc.bad s).map (·.1)) (fun s =>
          let b := porBase cl
          let rows := porRows k x ecc.bad s
          let reads := porReads k x ecc.bad s
          let ranges := x.idxRange ++ reads.map (·.1)
          let bad := badAddrs k ecc.bad ranges s
          let deads := ((ranges.flatMap (fun r => rangeLines r.1 r.2)).filter (fun l => (getEng k s).rxDead.contains (lineKey l))).dedup
          let dead := porDeadCount x deads x.idxRange (reads.map (·.1))
          let hitDead := fun (q : Nat × Nat) => (rangeLines q.1 q.2).any (fun l => deads.contains l)
          let outs := (rows.filter (·.outIdx)).length
          let firsts := (reads.filter (fun q => hitDead q.1)).map (·.2) ++ (rows.filter (·.outIdx)).map (·.row) ++ porDeadIdx x deads
          let written := rows.filter (fun r => r.dst.isSome)
          let bytes := written.length * x.dstB
          let crc := written.foldl (fun c r => crc64Go c (natBytes r.data x.dstB)) 0
          let s' := rows.foldl (porWriteRow k x ecc.bad s) s
          let s' := if x.bmpEn then
              engWrite k x.bmp (bmBytes x.bmpDims.1 x.bmpDims.2) (occBitmap (zeroCode x.elem) x.w x.bmpDims.2 (rows.map (·.data))) s' else s'
          let s' := engUe b R.POR_STATUS_UE R.POR_STATUS_UE R.POR_STATUS_LAST_TAG R.POR_STATUS_UE_VALID
            (fun a => setPair b R.POR_UE_ADDR_LO_ADDR R.POR_UE_ADDR_HI_ADDR a) (fun a => raise (0x4000 + 4 * cl + 2) 0x21 2 a cl) e.tag bad s'
          let s' := if deads.isEmpty then s' else
            setF b R.POR_STATUS_LAST_TAG (e.tag.toNat % 256) (bumpF b R.POR_STATUS_POISON_COUNT dead (setF b R.POR_STATUS_POISON 1 s'))
          let s' := bumpF b R.POR_CE_COUNT_COUNT ecc.corrected s'
          let s' := addPair b R.POR_RD_BYTES_LO_VALUE R.POR_RD_BYTES_HI_VALUE (ranges.foldl (fun n r => n + r.2) 0) s'
          let s' := addPair b R.POR_WR_BYTES_LO_VALUE R.POR_WR_BYTES_HI_VALUE bytes s'
          let s' := if isLocal x.dst s then s' else addPair b R.POR_REMOTE_BYTES_LO_VALUE R.POR_REMOTE_BYTES_HI_VALUE bytes s'
          setHead k { e with phase := 1, value := bytes, count := dead + outs, first := firsts.foldl min 0x1FFFFFF,
                             ue := !bad.isEmpty, digest := crc } (engFlush k s')) s) s

/-- The digest record, written at completion (R191). -/
def porDigest (k : Nat) (e : EngIns) (s : State) : State :=
  let x : PorD := ⟨e.desc⟩
  if x.digEn && e.phase = 1 then
    setHead k { e with phase := 2 } (engFlush k (engWrite k x.dig 32 (bitsAt x.d 640 64 + 2 ^ 64 * e.value + 2 ^ 128 * e.digest) s))
  else s

/-- POR_COMPLETE: once every remote write is acknowledged or dropped and every other write is visible, the digest record and then the summary
(R145, R189, R191). -/
def porComplete (cl : Nat) (s : State) : State :=
  let k := kPor cl
  match engHead k s with
  | none => s
  | some e =>
    if e.phase = 0 ∨ hasTxn (fun t => t.owner = .eng k) s ∨ writesOpen (.eng k) s then s
    else
      let s := porDigest k e s
      if writesOpen (.eng k) s then s
      else
        let b := porBase cl
        let g := getEng k s
        let n := g.drops.length
        let s := if n = 0 then s else
          setF b R.POR_STATUS_LAST_TAG (e.tag.toNat % 256) (bumpF b R.POR_STATUS_DROP_COUNT n (setF b R.POR_STATUS_DROPPED 1 s))
        let first := (g.drops.map (fun l => sGet 0x1FFFFFF g.rows l)).foldl min e.first
        engComplete k (mkSummary e.value (e.count + n) (if first = 0x1FFFFFF then none else some first) 0 false false e.ue) s

/-- POR_RESTORE (R196). -/
def porRestore (path : Path) (cl : Nat) (v : Word) (s : State) : State :=
  restoreStatus path (porBase cl + 0x48) (porBase cl) [R.POR_STATUS_POISON, R.POR_STATUS_DROPPED, R.POR_STATUS_UE, R.POR_STATUS_POISON_COUNT,
    R.POR_STATUS_DROP_COUNT, R.POR_STATUS_LAST_TAG] v.toNat s

/-- POR_ACCEPT (R193). -/
def execPorAccept (cl : Fin 36) (ecc : DescEcc) (s : State) : Host.Outcome State Fault Refusal :=
  .next (porAccept cl ecc.ue ecc.ce s)

/-- POR_COPY (R186). -/
def execPorCopy (cl : Fin 36) (ecc : Ecc) (s : State) : Host.Outcome State Fault Refusal :=
  .next (porRun 0 cl ecc s)

/-- POR_GATHER (R187). -/
def execPorGather (cl : Fin 36) (ecc : Ecc) (s : State) : Host.Outcome State Fault Refusal :=
  .next (porRun 1 cl ecc s)

/-- POR_SCATTER (R187). -/
def execPorScatter (cl : Fin 36) (ecc : Ecc) (s : State) : Host.Outcome State Fault Refusal :=
  .next (porRun 2 cl ecc s)

/-- POR_TRANSPOSE (R186). -/
def execPorTranspose (cl : Fin 36) (ecc : Ecc) (s : State) : Host.Outcome State Fault Refusal :=
  .next (porRun 3 cl ecc s)

/-- POR_FILL (R186). -/
def execPorFill (cl : Fin 36) (ecc : Ecc) (s : State) : Host.Outcome State Fault Refusal :=
  .next (porRun 4 cl ecc s)

/-- POR_COMPLETE (R189 to R191). -/
def execPorComplete (cl : Fin 36) (s : State) : Host.Outcome State Fault Refusal :=
  .next (porComplete cl s)

/-- POR_RESTORE (R196). -/
def execPorRestore (path : Path) (cl : Fin 36) (val : Word) (s : State) : Host.Outcome State Fault Refusal :=
  .next (porRestore path cl val s)

end Sys2Proof.Machine
end

