-- ==== Sys2Proof/Machine/Space.lean ====
section
/-! DEFINITION. The CSR space (R33, R417, R418, R420): what lies at an offset, the capability list, and registers returning to their
Reset values (R443). -/

namespace Sys2Proof.Machine

/-- The kinds of register block. -/
inductive Blk where
  | mx | sx | seq | dsp | asy | por | slv | mem | memp | dep | fab | port | rt | hal | col | gct | ckp | pwr | cmd | pkg | evr | sec
  deriving DecidableEq, Repr

/-- What an offset of the CSR space names: a register of a block, by kind, instance and base, a window or a table, an offset inside a block that its tables do
not name, or nothing. -/
inductive Place where
  | reg (k : Blk) (n : Nat) (base : Nat) (r : Reg)
  | cap (off : Nat)
  | vxWin (p off : Nat)
  | seqWin (c off : Nat)
  | dspWin (d off : Nat)
  | slvWin (e off : Nat)
  | colWin (off : Nat)
  | group (off : Nat)
  | fabTab (fd off : Nat)
  | cursor (k off : Nat)
  | cairnWin (off : Nat)
  | certWin (off : Nat)
  | flashWin (off : Nat)
  | reserved
  | unmapped
  deriving DecidableEq, Repr

/-- The register at an offset of a block, else reserved (R14, R418). -/
def inBlock (k : Blk) (n : Nat) (base : Nat) (l : List Reg) (o : Nat) : Place :=
  match l.find? (fun r => r.off = o) with
  | some r => .reg k n base r
  | none => .reserved

/-- The place of an offset inside a cluster (R33). -/
def placeCluster (cl o : Nat) : Place :=
  if o < 0x20000 then
    let p := 8 * cl + o / 0x4000
    let t := o % 0x4000
    if (0x1000 ≤ t ∧ t < 0x1100) ∨ 0x2000 ≤ t then .vxWin p t else inBlock .mx p (tileBase p) regsMX t
  else if o < 0x24000 then
    if 0x20800 ≤ o ∧ o < 0x20E20 then .seqWin cl (o - 0x20000) else inBlock .seq cl (seqBase cl) regsSEQ (o - 0x20000)
  else if o < 0x28000 then inBlock .sx cl (sxBase cl) regsSX (o - 0x24000)
  else if o < 0x2C000 then inBlock .asy cl (asyBase cl) regsASY (o - 0x28000)
  else if o < 0x30000 then inBlock .por cl (porBase cl) regsPOR (o - 0x2C000)
  else .reserved

/-- The place of an offset inside a compute die. -/
def placeDie (d o : Nat) : Place :=
  if o < 0x240000 then placeCluster (9 * d + o / 0x40000) (o % 0x40000)
  else if o < 0x300000 then .reserved
  else if o < 0x340000 then inBlock .dep d (depBase d) regsDEP (o - 0x300000)
  else if 0x340800 ≤ o ∧ o < 0x341000 then .dspWin d (o - 0x340800)
  else inBlock .dsp d (dspBase d) regsDSP (o - 0x340000)

/-- The place of an offset inside a fabric die. -/
def placeFab (f o : Nat) : Place :=
  if o < 0x10000 then inBlock .fab f (fabBase f) regsFAB o
  else if o < 0x10900 then inBlock .port (9 * f + (o - 0x10000) / 0x100) (portBase (9 * f + (o - 0x10000) / 0x100)) regsPORT (o % 0x100)
  else if 0x11000 ≤ o ∧ o < 0x11200 then inBlock .port (18 + 2 * f + (o - 0x11000) / 0x100) (portBase (18 + 2 * f + (o - 0x11000) / 0x100)) regsPORT (o % 0x100)
  else if 0x12000 ≤ o ∧ o < 0x13000 then inBlock .rt f (rtBase f) regsRT (o - 0x12000)
  else if 0x20000 ≤ o ∧ o < 0x23000 then .fabTab f (o - 0x20000)
  else .reserved

/-- What lies at an offset (R33, R418). Where the LEN of a capability is not stated, a block extends to the next block of R33. -/
def csrPlace (o : Nat) : Place :=
  if o < 0x010000 then .cap o
  else if o < 0x020000 then inBlock .cmd 0 cmdBase regsCMD (o - 0x010000)
  else if o < 0x028000 then inBlock .pkg 0 pkgBase regsPKG (o - 0x020000)
  else if o < 0x030000 then
    let c := 36 + (o - 0x028000) / 0x1000
    let t := o % 0x1000
    if 0x800 ≤ t ∧ t < 0xE20 then .seqWin c t else inBlock .seq c (seqBase c) regsSEQ t
  else if o < 0x040000 then
    if 0x030100 ≤ o ∧ o < 0x0301C0 then .cursor ((o - 0x030100) / 0x40) (o % 0x40) else inBlock .evr 0 evrBase regsEVR (o - 0x030000)
  else if o < 0x050000 then inBlock .pwr 0 pwrBase regsPWR (o - 0x040000)
  else if o < 0x060000 then
    if 0x050400 ≤ o ∧ o < 0x050600 then .cairnWin (o - 0x050400)
    else if 0x051000 ≤ o ∧ o < 0x052000 then .certWin (o - 0x051000)
    else if 0x052000 ≤ o ∧ o < 0x053000 then .flashWin (o - 0x052000)
    else inBlock .sec 0 secBase regsSEC (o - 0x050000)
  else if o < 0x070000 then inBlock .gct 0 gctBase regsGCT (o - 0x060000)
  else if o < 0x080000 then .unmapped
  else if o < 0x090000 then
    let e := (o - 0x080000) / 0x2000
    let t := o % 0x2000
    if 0x800 ≤ t ∧ t < 0xC00 then .slvWin e (t - 0x800) else inBlock .slv e (slvBase e) regsSLV t
  else if o < 0x100000 then .unmapped
  else if o < 0x110000 then inBlock .ckp 0 ckpBase regsCKP (o - 0x100000)
  else if o < 0x200000 then .unmapped
  else if o < 0x2C0000 then inBlock .mem ((o - 0x200000) / 0x10000) (stackBase ((o - 0x200000) / 0x10000)) regsMEM (o % 0x10000)
  else if o < 0x2D0000 then inBlock .memp 0 mempBase regsMEMP (o - 0x2C0000)
  else if o < 0x400000 then .unmapped
  else if 0x4C0000 ≤ o ∧ o < 0x4D0000 then inBlock .hal 0 halBase regsHAL (o - 0x4C0000)
  else if o < 0x600000 then placeFab ((o - 0x400000) / 0x100000) (o % 0x100000)
  else if o < 0x610000 then
    if 0x601000 ≤ o ∧ o < 0x603000 then .group o
    else if 0x608000 ≤ o ∧ o < 0x60C000 then .colWin (o - 0x608000)
    else inBlock .col 0 colBase regsCOL (o - 0x600000)
  else if o < 0x1000000 then .unmapped
  else if o < 0x2000000 then placeDie ((o - 0x1000000) / 0x400000) (o % 0x400000)
  else .unmapped

/-- The field of the LEVEL bit that governs a register of the block at `base` (R427). -/
def levelOn (base : Nat) (r : Reg) (s : State) : Bool :=
  match r.level with
  | some l => (csrGet 0 (base + l) s).toNat ≥ 2 ^ 31
  | none => true

/-- The reset word of a register. -/
def regWord (r : Reg) : Nat :=
  match r.flds with
  | f :: _ => f.word
  | [] => 0

/-! ### The capability list (R420, R421) -/

/-- The capabilities in the order of their headers: ID, version, count, base, stride (R420). The PPS capability is present when the receiver is fitted. -/
def caps (s : State) : List (Nat × Nat × Nat × Nat × Nat) :=
  let b1 := Config.stepping = 0
  let c0 := Config.stepping = 2
  [(0x0001, 1, 1, 0, 0), (0x0002, 1, 1, 0x010000, 0), (0x0003, 1, 1, 0x020000, 0), (0x0004, if b1 then 1 else 2, 1, 0x030000, 0),
   (0x0005, 1, 1, 0x040000, 0), (0x0006, 1, 1, 0x050000, 0), (0x0007, 1, 1, 0x060000, 0), (0x0008, 1, 8, 0x080000, 0x2000),
   (0x0009, 1, 1, 0x100000, 0), (0x000A, if c0 then 2 else 1, 12, 0x200000, 0x10000), (0x000B, 1, 2, 0x400000, 0x100000),
   (0x000C, if b1 then 1 else 2, 1, 0x4C0000, 0), (0x000D, if c0 then 2 else 1, 1, 0x600000, 0), (0x0010, 1, 4, 0x1000000, 0x400000)]
  ++ (if getF pkgBase R.PKG_INPUTS_PPS_FITTED s = 1 then [(0x0011, 1, 1, 0x060048, 0)] else [])

/-- CAP offset of header `i`: the identity header at 0, its fields at 0x010 to 0x027, the others from 0x100 (a choice of this model; R420 gives only the
first). -/
def capOff (i : Nat) : Nat := if i = 0 then 0 else 0xF0 + 16 * i

/-- The identity word at CAP + 0x014. -/
def identity (s : State) : Nat :=
  (if Config.stepping = 0 then 0x21 else if Config.stepping = 1 then 0x22 else 0x30) + s.sec.rating.grade % 16 * 2 ^ 8 + b2n s.sec.rating.refurb * 2 ^ 12
/-- The P0 to P3 word. -/
def tilesWord (s : State) : Nat := packBits 8 (s.sec.rating.tiles.take 4)

/-- A word of the CAP region (R420, R421). LEN is not stated: a free value; the PPS capability has LEN = 0. -/
def capWord (o : Nat) (s : State) : Nat :=
  if o = 0x10 then 0x09404B43
  else if o = 0x14 then identity s
  else if o = 0x18 then tilesWord s
  else if o = 0x20 then Config.serial.toNat % 2 ^ 32
  else if o = 0x24 then Config.serial.toNat / 2 ^ 32
  else if 0x10 ≤ o ∧ o < 0x100 then 0
  else
    let i := if o < 0x10 then 0 else (o - 0xF0) / 16
    match (caps s)[i]? with
    | none => 0
    | some c =>
      let next := if i + 1 < (caps s).length then capOff (i + 1) else 0
      let len := if c.1 = 0x0011 then 0 else Config.freeResult 90 c.1 % 2 ^ 16
      if o % 16 / 4 = 0 then c.1 + c.2.1 * 2 ^ 16 + c.2.2.1 * 2 ^ 24
      else if o % 16 / 4 = 1 then c.2.2.2.1
      else if o % 16 / 4 = 2 then c.2.2.2.2
      else next + len * 2 ^ 16

/-! ### Reset (R443) -/

/-- Fields that a warm reset keeps by rule: loaded from the NVS, the one-time-programmable storage, the rating record, the straps or the carrier;
energy; quarantine; and what shows hardware that is kept (R443, R414, R451, R254). -/
def keptFld (base : Nat) (f : Fld) : Bool :=
  f.acc = .rws ||
  (base = secBase && [R.SEC_STATUS_BANK, R.SEC_STATUS_RATING_PENDING, R.SEC_STATUS_CAIRN_LOW, R.SEC_STATUS_SVN, R.SEC_STATUS_ROLLBACK, R.SEC_FW_SVN_A,
    R.SEC_FW_VALID_A, R.SEC_FW_SVN_B, R.SEC_FW_VALID_B, R.SEC_CUSTODY_LO_CUSTODY, R.SEC_CUSTODY_HI_CUSTODY, R.SEC_ERASE_COUNT_COUNT,
    R.SEC_RATING_SEQ, R.SEC_RATING_PENDING_SEQ, R.SEC_CERT_LEN_BYTES, R.SEC_HEALTH_SUM_MAX_SCORE, R.SEC_HEALTH_SUM_WATCH_PARTS,
    R.SEC_HEALTH_SUM_PREDICT_PARTS].contains f) ||
  (base = pkgBase && [R.PKG_INPUTS_SLOT, R.PKG_INPUTS_SLOT_PAR, R.PKG_INPUTS_SLOT_OK, R.PKG_INPUTS_REFCLK_SRC, R.PKG_INPUTS_PPS_FITTED,
    R.PKG_INPUTS_SB_MODE, R.PKG_INPUTS_TAP_ACTIVE, R.PKG_INPUTS_CARRIER_REV, R.PKG_STATE_RAILS_ON, R.PKG_REFCLK_OFFSET,
    R.PKG_REFCLK_IN_RANGE].contains f) ||
  (base = pwrBase && [R.PWR_ENERGY_LO_MJ, R.PWR_ENERGY_HI_MJ, R.PWR_GUARD_BASE_MV, R.PWR_GUARD_AGE_MV, R.PWR_GUARD_TOTAL_MV, R.PWR_STATUS_TOP_OP,
    R.PWR_STATUS_DIE_STRETCHED].contains f) ||
  (base = ckpBase && f = R.CKP_STATUS_QUARANTINED) ||
  (base = halBase && [R.HAL_STATUS_STATE0, R.HAL_STATUS_STATE1, R.HAL_STATUS_DEGRADED, R.HAL_STATUS_DOWN].contains f) ||
  ([0, 1].any (fun d => base = fabBase d) && f = R.FAB_SELF_SLOT) ||
  (decide (0x200000 ≤ base ∧ base < 0x2C0000) && [R.MEM_REPAIR_STATUS_PENDING_ROWS, R.MEM_REPAIR_STATUS_SPARE_ROWS_MIN, R.MEM_REPAIR_STATUS_REPAIRING,
    R.MEM_STATUS_RETRAINING, R.MEM_STATUS_OOS_COUNT, R.MEM_TEMP_TEMP_C].contains f)

/-- The word at an offset after a warm reset (R443). The FAB_PLAN entries are RWS; every other table word returns to 0. -/
def warmWord (o : Nat) (v : Word) : Nat × Nat :=
  match csrPlace o with
  | .reg _ _ base r => (regWord r, r.flds.foldl (fun w f => if keptFld base f then putBits w f.lo f.w (bitsAt v.toNat f.lo f.w) else w) (regWord r))
  | .fabTab _ t => (0, if t < 0x100 then v.toNat else 0)
  | _ => (0, 0)

/-- The slot tables mark only this package PRESENT (R296). -/
def ownSlot (s : State) : State :=
  let k := getF (fabBase 0) R.FAB_SELF_SLOT s
  [0, 1].foldl (fun s f => csrSet 0 (tabBase f + 0x300 + 8 * k) 1 (csrSet 0 (tabBase f + 0x100 + 8 * k) 1 s)) s

/-- The registers that `sel` selects take their Reset values, except the fields that are kept. -/
def resetRegs (sel : Nat → Bool) (s : State) : State :=
  let csr := s.csr.filterMap (fun e =>
    if sel e.1 then
      let w := warmWord e.1 e.2
      if w.2 = w.1 then none else some (e.1, BitVec.ofNat 32 w.2)
    else some e)
  { s with csr := csr }

end Sys2Proof.Machine
end

