-- ==== Sys2Proof/Machine/Power.lean ====
section
/-! DEFINITION. The power and thermal controller (R392 to R416): operating points, demands and their loops, limits, droop, the barrier
ramp, temperatures and trips, and sleep. -/

namespace Sys2Proof.Machine

/-- LOCAL source number of the controller; index 15 names no die. -/
def srcPwr : Nat := 0xD00F

/-! ### Demands and the operating point (R393 to R397) -/

/-- The demand of a reason (R395); HOST_REQ is PWR_HOST_OP.OP. -/
def demand (r : Nat) (s : State) : Nat := if r = 5 then getF pwrBase R.PWR_HOST_OP_OP s else sGet 0 s.pwr.demand r
/-- The point the package would run at without any demand. -/
def prefOp (s : State) : Nat := max (getF pwrBase R.PWR_PREF_OP s) (getF pwrBase R.PWR_STATUS_TOP_OP s)
/-- The effective operating point (R395). -/
def effOp (s : State) : Nat :=
  min 15 ([6, 2, 4, 1, 3, 5].foldl (fun m r => max m (demand r s)) (prefOp s))
/-- PWR_STATUS.OP. -/
def opNow (s : State) : Nat := getF pwrBase R.PWR_STATUS_OP s
/-- Whether a reason is binding (R395). -/
def binding (r : Nat) (s : State) : Bool := demand r s = opNow s && decide (demand r s > prefOp s)

/-- Add to an entry of a store of counts. -/
def addAt (k n : Nat) (m : Store Nat) : Store Nat := sSet 0 k (sGet 0 m k + n) m

/-- The running time of a reason up to now enters its figure and the figures to hand over (R410, R411). -/
def accrue (r : Nat) (s : State) : State :=
  match sFind s.pwr.accAt r with
  | none => s
  | some t =>
    let d := s.count.toNat - t.toNat
    { s with pwr := { s.pwr with ns := addAt r d s.pwr.ns, acc := addAt (1000 + r) d s.pwr.acc, accAt := sIns r s.count s.pwr.accAt } }

/-- Account for one reason after a change: its running time, its episode and its BINDING bit; an episode of at least 1 ms writes THROTTLE (R410). -/
def retuneOne (r : Nat) (s : State) : State :=
  let s := accrue r s
  let b := binding r s
  let run := b || (r = 3 && !s.pwr.slow.isEmpty)
  let s := { s with pwr := { s.pwr with accAt := if run then sIns r s.count s.pwr.accAt else sDel r s.pwr.accAt } }
  match b, sFind s.pwr.bindAt r with
  | true, none =>
    let s := { s with pwr := { s.pwr with bindAt := sIns r s.count s.pwr.bindAt, episodes := sIns r ((sGet 0 s.pwr.episodes r + 1) % 2 ^ 32) s.pwr.episodes } }
    setF pwrBase R.PWR_STATUS_BINDING (getF pwrBase R.PWR_STATUS_BINDING s ||| 2 ^ (r - 1)) s
  | false, some t =>
    let s := { s with pwr := { s.pwr with bindAt := sDel r s.pwr.bindAt } }
    let s := setF pwrBase R.PWR_STATUS_BINDING (putBits (getF pwrBase R.PWR_STATUS_BINDING s) (r - 1) 1 0) s
    let us := (s.count.toNat - t.toNat) / 1000
    if us ≥ 1000 then raise srcPwr 0x90 0 (r + min us (2 ^ 32 - 1) * 2 ^ 8) 0 s else s
  | _, _ => s

/-- Account for all six reasons. -/
def retune (s : State) : State := [1, 2, 3, 4, 5, 6].foldl (fun s r => retuneOne r s) s

/-- Set the demand of a reason, at most 15. -/
def setDemand (r n : Nat) (s : State) : State :=
  retune { s with pwr := { s.pwr with demand := sSet 0 r (min 15 n) s.pwr.demand } }
/-- Set the quiet ticks of a reason. -/
def setQuiet (r n : Nat) (s : State) : State := { s with pwr := { s.pwr with quiet := sSet 0 r n s.pwr.quiet } }
/-- A demand rises by `n`; the quiet ticks start again. -/
def raiseDemand (r n : Nat) (s : State) : State := setDemand r (demand r s + n) (setQuiet r 0 s)
/-- A quiet tick, or the end of a quiet run. -/
def quietTick (r : Nat) (q : Bool) (s : State) : State := setQuiet r (if q then sGet 0 s.pwr.quiet r + 1 else 0) s

/-- Whether the arithmetic islands run and the table is loaded: the rails are on and neither boot, POWER_UP, sleep nor a warm reset is in progress. -/
def opLive (s : State) : Bool :=
  s.rails && s.pkg ≠ .standby && s.pkg ≠ .sleep && !(cmdBusy s && (cmdOp s = 0x13 || cmdOp s = 5))

/-- OP_CHANGE: the effective point becomes the operating point; a slower point switches frequency at once, a faster one waits for the change in
progress and for its rails (R394). -/
def opChange (s : State) : State :=
  let t := effOp s
  if !opLive s || t = opNow s then s
  else if t < opNow s ∧ getF pwrBase R.PWR_STATUS_TRANSITION s = 1 then s
  else
    let s := setF pwrBase R.PWR_STATUS_OP t (setF pwrBase R.PWR_STATUS_TRANSITION 1 (bumpF pwrBase R.PWR_STATUS_STEP_COUNT 1 s))
    retune { s with pwr := { s.pwr with clk := max s.pwr.clk t } }

/-- OP_FREQ_SWITCH: the rails have risen, and the faster clock is switched in. -/
def opFreqSwitch (s : State) : State :=
  if s.pwr.clk > opNow s then setF pwrBase R.PWR_STATUS_TRANSITION 0 { s with pwr := { s.pwr with clk := opNow s } } else s

/-- OP_VOLTAGE_SETTLED: the rails have fallen to the setpoint of a slower point. -/
def opSettled (s : State) : State := if s.pwr.clk = opNow s then setF pwrBase R.PWR_STATUS_TRANSITION 0 s else s

/-- The islands return to OP15 (R413, R414). -/
def opSlowest (s : State) : State :=
  retune (setF pwrBase R.PWR_STATUS_OP 15 (setF pwrBase R.PWR_STATUS_TRANSITION 0 { s with pwr := { s.pwr with clk := 15 } }))

/-! ### The voltage table (R393) -/

/-- The test voltage of point `n` on die `d`, 0 to 4. -/
def testMv (d n : Nat) (s : State) : Nat := s.sec.rating.testMv.getD (d * 16 + n) 0
/-- The lowest point whose voltage with the guard band is at most 850 mV on every die; 15 when none is. -/
def topOp (s : State) : Nat :=
  ((List.range 16).find? (fun n => (List.range 5).all (fun d => testMv d n s + getF pwrBase R.PWR_GUARD_TOTAL_MV s ≤ 850))).getD 15
/-- The present setpoint of a die with guard band and boost, at most 850 mV under a boost; 0 for a fabric die or without rails. -/
def dieVid (d : Nat) (s : State) : Nat :=
  if d > 4 ∨ !s.rails then 0
  else
    let v := testMv d (opNow s) s + getF pwrBase R.PWR_GUARD_TOTAL_MV s
    if s.pwr.boost then max v (min 850 (v + effF pwrBase R.PWR_CFG_RAMP_BOOST_MV R.PWR_CFG_LEVEL s)) else v
/-- The voltage table and guard band take effect: TOP_OP is found, and one above 0 is recorded. -/
def loadTable (s : State) : State :=
  let s := setF pwrBase R.PWR_STATUS_TOP_OP (topOp s) s
  retune (if topOp s > 0 then raise srcPwr 0x9A 1 0 0 s else s)
/-- AGE_MV from the hours that the Cairn record holds (R393), computed at cold reset; H85 and H65 are bands of the package's hottest junction. -/
def loadGuard (s : State) : State :=
  let h := fun (l : List Nat) => l.foldl (fun m b => m + sGet 0 s.sec.life (900 + b)) 0 / 3600000000000
  let age := min 40 (h [6, 7, 8] / 1000 + h [4, 5] / 4000)
  let base := s.sec.rating.baseMv
  setF pwrBase R.PWR_GUARD_BASE_MV base (setF pwrBase R.PWR_GUARD_AGE_MV age (setF pwrBase R.PWR_GUARD_TOTAL_MV (base + age) s))

/-! ### The loops at a tick (R398, R400, R402, R406) -/

/-- PWR_CFG.UP_TICKS. -/
def upTicks (s : State) : Nat := effF pwrBase R.PWR_CFG_UP_TICKS R.PWR_CFG_LEVEL s
/-- PWR_THERM_CFG.T_THROTTLE. -/
def tThrottle (s : State) : Nat := effF pwrBase R.PWR_THERM_CFG_T_THROTTLE R.PWR_CFG_LEVEL s
/-- Whether every entry of a store of temperatures satisfies a test. -/
def allHot (p : Nat → Bool) (s : State) : Bool := s.pwr.hotC.all (fun e => p e.2)

/-- The cap loop; `avg` in W. -/
def capLoop (avg : Nat) (s : State) : State :=
  let cap := getF pwrBase R.PWR_CAP_CAP_W s
  let n := if demand 1 s = 15 ∧ avg > cap then s.pwr.capOver + 1 else 0
  let s := { s with pwr := { s.pwr with capOver := n } }
  if avg > cap then raiseDemand 1 1 s else quietTick 1 (decide (avg * 100 < 95 * cap)) s
/-- The CURRENT demand's quiet run. -/
def currentLoop (avg : Nat) (s : State) : State :=
  let q := !s.pwr.breach && decide (avg < 4370)
  quietTick 4 q { s with pwr := { s.pwr with breach := false } }
/-- The droop loop; `stretch` gives, for dies 0 to 4, the part of the past ms stretched in units of 0.01 %. -/
def droopLoop (stretch : List Nat) (s : State) : State :=
  let s := { s with pwr := { s.pwr with stretch := (List.range 5).foldl (fun m d => sSet 0 d (min 255 (stretch.getD d 0 / 100)) m) s.pwr.stretch } }
  if stretch.any (fun x => x > 500) then raiseDemand 3 1 s else quietTick 3 (stretch.all (fun x => x < 100)) s
/-- The thermal loop; the first rise after a clear period writes THERMAL_HIGH. -/
def thermalLoop (s : State) : State :=
  let t := tThrottle s
  if s.pwr.hotC.any (fun e => e.2 ≥ t) || s.pwr.stackC.any (fun x => x ≥ 95) then
    let s := if demand 2 s = 0 then raise srcPwr 0x93 1 0 0 s else s
    raiseDemand 2 1 s
  else quietTick 2 (allHot (fun x => x + 5 ≤ t) s && s.pwr.stackC.all (fun x => x ≤ 90)) s

/-- CAP_TICK: the averages of the past 1 and 10 ms in W, and the stretched part of each die (R398, R400, R402, R406). -/
def capTick (avg avg10 : Nat) (stretch : List Nat) (s : State) : State :=
  if s.pkg = .off then s
  else
    let s := setF pwrBase R.PWR_POWER_AVG_W avg (setF pwrBase R.PWR_POWER_10MS_AVG10_W avg10 s)
    thermalLoop (droopLoop stretch (currentLoop avg (capLoop avg s)))

/-- DEMAND_RECOVERY: after UP_TICKS quiet ticks a demand falls by one and counting restarts (R398, R400, R402, R406). -/
def demandRecovery (r : Nat) (s : State) : State :=
  if 1 ≤ r ∧ r ≤ 4 ∧ sGet 0 s.pwr.quiet r ≥ upTicks s ∧ demand r s > 0 then setDemand r (demand r s - 1) (setQuiet r 0 s) else s

/-- CAP_UNMET: ten ticks above the cap at a demand of 15 (R399). -/
def capUnmet (s : State) : State :=
  if s.pwr.capOver ≥ 10 then
    raise srcPwr 0x91 1 0 0 (setF pwrBase R.PWR_STATUS_CAP_UNMET 1 { s with pwr := { s.pwr with capOver := 0 } })
  else s

/-! ### Samples of power and current (R400) -/

/-- CURRENT_SAMPLE. -/
def currentSample (p : PowerSample) (s : State) : State :=
  if s.pkg = .off then s
  else
    let b := pwrBase
    let s := setF b R.PWR_POWER_INST_W p.watts s
    let s := setF b R.PWR_POWER_10MS_PEAK_W (max (getF b R.PWR_POWER_10MS_PEAK_W s) (min 65535 p.watts)) s
    let s := setF b R.PWR_INPUT_VIN_MV p.vinMv (setF b R.PWR_INPUT_IIN_DA p.iinDa s)
    let uj := s.pwr.energyUj + p.watts * 10
    let s := addPair b R.PWR_ENERGY_LO_MJ R.PWR_ENERGY_HI_MJ (uj / 1000) s
    let recent := s.pwr.overs.filter (fun t => decide (s.count.toNat ≤ t.toNat + 10000000))
    let s := { s with pwr := { s.pwr with energyUj := uj % 1000, acc := addAt 0 (p.watts * 10) s.pwr.acc,
                                          overs := if p.watts > 4600 then s.count :: recent else recent } }
    let high := decide (p.watts > 5400)
    let rail := (p.rails.zip s.sec.rating.limits).any (fun e => e.1 > e.2)
    let s := if high then raiseDemand 4 2 s else s
    let s := if rail then raiseDemand 4 1 s else s
    if high || rail then { s with pwr := { s.pwr with breach := true } } else s

/-- CURRENT_OVER_TOTAL: 80 samples above 4,600 W within 10 ms, and no step of this kind in the last 100 us (R400). -/
def currentOver (s : State) : State :=
  let recent := s.pwr.overs.filter (fun t => decide (s.count.toNat ≤ t.toNat + 10000000))
  let free : Bool := match s.pwr.overAt with
    | some t => decide (s.count.toNat ≥ t.toNat + 100000)
    | none => true
  if recent.length ≥ 80 ∧ free then
    raiseDemand 4 1 { s with pwr := { s.pwr with overs := [], overAt := some s.count, breach := true } }
  else s

/-! ### Droop and the barrier ramp (R401, R403) -/

/-- PWR_STATUS.DIE_STRETCHED follows the dies stretched. -/
def showSlow (s : State) : State := retune (setF pwrBase R.PWR_STATUS_DIE_STRETCHED (b2n (!s.pwr.slow.isEmpty)) s)

/-- Companion total of the droop trips of a die (R466). -/
def droopTotal (d : Nat) : Nat := 2 ^ 41 + d

/-- DROOP_TRIP on compute dies 0 to 3 and the command die, 4 (R401). -/
def droopTrip (d : Nat) (s : State) : State :=
  if d > 4 ∨ !s.rails then s
  else
    let s := tally (droopTotal d) 1 s
    showSlow { s with pwr := { s.pwr with trips := sIns d (satAdd 32 (sGet 0 s.pwr.trips d) 1) s.pwr.trips,
                                          acc := addAt (2000 + d) 1 s.pwr.acc, slow := d :: s.pwr.slow.filter (· ≠ d) } }

/-- DROOP_STRETCH_END: the die is back at full frequency. -/
def droopEnd (d : Nat) (s : State) : State := showSlow { s with pwr := { s.pwr with slow := s.pwr.slow.filter (· ≠ d) } }

/-- RAMP_BOOST_START: a pending release lies within 20 us (R403). -/
def boostStart (s : State) : State :=
  if effF pwrBase R.PWR_CFG_RAMP_EN R.PWR_CFG_LEVEL s = 1 ∧ s.rails ∧
      s.ramps.any (fun r => decide (r.toNat ≤ s.count.toNat + 20000 ∧ s.count.toNat < r.toNat + 20000)) then
    { s with pwr := { s.pwr with boost := true } }
  else s

/-- RAMP_BOOST_END: the releases more than 20 us past are forgotten; overlapping boosts form one (R403). -/
def boostEnd (s : State) : State :=
  let left := s.ramps.filter (fun r => decide (s.count.toNat < r.toNat + 20000))
  { s with ramps := left, pwr := { s.pwr with boost := s.pwr.boost && left.any (fun r => decide (r.toNat ≤ s.count.toNat + 20000)) } }

/-! ### Temperatures (R405 to R408) -/

/-- Junction sensors of a die. -/
def sensorsOf (d : Nat) : Nat := if d < 4 then 24 else if d = 4 then 8 else 6
/-- A sensor. -/
def getSensor (k : Nat) (s : State) : Sensor := sGet Sensor.init s.pwr.sensors k
/-- Sensors of a die that are not marked failed. -/
def sensorsOk (d : Nat) (s : State) : Nat := ((List.range (sensorsOf d)).filter (fun i => !(getSensor (d * 32 + i) s).failed)).length
/-- Whether a die has fewer than half its sensors valid. -/
def sensorShort (d : Nat) (s : State) : Bool := sensorsOk d s * 2 < sensorsOf d
/-- The hottest valid reading of a die. -/
def dieHot (d : Nat) (s : State) : Option Int :=
  (List.range (sensorsOf d)).foldl (fun m i =>
    let x := getSensor (d * 32 + i) s
    if x.failed then m
    else match x.last, m with
      | some t, some u => some (max t u)
      | some t, none => some t
      | none, _ => m) none
/-- Whether a die's sensors report: a fabric die while the package is powered up, the others with their rails. -/
def diePowered (d : Nat) (s : State) : Bool := if d ≥ 5 then s.pkg ≠ .off && s.pkg ≠ .standby else s.rails

/-- A junction reading: out of range, or 20 degrees from the last, marks the sensor failed (R405). -/
def takeReading (s : State) (r : SensorReading) : State :=
  let d := r.die.val
  let k := d * 32 + r.sensor.val
  let x := getSensor k s
  if r.sensor.val ≥ sensorsOf d ∨ x.failed ∨ !diePowered d s then s
  else
    let jump : Bool := match x.last with
      | some t => decide ((r.tempC - t).natAbs > 20)
      | none => false
    if r.tempC < -20 ∨ r.tempC > 150 ∨ jump then
      raise (0xD000 + d) 0x96 1 0 0 { s with pwr := { s.pwr with sensors := sIns k ⟨x.last, true⟩ s.pwr.sensors } }
    else { s with pwr := { s.pwr with sensors := sIns k ⟨some r.tempC, false⟩ s.pwr.sensors } }

/-- The junction band of a temperature (R464). -/
def bandOf (t : Nat) : Nat := if t < 35 then 0 else if t ≥ 105 then 8 else 1 + (t - 35) / 10

/-- The temperature of a powered die after its readings: 105 degrees, and a FAULT demand, when too few sensors are valid (R405). -/
def dieTemp (s : State) (d : Nat) : State :=
  if !diePowered d s then { s with pwr := { s.pwr with hotC := sDel d s.pwr.hotC } }
  else
    let short := sensorShort d s
    let s := if short then setDemand 6 15 { s with pwr := { s.pwr with faultAt := some s.count } } else s
    match (if short then some (105 : Int) else dieHot d s) with
    | none => s
    | some t =>
      let n := t.toNat
      { s with pwr := { s.pwr with hotC := sIns d n s.pwr.hotC, maxC := sIns d (max (sGet 0 s.pwr.maxC d) n) s.pwr.maxC,
                                   acc := addAt (100 * (d + 1) + bandOf n) 100000 s.pwr.acc } }

/-- A junction or stack at or above 105 degrees sets the THERMAL demand to 15 (R407). -/
def critical (s : State) : State :=
  match s.pwr.hotC.find? (fun e => e.2 ≥ 105) with
  | some e => raise (0xD000 + e.1) 0x94 1 0 0 (setDemand 2 15 (setQuiet 2 0 s))
  | none => if s.pwr.stackC.any (fun x => x ≥ 105) then raise srcPwr 0x94 1 0 0 (setDemand 2 15 (setQuiet 2 0 s)) else s

/-- A coolant reading: outside 0 to 90 degrees, or 10 degrees from the last, is discarded (R486). Answers the sensor and whether it was discarded. -/
def coolantReading (x : Sensor) (t : Int) : Sensor × Bool :=
  let jump : Bool := match x.last with
    | some u => decide ((t - u).natAbs > 10)
    | none => false
  if t < 0 ∨ t > 90 ∨ jump then (⟨x.last, true⟩, true) else (⟨some t, false⟩, false)

/-- The coolant readings: PWR_COOLANT, and COOLANT_HOT above 40 degrees at most once per 10 s (R408, R486). -/
def coolant (tin tout : Int) (s : State) : State :=
  let b := pwrBase
  let i := coolantReading s.pwr.inlet tin
  let o := coolantReading s.pwr.outlet tout
  let s := { s with pwr := { s.pwr with inlet := i.1, outlet := o.1 } }
  let s := if i.2 then raise srcPwr 0x96 1 0 0 s else setF b R.PWR_COOLANT_INLET_C tin.toNat s
  let s := if o.2 then raise srcPwr 0x96 1 0 0 s else setF b R.PWR_COOLANT_OUTLET_C tout.toNat s
  if i.2 then s
  else
    let s := setF b R.PWR_COOLANT_INLET_MAX (max (getF b R.PWR_COOLANT_INLET_MAX s) tin.toNat) s
    let due : Bool := match s.pwr.coolHotAt with
      | some t => decide (s.count.toNat ≥ t.toNat + 10000000000)
      | none => true
    if tin > 40 ∧ due then raise srcPwr 0x97 1 0 0 { s with pwr := { s.pwr with coolHotAt := some s.count } } else s

/-- Stack temperatures: MEM_TEMP of each powered stack (R239, R405). -/
def stackTemps (ts : List Nat) (s : State) : State :=
  if !s.rails then { s with pwr := { s.pwr with stackC := [] } }
  else
    let s := { s with pwr := { s.pwr with stackC := ts.take 12 } }
    (List.range 12).foldl (fun s i =>
      match ts[i]? with
      | some t => setF (stackBase i) R.MEM_TEMP_TEMP_C t (setF (stackBase i) R.MEM_TEMP_MAX_C (max t (getF (stackBase i) R.MEM_TEMP_MAX_C s)) s)
      | none => s) s

/-- SENSOR_SAMPLE. -/
def sensorSample (rs : List SensorReading) (temps : List Nat) (tin tout : Int) (s : State) : State :=
  if s.pkg = .off then s
  else
    let s := rs.foldl takeReading s
    let s := (List.range 7).foldl dieTemp s
    let top := s.pwr.hotC.foldl (fun m e => max m e.2) 0
    let s := if s.pwr.hotC.isEmpty then s else { s with pwr := { s.pwr with acc := addAt (900 + bandOf top) 100000 s.pwr.acc } }
    critical (coolant tin tout (stackTemps temps s))

/-- The sensors of the dies whose rails start are tested again (R405). -/
def sensorsFresh (sel : Nat → Bool) (s : State) : State :=
  { s with pwr := { s.pwr with sensors := s.pwr.sensors.filter (fun e => !sel (e.1 / 32)), hotC := s.pwr.hotC.filter (fun e => !sel e.1) } }

/-! ### Rails, trips and the power stage (R407, R409) -/

/-- The arithmetic and sequencer islands lose their power: cores, engines, tile SRAM, vector and mask registers and what they worked on are gone. -/
def islandsOff (s : State) : State :=
  let s := colShow { s with cores := [], starts := [], engines := [], tileSram := [], vregs := [], masks := [], dsps := [], slvs := []
                            depot := [], depotCtl := [], ramps := [], rails := false, col := { s.col with runs := [], mail := [], lost := [] } }
  showSlow (setF pkgBase R.PKG_STATE_RAILS_ON 0 { s with pwr := { s.pwr with slow := [], boost := false, hotC := s.pwr.hotC.filter (fun e => e.1 ≥ 5), stackC := [] } })

/-- The stacks lose their power: what HBM holds is unpredictable from here on. -/
def stacksOff (s : State) : State := { s with hbm := [], hbmBg := s.fresh + 1, fresh := s.fresh + 1, poison := [] }

/-- The rails are removed and the package becomes FAULTED (R407, R409, R429): the collectives of the job abort as at a FAULTED member (R317). -/
def railFault (cause : Nat) (s : State) : State :=
  setFaulted cause (stacksOff (islandsOff (drainAbandon (copyClear (voteClear (colAbortAll 1 true s))))))

/-- Whether a trip can still act: the package is powered and its rails were not removed by an earlier one. -/
def canTrip (s : State) : Bool := s.pkg ≠ .off && !(s.pkg = .faulted && s.cause ≠ 1)

/-- THERMAL_TRIP: a junction of die 0 to 6 at or above 115 degrees for 1 ms, or stack 0 to 11 (numbered 7 to 18) at or above 110 (R407). -/
def thermalTrip (die tempC : Nat) (s : State) : State :=
  if canTrip s ∧ ((die < 7 ∧ tempC ≥ 115 ∧ diePowered die s) ∨ (die ≥ 7 ∧ tempC ≥ 110 ∧ s.rails)) then
    railFault 2 (raise (if die < 7 then 0xD000 + die else srcPwr) 0x95 3 0 0 s)
  else s

/-- A power-stage warning sets the FAULT demand to 15 (R409). -/
def stageWarn (s : State) : State :=
  if s.pkg = .off then s
  else raise srcPwr 0x98 1 0 0 (setDemand 6 15 { s with pwr := { s.pwr with faultAt := some s.count } })

/-- FAULT_DEMAND_CLEAR: 100 ms after the last warning and the last sensor shortage (R405, R409). -/
def faultClear (s : State) : State :=
  let due : Bool := match s.pwr.faultAt with
    | some t => decide (s.count.toNat ≥ t.toNat + 100000000)
    | none => false
  if due ∧ !(List.range 7).any (fun d => diePowered d s && sensorShort d s) then
    setDemand 6 0 { s with pwr := { s.pwr with faultAt := none } }
  else s

/-- POWER_STAGE_FAIL (R409). -/
def stageFail (s : State) : State := if canTrip s then railFault 3 (raise srcPwr 0x99 3 0 0 s) else s

/-! ### The hand-over (R411) and sleep (R412, R413) -/

/-- Add every entry of one store of counts to another. -/
def addAll (m acc : Store Nat) : Store Nat := m.foldl (fun a e => addAt e.1 e.2 a) acc

/-- POWER_HANDOVER: the figures since the last one go to the security block's accumulators (R411). -/
def handover (s : State) : State :=
  let s := [1, 2, 3, 4, 5, 6].foldl (fun s r => accrue r s) s
  { s with sec := { s.sec with saved := addAll s.pwr.acc s.sec.saved }, pwr := { s.pwr with acc := [] } }

/-- Whether an offset names a register that loses its power with the islands: package sequencer cores, solver engines, compute dies. -/
def islandReg (off : Nat) : Bool := (0x028000 ≤ off && off < 0x030000) || (0x080000 ≤ off && off < 0x090000) || decide (0x1000000 ≤ off)

/-- SLEEP: the Depots are written back, state is discarded and the rails are removed; the stacks keep their contents (R412). -/
def sleepCmd (path : Path) (s : State) : State :=
  plainCommand path 5 (fun s => islandsOff (flush (fun _ => true) true s)) s

/-- SLEEP_ENTRY_DONE: the package enters SLEEP, the command completes and the figures are handed over. -/
def sleepDone (s : State) : State :=
  if cmdBusy s ∧ cmdOp s = 5 then
    handover (cmdFinish 0 (setPkg .sleep (bumpF pwrBase R.PWR_SLEEP_STATUS_SLEEP_COUNT 1 s)))
  else s

/-- The rails of the islands start: their registers and sensors are fresh, the directory is initialised. -/
def islandsOn (s : State) : State :=
  let s := resetRegs islandReg { s with rails := true, hal := { s.hal with dir := [], snoops := [] } }
  setF pkgBase R.PKG_STATE_RAILS_ON 1 (sensorsFresh (fun d => decide (d < 5)) s)

/-- WAKE: the rails start (R413). -/
def wakeCmd (path : Path) (s : State) : State :=
  plainCommand path 6 (fun s => islandsOn { s with pwr := { s.pwr with wakeAt := some s.count } }) s

/-- WAKE_DONE: READY at OP15, with the duration of the wake. -/
def wakeDone (s : State) : State :=
  if cmdBusy s ∧ cmdOp s = 6 then
    let us := (s.count.toNat - (s.pwr.wakeAt.getD s.count).toNat) / 1000
    cmdFinish 0 (setPkg .ready (opSlowest (setF pwrBase R.PWR_SLEEP_STATUS_LAST_WAKE_US (min 65535 us) { s with pwr := { s.pwr with wakeAt := none } })))
  else s

/-! ### Register writes with a row of their own (R396 to R398) -/

/-- A write of PWR_PREF. -/
def prefWrite (v : Nat) (s : State) : State := retune (setF pwrBase R.PWR_PREF_OP v s)
/-- A write of PWR_HOST_OP. -/
def hostOpWrite (v : Nat) (s : State) : State := retune (setF pwrBase R.PWR_HOST_OP_OP v s)
/-- A write of PWR_CAP, clamped (R398). -/
def capWrite (v : Nat) (s : State) : State := setF pwrBase R.PWR_CAP_CAP_W (max 1500 (min 4600 (v % 2 ^ 13))) s
/-- A Drover core's write never reaches PWR (R133, R396), and no write does while the package is off. -/
def pwrReach (path : Path) (s : State) : Bool :=
  s.pkg ≠ .off && (match path with
    | .drover _ => false
    | _ => true)

/-- PWR_PREF (R396). -/
def execPwrPref (path : Path) (val : Word) (s : State) : Host.Outcome State Fault Refusal :=
  .next (if pwrReach path s then prefWrite val.toNat s else s)
/-- PWR_HOST_OP (R397). -/
def execPwrHostOp (path : Path) (val : Word) (s : State) : Host.Outcome State Fault Refusal :=
  .next (if pwrReach path s then hostOpWrite val.toNat s else s)
/-- PWR_CAP (R398). -/
def execPwrCap (path : Path) (val : Word) (s : State) : Host.Outcome State Fault Refusal :=
  .next (if pwrReach path s then capWrite val.toNat s else s)
/-- OP_CHANGE (R394). -/
def execOpChange (s : State) : Host.Outcome State Fault Refusal := .next (opChange s)
/-- OP_FREQ_SWITCH (R394). -/
def execOpFreqSwitch (s : State) : Host.Outcome State Fault Refusal := .next (opFreqSwitch s)
/-- OP_VOLTAGE_SETTLED (R394). -/
def execOpVoltageSettled (s : State) : Host.Outcome State Fault Refusal := .next (opSettled s)
/-- CAP_TICK (R398). -/
def execCapTick (avgW : Nat) (avg10W : Nat) (stretch : List Nat) (s : State) : Host.Outcome State Fault Refusal :=
  .next (capTick avgW avg10W stretch s)
/-- DEMAND_RECOVERY (R398). -/
def execDemandRecovery (reason : Fin 7) (s : State) : Host.Outcome State Fault Refusal := .next (demandRecovery reason s)
/-- CAP_UNMET (R399). -/
def execCapUnmet (s : State) : Host.Outcome State Fault Refusal := .next (capUnmet s)
/-- CURRENT_SAMPLE (R400). -/
def execCurrentSample (p : PowerSample) (s : State) : Host.Outcome State Fault Refusal := .next (currentSample p s)
/-- CURRENT_OVER_TOTAL (R400). -/
def execCurrentOverTotal (s : State) : Host.Outcome State Fault Refusal := .next (currentOver s)
/-- DROOP_TRIP (R401). -/
def execDroopTrip (d : Fin 7) (s : State) : Host.Outcome State Fault Refusal := .next (droopTrip d s)
/-- DROOP_STRETCH_END (R401). -/
def execDroopStretchEnd (d : Fin 7) (s : State) : Host.Outcome State Fault Refusal := .next (droopEnd d s)
/-- RAMP_BOOST_START (R403). -/
def execRampBoostStart (s : State) : Host.Outcome State Fault Refusal := .next (boostStart s)
/-- RAMP_BOOST_END (R403). -/
def execRampBoostEnd (s : State) : Host.Outcome State Fault Refusal := .next (boostEnd s)
/-- SENSOR_SAMPLE (R405). -/
def execSensorSample (rs : List SensorReading) (temps : List Nat) (inletC : Int) (outletC : Int) (s : State) :
    Host.Outcome State Fault Refusal := .next (sensorSample rs temps inletC outletC s)
/-- THERMAL_TRIP (R407). -/
def execThermalTrip (die : Fin 19) (tempC : Nat) (s : State) : Host.Outcome State Fault Refusal := .next (thermalTrip die tempC s)
/-- POWER_STAGE_WARN (R409): which rail or component warns changes nothing. -/
def execPowerStageWarn (_rail : BitVec 8) (s : State) : Host.Outcome State Fault Refusal := .next (stageWarn s)
/-- FAULT_DEMAND_CLEAR (R409). -/
def execFaultDemandClear (s : State) : Host.Outcome State Fault Refusal := .next (faultClear s)
/-- POWER_STAGE_FAIL (R409). -/
def execPowerStageFail (_rail : BitVec 8) (s : State) : Host.Outcome State Fault Refusal := .next (stageFail s)
/-- POWER_HANDOVER (R411). -/
def execPowerHandover (s : State) : Host.Outcome State Fault Refusal := .next (handover s)
/-- SLEEP (R412). -/
def execSleep (path : Path) (s : State) : Host.Outcome State Fault Refusal := .next (sleepCmd path s)
/-- SLEEP_ENTRY_DONE (R412). -/
def execSleepEntryDone (s : State) : Host.Outcome State Fault Refusal := .next (sleepDone s)
/-- WAKE (R413). -/
def execWake (path : Path) (s : State) : Host.Outcome State Fault Refusal := .next (wakeCmd path s)
/-- WAKE_DONE (R413). -/
def execWakeDone (s : State) : Host.Outcome State Fault Refusal := .next (wakeDone s)

end Sys2Proof.Machine
end

