-- ==== Sys2Proof/Machine/Solver.lean ====
section
/-! DEFINITION. The solver engines (R198 to R224): range-tagged fixed point, the five operations, pivots, warm start, status
words and the engine's own state while FROZEN. -/

namespace Sys2Proof.Machine

/-! ### Range-tagged fixed point (R199 to R204) -/

/-- v × 2^k for a signed k, exact when k ≥ 0, else the floor. -/
def shlI (v k : Int) : Int := if k ≥ 0 then v * 2 ^ k.toNat else v / 2 ^ (-k).toNat

/-- Terms summed in a saturating 128-bit accumulator at the finest tag: sum, its tag, whether it saturated (R200). -/
def sum128Go (tag : Int) : List (Int × Int) → Int × Bool → Int × Bool
  | [], a => a
  | (v, t) :: m, a =>
    if a.2 then a
    else
      let x := shlI v (tag - t)
      let c := clampS 128 x
      let y := clampS 128 (a.1 + x)
      sum128Go tag m (if c ≠ x then (c, true) else (y, y ≠ a.1 + x))

/-- The sum of tagged terms (R200). -/
def sum128 (ts : List (Int × Int)) : Int × Int × Bool :=
  let tag := match ts with
    | [] => 0
    | (_, t) :: m => m.foldl (fun a b => max a b.2) t
  let r := sum128Go tag ts (0, false)
  (r.1, tag, r.2)

/-- Round an accumulator to a tag and clamp it to a word; whether RANGE is set (R201). -/
def place (td : Int) (a : Int × Int × Bool) : Int × Bool :=
  let k := td - a.2.1
  let v := if k ≥ 0 then a.1 * 2 ^ k.toNat else rndShift a.1 (-k).toNat 0
  (clampS 64 v, a.2.2 || clampS 64 v ≠ v)

/-- round_to_nearest_even(num / den × 2^e). A zero divisor is reached only with a threshold of 0; the spec states no result there. -/
def quotRne (num den e : Int) : Int :=
  if den = 0 then signed 64 (Config.freeResult 26 num.toNat)
  else
    let n := num.natAbs * 2 ^ e.toNat
    let d := den.natAbs * 2 ^ (-e).toNat
    let q := n / d
    let r := n % d
    let q := if 2 * r > d ∨ (2 * r = d ∧ q % 2 = 1) then q + 1 else q
    if (decide (num < 0)) != (decide (den < 0)) then -(q : Int) else q

/-- Quotient of an accumulator by a word of tag `tb`, at tag `tq` (R202). -/
def divRne (a : Int × Int × Bool) (b tb tq : Int) : Int × Bool :=
  let v := quotRne a.1 b (tb + tq - a.2.1)
  (clampS 64 v, a.2.2 || clampS 64 v ≠ v)

/-- Integer square root by bits, from bit `n` down. -/
def isqrtGo (x : Nat) : Nat → Nat → Nat
  | 0, r => r
  | n + 1, r => if (r + 2 ^ n) * (r + 2 ^ n) ≤ x then isqrtGo x n (r + 2 ^ n) else isqrtGo x n r

/-- round_to_nearest_even(√value(a) × 2^tr) of an accumulator that is not negative (R202). -/
def sqrtRne (a : Int × Int × Bool) (tr : Int) : Int × Bool :=
  let k := 2 * tr - a.2.1
  let n := a.1.toNat * 2 ^ k.toNat
  let d := 2 ^ (-k).toNat
  let s := isqrtGo (n / d) (bitLen (n / d) / 2 + 1) 0
  let up := decide (4 * n > (2 * s + 1) * (2 * s + 1) * d) || (decide (4 * n = (2 * s + 1) * (2 * s + 1) * d) && s % 2 = 1)
  let v : Int := if up then s + 1 else s
  (clampS 64 v, a.2.2 || clampS 64 v ≠ v)

/-- An FP64 input word at tag `t` (R204). -/
def fromF64 (t : Int) (v : Nat) : Int × Bool :=
  match decodeF fp64 v with
  | .nan _ => (0, true)
  | .inf n => (if n then -(2 ^ 63) else 2 ^ 63 - 1, true)
  | .fin n m e => place t (if n then -(m : Int) else m, -e, false)
/-- A word of tag `t` as FP64 (R204). -/
def toF64 (t w : Int) : Nat := (roundDy fp64 false false ⟨w, -t⟩).1

/-! ### Descriptor (R206) -/

/-- The 128-byte descriptor with SLV_PIVOT_MIN as sampled above it (R206, R224). -/
structure SlvD where
  d : Nat

def SlvD.op (x : SlvD) : Nat := bitsAt x.d 0 4
def SlvD.solve (x : SlvD) : Bool := bitAt x.d 4 || x.op = 3 || x.op = 4
def SlvD.warm (x : SlvD) : Bool := bitAt x.d 5
def SlvD.damp (x : SlvD) : Bool := bitAt x.d 6
def SlvD.patEn (x : SlvD) : Bool := bitAt x.d 7
def SlvD.inF (x : SlvD) : Bool := bitAt x.d 8
def SlvD.outF (x : SlvD) : Bool := bitAt x.d 9
def SlvD.n (x : SlvD) : Nat := bitsAt (dw x.d 1) 0 6 + 1
def SlvD.nrhs (x : SlvD) : Nat := bitsAt (dw x.d 1) 8 6 + 1
def SlvD.mM1 (x : SlvD) : Nat := bitsAt (dw x.d 1) 16 12
def SlvD.m (x : SlvD) : Nat := x.mM1 + 1
def SlvD.batch (x : SlvD) : Nat := bitsAt (dw x.d 2) 0 16 + 1
/-- Tags 0 to 5: A, B, F, X, W, L. -/
def SlvD.tag (x : SlvD) (i : Nat) : Int := signed 8 (bitsAt x.d (8 * (12 + i)) 8)
def SlvD.up (x : SlvD) : Nat := bitsAt (dw x.d 4) 16 4
def SlvD.down (x : SlvD) : Nat := bitsAt (dw x.d 4) 20 4
def SlvD.lambda0 (x : SlvD) : Int := signed 64 (dq x.d 24)
/-- Addresses 0 to 6: A, B, X, F, ST, W, PAT. -/
def SlvD.addr (x : SlvD) (i : Nat) : Nat := dq x.d (32 + 8 * i)
def SlvD.done (x : SlvD) : Nat := dq x.d 88
/-- Per-problem strides 0 to 4: A, B, X, F, PAT. -/
def SlvD.ps (x : SlvD) (i : Nat) : Nat := dw x.d (24 + i)
def SlvD.pmin (x : SlvD) : Nat := bitsAt x.d 1024 64

/-- Whether the operation is GN or LM. -/
def SlvD.gn (x : SlvD) : Bool := x.op = 3 || x.op = 4
/-- Rows of A or J, and of the factorised system. -/
def SlvD.rowsA (x : SlvD) : Nat := if x.op = 0 ∨ x.op = 1 then x.n else x.m
def SlvD.rowsB (x : SlvD) : Nat := x.rowsA
def SlvD.colsB (x : SlvD) : Nat := if x.gn then 1 else x.nrhs
/-- Words of each array (R207). -/
def SlvD.lenA (x : SlvD) : Nat := 8 * x.rowsA * x.n
def SlvD.lenB (x : SlvD) : Nat := 8 * x.rowsB * x.colsB
def SlvD.lenX (x : SlvD) : Nat := if x.gn then 8 * (x.n + 2) else 8 * x.n * x.nrhs
def SlvD.lenF (x : SlvD) : Nat := if x.op = 2 then 8 * (x.m * x.n + x.n) else 8 * x.n * x.n
def SlvD.lenP (x : SlvD) : Nat := (x.rowsA * x.n + 7) / 8
/-- Arrays over the batch; an unused one has no rows. -/
def SlvD.rA (x : SlvD) : Rng := ⟨x.addr 0, x.batch, x.ps 0, x.lenA⟩
def SlvD.rB (x : SlvD) : Rng := ⟨x.addr 1, if x.solve then x.batch else 0, x.ps 1, x.lenB⟩
def SlvD.rX (x : SlvD) : Rng := ⟨x.addr 2, if x.solve then x.batch else 0, x.ps 2, x.lenX⟩
def SlvD.rF (x : SlvD) : Rng := ⟨x.addr 3, if x.addr 3 ≠ 0 then x.batch else 0, x.ps 3, x.lenF⟩
def SlvD.rSt (x : SlvD) : Rng := ⟨x.addr 4, x.batch, 8, 8⟩
def SlvD.rW (x : SlvD) : Rng := ⟨x.addr 5, if x.warm then x.batch else 0, 32, 32⟩
def SlvD.rP (x : SlvD) : Rng := ⟨x.addr 6, if x.patEn then x.batch else 0, x.ps 4, x.lenP⟩

/-- Reserved OP or bits (R206). -/
def slvReserved (x : SlvD) : Bool :=
  x.op > 4 || bitsAt x.d 10 22 ≠ 0 || bitsAt (dw x.d 1) 6 2 ≠ 0 || bitsAt (dw x.d 1) 14 2 ≠ 0 || bitsAt (dw x.d 1) 28 4 ≠ 0 ||
  bitsAt (dw x.d 2) 16 16 ≠ 0 || bitsAt (dw x.d 4) 24 8 ≠ 0 || dw x.d 5 ≠ 0 || bitsAt x.d 928 96 ≠ 0

/-- A size, WARM or DAMP outside R205. -/
def slvSizes (x : SlvD) : Bool :=
  ((x.op = 0 || x.op = 1) && x.mM1 ≠ 0) || (x.op = 2 && (x.m > 64 || x.m < x.n)) || (x.gn && (x.m < x.n || x.nrhs ≠ 1)) ||
  (x.warm && (x.op = 3 || (x.op ≤ 2 && !x.solve))) || (x.damp && x.op ≠ 4)

/-- Two arrays that may not overlap do (R218, cause 0x05): outputs with inputs and with one another, whatever names their addresses use (R28). -/
def slvOverlap (x : SlvD) (s : State) : Bool :=
  let meet := fun (a b : Rng) => (a.canon s).meets (b.canon s)
  [x.rX, x.rF, x.rSt, x.rW].any (fun o => [x.rA, x.rB, x.rP].any (fun i => meet o i)) ||
  meet x.rX x.rF || meet x.rX x.rSt || meet x.rX x.rW || meet x.rF x.rSt || meet x.rF x.rW || meet x.rSt x.rW

/-- The acceptance checks in the order of R143 (R218). -/
def slvChecks (ue : Bool) (p : Nat) (x : SlvD) (s : State) : List (Bool × Nat) :=
  let arrays := [x.rA, x.rB, x.rX, x.rF, x.rSt, x.rW, x.rP]
  [(p % 128 ≠ 0, 3), (!hbmRange p 128 s, 4), (ue || poisonOff (offOf p) 128 s, 7), (slvReserved x, 1), (slvSizes x, 2),
   ([x.rA, x.rB, x.rX, x.rF, x.rSt].any (fun r => r.rows ≠ 0 && (r.base % 8 ≠ 0 || (r.rows > 1 && r.stride % 8 ≠ 0))) || x.done % 8 ≠ 0 ||
     (x.warm && x.addr 5 % 32 ≠ 0), 3),
   (!(rowList arrays).all (fun r => hbmRange r.1 r.2 s) || (x.done ≠ 0 && !hbmRange x.done 8 s), 4),
   (arrays.any (fun r => r.rows ≠ 0 && r.stride < r.len) || slvOverlap x s, 5),
   ((List.range 6).any (fun i => x.tag i < -64 || x.tag i > 126), 6)]

/-- SLV_PIVOT_MIN as it acts. -/
def slvPivot (e : Nat) (s : State) : Nat :=
  effF (slvBase e) R.SLV_PIVOT_MIN_LO_MIN R.SLV_CFG_LEVEL s + 2 ^ 32 * effF (slvBase e) R.SLV_PIVOT_MIN_HI_MIN R.SLV_CFG_LEVEL s

/-- SLV_ACCEPT (R218, R224). -/
def slvAccept (e : Nat) (ue : Bool) (ce : Nat) (s : State) : State :=
  withBlock (kSlv e) 2 128 (fun s =>
  let s := acceptCe (kSlv e) 2 (fun x => decide (x.p.toNat % 128 = 0) && hbmRange x.p.toNat 128 s) (slvBase e) R.SLV_CE_COUNT_COUNT ce s
  let desc := fun (x : EngIns) => readOff (offOf x.p.toNat) 128 s + 2 ^ 1024 * slvPivot e s
  accept (kSlv e) 2 (fun x => slvChecks ue x.p.toNat ⟨desc x⟩ s) (fun _ => csrGet 0 (slvBase e) s) desc s) s

/-! ### Problems -/

/-- The work of one problem: mutable matrices keyed row × 64 + column, the vectors of a solve, the clamps met as (variable,
element), and the singular columns. -/
structure Slv where
  a : Store Int
  l : Store Int
  w : Store Int
  d : Store Int
  t : Store Int
  y : Store Int
  x : Store Int
  log : List (Nat × Nat)
  sing : List Nat

def Slv.empty : Slv := ⟨[], [], [], [], [], [], [], [], []⟩
/-- Key of element (i, j). -/
def mk (i j : Nat) : Nat := i * 64 + j
/-- Element (i, j) of a matrix. -/
def me (m : Store Int) (i j : Nat) : Int := sGet 0 m (mk i j)
/-- Record a clamp of element `e` of variable `v`. -/
def Slv.note (v e : Nat) (r : Bool) (s : Slv) : Slv := if r then { s with log := (v, e) :: s.log } else s

/-- A pivot quantity below SLV_PIVOT_MIN × 2^(-TAG_F) (R209). -/
def below (x : SlvD) (a : Int × Int × Bool) : Bool := Dy.lt ⟨a.1, -a.2.1⟩ ⟨x.pmin, -(x.tag 2)⟩
/-- Absolute value of an accumulator. -/
def absAcc (a : Int × Int × Bool) : Int × Int × Bool := (a.1.natAbs, a.2)

/-- Column `j` of CHOL over the matrix `a` of tag `ta` (R208). -/
def cholCol (x : SlvD) (a : Nat → Nat → Int) (ta : Int) (s : Slv) (j : Nat) : Slv :=
  let n := x.n
  let tf := x.tag 2
  let sums := fun i => (a i j, ta) :: (List.range j).map (fun k => (-(me s.l i k * me s.l j k), 2 * tf))
  let d := sum128 (sums j)
  if below x d then (s.note 2 (j * n + j) d.2.2) |> fun s => { s with sing := s.sing ++ [j] }
  else
    let r := sqrtRne d tf
    let s1 := ({ s with l := sIns (mk j j) r.1 s.l } : Slv).note 2 (j * n + j) r.2
    ((List.range n).filter (fun i => j < i)).foldl (fun s i =>
      let q := divRne (sum128 (sums i)) r.1 tf tf
      ({ s with l := sIns (mk i j) q.1 s.l } : Slv).note 2 (i * n + j) q.2) s1

/-- CHOL's solve of right-hand side `r`, whose words `b i` have tag `tb` (R208). -/
def cholSolve (x : SlvD) (b : Nat → Int) (tb : Int) (cols : Nat) (s : Slv) (r : Nat) : Slv :=
  let n := x.n
  let tf := x.tag 2
  let tw := x.tag 4
  let tx := x.tag 3
  let fwd := (List.range n).foldl (fun s i =>
    if me s.l i i = 0 then s
    else
      let q := divRne (sum128 ((b i, tb) :: (List.range i).map (fun k => (-(me s.l i k * me s.y k r), tf + tw)))) (me s.l i i) tf tw
      ({ s with y := sIns (mk i r) q.1 s.y } : Slv).note 3 (i * cols + r) q.2) s
  (List.range n).reverse.foldl (fun s i =>
    if me s.l i i = 0 then s
    else
      let q := divRne (sum128 ((me s.y i r, tw) :: ((List.range n).filter (fun k => i < k)).map (fun k => (-(me s.l k i * me s.x k r), tf + tx))))
        (me s.l i i) tf tx
      ({ s with x := sIns (mk i r) q.1 s.x } : Slv).note 4 (i * cols + r) q.2) fwd

/-- Column `j` of LDLT (R208, R209): d_j, then l_ij and w_ij of each later row. -/
def ldltCol (x : SlvD) (a : Nat → Nat → Int) (ta : Int) (s : Slv) (j : Nat) : Slv :=
  let n := x.n
  let tf := x.tag 2
  let tw := x.tag 4
  let sums := fun i => (a i j, ta) :: (List.range j).map (fun k => (-(me s.w i k * me s.l j k), tw + tf))
  let d := sum128 (sums j)
  if below x (absAcc d) then (s.note 2 (j * n + j) d.2.2) |> fun s => { s with sing := s.sing ++ [j] }
  else
    let r := place tf d
    let s1 := ({ s with d := sIns j r.1 s.d } : Slv).note 2 (j * n + j) r.2
    ((List.range n).filter (fun i => j < i)).foldl (fun s i =>
      let q := divRne (sum128 (sums i)) r.1 tf tf
      let w := place tw (q.1 * r.1, 2 * tf, false)
      (({ s with l := sIns (mk i j) q.1 s.l, w := sIns (mk i j) w.1 s.w } : Slv).note 2 (i * n + j) q.2).note 3 (i * n + j) w.2) s1

/-- LDLT's solve: forward with unit L, the division by d_j, back (R208). -/
def ldltSolve (x : SlvD) (b : Nat → Int) (tb : Int) (cols : Nat) (s : Slv) (r : Nat) : Slv :=
  let n := x.n
  let tf := x.tag 2
  let tw := x.tag 4
  let tx := x.tag 3
  let sing := s.sing
  let fwd := (List.range n).foldl (fun s i =>
    if sing.contains i then s
    else
      let q := place tw (sum128 ((b i, tb) :: (List.range i).map (fun k => (-(me s.l i k * me s.y k r), tf + tw))))
      ({ s with y := sIns (mk i r) q.1 s.y } : Slv).note 3 (i * cols + r) q.2) s
  let mid := (List.range n).foldl (fun s i =>
    if sing.contains i then s
    else
      let q := divRne (me s.y i r, tw, false) (sGet 0 s.d i) tf tw
      ({ s with y := sIns (mk i r) q.1 s.y } : Slv).note 3 (i * cols + r) q.2) fwd
  (List.range n).reverse.foldl (fun s i =>
    if sing.contains i then s
    else
      let q := place tx (sum128 ((me s.y i r, tw) :: ((List.range n).filter (fun k => i < k)).map (fun k => (-(me s.l k i * me s.x k r), tf + tx))))
      ({ s with x := sIns (mk i r) q.1 s.x } : Slv).note 4 (i * cols + r) q.2) mid

/-- Apply the reflector of column `j` (v in `l`, with v_0 = 1) to a column of words of tag `tc` kept at `key`; `var` names it. -/
def reflect (x : SlvD) (j : Nat) (tc : Int) (get : Slv → Nat → Int) (put : Nat → Int → Slv → Slv) (var : Nat) (el : Nat → Nat) (s : Slv) : Slv :=
  let tf := x.tag 2
  let tw := x.tag 4
  let below := (List.range x.m).filter (fun i => j < i)
  let sm := sum128 ((get s j, tc) :: below.map (fun i => (me s.l i j * get s i, tf + tc)))
  let t := place tw (sGet 0 s.t j * sm.1, tf + sm.2.1, sm.2.2)
  let s := s.note 3 (el j) t.2
  (j :: below).foldl (fun s i =>
    let p := if i = j then place tc (t.1, tw, false) else place tc (t.1 * me s.l i j, tw + tf, false)
    let r := place tc (get s i - p.1, tc, false)
    (put i r.1 s).note var (el i) (p.2 || r.2)) s

/-- Column `j` of QR (R208, R209): the reflector, then its application to the later columns. -/
def qrCol (x : SlvD) (s : Slv) (j : Nat) : Slv :=
  let n := x.n
  let tf := x.tag 2
  let ta := x.tag 0
  let rows := (List.range x.m).filter (fun i => j ≤ i)
  let x0 := me s.a j j
  let r := sqrtRne (sum128 (rows.map (fun i => (me s.a i j * me s.a i j, 2 * ta)))) tf
  let al := if x0 < 0 then r.1 else -r.1
  if below x (al.natAbs, tf, false) then (s.note 2 (j * n + j) r.2) |> fun s => { s with sing := s.sing ++ [j] }
  else
    let df := sum128 [(x0, ta), (-al, tf)]
    let s := ({ s with d := sIns j al s.d } : Slv).note 2 (j * n + j) r.2
    let s := (rows.filter (fun i => j < i)).foldl (fun s i =>
      let q := divRne (me s.a i j, ta, false) df.1 df.2.1 tf
      ({ s with l := sIns (mk i j) q.1 s.l } : Slv).note 2 (i * n + j) (q.2 || df.2.2)) s
    let ta' := divRne (sum128 [(al, tf), (-x0, ta)]) al tf tf
    let s := ({ s with t := sIns j ta'.1 s.t } : Slv).note 2 (x.m * n + j) ta'.2
    ((List.range n).filter (fun c => j < c)).foldl (fun s c =>
      reflect x j ta (fun s i => me s.a i c) (fun i v s => { s with a := sIns (mk i c) v s.a }) 0 (fun i => i * n + c) s) s

/-- Element (i, j) of R above the diagonal, placed in TAG_F (R201, R207). -/
def qrR (x : SlvD) (s : Slv) (i j : Nat) : Int × Bool := place (x.tag 2) (me s.a i j, x.tag 0, false)

/-- The clamps of R's elements above the diagonal on their way to TAG_F, which the factor's code reports (R201, R203). -/
def qrNote (x : SlvD) (s : Slv) : Slv :=
  (List.range x.n).foldl (fun s i => ((List.range x.n).filter (fun j => i < j)).foldl (fun s j => s.note 2 (i * x.n + j) (qrR x s i j).2) s) s

/-- QR's solve: the reflectors applied to B, then back-substitution on R (R208). -/
def qrSolve (x : SlvD) (b : Nat → Int) (tb : Int) (cols : Nat) (s : Slv) (r : Nat) : Slv :=
  let n := x.n
  let tf := x.tag 2
  let tx := x.tag 3
  let sing := s.sing
  let s := (List.range x.m).foldl (fun s i => { s with y := sIns (mk i r) (b i) s.y }) s
  let s := (List.range n).foldl (fun s j =>
    if sing.contains j then s
    else reflect x j tb (fun s i => me s.y i r) (fun i v s => { s with y := sIns (mk i r) v s.y }) 1 (fun i => i * cols + r) s) s
  (List.range n).reverse.foldl (fun s i =>
    if sing.contains i then s
    else
      let up := ((List.range n).filter (fun k => i < k)).map (fun k => (-((qrR x s i k).1 * me s.x k r), tf + tx))
      let q := divRne (sum128 ((me s.y i r, tb) :: up)) (sGet 0 s.d i) tf tx
      ({ s with x := sIns (mk i r) q.1 s.x } : Slv).note 4 (i * cols + r) q.2) s

/-- Factorise by the operation; GN and LM use CHOL. -/
def factorise (x : SlvD) (a : Nat → Nat → Int) (ta : Int) (s : Slv) : Slv :=
  let cols := List.range x.n
  if x.op = 1 then cols.foldl (fun s j => ldltCol x a ta s j) s
  else if x.op = 2 then
    let s := (List.range x.m).foldl (fun s i => cols.foldl (fun s j => { s with a := sIns (mk i j) (a i j) s.a }) s) s
    qrNote x (cols.foldl (fun s j => qrCol x s j) s)
  else cols.foldl (fun s j => cholCol x a ta s j) s

/-- Solve one right-hand side by the operation. -/
def solveRhs (x : SlvD) (b : Nat → Int) (tb : Int) (s : Slv) (r : Nat) : Slv :=
  if x.op = 1 then ldltSolve x b tb x.colsB s r
  else if x.op = 2 then qrSolve x b tb x.colsB s r
  else cholSolve x b tb x.colsB s r

/-- The factor as it is written (R207). -/
def factorWords (x : SlvD) (s : Slv) : List Int :=
  let n := List.range x.n
  if x.op = 2 then
    ((List.range x.m).flatMap (fun i => n.map (fun j =>
      if i = j then sGet 0 s.d j else if i < j then (qrR x s i j).1 else me s.l i j))) ++
    n.map (fun j => sGet 0 s.t j)
  else n.flatMap (fun i => n.map (fun j =>
    if x.op = 1 ∧ i = j then sGet 0 s.d j else if j ≤ i then me s.l i j else 0))

/-! ### One problem -/

/-- The structure signature (R211). -/
def slvSig (x : SlvD) (pat : List Byte) : Nat :=
  let tags := (List.range 6).map (fun i => BitVec.ofInt 8 (x.tag i))
  let blk : List Byte := [BitVec.ofNat 8 x.op, BitVec.ofNat 8 (b2n x.damp), BitVec.ofNat 8 (b2n x.inF), BitVec.ofNat 8 (b2n x.outF),
    BitVec.ofNat 8 (x.n - 1), BitVec.ofNat 8 (x.nrhs - 1), BitVec.ofNat 8 x.mM1, BitVec.ofNat 8 (x.mM1 / 256)] ++ tags ++ [0, 0]
  crc64Go (crc64Go 0 blk) pat

/-- Input word `i` of an array at `base` of tag `t`. -/
def slvIn (k : Nat) (f64 : Bool) (t : Int) (base i : Nat) (s : State) : Int × Bool :=
  let v := engRead k (base + 8 * i) 8 s
  if f64 then fromF64 t v else (signed 64 v, false)

/-- An output word. -/
def slvOut (f64 : Bool) (t w : Int) : DWord := if f64 then BitVec.ofNat 64 (toF64 t w) else BitVec.ofInt 64 w

/-- The pattern of problem `p`; bits beyond its last element are ignored, as in R81 (R211). -/
def slvPat (k : Nat) (x : SlvD) (p : Nat) (s : State) : List Byte :=
  if x.patEn then natBytes (engRead k (x.rP.base + p * x.rP.stride) x.lenP s % 2 ^ (x.rowsA * x.n)) x.lenP else []

/-- Whether problem `p` starts warm: the record is valid and has the problem's signature (R213). -/
def slvWarm (k : Nat) (x : SlvD) (p : Nat) (s : State) : Bool :=
  let r := engRead k (x.rW.base + 32 * p) 32 s
  x.warm && bitAt r 224 && dq r 0 = slvSig x (slvPat k x p s)

/-- The pattern and the warm record of problem `p` (R211, R212). -/
def slvHead (x : SlvD) (p : Nat) : List (Nat × Nat) :=
  (if x.patEn then [(x.rP.base + p * x.rP.stride, x.lenP)] else []) ++ (if x.warm then [(x.rW.base + 32 * p, 32)] else [])

/-- Ranges problem `p` reads: of A the elements with row ≥ column for CHOL and LDLT, X as x0 of a factorisation that starts warm (R207, R211 to R213). -/
def slvRanges (k : Nat) (x : SlvD) (p : Nat) (s : State) : List (Nat × Nat) :=
  let a := x.rA.base + p * x.rA.stride
  (if x.op = 0 || x.op = 1 then (List.range x.n).map (fun i => (a + 8 * x.n * i, 8 * (i + 1))) else [(a, x.lenA)]) ++
  (if x.solve then [(x.rB.base + p * x.rB.stride, x.lenB)] else []) ++ slvHead x p ++
  (if !x.gn && slvWarm k x p s then [(x.rX.base + p * x.rX.stride, x.lenX)] else [])

/-- The lowest clamp: lowest variable, then lowest element (R215). -/
def lowestClamp : List (Nat × Nat) → Option (Nat × Nat)
  | [] => none
  | c :: m => match lowestClamp m with
    | none => some c
    | some d => some (if c.1 < d.1 ∨ (c.1 = d.1 ∧ c.2 < d.2) then c else d)

/-- Everything problem `p` will write (R204 to R215, R220). -/
def slvProblem (k : Nat) (x : SlvD) (p : Nat) (bad : List Nat) (s : State) : SlvRes :=
  let n := x.n
  let tf := x.tag 2
  let tx := x.tag 3
  let tw := x.tag 4
  let tl := x.tag 5
  let aBase := x.rA.base + p * x.rA.stride
  let bBase := x.rB.base + p * x.rB.stride
  let xBase := x.rX.base + p * x.rX.stride
  let wBase := x.rW.base + 32 * p
  let sym := x.op = 0 || x.op = 1
  let aIn := fun i j => slvIn k x.inF (x.tag 0) aBase (if sym && i < j then j * n + i else i * n + j) s
  let a := fun i j => (aIn i j).1
  let bIn := fun i r => slvIn k x.inF (x.tag 1) bBase (i * x.colsB + r) s
  let b := fun i r => (bIn i r).1
  let rowsA := List.range x.rowsA
  let colsN := List.range n
  let inLog := (rowsA.flatMap (fun i => colsN.filterMap (fun j =>
      if !(sym && i < j) && (aIn i j).2 then some (0, i * n + j) else none))) ++
    (if x.solve then (List.range x.rowsB).flatMap (fun i => (List.range x.colsB).filterMap (fun r =>
      if (bIn i r).2 then some (1, i * x.colsB + r) else none)) else [])
  -- warm start (R211 to R214)
  let sig := slvSig x (slvPat k x p s)
  let rec0 := engRead k wBase 32 s
  let isWarm := slvWarm k x p s
  let lam0 := signed 64 (dq rec0 8)
  let rho := decodeF fp64 (dq rec0 16)
  let lam : Int × Bool :=
    if !isWarm then (x.lambda0, false)
    else if rho.isNan || ltV rho (.fin false 1 (-2)) then
      (clampS 64 (lam0 * 2 ^ x.up), clampS 64 (lam0 * 2 ^ x.up) ≠ lam0 * 2 ^ x.up)
    else if ltV (.fin false 3 (-2)) rho then (rndShift lam0 x.down 0, false)
    else (lam0, false)
  let start : Slv := { Slv.empty with log := inLog }
  let out : Slv × List Int × List Int :=
    if x.gn then
      let hAcc := fun j l => sum128 (rowsA.map (fun i => (a i j * a i l, 2 * x.tag 0)))
      let h0 := fun j l => place tf (hAcc (max j l) (min j l))
      let g := fun j => place tf (sum128 (rowsA.map (fun i => (a i j * b i 0, x.tag 0 + x.tag 1))))
      let dampT := fun j => if x.damp then
          let q := place tf (lam.1 * (h0 j j).1, tl + tf, false)
          let r := place tf ((h0 j j).1 + q.1, tf, false)
          (r.1, q.2 || r.2)
        else place tf (sum128 [((h0 j j).1, tf), (lam.1, tl)])
      let h : Store Int := colsN.foldl (fun m j => colsN.foldl (fun m l =>
        sIns (mk j l) (if x.op = 4 ∧ j = l then (dampT j).1 else (h0 j l).1) m) m) []
      let st := colsN.foldl (fun (st : Slv) j => (colsN.foldl (fun (st : Slv) l => if l ≤ j then st.note 2 (j * n + l) (h0 j l).2 else st) st)) start
      let st := colsN.foldl (fun (st : Slv) j => (st.note 2 j (g j).2).note 2 (j * n + j) (x.op = 4 && (dampT j).2)) st
      let st := if x.op = 4 then st.note 5 1 lam.2 else st
      let st := factorise x (fun i j => me h i j) tf st
      let st := solveRhs x (fun i => -(g i).1) tf st 0
      let q := fun j => place tw (sum128 (colsN.map (fun l => ((h0 j l).1 * me st.x l 0, tf + tx))))
      let pr := place tw (sum128 (colsN.map (fun j => (-((g j).1 * me st.x j 0), tf + tx)) ++
        colsN.map (fun j => (-(me st.x j 0 * (q j).1), tx + tw + 1))))
      let st := colsN.foldl (fun (st : Slv) j => st.note 3 j (q j).2) st
      (st.note 5 0 pr.2, colsN.map (fun j => me st.x j 0), [pr.1, if x.op = 4 then lam.1 else 0])
    else
      let st := factorise x a (x.tag 0) start
      if !x.solve then (st, [], [])
      else
        let x0 := fun i r => if isWarm then (let v := engRead k (xBase + 8 * (i * x.nrhs + r)) 8 s
          if x.outF then fromF64 tx v else (signed 64 v, false)) else (0, false)
        let st := (List.range x.nrhs).foldl (fun (st : Slv) r =>
          if isWarm then
            let res := fun i => place tw (sum128 ((b i r, x.tag 1) :: colsN.map (fun j => (-(a i j * (x0 j r).1), x.tag 0 + tx))))
            let st := (List.range x.rowsB).foldl (fun (st : Slv) i => st.note 3 (i * x.nrhs + r) (res i).2) st
            let st := solveRhs x (fun i => (res i).1) tw st r
            colsN.foldl (fun (st : Slv) i =>
              let v := place tx ((x0 i r).1 + me st.x i r, tx, false)
              ({ st with x := sIns (mk i r) v.1 st.x } : Slv).note 4 (i * x.nrhs + r) (v.2 || (x0 i r).2)) st
          else solveRhs x (fun i => b i r) (x.tag 1) st r) st
        (st, colsN.flatMap (fun i => (List.range x.nrhs).map (fun r => me st.x i r)), [])
  let st := out.1
  let ue := !bad.isEmpty
  let badWord : DWord := if x.outF then BitVec.ofNat 64 (nanOf fp64) else 2 ^ 63
  let xs := if x.solve then out.2.1.map (slvOut x.outF tx) ++ (match out.2.2 with
    | [pr, l] => [slvOut x.outF tw pr, slvOut x.outF tl l]
    | _ => []) else []
  let fs := if x.addr 3 ≠ 0 then (factorWords x st).map (slvOut x.outF tf) else []
  let low := lowestClamp st.log
  let status := b2n (!st.sing.isEmpty) + 2 * b2n (!st.log.isEmpty) + 4 * b2n (x.warm && !isWarm) + 8 * b2n isWarm + 16 * b2n ue
    + 2 ^ 8 * st.sing.headD 0 + 2 ^ 16 * (low.map (·.1)).getD 0 + 2 ^ 20 * ((low.map (·.2)).getD 0)
    + 2 ^ 40 * min st.sing.length 255 + 2 ^ 48 * min st.log.length 65535
  let lamOut : DWord := if x.op = 4 then BitVec.ofInt 64 lam.1 else BitVec.ofNat 64 (Config.freeResult 27 (sig + 2 ^ 64 * p))
  ⟨if ue then xs.map (fun _ => badWord) else xs, if ue then fs.map (fun _ => badWord) else fs, BitVec.ofNat 64 status,
   if x.warm then some (BitVec.ofNat 64 sig, lamOut, if isWarm then BitVec.ofNat 32 (dw rec0 6 + 1) else 0) else none,
   st.sing.head?, low, bad⟩

/-- CHOL, LDLT, QR, GN, LM: the next problem of the front instruction is computed. No problem starts once a freeze is due or the package
is FROZEN (R222). -/
def slvRun (op e : Nat) (ecc : Ecc) (s : State) : State :=
  let k := kSlv e
  match engHead k s with
  | none => s
  | some q =>
    let x : SlvD := ⟨q.desc⟩
    if x.op ≠ op ∨ q.phase ≠ 0 ∨ q.value ≥ x.batch ∨ freezeDue s ∨ s.pkg = .frozen then s
    else
      withSources k (slvHead x q.value) (fun s => withSources k (slvRanges k x q.value s) (fun s =>
        let bad := badAddrs k ecc.bad (slvRanges k x q.value s) s
        let r := slvProblem k x q.value bad s
        setHead k { q with phase := 1 } { bumpF (slvBase e) R.SLV_CE_COUNT_COUNT ecc.corrected s with slvs := sIns e r s.slvs }) s) s

/-- Write output words from an address on. -/
def writeDWords (k : Nat) : List DWord → Nat → State → State
  | [], _, s => s
  | v :: vs, a, s => writeDWords k vs (a + 8) (engWrite k a 8 v.toNat s)

/-- SLV_PROBLEM_END: outputs, status word and warm record are written, and the registers collect the flags (R212, R215, R216, R220). -/
def slvEnd (e : Nat) (s : State) : State :=
  let k := kSlv e
  match engHead k s, sFind s.slvs e with
  | some q, some r =>
    if q.phase = 0 then s
    else
      let x : SlvD := ⟨q.desc⟩
      let b := slvBase e
      let p := q.value
      let s := writeDWords k r.x (x.rX.base + p * x.rX.stride) s
      let s := writeDWords k r.f (x.rF.base + p * x.rF.stride) s
      let s := engWrite k (x.addr 4 + 8 * p) 8 r.status.toNat s
      let s := match r.warm with
        | some (sg, l, c) =>
          let wa := x.rW.base + 32 * p
          engWrite k (wa + 24) 8 (c.toNat + 2 ^ 32) (engWrite k wa 16 (sg.toNat + 2 ^ 64 * l.toNat) s)
        | none => s
      let st := r.status.toNat
      let s := if bitAt st 0 then
          capture b R.SLV_SING_POS_VALID (fun s => setF b R.SLV_SING_POS_PROBLEM p (setF b R.SLV_SING_POS_COL (r.sing.getD 0) s))
            (bumpF b R.SLV_STATUS_SING_PROBLEMS 1 (setF b R.SLV_STATUS_SINGULAR 1 s)) else s
      let s := if bitAt st 1 then
          capture b R.SLV_RANGE_POS_VALID (fun s => setF b R.SLV_RANGE_POS_ELEM (r.range.getD (0, 0)).2
              (setF b R.SLV_RANGE_POS_VAR (r.range.getD (0, 0)).1 (setF b R.SLV_RANGE_PROB_PROBLEM p s)))
            (bumpF b R.SLV_STATUS_RANGE_PROBLEMS 1 (setF b R.SLV_STATUS_RANGE 1 s)) else s
      let s := if bitAt st 2 then bumpF b R.SLV_WARM_COUNT_COUNT 1 (setF b R.SLV_STATUS_WARM_REJECT 1 s) else s
      let s := match r.ue with
        | [] => s
        | a :: _ => raise (0x6000 + e) 0x22 2 (e + 2 ^ 8 * p) 0
            (capture b R.SLV_STATUS_UE (setPair b R.SLV_UE_ADDR_LO_ADDR R.SLV_UE_ADDR_HI_ADDR a) s)
      let s := if st % 4 ≠ 0 ∨ !r.ue.isEmpty then setF b R.SLV_STATUS_LAST_TAG (q.tag.toNat % 256) s else s
      let s := addPair b R.SLV_PROBLEMS_LO_VALUE R.SLV_PROBLEMS_HI_VALUE 1 s
      setHead k { q with phase := 0, value := p + 1 } { s with slvs := sDel e s.slvs }
  | _, _ => s

/-- SLV_COMPLETE: with every problem ended, DONE_ADDR is incremented by 1 at the Depot and the instruction is complete (R198). -/
def slvComplete (e : Nat) (s : State) : State :=
  match engHead (kSlv e) s with
  | none => s
  | some q =>
    let x : SlvD := ⟨q.desc⟩
    if q.phase ≠ 0 ∨ q.value < x.batch ∨ writesOpen (.eng (kSlv e)) s then s
    else if x.done = 0 then engComplete (kSlv e) 0 s
    else
      match target (offOf x.done) s with
      | .hbm p =>
        if writeHeld (p / 128) s then recallLine true (p / 128) s
        else engComplete (kSlv e) 0 (atomicAt p (fun v => v + 1) s).2
      | _ => engComplete (kSlv e) 0 s

/-- SLV_RESTORE (R222). -/
def slvRestore (path : Path) (e : Nat) (v : Word) (s : State) : State :=
  restoreStatus path (slvBase e + 0x58) (slvBase e) [R.SLV_STATUS_SINGULAR, R.SLV_STATUS_RANGE, R.SLV_STATUS_WARM_REJECT, R.SLV_STATUS_UE,
    R.SLV_STATUS_SING_PROBLEMS, R.SLV_STATUS_RANGE_PROBLEMS, R.SLV_STATUS_LAST_TAG] v.toNat s

/-- SLV_ACCEPT (R218). -/
def execSlvAccept (e : Fin 8) (ecc : DescEcc) (s : State) : Host.Outcome State Fault Refusal :=
  .next (slvAccept e ecc.ue ecc.ce s)

/-- CHOL (R208). -/
def execChol (e : Fin 8) (ecc : Ecc) (s : State) : Host.Outcome State Fault Refusal :=
  .next (slvRun 0 e ecc s)

/-- LDLT (R208). -/
def execLdlt (e : Fin 8) (ecc : Ecc) (s : State) : Host.Outcome State Fault Refusal :=
  .next (slvRun 1 e ecc s)

/-- QR (R208). -/
def execQr (e : Fin 8) (ecc : Ecc) (s : State) : Host.Outcome State Fault Refusal :=
  .next (slvRun 2 e ecc s)

/-- GN (R210). -/
def execGn (e : Fin 8) (ecc : Ecc) (s : State) : Host.Outcome State Fault Refusal :=
  .next (slvRun 3 e ecc s)

/-- LM (R210, R214). -/
def execLm (e : Fin 8) (ecc : Ecc) (s : State) : Host.Outcome State Fault Refusal :=
  .next (slvRun 4 e ecc s)

/-- SLV_PROBLEM_END (R215). -/
def execSlvProblemEnd (e : Fin 8) (s : State) : Host.Outcome State Fault Refusal :=
  .next (slvEnd e s)

/-- SLV_COMPLETE (R198). -/
def execSlvComplete (e : Fin 8) (s : State) : Host.Outcome State Fault Refusal :=
  .next (slvComplete e s)

/-- SLV_RESTORE (R222). -/
def execSlvRestore (path : Path) (e : Fin 8) (val : Word) (s : State) : Host.Outcome State Fault Refusal :=
  .next (slvRestore path e val s)

/-- SLV_STATE_WINDOW (R222, R490). -/
def execSlvStateWindow (path : Path) (e : Fin 8) (off : BitVec 10) (val : Word) (s : State) : Host.Outcome State Fault Refusal :=
  windowWrite path (sFind s.imgSlv e) (slvBase e + 0x800) off.toNat val (fun x s => setEng (kSlv e) x s) s

end Sys2Proof.Machine
end

