-- ==== Sys2Proof/Machine/Discard.lean ====
section
/-! DEFINITION. What is left of the engines' work when it is discarded (R458): the destinations of the accepted instructions hold
unpredictable data. -/

namespace Sys2Proof.Machine

/-- The memory an accepted instruction of engine `k` would have written, as global addresses or tile windows of this package, with lengths. -/
def outRanges (k : Nat) (e : EngIns) : List (Nat × Nat) :=
  let here := 0xFFFF * 2 ^ 48
  if k < 288 then
    let x := mxD e.cfg e.desc
    (rowList [x.rD, x.rBmd]).map (fun r => (here + tileWin k r.1, r.2))
  else if k < 576 then
    (vxD e e.desc).dstBytes.map (fun r => (here + tileWin (k - 288) r.1.toNat, r.2))
  else if k < 612 then
    let x : SxD := ⟨e.desc⟩
    x.points.map (fun q => (x.outAt q, 8))
  else if k < 648 then rowList (AsyD.writes ⟨e.desc⟩)
  else if k < 684 then
    let x : PorD := ⟨e.desc⟩
    x.dstRanges ++ x.bmpRange ++ x.digRange
  else if 688 ≤ k ∧ k < 696 then
    let x : SlvD := ⟨e.desc⟩
    rowList [x.rX, x.rF, x.rSt, x.rW]
  else []

/-- The lists, counts and drop map an open batch would have written (R170 to R172). -/
def batchRanges (b : Batch) : List (Nat × Nat) :=
  [(hdrList b.header, 8 * hdrE b.header * hdrCap b.header), (hdrCount b.header, 4096 + 4 * hdrE b.header)] ++
  (if hdrDmap b.header then [(hdrDmapAddr b.header, b.contribs.foldl (fun n c => n + conT c.ins.desc) 0)] else [])

/-- The local bytes of some ranges become unpredictable. -/
def spoil (l : List (Nat × Nat)) (s : State) : State :=
  let n := s.fresh
  l.foldl (fun s r =>
    if isLocal r.1 s && r.2 ≠ 0 then
      writeBy .none (offOf r.1) r.2 (bytesNat ((List.range r.2).map (fun i => Config.freeAbortByte n (offOf r.1 + i)))) s
    else s) { s with fresh := n + 1 }

/-- The vector register, or the mask, that an accepted VX instruction in the register form would have written. -/
def spoilReg (k : Nat) (e : EngIns) (s : State) : State :=
  let x := vxD e e.desc
  if 288 ≤ k ∧ k < 576 ∧ !x.stream && !vxIsStore x.opc then
    let p := k - 288
    let v := bytesNat ((List.range 256).map (fun i => Config.freeAbortByte s.fresh (2 ^ 48 + p * 2 ^ 16 + x.vd * 256 + i)))
    let s := { s with fresh := s.fresh + 1 }
    if vxIsCmp x.opc then setM p (x.vd % 8) (BitVec.ofNat 256 v) s else setV p x.vd (BitVec.ofNat 2048 v) s
  else s

/-- Every engine and collective discards its accepted work, and the outputs are unpredictable (R451, R458). -/
def discardAll (s : State) : State :=
  let rs := s.engines.flatMap (fun e => e.2.queue.flatMap (fun i => outRanges e.1 i)) ++ s.dsps.flatMap (fun d => d.2.batches.flatMap batchRanges)
  let s := s.engines.foldl (fun s e => e.2.queue.foldl (fun s i => spoilReg e.1 i s) s) s
  discardWork (spoil rs s)

end Sys2Proof.Machine
end

