-- ==== Sys2Proof/Machine/Gct.lean ====
section
/-! DEFINITION. The digest combiner (R341 to R343) and the synchronisation of the global counter (R344 to R348). -/

namespace Sys2Proof.Machine

/-! ### Layer digests (R341 to R343) -/

/-- Product of two polynomials over GF(2) modulo the polynomial of R191; `n` bits of `b` from the top. -/
def polyMul (a b : Nat) : Nat → Nat
  | 0 => 0
  | n + 1 => crc64Bits (polyMul a (b / 2) n) 1 ^^^ (if b % 2 = 1 then a else 0)
/-- x to the power `e` modulo the polynomial; `n` bits of `e`. -/
def polyPow (x e : Nat) : Nat → Nat
  | 0 => 1
  | n + 1 => let h := polyPow x (e / 2) n
    let q := polyMul h h 64
    if e % 2 = 1 then polyMul q x 64 else q
/-- d × x^(8 n) modulo the polynomial (R341). -/
def mulx (d n : Nat) : Nat := polyMul d (polyPow 2 (8 * n) 67) 64

/-- A layer as the combiner folds it. -/
structure Layer where
  layer : Nat
  pieces : Nat
  bytes : Nat
  digest : Nat
  first : Nat
  last : Nat
  deriving DecidableEq, Repr

/-- A piece record's fields: LAYER, PIECE, BYTES, CRC. -/
structure Piece where
  layer : Nat
  piece : Nat
  bytes : Nat
  crc : Nat
  deriving DecidableEq, Repr

/-- Record `i` of a slot. -/
def pieceAt (a i : Nat) (s : State) : Piece :=
  let v := readOff (a + 64 + 32 * i) 32 s
  ⟨bitsAt v 0 32, bitsAt v 32 32, bitsAt v 64 64, bitsAt v 128 64⟩

/-- Fold records in ascending index: layers completed, records skipped, and the index of a record out of order. A layer is complete when a
record of a higher layer or the end of the log follows it. -/
def combine : List Piece → Nat → Option Layer → List Layer → Nat → List Layer × Nat × Option Nat
  | [], _, cur, acc, e => (acc ++ cur.toList, e, none)
  | r :: m, i, cur, acc, e =>
    if r.bytes = 0 then combine m (i + 1) cur acc (e + 1)
    else match cur with
      | none => combine m (i + 1) (some ⟨r.layer, 1, r.bytes, r.crc, r.piece, r.piece⟩) acc e
      | some c =>
        if r.layer < c.layer then (acc, e, some i)
        else if r.layer = c.layer then
          if r.piece ≤ c.last then (acc, e, some i)
          else combine m (i + 1) (some { c with pieces := c.pieces + 1, bytes := (c.bytes + r.bytes) % 2 ^ 64,
                                                digest := mulx c.digest r.bytes ^^^ r.crc, last := r.piece }) acc e
        else combine m (i + 1) (some ⟨r.layer, 1, r.bytes, r.crc, r.piece, r.piece⟩) (acc ++ [c]) e

/-- The 32 bytes of a table entry. -/
def layerBytes (l : Layer) : List Byte :=
  natBytes l.layer 4 ++ natBytes l.pieces 4 ++ natBytes l.bytes 8 ++ natBytes l.digest 8 ++ natBytes l.first 4 ++ natBytes 0 4

/-- GCT_DIG_GO: the combiner samples its registers; a GO while it runs is ignored (R343, R352). -/
def digGo (slot : Nat) (s : State) : State :=
  if s.dig.isSome then s
  else setF gctBase R.GCT_DIG_STATUS_BUSY 1
    { s with dig := some ⟨slot, digSlot slot s, getF gctBase R.GCT_DIG_SLOT_RECORDS s,
                          getPair gctBase R.GCT_DIG_OUT_LO_ADDR R.GCT_DIG_OUT_HI_ADDR s / 128 * 128⟩ }

/-- DIG_COMBINER_DONE: the table is written; a record out of order stopped the run (R343). The combiner reads the coherent values of the log: a line the companion
owns is recalled first. -/
def digDone (s : State) : State :=
  match s.dig with
  | none => s
  | some d =>
    match heldLines [(0xFFFF * 2 ^ 48 + d.base, 64 + 32 * d.records)] s with
    | p :: ps => (p :: ps).foldl (fun s l => recallLine false l s) s
    | [] =>
    let r := combine ((List.range d.records).map (fun i => pieceAt d.base i s)) 0 none [] 0
    let bs := natBytes (readOff d.base 8 s) 8 ++ natBytes r.1.length 4 ++ natBytes 0 4 ++ r.1.flatMap layerBytes
    let s := writeOff d.out bs.length (bytesNat bs) { s with dig := none }
    let s := setF gctBase R.GCT_DIG_STATUS_BUSY 0 (setF gctBase R.GCT_DIG_STATUS_DONE 1 (setF gctBase R.GCT_DIG_LAYERS_LAYERS r.1.length s))
    let s := bumpF gctBase R.GCT_DIG_STATUS_EMPTY r.2.1 s
    match r.2.2 with
    | none => s
    | some i =>
      let s := setF gctBase R.GCT_DIG_STATUS_ORDER_ERR 1 s
      let s := capture gctBase R.GCT_DIG_ERRIDX_VALID (setF gctBase R.GCT_DIG_ERRIDX_INDEX i) s
      raise srcGct 0x74 1 0 0 s

/-! ### Corrections (R344, R347) -/

/-- The counter in 1/16 ns, the unit of timestamps (R345). -/
def stamp (s : State) : Nat := s.count.toNat * 16 + (s.sync.frac / 1000000000).toNat
/-- The counter is stepped to a value (R344). -/
def countStep (v : DWord) (s : State) : State :=
  raise srcGct 0x70 1 0 0 (setF gctBase R.GCT_STATUS_STEPPED 1 (setF gctBase R.GCT_FREQ_FREQ 0
    { s with count := v, sync := { s.sync with slew := 0, frac := 0 } }))

/-- LOCKED after four corrections within 1 ns in a row; a larger offset loses it; HOLDOVER ends only when LOCKED (R347, R348). -/
def lockWith (off : Int) (s : State) : State :=
  let g := if off.natAbs ≤ 16 then s.sync.good + 1 else 0
  let s := { s with sync := { s.sync with good := g } }
  if g ≥ 4 then setGct 2 s else if gctState s = 3 then s else setGct 1 s

/-- A filtered offset and its delay in 1/16 ns are applied: by a step above 1 us while no job holds the package, else by slewing (R344).
The slew takes SLEW_PPM here (R352). -/
def correct (off delay : Int) (s : State) : State :=
  let s := setF gctBase R.GCT_OFFSET_OFFSET (wrap 32 off) (setF gctBase R.GCT_DELAY_DELAY (wrap 32 delay) s)
  let s := lockWith off s
  if off.natAbs > 16000 ∧ !inJob s then countStep (BitVec.ofInt 64 (((stamp s : Int) + off) / 16)) s
  else
    let ppm := effF gctBase R.GCT_CFG_SLEW_PPM R.GCT_CFG_LEVEL s * 1000
    let f : Int := if off > 0 then ppm else if off < 0 then -(ppm : Int) else 0
    setF gctBase R.GCT_FREQ_FREQ (wrap 32 f) { s with sync := { s.sync with slew := off * 1000000000 } }

/-- What one nanosecond gains over a tick, in 10^-9 of 1/16 ns: FREQ until the slew is spent, and FREQ throughout in HOLDOVER, which keeps the last correction
(R344, R348). -/
def tickGain (s : State) : Int :=
  let f := 16 * signed 32 (getF gctBase R.GCT_FREQ_FREQ s)
  if gctState s = 3 then f else if s.sync.slew > 0 then min s.sync.slew (max 0 f) else max s.sync.slew (min 0 f)

/-- One nanosecond passes: the counter's exact value gains a tick and what the slew adds to it; the count is the whole ticks of it, and `frac` the rest (R344).
FREQ reads 0 once the slew is spent, but not in HOLDOVER. -/
def countTick (s : State) : State :=
  let d := tickGain s
  if d = 0 then { s with count := s.count + 1 }
  else
    let f := s.sync.frac + d
    let left : Int := if s.sync.slew > 0 then max 0 (s.sync.slew - d) else min 0 (s.sync.slew - d)
    let s := if left = 0 ∧ gctState s ≠ 3 then setF gctBase R.GCT_FREQ_FREQ 0 s else s
    { s with count := s.count + BitVec.ofInt 64 (1 + f / 16000000000), sync := { s.sync with frac := f % 16000000000, slew := left } }

/-! ### Exchanges (R345, R346, R348) -/

/-- A sync slot. -/
def syncSlot (typ stratum seq turn t : Nat) : Slot :=
  BitVec.ofNat 128 (typ * 2 ^ 124 + stratum % 16 * 2 ^ 120 + seq % 2 ^ 24 * 2 ^ 96 + turn % 2 ^ 32 * 2 ^ 64 + t % 2 ^ 64)
/-- A sync message: CTRL with JOB_TAG 0 and LINE all ones (R345). -/
def syncMsg (fd dst : Nat) (x : Slot) (s : State) : Msg :=
  ⟨{ header fd 7 3 0 false dst 0 (2 ^ 41 - 1) 0 s with tag := 0 }, [x]⟩
/-- Send a sync slot: on a Caravan port to its neighbour, or to another Caravan by the Route. -/
def syncSend (p dst : Nat) (x : Slot) (s : State) : State :=
  if p < 18 then portSend p (syncMsg (portDie p) dst x s) s else routeSend (portDie p) (syncMsg (portDie p) dst x s) s

/-- This package is the reference of its Caravan, or of the Route: stratum 0, no parent. -/
def beReference (s : State) : State := setF gctBase R.GCT_STATUS_PARENT_PORT 0x1F (setF gctBase R.GCT_STATUS_STRATUM 0 s)

/-- Send a request on a port and remember its SEQ and t1. -/
def askOn (p : Nat) (s : State) : State :=
  syncSend p ((peerOf p s).getD (planOf p s |>.1, 0)).1 (syncSlot 1 (stratum s) s.sync.seq 0 (stamp s)) s

/-- ROLE, REF_CAND and PPS_EN take effect at an exchange; ROLE 3 acts as 0 (R352). -/
def exchangeTake (s : State) : State :=
  { s with sync := { s.sync with role := getF gctBase R.GCT_CFG_ROLE s % 3, cand := getF gctBase R.GCT_CFG_REF_CAND s = 1, pps := getF gctBase R.GCT_CFG_PPS_EN s = 1 } }

/-- A follower's parent is the ACTIVE neighbour of the lowest stratum: it moves to a better one, and loses one that is no parent any more (R345, R348). -/
def parentMove (s : State) : State :=
  match choosePort s with
  | some p => if p = parentPort s then s else if parentPort s ≠ 0x1F && !portUsable (parentPort s) s then parentLost s else setParent (some p) s
  | none => if parentPort s = 0x1F then s else parentLost s

/-- SYNC_EXCHANGE_TIMER: every 1 ms a follower asks its parent; one without a parent asks every ACTIVE Caravan neighbour (R345). -/
def syncTimer (s : State) : State :=
  let s := exchangeTake s
  if gctRole s = 1 then beReference s
  else if gctRole s = 2 then setGct 2 (beReference s)
  else
    let s := parentMove s
    let q := s.sync.seq
    let s := if gctState s = 0 then setGct 1 s else s
    let ports := if parentPort s = 0x1F then (List.range 18).filter (fun p => portUsable p s) else [parentPort s]
    let s := ports.foldl (fun s p => askOn p s) s
    { s with sync := { s.sync with sent := some (parentPort s, q, stamp s), seq := (q + 1) % 2 ^ 24 } }

/-- SYNC_REQUEST: answered with this package's stratum, t2 and the turn-around, which takes no time in this model (R345). -/
def syncRequest (p src : Nat) (x : Slot) (s : State) : State :=
  if bitsAt x.toNat 124 4 ≠ 1 then s
  else
    let s := if p < 18 then { s with sync := { s.sync with strata := sSet 7 p (min 7 (bitsAt x.toNat 120 4)) s.sync.strata } } else s
    syncSend p src (syncSlot 2 (stratum s) (bitsAt x.toNat 96 24) 0 (stamp s)) s

/-- Offset and delay of an exchange in 1/16 ns (R345). -/
def exchange (t1 : Nat) (x : Slot) (t4 : Nat) : Int × Int :=
  let t2 : Int := bitsAt x.toNat 0 64
  let t3 : Int := t2 + bitsAt x.toNat 64 32
  (((t2 - t1) - (t4 - t3)) / 2, ((t2 - t1) + (t4 - t3)) / 2)
/-- Keep the exchange with the least delay. -/
def least (b : Option (Int × Int)) (e : Int × Int) : Option (Int × Int) :=
  match b with
  | some x => if e.2 < x.2 then some e else some x
  | none => some e

/-- SYNC_RESPONSE: the exchange is measured and kept if its delay is the least (R345, R346). -/
def syncResponse (p : Nat) (x : Slot) (s : State) : State :=
  if bitsAt x.toNat 124 4 ≠ 2 then s
  else
    let q := bitsAt x.toNat 96 24
    if p < 18 then
      match s.sync.sent with
      | none => s
      | some (par, q', t1) =>
        if q ≠ q' then s
        else
          let s := { s with sync := { s.sync with strata := sSet 7 p (min 7 (bitsAt x.toNat 120 4)) s.sync.strata } }
          if par ≠ p then s
          else
            let e := exchange t1 x (stamp s)
            let v := bitsAt x.toNat 120 4
            let s := if v < 3 then setF gctBase R.GCT_STATUS_STRATUM (v + 1) s else s
            { s with sync := { s.sync with sent := none, n := s.sync.n + 1, best := least s.sync.best e } }
    else match s.sync.rsent with
      | none => s
      | some (q', t1) =>
        if q ≠ q' then s
        else { s with sync := { s.sync with rsent := none, rn := s.sync.rn + 1, rbest := least s.sync.rbest (exchange t1 x (stamp s)) } }

/-- SYNC_CORRECTION: after 16 exchanges a follower corrects by the least-delay one; a Caravan reference without PPS after 64 Route exchanges, and with PPS
takes only the second number from them (R345, R346). -/
def syncCorrection (s : State) : State :=
  if gctRole s = 0 then
    match s.sync.best with
    | some (o, d) => if s.sync.n < 16 then s else correct o d { s with sync := { s.sync with n := 0, best := none } }
    | none => s
  else match s.sync.rbest with
    | some (o, d) =>
      if s.sync.rn < 64 then s
      else
        let s := { s with sync := { s.sync with rn := 0, rbest := none } }
        if s.sync.pps ∧ getF pkgBase R.PKG_INPUTS_PPS_FITTED s = 1 then
          let secs := (o + 8000000000) / 16000000000
          if secs ≠ 0 ∧ !inJob s then countStep (BitVec.ofInt 64 ((s.count.toNat : Int) + secs * 1000000000)) s else s
        else setF gctBase R.GCT_STATUS_ROUTE_LOCKED (b2n (o.natAbs ≤ 400)) (correct o d s)
    | none => s

/-- ROUTE_SYNC_TIMER: every 10 ms a Caravan reference asks the Route reference (R346). -/
def routeTimer (ref : Nat) (s : State) : State :=
  let s := exchangeTake s
  if gctRole s ≠ 1 then s
  else
    let q := s.sync.rseq
    let s := if gctState s = 0 then setGct 1 s else s
    let s := syncSend 18 ref (syncSlot 1 (stratum s) q 0 (stamp s)) s
    { s with sync := { s.sync with rsent := some (q, stamp s), rseq := (q + 1) % 2 ^ 24 } }

/-- A missing or rejected PPS edge is counted; every tenth is recorded (R346). -/
def ppsMiss (s : State) : State :=
  let s := bumpF gctBase R.GCT_PPS_ERR_MISSING 1 s
  if sGet 0 s.totals (totalKey gctBase R.GCT_PPS_ERR_MISSING) % 10 = 0 then raise srcGct 0x73 1 0 0 s else s
/-- Whether the PPS input is in use. -/
def ppsOn (s : State) : Bool :=
  gctRole s ≠ 0 && s.sync.pps && getF pkgBase R.PKG_INPUTS_PPS_FITTED s = 1

/-- PPS_EDGE at count `t`: out of range or too soon it is rejected; else its phase corrects the counter (R346, R481). -/
def ppsEdge (t : DWord) (s : State) : State :=
  if !ppsOn s then s
  else
    let ph := t.toNat % 1000000000
    let err : Int := if ph < 500000000 then ph else (ph : Int) - 1000000000
    let soon := match s.sync.lastPps with
      | some l => decide (t.toNat < l.toNat + 999000000)
      | none => false
    let s := setF gctBase R.GCT_PPS_ERR_ERR_NS (wrap 16 (clampS 16 err)) s
    if err.natAbs > 1000 || soon then ppsMiss (setF gctBase R.GCT_STATUS_PPS_OK 0 s)
    else
      let s := setPair gctBase R.GCT_PPS_LAST_LO_COUNT R.GCT_PPS_LAST_HI_COUNT t.toNat { s with sync := { s.sync with lastPps := some t } }
      let s := setF gctBase R.GCT_STATUS_PPS_OK 1 s
      setF gctBase R.GCT_STATUS_ROUTE_LOCKED (b2n (err.natAbs ≤ 25)) (correct (-16 * err) 0 s)

/-- REFERENCE_SILENT: the candidate with the lowest number that is LOCKED becomes the Caravan reference, without a step (R348). -/
def referenceSilent (lowest : Bool) (s : State) : State :=
  if lowest && s.sync.cand && gctState s = 2 && gctRole s = 0 then
    raise srcGct 0x71 0 0 0 (beReference (setF gctBase R.GCT_CFG_ROLE 1 { s with sync := { s.sync with role := 1 } }))
  else s

/-- GCT_SET: a write of _HI steps the counter; ignored and recorded in ADMITTED, RUNNING and FROZEN. -/
def gctSet (path : Path) (v : DWord) (s : State) : State :=
  if inJob s then rejectWrite path (gctBase + 0x1C) (v.toNat / 2 ^ 32) s else countStep v s

/-- GCT_DIG_GO (R343). -/
def execGctDigGo (slot : Fin 2) (s : State) : Host.Outcome State Fault Refusal := .next (digGo slot s)
/-- DIG_COMBINER_DONE (R343). -/
def execDigCombinerDone (s : State) : Host.Outcome State Fault Refusal := .next (digDone s)
/-- SYNC_EXCHANGE_TIMER (R345). -/
def execSyncExchangeTimer (s : State) : Host.Outcome State Fault Refusal := .next (syncTimer s)
/-- SYNC_REQUEST (R345). -/
def execSyncRequest (p : Fin 22) (src : BitVec 16) (x : Slot) (s : State) : Host.Outcome State Fault Refusal :=
  .next (syncRequest p src.toNat x s)
/-- SYNC_RESPONSE (R345). -/
def execSyncResponse (p : Fin 22) (x : Slot) (s : State) : Host.Outcome State Fault Refusal := .next (syncResponse p x s)
/-- SYNC_CORRECTION (R345, R346). -/
def execSyncCorrection (s : State) : Host.Outcome State Fault Refusal := .next (syncCorrection s)
/-- ROUTE_SYNC_TIMER (R346). -/
def execRouteSyncTimer (ref : BitVec 16) (s : State) : Host.Outcome State Fault Refusal := .next (routeTimer ref.toNat s)
/-- PPS_EDGE (R346, R481). -/
def execPpsEdge (t : DWord) (s : State) : Host.Outcome State Fault Refusal := .next (ppsEdge t s)
/-- PPS_MISSING (R481). -/
def execPpsMissing (s : State) : Host.Outcome State Fault Refusal := .next (if ppsOn s then ppsMiss s else s)
/-- PARENT_SILENT (R348). -/
def execParentSilent (s : State) : Host.Outcome State Fault Refusal :=
  .next (if gctRole s = 0 ∧ parentPort s ≠ 0x1F then parentLost s else s)
/-- REFERENCE_SILENT (R348). -/
def execReferenceSilent (lowest : Bool) (s : State) : Host.Outcome State Fault Refusal := .next (referenceSilent lowest s)
/-- GCT_SET (R344). -/
def execGctSet (path : Path) (v : DWord) (s : State) : Host.Outcome State Fault Refusal := .next (gctSet path v s)

end Sys2Proof.Machine
end

