-- ==== Sys2Proof/Machine/Security.lean ====
section
/-! DEFINITION. Start-up, security and service life (R444 to R474): the commands that change the package's state, boot, insertion and
removal, admission and teardown, erase, attestation, service, rating records, the Cairn record's registers and health scoring. -/

namespace Sys2Proof.Machine

/-- LOCAL source number of the security block. -/
def srcSec : Nat := 0xE000

/-! ### Power-up, power-down and warm reset (R433, R448 to R451) -/

/-- NOP completes at once (R433). -/
def nopCmd (path : Path) (s : State) : State := plainCommand path 0 (cmdFinish 0) s

/-- Whether an offset names a register of a die that is unpowered in STANDBY: base dies, fabric dies, the collective engine, and the islands. -/
def offInStandby (o : Nat) : Bool :=
  islandReg o || (0x200000 ≤ o && o < 0x2C0000) || (0x400000 ≤ o && o < 0x4C0000) || decide (0x4D0000 ≤ o ∧ o < 0x610000)

/-- RATING_PENDING and SEC_RATING show the active and the pending record. -/
def showRating (s : State) : State :=
  setF secBase R.SEC_RATING_SEQ s.sec.rating.seq (setF secBase R.SEC_RATING_PENDING_SEQ ((s.sec.pendRating.map (·.seq)).getD 0)
    (setF secBase R.SEC_STATUS_RATING_PENDING (b2n s.sec.pendRating.isSome) s))
/-- The fields of a Cairn RATING entry (R464); the hash of a record is not computed here: its SEQ stands for it. -/
def ratingArgs (old r : Rating) (pend : Bool) : List Nat :=
  [old.seq, r.seq, r.grade] ++ r.tiles ++ [b2n r.refurb, r.seq, b2n pend]
/-- A pending rating record takes effect (R472). -/
def rateEffect (s : State) : State :=
  match s.sec.pendRating with
  | none => s
  | some r =>
    let old := s.sec.rating
    raise srcSec 0xB0 1 0 0 (cairnAdd 5 (ratingArgs old r false) (showRating { s with sec := { s.sec with rating := r, pendRating := none } }))

/-- The TAP returns to Test-Logic-Reset (R484). -/
def tapReset (s : State) : State := setF pkgBase R.PKG_INPUTS_TAP_ACTIVE 0 { s with pins := { s.pins with tap := 0 } }

/-- The fabric's transport state is clear (R296): requests, links of Caravan and Route ports, peers. -/
def fabricClear (s : State) : State :=
  { s with fab := [], links := s.links.filter (fun e => decide (e.1 ≥ 22)), peers := [] }

/-- Every enabled port trains; the Caravan ports only with accepted straps (R296, R449, R479). -/
def portsTrain (s : State) : State :=
  (List.range 22).foldl (fun s p =>
    setPort p (if getF (portBase p) R.PORT_CTRL_ENABLE s = 1 ∧ canTrain p s then 2 else 0) s) s

/-- POWER_UP: the rails start, the TAP is reset, a pending rating record takes effect, the dies start from their Reset values and the voltage
table is loaded (R449, R472). -/
def powerUp (path : Path) (s : State) : State :=
  plainCommand path 1 (fun s =>
    let s := rateEffect (tapReset s)
    let s := ownSlot (resetRegs offInStandby (fabricClear s))
    let s := { s with chans := [], depot := [], hal := { s.hal with dir := [], snoops := [] }, col := .init, rails := true }
    loadTable (opSlowest (sensorsFresh (fun _ => true) (setF pkgBase R.PKG_STATE_RAILS_ON 1 s)))) s

/-- The rollback counter rises to the SVN of an image that advances it (R448). -/
def rollbackAdvance (s : State) : State :=
  let svn := getF secBase R.SEC_STATUS_SVN s
  if s.sec.advance ∧ svn > getF secBase R.SEC_STATUS_ROLLBACK s then
    cairnAdd 8 [svn, getF secBase R.SEC_STATUS_BANK s, svn] (raise srcSec 0xA3 0 0 0 (setF secBase R.SEC_STATUS_ROLLBACK svn s))
  else s

/-- Every die loses its power but the always-on domain: islands, stacks and fabric. -/
def diesOff (s : State) : State :=
  let s := fabricClear (stacksOff (islandsOff s))
  (List.range 22).foldl (fun s p => setPort p 1 s) s

/-- POWER_UP_DONE: READY with the ports in training; or a failed self-test, given by its unit's SRC and its number, returns to STANDBY (R449, R450). -/
def powerUpDone (fail : Option (BitVec 16 × BitVec 16)) (s : State) : State :=
  if cmdBusy s ∧ cmdOp s = 1 then
    match fail with
    | none => cmdFinish 0 (rollbackAdvance (portsTrain (setPkg .ready s)))
    | some (u, t) => cmdFinish 5 (raise srcSec 0xA4 3 (u.toNat + t.toNat * 2 ^ 16) 0 (diesOff s))
  else s

/-- What a job leaves in the checkpoint controller, the cores and the collective engine is cleared. -/
def jobClear (s : State) : State :=
  let s := copyClear (voteClear (drainAbandon (discardAll (coresIdle s))))
  let s := { s with freezeF := none, launch := none, ownAbort := none, stepErr := false,
                    ckp := { s.ckp with halt := none, freeze := none, restore := none, reads := [], replays := 0, auditN := none } }
  setF ckpBase R.CKP_CFG_ENABLE 0 (setF ckpBase R.CKP_STATUS_STATE 0 s)

/-- POWER_DOWN: STANDBY (R433). -/
def powerDown (path : Path) (s : State) : State :=
  plainCommand path 2 (fun s =>
    cmdFinish 0 (setPkg .standby (diesOff (jobClear { s with cause := 0, sec := { s.sec with ops := none } })))) s

/-- The warm reset proper (R95, R129, R165, R254, R324, R351, R443, R451): work is discarded, the Depots are written back, registers take their Reset
values, and what the rules name is kept. -/
def warmReset (s : State) : State :=
  let s := discardAll (colAbortAll 5 false s)
  let s := flush (fun _ => true) true s
  let s := jobClear s
  let s := ownSlot (resetRegs (fun _ => true) (fabricClear s))
  let c := s.ckp
  let s := { s with
    cores := [], ran := [], vregs := [], masks := [], starts := [], ramps := [], col := .init, sync := .init, dig := none, imgCore := [], imgDsp := [],
    imgSlv := [], imgCol := none, root := .init, sec := { s.sec with ops := none, unlocked := none, win := none },
    chans := s.chans.map (fun e => (e.1, { e.2 with ceCount := 0, retrains := 0, admitReq := false })),
    hal := { s.hal with snoops := [], waiting := [], reqs := [] },
    log := { s.log with cur0 := .init, cur1 := .init, cur2 := .init },
    ckp := { Ckp.init with saved := c.saved, lastMirror := c.lastMirror, lastDurable := c.lastDurable },
    pwr := { s.pwr with demand := [], quiet := [], capOver := 0, breach := false, overs := [], boost := false, maxC := [], trips := [] } }
  opSlowest (setGct 1 (halRetrain (portsTrain s)))

/-- A warm reset requested by RESET_WARM or by the sideband: the reset runs, and RESET_WARM is then in progress. -/
def warmStart (s : State) : State := cmdAccept 0x13 (warmReset s)

/-- RESET_WARM (R451). -/
def resetWarm (path : Path) (s : State) : State := plainCommand path 0x13 warmStart s

/-- The sideband's warm-reset request: a command in progress is abandoned, and its record is written after the reset (R432, R451). -/
def warmRequest (s : State) : State :=
  if s.pkg = .off ∨ s.pkg = .standby then s
  else if cmdBusy s then
    let op := cmdOp s
    raise 0 0x04 1 op 0 (warmStart { s with launch := none })
  else resetWarm .sideband s

/-- WARM_RESET_DONE: the firmware program has run, and the Halter ports have trained; READY (R296, R451). -/
def warmDone (s : State) : State :=
  if cmdBusy s ∧ cmdOp s = 0x13 then cmdFinish 0 (loadTable (halTrain (setPkg .ready { s with cause := 0 }))) else s

/-! ### Admission and teardown (R456 to R458) -/

/-- The custody data key is replaced (R234, R457, R460): HBM contents become unpredictable, poison stays; lines the Depots hold are written back under the
old key and dropped. -/
def newKey (s : State) : State :=
  let s := flush (fun _ => true) true s
  { s with hbm := [], hbmBg := s.fresh + 1, fresh := s.fresh + 1 }

/-- Whether `n` bytes of an argument lie in the companion window or an HBM window. -/
def argBlock (off n : Nat) (s : State) : Bool := inCompanion off n s || (s.rails && inHbm off n s && !poisonOff off n s)

/-- The checks of ADMIT's arguments and block (R433, R456). -/
def admitOk (s : State) : Bool :=
  let a1 := cmdArg 1 s
  let a2 := cmdArg 2 s
  let tag := bitsAt a1 0 16
  let b := readExt a2 64 s
  tag ≠ 0 && bitsAt a1 16 4 ≤ 12 && argBlock a2 64 s && decide (cmdArg 3 s ≤ s.count.toNat + 1000000000) &&
    bitsAt b 0 32 = 1 && bitsAt b 33 31 = 0 && bitsAt b 64 64 = cmdArg 0 s && bitsAt b 128 16 = tag && bitsAt b 144 8 = bitsAt a1 16 4 &&
    bitsAt b 152 40 = 0 && bitsAt b 192 64 = (custody s).toNat && bitsAt b 256 256 = 0

/-- Arm a fabric die's switch with the new tag (R457). -/
def admitArm (tag at_ : Nat) (s : State) (fd : Nat) : State :=
  let b := fabBase fd
  let s := setF b R.FAB_EPOCH_NEW_TAG tag (setF b R.FAB_EPOCH_TAG_APPLY 1 (epochDisarm fd s))
  epochArm fd (setPair b R.FAB_EPOCH_AT_LO_COUNT R.FAB_EPOCH_AT_HI_COUNT at_ s)

/-- ADMIT: the key, S, the job ID, and the armed switch; it completes at the switch (R457). -/
def admitCmd (path : Path) (s : State) : State :=
  command path 8 admitOk (fun _ => true) id (fun s =>
    let a1 := cmdArg 1 s
    let s := if bitAt (readExt (cmdArg 2 s) 64 s) 32 then newKey s else s
    let s := setF mempBase R.MEM_SPREAD_SIZE (bitsAt a1 16 4) s
    let s := setPair ckpBase R.CKP_JOB_ID_LO_VALUE R.CKP_JOB_ID_HI_VALUE (cmdArg 0 s) s
    [0, 1].foldl (admitArm (bitsAt a1 0 16) (cmdArg 3 s)) s) s

/-- TEARDOWN: cores stop, work is discarded, collectives abort, the Depots are written back, ENABLE clears and figures are handed over (R458). -/
def teardownCmd (path : Path) (s : State) : State :=
  plainCommand path 0xF (fun s => handover (flush (fun _ => true) false (jobClear (discardAll (colAbortAll 5 false s))))) s

/-- A port keeps no message of job tag `t`, sent or waiting (R284). -/
def linkPurge (t : Nat) (l : Link) : Link :=
  let ofJob := fun (b : LinkMsg) => match b with
    | .caravan m => decide (m.hdr.tag.toNat = t)
    | .halter _ => false
  { l with replay := l.replay.filter (fun r => !ofJob r.body), waiting := l.waiting.filter (fun b => !ofJob b) }

/-- What waits at the homes of lines is let go where it was the job's: requests of other packages and writes of engines (R284, R458). -/
def homePurge (s : State) : State :=
  { s with hal := { s.hal with waiting := s.hal.waiting.filter (fun r => match r with
      | .companion _ _ => true
      | .remote _ _ _ => false
      | .write w => decide (w.owner = .none)) } }

/-- TEARDOWN_DONE: the tag becomes 0 and PASSED clears, nothing of the job is outstanding or in a replay buffer, and the package is READY (R284, R458). -/
def teardownDone (s : State) : State :=
  if cmdBusy s ∧ cmdOp s = 0xF then
    let t := getF (fabBase 0) R.FAB_JOB_TAG s
    let s := homePurge { s with links := s.links.map (fun e => (e.1, linkPurge t e.2)) }
    let s := [0, 1].foldl (fun s fd => setF (fabBase fd) R.FAB_JOB_TAG 0 (setF (fabBase fd) R.FAB_JOB_PASSED 0
      (setFab fd { getFab fd s with txns := [] } s))) s
    cmdFinish 0 (raise srcSec 0xA9 0 0 0 (setPkg .ready { s with peers := [], cause := 0 }))
  else s

/-! ### Health scoring (R466, R467) -/

/-- Parts of a health kind. -/
def healthParts (k : Nat) : Nat :=
  if k = 0 then 304 else if k = 1 then 384 else if k = 2 then 24 else if k = 3 then 4 else if k = 4 then 36 else if k = 5 then 8 else if k = 6 then 5 else 2
/-- Event weights of a kind in 1/8000. -/
def weights (k : Nat) : List Nat :=
  if k = 0 then [8000, 256000] else if k = 1 then [4000, 32000, 256000] else if k = 2 then [125, 500, 64000] else if k = 3 then [8000, 256000]
  else if k = 6 then [8] else if k = 7 then [16000] else [8000]
/-- The logical tile whose home is physical tile `j` of die `d` by the active rating record (R88, R471); none for a spare or failed one. -/
def tileAt (d j : Nat) (s : State) : Option Nat := ((List.range 72).map (72 * d + ·)).find? (fun p => s.sec.rating.homes.getD p 76 = j)

/-- The companion totals of a part, event by event; a physical tile has those of the logical tile whose home it is. -/
def partTotals (k i : Nat) (s : State) : List Nat :=
  let t := fun (x : Nat) => sGet 0 s.totals x
  if k = 0 then
    match tileAt (i / 76) (i % 76) s with
    | some p =>
      [t (totalKey (tileBase p) R.MX_CE_COUNT_COUNT) + t (totalKey (tileBase p) R.VX_CE_COUNT_COUNT),
       t (totalKey (tileBase p) R.MX_ERR_UE_COUNT) + t (totalKey (tileBase p) R.VX_ERR_UE_COUNT)]
    | none => [0, 0]
  else if k = 1 then (List.range 3).map (fun e => t (chanTotal (i / 32) (i % 32) e))
  else if k = 2 then
    if i < 22 then
      [t (totalKey (portBase i) R.PORT_REPLAY_REPLAYS), t (totalKey (portBase i) R.PORT_REPLAY_CRC_ERRORS), t (totalKey (portBase i) R.PORT_STATUS_DOWN_COUNT)]
    else [if i = 22 then t (totalKey halBase R.HAL_REPLAY_COUNT) else 0, 0, 0]
  else if k = 3 then [t (totalKey (depBase i) R.DEP_CE_COUNT_COUNT), t (totalKey (depBase i) R.DEP_STATUS_UE_COUNT)]
  else if k = 4 then
    [t (totalKey (sxBase i) R.SX_CE_COUNT_COUNT) + t (totalKey (asyBase i) R.ASY_CE_COUNT_COUNT) + t (totalKey (porBase i) R.POR_CE_COUNT_COUNT)]
  else if k = 5 then [t (totalKey (slvBase i) R.SLV_CE_COUNT_COUNT)]
  else if k = 6 then [t (droopTotal i)]
  else [t (dirtyTotal i)]

/-- The key of a part. -/
def partKey (k i : Nat) : Nat := k * 1024 + i

/-- The score of a part over its days, oldest first (R466). -/
def partScore (ws : List Nat) (days : List (List Nat)) : Nat :=
  let n := days.length
  let nr := min 7 n
  let no := n - nr
  let sum := fun (l : List (List Nat)) (e : Nat) => l.foldl (fun m d => m + d.getD e 0) 0
  let top := (List.range ws.length).foldl (fun m e =>
    let today := (days.getLastD []).getD e 0
    let r := sum (days.drop no) e
    let o := sum (days.take no) e
    m + ws.getD e 0 * (today * nr * max 1 no + (if no = 0 then 0 else 8 * (r * no - o * nr)))) 0
  min 255 (top / (8000 * (max 1 nr) * max 1 no))

/-- SEC_CFG's thresholds (R467). -/
def watchThr (s : State) : Nat := effF secBase R.SEC_CFG_WATCH_THR R.SEC_CFG_LEVEL s
def predictThr (s : State) : Nat := max (watchThr s + 1) (effF secBase R.SEC_CFG_PREDICT_THR R.SEC_CFG_LEVEL s)

/-- The health state after a day's score: it rises at once, and drops to the lower state after seven days below its threshold (R467). -/
def healthNext (w p : Nat) (x : Part) (score : Nat) : Part :=
  let up := if score ≥ p then 2 else if score ≥ w then 1 else 0
  let below := if x.st = 2 ∧ score < p then x.below + 1 else if x.st = 1 ∧ score < w then x.below + 1 else 0
  let st := if up > x.st then up else if below ≥ 7 then x.st - 1 else x.st
  { x with score := score, st := st, below := if st = x.st then below else 0, inState := if st = x.st then min 255 (x.inState + 1) else 0 }

/-- Score one part: its day's events are what its totals gained since the last scoring. -/
def scorePart (s : State) (k i : Nat) : State :=
  let key := partKey k i
  let now := partTotals k i s
  let day := (List.range now.length).map (fun e => now.getD e 0 - sGet 0 s.sec.scored (key * 4 + e))
  let x := sGet Part.init s.sec.parts key
  let days := x.days ++ [day]
  let days := days.drop (days.length - 30)
  let y := healthNext (watchThr s) (predictThr s) { x with days := days } (partScore (weights k) days)
  let scored := (List.range now.length).foldl (fun m e => sSet 0 (key * 4 + e) (now.getD e 0) m) s.sec.scored
  let s := { s with sec := { s.sec with parts := sIns key y s.sec.parts, scored := scored } }
  if y.st = x.st then s
  else cairnAdd 0xB [k, i, y.st, y.score] (raise srcSec (if max x.st y.st = 2 ∧ y.st = 2 then 0xAE else 0xAD) 1 (k + i * 2 ^ 8) 0 s)

/-- Score every part and show the summary (R466). -/
def scoreAll (s : State) : State :=
  let s := (List.range 8).foldl (fun s k => (List.range (healthParts k)).foldl (fun s i => scorePart s k i) s) s
  let ps := s.sec.parts.map (·.2)
  setF secBase R.SEC_HEALTH_SUM_MAX_SCORE (ps.foldl (fun m x => max m x.score) 0)
    (setF secBase R.SEC_HEALTH_SUM_WATCH_PARTS (min 255 (ps.filter (fun x => x.st = 1)).length)
      (setF secBase R.SEC_HEALTH_SUM_PREDICT_PARTS (min 255 (ps.filter (fun x => x.st = 2)).length) s))

/-- The figures of a PERIOD or UNCLEAN entry from accumulators: energy in kJ, seconds in the bands of the package and of each die, binding us of the
reasons, droop trips (R464). -/
def periodArgs (m : Store Nat) : List Nat :=
  [sGet 0 m 0 / 1000000000] ++ (List.range 9).map (fun b => sGet 0 m (900 + b) / 1000000000) ++
  (List.range 7).flatMap (fun d => (List.range 9).map (fun b => sGet 0 m (100 * (d + 1) + b) / 1000000000)) ++
  (List.range 6).map (fun r => sGet 0 m (1001 + r) / 1000) ++ (List.range 5).map (fun d => sGet 0 m (2000 + d))

/-- A PERIOD entry closes the open period (R464); a HEALTH entry goes with it. -/
def periodEntry (s : State) : State :=
  let m := s.sec.saved
  let s := cairnAdd 1 (periodArgs m) { s with sec := { s.sec with saved := [], life := addAll m s.sec.life } }
  cairnAdd 2 (s.sec.parts.flatMap (fun e => [e.1 / 1024, e.1 % 1024, e.2.score])) s

/-- DAILY_PERIOD (R466). -/
def dailyPeriod (s : State) : State :=
  if s.pkg = .off then s
  else periodEntry (if effF secBase R.SEC_CFG_HEALTH_EN R.SEC_CFG_LEVEL s = 1 then scoreAll s else s)

/-! ### Reports: attestation (R455) and the erase statement (R461) -/

/-- The hash of the running firmware image; its bytes are not the model's: a free value. -/
def fwHash (s : State) : Nat := Config.freeResult 86 (getF secBase R.SEC_STATUS_SVN s * 2 + getF secBase R.SEC_STATUS_BANK s) % 2 ^ 512
/-- The hash of the active rating record, whose byte layout is not stated: a free value. -/
def ratingHash (s : State) : Nat := Config.freeResult 87 s.sec.rating.seq % 2 ^ 512

/-- The first 512 bytes of a report (R455): `kind`, the nonce, and bytes 276 to 287 of an erase statement. -/
def reportBytes (kind nonce extra : Nat) (s : State) : List Byte :=
  let job := if inJob s then getPair ckpBase R.CKP_JOB_ID_LO_VALUE R.CKP_JOB_ID_HI_VALUE s else 0
  let sig := if inJob s then getPair gctBase R.GCT_CFGSIG_LO_SIG R.GCT_CFGSIG_HI_SIG s else 0
  natBytes (kind + 2 ^ 16) 4 ++ natBytes nonce 8 ++ natBytes Config.serial.toNat 8 ++ natBytes (identity s) 4 ++ natBytes (tilesWord s) 4 ++
  natBytes (stCode s.pkg) 1 ++ natBytes (getF secBase R.SEC_STATUS_SVN s) 1 ++ natBytes (getF secBase R.SEC_STATUS_ROLLBACK s) 1 ++
  natBytes (b2n (quarantined s) + 2 * b2n s.sec.pendRating.isSome + 4 * b2n s.sec.unclean) 1 ++
  natBytes (fwHash s) 64 ++ natBytes (ratingHash s) 64 ++ natBytes s.sec.rating.seq 4 ++ natBytes (cairnCount s) 8 ++ natBytes (cairnHead s).toNat 64 ++
  natBytes (custody s).toNat 8 ++ natBytes (getF secBase R.SEC_ERASE_COUNT_COUNT s) 4 ++ natBytes job 8 ++ natBytes sig 8 ++ natBytes s.count.toNat 8 ++
  natBytes (csrGet 0 (secBase + R.SEC_HEALTH_SUM_MAX_SCORE.off) s).toNat 4 ++ natBytes extra 12 ++ natBytes 0 224

/-- A report with its signature. -/
def signedReport (b : List Byte) : List Byte := b ++ natBytes (Config.signature b).toNat 512

/-- ATTEST's report address: in the companion window, or with the stacks powered in an HBM window, 128-byte aligned (R455). -/
def attestOk (s : State) : Bool :=
  let a := cmdArg 1 s
  a % 128 = 0 && (inCompanion a 1024 s || (s.rails && s.pkg ≠ .standby && inHbm a 1024 s))

/-- ATTEST: the report is a snapshot at acceptance (R455). -/
def attestCmd (path : Path) (s : State) : State :=
  command path 0x11 attestOk (fun _ => true) id (fun s =>
    { s with sec := { s.sec with report := reportBytes 1 (cmdArg 0 s) 0 s, reportAt := cmdArg 1 s, unclean := false } }) s

/-- ATTEST_SIGNED: the report is written and counted. -/
def attestSigned (s : State) : State :=
  if cmdBusy s ∧ cmdOp s = 0x11 then
    let s := writeExt s.sec.reportAt (signedReport s.sec.report) s
    cmdFinish 0 (setF secBase R.SEC_STATUS_ATTEST_COUNT (satAdd 8 (getF secBase R.SEC_STATUS_ATTEST_COUNT s) 1) s)
  else s

/-! ### Erase (R459 to R462) -/

/-- The request of an ERASE: nonce, new custody, FLAGS (R459). -/
def eraseReq (s : State) : DWord × DWord × Nat :=
  let b := readExt (cmdArg 0 s) 64 s
  (BitVec.ofNat 64 (bitsAt b 0 64), BitVec.ofNat 64 (bitsAt b 64 64), bitsAt b 128 32)
/-- The checks of ERASE. -/
def eraseOk (s : State) : Bool :=
  let a := cmdArg 0 s
  let q := eraseReq s
  a % 128 = 0 && inCompanion a 2048 s && q.2.1 ≠ 0 && q.2.1 ≠ custody s && bitsAt (readExt a 64 s) 160 352 = 0

/-- ERASE: the key is overwritten, every memory of the islands, the Depots and the directory are zero, a new key is loaded; with FILL HBM is zero and no poison
survives (R460). -/
def eraseCmd (path : Path) (s : State) : State :=
  command path 0x10 eraseOk (fun _ => true) id (fun s =>
    let q := eraseReq s
    let s := newKey s
    let s := colShow { s with
      depot := [], tileSram := [], vregs := [], masks := (List.range 288).flatMap (fun p => (List.range 7).map (fun i => (p * 8 + i + 1, 0))), cores := [],
      starts := [], engines := [], dsps := [], slvs := [], col := .init, imgCore := [], imgDsp := [], imgSlv := [], imgCol := none,
      hal := { s.hal with dir := [] }, sec := { s.sec with erase := some q } }
    if bitAt q.2.2 0 then
      { s with hbm := [], hbmBg := 0, poison := [], chans := s.chans.map (fun e => (e.1, { e.2 with allPoison := false, clean := [] })) }
    else s) s

/-- The result-bearing fields of R329 return to their Reset values. -/
def sigReset (s : State) : State :=
  let put := fun (b : Nat) (fs : List Fld) (s : State) => fs.foldl (fun s f => setF b f f.rst s) s
  let s := put mempBase [R.MEM_SPREAD_SIZE] (put halBase [R.HAL_WIN_BASE_LO_BASE, R.HAL_WIN_BASE_HI_BASE, R.HAL_WIN_SIZE_GIB] s)
  let s := resetRegs (fun o => decide (0x1000000 ≤ o) && (o - 0x1000000) % 0x40000 < 0x20000 && (o - 0x1000000) % 0x400000 < 0x240000 && (o % 0x4000 = 0 || o % 0x4000 = 0x100)) s
  let s := (List.range 36).foldl (fun s c => put (asyBase c) [R.ASY_CFG_SAT, R.ASY_CFG_FLAG_SUM_EN, R.ASY_CFG_LEVEL]
    (put (sxBase c) [R.SX_CFG_FLAG_SUM_EN, R.SX_CFG_LEVEL] s)) s
  let s := (List.range 4).foldl (fun s d => put (dspBase d) [R.DSP_CFG_PAD_FILL, R.DSP_CFG_LEVEL] s) s
  let s := (List.range 8).foldl (fun s e => put (slvBase e) [R.SLV_CFG_LEVEL, R.SLV_PIVOT_MIN_LO_MIN, R.SLV_PIVOT_MIN_HI_MIN] s) s
  (List.range 44).foldl (fun s c => put (seqBase c) [R.SEQ_TVEC_LO_ADDR, R.SEQ_TVEC_HI_ADDR] s) s

/-- The registers an erase returns to their Reset values: result-bearing fields, the checkpoint controller, the group table and the launch table's address (R460). -/
def eraseRegs (s : State) : State :=
  resetRegs (fun o => (0x100000 ≤ o && o < 0x110000) || (colBase + 0x1000 ≤ o && o < colBase + 0x3000) ||
    o = colBase + R.COL_LAUNCH_TBL_LO_ADDR.off || o = colBase + R.COL_LAUNCH_TBL_HI_ADDR.off) (sigReset s)

/-- The checkpoint controller as after reset. -/
def ckpReset (s : State) : State := { s with ckp := .init }

/-- ERASE_DONE: registers return to Reset values, the CUSTODY entry is committed, the custody ID and the count change, and the signed statement is
written (R460, R461). -/
def eraseDone (s : State) : State :=
  match s.sec.erase with
  | none => s
  | some q =>
    if cmdBusy s ∧ cmdOp s = 0x10 then
      let old := custody s
      let s := eraseRegs s
      let n := (getF secBase R.SEC_ERASE_COUNT_COUNT s + 1) % 2 ^ 32
      let s := cairnAdd 6 [old.toNat, q.2.1.toNat, n, q.2.2, q.1.toNat] (periodEntry (ckpReset s))
      let s := setPair secBase R.SEC_CUSTODY_LO_CUSTODY R.SEC_CUSTODY_HI_CUSTODY q.2.1.toNat (setF secBase R.SEC_ERASE_COUNT_COUNT n s)
      let s := setF secBase R.SEC_STATUS_ERASED 1 { s with sec := { s.sec with erase := none } }
      let s := writeExt (cmdArg 0 s + 64) (signedReport (reportBytes 2 q.1.toNat (old.toNat + q.2.2 * 2 ^ 64) s)) s
      cmdFinish 0 (raise srcSec 0xAA 0 0 0 s)
    else s

/-! ### Service and rating (R468 to R472) -/

/-- SEC_NONCE. -/
def nonceNow (s : State) : DWord := Config.freeNonce s.sec.nonceN
/-- SEC_NONCE_GEN: the DRBG draws a new nonce (R468). -/
def nonceGen (s : State) : State := { s with fresh := s.fresh + 1, sec := { s.sec with nonceN := s.fresh + 1, nonceUsed := false } }

/-- SERVICE_ENTER: `ok` says whether the signature verifies; every attempt consumes the nonce (R468). -/
def serviceEnter (path : Path) (ok : Bool) (s : State) : State :=
  command path 3 (fun s => inCompanion (cmdArg 0 s) 1024 s)
    (fun s =>
      let b := readExt (cmdArg 0 s) 512 s
      ok && bitsAt b 0 64 = Config.serial.toNat && bitsAt b 64 64 = (nonceNow s).toNat && !s.sec.nonceUsed && bitsAt b 160 3936 = 0)
    (fun s => { s with sec := { s.sec with nonceUsed := true } })
    (fun s =>
      let ops := bitsAt (readExt (cmdArg 0 s) 512 s) 128 32
      cmdFinish 0 (setPkg .service (raise srcSec 0xAF 1 0 0 { s with sec := { s.sec with ops := some ops } }))) s

/-- SERVICE_EXIT: the authorisation is cleared (R469). -/
def serviceExit (path : Path) (s : State) : State :=
  plainCommand path 4 (fun s => cmdFinish 0 (setPkg .ready { s with sec := { s.sec with ops := none } })) s

/-- Whether GRADE agrees with P0 to P3 (R5, R6, R472). -/
def gradeOk (r : Rating) : Bool :=
  let lo := r.tiles.foldl min 72
  r.tiles.length = 4 && ((r.grade = 0xA && r.tiles.all (fun p => p = 72)) || (r.grade = 0xB && decide (64 ≤ lo) && decide (lo ≤ 71)))
/-- The content checks of RERATE (R472). -/
def rerateOk (r : Rating) (s : State) : Bool :=
  r.serial = Config.serial && decide (r.seq > s.sec.rating.seq) && (s.sec.pendRating.all (fun p => decide (r.seq > p.seq))) && r.refurb && gradeOk r

/-- RERATE: `ok` says whether the signature of the record `r` verifies; the checks stand in the order of R430 (R469, R472). -/
def rerateCmd (path : Path) (ok : Bool) (r : Rating) (s : State) : State :=
  command path 0x12 (rerateOk r) (fun s => ok && opsBit 0 s) id (fun s =>
    let s := cairnAdd 5 (ratingArgs s.sec.rating r true) { s with sec := { s.sec with pendRating := some r } }
    cmdFinish 0 (showRating s)) s

/-! ### Boot (R445 to R448, R452, R454) -/

/-- COLD_START: both signals have been held for 50 ms; the always-on rails start and boot begins. What the NVS, the one-time-programmable storage, the flash, the base
dies' repair stores and the carrier hold is kept; everything else starts from reset. -/
def coldStart (s : State) : State :=
  if s.pkg ≠ .off ∨ s.pins.boot then s
  else
    let keep := s.csr.filterMap (fun e =>
      if e.1 / 0x10000 = 5 ∨ e.1 = pkgBase + 0x20 ∨ e.1 = ckpBase + R.CKP_STATUS_QUARANTINED.off then
        let w := warmWord e.1 e.2
        if w.2 = w.1 then none else some (e.1, BitVec.ofNat 32 w.2)
      else none)
    let s' : State := { State.reset with
      pending := s.pending, fresh := s.fresh + 1, pkg := .off, csr := keep, hbmBg := s.fresh + 1, out := s.out, upNs := s.upNs, totals := s.totals, rows := s.rows,
      spares := s.spares,
      sec := { s.sec with win := none, ops := none, unlocked := none, erase := none, report := [], nonceN := s.fresh + 1, nonceUsed := false },
      pins := { Pins.init with boot := true } }
    setF pkgBase R.PKG_INPUTS_SLOT_OK 0 (setF pkgBase R.PKG_INPUTS_REFCLK_SRC 0 (setF pkgBase R.PKG_INPUTS_TAP_ACTIVE 0 s'))

/-- A package that cannot boot stays in the boot state (R445, R447). -/
def bootFail (s : State) : State := raise srcSec 0xA2 3 0 0 { s with pins := { s.pins with bootBad := true } }

/-- The open period of an unclean power loss (R454). -/
def uncleanCheck (s : State) : State :=
  if s.sec.removed ∨ s.sec.saved.isEmpty then s
  else
    let m := s.sec.saved
    let s := { s with sec := { s.sec with saved := [], life := addAll m s.sec.life, unclean := true } }
    setF secBase R.SEC_STATUS_UNCLEAN 1 (cairnAdd 0xA (periodArgs m) (raise srcSec 0xA7 1 0 0 s))

/-- The checks of boot on a record of the NVS: this package's serial, and a grade that agrees with P0 to P3 (R447, R472). -/
def recordOk (r : Rating) : Bool := r.serial = Config.serial && gradeOk r

/-- The newest rating record that passes: the pending one before the active one (R447, R472). -/
def bootRecord (b : BootInputs) (s : State) : Option Rating :=
  match s.sec.pendRating with
  | some p => if b.pendingOk && recordOk p then some p else if b.activeOk && recordOk s.sec.rating then some s.sec.rating else none
  | none => if b.activeOk && recordOk s.sec.rating then some s.sec.rating else none

/-- Whether a firmware key slot holds the hash and is not revoked (R445). -/
def keyOk (slot : Nat) (h : BitVec 512) (s : State) : Bool := s.sec.fwKeys[slot]? = some (h, false)

/-- Boot from a bank with its image and a verified rating record: STANDBY (R445 to R448, R452). -/
def bootOk (bank svn : Nat) (adv : Bool) (r : Rating) (s : State) : State :=
  let same := getF secBase R.SEC_STATUS_BANK s = bank ∧ getF secBase R.SEC_STATUS_SVN s = svn
  let s := setF secBase R.SEC_STATUS_BANK bank (setF secBase R.SEC_STATUS_SVN svn { s with sec := { s.sec with advance := adv } })
  let s := if same then s else cairnAdd 8 [svn, bank, getF secBase R.SEC_STATUS_ROLLBACK s] s
  let s := if s.sec.pendRating = some r then rateEffect s else s
  let s := uncleanCheck (loadGuard (showRating s))
  let s := halTrain (ownSlot (setPkg .standby (raise srcSec 0xA0 0 0 0 { s with pins := { s.pins with boot := false } })))
  cairnAdd 9 [0, getF (fabBase 0) R.FAB_SELF_CARAVAN s, getF pkgBase R.PKG_INPUTS_SLOT s, s.count.toNat] { s with sec := { s.sec with removed := false } }

/-- BOOT_DONE: the bank with the higher SVN is tried first, A when they are equal; then the rating record (R445, R447). -/
def bootDone (b : BootInputs) (s : State) : State :=
  if !s.pins.boot || s.pins.bootBad || s.pkg ≠ .off then s
  else
    let rb := getF secBase R.SEC_STATUS_ROLLBACK s
    let ga := b.okA && keyOk b.slotA b.keyA s && decide (b.svnA.toNat ≥ rb)
    let gb := b.okB && keyOk b.slotB b.keyB s && decide (b.svnB.toNat ≥ rb)
    let s := setF secBase R.SEC_FW_SVN_A b.svnA.toNat (setF secBase R.SEC_FW_VALID_A (b2n ga)
      (setF secBase R.SEC_FW_SVN_B b.svnB.toNat (setF secBase R.SEC_FW_VALID_B (b2n gb) s)))
    let bFirst := b.svnB.toNat > b.svnA.toNat
    let g1 := if bFirst then gb else ga
    let s := if g1 then s else raise srcSec 0xA1 1 0 0 (setF secBase R.SEC_STATUS_BANK_FAIL 1 s)
    if !ga && !gb then bootFail s
    else
      let useB := if bFirst then gb else !ga
      match bootRecord b s with
      | none => bootFail s
      | some r => bootOk (b2n useB) (if useB then b.svnB.toNat else b.svnA.toNat) (if useB then b.advB else b.advA) r s

/-! ### Removal (R453, R454, R462, R477) -/

/-- The removal sequence: aborts and the record, cores stop, the Depots are written back, every rail but the always-on one falls, figures are handed over, and PERIOD and
REMOVE are committed. An erase in progress keeps its old custody ID. -/
def removal (s : State) : State :=
  let job := inJob s
  let s := bumpF secBase R.SEC_HOTPLUG_REMOVALS 1 s
  let s := if job then raise srcSec 0xA6 3 0 0 (colAbortAll 1 true s) else raise srcSec 0xA5 0 0 0 s
  let s := diesOff (flush (fun _ => true) true (jobClear s))
  let s := periodEntry (handover { s with sec := { s.sec with ops := none, erase := none } })
  let s := cairnAdd 9 [1, getF (fabBase 0) R.FAB_SELF_CARAVAN s, getF pkgBase R.PKG_INPUTS_SLOT s, s.count.toNat, b2n job] s
  cmdAbandon { s with cause := 0, sec := { s.sec with removed := true } }

/-- Everything is unpowered: what only the always-on domain held is gone. -/
def powerGone (s : State) : State :=
  { s with pkg := .off, prev := s.pkg, rails := false, counting := false, log := .init, pins := { s.pins with boot := false, bootBad := false } }

/-- LEVER_CLOSED deasserts: a start stops; else the removal sequence runs, and always-on power remains until contact breaks (R452, R453). -/
def leverOpen (s : State) : State :=
  if !s.pins.lever then s
  else
    let s := { s with pins := { s.pins with lever := false } }
    if s.pkg = .off then powerGone s
    else if s.sec.removed then s
    else
      let s := removal s
      if s.pkg = .standby then s else setPkg .standby s

/-- HOST_PWR_EN deasserts: the same sequence, once, and OFF (R453, R477). -/
def pwrEnDrop (s : State) : State :=
  if !s.pins.pwrEn then s
  else
    let s := { s with pins := { s.pins with pwrEn := false } }
    if s.pkg = .off ∨ s.sec.removed then powerGone s else powerGone (removal s)

/-- INPUT_LOSS: 48 V is lost; hold-up finishes only an entry already started, and every entry of this model is written at once (R454). -/
def inputLoss (s : State) : State := if s.pkg = .off ∧ !s.pins.boot then s else powerGone (stacksOff (islandsOff s))

/-- MOD_PRESENT_LOST: recorded, and acts as a lever opening (R477). -/
def presentLost (s : State) : State :=
  if s.pins.lever then leverOpen (raise 0 0x09 1 0 0 { s with pins := { s.pins with present := false } }) else s

/-! ### SEC register actions (R445, R446, R463, R470) -/

/-- Whether a path reaches SEC: every requester but a Drover core, while the security block is powered. -/
def secReach (path : Path) (s : State) : Bool :=
  (s.pkg ≠ .off || s.pins.boot) && (match path with
    | .drover _ => false
    | _ => true)

/-- The flash address of byte `t` of the window: which page it shows is stated nowhere, a free value drawn at the unlock (log 144). -/
def flashAt (b t : Nat) (s : State) : Nat := b * 2 ^ 25 + Config.freeResult 89 s.sec.page % 8192 * 4096 + t

/-- SEC_FLASH_UNLOCK: 1 unlocks bank A, 2 bank B (R445). -/
def flashUnlock (bank : Nat) (s : State) : State :=
  { s with fresh := s.fresh + 1, sec := { s.sec with page := s.fresh, unlocked := if bank = 1 then some 0 else if bank = 2 then some 1 else none } }

/-- A page write: ignored without an unlock; into the running bank ignored and recorded (R445, R446). -/
def flashPage (path : Path) (page : Nat) (data : List Byte) (s : State) : State :=
  match s.sec.unlocked with
  | none => s
  | some b =>
    if s.pkg ≠ .off ∧ getF secBase R.SEC_STATUS_BANK s = b then rejectWrite path (secBase + 0x2000) (bytesNat (data.take 4)) s
    else if page ≥ 8192 then s
    else { s with sec := { s.sec with flash := memWriteN zeroByte (b * 2 ^ 25 + page * 4096) (bytesNat (data.take 4096)) (data.take 4096).length s.sec.flash } }

/-- SEC_CAIRN_COMPACT: under CAIRN_COMPACT the oldest n entries are archived and a COMPACT entry is written (R469, R470). -/
def cairnCompact (path : Path) (n : Nat) (s : State) : State :=
  if opsBit 3 s ∧ n + 1024 < cairnCount s ∧ n < s.sec.cairn.length then
    if n = 0 then s
    else
      let h := match s.sec.cairn[n - 1]? with
        | some e => Config.sha512 (cairnBytes (s.sec.base + n - 1) e)
        | none => 0
      cairnAdd 0xC [n, h.toNat] { s with sec := { s.sec with cairn := s.sec.cairn.drop n, base := s.sec.base + n } }
  else rejectWrite path (secBase + R.SEC_CAIRN_COMPACT_N.off) n s

/-- SEC_CAIRN_SEL_LO: the entry named by both halves is latched into the window (R463). -/
def cairnSel (lo : Nat) (s : State) : State :=
  let s := setF secBase R.SEC_CAIRN_SEL_LO_INDEX lo s
  let i := getPair secBase R.SEC_CAIRN_SEL_LO_INDEX R.SEC_CAIRN_SEL_HI_INDEX s
  { s with sec := { s.sec with win := if i < s.sec.base then none else (s.sec.cairn[i - s.sec.base]?).map (fun e => (i, e)) } }

/-- NOP (R433). -/
def execNop (path : Path) (s : State) : Host.Outcome State Fault Refusal := .next (nopCmd path s)
/-- POWER_UP (R449). -/
def execPowerUp (path : Path) (s : State) : Host.Outcome State Fault Refusal := .next (powerUp path s)
/-- POWER_UP_DONE (R449, R450). -/
def execPowerUpDone (fail : Option (BitVec 16 × BitVec 16)) (s : State) : Host.Outcome State Fault Refusal := .next (powerUpDone fail s)
/-- POWER_DOWN (R433). -/
def execPowerDown (path : Path) (s : State) : Host.Outcome State Fault Refusal := .next (powerDown path s)
/-- SERVICE_ENTER (R468). -/
def execServiceEnter (path : Path) (ok : Bool) (s : State) : Host.Outcome State Fault Refusal := .next (serviceEnter path ok s)
/-- SERVICE_EXIT (R469). -/
def execServiceExit (path : Path) (s : State) : Host.Outcome State Fault Refusal := .next (serviceExit path s)
/-- ADMIT (R456, R457). -/
def execAdmitJob (path : Path) (s : State) : Host.Outcome State Fault Refusal := .next (admitCmd path s)
/-- TEARDOWN (R458). -/
def execTeardown (path : Path) (s : State) : Host.Outcome State Fault Refusal := .next (teardownCmd path s)
/-- TEARDOWN_DONE (R284, R458). -/
def execTeardownDone (s : State) : Host.Outcome State Fault Refusal := .next (teardownDone s)
/-- ERASE (R459, R460). -/
def execErase (path : Path) (s : State) : Host.Outcome State Fault Refusal := .next (eraseCmd path s)
/-- ERASE_DONE (R460, R461). -/
def execEraseDone (s : State) : Host.Outcome State Fault Refusal := .next (eraseDone s)
/-- ATTEST (R455). -/
def execAttest (path : Path) (s : State) : Host.Outcome State Fault Refusal := .next (attestCmd path s)
/-- ATTEST_SIGNED (R455). -/
def execAttestSigned (s : State) : Host.Outcome State Fault Refusal := .next (attestSigned s)
/-- RERATE (R472). -/
def execRerate (path : Path) (ok : Bool) (rec : Rating) (s : State) : Host.Outcome State Fault Refusal := .next (rerateCmd path ok rec s)
/-- RESET_WARM (R451). -/
def execResetWarm (path : Path) (s : State) : Host.Outcome State Fault Refusal := .next (resetWarm path s)
/-- WARM_RESET_DONE (R451). -/
def execWarmResetDone (s : State) : Host.Outcome State Fault Refusal := .next (warmDone s)
/-- COLD_START (R452). -/
def execColdStart (s : State) : Host.Outcome State Fault Refusal := .next (coldStart s)
/-- BOOT_DONE (R445, R447). -/
def execBootDone (b : BootInputs) (s : State) : Host.Outcome State Fault Refusal := .next (bootDone b s)
/-- LEVER_OPEN (R453). -/
def execLeverOpen (s : State) : Host.Outcome State Fault Refusal := .next (leverOpen s)
/-- HOST_PWR_EN_DEASSERT (R453). -/
def execHostPwrEnDeassert (s : State) : Host.Outcome State Fault Refusal := .next (pwrEnDrop s)
/-- MOD_PRESENT_LOST (R477). -/
def execModPresentLost (s : State) : Host.Outcome State Fault Refusal := .next (presentLost s)
/-- INPUT_LOSS (R454). -/
def execInputLoss (s : State) : Host.Outcome State Fault Refusal := .next (inputLoss s)
/-- SEC_NONCE_GEN (R468). -/
def execSecNonceGen (path : Path) (s : State) : Host.Outcome State Fault Refusal := .next (if secReach path s then nonceGen s else s)
/-- SEC_FLASH_UNLOCK (R445). -/
def execSecFlashUnlock (path : Path) (bank : BitVec 2) (s : State) : Host.Outcome State Fault Refusal :=
  .next (if secReach path s then flashUnlock bank.toNat s else s)
/-- FLASH_PAGE_WRITE (R446). -/
def execFlashPageWrite (path : Path) (page : BitVec 16) (data : List Byte) (s : State) : Host.Outcome State Fault Refusal :=
  .next (if secReach path s then flashPage path page.toNat data s else s)
/-- SEC_CAIRN_COMPACT (R470). -/
def execSecCairnCompact (path : Path) (n : Word) (s : State) : Host.Outcome State Fault Refusal :=
  .next (if secReach path s then cairnCompact path n.toNat s else s)
/-- SEC_CAIRN_SEL (R463). -/
def execSecCairnSel (path : Path) (lo : Word) (s : State) : Host.Outcome State Fault Refusal :=
  .next (if secReach path s then cairnSel lo.toNat s else s)
/-- DAILY_PERIOD (R466). -/
def execDailyPeriod (s : State) : Host.Outcome State Fault Refusal := .next (dailyPeriod s)

end Sys2Proof.Machine
end

