-- ==== Sys2Proof/Machine/CsrRead.lean ====
section
/-! DEFINITION. What a CSR read returns and clears (R13, R14, R419, R423, R427), with the fields that show the present state of a block. -/

namespace Sys2Proof.Machine

/-! ### Slow domains (R424, R425) -/

/-- The slow domain of an offset: stacks 0 to 11, fabric dies 12 and 13, compute dies 14 to 17, collective engine 18, Depots 19 to 22, the package-wide
memory registers 23; none for what lies on the command die (R33, R424). -/
def domOf (o : Nat) : Option Nat :=
  if 0x200000 ≤ o ∧ o < 0x2C0000 then some ((o - 0x200000) / 0x10000)
  else if 0x2C0000 ≤ o ∧ o < 0x2D0000 then some 23
  else if 0x4C0000 ≤ o ∧ o < 0x4D0000 then none
  else if 0x400000 ≤ o ∧ o < 0x600000 then some (12 + (o - 0x400000) / 0x100000)
  else if 0x600000 ≤ o ∧ o < 0x610000 then some 18
  else if 0x1000000 ≤ o ∧ o < 0x2000000 then
    let d := (o - 0x1000000) / 0x400000
    if 0x300000 ≤ o % 0x400000 ∧ o % 0x400000 < 0x340000 then some (19 + d) else some (14 + d)
  else none

/-- Whether a domain is powered: the stacks, compute dies and Depots with the core rails, the fabric dies above STANDBY. The package-wide memory registers
are taken to answer always. -/
def domPowered (d : Nat) (s : State) : Bool :=
  if d = 12 ∨ d = 13 ∨ d = 18 then fabUp s else if d = 23 then true else s.rails

/-- Whether a write is crossing to a domain: its crossing bit (R424). -/
def crossing (d : Nat) (s : State) : Bool := (sFind s.root.posted d).isSome

/-! ### Fields that show present state -/

/-- Put a field into a word. -/
def putF (f : Fld) (v w : Nat) : Nat := putBits w f.lo f.w v

/-- Accepted instructions of an engine. -/
def depth (k : Nat) (s : State) : Nat := (getEng k s).queue.length
/-- BUSY of an engine. -/
def busy (k : Nat) (s : State) : Nat := b2n (!(getEng k s).queue.isEmpty)

/-- SEQ_STATUS.STATE: a core whose instruction stalls is RUNNING, or IN_TRAP in its handler. -/
def coreCode (k : Core) : Nat :=
  match k.st with
  | .idle => 0
  | .running => 1
  | .waiting => match k.wait with
    | some r => if r.op ≥ 64 then (if k.trapMask then 3 else 1) else 2
    | none => 2
  | .inTrap => 3
  | .parked => 4
  | .faulted => 5
  | .stopped => 6

/-- SEQ_STATUS as it stands. -/
def seqLive (c w : Nat) (s : State) : Nat :=
  let k := getCore c s
  putF R.SEQ_STATUS_STATE (coreCode k) (putF R.SEQ_STATUS_TAG k.tag.toNat
    (putF R.SEQ_STATUS_TRAP_PENDING (b2n (trapAwaits c s)) w))

/-- The code of a channel state, MEM_CHAN_STATUS.STATE. -/
def chanCode : ChanSt → Nat
  | .inService => 0 | .retraining => 1 | .outOfService => 2 | .selfTest => 3

/-- The channel MEM_CHAN_SEL names. -/
def selChan (st : Nat) (s : State) : Chan := getChan st (getF (stackBase st) R.MEM_CHAN_SEL_CHAN s) s

/-- Registers of a stack (R240, R244, R424). -/
def memLive (st off w : Nat) (s : State) : Nat :=
  let b := stackBase st
  if off = 0x08 then
    putF R.MEM_STATUS_BUSY (b2n (crossing st s)) (putF R.MEM_STATUS_HOT (b2n (decide (getF b R.MEM_TEMP_TEMP_C s > 85))) w)
  else if off = 0x18 then
    let k := selChan st s
    putF R.MEM_CHAN_STATUS_STATE (chanCode k.st) (putF R.MEM_CHAN_STATUS_SLICES (min 31 k.slices)
      (putF R.MEM_CHAN_STATUS_RETRAINS (min 255 k.retrains) (putF R.MEM_CHAN_STATUS_CE_COUNT (min 65535 k.ceCount) w)))
  else if off = 0x40 then
    putF R.MEM_REPAIR_STATUS_SPARE_TSV_MIN ((List.range 32).foldl (fun m c => min m (getChan st c s).spareTsv) 7) w
  else w

/-- The die that PWR_DIE_SEL names; 7 acts as 0. -/
def selDie (s : State) : Nat := getF pwrBase R.PWR_DIE_SEL_DIE s % 7
/-- The reason that PWR_THR_SEL names; 0 and 7 act as 1. -/
def selReason (s : State) : Nat :=
  let r := getF pwrBase R.PWR_THR_SEL_REASON s
  if r = 0 ∨ r = 7 then 1 else r

/-- Binding time of a reason in us up to now (R410). -/
def bindUs (r : Nat) (s : State) : Nat :=
  (sGet 0 s.pwr.ns r + (match sFind s.pwr.accAt r with
    | some t => s.count.toNat - t.toNat
    | none => 0)) / 1000

/-- Registers of the power controller (R392, R403, R405, R410). -/
def pwrLive (off w : Nat) (s : State) : Nat :=
  if off = 0x40 then bindUs (selReason s) s % 2 ^ 32
  else if off = 0x44 then bindUs (selReason s) s / 2 ^ 32 % 2 ^ 32
  else if off = 0x48 then sGet 0 s.pwr.episodes (selReason s)
  else if off = 0x58 then
    let d := selDie s
    putF R.PWR_DIE_STATUS_TEMP_C (sGet 0 s.pwr.hotC d) (putF R.PWR_DIE_STATUS_MAX_C (sGet 0 s.pwr.maxC d)
      (putF R.PWR_DIE_STATUS_SENSORS_OK (sensorsOk d s) (putF R.PWR_DIE_STATUS_STRETCH_PCT (sGet 0 s.pwr.stretch d) w)))
  else if off = 0x5C then dieVid (selDie s) s
  else if off = 0x60 then sGet 0 s.pwr.trips (selDie s)
  else if off = 0x6C then
    let d := min 4 (getF pwrBase R.PWR_VT_SEL_DIE s)
    let n := getF pwrBase R.PWR_VT_SEL_OP s
    putF R.PWR_VT_ENTRY_VID_MV (testMv d n s) (putF R.PWR_VT_ENTRY_FREQ_MHZ (940 - 47 * n) w)
  else if off = 0x88 then putF R.PWR_RAMP_STATUS_PENDING (min 8 s.ramps.length) w
  else w

/-- The slot that CKP_SLOT_SEL names; codes 6 and 7 name none. -/
def selSlot (s : State) : Option Nat :=
  let k := getF ckpBase R.CKP_SLOT_SEL_SEL s
  if k < 6 then some k else none

/-- Registers of the checkpoint controller (R357, R358). -/
def ckpLive (off w : Nat) (s : State) : Nat :=
  if off = 0x40 then slotSize s % 2 ^ 32
  else if off = 0x44 then slotSize s / 2 ^ 32 % 2 ^ 32
  else if off = 0x88 then
    match selSlot s with
    | some k => hCut (slotHead k s) % 2 ^ 32
    | none => 0
  else if off = 0x8C then
    match selSlot s with
    | some k => hCut (slotHead k s) / 2 ^ 32
    | none => 0
  else if off = 0x90 then
    match selSlot s with
    | some k => let h := slotHead k s
      putF R.CKP_SLOT_STATE_STATE (slotState k s) (putF R.CKP_SLOT_STATE_KIND (hKind h) (putF R.CKP_SLOT_STATE_RANK (hRank h) w))
    | none => 0
  else w

/-- Registers of PKG (R424, R428). While boot runs the package reads as STANDBY, the reset value. -/
def pkgLive (off w : Nat) (s : State) : Nat :=
  if off = 0x00 then
    putF R.PKG_STATE_STATE (if s.pkg = .off then 1 else stCode s.pkg) (putF R.PKG_STATE_PREV (stCode s.prev)
      (putF R.PKG_STATE_CAUSE (if s.pkg = .faulted then s.cause else 0) (putF R.PKG_STATE_RAILS_ON (b2n s.rails) w)))
  else if off = 0x10 then
    putF R.PKG_XD_STATUS_STACK_PEND (packBits 1 ((List.range 12).map (fun d => b2n (crossing d s))))
      (putF R.PKG_XD_STATUS_FAB_PEND (b2n (crossing 12 s) + 2 * b2n (crossing 13 s))
        (putF R.PKG_XD_STATUS_DIE_PEND (packBits 1 ((List.range 4).map (fun d => b2n (crossing (14 + d) s)))) w))
  else w

/-- Registers of the Logbook (R434 to R439). -/
def evrLive (off w : Nat) (s : State) : Nat :=
  if off = 0x08 then
    putF R.EVR_STATUS_RECORDS s.log.recs.length (putF R.EVR_STATUS_FULL (b2n (bufferFull s.log.recs.length))
      (putF R.EVR_STATUS_SEV3_PRESENT (b2n (s.log.recs.any (fun r => r.sev = 3))) w))
  else if off = 0x18 then s.log.head.toNat
  else if off = 0x1C then (oldestSeq s).toNat
  else w

/-- Registers of the security block (R463, R467, R468, R477). -/
def secLive (off w : Nat) (s : State) : Nat :=
  if off = 0x18 then (nonceNow s).toNat % 2 ^ 32
  else if off = 0x1C then (nonceNow s).toNat / 2 ^ 32
  else if off = 0x3C then
    let k := getF secBase R.SEC_HEALTH_SEL_KIND s
    let i := getF secBase R.SEC_HEALTH_SEL_INDEX s
    if i ≥ healthParts k then 0
    else
      let x := sGet Part.init s.sec.parts (partKey k i)
      putF R.SEC_HEALTH_SCORE x.score (putF R.SEC_HEALTH_STATE x.st (putF R.SEC_HEALTH_DAYS (min 255 x.inState) w))
  else if off = 0x48 then cairnCount s % 2 ^ 32
  else if off = 0x4C then cairnCount s / 2 ^ 32
  else if off = 0x50 then cairnFree s
  else if off = 0x60 then Config.freeResult 92 0 % 2 ^ 12
  else if off = 0x68 then
    putF R.SEC_HOTPLUG_PRESENT (b2n s.pins.present) (putF R.SEC_HOTPLUG_PWR_EN (b2n s.pins.pwrEn) (putF R.SEC_HOTPLUG_LEVER (b2n s.pins.lever) w))
  else if off = 0x70 then powerOnS s % 2 ^ 32
  else if off = 0x74 then powerOnS s / 2 ^ 32
  else w

/-- The word of a register with its live fields put in. -/
def liveWord (k : Blk) (n off w : Nat) (s : State) : Nat :=
  match k with
  | .mx =>
    if off = 0x08 then putF R.MX_STATUS_BUSY (busy (kMx n) s) w
    else if off = 0x30 then putF R.MX_QUEUE_DEPTH (depth (kMx n) s) w
    else if off = 0x108 then putF R.VX_STATUS_BUSY (busy (kVx n) s) w
    else if off = 0x140 then putF R.VX_QUEUE_DEPTH (depth (kVx n) s) w
    else w
  | .sx =>
    if off = 0x08 then putF R.SX_STATUS_BUSY (busy (kSx n) s) w
    else if off = 0x28 then putF R.SX_QUEUE_DEPTH (depth (kSx n) s) w
    else w
  | .seq =>
    if off = 0x08 then seqLive n w s
    else if off = 0x10 then (getCore n s).pc.toNat % 2 ^ 32
    else if off = 0x14 then (getCore n s).pc.toNat / 2 ^ 32
    else w
  | .dsp =>
    if off = 0x08 then
      putF R.DSP_STATUS_OPEN (dspOpen n s).length (putF R.DSP_STATUS_BUSY (b2n ((getDsp n s).batches.any (fun b => !b.isOpen))) w)
    else w
  | .asy =>
    if off = 0x08 then putF R.ASY_STATUS_BUSY (busy (kAsy n) s) w
    else if off = 0x28 then putF R.ASY_QUEUE_DEPTH (depth (kAsy n) s) w
    else w
  | .por =>
    if off = 0x08 then putF R.POR_STATUS_BUSY (busy (kPor n) s) w
    else if off = 0x20 then putF R.POR_QUEUE_DEPTH (depth (kPor n) s) w
    else w
  | .slv =>
    if off = 0x08 then putF R.SLV_STATUS_BUSY (busy (kSlv n) s) w
    else if off = 0x38 then
      putF R.SLV_QUEUE_DEPTH (depth (kSlv n) s) (putF R.SLV_QUEUE_DONE (match (getEng (kSlv n) s).queue with
        | e :: _ => e.value
        | [] => 0) w)
    else w
  | .mem => memLive n off w s
  | .dep => if off = 0x08 then putF R.DEP_STATUS_BUSY (b2n (crossing (19 + n) s)) w else w
  | .fab => if off = 0x08 then putF R.FAB_STATUS_BUSY (b2n (crossing (12 + n) s)) w else w
  | .rt => if off = 0x20 then putF R.RT_PEERS_ACTIVE (peersOf n s).length w else w
  | .col => if off = 0x08 then putF R.COL_STATUS_BUSY (b2n (crossing 18 s)) w else w
  | .gct =>
    if off = 0x10 then s.count.toNat % 2 ^ 32
    else if off = 0x14 then s.count.toNat / 2 ^ 32
    else w
  | .ckp => ckpLive off w s
  | .pwr => pwrLive off w s
  | .pkg => pkgLive off w s
  | .evr => evrLive off w s
  | .sec => secLive off w s
  | .port =>
    if off = 0x24 then
      let l := getLink n s
      putF R.PORT_FEC_CORRECTED l.fecOk (putF R.PORT_FEC_UNCORRECTED l.fecBad w)
    else w
  | .memp | .hal | .cmd => w

/-- Registers whose value timing alone decides: cycle counters, progress and ramp figures. Once block `n` has run since reset they are free (log 40), and before
that they read their reset value. Answers the width left free. -/
def freeBits (k : Blk) (n off : Nat) (s : State) : Option Nat :=
  let all := fun (key : Nat) (l : List Nat) => if l.contains off && s.ran.contains key then some 32 else none
  match k with
  | .mx => if off = 0x30 then (if s.ran.contains (kMx n) then some 1 else none)
    else if off < 0x100 then all (kMx n) [0x48, 0x4C, 0x50, 0x54] else all (kVx n) [0x148, 0x14C, 0x150, 0x154]
  | .sx => if off = 0x30 then (if s.ran.contains (kSx n) then some 24 else none) else all (kSx n) [0x38, 0x3C, 0x40, 0x44]
  | .seq => all (1000 + n) [0x70, 0x74]
  | .dsp => all (kDsp n) [0x28, 0x2C]
  | .asy => all (kAsy n) [0x38, 0x3C]
  | .por => all (kPor n) [0x40, 0x44]
  | .slv => all (kSlv n) [0x48, 0x4C]
  | .mem => if s.rails && (off = 0x60 || off = 0x64) then some 32 else none
  | _ => none

/-! ### Reading -/

/-- The stored word as a read shows it: write-only and reserved bits are 0 (R13, R14); at LEVEL 0 an expert field reads its effective value (R427). -/
def shownWord (base : Nat) (r : Reg) (s : State) : Nat :=
  r.flds.foldl (fun w f => if f.acc = .wo then w else putF f (if f.expert && !levelOn base r s then f.rst else getF base f s) w) 0

/-- A read clears the RC fields of the register, and with them the VALID bits of what they captured (R423). -/
def clearRead (k : Blk) (n base : Nat) (r : Reg) (s : State) : State :=
  let s := r.flds.foldl (fun s f => if f.acc = .rc then setF base f 0 s else s) s
  let off := r.off
  match k with
  | .mx =>
    if off = 0x10 then setF base R.MX_META_POS_VALID 0 (setF base R.MX_UE_ADDR_VALID 0 s)
    else if off = 0x128 then setF base R.VX_UE_ADDR_VALID 0 s
    else s
  | .sx => if off = 0x10 then setF base R.SX_UE_ADDR_VALID 0 s else s
  | .asy => if off = 0x10 then setF base R.ASY_ERR_ADDR_VALID 0 s else s
  | .por => if off = 0x08 then setF base R.POR_STATUS_UE_VALID 0 s else s
  | .slv => if off = 0x08 then setF base R.SLV_RANGE_POS_VALID 0 (setF base R.SLV_SING_POS_VALID 0 s) else s
  | .mem =>
    if off = 0x08 then setF base R.MEM_UE_ADDR_HI_VALID 0 s
    else if off = 0x18 then
      let c := getF base R.MEM_CHAN_SEL_CHAN s
      setChan n c { getChan n c s with retrains := 0, ceCount := 0 } s
    else s
  | .dep => if off = 0x08 then setF base R.DEP_UE_ADDR_HI_VALID 0 s else s
  | .fab => if off = 0x08 then setF base R.FAB_DEAD_PKG_VALID 0 s else s
  | .col => if off = 0x08 then setF base R.COL_CRC_INFO_HI_VALID 0 (setF base R.COL_ABORT_INFO_HI_VALID 0 s) else s
  | .port => if off = 0x24 then setLink n { getLink n s with fecOk := 0, fecBad := 0 } s else s
  | .gct => if off = 0x80 then setF base R.GCT_DIG_ERRIDX_VALID 0 s else s
  | .pwr =>
    if off = 0x58 then { s with pwr := { s.pwr with maxC := sDel (selDie s) s.pwr.maxC } }
    else if off = 0x60 then { s with pwr := { s.pwr with trips := sDel (selDie s) s.pwr.trips } }
    else s
  | _ => s

/-- A read of a register; a sideband read clears nothing (R419). -/
def regRead (path : Path) (k : Blk) (n base : Nat) (r : Reg) (s : State) : Nat × State :=
  let w := liveWord k n r.off (shownWord base r s) s
  let clear := fun (s : State) => if path = .sideband then s else clearRead k n base r s
  match freeBits k n r.off s with
  | some b =>
    let x := Config.freeResult 91 s.fresh
    (if k = .mx ∧ r.off = 0x30 then putF R.MX_QUEUE_RAMPING x w else x % 2 ^ b, clear { s with fresh := s.fresh + 1 })
  | none => (w, clear s)

/-- A word of a state image (R490): the number of the image read last while the block's state has not changed, else a new one. -/
def imageRead {α : Type} [DecidableEq α] (img : Option (Nat × α)) (now : α) (base off : Nat) (keep : Nat × α → State → State) (s : State) : Nat × State :=
  if s.pkg ≠ .frozen then (0, s)
  else match img with
    | some (n, x) =>
      if x = now then ((imageWord base n off).toNat, s)
      else ((imageWord base s.fresh off).toNat, keep (s.fresh, now) { s with fresh := s.fresh + 1 })
    | none => ((imageWord base s.fresh off).toNat, keep (s.fresh, now) { s with fresh := s.fresh + 1 })

/-- A word of a core's state windows (R490). -/
def seqWinRead (c off : Nat) (s : State) : Nat × State :=
  if 0xE00 ≤ off then
    imageRead (sFind s.imgCore c) (getCore c s, takeTrap c s) (seqBase c + 0xE00) (off - 0xE00) (fun x s => { s with imgCore := sIns c x s.imgCore }) s
  else (seqWindowRead c off s, s)

/-- A word of a cursor: the sought value, EVR_CUR_INFO, the window (R440). -/
def cursorRead (k off : Nat) (s : State) : Nat :=
  let c := getCur k s
  if off = 0 then (c.sought.getD (oldestSeq s)).toNat
  else if off = 8 then curInfo c
  else if 0x20 ≤ off then (c.win.getD ((off - 0x20) / 4) 0).toNat
  else 0

/-- Four bytes of the Cairn window: the entry latched, or zeros (R463). -/
def cairnRead (off : Nat) (s : State) : Nat :=
  match s.sec.win with
  | some (n, e) => bytesNat (((cairnBytes n e).drop off).take 4)
  | none => 0

/-- Four bytes of the flash window: the page it shows of an unlocked bank that is not running, else zeros (R445, R446, R474, log 144). -/
def flashShown (t : Nat) (s : State) : Nat :=
  match s.sec.unlocked with
  | none => 0
  | some b =>
    if s.pkg ≠ .off ∧ getF secBase R.SEC_STATUS_BANK s = b then 0
    else memReadN zeroByte s.sec.flash (flashAt b t s) 4

/-- What a read of a 4-byte aligned offset returns, and the state after it. -/
def csrRead (path : Path) (o : Nat) (s : State) : Nat × State :=
  match csrPlace o with
  | .reg k n base r => regRead path k n base r s
  | .cap x => (capWord x s, s)
  | .vxWin p t => (vxWindowRead p t s, s)
  | .seqWin c t => seqWinRead c t s
  | .dspWin d t => imageRead (sFind s.imgDsp d) (getDsp d s) (dspBase d + 0x800) t (fun x s => { s with imgDsp := sIns d x s.imgDsp }) s
  | .slvWin e t => imageRead (sFind s.imgSlv e) (getEng (kSlv e) s) (slvBase e + 0x800) t (fun x s => { s with imgSlv := sIns e x s.imgSlv }) s
  | .colWin t => imageRead s.imgCol s.col (colBase + 0x8000) t (fun x s => { s with imgCol := some x }) s
  | .group t => ((csrGet 0 t s).toNat, s)
  | .fabTab f t => ((csrGet 0 (tabBase f + t) s).toNat, s)
  | .cursor k t => (cursorRead k t s, s)
  | .cairnWin t => (cairnRead t s, s)
  | .certWin t => (Config.freeResult 92 (4 + t) % 2 ^ 32, s)
  | .flashWin t => (flashShown t s, s)
  | .reserved => (0, s)
  | .unmapped => (0, s)

end Sys2Proof.Machine
end

