-- ==== Sys2Proof/Machine/CsrWrite.lean ====
section
/-! DEFINITION. What a CSR write does (R13, R14, R422, R427): plain fields, and the registers whose write acts. -/

namespace Sys2Proof.Machine

/-- One field of a written word: RW and RWS fields take it, clamped where the table says so; an expert field does not while LEVEL is 0 (R13, R427). -/
def fieldStore (base : Nat) (lvl : Bool) (v : Nat) (s : State) (f : Fld) : State :=
  if (f.acc = .rw || f.acc = .rws) && (!f.expert || lvl) then
    let x := bitsAt v f.lo f.w
    setF base f (match f.clamp with
      | some (a, b) => max a (min b x)
      | none => x) s
  else s

/-- A plain write of a register. The write that sets LEVEL applies the expert fields it carries; one that clears it does not (R427). -/
def regStore (base : Nat) (r : Reg) (v : Nat) (s : State) : State :=
  let lvl := if r.level = some r.off then bitAt v 31 else levelOn base r s
  r.flds.foldl (fieldStore base lvl v) s

/-- The record that an RERATE through CMD_GO reads: its bytes' layout is not stated, so each field is a free value. -/
def freeRating (s : State) : Rating :=
  let x := fun i => Config.freeResult 88 (s.fresh * 1024 + i)
  ⟨BitVec.ofNat 64 (x 0), x 1 % 2 ^ 16, x 2 % 16, decide (x 3 % 2 = 1), (List.range 4).map (fun i => x (4 + i) % 256),
   (List.range 80).map (fun i => x (8 + i) % 4096), x 88 % 256, (List.range 5).map (fun i => x (89 + i) % 4096),
   (List.range 288).map (fun i => x (94 + i) % 76), (List.range 288).map (fun i => x (382 + i) % 256)⟩

/-- The verdict on a signature that no operand carries: a free value. -/
def freeVerdict (s : State) : Bool := decide (Config.freeResult 85 s.fresh % 2 = 1)

/-- CMD_GO: the command that CMD_OPCODE names (R430, R433). -/
def goCommand (path : Path) (s0 : State) : State :=
  let op := getF cmdBase R.CMD_OPCODE_OPCODE s0
  let s := { s0 with fresh := s0.fresh + 1 }
  match op with
  | 0x00 => nopCmd path s
  | 0x01 => powerUp path s
  | 0x02 => powerDown path s
  | 0x03 => serviceEnter path (freeVerdict s0) s
  | 0x04 => serviceExit path s
  | 0x05 => sleepCmd path s
  | 0x06 => wakeCmd path s
  | 0x07 => repairCmd path s
  | 0x08 => admitCmd path s
  | 0x09 => launchCmd path s
  | 0x0A => freezeCmd path s
  | 0x0B => resumeCmd path s
  | 0x0C => restoreCmd path s
  | 0x0D => takeoverCmd path s
  | 0x0E => recoverCmd path s
  | 0x0F => teardownCmd path s
  | 0x10 => eraseCmd path s
  | 0x11 => attestCmd path s
  | 0x12 => rerateCmd path (freeVerdict s0) (freeRating s0) s
  | 0x13 => resetWarm path s
  | _ => plainCommand path op id s

/-- Whether a table offset is a shadow table's (R280). -/
def shadowTab (t : Nat) : Bool := (decide (0x300 ≤ t) && decide (t < 0x500)) || (decide (0x2000 ≤ t) && decide (t < 0x3000))

/-- A write of a fabric table: FAB_PLAN outside a job; the shadow tables while no switch is armed and no grace period runs; the active tables are read-only
(R278, R280, R297). -/
def tabWrite (path : Path) (fd t : Nat) (v : Word) (s : State) : State :=
  let f := getFab fd s
  let o := tabBase fd + t
  if t < 0x100 then
    if inJob s then rejectWrite path o v.toNat s
    else csrSet 0 o (BitVec.ofNat 32 (if t % 8 = 0 ∧ t < 0x48 then v.toNat &&& 0x301FFFFF else 0)) s
  else if shadowTab t then
    if f.armedAt.isSome ∨ f.grace then rejectWrite path o v.toNat s
    else if t < 0x500 then csrSet 0 o (BitVec.ofNat 32 (if t % 8 = 0 then v.toNat % 16 else 0)) s
    else csrSet 0 o v s
  else s

/-- A write of PORT_CTRL: its fields, then ENABLE, ADMIT, RETRAIN and SELFTEST act (R275, R277). -/
def portCtrl (p : Nat) (base : Nat) (r : Reg) (v : Nat) (s : State) : State :=
  let old := getF base R.PORT_CTRL_ENABLE s
  let s := regStore base r v s
  let s := if !bitAt v 0 && old = 1 then portDisable p s else if bitAt v 0 && old = 0 then portEnable p s else s
  let s := if bitAt v 8 then portAdmit p s else s
  let s := if bitAt v 9 ∧ portState p s ≠ 0 then portRetrain p s else s
  if bitAt v 10 then portSelftest p s else s

/-- A write of HAL_CFG: a port disabled goes down at once, one enabled trains (R294). -/
def halCfg (base : Nat) (r : Reg) (v : Nat) (s : State) : State :=
  let s := regStore base r v s
  [0, 1].foldl (fun s p =>
    let st := getF halBase (halState p) s
    if !bitAt v p && st ≠ 0 then setF halBase (halState p) 0 (halPortDown p s)
    else if bitAt v p && st = 0 then setF halBase (halState p) 2 s
    else s) s

/-- Registers of the checkpoint controller whose writes in RUNNING are ignored (R391). -/
def ckpGuarded (off : Nat) : Bool :=
  [0x28, 0x2C, 0x30, 0x34, 0x48, 0x4C, 0x50, 0x54, 0x58, 0x5C, 0x60, 0x64, 0x68, 0x70, 0x74].contains off

/-- A write of CKP_CFG: in RUNNING only AUDIT_EN takes effect; else ENABLE acts (R357, R391). -/
def ckpCfg (base : Nat) (r : Reg) (v : Nat) (s : State) : State :=
  let s1 := regStore base r v s
  if s.pkg = .running then
    let now := fun (s : State) => putBits (csrGet R.CKP_CFG_ENABLE.word base s).toNat 1 1 0
    let s2 := setF base R.CKP_CFG_AUDIT_EN (v / 2) s
    if now s1 = now s then s2 else ckpReject base v s2
  else if bitAt v 0 then ckpEnable s1
  else s1

/-- A write of a register of the checkpoint controller. -/
def ckpWrite (path : Path) (base : Nat) (r : Reg) (v : Word) (s : State) : State :=
  let n := v.toNat
  if r.off = 0 then ckpCfg base r n s
  else if ckpGuarded r.off ∧ s.pkg = .running then ckpReject (base + r.off) n s
  else if r.off = 0x18 then boundary path v s
  else if r.off = 0x1C then { s with ckp := { s.ckp with boundaryHi := v } }
  else if r.off = 0xD0 then auditGo (n % 2 ^ 16) s
  else if r.off = 0xE8 then if bitAt n 31 then suspicionClear path s else s
  else regStore base r n s

/-- A write of a register of the counter and digest block (R343, R344, R352). -/
def gctWrite (path : Path) (base : Nat) (r : Reg) (v : Word) (s : State) : State :=
  let n := v.toNat
  if r.off = 0x18 then setF base R.GCT_SET_LO_VALUE n s
  else if r.off = 0x1C then gctSet path (BitVec.ofNat 64 (getF base R.GCT_SET_LO_VALUE s + n * 2 ^ 32)) s
  else if 0x60 ≤ r.off ∧ r.off < 0x78 then if s.dig.isSome then s else regStore base r n s
  else if r.off = 0x78 then if bitAt n 0 then digGo (n / 2 % 2) s else s
  else regStore base r n s

/-- A write of a register of a fabric die (R278, R280, R297). -/
def fabWrite (path : Path) (fd base : Nat) (r : Reg) (v : Nat) (s : State) : State :=
  if r.off = 0x10 then if inJob s then rejectWrite path (base + r.off) v s else regStore base r v s
  else if r.off = 0x20 then
    let s := regStore base r v s
    let s := if bitAt v 8 then epochArm fd s else s
    if bitAt v 9 then epochDisarm fd s else s
  else if r.off = 0x28 ∨ r.off = 0x2C then
    if (getFab fd s).armedAt.isSome then rejectWrite path (base + r.off) v s else regStore base r v s
  else regStore base r v s

/-- A write of a register, by block (R422). -/
def regWrite (path : Path) (k : Blk) (n base : Nat) (r : Reg) (v : Word) (s : State) : State :=
  let x := v.toNat
  let o := base + r.off
  match k with
  | .mx =>
    if r.off = 0x40 then mxRestore path n v s
    else if r.off = 0x118 then vxResume n (x % 4) s
    else if r.off = 0x158 then vxRestore path n v s
    else regStore base r x s
  | .sx => if r.off = 0x50 then sxRestore path n v s else regStore base r x s
  | .asy => if r.off = 0x48 then asyRestore path n v s else regStore base r x s
  | .por => if r.off = 0x48 then porRestore path n v s else regStore base r x s
  | .slv => if r.off = 0x58 then slvRestore path n v s else regStore base r x s
  | .seq | .dsp | .rt | .pkg => regStore base r x s
  | .mem =>
    if r.off = 0x30 then if bitAt x 8 then retrainTrigger n (x % 32) s else s
    else if r.off = 0x38 then if bitAt x 8 then selftest n (x % 32) s else s
    else if r.off = 0x3C then if bitAt x 8 then memAdmit n (x % 32) s else s
    else regStore base r x s
  | .memp => if r.off = 0 then spreadWrite path x s else regStore base r x s
  | .dep =>
    if r.off = 0x48 then if bitAt x 0 then depFlush (Fin.ofNat 4 n) s else s
    else if r.off = 0x4C then if bitAt x 0 then depInval path (Fin.ofNat 4 n) s else s
    else regStore base r x s
  | .fab => fabWrite path n base r x s
  | .port => if r.off = 0 then portCtrl n base r x s else regStore base r x s
  | .hal =>
    if r.off = 0 then halCfg base r x s
    else if 0x10 ≤ r.off ∧ r.off ≤ 0x18 then
      if s.pkg = .standby ∨ s.pkg = .service ∨ s.pkg = .ready then regStore base r x s else rejectWrite path o x s
    else regStore base r x s
  | .col =>
    if r.off = 0x40 ∨ r.off = 0x44 then
      if s.pkg = .ready ∨ s.pkg = .admitted then regStore base r x s else rejectWrite path o x s
    else if r.off = 0x70 then colRestore path v s
    else regStore base r x s
  | .gct => gctWrite path base r v s
  | .ckp => ckpWrite path base r v s
  | .pwr =>
    if r.off = 0x10 then prefWrite x s
    else if r.off = 0x14 then hostOpWrite x s
    else if r.off = 0x18 then capWrite x s
    else regStore base r x s
  | .cmd =>
    if r.off = 0x04 then if bitAt x 0 then goCommand path s else s
    else if cmdBusy s then s
    else regStore base r x s
  | .evr => if r.off = 0x28 then if bitAt x 0 then evrClear path x s else s else regStore base r x s
  | .sec =>
    if r.off = 0x20 then if bitAt x 0 then nonceGen s else s
    else if r.off = 0x58 then cairnSel x s
    else if r.off = 0x64 then cairnCompact path x s
    else if r.off = 0x78 then flashUnlock (x % 4) s
    else regStore base r x s

/-- A word written into the flash window programs four bytes of the unlocked bank (R445, R446, R474), in the page the window shows. -/
def flashWord (path : Path) (t : Nat) (v : Word) (s : State) : State :=
  match s.sec.unlocked with
  | none => s
  | some b =>
    if s.pkg ≠ .off ∧ getF secBase R.SEC_STATUS_BANK s = b then rejectWrite path (secBase + 0x2000 + t) v.toNat s
    else { s with sec := { s.sec with flash := memWriteN zeroByte (flashAt b t s) v.toNat 4 s.sec.flash } }

/-- A write at a 4-byte aligned offset. -/
def csrPut (path : Path) (o : Nat) (v : Word) (s : State) : Host.Outcome State Fault Refusal :=
  match csrPlace o with
  | .reg k n base r => .next (regWrite path k n base r v s)
  | .vxWin p t => .next (vxWindow path p t v s)
  | .seqWin c t => seqWindow path c t v s
  | .dspWin d t => windowWrite path (sFind s.imgDsp d) (dspBase d + 0x800) t v (fun x s => setDsp d x s) s
  | .slvWin e t => windowWrite path (sFind s.imgSlv e) (slvBase e + 0x800) t v (fun x s => setEng (kSlv e) x s) s
  | .colWin t => windowWrite path s.imgCol (colBase + 0x8000) t v
      (fun x s => colShow (setEng kCol { getEng kCol s with queue := x.runs.map (fun r => r.ins) } { s with col := x })) s
  | .group t => .next (groupPut path t v s)
  | .fabTab f t => .next (tabWrite path f t v s)
  | .cursor k t => .next (if t = 0 then curSeq k v s else if t = 4 then curNext k s else s)
  | .flashWin t => .next (flashWord path t v s)
  | .cap _ | .cairnWin _ | .certWin _ | .reserved | .unmapped => .next s

end Sys2Proof.Machine
end

