-- ==== Sys2Proof/Machine/Csr.lean ====
section
/-! DEFINITION. The CSR root (R417, R418, R424, R425): who reaches what, slow accesses, and the commands that access the space. -/

namespace Sys2Proof.Machine

/-- Go on with the next state. -/
def andThen (r : Host.Outcome State Fault Refusal) (f : State → Host.Outcome State Fault Refusal) : Host.Outcome State Fault Refusal :=
  match r with
  | .next s => f s
  | .fault x => .fault x
  | .refused x => .refused x

/-- An unmapped access is counted; the first since the last read gives OFFSET (R418). -/
def csrErr (o : Nat) (s : State) : State :=
  let s := if getF pkgBase R.PKG_CSR_ERR_COUNT s = 0 then setF pkgBase R.PKG_CSR_ERR_OFFSET (o / 2 ^ 10) s else s
  bumpF pkgBase R.PKG_CSR_ERR_COUNT 1 s

/-- Whether an offset is unmapped for a path: not a multiple of 4, covered by no capability, or beyond the regions of the sideband (R417, R418). -/
def csrUnmapped (path : Path) (o : Nat) : Bool :=
  o % 4 ≠ 0 || csrPlace o = .unmapped || (path = .sideband && decide (0x060000 ≤ o))

/-- What a Drover core reaches: its own cluster, and the Depot and Dispatcher of its own die (R133). -/
def droverReach (cl o : Nat) : Bool :=
  let d := dieBase (cl / 9)
  (decide (clusterBase cl ≤ o) && decide (o < clusterBase cl + 0x40000)) || (decide (d + 0x300000 ≤ o) && decide (o < d + 0x380000))

/-! ### The end of an access -/

/-- Put a half into the data of the Halter read in progress; after the last half the CSR_RSP message is ready to leave (R290, R417). -/
def halterData (a : CsrAcc) (v : Nat) (s : State) : State :=
  let d := BitVec.ofNat 64 (putBits s.root.rdHalter.toNat (32 * a.half) 32 v)
  if a.last then
    { s with root := { s.root with rdHalter := 0, rsps := s.root.rsps ++ [⟨0x22, 3, 0, false, a.txid, 0, 0, [BitVec.ofNat 1024 d.toNat]⟩] } }
  else { s with root := { s.root with rdHalter := d } }

/-- A package sequencer core whose access ends goes on: a read gives its data to the destination register. Wait 65 is a read, 66 a write; `half` numbers the
access, so that an answer to an abandoned one reaches nobody. -/
def coreData (n : Nat) (a : CsrAcc) (v : Nat) (s : State) : State :=
  let c := 36 + n
  let k := getCore c s
  match k.wait with
  | none => s
  | some r =>
    if k.st = .waiting ∧ r.value = BitVec.ofNat 64 a.half ∧ a.half ≠ 0 then
      if r.op = 65 then retire c (setG (r.target.getD 0) (BitVec.ofNat 64 v) k) s
      else if r.op = 66 then retire c k s
      else s
    else s

/-- An access ends: its requester has the data of a read. -/
def accDone (a : CsrAcc) (v : Nat) (s : State) : State :=
  match a.path with
  | .psc n => coreData n a v s
  | .halter => if a.data.isNone then halterData a v s else s
  | .sideband => if a.data.isNone then { s with pins := { s.pins with sbData := some (BitVec.ofNat 32 v) } } else s
  | .drover _ => s

/-- An access takes effect in its block and ends. -/
def accDo (a : CsrAcc) (s : State) : Host.Outcome State Fault Refusal :=
  match a.data with
  | some v => andThen (csrPut a.path a.off v s) (fun s => .next (accDone a 0 s))
  | none =>
    let r := csrRead a.path a.off s
    .next (accDone a r.1 r.2)

/-- An access to an unpowered die: all ones, or ignored, and counted (R425). -/
def accOff (a : CsrAcc) (s : State) : State := accDone a (2 ^ 32 - 1) (bumpF pkgBase R.PKG_XD_OFF_COUNT 1 s)

/-- The root serves one access (R418, R424, R425). -/
def serve (a : CsrAcc) (s : State) : Host.Outcome State Fault Refusal :=
  if csrUnmapped a.path a.off then .next (accDone a 0 (csrErr a.off s))
  else match domOf a.off with
    | none => accDo a s
    | some d =>
      if !domPowered d s then .next (accOff a s)
      else if a.data.isSome ∧ getF pkgBase R.PKG_XD_MODE_MODE s = 1 ∧ d ≠ 23 then
        if crossing d s then .next (accDone a 0 s)
        else .next (accDone a 0 { s with root := { s.root with posted := sIns d a s.root.posted } })
      else .next { s with root := { s.root with held := some a } }

/-- The accesses that wait are served in order until one holds the root again; `fuel` bounds them. -/
def drain : Nat → State → Host.Outcome State Fault Refusal
  | 0, s => .next s
  | fuel + 1, s =>
    match s.root.held, s.root.waiting with
    | none, a :: l => andThen (serve a { s with root := { s.root with waiting := l } }) (drain fuel)
    | _, _ => .next s

/-- An access arrives at the root: it waits while the root is held (R424). -/
def arrive (a : CsrAcc) (s : State) : Host.Outcome State Fault Refusal :=
  if s.root.held.isSome then .next { s with root := { s.root with waiting := s.root.waiting ++ [a] } } else serve a s

/-- Whether the space answers at all: not in OFF, but while boot runs. -/
def csrUp (s : State) : Bool := s.pkg ≠ .off || s.pins.boot

/-- CSR_WRITE: a write by any requester; a Drover core's write reaches its own die directly (R417, R422, R424). -/
def csrWrite (path : Path) (o : Nat) (v : Word) (s : State) : Host.Outcome State Fault Refusal :=
  if !csrUp s then .next s
  else match path with
    | .drover cl => if droverReach cl o ∧ o % 4 = 0 then csrPut path o v s else .next s
    | _ => arrive ⟨path, o, some v, 0, 0, false⟩ s

/-! ### Crossings (R424, R425) -/

/-- The posted write of a domain takes effect, or is ignored by a die that has lost its power. -/
def landPosted (d : Nat) (s : State) : Host.Outcome State Fault Refusal :=
  match sFind s.root.posted d with
  | none => .next s
  | some a =>
    let s := { s with root := { s.root with posted := sDel d s.root.posted } }
    if domPowered d s then (match a.data with
      | some v => csrPut a.path a.off v s
      | none => .next s)
    else .next (bumpF pkgBase R.PKG_XD_OFF_COUNT 1 s)

/-- The access that holds the root crosses, and the root goes on. -/
def landHeld (d : Nat) (a : CsrAcc) (s : State) : Host.Outcome State Fault Refusal :=
  let s := { s with root := { s.root with held := none } }
  andThen (if domPowered d s then accDo a s else .next (accOff a s)) (fun s => drain s.root.waiting.length s)

/-- SLOW_WRITE_CROSSED: a posted write of the domain, else the write that holds the root. -/
def writeCrossed (d : Nat) (s : State) : Host.Outcome State Fault Refusal :=
  if crossing d s then landPosted d s
  else match s.root.held with
    | some a => if domOf a.off = some d ∧ a.data.isSome then landHeld d a s else .next s
    | none => .next s

/-- SLOW_READ_CROSSED: accesses to one block cross in order, so a posted write takes effect first. -/
def readCrossed (d : Nat) (s : State) : Host.Outcome State Fault Refusal :=
  match s.root.held with
  | some a => if domOf a.off = some d ∧ a.data.isNone then andThen (landPosted d s) (landHeld d a) else .next s
  | none => .next s

/-- An abandoned access is counted and recorded (R425). -/
def abandoned (a : CsrAcc) (s : State) : State :=
  raise 0 0x07 1 a.off 0 (setF pkgBase R.PKG_XD_STATUS_TIMEOUT 1 (bumpF pkgBase R.PKG_XD_STATUS_TO_COUNT 1 s))

/-- SLOW_ACCESS_ABANDON: the posted write of the domain, else the access that holds the root; a read returns all ones. -/
def accessAbandon (d : Nat) (s : State) : Host.Outcome State Fault Refusal :=
  match sFind s.root.posted d with
  | some a => .next (abandoned a { s with root := { s.root with posted := sDel d s.root.posted } })
  | none =>
    match s.root.held with
    | some a =>
      if domOf a.off = some d then
        let s := accDone a (2 ^ 32 - 1) (abandoned a { s with root := { s.root with held := none } })
        drain s.root.waiting.length s
      else .next s
    | none => .next s

/-! ### Core accesses (R133, R140, R161) -/

/-- CSRRD and CSRWR: offset g[P] + IMM12; D is the destination, or the register whose low word is written. -/
def coreCsr (wr : Bool) (c : Fin 44) (w : BitVec 22) (s : State) : Host.Outcome State Fault Refusal :=
  let k := getCore c s
  if canRetire k then
    match fetchFault k s with
    | some f => .next (faultHere c f k.pc.toNat s)
    | none =>
      let o := (getG k (fP w) + BitVec.ofInt 64 (fImm w)).toNat
      let a := (0xF00000000000 + o) % 2 ^ 64
      if o % 4 ≠ 0 then .next (faultHere c 4 a s)
      else if o ≥ 2 ^ 26 then .next (faultHere c 3 a s)
      else
        let v := BitVec.ofNat 32 (getG k (fD w)).toNat
        if h : c.val < 36 then
          if !droverReach c o then .next (faultHere c 3 a s)
          else if wr then andThen (csrPut (.drover ⟨c.val, h⟩) o v s) (fun s => .next (retire c (getCore c s) s))
          else
            let r := csrRead (.drover ⟨c.val, h⟩) o s
            .next (retire c (setG (fD w) (BitVec.ofNat 64 r.1) (getCore c r.2)) r.2)
        else
          let id := s.fresh + 1
          let wt : WaitRec := ⟨if wr then 66 else 65, s.count, some (fD w), BitVec.ofNat 64 o, BitVec.ofNat 64 id, 0, none⟩
          let s := setCore c { k with st := .waiting, wait := some wt } { s with fresh := id }
          arrive ⟨.psc (Fin.ofNat 8 (c.val - 36)), o, if wr then some v else none, 0, id, true⟩ s
  else .next s

/-! ### Halter accesses (R290, R417) -/

/-- The accesses of a Halter CSR message: the halves whose four enables are set, the lower first; `line` carries the CSR offset. -/
def halterAccs (m : HalMsg) (wr : Bool) : List CsrAcc :=
  let o := m.line.toNat % 2 ^ 26
  let en := fun i => bitsAt m.pmask.toNat (4 * i) 4 = 15
  let data := fun i => if wr then some (BitVec.ofNat 32 ((m.lines.headD 0).toNat / 2 ^ (32 * i))) else none
  let top := if en 1 then 1 else 0
  ([0, 1].filter (fun i => en i)).map (fun i => ⟨.halter, o + 4 * i, data i, m.txid, i, decide (i = top)⟩)

/-- The accesses of a message arrive in turn. -/
def arriveAll : List CsrAcc → State → Host.Outcome State Fault Refusal
  | [], s => .next s
  | a :: l, s => andThen (arrive a s) (arriveAll l)

/-- CSR_RD: a message that enables no whole half is answered with zeros. -/
def halterRd (m : HalMsg) (s : State) : Host.Outcome State Fault Refusal :=
  if m.opc.toNat ≠ 0x20 ∨ !csrUp s then .next s
  else match halterAccs m false with
    | [] => .next { s with root := { s.root with rsps := s.root.rsps ++ [⟨0x22, 3, 0, false, m.txid, 0, 0, [0]⟩] } }
    | l => arriveAll l s

/-- CSR_WR. -/
def halterWr (m : HalMsg) (s : State) : Host.Outcome State Fault Refusal :=
  if m.opc.toNat ≠ 0x21 ∨ !csrUp s then .next s else arriveAll (halterAccs m true) s

/-- CSR_RSP: the oldest answer leaves. -/
def halterRsp (s : State) : State :=
  match s.root.rsps with
  | [] => s
  | m :: l => halPut m { s with root := { s.root with rsps := l } }

/-- CSR_WRITE (R422). -/
def execCsrWrite (path : Path) (off : BitVec 26) (val : Word) (s : State) : Host.Outcome State Fault Refusal := csrWrite path off.toNat val s
/-- SLOW_WRITE_CROSSED (R424). -/
def execSlowWriteCrossed (dom : Fin 24) (s : State) : Host.Outcome State Fault Refusal := writeCrossed dom s
/-- SLOW_READ_CROSSED (R424). -/
def execSlowReadCrossed (dom : Fin 24) (s : State) : Host.Outcome State Fault Refusal := readCrossed dom s
/-- SLOW_ACCESS_ABANDON (R425). -/
def execSlowAccessAbandon (dom : Fin 24) (s : State) : Host.Outcome State Fault Refusal := accessAbandon dom s
/-- CSRRD (R140). -/
def execCsrrd (c : Fin 44) (w : BitVec 22) (s : State) : Host.Outcome State Fault Refusal := coreCsr false c w s
/-- CSRWR (R140). -/
def execCsrwr (c : Fin 44) (w : BitVec 22) (s : State) : Host.Outcome State Fault Refusal := coreCsr true c w s
/-- CSR_RD (R417). -/
def execCsrRd (m : HalMsg) (s : State) : Host.Outcome State Fault Refusal := halterRd m s
/-- CSR_WR (R417). -/
def execCsrWr (m : HalMsg) (s : State) : Host.Outcome State Fault Refusal := halterWr m s
/-- CSR_RSP (R291). -/
def execCsrRsp (s : State) : Host.Outcome State Fault Refusal := .next (halterRsp s)

end Sys2Proof.Machine
end

