-- ==== Sys2Proof/Machine/Remote.lean ====
section
/-! DEFINITION. The memory messages of the fabric (R264, R269 to R274), each with what it wakes in the checkpoint controller. -/

namespace Sys2Proof.Machine

/-- An answer is taken, and the controller's traffic goes on; one that answers no outstanding request wakes nothing (R273). -/
def answerWake (fd : Nat) (m : Msg) (take : State → State) (s : State) : State :=
  if (getFab fd s).txns.any (fun x => x.txid = m.hdr.txid) then ckpWake (take s) else take s

/-- A request or response of an opcode arrives; a message of another opcode is not this command. -/
def memMsg (opc fd : Nat) (m : Msg) (s : State) : State :=
  if m.hdr.opc.toNat ≠ opc then s
  else ingress fd m (fun s =>
    match opc with
    | 1 => onRd fd m s
    | 2 => answerWake fd m (onRdrsp fd m) s
    | 3 => onWr fd m s
    | 4 => answerWake fd m (onWrack fd m) s
    | _ => answerWake fd m (onNack fd m) s) s

/-- DEAD_TARGET_EXPIRY, with its effect on a drain, an audit or a restore (R272, R371, R383). -/
def expire (fd : Nat) (t : BitVec 15) (s : State) : State :=
  match (getFab fd s).txns.find? (fun x => x.txid = t) with
  | none => s
  | some x =>
    let s := deadExpiry fd t s
    if x.owner = .eng kCkp then ckpDead x.isRead s else s

/-- RD (R270). -/
def execRd (fd : Fin 2) (m : Msg) (s : State) : Host.Outcome State Fault Refusal :=
  .next (memMsg 1 fd m s)

/-- RDRSP (R264, R273). -/
def execRdrsp (fd : Fin 2) (m : Msg) (s : State) : Host.Outcome State Fault Refusal :=
  .next (memMsg 2 fd m s)

/-- WR (R270). -/
def execWr (fd : Fin 2) (m : Msg) (s : State) : Host.Outcome State Fault Refusal :=
  .next (memMsg 3 fd m s)

/-- WRACK (R264). -/
def execWrack (fd : Fin 2) (m : Msg) (s : State) : Host.Outcome State Fault Refusal :=
  .next (memMsg 4 fd m s)

/-- CARAVAN_NACK (R274). -/
def execCaravanNack (fd : Fin 2) (m : Msg) (s : State) : Host.Outcome State Fault Refusal :=
  .next (memMsg 5 fd m s)

/-- DEAD_TARGET_EXPIRY (R272). -/
def execDeadTargetExpiry (fd : Fin 2) (txid : BitVec 15) (s : State) : Host.Outcome State Fault Refusal :=
  .next (expire fd txid s)

end Sys2Proof.Machine
end

