-- ==== Sys2Proof/Machine/Route.lean ====
section
/-! DEFINITION. The Route transport (R285 to R287), and what a message that arrived on a Caravan or Route port does (R264, R312, R361). -/

namespace Sys2Proof.Machine

/-! ### What a message is -/

/-- A number a message's slots carry in a layout no rule states: a free value that depends on the slots. -/
def freeField (n : Nat) (l : List Slot) : Nat := Config.freeResult 82 (packBits 128 (l.map BitVec.toNat) * 16 + n)

/-- The collective message of a header slot, its collective slot and its data slots (R312). -/
def colMsgOf (h : MsgHdr) (x : Slot) (data : List Slot) : ColMsg :=
  let v := x.toNat
  ⟨Fin.ofNat 256 (bitsAt v 120 8), BitVec.ofNat 16 (bitsAt v 104 16), BitVec.ofNat 4 (bitsAt v 96 4), h.src, BitVec.ofNat 16 (bitsAt v 80 16),
   BitVec.ofNat 16 (bitsAt v 64 16), h.line, BitVec.ofNat 64 v, h.pmask, data⟩

/-- The call signature of a JOIN; its layout is not stated. -/
def joinSig (l : List Slot) : CallSig :=
  ⟨freeField 0 l, freeField 1 l, freeField 2 l, freeField 3 l, freeField 4 l, freeField 5 l, freeField 6 l, freeField 7 l⟩

/-- The vote of a data slot: STEP and the flags; the second STEP and the cuts of a restore have no stated place (R361, R376). -/
def voteOfSlots (l : List Slot) : VoteMsg :=
  let v := (l.headD 0).toNat
  ⟨bitsAt v 64 64, if bitsAt v 4 60 = 0 then bitsAt v 64 64 else freeField 0 l, bitAt v 0, bitAt v 1, bitAt v 2, bitAt v 3,
   if l.length ≤ 1 then none else some ((List.range 6).map (fun i => freeField (i + 1) l))⟩

/-- A DECIDE (R361, R363, R365, R366, R373, R376). -/
def decideOfSlots (l : List Slot) (s : State) : State :=
  let v := (l.headD 0).toNat
  let n := bitsAt ((l.getD 1 0).toNat) 0 64
  match bitsAt v 0 2 with
  | 0 => if s.ckp.phase = 3 then decideMsg 0 false 0 0 s else voteCheck (decideMsg 0 (bitAt v 2) (bitsAt v 64 64) 0 s)
  | 1 => decideMsg 1 false (bitsAt v 64 64) 0 s
  | 2 => if s.ckp.phase = 3 then decideMsg 2 false 0 0 s else decideMsg 2 false (bitsAt v 64 64) (n % 256) s
  | _ => decideMsg 3 false (bitsAt v 64 64) n s

/-- A message that carries a collective slot (R312, R361). -/
def colDeliver (h : MsgHdr) (x : Slot) (data : List Slot) (s : State) : State :=
  let m := colMsgOf h x data
  match bitsAt x.toNat 100 4 with
  | 0 => colArrive ⟨0, m, joinSig data, freeField 8 data % 5, 0⟩ s
  | 1 => colArrive (plainMail 1 m) s
  | 2 => colArrive (plainMail 2 m) s
  | 3 => colArrive { plainMail 3 m with n := freeField 0 data } s
  | 4 => colArrive { plainMail 4 m with n := freeField 0 data } s
  | 5 => progressTake m (freeField 0 data % 16) (freeField 1 data) s
  | 6 => onAbort m (freeField 0 data % 256) (freeField 1 data % 2 ^ 16) s
  | 7 => colArrive (plainMail 7 m) s
  | 8 => onPrepare h.src.toNat (freeField 0 data % 2 ^ 64) s
  | 9 => onReady h.src.toNat s
  | 10 => onGo s
  | 11 => onAdopt h.src.toNat (freeField 0 data % 2 ^ 16) s
  | 12 => onVote h.src.toNat (voteOfSlots data) s
  | 13 => decideOfSlots data s
  | _ => s

/-- Whether a CTRL message is a sync message (R345). -/
def isSync (h : MsgHdr) : Bool := h.opc = 7 && h.tag = 0 && h.line = BitVec.allOnes 41

/-- A COL or CTRL message reaches this package. Identity, epoch-mark, admission and audit messages have no stated layout and commands of
their own. -/
def slotDeliver (p : Nat) (m : Msg) (s : State) : State :=
  match m.slots with
  | [] => s
  | x :: data =>
    if isSync m.hdr then
      if bitsAt x.toNat 124 4 = 1 then syncRequest p m.hdr.src.toNat x s else syncResponse p x s
    else if m.hdr.vc = 3 && m.hdr.tag = 0 then s
    else colDeliver m.hdr x data s

/-- A message that came in on port `p`. -/
def deliver (p : Nat) (m : Msg) (s : State) : State :=
  let fd := portDie p
  let o := m.hdr.opc.toNat
  if 1 ≤ o ∧ o ≤ 5 then memMsg o fd m s else ingress fd m (slotDeliver p m) s

/-! ### Frames (R285 to R287) -/

/-- Whether Route port `r` carries frames. -/
def routeUp (r : Nat) (s : State) : Bool := fabUp s && portUsable (18 + r) s

/-- The VLAN tag this package's frames carry. -/
def routeVid (fd : Nat) (s : State) : Option (BitVec 12) :=
  if getF (rtBase fd) R.RT_CFG_VLAN_EN s = 1 then some (BitVec.ofNat 12 (getF (rtBase fd) R.RT_CFG_VID s)) else none

/-- Receive a frame of TYPE `typ`: a foreign one and one with a bad CRC are discarded and counted; the rest goes to `body`. -/
def routeFrameIn (r typ : Nat) (f : RouteFrame) (body : State → State) (s : State) : State :=
  let b := rtBase (routeDie r)
  if !routeUp r s then s
  else if f.vid ≠ routeVid (routeDie r) s ∨ f.etherType ≠ 0xA3C1 then bumpF b R.RT_FOREIGN_COUNT 1 s
  else if f.crc.toNat ≠ routeCrc f then bumpF b R.RT_CRC_COUNT 1 s
  else if f.dst.toNat ≠ pkgNum s ∨ f.typ.toNat ≠ typ then s
  else body (addPair (portBase (18 + r)) R.PORT_RX_BYTES_LO_VALUE R.PORT_RX_BYTES_HI_VALUE (16 * f.slots.length) s)

/-- Whether ACK_SEQ and SACK acknowledge a SEQ. -/
def routeAcked (ack sack q : BitVec 32) : Bool :=
  decide ((ack - q).toNat < 2 ^ 31) || (decide ((q - ack - 1).toNat < 32) && bitAt sack.toNat (q - ack - 1).toNat)

/-- Acknowledged frames leave the window. -/
def routeRelease (fd : Nat) (f : RouteFrame) (s : State) : State :=
  let k := peerKey fd f.src.toNat
  match sFind s.peers k with
  | none => s
  | some p => routeFlush fd k (p.queue.length + 1) (setPeer k { p with window := p.window.filter (fun e => !routeAcked f.ackSeq f.sack e.1.seq) } s)

/-- Advance the next SEQ expected over what came early. -/
def routeAdvance : Nat → RoutePeer → RoutePeer
  | 0, p => p
  | n + 1, p =>
    if p.rxBeyond.contains p.rxNext then
      routeAdvance n { p with rxNext := p.rxNext + 1, rxBeyond := p.rxBeyond.filter (· ≠ p.rxNext) }
    else p

/-- A START frame with SEQ 0 begins anew when the window of 64 rules out that it is a repetition (R287 does not say how a receiver tells). -/
def routeStart (f : RouteFrame) (p : RoutePeer) : RoutePeer :=
  if f.flags.toNat % 2 = 1 ∧ f.seq = 0 ∧ p.rxNext.toNat > 64 then { p with rxNext := 0, rxBeyond := [] } else p

/-- Whether a SEQ was received before. -/
def routeSeen (q : BitVec 32) (p : RoutePeer) : Bool := decide ((q - p.rxNext).toNat ≥ 2 ^ 31) || p.rxBeyond.contains q

/-- Acknowledge to a peer. -/
def routeAckSend (r : Nat) (peer : BitVec 16) (s : State) : State :=
  let fd := routeDie r
  let p := getPeer (peerKey fd peer.toNat) s
  routeOut r (routeFrame r 1 peer.toNat p.txSeq [] p s) s

/-- A DATA frame: acknowledged; its messages are delivered once (R287). -/
def routeData (r : Nat) (f : RouteFrame) (s : State) : State :=
  routeFrameIn r 0 f (fun s =>
    let fd := routeDie r
    let k := peerKey fd f.src.toNat
    let s := routeRelease fd f (peerRoom fd k s)
    let p := routeStart f (getPeer k s)
    if routeSeen f.seq p then routeAckSend r f.src (bumpF (rtBase fd) R.RT_DUP_COUNT 1 s)
    else
      let p := routeAdvance 65 { p with rxBeyond := f.seq :: p.rxBeyond }
      let s := routeAckSend r f.src (setPeer k p s)
      (cutCaravan (f.slots.take f.nslots.toNat)).1.foldl (fun s m => deliver (18 + r) m s) s) s

/-- An announce frame to the broadcast address; its DST is not stated. -/
def routeAnnounce (r : Nat) (s : State) : State :=
  if routeUp r s then
    emit (.route r (routeFrame r 2 (Config.freeResult 72 1) 0 [] RoutePeer.init s)) s
  else s

/-- The retransmission timer of a frame (R287). -/
def routeRto (fd : Nat) (peer : BitVec 16) (q : BitVec 32) (s : State) : State :=
  let k := peerKey fd peer.toNat
  let p := getPeer k s
  match p.window.find? (fun e => e.1.seq = q) with
  | none => s
  | some e =>
    if e.2 ≥ effF (rtBase fd) R.RT_RTO_MAX_TX R.RT_CFG_LEVEL s then routeUnreachable fd k p s
    else
      let s := setPeer k { p with window := p.window.map (fun x => if x.1.seq = q then (x.1, x.2 + 1) else x) } s
      routeOut (routePort fd (hdrOf ((e.1.slots.headD 0).toNat)) s) e.1 (bumpF (rtBase fd) R.RT_RETX_COUNT 1 s)

/-- ROUTE_DATA (R286, R287). -/
def execRouteData (r : Fin 4) (f : RouteFrame) (s : State) : Host.Outcome State Fault Refusal := .next (routeData r f s)
/-- ROUTE_ACK (R287). -/
def execRouteAck (r : Fin 4) (f : RouteFrame) (s : State) : Host.Outcome State Fault Refusal :=
  .next (routeFrameIn r 1 f (routeRelease (routeDie r) f) s)
/-- ROUTE_ANNOUNCE (R285). -/
def execRouteAnnounce (r : Fin 4) (s : State) : Host.Outcome State Fault Refusal := .next (routeAnnounce r s)
/-- ROUTE_RTO_EXPIRY (R287). -/
def execRouteRtoExpiry (fd : Fin 2) (peer : BitVec 16) (seq : BitVec 32) (s : State) : Host.Outcome State Fault Refusal :=
  .next (routeRto fd peer seq s)

end Sys2Proof.Machine
end

