-- ==== Sys2Proof/Machine/Flit.lean ====
section
/-! DEFINITION. The link layer of Caravan and Halter ports: flits, their checks, acknowledgements and credits (R260, R261), and what a
Halter message that arrived in flits does (R289 to R291). -/

namespace Sys2Proof.Machine

/-! ### Halter messages in slots (R289) -/

/-- The slots after a Halter message's header: whole lines, or one slot of a CSR message. -/
def halBodySlots (v : Nat) : Nat :=
  match bitsAt v 122 6 with
  | 0x05 | 0x12 | 0x13 | 0x14 | 0x18 | 0x19 => 8 * (bitsAt v 117 3 + 1)
  | 0x21 | 0x22 => 1
  | _ => 0

/-- The lines that slots carry. -/
def slotLines : Nat → List Slot → List Line
  | 0, _ => []
  | n + 1, l => BitVec.ofNat 1024 (slotsLine (l.take 8)) :: slotLines n (l.drop 8)

/-- The Halter message of a header slot and its data slots; a CSR message's one slot stands in the low bits of a line. -/
def halMsgOf (l : List Slot) : HalMsg :=
  let v := (l.headD 0).toNat
  let lines := if l.tail.length = 1 then l.tail.map (fun x => BitVec.ofNat 1024 x.toNat) else slotLines (l.tail.length / 8) l.tail
  ⟨BitVec.ofNat 6 (bitsAt v 122 6), BitVec.ofNat 2 (bitsAt v 120 2), BitVec.ofNat 3 (bitsAt v 117 3), bitAt v 116,
   BitVec.ofNat 16 (bitsAt v 96 16), BitVec.ofNat 41 (bitsAt v 8 41), BitVec.ofNat 8 v, lines⟩

/-- What a Halter message does (R290, R291, R417). -/
def halDeliver (m : HalMsg) (s : State) : Host.Outcome State Fault Refusal :=
  match m.opc.toNat with
  | 0x01 | 0x02 | 0x03 | 0x04 | 0x05 => .next (halAccept m s)
  | 0x08 => .next (halSnooped true m s)
  | 0x09 => .next (halSnooped false m s)
  | 0x10 => .next (onSnoopRsp false false m s)
  | 0x11 => .next (onSnoopRsp true false m s)
  | 0x12 => .next (onSnoopRsp false true m s)
  | 0x13 => .next (onSnoopRsp true true m s)
  | 0x14 => .next (afterSnoop (halWb m s))
  | 0x15 => .next (halComplete m s)
  | 0x18 | 0x19 => .next (halAnswered (decide (m.opc = 0x19)) m (m.lines.headD 0) (bitAt m.pmask.toNat 0) s)
  | 0x20 => halterRd m s
  | 0x21 => halterWr m s
  | 0x3F => .next (halNack m s)
  | _ => .next s

/-- Halter messages in turn. -/
def halDeliverAll : List HalMsg → State → Host.Outcome State Fault Refusal
  | [], s => .next s
  | m :: l, s => andThen (halDeliver m s) (halDeliverAll l)

/-! ### Flits (R260, R261) -/

/-- Whether a port receives flits: a Caravan port that has trained, while the fabric dies run; an enabled Halter port in every state of the package with power
(R428). -/
def flitPort (p : Nat) (s : State) : Bool :=
  if p < 18 then fabUp s && decide (portState p s ≥ 3)
  else if p < 22 then false
  else s.pkg ≠ .off && getF halBase (if p = 22 then R.HAL_CFG_PORT0_EN else R.HAL_CFG_PORT1_EN) s = 1

/-- A discarded flit: NAK goes out in the next header (R261). -/
def flitDiscard (p : Nat) (s : State) : State := sendIdle p (setLink p { getLink p s with nak := true } s)

/-- ACK, NAK and credit of a flit taken in order (R260 to R262); what waited for room in the replay buffer goes out. -/
def flitHeader (p : Nat) (f : Flit) (s : State) : State :=
  let l := getLink p s
  let keep := l.replay.filter (fun e => decide ((f.ack - e.last).toNat ≥ 2048))
  let moved := decide (keep.length < l.replay.length)
  let q := f.crQ.toNat
  let s := setLink p { l with nak := false, replay := keep, sends := if moved then 0 else l.sends,
                              spent := if f.crSlots = 0 then l.spent else sIns q (sGet 0 l.spent q - f.crSlots.toNat) l.spent } s
  let s := linkFlush p s
  if f.nak then (if p < 18 then portReplay p s else halReplay p s) else s

/-- Whether a port in its state takes a Caravan message: ACTIVE takes all, STANDBY only VC3 (R277). -/
def portTakes (p : Nat) (m : Msg) (s : State) : Bool := portState p s = 5 || (portState p s = 4 && m.hdr.vc = 3)

/-- Slots of receive credit to return to the far end for a message taken (R262). -/
def creditOwed (p : Nat) (b : LinkMsg) (s : State) : State :=
  let l := getLink p s
  setLink p { l with owed := addQueue (queueOf b) (bodyOf b).length l.owed } s

/-- What a message tells of the far end: one of another channel than VC3 comes from an ACTIVE end, and an admission message reports one; its layout is not stated,
so whether a CTRL message with tag 0 is one is free (R264, R277, log 187). -/
def farReports (m : Msg) : Bool :=
  m.hdr.vc ≠ 3 || (m.hdr.opc = 7 && m.hdr.tag = 0 && decide (freeField 9 m.slots % 2 = 1))

/-- A Caravan message of a port: counted, and delivered where the port carries it. -/
def portTake (p : Nat) (m : Msg) (s : State) : State :=
  let s := creditOwed p (.caravan m) (if farReports m then portFar p s else s)
  if portTakes p m s then
    deliver p m (addPair (portBase p) R.PORT_RX_BYTES_LO_VALUE R.PORT_RX_BYTES_HI_VALUE (msgBytes m) s)
  else s

/-- The messages of a data flit, with what earlier flits left unfinished. -/
def flitBody (p : Nat) (f : Flit) (s : State) : Host.Outcome State Fault Refusal :=
  let l := getLink p s
  let slots := l.asm ++ f.slots
  let l := { l with rxSeq := l.rxSeq + 1 }
  if p < 18 then
    let r := cutCaravan slots
    .next (r.1.foldl (fun s m => portTake p m s) (setLink p { l with asm := r.2 } s))
  else
    let r := cutMsgs halBodySlots (fun v => bitsAt v 122 6 = 0) slots.length slots
    let ms := r.1.map halMsgOf
    halDeliverAll ms (ms.foldl (fun s m => creditOwed p (.halter m) s) (setLink p { l with asm := r.2 } s))

/-- A Halter port that trains and hears a good flit is ACTIVE (no rule names the moment, log 67). -/
def halRevive (p : Nat) (s : State) : State :=
  if p < 22 then s
  else
    let k := p - 22
    if getF halBase (halState k) s = 5 then s
    else
      let s := setF halBase (halState k) 5 s
      setF halBase R.HAL_STATUS_DEGRADED (b2n (getF halBase (halState (1 - k)) s ≠ 5))
        (setF halBase R.HAL_STATUS_DOWN 0 { s with hal := { s.hal with down := false } })

/-- FEC codewords of a Caravan port corrected, and not corrected, while a flit came in: no command carries them, so they are free (R258, log 188). -/
def fecCount (p : Nat) (s : State) : State :=
  if p < 18 then
    let l := getLink p s
    setLink p { l with fecOk := min (2 ^ 24 - 1) (l.fecOk + Config.freeResult 96 s.fresh % 2), fecBad := min 255 (l.fecBad + Config.freeResult 101 s.fresh % 2) }
      { s with fresh := s.fresh + 1 }
  else s

/-- FLIT_RECEIVE: a flit with a bad CRC or an unexpected SEQ is discarded; an IDLE flit carries acknowledgements and credits only. -/
def flitReceive (p : Nat) (f : Flit) (s : State) : Host.Outcome State Fault Refusal :=
  if !flitPort p s then .next s
  else
    let s := fecCount p s
    if f.crc.toNat ≠ flitCrc f then
      .next (flitDiscard p (if p < 18 then bumpF (portBase p) R.PORT_REPLAY_CRC_ERRORS 1 s else s))
    else if f.seq ≠ (getLink p s).rxSeq then .next (flitDiscard p s)
    else
      let s := halRevive p s
      if f.idle then .next (flitHeader p f s)
      else andThen (flitBody p f s) (fun s => .next (flitHeader p f (sendIdle p s)))

/-- FLIT_RECEIVE (R260, R261). -/
def execFlitReceive (port : Fin 24) (f : Flit) (s : State) : Host.Outcome State Fault Refusal := flitReceive port f s

end Sys2Proof.Machine
end

