-- ==== Sys2Proof/Machine/Pins.lean ====
section
/-! DEFINITION. The contacts (R478 to R484): the 48 V input, the straps, the reference clock, the sideband and the TAP. -/

namespace Sys2Proof.Machine

/-! ### The 48 V input (R478) -/

/-- INPUT_OUT_OF_RANGE: the input enters a breach of 40 V to 60 V: counted, recorded, and a power-stage warning. -/
def inputOut (mv : Nat) (s : State) : State :=
  if csrUp s ∧ (mv < 40000 ∨ mv > 60000) then stageWarn (raise 0 0x09 1 0 0 (bumpF pkgBase R.PKG_INPUT_ERR_VIN_OUT 1 s)) else s

/-- INPUT_LOCKOUT: below 35 V or above 65 V for 100 us. -/
def inputLock (mv : Nat) (s : State) : State := if mv < 35000 ∨ mv > 65000 then stageFail s else s

/-! ### The straps (R479) -/

/-- The sampling of the straps: the slot, or the Caravan ports disabled until the next cold start. It acts before they are accepted, while boot runs or in
STANDBY. -/
def strapSample (a b c : BitVec 7) (s : State) : State :=
  if !csrUp s ∨ (s.pkg ≠ .off ∧ s.pkg ≠ .standby) ∨ s.pins.strapsBad ∨ getF pkgBase R.PKG_INPUTS_SLOT_OK s = 1 then s
  else if a = b ∧ b = c ∧ popCount a.toNat 7 % 2 = 0 then
    let k := a.toNat % 64
    let old := getF (fabBase 0) R.FAB_SELF_SLOT s
    let s := setF pkgBase R.PKG_INPUTS_SLOT k (setF pkgBase R.PKG_INPUTS_SLOT_PAR (a.toNat / 64) (setF pkgBase R.PKG_INPUTS_SLOT_OK 1
      { s with pins := { s.pins with straps := a } }))
    let s := [0, 1].foldl (fun s f => setF (fabBase f) R.FAB_SELF_SLOT k
      (csrSet 0 (tabBase f + 0x300 + 8 * old) 0 (csrSet 0 (tabBase f + 0x100 + 8 * old) 0 s))) s
    ownSlot s
  else
    let s := raise 0 0x09 1 c.toNat 0 { s with pins := { s.pins with strapsBad := true } }
    (List.range 18).foldl (fun s p => setPort p 0 s) s

/-- STRAP_CHANGE: after acceptance, recorded and counted. -/
def strapChange (v : BitVec 7) (s : State) : State :=
  if csrUp s ∧ getF pkgBase R.PKG_INPUTS_SLOT_OK s = 1 ∧ v ≠ s.pins.straps then
    raise 0 0x0B 1 (s.pins.straps.toNat + 2 ^ 7 * v.toNat) 0 (bumpF pkgBase R.PKG_INPUT_ERR_STRAP_CHANGES 1 { s with pins := { s.pins with straps := v } })
  else s

/-! ### The reference clock (R480) -/

/-- REFCLK_MEASURE: the offset in 0.1 ppm, and since when the clock has been within 100 ppm, or absent or beyond 150 ppm. -/
def refMeasure (off : BitVec 16) (present : Bool) (s : State) : State :=
  if !csrUp s then s
  else
    let n := off.toInt.natAbs
    let good := present && decide (n ≤ 1000)
    let bad := !present || decide (n > 1500)
    let since := fun (on : Bool) (t : Option DWord) => if on then some (t.getD s.count) else none
    setF pkgBase R.PKG_REFCLK_OFFSET off.toNat (setF pkgBase R.PKG_REFCLK_IN_RANGE (b2n good)
      { s with pins := { s.pins with refGood := since good s.pins.refGood, refBad := since bad s.pins.refBad } })

/-- Whether `ns` have passed since a moment. -/
def lasted (t : Option DWord) (ns : Nat) (s : State) : Bool :=
  match t with
  | some t => decide (t.toNat + ns ≤ s.count.toNat)
  | none => false

/-- REFCLK_SWITCH: to the local oscillator. -/
def refSwitch (s : State) : State :=
  if csrUp s ∧ lasted s.pins.refBad 100000 s ∧ getF pkgBase R.PKG_INPUTS_REFCLK_SRC s = 0 then
    raise 0 0x0A 1 0 0 (bumpF pkgBase R.PKG_INPUT_ERR_REFCLK_LOSS 1 (setF pkgBase R.PKG_INPUTS_REFCLK_SRC 1 s))
  else s

/-- REFCLK_RETURN: in STANDBY, READY or SLEEP, unless the return is disabled. -/
def refReturn (s : State) : State :=
  if (s.pkg = .standby ∨ s.pkg = .ready ∨ s.pkg = .sleep) ∧ lasted s.pins.refGood 100000000 s ∧ getF pkgBase R.PKG_INPUTS_REFCLK_SRC s = 1
      ∧ effF pkgBase R.PKG_INPUT_CFG_REFCLK_RETURN R.PKG_INPUT_CFG_LEVEL s = 1 then
    raise 0 0x0A 1 0 0 (setF pkgBase R.PKG_INPUTS_REFCLK_SRC 0 s)
  else s

/-! ### The sideband (R482, R483) -/

/-- Whether the sideband is an I3C target. -/
def i3c (s : State) : Bool := csrUp s && getF pkgBase R.PKG_INPUTS_SB_MODE s = 1

/-- SB_WRITE: a CSR write frame. -/
def sbWrite (off v : Word) (s : State) : Host.Outcome State Fault Refusal :=
  if csrUp s then arrive ⟨.sideband, off.toNat, some v, 0, 0, false⟩ s else .next s

/-- SB_SET_OFFSET: the read offset. No register within the sideband's reach is slow, so nothing is prepared (R417, R424). -/
def sbOffset (off : Word) (s : State) : State :=
  if csrUp s then { s with pins := { s.pins with sbOff := off.toNat, sbData := none } } else s

/-- Data that is ready leaves; without it the read header is refused. -/
def sbAnswer (s : State) : State :=
  match s.pins.sbData with
  | some v => emit (.sideband (natBytes v.toNat 4)) { s with pins := { s.pins with sbData := none } }
  | none => emit (.control "SB_NACK" 0 []) s

/-- SB_READ: the data at the read offset, once the root has served the read. -/
def sbRead (s : State) : Host.Outcome State Fault Refusal :=
  if !csrUp s then .next s
  else if s.pins.sbData.isSome ∨ s.root.waiting.any (fun a => a.path = .sideband && a.data.isNone) then .next (sbAnswer s)
  else andThen (arrive ⟨.sideband, s.pins.sbOff, none, 0, 0, false⟩ s) (fun s => .next (sbAnswer s))

/-- SB_READ_EVENT_SEQ, SMBus only: the SEQ of the newest record that raises the alert, which is released. -/
def sbEventSeq (s : State) : State :=
  if csrUp s ∧ getF pkgBase R.PKG_INPUTS_SB_MODE s = 0 then
    let l := s.log.recs.filter (fun r => decide (r.sev ≥ getF evrBase R.EVR_CFG_IBI_SEV s))
    let q := match l.getLast? with
      | some r => r.seq
      | none => 0
    emit (.sideband (natBytes q.toNat 4)) { s with log := { s.log with ibi := false } }
  else s

/-- The sideband interface is reset: its read offset and prepared data. -/
def sbReset (s : State) : State := { s with pins := { s.pins with sbOff := 0, sbData := none } }

/-- SB_BUS_STUCK. -/
def sbStuck (s : State) : State :=
  if csrUp s then raise 0 0x0C 1 0 0 (bumpF pkgBase R.PKG_INPUT_ERR_SB_TIMEOUT 1 (sbReset s)) else s

/-- ENTDAA and SETDASA: a target without a dynamic address takes one. -/
def sbAddress (a : BitVec 7) (s : State) : State :=
  if i3c s ∧ s.pins.sbAddr.isNone then { s with pins := { s.pins with sbAddr := some a } } else s

/-- A common command that returns `n` bytes, whose values no rule states: free values. -/
def sbFree (i n : Nat) (s : State) : State :=
  if i3c s then emit (.sideband (natBytes (Config.freeResult 93 i) n)) s else s

/-- ENTDAA: the target sends its 8 identity bytes and takes the address. -/
def sbEntdaa (a : BitVec 7) (s : State) : State := if s.pins.sbAddr.isNone then sbAddress a (sbFree 0 8 s) else s

/-- ENEC and DISEC (R441). -/
def sbEvents (on : Bool) (s : State) : State := if i3c s then { s with log := { s.log with ibiEn := on } } else s

/-- RSTACT: 1 resets the interface, 2 the whole target, taken to be a warm reset (R451). -/
def sbRstact (action : Byte) (s : State) : State :=
  if !i3c s then s else if action = 1 then sbReset s else if action = 2 then warmRequest s else s

/-! ### Test access (R484) -/

/-- An instruction is loaded into the TAP: 0 IDCODE, 1 BYPASS, 2 SAMPLE/PRELOAD, 3 EXTEST. -/
def tapLoad (i : Nat) (s : State) : State :=
  setF pkgBase R.PKG_INPUTS_TAP_ACTIVE (b2n (decide (i ≥ 2))) { s with pins := { s.pins with tap := i } }

/-- TAP_IDCODE. -/
def tapIdcode (s : State) : State := if csrUp s then emit (.control "IDCODE" 0 [0x1940A96B]) (tapLoad 0 s) else s

/-- TAP_SAMPLE_PRELOAD: the boundary register is captured; its bits are not stated: a free value. -/
def tapSample (s : State) : State :=
  if csrUp s then emit (.control "BOUNDARY" 0 [Config.freeResult 94 s.fresh]) (tapLoad 2 { s with fresh := s.fresh + 1 }) else s

/-- TAP_EXTEST: in STANDBY; else it acts as BYPASS and is recorded. -/
def tapExtest (s : State) : State :=
  if !csrUp s then s else if s.pkg = .standby then tapLoad 3 s else raise 0 0x09 1 0 0 (tapLoad 1 s)

/-- TAP_IDLE_TIMEOUT. -/
def tapIdle (s : State) : State := if csrUp s ∧ s.pins.tap ≥ 2 then raise 0 0x0D 0 0 0 (tapReset s) else s

/-- INPUT_OUT_OF_RANGE (R478). -/
def execInputOutOfRange (mv : Nat) (s : State) : Host.Outcome State Fault Refusal := .next (inputOut mv s)
/-- INPUT_LOCKOUT (R478). -/
def execInputLockout (mv : Nat) (s : State) : Host.Outcome State Fault Refusal := .next (inputLock mv s)
/-- STRAP_SAMPLE (R479). -/
def execStrapSample (a b c : BitVec 7) (s : State) : Host.Outcome State Fault Refusal := .next (strapSample a b c s)
/-- STRAP_CHANGE (R479). -/
def execStrapChange (v : BitVec 7) (s : State) : Host.Outcome State Fault Refusal := .next (strapChange v s)
/-- REFCLK_MEASURE (R480). -/
def execRefclkMeasure (off : BitVec 16) (present : Bool) (s : State) : Host.Outcome State Fault Refusal := .next (refMeasure off present s)
/-- REFCLK_SWITCH (R480). -/
def execRefclkSwitch (s : State) : Host.Outcome State Fault Refusal := .next (refSwitch s)
/-- REFCLK_RETURN (R480). -/
def execRefclkReturn (s : State) : Host.Outcome State Fault Refusal := .next (refReturn s)
/-- SB_WRITE (R483). -/
def execSbWrite (off : BitVec 32) (val : Word) (s : State) : Host.Outcome State Fault Refusal := sbWrite off val s
/-- SB_SET_OFFSET (R483). -/
def execSbSetOffset (off : BitVec 32) (s : State) : Host.Outcome State Fault Refusal := .next (sbOffset off s)
/-- SB_READ (R483). -/
def execSbRead (s : State) : Host.Outcome State Fault Refusal := sbRead s
/-- SB_READ_EVENT_SEQ (R483). -/
def execSbReadEventSeq (s : State) : Host.Outcome State Fault Refusal := .next (sbEventSeq s)
/-- SB_BUS_STUCK (R483). -/
def execSbBusStuck (s : State) : Host.Outcome State Fault Refusal := .next (sbStuck s)
/-- ENTDAA (R482). -/
def execEntdaa (addr : BitVec 7) (s : State) : Host.Outcome State Fault Refusal := .next (sbEntdaa addr s)
/-- SETDASA (R482). -/
def execSetdasa (addr : BitVec 7) (s : State) : Host.Outcome State Fault Refusal := .next (sbAddress addr s)
/-- GETPID (R482). -/
def execGetpid (s : State) : Host.Outcome State Fault Refusal := .next (sbFree 1 6 s)
/-- GETBCR (R482). -/
def execGetbcr (s : State) : Host.Outcome State Fault Refusal := .next (sbFree 2 1 s)
/-- GETDCR (R482). -/
def execGetdcr (s : State) : Host.Outcome State Fault Refusal := .next (sbFree 3 1 s)
/-- GETSTATUS (R482): the status differs from time to time. -/
def execGetstatus (s : State) : Host.Outcome State Fault Refusal := .next { sbFree (4 + s.fresh) 2 s with fresh := s.fresh + 1 }
/-- ENEC (R441). -/
def execEnec (s : State) : Host.Outcome State Fault Refusal := .next (sbEvents true s)
/-- DISEC (R441). -/
def execDisec (s : State) : Host.Outcome State Fault Refusal := .next (sbEvents false s)
/-- RSTACT (R482). -/
def execRstact (action : Byte) (s : State) : Host.Outcome State Fault Refusal := .next (sbRstact action s)
/-- TAP_BYPASS (R484). -/
def execTapBypass (s : State) : Host.Outcome State Fault Refusal := .next (if csrUp s then tapLoad 1 s else s)
/-- TAP_IDCODE (R484). -/
def execTapIdcode (s : State) : Host.Outcome State Fault Refusal := .next (tapIdcode s)
/-- TAP_SAMPLE_PRELOAD (R484). -/
def execTapSamplePreload (s : State) : Host.Outcome State Fault Refusal := .next (tapSample s)
/-- TAP_EXTEST (R484). -/
def execTapExtest (s : State) : Host.Outcome State Fault Refusal := .next (tapExtest s)
/-- TAP_IDLE_TIMEOUT (R484). -/
def execTapIdleTimeout (s : State) : Host.Outcome State Fault Refusal := .next (tapIdle s)

end Sys2Proof.Machine
end

