-- ==== Sys2Proof/Machine/ShortVec.lean ====
section
/-! DEFINITION. The short-vector extension of a Fletrum core (R139) and its sticky flags (SEQ_FLAGS). -/

namespace Sys2Proof.Machine

/-- Lane `j` of `w` bits. -/
def lane (v w j : Nat) : Nat := bitsAt v (w * j) w

/-- A register built lane by lane from `n` results; gathers flags. -/
def buildLanes (w : Nat) (f : Nat → Nat × Nat) : Nat → Nat × Nat
  | 0 => (0, 0)
  | n + 1 =>
    let (v, fl) := buildLanes w f n
    let (x, g) := f n
    (v + (x % 2 ^ w) * 2 ^ (w * n), fl ||| g)

/-- X[3:0], the format code. -/
def fFmt (w : BitVec 22) : Nat := bitsAt w.toNat 0 4
/-- X[6:4], the variant. -/
def fVar (w : BitVec 22) : Nat := bitsAt w.toNat 4 3

/-- Set the sticky flags NV, OF, UF, NX of SEQ_FLAGS (R139). -/
def seqFlags (c fl : Nat) (s : State) : State :=
  let b := seqBase c
  let s := if bitAt fl 0 then setF b R.SEQ_FLAGS_NV 1 s else s
  let s := if bitAt fl 1 then setF b R.SEQ_FLAGS_OF 1 s else s
  let s := if bitAt fl 2 then setF b R.SEQ_FLAGS_UF 1 s else s
  if bitAt fl 3 then setF b R.SEQ_FLAGS_NX 1 s else s

/-- The floating-point formats with VX lanes: BF16, FP16, FP32, FP64 (R99, R103). -/
def isFpLane (fmt : Nat) : Bool := fmt = 6 || fmt = 7 || fmt = 8 || fmt = 9

/-- A short-vector instruction whose D, P and Q name h registers: bit 4 of each is 0 (R136). `f` maps the registers D, P and Q to
the new D and flags. -/
def shortVec (op : Nat) (ok : Bool) (f : Nat → Nat → Nat → Nat × Nat) (c : Fin 44) (w : BitVec 22) (s : State) : State :=
  insn c (insnWord 9 op w) (ok && fD w < 16 && fP w < 16 && fQ w < 16) (fun k s =>
    let r := f (getH k (fD w)).toNat (getH k (fP w)).toNat (getH k (fQ w)).toNat
    seqFlags c r.2 (retire c (setH (fD w) (BitVec.ofNat 256 r.1) k) s)) s

/-- An element-wise floating-point form (R139). -/
def svElem (op opc : Nat) (c : Fin 44) (w : BitVec 22) (s : State) : State :=
  let fmt := fFmt w
  let b := codeBits fmt
  shortVec op (isFpLane fmt && fVar w = 0) (fun d p q =>
    buildLanes b (fun j => elemFp opc 0 ((fmtOf fmt).getD fp64) (lane p b j) (lane q b j) (lane d b j)) (256 / b)) c w s

/-- SVADD: as the VX operation of the same name on each lane (R139). -/
def execSvadd (c : Fin 44) (w : BitVec 22) (s : State) : Host.Outcome State Fault Refusal :=
  .next (svElem 0 0x00 c w s)

/-- SVSUB: as the VX operation of the same name on each lane (R139). -/
def execSvsub (c : Fin 44) (w : BitVec 22) (s : State) : Host.Outcome State Fault Refusal :=
  .next (svElem 1 0x01 c w s)

/-- SVMUL: as the VX operation of the same name on each lane (R139). -/
def execSvmul (c : Fin 44) (w : BitVec 22) (s : State) : Host.Outcome State Fault Refusal :=
  .next (svElem 2 0x02 c w s)

/-- SVFMA: as the VX operation of the same name on each lane (R139). D is the addend. -/
def execSvfma (c : Fin 44) (w : BitVec 22) (s : State) : Host.Outcome State Fault Refusal :=
  .next (svElem 3 0x03 c w s)

/-- SVMIN: as the VX operation of the same name on each lane (R139). -/
def execSvmin (c : Fin 44) (w : BitVec 22) (s : State) : Host.Outcome State Fault Refusal :=
  .next (svElem 4 0x06 c w s)

/-- SVMAX: as the VX operation of the same name on each lane (R139). -/
def execSvmax (c : Fin 44) (w : BitVec 22) (s : State) : Host.Outcome State Fault Refusal :=
  .next (svElem 5 0x07 c w s)

/-- SVCVT (R62, R139) into the format of X[3:0]. The word has no stated place for the source format, nor a rule for saturation: both are free. -/
def execSvcvt (c : Fin 44) (w : BitVec 22) (s : State) : Host.Outcome State Fault Refusal :=
  .next (let dst := fFmt w
    let src := Config.freeResult 30 w.toNat % 11
    let bd := codeBits dst
    let bs := codeBits src
    shortVec 6 ((vxLanes dst).isSome && fVar w = 0) (fun d p _ =>
      buildLanes bd (fun j => if bs * (j + 1) ≤ 256 ∧ bs ≠ 0
        then convert (decide (Config.freeResult 31 0 % 2 = 1)) src dst (lane p bs j) else (lane d bd j, 0)) (256 / bd)) c w s)

/-- Whether a word of SVWMUL has the form INT16 → INT32: R34 gives INT16 no format code, so which of the codes that name no other form does so is a free
value (log 196). -/
def isInt16 (w : BitVec 22) : Bool :=
  !(fFmt w = 5 || fFmt w = 10 || fFmt w = 6 || fFmt w = 7 || fFmt w = 8) && fVar w < 2 && Config.freeResult 100 (fFmt w) % 2 = 1

/-- SVWMUL: widening products of the half X[4] selects (R139). -/
def execSvwmul (c : Fin 44) (w : BitVec 22) (s : State) : Host.Outcome State Fault Refusal :=
  .next (let fmt := fFmt w
    let b := if isInt16 w then 16 else codeBits fmt
    let half := fVar w % 2
    let n := 256 / (2 * b)
    shortVec 7 (((fmt = 5 || fmt = 10 || fmt = 6 || fmt = 7 || fmt = 8) && fVar w < 2) || isInt16 w) (fun _ p q =>
      buildLanes (2 * b) (fun j =>
        let x := lane p b (half * n + j)
        let y := lane q b (half * n + j)
        match if isInt16 w then none else fmtOf fmt with
        | some f => mulV (if fmt = 8 then fp64 else fp32) (decodeF f x) (decodeF f y)
        | none => (wrap (2 * b) (signed b x * signed b y), 0)) n) c w s)

/-- SVDOT4 (R139). -/
def execSvdot4 (c : Fin 44) (w : BitVec 22) (s : State) : Host.Outcome State Fault Refusal :=
  .next (shortVec 8 (fFmt w = 5 && fVar w = 0) (fun d p q =>
      buildLanes 32 (fun i =>
        let t := fun k => signed 8 (lane p 8 (4 * i + k)) * signed 8 (lane q 8 (4 * i + k))
        (wrap 32 (signed 32 (lane d 32 i) + t 0 + t 1 + t 2 + t 3), 0)) 8) c w s)

/-- SVDOT2 (R58, R139). -/
def execSvdot2 (c : Fin 44) (w : BitVec 22) (s : State) : Host.Outcome State Fault Refusal :=
  .next (let f := (fmtOf (fFmt w)).getD bf16
    shortVec 9 ((fFmt w = 6 || fFmt w = 7) && fVar w = 0) (fun d p q =>
      buildLanes 32 (fun i =>
        let t := fun k => prodOf (decodeF f (lane p 16 (2 * i + k))) (decodeF f (lane q 16 (2 * i + k))) 0 false
        groupUpdate fp32 (decodeF fp32 (lane d 32 i)) [t 0, t 1]) 8) c w s)

/-- SVWDOT2 (R58, R139). -/
def execSvwdot2 (c : Fin 44) (w : BitVec 22) (s : State) : Host.Outcome State Fault Refusal :=
  .next (shortVec 10 (fFmt w = 8 && fVar w = 0) (fun d p q =>
      buildLanes 64 (fun i =>
        let t := fun k => prodOf (decodeF fp32 (lane p 32 (2 * i + k))) (decodeF fp32 (lane q 32 (2 * i + k))) 0 false
        groupUpdate fp64 (decodeF fp64 (lane d 64 i)) [t 0, t 1]) 4) c w s)

/-- A format code of R34: SVBCAST, SVINS, SVEXT and SVMV take any (R139). -/
def laneOk (fmt : Nat) : Bool := fmt ≤ 10

/-- Bits of an h register above its last whole lane: SVBCAST of a 6-bit format leaves 4, for which the spec states no value, a free value. -/
def laneRest (b op : Nat) : Nat := if b = 6 then Config.freeResult 99 op % 16 * 2 ^ 252 else 0

/-- SVBCAST: g[P] to every lane (R139). -/
def execSvbcast (c : Fin 44) (w : BitVec 22) (s : State) : Host.Outcome State Fault Refusal :=
  .next (let b := codeBits (fFmt w)
    insn c (insnWord 9 11 w) (laneOk (fFmt w) && fVar w = 0 && fD w < 16 && fQ w < 16) (fun k s =>
      let r := buildLanes b (fun _ => ((getG k (fP w)).toNat, 0)) (256 / b)
      retire c (setH (fD w) (BitVec.ofNat 256 (r.1 + laneRest b w.toNat)) k) s) s)

/-- SVINS: g[P] into lane X[6:4] (R139). -/
def execSvins (c : Fin 44) (w : BitVec 22) (s : State) : Host.Outcome State Fault Refusal :=
  .next (let b := codeBits (fFmt w)
    insn c (insnWord 9 12 w) (laneOk (fFmt w) && fD w < 16 && fQ w < 16 && b * (fVar w + 1) ≤ 256) (fun k s =>
      retire c (setH (fD w) (BitVec.ofNat 256 (putBits (getH k (fD w)).toNat (b * fVar w) b (getG k (fP w)).toNat)) k) s) s)

/-- SVEXT: lane X[6:4] of h[P] into g[D], zero-extended (R139). -/
def execSvext (c : Fin 44) (w : BitVec 22) (s : State) : Host.Outcome State Fault Refusal :=
  .next (let b := codeBits (fFmt w)
    insn c (insnWord 9 13 w) (laneOk (fFmt w) && fP w < 16 && fQ w < 16 && b * (fVar w + 1) ≤ 256) (fun k s =>
      retire c (setG (fD w) (BitVec.ofNat 64 (lane (getH k (fP w)).toNat b (fVar w))) k) s) s)

/-- SVMV (R139). -/
def execSvmv (c : Fin 44) (w : BitVec 22) (s : State) : Host.Outcome State Fault Refusal :=
  .next (shortVec 14 (laneOk (fFmt w) && fVar w = 0) (fun _ p _ => (p, 0)) c w s)

end Sys2Proof.Machine
end

