-- ==== Sys2Proof/Machine/Dispatch.lean ====
section
/-! DEFINITION. One arm per command: the effect of a command on everything but the queue. -/

namespace Sys2Proof.Machine

def exec (i : Instr) (s : State) : Host.Outcome State Fault Refusal :=
  match i with
  | .csrWrite path off val => Sys2Proof.Machine.execCsrWrite path off val s
  | .slowWriteCrossed dom => Sys2Proof.Machine.execSlowWriteCrossed dom s
  | .slowAccessAbandon dom => Sys2Proof.Machine.execSlowAccessAbandon dom s
  | .nop path => Sys2Proof.Machine.execNop path s
  | .powerUp path => Sys2Proof.Machine.execPowerUp path s
  | .powerUpDone fail => Sys2Proof.Machine.execPowerUpDone fail s
  | .powerDown path => Sys2Proof.Machine.execPowerDown path s
  | .serviceEnter path ok => Sys2Proof.Machine.execServiceEnter path ok s
  | .serviceExit path => Sys2Proof.Machine.execServiceExit path s
  | .sleep path => Sys2Proof.Machine.execSleep path s
  | .wake path => Sys2Proof.Machine.execWake path s
  | .wakeDone => Sys2Proof.Machine.execWakeDone s
  | .repair path => Sys2Proof.Machine.execRepair path s
  | .repairDone ok => Sys2Proof.Machine.execRepairDone ok s
  | .admitJob path => Sys2Proof.Machine.execAdmitJob path s
  | .launch path => Sys2Proof.Machine.execLaunch path s
  | .freeze path => Sys2Proof.Machine.execFreeze path s
  | .resume path => Sys2Proof.Machine.execResume path s
  | .restore path => Sys2Proof.Machine.execRestore path s
  | .takeover path => Sys2Proof.Machine.execTakeover path s
  | .recover path => Sys2Proof.Machine.execRecover path s
  | .teardown path => Sys2Proof.Machine.execTeardown path s
  | .teardownDone => Sys2Proof.Machine.execTeardownDone s
  | .erase path => Sys2Proof.Machine.execErase path s
  | .eraseDone => Sys2Proof.Machine.execEraseDone s
  | .attest path => Sys2Proof.Machine.execAttest path s
  | .attestSigned => Sys2Proof.Machine.execAttestSigned s
  | .rerate path ok rec => Sys2Proof.Machine.execRerate path ok rec s
  | .resetWarm path => Sys2Proof.Machine.execResetWarm path s
  | .eventAccept src => Sys2Proof.Machine.execEventAccept src s
  | .eventStore => Sys2Proof.Machine.execEventStore s
  | .evrCurSeq cur seq => Sys2Proof.Machine.execEvrCurSeq cur seq s
  | .evrCurNext cur => Sys2Proof.Machine.execEvrCurNext cur s
  | .evrClear path => Sys2Proof.Machine.execEvrClear path s
  | .add c w => Sys2Proof.Machine.execAdd c w s
  | .sub c w => Sys2Proof.Machine.execSub c w s
  | .and c w => Sys2Proof.Machine.execAnd c w s
  | .or c w => Sys2Proof.Machine.execOr c w s
  | .xor c w => Sys2Proof.Machine.execXor c w s
  | .shl c w => Sys2Proof.Machine.execShl c w s
  | .shrl c w => Sys2Proof.Machine.execShrl c w s
  | .shra c w => Sys2Proof.Machine.execShra c w s
  | .mul c w => Sys2Proof.Machine.execMul c w s
  | .mulh c w => Sys2Proof.Machine.execMulh c w s
  | .mulhu c w => Sys2Proof.Machine.execMulhu c w s
  | .divu c w => Sys2Proof.Machine.execDivu c w s
  | .remu c w => Sys2Proof.Machine.execRemu c w s
  | .min c w => Sys2Proof.Machine.execMin c w s
  | .max c w => Sys2Proof.Machine.execMax c w s
  | .minu c w => Sys2Proof.Machine.execMinu c w s
  | .maxu c w => Sys2Proof.Machine.execMaxu c w s
  | .slt c w => Sys2Proof.Machine.execSlt c w s
  | .sltu c w => Sys2Proof.Machine.execSltu c w s
  | .seq c w => Sys2Proof.Machine.execSeq c w s
  | .clz c w => Sys2Proof.Machine.execClz c w s
  | .popcnt c w => Sys2Proof.Machine.execPopcnt c w s
  | .addi c w => Sys2Proof.Machine.execAddi c w s
  | .andi c w => Sys2Proof.Machine.execAndi c w s
  | .ori c w => Sys2Proof.Machine.execOri c w s
  | .xori c w => Sys2Proof.Machine.execXori c w s
  | .shli c w => Sys2Proof.Machine.execShli c w s
  | .shrli c w => Sys2Proof.Machine.execShrli c w s
  | .shrai c w => Sys2Proof.Machine.execShrai c w s
  | .slti c w => Sys2Proof.Machine.execSlti c w s
  | .strip c w => Sys2Proof.Machine.execStrip c w s
  | .movz c hw w => Sys2Proof.Machine.execMovz c hw w s
  | .movk c hw w => Sys2Proof.Machine.execMovk c hw w s
  | .ld8 c w ev => Sys2Proof.Machine.execLd8 c w ev s
  | .ld16 c w ev => Sys2Proof.Machine.execLd16 c w ev s
  | .ld32 c w ev => Sys2Proof.Machine.execLd32 c w ev s
  | .ld64 c w ev => Sys2Proof.Machine.execLd64 c w ev s
  | .ldu8 c w ev => Sys2Proof.Machine.execLdu8 c w ev s
  | .ldu16 c w ev => Sys2Proof.Machine.execLdu16 c w ev s
  | .ldu32 c w ev => Sys2Proof.Machine.execLdu32 c w ev s
  | .st8 c w => Sys2Proof.Machine.execSt8 c w s
  | .st16 c w => Sys2Proof.Machine.execSt16 c w s
  | .st32 c w => Sys2Proof.Machine.execSt32 c w s
  | .st64 c w => Sys2Proof.Machine.execSt64 c w s
  | .ldh c w ev => Sys2Proof.Machine.execLdh c w ev s
  | .sth c w => Sys2Proof.Machine.execSth c w s
  | .loadDataReturn c => Sys2Proof.Machine.execLoadDataReturn c s
  | .beq c w => Sys2Proof.Machine.execBeq c w s
  | .bne c w => Sys2Proof.Machine.execBne c w s
  | .blt c w => Sys2Proof.Machine.execBlt c w s
  | .bge c w => Sys2Proof.Machine.execBge c w s
  | .bltu c w => Sys2Proof.Machine.execBltu c w s
  | .bgeu c w => Sys2Proof.Machine.execBgeu c w s
  | .jal c w => Sys2Proof.Machine.execJal c w s
  | .jalr c w => Sys2Proof.Machine.execJalr c w s
  | .bsMark c w => Sys2Proof.Machine.execBsMark c w s
  | .bsNmark c w => Sys2Proof.Machine.execBsNmark c w s
  | .bsTrap c w => Sys2Proof.Machine.execBsTrap c w s
  | .bsUe c w => Sys2Proof.Machine.execBsUe c w s
  | .bsCnz c w => Sys2Proof.Machine.execBsCnz c w s
  | .bsCz c w => Sys2Proof.Machine.execBsCz c w s
  | .bsVgt c w => Sys2Proof.Machine.execBsVgt c w s
  | .bsVle c w => Sys2Proof.Machine.execBsVle c w s
  | .bsVeq c w => Sys2Proof.Machine.execBsVeq c w s
  | .sgetValue c w => Sys2Proof.Machine.execSgetValue c w s
  | .sgetCount c w => Sys2Proof.Machine.execSgetCount c w s
  | .sgetFirst c w => Sys2Proof.Machine.execSgetFirst c w s
  | .sgetFlags c w => Sys2Proof.Machine.execSgetFlags c w s
  | .svadd c w => Sys2Proof.Machine.execSvadd c w s
  | .svsub c w => Sys2Proof.Machine.execSvsub c w s
  | .svmul c w => Sys2Proof.Machine.execSvmul c w s
  | .svfma c w => Sys2Proof.Machine.execSvfma c w s
  | .svmin c w => Sys2Proof.Machine.execSvmin c w s
  | .svmax c w => Sys2Proof.Machine.execSvmax c w s
  | .svcvt c w => Sys2Proof.Machine.execSvcvt c w s
  | .svwmul c w => Sys2Proof.Machine.execSvwmul c w s
  | .svdot4 c w => Sys2Proof.Machine.execSvdot4 c w s
  | .svdot2 c w => Sys2Proof.Machine.execSvdot2 c w s
  | .svwdot2 c w => Sys2Proof.Machine.execSvwdot2 c w s
  | .svbcast c w => Sys2Proof.Machine.execSvbcast c w s
  | .svins c w => Sys2Proof.Machine.execSvins c w s
  | .svext c w => Sys2Proof.Machine.execSvext c w s
  | .svmv c w => Sys2Proof.Machine.execSvmv c w s
  | .amoAdd c w ev => Sys2Proof.Machine.execAmoAdd c w ev s
  | .amoSwap c w ev => Sys2Proof.Machine.execAmoSwap c w ev s
  | .amoCas c w ev => Sys2Proof.Machine.execAmoCas c w ev s
  | .amoAnd c w ev => Sys2Proof.Machine.execAmoAnd c w ev s
  | .amoOr c w ev => Sys2Proof.Machine.execAmoOr c w ev s
  | .amoMinu c w ev => Sys2Proof.Machine.execAmoMinu c w ev s
  | .amoMaxu c w ev => Sys2Proof.Machine.execAmoMaxu c w ev s
  | .sysrd c w => Sys2Proof.Machine.execSysrd c w s
  | .csrrd c w => Sys2Proof.Machine.execCsrrd c w s
  | .csrwr c w => Sys2Proof.Machine.execCsrwr c w s
  | .tret c w => Sys2Proof.Machine.execTret c w s
  | .halt c w => Sys2Proof.Machine.execHalt c w s
  | .fletrumNop c w => Sys2Proof.Machine.execFletrumNop c w s
  | .waitE c w => Sys2Proof.Machine.execWaitE c w s
  | .waitAll c w => Sys2Proof.Machine.execWaitAll c w s
  | .fenceLocal c w => Sys2Proof.Machine.execFenceLocal c w s
  | .fenceRemote c w => Sys2Proof.Machine.execFenceRemote c w s
  | .waitsig c w => Sys2Proof.Machine.execWaitsig c w s
  | .bar c w => Sys2Proof.Machine.execBar c w s
  | .rhint c w => Sys2Proof.Machine.execRhint c w s
  | .qpt c w => Sys2Proof.Machine.execQpt c w s
  | .depotNotify c => Sys2Proof.Machine.execDepotNotify c s
  | .waitTimeout c => Sys2Proof.Machine.execWaitTimeout c s
  | .coreStop => Sys2Proof.Machine.execCoreStop s
  | .issueMx c w => Sys2Proof.Machine.execIssueMx c w s
  | .issueVx c w => Sys2Proof.Machine.execIssueVx c w s
  | .issueVxResume c w => Sys2Proof.Machine.execIssueVxResume c w s
  | .issueSx c w => Sys2Proof.Machine.execIssueSx c w s
  | .issueAssay c w => Sys2Proof.Machine.execIssueAssay c w s
  | .issuePorter c w => Sys2Proof.Machine.execIssuePorter c w s
  | .issueDispatcher c w => Sys2Proof.Machine.execIssueDispatcher c w s
  | .issueSolver c w => Sys2Proof.Machine.execIssueSolver c w s
  | .issueCollective c w => Sys2Proof.Machine.execIssueCollective c w s
  | .issueClusterStart c w => Sys2Proof.Machine.execIssueClusterStart c w s
  | .clusterStartAtCount cl => Sys2Proof.Machine.execClusterStartAtCount cl s
  | .coreStartAtCount => Sys2Proof.Machine.execCoreStartAtCount s
  | .freezeCountReached c => Sys2Proof.Machine.execFreezeCountReached c s
  | .corePark c => Sys2Proof.Machine.execCorePark c s
  | .seqStateWindow path c off val => Sys2Proof.Machine.execSeqStateWindow path c off val s
  | .mxAccept t ecc => Sys2Proof.Machine.execMxAccept t ecc s
  | .mxMm t ecc => Sys2Proof.Machine.execMxMm t ecc s
  | .mxMma t ecc => Sys2Proof.Machine.execMxMma t ecc s
  | .mxComplete t => Sys2Proof.Machine.execMxComplete t s
  | .mxRestore path t val => Sys2Proof.Machine.execMxRestore path t val s
  | .vxAccept t ecc => Sys2Proof.Machine.execVxAccept t ecc s
  | .vadd t ecc => Sys2Proof.Machine.execVadd t ecc s
  | .vsub t ecc => Sys2Proof.Machine.execVsub t ecc s
  | .vmul t ecc => Sys2Proof.Machine.execVmul t ecc s
  | .vfma t ecc => Sys2Proof.Machine.execVfma t ecc s
  | .vfms t ecc => Sys2Proof.Machine.execVfms t ecc s
  | .vfnma t ecc => Sys2Proof.Machine.execVfnma t ecc s
  | .vmin t ecc => Sys2Proof.Machine.execVmin t ecc s
  | .vmax t ecc => Sys2Proof.Machine.execVmax t ecc s
  | .vminnum t ecc => Sys2Proof.Machine.execVminnum t ecc s
  | .vmaxnum t ecc => Sys2Proof.Machine.execVmaxnum t ecc s
  | .vabs t ecc => Sys2Proof.Machine.execVabs t ecc s
  | .vneg t ecc => Sys2Proof.Machine.execVneg t ecc s
  | .vcopysign t ecc => Sys2Proof.Machine.execVcopysign t ecc s
  | .vgetexp t ecc => Sys2Proof.Machine.execVgetexp t ecc s
  | .vgetmant t ecc => Sys2Proof.Machine.execVgetmant t ecc s
  | .vscale t ecc => Sys2Proof.Machine.execVscale t ecc s
  | .vroundi t ecc => Sys2Proof.Machine.execVroundi t ecc s
  | .vcmpeq t ecc => Sys2Proof.Machine.execVcmpeq t ecc s
  | .vcmpne t ecc => Sys2Proof.Machine.execVcmpne t ecc s
  | .vcmplt t ecc => Sys2Proof.Machine.execVcmplt t ecc s
  | .vcmple t ecc => Sys2Proof.Machine.execVcmple t ecc s
  | .vcmpgt t ecc => Sys2Proof.Machine.execVcmpgt t ecc s
  | .vcmpge t ecc => Sys2Proof.Machine.execVcmpge t ecc s
  | .vcmpun t ecc => Sys2Proof.Machine.execVcmpun t ecc s
  | .vsel t ecc => Sys2Proof.Machine.execVsel t ecc s
  | .vclass t ecc => Sys2Proof.Machine.execVclass t ecc s
  | .vcvt t ecc => Sys2Proof.Machine.execVcvt t ecc s
  | .viadd t ecc => Sys2Proof.Machine.execViadd t ecc s
  | .visub t ecc => Sys2Proof.Machine.execVisub t ecc s
  | .vimul t ecc => Sys2Proof.Machine.execVimul t ecc s
  | .vand t ecc => Sys2Proof.Machine.execVand t ecc s
  | .vor t ecc => Sys2Proof.Machine.execVor t ecc s
  | .vxor t ecc => Sys2Proof.Machine.execVxor t ecc s
  | .vnot t ecc => Sys2Proof.Machine.execVnot t ecc s
  | .vshl t ecc => Sys2Proof.Machine.execVshl t ecc s
  | .vshrl t ecc => Sys2Proof.Machine.execVshrl t ecc s
  | .vshra t ecc => Sys2Proof.Machine.execVshra t ecc s
  | .vrotl t ecc => Sys2Proof.Machine.execVrotl t ecc s
  | .vimin t ecc => Sys2Proof.Machine.execVimin t ecc s
  | .vimax t ecc => Sys2Proof.Machine.execVimax t ecc s
  | .viabs t ecc => Sys2Proof.Machine.execViabs t ecc s
  | .vsadd t ecc => Sys2Proof.Machine.execVsadd t ecc s
  | .vssub t ecc => Sys2Proof.Machine.execVssub t ecc s
  | .vsmul t ecc => Sys2Proof.Machine.execVsmul t ecc s
  | .vsabs t ecc => Sys2Proof.Machine.execVsabs t ecc s
  | .vsneg t ecc => Sys2Proof.Machine.execVsneg t ecc s
  | .vsnarrow t ecc => Sys2Proof.Machine.execVsnarrow t ecc s
  | .vqmulh t ecc => Sys2Proof.Machine.execVqmulh t ecc s
  | .vqrdmlah t ecc => Sys2Proof.Machine.execVqrdmlah t ecc s
  | .vqrshr t ecc => Sys2Proof.Machine.execVqrshr t ecc s
  | .vqrshrn t ecc => Sys2Proof.Machine.execVqrshrn t ecc s
  | .vqavg t ecc => Sys2Proof.Machine.execVqavg t ecc s
  | .vrsum t ecc => Sys2Proof.Machine.execVrsum t ecc s
  | .vrsumsq t ecc => Sys2Proof.Machine.execVrsumsq t ecc s
  | .vrmax t ecc => Sys2Proof.Machine.execVrmax t ecc s
  | .vrmin t ecc => Sys2Proof.Machine.execVrmin t ecc s
  | .vrmaxabs t ecc => Sys2Proof.Machine.execVrmaxabs t ecc s
  | .vrisum t ecc => Sys2Proof.Machine.execVrisum t ecc s
  | .vrimax t ecc => Sys2Proof.Machine.execVrimax t ecc s
  | .vld t ecc => Sys2Proof.Machine.execVld t ecc s
  | .vst t ecc => Sys2Proof.Machine.execVst t ecc s
  | .vlds t ecc => Sys2Proof.Machine.execVlds t ecc s
  | .vsts t ecc => Sys2Proof.Machine.execVsts t ecc s
  | .vbcast t ecc => Sys2Proof.Machine.execVbcast t ecc s
  | .vperm t ecc => Sys2Proof.Machine.execVperm t ecc s
  | .vslideup t ecc => Sys2Proof.Machine.execVslideup t ecc s
  | .vslidedn t ecc => Sys2Proof.Machine.execVslidedn t ecc s
  | .vmv t ecc => Sys2Proof.Machine.execVmv t ecc s
  | .vxResumeRecompute t => Sys2Proof.Machine.execVxResumeRecompute t s
  | .vxResumeFix t => Sys2Proof.Machine.execVxResumeFix t s
  | .vxResumeEnd t => Sys2Proof.Machine.execVxResumeEnd t s
  | .vxComplete t => Sys2Proof.Machine.execVxComplete t s
  | .vxRestore path t val => Sys2Proof.Machine.execVxRestore path t val s
  | .vxRegfileWindow path t off val => Sys2Proof.Machine.execVxRegfileWindow path t off val s
  | .sxAccept cl ecc => Sys2Proof.Machine.execSxAccept cl ecc s
  | .sxStencil cl ecc => Sys2Proof.Machine.execSxStencil cl ecc s
  | .sxComplete cl => Sys2Proof.Machine.execSxComplete cl s
  | .sxRestore path cl val => Sys2Proof.Machine.execSxRestore path cl val s
  | .dspContribution d ecc => Sys2Proof.Machine.execDspContribution d ecc s
  | .dspExchangeDone d => Sys2Proof.Machine.execDspExchangeDone d s
  | .dspBatchDone d => Sys2Proof.Machine.execDspBatchDone d s
  | .dspBatchTimeout d => Sys2Proof.Machine.execDspBatchTimeout d s
  | .dspStateWindow path d off val => Sys2Proof.Machine.execDspStateWindow path d off val s
  | .asyAccept cl ecc => Sys2Proof.Machine.execAsyAccept cl ecc s
  | .asyNarrow cl ecc => Sys2Proof.Machine.execAsyNarrow cl ecc s
  | .asyWiden cl ecc => Sys2Proof.Machine.execAsyWiden cl ecc s
  | .asyComplete cl => Sys2Proof.Machine.execAsyComplete cl s
  | .asyRestore path cl val => Sys2Proof.Machine.execAsyRestore path cl val s
  | .porAccept cl ecc => Sys2Proof.Machine.execPorAccept cl ecc s
  | .porCopy cl ecc => Sys2Proof.Machine.execPorCopy cl ecc s
  | .porGather cl ecc => Sys2Proof.Machine.execPorGather cl ecc s
  | .porScatter cl ecc => Sys2Proof.Machine.execPorScatter cl ecc s
  | .porTranspose cl ecc => Sys2Proof.Machine.execPorTranspose cl ecc s
  | .porFill cl ecc => Sys2Proof.Machine.execPorFill cl ecc s
  | .porComplete cl => Sys2Proof.Machine.execPorComplete cl s
  | .porRestore path cl val => Sys2Proof.Machine.execPorRestore path cl val s
  | .slvAccept e ecc => Sys2Proof.Machine.execSlvAccept e ecc s
  | .chol e ecc => Sys2Proof.Machine.execChol e ecc s
  | .ldlt e ecc => Sys2Proof.Machine.execLdlt e ecc s
  | .qr e ecc => Sys2Proof.Machine.execQr e ecc s
  | .gn e ecc => Sys2Proof.Machine.execGn e ecc s
  | .lm e ecc => Sys2Proof.Machine.execLm e ecc s
  | .slvProblemEnd e => Sys2Proof.Machine.execSlvProblemEnd e s
  | .slvComplete e => Sys2Proof.Machine.execSlvComplete e s
  | .slvRestore path e val => Sys2Proof.Machine.execSlvRestore path e val s
  | .slvStateWindow path e off val => Sys2Proof.Machine.execSlvStateWindow path e off val s
  | .hbmLineRead stk c line row bank err => Sys2Proof.Machine.execHbmLineRead stk c line row bank err s
  | .hbmLineWrite stk c line data => Sys2Proof.Machine.execHbmLineWrite stk c line data s
  | .patrolScrub stk c line row bank err => Sys2Proof.Machine.execPatrolScrub stk c line row bank err s
  | .refresh stk c => Sys2Proof.Machine.execRefresh stk c s
  | .reducingWrite off data poison ue => Sys2Proof.Machine.execReducingWrite off data poison ue s
  | .retrainOnErrors stk c => Sys2Proof.Machine.execRetrainOnErrors stk c s
  | .retrainPeriodic stk c => Sys2Proof.Machine.execRetrainPeriodic stk c s
  | .memRetrain stk c => Sys2Proof.Machine.execMemRetrain stk c s
  | .retrainSliceStart stk c => Sys2Proof.Machine.execRetrainSliceStart stk c s
  | .retrainSliceEnd stk c last marginOk => Sys2Proof.Machine.execRetrainSliceEnd stk c last marginOk s
  | .memSelftest stk c => Sys2Proof.Machine.execMemSelftest stk c s
  | .memSelftestDone stk c pass => Sys2Proof.Machine.execMemSelftestDone stk c pass s
  | .memAdmit stk c => Sys2Proof.Machine.execMemAdmit stk c s
  | .memSpreadWrite path val => Sys2Proof.Machine.execMemSpreadWrite path val s
  | .depFlush d => Sys2Proof.Machine.execDepFlush d s
  | .depInval path d => Sys2Proof.Machine.execDepInval path d s
  | .depotFlushDone d => Sys2Proof.Machine.execDepotFlushDone d s
  | .flitReceive port f => Sys2Proof.Machine.execFlitReceive port f s
  | .linkReplayTimeout port => Sys2Proof.Machine.execLinkReplayTimeout port s
  | .rd fd m => Sys2Proof.Machine.execRd fd m s
  | .rdrsp fd m => Sys2Proof.Machine.execRdrsp fd m s
  | .wr fd m => Sys2Proof.Machine.execWr fd m s
  | .wrack fd m => Sys2Proof.Machine.execWrack fd m s
  | .caravanNack fd m => Sys2Proof.Machine.execCaravanNack fd m s
  | .deadTargetExpiry fd txid => Sys2Proof.Machine.execDeadTargetExpiry fd txid s
  | .portLossOfSignal p => Sys2Proof.Machine.execPortLossOfSignal p s
  | .portTrained p lanes => Sys2Proof.Machine.execPortTrained p lanes s
  | .portIdentity p serial pkg port => Sys2Proof.Machine.execPortIdentity p serial pkg port s
  | .portMissingTimeout p => Sys2Proof.Machine.execPortMissingTimeout p s
  | .portSelftest p => Sys2Proof.Machine.execPortSelftest p s
  | .portSelftestDone p pass => Sys2Proof.Machine.execPortSelftestDone p pass s
  | .portAdmit p => Sys2Proof.Machine.execPortAdmit p s
  | .portRetrain p => Sys2Proof.Machine.execPortRetrain p s
  | .portDisable p => Sys2Proof.Machine.execPortDisable p s
  | .fabEpochArm fd => Sys2Proof.Machine.execFabEpochArm fd s
  | .fabEpochDisarm fd => Sys2Proof.Machine.execFabEpochDisarm fd s
  | .epochSwitch commit => Sys2Proof.Machine.execEpochSwitch commit s
  | .epochGraceEnd fd => Sys2Proof.Machine.execEpochGraceEnd fd s
  | .epochMark p => Sys2Proof.Machine.execEpochMark p s
  | .routeData r f => Sys2Proof.Machine.execRouteData r f s
  | .routeAck r f => Sys2Proof.Machine.execRouteAck r f s
  | .routeAnnounce r => Sys2Proof.Machine.execRouteAnnounce r s
  | .routeRtoExpiry fd peer seq => Sys2Proof.Machine.execRouteRtoExpiry fd peer seq s
  | .rdS m => Sys2Proof.Machine.execRdS m s
  | .rdO m => Sys2Proof.Machine.execRdO m s
  | .upg m => Sys2Proof.Machine.execUpg m s
  | .rdNc m => Sys2Proof.Machine.execRdNc m s
  | .wrFull m => Sys2Proof.Machine.execWrFull m s
  | .snpInv m => Sys2Proof.Machine.execSnpInv m s
  | .snpDown m => Sys2Proof.Machine.execSnpDown m s
  | .rspI m => Sys2Proof.Machine.execRspI m s
  | .rspS m => Sys2Proof.Machine.execRspS m s
  | .rspDataI m => Sys2Proof.Machine.execRspDataI m s
  | .rspDataS m => Sys2Proof.Machine.execRspDataS m s
  | .wb m => Sys2Proof.Machine.execWb m s
  | .cmp m => Sys2Proof.Machine.execCmp m s
  | .dataS m => Sys2Proof.Machine.execDataS m s
  | .dataO m => Sys2Proof.Machine.execDataO m s
  | .csrRd m => Sys2Proof.Machine.execCsrRd m s
  | .csrWr m => Sys2Proof.Machine.execCsrWr m s
  | .csrRsp => Sys2Proof.Machine.execCsrRsp s
  | .halterNack m => Sys2Proof.Machine.execHalterNack m s
  | .halterSnpTimeout txid => Sys2Proof.Machine.execHalterSnpTimeout txid s
  | .halterPortDown port => Sys2Proof.Machine.execHalterPortDown port s
  | .halterDown => Sys2Proof.Machine.execHalterDown s
  | .groupEntryWrite path off val => Sys2Proof.Machine.execGroupEntryWrite path off val s
  | .colAccept ue => Sys2Proof.Machine.execColAccept ue s
  | .barrier g => Sys2Proof.Machine.execBarrier g s
  | .broadcast g => Sys2Proof.Machine.execBroadcast g s
  | .reduce g => Sys2Proof.Machine.execReduce g s
  | .allreduce g => Sys2Proof.Machine.execAllreduce g s
  | .reduceScatter g => Sys2Proof.Machine.execReduceScatter g s
  | .allgather g => Sys2Proof.Machine.execAllgather g s
  | .alltoallv g => Sys2Proof.Machine.execAlltoallv g s
  | .alltoallCap g => Sys2Proof.Machine.execAlltoallCap g s
  | .join m sig algo => Sys2Proof.Machine.execJoin m sig algo s
  | .exp m => Sys2Proof.Machine.execExp m s
  | .data m => Sys2Proof.Machine.execData m s
  | .counts m n => Sys2Proof.Machine.execCounts m n s
  | .allow m n => Sys2Proof.Machine.execAllow m n s
  | .progress m state qcount => Sys2Proof.Machine.execProgress m state qcount s
  | .progressSendTimer g => Sys2Proof.Machine.execProgressSendTimer g s
  | .abort m cause origin => Sys2Proof.Machine.execAbort m cause origin s
  | .colProgressTimeout g => Sys2Proof.Machine.execColProgressTimeout g s
  | .peerSilent g rank => Sys2Proof.Machine.execPeerSilent g rank s
  | .freezeMark m => Sys2Proof.Machine.execFreezeMark m s
  | .colComplete g => Sys2Proof.Machine.execColComplete g s
  | .colRestore path val => Sys2Proof.Machine.execColRestore path val s
  | .colStateWindow path off val => Sys2Proof.Machine.execColStateWindow path off val s
  | .prepare src crc => Sys2Proof.Machine.execPrepare src crc s
  | .ready src => Sys2Proof.Machine.execReady src s
  | .go src => Sys2Proof.Machine.execGo src s
  | .adopt src orphan => Sys2Proof.Machine.execAdopt src orphan s
  | .launchChildTimeout child => Sys2Proof.Machine.execLaunchChildTimeout child s
  | .launchMargin => Sys2Proof.Machine.execLaunchMargin s
  | .gctDigGo slot => Sys2Proof.Machine.execGctDigGo slot s
  | .digCombinerDone => Sys2Proof.Machine.execDigCombinerDone s
  | .syncExchangeTimer => Sys2Proof.Machine.execSyncExchangeTimer s
  | .syncRequest port src slot => Sys2Proof.Machine.execSyncRequest port src slot s
  | .syncResponse port slot => Sys2Proof.Machine.execSyncResponse port slot s
  | .syncCorrection => Sys2Proof.Machine.execSyncCorrection s
  | .routeSyncTimer ref => Sys2Proof.Machine.execRouteSyncTimer ref s
  | .ppsEdge at_ => Sys2Proof.Machine.execPpsEdge at_ s
  | .ppsMissing => Sys2Proof.Machine.execPpsMissing s
  | .parentSilent => Sys2Proof.Machine.execParentSilent s
  | .referenceSilent lowest => Sys2Proof.Machine.execReferenceSilent lowest s
  | .gctSet path val => Sys2Proof.Machine.execGctSet path val s
  | .ckpEnable path => Sys2Proof.Machine.execCkpEnable path s
  | .ckpBoundary path lo => Sys2Proof.Machine.execCkpBoundary path lo s
  | .vote src v => Sys2Proof.Machine.execVote src v s
  | .decideCommit step drain => Sys2Proof.Machine.execDecideCommit step drain s
  | .decideReplay step => Sys2Proof.Machine.execDecideReplay step s
  | .decideFail step code => Sys2Proof.Machine.execDecideFail step code s
  | .decideGo step count => Sys2Proof.Machine.execDecideGo step count s
  | .replayRestart => Sys2Proof.Machine.execReplayRestart s
  | .firnCopyDone ok ns => Sys2Proof.Machine.execFirnCopyDone ok ns s
  | .mirrorCopyDone ok => Sys2Proof.Machine.execMirrorCopyDone ok s
  | .durableCopyDone ok => Sys2Proof.Machine.execDurableCopyDone ok s
  | .freezePhase1Ready => Sys2Proof.Machine.execFreezePhase1Ready s
  | .freezeSaveDone => Sys2Proof.Machine.execFreezeSaveDone s
  | .restoreCopyDone ok => Sys2Proof.Machine.execRestoreCopyDone ok s
  | .ckpAuditGo n => Sys2Proof.Machine.execCkpAuditGo n s
  | .auditDone => Sys2Proof.Machine.execAuditDone s
  | .auditMismatch auditor layer piece => Sys2Proof.Machine.execAuditMismatch auditor layer piece s
  | .suspicionClear path => Sys2Proof.Machine.execSuspicionClear path s
  | .pwrPref path val => Sys2Proof.Machine.execPwrPref path val s
  | .pwrHostOp path val => Sys2Proof.Machine.execPwrHostOp path val s
  | .pwrCap path val => Sys2Proof.Machine.execPwrCap path val s
  | .opChange => Sys2Proof.Machine.execOpChange s
  | .opFreqSwitch => Sys2Proof.Machine.execOpFreqSwitch s
  | .capTick avgW avg10W stretch => Sys2Proof.Machine.execCapTick avgW avg10W stretch s
  | .demandRecovery reason => Sys2Proof.Machine.execDemandRecovery reason s
  | .capUnmet => Sys2Proof.Machine.execCapUnmet s
  | .currentSample p => Sys2Proof.Machine.execCurrentSample p s
  | .currentOverTotal => Sys2Proof.Machine.execCurrentOverTotal s
  | .droopTrip d => Sys2Proof.Machine.execDroopTrip d s
  | .droopStretchEnd d => Sys2Proof.Machine.execDroopStretchEnd d s
  | .rampBoostStart => Sys2Proof.Machine.execRampBoostStart s
  | .rampBoostEnd => Sys2Proof.Machine.execRampBoostEnd s
  | .sensorSample rs stackTemps inletC outletC => Sys2Proof.Machine.execSensorSample rs stackTemps inletC outletC s
  | .thermalTrip die tempC => Sys2Proof.Machine.execThermalTrip die tempC s
  | .powerStageWarn rail => Sys2Proof.Machine.execPowerStageWarn rail s
  | .faultDemandClear => Sys2Proof.Machine.execFaultDemandClear s
  | .powerStageFail rail => Sys2Proof.Machine.execPowerStageFail rail s
  | .powerHandover => Sys2Proof.Machine.execPowerHandover s
  | .coldStart => Sys2Proof.Machine.execColdStart s
  | .bootDone b => Sys2Proof.Machine.execBootDone b s
  | .leverOpen => Sys2Proof.Machine.execLeverOpen s
  | .hostPwrEnDeassert => Sys2Proof.Machine.execHostPwrEnDeassert s
  | .modPresentLost => Sys2Proof.Machine.execModPresentLost s
  | .inputLoss => Sys2Proof.Machine.execInputLoss s
  | .inputOutOfRange mv => Sys2Proof.Machine.execInputOutOfRange mv s
  | .inputLockout mv => Sys2Proof.Machine.execInputLockout mv s
  | .strapSample a b c => Sys2Proof.Machine.execStrapSample a b c s
  | .strapChange v => Sys2Proof.Machine.execStrapChange v s
  | .refclkMeasure off present => Sys2Proof.Machine.execRefclkMeasure off present s
  | .refclkSwitch => Sys2Proof.Machine.execRefclkSwitch s
  | .refclkReturn => Sys2Proof.Machine.execRefclkReturn s
  | .sbWrite off val => Sys2Proof.Machine.execSbWrite off val s
  | .sbSetOffset off => Sys2Proof.Machine.execSbSetOffset off s
  | .sbRead => Sys2Proof.Machine.execSbRead s
  | .sbReadEventSeq => Sys2Proof.Machine.execSbReadEventSeq s
  | .sbBusStuck => Sys2Proof.Machine.execSbBusStuck s
  | .entdaa addr => Sys2Proof.Machine.execEntdaa addr s
  | .setdasa addr => Sys2Proof.Machine.execSetdasa addr s
  | .getpid => Sys2Proof.Machine.execGetpid s
  | .getbcr => Sys2Proof.Machine.execGetbcr s
  | .getdcr => Sys2Proof.Machine.execGetdcr s
  | .getstatus => Sys2Proof.Machine.execGetstatus s
  | .enec => Sys2Proof.Machine.execEnec s
  | .disec => Sys2Proof.Machine.execDisec s
  | .rstact action => Sys2Proof.Machine.execRstact action s
  | .tapBypass => Sys2Proof.Machine.execTapBypass s
  | .tapIdcode => Sys2Proof.Machine.execTapIdcode s
  | .tapSamplePreload => Sys2Proof.Machine.execTapSamplePreload s
  | .tapExtest => Sys2Proof.Machine.execTapExtest s
  | .tapIdleTimeout => Sys2Proof.Machine.execTapIdleTimeout s
  | .secNonceGen path => Sys2Proof.Machine.execSecNonceGen path s
  | .secFlashUnlock path bank => Sys2Proof.Machine.execSecFlashUnlock path bank s
  | .flashPageWrite path page data => Sys2Proof.Machine.execFlashPageWrite path page data s
  | .secCairnCompact path n => Sys2Proof.Machine.execSecCairnCompact path n s
  | .secCairnSel path lo => Sys2Proof.Machine.execSecCairnSel path lo s
  | .dailyPeriod => Sys2Proof.Machine.execDailyPeriod s
  | .slowReadCrossed dom => Sys2Proof.Machine.execSlowReadCrossed dom s
  | .opVoltageSettled => Sys2Proof.Machine.execOpVoltageSettled s
  | .replayRestoreDone ok => Sys2Proof.Machine.execReplayRestoreDone ok s
  | .boundaryCheckTimeout => Sys2Proof.Machine.execBoundaryCheckTimeout s
  | .freezeDecide err => Sys2Proof.Machine.execFreezeDecide err s
  | .warmResetDone => Sys2Proof.Machine.execWarmResetDone s
  | .sleepEntryDone => Sys2Proof.Machine.execSleepEntryDone s
  | .portEnable p => Sys2Proof.Machine.execPortEnable p s

end Sys2Proof.Machine
end

