-- ==== Sys2Proof/Machine/Tick.lean ====
section
/-! DEFINITION. What one idle step does: the global counter ticks (R29, R344), and an open boundary check looks again (R360). -/

namespace Sys2Proof.Machine

/-- One nanosecond: the global counter advances while it counts, and power-on time while the package is powered. -/
def tick (s : State) : State :=
  let s := if s.counting then countTick s else s
  ckpPoll (if s.pkg = .off then s else { s with upNs := s.upNs + 1 })

end Sys2Proof.Machine
end

