-- ==== Sys2Proof/Machine/Fletrum.lean ====
section
/-! DEFINITION. A Fletrum core from its instruction words: the word at the program counter, decoded and executed; a reserved word is ILLEGAL_INSN
(R136, R137, R491). -/

namespace Sys2Proof.Machine

/-- Execute instruction word `v` on core `c`: the command it spells, or ILLEGAL_INSN before it has any effect (R137). -/
def runWord (c : Fin 44) (ev : LoadEv) (v : BitVec 32) (s : State) : Host.Outcome State Fault Refusal :=
  match decodeInsn c ev v with
  | some i => exec i s
  | none => .next (insn c v.toNat false (fun _ s => s) s)

/-- The word at the program counter of core `c`, little-endian (R136). -/
def wordAtPc (c : Fin 44) (s : State) : BitVec 32 := BitVec.ofNat 32 (readOff (getCore c s).pc.toNat 4 s)

/-- Core `c` executes the instruction at its program counter. -/
def runCore (c : Fin 44) (ev : LoadEv) (s : State) : Host.Outcome State Fault Refusal := runWord c ev (wordAtPc c s) s

end Sys2Proof.Machine
end

