-- ==== Sys2Proof/Safety.lean ====
section
/-! DEFINITION. What counts as a safe state, in the terms claims use: byte memories in canonical form. -/

namespace Sys2Proof.Machine

/-- Every byte memory of a state is in canonical form: HBM over its background, tile SRAM and flash over zero, and the tile SRAM of
every control image a freeze cut saved. -/
def MemOk (s : State) : Prop :=
  Mem.wf (hbmBgByte s) s.hbm = true ∧ Mem.wf zeroByte s.tileSram = true ∧ Mem.wf zeroByte s.sec.flash = true ∧
  ∀ e ∈ s.ckp.saved, Mem.wf zeroByte e.2.tileSram = true

/-- An outcome is safe when it is no next state, or a next state whose memories are in canonical form. -/
def OutOk : Host.Outcome State Fault Refusal → Prop
  | .next t => MemOk t
  | _ => True

end Sys2Proof.Machine
end

