-- ==== Sys2Proof/Certificates/Slice0/Obligations.lean ====
section
/-! DEFINITION. The statements for the provers, each a `Prop` named `Obligations.<Name>`, with the words they use. -/

section Statements

namespace Sys2Proof.Claims
end Sys2Proof.Claims

open Sys2Proof Sys2Proof.Machine Sys2Proof.Claims

namespace Sys2Proof.Claims

/-! ### Words the statements use -/

/-- The command `i` answers the next state `t`. -/
def Runs (i : Instr) (s t : State) : Prop := exec i s = .next t

/-- Core `c` may retire an ordinary instruction: it runs or is in its trap handler, no load is in flight, it is not parking outside a
handler, and the fetch at its pc meets no fault. -/
def Ready (c : Nat) (s : State) : Prop := canRetire (getCore c s) = true ∧ fetchFault (getCore c s) s = none

/-- Every byte of every local offset reads as before. -/
def BytesKept (s t : State) : Prop := ∀ a, readOff a 1 t = readOff a 1 s

/-- The two words of GCT_START, which the first retirement of package sequencer core 0 writes. -/
def startWord (off : Nat) : Prop := off = gctBase + R.GCT_START_LO_COUNT.off ∨ off = gctBase + R.GCT_START_HI_COUNT.off

/-- Every CSR word but those `touched` names is unchanged; the first retirement of package sequencer core 0 takes the counter into
GCT_START. -/
def CsrKeptBut (touched : Nat → Prop) (c : Nat) (s t : State) : Prop :=
  let begins := (getCore c s).first = true ∧ c = 36
  (∀ d off, ¬ touched off → ¬ (startWord off ∧ begins) → csrGet d off t = csrGet d off s) ∧
  (begins → getPair gctBase R.GCT_START_LO_COUNT R.GCT_START_HI_COUNT t = s.count.toNat)

/-- Core `c` retired its instruction; outside it only the CSR words `touched` names changed: no other core, no other register, no byte of
memory, no other part of the state. -/
def OnlyCoreBut (touched : Nat → Prop) (c : Nat) (s t : State) : Prop :=
  (∀ j, j ≠ c → getCore j t = getCore j s) ∧ CsrKeptBut touched c s t ∧ BytesKept s t ∧ { t with cores := s.cores, csr := s.csr } = s

/-- Core `c` retired its instruction and changed nothing outside itself. -/
def OnlyCore (c : Nat) (s t : State) : Prop := OnlyCoreBut (fun _ => False) c s t

/-- What retiring leaves of a core beside its general, summary and vector registers: the pc is `pc`, the core runs (in its handler while
traps are masked) and waits for nothing; nothing else of it changed. -/
def WentOn (pc : BitVec 48) (k k' : Core) : Prop :=
  k'.pc = pc ∧ k'.st = (if k.trapMask then .inTrap else .running) ∧ k'.wait = none ∧ k'.first = false ∧
  { k' with g := k.g, h := k.h, pc := k.pc, st := k.st, wait := k.wait, first := k.first, qpLast := k.qpLast } = k

/-- g[d] holds `v` (g0 reads 0 and ignores the write), every other g register and every h register is unchanged. -/
def WroteG (d : Nat) (v : DWord) (k k' : Core) : Prop :=
  getG k' d = (if d = 0 then 0 else v) ∧ (∀ n, n ≠ d → getG k' n = getG k n) ∧ ∀ n, getH k' n = getH k n

/-- h[d] holds `v`, every other h register and every g register is unchanged. -/
def WroteH (d : Nat) (v : BitVec 256) (k k' : Core) : Prop :=
  getH k' d = v ∧ (∀ n, n ≠ d → getH k' n = getH k n) ∧ ∀ n, getG k' n = getG k n

/-- No g and no h register changed. -/
def WroteNone (k k' : Core) : Prop := (∀ n, getG k' n = getG k n) ∧ ∀ n, getH k' n = getH k n

/-- Core `c` retires `i` into `t`: it goes on at `pc`, g[d] receives `v`, nothing else changes. -/
def RetiresG (i : Instr) (c d : Nat) (v : DWord) (pc : BitVec 48) (s : State) : Prop :=
  ∃ t, Runs i s t ∧ OnlyCore c s t ∧ WentOn pc (getCore c s) (getCore c t) ∧ WroteG d v (getCore c s) (getCore c t)

/-- Core `c` retires `i`: it goes on at `pc`, h[d] receives `v`, nothing else changes. -/
def RetiresH (i : Instr) (c d : Nat) (v : BitVec 256) (pc : BitVec 48) (s : State) : Prop :=
  ∃ t, Runs i s t ∧ OnlyCore c s t ∧ WentOn pc (getCore c s) (getCore c t) ∧ WroteH d v (getCore c s) (getCore c t)

/-- Core `c` retires `i`: it goes on at `pc` and nothing else changes. -/
def Retires (i : Instr) (c : Nat) (pc : BitVec 48) (s : State) : Prop :=
  ∃ t, Runs i s t ∧ OnlyCore c s t ∧ WentOn pc (getCore c s) (getCore c t) ∧ WroteNone (getCore c s) (getCore c t)

/-- The byte at a physical place of HBM or of the companion window, as the Depots and HBM hold it. -/
def placeByte (p : Nat) (s : State) : Nat := bitsAt (lineNat (p / 128) s) (8 * (p % 128)) 8

/-- A byte of tile SRAM. -/
def sramByte (x : Nat) (s : State) : Byte := memRead zeroByte s.tileSram x

/-- A store of `n` bytes of `v` at physical place `p` and nothing else of memory: the bytes stored read as the value, every other byte of HBM,
of the companion window and of tile SRAM reads as before. -/
def StoredAt (p n v : Nat) (s t : State) : Prop :=
  (∀ i, i < n → placeByte (p + i) t = v / 256 ^ i % 256) ∧ (∀ x, ¬ (p ≤ x ∧ x < p + n) → placeByte x t = placeByte x s) ∧
  t.tileSram = s.tileSram

/-- A store of `n` bytes of `v` at byte `x` of tile SRAM and nothing else of memory. -/
def StoredInTile (x n v : Nat) (s t : State) : Prop :=
  (∀ i, i < n → sramByte (x + i) t = BitVec.ofNat 8 (v / 256 ^ i)) ∧ (∀ y, ¬ (x ≤ y ∧ y < x + n) → sramByte y t = sramByte y s) ∧
  t.hbm = s.hbm ∧ t.depot = s.depot

/-- The words of a counter pair. -/
def pairWords (base : Nat) (lo hi : Fld) (off : Nat) : Prop := off = base + lo.off ∨ off = base + hi.off

/-- A counter pair counted one more, modulo 2^64. -/
def CountedOne (base : Nat) (lo hi : Fld) (s t : State) : Prop := getPair base lo hi t = (getPair base lo hi s + 1) % 2 ^ 64

/-- The state of memory, registers and everything else but cores is untouched by data of core `c`: every other core is the same. -/
def OtherCoresKept (c : Nat) (s t : State) : Prop := ∀ j, j ≠ c → getCore j t = getCore j s

/-- The Depot of die `d` takes line `pl` without giving another up: it holds a copy, or its set has a free way and the home's directory a free entry. -/
def DepotTakes (d : Fin 4) (pl : Nat) (s : State) : Prop :=
  (∃ x, sFind s.depot pl = some x ∧ d ∈ x.holders) ∨ ((waysOf d pl s).length < 16 ∧ (d.val ≠ homeDie pl → (dirLines (homeDie pl) s).length < 4194304))

/-! ### Registers and the Logbook -/

/-- The offset of EVR_LOST, which counts dropped events. -/
def lostAt : Nat := evrBase + R.EVR_LOST_SEV0.off

/-- Only the Logbook, the companion totals, the step's error flag and the CSR words `touched` names changed (and EVR_LOST, where an event was
dropped): no core, no byte of memory, no other part of the state. -/
def OnlyRegs (touched : Nat → Prop) (s t : State) : Prop :=
  (∀ d off, ¬ touched off → off ≠ lostAt → csrGet d off t = csrGet d off s) ∧
  { t with csr := s.csr, log := s.log, totals := s.totals, stepErr := s.stepErr } = s

/-- Nothing changed but the Logbook's queues, the count of lost events and its total, and the step's error flag. -/
def OnlyLogged (s t : State) : Prop := OnlyRegs (fun _ => False) s t

/-- The CSR words that `touched` does not name are unchanged (EVR_LOST apart). -/
def RegsKeptBut (touched : Nat → Prop) (s t : State) : Prop := ∀ d off, ¬ touched off → off ≠ lostAt → csrGet d off t = csrGet d off s

/-- The words of some fields of the block at `base`. -/
def regAt (base : Nat) (l : List Fld) (off : Nat) : Prop := ∃ f ∈ l, off = base + f.off

/-- An event of this code and severity entered its source's queue with the counter's value, unless fewer than two places were free there. -/
def Logged (src code sev : Nat) (s t : State) : Prop :=
  (sGet [] s.log.queues src).length < 3 → ∃ e ∈ sGet [] t.log.queues src, e.code = code ∧ e.sev = sev ∧ e.src = src ∧ e.time = s.count

/-- A saturating count field counted one more. -/
def Bumped (base : Nat) (f : Fld) (s t : State) : Prop := getF base f t = satAdd f.w (getF base f s) 1

/-- No byte memory, no Depot line and no poison mark changed. -/
def MemoriesKept (s t : State) : Prop := t.hbm = s.hbm ∧ t.tileSram = s.tileSram ∧ t.depot = s.depot ∧ t.poison = s.poison ∧ t.hbmBg = s.hbmBg

end Sys2Proof.Claims

/-- The step at a state whose queue begins with `c` is `exec c` on the same state with the queue's rest. -/
def Obligations.StepRunsFrontCommand : Prop :=
  ∀ (c : Instr) (rest : List Instr) (s : State), step { s with pending := c :: rest } = exec c { s with pending := rest }

/-- An idle step (the model's choice, log entry 2). -/
def Obligations.EmptyQueueTicks : Prop :=
  ∀ s : State, s.pending = [] → s.ckp.checking = none →
    let f := signed 32 (getF gctBase R.GCT_FREQ_FREQ s)
    ∃ t, step s = .next t ∧ (s.counting = false → t.count = s.count) ∧
      (s.counting = true → (f = 0 → t.count = s.count + 1) ∧
        (0 ≤ s.sync.frac → s.sync.frac < 16000000000 → f.natAbs ≤ 100000 →
          (f > 0 → t.count = s.count + 1 ∨ t.count = s.count + 2) ∧ (f < 0 → t.count = s.count + 1 ∨ t.count = s.count) ∧
          0 ≤ t.sync.frac ∧ t.sync.frac < 16000000000)) ∧
      (∀ d off, off ≠ gctBase + R.GCT_FREQ_FREQ.off → csrGet d off t = csrGet d off s) ∧
      (getF gctBase R.GCT_FREQ_FREQ t = getF gctBase R.GCT_FREQ_FREQ s ∨ getF gctBase R.GCT_FREQ_FREQ t = 0) ∧
      t.cores = s.cores ∧ t.engines = s.engines ∧ MemoriesKept s t ∧ t.pending = []

/-- Reset. -/
def Obligations.ResetLeavesTheBlocksEmpty : Prop :=
  let s := State.reset
  s.pkg = .standby ∧ s.pending = [] ∧ s.stepErr = false ∧
  (∀ c, (getCore c s).st = .idle ∧ (getCore c s).tag = 0 ∧ (getCore c s).out = [] ∧ (getCore c s).sPend = [] ∧
    (∀ n, getG (getCore c s) n = 0) ∧ (∀ n, getH (getCore c s) n = 0) ∧ (∀ n, getS (getCore c s) n = sumReset)) ∧
  (∀ k, (getEng k s).cross = [] ∧ (getEng k s).queue = [] ∧ (getEng k s).trap = none) ∧
  (∀ d, (getDsp d s).batches = []) ∧
  (∀ p n, getV p n s = 0) ∧ (∀ p n, getM p n s = BitVec.allOnes 256) ∧
  (∀ k n base r, (∃ o, csrPlace o = .reg k n base r ∧ o ∉ [0x020020, 0x4C0008]) → ∀ f ∈ r.flds, getF base f s = f.rst) ∧
  s.log.recs = [] ∧ s.log.head = 0 ∧ s.log.hold = [] ∧ (∀ q, sGet [] s.log.queues q = [])

/-- The invariant holds at reset. -/
def Obligations.ResetMemoriesAreCanonical : Prop := MemOk State.reset

/-- The invariant that every step keeps. -/
def Obligations.EveryStepKeepsMemoriesCanonical : Prop := ∀ s t : State, MemOk s → step s = .next t → MemOk t

/-- Commands leave the queue alone, and a step removes its front. -/
def Obligations.CommandsLeaveTheQueueAlone : Prop :=
  (∀ (i : Instr) (s t : State), MemOk s → exec i s = .next t → t.pending = s.pending) ∧
  (∀ s t : State, MemOk s → step s = .next t → t.pending = s.pending.tail)

namespace Sys2Proof.Claims

/-- The commands that can write a state window: the windows themselves and whatever carries a CSR write to its block. -/
noncomputable def mayWriteImage : Instr → Prop
  | .seqStateWindow _ _ _ _ | .dspStateWindow _ _ _ _ | .slvStateWindow _ _ _ _ | .colStateWindow _ _ _ | .csrWrite _ _ _ | .slowWriteCrossed _
  | .slowReadCrossed _ | .slowAccessAbandon _ | .csrrd _ _ | .csrwr _ _ | .csrRd _ | .csrWr _ | .sbWrite _ _ | .sbRead | .sbReadEventSeq
  | .flitReceive _ _ => True
  | _ => False

end Sys2Proof.Claims

/-- What can stop. -/
def Obligations.OnlyStateImagesStop : Prop :=
  (∀ (i : Instr) (s : State) (r : Refusal), exec i s ≠ .refused r) ∧
  (∀ (i : Instr) (s : State) (f : Fault), exec i s = .fault f → f = .undefinedImage ∧ mayWriteImage i) ∧
  (∀ (i : Instr) (s : State), ¬ mayWriteImage i → ∃ t, exec i s = .next t)

/-- Reading back what was written, one line of HBM or of tile SRAM. -/
def Obligations.LocalWritesReadBack : Prop :=
  ∀ (off n v : Nat) (s : State), 0 < n → off % 128 + n ≤ 128 →
    (∀ p, target off s = .hbm p → chanOos (p / 128) s = false → writeHeld (p / 128) s = false →
      StoredAt p n v s (writeOff off n v s) ∧ (writeOff off n v s).cores = s.cores ∧ (writeOff off n v s).csr = s.csr ∧
        (writeOff off n v s).engines = s.engines) ∧
    (∀ q a, target off s = .tile q a →
      writeOff off n v s = s ∧
      ∀ o, StoredInTile (tileAddr q a) n v s (putLine o off n v false s) ∧
        { putLine o off n v false s with tileSram := s.tileSram, poison := s.poison } = s)

/-- The hard-wired registers, and the register files' reads after writes. -/
def Obligations.MaskZeroReadsOnes : Prop :=
  (∀ (p : Nat) (s : State), getM p 0 s = BitVec.allOnes 256) ∧ (∀ k : Core, getG k 0 = 0) ∧
  (∀ (p : Nat) (v : BitVec 256) (s : State), setM p 0 v s = s) ∧
  (∀ (v : DWord) (k : Core) (n : Nat), getG (setG 0 v k) n = getG k n) ∧
  (∀ (p q n m : Nat) (v : BitVec 256) (s : State), 0 < n → n < 8 → m < 8 →
    getM q m (setM p n v s) = if q = p ∧ m = n then v else getM q m s) ∧
  (∀ (p q n m : Nat) (v : BitVec 2048) (s : State), n < 32 → m < 32 →
    getV q m (setV p n v s) = if q = p ∧ m = n then v else getV q m s) ∧
  (∀ (n m : Nat) (v : DWord) (k : Core), 0 < n → getG (setG n v k) m = if m = n then v else getG k m)

namespace Sys2Proof.Claims

/-- The ALU register forms and the value each writes, from a = g[P] and b = g[Q] (R136, R138, R491). -/
def aluForms (c : Fin 44) (w : BitVec 22) (a b : DWord) : List (Instr × DWord) :=
  [(.add c w, a + b), (.sub c w, a - b), (.and c w, a &&& b), (.or c w, a ||| b), (.xor c w, a ^^^ b),
   (.shl c w, a <<< (b.toNat % 64)), (.shrl c w, a >>> (b.toNat % 64)), (.shra c w, BitVec.sshiftRight a (b.toNat % 64)),
   (.mul c w, a * b),
   (.mulh c w, BitVec.ofInt 64 (a.toInt * b.toInt / 2 ^ 64)),
   (.mulhu c w, BitVec.ofNat 64 (a.toNat * b.toNat / 2 ^ 64)),
   (.divu c w, if b = 0 then BitVec.allOnes 64 else a / b),
   (.remu c w, if b = 0 then a else a % b),
   (.min c w, if a.toInt ≤ b.toInt then a else b), (.max c w, if a.toInt ≤ b.toInt then b else a),
   (.minu c w, if a.toNat ≤ b.toNat then a else b), (.maxu c w, if a.toNat ≤ b.toNat then b else a),
   (.slt c w, if a.toInt < b.toInt then 1 else 0), (.sltu c w, if a.toNat < b.toNat then 1 else 0),
   (.seq c w, if a = b then 1 else 0)]

/-- The unary ALU forms: the number of leading zeros and the number of ones of a = g[P] (R491). -/
def aluUnaryForms (c : Fin 44) (w : BitVec 22) (a : DWord) : List (Instr × DWord) :=
  [(.clz c w, BitVec.ofNat 64 (64 - bitLen a.toNat)), (.popcnt c w, BitVec.ofNat 64 (popCount a.toNat 64))]

end Sys2Proof.Claims

/-- Every ALU register form retires with its result in g[D] and changes nothing else. -/
def Obligations.AluRegisterFormsWriteTheirResult : Prop :=
  ∀ (c : Fin 44) (w : BitVec 22) (s : State), Ready c s → fX w = 0 →
    (∀ x ∈ aluForms c w (getG (getCore c s) (fP w)) (getG (getCore c s) (fQ w)),
      RetiresG x.1 c (fD w) x.2 ((getCore c s).pc + 4) s) ∧
    (fQ w = 0 → ∀ x ∈ aluUnaryForms c w (getG (getCore c s) (fP w)), RetiresG x.1 c (fD w) x.2 ((getCore c s).pc + 4) s)

namespace Sys2Proof.Claims

/-- The immediate forms and the value each writes, from a = g[P] and the sign-extended IMM12 (R136, R138). -/
def immForms (c : Fin 44) (w : BitVec 22) (a : DWord) (m : DWord) : List (Instr × DWord) :=
  [(.addi c w, a + m), (.andi c w, a &&& m), (.ori c w, a ||| m), (.xori c w, a ^^^ m),
   (.shli c w, a <<< (m.toNat % 64)), (.shrli c w, a >>> (m.toNat % 64)), (.shrai c w, BitVec.sshiftRight a (m.toNat % 64)),
   (.slti c w, if a.toInt < m.toInt then 1 else 0)]

/-- The format codes with VX lanes and their lanes per register (R99). -/
def laneCounts : List (Nat × Int) := [(0, 256), (1, 256), (5, 256), (6, 128), (7, 128), (8, 64), (9, 32), (10, 64)]

end Sys2Proof.Claims

/-- Every immediate and constant form retires with its result in g[D] and changes nothing else. -/
def Obligations.ImmediateFormsWriteTheirResult : Prop :=
  ∀ (c : Fin 44) (w : BitVec 22) (s : State), Ready c s →
    let k := getCore c s
    let a := getG k (fP w)
    (∀ x ∈ immForms c w a (BitVec.ofInt 64 (fImm w)), RetiresG x.1 c (fD w) x.2 (k.pc + 4) s) ∧
    (∀ x ∈ laneCounts, bitsAt w.toNat 0 12 = x.1 →
      RetiresG (.strip c w) c (fD w) (BitVec.ofInt 64 (if 0 < a.toInt then min a.toInt x.2 - 1 else -1)) (k.pc + 4) s) ∧
    (∀ hw : BitVec 2, bitsAt w.toNat 16 1 = 0 →
      RetiresG (.movz c hw w) c (fD w) (BitVec.ofNat 64 (bitsAt w.toNat 0 16 * 2 ^ (16 * hw.toNat))) (k.pc + 4) s ∧
      RetiresG (.movk c hw w) c (fD w) (BitVec.ofNat 64 (putBits (getG k (fD w)).toNat (16 * hw.toNat) 16 w.toNat)) (k.pc + 4) s)

namespace Sys2Proof.Claims

/-- The conditional branches and when each is taken, from a = g[D] and b = g[P] (R136). -/
def branchForms (c : Fin 44) (w : BitVec 22) (a b : DWord) : List (Instr × Prop) :=
  [(.beq c w, a = b), (.bne c w, a ≠ b), (.blt c w, a.toInt < b.toInt), (.bge c w, b.toInt ≤ a.toInt),
   (.bltu c w, a.toNat < b.toNat), (.bgeu c w, b.toNat ≤ a.toNat)]

end Sys2Proof.Claims

/-- Branches and jumps retire at the target the operands give, and write at most the link register. -/
def Obligations.BranchesAndJumpsSetThePc : Prop :=
  ∀ (c : Fin 44) (w : BitVec 22) (s : State), Ready c s →
    let k := getCore c s
    (∀ x ∈ branchForms c w (getG k (fD w)) (getG k (fP w)),
      (x.2 → Retires x.1 c (k.pc + BitVec.ofInt 48 (4 * fImm w)) s) ∧ (¬ x.2 → Retires x.1 c (k.pc + 4) s)) ∧
    RetiresG (.jal c w) c (fD w) (BitVec.ofNat 64 (k.pc + 4).toNat) (k.pc + BitVec.ofInt 48 (4 * signed 17 w.toNat)) s ∧
    ((getG k (fP w) + BitVec.ofInt 64 (fImm w)).toNat % 4 = 0 →
      RetiresG (.jalr c w) c (fD w) (BitVec.ofNat 64 (k.pc + 4).toNat) (BitVec.ofNat 48 (getG k (fP w) + BitVec.ofInt 64 (fImm w)).toNat) s)

namespace Sys2Proof.Claims

/-- No trap of a VX of core `c`'s cluster that names summary register `r` is to be delivered: delivery is masked, or none is pending (R152). -/
def NoTrapFor (c r : Nat) (s : State) : Prop :=
  (getCore c s).trapMask = true ∨ trappedTile c (fun x => x.sum = some r) s = none

/-- The value VF makes of a 64-bit operand: FP64, FP32, unsigned, signed; no number for a NaN (R149). -/
def vfNumber (vf v : Nat) : Option Int :=
  if vf = 0 then fpKey 11 52 v else if vf = 1 then fpKey 8 23 (v % 2 ^ 32) else if vf = 2 then some (v : Int) else some (signed 64 v)

/-- VALUE of summary `x` and `b` satisfy `rel` under VF; an unordered pair does not. -/
def vfHolds (vf : Nat) (x : BitVec 128) (b : DWord) (rel : Int → Int → Prop) : Prop :=
  ∃ m n, vfNumber vf (bitsAt x.toNat 0 64) = some m ∧ vfNumber vf b.toNat = some n ∧ rel m n

/-- The summary branches and when each is taken, for the summary `x` = s[S] and b = g[Q] (R111, R149). -/
def bsForms (c : Fin 44) (w : BitVec 22) (x : BitVec 128) (b : DWord) : List (Instr × Prop) :=
  [(.bsMark c w, bitsAt x.toNat 119 1 = 1), (.bsNmark c w, bitsAt x.toNat 119 1 = 0), (.bsTrap c w, bitsAt x.toNat 120 1 = 1),
   (.bsUe c w, bitsAt x.toNat 121 1 = 1), (.bsCnz c w, bitsAt x.toNat 64 25 ≠ 0), (.bsCz c w, bitsAt x.toNat 64 25 = 0),
   (.bsVgt c w, vfHolds (fVf w) x b (fun m n => n < m)), (.bsVle c w, vfHolds (fVf w) x b (fun m n => m ≤ n)),
   (.bsVeq c w, vfHolds (fVf w) x b (fun m n => m = n))]

/-- The summary reads and the bits each delivers (R111, R149). -/
def sgetForms (c : Fin 44) (w : BitVec 22) (x : BitVec 128) : List (Instr × Nat) :=
  [(.sgetValue c w, bitsAt x.toNat 0 64), (.sgetCount c w, bitsAt x.toNat 64 25), (.sgetFirst c w, bitsAt x.toNat 89 25),
   (.sgetFlags c w, bitsAt x.toNat 114 8)]

end Sys2Proof.Claims

/-- Summary branches and reads act on a valid summary register and leave everything as it is while it is pending. -/
def Obligations.SummaryClassBranchesAndReads : Prop :=
  ∀ (c : Fin 44) (w : BitVec 22) (s : State), Ready c s → NoTrapFor c (fS w) s →
    let k := getCore c s
    let x := getS k (fS w)
    (fS w ∉ k.sPend →
      (∀ f ∈ bsForms c w x (getG k (fP w)),
        (f.2 → Retires f.1 c (k.pc + BitVec.ofInt 48 (4 * fImm w)) s) ∧ (¬ f.2 → Retires f.1 c (k.pc + 4) s)) ∧
      (∀ f ∈ sgetForms c w x, RetiresG f.1 c (fP w) (BitVec.ofNat 64 f.2) (k.pc + 4) s)) ∧
    (fS w ∈ k.sPend →
      (∀ f ∈ bsForms c w x (getG k (fP w)), Runs f.1 s s) ∧ (∀ f ∈ sgetForms c w x, Runs f.1 s s))

namespace Sys2Proof.Claims

/-- The sticky flags of SEQ_FLAGS with their places in a flag set (R111, R139). -/
def seqFlagBits : List (Nat × Fld) := [(0, R.SEQ_FLAGS_NV), (1, R.SEQ_FLAGS_OF), (2, R.SEQ_FLAGS_UF), (3, R.SEQ_FLAGS_NX)]

/-- A short-vector instruction retired from `s` into `t`: lane `j` of h[D], `b` bits wide, holds the value of `r j`; a flag of SEQ_FLAGS is 1 when it was or a lane
raised it; nothing else changed. -/
def LanesDone (c : Fin 44) (w : BitVec 22) (b : Nat) (r : Nat → Nat × Nat) (s t : State) : Prop :=
  let k := getCore c s
  OnlyCoreBut (fun off => off = seqBase c + R.SEQ_FLAGS_NV.off) c s t ∧ WentOn (k.pc + 4) k (getCore c t) ∧
  (∀ j, j < 256 / b → lane (getH (getCore c t) (fD w)).toNat b j = (r j).1 % 2 ^ b) ∧
  (∀ n, n ≠ fD w → getH (getCore c t) n = getH k n) ∧ (∀ n, getG (getCore c t) n = getG k n) ∧
  (∀ x ∈ seqFlagBits, getF (seqBase c) x.2 t = 1 ↔ (getF (seqBase c) x.2 s = 1 ∨ ∃ j, j < 256 / b ∧ bitAt (r j).2 x.1 = true))

/-- The moves between g registers, h registers and lanes. -/
def ShortVectorMovesHold : Prop :=
  ∀ (c : Fin 44) (w : BitVec 22) (s : State), Ready c s → bitsAt w.toNat 0 4 ≤ 10 → fQ w < 16 →
    let k := getCore c s
    let b := codeBits (bitsAt w.toNat 0 4)
    let i := bitsAt w.toNat 4 3
    (fD w < 16 → i = 0 →
      ∃ v, RetiresH (.svbcast c w) c (fD w) v (k.pc + 4) s ∧ ∀ j, j < 256 / b → lane v.toNat b j = (getG k (fP w)).toNat % 2 ^ b) ∧
    (fD w < 16 → b * (i + 1) ≤ 256 →
      ∃ v, RetiresH (.svins c w) c (fD w) v (k.pc + 4) s ∧ lane v.toNat b i = (getG k (fP w)).toNat % 2 ^ b ∧
        ∀ j, j < 256 / b → j ≠ i → lane v.toNat b j = lane (getH k (fD w)).toNat b j) ∧
    (fP w < 16 → b * (i + 1) ≤ 256 →
      RetiresG (.svext c w) c (fD w) (BitVec.ofNat 64 (lane (getH k (fP w)).toNat b i)) (k.pc + 4) s) ∧
    (fD w < 16 → fP w < 16 → i = 0 → RetiresH (.svmv c w) c (fD w) (getH k (fP w)) (k.pc + 4) s)

end Sys2Proof.Claims

/-- Every short-vector operation retires with its lanes in h[D] and gathers the flags its lanes raised (R58, R62, R139): X[3:0] is the format code, X[6:4] the
variant. -/
def Obligations.ShortVectorResultsAndMoves : Prop :=
  ShortVectorMovesHold ∧
  ∀ (c : Fin 44) (w : BitVec 22) (s : State), Ready c s → fD w < 16 → fP w < 16 → fQ w < 16 →
    let d := (getH (getCore c s) (fD w)).toNat
    let p := (getH (getCore c s) (fP w)).toNat
    let q := (getH (getCore c s) (fQ w)).toNat
    let fmt := bitsAt w.toNat 0 4
    let var := bitsAt w.toNat 4 3
    let b := codeBits fmt
    let elem := fun opc j => elemFp opc 0 ((fmtOf fmt).getD fp64) (lane p b j) (lane q b j) (lane d b j)
    let src := Config.freeResult 30 w.toNat % 11
    let sb := codeBits src
    let f16 := (fmtOf fmt).getD bf16
    (fmt ∈ [6, 7, 8, 9] → var = 0 →
      (∃ t, Runs (.svadd c w) s t ∧ LanesDone c w b (elem 0x00) s t) ∧ (∃ t, Runs (.svsub c w) s t ∧ LanesDone c w b (elem 0x01) s t) ∧
      (∃ t, Runs (.svmul c w) s t ∧ LanesDone c w b (elem 0x02) s t) ∧ (∃ t, Runs (.svfma c w) s t ∧ LanesDone c w b (elem 0x03) s t) ∧
      (∃ t, Runs (.svmin c w) s t ∧ LanesDone c w b (elem 0x06) s t) ∧ (∃ t, Runs (.svmax c w) s t ∧ LanesDone c w b (elem 0x07) s t)) ∧
    (fmt ∈ laneCounts.map (·.1) → var = 0 →
      ∃ t, Runs (.svcvt c w) s t ∧ LanesDone c w b (fun j =>
        if sb * (j + 1) ≤ 256 ∧ sb ≠ 0 then convert (decide (Config.freeResult 31 0 % 2 = 1)) src fmt (lane p sb j) else (lane d b j, 0)) s t) ∧
    (fmt ∈ [5, 6, 7, 8, 10] → var < 2 →
      ∃ t, Runs (.svwmul c w) s t ∧ LanesDone c w (2 * b) (fun j =>
        let i := var * (256 / (2 * b)) + j
        match fmtOf fmt with
        | some f => mulV (if fmt = 8 then fp64 else fp32) (decodeF f (lane p b i)) (decodeF f (lane q b i))
        | none => (wrap (2 * b) (signed b (lane p b i) * signed b (lane q b i)), 0)) s t) ∧
    (fmt ∉ [5, 6, 7, 8, 10] → var < 2 → Config.freeResult 100 fmt % 2 = 1 →
      ∃ t, Runs (.svwmul c w) s t ∧ LanesDone c w 32 (fun j =>
        (wrap 32 (signed 16 (lane p 16 (var * 8 + j)) * signed 16 (lane q 16 (var * 8 + j))), 0)) s t) ∧
    (fmt = 5 → var = 0 →
      ∃ t, Runs (.svdot4 c w) s t ∧ LanesDone c w 32 (fun j =>
        let x := fun k => signed 8 (lane p 8 (4 * j + k)) * signed 8 (lane q 8 (4 * j + k))
        (wrap 32 (signed 32 (lane d 32 j) + x 0 + x 1 + x 2 + x 3), 0)) s t) ∧
    (fmt ∈ [6, 7] → var = 0 →
      ∃ t, Runs (.svdot2 c w) s t ∧ LanesDone c w 32 (fun j =>
        let x := fun k => prodOf (decodeF f16 (lane p 16 (2 * j + k))) (decodeF f16 (lane q 16 (2 * j + k))) 0 false
        groupUpdate fp32 (decodeF fp32 (lane d 32 j)) [x 0, x 1]) s t) ∧
    (fmt = 8 → var = 0 →
      ∃ t, Runs (.svwdot2 c w) s t ∧ LanesDone c w 64 (fun j =>
        let x := fun k => prodOf (decodeF fp32 (lane p 32 (2 * j + k))) (decodeF fp32 (lane q 32 (2 * j + k))) 0 false
        groupUpdate fp64 (decodeF fp64 (lane d 64 j)) [x 0, x 1]) s t)

namespace Sys2Proof.Claims

/-- The address of a load or store: g[P] + IMM12. -/
def accessAddr (c : Nat) (w : BitVec 22) (s : State) : DWord := getG (getCore c s) (fP w) + BitVec.ofInt 64 (fImm w)

/-- The loads into g registers: size in bytes and whether the value is sign-extended (R140). -/
def loadForms (c : Fin 44) (w : BitVec 22) (ev : LoadEv) : List (Instr × Nat × Bool) :=
  [(.ld8 c w ev, 1, true), (.ld16 c w ev, 2, true), (.ld32 c w ev, 4, true), (.ld64 c w ev, 8, false), (.ldu8 c w ev, 1, false),
   (.ldu16 c w ev, 2, false), (.ldu32 c w ev, 4, false)]

/-- What a load of `size` bytes of value `v` puts into a g register. -/
def loadedG (size : Nat) (sign : Bool) (v : Nat) : DWord := BitVec.ofInt 64 (if sign then signed (8 * size) v else (v : Int))

/-- A load finds its line in a Depot: it retires with `v` in its register and counts a hit of die `d`. -/
def HitG (i : Instr) (c d dreg : Nat) (v : DWord) (s : State) : Prop :=
  ∃ t, Runs i s t ∧ OnlyCoreBut (pairWords (depBase d) R.DEP_HIT_LO_VALUE R.DEP_HIT_HI_VALUE) c s t ∧
    CountedOne (depBase d) R.DEP_HIT_LO_VALUE R.DEP_HIT_HI_VALUE s t ∧ WentOn ((getCore c s).pc + 4) (getCore c s) (getCore c t) ∧
    WroteG dreg v (getCore c s) (getCore c t)

/-- A load misses every Depot: its core holds the load `lw` in flight and has not moved; a miss of die `d` is counted. -/
def Missed (i : Instr) (c d : Nat) (lw : LoadWait) (s : State) : Prop :=
  ∃ t, Runs i s t ∧ OtherCoresKept c s t ∧ getCore c t = { getCore c s with load := some lw } ∧
    CountedOne (depBase d) R.DEP_MISS_LO_VALUE R.DEP_MISS_HI_VALUE s t ∧
    (∀ e off, ¬ pairWords (depBase d) R.DEP_MISS_LO_VALUE R.DEP_MISS_HI_VALUE off → csrGet e off t = csrGet e off s) ∧ BytesKept s t ∧
    { t with cores := s.cores, csr := s.csr } = s

end Sys2Proof.Claims

/-- Loads deliver the bytes of tile SRAM or of a Depot line, and wait on a miss. -/
def Obligations.LoadsDeliverTheirBytes : Prop :=
  ∀ (c : Fin 44) (w : BitVec 22) (s : State), Ready c s →
    let k := getCore c s
    let a := accessAddr c w s
    let ev : LoadEv := ⟨false, false, false⟩
    isLocal a.toNat s = true →
    (∀ p b, target (offOf a.toNat) s = .tile p b → c.val < 36 → p / 8 = c.val → tileKey p b ∉ s.poison →
      (∀ f ∈ loadForms c w ev, a.toNat % f.2.1 = 0 →
        RetiresG f.1 c (fD w) (loadedG f.2.1 f.2.2 (tileReadN p b f.2.1 s)) (k.pc + 4) s) ∧
      (a.toNat % 32 = 0 → fD w < 16 → RetiresH (.ldh c w ev) c (fD w) (BitVec.ofNat 256 (tileReadN p b 32 s)) (k.pc + 4) s)) ∧
    (∀ p x, target (offOf a.toNat) s = .hbm p → sFind s.depot (p / 128) = some x → x.poison = false → coreDie c (p / 128) ∈ x.holders →
      let d := (coreDie c (p / 128)).val
      (∀ f ∈ loadForms c w ev, a.toNat % f.2.1 = 0 →
        HitG f.1 c d (fD w) (loadedG f.2.1 f.2.2 (bitsAt x.data.toNat (8 * (p % 128)) (8 * f.2.1))) s) ∧
      (a.toNat % 32 = 0 → fD w < 16 →
        ∃ t, Runs (.ldh c w ev) s t ∧ OnlyCoreBut (pairWords (depBase d) R.DEP_HIT_LO_VALUE R.DEP_HIT_HI_VALUE) c s t ∧
          CountedOne (depBase d) R.DEP_HIT_LO_VALUE R.DEP_HIT_HI_VALUE s t ∧ WentOn (k.pc + 4) k (getCore c t) ∧
          WroteH (fD w) (BitVec.ofNat 256 (bitsAt x.data.toNat (8 * (p % 128)) 256)) k (getCore c t))) ∧
    (∀ p, target (offOf a.toNat) s = .hbm p → (∀ x, sFind s.depot (p / 128) = some x → coreDie c (p / 128) ∉ x.holders) →
      (sFind s.depot (p / 128) = none → readHeld (p / 128) s = false) → p / 128 < compKey 0 →
      let d := (coreDie c (p / 128)).val
      (∀ f ∈ loadForms c w ev, a.toNat % f.2.1 = 0 → Missed f.1 c d ⟨fD w, f.2.1, f.2.2, false, a, none, false⟩ s) ∧
      (a.toNat % 32 = 0 → fD w < 16 → Missed (.ldh c w ev) c d ⟨fD w, 32, false, true, a, none, false⟩ s))

/-- The data of a load that missed arrive: the line is in the Depot, the register holds the bytes, the core goes on. -/
def Obligations.LoadDataReturnCompletesTheLoad : Prop :=
  ∀ (c : Fin 44) (s : State) (lw : LoadWait) (p : Nat),
    let k := getCore c s
    k.load = some lw → k.st ≠ .stopped → k.st ≠ .faulted → isLocal lw.addr.toNat s = true →
    target (offOf lw.addr.toNat) s = .hbm p → sFind s.depot (p / 128) = none → readHeld (p / 128) s = false → linePoison (p / 128) s = false →
    DepotTakes (coreDie c (p / 128)) (p / 128) s → p / 128 < compKey 0 →
    let v := bitsAt (lineNat (p / 128) s) (8 * (lw.addr.toNat % 128)) (8 * lw.size)
    ∃ t, Runs (.loadDataReturn c) s t ∧ OtherCoresKept c s t ∧ CsrKeptBut (fun _ => False) c s t ∧
      WentOn (k.pc + 4) { k with load := none } (getCore c t) ∧
      (if lw.toH then WroteH lw.dreg (BitVec.ofNat 256 v) k (getCore c t) else WroteG lw.dreg (loadedG lw.size lw.sign v) k (getCore c t)) ∧
      sFind t.depot (p / 128) = some ⟨BitVec.ofNat 1024 (lineNat (p / 128) s), false, false, coreDie c (p / 128), [], false⟩ ∧
      (∀ x, placeByte x t = placeByte x s) ∧ t.tileSram = s.tileSram ∧
      { t with cores := s.cores, csr := s.csr, depot := s.depot } = s

namespace Sys2Proof.Claims

/-- The stores: size in bytes and the value stored (R140). -/
def storeForms (c : Fin 44) (w : BitVec 22) (g : DWord) (h : BitVec 256) : List (Instr × Nat × Nat) :=
  [(.st8 c w, 1, g.toNat), (.st16 c w, 2, g.toNat), (.st32 c w, 4, g.toNat), (.st64 c w, 8, g.toNat), (.sth c w, 32, h.toNat)]

end Sys2Proof.Claims

/-- Stores write their bytes where the address says, and nothing else. -/
def Obligations.StoresWriteTheirBytes : Prop :=
  ∀ (c : Fin 44) (w : BitVec 22) (s : State), Ready c s →
    let k := getCore c s
    let a := accessAddr c w s
    isLocal a.toNat s = true →
    ∀ f ∈ storeForms c w (getG k (fD w)) (getH k (fD w)), a.toNat % f.2.1 = 0 → (f.2.1 = 32 → fD w < 16) →
      (∀ p b, target (offOf a.toNat) s = .tile p b → c.val < 36 → p / 8 = c.val →
        ∃ t, Runs f.1 s t ∧ OtherCoresKept c s t ∧ CsrKeptBut (fun _ => False) c s t ∧ WentOn (k.pc + 4) k (getCore c t) ∧
          WroteNone k (getCore c t) ∧ StoredInTile (tileAddr p b) f.2.1 f.2.2 s t ∧
          { t with cores := s.cores, csr := s.csr, tileSram := s.tileSram } = s) ∧
      (∀ p, target (offOf a.toNat) s = .hbm p → writeHeld (p / 128) s = false →
        ∃ t, Runs f.1 s t ∧ OtherCoresKept c s t ∧ WentOn (k.pc + 4) k (getCore c t) ∧
          WroteNone k (getCore c t) ∧ (∃ x, sFind t.depot (p / 128) = some x ∧ x.dirty = true) ∧
          (∀ i, i < f.2.1 → placeByte (p + i) t = f.2.2 / 256 ^ i % 256) ∧
          (DepotTakes (coreDie c (p / 128)) (p / 128) s → CsrKeptBut (fun _ => False) c s t ∧ StoredAt p f.2.1 f.2.2 s t ∧
            { t with cores := s.cores, csr := s.csr, depot := s.depot } = s)) ∧
      (∀ p, target (offOf a.toNat) s = .hbm p → writeHeld (p / 128) s = true →
        ∃ t, Runs f.1 s t ∧ t.cores = s.cores ∧ t.depot = s.depot ∧ t.hbm = s.hbm ∧
          ((sFind s.hal.dir (p / 128)).isSome → ∃ x ∈ t.hal.snoops, x.line = p / 128))

namespace Sys2Proof.Claims

/-- The atomics and the word each writes, from the old word `o`, d = g[D] and q = g[Q] (R136, R248). -/
def amoForms (c : Fin 44) (w : BitVec 22) (ev : LoadEv) (o d q : Nat) : List (Instr × Nat) :=
  [(.amoAdd c w ev, (o + q) % 2 ^ 64), (.amoSwap c w ev, q), (.amoCas c w ev, if o = d then q else o), (.amoAnd c w ev, o &&& q),
   (.amoOr c w ev, o ||| q), (.amoMinu c w ev, min o q), (.amoMaxu c w ev, max o q)]

end Sys2Proof.Claims

/-- An atomic replaces one aligned word and delivers the old one. -/
def Obligations.AtomicsExchangeOneWord : Prop :=
  ∀ (c : Fin 44) (w : BitVec 22) (s : State) (p : Nat), Ready c s → fX w = 0 →
    let k := getCore c s
    let a := (getG k (fP w)).toNat
    a % 8 = 0 → isLocal a s = true → target (offOf a) s = .hbm p → writeHeld (p / 128) s = false → linePoison (p / 128) s = false →
    let o := bitsAt (lineNat (p / 128) s) (8 * (p % 128)) 64
    let d := depBase (homeDie (p / 128) % 4)
    ∀ f ∈ amoForms c w ⟨false, false, false⟩ o (getG k (fD w)).toNat (getG k (fQ w)).toNat,
      ∃ t, Runs f.1 s t ∧ OtherCoresKept c s t ∧ CsrKeptBut (pairWords d R.DEP_ATOMIC_LO_VALUE R.DEP_ATOMIC_HI_VALUE) c s t ∧
        CountedOne d R.DEP_ATOMIC_LO_VALUE R.DEP_ATOMIC_HI_VALUE s t ∧ WentOn (k.pc + 4) k (getCore c t) ∧
        WroteG (fD w) (BitVec.ofNat 64 o) k (getCore c t) ∧ (∀ i, i < 8 → placeByte (p + i) t = f.2 / 256 ^ i % 256) ∧
        (DepotTakes (Fin.ofNat 4 (homeDie (p / 128))) (p / 128) s →
          StoredAt p 8 f.2 s t ∧ { t with cores := s.cores, csr := s.csr, depot := s.depot } = s)

/-- The system class with its reserved fields 0, on a core that may retire and waits for nothing. -/
def Obligations.SystemClassEffects : Prop :=
  ∀ (c : Fin 44) (w : BitVec 22) (s : State), Ready c s → (getCore c s).wait = none →
    let k := getCore c s
    let b := seqBase c
    (fP w = 0 →
      (bitsAt w.toNat 0 12 = 0 → RetiresG (.sysrd c w) c (fD w) (BitVec.ofNat 64 (if c.val < 36 then c.val else 64 + (c.val - 36))) (k.pc + 4) s) ∧
      (bitsAt w.toNat 0 12 = 1 → RetiresG (.sysrd c w) c (fD w) (BitVec.ofNat 64 (pkgNum s)) (k.pc + 4) s) ∧
      (bitsAt w.toNat 0 12 = 2 → RetiresG (.sysrd c w) c (fD w) s.count (k.pc + 4) s) ∧
      (bitsAt w.toNat 0 12 = 3 → RetiresG (.sysrd c w) c (fD w) (k.tag.zeroExtend 64) (k.pc + 4) s)) ∧
    (w = 0 →
      Retires (.fletrumNop c w) c (k.pc + 4) s ∧ Retires (.fenceLocal c w) c (k.pc + 4) s ∧
      (∃ t, Runs (.tret c w) s t ∧ OtherCoresKept c s t ∧ (getCore c t).trapMask = false ∧
        (k.heldWait = none → (getCore c t).st = .running ∧ (getCore c t).wait = none) ∧
        (∀ r, k.heldWait = some r → (getCore c t).st = .waiting ∧ (getCore c t).wait = some r) ∧
        (getCore c t).pc = BitVec.ofNat 48 (getPair b R.SEQ_TRAP_PC_LO_VALUE R.SEQ_TRAP_PC_HI_VALUE s) ∧
        getF b R.SEQ_TCAUSE_VALID t = 0 ∧ WroteNone k (getCore c t) ∧ BytesKept s t ∧ { t with cores := s.cores, csr := s.csr } = s) ∧
      (∃ t, Runs (.halt c w) s t ∧ (getCore c t).st = .idle ∧ (getCore c t).pc = k.pc + 4 ∧ (∀ j, j ≠ c.val → (getCore j t).st = (getCore j s).st)) ∧
      (k.trapMask = true ∨ trappedTile c (fun _ => true) s = none →
        ∃ t, Runs (.qpt c w) s t ∧ OtherCoresKept c s t ∧ (getCore c t).pc = k.pc + 4 ∧ (getCore c t).qpCount = k.qpCount + 1 ∧
          (getCore c t).qpLast = some s.count ∧ getPair b R.SEQ_QP_LAST_LO_VALUE R.SEQ_QP_LAST_HI_VALUE t = s.count.toNat ∧
          (getCore c t).parkFrom = (if freezeDue s ∧ k.parkFrom = none then some s.count else k.parkFrom) ∧ WroteNone k (getCore c t) ∧ t.hbm = s.hbm ∧
          t.depot = s.depot ∧ t.tileSram = s.tileSram)) ∧
    (fD w = 0 → fQ w = 0 → fX w = 0 → s.count.toNat + 20000 ≤ (getG k (fP w)).toNat → s.ramps.length < 8 →
      (∀ x ∈ s.ramps, 1000 < (x.toNat : Int) - (getG k (fP w)).toNat ∨ 1000 < ((getG k (fP w)).toNat : Int) - x.toNat) →
      ∃ t, Runs (.rhint c w) s t ∧ t.ramps = s.ramps ++ [getG k (fP w)] ∧ OtherCoresKept c s t ∧ WentOn (k.pc + 4) k (getCore c t) ∧
        WroteNone k (getCore c t) ∧ CsrKeptBut (fun _ => False) c s t ∧ BytesKept s t)

namespace Sys2Proof.Claims

/-- The core waits at its present instruction since now, and nothing else changed; at a quiesce point it starts to park when a freeze is due, outside a handler. -/
def NowWaits (i : Instr) (c op : Nat) (quiesce : Prop) (s : State) : Prop :=
  let parks := freezeDue s = true ∧ quiesce ∧ (getCore c s).parkFrom = none ∧ (getCore c s).trapMask = false
  ∃ t, Runs i s t ∧ OtherCoresKept c s t ∧ t.csr = s.csr ∧ { t with cores := s.cores } = s ∧ BytesKept s t ∧
    (getCore c t).st = .waiting ∧ (∃ r, (getCore c t).wait = some r ∧ r.op = op ∧ r.since = s.count) ∧
    (parks → (getCore c t).parkFrom = some s.count ∧ (getCore c t).held = some .waiting) ∧
    (¬ parks → (getCore c t).parkFrom = (getCore c s).parkFrom ∧ (getCore c t).held = (getCore c s).held) ∧
    { getCore c t with st := (getCore c s).st, wait := none, parkFrom := (getCore c s).parkFrom, held := (getCore c s).held } = getCore c s

end Sys2Proof.Claims

/-- The waits retire when what they wait for holds, and hold the core otherwise. -/
def Obligations.WaitsEndOrHold : Prop :=
  ∀ (c : Fin 44) (w : BitVec 22) (s : State), Ready c s → (getCore c s).wait = none →
    ((getCore c s).trapMask = true ∨ trappedTile c (fun _ => true) s = none) →
    let k := getCore c s
    let kind := bitsAt w.toNat 18 4
    let tile := bitsAt w.toNat 14 4
    let n : BitVec 16 := BitVec.ofNat 16 (getG k (fQ w)).toNat
    let a := getG k (fP w)
    let out := fun (o : OutIns) => o.kind = kind ∧ o.tile = tile ∧ (n - o.tag).toNat ≤ 32768
    (kind ≤ 10 → kind ≠ 7 → tile < 8 → bitsAt w.toNat 12 2 = 0 → fX w = 0 →
      ((∀ o ∈ k.out, ¬ out o) → Retires (.waitE c w) c (k.pc + 4) s) ∧ ((∃ o ∈ k.out, out o) → NowWaits (.waitE c w) c 0 (kind = 9) s)) ∧
    (w = 0 →
      (k.out = [] → Retires (.waitAll c w) c (k.pc + 4) s) ∧ (k.out ≠ [] → NowWaits (.waitAll c w) c 1 False s) ∧
      (hasTxn (fun x => !x.isRead && ownEngine c x.owner) s = false → Retires (.fenceRemote c w) c (k.pc + 4) s) ∧
      (hasTxn (fun x => !x.isRead && ownEngine c x.owner) s = true → NowWaits (.fenceRemote c w) c 3 False s)) ∧
    (∀ p, fD w = 0 → a.toNat % 8 = 0 → isLocal a.toNat s = true → target (offOf a.toNat) s = .hbm p → linePoison (p / 128) s = false →
      let v := (getG k (fQ w)).toNat
      let m := bitsAt (lineNat (p / 128) s) (8 * (p % 128)) 64
      let cond := bitsAt w.toNat 0 2
      let holds := (cond = 0 ∧ m = v) ∨ (cond = 1 ∧ m ≠ v) ∨ (cond = 2 ∧ v ≤ m)
      (bitsAt w.toNat 2 5 = 0 → cond ≠ 3 → readHeld (p / 128) s = false →
        (holds → Retires (.waitsig c w) c (k.pc + 4) s) ∧ (¬ holds → NowWaits (.waitsig c w) c 4 True s)) ∧
      (fX w = 0 → writeHeld (p / 128) s = false →
        ∃ t, Runs (.bar c w) s t ∧ OtherCoresKept c s t ∧ (∀ i, i < 8 → placeByte (p + i) t = (m + 1) % 2 ^ 64 / 256 ^ i % 256) ∧
          (DepotTakes (Fin.ofNat 4 (homeDie (p / 128))) (p / 128) s → StoredAt p 8 ((m + 1) % 2 ^ 64) s t) ∧ WroteNone k (getCore c t) ∧
          ((v ≤ 1 ∨ (m + 1) % 2 ^ 64 % v = 0) → WentOn (k.pc + 4) k (getCore c t)) ∧
          (¬ (v ≤ 1 ∨ (m + 1) % 2 ^ 64 % v = 0) → (getCore c t).st = .waiting ∧ (getCore c t).pc = k.pc ∧
            ∃ r, (getCore c t).wait = some r ∧ r.op = 5 ∧ r.target = some (((m + 1) % 2 ^ 64 + v - 1) / v * v))))

namespace Sys2Proof.Claims

/-- Outcome `o` of a command at `s` is that core `c` takes fault `code` at `addr`: it is FAULTED at its pc with the fault registers set, a severity-2 event is raised,
and no register of any core and no byte of memory changes. -/
def FaultsTo (o : Host.Outcome State Fault Refusal) (c code addr : Nat) (s : State) : Prop :=
  ∃ t, o = .next t ∧ OtherCoresKept c s t ∧ getCore c t = { getCore c s with st := .faulted, wait := none } ∧
    getF (seqBase c) R.SEQ_FAULT_VALID t = 1 ∧ getF (seqBase c) R.SEQ_FAULT_CODE t = code ∧
    getPair (seqBase c) R.SEQ_FAULT_PC_LO_VALUE R.SEQ_FAULT_PC_HI_VALUE t = (getCore c s).pc.toNat ∧
    getPair (seqBase c) R.SEQ_FAULT_ADDR_LO_VALUE R.SEQ_FAULT_ADDR_HI_VALUE t = addr ∧ t.stepErr = true ∧ BytesKept s t

/-- Instruction `i` makes core `c` take fault `code` at `addr`. -/
def TakesFault (i : Instr) (c code addr : Nat) (s : State) : Prop := FaultsTo (exec i s) c code addr s

/-- The 32 bits of an instruction of class `cls`, operation `op` and operands `w` (R136). -/
def wordOf (cls op : Nat) (w : BitVec 22) : Nat := cls * 2 ^ 28 + op * 2 ^ 22 + w.toNat

end Sys2Proof.Claims

/-- Illegal words, misaligned addresses and bad fetches fault the core, which keeps its registers. -/
def Obligations.IllegalWordsAndBadFetchesFault : Prop :=
  ∀ (c : Fin 44) (w : BitVec 22) (s : State), canRetire (getCore c s) = true →
    let k := getCore c s
    let ev : LoadEv := ⟨false, false, false⟩
    let a := (accessAddr c w s).toNat
    (fetchFault k s = none →
      (fX w ≠ 0 →
        (∀ x ∈ (aluForms c w 0 0).zipIdx, TakesFault x.1.1 c 1 (wordOf 0 x.2 w) s) ∧
        TakesFault (.clz c w) c 1 (wordOf 0 20 w) s ∧ TakesFault (.popcnt c w) c 1 (wordOf 0 21 w) s ∧
        (∀ x ∈ (amoForms c w ev 0 0 0).zipIdx, TakesFault x.1.1 c 1 (wordOf 0xA x.2 w) s)) ∧
      (fQ w ≠ 0 → TakesFault (.clz c w) c 1 (wordOf 0 20 w) s ∧ TakesFault (.popcnt c w) c 1 (wordOf 0 21 w) s) ∧
      (bitsAt w.toNat 16 1 = 1 → ∀ hw : BitVec 2,
        TakesFault (.movz c hw w) c 1 (2 * 2 ^ 28 + hw.toNat * 2 ^ 26 + w.toNat) s ∧
        TakesFault (.movk c hw w) c 1 (2 * 2 ^ 28 + hw.toNat * 2 ^ 26 + 2 ^ 22 + w.toNat) s) ∧
      (16 ≤ fD w → TakesFault (.ldh c w ev) c 1 (wordOf 3 11 w) s ∧ TakesFault (.sth c w) c 1 (wordOf 3 12 w) s ∧
        TakesFault (.svmv c w) c 1 (wordOf 9 14 w) s) ∧
      (k.wait = none → w ≠ 0 → TakesFault (.tret c w) c 1 (wordOf 0xB 3 w) s ∧ TakesFault (.halt c w) c 1 (wordOf 0xB 4 w) s ∧
        TakesFault (.fletrumNop c w) c 1 (wordOf 0xB 5 w) s ∧ TakesFault (.qpt c w) c 1 (wordOf 8 7 w) s) ∧
      (∀ f ∈ loadForms c w ev, a % f.2.1 ≠ 0 → TakesFault f.1 c 4 a s) ∧
      (∀ f ∈ storeForms c w 0 0, a % f.2.1 ≠ 0 → (f.2.1 = 32 → fD w < 16) → TakesFault f.1 c 4 a s) ∧
      (fX w = 0 → (getG k (fP w)).toNat % 8 ≠ 0 → ∀ f ∈ amoForms c w ev 0 0 0, TakesFault f.1 c 4 (getG k (fP w)).toNat s) ∧
      (a % 4 ≠ 0 → TakesFault (.jalr c w) c 4 a s) ∧
      (∀ v : BitVec 32, 0xC ≤ v.toNat / 2 ^ 28 → FaultsTo (runWord c ev v s) c 1 v.toNat s)) ∧
    (k.first = true → k.pc.toNat % 4 ≠ 0 → ∀ x ∈ aluForms c w 0 0, TakesFault x.1 c 4 k.pc.toNat s) ∧
    ((k.first = false ∨ k.pc.toNat % 4 = 0) → ∀ x ∈ aluForms c w 0 0,
      (∀ p, target k.pc.toNat s = .hbm p → linePoison (p / 128) s = true → TakesFault x.1 c 5 k.pc.toNat s) ∧
      (∀ p y, target k.pc.toNat s = .companion p → sFind s.depot (compKey (p / 128)) = some y → y.poison = true → TakesFault x.1 c 5 k.pc.toNat s) ∧
      ((∀ p, target k.pc.toNat s ≠ .hbm p) → (∀ p, target k.pc.toNat s ≠ .companion p) → TakesFault x.1 c 3 k.pc.toNat s))

namespace Sys2Proof.Claims

/-- A core has just started at `entry` with g1 = `arg` and every other register as after reset. -/
def Started (entry : BitVec 48) (arg : DWord) (k : Core) : Prop :=
  k.st = .running ∧ k.pc = entry ∧ getG k 1 = arg ∧ (∀ n, n ≠ 1 → getG k n = 0) ∧ (∀ n, getH k n = 0) ∧ k.sPend = [] ∧
  (∀ n, getS k n = sumReset) ∧ k.out = [] ∧ k.wait = none ∧ k.load = none ∧ k.trapMask = false

end Sys2Proof.Claims

/-- What the events around a core do to it. -/
def Obligations.CoreEventsMoveTheCore : Prop :=
  ∀ (s : State),
    (∀ (c : Fin 44) (r : WaitRec), (getCore c s).wait = some r → (getCore c s).st = .waiting → (getCore c s).parkFrom = none →
      (∀ p, target (offOf r.addr.toNat) s = .hbm p →
        let m := bitsAt (lineNat (p / 128) s) (8 * (p % 128)) 64
        ((r.op = 4 ∧ ((r.cond = 0 ∧ m = r.value.toNat) ∨ (r.cond = 1 ∧ m ≠ r.value.toNat) ∨ (r.cond = 2 ∧ r.value.toNat ≤ m))) ∨
          (r.op = 5 ∧ ∃ v, r.target = some v ∧ v ≤ m)) →
        Retires (.depotNotify c) c ((getCore c s).pc + 4) s) ∧
      (∀ l, (r.op = 4 ∨ r.op = 5) → r.limit = some l →
        (1000 * l < (s.count - r.since).toNat → TakesFault (.waitTimeout c) c 7 r.addr.toNat s) ∧
        ((s.count - r.since).toNat ≤ 1000 * l → Runs (.waitTimeout c) s s)) ∧
      (freezeDue s = true → (r.op = 4 ∨ r.op = 5 ∨ (r.op = 0 ∧ r.addr = 9)) → (getCore c s).trapMask = false → s.col.runs = [] → s.col.mail = [] →
        ∃ t, Runs (.freezeCountReached c) s t ∧ OtherCoresKept c s t ∧
          getCore c t = { getCore c s with parkFrom := some s.count, held := some .waiting } ∧ { t with cores := s.cores } = s)) ∧
    (∀ (c : Fin 44) (u : DWord), (getCore c s).parkFrom = some u → (getCore c s).st ≠ .parked → (getCore c s).trapMask = false →
      trappedTile c (fun _ => true) s = none → queuesEmpty c s = true →
      ∃ t, Runs (.corePark c) s t ∧ (getCore c t).st = .parked ∧ (∀ j, j ≠ c.val → (getCore j t).st = (getCore j s).st) ∧
        ((∃ j, j < 44 ∧ j ≠ c.val ∧ countsParked j s = false) →
          t.pkg = s.pkg ∧ OtherCoresKept c s t ∧ getCore c t = { getCore c s with st := .parked }) ∧
        (s.pkg = .running → freezeDue s = true → (∀ j, j < 44 → j ≠ c.val → countsParked j s = true) → t.pkg = .frozen) ∧
        getF (seqBase c) R.SEQ_DRAIN_NS_DRAIN_NS t = (s.count - u).toNat % 2 ^ 32) ∧
    (∀ (c : Fin 36) (r : StartRec), (getCore c s).start = some r → r.count ≤ s.count → (getCore c s).st = .idle →
      ∃ t, Runs (.clusterStartAtCount c) s t ∧ OtherCoresKept c s t ∧ Started r.entry r.arg (getCore c t) ∧
        getF (seqBase c) R.SEQ_FAULT_VALID t = 0 ∧ BytesKept s t) ∧
    (∀ l : LaunchRec, s.launch = some l → l.count ≤ s.count → l.go = true → l.op = 9 → getF ckpBase R.CKP_RANK_ROLE s ≠ 1 →
      ∃ t, Runs .coreStartAtCount s t ∧ t.launch = none ∧ t.pkg = .running ∧
        (∀ n, n < 8 → Started l.entry l.arg (getCore (36 + n) t)) ∧ (∀ n, n < 36 → getCore n t = getCore n s)) ∧
    (s.pkg = .running → (∃ c, c < 44 ∧ (getCore c s).st = .faulted) → s.col.runs = [] →
      ∃ t, Runs .coreStop s t ∧ t.pkg = .faulted ∧ t.cause = 1 ∧
        ∀ c, c < 44 → (getCore c t).st =
          (if (getCore c s).st = .faulted then .faulted else .stopped))

namespace Sys2Proof.Claims

/-- Core `c` goes to its trap handler for tile `i` and tag `g`. -/
def GoesToHandler (x : Instr) (c i g tv : Nat) (s : State) : Prop :=
  let b := seqBase c
  ∃ t, Runs x s t ∧ OtherCoresKept c s t ∧
    getCore c t = { getCore c s with trapMask := true, st := .inTrap, wait := none, heldWait := none, pc := BitVec.ofNat 48 tv } ∧
    getPair b R.SEQ_TRAP_PC_LO_VALUE R.SEQ_TRAP_PC_HI_VALUE t = (getCore c s).pc.toNat ∧ getF b R.SEQ_TCAUSE_TILE t = i ∧
    getF b R.SEQ_TCAUSE_TAG t = g % 256 ∧ getF b R.SEQ_TCAUSE_VALID t = 1 ∧ BytesKept s t

end Sys2Proof.Claims

/-- Traps are delivered at the instructions that cover them. -/
def Obligations.PendingTrapsGoToTheHandler : Prop :=
  ∀ (c : Fin 44) (w : BitVec 22) (s : State) (i : Nat) (e : EngIns), Ready c s → (getCore c s).wait = none → (getCore c s).trapMask = false →
    let tv := getPair (seqBase c) R.SEQ_TVEC_LO_ADDR R.SEQ_TVEC_HI_ADDR s
    let goes := fun x => (tv ≠ 0 → GoesToHandler x c i e.tag.toNat tv s) ∧ (tv = 0 → TakesFault x c 8 (i + e.tag.toNat % 256 * 256) s)
    (trappedTile c (fun _ => true) s = some (i, e) → w = 0 → goes (.waitAll c w) ∧ goes (.qpt c w)) ∧
    (trappedTile c (fun y => y.sum = some (fS w)) s = some (i, e) →
      (∀ f ∈ bsForms c w 0 0, goes f.1) ∧ ∀ f ∈ sgetForms c w 0, goes f.1)

namespace Sys2Proof.Claims

/-- The issues to engines with a queue: command, kind and queue capacity (R141, R143). -/
def issueForms (c : Fin 44) (w : BitVec 24) : List (Instr × Nat × Nat) :=
  [(.issueMx c w, 0, 4), (.issueVx c w, 1, 8), (.issueSx c w, 3, 2), (.issueAssay c w, 4, 4), (.issuePorter c w, 5, 8),
   (.issueDispatcher c w, 6, 18), (.issueSolver c w, 8, 2), (.issueCollective c w, 9, 64)]

/-- What an ISSUE does to its core: the tag to g[D], the next tag, the issue outstanding, the summary register pending. -/
def Issued (d : Nat) (o : Option OutIns) (k k' : Core) : Prop :=
  k'.pc = k.pc + 4 ∧ k'.tag = k.tag + 1 ∧ getG k' d = (if d = 0 then 0 else k.tag.zeroExtend 64) ∧ (∀ n, n ≠ d → getG k' n = getG k n) ∧
  (∀ n, getH k' n = getH k n) ∧ (∀ n, getS k' n = getS k n) ∧ k'.out = k.out ++ o.toList ∧
  (∀ n, n ∈ k'.sPend ↔ n ∈ k.sPend ∨ ∃ x, o = some x ∧ x.sum = some n)

end Sys2Proof.Claims

/-- Issuing hands the work to its engine and keeps the core's books. -/
def Obligations.IssueHandsWorkToItsEngine : Prop :=
  ∀ (c : Fin 44) (w : BitVec 24) (s : State), Ready c s →
    let k := getCore c s
    let p := getG k (iP w)
    let counted := CountedOne (seqBase c) R.SEQ_ISSUED_LO_VALUE R.SEQ_ISSUED_HI_VALUE s
    (∀ f ∈ issueForms c w, issueLegal f.2.1 c w = true →
      let key := engKey f.2.1 c (iTile w)
      let sum := issueSum f.2.1 w p.toNat
      (∀ r, sum = some r → NoTrapFor c r s ∧ r ∉ k.sPend) →
      let e := getEng key s
      let third := f.2.1 = 6 ∧ dspTakes (c.val / 9) c p.toNat s = false
      (e.cross.length + e.queue.length < f.2.2 → ¬ third →
        ∃ t x, Runs f.1 s t ∧ OtherCoresKept c s t ∧ Issued (iD w) (some ⟨f.2.1, iTile w, k.tag, sum⟩) k (getCore c t) ∧ counted t ∧
          (getEng key t).cross = e.cross ++ [x] ∧ (getEng key t).queue = e.queue ∧ (∀ j, j ≠ key → getEng j t = getEng j s) ∧
          x.core = c.val ∧ x.kind = f.2.1 ∧ x.tile = iTile w ∧ x.tag = k.tag ∧ x.pc = k.pc ∧ x.p = p ∧ x.q = getG k (iQ w) ∧ x.sum = sum ∧
          BytesKept s t) ∧
      (f.2.2 ≤ e.cross.length + e.queue.length ∨ third → Runs f.1 s s)) ∧
    (issueLegal 2 c w = true → (getEng (kVx (8 * c.val + iTile w)) s).trap = none →
      ∃ t, Runs (.issueVxResume c w) s t ∧ OtherCoresKept c s t ∧ Issued (iD w) none k (getCore c t) ∧ counted t ∧ t.engines = s.engines ∧
        BytesKept s t) ∧
    (issueLegal 0xA c w = true → p.toNat % 32 = 0 → isLocal p.toNat s = true → (∃ x, target (offOf p.toNat) s = .hbm x ∧ readHeld (x / 128) s = false) →
      localPoison (offOf p.toNat - offOf p.toNat % 128) s = false →
      let b := readOff (offOf p.toNat) 32 s
      bitsAt b 228 28 = 0 → bitsAt b 64 64 = 0 → (∀ n, n < 36 → bitAt (bitsAt b 192 36) n = true → (getCore n s).st = .idle) →
      ∃ t, Runs (.issueClusterStart c w) s t ∧
        (∀ n, n < 36 → bitAt (bitsAt b 192 36) n = true →
          Started (BitVec.ofNat 48 (bitsAt b 0 64)) (BitVec.ofNat 64 (bitsAt b 128 64)) (getCore n t)) ∧
        (∀ n, n < 36 → bitAt (bitsAt b 192 36) n = false → getCore n t = getCore n s) ∧ counted t ∧
        (getCore c t).tag = k.tag + 1 ∧ (getCore c t).pc = k.pc + 4)

namespace Sys2Proof.Claims

/-- Half `i` of a wide register reads `v` and every other 32-bit word of it reads as before. -/
def WordPut (i v old new : Nat) : Prop := ∀ j, bitsAt new (32 * j) 32 = if j = i then v else bitsAt old (32 * j) 32

end Sys2Proof.Claims

/-- The state windows. -/
def Obligations.StateWindowsActWhileFrozen : Prop :=
  ∀ (path : Path) (val : Word) (s : State),
    (s.pkg = .frozen →
      (∀ (c : Fin 44) (off : BitVec 12), off.toNat % 4 = 0 →
        let n8 := (off.toNat - 0x800) / 8
        let n32 := (off.toNat - 0xC00) / 32
        (0x808 ≤ off.toNat → off.toNat < 0x900 →
          ∃ t, Runs (.seqStateWindow path c off val) s t ∧ OtherCoresKept c s t ∧ { t with cores := s.cores } = s ∧
            WordPut (off.toNat % 8 / 4) val.toNat (getG (getCore c s) n8).toNat (getG (getCore c t) n8).toNat ∧
            (∀ m, m ≠ n8 → getG (getCore c t) m = getG (getCore c s) m) ∧ (∀ m, getH (getCore c t) m = getH (getCore c s) m)) ∧
        (0xC00 ≤ off.toNat → off.toNat < 0xE00 →
          ∃ t, Runs (.seqStateWindow path c off val) s t ∧ OtherCoresKept c s t ∧ { t with cores := s.cores } = s ∧
            WordPut (off.toNat % 32 / 4) val.toNat (getH (getCore c s) n32).toNat (getH (getCore c t) n32).toNat ∧
            (∀ m, m ≠ n32 → getH (getCore c t) m = getH (getCore c s) m) ∧ (∀ m, getG (getCore c t) m = getG (getCore c s) m)) ∧
        (∀ n x, 0xE00 ≤ off.toNat → off.toNat < 0xE20 → sFind s.imgCore c = some (n, x) →
          (val = imageWord (seqBase c + 0xE00) n (off.toNat - 0xE00) →
            ∃ t, Runs (.seqStateWindow path c off val) s t ∧ OtherCoresKept c s t ∧ { t with cores := s.cores, csr := s.csr } = s ∧
              getCore c t = { getCore c s with pc := x.1.pc, tag := x.1.tag, trapMask := x.1.trapMask, heldWait := x.1.heldWait,
                                               qpLast := x.1.qpLast, qpCount := x.1.qpCount } ∧
              (∀ o ∈ trapRegs c, csrGet 0 o t = sGet 0 x.2 o) ∧ ∀ d o, o ∉ trapRegs c → csrGet d o t = csrGet d o s) ∧
          (val ≠ imageWord (seqBase c + 0xE00) n (off.toNat - 0xE00) →
            exec (.seqStateWindow path c off val) s = .fault .undefinedImage))) ∧
      (∀ (p : Fin 288) (off : BitVec 14), off.toNat % 4 = 0 →
        (0x1000 ≤ off.toNat → off.toNat < 0x1100 →
          let m := (off.toNat - 0x1000) / 32
          ∃ t, Runs (.vxRegfileWindow path p off val) s t ∧ { t with masks := s.masks } = s ∧
            (0 < m → WordPut (off.toNat % 32 / 4) val.toNat (getM p m s).toNat (getM p m t).toNat) ∧
            (∀ q i, i < 8 → q < 288 → ¬ (q = p.val ∧ i = m) → getM q i t = getM q i s)) ∧
        (0x2000 ≤ off.toNat →
          let n := (off.toNat - 0x2000) / 0x100 % 32
          ∃ t, Runs (.vxRegfileWindow path p off val) s t ∧ { t with vregs := s.vregs } = s ∧
            WordPut (off.toNat % 0x100 / 4) val.toNat (getV p n s).toNat (getV p n t).toNat ∧
            (∀ q i, i < 32 → q < 288 → ¬ (q = p.val ∧ i = n) → getV q i t = getV q i s))) ∧
      (∀ (d : Fin 4) (off : BitVec 11) n x, sFind s.imgDsp d = some (n, x) → val = imageWord (dspBase d + 0x800) n off.toNat →
        ∃ t, Runs (.dspStateWindow path d off val) s t ∧ getDsp d t = x ∧ (∀ e, e ≠ d.val → getDsp e t = getDsp e s) ∧
          { t with dsps := s.dsps } = s) ∧
      (∀ (e : Fin 8) (off : BitVec 10) n x, sFind s.imgSlv e = some (n, x) → val = imageWord (slvBase e + 0x800) n off.toNat →
        ∃ t, Runs (.slvStateWindow path e off val) s t ∧ getEng (kSlv e) t = x ∧ (∀ j, j ≠ kSlv e → getEng j t = getEng j s) ∧
          { t with engines := s.engines } = s) ∧
      (∀ (off : BitVec 14) n x, s.imgCol = some (n, x) → val = imageWord (colBase + 0x8000) n off.toNat →
        ∃ t, Runs (.colStateWindow path off val) s t ∧ t.col = x ∧ (∀ j, j ≠ kCol → getEng j t = getEng j s) ∧ t.cores = s.cores ∧
          BytesKept s t)) ∧
    (s.pkg ≠ .frozen →
      (∀ (c : Fin 44) (off : BitVec 12), ∃ t, Runs (.seqStateWindow path c off val) s t ∧ OnlyLogged s t) ∧
      (∀ (p : Fin 288) (off : BitVec 14), ∃ t, Runs (.vxRegfileWindow path p off val) s t ∧ OnlyLogged s t) ∧
      (∀ (d : Fin 4) (off : BitVec 11), ∃ t, Runs (.dspStateWindow path d off val) s t ∧ OnlyLogged s t) ∧
      (∀ (e : Fin 8) (off : BitVec 10), ∃ t, Runs (.slvStateWindow path e off val) s t ∧ OnlyLogged s t) ∧
      (∀ (off : BitVec 14), ∃ t, Runs (.colStateWindow path off val) s t ∧ OnlyLogged s t))

namespace Sys2Proof.Claims

/-- Each restore command: the base of its block and the fields of the STATUS word it sets. -/
noncomputable def restoreForms (path : Path) (t : Fin 288) (cl : Fin 36) (e : Fin 8) (v : Word) : List (Instr × Nat × List Fld) :=
  [(.mxRestore path t v, tileBase t, [R.MX_STATUS_NV, R.MX_STATUS_OF, R.MX_STATUS_UF, R.MX_STATUS_NX, R.MX_STATUS_SATD, R.MX_STATUS_FLAG_COUNT, R.MX_STATUS_LAST_TAG]),
   (.vxRestore path t v, tileBase t, [R.VX_STATUS_NV, R.VX_STATUS_OF, R.VX_STATUS_UF, R.VX_STATUS_NX, R.VX_STATUS_SATD, R.VX_STATUS_FLAG_COUNT, R.VX_STATUS_LAST_TAG]),
   (.sxRestore path cl v, sxBase cl, [R.SX_STATUS_NV, R.SX_STATUS_OF, R.SX_STATUS_UF, R.SX_STATUS_NX, R.SX_STATUS_FLAG_COUNT, R.SX_STATUS_LAST_TAG]),
   (.asyRestore path cl v, asyBase cl, [R.ASY_STATUS_NV, R.ASY_STATUS_OF, R.ASY_STATUS_UF, R.ASY_STATUS_NX, R.ASY_STATUS_SATD, R.ASY_STATUS_FLAG_COUNT, R.ASY_STATUS_LAST_TAG]),
   (.porRestore path cl v, porBase cl, [R.POR_STATUS_POISON, R.POR_STATUS_DROPPED, R.POR_STATUS_UE, R.POR_STATUS_POISON_COUNT, R.POR_STATUS_DROP_COUNT, R.POR_STATUS_LAST_TAG]),
   (.slvRestore path e v, slvBase e, [R.SLV_STATUS_SINGULAR, R.SLV_STATUS_RANGE, R.SLV_STATUS_WARM_REJECT, R.SLV_STATUS_UE, R.SLV_STATUS_SING_PROBLEMS, R.SLV_STATUS_RANGE_PROBLEMS, R.SLV_STATUS_LAST_TAG]),
   (.colRestore path v, colBase, [R.COL_STATUS_NV, R.COL_STATUS_OF, R.COL_STATUS_UF, R.COL_STATUS_NX, R.COL_STATUS_ABORTED, R.COL_STATUS_DIRTY, R.COL_STATUS_ABORT_COUNT, R.COL_STATUS_LAST_TAG])]

end Sys2Proof.Claims

/-- A restore sets the status fields from its value while FROZEN and is rejected otherwise. -/
def Obligations.RestoreRegistersPutStatusBack : Prop :=
  ∀ (path : Path) (t : Fin 288) (cl : Fin 36) (e : Fin 8) (v : Word) (s : State), ∀ f ∈ restoreForms path t cl e v,
    (s.pkg = .frozen → ∃ u, Runs f.1 s u ∧ (∀ x ∈ f.2.2, getF f.2.1 x u = bitsAt v.toNat x.lo x.w) ∧
      (∀ d off, (∀ x ∈ f.2.2, off ≠ f.2.1 + x.off) → csrGet d off u = csrGet d off s) ∧ { u with csr := s.csr } = s) ∧
    (s.pkg ≠ .frozen → ∃ u, Runs f.1 s u ∧ OnlyLogged s u)

namespace Sys2Proof.Claims

/-- The engines with a queue: the ACCEPT command, the engine, its capacity, the offset of its count of corrected errors, what a descriptor outside
tile SRAM needs first, and the acceptance checks in the order of R143; a descriptor in a poisoned line of tile SRAM counts as uncorrectable (R236). -/
noncomputable def acceptForms (t : Fin 288) (cl : Fin 36) (e : Fin 8) (ue tapUe : Bool) (ce : Nat) (s : State) :
    List (Instr × Nat × Nat × Nat × (EngIns → Option (State → State)) × (EngIns → List (Bool × Nat))) :=
  [(.mxAccept t ⟨ue, ce⟩, kMx t, 4, tileBase t + R.MX_CE_COUNT_COUNT.off, fun _ => none,
     fun x => mxChecks (ue || tileMarked t x.p.toNat 64 s) x.p.toNat (mxD (mxCfg t s) (mxDesc t x s))),
   (.vxAccept t ⟨ue, ce⟩, kVx t, 8, tileBase t + R.VX_CE_COUNT_COUNT.off, fun _ => none, 
     fun x => vxChecks (ue || tileMarked t (32 * bitsAt x.p.toNat 16 18) 32 s) (vxD x (vxDesc t x s))),
   (.sxAccept cl ⟨ue, tapUe, ce⟩, kSx cl, 2, sxBase cl + R.SX_CE_COUNT_COUNT.off, fun _ => none,
     fun x =>
       let q := clTile cl x.p.toNat
       let taps : SxD := ⟨sxDesc cl false x s⟩
       let tapBad := tapUe || tileMarked q taps.tapAddr (16 * taps.taps) s
       sxChecks cl (ue || tileMarked q (clOff x.p.toNat) 128 s) tapBad x.p.toNat ⟨sxDesc cl tapBad x s⟩ s),
   (.asyAccept cl ⟨ue, ce⟩, kAsy cl, 4, asyBase cl + R.ASY_CE_COUNT_COUNT.off, fun x => blockAsk 64 x.p.toNat s,
     fun x => asyChecks cl ue x.p.toNat ⟨readOff (offOf x.p.toNat) 64 s⟩ s),
   (.porAccept cl ⟨ue, ce⟩, kPor cl, 8, porBase cl + R.POR_CE_COUNT_COUNT.off, fun x => blockAsk 128 x.p.toNat s,
     fun x => porChecks cl ue x.p.toNat ⟨readOff (offOf x.p.toNat) 128 s⟩ s),
   (.slvAccept e ⟨ue, ce⟩, kSlv e, 2, slvBase e + R.SLV_CE_COUNT_COUNT.off, fun x => blockAsk 128 x.p.toNat s,
     fun x => slvChecks ue x.p.toNat ⟨readOff (offOf x.p.toNat) 128 s + 2 ^ 1024 * slvPivot e s⟩ s)]

/-- The cause of the first check that fails. -/
def firstFailing (l : List (Bool × Nat)) : Option Nat := (l.find? (fun x => x.1)).map (fun x => x.2)

end Sys2Proof.Claims

/-- An engine accepts its oldest crossing instruction, or rejects it to the core that issued it. -/
def Obligations.EnginesAcceptOrRejectTheirWork : Prop :=
  ∀ (t : Fin 288) (cl : Fin 36) (e : Fin 8) (ue tapUe : Bool) (ce : Nat) (s : State), ∀ f ∈ acceptForms t cl e ue tapUe ce s,
    let g := getEng f.2.1 s
    ∀ x rest, g.cross = x :: rest → x.core < 44 → g.queue.length < f.2.2.1 → f.2.2.2.2.1 x = none →
      (firstFailing (f.2.2.2.2.2 x) = none →
        ∃ u y, Runs f.1 s u ∧ (getEng f.2.1 u).cross = rest ∧ (getEng f.2.1 u).queue = g.queue ++ [y] ∧
          { y with cfg := x.cfg, desc := x.desc } = x ∧ (∀ j, j ≠ f.2.1 → getEng j u = getEng j s) ∧
          (∀ d off, ¬ (ce ≠ 0 ∧ off = f.2.2.2.1) → csrGet d off u = csrGet d off s) ∧ { u with engines := s.engines, ran := s.ran, csr := s.csr } = s) ∧
      (∀ cause, firstFailing (f.2.2.2.2.2 x) = some cause →
        ∃ u, Runs f.1 s u ∧ (getEng f.2.1 u).cross = rest ∧ (getEng f.2.1 u).queue = g.queue ∧ (∀ j, j ≠ f.2.1 → getEng j u = getEng j s) ∧
          OtherCoresKept x.core s u ∧ u.hbm = s.hbm ∧ u.depot = s.depot ∧ u.tileSram = s.tileSram ∧
          (let k := getCore x.core s
           if k.st = .stopped then getCore x.core u = k
           else getCore x.core u = { k with st := .faulted, wait := none } ∧
             getF (seqBase x.core) R.SEQ_FAULT_CODE u = 2 ∧ getF (seqBase x.core) R.SEQ_FAULT_KIND u = x.kind % 16 ∧
             getF (seqBase x.core) R.SEQ_FAULT_TILE u = x.tile % 8 ∧ getF (seqBase x.core) R.SEQ_FAULT_CAUSE u = cause % 256 ∧
             getPair (seqBase x.core) R.SEQ_FAULT_PC_LO_VALUE R.SEQ_FAULT_PC_HI_VALUE u = x.pc.toNat ∧
             getPair (seqBase x.core) R.SEQ_FAULT_ADDR_LO_VALUE R.SEQ_FAULT_ADDR_HI_VALUE u = x.tag.toNat))

namespace Sys2Proof.Claims

/-- FIRST as the engine kept it: none while it holds the greatest value. -/
def firstOf (x : Nat) : Option Nat := if x = 0x1FFFFFF then none else some x

/-- The engines: the COMPLETE command, the engine, when its front instruction `x` may complete, and the summary delivered. -/
noncomputable def completeForms (t : Fin 288) (cl : Fin 36) (e : Fin 8) (s : State) : List (Instr × Nat × (EngIns → Prop) × (EngIns → BitVec 128)) :=
  let por := getEng (kPor cl) s
  let quiet := fun k => writesOpen (.eng k) s = false
  [(.mxComplete t, kMx t, fun x => x.phase ≠ 0, fun x =>
      mkSummary 0 0 none x.flags (decide (x.flags % 16 &&& (mxD x.cfg x.desc).flagSum ≠ 0)) false x.ue),
   (.vxComplete t, kVx t, fun x => x.phase ≠ 0, fun x =>
      mkSummary x.value x.count (firstOf x.first) x.flags (decide (x.flags % 16 &&& bitsAt x.cfg.toNat 5 4 ≠ 0)) x.trap x.ue),
   (.sxComplete cl, kSx cl, fun x => x.phase ≠ 0 ∧ quiet (kSx cl), fun x =>
      mkSummary x.value x.count (firstOf x.first) x.flags (decide (x.flags % 16 &&& bitsAt x.cfg.toNat 0 4 ≠ 0)) false x.ue),
   (.asyComplete cl, kAsy cl, fun x => x.phase ≠ 0 ∧ quiet (kAsy cl), fun x =>
      mkSummary (cvtV fp64 false (decodeF fp32 x.value)).1 x.count (firstOf x.first) x.flags
        (decide (x.flags % 16 &&& bitsAt x.cfg.toNat 1 4 ≠ 0)) false x.ue),
   (.porComplete cl, kPor cl, fun x => x.phase ≠ 0 ∧ ¬ ((⟨x.desc⟩ : PorD).digEn = true ∧ x.phase = 1) ∧
      hasTxn (fun q => q.owner = .eng (kPor cl)) s = false ∧ quiet (kPor cl), fun x =>
      mkSummary x.value (x.count + por.drops.length) (firstOf ((por.drops.map (fun l => sGet 0x1FFFFFF por.rows l)).foldl min x.first)) 0 false false x.ue),
   (.slvComplete e, kSlv e, fun x => x.phase = 0 ∧ (⟨x.desc⟩ : SlvD).batch ≤ x.value ∧ quiet (kSlv e) ∧
      ((⟨x.desc⟩ : SlvD).done ≠ 0 → ∀ p, target (offOf (⟨x.desc⟩ : SlvD).done) s = .hbm p → writeHeld (p / 128) s = false), fun _ => 0)]

end Sys2Proof.Claims

/-- Completion delivers the summary and takes the instruction from its queue and from its core's list. -/
def Obligations.EnginesDeliverTheirSummaries : Prop :=
  ∀ (t : Fin 288) (cl : Fin 36) (e : Fin 8) (s : State), ∀ f ∈ completeForms t cl e s, ∀ x rest,
    (getEng f.2.1 s).queue = x :: rest → f.2.2.1 x →
      ∃ u, Runs f.1 s u ∧ (getEng f.2.1 u).queue = rest ∧ (getEng f.2.1 u).cross = (getEng f.2.1 s).cross ∧
        (∀ j, j ≠ f.2.1 → getEng j u = getEng j s) ∧ OtherCoresKept x.core s u ∧
        (let k := getCore x.core s
         let k' := getCore x.core u
         (∀ r, x.sum = some r → getS k' r = f.2.2.2 x ∧ r ∉ k'.sPend) ∧
         (∀ n, x.sum ≠ some n → getS k' n = getS k n ∧ (n ∈ k'.sPend ↔ n ∈ k.sPend)) ∧
         (∀ o, o ∈ k'.out ↔ o ∈ k.out ∧ ¬ (o.kind = x.kind ∧ o.tile = x.tile ∧ o.tag = x.tag)) ∧
         { k' with s := k.s, sPend := k.sPend, out := k.out } = k)

namespace Sys2Proof.Claims

/-- What one element of a VX instruction works on: format, rounding mode, lane width, SAT, source format, the lanes of the sources, the mask bit. -/
structure LaneIn where
  fmt : Nat
  rm : Nat
  w : Nat
  sat : Bool
  src : Nat
  a : Nat
  b : Nat
  c : Nat
  mask : Bool

/-- The floating-point format of the element, FP64 for an integer one. -/
def LaneIn.f (x : LaneIn) : Fmt := (fmtOf x.fmt).getD fp64
/-- The three source lanes as signed integers. -/
def LaneIn.int (x : LaneIn) (g : Nat → Int → Int → Int → Nat × Nat) : Nat × Nat := g x.w (signed x.w x.a) (signed x.w x.b) (signed x.w x.c)
/-- The first two source lanes as bits. -/
def LaneIn.bits (x : LaneIn) (g : Nat → Nat → Nat → Nat) : Nat × Nat := (g x.w x.a x.b % 2 ^ x.w, 0)

/-- Result and flags of an element of the element-wise VX operations that write lanes, by opcode (R103 to R108). -/
def laneFn (o : Nat) (x : LaneIn) : Nat × Nat :=
  match o with
  | 0x27 => (if x.mask then x.a else x.b, 0)
  | 0x30 => convert x.sat x.src x.fmt x.a
  | 0x40 => x.int fun w a b _ => (wrap w (a + b), 0)
  | 0x41 => x.int fun w a b _ => (wrap w (a - b), 0)
  | 0x42 => x.int fun w a b _ => (wrap w (a * b), 0)
  | 0x43 => x.bits fun _ a b => a &&& b
  | 0x44 => x.bits fun _ a b => a ||| b
  | 0x45 => x.bits fun _ a b => a ^^^ b
  | 0x46 => x.bits fun w a _ => 2 ^ w - 1 - a % 2 ^ w
  | 0x47 => x.bits fun w a b => a <<< (b % w)
  | 0x48 => x.bits fun w a b => (a % 2 ^ w) >>> (b % w)
  | 0x4A => x.bits fun w a b => ((a % 2 ^ w) <<< (b % w)) % 2 ^ w + (a % 2 ^ w) >>> (w - b % w)
  | 0x4B => x.int fun w a b _ => (wrap w (min a b), 0)
  | 0x4C => x.int fun w a b _ => (wrap w (max a b), 0)
  | 0x4D => x.int fun w a _ _ => (wrap w (a.natAbs : Int), 0)
  | 0x50 => x.int fun w a b _ => satI w (a + b)
  | 0x51 => x.int fun w a b _ => satI w (a - b)
  | 0x52 => x.int fun w a b _ => satI w (a * b)
  | 0x53 => x.int fun w a _ _ => satI w (a.natAbs : Int)
  | 0x54 => x.int fun w a _ _ => satI w (-a)
  | 0x55 => x.int fun _ a _ _ => satI 8 a
  | 0x58 => satI x.w (rndShift (signed x.w x.a * signed x.w x.b) (x.w - 1) x.rm)
  | 0x59 => satI x.w (signed x.w x.c + rndShift (signed x.w x.a * signed x.w x.b) (x.w - 1) x.rm)
  | 0x5A => satI x.w (rndShift (signed x.w x.a) (x.b % x.w) x.rm)
  | 0x5B => satI 8 (rndShift (signed x.w x.a) (x.b % 32) x.rm)
  | 0x5C => (wrap x.w (rndShift (signed x.w x.a + signed x.w x.b) 1 x.rm), 0)
  | 0x78 => (x.a, 0)
  | 0x49 => (wrap x.w (signed x.w x.a / ((2 ^ (x.b % x.w) : Nat) : Int)), 0)
  | o => elemFp o x.rm x.f x.a x.b x.c

/-- The element-wise VX commands that write lanes, with their opcodes (R103). -/
def vxLaneForms (t : Fin 288) (ecc : Ecc) : List (Instr × Nat) :=
  [(.vadd t ecc, 0x00), (.vsub t ecc, 0x01), (.vmul t ecc, 0x02), (.vfma t ecc, 0x03), (.vfms t ecc, 0x04), (.vfnma t ecc, 0x05),
   (.vmin t ecc, 0x06), (.vmax t ecc, 0x07), (.vminnum t ecc, 0x08), (.vmaxnum t ecc, 0x09), (.vabs t ecc, 0x0A),
   (.vneg t ecc, 0x0B), (.vcopysign t ecc, 0x0C), (.vgetexp t ecc, 0x10), (.vgetmant t ecc, 0x11), (.vscale t ecc, 0x12),
   (.vroundi t ecc, 0x13), (.vsel t ecc, 0x27), (.vcvt t ecc, 0x30), (.viadd t ecc, 0x40), (.visub t ecc, 0x41),
   (.vimul t ecc, 0x42), (.vand t ecc, 0x43), (.vor t ecc, 0x44), (.vxor t ecc, 0x45), (.vnot t ecc, 0x46), (.vshl t ecc, 0x47),
   (.vshrl t ecc, 0x48), (.vshra t ecc, 0x49), (.vrotl t ecc, 0x4A), (.vimin t ecc, 0x4B), (.vimax t ecc, 0x4C),
   (.viabs t ecc, 0x4D), (.vsadd t ecc, 0x50), (.vssub t ecc, 0x51), (.vsmul t ecc, 0x52), (.vsabs t ecc, 0x53),
   (.vsneg t ecc, 0x54), (.vsnarrow t ecc, 0x55), (.vqmulh t ecc, 0x58), (.vqrdmlah t ecc, 0x59), (.vqrshr t ecc, 0x5A),
   (.vqrshrn t ecc, 0x5B), (.vqavg t ecc, 0x5C), (.vmv t ecc, 0x78)]

/-- Bit and flags of an element of the VX operations that write mask bits, by opcode (R60, R103). `m` is the class mask, the VS3 field. -/
def maskFn (m o : Nat) (x : LaneIn) : Bool × Nat :=
  let a := signed x.w x.a
  let b := signed x.w x.b
  match o, fmtOf x.fmt with
  | 0x28, _ => (decide (classBits x.f x.a &&& m ≠ 0), 0)
  | o, some f => cmpFp o f x.a x.b
  | 0x20, none => (decide (a = b), 0)
  | 0x21, none => (decide (a ≠ b), 0)
  | 0x22, none => (decide (a < b), 0)
  | 0x23, none => (decide (a ≤ b), 0)
  | 0x24, none => (decide (b < a), 0)
  | 0x25, none => (decide (b ≤ a), 0)
  | _, none => (false, 0)

/-- The VX commands that write mask bits, with their opcodes (R103). -/
def vxMaskForms (t : Fin 288) (ecc : Ecc) : List (Instr × Nat) :=
  [(.vcmpeq t ecc, 0x20), (.vcmpne t ecc, 0x21), (.vcmplt t ecc, 0x22), (.vcmple t ecc, 0x23), (.vcmpgt t ecc, 0x24), (.vcmpge t ecc, 0x25),
   (.vcmpun t ecc, 0x26), (.vclass t ecc, 0x28)]

/-- Lane `e` of source `i` of a register form: the scalar operand in the place of source 2, a register's lane, or beyond the register a free value. -/
def regLane (t : Nat) (d : VxD) (s : State) (i e : Nat) : Nat :=
  if i = 2 ∧ d.useScalar = true then d.scalar % 2 ^ d.ws
  else if (e + 1) * d.ws ≤ 2048 then bitsAt (getV t (d.vs i) s).toNat (e * d.ws) d.ws
  else Config.freeResult 24 (e + 2 ^ 16 * d.op) % 2 ^ d.ws

/-- What element `e` of a register form works on. -/
def regIn (t : Nat) (x : EngIns) (s : State) (e : Nat) : LaneIn :=
  let d := vxD x x.desc
  ⟨d.fmt, d.rm, d.ws, bitAt x.cfg.toNat 0, d.srcFmt, regLane t d s 1 e, regLane t d s 2 e, regLane t d s 3 e, bitAt (getM t d.mask s).toNat e⟩

/-- The VX of tile `t` is untrapped and its front instruction `x` has opcode `op`, has not run and enables no trap; no line of the tile is poisoned. -/
def VxFront (t op : Nat) (x : EngIns) (s : State) : Prop :=
  (∃ rest, (getEng (kVx t) s).queue = x :: rest) ∧ (getEng (kVx t) s).trap = none ∧ x.phase = 0 ∧ (vxD x x.desc).opc = op ∧
  bitsAt x.cfg.toNat 1 4 = 0 ∧ tileMarks t s = []

/-- The front instruction of the VX has run: it is ready to complete and its flags are the old ones and those of the active elements. -/
def VxRan (t : Nat) (x : EngIns) (active : Nat → Prop) (flags : Nat → Nat) (s u : State) : Prop :=
  ∃ y, (getEng (kVx t) u).queue = y :: (getEng (kVx t) s).queue.tail ∧ y.phase = 1 ∧ y.sum = x.sum ∧ y.tag = x.tag ∧
    (∀ i, i < 5 → (bitAt y.flags i = true ↔ bitAt x.flags i = true ∨ ∃ e, e < (vxD x x.desc).vl ∧ active e ∧ bitAt (flags e) i = true)) ∧
    (∀ j, j ≠ kVx t → getEng j u = getEng j s) ∧ u.cores = s.cores ∧ u.hbm = s.hbm ∧ u.depot = s.depot

/-- What a register form that writes lanes does, the result of element `e` being `r e`: the active lanes of v[VD] hold the results, no other lane, no
other register, no mask and no byte of tile SRAM changes, and the instruction is ready to complete. -/
def LanesRan (t : Nat) (x : EngIns) (r : Nat → Nat × Nat) (s u : State) : Prop :=
  let d := vxD x x.desc
  let active := fun e => d.opc = 0x27 ∨ bitAt (getM t d.mask s).toNat e = true
  VxRan t x active (fun e => (r e).2) s u ∧ u.masks = s.masks ∧ u.tileSram = s.tileSram ∧
    (∀ e, e < d.vl → active e → bitsAt (getV t d.vd u).toNat (e * d.wd) d.wd = (r e).1 % 2 ^ d.wd) ∧
    (∀ e, ¬ (e < d.vl ∧ active e) → bitsAt (getV t d.vd u).toNat (e * d.wd) d.wd = bitsAt (getV t d.vd s).toNat (e * d.wd) d.wd) ∧
    (∀ q n, q < 288 → n < 32 → ¬ (q = t ∧ n = d.vd) → getV q n u = getV q n s)

/-- What a register form that writes mask bits does, the bit of element `e` being `r e`: the active bits of m[VD mod 8] hold the results unless that is
m0, no other bit, no other mask, no register and no byte of tile SRAM changes, and the instruction is ready to complete. -/
def BitsRan (t : Nat) (x : EngIns) (r : Nat → Bool × Nat) (s u : State) : Prop :=
  let d := vxD x x.desc
  let active := fun e => bitAt (getM t d.mask s).toNat e = true
  let m := d.vd % 8
  VxRan t x active (fun e => (r e).2) s u ∧ u.vregs = s.vregs ∧ u.tileSram = s.tileSram ∧
    (m ≠ 0 → ∀ e, bitAt (getM t m u).toNat e = if e < d.vl ∧ bitAt (getM t d.mask s).toNat e = true then (r e).1 else bitAt (getM t m s).toNat e) ∧
    (∀ q n, q < 288 → n < 8 → ¬ (q = t ∧ n = m) → getM q n u = getM q n s)

end Sys2Proof.Claims

/-- The register forms. -/
def Obligations.VectorRegisterFormsByLane : Prop :=
  ∀ (t : Fin 288) (ecc : Ecc) (s : State) (x : EngIns), ecc.bad = [] →
    let d := vxD x x.desc
    let at_ := fun o => VxFront t o x s
    let lanes := fun o => LanesRan t x (fun e => laneFn o (regIn t x s e)) s
    let bits := fun o => BitsRan t x (fun e => maskFn d.vs3 o (regIn t x s e)) s
    d.stream = false → d.vl * d.wd ≤ 2048 →
    (at_ 0x00 → ∃ u, Runs (.vadd t ecc) s u ∧ lanes 0x00 u) ∧
    (at_ 0x01 → ∃ u, Runs (.vsub t ecc) s u ∧ lanes 0x01 u) ∧
    (at_ 0x02 → ∃ u, Runs (.vmul t ecc) s u ∧ lanes 0x02 u) ∧
    (at_ 0x03 → ∃ u, Runs (.vfma t ecc) s u ∧ lanes 0x03 u) ∧
    (at_ 0x04 → ∃ u, Runs (.vfms t ecc) s u ∧ lanes 0x04 u) ∧
    (at_ 0x05 → ∃ u, Runs (.vfnma t ecc) s u ∧ lanes 0x05 u) ∧
    (at_ 0x06 → ∃ u, Runs (.vmin t ecc) s u ∧ lanes 0x06 u) ∧
    (at_ 0x07 → ∃ u, Runs (.vmax t ecc) s u ∧ lanes 0x07 u) ∧
    (at_ 0x08 → ∃ u, Runs (.vminnum t ecc) s u ∧ lanes 0x08 u) ∧
    (at_ 0x09 → ∃ u, Runs (.vmaxnum t ecc) s u ∧ lanes 0x09 u) ∧
    (at_ 0x0A → ∃ u, Runs (.vabs t ecc) s u ∧ lanes 0x0A u) ∧
    (at_ 0x0B → ∃ u, Runs (.vneg t ecc) s u ∧ lanes 0x0B u) ∧
    (at_ 0x0C → ∃ u, Runs (.vcopysign t ecc) s u ∧ lanes 0x0C u) ∧
    (at_ 0x10 → ∃ u, Runs (.vgetexp t ecc) s u ∧ lanes 0x10 u) ∧
    (at_ 0x11 → ∃ u, Runs (.vgetmant t ecc) s u ∧ lanes 0x11 u) ∧
    (at_ 0x12 → ∃ u, Runs (.vscale t ecc) s u ∧ lanes 0x12 u) ∧
    (at_ 0x13 → ∃ u, Runs (.vroundi t ecc) s u ∧ lanes 0x13 u) ∧
    (at_ 0x27 → ∃ u, Runs (.vsel t ecc) s u ∧ lanes 0x27 u) ∧
    (at_ 0x30 → ∃ u, Runs (.vcvt t ecc) s u ∧ lanes 0x30 u) ∧
    (at_ 0x40 → ∃ u, Runs (.viadd t ecc) s u ∧ lanes 0x40 u) ∧
    (at_ 0x41 → ∃ u, Runs (.visub t ecc) s u ∧ lanes 0x41 u) ∧
    (at_ 0x42 → ∃ u, Runs (.vimul t ecc) s u ∧ lanes 0x42 u) ∧
    (at_ 0x43 → ∃ u, Runs (.vand t ecc) s u ∧ lanes 0x43 u) ∧
    (at_ 0x44 → ∃ u, Runs (.vor t ecc) s u ∧ lanes 0x44 u) ∧
    (at_ 0x45 → ∃ u, Runs (.vxor t ecc) s u ∧ lanes 0x45 u) ∧
    (at_ 0x46 → ∃ u, Runs (.vnot t ecc) s u ∧ lanes 0x46 u) ∧
    (at_ 0x47 → ∃ u, Runs (.vshl t ecc) s u ∧ lanes 0x47 u) ∧
    (at_ 0x48 → ∃ u, Runs (.vshrl t ecc) s u ∧ lanes 0x48 u) ∧
    (at_ 0x49 → ∃ u, Runs (.vshra t ecc) s u ∧ lanes 0x49 u) ∧
    (at_ 0x4A → ∃ u, Runs (.vrotl t ecc) s u ∧ lanes 0x4A u) ∧
    (at_ 0x4B → ∃ u, Runs (.vimin t ecc) s u ∧ lanes 0x4B u) ∧
    (at_ 0x4C → ∃ u, Runs (.vimax t ecc) s u ∧ lanes 0x4C u) ∧
    (at_ 0x4D → ∃ u, Runs (.viabs t ecc) s u ∧ lanes 0x4D u) ∧
    (at_ 0x50 → ∃ u, Runs (.vsadd t ecc) s u ∧ lanes 0x50 u) ∧
    (at_ 0x51 → ∃ u, Runs (.vssub t ecc) s u ∧ lanes 0x51 u) ∧
    (at_ 0x52 → ∃ u, Runs (.vsmul t ecc) s u ∧ lanes 0x52 u) ∧
    (at_ 0x53 → ∃ u, Runs (.vsabs t ecc) s u ∧ lanes 0x53 u) ∧
    (at_ 0x54 → ∃ u, Runs (.vsneg t ecc) s u ∧ lanes 0x54 u) ∧
    (at_ 0x55 → ∃ u, Runs (.vsnarrow t ecc) s u ∧ lanes 0x55 u) ∧
    (at_ 0x58 → ∃ u, Runs (.vqmulh t ecc) s u ∧ lanes 0x58 u) ∧
    (at_ 0x59 → ∃ u, Runs (.vqrdmlah t ecc) s u ∧ lanes 0x59 u) ∧
    (at_ 0x5A → ∃ u, Runs (.vqrshr t ecc) s u ∧ lanes 0x5A u) ∧
    (at_ 0x5B → ∃ u, Runs (.vqrshrn t ecc) s u ∧ lanes 0x5B u) ∧
    (at_ 0x5C → ∃ u, Runs (.vqavg t ecc) s u ∧ lanes 0x5C u) ∧
    (at_ 0x78 → ∃ u, Runs (.vmv t ecc) s u ∧ lanes 0x78 u) ∧
    (at_ 0x20 → ∃ u, Runs (.vcmpeq t ecc) s u ∧ bits 0x20 u) ∧
    (at_ 0x21 → ∃ u, Runs (.vcmpne t ecc) s u ∧ bits 0x21 u) ∧
    (at_ 0x22 → ∃ u, Runs (.vcmplt t ecc) s u ∧ bits 0x22 u) ∧
    (at_ 0x23 → ∃ u, Runs (.vcmple t ecc) s u ∧ bits 0x23 u) ∧
    (at_ 0x24 → ∃ u, Runs (.vcmpgt t ecc) s u ∧ bits 0x24 u) ∧
    (at_ 0x25 → ∃ u, Runs (.vcmpge t ecc) s u ∧ bits 0x25 u) ∧
    (at_ 0x26 → ∃ u, Runs (.vcmpun t ecc) s u ∧ bits 0x26 u) ∧
    (at_ 0x28 → ∃ u, Runs (.vclass t ecc) s u ∧ bits 0x28 u)

namespace Sys2Proof.Claims

/-- What lane `e` of a data movement receives, by opcode, from the lanes of the sources and tile SRAM. -/
noncomputable def moveFn (t : Nat) (d : VxD) (s : State) (o e : Nat) : Nat :=
  let lanes := 2048 / d.ws
  let dist := Config.freeResult 22 d.op
  let open_ := Config.freeResult 25 (e + 2 ^ 16 * d.op) % 2 ^ d.ws
  let at_ := fun (stride : Int) => tileReadN t ((d.scalar : Int) + e * stride * ((d.ws / 8 : Nat) : Int)).toNat (d.ws / 8) s
  match o with
  | 0x70 => at_ 1
  | 0x72 => at_ (signed 64 d.stride)
  | 0x74 => if d.useScalar then d.scalar % 2 ^ d.ws else regLane t d s 1 0
  | 0x75 => regLane t d s 2 (regLane t d s 1 e % lanes)
  | 0x76 => if dist ≤ e then regLane t d s 1 (e - dist) else open_
  | _ => if e + dist < lanes then regLane t d s 1 (e + dist) else open_

/-- What a VX store with element stride `k` does: each active lane of VS1 is at its element's place of tile SRAM, no other byte, no register and no mask
changes, and the instruction is ready to complete. -/
def LanesStored (t : Nat) (x : EngIns) (k : Int) (s u : State) : Prop :=
  let d := vxD x x.desc
  let active := fun e => bitAt (getM t d.mask s).toNat e = true
  let a := fun (e : Nat) => (d.scalar : Int) + e * k * ((d.ws / 8 : Nat) : Int)
  VxRan t x active (fun _ => 0) s u ∧ u.masks = s.masks ∧ u.vregs = s.vregs ∧
    (∀ e i, e < d.vl → active e → i < d.ws / 8 → sramByte (tileAddr t ((a e).toNat + i)) u = BitVec.ofNat 8 (regLane t d s 1 e / 256 ^ i)) ∧
    (∀ y, (∀ e, e < d.vl → active e → ¬ (tileAddr t (a e).toNat ≤ y ∧ y < tileAddr t (a e).toNat + d.ws / 8)) → sramByte y u = sramByte y s)

end Sys2Proof.Claims

/-- Data movement by lane and to tile SRAM. -/
def Obligations.VectorMovesByLane : Prop :=
  ∀ (t : Fin 288) (ecc : Ecc) (s : State) (x : EngIns), ecc.bad = [] →
    let d := vxD x x.desc
    let at_ := fun o => VxFront t o x s
    let lanes := fun o => LanesRan t x (fun e => (moveFn t d s o e, 0)) s
    let above := fun (k : Int) => ∀ e, e < d.vl → 0 ≤ (d.scalar : Int) + e * k * ((d.ws / 8 : Nat) : Int)
    let k := signed 64 d.stride
    d.stream = false → d.vl * d.ws ≤ 2048 → d.fmt ∈ vxFmts →
    (at_ 0x70 → ∃ u, Runs (.vld t ecc) s u ∧ lanes 0x70 u) ∧
    (at_ 0x72 → ∃ u, Runs (.vlds t ecc) s u ∧ lanes 0x72 u) ∧
    (at_ 0x74 → ∃ u, Runs (.vbcast t ecc) s u ∧ lanes 0x74 u) ∧
    (at_ 0x75 → ∃ u, Runs (.vperm t ecc) s u ∧ lanes 0x75 u) ∧
    (at_ 0x76 → ∃ u, Runs (.vslideup t ecc) s u ∧ lanes 0x76 u) ∧
    (at_ 0x77 → ∃ u, Runs (.vslidedn t ecc) s u ∧ lanes 0x77 u) ∧
    (at_ 0x71 → ∃ u, Runs (.vst t ecc) s u ∧ LanesStored t x 1 s u) ∧
    (at_ 0x73 → k ≠ 0 → above k → ∃ u, Runs (.vsts t ecc) s u ∧ LanesStored t x k s u)

namespace Sys2Proof.Claims

/-- Source `i` of element `e` of a stream form. -/
def streamLane (t : Nat) (d : VxD) (s : State) (i e : Nat) : Nat :=
  if i = 2 ∧ d.useScalar = true then d.scalar % 2 ^ d.ws
  else tileReadN t ((d.addr (i + 1) : Int) + e * d.str i * ((d.ws / 8 : Nat) : Int)).toNat (d.ws / 8) s

/-- The mask bit of element `e` of a stream form: all ones without a mask, else its bit of the mask vector in tile SRAM. -/
def streamMask (t : Nat) (d : VxD) (s : State) (e : Nat) : Bool :=
  d.mask = 0 || bitAt (tileReadN t (d.addr 7 + e / 8) 1 s) (e % 8)

/-- What element `e` of a stream form works on. -/
def streamIn (t : Nat) (x : EngIns) (s : State) (e : Nat) : LaneIn :=
  let d := vxD x x.desc
  ⟨d.fmt, d.rm, d.ws, bitAt x.cfg.toNat 0, d.srcFmt, streamLane t d s 1 e, streamLane t d s 2 e, streamLane t d s 3 e, streamMask t d s e⟩

end Sys2Proof.Claims

/-- The stream forms. -/
def Obligations.VectorStreamFormsInTileSram : Prop :=
  ∀ (t : Fin 288) (ecc : Ecc) (s : State) (x : EngIns), ecc.bad = [] →
    let d := vxD x x.desc
    d.stream = true →
    (∀ f ∈ vxLaneForms t ecc, f.2 ≠ 0x78 → VxFront t f.2 x s → d.str 0 ≠ 0 →
      let a := fun (e : Nat) => (d.addr 1 : Int) + e * d.str 0 * ((d.wd / 8 : Nat) : Int)
      let r := fun e => laneFn f.2 (streamIn t x s e)
      let active := fun e => d.opc = 0x27 ∨ streamMask t d s e = true
      (∀ e, e < d.vl → 0 ≤ a e) →
      ∃ u, Runs f.1 s u ∧ VxRan t x active (fun e => (r e).2) s u ∧ u.masks = s.masks ∧ u.vregs = s.vregs ∧
        (∀ e i, e < d.vl → active e → i < d.wd / 8 → sramByte (tileAddr t ((a e).toNat + i)) u = BitVec.ofNat 8 ((r e).1 / 256 ^ i)) ∧
        (∀ y, (∀ e, e < d.vl → active e → ¬ (tileAddr t (a e).toNat ≤ y ∧ y < tileAddr t (a e).toNat + d.wd / 8)) →
          sramByte y u = sramByte y s)) ∧
    (∀ f ∈ vxMaskForms t ecc, VxFront t f.2 x s →
      let r := fun e => maskFn d.vs3 f.2 (streamIn t x s e)
      ∃ u, Runs f.1 s u ∧ VxRan t x (fun e => streamMask t d s e = true) (fun e => (r e).2) s u ∧ u.masks = s.masks ∧ u.vregs = s.vregs ∧
        (∀ e, e < d.vl → streamMask t d s e = true → bitAt (sramByte (tileAddr t (d.addr 1 + e / 8)) u).toNat (e % 8) = (r e).1) ∧
        (∀ y, (∀ e, e < d.vl → y ≠ tileAddr t (d.addr 1 + e / 8)) → sramByte y u = sramByte y s))

namespace Sys2Proof.Claims

/-- The input of element `e` of a reduction, none where it is inactive. -/
def reductionIn (t : Nat) (d : VxD) (s : State) (e : Nat) : Option Nat :=
  if d.stream then if streamMask t d s e then some (streamLane t d s 1 e) else none
  else if bitAt (getM t d.mask s).toNat e then some (regLane t d s 1 e) else none

/-- Whether a reduction's input is a NaN or an infinity. -/
def specialIn (fmt : Nat) (x : Option Nat) : Bool :=
  match x, fmtOf fmt with
  | some v, some f => (decodeF f v).special
  | _, _ => false

/-- What the reduction of opcode `o` does: VALUE and flags from the tree over the inputs, COUNT and FIRST of the special ones; no register and no byte of
memory changes, and the instruction is ready to complete. -/
def Reduced (t o : Nat) (x : EngIns) (s u : State) : Prop :=
  let d := vxD x x.desc
  let special := (List.range d.vl).filter (fun e => specialIn d.fmt (reductionIn t d s e))
  ∃ y, (getEng (kVx t) u).queue = y :: (getEng (kVx t) s).queue.tail ∧ y.phase = 1 ∧
    (y.value, y.flags) = reduce o d.fmt (2048 / d.ws) ((List.range d.vl).map (reductionIn t d s)) ∧ y.count = special.length ∧
    y.first = special.headD 0x1FFFFFF ∧ y.sum = x.sum ∧ y.tag = x.tag ∧ u.vregs = s.vregs ∧ u.masks = s.masks ∧ u.cores = s.cores ∧ BytesKept s u

end Sys2Proof.Claims

/-- Reductions, traps and resumes. -/
def Obligations.VectorReductionsAndResumes : Prop :=
  ∀ (t : Fin 288) (ecc : Ecc) (s : State) (x : EngIns) (rest : List EngIns),
    let d := vxD x x.desc
    let b := tileBase t
    let at_ := fun o => ecc.bad = [] ∧ tileMarks t s = [] ∧ (getEng (kVx t) s).trap = none ∧ x.phase = 0 ∧ d.opc = o
    (getEng (kVx t) s).queue = x :: rest →
    (at_ 0x60 → ∃ u, Runs (.vrsum t ecc) s u ∧ Reduced t 0x60 x s u) ∧
    (at_ 0x61 → ∃ u, Runs (.vrsumsq t ecc) s u ∧ Reduced t 0x61 x s u) ∧
    (at_ 0x62 → ∃ u, Runs (.vrmax t ecc) s u ∧ Reduced t 0x62 x s u) ∧
    (at_ 0x63 → ∃ u, Runs (.vrmin t ecc) s u ∧ Reduced t 0x63 x s u) ∧
    (at_ 0x64 → ∃ u, Runs (.vrmaxabs t ecc) s u ∧ Reduced t 0x64 x s u) ∧
    (at_ 0x65 → ∃ u, Runs (.vrisum t ecc) s u ∧ Reduced t 0x65 x s u) ∧
    (at_ 0x66 → ∃ u, Runs (.vrimax t ecc) s u ∧ Reduced t 0x66 x s u) ∧
    (∀ f ∈ vxLaneForms t ecc, at_ f.2 → f.2 ≠ 0x78 → d.stream = false →
      (f.2 = 0x27 ∨ bitAt (getM t d.mask s).toNat 0 = true) → (laneFn f.2 (regIn t x s 0)).2 % 16 &&& bitsAt x.cfg.toNat 1 4 ≠ 0 →
      ∃ u g, Runs f.1 s u ∧ (getEng (kVx t) u).trap = some g ∧ g.index = 0 ∧ g.flags = (laneFn f.2 (regIn t x s 0)).2 ∧ g.src = getV t (d.vs 1) s ∧
        getF b R.VX_STATUS_TRAPPED u = 1 ∧ getF b R.VX_EXC_VALID u = 1 ∧ getF b R.VX_EXC_INDEX u = 0 ∧ getF b R.VX_EXC_TAG u = x.tag.toNat % 256 ∧
        u.vregs = s.vregs ∧ u.masks = s.masks ∧ BytesKept s u) ∧
    (∀ g, (getEng (kVx t) s).trap = some g →
      (∃ u y, Runs (.vxResumeEnd t) s u ∧ (getEng (kVx t) u).queue = y :: rest ∧ y.phase = 1 ∧ (getEng (kVx t) u).trap = none ∧
        getF b R.VX_STATUS_TRAPPED u = 0 ∧ getF b R.VX_EXC_VALID u = 0 ∧ u.vregs = s.vregs ∧ u.masks = s.masks ∧ BytesKept s u) ∧
      (d.stream = false → d.vl * d.wd ≤ 2048 → g.index < d.vl → bitsAt x.cfg.toNat 1 4 = 0 →
        ∀ f ∈ vxLaneForms t ecc, d.opc = f.2 →
          (∃ u, Runs (.vxResumeFix t) s u ∧ (getEng (kVx t) u).trap = none ∧
            bitsAt (getV t d.vd u).toNat (g.index * d.wd) d.wd = getPair b R.VX_FIX_LO_VALUE R.VX_FIX_HI_VALUE s % 2 ^ d.wd) ∧
          (d.vs 1 ≠ d.vd → g.src = getV t (d.vs 1) s → g.bad = [] → (f.2 = 0x27 ∨ bitAt (getM t d.mask s).toNat g.index = true) →
            ∃ u, Runs (.vxResumeRecompute t) s u ∧ (getEng (kVx t) u).trap = none ∧
              bitsAt (getV t d.vd u).toNat (g.index * d.wd) d.wd = (laneFn f.2 (regIn t x s g.index)).1 % 2 ^ d.wd)))

namespace Sys2Proof.Claims

/-- Registers whose write only stores their fields. -/
def storesOnly (k : Blk) (off : Nat) : Bool :=
  match k with
  | .pkg | .seq | .dsp | .rt => true
  | .mem => !([0x30, 0x38, 0x3C].contains off)
  | .dep => !([0x48, 0x4C].contains off)
  | .sx => off ≠ 0x50
  | _ => false

/-- The fields of register `r` of the block at `base` after a write of `v`; the words `touched` beside it may change. -/
def FieldsPut (base : Nat) (r : Reg) (v : Word) (s t : State) : Prop :=
  let lvl := if r.level = some r.off then bitAt v.toNat 31 else levelOn base r s
  ∀ f ∈ r.flds, getF base f t =
    if (f.acc = .rw ∨ f.acc = .rws) ∧ (f.expert = true → lvl = true) then
      (match f.clamp with
       | some (a, b) => max a (min b (bitsAt v.toNat f.lo f.w))
       | none => bitsAt v.toNat f.lo f.w)
    else getF base f s

/-- The register is stored, and no other word changes. -/
def RegisterPut (base : Nat) (r : Reg) (v : Word) (s t : State) : Prop :=
  FieldsPut base r v s t ∧ (∀ d off, off ≠ base + r.off → csrGet d off t = csrGet d off s)

/-- What reading register `r` returns, and the fields it clears. -/
def RcCleared (base : Nat) (r : Reg) (t : State) : Prop := ∀ f ∈ r.flds, f.acc = .rc → getF base f t = 0

end Sys2Proof.Claims

/-- Accesses to registers. -/
def Obligations.RegisterAccessesOfEveryPath : Prop :=
  ∀ (s : State), csrUp s = true →
    (∀ (off : BitVec 26) (v : Word) (path : Path), (path = .halter ∨ path = .sideband) → s.root.held = none →
      (∀ k n base r, csrPlace off.toNat = .reg k n base r → off.toNat % 4 = 0 → off.toNat < 0x30000 → storesOnly k r.off = true →
        ∃ t, Runs (.csrWrite path off v) s t ∧ RegisterPut base r v s t ∧ { t with csr := s.csr } = s) ∧
      (csrUnmapped path off.toNat = true →
        ∃ t, Runs (.csrWrite path off v) s t ∧ Bumped pkgBase R.PKG_CSR_ERR_COUNT s t ∧ OnlyRegs (regAt pkgBase [R.PKG_CSR_ERR_COUNT]) s t) ∧
      (∀ d, domOf off.toNat = some d → csrUnmapped path off.toNat = false → domPowered d s = true →
        (getF pkgBase R.PKG_XD_MODE_MODE s = 1 → d ≠ 23 →
          (crossing d s = true → Runs (.csrWrite path off v) s s) ∧
          (crossing d s = false → ∃ t, Runs (.csrWrite path off v) s t ∧ { t with root := s.root } = s ∧ t.root.held = none ∧
            sFind t.root.posted d = some ⟨path, off.toNat, some v, 0, 0, false⟩ ∧ ∀ e, e ≠ d → crossing e t = crossing e s)) ∧
        ((getF pkgBase R.PKG_XD_MODE_MODE s ≠ 1 ∨ d = 23) →
          ∃ t, Runs (.csrWrite path off v) s t ∧ { t with root := s.root } = s ∧
            t.root.held = some ⟨path, off.toNat, some v, 0, 0, false⟩))) ∧
    (∀ (d : Fin 24) (a : CsrAcc) (v : Word), sFind s.root.posted d = some a → a.data = some v →
      (domPowered d s = true → ∀ k n base r, csrPlace a.off = .reg k n base r → storesOnly k r.off = true →
        ∃ t, Runs (.slowWriteCrossed d) s t ∧ RegisterPut base r v s t ∧ crossing d t = false ∧ { t with csr := s.csr, root := s.root } = s) ∧
      (∃ t, Runs (.slowAccessAbandon d) s t ∧ crossing d t = false ∧ getF pkgBase R.PKG_XD_STATUS_TIMEOUT t = 1 ∧ Logged 0 0x07 1 s t ∧
        OnlyRegs (regAt pkgBase [R.PKG_XD_STATUS_TIMEOUT, R.PKG_XD_STATUS_TO_COUNT]) { s with root := t.root } t)) ∧
    (∀ (d : Fin 24) (a : CsrAcc) k n base r, s.root.held = some a → a.data = none → a.path = .halter → a.last = true → a.half < 2 →
      domOf a.off = some d.val → domPowered d s = true → sFind s.root.posted d = none → s.root.waiting = [] →
      csrPlace a.off = .reg k n base r → freeBits k n r.off s = none →
      ∃ t m, Runs (.slowReadCrossed d) s t ∧ t.root.held = none ∧ t.root.rsps = s.root.rsps ++ [m] ∧ m.opc = 0x22 ∧ m.txid = a.txid ∧
        bitsAt (m.lines.headD 0).toNat (32 * a.half) 32 = (csrRead .halter a.off s).1 % 2 ^ 32 ∧ RcCleared base r t ∧ MemoriesKept s t ∧ t.cores = s.cores) ∧
    (∀ (c : Fin 44) (w : BitVec 22) k n base r, Ready c s →
      let o := (getG (getCore c s) (fP w) + BitVec.ofInt 64 (fImm w)).toNat
      o % 4 = 0 → csrPlace o = .reg k n base r →
      (c.val < 36 → droverReach c o = true →
        (freeBits k n r.off s = none →
          ∃ t, Runs (.csrrd c w) s t ∧ OtherCoresKept c s t ∧ RcCleared base r t ∧ MemoriesKept s t ∧
            WentOn ((getCore c s).pc + 4) (getCore c s) (getCore c t) ∧
            WroteG (fD w) (BitVec.ofNat 64 (csrRead (.drover (Fin.ofNat 36 c.val)) o s).1) (getCore c s) (getCore c t)) ∧
        (storesOnly k r.off = true →
          ∃ t, Runs (.csrwr c w) s t ∧ OtherCoresKept c s t ∧ RegisterPut base r (BitVec.ofNat 32 (getG (getCore c s) (fD w)).toNat) s t ∧
            MemoriesKept s t ∧ WentOn ((getCore c s).pc + 4) (getCore c s) (getCore c t) ∧ WroteNone (getCore c s) (getCore c t))) ∧
      (36 ≤ c.val → s.root.held = none → k = .pkg → (getCore c s).first = false →
        (∃ t, Runs (.csrrd c w) s t ∧ OtherCoresKept c s t ∧ RcCleared base r t ∧ MemoriesKept s t ∧
          WentOn ((getCore c s).pc + 4) (getCore c s) (getCore c t) ∧
          WroteG (fD w) (BitVec.ofNat 64 (csrRead (.psc (Fin.ofNat 8 (c.val - 36))) o s).1) (getCore c s) (getCore c t)) ∧
        (∃ t, Runs (.csrwr c w) s t ∧ OtherCoresKept c s t ∧ RegisterPut base r (BitVec.ofNat 32 (getG (getCore c s) (fD w)).toNat) s t ∧
            MemoriesKept s t ∧ WentOn ((getCore c s).pc + 4) (getCore c s) (getCore c t) ∧ WroteNone (getCore c s) (getCore c t)))) ∧
    (∀ (m : HalMsg) k n base r, s.root.held = none → bitsAt m.pmask.toNat 0 4 = 15 → bitsAt m.pmask.toNat 4 4 ≠ 15 →
      let o := m.line.toNat % 2 ^ 26
      o % 4 = 0 → o < 0x30000 → csrPlace o = .reg k n base r →
      (m.opc = 0x20 → freeBits k n r.off s = none →
        ∃ t x, Runs (.csrRd m) s t ∧ t.root.rsps = s.root.rsps ++ [x] ∧ x.opc = 0x22 ∧ x.txid = m.txid ∧
          bitsAt (x.lines.headD 0).toNat 0 32 = (csrRead .halter o s).1 % 2 ^ 32 ∧ RcCleared base r t ∧ t.cores = s.cores ∧ MemoriesKept s t) ∧
      (m.opc = 0x21 → storesOnly k r.off = true →
        ∃ t, Runs (.csrWr m) s t ∧ RegisterPut base r (BitVec.ofNat 32 (m.lines.headD 0).toNat) s t ∧ { t with csr := s.csr } = s)) ∧
    (∀ m rest, s.root.rsps = m :: rest →
      ∃ t, Runs .csrRsp s t ∧ t.out = s.out ++ [.halter m] ∧ t.root.rsps = rest ∧ { t with out := s.out, root := { t.root with rsps := s.root.rsps } } = s)

namespace Sys2Proof.Claims

/-- Channel `c` of stack `st` may change, and every other channel is as before; beside it only the words `touched` names and the Logbook. -/
def OnlyChan (st c : Nat) (touched : Nat → Prop) (s t : State) : Prop :=
  (∀ a b, b < 32 → ¬ (a = st ∧ b = c) → getChan a b t = getChan a b s) ∧ RegsKeptBut touched s t ∧
  { t with chans := s.chans, csr := s.csr, log := s.log, totals := s.totals, stepErr := s.stepErr } = s

/-- Bytes of a stack's 64-bit byte counter. -/
def CountedBytes (base : Nat) (lo hi : Fld) (n : Nat) (s t : State) : Prop := getPair base lo hi t = (getPair base lo hi s + n) % 2 ^ 64

end Sys2Proof.Claims

/-- The commands of a channel. -/
def Obligations.ChannelsTransferTestAndAdmit : Prop :=
  ∀ (st : Fin 12) (c : Fin 32) (line : BitVec 24) (row : BitVec 16) (bank : BitVec 8) (data : Line) (pass : Bool) (path : Path) (val : Word) (s : State),
    let b := stackBase st
    let pl := chanLine st c line.toNat
    let k := getChan st c s
    let rdWords := regAt b [R.MEM_RD_BYTES_LO_VALUE, R.MEM_RD_BYTES_HI_VALUE]
    let counted := CountedBytes b R.MEM_RD_BYTES_LO_VALUE R.MEM_RD_BYTES_HI_VALUE 128 s
    (chanOos pl s = false →
      (∃ t, Runs (.hbmLineRead st c line row bank 0) s t ∧ counted t ∧ OnlyRegs rdWords s t) ∧
      (∃ t, Runs (.hbmLineRead st c line row bank 1) s t ∧ counted t ∧ Bumped b R.MEM_CE_COUNT_COUNT s t ∧
        (getChan st c t).ceCount = satAdd 16 k.ceCount 1 ∧ MemoriesKept s t ∧ t.cores = s.cores ∧ t.engines = s.engines) ∧
      (∃ t, Runs (.hbmLineRead st c line row bank 2) s t ∧ counted t ∧ markedPoison pl t = true ∧ getF b R.MEM_STATUS_UE t = 1 ∧
        Bumped b R.MEM_STATUS_UE_COUNT s t ∧ Logged (srcChan st c) 0x30 2 s t ∧ t.stepErr = true ∧ t.hbm = s.hbm ∧ t.depot = s.depot ∧
        t.tileSram = s.tileSram ∧ t.cores = s.cores ∧
        (getF b R.MEM_UE_ADDR_HI_VALID s = 0 → getF b R.MEM_UE_ADDR_HI_VALID t = 1 ∧ getF b R.MEM_UE_ADDR_LO_ADDR t = localOf pl s % 2 ^ 32 ∧
          getF b R.MEM_UE_ADDR_HI_ADDR t = localOf pl s / 2 ^ 32 % 2 ^ 31) ∧
        (getF b R.MEM_UE_ADDR_HI_VALID s = 1 → getF b R.MEM_UE_ADDR_LO_ADDR t = getF b R.MEM_UE_ADDR_LO_ADDR s ∧
          getF b R.MEM_UE_ADDR_HI_ADDR t = getF b R.MEM_UE_ADDR_HI_ADDR s)) ∧
      (∃ t, Runs (.hbmLineWrite st c line data) s t ∧ hbmLine pl t = data.toNat ∧ markedPoison pl t = false ∧
        (∀ q, q ≠ pl → hbmLine q t = hbmLine q s) ∧ t.depot = s.depot ∧ t.tileSram = s.tileSram ∧ t.cores = s.cores ∧
        CountedBytes b R.MEM_WR_BYTES_LO_VALUE R.MEM_WR_BYTES_HI_VALUE 128 s t) ∧
      (effF b R.MEM_CFG_SCRUB_EN R.MEM_CFG_LEVEL s = 1 → ∃ t, Runs (.patrolScrub st c line row bank 0) s t ∧ counted t ∧ OnlyRegs rdWords s t)) ∧
    (chanOos pl s = true → Runs (.hbmLineWrite st c line data) s s ∧ Runs (.hbmLineRead st c line row bank 0) s s) ∧
    (effF b R.MEM_CFG_SCRUB_EN R.MEM_CFG_LEVEL s ≠ 1 → Runs (.patrolScrub st c line row bank 0) s s) ∧
    (∃ t, Runs (.refresh st c) s t ∧ getChan st c t = { k with owed := if k.inSlice then min 8 (k.owed + 1) else 0 } ∧ OnlyChan st c (fun _ => False) s t) ∧
    (k.st = .outOfService → ∃ t, Runs (.memSelftest st c) s t ∧ getChan st c t = { k with st := .selfTest, passed := false, admitReq := false } ∧
      OnlyChan st c (fun _ => False) s t) ∧
    (k.st ≠ .outOfService → Runs (.memSelftest st c) s s) ∧
    (k.st = .selfTest → ∃ t, Runs (.memSelftestDone st c pass) s t ∧ (getChan st c t).st = .outOfService ∧ (getChan st c t).passed = pass ∧
      getF b R.MEM_SELFTEST_DONE t = 1 ∧ getF b R.MEM_SELFTEST_PASS t = b2n pass ∧ (pass = true → markedPoison pl t = true) ∧
      OnlyChan st c (regAt b [R.MEM_SELFTEST_DONE, R.MEM_SELFTEST_PASS]) s t) ∧
    (k.st = .outOfService → k.passed = true → ∃ t, Runs (.memAdmit st c) s t ∧ getChan st c t = { k with admitReq := true } ∧
      OnlyChan st c (fun _ => False) s t) ∧
    (¬ (k.st = .outOfService ∧ k.passed = true) → ∃ t, Runs (.memAdmit st c) s t ∧ Logged (srcChan st c) 0x33 1 s t ∧ OnlyLogged s t) ∧
    (s.pkg = .ready → ∃ t, Runs (.memSpreadWrite path val) s t ∧ getF mempBase R.MEM_SPREAD_SIZE t = val.toNat % 16 ∧
      OnlyRegs (regAt mempBase [R.MEM_SPREAD_SIZE]) s t) ∧
    (s.pkg ≠ .ready → ∃ t, Runs (.memSpreadWrite path val) s t ∧ Logged 0 0x08 1 s t ∧ OnlyLogged s t)

namespace Sys2Proof.Claims

/-- A retrain has begun in channel `c`: it is counted in the channel and the stack. -/
def RetrainBegan (st c fails : Nat) (s t : State) : Prop :=
  let k := getChan st c s
  let b := stackBase st
  getChan st c t = { k with st := .retraining, slices := 0, fails := fails, trig := false, inSlice := false, retrains := satAdd 8 k.retrains 1 } ∧
  getF b R.MEM_STATUS_RETRAINING t = 1 ∧ Bumped b R.MEM_STATUS_RETRAIN_COUNT s t ∧
  OnlyChan st c (regAt b [R.MEM_STATUS_RETRAINING]) s t

end Sys2Proof.Claims

/-- Retraining. -/
def Obligations.ChannelsRetrainInSlices : Prop :=
  ∀ (st : Fin 12) (c : Fin 32) (last ok : Bool) (s : State),
    let b := stackBase st
    let k := getChan st c s
    let trigger := fun (i : Instr) =>
      (k.st = .inService → otherRetrains st c s = false → ∃ t, Runs i s t ∧ RetrainBegan st c 0 s t) ∧
      (k.st = .inService → otherRetrains st c s = true → ∃ t, Runs i s t ∧ getChan st c t = { k with trig := true } ∧ OnlyChan st c (fun _ => False) s t) ∧
      (k.st ≠ .inService → Runs i s s)
    trigger (.memRetrain st c) ∧
    (effF b R.MEM_CFG_RETRAIN_AUTO R.MEM_CFG_LEVEL s = 1 → trigger (.retrainOnErrors st c) ∧ trigger (.retrainPeriodic st c)) ∧
    (effF b R.MEM_CFG_RETRAIN_AUTO R.MEM_CFG_LEVEL s ≠ 1 → Runs (.retrainOnErrors st c) s s ∧ Runs (.retrainPeriodic st c) s s) ∧
    (k.st = .retraining → k.inSlice = false → k.slices < 24 →
      ∃ t, Runs (.retrainSliceStart st c) s t ∧ getChan st c t = { k with inSlice := true, slices := k.slices + 1 } ∧ OnlyChan st c (fun _ => False) s t) ∧
    (k.st = .retraining → k.inSlice = true →
      (last = false → k.slices < 24 →
        ∃ t, Runs (.retrainSliceEnd st c last ok) s t ∧ getChan st c t = { k with inSlice := false } ∧ OnlyChan st c (fun _ => False) s t) ∧
      (last = true → (∀ j, j < 32 → (getChan st j s).trig = false) →
        (ok = true → ∃ t, Runs (.retrainSliceEnd st c last ok) s t ∧ getChan st c t = { k with inSlice := false, st := .inService, fails := 0 } ∧
          getF b R.MEM_STATUS_RETRAINING t = 0 ∧ OnlyChan st c (regAt b [R.MEM_STATUS_RETRAINING]) s t) ∧
        (ok = false → k.fails = 0 → ∃ t, Runs (.retrainSliceEnd st c last ok) s t ∧ (getChan st c t).st = .retraining ∧
          (getChan st c t).fails = 1 ∧ (getChan st c t).slices = 0 ∧ Bumped b R.MEM_STATUS_RETRAIN_COUNT s t) ∧
        (ok = false → k.fails ≠ 0 → s.pkg ≠ .running → s.pkg ≠ .frozen → ∃ t, Runs (.retrainSliceEnd st c last ok) s t ∧
          getChan st c t = { k with inSlice := false, st := .outOfService, fails := 0, passed := false } ∧ Bumped b R.MEM_STATUS_OOS_COUNT s t ∧
          getF b R.MEM_STATUS_RETRAINING t = 0 ∧ Logged (srcChan st c) 0x32 3 s t ∧ OnlyChan st c (regAt b [R.MEM_STATUS_RETRAINING]) s t)))

/-- The Depots. -/
def Obligations.DepotsReduceAndFlush : Prop :=
  ∀ (off : BitVec 48) (data : Line) (poison : Bool) (d : Fin 4) (path : Path) (s : State),
    (∀ op p, target off.toNat s = .reduction op p → op ≠ 0 →
      (writeHeld (p / 128) s = false → DepotTakes (Fin.ofNat 4 (homeDie (p / 128))) (p / 128) s →
        ∃ t, Runs (.reducingWrite off data poison false) s t ∧
          (∀ i, i < 16 → bitsAt (lineNat (p / 128) t) (64 * i) 64 =
            reduceWord op (bitsAt (lineNat (p / 128) s) (64 * i) 64) (bitsAt data.toNat (64 * i) 64) % 2 ^ 64) ∧
          linePoison (p / 128) t = (linePoison (p / 128) s || poison) ∧
          (∀ q, q ≠ p / 128 → lineNat q t = lineNat q s ∧ linePoison q t = linePoison q s) ∧
          CountedOne (depBase (homeDie (p / 128))) R.DEP_REDUCE_LO_VALUE R.DEP_REDUCE_HI_VALUE s t ∧ t.cores = s.cores ∧ t.tileSram = s.tileSram) ∧
      ((sFind s.hal.dir (p / 128)).isSome → (∀ x ∈ s.hal.snoops, x.line ≠ p / 128) →
        ∃ t, Runs (.reducingWrite off data poison false) s t ∧ t.hal.snoops = s.hal.snoops ++ [⟨s.hal.nextTx, p / 128, true⟩] ∧
          t.hal.waiting = s.hal.waiting ++ [.write ⟨.none, p / 128, 0, 128, data.toNat, op, poison⟩] ∧ MemoriesKept s t)) ∧
    (∃ t, Runs (.depFlush d) s t ∧ getF (depBase d) R.DEP_STATUS_FLUSHING t = 1 ∧
      (∀ q, q < compKey 0 → lineNat q t = lineNat q s ∧ linePoison q t = linePoison q s) ∧
      (∀ q x, sFind t.depot q = some x → x.die = d → x.dirty = false) ∧
      (∀ q x, (q, x) ∈ s.depot → (∀ y, (q, y) ∈ s.depot → y = x) → x.dirty = true → x.die = d → q < 2 ^ 33 → chanOos q s = false →
        hbmLine q t = x.data.toNat) ∧ t.tileSram = s.tileSram ∧ t.cores = s.cores) ∧
    ((s.pkg = .service ∨ s.pkg = .ready) →
      ∃ t, Runs (.depInval path d) s t ∧ (∀ q x, sFind t.depot q = some x → d ∉ x.holders) ∧
        (∀ q x, (q, x) ∈ s.depot → (∀ y, (q, y) ∈ s.depot → y = x) → x.dirty = true → x.die = d → q < 2 ^ 33 → chanOos q s = false →
          lineNat q t = x.data.toNat) ∧
        (∀ q, (∀ x, (q, x) ∉ s.depot) → lineNat q t = lineNat q s) ∧ t.tileSram = s.tileSram ∧ t.cores = s.cores) ∧
    (¬ (s.pkg = .service ∨ s.pkg = .ready) → ∃ t, Runs (.depInval path d) s t ∧ Logged 0 0x08 1 s t ∧ OnlyLogged s t) ∧
    (∃ t, Runs (.depotFlushDone d) s t ∧ getF (depBase d) R.DEP_STATUS_FLUSHING t = 0 ∧ OnlyRegs (regAt (depBase d) [R.DEP_STATUS_FLUSHING]) s t)

namespace Sys2Proof.Claims

/-- A message that die `fd` delivers: the fabric is up, its epoch is in force, it names this package and carries the job's tag. -/
def Delivered (fd : Nat) (m : Msg) (s : State) : Prop :=
  fabUp s = true ∧ (epochTable fd m.hdr.epoch s).isSome = true ∧ m.hdr.dst.toNat = pkgNum s ∧ tagOk fd m.hdr s = true

/-- Answers of die `fd` to package `pkg` leave by port `p`, whose replay buffer has room for one. -/
def AnswersBy (fd p pkg : Nat) (s : State) : Prop :=
  pkg / 64 = pkgNum s / 64 ∧ pathHop 1 fd 0x100 (pkg % 64) s = some p ∧ (getLink p s).waiting = [] ∧ replayFlits (getLink p s) + 3 ≤ 512

/-- The checkpoint controller waits for nothing on the fabric. -/
def CkpQuiet (s : State) : Prop := s.ckp.drain = none ∧ s.ckp.reads = [] ∧ s.ckp.phase ≠ 7

/-- A line of the poison pattern of a dead target. -/
def isDeadLine (x : Line) : Prop := ∀ i, i < 32 → bitsAt x.toNat (32 * i) 32 = 0xDEADF1E7

/-- No request of this number and direction is outstanding at die `fd`. -/
def TxnGone (fd : Nat) (x : Txn) (t : State) : Prop := ∀ y ∈ (getFab fd t).txns, ¬ (y.txid = x.txid ∧ y.isRead = x.isRead)

/-- The line of a one-line read has reached the engine or the load that waits for it. -/
def LineGiven (x : Txn) (is : Line → Prop) (poison : Bool) (s t : State) : Prop :=
  match x.owner with
  | .eng k => (∃ d, sFind (getEng k t).rx (x.dst.toNat * 2 ^ 41 + x.line.toNat) = some d ∧ is d) ∧
      (poison = true → x.dst.toNat * 2 ^ 41 + x.line.toNat ∈ (getEng k t).rxPoison) ∧ (∀ j, j ≠ k → getEng j t = getEng j s) ∧ t.cores = s.cores
  | .core c => ∀ lw, (getCore c s).load = some lw →
      (∃ d, getCore c t = { getCore c s with load := some { lw with line := some d, poison := poison } } ∧ is d) ∧ OtherCoresKept c s t
  | .none => t.cores = s.cores ∧ t.engines = s.engines

end Sys2Proof.Claims

/-- Memory messages. -/
def Obligations.RemoteAccessesAreServedAndAnswered : Prop :=
  ∀ (fd : Fin 2) (m : Msg) (s : State), Delivered fd m s → CkpQuiet s →
    let b := fabBase fd
    (∀ p, AnswersBy fd p m.hdr.src.toNat s →
      let ts := lineTargets m s
      (m.hdr.opc = 1 → (∀ x ∈ ts, ∃ a, x = .hbm a) → (∀ pl ∈ hbmLines ts, readHeld pl s = false) →
        ∃ t r, Runs (.rd fd m) s t ∧ t.out = s.out ++ [.link p r] ∧ r.hdr.opc = 2 ∧ r.hdr.dst = m.hdr.src ∧ r.hdr.txid = m.hdr.txid ∧
          r.slots = (hbmLines ts).flatMap (fun pl => lineSlots (lineNat pl s)) ∧ r.hdr.pmask = BitVec.ofNat 8 (pmaskOf (hbmLines ts) s) ∧
          MemoriesKept s t ∧ t.cores = s.cores ∧ t.engines = s.engines) ∧
      ((m.hdr.opc = 1 ∧ (∃ x ∈ ts, ∀ a, x ≠ .hbm a)) ∨
       (m.hdr.opc = 3 ∧ (∃ x ∈ ts, x = .unmapped ∨ (∃ w, x = .companion w) ∨ (∃ o, x = .csr o) ∨ (∃ d a, x = .depotCtl d a))) →
        ∀ i, (i = .rd fd m ∧ m.hdr.opc = 1) ∨ (i = .wr fd m ∧ m.hdr.opc = 3) →
        ∃ t r, Runs i s t ∧ t.out = s.out ++ [.link p r] ∧ r.hdr.opc = 5 ∧ r.hdr.dst = m.hdr.src ∧ r.hdr.txid = m.hdr.txid ∧ r.slots = [] ∧
          Bumped mempBase R.MEM_UNMAPPED_COUNT s t ∧ Logged (srcFab fd) 0x31 2 s t ∧ MemoriesKept s t ∧ t.cores = s.cores) ∧
      (∀ a, m.hdr.opc = 3 → m.hdr.len = 0 → target (m.hdr.line.toNat * 128 % 2 ^ 48) s = .hbm a → writeHeld (a / 128) s = false →
        chanOos (a / 128) s = false →
        ∃ t r, Runs (.wr fd m) s t ∧ t.out = s.out ++ [.link p r] ∧ r.hdr.opc = 4 ∧ r.hdr.dst = m.hdr.src ∧ r.hdr.txid = m.hdr.txid ∧
          lineNat (a / 128) t = slotsLine (m.slots.take 8) % 2 ^ 1024 ∧ linePoison (a / 128) t = bitAt m.hdr.pmask.toNat 0 ∧
          (∀ q, q ≠ a / 128 → lineNat q t = lineNat q s) ∧ t.tileSram = s.tileSram ∧ t.cores = s.cores)) ∧
    (∀ x, m.hdr.opc = 2 → txnFind fd true m.hdr.txid s = some x → x.n = 1 →
      ∃ t, Runs (.rdrsp fd m) s t ∧ TxnGone fd x t ∧
        LineGiven x (fun d => d = BitVec.ofNat 1024 (slotsLine (m.slots.take 8))) (bitAt m.hdr.pmask.toNat 0) s t ∧ MemoriesKept s t) ∧
    (∀ x, m.hdr.opc = 4 → txnFind fd false m.hdr.txid s = some x → x.owner ≠ .eng kCol →
      ∃ t, Runs (.wrack fd m) s t ∧ TxnGone fd x t ∧ t.cores = s.cores ∧ t.engines = s.engines ∧ MemoriesKept s t) ∧
    (∀ x, (getFab fd s).txns.find? (fun y => y.txid = m.hdr.txid) = some x → x.isRead = true → x.n = 1 → x.owner ≠ .eng kCol → x.owner ≠ .eng kCkp →
      (m.hdr.opc = 5 → ∃ t, Runs (.caravanNack fd m) s t ∧ TxnGone fd x t ∧ LineGiven x isDeadLine false s t ∧ MemoriesKept s t ∧
        Bumped b R.FAB_STATUS_REFUSED_COUNT s t ∧ Logged (srcFab fd) 0x51 1 s t) ∧
      (∃ t, Runs (.deadTargetExpiry fd m.hdr.txid) s t ∧ TxnGone fd x t ∧ LineGiven x isDeadLine false s t ∧ MemoriesKept s t ∧
        getF b R.FAB_STATUS_REMOTE_DEAD t = 1 ∧ Bumped b R.FAB_STATUS_DEAD_COUNT s t ∧ Logged (srcFab fd) 0x50 2 s t ∧ t.stepErr = true ∧
        (getF b R.FAB_DEAD_PKG_VALID s = 0 → getF b R.FAB_DEAD_PKG_PACKAGE t = x.dst.toNat))) ∧
    (∀ x k, (getFab fd s).txns.find? (fun y => y.txid = m.hdr.txid) = some x → x.isRead = false → x.n = 1 → x.owner = .eng k → k ≠ kCol → k ≠ kCkp →
      (m.hdr.opc = 5 → ∃ t, Runs (.caravanNack fd m) s t ∧ TxnGone fd x t ∧ t.engines = s.engines ∧ t.cores = s.cores ∧ MemoriesKept s t ∧
        Bumped b R.FAB_STATUS_REFUSED_COUNT s t) ∧
      (∃ t, Runs (.deadTargetExpiry fd m.hdr.txid) s t ∧ TxnGone fd x t ∧
        (getEng k t).drops = (getEng k s).drops ++ [x.dst.toNat * 2 ^ 41 + x.line.toNat] ∧ t.cores = s.cores ∧ MemoriesKept s t ∧
        getF b R.FAB_STATUS_REMOTE_DEAD t = 1 ∧ Bumped b R.FAB_STATUS_DEAD_COUNT s t ∧ Logged (srcFab fd) 0x50 2 s t))

/-- A late response is dropped and counted, and the poison line already delivered stands (R273). -/
def Obligations.LateResponsesAreDroppedAndCounted : Prop :=
  ∀ (fd : Fin 2) (m : Msg) (s : State) (i : Instr), Delivered fd m s → (∀ x ∈ (getFab fd s).txns, x.txid ≠ m.hdr.txid) →
    (i = .rdrsp fd m ∧ m.hdr.opc = 2) ∨ (i = .wrack fd m ∧ m.hdr.opc = 4) ∨ (i = .caravanNack fd m ∧ m.hdr.opc = 5) →
    ∃ t, Runs i s t ∧ Bumped (fabBase fd) R.FAB_LATE_RSP_COUNT s t ∧ t.engines = s.engines ∧ t.cores = s.cores ∧
      OnlyRegs (regAt (fabBase fd) [R.FAB_LATE_RSP_COUNT, R.FAB_RX_BYTES_LO_VALUE, R.FAB_RX_BYTES_HI_VALUE]) s t

namespace Sys2Proof.Claims

/-- The words that a change of port `p`'s state writes. -/
def portWords (p off : Nat) : Prop := off = portBase p + R.PORT_STATUS_STATE.off ∨ off = fabBase (portDie p) + R.FAB_STATUS_PORTS_ACTIVE.off

/-- Port `p` went DOWN and trains again while enabled. -/
def WentDown (p : Nat) (s t : State) : Prop :=
  let b := portBase p
  portState p t = (if getF b R.PORT_CTRL_ENABLE t = 1 then 2 else 0) ∧ getF b R.PORT_STATUS_DOWN t = 1 ∧ Bumped b R.PORT_STATUS_DOWN_COUNT s t ∧
  getF b R.PORT_STATUS_LANES_UP t = 0 ∧ getF b R.PORT_STATUS_CHECK t = 0 ∧ getF b R.PORT_STATUS_SELFTEST_PASS t = 0 ∧
  Logged (srcPort p) 0x52 1 s t ∧
  getLink p t = { Link.init with fecOk := (getLink p s).fecOk, fecBad := (getLink p s).fecBad } ∧ t.cores = s.cores ∧ t.engines = s.engines ∧ MemoriesKept s t

/-- No Caravan port but `p` waits in CHECK with an observed peer. -/
def NoneChecking (p : Nat) (s : State) : Prop := ∀ q, q < 18 → q ≠ p → ¬ (portState q s = 3 ∧ (peerOf q s).isSome = true)

end Sys2Proof.Claims

/-- The ports. -/
def Obligations.PortsTrainCheckAndGoDown : Prop :=
  ∀ (p : Fin 22) (lanes : Fin 9) (pass : Bool) (serial : DWord) (pkg : BitVec 16) (port : BitVec 5) (s : State),
    let b := portBase p
    let st := portState p s
    let l := getLink p s
    (st = 4 → ∃ t, Runs (.portSelftest p) s t ∧ portState p t = 7 ∧ getF b R.PORT_STATUS_SELFTEST_PASS t = 0 ∧ OnlyRegs (portWords p) s t) ∧
    (st ≠ 4 → Runs (.portSelftest p) s s) ∧
    (st = 7 → ∃ t, Runs (.portSelftestDone p pass) s t ∧ getF b R.PORT_STATUS_SELFTEST_PASS t = b2n pass ∧
      portState p t = (if pass = true ∧ inJob s = false then 5 else 4) ∧ OnlyRegs (portWords p) s t) ∧
    (st = 4 → getF b R.PORT_STATUS_SELFTEST_PASS s = 1 →
      (inJob s = false → ∃ t, Runs (.portAdmit p) s t ∧ portState p t = 5 ∧ OnlyRegs (portWords p) s t) ∧
      (inJob s = true → ∃ t, Runs (.portAdmit p) s t ∧ getLink p t = { l with admitReq := true } ∧ { t with links := s.links } = s)) ∧
    (¬ (st = 4 ∧ getF b R.PORT_STATUS_SELFTEST_PASS s = 1) → ∃ t, Runs (.portAdmit p) s t ∧ Logged (srcPort p) 0x33 1 s t ∧ OnlyLogged s t) ∧
    (l.replay = [] → l.waiting = [] →
      (3 ≤ st → ∃ t, Runs (.portLossOfSignal p) s t ∧ WentDown p s t) ∧
      (st ≠ 0 → ∃ t, Runs (.portRetrain p) s t ∧ WentDown p s t ∧ Bumped b R.PORT_RETRAINS_COUNT s t ∧ Logged (srcPort p) 0x53 0 s t) ∧
      (st ≠ 0 → ∃ t, Runs (.portDisable p) s t ∧ WentDown p s t ∧ getF b R.PORT_CTRL_ENABLE t = 0)) ∧
    (∀ e m, l.replay = [e] → e.body = .caravan m → l.waiting = [] → p.val < 18 → 3 ≤ st → isReducing m = false →
      let q := if p.val < 9 then p.val + 9 else p.val - 9
      portCarries m.hdr.vc.toNat q s = true → linkRoom (.caravan m) (getLink q s) = true → ∃ t, Runs (.portLossOfSignal p) s t ∧ WentDown p s t ∧ t.out = s.out ++ [.link q m]) ∧
    (st < 3 → Runs (.portLossOfSignal p) s s) ∧
    (st = 0 → Runs (.portRetrain p) s s ∧
      ∃ t, Runs (.portDisable p) s t ∧ getF b R.PORT_CTRL_ENABLE t = 0 ∧ portState p t = 0 ∧ OnlyRegs (regAt b [R.PORT_CTRL_ENABLE]) s t) ∧
    (∃ t, Runs (.portEnable p) s t ∧ getF b R.PORT_CTRL_ENABLE t = 1 ∧ portState p t = (if st = 0 ∧ canTrain p s = true then 2 else st) ∧
      OnlyRegs (fun o => portWords p o ∨ o = b + R.PORT_CTRL_ENABLE.off) s t) ∧
    ((st = 1 ∨ st = 2) → getF b R.PORT_CTRL_ENABLE s = 1 → lanes ≠ 0 →
      ∃ t, Runs (.portTrained p lanes) s t ∧ getF b R.PORT_STATUS_LANES_UP t = lanes.val ∧ portState p t = (if p.val < 18 then 3 else 4) ∧
        t.out = s.out ++ (if p.val < 18 then [.control "IDENTITY" p [Config.serial.toNat, pkgNum s, p]] else []) ∧
        getF b R.PORT_PEER_VALID t = 0 ∧ OnlyRegs (fun o => portWords p o ∨ o = b + R.PORT_PEER_VALID.off) s { t with out := s.out }) ∧
    ((st = 1 ∨ st = 2) → p.val < 18 → (planOf p s).2.2 = 1 → NoneChecking p s →
      ∃ t, Runs (.portMissingTimeout p) s t ∧ getF b R.PORT_STATUS_CHECK t = 5 ∧ portState p t = 6 ∧ OnlyRegs (portWords p) s t) ∧
    (st = 3 → p.val < 18 → (planOf p s).2.2 = 1 → NoneChecking p s →
      ((planOf p s).1 = pkg.toNat → (planOf p s).2.1 = port.toNat →
        ∃ t, Runs (.portIdentity p serial pkg port) s t ∧ getF b R.PORT_STATUS_CHECK t = 1 ∧ portState p t = 4 ∧ peerOf p t = some (pkg.toNat, port.toNat) ∧
          getPair b R.PORT_PEER_SERIAL_LO_SERIAL R.PORT_PEER_SERIAL_HI_SERIAL t = serial.toNat) ∧
      (¬ ((planOf p s).1 = pkg.toNat ∧ (planOf p s).2.1 = port.toNat) → (∀ q, q < 18 → q ≠ p.val → peerOf q s = none ∧ portLooking q s = false) →
        effF b R.PORT_CTRL_ACCEPT_ANY R.PORT_CTRL_LEVEL s = 0 →
        ∃ t, Runs (.portIdentity p serial pkg port) s t ∧ getF b R.PORT_STATUS_CHECK t = 2 ∧ portState p t = 6 ∧
          peerOf p t = some (pkg.toNat, port.toNat) ∧ Logged (srcPort p) 0x54 1 s t))

namespace Sys2Proof.Claims

/-- Every passed port with AUTO_ADMIT or a request is ACTIVE and every requested channel back in service; no other port or channel changed its state. -/
def UnitsAdmitted (s t : State) : Prop :=
  (∀ p : Fin 22, portState p t = (if portState p s = 4 ∧ getF (portBase p) R.PORT_STATUS_SELFTEST_PASS s = 1 ∧
    (effF (portBase p) R.PORT_CTRL_AUTO_ADMIT R.PORT_CTRL_LEVEL s = 1 ∨ (getLink p s).admitReq = true) then 5 else portState p s)) ∧
  (∀ (st : Fin 12) (c : Fin 32), getChan st c t = (if (getChan st c s).admitReq = true ∧ (getChan st c s).st = .outOfService then
    { getChan st c s with st := .inService, admitReq := false, passed := false } else getChan st c s))

end Sys2Proof.Claims

/-- Epochs. -/
def Obligations.EpochsSwitchAndAdmit : Prop :=
  ∀ (fd : Fin 2) (p : Fin 22) (s : State),
    let b := fabBase fd
    let at_ := BitVec.ofNat 64 (getPair b R.FAB_EPOCH_AT_LO_COUNT R.FAB_EPOCH_AT_HI_COUNT s)
    let onlyDie := fun (t : State) => (∀ e, e ≠ fd.val → getFab e t = getFab e s) ∧ RegsKeptBut (regAt b [R.FAB_STATUS_ARMED]) s t ∧
      { t with fab := s.fab, csr := s.csr } = s
    (∃ t, Runs (.fabEpochArm fd) s t ∧ getFab fd t = { getFab fd s with armedAt := some at_ } ∧ getF b R.FAB_STATUS_ARMED t = 1 ∧ onlyDie t) ∧
    (∃ t, Runs (.fabEpochDisarm fd) s t ∧ getFab fd t = { getFab fd s with armedAt := none } ∧ getF b R.FAB_STATUS_ARMED t = 0 ∧ onlyDie t) ∧
    (∃ t, Runs (.epochGraceEnd fd) s t ∧ getFab fd t = { getFab fd s with grace := false } ∧ (∀ e, e ≠ fd.val → getFab e t = getFab e s) ∧
      { t with fab := s.fab } = s) ∧
    (∃ t, Runs (.epochMark p) s t ∧ getLink p t = { getLink p s with marked := true, farActive := true } ∧ (∀ q, q ≠ p.val → getLink q t = getLink q s) ∧
      { t with links := s.links } = s) ∧
    (s.pkg = .running → Runs (.epochSwitch false) s s) ∧
    ((s.pkg = .admitted ∨ s.pkg = .frozen) → cmdBusy s = false → getF (fabBase 0) R.FAB_EPOCH_TAG_APPLY s = 0 →
      getF (fabBase 1) R.FAB_EPOCH_TAG_APPLY s = 0 →
      (∀ e : Fin 2, (getFab e s).grace = false ∧ ∃ a, (getFab e s).armedAt = some a ∧ a ≤ s.count) →
      ∃ t, Runs (.epochSwitch false) s t ∧ getFab fd t = { getFab fd s with armedAt := none, grace := true, staleSeen := false } ∧
        getF b R.FAB_STATUS_ARMED t = 0 ∧ getF b R.FAB_EPOCH_CURRENT t = (getF b R.FAB_EPOCH_CURRENT s + 1) % 4 ∧
        (∀ i, i < 128 → tabWord fd (0x100 + 4 * i) t = tabWord fd (0x300 + 4 * i) s ∧ tabWord fd (0x300 + 4 * i) t = tabWord fd (0x100 + 4 * i) s) ∧
        (∀ n, n < 0x8000 → tabWord fd (0x1000 + 4 * (n / 32)) t = tabWord fd (0x2000 + 4 * (n / 32)) s ∧
          tabWord fd (0x2000 + 4 * (n / 32)) t = tabWord fd (0x1000 + 4 * (n / 32)) s) ∧
        getF b R.FAB_JOB_TAG t = getF b R.FAB_JOB_TAG s ∧ UnitsAdmitted s t ∧ t.cores = s.cores ∧ t.engines = s.engines ∧ MemoriesKept s t) ∧
    (cmdBusy s = false → (getFab 0 s).armedAt = none → (getFab 1 s).armedAt = none →
      ∃ t, Runs (.epochSwitch true) s t ∧
        UnitsAdmitted s t ∧ t.cores = s.cores ∧ t.engines = s.engines ∧ MemoriesKept s t)

namespace Sys2Proof.Claims

/-- Only port `p`'s link changed, the words `touched` names, the Logbook and the counter of free values. -/
def OnlyLink (p : Nat) (touched : Nat → Prop) (s t : State) : Prop :=
  (∀ q, q ≠ p → getLink q t = getLink q s) ∧ RegsKeptBut touched s t ∧
  { t with links := s.links, csr := s.csr, log := s.log, totals := s.totals, stepErr := s.stepErr, fresh := s.fresh } = s

/-- A flit on port `p` was discarded: one flit left, idle, with NAK and the last SEQ received in order; nothing awaits it in the replay buffer. -/
def NakSent (p : Nat) (s t : State) : Prop :=
  ∃ g, (getLink p t).sent = (getLink p s).sent ++ [g] ∧ g.nak = true ∧ g.idle = true ∧ g.ack = (getLink p s).rxSeq - 1 ∧
    (getLink p t).rxSeq = (getLink p s).rxSeq ∧ (getLink p t).replay = (getLink p s).replay

/-- Bytes a Route port received and sent. -/
def routeWords (r : Nat) : Nat → Prop :=
  regAt (portBase (18 + r)) [R.PORT_RX_BYTES_LO_VALUE, R.PORT_RX_BYTES_HI_VALUE, R.PORT_TX_BYTES_LO_VALUE, R.PORT_TX_BYTES_HI_VALUE]

/-- A frame that Route port `r` accepts as one of type `typ`. -/
def FrameGood (r typ : Nat) (f : RouteFrame) (s : State) : Prop :=
  routeUp r s = true ∧ f.vid = routeVid (routeDie r) s ∧ f.etherType = 0xA3C1 ∧ f.dst.toNat = pkgNum s ∧ f.typ.toNat = typ ∧ f.crc.toNat = routeCrc f

end Sys2Proof.Claims

/-- Links. -/
def Obligations.LinksAcknowledgeAndReplay : Prop :=
  ∀ (s : State),
    (∀ (p : Fin 24) (f : Flit), p.val < 18 → flitPort p s = true →
      let l := getLink p s
      (f.crc.toNat ≠ flitCrc f → ∃ t, Runs (.flitReceive p f) s t ∧ NakSent p s t ∧
        Bumped (portBase p) R.PORT_REPLAY_CRC_ERRORS s t ∧ OnlyLink p (regAt (portBase p) [R.PORT_REPLAY_CRC_ERRORS]) s t) ∧
      (f.crc.toNat = flitCrc f → f.seq ≠ l.rxSeq → ∃ t, Runs (.flitReceive p f) s t ∧ NakSent p s t ∧
        OnlyLink p (fun _ => False) s t) ∧
      (f.crc.toNat = flitCrc f → f.seq = l.rxSeq → f.nak = false → l.waiting = [] →
        let acked := fun (k : Link) => k.nak = false ∧ k.replay = l.replay.filter (fun e => decide ((f.ack - e.last).toNat ≥ 2048)) ∧
          sGet 0 k.spent f.crQ.toNat = sGet 0 l.spent f.crQ.toNat - f.crSlots.toNat
        (f.idle = true → ∃ t, Runs (.flitReceive p f) s t ∧ acked (getLink p t) ∧ (getLink p t).rxSeq = l.rxSeq ∧ OnlyLink p (fun _ => False) s t) ∧
        (∀ h rest, f.idle = false → l.asm = [] → f.slots = h :: rest → bitsAt h.toNat 124 4 = 0 →
          ∃ t, Runs (.flitReceive p f) s t ∧ acked (getLink p t) ∧ (getLink p t).rxSeq = l.rxSeq + 1 ∧ OnlyLink p (fun _ => False) s t))) ∧
    (∀ (p : Fin 24), p.val < 18 →
      let l := getLink p s
      (portState p s ≥ 3 → l.replay ≠ [] → l.sends < 7 → l.replayAt = [] →
        ∃ t, Runs (.linkReplayTimeout p) s t ∧ t.out = s.out ++ l.replay.map (fun e => outOf p e.body) ∧ Bumped (portBase p) R.PORT_REPLAY_REPLAYS s t ∧
          getLink p t = { l with sends := l.sends + 1, replayAt := [s.count], sent := l.sent ++ l.replay.flatMap (fun e => e.flits) } ∧
          OnlyLink p (regAt (portBase p) [R.PORT_REPLAY_REPLAYS]) s { t with out := s.out }) ∧
      (l.replay = [] → Runs (.linkReplayTimeout p) s s)) ∧
    (∀ (r : Fin 4) (f : RouteFrame), routeUp r s = true →
      let b := rtBase (routeDie r)
      let k := peerKey (routeDie r) f.src.toNat
      (f.etherType ≠ 0xA3C1 → ∃ t, Runs (.routeData r f) s t ∧ Bumped b R.RT_FOREIGN_COUNT s t ∧ OnlyRegs (regAt b [R.RT_FOREIGN_COUNT]) s t) ∧
      (f.vid = routeVid (routeDie r) s → f.etherType = 0xA3C1 → f.crc.toNat ≠ routeCrc f →
        ∃ t, Runs (.routeData r f) s t ∧ Bumped b R.RT_CRC_COUNT s t ∧ OnlyRegs (regAt b [R.RT_CRC_COUNT]) s t) ∧
      (∀ p, FrameGood r 0 f s → sFind s.peers k = some p → p.window = [] → p.queue = [] → f.flags.toNat % 2 = 0 → f.nslots = 0 →
        (f.seq = p.rxNext → p.rxBeyond = [] →
          ∃ t a, Runs (.routeData r f) s t ∧ getPeer k t = { p with rxNext := p.rxNext + 1 } ∧ t.out = s.out ++ [.route r a] ∧ a.typ = 1 ∧
            a.dst = f.src ∧ a.ackSeq = f.seq ∧ RegsKeptBut (routeWords r) s t ∧ { t with peers := s.peers, out := s.out, csr := s.csr } = s) ∧
        (routeSeen f.seq p = true →
          ∃ t a, Runs (.routeData r f) s t ∧ getPeer k t = p ∧ t.out = s.out ++ [.route r a] ∧ a.typ = 1 ∧ a.dst = f.src ∧
            a.ackSeq = p.rxNext - 1 ∧ Bumped b R.RT_DUP_COUNT s t ∧ MemoriesKept s t ∧ t.cores = s.cores)) ∧
      (∀ p, FrameGood r 1 f s → sFind s.peers k = some p → p.queue = [] →
        ∃ t, Runs (.routeAck r f) s t ∧ getPeer k t = { p with window := p.window.filter (fun e => !routeAcked f.ackSeq f.sack e.1.seq) } ∧
          RegsKeptBut (routeWords r) s t ∧ { t with peers := s.peers, csr := s.csr } = s) ∧
      (∃ t a, Runs (.routeAnnounce r) s t ∧ t.out = s.out ++ [.route r a] ∧ a.typ = 2 ∧ a.dmac = broadcastMac ∧ a.slots = [] ∧ { t with out := s.out } = s)) ∧
    (∀ (fd : Fin 2) (peer : BitVec 16) (q : BitVec 32) e,
      let k := peerKey fd peer.toNat
      let limit := effF (rtBase fd) R.RT_RTO_MAX_TX R.RT_CFG_LEVEL s
      (getPeer k s).window.find? (fun e => e.1.seq = q) = some e →
      (e.2 < limit → (portUsable (18 + 2 * fd.val) s = true ∨ portUsable (19 + 2 * fd.val) s = true) → ∃ t r, Runs (.routeRtoExpiry fd peer q) s t ∧ t.out = s.out ++ [.route r e.1] ∧ Bumped (rtBase fd) R.RT_RETX_COUNT s t ∧
        (getPeer k t).window = (getPeer k s).window.map (fun x => if x.1.seq = q then (x.1, x.2 + 1) else x) ∧ MemoriesKept s t ∧ t.cores = s.cores) ∧
      (limit ≤ e.2 → (∀ x ∈ (getPeer k s).window, ∀ m ∈ frameMsgs x.1, isReducing m = false) →
        ∃ t, Runs (.routeRtoExpiry fd peer q) s t ∧ sFind t.peers k = none ∧ (∀ j, j ≠ k → sFind t.peers j = sFind s.peers j) ∧
          { t with peers := s.peers } = s))

namespace Sys2Proof.Claims

/-- The port that a message for `line` leaves by has room for one. -/
def HalRoom (line : Nat) (s : State) : Prop :=
  let l := getLink (22 + halPort line s) s
  l.waiting = [] ∧ replayFlits l + 3 ≤ 512

/-- The companion asks for one line, HBM line `pl`, with no transaction for it open and room for the answer and a directory entry. -/
def AsksLine (m : HalMsg) (pl : Nat) (s : State) : Prop :=
  m.len = 0 ∧ hbmUp s = true ∧ target (128 * m.line.toNat % 2 ^ 48) s = .hbm (128 * pl) ∧ snooped pl s = false ∧ awaited pl s = false ∧
    HalRoom m.line.toNat s ∧ (dirLines (homeDie pl) s).length < 4194304

/-- One Halter message left, answering `m` with opcode `opc`, the lines and the poison mask given. -/
def Answered (m : HalMsg) (opc pm : Nat) (lines : List Line) (s t : State) : Prop :=
  ∃ x : HalMsg, t.out = s.out ++ [.halter x] ∧ x.opc = BitVec.ofNat 6 opc ∧ x.txid = m.txid ∧ x.line = m.line ∧ x.pmask = BitVec.ofNat 8 pm ∧ x.lines = lines

/-- Nobody waits at this home for a line the companion holds. -/
def NobodyWaits (s : State) : Prop := s.hal.waiting = []

/-- Only the line `pl` may have a new value; every other line, tile SRAM, core and engine is as before. -/
def OtherLinesKept (pl : Nat) (s t : State) : Prop :=
  (∀ q, q ≠ pl → lineNat q t = lineNat q s) ∧ t.tileSram = s.tileSram ∧ t.cores = s.cores ∧ t.engines = s.engines

end Sys2Proof.Claims

/-- The Halter messages and events. -/
def Obligations.HalterKeepsLinesCoherent : Prop :=
  ∀ (m : HalMsg) (s : State),
    (∀ pl, AsksLine m pl s →
      let d : Line := BitVec.ofNat 1024 (lineNat pl s)
      let pm := b2n (linePoison pl s)
      (m.opc = 0x01 → ∃ t, Runs (.rdS m) s t ∧ Answered m 0x18 pm [d] s t ∧ sFind t.hal.dir pl = some .shared ∧
        (∀ q, lineNat q t = lineNat q s) ∧ t.tileSram = s.tileSram ∧ t.cores = s.cores) ∧
      (m.opc = 0x02 → chanOos pl s = false → ∃ t, Runs (.rdO m) s t ∧ Answered m 0x19 pm [d] s t ∧ sFind t.hal.dir pl = some .owned ∧ sFind t.depot pl = none ∧
        OtherLinesKept pl s t) ∧
      (m.opc = 0x03 → (sFind s.hal.dir pl).isSome = true → chanOos pl s = false →
        ∃ t, Runs (.upg m) s t ∧ Answered m 0x15 0 [] s t ∧ sFind t.hal.dir pl = some .owned ∧ sFind t.depot pl = none ∧ OtherLinesKept pl s t) ∧
      (m.opc = 0x04 → ∃ t, Runs (.rdNc m) s t ∧ Answered m 0x19 pm [d] s t ∧ { t with out := s.out, links := s.links } = s) ∧
      (∀ x, m.opc = 0x05 → m.lines = [x] → chanOos pl s = false →
        ∃ t, Runs (.wrFull m) s t ∧ Answered m 0x15 0 [] s t ∧ lineNat pl t = x.toNat ∧ linePoison pl t = bitAt m.pmask.toNat 0 ∧
          sFind t.hal.dir pl = none ∧ OtherLinesKept pl s t) ∧
      (∀ x, m.opc = 0x14 → m.lines = [x] → chanOos pl s = false → NobodyWaits s →
        ∃ t, Runs (.wb m) s t ∧ Answered m 0x15 0 [] s t ∧ lineNat pl t = x.toNat ∧ linePoison pl t = bitAt m.pmask.toNat 0 ∧
          sFind t.hal.dir pl = none ∧ OtherLinesKept pl s t)) ∧
    (halLines m s = none → HalRoom m.line.toNat s → ∀ i, (i = .rdS m ∧ m.opc = 0x01) ∨ (i = .rdO m ∧ m.opc = 0x02) ∨ (i = .upg m ∧ m.opc = 0x03) ∨ (i = .rdNc m ∧ m.opc = 0x04) ∨
      (i = .wrFull m ∧ m.opc = 0x05) →
      ∃ t, Runs i s t ∧ Answered m 0x3F 0 [] s t ∧ Logged 0xF003 0x51 1 s t ∧ OnlyLogged s { t with out := s.out, links := s.links }) ∧
    ((∀ w, winLine m.line.toNat s = some w → sFind s.depot (compKey w) = none) → HalRoom m.line.toNat s →
      (m.opc = 0x08 → ∃ t, Runs (.snpInv m) s t ∧ Answered m 0x10 0 [] s t ∧ { t with out := s.out, links := s.links } = s) ∧
      (m.opc = 0x09 → ∃ t, Runs (.snpDown m) s t ∧ Answered m 0x10 0 [] s t ∧ { t with out := s.out, links := s.links } = s)) ∧
    (∀ w d, winLine m.line.toNat s = some w → sFind s.depot (compKey w) = some d → HalRoom m.line.toNat s →
      (m.opc = 0x08 → ∃ t, Runs (.snpInv m) s t ∧ sFind t.depot (compKey w) = none ∧
        Answered m (if d.dirty = true then 0x12 else 0x10) (if d.dirty = true then b2n d.poison else 0) (if d.dirty = true then [d.data] else []) s t ∧
        t.hbm = s.hbm ∧ t.cores = s.cores) ∧
      (m.opc = 0x09 → ∃ t, Runs (.snpDown m) s t ∧ sFind t.depot (compKey w) = some { d with dirty := false, own := false } ∧
        Answered m (if d.dirty = true then 0x13 else 0x11) (if d.dirty = true then b2n d.poison else 0) (if d.dirty = true then [d.data] else []) s t ∧
        t.hbm = s.hbm ∧ t.cores = s.cores)) ∧
    (∀ x, s.hal.snoops.find? (fun y => y.txid = m.txid) = some x → NobodyWaits s →
      let closed := fun (t : State) => ∀ y ∈ t.hal.snoops, y.txid ≠ m.txid
      (m.opc = 0x10 → ∃ t, Runs (.rspI m) s t ∧ closed t ∧ sFind t.hal.dir x.line = none ∧ MemoriesKept s t ∧ t.cores = s.cores) ∧
      (m.opc = 0x11 → ∃ t, Runs (.rspS m) s t ∧ closed t ∧ sFind t.hal.dir x.line = (if x.inv = true then none else some .shared) ∧ MemoriesKept s t ∧
        t.cores = s.cores) ∧
      (∀ d, m.lines = [d] → chanOos x.line s = false →
        (m.opc = 0x12 → ∃ t, Runs (.rspDataI m) s t ∧ closed t ∧ sFind t.hal.dir x.line = none ∧ lineNat x.line t = d.toNat ∧
          linePoison x.line t = bitAt m.pmask.toNat 0 ∧ OtherLinesKept x.line s t) ∧
        (m.opc = 0x13 → ∃ t, Runs (.rspDataS m) s t ∧ closed t ∧ sFind t.hal.dir x.line = (if x.inv = true then none else some .shared) ∧
          lineNat x.line t = d.toNat ∧ linePoison x.line t = bitAt m.pmask.toNat 0 ∧ OtherLinesKept x.line s t)) ∧
      (∃ t, Runs (.halterSnpTimeout m.txid) s t ∧ closed t ∧ sFind t.hal.dir x.line = none ∧ linePoison x.line t = true ∧
        getF halBase R.HAL_STATUS_SNP_TIMEOUT t = 1 ∧ Bumped halBase R.HAL_STATUS_SNP_TIMEOUT_COUNT s t ∧ Logged 0xF003 0x5B 2 s t ∧ t.stepErr = true)) ∧
    (m.opc = 0x15 → (∀ y ∈ s.hal.reqs, y.txid = m.txid → y.opc ≠ 0x03) → ∃ t, Runs (.cmp m) s t ∧ (∀ y ∈ t.hal.reqs, y.txid ≠ m.txid) ∧ (∀ y, y.txid ≠ m.txid → (y ∈ t.hal.reqs ↔ y ∈ s.hal.reqs)) ∧
      { t with hal := { t.hal with reqs := s.hal.reqs } } = s) ∧
    (∀ r d, s.hal.reqs.find? (fun y => y.txid = m.txid) = some r → r.opc = 0x03 → m.opc = 0x15 → sFind s.depot (compKey r.line) = some d → NobodyWaits s →
      ∃ t, Runs (.cmp m) s t ∧ sFind t.depot (compKey r.line) = some { d with own := true } ∧ (∀ y ∈ t.hal.reqs, y.txid ≠ m.txid) ∧ t.hbm = s.hbm ∧
        t.cores = s.cores) ∧
    (∀ r d, s.hal.reqs.find? (fun y => y.txid = m.txid) = some r → r.opc = 0x01 → r.owner = .none → m.opc = 0x18 → m.lines = [d] →
      (waysOf 0 (compKey r.line) s).length < 16 →
      ∃ t, Runs (.dataS m) s t ∧ sFind t.depot (compKey r.line) = some ⟨d, false, bitAt m.pmask.toNat 0, 0, [], false⟩ ∧
        (∀ y ∈ t.hal.reqs, y.txid ≠ m.txid) ∧ t.hbm = s.hbm ∧ t.cores = s.cores) ∧
    (∀ r k d, s.hal.reqs.find? (fun y => y.txid = m.txid) = some r → r.opc = 0x04 → r.owner = .eng k → m.lines = [d] →
      let key := 0xFFFF * 2 ^ 41 + 2 ^ 39 + r.line
      let given := fun (x : Line) (poison : Bool) (t : State) => (∀ y ∈ t.hal.reqs, y.txid ≠ m.txid) ∧ sFind (getEng k t).rx key = some x ∧
        (poison = true → key ∈ (getEng k t).rxPoison) ∧ (∀ j, j ≠ k → getEng j t = getEng j s) ∧ MemoriesKept s t ∧ t.cores = s.cores
      (m.opc = 0x18 → ∃ t, Runs (.dataS m) s t ∧ given d (bitAt m.pmask.toNat 0) t) ∧
      (m.opc = 0x19 → ∃ t, Runs (.dataO m) s t ∧ given d (bitAt m.pmask.toNat 0) t) ∧
      (m.opc = 0x3F → ∃ t, Runs (.halterNack m) s t ∧ given 0 true t)) ∧
    (∀ p : Fin 2, getF halBase (halState p) s = 5 → getF halBase (halState (1 - p.val)) s = 5 →
      (getLink (22 + p) s).replay = [] → (getLink (22 + p) s).waiting = [] →
      ∃ t, Runs (.halterPortDown p) s t ∧ getLink (22 + p) t = Link.init ∧ getF halBase (halState p) t = 1 ∧ getF halBase R.HAL_STATUS_DEGRADED t = 1 ∧
        Logged (0xF000 + p) 0x59 1 s t ∧ OnlyRegs (regAt halBase [R.HAL_STATUS_DEGRADED]) s { t with links := s.links }) ∧
    (getF halBase R.HAL_STATUS_STATE0 s ≠ 5 → getF halBase R.HAL_STATUS_STATE1 s ≠ 5 → s.hal.reqs = [] → NobodyWaits s → s.pkg ≠ .running → s.pkg ≠ .frozen →
      ∃ t, Runs .halterDown s t ∧ getF halBase R.HAL_STATUS_DOWN t = 1 ∧ t.hal.dir = [] ∧ t.hal.snoops = [] ∧ t.stepErr = true ∧
        Logged 0xF003 0x5A 3 s t ∧ (∀ pl, (pl, .owned) ∈ s.hal.dir → linePoison pl t = true) ∧ t.hbm = s.hbm ∧ t.cores = s.cores)

namespace Sys2Proof.Claims

/-- The front instruction `e` of engine `k` has executed: it stays at the front of the queue; nothing else of the engines or the cores changed. -/
def Executed (k : Nat) (e y : EngIns) (s t : State) : Prop :=
  getEng k t = { getEng k s with queue := y :: (getEng k s).queue.tail } ∧ y.phase = 1 ∧
  { y with phase := e.phase, flags := e.flags, value := e.value, count := e.count, first := e.first, ue := e.ue, digest := e.digest } = e ∧
  (∀ j, j ≠ k → getEng j t = getEng j s) ∧ t.cores = s.cores

/-- The dense INT8 dot product of row `m` of A and column `n` of B with the accumulator, clamped (R46). -/
def int8Element (x : MxD) (p m n : Nat) (s : State) : Nat :=
  let c := if x.op = 1 then signed 32 (bitsAt (rowOf p x.rC m s) (32 * n) 32) else 0
  wrap 32 (clampS 32 (c + ((List.range x.k).map (fun k =>
    signed 8 (bitsAt (rowOf p x.rA m s) (8 * k) 8) * signed 8 (bitsAt (rowOf p x.rB n s) (8 * k) 8))).sum))

end Sys2Proof.Claims

/-- The matrix forms. -/
def Obligations.MatrixFormsWriteTheirProduct : Prop :=
  ∀ (p : Fin 288) (corrected : Nat) (s : State) (e : EngIns), engHead (kMx p) s = some e → e.phase = 0 →
    let x := mxD e.cfg e.desc
    tileMarks p s = [] → mxLegal x = true → x.ldd ≥ x.rD.len → x.rD.stop ≤ 0x600000 →
    ∀ i, (i = .mxMm p ⟨corrected, []⟩ ∧ x.op = 0) ∨ (i = .mxMma p ⟨corrected, []⟩ ∧ x.op = 1) →
      ∃ t y, Runs i s t ∧ Executed (kMx p) e y s t ∧
        (∀ m n, m < x.m → n < x.n →
          bitsAt (rowOf p x.rD m t) (codeBits x.fo * n) (codeBits x.fo) = (mxElem x p m n s).1 % 2 ^ codeBits x.fo ∧
          (x.fa = 5 → x.sparse = false → x.skip = false → x.k ≤ 16 → bitsAt (rowOf p x.rD m t) (32 * n) 32 = int8Element x p m n s)) ∧
        y.flags = ((List.range x.m).flatMap (fun m => (List.range x.n).map (fun n => (mxElem x p m n s).2))).foldl (· ||| ·) 0 ∧
        (∀ a, (∀ m, m < x.m → ¬ (tileAddr p (x.rD.base + m * x.ldd) ≤ a ∧ a < tileAddr p (x.rD.base + m * x.ldd) + x.rD.len)) →
          sramByte a t = sramByte a s) ∧
        t.hbm = s.hbm ∧ t.depot = s.depot

namespace Sys2Proof.Claims

/-- Every source line is on this package or has arrived, none reads poisoned, engine reads do not allocate in the Depots, and no line is left to send. -/
def SourcesHere (k : Nat) (ranges : List (Nat × Nat)) (s : State) : Prop :=
  heldLines ranges s = [] ∧ missingLines k ranges s = [] ∧ (∀ r ∈ ranges, ∀ l ∈ rangeLines r.1 r.2, engPoison k l s = false) ∧
  (∀ d, d < 4 → streamAlloc d s = false) ∧ (getEng k s).tx = []

/-- The ranges (global address, bytes) lie in tile SRAM of cluster `cl` of this package and apart from each other. -/
def DestsInTiles (cl : Nat) (ranges : List (Nat × Nat)) (s : State) : Prop :=
  (∀ r ∈ ranges, isLocal r.1 s = true ∧ ∃ q o, target (offOf r.1) s = .tile q o ∧ q / 8 = cl ∧ o + r.2 ≤ 0x600000) ∧
  ranges.Pairwise (fun a b => overlaps (offOf a.1) a.2 (offOf b.1) b.2 = false)

/-- The `n` bytes at global address `a` of tile SRAM hold `v`. -/
def HoldsInTile (a n v : Nat) (t : State) : Prop := ∀ q o, target (offOf a) t = .tile q o → tileReadN q o n t = v % 2 ^ (8 * n)

/-- Every byte of memory beside the tile-SRAM ranges given is as before; no line becomes poisoned, and only a mark of a tile line may clear. -/
def OnlyTilesWritten (ranges : List (Nat × Nat)) (s t : State) : Prop :=
  (∀ y, (∀ r ∈ ranges, ∀ q o, target (offOf r.1) s = .tile q o → ¬ (tileAddr q o ≤ y ∧ y < tileAddr q o + r.2)) → sramByte y t = sramByte y s) ∧
  t.hbm = s.hbm ∧ t.depot = s.depot ∧ (∀ l, l ∈ t.poison → l ∈ s.poison) ∧ ∀ l, l ∈ s.poison → l < 2 ^ 34 → l ∈ t.poison

/-- Where the Assay unit writes. -/
def asyDests (x : AsyD) : List (Nat × Nat) :=
  rowList [x.rDst] ++ (if x.scaled && !x.widen then rowList [x.rScl] else []) ++
    (if x.scEn then (List.range x.rows).map (fun r => (x.rSide.base + 8 * r * x.nb, 8 * x.nb)) else [])

end Sys2Proof.Claims

/-- Stencils and conversions. -/
def Obligations.StencilAndAssayWriteTheirResults : Prop :=
  ∀ (cl : Fin 36) (corrected : Nat) (s : State) (e : EngIns),
    (engHead (kSx cl) s = some e → e.phase = 0 →
      let x : SxD := ⟨e.desc⟩
      let dests := x.points.map (fun q => (x.outAt q, 8))
      SourcesHere (kSx cl) (sxRanges x) s → DestsInTiles cl dests s →
      ∃ t y, Runs (.sxStencil cl ⟨corrected, []⟩) s t ∧ Executed (kSx cl) e y s t ∧ OnlyTilesWritten dests s t ∧
        ∀ q ∈ x.points, HoldsInTile (x.outAt q) 8
          (sxTaps (kSx cl) x s q (List.range x.taps) (if x.acc then engRead (kSx cl) (x.outAt q) 8 s else 2 ^ 63, 0)).1 t) ∧
    (engHead (kAsy cl) s = some e → e.phase = 0 →
      let x : AsyD := ⟨e.desc⟩
      let blk := asyBlk (kAsy cl) x (bitAt e.cfg.toNat 0) [] s
      SourcesHere (kAsy cl) (rowList x.reads) s → DestsInTiles cl (asyDests x) s → x.bmpEn = false → asyLegal x = true →
      ∀ i, (i = .asyNarrow cl ⟨corrected, []⟩ ∧ x.widen = false) ∨ (i = .asyWiden cl ⟨corrected, []⟩ ∧ x.widen = true) →
        ∃ t y, Runs i s t ∧ Executed (kAsy cl) e y s t ∧ OnlyTilesWritten (asyDests x) s t ∧
          ∀ r, r < x.rows →
            HoldsInTile (x.rDst.base + r * x.rDst.stride) x.rDst.len
              (packBits (codeBits x.df) ((List.range x.nb).flatMap (fun j => (blk r j).out))) t ∧
            (x.scaled = true → x.widen = false → HoldsInTile (x.rScl.base + r * x.rScl.stride) x.rScl.len
              (packBits 8 ((List.range x.nb).map (fun j => (blk r j).scale))) t) ∧
            (x.scEn = true → HoldsInTile (x.rSide.base + 8 * r * x.nb) (8 * x.nb)
              (packBits 64 ((List.range x.nb).map (fun j => (blk r j).abs + 2 ^ 32 * (blk r j).rel))) t))

/-- The Porter's forms. -/
def Obligations.PorterFormsMoveTheirRows : Prop :=
  ∀ (cl : Fin 36) (corrected : Nat) (s : State) (e : EngIns), engHead (kPor cl) s = some e → e.phase = 0 →
    let k := kPor cl
    let x : PorD := ⟨e.desc⟩
    let ecc : Ecc := ⟨corrected, []⟩
    let idx := porIdx k x [] (if x.op = 1 then x.rowsOf 1 else x.rowsOf 3) s
    x.bmpEn = false → (getEng k s).rxDead = [] → x.elem ≤ 10 → (x.op = 3 → x.w % 8 = 0) →
    SourcesHere k x.idxRange s → SourcesHere k ((porReads k x [] s).map (·.1)) s →
      (x.op = 0 → DestsInTiles cl x.dstRanges s →
        ∃ t y, Runs (.porCopy cl ecc) s t ∧ Executed k e y s t ∧ OnlyTilesWritten x.dstRanges s t ∧ y.value = x.e2 * x.e1 * x.rowB ∧ y.count = 0 ∧
          ∀ p r, p < x.e2 → r < x.e1 → HoldsInTile (x.dstRow p r) x.rowB (engRead k (x.srcRow p r) x.rowB s) t) ∧
      (x.op = 1 → DestsInTiles cl x.dstRanges s → x.e2 = 1 →
        ∃ t y, Runs (.porGather cl ecc) s t ∧ Executed k e y s t ∧ OnlyTilesWritten x.dstRanges s t ∧
          y.count = ((List.range x.e1).filter (fun r => decide (idx r = .out))).length ∧
          ∀ r, r < x.e1 → HoldsInTile (x.dstRow 0 r) x.rowB (match idx r with
            | .row i => engRead k (x.srcRow 0 i) x.rowB s
            | _ => 0) t) ∧
      (x.op = 2 →
        let dests := (List.range x.e1).filterMap (fun r => match idx r with
          | .row i => some (x.dstRow 0 i, x.rowB)
          | _ => none)
        DestsInTiles cl dests s →
        ∃ t y, Runs (.porScatter cl ecc) s t ∧ Executed k e y s t ∧ OnlyTilesWritten dests s t ∧
          ∀ r i, r < x.e1 → idx r = .row i → HoldsInTile (x.dstRow 0 i) x.rowB (engRead k (x.srcRow 0 r) x.rowB s) t) ∧
      (x.op = 3 → DestsInTiles cl x.dstRanges s → (∀ i, i < x.e1 → x.srcRow 0 i + x.rowB ≤ 2 ^ 64) →
        ∃ t y, Runs (.porTranspose cl ecc) s t ∧ Executed k e y s t ∧ OnlyTilesWritten x.dstRanges s t ∧
          ∀ i j, i < x.e1 → j < x.e0 → ∀ q o, target (offOf (x.dstRow 0 j)) s = .tile q o →
            tileReadN q (o + i * (x.w / 8)) (x.w / 8) t = engRead k (at64 (x.srcRow 0 i) (j * (x.w / 8) : Nat)) (x.w / 8) s % 2 ^ x.w) ∧
      (x.op = 4 → DestsInTiles cl x.dstRanges s →
        ∃ t y, Runs (.porFill cl ecc) s t ∧ Executed k e y s t ∧ OnlyTilesWritten x.dstRanges s t ∧
          ∀ p r, p < x.e2 → r < x.e1 → HoldsInTile (x.dstRow p r) x.rowB (packBits x.w (List.replicate x.e0 x.fill)) t)

namespace Sys2Proof.Claims

/-- Words (global address, bytes, value) that each lie aligned in HBM of this package, in channels in service, on lines of which the companion has no copy, apart from
one another. -/
def WordsAtHome (ws : List (Nat × Nat × Nat)) (s : State) : Prop :=
  (∀ w ∈ ws, isLocal w.1 s = true ∧ w.1 % w.2.1 = 0 ∧ ∃ p, target (offOf w.1) s = .hbm p ∧ writeHeld (p / 128) s = false ∧ chanOos (p / 128) s = false) ∧
  ws.Pairwise (fun a b => ∀ p q, target (offOf a.1) s = .hbm p → target (offOf b.1) s = .hbm q → p + a.2.1 ≤ q ∨ q + b.2.1 ≤ p)

/-- Exactly these words of HBM are written: each holds its value, every other byte of HBM and the companion window is as before, and tile SRAM is. -/
def WordsWritten (ws : List (Nat × Nat × Nat)) (s t : State) : Prop :=
  (∀ w ∈ ws, ∀ p, target (offOf w.1) s = .hbm p → ∀ i, i < w.2.1 → placeByte (p + i) t = w.2.2 / 256 ^ i % 256) ∧
  (∀ y, (∀ w ∈ ws, ∀ p, target (offOf w.1) s = .hbm p → ¬ (p ≤ y ∧ y < p + w.2.1)) → placeByte y t = placeByte y s) ∧ t.tileSram = s.tileSram

/-- A list of 64-bit words laid out from address `a` on. -/
def wordsFrom (a : Nat) (l : List DWord) : List (Nat × Nat × Nat) := l.zipIdx.map (fun v => (a + 8 * v.2, 8, v.1.toNat))

/-- What problem `p` writes: X, F, the status word and three words of the warm record, whose RHO stays. -/
def solverWords (x : SlvD) (r : SlvRes) (p : Nat) : List (Nat × Nat × Nat) :=
  wordsFrom (x.rX.base + p * x.rX.stride) r.x ++ wordsFrom (x.rF.base + p * x.rF.stride) r.f ++ [(x.addr 4 + 8 * p, 8, r.status.toNat)] ++
  (match r.warm with
   | some (sig, l, c) => [(x.rW.base + 32 * p, 8, sig.toNat), (x.rW.base + 32 * p + 8, 8, l.toNat), (x.rW.base + 32 * p + 24, 8, c.toNat + 2 ^ 32)]
   | none => [])

end Sys2Proof.Claims

/-- The solver's commands. -/
def Obligations.SolversComputeAndWriteEachProblem : Prop :=
  ∀ (e : Fin 8) (corrected : Nat) (s : State) (y : EngIns), engHead (kSlv e) s = some y →
    let x : SlvD := ⟨y.desc⟩
    let b := slvBase e
    let ecc : Ecc := ⟨corrected, []⟩
    (y.phase = 0 → y.value < x.batch → freezeDue s = false → s.pkg ≠ .frozen → SourcesHere (kSlv e) (slvRanges (kSlv e) x y.value s) s →
      ∀ f ∈ [(Instr.chol e ecc, 0), (.ldlt e ecc, 1), (.qr e ecc, 2), (.gn e ecc, 3), (.lm e ecc, 4)], x.op = f.2 →
        ∃ t r, Runs f.1 s t ∧ sFind t.slvs e = some r ∧ r = slvProblem (kSlv e) x y.value [] s ∧ engHead (kSlv e) t = some { y with phase := 1 } ∧
          (x.solve = false → r.x = []) ∧ (x.addr 3 = 0 → r.f = []) ∧
          (bitAt r.status.toNat 0 = true ↔ r.sing ≠ none) ∧ (bitAt r.status.toNat 1 = true ↔ r.range ≠ none) ∧
          (bitAt r.status.toNat 2 = true → x.warm = true) ∧ bitAt r.status.toNat 4 = false ∧ (r.warm.isSome ↔ x.warm = true) ∧
          (∀ j, j ≠ kSlv e → getEng j t = getEng j s) ∧ { t with slvs := s.slvs, engines := s.engines, csr := s.csr, totals := s.totals } = s) ∧
    (∀ r, y.phase = 1 → sFind s.slvs e = some r → r.ue = [] → (∀ d, d < 4 → streamAlloc d s = false) → WordsAtHome (solverWords x r y.value) s →
      ∃ t, Runs (.slvProblemEnd e) s t ∧ WordsWritten (solverWords x r y.value) s t ∧ sFind t.slvs e = none ∧
        engHead (kSlv e) t = some { y with phase := 0, value := y.value + 1 } ∧ CountedOne b R.SLV_PROBLEMS_LO_VALUE R.SLV_PROBLEMS_HI_VALUE s t ∧
        (if bitAt r.status.toNat 0 then getF b R.SLV_STATUS_SINGULAR t = 1 ∧ Bumped b R.SLV_STATUS_SING_PROBLEMS s t ∧
            (getF b R.SLV_SING_POS_VALID s = 0 → getF b R.SLV_SING_POS_PROBLEM t = y.value % 65536 ∧ getF b R.SLV_SING_POS_VALID t = 1)
          else getF b R.SLV_STATUS_SINGULAR t = getF b R.SLV_STATUS_SINGULAR s) ∧
        (if bitAt r.status.toNat 1 then getF b R.SLV_STATUS_RANGE t = 1 ∧ Bumped b R.SLV_STATUS_RANGE_PROBLEMS s t
          else getF b R.SLV_STATUS_RANGE t = getF b R.SLV_STATUS_RANGE s) ∧
        (if bitAt r.status.toNat 2 then getF b R.SLV_STATUS_WARM_REJECT t = 1 ∧ Bumped b R.SLV_WARM_COUNT_COUNT s t
          else getF b R.SLV_STATUS_WARM_REJECT t = getF b R.SLV_STATUS_WARM_REJECT s) ∧
        (∀ j, j ≠ kSlv e → getEng j t = getEng j s) ∧ t.cores = s.cores ∧ t.pkg = s.pkg)

namespace Sys2Proof.Claims

/-- Entries of expert `e` that dies before `d` put before this die's, and the expert's total over the dies that share the batch. -/
def listBase (h d e : Nat) (s : State) : Nat := (((namedDies h d).filter (fun i => decide (i < d))).map (fun i => slotCount h i e s)).sum
def listTotal (h d e : Nat) (s : State) : Nat := ((namedDies h d).map (fun i => slotCount h i e s)).sum

/-- Whether the selection of rank `r` of token `o` has a place below CAP. -/
def keptSel (b : Batch) (d : Nat) (s : State) (o r : Nat) : Bool :=
  (List.range (hdrE b.header)).any (fun e => (selsOf (batchTokens b s) e).zipIdx.any (fun y =>
    y.1.1 = o && y.1.2.1 = r && listBase b.header d e s + y.2 < hdrCap b.header))

/-- Selections of a batch that found no place; every selection of a token with a bad row is lost. -/
def lostSels (b : Batch) (d : Nat) (s : State) : Nat :=
  ((batchTokens b s).map (fun t => if t.bad then hdrK b.header else
    ((List.range t.sels.length).filter (fun r => !keptSel b d s t.off r)).length)).sum

/-- What the end of a batch writes. -/
def batchWords (b : Batch) (d : Nat) (s : State) : List (Nat × Nat × Nat) :=
  let h := b.header
  let cap := hdrCap h
  let ts := batchTokens b s
  let es := List.range (hdrE h)
  let first := (namedDies h d).headD d
  (es.flatMap (fun e => (selsOf ts e).zipIdx.filterMap (fun y => if listBase h d e s + y.2 < cap then
      some (hdrList h + 8 * (e * cap + listBase h d e s + y.2), 8, y.1.2.2 * 2 ^ 32 + y.1.2.1 * 2 ^ 29 + (hdrToken h + y.1.1)) else none))) ++
  (if b.pad ∧ d = first then es.flatMap (fun e => (List.range cap).filterMap (fun i =>
      if listTotal h d e s ≤ i then some (hdrList h + 8 * (e * cap + i), 8, 0xFFFFFFFF) else none)) else []) ++
  (if d = first then es.map (fun e => (hdrCount h + 4096 + 4 * e, 4, min (listTotal h d e s) cap)) else []) ++
  (if hdrDmap h then ts.zipIdx.map (fun t =>
      (hdrDmapAddr h + t.2, 1, packBits 1 ((List.range 8).map (fun r => b2n (keptSel b d s t.1.off r))))) else [])

end Sys2Proof.Claims

/-- The Dispatcher's commands. -/
def Obligations.DispatchersRouteTheirBatches : Prop :=
  ∀ (d : Fin 4) (corrected : Nat) (s : State), (∀ i, i < 4 → streamAlloc i s = false) →
    let k := kDsp d
    let z := getDsp d s
    let ecc : Ecc := ⟨corrected, []⟩
    (∀ x rest, (getEng k s).cross = x :: rest → (∀ p, p / 8 = x.core → tileMarks p s = []) →
      let c := conRead x.core x.p.toNat s
      let ha := conHeader c
      let opened := z.batches.any (fun b => decide (b.contribs.length < 9) && decide (b.addr = ha))
      (opened = true ∨ (z.batches.filter (fun b => decide (b.contribs.length < 9))).length < 2) → dspAsk d x.core [] x.p.toNat s = none →
      firstFailing (dspChecks d x.core [] x.p.toNat s) = none →
        ((∀ b ∈ z.batches, b.addr = ha → b.contribs.length ≠ 8) → (∀ b bs, z.batches = b :: bs → b.contribs.length < 9 ∨ b.phase ≠ 0) →
          ∃ t con, Runs (.dspContribution d ecc) s t ∧ (getEng k t).cross = rest ∧ con.ins = { x with desc := c } ∧ con.bad = [] ∧
            (opened = true → (getDsp d t).batches = z.batches.map (fun b =>
              if b.contribs.length < 9 ∧ b.addr = ha then { b with contribs := b.contribs ++ [con] } else b)) ∧
            (opened = false → (getDsp d t).batches = z.batches ++
              [⟨ha, hdrRead d ha s, decide (effF (dspBase d) R.DSP_CFG_PAD_FILL R.DSP_CFG_LEVEL s = 1), dspLimit d x.core s, s.count, [con], 0⟩]) ∧
            (∀ j, j ≠ k → getEng j t = getEng j s) ∧
            { t with engines := s.engines, dsps := s.dsps, csr := s.csr, totals := s.totals, ran := s.ran } = s) ∧
        (∀ b bs, z.batches = b :: bs → b.addr = ha → b.contribs.length = 8 → b.phase = 0 → (∀ y ∈ bs, y.addr = ha → 9 ≤ y.contribs.length) →
          let b' : Batch := { b with contribs := b.contribs ++ [⟨{ x with desc := c }, []⟩] }
          let counts := (List.range 256).map (fun e => (hdrCount b.header + 1024 * d.val + 4 * e, 4, (selsOf (batchTokens b' s) e).length))
          WordsAtHome counts s →
          ∃ t, Runs (.dspContribution d ecc) s t ∧ WordsWritten counts s t ∧ (getDsp d t).batches = { b' with phase := 1, since := s.count } :: bs ∧
            (∀ i, i ∈ namedDies b.header d → i ≠ d → (d.val, offOf (hdrCount b.header)) ∈ (getDsp i t).got) ∧ t.cores = s.cores)) ∧
    (∀ b bs, z.batches = b :: bs →
      let others := (namedDies b.header d).filter (fun i => decide (i ≠ d.val))
      let ca := offOf (hdrCount b.header)
      (b.phase = 1 → hdrExch b.header ≠ 0 → (∀ i ∈ others, (i, ca) ∈ z.got) → (∀ i ∈ namedDies b.header d, writesOpen (.eng (kDsp i)) s = false) →
        ∃ t, Runs (.dspExchangeDone d) s t ∧ (getDsp d t).batches = { b with phase := 2 } :: bs ∧
          (∀ y, (getDsp d t).got.count y = z.got.count y - (if y.2 = ca ∧ y.1 ∈ others then 1 else 0)) ∧
          (∀ j, j ≠ d.val → getDsp j t = getDsp j s) ∧ { t with dsps := s.dsps } = s) ∧
      ((b.phase = 2 ∨ (b.phase = 1 ∧ hdrExch b.header = 0)) → bs = [] → (getCore 36 s).st ≠ .idle → WordsAtHome (batchWords b d s) s →
        (∀ pl ∈ rangeHbm (dspRanges b.header (batchTokens b s).length) s, writeHeld pl s = false) →
        (b.contribs.map (fun c => c.ins.core)).Nodup →
        ∃ t, Runs (.dspBatchDone d) s t ∧ WordsWritten (batchWords b d s) s t ∧ (getDsp d t).batches = [] ∧ t.engines = s.engines ∧ t.pkg = s.pkg ∧
          (lostSels b d s ≠ 0 → getF (dspBase d) R.DSP_STATUS_DROP t = 1) ∧
          ∀ c ∈ b.contribs,
            let v := ((List.range (hdrE b.header)).map (fun e => listTotal b.header d e s)).foldl max 0
            (∀ r, c.ins.sum = some r →
              let y := getS (getCore c.ins.core t) r
              bitsAt y.toNat 0 64 = v % 2 ^ 64 ∧ bitsAt y.toNat 64 25 = min (lostSels b d s) 0x1FFFFFF) ∧
            ∀ o, o ∈ (getCore c.ins.core t).out ↔
              o ∈ (getCore c.ins.core s).out ∧ ¬ (o.kind = c.ins.kind ∧ o.tile = c.ins.tile ∧ o.tag = c.ins.tag))) ∧
    (s.pkg = .frozen → Runs (.dspBatchTimeout d) s s) ∧
    (∀ pre b post, z.batches = pre ++ b :: post → s.pkg ≠ .frozen →
      let collecting := fun (y : Batch) => y.contribs.length < 9 ∨ (y.phase = 1 ∧ hdrExch y.header ≠ 0)
      let late := fun (y : Batch) => 1000 * y.limit < (s.count - y.since).toNat
      (∀ y ∈ pre, ¬ (collecting y ∧ late y)) → collecting b → late b → (∀ c ∈ b.contribs, c.ins.core < 44) →
        ∃ t, Runs (.dspBatchTimeout d) s t ∧ getF (dspBase d) R.DSP_ERR_TIMEOUT t = 1 ∧
          (∀ i, i < 9 → (bitAt (getF (dspBase d) R.DSP_ERR_MISSING t) i = true ↔ ∀ c ∈ b.contribs, c.ins.core ≠ 9 * d.val + i)) ∧
          (∀ c ∈ b.contribs, (getCore c.ins.core s).st ∈ [CoreSt.running, .waiting, .inTrap] →
            (getCore c.ins.core t).st = .faulted ∧ getF (seqBase c.ins.core) R.SEQ_FAULT_CODE t = 7 ∧
            getPair (seqBase c.ins.core) R.SEQ_FAULT_ADDR_LO_VALUE R.SEQ_FAULT_ADDR_HI_VALUE t = b.addr % 2 ^ 64) ∧
          (∀ j, (∀ c ∈ b.contribs, c.ins.core ≠ j) → getCore j t = getCore j s) ∧ MemoriesKept s t ∧ t.dsps = s.dsps)

namespace Sys2Proof.Claims

/-- The local range is plain HBM: every byte has a place of its own, in a channel in service, on a line of which the companion has no copy. -/
def PlainRange (off n : Nat) (s : State) : Prop :=
  (∀ o, off ≤ o → o < off + n → ∃ p, target o s = .hbm p ∧ writeHeld (p / 128) s = false ∧ chanOos (p / 128) s = false) ∧
  ∀ o u, off ≤ o → o < off + n → off ≤ u → u < off + n → target o s = target u s → o = u

/-- Outside the local range every byte of HBM and the companion window is as before. -/
def OnlyRangeWritten (off n : Nat) (s t : State) : Prop :=
  (∀ y, (∀ o, off ≤ o → o < off + n → target o s ≠ .hbm y) → placeByte y t = placeByte y s) ∧ t.tileSram = s.tileSram

/-- A package of this Caravan to which both fabric dies have a path on the channels of the collective engine, by ports whose replay buffers have room. -/
def Reachable (d : Nat) (s : State) : Prop :=
  d < 2 ^ 16 ∧ d / 64 = pkgNum s / 64 ∧ ∀ fd vc : Fin 2,
    ∃ p ∈ pathHop (2 + vc) fd 0x100 (d % 64) s, (getLink p s).waiting = [] ∧ replayFlits (getLink p s) + 64 ≤ 512

/-- One message with a collective slot of this kind went out, for each of these packages in turn. -/
def SentSlots (opc kind : Nat) (dsts : List Nat) (s t : State) : Prop :=
  ∃ ms : List (Nat × Msg), t.out = s.out ++ ms.map (fun x => OutMsg.link x.1 x.2) ∧
    List.Forall₂ (fun d x => x.2.hdr.dst.toNat = d ∧ x.2.hdr.opc.toNat = opc ∧ bitsAt (x.2.slots.headD 0).toNat 100 4 = kind) dsts ms

/-- Nothing of the cores, the engines, memory and the package state changed. -/
def Untouched (s t : State) : Prop := t.cores = s.cores ∧ t.engines = s.engines ∧ MemoriesKept s t ∧ t.pkg = s.pkg

/-- The commands that start a collective, with their operation code (R301). -/
noncomputable def startForms (g : Fin 256) : List (Instr × Nat) :=
  [(.barrier g, 0), (.broadcast g, 1), (.reduce g, 2), (.allreduce g, 3), (.reduceScatter g, 4), (.allgather g, 5), (.alltoallv g, 6), (.alltoallCap g, 7)]

end Sys2Proof.Claims

/-- The life of a collective. -/
def Obligations.CollectivesAreAcceptedStartedAndCompleted : Prop :=
  ∀ (g : Fin 256) (s : State),
    (∀ (path : Path) (i : Nat) (v : Word), (i = 0 ∨ i = 2 ∨ i = 3) →
      let off := BitVec.ofNat 26 (grpBase g + 4 * i)
      (∀ c, Runs (.groupEntryWrite (.drover c) off v) s s) ∧
      ((∀ x ∈ s.col.runs, x.grp ≠ g.val) → (∀ c, path ≠ .drover c) →
        ∃ t, Runs (.groupEntryWrite path off v) s t ∧ grpWord g i t = v.toNat ∧ grpMembers g t = [] ∧
          (i = 0 → bitAt v.toNat 31 = true → grpSeq g t = 0 ∧ grpBroken g t = false) ∧
          (∀ dv o, o ≠ grpBase g + 4 * i → ¬ (i = 0 ∧ bitAt v.toNat 31 = true ∧ o = grpBase g + 4) → csrGet dv o t = csrGet dv o s) ∧
          { t with csr := s.csr, col := s.col } = s) ∧
      (∀ x ∈ s.col.runs, x.grp = g.val → (∀ c, path ≠ .drover c) → ∃ t, Runs (.groupEntryWrite path off v) s t ∧ Logged srcCol 0x65 1 s t ∧ OnlyLogged s t)) ∧
    (∀ x rest, (getEng kCol s).cross = x :: rest → (getEng kCol s).queue.length < 64 → x.p.toNat % 64 = 0 → ownHbm x.p.toNat 64 s = true →
      let off := offOf x.p.toNat
      let d := readOff off 64 s
      let u := grpLoad g s
      SourcesHere kCol [(0xFFFF * 2 ^ 48 + off, 64)] s → ((sGet ⟨false, []⟩ s.col.groups g).read = false → SourcesHere kCol [grpListAt g s] s) → cGroup d = g.val → grpValid g s = true → firstFailing (colChecks false x d u) = none →
      grpBroken g s = false → (∀ m ∈ grpMembers g u, isMember 0 m s = true) →
        ∃ t y z, Runs (.colAccept false) s t ∧ (getEng kCol t).cross = rest ∧ (getEng kCol t).queue = (getEng kCol s).queue ++ [y] ∧ y.desc = d ∧
          { y with cfg := x.cfg, desc := x.desc } = x ∧ t.col.runs = s.col.runs ++ [z] ∧ z = ColX.new y g (grpSeq g s) ∧
          grpSeq g t = (grpSeq g s + 1) % 2 ^ 16 ∧
          ((sGet ⟨false, []⟩ s.col.groups g).read = false → grpMembers g t = (List.range (grpN g s)).map (fun i =>
            bitsAt (readOff ((grpWord g 2 s + 2 ^ 32 * grpWord g 3 s) % 2 ^ 48) (2 * grpN g s) s) (16 * i) 16)) ∧
          ((sGet ⟨false, []⟩ s.col.groups g).read = true → grpMembers g t = grpMembers g s) ∧
          t.cores = s.cores ∧ MemoriesKept s t ∧ t.pkg = s.pkg) ∧
    (∀ x, s.col.runs.find? (fun y => y.grp = g.val) = some x →
      let d := x.ins.desc
      let n := grpN g s
      let me := grpRank g s
      (∀ f ∈ startForms g, cOp d = f.2 → x = ColX.new x.ins g x.seq → (cReduces f.2 = true → claimBefore x s = false) → (s.col.runs.filter (fun y => y.started)).length < 16 → freezeDue s = false →
        s.ckp.halt = none → s.col.lost = [] → (∀ w ∈ s.col.mail, ¬ (w.m.group = g ∧ w.m.seq.toNat = x.seq)) →
        SourcesHere kCol (cSources d n s) s →
        (treeKids n me ≠ [] →
          ∃ t z, Runs f.1 s t ∧ getRun g x.seq t = some z ∧ z.started = true ∧ z.since = s.count ∧
            { z with started := false, claim := 0, failed := false, exp := [], expBad := [], since := 0, limit := 0 } = x ∧
            (z.failed = true → cReduces f.2 = true ∧ z.claim = 0) ∧ (cReduces f.2 = false → z.claim = 0) ∧
            (z.claim ≠ 0 → z.claim + (s.col.runs.map (fun y => y.claim)).sum ≤ 64 * 2 ^ 20) ∧ { t with col := s.col, csr := s.csr } = s) ∧
        (∀ p, treeKids n me = [] → treeUp n me = some p → cFix d = false → Reachable ((grpMembers g s).getD p 0) s →
          ∃ t z, Runs f.1 s t ∧ getRun g x.seq t = some z ∧ z.started = true ∧ z.joinSent = true ∧ z.joined = false ∧
            SentSlots (if f.2 = 0 then 7 else 6) 0 [(grpMembers g s).getD p 0] s t ∧ Untouched s t) ∧
        (n = 1 → me = 0 → f.2 = 0 →
          ∃ t z, Runs f.1 s t ∧ getRun g x.seq t = some z ∧ z.joined = true ∧ z.joinFwd = true ∧ { t with col := s.col, csr := s.csr } = s)) ∧
      (colFinished x s = true → x.put = false → (∀ i, i < 4 → streamAlloc i s = false) → (getCore 36 s).st ≠ .idle →
        let e := cRange d n me
        let z := cSize (cType d)
        let dst := offOf (cDst d)
        let len := cDstBytes d n me
        PlainRange dst len s → (cA2a (cOp d) = true → PlainRange (offOf (cRcnt d)) (4 * n) s) → dst + len ≤ 2 ^ 48 →
        ∃ t, Runs (.colComplete g) s t ∧ (∀ y, y ∈ t.col.runs ↔ y ∈ s.col.runs ∧ ¬ (y.grp = x.grp ∧ y.seq = x.seq)) ∧
          CountedOne colBase R.COL_DONE_LO_VALUE R.COL_DONE_HI_VALUE s t ∧ OtherCoresKept x.ins.core s t ∧ t.pkg = s.pkg ∧
          (∀ r, x.ins.sum = some r →
            bitAt (getS (getCore x.ins.core t) r).toNat 120 = false ∧
            bitsAt (getS (getCore x.ins.core t) r).toNat 0 64 = (if cA2a (cOp d) then (myGrants x n).foldl (· + ·) 0 else 0) % 2 ^ 64) ∧
          (∀ o, o ∈ (getCore x.ins.core t).out ↔
            o ∈ (getCore x.ins.core s).out ∧ ¬ (o.kind = x.ins.kind ∧ o.tile = x.ins.tile ∧ o.tag = x.ins.tag)) ∧
          (cA2a (cOp d) = false → OnlyRangeWritten dst len s t) ∧
          (cReduces (cOp d) = true → ∀ i, i < e.2 - e.1 →
            readOff (dst + i * z) z t = (resultElem x (e.1 + i) (resultWord x n (e.1 + i))).1 % 2 ^ (8 * z)) ∧
          (cOp d = 1 → me ≠ cRoot d → ∀ i, i < cBytes d →
            readOff (dst + i) 1 t = bitsAt (sGet (0, false) x.res (i / 1024)).1 (8 * (i % 1024)) 8)))

namespace Sys2Proof.Claims

/-- The group aborted: it is BROKEN and none of its collectives is left, the others are; a single one's summary says TRAP, and it is captured,
recorded and counted; the control-tree neighbours were told. -/
def GroupAborted (g q cause origin : Nat) (s t : State) : Prop :=
  grpBroken g t = true ∧ (∀ y, y ∈ t.col.runs ↔ y ∈ s.col.runs ∧ y.grp ≠ g) ∧
  SentSlots 7 6 ((ctlNeighbours (grpN g s) (grpRank g s)).map (fun r => (grpMembers g s).getD r 0)) s t ∧
  ∀ x, s.col.runs.filter (fun y => decide (y.grp = g)) = [x] →
    getF colBase R.COL_STATUS_ABORTED t = 1 ∧ Logged srcCol 0x60 2 s t ∧ OtherCoresKept x.ins.core s t ∧
    CountedOne colBase R.COL_DONE_LO_VALUE R.COL_DONE_HI_VALUE s t ∧
    (getF colBase R.COL_ABORT_INFO_HI_VALID s = 0 →
      getF colBase R.COL_ABORT_INFO_LO_GROUP t = g % 256 ∧ getF colBase R.COL_ABORT_INFO_LO_CAUSE t = (if x.seq = q ∨ cause = 5 then cause else 6) % 256 ∧
      getF colBase R.COL_ABORT_INFO_HI_PKG t = (if x.seq = q ∨ cause = 5 then origin else pkgNum s) % 65536 ∧ getF colBase R.COL_ABORT_INFO_HI_VALID t = 1) ∧
    ∀ r, x.ins.sum = some r → bitAt (getS (getCore x.ins.core t) r).toNat 120 = true

/-- The members beside this one in the control tree can be reached, and the destinations of the group's collectives are plain HBM. -/
def NeighboursReachable (g : Nat) (s : State) : Prop :=
  (∀ r ∈ ctlNeighbours (grpN g s) (grpRank g s), ∃ p, (grpMembers g s)[r]? = some p ∧ Reachable p s) ∧
  (sGet ⟨false, []⟩ s.col.groups g).read = true ∧
  ∀ x ∈ s.col.runs, x.grp = g → PlainRange (offOf (cDst x.ins.desc)) (cDstBytes x.ins.desc (grpN g s) (grpRank g s)) s

/-- The messages of a collective and what is kept of each. -/
noncomputable def mailForms (m : ColMsg) (sig : CallSig) (algo : Fin 5) (n : Nat) : List (Instr × ColMail) :=
  [(.join m sig algo, ⟨0, m, sig, algo, 0⟩), (.exp m, ⟨1, m, ⟨0, 0, 0, 0, 0, 0, 0, 0⟩, 0, 0⟩), (.data m, ⟨2, m, ⟨0, 0, 0, 0, 0, 0, 0, 0⟩, 0, 0⟩),
   (.counts m n, ⟨3, m, ⟨0, 0, 0, 0, 0, 0, 0, 0⟩, 0, n⟩), (.allow m n, ⟨4, m, ⟨0, 0, 0, 0, 0, 0, 0, 0⟩, 0, n⟩),
   (.freezeMark m, ⟨7, m, ⟨0, 0, 0, 0, 0, 0, 0, 0⟩, 0, 0⟩)]

/-- The message acts on its running collective, which becomes `y`, and the member then sends what it can. -/
def TakesMessage (i : Instr) (m : ColMsg) (y : ColX) (s : State) : Prop :=
  ∃ u, Runs i s (colAdvance m.group.val m.seq.toNat u) ∧ getRun m.group.val m.seq.toNat u = some y ∧ { u with col := s.col, csr := s.csr } = s ∧
    getPair colBase R.COL_RX_BYTES_LO_VALUE R.COL_RX_BYTES_HI_VALUE u =
      (getPair colBase R.COL_RX_BYTES_LO_VALUE R.COL_RX_BYTES_HI_VALUE s + (32 + 16 * m.slots.length)) % 2 ^ 64

end Sys2Proof.Claims

/-- Messages, timers and aborts. -/
def Obligations.CollectiveMessagesAndAborts : Prop :=
  ∀ (m : ColMsg) (sig : CallSig) (algo : Fin 5) (num : Nat) (s : State),
    let g := m.group.val
    let q := m.seq.toNat
    let r := m.rank.toNat
    let c := m.chunk.toNat
    let n := grpN g s
    let up := treeUp n (grpRank g s)
    let v := slotsLine m.slots % 2 ^ 8192
    (freezeDue s = false → ∀ f ∈ mailForms m sig algo num,
      ((∀ x, getRun g q s = some x → x.started = false →
          ∃ t, Runs f.1 s t ∧ t.col.mail = s.col.mail ++ [f.2] ∧ { t with col := { t.col with mail := s.col.mail } } = s) ∧
       (getRun g q s = none → (grpBroken g s = true → Runs f.1 s s) ∧
         (grpBroken g s = false → (q + 2 ^ 16 - grpSeq g s) % 2 ^ 16 < 2 ^ 15 →
           ∃ t, Runs f.1 s t ∧ t.col.mail = s.col.mail ++ [f.2] ∧ { t with col := { t.col with mail := s.col.mail } } = s) ∧
         (2 ^ 15 ≤ (q + 2 ^ 16 - grpSeq g s) % 2 ^ 16 → Runs f.1 s s)))) ∧
    (∀ x0, getRun g q s = some x0 → x0.started = true →
      let x : ColX := { x0 with since := s.count, limit := colLimit g s }
      let d := x.ins.desc
      let failed := x.failed || bitAt m.flags.toNat 2
      (up ≠ some r → TakesMessage (.join m sig algo) m { x with joins := r :: x.joins, failed := failed } s) ∧
      (up = some r → sig = ownSig x s → ¬ (cReduces (cOp d) = true ∧ (failed = true ∨ algo.val = 4)) →
        TakesMessage (.join m sig algo) m { x with joined := true, algo := algo, failed := failed } s) ∧
      (up = some r → sig = ownSig x s → cReduces (cOp d) = true → (failed = true ∨ algo.val = 4) →
        ∃ u y, Runs (.join m sig algo) s (colAdvance g q u) ∧ getRun g q u = some y ∧ y.joined = true ∧ y.algo = 4 ∧ y.claim = 0 ∧
          Bumped colBase R.COL_NOINR_COUNT_COUNT s u) ∧
      (up = some r → sig ≠ ownSig x s → grpBroken g s = false → NeighboursReachable g s → (getCore 36 s).st ≠ .idle → (getCore 36 s).st ≠ .parked →
        ∃ u, Runs (.join m sig algo) s (colAdvance g q u) ∧ GroupAborted g q 3 (pkgNum s) s u) ∧
      (m.pmask = 0 → chunkBad 1 m = false →
        let expBad := if bitAt m.flags.toNat 0 = true ∧ c ∉ x.expBad then c :: x.expBad else x.expBad
        (m.step = 1 → TakesMessage (.exp m) m { x with expBad := expBad, expFin := sIns c v x.expFin } s) ∧
        (m.step ≠ 1 → TakesMessage (.exp m) m
          { x with expBad := expBad, expGot := (r, c) :: x.expGot, exp := sIns c (zipWords 16 phase1Max (sGet 0 x.exp c) v) x.exp } s)) ∧
      ((m.pmask ≠ 0 ∨ chunkBad 1 m = true) →
        ∃ u y, Runs (.exp m) s (colAdvance g q u) ∧ getRun g q u = some y ∧ c ∈ y.expBad ∧ getF colBase R.COL_STATUS_DIRTY u = 1 ∧
          Bumped colBase R.COL_CRC_COUNT_COUNT s u ∧ Logged srcCol 0x61 2 s u ∧ Untouched s u) ∧
      (m.pmask = 0 → chunkBad 2 m = false → let dirty := bitAt m.flags.toNat 0
        (cA2a (cOp d) = true → TakesMessage (.data m) m { x with rowsIn := sIns (r * 2 ^ 32 + c) (v, dirty) x.rowsIn } s) ∧
        (cA2a (cOp d) = false →
          (m.step = 2 → TakesMessage (.data m) m { x with done := r :: x.done } s) ∧
          (m.step = 1 → TakesMessage (.data m) m { x with res := sIns c (v, dirty) x.res } s) ∧
          (m.step = 0 → let p := sGet ColPart.init x.parts c
            (r ∈ p.got → TakesMessage (.data m) m x s) ∧
            (p.got = [] → TakesMessage (.data m) m { x with parts := sIns c ⟨[r], v, p.dirty || dirty⟩ x.parts } s) ∧
            (r ∉ p.got → p.got ≠ [] → cFix d = true → TakesMessage (.data m) m
              { x with parts := sIns c ⟨r :: p.got, zipWords 64 (fun a b => (a + b) % 2 ^ 64) p.data v, p.dirty || dirty⟩ x.parts } s)))) ∧
      ((m.pmask ≠ 0 ∨ chunkBad 2 m = true) →
        ∃ u, Runs (.data m) s (colAdvance g q u) ∧ getF colBase R.COL_STATUS_DIRTY u = 1 ∧ Bumped colBase R.COL_CRC_COUNT_COUNT s u ∧
          Logged srcCol 0x61 2 s u ∧ Untouched s u) ∧
      TakesMessage (.counts m num) m { x with counts := sIns r num x.counts } s ∧
      TakesMessage (.allow m num) m { x with allow := sIns r num x.allow } s ∧
      (∃ l, TakesMessage (.freezeMark m) m { x with fmarks := l } s ∧ r ∈ l ∧ ∀ j, j ≠ r → (j ∈ l ↔ j ∈ x.fmarks))) ∧
    (∀ st : BitVec 4,
      let Seen := fun (u : State) => ∀ k, sFind u.col.seen k = if k = g * 65536 + r then some (st.toNat, num) else sFind s.col.seen k
      let before := (sGet (0, 0) s.col.seen (g * 65536 + r)).2
      let first := s.col.runs.find? (fun y => y.grp = g)
      let goesOn := st.toNat = stCode .running ∨ st.toNat = stCode .frozen
      (goesOn → num ≤ before →
        ∃ u, Runs (.progress m st num) s (colWake u) ∧ { u with col := { u.col with seen := s.col.seen } } = s ∧ Seen u) ∧
      (goesOn → before < num → (s.col.runs.map (fun y => (y.grp, y.seq))).Nodup →
        ∃ u, Runs (.progress m st num) s (colWake u) ∧ Seen u ∧ (∀ y ∈ u.col.runs, y.grp = g → y.started = true → y.since = s.count) ∧
          { u with col := { u.col with seen := s.col.seen, runs := s.col.runs } } = s) ∧
      (¬ goesOn → first = none → ∃ u, Runs (.progress m st num) s u ∧ { u with col := { u.col with seen := s.col.seen } } = s ∧ Seen u) ∧
      (∀ x, ¬ goesOn → first = some x → grpBroken g s = false → NeighboursReachable g s → (getCore 36 s).st ≠ .idle → (getCore 36 s).st ≠ .parked →
        ∃ u, Runs (.progress m st num) s u ∧ GroupAborted g x.seq (if st.toNat = stCode .faulted then 1 else 2) m.src.toNat s u)) ∧
    (∀ (gg : Fin 256) (rank : BitVec 16), let first := s.col.runs.find? (fun y => y.grp = gg.val)
      let nb := ctlNeighbours (grpN gg s) (grpRank gg s)
      let late := fun (y : ColX) => y.grp = gg.val ∧ y.started = true ∧ y.limit ≤ (s.count - y.since).toNat
      (first = none → ¬ (grpValid gg s = true ∧ s.pkg ≠ .running ∧ getF colBase R.COL_LAUNCH_STATUS_STATE s = 5) → Runs (.progressSendTimer gg) s s) ∧
      ((∀ y ∈ s.col.runs, ¬ late y) → Runs (.colProgressTimeout gg) s s) ∧
      (first.isSome → NeighboursReachable gg s → ∃ t, Runs (.progressSendTimer gg) s t ∧ Untouched s t ∧ t.col = s.col ∧
        SentSlots 7 5 (nb.map (fun i => (grpMembers gg s).getD i 0)) s t) ∧
      (s.pkg = .frozen → Runs (.colProgressTimeout gg) s s) ∧
      (rank.toNat ∉ nb → Runs (.peerSilent gg rank) s s) ∧
      (∀ x, first = some x → grpBroken gg s = false → NeighboursReachable gg s → (getCore 36 s).st ≠ .idle → (getCore 36 s).st ≠ .parked →
        (s.pkg ≠ .frozen → late x → ∃ t, Runs (.colProgressTimeout gg) s t ∧ GroupAborted gg x.seq 4 (pkgNum s) s t) ∧
        (rank.toNat ∈ nb → s.ckp.mine = none →
          ∃ t, Runs (.peerSilent gg rank) s t ∧ GroupAborted gg x.seq 2 ((grpMembers gg s).getD rank.toNat 0) s t))) ∧
    (∀ (cause : BitVec 8) (origin : BitVec 16), s.ckp.mine = none → s.ckp.freeze = none → s.ckp.restore = none →
      (s.launch = none → 8 ≤ cause.toNat → Runs (.abort m cause origin) s s) ∧
      ((s.launch = none ∧ cause.toNat < 8 ∨ s.launch.isSome ∧ launchAbort m cause.toNat s = false) →
        (grpBroken g s = true ∨ grpValid g s = false → ¬ ((cause = 1 ∨ cause = 2) ∧ s.pkg = .running) → Runs (.abort m cause origin) s s) ∧
        (grpBroken g s = false → grpValid g s = true → NeighboursReachable g s → (getCore 36 s).st ≠ .idle → (getCore 36 s).st ≠ .parked →
          ∃ t, Runs (.abort m cause origin) s t ∧ GroupAborted g q cause.toNat origin.toNat s t)))

namespace Sys2Proof.Claims

/-- The packages beside this node in the launch tree, without `src`. -/
def launchPeers (l : LaunchRec) (src : Nat) : List Nat :=
  (l.up.toList ++ (l.kids.filter (fun i => !l.dead.contains i)).map (fun i => nodePkg l i)).filter (fun p => decide (p ≠ src))

/-- The launch ended here with LAUNCH_ABORT; `told` heard of it. -/
def LaunchEnded (dead : Nat) (told : List Nat) (s t : State) : Prop :=
  t.launch = none ∧ getF colBase R.COL_LAUNCH_STATUS_STATE t = 5 ∧ getF colBase R.COL_LAUNCH_STATUS_DEAD_PKG t = dead % 65536 ∧
  SentSlots 7 6 told s t ∧ Untouched s t ∧
  (cmdBusy s = true → (cmdOp s = 9 ∨ cmdOp s = 0xB) →
    getF cmdBase R.CMD_STATUS_CODE t = 6 ∧ getF cmdBase R.CMD_STATUS_DONE t = 1 ∧ getF cmdBase R.CMD_STATUS_BUSY t = 0)

/-- This node started the abort: it is recorded and kept for the rest of the launch. -/
def LaunchGivenUp (l : LaunchRec) (cause dead : Nat) (s t : State) : Prop :=
  LaunchEnded dead (launchPeers l 0x10000) s t ∧ Logged srcCol 0x64 2 s t ∧ t.ownAbort = some (cause, dead, l.count)

/-- The launch goes on as `l`, in this state, with these messages sent. -/
def LaunchWentOn (l : LaunchRec) (st kind : Nat) (told : List Nat) (s t : State) : Prop :=
  t.launch = some l ∧ getF colBase R.COL_LAUNCH_STATUS_STATE t = st ∧ SentSlots 7 kind told s t ∧ Untouched s t ∧ t.ownAbort = s.ownAbort

/-- Some child has neither died nor reported. -/
def ChildAwaited (l : LaunchRec) : Prop := ∃ i ∈ l.kids, i ∉ l.dead ∧ i ∉ l.ready

end Sys2Proof.Claims

/-- The launch tree's messages. -/
def Obligations.LaunchTreesPrepareReportAndGo : Prop :=
  ∀ (src orphan : BitVec 16) (crc : DWord) (s : State),
    let me := pkgNum s
    (s.launch = none → s.ownAbort = none → Reachable src.toNat s →
      ∃ t, Runs (.prepare src crc) s t ∧ LaunchEnded me [src.toNat] s t ∧ Logged srcCol 0x64 2 s t) ∧
    (∀ cause dead c, s.launch = none → s.ownAbort = some (cause, dead, c) → s.count < c → Reachable src.toNat s →
      ∃ t, Runs (.prepare src crc) s t ∧ SentSlots 7 6 [src.toNat] s t ∧ Untouched s t ∧ t.launch = none) ∧
    (s.launch = none → Runs (.ready src) s s ∧ Runs (.go src) s s ∧ Runs (.adopt src orphan) s s ∧ Runs (.launchChildTimeout src) s s ∧
      Runs .launchMargin s s) ∧
    (∀ l, s.launch = some l →
      l.kids.length ≤ 40 →
      let live := (l.kids.filter (fun i => !l.dead.contains i)).map (fun i => nodePkg l i)
      let pu := { l with up := some src.toNat }
      (crc.toNat ≠ l.crc → (∀ p ∈ launchPeers pu 0x10000, Reachable p s) → ∃ t, Runs (.prepare src crc) s t ∧ LaunchGivenUp pu 9 me s t) ∧
      (crc.toNat = l.crc → l.prep = false → ChildAwaited l → (∀ i ∈ l.kids, Reachable (nodePkg l i) s) →
        ∃ t tm, Runs (.prepare src crc) s t ∧ LaunchWentOn { pu with prep := true, timers := tm } 2 8 (l.kids.map (fun i => nodePkg l i)) s t ∧
          ∀ i ∈ l.kids, (i, childDeadline s) ∈ tm) ∧
      (crc.toNat = l.crc → l.prep = false → l.kids = [] → l.await = [] → l.go = false → l.me ≠ 0 → l.sentTo = none → Reachable src.toNat s →
        ∃ t, Runs (.prepare src crc) s t ∧ LaunchWentOn { pu with prep := true, sentTo := some src.toNat } 3 9 [src.toNat] s t) ∧
      (l.go = true → Runs (.go src) s s) ∧
      (l.go = false → (∀ p ∈ live, Reachable p s) → ∃ t, Runs (.go src) s t ∧ LaunchWentOn { l with go := true } 4 0xA live s t) ∧
      (∀ i, l.kids.find? (fun i => nodePkg l i = src.toNat && !l.ready.contains i) = some i → l.report.filter (fun e => decide (e.1 = i)) = [] →
        let l' := { l with ready := i :: l.ready }
        (ChildAwaited l' → ∃ t, Runs (.ready src) s t ∧ { t with launch := s.launch } = s ∧ t.launch = some l') ∧
        (¬ ChildAwaited l' → l.prep = true → l.await = [] → l.go = false →
          (l.me = 0 → s.count.toNat + l.margin ≤ l.count.toNat → (∀ p ∈ live, Reachable p s) →
            ∃ t, Runs (.ready src) s t ∧ LaunchWentOn { l' with go := true } 4 0xA live s t) ∧
          (∀ p, l.me ≠ 0 → l.up = some p → l.sentTo ≠ some p → Reachable p s →
            ∃ t, Runs (.ready src) s t ∧ LaunchWentOn { l' with sentTo := some p } 3 9 [p] s t))) ∧
      (∀ i, nodeAt l orphan.toNat = some i → l.prep = true → Reachable (nodePkg l i) s →
        ∃ t, Runs (.adopt src orphan) s t ∧ t.launch = some { l with kids := l.kids ++ [i], report := l.report ++ [(i, src.toNat)],
                                                                        timers := (i, childDeadline s) :: l.timers.filter (fun e => decide (e.1 ≠ i)) } ∧
          Bumped colBase R.COL_LAUNCH_STATUS_REPARENTS s t ∧ SentSlots 7 8 [nodePkg l i] s t ∧ Untouched s t) ∧
      (∀ i, l.kids.find? (fun i => nodePkg l i = src.toNat && !l.ready.contains i && !l.dead.contains i) = some i → l.prep = true → l.go = false →
        (timerOver i l s = false → Runs (.launchChildTimeout src) s s) ∧
        (timerOver i l s = true → nodeRelay l i = false → (∀ p ∈ launchPeers l 0x10000, Reachable p s) →
          ∃ t, Runs (.launchChildTimeout src) s t ∧ LaunchGivenUp l 2 src.toNat s t) ∧
        (∀ o a, timerOver i l s = true → nodeRelay l i = true → entryKids (nodeOf l i) = [o] →
          (entryAlts (nodeOf l o)).find? (fun a => a ≠ i && !l.dead.contains a && !l.tried.contains (o, a)) = some a → a ≠ l.me → Reachable (nodePkg l a) s →
          ∃ t, Runs (.launchChildTimeout src) s t ∧ t.launch = some { l with
              dead := i :: l.dead, await := l.await ++ [(o, a)], tried := (o, a) :: l.tried
              timers := (o, childDeadline s) :: l.timers.filter (fun e => decide (e.1 ≠ o)) } ∧
            Logged srcCol 0x63 1 s t ∧ SentSlots 7 0xB [nodePkg l a] s t ∧ Untouched s t)) ∧
      (∀ o b a, l.kids.find? (fun i => nodePkg l i = src.toNat && !l.ready.contains i && !l.dead.contains i) = none →
        l.await.find? (fun e => nodePkg l e.1 = src.toNat) = some (o, b) → l.prep = true → l.go = false → timerOver o l s = true →
        (entryAlts (nodeOf l o)).find? (fun a => !l.dead.contains a && !l.tried.contains (o, a)) = some a → a ≠ l.me → Reachable (nodePkg l a) s →
        ∃ t, Runs (.launchChildTimeout src) s t ∧ t.launch = some { l with
            await := l.await.erase (o, b) ++ [(o, a)], tried := (o, a) :: l.tried
            timers := (o, childDeadline s) :: l.timers.filter (fun e => decide (e.1 ≠ o)) } ∧
          Logged srcCol 0x63 1 s t ∧ SentSlots 7 0xB [nodePkg l a] s t ∧ Untouched s t) ∧
      (s.count.toNat + l.margin < l.count.toNat → Runs .launchMargin s s) ∧
      (l.me = 0 → l.go = false →
        (s.count.toNat + l.margin = l.count.toNat → launchReady l = true → (∀ p ∈ live, Reachable p s) →
          ∃ t, Runs .launchMargin s t ∧ LaunchWentOn { l with go := true } 4 0xA live s t) ∧
        (l.count.toNat ≤ s.count.toNat + l.margin →
          (launchReady l = false ∨ l.count.toNat < s.count.toNat + l.margin) → (∀ p ∈ launchPeers l 0x10000, Reachable p s) →
          ∃ t, Runs .launchMargin s t ∧ LaunchGivenUp l 8 me s t)) ∧
      (∀ (m : ColMsg) (cause : BitVec 8) (origin : BitVec 16), launchAbort m cause.toNat s = true → (∀ p ∈ launchPeers l m.src.toNat, Reachable p s) →
        ∃ t, Runs (.abort m cause origin) s t ∧ LaunchEnded origin.toNat (launchPeers l m.src.toNat) s t ∧
          (l.me = 0 → Logged srcCol 0x64 2 s t)))

namespace Sys2Proof.Claims

/-- A correction by `off` and `delay` 1/16 ns has been applied. -/
def Corrected (off delay : Int) (s t : State) : Prop :=
  let good := if off.natAbs ≤ 16 then s.sync.good + 1 else 0
  getF gctBase R.GCT_OFFSET_OFFSET t = wrap 32 off ∧ getF gctBase R.GCT_DELAY_DELAY t = wrap 32 delay ∧ t.sync.good = good ∧
  gctState t = (if 4 ≤ good then 2 else if gctState s = 3 then 3 else 1) ∧
  (if 16000 < off.natAbs ∧ inJob s = false then
    t.count = BitVec.ofInt 64 (((stamp s : Int) + off) / 16) ∧ t.sync.slew = 0 ∧ t.sync.frac = 0 ∧ getF gctBase R.GCT_STATUS_STEPPED t = 1 ∧
    getF gctBase R.GCT_FREQ_FREQ t = 0 ∧ Logged srcGct 0x70 1 s t
   else
    let ppm : Int := 1000 * effF gctBase R.GCT_CFG_SLEW_PPM R.GCT_CFG_LEVEL s
    t.count = s.count ∧ t.sync.frac = s.sync.frac ∧ t.sync.slew = off * 1000000000 ∧
    getF gctBase R.GCT_FREQ_FREQ t = wrap 32 (if 0 < off then ppm else if off < 0 then -ppm else 0)) ∧ Untouched s t

/-- Port `p` can take a message at once. -/
def PortRoom (p : Nat) (s : State) : Prop := (getLink p s).waiting = [] ∧ replayFlits (getLink p s) + 1 ≤ 512

/-- Type, SEQ and time of a synchronisation slot. -/
def slotIs (typ seq time : Nat) (x : Slot) : Prop := bitsAt x.toNat 124 4 = typ ∧ bitsAt x.toNat 96 24 = seq ∧ bitsAt x.toNat 0 64 = time % 2 ^ 64

end Sys2Proof.Claims

/-- The counter's commands. -/
def Obligations.CountersSynchroniseAndDigestsCombine : Prop :=
  ∀ s : State,
    let now := stamp s
    let role := getF gctBase R.GCT_CFG_ROLE s % 3
    let taken : Sync := { s.sync with role := role, cand := decide (getF gctBase R.GCT_CFG_REF_CAND s = 1), pps := decide (getF gctBase R.GCT_CFG_PPS_EN s = 1) }
    let heard := fun p => sGet 7 s.sync.strata p
    (∀ slot : Fin 2, (s.dig.isSome → Runs (.gctDigGo slot) s s) ∧
      (s.dig = none → ∃ t, Runs (.gctDigGo slot) s t ∧ getF gctBase R.GCT_DIG_STATUS_BUSY t = 1 ∧
        OnlyRegs (regAt gctBase [R.GCT_DIG_STATUS_BUSY]) s { t with dig := none } ∧
        ∃ d, t.dig = some d ∧ d.slot = slot ∧ d.records = getF gctBase R.GCT_DIG_SLOT_RECORDS s ∧
          d.base = getPair gctBase R.GCT_DIG_BASE_LO_ADDR R.GCT_DIG_BASE_HI_ADDR s / 128 * 128 + slot.val * (64 + 32 * d.records) ∧
          d.out = getPair gctBase R.GCT_DIG_OUT_LO_ADDR R.GCT_DIG_OUT_HI_ADDR s / 128 * 128)) ∧
    (∀ d, s.dig = some d →
      let r := combine ((List.range d.records).map (fun i => pieceAt d.base i s)) 0 none [] 0
      heldLines [(0xFFFF * 2 ^ 48 + d.base, 64 + 32 * d.records)] s = [] → PlainRange d.out (16 + 32 * r.1.length) s → r.1.length < 2 ^ 32 →
      ∃ t, Runs .digCombinerDone s t ∧ t.dig = none ∧ getF gctBase R.GCT_DIG_STATUS_BUSY t = 0 ∧ getF gctBase R.GCT_DIG_STATUS_DONE t = 1 ∧
        getF gctBase R.GCT_DIG_LAYERS_LAYERS t = r.1.length ∧ OnlyRangeWritten d.out (16 + 32 * r.1.length) s t ∧
        readOff d.out 8 t = readOff d.base 8 s ∧ readOff (d.out + 8) 8 t = r.1.length ∧
        (∀ i l, r.1[i]? = some l → readOff (d.out + 16 + 32 * i) 32 t =
          l.layer % 2 ^ 32 + 2 ^ 32 * (l.pieces % 2 ^ 32) + 2 ^ 64 * (l.bytes % 2 ^ 64) + 2 ^ 128 * (l.digest % 2 ^ 64) + 2 ^ 192 * (l.first % 2 ^ 32)) ∧
        (∀ i, r.2.2 = some i → getF gctBase R.GCT_DIG_STATUS_ORDER_ERR t = 1 ∧ Logged srcGct 0x74 1 s t) ∧
        t.cores = s.cores ∧ t.engines = s.engines) ∧
    (role = 1 ∨ role = 2 → ∃ t, Runs .syncExchangeTimer s t ∧ stratum t = 0 ∧ parentPort t = 0x1F ∧ t.sync = taken ∧
      gctState t = (if role = 2 then 2 else gctState s) ∧ OnlyRegs (regAt gctBase [R.GCT_STATUS_STATE]) s { t with sync := s.sync }) ∧
    (∀ p, role = 0 → p < 18 → p ≠ parentPort s → (parentPort s = 0x1F ∨ portUsable (parentPort s) s = true) → portUsable p s = true → heard p < 3 →
      (∀ j, j < 18 → portUsable j s = true → heard p ≤ heard j) → (∀ j, j < p → portUsable j s = true → heard p < heard j) →
      ∃ t, Runs .syncExchangeTimer s t ∧ parentPort t = p ∧ stratum t = heard p + 1 ∧ Untouched s t ∧ t.count = s.count) ∧
    (let p := parentPort s
     role = 0 → p < 18 → portUsable p s = true → heard p < 3 → (∀ j, j < 18 → portUsable j s = true → heard p ≤ heard j) →
      (∀ j, j < p → portUsable j s = true → heard p < heard j) → PortRoom p s →
      ∃ t m, Runs .syncExchangeTimer s t ∧ t.out = s.out ++ [.link (parentPort s) m] ∧ slotIs 1 (s.sync.seq % 2 ^ 24) now (m.slots.headD 0) ∧ m.hdr.tag = 0 ∧
        t.sync = { taken with sent := some (parentPort s, s.sync.seq, now), seq := (s.sync.seq + 1) % 2 ^ 24 } ∧
        gctState t = (if gctState s = 0 then 1 else gctState s) ∧ Untouched s t ∧ t.count = s.count) ∧
    (∀ (p : Fin 22) (src : BitVec 16) (x : Slot),
      (bitsAt x.toNat 124 4 ≠ 1 → Runs (.syncRequest p src x) s s) ∧ (bitsAt x.toNat 124 4 ≠ 2 → Runs (.syncResponse p x) s s) ∧
      (bitsAt x.toNat 124 4 = 1 → p.val < 18 → PortRoom p s →
        ∃ t m, Runs (.syncRequest p src x) s t ∧ t.out = s.out ++ [.link p m] ∧ slotIs 2 (bitsAt x.toNat 96 24) now (m.slots.headD 0) ∧
          m.hdr.dst = src ∧ bitsAt (m.slots.headD 0).toNat 120 4 = stratum s ∧ sGet 7 t.sync.strata p = min 7 (bitsAt x.toNat 120 4) ∧ Untouched s t) ∧
      (∀ q t1, bitsAt x.toNat 124 4 = 2 → p.val < 18 → s.sync.sent = some (p.val, q, t1) →
        (q ≠ bitsAt x.toNat 96 24 → Runs (.syncResponse p x) s s) ∧
        (q = bitsAt x.toNat 96 24 →
          let t2 : Int := bitsAt x.toNat 0 64
          let t3 : Int := t2 + bitsAt x.toNat 64 32
          let o := ((t2 - t1) - (now - t3)) / 2
          let d := ((t2 - t1) + (now - t3)) / 2
          ∃ t, Runs (.syncResponse p x) s t ∧ t.sync.sent = none ∧ t.sync.n = s.sync.n + 1 ∧
            t.sync.best = (match s.sync.best with
              | some b => if d < b.2 then some (o, d) else some b
              | none => some (o, d)) ∧
            stratum t = (if bitsAt x.toNat 120 4 < 3 then bitsAt x.toNat 120 4 + 1 else stratum s) ∧ OnlyRegs (regAt gctBase [R.GCT_STATUS_STRATUM]) s { t with sync := s.sync })) ∧
      (∀ q t1, bitsAt x.toNat 124 4 = 2 → 18 ≤ p.val → s.sync.rsent = some (q, t1) → q = bitsAt x.toNat 96 24 →
        ∃ t, Runs (.syncResponse p x) s t ∧ t.sync.rsent = none ∧ t.sync.rn = s.sync.rn + 1 ∧ t.sync.rbest.isSome ∧ { t with sync := s.sync } = s)) ∧
    (∀ o d, s.sync.best = some (o, d) → gctRole s = 0 → (s.sync.n < 16 → Runs .syncCorrection s s) ∧
      (16 ≤ s.sync.n → ∃ t, Runs .syncCorrection s t ∧ Corrected o d s t ∧ t.sync.n = 0 ∧ t.sync.best = none)) ∧
    (∀ o d, s.sync.rbest = some (o, d) → gctRole s ≠ 0 → s.sync.pps = false → (s.sync.rn < 64 → Runs .syncCorrection s s) ∧
      (64 ≤ s.sync.rn → ∃ t, Runs .syncCorrection s t ∧ Corrected o d s t ∧ t.sync.rn = 0 ∧
        getF gctBase R.GCT_STATUS_ROUTE_LOCKED t = (if o.natAbs ≤ 400 then 1 else 0))) ∧
    (∀ ref : BitVec 16, (role ≠ 1 → Runs (.routeSyncTimer ref) s { s with sync := taken }) ∧
      (role = 1 → ∃ t, Runs (.routeSyncTimer ref) s t ∧ t.sync.rsent = some (s.sync.rseq, now) ∧ t.sync.rseq = (s.sync.rseq + 1) % 2 ^ 24 ∧ Untouched s t)) ∧
    (ppsOn s = false → (∀ at_, Runs (.ppsEdge at_) s s) ∧ Runs .ppsMissing s s) ∧
    (ppsOn s = true →
      (∃ t, Runs .ppsMissing s t ∧ Bumped gctBase R.GCT_PPS_ERR_MISSING s t ∧ Untouched s t ∧ t.count = s.count) ∧
      ∀ at_ : DWord, let ph := at_.toNat % 1000000000
        let err : Int := if ph < 500000000 then ph else (ph : Int) - 1000000000
        let soon := ∃ l, s.sync.lastPps = some l ∧ at_.toNat < l.toNat + 999000000
        ((1000 < err.natAbs ∨ soon) → ∃ t, Runs (.ppsEdge at_) s t ∧ Bumped gctBase R.GCT_PPS_ERR_MISSING s t ∧
          getF gctBase R.GCT_STATUS_PPS_OK t = 0 ∧ t.count = s.count ∧ t.sync = s.sync ∧ Untouched s t) ∧
        (err.natAbs ≤ 1000 → ¬ soon → ∃ t, Runs (.ppsEdge at_) s t ∧ Corrected (-16 * err) 0 s t ∧ t.sync.lastPps = some at_ ∧
          getF gctBase R.GCT_STATUS_PPS_OK t = 1 ∧ getPair gctBase R.GCT_PPS_LAST_LO_COUNT R.GCT_PPS_LAST_HI_COUNT t = at_.toNat)) ∧
    ((gctRole s ≠ 0 ∨ parentPort s = 0x1F) → Runs .parentSilent s s) ∧
    (gctRole s = 0 → parentPort s ≠ 0x1F →
      ∃ t, Runs .parentSilent s t ∧ Bumped gctBase R.GCT_STATUS_LOSS_COUNT s t ∧ t.count = s.count ∧ Untouched s t ∧
        ((∀ p, p < 18 → p ≠ parentPort s → portUsable p s = false) →
          parentPort t = 0x1F ∧ stratum t = 7 ∧ gctState t = 3 ∧ getF gctBase R.GCT_STATUS_HOLDOVER_SEEN t = 1 ∧ Logged srcGct 0x72 1 s t)) ∧
    (∀ low : Bool, let takes := low = true ∧ s.sync.cand = true ∧ gctState s = 2 ∧ gctRole s = 0
      (¬ takes → Runs (.referenceSilent low) s s) ∧
      (takes → ∃ t, Runs (.referenceSilent low) s t ∧ gctRole t = 1 ∧ stratum t = 0 ∧ parentPort t = 0x1F ∧ t.count = s.count ∧ Logged srcGct 0x71 0 s t ∧
        Untouched s t)) ∧
    (∀ (path : Path) (v : DWord),
      (inJob s = true → ∃ t, Runs (.gctSet path v) s t ∧ Logged 0 0x08 1 s t ∧ OnlyLogged s t) ∧
      (inJob s = false → ∃ t, Runs (.gctSet path v) s t ∧ t.count = v ∧ t.sync.slew = 0 ∧ getF gctBase R.GCT_STATUS_STEPPED t = 1 ∧
        Logged srcGct 0x70 1 s t ∧ Untouched s t))

namespace Sys2Proof.Claims

/-- This package is a leaf, not the root, of its job's control tree; its parent can be reached and the member list was read. -/
def LeafBelow (par : Nat) (s : State) : Prop :=
  let g := voteGroup s
  (sGet ⟨false, []⟩ s.col.groups (getF ckpBase R.CKP_CFG_GROUP s)).read = true ∧ voteKids g.1.length g.2 = [] ∧ g.2 ≠ 0 ∧
  par = g.1.getD ((g.2 - 1) / 32) 0 ∧ Reachable par s

/-- Two local ranges share no byte of memory. -/
def Apart (a n b m : Nat) (s : State) : Prop := ∀ o u, a ≤ o → o < a + n → b ≤ u → u < b + m → target o s ≠ target u s

/-- The package has voted and sent the vote up. -/
def VotedUp (phase : Nat) (v : VoteMsg) (par : Nat) (s t : State) : Prop :=
  t.ckp.mine = some v ∧ t.ckp.phase = phase ∧ t.ckp.sent = true ∧ SentSlots 7 0xC [par] s t

/-- A recovery freeze with its cause: every core has to park and the vote is over. -/
def FreezesFor (cause : Nat) (s t : State) : Prop :=
  t.ckp.halt = some cause ∧ t.freezeF = some s.count ∧ Logged srcCkp 0x81 2 s t ∧ t.ckp.phase = 0 ∧ t.ckp.mine = none ∧ t.ckp.drain = none ∧
  ((∃ c, c < 44 ∧ countsParked c s = false) → t.cores = s.cores) ∧ t.engines = s.engines ∧ MemoriesKept s t

/-- The drain ended without its copies. -/
def DrainDropped (s t : State) : Prop :=
  t.ckp.drain = none ∧ getF ckpBase R.CKP_STATUS_PINNED t = 0 ∧ getF ckpBase R.CKP_STATUS_DRAINING t = 0 ∧ Logged srcCkp 0x83 1 s t ∧
  { t with ckp := { t.ckp with drain := s.ckp.drain }, csr := s.csr, log := s.log, totals := s.totals, stepErr := s.stepErr } = s

end Sys2Proof.Claims

/-- Checkpoints of a step. -/
def Obligations.StepsAreVotedCommittedAndReplayed : Prop :=
  ∀ (path : Path) (s : State),
    let step := ckpStep s
    let quar := decide (getF ckpBase R.CKP_STATUS_QUARANTINED s = 1)
    let myVote := fun (t : Nat) (bad : Bool) => (⟨t, t, s.stepErr || anyChanOos s, bad, s.ckp.drain.isNone, quar, none⟩ : VoteMsg)
    (s.pkg = .running → ∃ t, Runs (.ckpEnable path) s t ∧ Logged srcCkp 0x89 1 s t ∧ OnlyLogged s t) ∧
    (s.pkg ≠ .running →
      (∀ code, (code = 1 ∧ rangesOk s = false) ∨ (code = 2 ∧ rangesOk s = true ∧ regionsClear s = false) ∨
          (code = 3 ∧ rangesOk s = true ∧ regionsClear s = true ∧ regionsPlaced s = false) →
        ∃ t, Runs (.ckpEnable path) s t ∧ getF ckpBase R.CKP_CFG_ENABLE t = 0 ∧ getF ckpBase R.CKP_ERR_CODE t = code ∧ Logged srcCkp 0x89 1 s t ∧
          OnlyRegs (regAt ckpBase [R.CKP_CFG_ENABLE, R.CKP_ERR_CODE]) s t) ∧
      (rangesOk s = true → regionsClear s = true → regionsPlaced s = true →
        ∃ t, Runs (.ckpEnable path) s t ∧ getF ckpBase R.CKP_CFG_ENABLE t = 1 ∧
          OnlyRegs (regAt ckpBase [R.CKP_CFG_ENABLE, R.CKP_ERR_CODE, R.CKP_STATUS_PARTNER_BAD]) s t)) ∧
    (∀ lo : Word, let t0 := lo.toNat + 2 ^ 32 * s.ckp.boundaryHi.toNat
      let bad := decide (t0 ≠ step) || !allEnginesIdle s
      (s.pkg ≠ .running ∨ s.ckp.phase ≠ 0 ∨ s.ckp.checking ≠ none → ∃ t, Runs (.ckpBoundary path lo) s t ∧ Logged 0 0x08 1 s t ∧ OnlyLogged s t) ∧
      (s.pkg = .running → s.ckp.phase = 0 → s.ckp.checking = none →
        (bad = false → coresQuiet s = false →
          ∃ t, Runs (.ckpBoundary path lo) s t ∧ t.ckp.checking = some (BitVec.ofNat 64 t0) ∧ { t with ckp := s.ckp } = s) ∧
        (∀ par, LeafBelow par s → s.ckp.votes = [] → (bad = true ∨ coresQuiet s = true) →
          ∃ t, Runs (.ckpBoundary path lo) s t ∧ VotedUp 1 (myVote t0 bad) par s t ∧ getF ckpBase R.CKP_STATUS_STATE t = 2 ∧ t.stepErr = false ∧
            Untouched s t))) ∧
    (s.ckp.checking = none → Runs .boundaryCheckTimeout s s) ∧
    (∀ (c : DWord) par, s.ckp.checking = some c → LeafBelow par s → s.ckp.votes = [] →
      ∃ t, Runs .boundaryCheckTimeout s t ∧ VotedUp 1 (myVote c.toNat (!coresQuiet s)) par s t ∧ t.ckp.checking = none ∧ t.stepErr = false ∧
        Untouched s t) ∧
    (∀ (src : BitVec 16) (v : VoteMsg) (r : Nat),
      (rankOf (voteGroup s).1 src.toNat = none → Runs (.vote src v) s s) ∧
      (rankOf (voteGroup s).1 src.toNat = some r →
        (s.ckp.mine = none → ∃ t, Runs (.vote src v) s t ∧ (r, v) ∈ t.ckp.votes ∧ (∀ w, (r, w) ∈ t.ckp.votes → w = v) ∧
          (∀ x, x.1 ≠ r → (x ∈ t.ckp.votes ↔ x ∈ s.ckp.votes)) ∧ { t with ckp := { t.ckp with votes := s.ckp.votes } } = s) ∧
        (∀ m par, s.ckp.mine = some m → s.ckp.sent = false → s.ckp.votes = [] → voteKids (voteGroup s).1.length (voteGroup s).2 = [r] →
          (voteGroup s).2 ≠ 0 → par = (voteGroup s).1.getD (((voteGroup s).2 - 1) / 32) 0 → Reachable par s →
          ∃ t, Runs (.vote src v) s t ∧ t.ckp.sent = true ∧ t.ckp.mine = some m ∧ SentSlots 7 0xC [par] s t ∧ Untouched s t))) ∧
    (∀ (d : DWord) (drain : Bool) par, s.ckp.mine.isSome = true → s.ckp.sent = true → LeafBelow par s → s.ckp.phase = 1 →
      (∃ t, Runs (.decideCommit d drain) s t ∧ ckpStep t = (step + 1) % 2 ^ 64 ∧ t.ckp.replays = 0 ∧ t.ckp.mine = none ∧ t.ckp.phase = 0 ∧
        t.cores = s.cores ∧ t.engines = s.engines ∧
        (getF ckpBase R.CKP_CFG_ENABLE s = 0 → getF ckpBase R.CKP_STATUS_STATE t = 1 ∧
          (let n := getPair ckpBase R.CKP_NOTIFY_LO_ADDR R.CKP_NOTIFY_HI_ADDR s / 8 * 8
           PlainRange n 8 s → readOff n 8 t = (step + 1) % 2 ^ 64 ∧ OnlyRangeWritten n 8 s t)) ∧
        (getF ckpBase R.CKP_CFG_ENABLE s = 1 → getF ckpBase R.CKP_STATUS_STATE t = 3 ∧ t.ckp.copy = some (firnPick s) ∧ t.ckp.wantDrain = drain)) ∧
      (getF ckpBase R.CKP_CFG_ENABLE s = 1 → ∃ t, Runs (.decideReplay d) s t ∧ t.ckp.phase = 6 ∧ t.ckp.mine = none ∧ ckpStep t = step ∧
        getF ckpBase R.CKP_STATUS_STATE t = 4 ∧ (∀ c, c < 44 → (getCore c t).st = .idle ∧ (getCore c t).out = []) ∧ t.engines = [] ∧ t.col.runs = [] ∧
        MemoriesKept s t) ∧
      (s.pkg = .running → s.ckp.halt = none → ∀ code, ∃ t, Runs (.decideFail d code) s t ∧ FreezesFor 1 s t)) ∧
    (∀ (d c : DWord) par, s.ckp.mine.isSome = true → s.ckp.sent = true → LeafBelow par s → s.ckp.phase = 2 →
      ∃ t, Runs (.decideGo d c) s t ∧ t.ckp.go = some c ∧ t.ckp.phase = 0 ∧ { t with ckp := s.ckp } = s) ∧
    (∀ c, s.ckp.go = some c → (s.count < c → Runs .replayRestart s s) ∧
      (c ≤ s.count → ∃ t, Runs .replayRestart s t ∧ t.ckp.go = none ∧ getF ckpBase R.CKP_STATUS_STATE t = 1 ∧
        (∀ n, n < 8 → (getCore (36 + n) t).st = .running ∧ getG (getCore (36 + n) t) 1 = BitVec.ofNat 64 step ∧
          (getCore (36 + n) t).pc = BitVec.ofNat 48 (getPair ckpBase R.CKP_ENTRY_LO_ADDR R.CKP_ENTRY_HI_ADDR s)) ∧
        (∀ n, n < 36 → getCore n t = getCore n s) ∧ MemoriesKept s t)) ∧
    (s.ckp.phase ≠ 6 → ∀ ok, Runs (.replayRestoreDone ok) s s) ∧
    (∀ ok par k rg, s.ckp.phase = 6 → LeafBelow par s → s.ckp.votes = [] → slotOfCut (2 * step) s = some k → ranges s = [rg] →
      hKind (slotHead k s) ≠ 1 → PlainRange rg.1 rg.2 s →
      let bs := natBytes (readExt (slotBase k s + 0x10000) rg.2 s) rg.2
      ∃ t v, Runs (.replayRestoreDone ok) s t ∧ VotedUp 2 v par s t ∧ v.stepMin = step ∧ v.stepMax = step ∧
        v.err = !(ok && decide (crc64Go 0 bs = hDigest (slotHead k s)) && !poisonOff (slotBase k s + 0x10000) rg.2 s) ∧
        readOff rg.1 rg.2 t = bytesNat bs ∧ OnlyRangeWritten rg.1 rg.2 s t ∧ t.ckp.replays = s.ckp.replays + 1 ∧
        Bumped ckpBase R.CKP_STATUS_REPLAY_COUNT s t ∧ getF ckpBase R.CKP_STATUS_REPLAYED t = 1 ∧ Logged srcCkp 0x80 1 s t) ∧
    (∀ ok ns, s.ckp.copy = none → Runs (.firnCopyDone ok ns) s s) ∧
    (∀ ns k, s.ckp.copy = some k →
      (∀ ok, (ok = false ∨ dataPoison s = true) → s.pkg = .running → s.ckp.halt = none →
        ∃ t, Runs (.firnCopyDone ok ns) s t ∧ t.ckp.copy = none ∧ getF ckpBase R.CKP_STATUS_COPY_BAD t = 1 ∧ Logged srcCkp 0x82 2 s t ∧
          t.ckp.halt = some 7 ∧ ckpStep t = step) ∧
      (∀ rg, dataPoison s = false → s.ckp.wantDrain = false → getF ckpBase R.CKP_STATUS_STATE s = 3 → k < 2 → ranges s = [rg] → rg.2 % 8 = 0 → step < 2 ^ 63 →
        let base := slotBase k s
        let n := getPair ckpBase R.CKP_NOTIFY_LO_ADDR R.CKP_NOTIFY_HI_ADDR s / 8 * 8
        base % 128 = 0 → PlainRange base (0x10000 + rg.2) s → PlainRange n 8 s →
        Apart base (0x10000 + rg.2) n 8 s → Apart base (0x10000 + rg.2) (rangesAt s) 16 s → Apart n 8 (rangesAt s) 16 s →
        ∃ t, Runs (.firnCopyDone true ns) s t ∧ committed (slotHead k t) = true ∧ hCut (slotHead k t) = 2 * step ∧
          readOff (base + 0x10000) rg.2 t = readOff rg.1 rg.2 s ∧ hDigest (slotHead k t) = crc64Go 0 (natBytes (readOff rg.1 rg.2 s) rg.2) ∧
          readOff n 8 t = step ∧ t.ckp.copy = none ∧ getF ckpBase R.CKP_STATUS_STATE t = 1 ∧ getF ckpBase R.CKP_COPY_NS_VALUE t = ns.toNat ∧
          t.cores = s.cores)) ∧
    (∀ ok, s.ckp.drain = none → Runs (.mirrorCopyDone ok) s s ∧ Runs (.durableCopyDone ok) s s) ∧
    (∀ d, s.ckp.drain = some d →
      (d.mirror = true → (∃ t, Runs (.mirrorCopyDone false) s t ∧ DrainDropped s t) ∧
        ((d.sent < drainLines s ∨ ckpBusy false s = true) → Runs (.mirrorCopyDone true) s s) ∧
        (drainLines s ≤ d.sent → ckpBusy false s = false → ∃ t, Runs (.mirrorCopyDone true) s t ∧ t.ckp.lastMirror = some d.mirrorSlot ∧
          (d.durable = true → t.ckp.drain = some { d with mirror := false }) ∧
          (d.durable = false → t.ckp.drain = none ∧ getF ckpBase R.CKP_STATUS_PINNED t = 0 ∧ getF ckpBase R.CKP_STATUS_DRAINING t = 0 ∧
            Bumped ckpBase R.CKP_STATUS_DRAIN_COUNT s t) ∧ Untouched s t)) ∧
      (d.durable = true → (∃ t, Runs (.durableCopyDone false) s t ∧ DrainDropped s t) ∧
        ∃ t, Runs (.durableCopyDone true) s t ∧ t.ckp.lastDurable = some d.durableSlot ∧
          (d.mirror = true → t.ckp.drain = some { d with durable := false }) ∧
          (d.mirror = false → t.ckp.drain = none ∧ getF ckpBase R.CKP_STATUS_PINNED t = 0 ∧ Bumped ckpBase R.CKP_STATUS_DRAIN_COUNT s t) ∧
          t.cores = s.cores ∧ t.engines = s.engines))

namespace Sys2Proof.Claims

/-- A mismatch was scored here: as auditor, or as the one audited. -/
def Suspected (auditee : Bool) (s t : State) : Prop :=
  let c := auditConds s
  let sc := satAdd 16 (getF ckpBase R.CKP_SUSPICION_SCORE s) (if s.ckp.conds = some c then 2 else 1)
  let bar := max 1 (effF ckpBase R.CKP_AUDIT_CFG_THRESH R.CKP_CFG_LEVEL s)
  getF ckpBase R.CKP_SUSPICION_SCORE t = sc ∧ Bumped ckpBase R.CKP_SUSPICION_MISMATCHES s t ∧ t.ckp.conds = some c ∧
  getF ckpBase R.CKP_AUDIT_LAST_ROLE t = b2n auditee ∧ getF ckpBase R.CKP_AUDIT_LAST_LOAD t = getF ckpBase R.CKP_LOAD_TAG_TAG s ∧
  Logged srcCkp 0x87 1 s t ∧
  (if bar ≤ sc then getF ckpBase R.CKP_STATUS_QUARANTINED t = 1 ∧
      (getF ckpBase R.CKP_STATUS_QUARANTINED s = 0 → Logged srcCkp 0x88 3 s t ∧
        (s.sec.cairn.length < cairnCap → ∃ x, t.sec.cairn = s.sec.cairn ++ [x] ∧ x.kind = 7 ∧ x.prev = cairnHead s))
    else getF ckpBase R.CKP_STATUS_QUARANTINED t = getF ckpBase R.CKP_STATUS_QUARANTINED s ∧ t.sec = s.sec) ∧
  t.cores = s.cores ∧ MemoriesKept s t ∧ t.pkg = s.pkg

end Sys2Proof.Claims

/-- Freezing, restoring, auditing. -/
def Obligations.FreezesRestoresAndAudits : Prop :=
  ∀ s : State,
    let step := ckpStep s
    let quar := decide (getF ckpBase R.CKP_STATUS_QUARANTINED s = 1)
    let myVote := fun (err bad : Bool) => (⟨step, step, err, bad, s.ckp.drain.isNone, quar, none⟩ : VoteMsg)
    (s.ckp.freeze = none → s.pkg ≠ .running → Runs .freezePhase1Ready s s) ∧
    (s.ckp.freeze = none → s.pkg = .running → freezeDue s = true → (∀ c, c < 44 → countsParked c s = true) →
      ∃ t, Runs .freezePhase1Ready s t ∧ t.pkg = .frozen ∧ Logged 0 0x05 0 s t ∧
        (∀ c, { getCore c t with wait := none, heldWait := none } = { getCore c s with wait := none, heldWait := none }) ∧
        (∀ c r, (getCore c s).heldWait = some r → (getCore c t).heldWait = some { r with since := s.count - r.since }) ∧ t.engines = s.engines ∧ MemoriesKept s t) ∧
    (∀ save, s.ckp.freeze = some (save, 0) → s.pkg = .frozen →
      (s.ckp.halt ≠ none → ∃ t, Runs .freezePhase1Ready s t ∧ t.ckp.freeze = some (save, 3) ∧
        (save = true → getF ckpBase R.CKP_STATUS_SAVE_SKIPPED t = 1) ∧ Untouched s t) ∧
      (∀ par, s.ckp.halt = none → colSettled s = true → (∀ fd : Fin 2, ∀ x ∈ (getFab fd s).txns, x.isRead = true) →
        LeafBelow par s → s.ckp.votes = [] →
        ∃ t, Runs .freezePhase1Ready s t ∧ t.ckp.freeze = some (save, 1) ∧ VotedUp 3 (myVote s.stepErr false) par s t ∧ Untouched s t)) ∧
    (∀ err, (s.ckp.phase ≠ 3 → Runs (.freezeDecide err) s s) ∧
      (∀ save par, s.ckp.phase = 3 → s.ckp.mine.isSome = true → s.ckp.sent = true → LeafBelow par s → s.ckp.freeze = some (save, 1) →
        let skip := save && (err || decide (getF ckpBase R.CKP_CFG_ENABLE s = 0))
        ∃ t, Runs (.freezeDecide err) s t ∧ t.ckp.freeze = some (save, if skip then 3 else 2) ∧ t.ckp.mine = none ∧ t.ckp.phase = 0 ∧
          (skip = true → getF ckpBase R.CKP_STATUS_SAVE_SKIPPED t = 1) ∧
          (∀ i, i < 4 → getF (depBase i) R.DEP_STATUS_FLUSHING t = 1) ∧
          (∀ q, q < compKey 0 → lineNat q t = lineNat q s ∧ linePoison q t = linePoison q s) ∧ (∀ q x, sFind t.depot q = some x → x.dirty = false) ∧
          t.cores = s.cores ∧ t.engines = s.engines ∧ t.tileSram = s.tileSram)) ∧
    (s.ckp.freeze = none → Runs .freezeSaveDone s s) ∧
    (∀ save n, s.ckp.freeze = some (save, n) → (n < 2 ∨ (∃ i, i < 4 ∧ getF (depBase i) R.DEP_STATUS_FLUSHING s = 1) → Runs .freezeSaveDone s s) ∧
      (2 ≤ n → (∀ i, i < 4 → getF (depBase i) R.DEP_STATUS_FLUSHING s = 0) → ∃ t, Runs .freezeSaveDone s t ∧ t.ckp.freeze = none ∧
        getF ckpBase R.CKP_STATUS_STATE t = (if s.ckp.copy.isSome then 3 else if s.ckp.halt.isSome then 7 else if s.pkg = .running ∨ s.pkg = .frozen then 1 else 0) ∧
        (cmdBusy s = true → cmdOp s = 0x0A → getF cmdBase R.CMD_STATUS_CODE t = 0 ∧ getF cmdBase R.CMD_STATUS_DONE t = 1 ∧ cmdBusy t = false) ∧
        t.cores = s.cores ∧ t.engines = s.engines ∧ t.pkg = s.pkg ∧
        ((save = false ∨ n = 3) → Untouched s t) ∧
        (save = true → n = 2 → getF ckpBase R.CKP_STATUS_PINNED s = 0 →
          let k := if inputSlot s = some 0 then 1 else 0
          (dataPoison s = true → getF ckpBase R.CKP_STATUS_COPY_BAD t = 1 ∧ Logged srcCkp 0x82 2 s t) ∧
          (dataPoison s = false → ∃ img, sFind t.ckp.saved k = some img ∧ img.cut = 2 * step + 1 ∧ img.cores = s.cores ∧ img.engines = s.engines ∧
            img.tileSram = s.tileSram ∧ img.vregs = s.vregs ∧ img.masks = s.masks ∧ img.col = s.col ∧ img.dsps = s.dsps ∧ img.slvs = s.slvs)))) ∧
    (∀ ok, (s.ckp.restore = none ∨ s.ckp.phase ≠ 8 ∨ s.ckp.reads ≠ [] ∨ ckpBusy true s = true) → Runs (.restoreCopyDone ok) s s) ∧
    (∀ r rest cut k rg par, s.ckp.restore = some r → s.ckp.phase = 8 → s.ckp.reads = [] → ckpBusy true s = false → farDead s = false →
      r.left = 0 :: rest → r.cut = some cut → [0, 1].find? (fun k => decide (cutAt true (ckpRank s) k s = some cut)) = some k →
      ranges s = [rg] → PlainRange rg.1 rg.2 s → LeafBelow par s → s.ckp.votes = [] → s.ckp.sent = false →
      let bs := natBytes (readExt (slotBase k s + 0x10000) rg.2 s) rg.2
      (hKind (slotHead k s) ≠ 1 → crc64Go 0 bs = hDigest (slotHead k s) → poisonOff (slotBase k s + 0x10000) rg.2 s = false →
        ∃ t, Runs (.restoreCopyDone true) s t ∧ VotedUp 5 (myVote false false) par s t ∧ readOff rg.1 rg.2 t = bytesNat bs ∧
          OnlyRangeWritten rg.1 rg.2 s t ∧ t.cores = s.cores) ∧
      (rest = [] → ∃ t, Runs (.restoreCopyDone false) s t ∧ VotedUp 5 (myVote true false) par s t ∧ Logged srcCkp 0x82 2 s t ∧
        (∃ r', t.ckp.restore = some r' ∧ r' = { r with left := [] }) ∧ t.cores = s.cores) ∧
      (rest = [2] → s.ckp.mine = none →
        ∃ t, Runs (.restoreCopyDone false) s t ∧ t.ckp.phase = 8 ∧ t.ckp.mine = none ∧ t.ckp.restore = some { r with left := [2] } ∧ t.cores = s.cores)) ∧
    (∀ n : BitVec 16, ((getF ckpBase R.CKP_CFG_AUDIT_EN s = 0 ∨ s.ckp.auditN.isSome = true ∨ auditOwner s = none) → Runs (.ckpAuditGo n) s s) ∧
      (∀ p, getF ckpBase R.CKP_CFG_AUDIT_EN s = 1 → s.ckp.auditN = none → auditOwner s = some p →
        ∃ t, Runs (.ckpAuditGo n) s t ∧ t.ckp.auditN = some n.toNat ∧ t.cores = s.cores ∧ MemoriesKept s t ∧ (∀ j, j ≠ kCkp → getEng j t = getEng j s))) ∧
    ((s.ckp.auditN = none ∨ auditOwner s = none ∨ s.ckp.reads ≠ [] ∨ ckpBusy true s = true) → Runs .auditDone s s) ∧
    (∀ p rec, s.ckp.auditN = some 1 → auditOwner s = some p → s.ckp.reads = [] → ckpBusy true s = false → ownerRecord p 0 s = some rec →
      let own := readOff (auditEntry 0 s).1 24 s
      (bitsAt rec 0 192 = own → ∃ t, Runs .auditDone s t ∧ t.ckp.auditN = none ∧
        (let every := 32 * max 1 (effF ckpBase R.CKP_AUDIT_CFG_DECAY R.CKP_CFG_LEVEL s)
         if every ≤ s.ckp.clean + 1 then t.ckp.clean = 0 ∧ getF ckpBase R.CKP_SUSPICION_SCORE t = getF ckpBase R.CKP_SUSPICION_SCORE s - 1
         else t.ckp.clean = s.ckp.clean + 1 ∧ t.csr = s.csr) ∧ t.cores = s.cores ∧ MemoriesKept s t ∧ t.out = s.out) ∧
      (bitsAt rec 0 192 ≠ own → ∃ t, Runs .auditDone s t ∧ t.ckp.auditN = none ∧ Suspected false s t ∧
        t.out = s.out ++ [.control "AUDIT_MISMATCH" p [bitsAt own 0 32, bitsAt own 32 32]])) ∧
    (∀ (auditor : BitVec 16) (layer piece : Word), ∃ t, Runs (.auditMismatch auditor layer piece) s t ∧ Suspected true s t ∧ t.out = s.out) ∧
    (∀ path, (opsBit 2 s = true → ∃ t, Runs (.suspicionClear path) s t ∧ getF ckpBase R.CKP_STATUS_QUARANTINED t = 0 ∧
        (s.sec.cairn.length < cairnCap → ∃ x, t.sec.cairn = s.sec.cairn ++ [x] ∧ x.kind = 7) ∧ Untouched s t) ∧
      (opsBit 2 s = false → ∃ t, Runs (.suspicionClear path) s t ∧ Logged 0 0x08 1 s t ∧ OnlyLogged s t))

namespace Sys2Proof.Claims

/-- Only the power controller, its registers and the Logbook changed. -/
def OnlyPower (s t : State) : Prop :=
  { t with pwr := s.pwr, csr := s.csr, log := s.log, totals := s.totals, stepErr := s.stepErr } = s

/-- A tick in which the demand of reason `r` rises by one, or counts a quiet tick, or ends the quiet run. -/
def LoopTick (r : Nat) (up quiet : Prop) (s t : State) : Prop :=
  (up → demand r t = min 15 (demand r s + 1) ∧ sGet 0 t.pwr.quiet r = 0) ∧
  (¬ up → demand r t = demand r s ∧ (quiet → sGet 0 t.pwr.quiet r = sGet 0 s.pwr.quiet r + 1) ∧ (¬ quiet → sGet 0 t.pwr.quiet r = 0))

/-- The rails were taken away with this cause. -/
def RailsLost (cause : Nat) (s t : State) : Prop :=
  t.pkg = .faulted ∧ t.cause = cause ∧ t.rails = false ∧ t.cores = [] ∧ t.engines = [] ∧ t.depot = [] ∧ t.tileSram = [] ∧ t.vregs = [] ∧
  t.hbm = [] ∧ t.hbmBg = t.fresh ∧ s.fresh < t.fresh ∧ t.pwr.boost = false ∧ Logged 0 0x05 0 s t ∧
  (cmdBusy s = true → getF cmdBase R.CMD_STATUS_CODE t = 5 ∧ cmdBusy t = false ∧ Logged 0 0x04 1 s t)

end Sys2Proof.Claims

/-- Power and temperature. -/
def Obligations.PowerDemandsLoopsAndTrips : Prop :=
  ∀ s : State,
    (∀ (path : Path) (v : Word),
      (pwrReach path s = false → Runs (.pwrPref path v) s s ∧ Runs (.pwrHostOp path v) s s ∧ Runs (.pwrCap path v) s s) ∧
      (pwrReach path s = true →
        (∃ t, Runs (.pwrPref path v) s t ∧ getF pwrBase R.PWR_PREF_OP t = v.toNat % 16 ∧ OnlyPower s t) ∧
        (∃ t, Runs (.pwrHostOp path v) s t ∧ demand 5 t = v.toNat % 16 ∧ OnlyPower s t) ∧
        (∃ t, Runs (.pwrCap path v) s t ∧ getF pwrBase R.PWR_CAP_CAP_W t = max 1500 (min 4600 (v.toNat % 2 ^ 13)) ∧
          OnlyRegs (regAt pwrBase [R.PWR_CAP_CAP_W]) s t))) ∧
    ((opLive s = false ∨ effOp s = opNow s ∨ (effOp s < opNow s ∧ getF pwrBase R.PWR_STATUS_TRANSITION s = 1)) → Runs .opChange s s) ∧
    (opLive s = true → (opNow s < effOp s ∨ (effOp s < opNow s ∧ getF pwrBase R.PWR_STATUS_TRANSITION s = 0)) →
      ∃ t, Runs .opChange s t ∧ opNow t = effOp s ∧ getF pwrBase R.PWR_STATUS_TRANSITION t = 1 ∧ Bumped pwrBase R.PWR_STATUS_STEP_COUNT s t ∧
        t.pwr.clk = max s.pwr.clk (effOp s) ∧ OnlyPower s t) ∧
    (s.pwr.clk ≤ opNow s → Runs .opFreqSwitch s s) ∧
    (opNow s < s.pwr.clk → ∃ t, Runs .opFreqSwitch s t ∧ t.pwr.clk = opNow s ∧ getF pwrBase R.PWR_STATUS_TRANSITION t = 0 ∧ opNow t = opNow s ∧ OnlyPower s t) ∧
    (s.pwr.clk ≠ opNow s → Runs .opVoltageSettled s s) ∧
    (s.pwr.clk = opNow s → ∃ t, Runs .opVoltageSettled s t ∧ getF pwrBase R.PWR_STATUS_TRANSITION t = 0 ∧ opNow t = opNow s ∧
      OnlyRegs (regAt pwrBase [R.PWR_STATUS_OP]) s t) ∧
    (s.pkg = .off → (∀ a b l, Runs (.capTick a b l) s s) ∧ (∀ p, Runs (.currentSample p) s s) ∧ (∀ rs ts i o, Runs (.sensorSample rs ts i o) s s) ∧
      ∀ r, Runs (.powerStageWarn r) s s ∧ Runs (.powerStageFail r) s s) ∧
    (s.pkg ≠ .off → ∀ avg avg10 l, ∃ t, Runs (.capTick avg avg10 l) s t ∧ OnlyPower s t ∧
      getF pwrBase R.PWR_POWER_AVG_W t = avg % 65536 ∧ getF pwrBase R.PWR_POWER_10MS_AVG10_W t = avg10 % 65536 ∧
      (let cap := getF pwrBase R.PWR_CAP_CAP_W s
       LoopTick 1 (cap < avg) (avg * 100 < 95 * cap) s t ∧ t.pwr.capOver = (if demand 1 s = 15 ∧ cap < avg then s.pwr.capOver + 1 else 0)) ∧
      LoopTick 4 False (s.pwr.breach = false ∧ avg < 4370) s t ∧ LoopTick 3 (∃ x ∈ l, 500 < x) (∀ x ∈ l, x < 100) s t ∧
      LoopTick 2 ((∃ e ∈ s.pwr.hotC, tThrottle s ≤ e.2) ∨ ∃ x ∈ s.pwr.stackC, 95 ≤ x)
        ((∀ e ∈ s.pwr.hotC, e.2 + 5 ≤ tThrottle s) ∧ ∀ x ∈ s.pwr.stackC, x ≤ 90) s t) ∧
    (∀ r : Fin 7, let due := 1 ≤ r.val ∧ r.val ≤ 4 ∧ upTicks s ≤ sGet 0 s.pwr.quiet r ∧ 0 < demand r s
      (¬ due → Runs (.demandRecovery r) s s) ∧
      (due → ∃ t, Runs (.demandRecovery r) s t ∧ demand r t = min 15 (demand r s - 1) ∧ sGet 0 t.pwr.quiet r = 0 ∧
        (∀ q, q ≠ r.val → demand q t = demand q s) ∧ OnlyPower s t)) ∧
    (s.pwr.capOver < 10 → Runs .capUnmet s s) ∧
    (10 ≤ s.pwr.capOver → ∃ t, Runs .capUnmet s t ∧ getF pwrBase R.PWR_STATUS_CAP_UNMET t = 1 ∧ t.pwr.capOver = 0 ∧ Logged srcPwr 0x91 1 s t ∧ OnlyPower s t) ∧
    (∀ p : PowerSample, s.pkg ≠ .off → ∃ t, Runs (.currentSample p) s t ∧ OnlyPower s t ∧ getF pwrBase R.PWR_POWER_INST_W t = p.watts % 65536 ∧
      t.pwr.energyUj = (s.pwr.energyUj + 10 * p.watts) % 1000 ∧
      getPair pwrBase R.PWR_ENERGY_LO_MJ R.PWR_ENERGY_HI_MJ t =
        (getPair pwrBase R.PWR_ENERGY_LO_MJ R.PWR_ENERGY_HI_MJ s + (s.pwr.energyUj + 10 * p.watts) / 1000) % 2 ^ 64 ∧
      (let rail := ∃ e ∈ p.rails.zip s.sec.rating.limits, e.2 < e.1
       (5400 < p.watts → rail → demand 4 t = min 15 (demand 4 s + 3)) ∧ (5400 < p.watts → ¬ rail → demand 4 t = min 15 (demand 4 s + 2)) ∧
       (p.watts ≤ 5400 → rail → demand 4 t = min 15 (demand 4 s + 1)) ∧ (p.watts ≤ 5400 → ¬ rail → demand 4 t = demand 4 s) ∧
       (t.pwr.breach = true ↔ s.pwr.breach = true ∨ 5400 < p.watts ∨ rail))) ∧
    (let due := 80 ≤ (s.pwr.overs.filter (fun x => decide (s.count.toNat ≤ x.toNat + 10000000))).length ∧
        ∀ x, s.pwr.overAt = some x → x.toNat + 100000 ≤ s.count.toNat
     (¬ due → Runs .currentOverTotal s s) ∧
     (due → ∃ t, Runs .currentOverTotal s t ∧ demand 4 t = min 15 (demand 4 s + 1) ∧ t.pwr.overAt = some s.count ∧ t.pwr.overs = [] ∧ t.pwr.breach = true ∧
        OnlyPower s t)) ∧
    (∀ d : Fin 7, ((4 < d.val ∨ s.rails = false) → Runs (.droopTrip d) s s) ∧
      (d.val ≤ 4 → s.rails = true → ∃ t, Runs (.droopTrip d) s t ∧ sGet 0 t.pwr.trips d = satAdd 32 (sGet 0 s.pwr.trips d) 1 ∧ d.val ∈ t.pwr.slow ∧
        getF pwrBase R.PWR_STATUS_DIE_STRETCHED t = 1 ∧ OnlyPower s t) ∧
      ∃ t, Runs (.droopStretchEnd d) s t ∧ (∀ x, x ∈ t.pwr.slow ↔ x ∈ s.pwr.slow ∧ x ≠ d.val) ∧
        (getF pwrBase R.PWR_STATUS_DIE_STRETCHED t = 0 ↔ t.pwr.slow = []) ∧ OnlyPower s t) ∧
    (let near := ∃ r ∈ s.ramps, r.toNat ≤ s.count.toNat + 20000 ∧ s.count.toNat < r.toNat + 20000
     let go := effF pwrBase R.PWR_CFG_RAMP_EN R.PWR_CFG_LEVEL s = 1 ∧ s.rails = true ∧ near
     (¬ go → Runs .rampBoostStart s s) ∧ (go → ∃ t, Runs .rampBoostStart s t ∧ t.pwr = { s.pwr with boost := true } ∧ { t with pwr := s.pwr } = s) ∧
     ∃ t, Runs .rampBoostEnd s t ∧ (∀ r, r ∈ t.ramps ↔ r ∈ s.ramps ∧ s.count.toNat < r.toNat + 20000) ∧
       (t.pwr.boost = true ↔ s.pwr.boost = true ∧ near) ∧ { t with pwr := s.pwr, ramps := s.ramps } = s) ∧
    (∀ (r : SensorReading) (ts : List Nat) (i o : Int), s.pkg ≠ .off →
      let k := r.die.val * 32 + r.sensor.val
      let x := getSensor k s
      let bad := r.tempC < -20 ∨ 150 < r.tempC ∨ ∃ u, x.last = some u ∧ 20 < (r.tempC - u).natAbs
      let badIn := i < 0 ∨ 90 < i ∨ ∃ u, s.pwr.inlet.last = some u ∧ 10 < (i - u).natAbs
      ∃ t, Runs (.sensorSample [r] ts i o) s t ∧
        (r.sensor.val < sensorsOf r.die → x.failed = false → diePowered r.die s = true →
          (bad → getSensor k t = ⟨x.last, true⟩ ∧ Logged (0xD000 + r.die.val) 0x96 1 s t) ∧ (¬ bad → getSensor k t = ⟨some r.tempC, false⟩)) ∧
        ((∃ e ∈ t.pwr.hotC, 105 ≤ e.2) → demand 2 t = 15) ∧
        (badIn → t.pwr.inlet = ⟨s.pwr.inlet.last, true⟩) ∧
        (¬ badIn → t.pwr.inlet = ⟨some i, false⟩ ∧ getF pwrBase R.PWR_COOLANT_INLET_C t = i.toNat) ∧
        (∀ (st : Fin 12) x, s.rails = true → ts[st.val]? = some x → getF (stackBase st) R.MEM_TEMP_TEMP_C t = x % 256) ∧
        t.cores = s.cores ∧ t.engines = s.engines ∧ MemoriesKept s t ∧ t.pkg = s.pkg) ∧
    (∀ (die : Fin 19) (tempC : Nat), let tripped := (die.val < 7 ∧ 115 ≤ tempC ∧ diePowered die s = true) ∨ (7 ≤ die.val ∧ 110 ≤ tempC ∧ s.rails = true)
      (¬ (canTrip s = true ∧ tripped) → Runs (.thermalTrip die tempC) s s) ∧
      (canTrip s = true → tripped → s.col.runs = [] → ∃ t, Runs (.thermalTrip die tempC) s t ∧ RailsLost 2 s t ∧
        Logged (if die.val < 7 then 0xD000 + die.val else srcPwr) 0x95 3 s t)) ∧
    (∀ rail, (canTrip s = false → Runs (.powerStageFail rail) s s) ∧
      (canTrip s = true → s.col.runs = [] → ∃ t, Runs (.powerStageFail rail) s t ∧ RailsLost 3 s t ∧ Logged srcPwr 0x99 3 s t) ∧
      (s.pkg ≠ .off → ∃ t, Runs (.powerStageWarn rail) s t ∧ demand 6 t = 15 ∧ t.pwr.faultAt = some s.count ∧ OnlyPower s t ∧
        (s.pwr.bindAt = [] → Logged srcPwr 0x98 1 s t))) ∧
    (let due := (∃ x, s.pwr.faultAt = some x ∧ x.toNat + 100000000 ≤ s.count.toNat) ∧ ∀ d, d < 7 → diePowered d s = true → sensorShort d s = false
     (¬ due → Runs .faultDemandClear s s) ∧
     (due → ∃ t, Runs .faultDemandClear s t ∧ demand 6 t = 0 ∧ t.pwr.faultAt = none ∧ OnlyPower s t)) ∧
    (s.pwr.accAt = [] → (s.pwr.acc.map (fun e => e.1)).Nodup → ∃ t, Runs .powerHandover s t ∧ t.pwr.acc = [] ∧
      (∀ k, sGet 0 t.sec.saved k = sGet 0 s.sec.saved k + sGet 0 s.pwr.acc k) ∧ { t with sec := s.sec, pwr := s.pwr } = s)

namespace Sys2Proof.Claims

/-- Command `i` numbers event `e`: the first of the hold, or one that arrived more than 4 us after its TIME, which is late. -/
def Numbers (i : Instr) (e : Event) (late : Bool) (s : State) : Prop :=
  (i = .eventStore ∧ late = false ∧ s.log.hold.head? = some e) ∨
  (late = true ∧ e.time.toNat + 4000 < s.count.toNat ∧
    ∃ src : BitVec 16, i = .eventAccept src ∧ (sGet [] s.log.queues src.toNat).head? = some e)

/-- The newest record of the event's code and source takes no merge of it. -/
def StaysNew (e : Event) (s : State) : Prop :=
  ∀ a r b, s.log.recs = a ++ r :: b → r.code = e.code → r.src = e.src → (∀ x ∈ b, ¬ (x.code = e.code ∧ x.src = e.src)) → mergesWith e r = false

/-- The record an event becomes. -/
def newRecord (e : Event) (late : Bool) (s : State) : Rec :=
  ⟨s.log.head, e.code, e.sev, decide (e.src ∈ s.log.lost), late, 0, e.src, e.time, 0, e.arg1, 0, e.arg0, e.time⟩

/-- Its record was stored: the number counts on, the mark of its source is gone (0xE000, the security block, may be marked anew by the Cairn entry
of a record of severity 3), other marks stay. -/
def RecordStored (e : Event) (s t : State) : Prop :=
  t.log.head = s.log.head + 1 ∧ (e.src ≠ 0xE000 → e.src ∉ t.log.lost) ∧ (∀ x ∈ s.log.lost, x ≠ e.src → x ∈ t.log.lost) ∧ t.cores = s.cores ∧
  t.engines = s.engines ∧ t.pkg = s.pkg

/-- An event of source `src` and severity `sev` was dropped. -/
def Dropped (src sev : Nat) (s t : State) : Prop :=
  t.log.recs = s.log.recs ∧ t.log.head = s.log.head ∧ src ∈ t.log.lost ∧ (∀ x ∈ s.log.lost, x ∈ t.log.lost) ∧
  (sev = 0 → Bumped evrBase R.EVR_LOST_SEV0 s t) ∧ (sev = 1 → Bumped evrBase R.EVR_LOST_SEV1 s t) ∧
  (sev = 2 → Bumped evrBase R.EVR_LOST_SEV2 s t) ∧ (sev = 3 → Bumped evrBase R.EVR_LOST_SEV3 s t)

end Sys2Proof.Claims

/-- What the buffer keeps. -/
def Obligations.AFullLogbookReplacesTheOldestOfTheLowestSeverity : Prop :=
  ∀ (i : Instr) (e : Event) (late : Bool) (s : State), Numbers i e late s → e.sev < 4 → StaysNew e s →
    let full := (if Config.stepping = 0 then 4096 else 8192) ≤ s.log.recs.length
    (¬ full → ∃ t, Runs i s t ∧ t.log.recs = s.log.recs ++ [newRecord e late s] ∧ RecordStored e s t) ∧
    (∀ a r b, full → s.log.recs = a ++ r :: b → (∀ x ∈ a, r.sev < x.sev) → (∀ x ∈ b, r.sev ≤ x.sev) → r.sev ≤ e.sev →
      ∃ t, Runs i s t ∧ t.log.recs = a ++ b ++ [newRecord e late s] ∧ RecordStored e s t ∧
        (∀ x ∈ s.log.recs, e.sev < x.sev → x ∈ t.log.recs) ∧
        ((s.log.recs.map Rec.seq).Nodup → s.log.head ≠ r.seq → ∀ x ∈ t.log.recs, x.seq ≠ r.seq)) ∧
    (full → (∀ x ∈ s.log.recs, e.sev < x.sev) → ∃ t, Runs i s t ∧ Dropped e.src e.sev s t) ∧
    (∀ src code sev arg0 arg1, sev < 4 → 4 ≤ (sGet [] s.log.queues src).length →
      Dropped src sev s (raise src code sev arg0 arg1 s) ∧ (raise src code sev arg0 arg1 s).log.queues = s.log.queues)

namespace Sys2Proof.Claims

/-- The place of an event among those of one TIME: its SRC; core faults follow CORE_ID, in which package sequencer cores come last (R164). -/
def heldRank (x : Event) : Nat := if x.code = 0x10 ∧ x.src / 0x1000 = 1 then 0x2040 + x.src % 0x1000 else x.src

/-- The order of the hold. -/
def heldBefore (x y : Event) : Prop := x.time < y.time ∨ (x.time = y.time ∧ heldRank x ≤ heldRank y)

/-- What storing or merging a record of number `n` and severity `sev` sets off. -/
def Notified (n : Word) (sev : Nat) (s t : State) : Prop :=
  (sev = 3 → s.sec.cairn.length < cairnCap → ∃ x, t.sec.cairn = s.sec.cairn ++ [x] ∧ x.kind = 3 ∧ x.prev = cairnHead s) ∧
  (sev < 3 → t.sec = s.sec) ∧
  (let at_ := getPair evrBase R.EVR_NOTIFY_LO_ADDR R.EVR_NOTIFY_HI_ADDR s / 8 * 8 % 2 ^ 48
   let notice := getF evrBase R.EVR_CFG_NOTIFY_EN s = 1 ∧ getF evrBase R.EVR_CFG_NOTIFY_SEV s ≤ sev
   (¬ notice → MemoriesKept s t) ∧
   (∀ p, notice → target at_ s = .hbm p → writeHeld (p / 128) s = false → chanOos (p / 128) s = false → StoredAt p 8 (n.toNat + sev * 2 ^ 32) s t) ∧
   (∀ p, notice → target at_ s = .hbm p → writeHeld (p / 128) s = true → MemoriesKept s t ∧ ∃ w, HomeReq.write w ∈ t.hal.waiting ∧ w.line = p / 128 ∧
      w.off = p % 128 ∧ w.n = 8 ∧ w.op = 0 ∧ w.data = (n.toNat + sev * 2 ^ 32) % 2 ^ 64)) ∧
  (let alert := getF evrBase R.EVR_CFG_IBI_SEV s ≤ sev
   let smbus := getF pkgBase R.PKG_INPUTS_SB_MODE s = 0
   (t.log.ibi = true ↔ s.log.ibi = true ∨ (alert ∧ smbus)) ∧
   let still := getF evrBase R.EVR_CFG_NOTIFY_EN s = 0
   (alert → ¬ smbus → s.log.ibiEn = true → ∃ l, t.out = s.out ++ l ++ [.sideband (natBytes n.toNat 4)] ∧ (still → l = [])) ∧
   (¬ (alert ∧ ¬ smbus ∧ s.log.ibiEn = true) → still → t.out = s.out)) ∧
  t.cores = s.cores ∧ t.engines = s.engines ∧ t.pkg = s.pkg

/-- Cursor `k` latched from the value `v`; nothing else changed. -/
def Latched (k : Fin 3) (v : Word) (s t : State) : Prop :=
  let first := match s.log.recs with
    | r :: _ => r.seq
    | [] => s.log.head
  let reaches := fun (r : Rec) => (1 ≤ (first - v).toNat ∧ (first - v).toNat ≤ 2 ^ 31) ∨ (v - first).toNat ≤ (r.seq - first).toNat
  (∀ a r b, s.log.recs = a ++ r :: b → (∀ x ∈ a, ¬ reaches x) → reaches r →
    getCur k t = ⟨some (r.seq + 1), r.seq, true, false, false, false, recWords r⟩) ∧
  ((∀ r ∈ s.log.recs, ¬ reaches r) → getCur k t = ⟨some v, 0, false, true, false, false, []⟩) ∧
  (∀ j : Fin 3, j ≠ k → getCur j t = getCur j s) ∧
  { t with log := { t.log with cur0 := s.log.cur0, cur1 := s.log.cur1, cur2 := s.log.cur2 } } = s

end Sys2Proof.Claims

/-- The Logbook's commands. -/
def Obligations.TheLogbookHoldsMergesNotifiesAndLatches : Prop :=
  ∀ s : State,
    (s.log.hold = [] → Runs .eventStore s s) ∧
    (∀ src : BitVec 16, sGet [] s.log.queues src.toNat = [] → Runs (.eventAccept src) s s) ∧
    (∀ (src : BitVec 16) e rest, sGet [] s.log.queues src.toNat = e :: rest → s.count.toNat ≤ e.time.toNat + 4000 →
      ∃ t, Runs (.eventAccept src) s t ∧ sGet [] t.log.queues src.toNat = rest ∧
        (∀ j, j ≠ src.toNat → sGet [] t.log.queues j = sGet [] s.log.queues j) ∧ (∀ x, x ∈ t.log.hold ↔ x = e ∨ x ∈ s.log.hold) ∧
        (s.log.hold.Pairwise heldBefore → t.log.hold.Pairwise heldBefore) ∧
        { t with log := { t.log with queues := s.log.queues, hold := s.log.hold } } = s) ∧
    (∀ i e late, Numbers i e late s →
      (∀ a r b, s.log.recs = a ++ r :: b → r.code = e.code → r.src = e.src → (∀ x ∈ b, ¬ (x.code = e.code ∧ x.src = e.src)) →
        r.sev = e.sev → r.rep < 0xFFFF → (e.code ≠ 0x90 → r.arg0 = e.arg0) → (e.code = 0x90 → r.arg0.toNat % 256 = e.arg0.toNat % 256) →
        e.time.toNat ≤ r.latest.toNat + 1000 * e.window → r.latest.toNat ≤ e.time.toNat + 1000 * e.window →
        ∃ t, Runs i s t ∧ Notified r.seq e.sev s t ∧ t.log.head = s.log.head ∧
          (let dt := min ((e.time.toNat - r.time.toNat) / 1000) (2 ^ 32 - 1)
           t.log.recs = a ++ { r with rep := r.rep + 1, upd := (r.upd + 1) % 16, latest := e.time, lastDt := dt } :: b) ∧
          (∀ k : Fin 3, let c := getCur k s
            getCur k t = (if c.valid = true ∧ c.gone = false ∧ c.seq = r.seq then { c with stale := true } else c))) ∧
      (StaysNew e s → s.log.recs.length < 4096 → ∃ t, Runs i s t ∧ Notified s.log.head e.sev s t ∧ ∀ k : Fin 3, getCur k t = getCur k s) ∧
      (∀ a r b, StaysNew e s → 8192 ≤ s.log.recs.length → s.log.recs = a ++ r :: b → (∀ x ∈ a, r.sev < x.sev) → (∀ x ∈ b, r.sev ≤ x.sev) →
        r.sev ≤ e.sev → e.sev < 4 → ∃ t, Runs i s t ∧ Notified s.log.head e.sev s t ∧
          ∀ k : Fin 3, let c := getCur k s
            getCur k t = (if c.valid = true ∧ c.seq = r.seq then { c with gone := true } else c))) ∧
    (∀ (k : Fin 3) (v : Word), (∃ t, Runs (.evrCurSeq k v) s t ∧ Latched k v s t) ∧
      (∀ w, (getCur k s).sought = some w → ∃ t, Runs (.evrCurNext k) s t ∧ Latched k w s t) ∧
      ((getCur k s).sought = none → ∃ t, Runs (.evrCurNext k) s t ∧ Latched k (oldestSeq s) s t)) ∧
    (∀ path, let may := s.pkg = .service ∧ ∃ ops, s.sec.ops = some ops ∧ bitAt ops 1 = true
      (may → ∃ t, Runs (.evrClear path) s t ∧ t.log.recs = [] ∧ t.log.head = s.log.head ∧ oldestSeq t = s.log.head ∧
        (∀ k : Fin 3, let c := getCur k s
          getCur k t = (if c.valid = true then { c with gone := true } else c)) ∧
        { t with log := { t.log with recs := s.log.recs, cur0 := s.log.cur0, cur1 := s.log.cur1, cur2 := s.log.cur2 } } = s) ∧
      (¬ may → ∃ t, Runs (.evrClear path) s t ∧ Logged 0 0x08 1 s t ∧ OnlyLogged s t))

namespace Sys2Proof.Claims

/-- The commands of the interface with their opcodes. -/
noncomputable def goCommands (path : Path) (ok : Bool) (r : Rating) : List (Instr × Nat) :=
  [(.nop path, 0), (.powerUp path, 1), (.powerDown path, 2), (.serviceEnter path ok, 3), (.serviceExit path, 4), (.sleep path, 5), (.wake path, 6),
   (.repair path, 7), (.admitJob path, 8), (.launch path, 9), (.freeze path, 0xA), (.resume path, 0xB), (.restore path, 0xC), (.takeover path, 0xD),
   (.recover path, 0xE), (.teardown path, 0xF), (.erase path, 0x10), (.attest path, 0x11), (.rerate path ok r, 0x12), (.resetWarm path, 0x13)]

/-- The Halter path may issue every opcode, the sideband seven of them, no other path any. -/
def mayIssue (path : Path) (op : Nat) : Prop := path = .halter ∨ (path = .sideband ∧ op ∈ [0, 1, 2, 5, 6, 0xF, 0x13])

/-- The states each opcode is legal in, and what else its legality asks (R433). -/
def legalNow (op : Nat) (s : State) : Prop :=
  s.pkg ∈ [[.standby, .service, .ready, .admitted, .running, .frozen, .sleep, .faulted], [.standby], [.service, .ready, .sleep, .faulted], [.ready],
    [.service], [.ready], [.sleep], [.ready, .sleep, .service], [.ready], [.admitted], [.running], [.frozen], [.frozen, .admitted], [.admitted],
    [.faulted], [.admitted, .running, .frozen, .faulted], [.ready],
    [.standby, .service, .ready, .admitted, .running, .frozen, .sleep, .faulted], [.service],
    [.service, .ready, .admitted, .running, .frozen, .sleep, .faulted]].getD op ([] : List PkgSt) ∧
  (op = 1 → s.pins.tap ≠ 3) ∧ (op = 8 → getF ckpBase R.CKP_STATUS_QUARANTINED s = 0) ∧ (op = 0xD → getF ckpBase R.CKP_RANK_ROLE s = 1) ∧
  ((op = 0xE ∨ op = 0xF) → s.pkg = .faulted → s.cause = 1)

/-- A GO of this opcode passes the checks of busy, path and state. -/
def Admissible (op : Nat) (path : Path) (s : State) : Prop := s.pkg ≠ .off ∧ cmdBusy s = false ∧ mayIssue path op ∧ legalNow op s

/-- A GO is turned away with a code and a record, and nothing else happens. -/
def TurnedAway (op code rec : Nat) (s t : State) : Prop :=
  getF cmdBase R.CMD_STATUS_CODE t = code ∧ getF cmdBase R.CMD_STATUS_DONE t = 1 ∧ cmdOp t = op ∧ cmdBusy t = false ∧ Logged 0 rec 1 s t ∧
  OnlyRegs (regAt cmdBase [R.CMD_STATUS_CODE]) s t

/-- The command was accepted; it ended with `code`, or (none) is in progress. -/
def Accepted (op : Nat) (ended : Option Nat) (s t : State) : Prop :=
  cmdOp t = op ∧ getF cmdBase R.CMD_STATUS_ISSUED t = (getF cmdBase R.CMD_STATUS_ISSUED s + 1) % 256 ∧
  getPair cmdBase R.CMD_RESULT_LO_VALUE R.CMD_RESULT_HI_VALUE t = 0 ∧
  match ended with
  | none => getF cmdBase R.CMD_STATUS_CODE t = 1 ∧ cmdBusy t = true
  | some code => getF cmdBase R.CMD_STATUS_CODE t = code ∧ cmdBusy t = false ∧ getF cmdBase R.CMD_STATUS_DONE t = 1

/-- The command in progress ended with this code. -/
def Finished (code : Nat) (t : State) : Prop :=
  getF cmdBase R.CMD_STATUS_CODE t = code ∧ cmdBusy t = false ∧ getF cmdBase R.CMD_STATUS_DONE t = 1

/-- The islands have no power: cores, engines, Depots, tile SRAM, vector registers and what they worked on are gone. -/
def IslandsGone (t : State) : Prop :=
  t.rails = false ∧ t.cores = [] ∧ t.engines = [] ∧ t.depot = [] ∧ t.tileSram = [] ∧ t.vregs = [] ∧ t.masks = [] ∧ t.dsps = [] ∧ t.slvs = [] ∧
  t.col.runs = [] ∧ getF pkgBase R.PKG_STATE_RAILS_ON t = 0

/-- Every register at the offsets `sel` selects, of which no field is kept, reads its Reset value. -/
def RegsReset (sel : Nat → Bool) (t : State) : Prop :=
  ∀ d off k n base r, sel off = true → csrPlace off = .reg k n base r → (∀ f ∈ r.flds, keptFld base f = false) →
    csrGet d off t = BitVec.ofNat 32 d

/-- The package is in this state, and the change was recorded. -/
def Entered (p : PkgSt) (s t : State) : Prop := t.pkg = p ∧ t.prev = s.pkg ∧ Logged 0 0x05 0 s t

/-- The ports after training began: every enabled one that the straps let train is TRAINING, the others DISABLED. -/
def PortsTrained (s t : State) : Prop :=
  ∀ p : Fin 22, portState p t =
    (if getF (portBase p) R.PORT_CTRL_ENABLE s = 1 ∧ (18 ≤ p.val ∨ getF pkgBase R.PKG_INPUTS_SLOT_OK s = 1) then 2 else 0)

end Sys2Proof.Claims

/-- The command interface and the package's own commands. -/
def Obligations.CommandsCheckAndMoveThePackage : Prop :=
  ∀ (path : Path) (ok : Bool) (r : Rating) (s : State),
    let go := fun op => Admissible op path s
    let busyWith := fun op => cmdBusy s = true ∧ cmdOp s = op
    (∀ e ∈ goCommands path ok r,
      (s.pkg = .off → Runs e.1 s s) ∧
      (s.pkg ≠ .off → cmdBusy s = true → ∃ t, Runs e.1 s t ∧ Bumped cmdBase R.CMD_REFUSED_COUNT s t ∧ getF cmdBase R.CMD_REFUSED_OPCODE t = e.2 ∧
        OnlyRegs (regAt cmdBase [R.CMD_REFUSED_COUNT]) s t) ∧
      (s.pkg ≠ .off → cmdBusy s = false → ¬ mayIssue path e.2 → ∃ t, Runs e.1 s t ∧ TurnedAway e.2 4 0x03 s t) ∧
      (s.pkg ≠ .off → cmdBusy s = false → mayIssue path e.2 → ¬ legalNow e.2 s → ∃ t, Runs e.1 s t ∧ TurnedAway e.2 2 0x01 s t)) ∧
    (go 0 → ∃ t, Runs (.nop path) s t ∧ Accepted 0 (some 0) s t ∧
      OnlyRegs (regAt cmdBase [R.CMD_STATUS_CODE, R.CMD_RESULT_LO_VALUE, R.CMD_RESULT_HI_VALUE]) s t) ∧
    (go 1 → ∃ t, Runs (.powerUp path) s t ∧ Accepted 1 none s t ∧ t.rails = true ∧ getF pkgBase R.PKG_STATE_RAILS_ON t = 1 ∧ t.pkg = s.pkg ∧
      t.pins.tap = 0 ∧ getF pkgBase R.PKG_INPUTS_TAP_ACTIVE t = 0 ∧ t.depot = [] ∧ t.fab = [] ∧ t.peers = [] ∧ t.chans = [] ∧ t.hal.dir = [] ∧
      t.col = .init ∧ t.sec.pendRating = none ∧ t.sec.rating = s.sec.pendRating.getD s.sec.rating ∧ opNow t = 15 ∧ RegsReset offInStandby t) ∧
    (∀ fail, (¬ busyWith 1 → Runs (.powerUpDone fail) s s) ∧
      (busyWith 1 → fail = none → ∃ t, Runs (.powerUpDone fail) s t ∧ Entered .ready s t ∧ Finished 0 t ∧ PortsTrained s t ∧
        (let svn := getF secBase R.SEC_STATUS_SVN s
         getF secBase R.SEC_STATUS_ROLLBACK t = (if s.sec.advance = true ∧ getF secBase R.SEC_STATUS_ROLLBACK s < svn then svn
           else getF secBase R.SEC_STATUS_ROLLBACK s)) ∧ t.cores = s.cores ∧ t.engines = s.engines ∧ MemoriesKept s t) ∧
      (∀ u n, busyWith 1 → fail = some (u, n) → ∃ t, Runs (.powerUpDone fail) s t ∧ t.pkg = s.pkg ∧ Finished 5 t ∧ IslandsGone t ∧
        Logged srcSec 0xA4 3 s t)) ∧
    (go 2 → ∃ t, Runs (.powerDown path) s t ∧ Accepted 2 (some 0) s t ∧ Entered .standby s t ∧ IslandsGone t ∧ t.hbm = [] ∧ t.hbmBg = t.fresh ∧
      s.fresh < t.fresh ∧ t.poison = [] ∧ t.fab = [] ∧ t.cause = 0 ∧ t.sec.ops = none ∧ t.launch = none ∧ t.ckp.drain = none) ∧
    (let b := readExt (cmdArg 0 s) 512 s
     let authed := ok = true ∧ bitsAt b 0 64 = Config.serial.toNat ∧ bitsAt b 64 64 = (nonceNow s).toNat ∧ s.sec.nonceUsed = false ∧ bitsAt b 160 3936 = 0
     let tried := { s with sec := { s.sec with nonceUsed := true } }
     (go 3 → inCompanion (cmdArg 0 s) 1024 s = false → ∃ t, Runs (.serviceEnter path ok) s t ∧ TurnedAway 3 3 0x02 s t) ∧
     (go 3 → inCompanion (cmdArg 0 s) 1024 s = true → ¬ authed → ∃ t, Runs (.serviceEnter path ok) s t ∧ TurnedAway 3 4 0x03 tried t) ∧
     (go 3 → inCompanion (cmdArg 0 s) 1024 s = true → authed → ∃ t, Runs (.serviceEnter path ok) s t ∧ Accepted 3 (some 0) s t ∧
       Entered .service s t ∧ t.sec.ops = some (bitsAt b 128 32) ∧ t.sec.nonceUsed = true ∧ Logged srcSec 0xAF 1 s t ∧ t.cores = s.cores ∧
       t.engines = s.engines ∧ MemoriesKept s t)) ∧
    (go 4 → ∃ t, Runs (.serviceExit path) s t ∧ Accepted 4 (some 0) s t ∧ Entered .ready s t ∧ t.sec = { s.sec with ops := none } ∧ t.cores = s.cores ∧
      t.engines = s.engines ∧ MemoriesKept s t) ∧
    (go 5 → ∃ t, Runs (.sleep path) s t ∧ Accepted 5 none s t ∧ IslandsGone t ∧ t.pkg = s.pkg ∧ t.hbmBg = s.hbmBg ∧
      ((s.depot.map (fun e => e.1)).Nodup → ∀ q, q < 2 ^ 33 → chanOos q s = false → (∀ x, sFind s.depot q = some x → x.dirty = true) →
        lineNat q t = lineNat q s)) ∧
    (¬ busyWith 5 → Runs .sleepEntryDone s s) ∧
    (busyWith 5 → ∃ t, Runs .sleepEntryDone s t ∧ Entered .sleep s t ∧ Finished 0 t ∧ Bumped pwrBase R.PWR_SLEEP_STATUS_SLEEP_COUNT s t ∧
      t.pwr.acc = [] ∧ MemoriesKept s t) ∧
    (go 6 → ∃ t, Runs (.wake path) s t ∧ Accepted 6 none s t ∧ t.rails = true ∧ getF pkgBase R.PKG_STATE_RAILS_ON t = 1 ∧ t.pwr.wakeAt = some s.count ∧
      t.hal.dir = [] ∧ t.pkg = s.pkg ∧ RegsReset islandReg t ∧ MemoriesKept s t) ∧
    (¬ busyWith 6 → Runs .wakeDone s s) ∧
    (∀ w, busyWith 6 → s.pwr.wakeAt = some w → ∃ t, Runs .wakeDone s t ∧ Entered .ready s t ∧ Finished 0 t ∧ opNow t = 15 ∧ t.pwr.wakeAt = none ∧
      getF pwrBase R.PWR_SLEEP_STATUS_LAST_WAKE_US t = min 65535 ((s.count.toNat - w.toNat) / 1000) ∧ MemoriesKept s t) ∧
    (go 7 → ∃ t, Runs (.repair path) s t ∧ Accepted 7 none s t ∧ (∀ st : Fin 12, getF (stackBase st) R.MEM_REPAIR_STATUS_REPAIRING t = 1) ∧
      { t with csr := s.csr } = s) ∧
    (¬ busyWith 7 → Runs (.repairDone ok) s s) ∧
    (busyWith 7 → ∃ t, Runs (.repairDone ok) s t ∧ Finished (if ok then 0 else 5) t ∧ MemoriesKept s t ∧ t.cores = s.cores ∧
      (∀ st : Fin 12, getF (stackBase st) R.MEM_REPAIR_STATUS_REPAIRING t = 0) ∧ (ok = false → { t with csr := s.csr } = s) ∧
      (ok = true → ∀ st : Fin 12, ∀ x ∈ sGet [] t.rows st.val, x ∈ sGet [] s.rows st.val ∧ sparesOf st x.chan x.bank t = 0)) ∧
    (go 0x10 → eraseOk s = false → ∃ t, Runs (.erase path) s t ∧ TurnedAway 0x10 3 0x02 s t) ∧
    (go 0x10 → eraseOk s = true → ∃ t, Runs (.erase path) s t ∧ Accepted 0x10 none s t ∧ t.sec.erase = some (eraseReq s) ∧ t.cores = [] ∧
      t.engines = [] ∧ t.depot = [] ∧ t.tileSram = [] ∧ t.vregs = [] ∧ t.dsps = [] ∧ t.slvs = [] ∧ t.col.runs = [] ∧ t.hal.dir = [] ∧ t.hbm = [] ∧
      t.pkg = s.pkg ∧ (bitAt (eraseReq s).2.2 0 = true → t.hbmBg = 0 ∧ t.poison = []) ∧
      (bitAt (eraseReq s).2.2 0 = false → t.hbmBg = t.fresh ∧ s.fresh < t.fresh)) ∧
    ((s.sec.erase = none ∨ ¬ busyWith 0x10) → Runs .eraseDone s s) ∧
    (∀ nonce new flags, s.sec.erase = some (nonce, new, flags) → busyWith 0x10 →
      let n := (getF secBase R.SEC_ERASE_COUNT_COUNT s + 1) % 2 ^ 32
      ∃ t, Runs .eraseDone s t ∧ Finished 0 t ∧ custody t = new ∧ getF secBase R.SEC_ERASE_COUNT_COUNT t = n ∧ getF secBase R.SEC_STATUS_ERASED t = 1 ∧
        t.sec.erase = none ∧ t.ckp = .init ∧ t.pkg = s.pkg ∧ Logged srcSec 0xAA 0 s t ∧ getF mempBase R.MEM_SPREAD_SIZE t = 0 ∧
        (s.sec.cairn.length + 3 ≤ cairnCap → ∃ a b x, t.sec.cairn = s.sec.cairn ++ [a, b, x] ∧ a.kind = 1 ∧ b.kind = 2 ∧ x.kind = 6 ∧
          x.args = [(custody s).toNat, new.toNat, n, flags, nonce.toNat])) ∧
    (go 0x11 → attestOk s = false → ∃ t, Runs (.attest path) s t ∧ TurnedAway 0x11 3 0x02 s t) ∧
    (go 0x11 → attestOk s = true → ∃ t, Runs (.attest path) s t ∧ Accepted 0x11 none s t ∧
      t.sec = { s.sec with report := reportBytes 1 (cmdArg 0 s) 0 s, reportAt := cmdArg 1 s, unclean := false } ∧ { t with sec := s.sec, csr := s.csr } = s) ∧
    (¬ busyWith 0x11 → Runs .attestSigned s s) ∧
    (busyWith 0x11 → ∃ t, Runs .attestSigned s t ∧ Finished 0 t ∧ Bumped secBase R.SEC_STATUS_ATTEST_COUNT s t ∧ t.cores = s.cores ∧ t.pkg = s.pkg ∧
      (PlainRange s.sec.reportAt 1024 s → s.sec.report.length = 512 →
        readOff s.sec.reportAt 1024 t = bytesNat (signedReport s.sec.report) ∧ OnlyRangeWritten s.sec.reportAt 1024 s t)) ∧
    (let named := r.serial = Config.serial ∧ s.sec.rating.seq < r.seq ∧ (∀ p, s.sec.pendRating = some p → p.seq < r.seq) ∧ r.refurb = true ∧ gradeOk r = true
     let authed := ok = true ∧ ∃ ops, s.sec.ops = some ops ∧ bitAt ops 0 = true
     (go 0x12 → ¬ named → ∃ t, Runs (.rerate path ok r) s t ∧ TurnedAway 0x12 3 0x02 s t) ∧
     (go 0x12 → named → ¬ authed → ∃ t, Runs (.rerate path ok r) s t ∧ TurnedAway 0x12 4 0x03 s t) ∧
     (go 0x12 → named → authed → ∃ t, Runs (.rerate path ok r) s t ∧ Accepted 0x12 (some 0) s t ∧ t.sec.pendRating = some r ∧
       t.sec.rating = s.sec.rating ∧ getF secBase R.SEC_STATUS_RATING_PENDING t = 1 ∧
       (s.sec.cairn.length < cairnCap → ∃ x, t.sec.cairn = s.sec.cairn ++ [x] ∧ x.kind = 5 ∧ x.prev = cairnHead s) ∧ t.pkg = s.pkg ∧
       t.cores = s.cores ∧ t.engines = s.engines ∧ MemoriesKept s t)) ∧
    (go 0x13 → ∃ t, Runs (.resetWarm path) s t ∧ cmdBusy t = true ∧ cmdOp t = 0x13 ∧ getF cmdBase R.CMD_STATUS_CODE t = 1 ∧ t.pkg = s.pkg ∧
      t.cores = [] ∧ t.engines = [] ∧ t.depot = [] ∧ t.vregs = [] ∧ t.masks = [] ∧ t.dsps = [] ∧ t.slvs = [] ∧ t.col = .init ∧ t.fab = [] ∧ PortsTrained t t ∧
      getF halBase R.HAL_STATUS_STATE0 t = 2 * getF halBase R.HAL_CFG_PORT0_EN t ∧
      t.root = .init ∧ t.launch = none ∧ t.sec.ops = none ∧ t.sec.cairn = s.sec.cairn ∧ t.log.recs = s.log.recs ∧ t.log.head = s.log.head ∧
      (∀ k : Fin 3, getCur k t = .init) ∧ t.count = s.count ∧ t.rails = s.rails ∧ opNow t = 15 ∧ RegsReset islandReg t) ∧
    (¬ busyWith 0x13 → Runs .warmResetDone s s) ∧
    (busyWith 0x13 → ∃ t, Runs .warmResetDone s t ∧ Entered .ready s t ∧ Finished 0 t ∧ t.cause = 0 ∧
      getF halBase R.HAL_STATUS_STATE0 t = 5 * getF halBase R.HAL_CFG_PORT0_EN s ∧ t.cores = s.cores ∧ t.engines = s.engines ∧
      MemoriesKept s t)

namespace Sys2Proof.Claims

/-- No core runs and no engine or collective holds work. -/
def NothingRuns (t : State) : Prop :=
  (∀ c : Fin 44, (getCore c t).st = .idle ∧ (getCore c t).wait = none ∧ (getCore c t).out = []) ∧ t.engines = [] ∧ t.dsps = [] ∧ t.slvs = [] ∧
  t.col.runs = []

end Sys2Proof.Claims

/-- The job's commands. -/
def Obligations.JobCommandsAdmitLaunchFreezeAndTearDown : Prop :=
  ∀ (path : Path) (s : State),
    let go := fun op => Admissible op path s
    let me := pkgNum s
    (go 8 → admitOk s = false → ∃ t, Runs (.admitJob path) s t ∧ TurnedAway 8 3 0x02 s t) ∧
    (go 8 → admitOk s = true → ∃ t, Runs (.admitJob path) s t ∧ Accepted 8 none s t ∧ getF mempBase R.MEM_SPREAD_SIZE t = bitsAt (cmdArg 1 s) 16 4 ∧
      getPair ckpBase R.CKP_JOB_ID_LO_VALUE R.CKP_JOB_ID_HI_VALUE t = cmdArg 0 s ∧ t.pkg = s.pkg ∧ t.cores = s.cores ∧ t.engines = s.engines ∧
      (∀ fd : Fin 2, (getFab fd t).armedAt = some (BitVec.ofNat 64 (cmdArg 3 s)) ∧ getF (fabBase fd) R.FAB_STATUS_ARMED t = 1 ∧
        getF (fabBase fd) R.FAB_EPOCH_NEW_TAG t = bitsAt (cmdArg 1 s) 0 16 ∧ getF (fabBase fd) R.FAB_EPOCH_TAG_APPLY t = 1) ∧
      (let newKey := bitAt (readExt (cmdArg 2 s) 64 s) 32
       (newKey = true → t.hbm = [] ∧ t.hbmBg = t.fresh ∧ s.fresh < t.fresh ∧ t.tileSram = s.tileSram) ∧ (newKey = false → MemoriesKept s t))) ∧
    (∀ i op entry c arg, Admissible op path s →
      (i = Instr.launch path ∧ op = 9 ∧ entry = BitVec.ofNat 48 (cmdArg 0 s) ∧ c = BitVec.ofNat 64 (cmdArg 1 s) ∧ arg = BitVec.ofNat 64 (cmdArg 2 s)) ∨
      (i = Instr.resume path ∧ op = 0xB ∧ entry = 0 ∧ c = BitVec.ofNat 64 (cmdArg 0 s) ∧ arg = 0) →
      let off := getPair colBase R.COL_LAUNCH_TBL_LO_ADDR R.COL_LAUNCH_TBL_HI_ADDR s % 2 ^ 48
      let tree := treeRead off s 0x200000 [0] []
      let l0 : LaunchRec := ⟨op, entry, c, arg, 0, 0xFFFF, tree, treeCrc off tree s, none, [], [], [], [], [], false, none, false, launchMargin tree s, [], []⟩
      let s0 := { s with ownAbort := none }
      let signed := fun (t : State) => op = 9 → getPair gctBase R.GCT_LAUNCH_LO_COUNT R.GCT_LAUNCH_HI_COUNT t = c.toNat ∧
        getPair gctBase R.GCT_CFGSIG_LO_SIG R.GCT_CFGSIG_HI_SIG t = cfgSig s % 2 ^ 64
      (nodeAt l0 me = none → ∃ t, Runs i s t ∧ LaunchGivenUp l0 9 me s t ∧ Accepted op (some 6) s t ∧ signed t) ∧
      (∀ n, nodeAt l0 me = some n →
        let par := bitsAt (nodeOf l0 n) 32 16
        let l := { l0 with me := n, kids := entryKids (nodeOf l0 n), up := if n = 0 ∨ par = 0xFFFF then none else some (nodePkg l0 par) }
        (c.toNat < s.count.toNat + 10000 → (∀ p ∈ launchPeers l 0x10000, Reachable p s) →
          ∃ t, Runs i s t ∧ LaunchGivenUp l 0xA me s t ∧ Accepted op (some 6) s t ∧ signed t) ∧
        (s.count.toNat + 10000 ≤ c.toNat → n ≠ 0 → ∃ t, Runs i s t ∧ LaunchWentOn l 1 0 [] s0 t ∧ Accepted op none s t ∧ signed t) ∧
        (s.count.toNat + 10000 ≤ c.toNat → n = 0 → l.kids ≠ [] → (∀ k ∈ l.kids, Reachable (nodePkg l k) s) →
          ∃ t tm, Runs i s t ∧ LaunchWentOn { l with prep := true, timers := tm } 2 8 (l.kids.map (fun k => nodePkg l k)) s0 t ∧
            (∀ k ∈ l.kids, (k, childDeadline s) ∈ tm) ∧ Accepted op none s t ∧ signed t))) ∧
    (go 0xA → ∃ t, Runs (.freeze path) s t ∧ Accepted 0xA none s t ∧ t.freezeF = some (BitVec.ofNat 64 (cmdArg 0 s)) ∧
      t.ckp = { s.ckp with freeze := some (bitAt (cmdArg 1 s) 0, 0) } ∧ getF ckpBase R.CKP_STATUS_STATE t = 5 ∧
      { t with csr := s.csr, freezeF := s.freezeF, ckp := s.ckp } = s) ∧
    (let r : Restore := ⟨cmdArg 1 s, BitVec.ofNat 64 (cmdArg 0 s), BitVec.ofNat 64 (cmdArg 2 s), none, []⟩
     (go 0xC → bitAt (cmdArg 1 s) 1 = true → Reachable (pPartner (partner (ckpRank s) s)) s →
       ∃ t, Runs (.restore path) s t ∧ Accepted 0xC none s t ∧ t.ckp.restore = some r ∧ t.ckp.phase = 7 ∧ getF ckpBase R.CKP_STATUS_STATE t = 4 ∧
         t.cores = s.cores ∧ MemoriesKept s t ∧ t.pkg = s.pkg) ∧
     (∀ par, go 0xC → bitAt (cmdArg 1 s) 1 = false → LeafBelow par s → s.ckp.votes = [] →
       let own := ((sourcesOf r).flatMap (fun i => sourceCuts i s)).dedup
       let err := own.isEmpty || (bitAt (cmdArg 1 s) 3 && (proxyCuts s).isEmpty)
       let cuts := if bitAt (cmdArg 1 s) 3 then own.filter (fun c => (proxyCuts s).contains c) else own
       ∃ t, Runs (.restore path) s t ∧ Accepted 0xC none s t ∧ t.ckp.restore = some r ∧ getF ckpBase R.CKP_STATUS_STATE t = 4 ∧
         VotedUp 4 ⟨ckpStep s, ckpStep s, err, false, s.ckp.drain.isNone, decide (getF ckpBase R.CKP_STATUS_QUARANTINED s = 1), some cuts⟩ par s t ∧
         t.cores = s.cores ∧ MemoriesKept s t ∧ t.pkg = s.pkg)) ∧
    (go 0xD → ∃ t, Runs (.takeover path) s t ∧ Accepted 0xD (some 0) s t ∧ getF ckpBase R.CKP_RANK_RANK t = cmdArg 0 s % 2 ^ 16 ∧
      getF ckpBase R.CKP_RANK_ROLE t = 0 ∧ Untouched s t) ∧
    (go 0xE → ∃ t, Runs (.recover path) s t ∧ Accepted 0xE (some 0) s t ∧ Entered .frozen s t ∧ NothingRuns t ∧ t.cause = 0 ∧ t.freezeF = none ∧
      t.ckp.drain = none ∧ t.ckp.mine = none ∧ MemoriesKept s t) ∧
    (go 0xF → ∃ t, Runs (.teardown path) s t ∧ Accepted 0xF none s t ∧ NothingRuns t ∧ getF ckpBase R.CKP_CFG_ENABLE t = 0 ∧ t.launch = none ∧
      t.freezeF = none ∧ t.ckp.drain = none ∧ (∀ q x, sFind t.depot q = some x → x.dirty = false) ∧ t.pwr.acc = [] ∧ t.pkg = s.pkg) ∧
    (¬ (cmdBusy s = true ∧ cmdOp s = 0xF) → Runs .teardownDone s s) ∧
    (cmdBusy s = true → cmdOp s = 0xF → ∃ t, Runs .teardownDone s t ∧ Entered .ready s t ∧ Finished 0 t ∧ Logged srcSec 0xA9 0 s t ∧ t.peers = [] ∧
      t.cause = 0 ∧ (∀ fd : Fin 2, getF (fabBase fd) R.FAB_JOB_TAG t = 0 ∧ getF (fabBase fd) R.FAB_JOB_PASSED t = 0 ∧ (getFab fd t).txns = []) ∧
      t.cores = s.cores ∧ t.engines = s.engines ∧ MemoriesKept s t)

namespace Sys2Proof.Claims

/-- The records of pieces, numbered from `n` on in steps of one. -/
def recordsOf (layer : Nat) : Nat → List (List Byte) → List Piece
  | _, [] => []
  | n, p :: ps => ⟨layer, n, p.length, crc64Go 0 p⟩ :: recordsOf layer (n + 1) ps

end Sys2Proof.Claims

/-- Digests do not depend on the cut. -/
def Obligations.LayerDigestsIgnoreTheCut : Prop :=
  ∀ (layer n : Nat) (ps : List (List Byte)), ps ≠ [] → (∀ p ∈ ps, p ≠ []) → ps.flatten.length < 2 ^ 64 →
    combine (recordsOf layer n ps) 0 none [] 0 =
      ([⟨layer, ps.length, ps.flatten.length, crc64Go 0 ps.flatten, n, n + ps.length - 1⟩], 0, none)

namespace Sys2Proof.Claims

/-- The removal sequence ran: islands and stacks have no power, the authorisation and an erase are gone, the open period is closed and entered. -/
def Removed (s t : State) : Prop :=
  IslandsGone t ∧ t.hbm = [] ∧ t.hbmBg = t.fresh ∧ s.fresh < t.fresh ∧ t.poison = [] ∧ t.fab = [] ∧ t.sec.removed = true ∧ t.sec.ops = none ∧
  t.sec.erase = none ∧ t.sec.saved = [] ∧ t.launch = none ∧ Bumped secBase R.SEC_HOTPLUG_REMOVALS s t ∧
  (s.sec.cairn.length + 3 ≤ cairnCap → ∃ a b x, t.sec.cairn = s.sec.cairn ++ [a, b, x] ∧ a.kind = 1 ∧ b.kind = 2 ∧ x.kind = 9 ∧
    x.args.head? = some 1 ∧ x.args.getLast? = some (b2n (inJob s)))

/-- Every supply is gone but the non-volatile storage. -/
def PowerLost (s t : State) : Prop :=
  t.pkg = .off ∧ t.prev = s.pkg ∧ t.rails = false ∧ t.counting = false ∧ t.log = .init ∧ t.pins.boot = false ∧ t.pins.bootBad = false

/-- The answer of `n` bytes left on the sideband and nothing else changed. -/
def Answered8 (n : Nat) (s t : State) : Prop := ∃ bs : List Byte, bs.length = n ∧ t = { s with out := s.out ++ [.sideband bs] }

/-- One day's scoring of a part. -/
def Scored (k i : Nat) (s t : State) : Prop :=
  let key := partKey k i
  let now := partTotals k i s
  let x := sGet Part.init s.sec.parts key
  let days := x.days ++ [(List.range now.length).map (fun e => now.getD e 0 - sGet 0 s.sec.scored (key * 4 + e))]
  let days := days.drop (days.length - 30)
  let y := sGet Part.init t.sec.parts key
  y.days = days ∧ y.score = partScore (weights k) days ∧
  (let up := if predictThr s ≤ y.score then 2 else if watchThr s ≤ y.score then 1 else 0
   (x.st < up → y.st = up) ∧ (up = x.st → y.st = x.st) ∧ (x.st < 2 → up < x.st → x.below < 6 → y.st = x.st))

end Sys2Proof.Claims

/-- Start, removal, inputs, sideband, TAP, security. -/
def Obligations.BootRemovalInputsSidebandTapAndSecurity : Prop :=
  ∀ s : State,
    let up := csrUp s = true
    let i3cUp := csrUp s = true ∧ getF pkgBase R.PKG_INPUTS_SB_MODE s = 1
    ((s.pkg ≠ .off ∨ s.pins.boot = true) → Runs .coldStart s s) ∧
    (s.pkg = .off → s.pins.boot = false → ∃ t, Runs .coldStart s t ∧ t.pins = { Pins.init with boot := true } ∧ t.pkg = .off ∧ s.fresh < t.fresh ∧
      t.hbmBg = t.fresh ∧ t.sec.cairn = s.sec.cairn ∧ t.sec.rating = s.sec.rating ∧ t.sec.flash = s.sec.flash ∧ t.sec.ops = none ∧ t.totals = s.totals ∧
      t.rows = s.rows ∧ t.spares = s.spares ∧ t.upNs = s.upNs ∧ getF pkgBase R.PKG_INPUTS_SLOT_OK t = 0 ∧
      ((s.csr.map (fun e => e.1)).Nodup → custody t = custody s) ∧
      (let q := State.reset
       { t with pending := q.pending, fresh := q.fresh, pkg := q.pkg, csr := q.csr, hbmBg := q.hbmBg, out := q.out, upNs := q.upNs, totals := q.totals,
                rows := q.rows, spares := q.spares, sec := q.sec, pins := q.pins } = q)) ∧
    (∀ b : BootInputs, let rb := getF secBase R.SEC_STATUS_ROLLBACK s
      let ga := b.okA = true ∧ s.sec.fwKeys[b.slotA]? = some (b.keyA, false) ∧ rb ≤ b.svnA.toNat
      let gb := b.okB = true ∧ s.sec.fwKeys[b.slotB]? = some (b.keyB, false) ∧ rb ≤ b.svnB.toNat
      let passes := fun (ok : Bool) (r : Rating) => ok = true ∧ r.serial = Config.serial ∧ gradeOk r = true
      let found := fun (r : Rating) => (s.sec.pendRating = some r ∧ passes b.pendingOk r) ∨
        ((∀ p, s.sec.pendRating = some p → ¬ passes b.pendingOk p) ∧ s.sec.rating = r ∧ passes b.activeOk r)
      let bFirst := b.svnA.toNat < b.svnB.toNat
      ((s.pins.boot = false ∨ s.pins.bootBad = true ∨ s.pkg ≠ .off) → Runs (.bootDone b) s s) ∧
      (s.pins.boot = true → s.pins.bootBad = false → s.pkg = .off →
        ((¬ ga ∧ ¬ gb) ∨ (∀ r, ¬ found r) → ∃ t, Runs (.bootDone b) s t ∧ t.pins.bootBad = true ∧ t.pkg = .off ∧ Logged srcSec 0xA2 3 s t) ∧
        (∀ r useB, found r → (ga ∨ gb) → (useB = true ↔ (gb ∧ (bFirst ∨ ¬ ga))) → ∃ t, Runs (.bootDone b) s t ∧ Entered .standby s t ∧
          t.pins.boot = false ∧ t.pins.bootBad = false ∧ getF secBase R.SEC_STATUS_BANK t = b2n useB ∧
          getF secBase R.SEC_STATUS_SVN t = (if useB then b.svnB.toNat else b.svnA.toNat) ∧ t.sec.advance = (if useB then b.advB else b.advA) ∧
          getF secBase R.SEC_FW_SVN_A t = b.svnA.toNat ∧ getF secBase R.SEC_FW_SVN_B t = b.svnB.toNat ∧
          ((bFirst ∧ ¬ gb) ∨ (¬ bFirst ∧ ¬ ga) → getF secBase R.SEC_STATUS_BANK_FAIL t = 1) ∧
          t.sec.rating = r ∧ t.sec.pendRating = (if s.sec.pendRating = some r then none else s.sec.pendRating) ∧
          t.sec.removed = false ∧ (s.sec.removed = false → s.sec.saved ≠ [] → t.sec.saved = [] ∧ getF secBase R.SEC_STATUS_UNCLEAN t = 1) ∧
          getF halBase R.HAL_STATUS_STATE0 t = 5 * getF halBase R.HAL_CFG_PORT0_EN s ∧
          (s.sec.cairn.length + 4 ≤ cairnCap → ∃ x, t.sec.cairn.getLast? = some x ∧ x.kind = 9 ∧ x.args.head? = some 0)))) ∧
    (s.pins.lever = false → Runs .leverOpen s s ∧ Runs .modPresentLost s s) ∧
    (s.pins.lever = true →
      (s.pkg = .off → ∃ t, Runs .leverOpen s t ∧ PowerLost s t ∧ t.pins.lever = false ∧ t.sec = s.sec) ∧
      (s.pkg ≠ .off → s.sec.removed = true → Runs .leverOpen s { s with pins := { s.pins with lever := false } }) ∧
      (s.pkg ≠ .off → s.sec.removed = false →
        (∃ t, Runs .leverOpen s t ∧ Removed s t ∧ t.pkg = .standby ∧ t.cause = 0 ∧ t.pins = { s.pins with lever := false } ∧
          Logged srcSec (if inJob s then 0xA6 else 0xA5) (if inJob s then 3 else 0) s t ∧ (cmdBusy s = true → Finished 5 t ∧ Logged 0 0x04 1 s t)) ∧
        ∃ t, Runs .modPresentLost s t ∧ Removed s t ∧ t.pkg = .standby ∧ t.pins = { s.pins with present := false, lever := false } ∧
          Logged 0 0x09 1 s t)) ∧
    (s.pins.pwrEn = false → Runs .hostPwrEnDeassert s s) ∧
    (s.pins.pwrEn = true → ((s.pkg = .off ∨ s.sec.removed = true) → ∃ t, Runs .hostPwrEnDeassert s t ∧ PowerLost s t ∧ t.sec = s.sec) ∧
      (s.pkg ≠ .off → s.sec.removed = false → ∃ t, Runs .hostPwrEnDeassert s t ∧ Removed s t ∧ PowerLost s t ∧ t.pins.pwrEn = false)) ∧
    ((s.pkg = .off → s.pins.boot = false → Runs .inputLoss s s) ∧
      (s.pkg ≠ .off ∨ s.pins.boot = true → ∃ t, Runs .inputLoss s t ∧ PowerLost s t ∧ t.cores = [] ∧ t.engines = [] ∧ t.depot = [] ∧ t.tileSram = [] ∧
        t.hbm = [] ∧ t.hbmBg = t.fresh ∧ s.fresh < t.fresh ∧ t.sec = s.sec)) ∧
    (∀ mv, (¬ (up ∧ (mv < 40000 ∨ 60000 < mv)) → Runs (.inputOutOfRange mv) s s) ∧
      (up → (mv < 40000 ∨ 60000 < mv) → ∃ t, Runs (.inputOutOfRange mv) s t ∧ Bumped pkgBase R.PKG_INPUT_ERR_VIN_OUT s t ∧ Logged 0 0x09 1 s t ∧
        (s.pkg ≠ .off → demand 6 t = 15 ∧ t.pwr.faultAt = some s.count) ∧ OnlyPower s t) ∧
      ((35000 ≤ mv ∧ mv ≤ 65000) ∨ canTrip s = false → Runs (.inputLockout mv) s s) ∧
      (mv < 35000 ∨ 65000 < mv → canTrip s = true → s.col.runs = [] → ∃ t, Runs (.inputLockout mv) s t ∧ RailsLost 3 s t)) ∧
    (∀ a b c : BitVec 7, let open_ := up ∧ (s.pkg = .off ∨ s.pkg = .standby) ∧ s.pins.strapsBad = false ∧ getF pkgBase R.PKG_INPUTS_SLOT_OK s = 0
      let agree := a = b ∧ b = c ∧ popCount a.toNat 7 % 2 = 0
      let k := a.toNat % 64
      (¬ open_ → Runs (.strapSample a b c) s s) ∧
      (open_ → agree → ∃ t, Runs (.strapSample a b c) s t ∧ getF pkgBase R.PKG_INPUTS_SLOT t = k ∧ getF pkgBase R.PKG_INPUTS_SLOT_PAR t = a.toNat / 64 ∧
        getF pkgBase R.PKG_INPUTS_SLOT_OK t = 1 ∧ t.pins = { s.pins with straps := a } ∧ { t with csr := s.csr, pins := s.pins } = s ∧
        ∀ fd : Fin 2, getF (fabBase fd) R.FAB_SELF_SLOT t = k ∧ tabWord fd (0x100 + 8 * k) t = 1 ∧ tabWord fd (0x300 + 8 * k) t = 1) ∧
      (open_ → ¬ agree → ∃ t, Runs (.strapSample a b c) s t ∧ t.pins = { s.pins with strapsBad := true } ∧ Logged 0 0x09 1 s t ∧
        ∀ p : Fin 18, portState p t = 0) ∧
      (let moved := up ∧ getF pkgBase R.PKG_INPUTS_SLOT_OK s = 1 ∧ a ≠ s.pins.straps
       (¬ moved → Runs (.strapChange a) s s) ∧
       (moved → ∃ t, Runs (.strapChange a) s t ∧ Bumped pkgBase R.PKG_INPUT_ERR_STRAP_CHANGES s t ∧ Logged 0 0x0B 1 s t ∧
         t.pins = { s.pins with straps := a } ∧ OnlyRegs (regAt pkgBase [R.PKG_INPUT_ERR_STRAP_CHANGES]) { s with pins := t.pins } t))) ∧
    (∀ (off : BitVec 16) (present : Bool), (¬ up → Runs (.refclkMeasure off present) s s) ∧
      (up → ∃ t, Runs (.refclkMeasure off present) s t ∧ getF pkgBase R.PKG_REFCLK_OFFSET t = off.toNat ∧
        (getF pkgBase R.PKG_REFCLK_IN_RANGE t = 1 ↔ present = true ∧ off.toInt.natAbs ≤ 1000) ∧
        t.pins.refGood = (if present = true ∧ off.toInt.natAbs ≤ 1000 then some (s.pins.refGood.getD s.count) else none) ∧
        t.pins.refBad = (if present = false ∨ 1500 < off.toInt.natAbs then some (s.pins.refBad.getD s.count) else none) ∧
        OnlyRegs (regAt pkgBase [R.PKG_REFCLK_OFFSET]) { s with pins := t.pins } t)) ∧
    (let lost := up ∧ (∃ x, s.pins.refBad = some x ∧ x.toNat + 100000 ≤ s.count.toNat) ∧ getF pkgBase R.PKG_INPUTS_REFCLK_SRC s = 0
     let back := (s.pkg = .standby ∨ s.pkg = .ready ∨ s.pkg = .sleep) ∧ (∃ x, s.pins.refGood = some x ∧ x.toNat + 100000000 ≤ s.count.toNat) ∧
       getF pkgBase R.PKG_INPUTS_REFCLK_SRC s = 1 ∧ effF pkgBase R.PKG_INPUT_CFG_REFCLK_RETURN R.PKG_INPUT_CFG_LEVEL s = 1
     (¬ lost → Runs .refclkSwitch s s) ∧
     (lost → ∃ t, Runs .refclkSwitch s t ∧ getF pkgBase R.PKG_INPUTS_REFCLK_SRC t = 1 ∧ Bumped pkgBase R.PKG_INPUT_ERR_REFCLK_LOSS s t ∧
       Logged 0 0x0A 1 s t ∧ OnlyRegs (regAt pkgBase [R.PKG_INPUTS_REFCLK_SRC, R.PKG_INPUT_ERR_REFCLK_LOSS]) s t) ∧
     (¬ back → Runs .refclkReturn s s) ∧
     (back → ∃ t, Runs .refclkReturn s t ∧ getF pkgBase R.PKG_INPUTS_REFCLK_SRC t = 0 ∧ Logged 0 0x0A 1 s t ∧
       OnlyRegs (regAt pkgBase [R.PKG_INPUTS_REFCLK_SRC]) s t)) ∧
    (∀ (off : BitVec 32) (v : Word), (¬ up → Runs (.sbWrite off v) s s ∧ Runs (.sbSetOffset off) s s) ∧
      (up → s.root.held = none → ∀ k n base r, csrPlace off.toNat = .reg k n base r → off.toNat % 4 = 0 → off.toNat < 0x30000 → storesOnly k r.off = true →
        ∃ t, Runs (.sbWrite off v) s t ∧ RegisterPut base r v s t ∧ { t with csr := s.csr } = s) ∧
      (up → 0x060000 ≤ off.toNat → s.root.held = none → ∃ t, Runs (.sbWrite off v) s t ∧ Bumped pkgBase R.PKG_CSR_ERR_COUNT s t ∧
        OnlyRegs (regAt pkgBase [R.PKG_CSR_ERR_COUNT]) s t) ∧
      (up → Runs (.sbSetOffset off) s { s with pins := { s.pins with sbOff := off.toNat, sbData := none } })) ∧
    ((¬ up → Runs .sbRead s s ∧ Runs .sbBusStuck s s) ∧
      (∀ v, up → s.pins.sbData = some v →
        Runs .sbRead s { s with pins := { s.pins with sbData := none }, out := s.out ++ [.sideband (natBytes v.toNat 4)] }) ∧
      (∀ n base r, up → s.pins.sbData = none → s.root.held = none → s.root.waiting = [] → csrPlace s.pins.sbOff = .reg .pkg n base r →
        s.pins.sbOff % 4 = 0 → freeBits .pkg n r.off s = none → ∃ t, Runs .sbRead s t ∧
          t.out = s.out ++ [.sideband (natBytes (csrRead .sideband s.pins.sbOff s).1 4)] ∧ RcCleared base r t ∧ t.pins = s.pins ∧ t.cores = s.cores ∧
          MemoriesKept s t) ∧
      (up → ∃ t, Runs .sbBusStuck s t ∧ t.pins = { s.pins with sbOff := 0, sbData := none } ∧ Bumped pkgBase R.PKG_INPUT_ERR_SB_TIMEOUT s t ∧
        Logged 0 0x0C 1 s t ∧ OnlyRegs (regAt pkgBase [R.PKG_INPUT_ERR_SB_TIMEOUT]) { s with pins := t.pins } t)) ∧
    (let smbus := up ∧ getF pkgBase R.PKG_INPUTS_SB_MODE s = 0
     let loud := fun (r : Rec) => getF evrBase R.EVR_CFG_IBI_SEV s ≤ r.sev
     let quiet := { s with log := { s.log with ibi := false } }
     (¬ smbus → Runs .sbReadEventSeq s s) ∧
     (∀ a r b, smbus → s.log.recs = a ++ r :: b → loud r → (∀ x ∈ b, ¬ loud x) →
       Runs .sbReadEventSeq s { quiet with out := s.out ++ [.sideband (natBytes r.seq.toNat 4)] }) ∧
     (smbus → (∀ x ∈ s.log.recs, ¬ loud x) → Runs .sbReadEventSeq s { quiet with out := s.out ++ [.sideband (natBytes 0 4)] })) ∧
    (∀ addr : BitVec 7, (¬ (i3cUp ∧ s.pins.sbAddr = none) → Runs (.entdaa addr) s s ∧ Runs (.setdasa addr) s s) ∧
      (i3cUp → s.pins.sbAddr = none → Runs (.setdasa addr) s { s with pins := { s.pins with sbAddr := some addr } } ∧
        ∃ t, Runs (.entdaa addr) s t ∧ Answered8 8 { s with pins := { s.pins with sbAddr := some addr } } t)) ∧
    (¬ i3cUp → Runs .getpid s s ∧ Runs .getbcr s s ∧ Runs .getdcr s s ∧ Runs .enec s s ∧ Runs .disec s s ∧ (∀ a, Runs (.rstact a) s s) ∧
      ∃ t, Runs .getstatus s t ∧ { t with fresh := s.fresh } = s) ∧
    (i3cUp → (∃ t, Runs .getpid s t ∧ Answered8 6 s t) ∧ (∃ t, Runs .getbcr s t ∧ Answered8 1 s t) ∧ (∃ t, Runs .getdcr s t ∧ Answered8 1 s t) ∧
      (∃ t, Runs .getstatus s t ∧ Answered8 2 { s with fresh := t.fresh } t) ∧
      Runs .enec s { s with log := { s.log with ibiEn := true } } ∧ Runs .disec s { s with log := { s.log with ibiEn := false } } ∧
      Runs (.rstact 1) s { s with pins := { s.pins with sbOff := 0, sbData := none } } ∧
      (∀ a : Byte, a ≠ 1 → (a ≠ 2 ∨ s.pkg = .off ∨ s.pkg = .standby) → Runs (.rstact a) s s) ∧
      (s.pkg ≠ .off → s.pkg ≠ .standby → ∃ t, Runs (.rstact 2) s t ∧ cmdBusy t = true ∧ cmdOp t = 0x13 ∧ t.cores = [] ∧ t.engines = [] ∧ t.depot = [] ∧
        t.pkg = s.pkg ∧ (cmdBusy s = true → Logged 0 0x04 1 s t) ∧ (cmdBusy s = false → Runs (.resetWarm .sideband) s t))) ∧
    (let loaded := fun (n a : Nat) (t : State) => t.pins = { s.pins with tap := n } ∧ getF pkgBase R.PKG_INPUTS_TAP_ACTIVE t = a
     let only := fun (t : State) => OnlyRegs (regAt pkgBase [R.PKG_INPUTS_TAP_ACTIVE]) { s with pins := t.pins, out := t.out, fresh := t.fresh } t
     (¬ up → Runs .tapBypass s s ∧ Runs .tapIdcode s s ∧ Runs .tapSamplePreload s s ∧ Runs .tapExtest s s) ∧
     (up → (∃ t, Runs .tapBypass s t ∧ loaded 1 0 t ∧ only t ∧ t.out = s.out) ∧
       (∃ t, Runs .tapIdcode s t ∧ loaded 0 0 t ∧ only t ∧ t.out = s.out ++ [.control "IDCODE" 0 [0x1940A96B]]) ∧
       (∃ t v, Runs .tapSamplePreload s t ∧ loaded 2 1 t ∧ only t ∧ t.out = s.out ++ [.control "BOUNDARY" 0 [v]]) ∧
       (s.pkg = .standby → ∃ t, Runs .tapExtest s t ∧ loaded 3 1 t ∧ only t ∧ t.out = s.out) ∧
       (s.pkg ≠ .standby → ∃ t, Runs .tapExtest s t ∧ loaded 1 0 t ∧ only t ∧ Logged 0 0x09 1 s t)) ∧
     (¬ (up ∧ 2 ≤ s.pins.tap) → Runs .tapIdleTimeout s s) ∧
     (up → 2 ≤ s.pins.tap → ∃ t, Runs .tapIdleTimeout s t ∧ loaded 0 0 t ∧ only t ∧ Logged 0 0x0D 0 s t)) ∧
    (∀ (path : Path) (bank : BitVec 2) (page : BitVec 16) (data : List Byte) (n : Word),
      (secReach path s = false → Runs (.secNonceGen path) s s ∧ Runs (.secFlashUnlock path bank) s s ∧ Runs (.flashPageWrite path page data) s s ∧
        Runs (.secCairnCompact path n) s s ∧ Runs (.secCairnSel path n) s s) ∧
      (secReach path s = true →
        (∃ t, Runs (.secNonceGen path) s t ∧ nonceNow t = Config.freeNonce t.fresh ∧ s.fresh < t.fresh ∧ t.sec.nonceUsed = false ∧
          { t with fresh := s.fresh, sec := { t.sec with nonceN := s.sec.nonceN, nonceUsed := s.sec.nonceUsed } } = s) ∧
        (∃ t, Runs (.secFlashUnlock path bank) s t ∧ (bank = 1 → t.sec.unlocked = some 0) ∧ (bank = 2 → t.sec.unlocked = some 1) ∧
          ((bank = 0 ∨ bank = 3) → t.sec.unlocked = none) ∧ s.fresh < t.fresh ∧
          { t with fresh := s.fresh, sec := { t.sec with unlocked := s.sec.unlocked, page := s.sec.page } } = s) ∧
        (s.sec.unlocked = none → Runs (.flashPageWrite path page data) s s) ∧
        (∀ b, s.sec.unlocked = some b →
          let runs := s.pkg ≠ .off ∧ getF secBase R.SEC_STATUS_BANK s = b
          let at_ := b * 2 ^ 25 + page.toNat * 4096
          (runs → ∃ t, Runs (.flashPageWrite path page data) s t ∧ Logged 0 0x08 1 s t ∧ OnlyLogged s t) ∧
          (¬ runs → 8192 ≤ page.toNat → Runs (.flashPageWrite path page data) s s) ∧
          (¬ runs → page.toNat < 8192 → ∃ t, Runs (.flashPageWrite path page data) s t ∧
            (∀ i x, i < 4096 → data[i]? = some x → memRead zeroByte t.sec.flash (at_ + i) = x) ∧
            (∀ y, ¬ (at_ ≤ y ∧ y < at_ + min 4096 data.length) → memRead zeroByte t.sec.flash y = memRead zeroByte s.sec.flash y) ∧
            { t with sec := { t.sec with flash := s.sec.flash } } = s)) ∧
        (let may := (s.pkg = .service ∧ ∃ ops, s.sec.ops = some ops ∧ bitAt ops 3 = true) ∧ n.toNat + 1024 < cairnCount s ∧ n.toNat < s.sec.cairn.length
         (¬ may → ∃ t, Runs (.secCairnCompact path n) s t ∧ Logged 0 0x08 1 s t ∧ OnlyLogged s t) ∧
         (may → n = 0 → Runs (.secCairnCompact path n) s s) ∧
         (may → n ≠ 0 → s.sec.cairn.length < cairnCap + n.toNat → ∃ t x, Runs (.secCairnCompact path n) s t ∧ t.sec.base = s.sec.base + n.toNat ∧
           t.sec.cairn = s.sec.cairn.drop n.toNat ++ [x] ∧ x.kind = 0xC ∧ x.args.head? = some n.toNat ∧ x.prev = cairnHead s)) ∧
        (let i := n.toNat + 2 ^ 32 * getF secBase R.SEC_CAIRN_SEL_HI_INDEX s
         ∃ t, Runs (.secCairnSel path n) s t ∧ getF secBase R.SEC_CAIRN_SEL_LO_INDEX t = n.toNat ∧ { t with csr := s.csr, sec := s.sec } = s ∧
           (i < s.sec.base → t.sec.win = none) ∧ (∀ e, s.sec.base ≤ i → s.sec.cairn[i - s.sec.base]? = some e → t.sec.win = some (i, e)) ∧
           (s.sec.base + s.sec.cairn.length ≤ i → t.sec.win = none) ∧ { t.sec with win := s.sec.win } = s.sec))) ∧
    (s.pkg = .off → Runs .dailyPeriod s s) ∧
    (s.pkg ≠ .off → ∃ t, Runs .dailyPeriod s t ∧ t.sec.saved = [] ∧ t.cores = s.cores ∧ t.engines = s.engines ∧ MemoriesKept s t ∧ t.pkg = s.pkg ∧
      (effF secBase R.SEC_CFG_HEALTH_EN R.SEC_CFG_LEVEL s ≠ 1 → t.sec.parts = s.sec.parts ∧
        (s.sec.cairn.length + 2 ≤ cairnCap → ∃ a b, t.sec.cairn = s.sec.cairn ++ [a, b] ∧ a.kind = 1 ∧ a.args = periodArgs s.sec.saved ∧ b.kind = 2)) ∧
      (effF secBase R.SEC_CFG_HEALTH_EN R.SEC_CFG_LEVEL s = 1 → ∀ k i, k < 8 → i < healthParts k → Scored k i s t))

end Statements
end

