-- ==== Sys2Proof/Laws/Hbm.lean ====
section
/-! SUPPORT. The laws of the address map of the linear window: every offset of its part in use names one byte of HBM of its own, and the bytes of a
granule of 512 stay together. -/

namespace Sys2Proof.Machine

theorem fold5_lt (x n : Nat) : fold5 x n < 32 := by
  induction n generalizing x with
  | zero => simp [fold5]
  | succ n ih => exact Nat.xor_lt_two_pow (n := 5) (Nat.mod_lt _ (by decide)) (ih _)

/-- The channel of a granule and the granules above it determine the granule. -/
theorem fold5_inj {a b n : Nat} (hi : a / 32 = b / 32) (h : fold5 a (n + 1) = fold5 b (n + 1)) : a = b := by
  unfold fold5 at h
  rw [hi] at h
  have : a % 32 = b % 32 := by
    have e := congrArg (· ^^^ fold5 (b / 32) n) h
    simpa [Nat.xor_assoc] using e
  omega

/-- The stack, the channel and the place in the channel can be read off a physical place. -/
theorem physOf_inj {a b c a' b' c' : Nat} (hb : b < 32) (hb' : b' < 32) (hc : c < 2 ^ 31) (hc' : c' < 2 ^ 31)
    (h : physOf a b c = physOf a' b' c') : a = a' ∧ b = b' ∧ c = c' := by
  unfold physOf at h; omega

theorem linearMap_inj {a b : Nat} (h : linearMap a = linearMap b) : a = b := by
  unfold linearMap at h
  obtain ⟨h1, h2, h3⟩ := physOf_inj (fold5_lt _ _) (fold5_lt _ _) (by omega) (by omega) h
  have := fold5_inj (a := a % 2 ^ 36 / 512) (b := b % 2 ^ 36 / 512) (n := 5) (by omega) h2
  omega

/-- The bytes of a granule stay together. -/
theorem linearMap_granule (a : Nat) : linearMap a = linearMap (512 * (a / 512)) + a % 512 ∧ linearMap (512 * (a / 512)) % 512 = 0 := by
  unfold linearMap physOf
  have h1 : 512 * (a / 512) / 2 ^ 36 = a / 2 ^ 36 := by omega
  have h2 : 512 * (a / 512) % 2 ^ 36 / 512 = a % 2 ^ 36 / 512 := by omega
  have h3 : 512 * (a / 512) % 512 = 0 := by omega
  simp only [h1, h2, h3]
  omega

/-- The first 16 GiB of the linear window are in use whatever the spread size. -/
theorem hbmOf_linear {o : Nat} (h : o < 2 ^ 34) (s : State) : hbmOf false o s = some (linearMap o) := by
  have hs : spreadGib s ≤ 48 := by
    have := Nat.min_le_left 12 (getF mempBase R.MEM_SPREAD_SIZE s)
    unfold spreadGib; omega
  generalize hg : spreadGib s = g at hs
  have h1 : o / 2 ^ 36 < 12 := by omega
  have h2 : o % 2 ^ 36 < (64 - g) * 2 ^ 30 := by omega
  unfold hbmOf
  rw [if_neg Bool.false_ne_true, hg, if_pos ⟨h1, h2⟩]

/-- The first 16 GiB of the linear window are in use whatever the spread size. -/
theorem target_linear {o : Nat} (h : o < 2 ^ 34) (s : State) : target o s = .hbm (linearMap o) := by
  have h1 : o < 2 ^ 44 := by omega
  unfold target
  rw [if_pos h1, hbmOf_linear h]

theorem target_linear_inj {o u : Nat} (ho : o < 2 ^ 34) (hu : u < 2 ^ 34) {s : State} (h : target o s = target u s) : o = u := by
  rw [target_linear ho, target_linear hu] at h
  exact linearMap_inj (Target.hbm.inj h)

/-- Aligned words apart in the window are apart in HBM. -/
theorem linearMap_apart {a b n m : Nat} (ha : a % 512 + n ≤ 512) (hb : b % 512 + m ≤ 512) (h : a + n ≤ b ∨ b + m ≤ a) :
    linearMap a + n ≤ linearMap b ∨ linearMap b + m ≤ linearMap a := by
  obtain ⟨a1, a2⟩ := linearMap_granule a
  obtain ⟨b1, b2⟩ := linearMap_granule b
  by_cases e : a / 512 = b / 512
  · rw [a1, b1, e]; omega
  · have : linearMap (512 * (a / 512)) ≠ linearMap (512 * (b / 512)) := fun h' => e (by have := linearMap_inj h'; omega)
    omega

end Sys2Proof.Machine
end

