-- ==== Sys2Proof/Laws/Memory.lean ====
section
/-! SUPPORT. The laws of the two containers: what a sparse map holds after an insertion or a removal, what a byte of memory reads after
a write, and that a write keeps the canonical form. -/

namespace Sys2Proof.Machine

/-! ### Sparse maps -/

theorem sRising_cons {α : Type} (b : Option Nat) (a : Nat) (x : α) (m : Store α) :
    sRising b ((a, x) :: m) = true ↔ (∀ k, b = some k → k < a) ∧ sRising (some a) m = true := by
  cases b with
  | none => simp [sRising]
  | some k => simp [sRising]

/-- An inserted entry is the new one or an old one. -/
theorem mem_sIns {α : Type} (k : Nat) (v : α) : ∀ (m : Store α) (e : Nat × α), e ∈ sIns k v m → e = (k, v) ∨ e ∈ m
  | [], e, h => by simpa [sIns] using h
  | (a, x) :: m, e, h => by
    unfold sIns at h
    split at h
    · simpa using h
    · split at h
      · rcases List.mem_cons.1 h with h | h
        · exact .inl h
        · exact .inr (List.mem_cons_of_mem _ h)
      · rcases List.mem_cons.1 h with h | h
        · exact .inr (by simp [h])
        · rcases mem_sIns k v m e h with h | h
          · exact .inl h
          · exact .inr (List.mem_cons_of_mem _ h)

/-- Removing a key adds no entry. -/
theorem mem_sDel {α : Type} (k : Nat) : ∀ (m : Store α) (e : Nat × α), e ∈ sDel k m → e ∈ m
  | [], _, h => by simp [sDel] at h
  | (a, x) :: m, e, h => by
    unfold sDel at h
    split at h
    · exact List.mem_cons_of_mem _ (mem_sDel k m e h)
    · rcases List.mem_cons.1 h with h | h
      · simp [h]
      · exact List.mem_cons_of_mem _ (mem_sDel k m e h)

/-- Insertion keeps the keys rising above a bound the new key is above. -/
theorem sRising_sIns {α : Type} (k : Nat) (v : α) : ∀ (b : Option Nat) (m : Store α), (∀ j, b = some j → j < k) → sRising b m = true →
    sRising b (sIns k v m) = true
  | b, [], hb, _ => by
    unfold sIns
    exact (sRising_cons _ _ _ _).2 ⟨hb, rfl⟩
  | b, (a, x) :: m, hb, h => by
    obtain ⟨ha, hm⟩ := (sRising_cons _ _ _ _).1 h
    unfold sIns
    split
    · exact (sRising_cons _ _ _ _).2 ⟨hb, (sRising_cons _ _ _ _).2 ⟨fun j hj => by cases hj; assumption, hm⟩⟩
    · split
      · next he => exact (sRising_cons _ _ _ _).2 ⟨hb, he ▸ hm⟩
      · exact (sRising_cons _ _ _ _).2 ⟨ha, sRising_sIns k v (some a) m (fun j hj => by cases hj; omega) hm⟩

/-- A bound below a lower bound holds too. -/
theorem sRising_weaken {α : Type} (b : Option Nat) (a : Nat) : ∀ (m : Store α), (∀ j, b = some j → j < a) → sRising (some a) m = true →
    sRising b m = true
  | [], _, _ => by cases b <;> rfl
  | (c, x) :: m, hb, h => by
    obtain ⟨hc, hm⟩ := (sRising_cons _ _ _ _).1 h
    exact (sRising_cons _ _ _ _).2 ⟨fun j hj => Nat.lt_trans (hb j hj) (hc a rfl), hm⟩

/-- Removal keeps the keys rising. -/
theorem sRising_sDel {α : Type} (k : Nat) : ∀ (b : Option Nat) (m : Store α), sRising b m = true → sRising b (sDel k m) = true
  | b, [], h => by simpa [sDel] using h
  | b, (a, x) :: m, h => by
    obtain ⟨ha, hm⟩ := (sRising_cons _ _ _ _).1 h
    unfold sDel
    split
    · exact sRising_weaken b a _ ha (sRising_sDel k (some a) m hm)
    · exact (sRising_cons _ _ _ _).2 ⟨ha, sRising_sDel k (some a) m hm⟩

theorem sGet_eq_sFind {α : Type} (d : α) (k : Nat) : ∀ (m : Store α), sGet d m k = (sFind m k).getD d
  | [] => rfl
  | (a, x) :: m => by
    unfold sGet sFind
    split
    · rfl
    · exact sGet_eq_sFind d k m

/-- What a key finds after an insertion: the new value at its key, the old one elsewhere. -/
@[simp] theorem sFind_sIns {α : Type} (k j : Nat) (v : α) : ∀ (m : Store α), sFind (sIns k v m) j = if j = k then some v else sFind m j
  | [] => by simp [sIns, sFind]
  | (a, x) :: m => by
    unfold sIns
    split
    · simp only [sFind]
    · split
      · next hk =>
        subst hk
        simp only [sFind]
        split <;> simp_all
      · simp only [sFind]
        split
        · rw [if_neg (by omega)]
        · exact sFind_sIns k j v m

/-- What a key finds after a removal: nothing at the key, the old value elsewhere. -/
@[simp] theorem sFind_sDel {α : Type} (k j : Nat) : ∀ (m : Store α), sFind (sDel k m) j = if j = k then none else sFind m j
  | [] => by simp [sDel, sFind]
  | (a, x) :: m => by
    unfold sDel
    split
    · next hk =>
      subst hk
      rw [sFind_sDel k j m]
      simp only [sFind]
      split <;> simp_all
    · simp only [sFind]
      split
      · rw [if_neg (by omega)]
      · exact sFind_sDel k j m

@[simp] theorem sGet_sIns {α : Type} (d : α) (k j : Nat) (v : α) (m : Store α) : sGet d (sIns k v m) j = if j = k then v else sGet d m j := by
  rw [sGet_eq_sFind, sFind_sIns, sGet_eq_sFind]
  split <;> rfl

/-- Reading back a canonical write. -/
@[simp] theorem sGet_sSet {α : Type} [DecidableEq α] (d : α) (k j : Nat) (v : α) (m : Store α) :
    sGet d (sSet d k v m) j = if j = k then v else sGet d m j := by
  unfold sSet
  split
  · next hv => rw [sGet_eq_sFind, sFind_sDel k j m, sGet_eq_sFind]; split <;> simp [hv]
  · exact sGet_sIns d k j v m

/-- A canonical write keeps the keys rising. -/
theorem sRising_sSet {α : Type} [DecidableEq α] (d : α) (k : Nat) (v : α) (m : Store α) (h : sRising none m = true) :
    sRising none (sSet d k v m) = true := by
  unfold sSet
  split
  · exact sRising_sDel k none m h
  · exact sRising_sIns k v none m (fun _ hj => by cases hj) h

/-! ### Byte memories -/

theorem Mem.wf_iff (bg : Nat → Byte) (m : Mem) : Mem.wf bg m = true ↔ sRising none m = true ∧ ∀ e ∈ m, e.2 ≠ bg e.1 := by
  simp [Mem.wf]

/-- A write of one byte keeps the canonical form. -/
theorem memWrite_wf (bg : Nat → Byte) (a : Nat) (b : Byte) (m : Mem) (h : Mem.wf bg m = true) : Mem.wf bg (memWrite bg a b m) = true := by
  obtain ⟨hr, hb⟩ := (Mem.wf_iff bg m).1 h
  unfold memWrite
  split
  · exact (Mem.wf_iff bg _).2 ⟨sRising_sDel a none m hr, fun e he => hb e (mem_sDel a m e he)⟩
  · next hne =>
    refine (Mem.wf_iff bg _).2 ⟨sRising_sIns a b none m (fun _ hj => by cases hj) hr, fun e he => ?_⟩
    rcases mem_sIns a b m e he with rfl | he
    · exact hne
    · exact hb e he

/-- A write of several bytes keeps the canonical form. -/
theorem memWriteN_wf (bg : Nat → Byte) : ∀ (n a v : Nat) (m : Mem), Mem.wf bg m = true → Mem.wf bg (memWriteN bg a v n m) = true
  | 0, _, _, _, h => h
  | n + 1, a, v, m, h => memWriteN_wf bg n (a + 1) (v / 256) _ (memWrite_wf bg a _ m h)

/-- A byte reads what was written to it, and every other byte reads as before. -/
@[simp] theorem memRead_memWrite (bg : Nat → Byte) (a j : Nat) (b : Byte) (m : Mem) :
    memRead bg (memWrite bg a b m) j = if j = a then b else memRead bg m j := by
  have hf : sFind (memWrite bg a b m) j = if j = a then (if b = bg a then none else some b) else sFind m j := by
    unfold memWrite
    split
    · exact sFind_sDel a j m
    · exact sFind_sIns a j b m
  unfold memRead
  rw [hf]
  by_cases hj : j = a
  · subst hj; by_cases hb : b = bg j <;> simp [hb]
  · simp [hj]

/-- A byte outside the bytes written reads as before. -/
theorem memRead_memWriteN_outside (bg : Nat → Byte) : ∀ (n a v j : Nat) (m : Mem), (j < a ∨ a + n ≤ j) →
    memRead bg (memWriteN bg a v n m) j = memRead bg m j
  | 0, _, _, _, _, _ => rfl
  | n + 1, a, v, j, m, hj => by
    unfold memWriteN
    rw [memRead_memWriteN_outside bg n (a + 1) (v / 256) j _ (by omega), memRead_memWrite bg a j _ m, if_neg (by omega)]

/-- A byte among those written reads its byte of the value. -/
theorem memRead_memWriteN_inside (bg : Nat → Byte) : ∀ (n a v i : Nat) (m : Mem), i < n →
    memRead bg (memWriteN bg a v n m) (a + i) = BitVec.ofNat 8 (v / 256 ^ i)
  | 0, _, _, _, _, hi => absurd hi (Nat.not_lt_zero _)
  | n + 1, a, v, 0, m, _ => by
    unfold memWriteN
    rw [memRead_memWriteN_outside bg n (a + 1) (v / 256) (a + 0) _ (by omega), memRead_memWrite bg a _ _ m]
    simp
  | n + 1, a, v, i + 1, m, hi => by
    unfold memWriteN
    have := memRead_memWriteN_inside bg n (a + 1) (v / 256) i (memWrite bg a (BitVec.ofNat 8 v) m) (by omega)
    rw [show a + (i + 1) = a + 1 + i by omega, this, Nat.div_div_eq_div_mul, Nat.pow_succ']

end Sys2Proof.Machine
end

