-- ==== Sys2Proof/Laws/Keep.lean ====
section
/-! SUPPORT. What every operation of the machine keeps: the queue of waiting commands, and the canonical form of the byte memories.
`Keeps q s` says that `s` holds the queue `q` and canonical memories; the files Keep1 to Keep5 prove it of every operation. -/

set_option linter.all false

namespace Sys2Proof.Machine

/-- The state holds the queue `q`, and its byte memories are in canonical form. -/
def Keeps (q : List Instr) (s : State) : Prop := MemOk s ∧ s.pending = q

/-- An outcome keeps queue and memories when it is no next state or a next state that does. -/
def OutKeeps (q : List Instr) : Host.Outcome State Fault Refusal → Prop
  | .next t => Keeps q t
  | _ => True

variable {q : List Instr}

/-- Keeping depends on the memories, the key's number, the flash, the saved images and the queue alone. -/
theorem keeps_same (s t : State) (h : Keeps q s) (h1 : t.hbm = s.hbm) (h2 : t.hbmBg = s.hbmBg) (h3 : t.tileSram = s.tileSram)
    (h4 : t.sec.flash = s.sec.flash) (h5 : t.ckp.saved = s.ckp.saved) (h6 : t.pending = s.pending) : Keeps q t := by
  have hb : hbmBgByte t = hbmBgByte s := by funext a; simp [hbmBgByte, h2]
  simpa [Keeps, MemOk, hb, h1, h3, h4, h5, h6] using h

theorem keeps_ite {c : Prop} [Decidable c] {a b : State} (ha : Keeps q a) (hb : Keeps q b) : Keeps q (if c then a else b) := by
  split <;> assumption

theorem keeps_foldl {α : Type} (f : State → α → State) (hf : ∀ s a, Keeps q s → Keeps q (f s a)) :
    ∀ (l : List α) (s : State), Keeps q s → Keeps q (l.foldl f s)
  | [], _, h => h
  | a :: l, s, h => keeps_foldl f hf l (f s a) (hf s a h)

theorem keeps_id {s : State} (h : Keeps q s) : Keeps q (id s) := h
theorem outKeeps_next {s : State} (h : Keeps q s) : OutKeeps q (.next s) := h
theorem outKeeps_fault {f : Fault} : OutKeeps q (.fault f) := trivial

/-- A record update that leaves the fields of `keeps_same` alone. -/
theorem keeps_mk (p : State) (x_fresh x_ran x_pkg x_prev x_cause x_rails x_count x_counting x_csr x_root x_log x_stepErr x_freezeF x_cores x_starts x_ramps x_engines x_poison
      x_depot x_depotCtl x_vregs x_masks x_chans x_rows x_spares x_fab x_links x_peers x_hal x_out x_dsps x_imgCore x_imgDsp x_slvs x_imgSlv x_upNs x_totals
      x_col x_imgCol x_launch x_ownAbort x_pwr x_sync x_dig x_pins) (x_sec : Sec) (x_ckp : Ckp)
    (h : Keeps q p) (h4 : x_sec.flash = p.sec.flash) (h5 : x_ckp.saved = p.ckp.saved) :
    Keeps q (State.mk p.pending x_fresh x_ran x_pkg x_prev x_cause x_rails x_count x_counting x_csr x_root x_log x_stepErr x_freezeF x_cores x_starts x_ramps x_engines
      p.hbm p.hbmBg x_poison x_depot x_depotCtl p.tileSram x_vregs x_masks x_chans x_rows x_spares x_fab x_links x_peers x_hal x_out x_dsps x_imgCore
      x_imgDsp x_slvs x_imgSlv x_sec x_upNs x_totals x_ckp x_col x_imgCol x_launch x_ownAbort x_pwr x_sync x_dig x_pins) :=
  keeps_same p _ h rfl rfl rfl h4 h5 rfl

/-- A record update that drops the saved images. -/
theorem keeps_mk0 (p : State) (x_fresh x_ran x_pkg x_prev x_cause x_rails x_count x_counting x_csr x_root x_log x_stepErr x_freezeF x_cores x_starts x_ramps x_engines x_poison
      x_depot x_depotCtl x_vregs x_masks x_chans x_rows x_spares x_fab x_links x_peers x_hal x_out x_dsps x_imgCore x_imgDsp x_slvs x_imgSlv x_upNs x_totals
      x_col x_imgCol x_launch x_ownAbort x_pwr x_sync x_dig x_pins) (x_sec : Sec) (x_ckp : Ckp)
    (h : Keeps q p) (h4 : x_sec.flash = p.sec.flash) (h5 : x_ckp.saved = []) :
    Keeps q (State.mk p.pending x_fresh x_ran x_pkg x_prev x_cause x_rails x_count x_counting x_csr x_root x_log x_stepErr x_freezeF x_cores x_starts x_ramps x_engines
      p.hbm p.hbmBg x_poison x_depot x_depotCtl p.tileSram x_vregs x_masks x_chans x_rows x_spares x_fab x_links x_peers x_hal x_out x_dsps x_imgCore
      x_imgDsp x_slvs x_imgSlv x_sec x_upNs x_totals x_ckp x_col x_imgCol x_launch x_ownAbort x_pwr x_sync x_dig x_pins) :=
  have hb : Keeps q { p with sec := x_sec, ckp := x_ckp } :=
    ⟨⟨h.1.1, h.1.2.1, by rw [h4]; exact h.1.2.2.1, by rw [h5]; exact fun _ he => absurd he List.not_mem_nil⟩, h.2⟩
  keeps_same _ _ hb rfl rfl rfl rfl rfl rfl

/-- A control image with a canonical tile memory joins the saved ones. -/
theorem keeps_saved (s : State) (k : Nat) (img : CtrlImage) (h : Keeps q s) (hi : Mem.wf zeroByte img.tileSram = true) :
    Keeps q { s with ckp := { s.ckp with saved := sIns k img s.ckp.saved } } :=
  ⟨⟨h.1.1, h.1.2.1, h.1.2.2.1, fun e he => by
    rcases mem_sIns k img _ e he with he | he
    · rw [he]; exact hi
    · exact h.1.2.2.2 e he⟩, h.2⟩

/-- The control image a cut takes has a canonical tile memory. -/
theorem keeps_ctrlTake (cut : Nat) (s : State) (h : Keeps q s) : Mem.wf zeroByte (ctrlTake cut s).tileSram = true := h.1.2.1

end Sys2Proof.Machine
end

