-- ==== Sys2Proof/Laws/Keep1.lean ====
section
/-! SUPPORT. Each operation of the machine keeps the queue and the canonical form of the byte memories: one lemma per operation
of Ops, Operands, Scalar, Link, Depot, Reduce, Home, Mesg, LoadStore, Atomic, Summary, Wait, EngOps, Matrix. -/

set_option linter.all false

namespace Sys2Proof.Machine

variable {qs : List Instr}

theorem csrSet_keeps (d : Nat) (off : Nat) (v : Word) (s : State) (hmem : Keeps qs s) : Keeps qs (csrSet d off v s) := by
  unfold csrSet
  try dsimp only
  repeat' first
    | intro _ | with_reducible assumption | fail_if_no_progress (with_reducible refine keeps_mk (h := ?_) (h4 := rfl) (h5 := rfl) ..)
    | with_reducible rfl | dsimp only
theorem setF_keeps (base : Nat) (f : Fld) (v : Nat) (s : State) (hmem : Keeps qs s) : Keeps qs (setF base f v s) := by
  unfold setF
  try dsimp only
  repeat' first
    | intro _ | with_reducible assumption | with_reducible apply csrSet_keeps | dsimp only
theorem tally_keeps (k n : Nat) (s : State) (hmem : Keeps qs s) : Keeps qs (tally k n s) := by
  unfold tally
  try dsimp only
  repeat' first
    | intro _ | with_reducible assumption | fail_if_no_progress (with_reducible refine keeps_mk (h := ?_) (h4 := rfl) (h5 := rfl) ..)
    | with_reducible rfl | dsimp only
theorem bumpF_keeps (base : Nat) (f : Fld) (n : Nat) (s : State) (hmem : Keeps qs s) : Keeps qs (bumpF base f n s) := by
  unfold bumpF
  try dsimp only
  repeat' first
    | intro _ | with_reducible assumption | with_reducible apply tally_keeps | with_reducible apply setF_keeps | dsimp only
theorem setPair_keeps (base : Nat) (lo hi : Fld) (v : Nat) (s : State) (hmem : Keeps qs s) : Keeps qs (setPair base lo hi v s) := by
  unfold setPair
  try dsimp only
  repeat' first
    | intro _ | with_reducible assumption | with_reducible apply setF_keeps | dsimp only
theorem addPair_keeps (base : Nat) (lo hi : Fld) (n : Nat) (s : State) (hmem : Keeps qs s) : Keeps qs (addPair base lo hi n s) := by
  unfold addPair
  try dsimp only
  repeat' first
    | intro _ | with_reducible assumption | with_reducible apply setPair_keeps | dsimp only
theorem capture_keeps (base : Nat) (valid : Fld) (put : State → State) (s : State) (hput : ∀ t, Keeps qs t → Keeps qs (put t)) (hmem : Keeps qs s) : Keeps qs (capture base valid put s) := by
  unfold capture
  try dsimp only
  repeat' first
    | intro _ | with_reducible assumption | with_reducible apply setF_keeps | with_reducible apply hput | with_reducible apply keeps_ite | split
    | dsimp only
theorem setCore_keeps (c : Nat) (k : Core) (s : State) (hmem : Keeps qs s) : Keeps qs (setCore c k s) := by
  unfold setCore
  try dsimp only
  repeat' first
    | intro _ | with_reducible assumption | fail_if_no_progress (with_reducible refine keeps_mk (h := ?_) (h4 := rfl) (h5 := rfl) ..)
    | with_reducible rfl | dsimp only
theorem setEng_keeps (k : Nat) (e : Engine) (s : State) (hmem : Keeps qs s) : Keeps qs (setEng k e s) := by
  unfold setEng
  try dsimp only
  repeat' first
    | intro _ | with_reducible assumption | fail_if_no_progress (with_reducible refine keeps_mk (h := ?_) (h4 := rfl) (h5 := rfl) ..)
    | with_reducible rfl | dsimp only
theorem ranAdd_keeps (k : Nat) (s : State) (hmem : Keeps qs s) : Keeps qs (ranAdd k s) := by
  unfold ranAdd
  try dsimp only
  repeat' first
    | intro _ | with_reducible assumption | with_reducible apply keeps_ite
    | fail_if_no_progress (with_reducible refine keeps_mk (h := ?_) (h4 := rfl) (h5 := rfl) ..) | with_reducible rfl | split | dsimp only
theorem drawFresh_keeps (s : State) (hmem : Keeps qs s) : Keeps qs (drawFresh s).2 := by
  unfold drawFresh
  try dsimp only
  repeat' first
    | intro _ | with_reducible assumption | fail_if_no_progress (with_reducible refine keeps_mk (h := ?_) (h4 := rfl) (h5 := rfl) ..)
    | with_reducible rfl | dsimp only
theorem dropEvent_keeps (src sev : Nat) (s : State) (hmem : Keeps qs s) : Keeps qs (dropEvent src sev s) := by
  unfold dropEvent
  try dsimp only
  repeat' first
    | intro _ | with_reducible assumption | with_reducible apply bumpF_keeps
    | fail_if_no_progress (with_reducible refine keeps_mk (h := ?_) (h4 := rfl) (h5 := rfl) ..) | with_reducible rfl | dsimp only
theorem raise_keeps (src code sev arg0 arg1 : Nat) (s : State) (hmem : Keeps qs s) : Keeps qs (raise src code sev arg0 arg1 s) := by
  unfold raise
  try dsimp only
  repeat' first
    | intro _ | with_reducible assumption | with_reducible apply dropEvent_keeps | with_reducible apply keeps_ite
    | fail_if_no_progress (with_reducible refine keeps_mk (h := ?_) (h4 := rfl) (h5 := rfl) ..) | with_reducible rfl | split | dsimp only
theorem setPkg_keeps (p : PkgSt) (s : State) (hmem : Keeps qs s) : Keeps qs (setPkg p s) := by
  unfold setPkg
  try dsimp only
  repeat' first
    | intro _ | with_reducible assumption | with_reducible apply raise_keeps | with_reducible apply keeps_ite
    | fail_if_no_progress (with_reducible refine keeps_mk (h := ?_) (h4 := rfl) (h5 := rfl) ..) | with_reducible rfl | split | dsimp only
theorem rejectWrite_keeps (path : Path) (off : Nat) (data : Nat) (s : State) (hmem : Keeps qs s) : Keeps qs (rejectWrite path off data s) := by
  unfold rejectWrite
  try dsimp only
  repeat' first
    | intro _ | with_reducible assumption | with_reducible apply raise_keeps | dsimp only
theorem setChan_keeps (st c : Nat) (x : Chan) (s : State) (hmem : Keeps qs s) : Keeps qs (setChan st c x s) := by
  unfold setChan
  try dsimp only
  repeat' first
    | intro _ | with_reducible assumption | fail_if_no_progress (with_reducible refine keeps_mk (h := ?_) (h4 := rfl) (h5 := rfl) ..)
    | with_reducible rfl | dsimp only
theorem poisonAdd_keeps (pl : Nat) (s : State) (hmem : Keeps qs s) : Keeps qs (poisonAdd pl s) := by
  unfold poisonAdd
  try dsimp only
  repeat' first
    | intro _ | with_reducible assumption | with_reducible apply keeps_ite
    | fail_if_no_progress (with_reducible refine keeps_mk (h := ?_) (h4 := rfl) (h5 := rfl) ..) | with_reducible rfl | split | dsimp only
theorem poisonDel_keeps (pl : Nat) (s : State) (hmem : Keeps qs s) : Keeps qs (poisonDel pl s) := by
  unfold poisonDel
  try dsimp only
  repeat' first
    | intro _ | with_reducible assumption | with_reducible apply keeps_ite
    | fail_if_no_progress (with_reducible refine keeps_mk (h := ?_) (h4 := rfl) (h5 := rfl) ..) | with_reducible rfl | split | dsimp only
theorem hbmWrite_keeps (phys n v : Nat) (s : State) (h : Keeps qs s) : Keeps qs (hbmWrite phys n v s) := by
  have hw : Keeps qs { s with hbm := memWriteN (hbmBgByte s) phys v n s.hbm } := by
    obtain ⟨⟨h1, h2, h3, h4⟩, hq⟩ := h
    exact ⟨⟨memWriteN_wf _ n phys v _ h1, h2, h3, h4⟩, hq⟩
  unfold hbmWrite
  split
  · exact h
  · dsimp only
    split
    · exact poisonDel_keeps _ _ hw
    · exact hw
theorem coreFault_keeps (c code : Nat) (pc : BitVec 48) (addr kind tile cause : Nat) (s : State) (hmem : Keeps qs s) : Keeps qs (coreFault c code pc addr kind tile cause s) := by
  unfold coreFault
  try dsimp only
  repeat' first
    | intro _ | with_reducible assumption | with_reducible apply setF_keeps | with_reducible apply setPair_keeps | with_reducible apply raise_keeps
    | with_reducible apply setCore_keeps | fail_if_no_progress (with_reducible refine keeps_mk (h := ?_) (h4 := rfl) (h5 := rfl) ..)
    | with_reducible rfl | dsimp only
theorem faultHere_keeps (c code addr : Nat) (s : State) (hmem : Keeps qs s) : Keeps qs (faultHere c code addr s) := by
  unfold faultHere
  try dsimp only
  repeat' first
    | intro _ | with_reducible assumption | with_reducible apply coreFault_keeps | dsimp only
theorem retireAt_keeps (c : Nat) (pc : BitVec 48) (k : Core) (s : State) (hmem : Keeps qs s) : Keeps qs (retireAt c pc k s) := by
  unfold retireAt
  try dsimp only
  repeat' first
    | intro _ | with_reducible assumption | with_reducible apply setPair_keeps | with_reducible apply setCore_keeps | with_reducible apply keeps_ite
    | fail_if_no_progress (with_reducible refine keeps_mk (h := ?_) (h4 := rfl) (h5 := rfl) ..) | with_reducible rfl | split | dsimp only
theorem retire_keeps (c : Nat) (k : Core) (s : State) (hmem : Keeps qs s) : Keeps qs (retire c k s) := by
  unfold retire
  try dsimp only
  repeat' first
    | intro _ | with_reducible assumption | with_reducible apply retireAt_keeps | dsimp only
theorem insn_keeps (c : Nat) (word : Nat) (legal : Bool) (body : Core → State → State) (s : State) (hbody : ∀ z0 t, Keeps qs t → Keeps qs (body z0 t)) (hmem : Keeps qs s) : Keeps qs (insn c word legal body s) := by
  unfold insn
  try dsimp only
  repeat' first
    | intro _ | with_reducible assumption | with_reducible apply faultHere_keeps | with_reducible apply hbody | with_reducible apply keeps_ite
    | fail_if_no_progress (with_reducible refine keeps_mk (h := ?_) (h4 := rfl) (h5 := rfl) ..) | with_reducible rfl | split | dsimp only
theorem deliverTrap_keeps (c tile : Nat) (x : EngIns) (k : Core) (s : State) (hmem : Keeps qs s) : Keeps qs (deliverTrap c tile x k s) := by
  unfold deliverTrap
  try dsimp only
  repeat' first
    | intro _ | with_reducible assumption | with_reducible apply faultHere_keeps | with_reducible apply setPair_keeps
    | with_reducible apply setF_keeps | with_reducible apply setEng_keeps | with_reducible apply setCore_keeps | with_reducible apply keeps_ite
    | fail_if_no_progress (with_reducible refine keeps_mk (h := ?_) (h4 := rfl) (h5 := rfl) ..) | with_reducible rfl | split | dsimp only
theorem orTrap_keeps (c : Nat) (sel : EngIns → Bool) (body : Core → State → State) (k : Core) (s : State) (hbody : ∀ z0 t, Keeps qs t → Keeps qs (body z0 t)) (hmem : Keeps qs s) : Keeps qs (orTrap c sel body k s) := by
  unfold orTrap
  try dsimp only
  repeat' first
    | intro _ | with_reducible assumption | with_reducible apply deliverTrap_keeps | with_reducible apply hbody | with_reducible apply keeps_ite
    | fail_if_no_progress (with_reducible refine keeps_mk (h := ?_) (h4 := rfl) (h5 := rfl) ..) | with_reducible rfl | split | dsimp only
theorem withSummary_keeps (c r : Nat) (body : Core → State → State) (k : Core) (s : State) (hbody : ∀ z0 t, Keeps qs t → Keeps qs (body z0 t)) (hmem : Keeps qs s) : Keeps qs (withSummary c r body k s) := by
  unfold withSummary
  try dsimp only
  repeat' first
    | intro _ | with_reducible assumption | with_reducible apply orTrap_keeps | with_reducible apply hbody | with_reducible apply keeps_ite | split
    | dsimp only
theorem alu_keeps (op : Nat) (unary : Bool) (f : Core → DWord) (c : Fin 44) (w : BitVec 22) (s : State) (hmem : Keeps qs s) : Keeps qs (alu op unary f c w s) := by
  unfold alu
  try dsimp only
  repeat' first
    | intro _ | with_reducible assumption | with_reducible apply insn_keeps | with_reducible apply retire_keeps | dsimp only
theorem aluImm_keeps (op : Nat) (f : Core → DWord) (c : Fin 44) (w : BitVec 22) (s : State) (hmem : Keeps qs s) : Keeps qs (aluImm op f c w s) := by
  unfold aluImm
  try dsimp only
  repeat' first
    | intro _ | with_reducible assumption | with_reducible apply insn_keeps | with_reducible apply retire_keeps | dsimp only
theorem constant_keeps (op : Nat) (keep : Bool) (c : Fin 44) (hw : BitVec 2) (w : BitVec 22) (s : State) (hmem : Keeps qs s) : Keeps qs (constant op keep c hw w s) := by
  unfold constant
  try dsimp only
  repeat' first
    | intro _ | with_reducible assumption | with_reducible apply insn_keeps | with_reducible apply retire_keeps | with_reducible apply keeps_ite
    | split | dsimp only
theorem branch_keeps (op : Nat) (taken : DWord → DWord → Bool) (c : Fin 44) (w : BitVec 22) (s : State) (hmem : Keeps qs s) : Keeps qs (branch op taken c w s) := by
  unfold branch
  try dsimp only
  repeat' first
    | intro _ | with_reducible assumption | with_reducible apply insn_keeps | with_reducible apply retireAt_keeps | with_reducible apply keeps_ite
    | split | dsimp only
theorem emit_keeps (o : OutMsg) (s : State) (hmem : Keeps qs s) : Keeps qs (emit o s) := by
  unfold emit
  try dsimp only
  repeat' first
    | intro _ | with_reducible assumption | fail_if_no_progress (with_reducible refine keeps_mk (h := ?_) (h4 := rfl) (h5 := rfl) ..)
    | with_reducible rfl | dsimp only
theorem setLink_keeps (p : Nat) (x : Link) (s : State) (hmem : Keeps qs s) : Keeps qs (setLink p x s) := by
  unfold setLink
  try dsimp only
  repeat' first
    | intro _ | with_reducible assumption | fail_if_no_progress (with_reducible refine keeps_mk (h := ?_) (h4 := rfl) (h5 := rfl) ..)
    | with_reducible rfl | dsimp only
theorem linkPut_keeps (p : Nat) (b : LinkMsg) (s : State) (hmem : Keeps qs s) : Keeps qs (linkPut p b s) := by
  unfold linkPut
  try dsimp only
  repeat' first
    | intro _ | with_reducible assumption | with_reducible apply emit_keeps | with_reducible apply setLink_keeps | with_reducible apply keeps_ite
    | fail_if_no_progress (with_reducible refine keeps_mk (h := ?_) (h4 := rfl) (h5 := rfl) ..) | with_reducible rfl | split | dsimp only
theorem linkFlush_keeps (p : Nat) (s : State) (hmem : Keeps qs s) : Keeps qs (linkFlush p s) := by
  unfold linkFlush
  try dsimp only
  repeat' first
    | intro _ | with_reducible assumption | with_reducible apply linkPut_keeps | with_reducible apply setLink_keeps | with_reducible apply keeps_foldl
    | fail_if_no_progress (with_reducible refine keeps_mk (h := ?_) (h4 := rfl) (h5 := rfl) ..) | with_reducible rfl | dsimp only
theorem sendIdle_keeps (p : Nat) (s : State) (hmem : Keeps qs s) : Keeps qs (sendIdle p s) := by
  unfold sendIdle
  try dsimp only
  repeat' first
    | intro _ | with_reducible assumption | with_reducible apply setLink_keeps | dsimp only
theorem portSend_keeps (p : Nat) (m : Msg) (s : State) (hmem : Keeps qs s) : Keeps qs (portSend p m s) := by
  unfold portSend
  try dsimp only
  repeat' first
    | intro _ | with_reducible assumption | with_reducible apply linkPut_keeps | with_reducible apply addPair_keeps | dsimp only
theorem halPut_keeps (m : HalMsg) (s : State) (hmem : Keeps qs s) : Keeps qs (halPut m s) := by
  unfold halPut
  try dsimp only
  repeat' first
    | intro _ | with_reducible assumption | with_reducible apply linkPut_keeps | dsimp only
theorem halSend_keeps (opc vc len : Nat) (txid : BitVec 16) (line : BitVec 41) (pmask : Nat) (lines : List Line) (s : State) (hmem : Keeps qs s) : Keeps qs (halSend opc vc len txid line pmask lines s) := by
  unfold halSend
  try dsimp only
  repeat' first
    | intro _ | with_reducible assumption | with_reducible apply halPut_keeps | dsimp only
theorem halAsk_keeps (opc vc len : Nat) (line pmask : Nat) (lines : List Line) (s : State) (hmem : Keeps qs s) : Keeps qs (halAsk opc vc len line pmask lines s) := by
  unfold halAsk
  try dsimp only
  repeat' first
    | intro _ | with_reducible assumption | with_reducible apply halSend_keeps
    | fail_if_no_progress (with_reducible refine keeps_mk (h := ?_) (h4 := rfl) (h5 := rfl) ..) | with_reducible rfl | dsimp only
theorem setDir_keeps (pl : Nat) (d : DirSt) (s : State) (hmem : Keeps qs s) : Keeps qs (setDir pl d s) := by
  unfold setDir
  try dsimp only
  repeat' first
    | intro _ | with_reducible assumption | fail_if_no_progress (with_reducible refine keeps_mk (h := ?_) (h4 := rfl) (h5 := rfl) ..)
    | with_reducible rfl | dsimp only
theorem delDir_keeps (pl : Nat) (s : State) (hmem : Keeps qs s) : Keeps qs (delDir pl s) := by
  unfold delDir
  try dsimp only
  repeat' first
    | intro _ | with_reducible assumption | fail_if_no_progress (with_reducible refine keeps_mk (h := ?_) (h4 := rfl) (h5 := rfl) ..)
    | with_reducible rfl | dsimp only
theorem snoop_keeps (inv : Bool) (pl : Nat) (s : State) (hmem : Keeps qs s) : Keeps qs (snoop inv pl s) := by
  unfold snoop
  try dsimp only
  repeat' first
    | intro _ | with_reducible assumption | with_reducible apply addPair_keeps | with_reducible apply halAsk_keeps | with_reducible apply keeps_ite
    | fail_if_no_progress (with_reducible refine keeps_mk (h := ?_) (h4 := rfl) (h5 := rfl) ..) | with_reducible rfl | split | dsimp only
theorem recallLine_keeps (inv : Bool) (pl : Nat) (s : State) (hmem : Keeps qs s) : Keeps qs (recallLine inv pl s) := by
  unfold recallLine
  try dsimp only
  repeat' first
    | intro _ | with_reducible assumption | with_reducible apply snoop_keeps | with_reducible apply keeps_ite
    | fail_if_no_progress (with_reducible refine keeps_mk (h := ?_) (h4 := rfl) (h5 := rfl) ..) | with_reducible rfl | split | dsimp only
theorem writeBack_keeps (pl : Nat) (d : DepotLine) (s : State) (hmem : Keeps qs s) : Keeps qs (writeBack pl d s) := by
  unfold writeBack
  try dsimp only
  repeat' first
    | intro _ | with_reducible assumption | with_reducible apply halAsk_keeps | with_reducible apply hbmWrite_keeps
    | with_reducible apply poisonAdd_keeps | with_reducible apply keeps_ite
    | fail_if_no_progress (with_reducible refine keeps_mk (h := ?_) (h4 := rfl) (h5 := rfl) ..) | with_reducible rfl | split | dsimp only
theorem depotGiveUp_keeps (d : Fin 4) (pl : Nat) (x : DepotLine) (s : State) (hmem : Keeps qs s) : Keeps qs (depotGiveUp d pl x s) := by
  unfold depotGiveUp
  try dsimp only
  repeat' first
    | intro _ | with_reducible assumption | with_reducible apply writeBack_keeps
    | fail_if_no_progress (with_reducible refine keeps_mk (h := ?_) (h4 := rfl) (h5 := rfl) ..) | with_reducible rfl | split | dsimp only
theorem depotRoom_keeps (d : Fin 4) (pl : Nat) (s : State) (hmem : Keeps qs s) : Keeps qs (depotRoom d pl s) := by
  unfold depotRoom
  try dsimp only
  repeat' first
    | intro _ | with_reducible assumption | with_reducible apply depotGiveUp_keeps | with_reducible apply keeps_ite
    | fail_if_no_progress (with_reducible refine keeps_mk (h := ?_) (h4 := rfl) (h5 := rfl) ..) | with_reducible rfl | split | dsimp only
theorem recallAll_keeps (pl : Nat) (s : State) (hmem : Keeps qs s) : Keeps qs (recallAll pl s) := by
  unfold recallAll
  try dsimp only
  repeat' first
    | intro _ | with_reducible assumption | with_reducible apply depotGiveUp_keeps | with_reducible apply recallLine_keeps
    | with_reducible apply keeps_ite | with_reducible apply keeps_foldl
    | fail_if_no_progress (with_reducible refine keeps_mk (h := ?_) (h4 := rfl) (h5 := rfl) ..) | with_reducible rfl | split | dsimp only
theorem dirRoom_keeps (pl : Nat) (s : State) (hmem : Keeps qs s) : Keeps qs (dirRoom pl s) := by
  unfold dirRoom
  try dsimp only
  repeat' first
    | intro _ | with_reducible assumption | with_reducible apply recallAll_keeps | with_reducible apply addPair_keeps | with_reducible apply keeps_ite
    | fail_if_no_progress (with_reducible refine keeps_mk (h := ?_) (h4 := rfl) (h5 := rfl) ..) | with_reducible rfl | split | dsimp only
theorem depotPut_keeps (d : Fin 4) (pl : Nat) (x : DepotLine) (s : State) (hmem : Keeps qs s) : Keeps qs (depotPut d pl x s) := by
  unfold depotPut
  try dsimp only
  repeat' first
    | intro _ | with_reducible assumption | with_reducible apply dirRoom_keeps | with_reducible apply depotRoom_keeps | with_reducible apply keeps_ite
    | fail_if_no_progress (with_reducible refine keeps_mk (h := ?_) (h4 := rfl) (h5 := rfl) ..) | with_reducible rfl | split | dsimp only
theorem lineWrite_keeps (alloc : Option (Fin 4)) (phys n v : Nat) (s : State) (hmem : Keeps qs s) : Keeps qs (lineWrite alloc phys n v s) := by
  unfold lineWrite
  try dsimp only
  repeat' first
    | intro _ | with_reducible assumption | with_reducible apply depotPut_keeps | with_reducible apply hbmWrite_keeps | with_reducible apply keeps_ite
    | fail_if_no_progress (with_reducible refine keeps_mk (h := ?_) (h4 := rfl) (h5 := rfl) ..) | with_reducible rfl | split | dsimp only
theorem depotClean_keeps (pl : Nat) (s : State) (hmem : Keeps qs s) : Keeps qs (depotClean pl s) := by
  unfold depotClean
  try dsimp only
  repeat' first
    | intro _ | with_reducible assumption | with_reducible apply writeBack_keeps | with_reducible apply keeps_ite
    | fail_if_no_progress (with_reducible refine keeps_mk (h := ?_) (h4 := rfl) (h5 := rfl) ..) | with_reducible rfl | split | dsimp only
theorem depotFill_keeps (d : Fin 4) (pl : Nat) (s : State) (hmem : Keeps qs s) : Keeps qs (depotFill d pl s) := by
  unfold depotFill
  try dsimp only
  repeat' first
    | intro _ | with_reducible assumption | with_reducible apply depotClean_keeps | with_reducible apply depotPut_keeps
    | with_reducible apply keeps_ite | fail_if_no_progress (with_reducible refine keeps_mk (h := ?_) (h4 := rfl) (h5 := rfl) ..) | with_reducible rfl
    | split | dsimp only
theorem depotDrop_keeps (pl : Nat) (s : State) (hmem : Keeps qs s) : Keeps qs (depotDrop pl s) := by
  unfold depotDrop
  try dsimp only
  repeat' first
    | intro _ | with_reducible assumption | with_reducible apply writeBack_keeps
    | fail_if_no_progress (with_reducible refine keeps_mk (h := ?_) (h4 := rfl) (h5 := rfl) ..) | with_reducible rfl | split | dsimp only
theorem poisonLine_keeps (pl : Nat) (s : State) (hmem : Keeps qs s) : Keeps qs (poisonLine pl s) := by
  unfold poisonLine
  try dsimp only
  repeat' first
    | intro _ | with_reducible assumption | with_reducible apply poisonAdd_keeps
    | fail_if_no_progress (with_reducible refine keeps_mk (h := ?_) (h4 := rfl) (h5 := rfl) ..) | with_reducible rfl | split | dsimp only
theorem flushGo_keeps (sel : Fin 4 → Bool) (inval : Bool) : ∀ (l k : Store DepotLine) (s : State), Keeps qs s → Keeps qs (flushGo sel inval l k s)
  | [], _, s, h => by unfold flushGo; exact keeps_same s _ h rfl rfl rfl rfl rfl rfl
  | (pl, d) :: m, k, s, h => by
    unfold flushGo
    repeat' first
      | intro _ | with_reducible assumption | with_reducible apply flushGo_keeps | with_reducible apply writeBack_keeps
      | with_reducible apply keeps_ite | with_reducible apply keeps_foldl
      | fail_if_no_progress (with_reducible refine keeps_mk (h := ?_) (h4 := rfl) (h5 := rfl) ..) | with_reducible rfl | split | dsimp only
theorem flush_keeps (sel : Fin 4 → Bool) (inval : Bool) (s : State) (hmem : Keeps qs s) : Keeps qs (flush sel inval s) := by
  unfold flush
  try dsimp only
  repeat' first
    | intro _ | with_reducible assumption | with_reducible apply flushGo_keeps | dsimp only
theorem tileWriteN_keeps (p a n v : Nat) (s : State) (h : Keeps qs s) : Keeps qs (tileWriteN p a n v s) := by
  obtain ⟨⟨h1, h2, h3, h4⟩, hq⟩ := h
  exact ⟨⟨h1, memWriteN_wf _ n _ v _ h2, h3, h4⟩, hq⟩
theorem tilePut_keeps (p a n v : Nat) (poison : Bool) (s : State) (hmem : Keeps qs s) : Keeps qs (tilePut p a n v poison s) := by
  unfold tilePut
  try dsimp only
  repeat' first
    | intro _ | with_reducible assumption | with_reducible apply tileWriteN_keeps | with_reducible apply poisonAdd_keeps
    | with_reducible apply keeps_ite | fail_if_no_progress (with_reducible refine keeps_mk (h := ?_) (h4 := rfl) (h5 := rfl) ..) | with_reducible rfl
    | split | dsimp only
theorem tileWriteRow_keeps (p a n v : Nat) (s : State) (h : Keeps qs s) : Keeps qs (tileWriteRow p a n v s) := by
  obtain ⟨⟨h1, h2, h3, h4⟩, hq⟩ := h
  exact ⟨⟨h1, memWriteN_wf _ n _ v _ h2, h3, h4⟩, hq⟩
theorem ctlWrite_keeps (d a n v : Nat) (s : State) (hmem : Keeps qs s) : Keeps qs (ctlWrite d a n v s) := by
  unfold ctlWrite
  try dsimp only
  repeat' first
    | intro _ | with_reducible assumption | with_reducible apply keeps_foldl
    | fail_if_no_progress (with_reducible refine keeps_mk (h := ?_) (h4 := rfl) (h5 := rfl) ..) | with_reducible rfl | dsimp only
theorem reduceLine_keeps (op pl data : Nat) (poison : Bool) (s : State) (hmem : Keeps qs s) : Keeps qs (reduceLine op pl data poison s) := by
  unfold reduceLine
  try dsimp only
  repeat' first
    | intro _ | with_reducible assumption | with_reducible apply addPair_keeps | with_reducible apply lineWrite_keeps
    | with_reducible apply poisonLine_keeps | with_reducible apply keeps_ite | split | dsimp only
theorem homeWait_keeps (r : HomeReq) (s : State) (hmem : Keeps qs s) : Keeps qs (homeWait r s) := by
  unfold homeWait
  try dsimp only
  repeat' first
    | intro _ | with_reducible assumption | fail_if_no_progress (with_reducible refine keeps_mk (h := ?_) (h4 := rfl) (h5 := rfl) ..)
    | with_reducible rfl | dsimp only
theorem writeDo_keeps (w : HeldWrite) (s : State) (hmem : Keeps qs s) : Keeps qs (writeDo w s) := by
  unfold writeDo
  try dsimp only
  repeat' first
    | intro _ | with_reducible assumption | with_reducible apply lineWrite_keeps | with_reducible apply poisonLine_keeps
    | with_reducible apply reduceLine_keeps | with_reducible apply keeps_ite | split | dsimp only
theorem homeWrite_keeps (w : HeldWrite) (s : State) (hmem : Keeps qs s) : Keeps qs (homeWrite w s) := by
  unfold homeWrite
  try dsimp only
  repeat' first
    | intro _ | with_reducible assumption | with_reducible apply homeWait_keeps | with_reducible apply recallLine_keeps
    | with_reducible apply writeDo_keeps | with_reducible apply keeps_ite | split | dsimp only
theorem halRequest_keeps (opc : Nat) (wline : Nat) (owner : Owner) (s : State) (hmem : Keeps qs s) : Keeps qs (halRequest opc wline owner s) := by
  unfold halRequest
  try dsimp only
  repeat' first
    | intro _ | with_reducible assumption | with_reducible apply halAsk_keeps | with_reducible apply keeps_ite
    | fail_if_no_progress (with_reducible refine keeps_mk (h := ?_) (h4 := rfl) (h5 := rfl) ..) | with_reducible rfl | split | dsimp only
theorem halWrFull_keeps (w : HeldWrite) (s : State) (hmem : Keeps qs s) : Keeps qs (halWrFull w s) := by
  unfold halWrFull
  try dsimp only
  repeat' first
    | intro _ | with_reducible assumption | with_reducible apply halAsk_keeps
    | fail_if_no_progress (with_reducible refine keeps_mk (h := ?_) (h4 := rfl) (h5 := rfl) ..) | with_reducible rfl | dsimp only
theorem compWrite_keeps (w : HeldWrite) (s : State) (hmem : Keeps qs s) : Keeps qs (compWrite w s) := by
  unfold compWrite
  try dsimp only
  repeat' first
    | intro _ | with_reducible assumption | with_reducible apply homeWait_keeps | with_reducible apply halRequest_keeps
    | with_reducible apply writeDo_keeps | with_reducible apply halWrFull_keeps | with_reducible apply keeps_ite
    | fail_if_no_progress (with_reducible refine keeps_mk (h := ?_) (h4 := rfl) (h5 := rfl) ..) | with_reducible rfl | split | dsimp only
theorem compRelease_keeps (key : Nat) (s : State) (hmem : Keeps qs s) : Keeps qs (compRelease key s) := by
  unfold compRelease
  try dsimp only
  repeat' first
    | intro _ | with_reducible assumption | with_reducible apply writeDo_keeps | with_reducible apply keeps_foldl
    | fail_if_no_progress (with_reducible refine keeps_mk (h := ?_) (h4 := rfl) (h5 := rfl) ..) | with_reducible rfl | split | dsimp only
theorem putLine_keeps (o : Owner) (off n v : Nat) (poison : Bool) (s : State) (hmem : Keeps qs s) : Keeps qs (putLine o off n v poison s) := by
  unfold putLine
  try dsimp only
  repeat' first
    | intro _ | with_reducible assumption | with_reducible apply homeWrite_keeps | with_reducible apply tilePut_keeps
    | with_reducible apply compWrite_keeps | with_reducible apply keeps_ite
    | fail_if_no_progress (with_reducible refine keeps_mk (h := ?_) (h4 := rfl) (h5 := rfl) ..) | with_reducible rfl | split | dsimp only
theorem writeByGo_keeps (o : Owner) : ∀ (fuel off n v : Nat) (s : State), Keeps qs s → Keeps qs (writeByGo o fuel off n v s)
  | 0, _, _, _, s, h => h
  | fuel + 1, off, n, v, s, h => by
    unfold writeByGo
    split
    · exact h
    · exact writeByGo_keeps o fuel _ _ _ _ (putLine_keeps _ _ _ _ _ _ h)
theorem writeBy_keeps (o : Owner) (off n v : Nat) (s : State) (hmem : Keeps qs s) : Keeps qs (writeBy o off n v s) := by
  unfold writeBy
  try dsimp only
  repeat' first
    | intro _ | with_reducible assumption | with_reducible apply writeByGo_keeps | dsimp only
theorem writeOff_keeps (off n v : Nat) (s : State) (hmem : Keeps qs s) : Keeps qs (writeOff off n v s) := by
  unfold writeOff
  try dsimp only
  repeat' first
    | intro _ | with_reducible assumption | with_reducible apply writeBy_keeps
    | fail_if_no_progress (with_reducible refine keeps_mk (h := ?_) (h4 := rfl) (h5 := rfl) ..) | with_reducible rfl | split | dsimp only
theorem setFab_keeps (f : Nat) (x : FabDie) (s : State) (hmem : Keeps qs s) : Keeps qs (setFab f x s) := by
  unfold setFab
  try dsimp only
  repeat' first
    | intro _ | with_reducible assumption | fail_if_no_progress (with_reducible refine keeps_mk (h := ?_) (h4 := rfl) (h5 := rfl) ..)
    | with_reducible rfl | dsimp only
theorem portFar_keeps (p : Nat) (s : State) (hmem : Keeps qs s) : Keeps qs (portFar p s) := by
  unfold portFar
  try dsimp only
  repeat' first
    | intro _ | with_reducible assumption | with_reducible apply setLink_keeps
    | fail_if_no_progress (with_reducible refine keeps_mk (h := ?_) (h4 := rfl) (h5 := rfl) ..) | with_reducible rfl | dsimp only
theorem setPeer_keeps (k : Nat) (x : RoutePeer) (s : State) (hmem : Keeps qs s) : Keeps qs (setPeer k x s) := by
  unfold setPeer
  try dsimp only
  repeat' first
    | intro _ | with_reducible assumption | fail_if_no_progress (with_reducible refine keeps_mk (h := ?_) (h4 := rfl) (h5 := rfl) ..)
    | with_reducible rfl | dsimp only
theorem redUncertain_keeps (fd src : Nat) (s : State) (hmem : Keeps qs s) : Keeps qs (redUncertain fd src s) := by
  unfold redUncertain
  try dsimp only
  repeat' first
    | intro _ | with_reducible assumption | with_reducible apply raise_keeps | with_reducible apply setF_keeps | dsimp only
theorem routeUnreachable_keeps (fd k : Nat) (p : RoutePeer) (s : State) (hmem : Keeps qs s) : Keeps qs (routeUnreachable fd k p s) := by
  unfold routeUnreachable
  try dsimp only
  repeat' first
    | intro _ | with_reducible assumption | with_reducible apply redUncertain_keeps | with_reducible apply keeps_ite
    | with_reducible apply keeps_foldl | fail_if_no_progress (with_reducible refine keeps_mk (h := ?_) (h4 := rfl) (h5 := rfl) ..)
    | with_reducible rfl | split | dsimp only
theorem peerRoom_keeps (fd k : Nat) (s : State) (hmem : Keeps qs s) : Keeps qs (peerRoom fd k s) := by
  unfold peerRoom
  try dsimp only
  repeat' first
    | intro _ | with_reducible assumption | with_reducible apply routeUnreachable_keeps | with_reducible apply keeps_ite
    | fail_if_no_progress (with_reducible refine keeps_mk (h := ?_) (h4 := rfl) (h5 := rfl) ..) | with_reducible rfl | split | dsimp only
theorem routeCount_keeps (r : Nat) (f : RouteFrame) (s : State) (hmem : Keeps qs s) : Keeps qs (routeCount r f s) := by
  unfold routeCount
  try dsimp only
  repeat' first
    | intro _ | with_reducible assumption | with_reducible apply addPair_keeps | dsimp only
theorem routeOut_keeps (r : Nat) (f : RouteFrame) (s : State) (hmem : Keeps qs s) : Keeps qs (routeOut r f s) := by
  unfold routeOut
  try dsimp only
  repeat' first
    | intro _ | with_reducible assumption | with_reducible apply emit_keeps | with_reducible apply routeCount_keeps | with_reducible apply keeps_ite
    | split | dsimp only
theorem routeEmit_keeps (fd k : Nat) (dst : Nat) (ms : List Msg) (s : State) (hmem : Keeps qs s) : Keeps qs (routeEmit fd k dst ms s) := by
  unfold routeEmit
  try dsimp only
  repeat' first
    | intro _ | with_reducible assumption | with_reducible apply routeOut_keeps | with_reducible apply setPeer_keeps
    | fail_if_no_progress (with_reducible refine keeps_mk (h := ?_) (h4 := rfl) (h5 := rfl) ..) | with_reducible rfl | split | dsimp only
theorem routeSend_keeps (fd : Nat) (m : Msg) (s : State) (hmem : Keeps qs s) : Keeps qs (routeSend fd m s) := by
  unfold routeSend
  try dsimp only
  repeat' first
    | intro _ | with_reducible assumption | with_reducible apply peerRoom_keeps | with_reducible apply setPeer_keeps
    | with_reducible apply routeEmit_keeps | with_reducible apply keeps_ite
    | fail_if_no_progress (with_reducible refine keeps_mk (h := ?_) (h4 := rfl) (h5 := rfl) ..) | with_reducible rfl | split | dsimp only
theorem routeFlush_keeps (fd k : Nat) : ∀ (fuel : Nat) (s : State), Keeps qs s → Keeps qs (routeFlush fd k fuel s)
  | 0, s, h => h
  | fuel + 1, s, h => by
    unfold routeFlush
    repeat' first
      | intro _ | with_reducible assumption | with_reducible apply routeFlush_keeps | with_reducible apply routeEmit_keeps
      | with_reducible apply setPeer_keeps | with_reducible apply keeps_ite | with_reducible apply keeps_foldl
      | fail_if_no_progress (with_reducible refine keeps_mk (h := ?_) (h4 := rfl) (h5 := rfl) ..) | with_reducible rfl | split | dsimp only
theorem sendMsg_keeps (fd : Nat) (m : Msg) (s : State) (hmem : Keeps qs s) : Keeps qs (sendMsg fd m s) := by
  unfold sendMsg
  try dsimp only
  repeat' first
    | intro _ | with_reducible assumption | with_reducible apply addPair_keeps | with_reducible apply portSend_keeps
    | with_reducible apply bumpF_keeps | with_reducible apply routeSend_keeps | with_reducible apply keeps_ite
    | fail_if_no_progress (with_reducible refine keeps_mk (h := ?_) (h4 := rfl) (h5 := rfl) ..) | with_reducible rfl | split | dsimp only
theorem sendReq_keeps (isRead : Bool) (lat : Bool) (dst line n : Nat) (data : List Slot) (pmask : Nat) (owner : Owner) (reducing : Bool) (s : State) (hmem : Keeps qs s) : Keeps qs (sendReq isRead lat dst line n data pmask owner reducing s) := by
  unfold sendReq
  try dsimp only
  repeat' first
    | intro _ | with_reducible assumption | with_reducible apply setFab_keeps | with_reducible apply sendMsg_keeps | with_reducible apply keeps_ite
    | fail_if_no_progress (with_reducible refine keeps_mk (h := ?_) (h4 := rfl) (h5 := rfl) ..) | with_reducible rfl | split | dsimp only
theorem loadDone_keeps (c : Nat) (dreg size : Nat) (sign toH : Bool) (v : Nat) (k : Core) (s : State) (hmem : Keeps qs s) : Keeps qs (loadDone c dreg size sign toH v k s) := by
  unfold loadDone
  try dsimp only
  repeat' first
    | intro _ | with_reducible assumption | with_reducible apply retire_keeps | with_reducible apply keeps_ite | split | dsimp only
theorem depotCe_keeps (d : Fin 4) (s : State) (hmem : Keeps qs s) : Keeps qs (depotCe d s) := by
  unfold depotCe
  try dsimp only
  repeat' first
    | intro _ | with_reducible assumption | with_reducible apply bumpF_keeps | dsimp only
theorem depotUe_keeps (d : Fin 4) (pl gaddr : Nat) (s : State) (hmem : Keeps qs s) : Keeps qs (depotUe d pl gaddr s) := by
  unfold depotUe
  try dsimp only
  repeat' first
    | intro _ | with_reducible assumption | with_reducible apply writeBack_keeps | with_reducible apply setF_keeps | with_reducible apply bumpF_keeps
    | with_reducible apply capture_keeps | with_reducible apply raise_keeps | with_reducible apply depotCe_keeps
    | with_reducible apply depotGiveUp_keeps | with_reducible apply keeps_ite
    | fail_if_no_progress (with_reducible refine keeps_mk (h := ?_) (h4 := rfl) (h5 := rfl) ..) | with_reducible rfl | split | dsimp only
theorem dirUe_keeps (pl : Nat) (s : State) (hmem : Keeps qs s) : Keeps qs (dirUe pl s) := by
  unfold dirUe
  try dsimp only
  repeat' first
    | intro _ | with_reducible assumption | with_reducible apply recallAll_keeps | with_reducible apply raise_keeps | with_reducible apply setF_keeps
    | with_reducible apply bumpF_keeps | dsimp only
theorem depotErrs_keeps (d : Fin 4) (pl gaddr : Nat) (ev : LoadEv) (s : State) (hmem : Keeps qs s) : Keeps qs (depotErrs d pl gaddr ev s) := by
  unfold depotErrs
  try dsimp only
  repeat' first
    | intro _ | with_reducible assumption | with_reducible apply dirUe_keeps | with_reducible apply depotUe_keeps | with_reducible apply depotCe_keeps
    | with_reducible apply keeps_ite | fail_if_no_progress (with_reducible refine keeps_mk (h := ?_) (h4 := rfl) (h5 := rfl) ..) | with_reducible rfl
    | split | dsimp only
theorem loadLine_keeps (c : Nat) (lw : LoadWait) (pl phys : Nat) (ev : LoadEv) (k : Core) (s : State) (hmem : Keeps qs s) : Keeps qs (loadLine c lw pl phys ev k s) := by
  unfold loadLine
  try dsimp only
  repeat' first
    | intro _ | with_reducible assumption | with_reducible apply depotErrs_keeps | with_reducible apply setCore_keeps
    | with_reducible apply addPair_keeps | with_reducible apply faultHere_keeps | with_reducible apply loadDone_keeps
    | with_reducible apply halRequest_keeps | with_reducible apply recallLine_keeps | with_reducible apply keeps_ite
    | fail_if_no_progress (with_reducible refine keeps_mk (h := ?_) (h4 := rfl) (h5 := rfl) ..) | with_reducible rfl | split | dsimp only
theorem load_keeps (op size : Nat) (sign toH : Bool) (c : Fin 44) (w : BitVec 22) (ev : LoadEv) (s : State) (hmem : Keeps qs s) : Keeps qs (load op size sign toH c w ev s) := by
  unfold load
  try dsimp only
  repeat' first
    | intro _ | with_reducible assumption | with_reducible apply insn_keeps | with_reducible apply faultHere_keeps
    | with_reducible apply loadLine_keeps | with_reducible apply loadDone_keeps | with_reducible apply setCore_keeps
    | with_reducible apply sendReq_keeps | with_reducible apply keeps_ite
    | fail_if_no_progress (with_reducible refine keeps_mk (h := ?_) (h4 := rfl) (h5 := rfl) ..) | with_reducible rfl | split | dsimp only
theorem storeLine_keeps (c : Nat) (pl phys size v : Nat) (k : Core) (s : State) (hmem : Keeps qs s) : Keeps qs (storeLine c pl phys size v k s) := by
  unfold storeLine
  try dsimp only
  repeat' first
    | intro _ | with_reducible assumption | with_reducible apply retire_keeps | with_reducible apply lineWrite_keeps
    | with_reducible apply halRequest_keeps | with_reducible apply recallLine_keeps | with_reducible apply keeps_ite
    | fail_if_no_progress (with_reducible refine keeps_mk (h := ?_) (h4 := rfl) (h5 := rfl) ..) | with_reducible rfl | split | dsimp only
theorem store_keeps (op size : Nat) (fromH : Bool) (c : Fin 44) (w : BitVec 22) (s : State) (hmem : Keeps qs s) : Keeps qs (store op size fromH c w s) := by
  unfold store
  try dsimp only
  repeat' first
    | intro _ | with_reducible assumption | with_reducible apply insn_keeps | with_reducible apply faultHere_keeps
    | with_reducible apply storeLine_keeps | with_reducible apply retire_keeps | with_reducible apply tileWriteN_keeps
    | with_reducible apply ctlWrite_keeps | with_reducible apply keeps_ite
    | fail_if_no_progress (with_reducible refine keeps_mk (h := ?_) (h4 := rfl) (h5 := rfl) ..) | with_reducible rfl | split | dsimp only
theorem loadReturn_keeps (c : Fin 44) (s : State) (hmem : Keeps qs s) : Keeps qs (loadReturn c s) := by
  unfold loadReturn
  try dsimp only
  repeat' first
    | intro _ | with_reducible assumption | with_reducible apply load_keeps | with_reducible apply faultHere_keeps
    | with_reducible apply setCore_keeps | with_reducible apply loadDone_keeps | with_reducible apply recallLine_keeps
    | with_reducible apply depotFill_keeps | with_reducible apply keeps_ite
    | fail_if_no_progress (with_reducible refine keeps_mk (h := ?_) (h4 := rfl) (h5 := rfl) ..) | with_reducible rfl | split | dsimp only
theorem atomicAt_keeps (phys : Nat) (f : Nat → Nat) (s : State) (h : Keeps qs s) : Keeps qs (atomicAt phys f s).2 :=
  lineWrite_keeps _ _ _ _ _ (addPair_keeps _ _ _ _ _ h)
theorem amo_keeps (op : Nat) (f : Nat → Nat → Nat → Nat) (c : Fin 44) (w : BitVec 22) (ev : LoadEv) (s : State) (hmem : Keeps qs s) : Keeps qs (amo op f c w ev s) := by
  unfold amo
  try dsimp only
  repeat' first
    | intro _ | with_reducible assumption | with_reducible apply insn_keeps | with_reducible apply faultHere_keeps
    | with_reducible apply depotErrs_keeps | with_reducible apply recallLine_keeps | with_reducible apply atomicAt_keeps
    | with_reducible apply retire_keeps | with_reducible apply keeps_ite
    | fail_if_no_progress (with_reducible refine keeps_mk (h := ?_) (h4 := rfl) (h5 := rfl) ..) | with_reducible rfl | split | dsimp only
theorem bs_keeps (op : Nat) (taken : Core → Bool) (c : Fin 44) (w : BitVec 22) (s : State) (hmem : Keeps qs s) : Keeps qs (bs op taken c w s) := by
  unfold bs
  try dsimp only
  repeat' first
    | intro _ | with_reducible assumption | with_reducible apply insn_keeps | with_reducible apply withSummary_keeps
    | with_reducible apply retireAt_keeps | with_reducible apply keeps_ite | split | dsimp only
theorem sget_keeps (op : Nat) (f : BitVec 128 → Nat) (c : Fin 44) (w : BitVec 22) (s : State) (hmem : Keeps qs s) : Keeps qs (sget op f c w s) := by
  unfold sget
  try dsimp only
  repeat' first
    | intro _ | with_reducible assumption | with_reducible apply insn_keeps | with_reducible apply withSummary_keeps
    | with_reducible apply retire_keeps | dsimp only
theorem waitInsn_keeps (op : Nat) (c : Nat) (word : Nat) (legal : Bool) (body : Core → State → State) (s : State) (hbody : ∀ z0 t, Keeps qs t → Keeps qs (body z0 t)) (hmem : Keeps qs s) : Keeps qs (waitInsn op c word legal body s) := by
  unfold waitInsn
  try dsimp only
  repeat' first
    | intro _ | with_reducible assumption | with_reducible apply insn_keeps | with_reducible apply hbody | with_reducible apply keeps_ite
    | fail_if_no_progress (with_reducible refine keeps_mk (h := ?_) (h4 := rfl) (h5 := rfl) ..) | with_reducible rfl | split | dsimp only
theorem waitOn_keeps (c op : Nat) (target : Option Nat) (addr value : DWord) (cond : Nat) (k : Core) (s : State) (hmem : Keeps qs s) : Keeps qs (waitOn c op target addr value cond k s) := by
  unfold waitOn
  try dsimp only
  repeat' first
    | intro _ | with_reducible assumption | with_reducible apply setCore_keeps
    | fail_if_no_progress (with_reducible refine keeps_mk (h := ?_) (h4 := rfl) (h5 := rfl) ..) | with_reducible rfl | split | dsimp only
theorem waitE_keeps (c : Nat) (w : BitVec 22) (s : State) (hmem : Keeps qs s) : Keeps qs (waitE c w s) := by
  unfold waitE
  try dsimp only
  repeat' first
    | intro _ | with_reducible assumption | with_reducible apply waitInsn_keeps | with_reducible apply orTrap_keeps
    | with_reducible apply waitOn_keeps | with_reducible apply retire_keeps | with_reducible apply keeps_ite | split | dsimp only
theorem waitAll_keeps (c : Nat) (w : BitVec 22) (s : State) (hmem : Keeps qs s) : Keeps qs (waitAll c w s) := by
  unfold waitAll
  try dsimp only
  repeat' first
    | intro _ | with_reducible assumption | with_reducible apply waitInsn_keeps | with_reducible apply orTrap_keeps
    | with_reducible apply retire_keeps | with_reducible apply waitOn_keeps | with_reducible apply keeps_ite | split | dsimp only
theorem fenceLocal_keeps (c : Nat) (w : BitVec 22) (s : State) (hmem : Keeps qs s) : Keeps qs (fenceLocal c w s) := by
  unfold fenceLocal
  try dsimp only
  repeat' first
    | intro _ | with_reducible assumption | with_reducible apply waitInsn_keeps | with_reducible apply retire_keeps | dsimp only
theorem fenceRemote_keeps (c : Nat) (w : BitVec 22) (s : State) (hmem : Keeps qs s) : Keeps qs (fenceRemote c w s) := by
  unfold fenceRemote
  try dsimp only
  repeat' first
    | intro _ | with_reducible assumption | with_reducible apply waitInsn_keeps | with_reducible apply waitOn_keeps
    | with_reducible apply retire_keeps | with_reducible apply keeps_ite | split | dsimp only
theorem depotWord_keeps (c a : Nat) (body : Nat → State → State) (s : State) (hbody : ∀ z0 t, Keeps qs t → Keeps qs (body z0 t)) (hmem : Keeps qs s) : Keeps qs (depotWord c a body s) := by
  unfold depotWord
  try dsimp only
  repeat' first
    | intro _ | with_reducible assumption | with_reducible apply faultHere_keeps | with_reducible apply hbody | with_reducible apply keeps_ite
    | fail_if_no_progress (with_reducible refine keeps_mk (h := ?_) (h4 := rfl) (h5 := rfl) ..) | with_reducible rfl | split | dsimp only
theorem waitSig_keeps (c : Nat) (w : BitVec 22) (s : State) (hmem : Keeps qs s) : Keeps qs (waitSig c w s) := by
  unfold waitSig
  try dsimp only
  repeat' first
    | intro _ | with_reducible assumption | with_reducible apply waitInsn_keeps | with_reducible apply depotWord_keeps
    | with_reducible apply recallLine_keeps | with_reducible apply retire_keeps | with_reducible apply waitOn_keeps | with_reducible apply keeps_ite
    | split | dsimp only
theorem barInsn_keeps (c : Nat) (w : BitVec 22) (s : State) (hmem : Keeps qs s) : Keeps qs (barInsn c w s) := by
  unfold barInsn
  try dsimp only
  repeat' first
    | intro _ | with_reducible assumption | with_reducible apply waitInsn_keeps | with_reducible apply depotWord_keeps
    | with_reducible apply recallLine_keeps | with_reducible apply retire_keeps | with_reducible apply atomicAt_keeps
    | with_reducible apply waitOn_keeps | with_reducible apply keeps_ite
    | fail_if_no_progress (with_reducible refine keeps_mk (h := ?_) (h4 := rfl) (h5 := rfl) ..) | with_reducible rfl | split | dsimp only
theorem rampHint_keeps (rc : DWord) (s : State) (hmem : Keeps qs s) : Keeps qs (rampHint rc s) := by
  unfold rampHint
  try dsimp only
  repeat' first
    | intro _ | with_reducible assumption | with_reducible apply raise_keeps | with_reducible apply bumpF_keeps | with_reducible apply keeps_ite
    | fail_if_no_progress (with_reducible refine keeps_mk (h := ?_) (h4 := rfl) (h5 := rfl) ..) | with_reducible rfl | split | dsimp only
theorem rhintInsn_keeps (c : Nat) (w : BitVec 22) (s : State) (hmem : Keeps qs s) : Keeps qs (rhintInsn c w s) := by
  unfold rhintInsn
  try dsimp only
  repeat' first
    | intro _ | with_reducible assumption | with_reducible apply waitInsn_keeps | with_reducible apply retire_keeps
    | with_reducible apply rampHint_keeps | dsimp only
theorem qpInterval_keeps (c : Nat) (k : Core) (s : State) (hmem : Keeps qs s) : Keeps qs (qpInterval c k s) := by
  unfold qpInterval
  try dsimp only
  repeat' first
    | intro _ | with_reducible assumption | with_reducible apply raise_keeps | with_reducible apply bumpF_keeps | with_reducible apply setF_keeps
    | with_reducible apply setPair_keeps | with_reducible apply keeps_ite | split | dsimp only
theorem qptInsn_keeps (c : Nat) (w : BitVec 22) (s : State) (hmem : Keeps qs s) : Keeps qs (qptInsn c w s) := by
  unfold qptInsn
  try dsimp only
  repeat' first
    | intro _ | with_reducible assumption | with_reducible apply waitInsn_keeps | with_reducible apply orTrap_keeps
    | with_reducible apply qpInterval_keeps | with_reducible apply retire_keeps | with_reducible apply keeps_ite
    | fail_if_no_progress (with_reducible refine keeps_mk (h := ?_) (h4 := rfl) (h5 := rfl) ..) | with_reducible rfl | split | dsimp only
theorem flipClocks_keeps (s : State) (hmem : Keeps qs s) : Keeps qs (flipClocks s) := by
  unfold flipClocks
  try dsimp only
  repeat' first
    | intro _ | with_reducible assumption | fail_if_no_progress (with_reducible refine keeps_mk (h := ?_) (h4 := rfl) (h5 := rfl) ..)
    | with_reducible rfl | dsimp only
theorem frozenCheck_keeps (s : State) (hmem : Keeps qs s) : Keeps qs (frozenCheck s) := by
  unfold frozenCheck
  try dsimp only
  repeat' first
    | intro _ | with_reducible assumption | with_reducible apply setPkg_keeps | with_reducible apply flipClocks_keeps
    | with_reducible apply setF_keeps | with_reducible apply keeps_ite | split | dsimp only
theorem freezeReached_keeps (c : Nat) (s : State) (hmem : Keeps qs s) : Keeps qs (freezeReached c s) := by
  unfold freezeReached
  try dsimp only
  repeat' first
    | intro _ | with_reducible assumption | with_reducible apply frozenCheck_keeps | with_reducible apply setCore_keeps
    | with_reducible apply keeps_ite | fail_if_no_progress (with_reducible refine keeps_mk (h := ?_) (h4 := rfl) (h5 := rfl) ..) | with_reducible rfl
    | split | dsimp only
theorem corePark_keeps (c : Nat) (s : State) (hmem : Keeps qs s) : Keeps qs (corePark c s) := by
  unfold corePark
  try dsimp only
  repeat' first
    | intro _ | with_reducible assumption | with_reducible apply deliverTrap_keeps | with_reducible apply frozenCheck_keeps
    | with_reducible apply setCore_keeps | with_reducible apply setF_keeps | with_reducible apply keeps_ite
    | fail_if_no_progress (with_reducible refine keeps_mk (h := ?_) (h4 := rfl) (h5 := rfl) ..) | with_reducible rfl | split | dsimp only
theorem depotNotify_keeps (c : Nat) (s : State) (hmem : Keeps qs s) : Keeps qs (depotNotify c s) := by
  unfold depotNotify
  try dsimp only
  repeat' first
    | intro _ | with_reducible assumption | with_reducible apply retire_keeps | with_reducible apply keeps_ite
    | fail_if_no_progress (with_reducible refine keeps_mk (h := ?_) (h4 := rfl) (h5 := rfl) ..) | with_reducible rfl | split | dsimp only
theorem waitTimeout_keeps (c : Nat) (s : State) (hmem : Keeps qs s) : Keeps qs (waitTimeout c s) := by
  unfold waitTimeout
  try dsimp only
  repeat' first
    | intro _ | with_reducible assumption | with_reducible apply faultHere_keeps | with_reducible apply keeps_ite
    | fail_if_no_progress (with_reducible refine keeps_mk (h := ?_) (h4 := rfl) (h5 := rfl) ..) | with_reducible rfl | split | dsimp only
theorem sysrd_keeps (c : Nat) (w : BitVec 22) (s : State) (hmem : Keeps qs s) : Keeps qs (sysrd c w s) := by
  unfold sysrd
  try dsimp only
  repeat' first
    | intro _ | with_reducible assumption | with_reducible apply insn_keeps | with_reducible apply retire_keeps | with_reducible apply keeps_ite
    | split | dsimp only
theorem tret_keeps (c : Nat) (w : BitVec 22) (s : State) (hmem : Keeps qs s) : Keeps qs (tret c w s) := by
  unfold tret
  try dsimp only
  repeat' first
    | intro _ | with_reducible assumption | with_reducible apply insn_keeps | with_reducible apply retireAt_keeps | with_reducible apply setF_keeps
    | with_reducible apply setCore_keeps | fail_if_no_progress (with_reducible refine keeps_mk (h := ?_) (h4 := rfl) (h5 := rfl) ..)
    | with_reducible rfl | split | dsimp only
theorem jobEnd_keeps (s : State) (hmem : Keeps qs s) : Keeps qs (jobEnd s) := by
  unfold jobEnd
  try dsimp only
  repeat' first
    | intro _ | with_reducible assumption | with_reducible apply setPkg_keeps | with_reducible apply raise_keeps | with_reducible apply keeps_ite
    | split | dsimp only
theorem startHalted_keeps (c : Nat) (s : State) (hmem : Keeps qs s) : Keeps qs (startHalted c s) := by
  unfold startHalted
  try dsimp only
  repeat' first
    | intro _ | with_reducible assumption | with_reducible apply setCore_keeps | with_reducible apply keeps_ite | with_reducible apply keeps_foldl
    | fail_if_no_progress (with_reducible refine keeps_mk (h := ?_) (h4 := rfl) (h5 := rfl) ..) | with_reducible rfl | split | dsimp only
theorem halt_keeps (c : Nat) (w : BitVec 22) (s : State) (hmem : Keeps qs s) : Keeps qs (halt c w s) := by
  unfold halt
  try dsimp only
  repeat' first
    | intro _ | with_reducible assumption | with_reducible apply insn_keeps | with_reducible apply frozenCheck_keeps
    | with_reducible apply jobEnd_keeps | with_reducible apply startHalted_keeps | with_reducible apply retire_keeps
    | with_reducible apply setCore_keeps | fail_if_no_progress (with_reducible refine keeps_mk (h := ?_) (h4 := rfl) (h5 := rfl) ..)
    | with_reducible rfl | dsimp only
theorem sysNop_keeps (c : Nat) (w : BitVec 22) (s : State) (hmem : Keeps qs s) : Keeps qs (sysNop c w s) := by
  unfold sysNop
  try dsimp only
  repeat' first
    | intro _ | with_reducible assumption | with_reducible apply insn_keeps | with_reducible apply retire_keeps | dsimp only
theorem setHead_keeps (k : Nat) (x : EngIns) (s : State) (hmem : Keeps qs s) : Keeps qs (setHead k x s) := by
  unfold setHead
  try dsimp only
  repeat' first
    | intro _ | with_reducible assumption | with_reducible apply setEng_keeps
    | fail_if_no_progress (with_reducible refine keeps_mk (h := ?_) (h4 := rfl) (h5 := rfl) ..) | with_reducible rfl | dsimp only
theorem engReject_keeps (k cause : Nat) (s : State) (hmem : Keeps qs s) : Keeps qs (engReject k cause s) := by
  unfold engReject
  try dsimp only
  repeat' first
    | intro _ | with_reducible assumption | with_reducible apply setEng_keeps | with_reducible apply coreFault_keeps | with_reducible apply keeps_ite
    | fail_if_no_progress (with_reducible refine keeps_mk (h := ?_) (h4 := rfl) (h5 := rfl) ..) | with_reducible rfl | split | dsimp only
theorem engAccept_keeps (k : Nat) (cfg : Word) (desc : Nat) (s : State) (hmem : Keeps qs s) : Keeps qs (engAccept k cfg desc s) := by
  unfold engAccept
  try dsimp only
  repeat' first
    | intro _ | with_reducible assumption | with_reducible apply ranAdd_keeps | with_reducible apply setEng_keeps
    | fail_if_no_progress (with_reducible refine keeps_mk (h := ?_) (h4 := rfl) (h5 := rfl) ..) | with_reducible rfl | split | dsimp only
theorem accept_keeps (k cap : Nat) (checks : EngIns → List (Bool × Nat)) (cfg : EngIns → Word) (desc : EngIns → Nat) (s : State) (hmem : Keeps qs s) : Keeps qs (accept k cap checks cfg desc s) := by
  unfold accept
  try dsimp only
  repeat' first
    | intro _ | with_reducible assumption | with_reducible apply engReject_keeps | with_reducible apply engAccept_keeps
    | with_reducible apply keeps_ite | fail_if_no_progress (with_reducible refine keeps_mk (h := ?_) (h4 := rfl) (h5 := rfl) ..) | with_reducible rfl
    | split | dsimp only
theorem blockAsk_keeps (n a : Nat) (s : State) (f : State → State) (hf : blockAsk n a s = some f) (h : Keeps qs s) : Keeps qs (f s) := by
  unfold blockAsk at hf
  repeat' split at hf
  all_goals first
    | (cases hf; exact halRequest_keeps _ _ _ _ h)
    | (cases hf; exact recallLine_keeps _ _ _ h)
    | cases hf
theorem withBlock_keeps (k cap n : Nat) (body : State → State) (s : State) (hbody : ∀ t, Keeps qs t → Keeps qs (body t)) (hmem : Keeps qs s) : Keeps qs (withBlock k cap n body s) := by
  unfold withBlock
  try dsimp only
  repeat' first
    | intro _ | with_reducible assumption | with_reducible apply hbody | with_reducible apply keeps_ite
    | fail_if_no_progress (with_reducible refine keeps_mk (h := ?_) (h4 := rfl) (h5 := rfl) ..) | with_reducible rfl | split | dsimp only
  all_goals exact blockAsk_keeps _ _ _ _ (by assumption) (by assumption)
theorem acceptCe_keeps (k cap : Nat) (own : EngIns → Bool) (base : Nat) (f : Fld) (n : Nat) (s : State) (hmem : Keeps qs s) : Keeps qs (acceptCe k cap own base f n s) := by
  unfold acceptCe
  try dsimp only
  repeat' first
    | intro _ | with_reducible assumption | with_reducible apply bumpF_keeps | with_reducible apply keeps_ite
    | fail_if_no_progress (with_reducible refine keeps_mk (h := ?_) (h4 := rfl) (h5 := rfl) ..) | with_reducible rfl | split | dsimp only
theorem coreComplete_keeps (x : EngIns) (v : BitVec 128) (s : State) (hmem : Keeps qs s) : Keeps qs (coreComplete x v s) := by
  unfold coreComplete
  try dsimp only
  repeat' first
    | intro _ | with_reducible assumption | with_reducible apply setCore_keeps
    | fail_if_no_progress (with_reducible refine keeps_mk (h := ?_) (h4 := rfl) (h5 := rfl) ..) | with_reducible rfl | split | dsimp only
theorem engComplete_keeps (k : Nat) (v : BitVec 128) (s : State) (hmem : Keeps qs s) : Keeps qs (engComplete k v s) := by
  unfold engComplete
  try dsimp only
  repeat' first
    | intro _ | with_reducible assumption | with_reducible apply jobEnd_keeps | with_reducible apply coreComplete_keeps
    | with_reducible apply setEng_keeps | fail_if_no_progress (with_reducible refine keeps_mk (h := ?_) (h4 := rfl) (h5 := rfl) ..)
    | with_reducible rfl | split | dsimp only
theorem fetchLines_keeps (k : Nat) (lat : Bool) (l : List Nat) (s : State) (hmem : Keeps qs s) : Keeps qs (fetchLines k lat l s) := by
  unfold fetchLines
  try dsimp only
  repeat' first
    | intro _ | with_reducible assumption | with_reducible apply halRequest_keeps | with_reducible apply sendReq_keeps
    | with_reducible apply keeps_ite | with_reducible apply keeps_foldl
    | fail_if_no_progress (with_reducible refine keeps_mk (h := ?_) (h4 := rfl) (h5 := rfl) ..) | with_reducible rfl | split | dsimp only
theorem withRoom_keeps (ranges : List (Nat × Nat)) (body : State → State) (s : State) (hbody : ∀ t, Keeps qs t → Keeps qs (body t)) (hmem : Keeps qs s) : Keeps qs (withRoom ranges body s) := by
  unfold withRoom
  try dsimp only
  repeat' first
    | intro _ | with_reducible assumption | with_reducible apply recallLine_keeps | with_reducible apply hbody | with_reducible apply keeps_ite
    | with_reducible apply keeps_foldl | fail_if_no_progress (with_reducible refine keeps_mk (h := ?_) (h4 := rfl) (h5 := rfl) ..)
    | with_reducible rfl | split | dsimp only
theorem streamFill_keeps (k : Nat) (ranges : List (Nat × Nat)) (s : State) (hmem : Keeps qs s) : Keeps qs (streamFill k ranges s) := by
  unfold streamFill
  try dsimp only
  repeat' first
    | intro _ | with_reducible assumption | with_reducible apply depotFill_keeps | with_reducible apply keeps_ite | with_reducible apply keeps_foldl
    | fail_if_no_progress (with_reducible refine keeps_mk (h := ?_) (h4 := rfl) (h5 := rfl) ..) | with_reducible rfl | split | dsimp only
theorem withSourcesLat_keeps (lat : Bool) (k : Nat) (ranges : List (Nat × Nat)) (body : State → State) (s : State) (hbody : ∀ t, Keeps qs t → Keeps qs (body t)) (hmem : Keeps qs s) : Keeps qs (withSourcesLat lat k ranges body s) := by
  unfold withSourcesLat
  try dsimp only
  repeat' first
    | intro _ | with_reducible assumption | with_reducible apply recallLine_keeps | with_reducible apply streamFill_keeps
    | with_reducible apply fetchLines_keeps | with_reducible apply hbody | with_reducible apply keeps_foldl
    | fail_if_no_progress (with_reducible refine keeps_mk (h := ?_) (h4 := rfl) (h5 := rfl) ..) | with_reducible rfl | split | dsimp only
theorem withSources_keeps (k : Nat) (ranges : List (Nat × Nat)) (body : State → State) (s : State) (hbody : ∀ t, Keeps qs t → Keeps qs (body t)) (hmem : Keeps qs s) : Keeps qs (withSources k ranges body s) := by
  unfold withSources
  try dsimp only
  repeat' first
    | intro _ | with_reducible assumption | with_reducible apply withSourcesLat_keeps | with_reducible apply hbody | dsimp only
theorem txPut_keeps (k key o n v : Nat) (poison : Bool) (s : State) (hmem : Keeps qs s) : Keeps qs (txPut k key o n v poison s) := by
  unfold txPut
  try dsimp only
  repeat' first
    | intro _ | with_reducible assumption | with_reducible apply setEng_keeps
    | fail_if_no_progress (with_reducible refine keeps_mk (h := ?_) (h4 := rfl) (h5 := rfl) ..) | with_reducible rfl | dsimp only
theorem engPut_keeps (k a n v : Nat) (poison : Bool) (s : State) (hmem : Keeps qs s) : Keeps qs (engPut k a n v poison s) := by
  unfold engPut
  try dsimp only
  repeat' first
    | intro _ | with_reducible assumption | with_reducible apply txPut_keeps | with_reducible apply putLine_keeps | with_reducible apply keeps_ite
    | split | dsimp only
theorem engWriteGo_keeps (k : Nat) (poison : Bool) : ∀ (fuel a n v : Nat) (s : State), Keeps qs s → Keeps qs (engWriteGo k poison fuel a n v s)
  | 0, _, _, _, s, h => h
  | fuel + 1, a, n, v, s, h => by
    unfold engWriteGo
    split
    · exact h
    · exact engWriteGo_keeps k poison fuel _ _ _ _ (engPut_keeps _ _ _ _ _ _ h)
theorem engWrite_keeps (k a n v : Nat) (s : State) (hmem : Keeps qs s) : Keeps qs (engWrite k a n v s) := by
  unfold engWrite
  try dsimp only
  repeat' first
    | intro _ | with_reducible assumption | with_reducible apply engWriteGo_keeps | dsimp only
theorem engWriteBad_keeps (k : Nat) (poison : Bool) (a n v : Nat) (s : State) (hmem : Keeps qs s) : Keeps qs (engWriteBad k poison a n v s) := by
  unfold engWriteBad
  try dsimp only
  repeat' first
    | intro _ | with_reducible assumption | with_reducible apply engWriteGo_keeps | dsimp only
theorem txSend_keeps (k : Nat) (e : Store TxLine) (r : Nat × Nat) (s : State) (hmem : Keeps qs s) : Keeps qs (txSend k e r s) := by
  unfold txSend
  try dsimp only
  repeat' first
    | intro _ | with_reducible assumption | with_reducible apply putLine_keeps | with_reducible apply sendReq_keeps | with_reducible apply keeps_ite
    | with_reducible apply keeps_foldl | split | dsimp only
theorem engFlush_keeps (k : Nat) (s : State) (hmem : Keeps qs s) : Keeps qs (engFlush k s) := by
  unfold engFlush
  try dsimp only
  repeat' first
    | intro _ | with_reducible assumption | with_reducible apply txSend_keeps | with_reducible apply setEng_keeps | with_reducible apply keeps_foldl
    | fail_if_no_progress (with_reducible refine keeps_mk (h := ?_) (h4 := rfl) (h5 := rfl) ..) | with_reducible rfl | split | dsimp only
theorem setFlags_keeps (base fl : Nat) : ∀ (l : List (Nat × Fld)) (s : State), Keeps qs s → Keeps qs (setFlags base fl l s)
  | [], s, h => h
  | (i, f) :: m, s, h => by
    unfold setFlags
    repeat' first
      | intro _ | with_reducible assumption | with_reducible apply setFlags_keeps | with_reducible apply setF_keeps | with_reducible apply keeps_ite
      | with_reducible apply keeps_foldl | fail_if_no_progress (with_reducible refine keeps_mk (h := ?_) (h4 := rfl) (h5 := rfl) ..)
      | with_reducible rfl | split | dsimp only
theorem engUe_keeps (base : Nat) (ue cnt tag valid : Fld) (put rec : Nat → State → State) (t : BitVec 16)
    (hput : ∀ a t, Keeps qs t → Keeps qs (put a t)) (hrec : ∀ a t, Keeps qs t → Keeps qs (rec a t)) :
    ∀ (l : List Nat) (s : State), Keeps qs s → Keeps qs (engUe base ue cnt tag valid put rec t l s)
  | [], s, h => h
  | a :: m, s, h => by
    unfold engUe
    exact engUe_keeps base ue cnt tag valid put rec t hput hrec m _
      (hrec _ _ (setF_keeps _ _ _ _ (bumpF_keeps _ _ _ _ (setF_keeps _ _ _ _ (capture_keeps _ _ _ _ (hput a) h)))))
theorem mxAccept_keeps (p : Nat) (ue : Bool) (ce : Nat) (s : State) (hmem : Keeps qs s) : Keeps qs (mxAccept p ue ce s) := by
  unfold mxAccept
  try dsimp only
  repeat' first
    | intro _ | with_reducible assumption | with_reducible apply acceptCe_keeps | with_reducible apply accept_keeps | dsimp only
theorem mxWrite_keeps (x : MxD) (p : Nat) : ∀ (l : List (List (Nat × Nat))) (m : Nat) (r : State × Nat), Keeps qs r.1 → Keeps qs (mxWrite x p l m r).1
  | [], _, r, h => h
  | row :: rows, m, (s, fl), h => by
    unfold mxWrite
    exact mxWrite_keeps x p rows _ _ (tileWriteRow_keeps _ _ _ _ _ h)
theorem mxMetaErr_keeps (p : Nat) (tag : BitVec 16) (l : List (Nat × Nat)) (s : State) (hmem : Keeps qs s) : Keeps qs (mxMetaErr p tag l s) := by
  unfold mxMetaErr
  try dsimp only
  repeat' first
    | intro _ | with_reducible assumption | with_reducible apply capture_keeps | with_reducible apply setF_keeps | with_reducible apply bumpF_keeps
    | fail_if_no_progress (with_reducible refine keeps_mk (h := ?_) (h4 := rfl) (h5 := rfl) ..) | with_reducible rfl | split | dsimp only
theorem mxRun_keeps (op p : Nat) (ecc : Ecc) (s : State) (hmem : Keeps qs s) : Keeps qs (mxRun op p ecc s) := by
  unfold mxRun
  try dsimp only
  repeat' first
    | intro _ | with_reducible assumption | with_reducible apply mxWrite_keeps | with_reducible apply mxMetaErr_keeps
    | with_reducible apply engUe_keeps | with_reducible apply setF_keeps | with_reducible apply raise_keeps | with_reducible apply bumpF_keeps
    | with_reducible apply addPair_keeps | with_reducible apply setHead_keeps | with_reducible apply keeps_ite
    | fail_if_no_progress (with_reducible refine keeps_mk (h := ?_) (h4 := rfl) (h5 := rfl) ..) | with_reducible rfl | split | dsimp only
theorem mxComplete_keeps (p : Nat) (s : State) (hmem : Keeps qs s) : Keeps qs (mxComplete p s) := by
  unfold mxComplete
  try dsimp only
  repeat' first
    | intro _ | with_reducible assumption | with_reducible apply tileWriteRow_keeps | with_reducible apply setFlags_keeps
    | with_reducible apply setF_keeps | with_reducible apply bumpF_keeps | with_reducible apply engComplete_keeps | with_reducible apply keeps_ite
    | fail_if_no_progress (with_reducible refine keeps_mk (h := ?_) (h4 := rfl) (h5 := rfl) ..) | with_reducible rfl | split | dsimp only
theorem restoreStatus_keeps (path : Path) (reg base : Nat) (fs : List Fld) (v : Nat) (s : State) (hmem : Keeps qs s) : Keeps qs (restoreStatus path reg base fs v s) := by
  unfold restoreStatus
  try dsimp only
  repeat' first
    | intro _ | with_reducible assumption | with_reducible apply setF_keeps | with_reducible apply rejectWrite_keeps | with_reducible apply keeps_ite
    | with_reducible apply keeps_foldl | split | dsimp only
theorem mxRestore_keeps (path : Path) (p : Nat) (v : Word) (s : State) (hmem : Keeps qs s) : Keeps qs (mxRestore path p v s) := by
  unfold mxRestore
  try dsimp only
  repeat' first
    | intro _ | with_reducible assumption | with_reducible apply restoreStatus_keeps | dsimp only

end Sys2Proof.Machine
end

