-- ==== Sys2Proof/Laws/Keep2.lean ====
section
/-! SUPPORT. Each operation of the machine keeps the queue and the canonical form of the byte memories: one lemma per operation
of Stencil, Assay, Cairn, Cmd, Recover, Halter, MemSys, Dispatcher, Collective. -/

set_option linter.all false

namespace Sys2Proof.Machine

variable {qs : List Instr}

theorem sxAccept_keeps (cl : Nat) (ue tapUe : Bool) (ce : Nat) (s : State) (hmem : Keeps qs s) : Keeps qs (sxAccept cl ue tapUe ce s) := by
  unfold sxAccept
  try dsimp only
  repeat' first
    | intro _ | with_reducible assumption | with_reducible apply acceptCe_keeps | with_reducible apply accept_keeps | dsimp only
theorem sxWrite_keeps (k : Nat) : ∀ (l : List (Nat × Nat × Nat)) (e : EngIns) (i : Nat) (s : State), Keeps qs s → Keeps qs (sxWrite k l e i s).2
  | [], _, _, s, h => h
  | (a, v, fl) :: m, e, i, s, h => by
    unfold sxWrite
    exact sxWrite_keeps k m _ _ _ (engWrite_keeps _ _ _ _ _ h)
theorem sxRun_keeps (cl : Nat) (ecc : Ecc) (s : State) (hmem : Keeps qs s) : Keeps qs (sxRun cl ecc s) := by
  unfold sxRun
  try dsimp only
  repeat' first
    | intro _ | with_reducible assumption | with_reducible apply withSources_keeps | with_reducible apply sxWrite_keeps
    | with_reducible apply engUe_keeps | with_reducible apply setF_keeps | with_reducible apply raise_keeps | with_reducible apply setHead_keeps
    | with_reducible apply engFlush_keeps | with_reducible apply bumpF_keeps | with_reducible apply keeps_ite
    | fail_if_no_progress (with_reducible refine keeps_mk (h := ?_) (h4 := rfl) (h5 := rfl) ..) | with_reducible rfl | split | dsimp only
theorem sxComplete_keeps (cl : Nat) (s : State) (hmem : Keeps qs s) : Keeps qs (sxComplete cl s) := by
  unfold sxComplete
  try dsimp only
  repeat' first
    | intro _ | with_reducible assumption | with_reducible apply setFlags_keeps | with_reducible apply setF_keeps | with_reducible apply bumpF_keeps
    | with_reducible apply engComplete_keeps | with_reducible apply keeps_ite
    | fail_if_no_progress (with_reducible refine keeps_mk (h := ?_) (h4 := rfl) (h5 := rfl) ..) | with_reducible rfl | split | dsimp only
theorem sxRestore_keeps (path : Path) (cl : Nat) (v : Word) (s : State) (hmem : Keeps qs s) : Keeps qs (sxRestore path cl v s) := by
  unfold sxRestore
  try dsimp only
  repeat' first
    | intro _ | with_reducible assumption | with_reducible apply restoreStatus_keeps | dsimp only
theorem asyAccept_keeps (cl : Nat) (ue : Bool) (ce : Nat) (s : State) (hmem : Keeps qs s) : Keeps qs (asyAccept cl ue ce s) := by
  unfold asyAccept
  try dsimp only
  repeat' first
    | intro _ | with_reducible assumption | with_reducible apply withBlock_keeps | with_reducible apply acceptCe_keeps
    | with_reducible apply accept_keeps | dsimp only
theorem asyWrite_keeps (k : Nat) (x : AsyD) : ∀ (l : List (Nat × List AsyBlk)) (e : EngIns) (s : State), Keeps qs s → Keeps qs (asyWrite k x l e s).2
  | [], _, s, h => h
  | (r, bs) :: m, e, s, h => by
    unfold asyWrite
    repeat' first
      | intro _ | with_reducible assumption | with_reducible apply asyWrite_keeps | with_reducible apply engWrite_keeps
      | with_reducible apply keeps_ite | with_reducible apply keeps_foldl
      | fail_if_no_progress (with_reducible refine keeps_mk (h := ?_) (h4 := rfl) (h5 := rfl) ..) | with_reducible rfl | split | dsimp only
theorem asyRun_keeps (widen : Bool) (cl : Nat) (ecc : Ecc) (s : State) (hmem : Keeps qs s) : Keeps qs (asyRun widen cl ecc s) := by
  unfold asyRun
  try dsimp only
  repeat' first
    | intro _ | with_reducible assumption | with_reducible apply withSources_keeps | with_reducible apply asyWrite_keeps
    | with_reducible apply engWrite_keeps | with_reducible apply engUe_keeps | with_reducible apply setPair_keeps | with_reducible apply raise_keeps
    | with_reducible apply bumpF_keeps | with_reducible apply setHead_keeps | with_reducible apply engFlush_keeps | with_reducible apply keeps_ite
    | fail_if_no_progress (with_reducible refine keeps_mk (h := ?_) (h4 := rfl) (h5 := rfl) ..) | with_reducible rfl | split | dsimp only
theorem asyComplete_keeps (cl : Nat) (s : State) (hmem : Keeps qs s) : Keeps qs (asyComplete cl s) := by
  unfold asyComplete
  try dsimp only
  repeat' first
    | intro _ | with_reducible assumption | with_reducible apply setFlags_keeps | with_reducible apply setF_keeps | with_reducible apply bumpF_keeps
    | with_reducible apply engComplete_keeps | with_reducible apply keeps_ite
    | fail_if_no_progress (with_reducible refine keeps_mk (h := ?_) (h4 := rfl) (h5 := rfl) ..) | with_reducible rfl | split | dsimp only
theorem asyRestore_keeps (path : Path) (cl : Nat) (v : Word) (s : State) (hmem : Keeps qs s) : Keeps qs (asyRestore path cl v s) := by
  unfold asyRestore
  try dsimp only
  repeat' first
    | intro _ | with_reducible assumption | with_reducible apply restoreStatus_keeps | dsimp only
theorem cairnAdd_keeps (kind : Nat) (args : List Nat) (s : State) (hmem : Keeps qs s) : Keeps qs (cairnAdd kind args s) := by
  unfold cairnAdd
  try dsimp only
  repeat' first
    | intro _ | with_reducible assumption | with_reducible apply bumpF_keeps | with_reducible apply raise_keeps | with_reducible apply setF_keeps
    | with_reducible apply keeps_ite | fail_if_no_progress (with_reducible refine keeps_mk (h := ?_) (h4 := rfl) (h5 := rfl) ..) | with_reducible rfl
    | split | dsimp only
theorem cmdFinish_keeps (code : Nat) (s : State) (hmem : Keeps qs s) : Keeps qs (cmdFinish code s) := by
  unfold cmdFinish
  try dsimp only
  repeat' first
    | intro _ | with_reducible assumption | with_reducible apply setF_keeps | dsimp only
theorem cmdFinishOf_keeps (op code : Nat) (s : State) (hmem : Keeps qs s) : Keeps qs (cmdFinishOf op code s) := by
  unfold cmdFinishOf
  try dsimp only
  repeat' first
    | intro _ | with_reducible assumption | with_reducible apply cmdFinish_keeps | with_reducible apply keeps_ite | split | dsimp only
theorem cmdResult_keeps (v : Nat) (s : State) (hmem : Keeps qs s) : Keeps qs (cmdResult v s) := by
  unfold cmdResult
  try dsimp only
  repeat' first
    | intro _ | with_reducible assumption | with_reducible apply setPair_keeps | dsimp only
theorem cmdAbandon_keeps (s : State) (hmem : Keeps qs s) : Keeps qs (cmdAbandon s) := by
  unfold cmdAbandon
  try dsimp only
  repeat' first
    | intro _ | with_reducible assumption | with_reducible apply raise_keeps | with_reducible apply cmdFinish_keeps | with_reducible apply keeps_ite
    | fail_if_no_progress (with_reducible refine keeps_mk (h := ?_) (h4 := rfl) (h5 := rfl) ..) | with_reducible rfl | split | dsimp only
theorem setFaulted_keeps (cause : Nat) (s : State) (hmem : Keeps qs s) : Keeps qs (setFaulted cause s) := by
  unfold setFaulted
  try dsimp only
  repeat' first
    | intro _ | with_reducible assumption | with_reducible apply cmdAbandon_keeps | with_reducible apply setPkg_keeps
    | fail_if_no_progress (with_reducible refine keeps_mk (h := ?_) (h4 := rfl) (h5 := rfl) ..) | with_reducible rfl | dsimp only
theorem cmdReject_keeps (path : Path) (op outcome rec : Nat) (s : State) (hmem : Keeps qs s) : Keeps qs (cmdReject path op outcome rec s) := by
  unfold cmdReject
  try dsimp only
  repeat' first
    | intro _ | with_reducible assumption | with_reducible apply raise_keeps | with_reducible apply setF_keeps | dsimp only
theorem cmdAccept_keeps (op : Nat) (s : State) (hmem : Keeps qs s) : Keeps qs (cmdAccept op s) := by
  unfold cmdAccept
  try dsimp only
  repeat' first
    | intro _ | with_reducible assumption | with_reducible apply cmdResult_keeps | with_reducible apply setF_keeps | dsimp only
theorem command_keeps (path : Path) (op : Nat) (argOk : State → Bool) (auth : State → Bool) (tried : State → State) (body : State → State) (s : State) (htried : ∀ t, Keeps qs t → Keeps qs (tried t)) (hbody : ∀ t, Keeps qs t → Keeps qs (body t)) (hmem : Keeps qs s) : Keeps qs (command path op argOk auth tried body s) := by
  unfold command
  try dsimp only
  repeat' first
    | intro _ | with_reducible assumption | with_reducible apply setF_keeps | with_reducible apply bumpF_keeps | with_reducible apply cmdReject_keeps
    | with_reducible apply cmdAccept_keeps | with_reducible apply htried | with_reducible apply hbody | with_reducible apply keeps_ite | split
    | dsimp only
theorem plainCommand_keeps (path : Path) (op : Nat) (body : State → State) (s : State) (hbody : ∀ t, Keeps qs t → Keeps qs (body t)) (hmem : Keeps qs s) : Keeps qs (plainCommand path op body s) := by
  unfold plainCommand
  try dsimp only
  repeat' first
    | intro _ | with_reducible assumption | with_reducible apply command_keeps | with_reducible apply hbody | with_reducible apply keeps_id
    | dsimp only
theorem writeExt_keeps (off : Nat) (bs : List Byte) (s : State) (hmem : Keeps qs s) : Keeps qs (writeExt off bs s) := by
  unfold writeExt
  try dsimp only
  repeat' first
    | intro _ | with_reducible assumption | with_reducible apply bs_keeps | with_reducible apply writeOff_keeps | dsimp only
theorem drainAbandon_keeps (s : State) (hmem : Keeps qs s) : Keeps qs (drainAbandon s) := by
  unfold drainAbandon
  try dsimp only
  repeat' first
    | intro _ | with_reducible assumption | with_reducible apply raise_keeps | with_reducible apply setF_keeps
    | fail_if_no_progress (with_reducible refine keeps_mk (h := ?_) (h4 := rfl) (h5 := rfl) ..) | with_reducible rfl | split | dsimp only
theorem voteClear_keeps (s : State) (hmem : Keeps qs s) : Keeps qs (voteClear s) := by
  unfold voteClear
  try dsimp only
  repeat' first
    | intro _ | with_reducible assumption | fail_if_no_progress (with_reducible refine keeps_mk (h := ?_) (h4 := rfl) (h5 := rfl) ..)
    | with_reducible rfl | dsimp only
theorem copyClear_keeps (s : State) (hmem : Keeps qs s) : Keeps qs (copyClear s) := by
  unfold copyClear
  try dsimp only
  repeat' first
    | intro _ | with_reducible assumption | fail_if_no_progress (with_reducible refine keeps_mk (h := ?_) (h4 := rfl) (h5 := rfl) ..)
    | with_reducible rfl | dsimp only
theorem freezeSkip_keeps (s : State) (hmem : Keeps qs s) : Keeps qs (freezeSkip s) := by
  unfold freezeSkip
  try dsimp only
  repeat' first
    | intro _ | with_reducible assumption | with_reducible apply setF_keeps | with_reducible apply keeps_ite
    | fail_if_no_progress (with_reducible refine keeps_mk (h := ?_) (h4 := rfl) (h5 := rfl) ..) | with_reducible rfl | split | dsimp only
theorem recoveryFreeze_keeps (cause : Nat) (s : State) (hmem : Keeps qs s) : Keeps qs (recoveryFreeze cause s) := by
  unfold recoveryFreeze
  try dsimp only
  repeat' first
    | intro _ | with_reducible assumption | with_reducible apply halt_keeps | with_reducible apply copyClear_keeps
    | with_reducible apply voteClear_keeps | with_reducible apply drainAbandon_keeps | with_reducible apply raise_keeps
    | with_reducible apply frozenCheck_keeps | with_reducible apply setF_keeps | with_reducible apply freezeSkip_keeps
    | with_reducible apply keeps_ite | fail_if_no_progress (with_reducible refine keeps_mk (h := ?_) (h4 := rfl) (h5 := rfl) ..) | with_reducible rfl
    | split | dsimp only
theorem freezeDecided_keeps (err : Bool) (s : State) (hmem : Keeps qs s) : Keeps qs (freezeDecided err s) := by
  unfold freezeDecided
  try dsimp only
  repeat' first
    | intro _ | with_reducible assumption | with_reducible apply setF_keeps | with_reducible apply flush_keeps | with_reducible apply voteClear_keeps
    | with_reducible apply keeps_ite | with_reducible apply keeps_foldl
    | fail_if_no_progress (with_reducible refine keeps_mk (h := ?_) (h4 := rfl) (h5 := rfl) ..) | with_reducible rfl | split | dsimp only
theorem voteAborted_keeps (s : State) (hmem : Keeps qs s) : Keeps qs (voteAborted s) := by
  unfold voteAborted
  try dsimp only
  repeat' first
    | intro _ | with_reducible assumption | with_reducible apply voteClear_keeps | with_reducible apply cmdFinishOf_keeps
    | with_reducible apply setF_keeps | with_reducible apply freezeDecided_keeps | with_reducible apply recoveryFreeze_keeps
    | with_reducible apply keeps_ite | fail_if_no_progress (with_reducible refine keeps_mk (h := ?_) (h4 := rfl) (h5 := rfl) ..) | with_reducible rfl
    | split | dsimp only
theorem halRefuse_keeps (m : HalMsg) (s : State) (hmem : Keeps qs s) : Keeps qs (halRefuse m s) := by
  unfold halRefuse
  try dsimp only
  repeat' first
    | intro _ | with_reducible assumption | with_reducible apply raise_keeps | with_reducible apply halSend_keeps | dsimp only
theorem halWriteLines_keeps (pm : Nat) : ∀ (l : List Nat) (x : List Line) (i : Nat) (s : State), Keeps qs s → Keeps qs (halWriteLines pm l x i s)
  | [], _, _, s, h => by unfold halWriteLines; exact h
  | _ :: _, [], _, s, h => by unfold halWriteLines; exact h
  | pl :: m, x :: xs, i, s, h => by
    unfold halWriteLines
    repeat' first
      | intro _ | with_reducible assumption | with_reducible apply halWriteLines_keeps | with_reducible apply poisonLine_keeps
      | with_reducible apply lineWrite_keeps | with_reducible apply delDir_keeps | with_reducible apply keeps_ite | with_reducible apply keeps_foldl
      | fail_if_no_progress (with_reducible refine keeps_mk (h := ?_) (h4 := rfl) (h5 := rfl) ..) | with_reducible rfl | split | dsimp only
theorem halServe_keeps (m : HalMsg) (s : State) (hmem : Keeps qs s) : Keeps qs (halServe m s) := by
  unfold halServe
  try dsimp only
  repeat' first
    | intro _ | with_reducible assumption | with_reducible apply halRefuse_keeps | with_reducible apply setDir_keeps
    | with_reducible apply depotClean_keeps | with_reducible apply dirRoom_keeps | with_reducible apply halSend_keeps
    | with_reducible apply depotDrop_keeps | with_reducible apply halWriteLines_keeps | with_reducible apply keeps_ite
    | fail_if_no_progress (with_reducible refine keeps_mk (h := ?_) (h4 := rfl) (h5 := rfl) ..) | with_reducible rfl | split | dsimp only
theorem halAccept_keeps (m : HalMsg) (s : State) (hmem : Keeps qs s) : Keeps qs (halAccept m s) := by
  unfold halAccept
  try dsimp only
  repeat' first
    | intro _ | with_reducible assumption | with_reducible apply halRefuse_keeps | with_reducible apply homeWait_keeps
    | with_reducible apply halServe_keeps | with_reducible apply keeps_ite
    | fail_if_no_progress (with_reducible refine keeps_mk (h := ?_) (h4 := rfl) (h5 := rfl) ..) | with_reducible rfl | split | dsimp only
theorem snoopClose_keeps (t : BitVec 16) (shared : Bool) (data : Option (Line × Bool)) (s : State) (hmem : Keeps qs s) : Keeps qs (snoopClose t shared data s) := by
  unfold snoopClose
  try dsimp only
  repeat' first
    | intro _ | with_reducible assumption | with_reducible apply setDir_keeps | with_reducible apply delDir_keeps
    | with_reducible apply lineWrite_keeps | with_reducible apply poisonLine_keeps | with_reducible apply keeps_ite
    | fail_if_no_progress (with_reducible refine keeps_mk (h := ?_) (h4 := rfl) (h5 := rfl) ..) | with_reducible rfl | split | dsimp only
theorem halWb_keeps (m : HalMsg) (s : State) (hmem : Keeps qs s) : Keeps qs (halWb m s) := by
  unfold halWb
  try dsimp only
  repeat' first
    | intro _ | with_reducible assumption | with_reducible apply lineWrite_keeps | with_reducible apply delDir_keeps
    | with_reducible apply halSend_keeps | with_reducible apply poisonLine_keeps | with_reducible apply halRefuse_keeps
    | with_reducible apply keeps_ite | fail_if_no_progress (with_reducible refine keeps_mk (h := ?_) (h4 := rfl) (h5 := rfl) ..) | with_reducible rfl
    | split | dsimp only
theorem snoopHeld_keeps (inv : Bool) (m : HalMsg) (key : Nat) (d : DepotLine) (s : State) (hmem : Keeps qs s) : Keeps qs (snoopHeld inv m key d s) := by
  unfold snoopHeld
  try dsimp only
  repeat' first
    | intro _ | with_reducible assumption | with_reducible apply halSend_keeps | with_reducible apply keeps_ite
    | fail_if_no_progress (with_reducible refine keeps_mk (h := ?_) (h4 := rfl) (h5 := rfl) ..) | with_reducible rfl | split | dsimp only
theorem halSnooped_keeps (inv : Bool) (m : HalMsg) (s : State) (hmem : Keeps qs s) : Keeps qs (halSnooped inv m s) := by
  unfold halSnooped
  try dsimp only
  repeat' first
    | intro _ | with_reducible assumption | with_reducible apply halSend_keeps | with_reducible apply snoopHeld_keeps
    | fail_if_no_progress (with_reducible refine keeps_mk (h := ?_) (h4 := rfl) (h5 := rfl) ..) | with_reducible rfl | split | dsimp only
theorem reqClose_keeps (r : HalReq) (s : State) (hmem : Keeps qs s) : Keeps qs (reqClose r s) := by
  unfold reqClose
  try dsimp only
  repeat' first
    | intro _ | with_reducible assumption | fail_if_no_progress (with_reducible refine keeps_mk (h := ?_) (h4 := rfl) (h5 := rfl) ..)
    | with_reducible rfl | dsimp only
theorem giveCompanion_keeps (r : HalReq) (own : Bool) (data : Line) (poison : Bool) (s : State) (hmem : Keeps qs s) : Keeps qs (giveCompanion r own data poison s) := by
  unfold giveCompanion
  try dsimp only
  repeat' first
    | intro _ | with_reducible assumption | with_reducible apply reqClose_keeps | with_reducible apply depotPut_keeps
    | with_reducible apply setEng_keeps | with_reducible apply compRelease_keeps | with_reducible apply load_keeps
    | with_reducible apply setCore_keeps | with_reducible apply keeps_ite | with_reducible apply keeps_foldl
    | fail_if_no_progress (with_reducible refine keeps_mk (h := ?_) (h4 := rfl) (h5 := rfl) ..) | with_reducible rfl | split | dsimp only
theorem halAnswered_keeps (own : Bool) (m : HalMsg) (data : Line) (poison : Bool) (s : State) (hmem : Keeps qs s) : Keeps qs (halAnswered own m data poison s) := by
  unfold halAnswered
  try dsimp only
  repeat' first
    | intro _ | with_reducible assumption | with_reducible apply giveCompanion_keeps
    | fail_if_no_progress (with_reducible refine keeps_mk (h := ?_) (h4 := rfl) (h5 := rfl) ..) | with_reducible rfl | split | dsimp only
theorem reqFailed_keeps (r : HalReq) (s : State) (hmem : Keeps qs s) : Keeps qs (reqFailed r s) := by
  unfold reqFailed
  try dsimp only
  repeat' first
    | intro _ | with_reducible assumption | with_reducible apply giveCompanion_keeps | dsimp only
theorem halComplete_keeps (m : HalMsg) (s : State) (hmem : Keeps qs s) : Keeps qs (halComplete m s) := by
  unfold halComplete
  try dsimp only
  repeat' first
    | intro _ | with_reducible assumption | with_reducible apply reqClose_keeps | with_reducible apply compRelease_keeps
    | with_reducible apply keeps_ite | fail_if_no_progress (with_reducible refine keeps_mk (h := ?_) (h4 := rfl) (h5 := rfl) ..) | with_reducible rfl
    | split | dsimp only
theorem takenBack_keeps (pl : Nat) (s : State) (hmem : Keeps qs s) : Keeps qs (takenBack pl s) := by
  unfold takenBack
  try dsimp only
  repeat' first
    | intro _ | with_reducible assumption | with_reducible apply raise_keeps | with_reducible apply poisonLine_keeps | with_reducible apply setF_keeps
    | with_reducible apply bumpF_keeps | dsimp only
theorem halTimeout_keeps (t : BitVec 16) (s : State) (hmem : Keeps qs s) : Keeps qs (halTimeout t s) := by
  unfold halTimeout
  try dsimp only
  repeat' first
    | intro _ | with_reducible assumption | with_reducible apply takenBack_keeps | with_reducible apply snoopClose_keeps
    | with_reducible apply raise_keeps | with_reducible apply reqFailed_keeps
    | fail_if_no_progress (with_reducible refine keeps_mk (h := ?_) (h4 := rfl) (h5 := rfl) ..) | with_reducible rfl | split | dsimp only
theorem halPortDown_keeps (p : Nat) (s : State) (hmem : Keeps qs s) : Keeps qs (halPortDown p s) := by
  unfold halPortDown
  try dsimp only
  repeat' first
    | intro _ | with_reducible assumption | with_reducible apply setLink_keeps | with_reducible apply setF_keeps | with_reducible apply halPut_keeps
    | with_reducible apply raise_keeps | with_reducible apply keeps_ite | with_reducible apply keeps_foldl
    | fail_if_no_progress (with_reducible refine keeps_mk (h := ?_) (h4 := rfl) (h5 := rfl) ..) | with_reducible rfl | split | dsimp only
theorem halTrain_keeps (s : State) (hmem : Keeps qs s) : Keeps qs (halTrain s) := by
  unfold halTrain
  try dsimp only
  repeat' first
    | intro _ | with_reducible assumption | with_reducible apply setF_keeps
    | fail_if_no_progress (with_reducible refine keeps_mk (h := ?_) (h4 := rfl) (h5 := rfl) ..) | with_reducible rfl | dsimp only
theorem halRetrain_keeps (s : State) (hmem : Keeps qs s) : Keeps qs (halRetrain s) := by
  unfold halRetrain
  try dsimp only
  repeat' first
    | intro _ | with_reducible assumption | with_reducible apply setF_keeps | dsimp only
theorem takeBackAll_keeps (s : State) (hmem : Keeps qs s) : Keeps qs (takeBackAll s) := by
  unfold takeBackAll
  try dsimp only
  repeat' first
    | intro _ | with_reducible assumption | with_reducible apply takenBack_keeps | with_reducible apply keeps_foldl
    | fail_if_no_progress (with_reducible refine keeps_mk (h := ?_) (h4 := rfl) (h5 := rfl) ..) | with_reducible rfl | dsimp only
theorem halDown_keeps (s : State) (hmem : Keeps qs s) : Keeps qs (halDown s) := by
  unfold halDown
  try dsimp only
  repeat' first
    | intro _ | with_reducible assumption | with_reducible apply raise_keeps | with_reducible apply setF_keeps
    | with_reducible apply takeBackAll_keeps | with_reducible apply recoveryFreeze_keeps | with_reducible apply reqFailed_keeps
    | with_reducible apply keeps_ite | with_reducible apply keeps_foldl
    | fail_if_no_progress (with_reducible refine keeps_mk (h := ?_) (h4 := rfl) (h5 := rfl) ..) | with_reducible rfl | split | dsimp only
theorem showPending_keeps (st : Nat) (s : State) (hmem : Keeps qs s) : Keeps qs (showPending st s) := by
  unfold showPending
  try dsimp only
  repeat' first
    | intro _ | with_reducible assumption | with_reducible apply setF_keeps | dsimp only
theorem rowQualifies_keeps (st c bank row : Nat) (s : State) (hmem : Keeps qs s) : Keeps qs (rowQualifies st c bank row s) := by
  unfold rowQualifies
  try dsimp only
  repeat' first
    | intro _ | with_reducible assumption | with_reducible apply showPending_keeps | with_reducible apply raise_keeps
    | with_reducible apply bumpF_keeps | with_reducible apply keeps_ite
    | fail_if_no_progress (with_reducible refine keeps_mk (h := ?_) (h4 := rfl) (h5 := rfl) ..) | with_reducible rfl | split | dsimp only
theorem rowCorrected_keeps (st c bank row : Nat) (s : State) (hmem : Keeps qs s) : Keeps qs (rowCorrected st c bank row s) := by
  unfold rowCorrected
  try dsimp only
  repeat' first
    | intro _ | with_reducible assumption | with_reducible apply rowQualifies_keeps | with_reducible apply keeps_ite
    | fail_if_no_progress (with_reducible refine keeps_mk (h := ?_) (h4 := rfl) (h5 := rfl) ..) | with_reducible rfl | split | dsimp only
theorem lineRead_keeps (st c line row bank err : Nat) (s : State) (hmem : Keeps qs s) : Keeps qs (lineRead st c line row bank err s) := by
  unfold lineRead
  try dsimp only
  repeat' first
    | intro _ | with_reducible assumption | with_reducible apply addPair_keeps | with_reducible apply rowCorrected_keeps
    | with_reducible apply tally_keeps | with_reducible apply bumpF_keeps | with_reducible apply setChan_keeps | with_reducible apply setF_keeps
    | with_reducible apply poisonAdd_keeps | with_reducible apply capture_keeps | with_reducible apply raise_keeps
    | with_reducible apply rowQualifies_keeps | with_reducible apply keeps_ite
    | fail_if_no_progress (with_reducible refine keeps_mk (h := ?_) (h4 := rfl) (h5 := rfl) ..) | with_reducible rfl | split | dsimp only
theorem lineStore_keeps (st c line : Nat) (data : Line) (s : State) (hmem : Keeps qs s) : Keeps qs (lineStore st c line data s) := by
  unfold lineStore
  try dsimp only
  repeat' first
    | intro _ | with_reducible assumption | with_reducible apply addPair_keeps | with_reducible apply hbmWrite_keeps | with_reducible apply keeps_ite
    | split | dsimp only
theorem patrol_keeps (st c line row bank err : Nat) (s : State) (hmem : Keeps qs s) : Keeps qs (patrol st c line row bank err s) := by
  unfold patrol
  try dsimp only
  repeat' first
    | intro _ | with_reducible assumption | with_reducible apply lineRead_keeps | with_reducible apply keeps_ite | split | dsimp only
theorem refresh_keeps (st c : Nat) (s : State) (hmem : Keeps qs s) : Keeps qs (refresh st c s) := by
  unfold refresh
  try dsimp only
  repeat' first
    | intro _ | with_reducible assumption | with_reducible apply setChan_keeps | with_reducible apply keeps_ite
    | fail_if_no_progress (with_reducible refine keeps_mk (h := ?_) (h4 := rfl) (h5 := rfl) ..) | with_reducible rfl | split | dsimp only
theorem retrainBegin_keeps (st c fails : Nat) (s : State) (hmem : Keeps qs s) : Keeps qs (retrainBegin st c fails s) := by
  unfold retrainBegin
  try dsimp only
  repeat' first
    | intro _ | with_reducible assumption | with_reducible apply setF_keeps | with_reducible apply bumpF_keeps | with_reducible apply tally_keeps
    | with_reducible apply setChan_keeps | fail_if_no_progress (with_reducible refine keeps_mk (h := ?_) (h4 := rfl) (h5 := rfl) ..)
    | with_reducible rfl | dsimp only
theorem retrainTrigger_keeps (st c : Nat) (s : State) (hmem : Keeps qs s) : Keeps qs (retrainTrigger st c s) := by
  unfold retrainTrigger
  try dsimp only
  repeat' first
    | intro _ | with_reducible assumption | with_reducible apply setChan_keeps | with_reducible apply retrainBegin_keeps
    | with_reducible apply keeps_ite | fail_if_no_progress (with_reducible refine keeps_mk (h := ?_) (h4 := rfl) (h5 := rfl) ..) | with_reducible rfl
    | split | dsimp only
theorem retrainAuto_keeps (st c : Nat) (s : State) (hmem : Keeps qs s) : Keeps qs (retrainAuto st c s) := by
  unfold retrainAuto
  try dsimp only
  repeat' first
    | intro _ | with_reducible assumption | with_reducible apply retrainTrigger_keeps | with_reducible apply keeps_ite | split | dsimp only
theorem sliceStart_keeps (st c : Nat) (s : State) (hmem : Keeps qs s) : Keeps qs (sliceStart st c s) := by
  unfold sliceStart
  try dsimp only
  repeat' first
    | intro _ | with_reducible assumption | with_reducible apply setChan_keeps | with_reducible apply keeps_ite
    | fail_if_no_progress (with_reducible refine keeps_mk (h := ?_) (h4 := rfl) (h5 := rfl) ..) | with_reducible rfl | split | dsimp only
theorem retrainNext_keeps (st : Nat) (s : State) (hmem : Keeps qs s) : Keeps qs (retrainNext st s) := by
  unfold retrainNext
  try dsimp only
  repeat' first
    | intro _ | with_reducible assumption | with_reducible apply setF_keeps | with_reducible apply retrainBegin_keeps
    | fail_if_no_progress (with_reducible refine keeps_mk (h := ?_) (h4 := rfl) (h5 := rfl) ..) | with_reducible rfl | split | dsimp only
theorem sliceEnd_keeps (st c : Nat) (last ok : Bool) (s : State) (hmem : Keeps qs s) : Keeps qs (sliceEnd st c last ok s) := by
  unfold sliceEnd
  try dsimp only
  repeat' first
    | intro _ | with_reducible assumption | with_reducible apply setChan_keeps | with_reducible apply retrainNext_keeps
    | with_reducible apply retrainBegin_keeps | with_reducible apply setF_keeps | with_reducible apply recoveryFreeze_keeps
    | with_reducible apply raise_keeps | with_reducible apply keeps_ite
    | fail_if_no_progress (with_reducible refine keeps_mk (h := ?_) (h4 := rfl) (h5 := rfl) ..) | with_reducible rfl | split | dsimp only
theorem selftest_keeps (st c : Nat) (s : State) (hmem : Keeps qs s) : Keeps qs (selftest st c s) := by
  unfold selftest
  try dsimp only
  repeat' first
    | intro _ | with_reducible assumption | with_reducible apply setChan_keeps | with_reducible apply keeps_ite
    | fail_if_no_progress (with_reducible refine keeps_mk (h := ?_) (h4 := rfl) (h5 := rfl) ..) | with_reducible rfl | split | dsimp only
theorem selftestDone_keeps (st c : Nat) (pass : Bool) (s : State) (hmem : Keeps qs s) : Keeps qs (selftestDone st c pass s) := by
  unfold selftestDone
  try dsimp only
  repeat' first
    | intro _ | with_reducible assumption | with_reducible apply setF_keeps | with_reducible apply setChan_keeps | with_reducible apply keeps_ite
    | fail_if_no_progress (with_reducible refine keeps_mk (h := ?_) (h4 := rfl) (h5 := rfl) ..) | with_reducible rfl | split | dsimp only
theorem memAdmit_keeps (st c : Nat) (s : State) (hmem : Keeps qs s) : Keeps qs (memAdmit st c s) := by
  unfold memAdmit
  try dsimp only
  repeat' first
    | intro _ | with_reducible assumption | with_reducible apply setChan_keeps | with_reducible apply raise_keeps | with_reducible apply keeps_ite
    | fail_if_no_progress (with_reducible refine keeps_mk (h := ?_) (h4 := rfl) (h5 := rfl) ..) | with_reducible rfl | split | dsimp only
theorem admitChannels_keeps (s : State) (hmem : Keeps qs s) : Keeps qs (admitChannels s) := by
  unfold admitChannels
  try dsimp only
  repeat' first
    | intro _ | with_reducible assumption | with_reducible apply setF_keeps | with_reducible apply setChan_keeps | with_reducible apply keeps_ite
    | with_reducible apply keeps_foldl | fail_if_no_progress (with_reducible refine keeps_mk (h := ?_) (h4 := rfl) (h5 := rfl) ..)
    | with_reducible rfl | split | dsimp only
theorem spreadWrite_keeps (path : Path) (v : Nat) (s : State) (hmem : Keeps qs s) : Keeps qs (spreadWrite path v s) := by
  unfold spreadWrite
  try dsimp only
  repeat' first
    | intro _ | with_reducible assumption | with_reducible apply setF_keeps | with_reducible apply rejectWrite_keeps | with_reducible apply keeps_ite
    | split | dsimp only
theorem repairCmd_keeps (path : Path) (s : State) (hmem : Keeps qs s) : Keeps qs (repairCmd path s) := by
  unfold repairCmd
  try dsimp only
  repeat' first
    | intro _ | with_reducible assumption | with_reducible apply plainCommand_keeps | with_reducible apply setF_keeps
    | with_reducible apply keeps_foldl | dsimp only
theorem repairRows_keeps (st : Nat) : ∀ (l d : List RowRec) (s : State), Keeps qs s → Keeps qs (repairRows st l d s).2
  | [], _, s, h => h
  | r :: m, d, s, h => by
    unfold repairRows
    split
    · exact repairRows_keeps st m d s h
    · exact repairRows_keeps st m _ _ (keeps_same s _ h rfl rfl rfl rfl rfl rfl)
theorem repairTsv_keeps (n st c : Nat) (s : State) (hmem : Keeps qs s) : Keeps qs (repairTsv n st c s) := by
  unfold repairTsv
  try dsimp only
  repeat' first
    | intro _ | with_reducible assumption | with_reducible apply retrainTrigger_keeps | with_reducible apply setChan_keeps
    | with_reducible apply keeps_ite | fail_if_no_progress (with_reducible refine keeps_mk (h := ?_) (h4 := rfl) (h5 := rfl) ..) | with_reducible rfl
    | split | dsimp only
theorem repairStack_keeps (n : Nat) (s : State) (st : Nat) (hmem : Keeps qs s) : Keeps qs (repairStack n s st) := by
  unfold repairStack
  try dsimp only
  repeat' first
    | intro _ | with_reducible assumption | with_reducible apply repairRows_keeps | with_reducible apply repairTsv_keeps
    | with_reducible apply cairnAdd_keeps | with_reducible apply showPending_keeps | with_reducible apply setF_keeps | with_reducible apply keeps_ite
    | with_reducible apply keeps_foldl | split | dsimp only
theorem repairDone_keeps (ok : Bool) (s : State) (hmem : Keeps qs s) : Keeps qs (repairDone ok s) := by
  unfold repairDone
  try dsimp only
  repeat' first
    | intro _ | with_reducible assumption | with_reducible apply cmdFinish_keeps | with_reducible apply repairStack_keeps
    | with_reducible apply setF_keeps | with_reducible apply keeps_ite | with_reducible apply keeps_foldl
    | fail_if_no_progress (with_reducible refine keeps_mk (h := ?_) (h4 := rfl) (h5 := rfl) ..) | with_reducible rfl | split | dsimp only
theorem reducingWrite_keeps (off : Nat) (data : Line) (poison ue : Bool) (s : State) (hmem : Keeps qs s) : Keeps qs (reducingWrite off data poison ue s) := by
  unfold reducingWrite
  try dsimp only
  repeat' first
    | intro _ | with_reducible assumption | with_reducible apply depotUe_keeps | with_reducible apply homeWrite_keeps | with_reducible apply keeps_ite
    | fail_if_no_progress (with_reducible refine keeps_mk (h := ?_) (h4 := rfl) (h5 := rfl) ..) | with_reducible rfl | split | dsimp only
theorem depFlush_keeps (d : Fin 4) (s : State) (hmem : Keeps qs s) : Keeps qs (depFlush d s) := by
  unfold depFlush
  try dsimp only
  repeat' first
    | intro _ | with_reducible assumption | with_reducible apply flush_keeps | with_reducible apply setF_keeps | dsimp only
theorem depInval_keeps (path : Path) (d : Fin 4) (s : State) (hmem : Keeps qs s) : Keeps qs (depInval path d s) := by
  unfold depInval
  try dsimp only
  repeat' first
    | intro _ | with_reducible assumption | with_reducible apply flush_keeps | with_reducible apply setF_keeps
    | with_reducible apply rejectWrite_keeps | with_reducible apply keeps_ite | split | dsimp only
theorem setDsp_keeps (d : Nat) (x : Dsp) (s : State) (hmem : Keeps qs s) : Keeps qs (setDsp d x s) := by
  unfold setDsp
  try dsimp only
  repeat' first
    | intro _ | with_reducible assumption | fail_if_no_progress (with_reducible refine keeps_mk (h := ?_) (h4 := rfl) (h5 := rfl) ..)
    | with_reducible rfl | dsimp only
theorem writeWords_keeps (k n : Nat) : ∀ (l : List Nat) (a : Nat) (s : State), Keeps qs s → Keeps qs (writeWords k n l a s)
  | [], _, s, h => h
  | v :: vs, a, s, h => by unfold writeWords; exact writeWords_keeps k n vs _ _ (engWrite_keeps _ _ _ _ _ h)
theorem dspStart_keeps (d : Nat) (s : State) (hmem : Keeps qs s) : Keeps qs (dspStart d s) := by
  unfold dspStart
  try dsimp only
  repeat' first
    | intro _ | with_reducible assumption | with_reducible apply bs_keeps | with_reducible apply setDsp_keeps | with_reducible apply writeWords_keeps
    | with_reducible apply keeps_ite | with_reducible apply keeps_foldl
    | fail_if_no_progress (with_reducible refine keeps_mk (h := ?_) (h4 := rfl) (h5 := rfl) ..) | with_reducible rfl | split | dsimp only
theorem dspUe_keeps (d : Nat) : ∀ (l : List Nat) (s : State), Keeps qs s → Keeps qs (dspUe d l s)
  | [], s, h => h
  | a :: m, s, h => by unfold dspUe; exact dspUe_keeps d m _ (raise_keeps _ _ _ _ _ _ (bumpF_keeps _ _ _ _ (setF_keeps _ _ _ _ h)))
theorem dspJoin_keeps (d ha h : Nat) (con : Contrib) (s : State) (hmem : Keeps qs s) : Keeps qs (dspJoin d ha h con s) := by
  unfold dspJoin
  try dsimp only
  repeat' first
    | intro _ | with_reducible assumption | with_reducible apply setDsp_keeps | with_reducible apply keeps_ite
    | fail_if_no_progress (with_reducible refine keeps_mk (h := ?_) (h4 := rfl) (h5 := rfl) ..) | with_reducible rfl | split | dsimp only
theorem dspAsk_keeps (d cl : Nat) (bad : List Nat) (ga : Nat) (s : State) (f : State → State) (hf : dspAsk d cl bad ga s = some f) (h : Keeps qs s) :
    Keeps qs (f s) := by
  unfold dspAsk at hf
  dsimp only at hf
  split at hf
  · exact blockAsk_keeps _ _ _ _ hf h
  · cases hf
theorem dspContribution_keeps (d : Nat) (ecc : Ecc) (s : State) (hmem : Keeps qs s) : Keeps qs (dspContribution d ecc s) := by
  unfold dspContribution
  try dsimp only
  repeat' first
    | intro _ | with_reducible assumption | with_reducible apply bumpF_keeps | with_reducible apply setEng_keeps
    | with_reducible apply engReject_keeps | with_reducible apply dspStart_keeps | with_reducible apply dspUe_keeps
    | with_reducible apply ranAdd_keeps | with_reducible apply dspJoin_keeps
    | fail_if_no_progress (with_reducible refine keeps_mk (h := ?_) (h4 := rfl) (h5 := rfl) ..) | with_reducible rfl | split | dsimp only
  all_goals exact dspAsk_keeps _ _ _ _ _ _ (by assumption) (by assumption)
theorem dspExchange_keeps (d : Nat) (s : State) (hmem : Keeps qs s) : Keeps qs (dspExchange d s) := by
  unfold dspExchange
  try dsimp only
  repeat' first
    | intro _ | with_reducible assumption | with_reducible apply bs_keeps | with_reducible apply setDsp_keeps | with_reducible apply keeps_ite
    | with_reducible apply keeps_foldl | fail_if_no_progress (with_reducible refine keeps_mk (h := ?_) (h4 := rfl) (h5 := rfl) ..)
    | with_reducible rfl | split | dsimp only
theorem writeList_keeps (d hd e base : Nat) : ∀ (l : List (Nat × Nat × Nat)) (i : Nat) (s : State), Keeps qs s → Keeps qs (writeList d hd e base l i s)
  | [], _, s, h => h
  | (o, r, sc) :: m, i, s, h => by
    unfold writeList
    repeat' first
      | intro _ | with_reducible assumption | with_reducible apply writeList_keeps | with_reducible apply engWrite_keeps
      | with_reducible apply keeps_ite | with_reducible apply keeps_foldl
      | fail_if_no_progress (with_reducible refine keeps_mk (h := ?_) (h4 := rfl) (h5 := rfl) ..) | with_reducible rfl | split | dsimp only
theorem dspBatchDone_keeps (d : Nat) (s : State) (hmem : Keeps qs s) : Keeps qs (dspBatchDone d s) := by
  unfold dspBatchDone
  try dsimp only
  repeat' first
    | intro _ | with_reducible assumption | with_reducible apply bs_keeps | with_reducible apply withRoom_keeps | with_reducible apply writeList_keeps
    | with_reducible apply writeWords_keeps | with_reducible apply addPair_keeps | with_reducible apply bumpF_keeps | with_reducible apply setF_keeps
    | with_reducible apply coreComplete_keeps | with_reducible apply setDsp_keeps | with_reducible apply jobEnd_keeps
    | with_reducible apply dspStart_keeps | with_reducible apply keeps_ite | with_reducible apply keeps_foldl
    | fail_if_no_progress (with_reducible refine keeps_mk (h := ?_) (h4 := rfl) (h5 := rfl) ..) | with_reducible rfl | split | dsimp only
theorem dspTimeout_keeps (d : Nat) (s : State) (hmem : Keeps qs s) : Keeps qs (dspTimeout d s) := by
  unfold dspTimeout
  try dsimp only
  repeat' first
    | intro _ | with_reducible assumption | with_reducible apply setF_keeps | with_reducible apply faultHere_keeps | with_reducible apply keeps_ite
    | with_reducible apply keeps_foldl | fail_if_no_progress (with_reducible refine keeps_mk (h := ?_) (h4 := rfl) (h5 := rfl) ..)
    | with_reducible rfl | split | dsimp only
theorem windowWrite_keeps {α : Type} (path : Path) (img : Option (Nat × α)) (base off : Nat) (v : Word) (put : α → State → State) (s : State) (hput : ∀ z0 t, Keeps qs t → Keeps qs (put z0 t)) (hmem : Keeps qs s) : OutKeeps qs (windowWrite path img base off v put s) := by
  unfold windowWrite
  try dsimp only
  repeat' first
    | intro _ | with_reducible assumption | with_reducible apply rejectWrite_keeps | with_reducible apply hput | with_reducible apply outKeeps_next
    | with_reducible apply outKeeps_fault | with_reducible apply keeps_ite
    | fail_if_no_progress (with_reducible refine keeps_mk (h := ?_) (h4 := rfl) (h5 := rfl) ..) | with_reducible rfl | split | dsimp only
theorem setGrpWord_keeps (g i v : Nat) (s : State) (hmem : Keeps qs s) : Keeps qs (setGrpWord g i v s) := by
  unfold setGrpWord
  try dsimp only
  repeat' first
    | intro _ | with_reducible assumption | with_reducible apply csrSet_keeps | dsimp only
theorem grpLoad_keeps (g : Nat) (s : State) (hmem : Keeps qs s) : Keeps qs (grpLoad g s) := by
  unfold grpLoad
  try dsimp only
  repeat' first
    | intro _ | with_reducible assumption | with_reducible apply setGrpWord_keeps | with_reducible apply keeps_ite
    | fail_if_no_progress (with_reducible refine keeps_mk (h := ?_) (h4 := rfl) (h5 := rfl) ..) | with_reducible rfl | split | dsimp only
theorem groupWrite_keeps (off : Nat) (v : Word) (s : State) (hmem : Keeps qs s) : Keeps qs (groupWrite off v s) := by
  unfold groupWrite
  try dsimp only
  repeat' first
    | intro _ | with_reducible assumption | with_reducible apply raise_keeps | with_reducible apply setGrpWord_keeps | with_reducible apply keeps_ite
    | fail_if_no_progress (with_reducible refine keeps_mk (h := ?_) (h4 := rfl) (h5 := rfl) ..) | with_reducible rfl | split | dsimp only
theorem groupPut_keeps (path : Path) (off : Nat) (v : Word) (s : State) (hmem : Keeps qs s) : Keeps qs (groupPut path off v s) := by
  unfold groupPut
  try dsimp only
  repeat' first
    | intro _ | with_reducible assumption | with_reducible apply groupWrite_keeps
    | fail_if_no_progress (with_reducible refine keeps_mk (h := ?_) (h4 := rfl) (h5 := rfl) ..) | with_reducible rfl | split | dsimp only
theorem colShow_keeps (s : State) (hmem : Keeps qs s) : Keeps qs (colShow s) := by
  unfold colShow
  try dsimp only
  repeat' first
    | intro _ | with_reducible assumption | with_reducible apply setF_keeps | with_reducible apply keeps_foldl | dsimp only
theorem setRun_keeps (x : ColX) (s : State) (hmem : Keeps qs s) : Keeps qs (setRun x s) := by
  unfold setRun
  try dsimp only
  repeat' first
    | intro _ | with_reducible assumption | with_reducible apply keeps_ite
    | fail_if_no_progress (with_reducible refine keeps_mk (h := ?_) (h4 := rfl) (h5 := rfl) ..) | with_reducible rfl | split | dsimp only
theorem withRun_keeps (g q : Nat) (body : ColX → State → State) (s : State) (hbody : ∀ z0 t, Keeps qs t → Keeps qs (body z0 t)) (hmem : Keeps qs s) : Keeps qs (withRun g q body s) := by
  unfold withRun
  try dsimp only
  repeat' first
    | intro _ | with_reducible assumption | with_reducible apply hbody | with_reducible apply keeps_ite
    | fail_if_no_progress (with_reducible refine keeps_mk (h := ?_) (h4 := rfl) (h5 := rfl) ..) | with_reducible rfl | split | dsimp only
theorem colEnd_keeps (x : ColX) (v : BitVec 128) (s : State) (hmem : Keeps qs s) : Keeps qs (colEnd x v s) := by
  unfold colEnd
  try dsimp only
  repeat' first
    | intro _ | with_reducible assumption | with_reducible apply setEng_keeps | with_reducible apply jobEnd_keeps | with_reducible apply colShow_keeps
    | with_reducible apply addPair_keeps | with_reducible apply coreComplete_keeps
    | fail_if_no_progress (with_reducible refine keeps_mk (h := ?_) (h4 := rfl) (h5 := rfl) ..) | with_reducible rfl | dsimp only
theorem slotSend_keeps (ctrl : Bool) (g q kind flags rank step chunk pm : Nat) (data : List Slot) (dst : Nat) (s : State) (hmem : Keeps qs s) : Keeps qs (slotSend ctrl g q kind flags rank step chunk pm data dst s) := by
  unfold slotSend
  try dsimp only
  repeat' first
    | intro _ | with_reducible assumption | with_reducible apply sendMsg_keeps | with_reducible apply addPair_keeps | with_reducible apply keeps_ite
    | split | dsimp only
theorem colSendTo_keeps (ctrl : Bool) (g q kind flags rank step chunk pm : Nat) (data : List Slot) (dst : Nat) (s : State) (hmem : Keeps qs s) : Keeps qs (colSendTo ctrl g q kind flags rank step chunk pm data dst s) := by
  unfold colSendTo
  try dsimp only
  repeat' first
    | intro _ | with_reducible assumption | with_reducible apply slotSend_keeps | with_reducible apply keeps_ite
    | fail_if_no_progress (with_reducible refine keeps_mk (h := ?_) (h4 := rfl) (h5 := rfl) ..) | with_reducible rfl | split | dsimp only
theorem colProgress_keeps (g q : Nat) (s : State) (hmem : Keeps qs s) : Keeps qs (colProgress g q s) := by
  unfold colProgress
  try dsimp only
  repeat' first
    | intro _ | with_reducible assumption | with_reducible apply withRun_keeps | with_reducible apply setRun_keeps
    | fail_if_no_progress (with_reducible refine keeps_mk (h := ?_) (h4 := rfl) (h5 := rfl) ..) | with_reducible rfl | dsimp only
theorem colSendAs_keeps (x : ColX) (ctrl : Bool) (kind flags rank step chunk pm : Nat) (data : List Slot) (r : Nat) (s : State) (hmem : Keeps qs s) : Keeps qs (colSendAs x ctrl kind flags rank step chunk pm data r s) := by
  unfold colSendAs
  try dsimp only
  repeat' first
    | intro _ | with_reducible assumption | with_reducible apply colProgress_keeps | with_reducible apply colSendTo_keeps | dsimp only
theorem colSend_keeps (x : ColX) (ctrl : Bool) (kind flags step chunk pm : Nat) (data : List Slot) (r : Nat) (s : State) (hmem : Keeps qs s) : Keeps qs (colSend x ctrl kind flags step chunk pm data r s) := by
  unfold colSend
  try dsimp only
  repeat' first
    | intro _ | with_reducible assumption | with_reducible apply colSendAs_keeps | dsimp only
theorem colDirty_keeps (g q chunk pkg : Nat) (tag : Option Nat) (s : State) (hmem : Keeps qs s) : Keeps qs (colDirty g q chunk pkg tag s) := by
  unfold colDirty
  try dsimp only
  repeat' first
    | intro _ | with_reducible assumption | with_reducible apply setF_keeps | with_reducible apply bumpF_keeps | with_reducible apply tally_keeps
    | with_reducible apply capture_keeps | with_reducible apply raise_keeps
    | fail_if_no_progress (with_reducible refine keeps_mk (h := ?_) (h4 := rfl) (h5 := rfl) ..) | with_reducible rfl | split | dsimp only
theorem colForward_keeps (m : Msg) (s : State) (hmem : Keeps qs s) : Keeps qs (colForward m s).2 := by
  unfold colForward
  try dsimp only
  repeat' first
    | intro _ | with_reducible assumption | with_reducible apply colDirty_keeps | with_reducible apply keeps_ite
    | fail_if_no_progress (with_reducible refine keeps_mk (h := ?_) (h4 := rfl) (h5 := rfl) ..) | with_reducible rfl | split | dsimp only
theorem abortFlood_keeps (g q cause origin : Nat) (s : State) (hmem : Keeps qs s) : Keeps qs (abortFlood g q cause origin s) := by
  unfold abortFlood
  try dsimp only
  repeat' first
    | intro _ | with_reducible assumption | with_reducible apply colSendTo_keeps | with_reducible apply keeps_foldl | dsimp only
theorem abortRun_keeps (x : ColX) (cause origin : Nat) (s : State) (hmem : Keeps qs s) : Keeps qs (abortRun x cause origin s) := by
  unfold abortRun
  try dsimp only
  repeat' first
    | intro _ | with_reducible assumption | with_reducible apply writeOff_keeps | with_reducible apply setGrpWord_keeps
    | with_reducible apply setF_keeps | with_reducible apply bumpF_keeps | with_reducible apply capture_keeps | with_reducible apply raise_keeps
    | with_reducible apply colEnd_keeps | with_reducible apply recoveryFreeze_keeps | with_reducible apply keeps_ite
    | fail_if_no_progress (with_reducible refine keeps_mk (h := ?_) (h4 := rfl) (h5 := rfl) ..) | with_reducible rfl | split | dsimp only
theorem abortGroup_keeps (g q cause origin : Nat) (s : State) (hmem : Keeps qs s) : Keeps qs (abortGroup g q cause origin s) := by
  unfold abortGroup
  try dsimp only
  repeat' first
    | intro _ | with_reducible assumption | with_reducible apply setGrpWord_keeps | with_reducible apply abortRun_keeps
    | with_reducible apply keeps_ite | with_reducible apply keeps_foldl
    | fail_if_no_progress (with_reducible refine keeps_mk (h := ?_) (h4 := rfl) (h5 := rfl) ..) | with_reducible rfl | split | dsimp only
theorem colAbort_keeps (g q cause origin : Nat) (s : State) (hmem : Keeps qs s) : Keeps qs (colAbort g q cause origin s) := by
  unfold colAbort
  try dsimp only
  repeat' first
    | intro _ | with_reducible assumption | with_reducible apply abortFlood_keeps | with_reducible apply abortGroup_keeps
    | with_reducible apply keeps_ite | split | dsimp only
theorem colAbortFirst_keeps (g cause origin : Nat) (s : State) (hmem : Keeps qs s) : Keeps qs (colAbortFirst g cause origin s) := by
  unfold colAbortFirst
  try dsimp only
  repeat' first
    | intro _ | with_reducible assumption | with_reducible apply colAbort_keeps
    | fail_if_no_progress (with_reducible refine keeps_mk (h := ?_) (h4 := rfl) (h5 := rfl) ..) | with_reducible rfl | split | dsimp only
theorem colAbortAll_keeps (cause : Nat) (tell : Bool) (s : State) (hmem : Keeps qs s) : Keeps qs (colAbortAll cause tell s) := by
  unfold colAbortAll
  try dsimp only
  repeat' first
    | intro _ | with_reducible assumption | with_reducible apply colAbortFirst_keeps | with_reducible apply abortGroup_keeps
    | with_reducible apply keeps_ite | with_reducible apply keeps_foldl
    | fail_if_no_progress (with_reducible refine keeps_mk (h := ?_) (h4 := rfl) (h5 := rfl) ..) | with_reducible rfl | split | dsimp only
theorem colLost_keeps (s : State) (hmem : Keeps qs s) : Keeps qs (colLost s) := by
  unfold colLost
  try dsimp only
  repeat' first
    | intro _ | with_reducible assumption | with_reducible apply colAbortFirst_keeps | with_reducible apply keeps_foldl | dsimp only
theorem scratchFill_keeps (x : ColX) (s : State) (hmem : Keeps qs s) : Keeps qs (scratchFill x s) := by
  unfold scratchFill
  try dsimp only
  repeat' first
    | intro _ | with_reducible assumption | with_reducible apply engWrite_keeps | dsimp only
theorem scratchOpen_keeps (x : ColX) (s : State) (hmem : Keeps qs s) : Keeps qs (scratchOpen x s) := by
  unfold scratchOpen
  try dsimp only
  repeat' first
    | intro _ | with_reducible assumption | with_reducible apply scratchFill_keeps | with_reducible apply setRun_keeps
    | with_reducible apply keeps_ite | fail_if_no_progress (with_reducible refine keeps_mk (h := ?_) (h4 := rfl) (h5 := rfl) ..) | with_reducible rfl
    | split | dsimp only
theorem scratchTouch_keeps (pl : Nat) (s : State) (hmem : Keeps qs s) : Keeps qs (scratchTouch pl s) := by
  unfold scratchTouch
  try dsimp only
  repeat' first
    | intro _ | with_reducible assumption | with_reducible apply scratchOpen_keeps | with_reducible apply keeps_ite | with_reducible apply keeps_foldl
    | split | dsimp only
theorem endpointWrites_keeps (x : ColX) (s : State) (hmem : Keeps qs s) : Keeps qs (endpointWrites x s) := by
  unfold endpointWrites
  try dsimp only
  repeat' first
    | intro _ | with_reducible assumption | with_reducible apply engWriteBad_keeps | with_reducible apply keeps_ite | with_reducible apply keeps_foldl
    | split | dsimp only
theorem stepEndpoint_keeps (g q : Nat) (s : State) (hmem : Keeps qs s) : Keeps qs (stepEndpoint g q s) := by
  unfold stepEndpoint
  try dsimp only
  repeat' first
    | intro _ | with_reducible assumption | with_reducible apply withRun_keeps | with_reducible apply setRun_keeps
    | with_reducible apply engFlush_keeps | with_reducible apply endpointWrites_keeps | with_reducible apply colSend_keeps
    | with_reducible apply keeps_ite | with_reducible apply keeps_foldl
    | fail_if_no_progress (with_reducible refine keeps_mk (h := ?_) (h4 := rfl) (h5 := rfl) ..) | with_reducible rfl | split | dsimp only
theorem colJoined_keeps (g q algo : Nat) (s : State) (hmem : Keeps qs s) : Keeps qs (colJoined g q algo s) := by
  unfold colJoined
  try dsimp only
  repeat' first
    | intro _ | with_reducible assumption | with_reducible apply withRun_keeps | with_reducible apply bumpF_keeps | with_reducible apply setRun_keeps
    | with_reducible apply raise_keeps | with_reducible apply scratchOpen_keeps | with_reducible apply colShow_keeps | with_reducible apply keeps_ite
    | fail_if_no_progress (with_reducible refine keeps_mk (h := ?_) (h4 := rfl) (h5 := rfl) ..) | with_reducible rfl | split | dsimp only
theorem sendJoin_keeps (x : ColX) (algo : Nat) (r : Nat) (s : State) (hmem : Keeps qs s) : Keeps qs (sendJoin x algo r s) := by
  unfold sendJoin
  try dsimp only
  repeat' first
    | intro _ | with_reducible assumption | with_reducible apply colSend_keeps | with_reducible apply keeps_ite | split | dsimp only
theorem stepJoin_keeps (g q : Nat) (s : State) (hmem : Keeps qs s) : Keeps qs (stepJoin g q s) := by
  unfold stepJoin
  try dsimp only
  repeat' first
    | intro _ | with_reducible assumption | with_reducible apply withRun_keeps | with_reducible apply sendJoin_keeps
    | with_reducible apply setRun_keeps | with_reducible apply colJoined_keeps | with_reducible apply keeps_ite | with_reducible apply keeps_foldl
    | fail_if_no_progress (with_reducible refine keeps_mk (h := ?_) (h4 := rfl) (h5 := rfl) ..) | with_reducible rfl | split | dsimp only
theorem stepExp_keeps (g q : Nat) (s : State) (hmem : Keeps qs s) : Keeps qs (stepExp g q s) := by
  unfold stepExp
  try dsimp only
  repeat' first
    | intro _ | with_reducible assumption | with_reducible apply withRun_keeps | with_reducible apply colSend_keeps
    | with_reducible apply setRun_keeps | with_reducible apply colSendAs_keeps | with_reducible apply keeps_ite | with_reducible apply keeps_foldl
    | fail_if_no_progress (with_reducible refine keeps_mk (h := ?_) (h4 := rfl) (h5 := rfl) ..) | with_reducible rfl | split | dsimp only
theorem stepData_keeps (g q : Nat) (s : State) (hmem : Keeps qs s) : Keeps qs (stepData g q s) := by
  unfold stepData
  try dsimp only
  repeat' first
    | intro _ | with_reducible assumption | with_reducible apply withRun_keeps | with_reducible apply stepEndpoint_keeps
    | with_reducible apply colDirty_keeps | with_reducible apply colSendAs_keeps | with_reducible apply setRun_keeps | with_reducible apply keeps_ite
    | with_reducible apply keeps_foldl | fail_if_no_progress (with_reducible refine keeps_mk (h := ?_) (h4 := rfl) (h5 := rfl) ..)
    | with_reducible rfl | split | dsimp only
theorem sendRows_keeps (g q r k : Nat) (s : State) (hmem : Keeps qs s) : Keeps qs (sendRows g q r k s) := by
  unfold sendRows
  try dsimp only
  repeat' first
    | intro _ | with_reducible assumption | with_reducible apply withRun_keeps | with_reducible apply colDirty_keeps
    | with_reducible apply setRun_keeps | with_reducible apply colSend_keeps | with_reducible apply keeps_ite | with_reducible apply keeps_foldl
    | fail_if_no_progress (with_reducible refine keeps_mk (h := ?_) (h4 := rfl) (h5 := rfl) ..) | with_reducible rfl | split | dsimp only
theorem stepA2a_keeps (g q : Nat) (s : State) (hmem : Keeps qs s) : Keeps qs (stepA2a g q s) := by
  unfold stepA2a
  try dsimp only
  repeat' first
    | intro _ | with_reducible assumption | with_reducible apply withRun_keeps | with_reducible apply colSend_keeps
    | with_reducible apply setRun_keeps | with_reducible apply sendRows_keeps | with_reducible apply keeps_ite | with_reducible apply keeps_foldl
    | fail_if_no_progress (with_reducible refine keeps_mk (h := ?_) (h4 := rfl) (h5 := rfl) ..) | with_reducible rfl | split | dsimp only
theorem colAdvance_keeps (g q : Nat) (s : State) (hmem : Keeps qs s) : Keeps qs (colAdvance g q s) := by
  unfold colAdvance
  try dsimp only
  repeat' first
    | intro _ | with_reducible assumption | with_reducible apply halt_keeps | with_reducible apply colLost_keeps | with_reducible apply stepA2a_keeps
    | with_reducible apply stepData_keeps | with_reducible apply stepExp_keeps | with_reducible apply stepJoin_keeps | with_reducible apply keeps_ite
    | split | dsimp only
theorem colWake_keeps (s : State) (hmem : Keeps qs s) : Keeps qs (colWake s) := by
  unfold colWake
  try dsimp only
  repeat' first
    | intro _ | with_reducible assumption | with_reducible apply colAdvance_keeps | with_reducible apply keeps_foldl | dsimp only
theorem colTake_keeps (w : ColMail) (s : State) (hmem : Keeps qs s) : Keeps qs (colTake w s) := by
  unfold colTake
  try dsimp only
  repeat' first
    | intro _ | with_reducible assumption | with_reducible apply colProgress_keeps | with_reducible apply addPair_keeps
    | with_reducible apply withRun_keeps | with_reducible apply colDirty_keeps | with_reducible apply colJoined_keeps
    | with_reducible apply setRun_keeps | with_reducible apply colAbort_keeps | with_reducible apply keeps_ite
    | fail_if_no_progress (with_reducible refine keeps_mk (h := ?_) (h4 := rfl) (h5 := rfl) ..) | with_reducible rfl | split | dsimp only
theorem markAnswer_keeps (w : ColMail) (s : State) (hmem : Keeps qs s) : Keeps qs (markAnswer w s) := by
  unfold markAnswer
  try dsimp only
  repeat' first
    | intro _ | with_reducible assumption | with_reducible apply slotSend_keeps | dsimp only
theorem colKeep_keeps (w : ColMail) (s : State) (hmem : Keeps qs s) : Keeps qs (colKeep w s) := by
  unfold colKeep
  try dsimp only
  repeat' first
    | intro _ | with_reducible assumption | with_reducible apply halt_keeps | with_reducible apply markAnswer_keeps | with_reducible apply keeps_ite
    | fail_if_no_progress (with_reducible refine keeps_mk (h := ?_) (h4 := rfl) (h5 := rfl) ..) | with_reducible rfl | split | dsimp only
theorem colArrive_keeps (w : ColMail) (s : State) (hmem : Keeps qs s) : Keeps qs (colArrive w s) := by
  unfold colArrive
  try dsimp only
  repeat' first
    | intro _ | with_reducible assumption | with_reducible apply colAdvance_keeps | with_reducible apply colTake_keeps
    | with_reducible apply colKeep_keeps | with_reducible apply keeps_ite
    | fail_if_no_progress (with_reducible refine keeps_mk (h := ?_) (h4 := rfl) (h5 := rfl) ..) | with_reducible rfl | split | dsimp only
theorem colAccept_keeps (ue : Bool) (s : State) (hmem : Keeps qs s) : Keeps qs (colAccept ue s) := by
  unfold colAccept
  try dsimp only
  repeat' first
    | intro _ | with_reducible assumption | with_reducible apply withSources_keeps | with_reducible apply load_keeps
    | with_reducible apply accept_keeps | with_reducible apply grpLoad_keeps | with_reducible apply setGrpWord_keeps
    | with_reducible apply colShow_keeps | with_reducible apply abortRun_keeps | with_reducible apply colAbort_keeps | with_reducible apply keeps_ite
    | fail_if_no_progress (with_reducible refine keeps_mk (h := ?_) (h4 := rfl) (h5 := rfl) ..) | with_reducible rfl | split | dsimp only
theorem colStart_keeps (op g : Nat) (s : State) (hmem : Keeps qs s) : Keeps qs (colStart op g s) := by
  unfold colStart
  try dsimp only
  repeat' first
    | intro _ | with_reducible assumption | with_reducible apply halt_keeps | with_reducible apply withSources_keeps
    | with_reducible apply colProgress_keeps | with_reducible apply colShow_keeps | with_reducible apply setRun_keeps
    | with_reducible apply colAdvance_keeps | with_reducible apply colTake_keeps | with_reducible apply keeps_ite | with_reducible apply keeps_foldl
    | fail_if_no_progress (with_reducible refine keeps_mk (h := ?_) (h4 := rfl) (h5 := rfl) ..) | with_reducible rfl | split | dsimp only
theorem colWrites_keeps (x : ColX) (s : State) (hmem : Keeps qs s) : Keeps qs (colWrites x s) := by
  unfold colWrites
  try dsimp only
  repeat' first
    | intro _ | with_reducible assumption | with_reducible apply engWrite_keeps | with_reducible apply keeps_ite | with_reducible apply keeps_foldl
    | split | dsimp only
theorem colComplete_keeps (g : Nat) (s : State) (hmem : Keeps qs s) : Keeps qs (colComplete g s) := by
  unfold colComplete
  try dsimp only
  repeat' first
    | intro _ | with_reducible assumption | with_reducible apply colWrites_keeps | with_reducible apply setRun_keeps
    | with_reducible apply setFlags_keeps | with_reducible apply bumpF_keeps | with_reducible apply colEnd_keeps | with_reducible apply keeps_ite
    | with_reducible apply keeps_foldl | fail_if_no_progress (with_reducible refine keeps_mk (h := ?_) (h4 := rfl) (h5 := rfl) ..)
    | with_reducible rfl | split | dsimp only
theorem progressOut_keeps (g q : Nat) (s : State) (hmem : Keeps qs s) : Keeps qs (progressOut g q s) := by
  unfold progressOut
  try dsimp only
  repeat' first
    | intro _ | with_reducible assumption | with_reducible apply colSendTo_keeps | with_reducible apply keeps_foldl | dsimp only
theorem progressSend_keeps (g : Nat) (s : State) (hmem : Keeps qs s) : Keeps qs (progressSend g s) := by
  unfold progressSend
  try dsimp only
  repeat' first
    | intro _ | with_reducible assumption | with_reducible apply progressOut_keeps | with_reducible apply keeps_ite
    | fail_if_no_progress (with_reducible refine keeps_mk (h := ?_) (h4 := rfl) (h5 := rfl) ..) | with_reducible rfl | split | dsimp only
theorem progressTake_keeps (m : ColMsg) (st q : Nat) (s : State) (hmem : Keeps qs s) : Keeps qs (progressTake m st q s) := by
  unfold progressTake
  try dsimp only
  repeat' first
    | intro _ | with_reducible assumption | with_reducible apply colWake_keeps | with_reducible apply colProgress_keeps
    | with_reducible apply colAbortFirst_keeps | with_reducible apply keeps_ite | with_reducible apply keeps_foldl
    | fail_if_no_progress (with_reducible refine keeps_mk (h := ?_) (h4 := rfl) (h5 := rfl) ..) | with_reducible rfl | split | dsimp only
theorem colTimeout_keeps (g : Nat) (s : State) (hmem : Keeps qs s) : Keeps qs (colTimeout g s) := by
  unfold colTimeout
  try dsimp only
  repeat' first
    | intro _ | with_reducible assumption | with_reducible apply colAbortFirst_keeps | with_reducible apply keeps_ite | split | dsimp only
theorem memberDead_keeps (g q cause origin : Nat) (s : State) (hmem : Keeps qs s) : Keeps qs (memberDead g q cause origin s) := by
  unfold memberDead
  try dsimp only
  repeat' first
    | intro _ | with_reducible assumption | with_reducible apply colAbort_keeps | with_reducible apply abortFlood_keeps
    | with_reducible apply voteAborted_keeps | with_reducible apply keeps_ite | split | dsimp only
theorem peerSilent_keeps (g r : Nat) (s : State) (hmem : Keeps qs s) : Keeps qs (peerSilent g r s) := by
  unfold peerSilent
  try dsimp only
  repeat' first
    | intro _ | with_reducible assumption | with_reducible apply memberDead_keeps | with_reducible apply keeps_ite | split | dsimp only
theorem colDeadTarget_keeps (pkg : Nat) (s : State) (hmem : Keeps qs s) : Keeps qs (colDeadTarget pkg s) := by
  unfold colDeadTarget
  try dsimp only
  repeat' first
    | intro _ | with_reducible assumption | with_reducible apply colAbortFirst_keeps | with_reducible apply keeps_foldl | dsimp only
theorem colFreeze_keeps (s : State) (hmem : Keeps qs s) : Keeps qs (colFreeze s) := by
  unfold colFreeze
  try dsimp only
  repeat' first
    | intro _ | with_reducible assumption | with_reducible apply halt_keeps | with_reducible apply markAnswer_keeps
    | with_reducible apply colSend_keeps | with_reducible apply setRun_keeps | with_reducible apply keeps_ite | with_reducible apply keeps_foldl
    | fail_if_no_progress (with_reducible refine keeps_mk (h := ?_) (h4 := rfl) (h5 := rfl) ..) | with_reducible rfl | split | dsimp only
theorem colThaw_keeps (s : State) (hmem : Keeps qs s) : Keeps qs (colThaw s) := by
  unfold colThaw
  try dsimp only
  repeat' first
    | intro _ | with_reducible assumption | with_reducible apply colWake_keeps
    | fail_if_no_progress (with_reducible refine keeps_mk (h := ?_) (h4 := rfl) (h5 := rfl) ..) | with_reducible rfl | dsimp only
theorem colRestore_keeps (path : Path) (v : Word) (s : State) (hmem : Keeps qs s) : Keeps qs (colRestore path v s) := by
  unfold colRestore
  try dsimp only
  repeat' first
    | intro _ | with_reducible assumption | with_reducible apply restoreStatus_keeps | dsimp only

end Sys2Proof.Machine
end

