-- ==== Sys2Proof/Laws/Keep3.lean ====
section
/-! SUPPORT. Each operation of the machine keeps the queue and the canonical form of the byte memories: one lemma per operation
of Fabric, Vector, Issue, Launch, Slots, Checkpoint. -/

set_option linter.all false

namespace Sys2Proof.Machine

variable {qs : List Instr}

theorem giveLines_keeps (x : Txn) (dead : Bool) : ∀ (l : List (Nat × Bool)) (i : Nat) (s : State), Keeps qs s → Keeps qs (giveLines x dead l i s)
  | [], _, s, h => h
  | (d, p) :: m, i, s, h => by
    unfold giveLines
    repeat' first
      | intro _ | with_reducible assumption | with_reducible apply giveLines_keeps | with_reducible apply setCore_keeps
      | with_reducible apply setEng_keeps | with_reducible apply keeps_ite | with_reducible apply keeps_foldl
      | fail_if_no_progress (with_reducible refine keeps_mk (h := ?_) (h4 := rfl) (h5 := rfl) ..) | with_reducible rfl | split | dsimp only
theorem txnClose_keeps (fd : Nat) (x : Txn) (s : State) (hmem : Keeps qs s) : Keeps qs (txnClose fd x s) := by
  unfold txnClose
  try dsimp only
  repeat' first
    | intro _ | with_reducible assumption | with_reducible apply setFab_keeps
    | fail_if_no_progress (with_reducible refine keeps_mk (h := ?_) (h4 := rfl) (h5 := rfl) ..) | with_reducible rfl | dsimp only
theorem onRdrsp_keeps (fd : Nat) (m : Msg) (s : State) (hmem : Keeps qs s) : Keeps qs (onRdrsp fd m s) := by
  unfold onRdrsp
  try dsimp only
  repeat' first
    | intro _ | with_reducible assumption | with_reducible apply bumpF_keeps | with_reducible apply giveLines_keeps
    | with_reducible apply txnClose_keeps | fail_if_no_progress (with_reducible refine keeps_mk (h := ?_) (h4 := rfl) (h5 := rfl) ..)
    | with_reducible rfl | split | dsimp only
theorem colAcked_keeps (x : Txn) (s : State) (hmem : Keeps qs s) : Keeps qs (colAcked x s) := by
  unfold colAcked
  try dsimp only
  repeat' first
    | intro _ | with_reducible assumption | with_reducible apply colWake_keeps | with_reducible apply keeps_ite | split | dsimp only
theorem onWrack_keeps (fd : Nat) (m : Msg) (s : State) (hmem : Keeps qs s) : Keeps qs (onWrack fd m s) := by
  unfold onWrack
  try dsimp only
  repeat' first
    | intro _ | with_reducible assumption | with_reducible apply bumpF_keeps | with_reducible apply colAcked_keeps
    | with_reducible apply txnClose_keeps | fail_if_no_progress (with_reducible refine keeps_mk (h := ?_) (h4 := rfl) (h5 := rfl) ..)
    | with_reducible rfl | split | dsimp only
theorem txnDead_keeps (x : Txn) (s : State) (hmem : Keeps qs s) : Keeps qs (txnDead x s) := by
  unfold txnDead
  try dsimp only
  repeat' first
    | intro _ | with_reducible assumption | with_reducible apply giveLines_keeps | with_reducible apply setEng_keeps | with_reducible apply keeps_ite
    | fail_if_no_progress (with_reducible refine keeps_mk (h := ?_) (h4 := rfl) (h5 := rfl) ..) | with_reducible rfl | split | dsimp only
theorem onNack_keeps (fd : Nat) (m : Msg) (s : State) (hmem : Keeps qs s) : Keeps qs (onNack fd m s) := by
  unfold onNack
  try dsimp only
  repeat' first
    | intro _ | with_reducible assumption | with_reducible apply bumpF_keeps | with_reducible apply raise_keeps | with_reducible apply txnClose_keeps
    | with_reducible apply txnDead_keeps | with_reducible apply colAcked_keeps | with_reducible apply keeps_ite
    | fail_if_no_progress (with_reducible refine keeps_mk (h := ?_) (h4 := rfl) (h5 := rfl) ..) | with_reducible rfl | split | dsimp only
theorem deadExpiry_keeps (fd : Nat) (t : BitVec 15) (s : State) (hmem : Keeps qs s) : Keeps qs (deadExpiry fd t s) := by
  unfold deadExpiry
  try dsimp only
  repeat' first
    | intro _ | with_reducible assumption | with_reducible apply setF_keeps | with_reducible apply bumpF_keeps | with_reducible apply txnDead_keeps
    | with_reducible apply txnClose_keeps | with_reducible apply capture_keeps | with_reducible apply raise_keeps
    | with_reducible apply colDeadTarget_keeps | with_reducible apply keeps_ite
    | fail_if_no_progress (with_reducible refine keeps_mk (h := ?_) (h4 := rfl) (h5 := rfl) ..) | with_reducible rfl | split | dsimp only
theorem respond_keeps (fd : Nat) (m : Msg) (opc len pmask : Nat) (slots : List Slot) (s : State) (hmem : Keeps qs s) : Keeps qs (respond fd m opc len pmask slots s) := by
  unfold respond
  try dsimp only
  repeat' first
    | intro _ | with_reducible assumption | with_reducible apply sendMsg_keeps | dsimp only
theorem refuseRemote_keeps (fd : Nat) (m : Msg) (s : State) (hmem : Keeps qs s) : Keeps qs (refuseRemote fd m s) := by
  unfold refuseRemote
  try dsimp only
  repeat' first
    | intro _ | with_reducible assumption | with_reducible apply raise_keeps | with_reducible apply bumpF_keeps | with_reducible apply respond_keeps
    | dsimp only
theorem applyWr_keeps (m : Msg) : ∀ (l : List Target) (i : Nat) (s : State), Keeps qs s → Keeps qs (applyWr m l i s)
  | [], _, s, h => h
  | t :: ts, i, s, h => by
    unfold applyWr
    repeat' first
      | intro _ | with_reducible assumption | with_reducible apply applyWr_keeps | with_reducible apply poisonLine_keeps
      | with_reducible apply lineWrite_keeps | with_reducible apply tilePut_keeps | with_reducible apply reduceLine_keeps
      | with_reducible apply scratchTouch_keeps | with_reducible apply keeps_ite | with_reducible apply keeps_foldl
      | fail_if_no_progress (with_reducible refine keeps_mk (h := ?_) (h4 := rfl) (h5 := rfl) ..) | with_reducible rfl | split | dsimp only
theorem remoteServe_keeps (fd : Nat) (m : Msg) (s : State) (hmem : Keeps qs s) : Keeps qs (remoteServe fd m s) := by
  unfold remoteServe
  try dsimp only
  repeat' first
    | intro _ | with_reducible assumption | with_reducible apply respond_keeps | with_reducible apply applyWr_keeps | with_reducible apply keeps_ite
    | split | dsimp only
theorem remoteAccept_keeps (fd : Nat) (m : Msg) (s : State) (hmem : Keeps qs s) : Keeps qs (remoteAccept fd m s) := by
  unfold remoteAccept
  try dsimp only
  repeat' first
    | intro _ | with_reducible assumption | with_reducible apply homeWait_keeps | with_reducible apply recallLine_keeps
    | with_reducible apply remoteServe_keeps | with_reducible apply keeps_ite | with_reducible apply keeps_foldl | split | dsimp only
theorem onRd_keeps (fd : Nat) (m : Msg) (s : State) (hmem : Keeps qs s) : Keeps qs (onRd fd m s) := by
  unfold onRd
  try dsimp only
  repeat' first
    | intro _ | with_reducible assumption | with_reducible apply remoteAccept_keeps | with_reducible apply refuseRemote_keeps
    | with_reducible apply keeps_ite | fail_if_no_progress (with_reducible refine keeps_mk (h := ?_) (h4 := rfl) (h5 := rfl) ..) | with_reducible rfl
    | split | dsimp only
theorem onWr_keeps (fd : Nat) (m : Msg) (s : State) (hmem : Keeps qs s) : Keeps qs (onWr fd m s) := by
  unfold onWr
  try dsimp only
  repeat' first
    | intro _ | with_reducible assumption | with_reducible apply remoteAccept_keeps | with_reducible apply refuseRemote_keeps
    | with_reducible apply keeps_ite | fail_if_no_progress (with_reducible refine keeps_mk (h := ?_) (h4 := rfl) (h5 := rfl) ..) | with_reducible rfl
    | split | dsimp only
theorem homeTry_keeps (r : HomeReq) (s : State) (hmem : Keeps qs s) : Keeps qs (homeTry r s).1 := by
  unfold homeTry
  try dsimp only
  repeat' first
    | intro _ | with_reducible assumption | with_reducible apply halServe_keeps | with_reducible apply recallLine_keeps
    | with_reducible apply remoteServe_keeps | with_reducible apply writeDo_keeps | with_reducible apply keeps_ite | with_reducible apply keeps_foldl
    | fail_if_no_progress (with_reducible refine keeps_mk (h := ?_) (h4 := rfl) (h5 := rfl) ..) | with_reducible rfl | split | dsimp only
theorem homeGo_keeps : ∀ (l keep : List HomeReq) (s : State), Keeps qs s → Keeps qs (homeGo l keep s)
  | [], keep, s, h => by unfold homeGo; exact keeps_same s _ h rfl rfl rfl rfl rfl rfl
  | r :: m, keep, s, h => by
    unfold homeGo
    split
    · exact homeGo_keeps m _ s h
    · exact homeGo_keeps m _ _ (homeTry_keeps r s h)
theorem afterSnoop_keeps (s : State) (hmem : Keeps qs s) : Keeps qs (afterSnoop s) := by
  unfold afterSnoop
  try dsimp only
  repeat' first
    | intro _ | with_reducible assumption | with_reducible apply homeGo_keeps
    | fail_if_no_progress (with_reducible refine keeps_mk (h := ?_) (h4 := rfl) (h5 := rfl) ..) | with_reducible rfl | dsimp only
theorem staleDrop_keeps (fd : Nat) (s : State) (hmem : Keeps qs s) : Keeps qs (staleDrop fd s) := by
  unfold staleDrop
  try dsimp only
  repeat' first
    | intro _ | with_reducible assumption | with_reducible apply bumpF_keeps | with_reducible apply raise_keeps | with_reducible apply setFab_keeps
    | with_reducible apply keeps_ite | fail_if_no_progress (with_reducible refine keeps_mk (h := ?_) (h4 := rfl) (h5 := rfl) ..) | with_reducible rfl
    | split | dsimp only
theorem epochDrop_keeps (fd : Nat) (s : State) (hmem : Keeps qs s) : Keeps qs (epochDrop fd s) := by
  unfold epochDrop
  try dsimp only
  repeat' first
    | intro _ | with_reducible assumption | with_reducible apply raise_keeps | with_reducible apply bumpF_keeps | dsimp only
theorem ingress_keeps (fd : Nat) (m : Msg) (body : State → State) (s : State) (hbody : ∀ t, Keeps qs t → Keeps qs (body t)) (hmem : Keeps qs s) : Keeps qs (ingress fd m body s) := by
  unfold ingress
  try dsimp only
  repeat' first
    | intro _ | with_reducible assumption | with_reducible apply epochDrop_keeps | with_reducible apply bumpF_keeps
    | with_reducible apply colForward_keeps | with_reducible apply addPair_keeps | with_reducible apply portSend_keeps
    | with_reducible apply staleDrop_keeps | with_reducible apply hbody | with_reducible apply keeps_ite
    | fail_if_no_progress (with_reducible refine keeps_mk (h := ?_) (h4 := rfl) (h5 := rfl) ..) | with_reducible rfl | split | dsimp only
theorem setPort_keeps (p st : Nat) (s : State) (hmem : Keeps qs s) : Keeps qs (setPort p st s) := by
  unfold setPort
  try dsimp only
  repeat' first
    | intro _ | with_reducible assumption | with_reducible apply setF_keeps | dsimp only
theorem resend_keeps (p : Nat) (m : Msg) (s : State) (hmem : Keeps qs s) : Keeps qs (resend p m s) := by
  unfold resend
  try dsimp only
  repeat' first
    | intro _ | with_reducible assumption | with_reducible apply redUncertain_keeps | with_reducible apply portSend_keeps
    | with_reducible apply epochDrop_keeps | with_reducible apply bumpF_keeps | with_reducible apply keeps_ite
    | fail_if_no_progress (with_reducible refine keeps_mk (h := ?_) (h4 := rfl) (h5 := rfl) ..) | with_reducible rfl | split | dsimp only
theorem portChecked_keeps (p c : Nat) (s : State) (hmem : Keeps qs s) : Keeps qs (portChecked p c s) := by
  unfold portChecked
  try dsimp only
  repeat' first
    | intro _ | with_reducible assumption | with_reducible apply setPort_keeps | with_reducible apply setF_keeps | with_reducible apply keeps_ite
    | split | dsimp only
theorem portClass_keeps (p : Nat) (s : State) (hmem : Keeps qs s) : Keeps qs (portClass p s) := by
  unfold portClass
  try dsimp only
  repeat' first
    | intro _ | with_reducible assumption | with_reducible apply portChecked_keeps | with_reducible apply setF_keeps
    | with_reducible apply raise_keeps | with_reducible apply keeps_ite
    | fail_if_no_progress (with_reducible refine keeps_mk (h := ?_) (h4 := rfl) (h5 := rfl) ..) | with_reducible rfl | split | dsimp only
theorem recheck_keeps (s : State) (hmem : Keeps qs s) : Keeps qs (recheck s) := by
  unfold recheck
  try dsimp only
  repeat' first
    | intro _ | with_reducible assumption | with_reducible apply portClass_keeps | with_reducible apply keeps_ite | with_reducible apply keeps_foldl
    | split | dsimp only
theorem setGct_keeps (n : Nat) (s : State) (hmem : Keeps qs s) : Keeps qs (setGct n s) := by
  unfold setGct
  try dsimp only
  repeat' first
    | intro _ | with_reducible assumption | with_reducible apply setF_keeps | dsimp only
theorem setParent_keeps (p : Option Nat) (s : State) (hmem : Keeps qs s) : Keeps qs (setParent p s) := by
  unfold setParent
  try dsimp only
  repeat' first
    | intro _ | with_reducible assumption | with_reducible apply setF_keeps
    | fail_if_no_progress (with_reducible refine keeps_mk (h := ?_) (h4 := rfl) (h5 := rfl) ..) | with_reducible rfl | split | dsimp only
theorem parentLost_keeps (s : State) (hmem : Keeps qs s) : Keeps qs (parentLost s) := by
  unfold parentLost
  try dsimp only
  repeat' first
    | intro _ | with_reducible assumption | with_reducible apply bumpF_keeps | with_reducible apply setParent_keeps | with_reducible apply raise_keeps
    | with_reducible apply setF_keeps | with_reducible apply setGct_keeps
    | fail_if_no_progress (with_reducible refine keeps_mk (h := ?_) (h4 := rfl) (h5 := rfl) ..) | with_reducible rfl | split | dsimp only
theorem parentDown_keeps (p : Nat) (s : State) (hmem : Keeps qs s) : Keeps qs (parentDown p s) := by
  unfold parentDown
  try dsimp only
  repeat' first
    | intro _ | with_reducible assumption | with_reducible apply parentLost_keeps | with_reducible apply keeps_ite
    | fail_if_no_progress (with_reducible refine keeps_mk (h := ?_) (h4 := rfl) (h5 := rfl) ..) | with_reducible rfl | split | dsimp only
theorem portDown_keeps (p : Nat) (s : State) (hmem : Keeps qs s) : Keeps qs (portDown p s) := by
  unfold portDown
  try dsimp only
  repeat' first
    | intro _ | with_reducible assumption | with_reducible apply setPort_keeps | with_reducible apply setF_keeps | with_reducible apply bumpF_keeps
    | with_reducible apply raise_keeps | with_reducible apply setLink_keeps | with_reducible apply parentDown_keeps
    | with_reducible apply recheck_keeps | with_reducible apply resend_keeps | with_reducible apply keeps_ite | with_reducible apply keeps_foldl
    | fail_if_no_progress (with_reducible refine keeps_mk (h := ?_) (h4 := rfl) (h5 := rfl) ..) | with_reducible rfl | split | dsimp only
theorem portRetrain_keeps (p : Nat) (s : State) (hmem : Keeps qs s) : Keeps qs (portRetrain p s) := by
  unfold portRetrain
  try dsimp only
  repeat' first
    | intro _ | with_reducible assumption | with_reducible apply portDown_keeps | with_reducible apply raise_keeps | with_reducible apply bumpF_keeps
    | dsimp only
theorem lossOfSignal_keeps (p : Nat) (s : State) (hmem : Keeps qs s) : Keeps qs (lossOfSignal p s) := by
  unfold lossOfSignal
  try dsimp only
  repeat' first
    | intro _ | with_reducible assumption | with_reducible apply portDown_keeps | with_reducible apply keeps_ite | split | dsimp only
theorem portTrained_keeps (p lanes : Nat) (s : State) (hmem : Keeps qs s) : Keeps qs (portTrained p lanes s) := by
  unfold portTrained
  try dsimp only
  repeat' first
    | intro _ | with_reducible assumption | with_reducible apply portDown_keeps | with_reducible apply setF_keeps | with_reducible apply emit_keeps
    | with_reducible apply setPort_keeps | with_reducible apply keeps_ite | split | dsimp only
theorem portIdentity_keeps (p : Nat) (serial : DWord) (pkg port : Nat) (s : State) (hmem : Keeps qs s) : Keeps qs (portIdentity p serial pkg port s) := by
  unfold portIdentity
  try dsimp only
  repeat' first
    | intro _ | with_reducible assumption | with_reducible apply recheck_keeps | with_reducible apply setF_keeps | with_reducible apply setPair_keeps
    | with_reducible apply keeps_ite | split | dsimp only
theorem portMissing_keeps (p : Nat) (s : State) (hmem : Keeps qs s) : Keeps qs (portMissing p s) := by
  unfold portMissing
  try dsimp only
  repeat' first
    | intro _ | with_reducible assumption | with_reducible apply recheck_keeps | with_reducible apply setPort_keeps | with_reducible apply setF_keeps
    | with_reducible apply keeps_ite | split | dsimp only
theorem portSelftest_keeps (p : Nat) (s : State) (hmem : Keeps qs s) : Keeps qs (portSelftest p s) := by
  unfold portSelftest
  try dsimp only
  repeat' first
    | intro _ | with_reducible assumption | with_reducible apply setPort_keeps | with_reducible apply setF_keeps | with_reducible apply keeps_ite
    | split | dsimp only
theorem portSelftestDone_keeps (p : Nat) (pass : Bool) (s : State) (hmem : Keeps qs s) : Keeps qs (portSelftestDone p pass s) := by
  unfold portSelftestDone
  try dsimp only
  repeat' first
    | intro _ | with_reducible assumption | with_reducible apply setF_keeps | with_reducible apply setPort_keeps | with_reducible apply keeps_ite
    | split | dsimp only
theorem portAdmit_keeps (p : Nat) (s : State) (hmem : Keeps qs s) : Keeps qs (portAdmit p s) := by
  unfold portAdmit
  try dsimp only
  repeat' first
    | intro _ | with_reducible assumption | with_reducible apply setLink_keeps | with_reducible apply setPort_keeps | with_reducible apply raise_keeps
    | with_reducible apply keeps_ite | fail_if_no_progress (with_reducible refine keeps_mk (h := ?_) (h4 := rfl) (h5 := rfl) ..) | with_reducible rfl
    | split | dsimp only
theorem admitPorts_keeps (s : State) (hmem : Keeps qs s) : Keeps qs (admitPorts s) := by
  unfold admitPorts
  try dsimp only
  repeat' first
    | intro _ | with_reducible assumption | with_reducible apply setPort_keeps | with_reducible apply setLink_keeps | with_reducible apply keeps_ite
    | with_reducible apply keeps_foldl | fail_if_no_progress (with_reducible refine keeps_mk (h := ?_) (h4 := rfl) (h5 := rfl) ..)
    | with_reducible rfl | split | dsimp only
theorem portDisable_keeps (p : Nat) (s : State) (hmem : Keeps qs s) : Keeps qs (portDisable p s) := by
  unfold portDisable
  try dsimp only
  repeat' first
    | intro _ | with_reducible assumption | with_reducible apply setF_keeps | with_reducible apply portDown_keeps | with_reducible apply keeps_ite
    | split | dsimp only
theorem portEnable_keeps (p : Nat) (s : State) (hmem : Keeps qs s) : Keeps qs (portEnable p s) := by
  unfold portEnable
  try dsimp only
  repeat' first
    | intro _ | with_reducible assumption | with_reducible apply setF_keeps | with_reducible apply setPort_keeps | with_reducible apply keeps_ite
    | split | dsimp only
theorem epochArm_keeps (fd : Nat) (s : State) (hmem : Keeps qs s) : Keeps qs (epochArm fd s) := by
  unfold epochArm
  try dsimp only
  repeat' first
    | intro _ | with_reducible assumption | with_reducible apply setF_keeps | with_reducible apply setFab_keeps
    | fail_if_no_progress (with_reducible refine keeps_mk (h := ?_) (h4 := rfl) (h5 := rfl) ..) | with_reducible rfl | dsimp only
theorem epochDisarm_keeps (fd : Nat) (s : State) (hmem : Keeps qs s) : Keeps qs (epochDisarm fd s) := by
  unfold epochDisarm
  try dsimp only
  repeat' first
    | intro _ | with_reducible assumption | with_reducible apply setF_keeps | with_reducible apply setFab_keeps
    | fail_if_no_progress (with_reducible refine keeps_mk (h := ?_) (h4 := rfl) (h5 := rfl) ..) | with_reducible rfl | dsimp only
theorem swapTables_keeps (fd a b n : Nat) (s : State) (hmem : Keeps qs s) : Keeps qs (swapTables fd a b n s) := by
  unfold swapTables
  try dsimp only
  repeat' first
    | intro _ | with_reducible assumption | fail_if_no_progress (with_reducible refine keeps_mk (h := ?_) (h4 := rfl) (h5 := rfl) ..)
    | with_reducible rfl | dsimp only
theorem sendMarks_keeps (fd : Nat) (s : State) (hmem : Keeps qs s) : Keeps qs (sendMarks fd s) := by
  unfold sendMarks
  try dsimp only
  repeat' first
    | intro _ | with_reducible assumption | with_reducible apply emit_keeps | with_reducible apply keeps_ite | with_reducible apply keeps_foldl
    | split | dsimp only
theorem dieSwitch_keeps (fd : Nat) (s : State) (hmem : Keeps qs s) : Keeps qs (dieSwitch fd s) := by
  unfold dieSwitch
  try dsimp only
  repeat' first
    | intro _ | with_reducible assumption | with_reducible apply setFab_keeps | with_reducible apply setF_keeps
    | with_reducible apply swapTables_keeps | with_reducible apply sendMarks_keeps | with_reducible apply keeps_ite
    | fail_if_no_progress (with_reducible refine keeps_mk (h := ?_) (h4 := rfl) (h5 := rfl) ..) | with_reducible rfl | split | dsimp only
theorem admitCheck_keeps (s : State) (hmem : Keeps qs s) : Keeps qs (admitCheck s) := by
  unfold admitCheck
  try dsimp only
  repeat' first
    | intro _ | with_reducible assumption | with_reducible apply raise_keeps | with_reducible apply cmdFinish_keeps
    | with_reducible apply setPkg_keeps | with_reducible apply keeps_ite | split | dsimp only
theorem epochSwitch_keeps (commit : Bool) (s : State) (hmem : Keeps qs s) : Keeps qs (epochSwitch commit s) := by
  unfold epochSwitch
  try dsimp only
  repeat' first
    | intro _ | with_reducible assumption | with_reducible apply admitPorts_keeps | with_reducible apply admitChannels_keeps
    | with_reducible apply admitCheck_keeps | with_reducible apply dieSwitch_keeps | with_reducible apply keeps_ite | split | dsimp only
theorem graceEnd_keeps (fd : Nat) (s : State) (hmem : Keeps qs s) : Keeps qs (graceEnd fd s) := by
  unfold graceEnd
  try dsimp only
  repeat' first
    | intro _ | with_reducible assumption | with_reducible apply setFab_keeps
    | fail_if_no_progress (with_reducible refine keeps_mk (h := ?_) (h4 := rfl) (h5 := rfl) ..) | with_reducible rfl | dsimp only
theorem epochMark_keeps (p : Nat) (s : State) (hmem : Keeps qs s) : Keeps qs (epochMark p s) := by
  unfold epochMark
  try dsimp only
  repeat' first
    | intro _ | with_reducible assumption | with_reducible apply portFar_keeps | with_reducible apply setLink_keeps
    | fail_if_no_progress (with_reducible refine keeps_mk (h := ?_) (h4 := rfl) (h5 := rfl) ..) | with_reducible rfl | dsimp only
theorem replaySend_keeps (p : Nat) (s : State) (hmem : Keeps qs s) : Keeps qs (replaySend p s) := by
  unfold replaySend
  try dsimp only
  repeat' first
    | intro _ | with_reducible assumption | with_reducible apply emit_keeps | with_reducible apply setLink_keeps | with_reducible apply keeps_foldl
    | fail_if_no_progress (with_reducible refine keeps_mk (h := ?_) (h4 := rfl) (h5 := rfl) ..) | with_reducible rfl | dsimp only
theorem portReplay_keeps (p : Nat) (s : State) (hmem : Keeps qs s) : Keeps qs (portReplay p s) := by
  unfold portReplay
  try dsimp only
  repeat' first
    | intro _ | with_reducible assumption | with_reducible apply replaySend_keeps | with_reducible apply bumpF_keeps
    | with_reducible apply setLink_keeps | with_reducible apply portRetrain_keeps | with_reducible apply keeps_ite
    | fail_if_no_progress (with_reducible refine keeps_mk (h := ?_) (h4 := rfl) (h5 := rfl) ..) | with_reducible rfl | split | dsimp only
theorem halReplay_keeps (p : Nat) (s : State) (hmem : Keeps qs s) : Keeps qs (halReplay p s) := by
  unfold halReplay
  try dsimp only
  repeat' first
    | intro _ | with_reducible assumption | with_reducible apply replaySend_keeps | with_reducible apply bumpF_keeps
    | with_reducible apply setLink_keeps | with_reducible apply halPortDown_keeps | with_reducible apply keeps_ite
    | fail_if_no_progress (with_reducible refine keeps_mk (h := ?_) (h4 := rfl) (h5 := rfl) ..) | with_reducible rfl | split | dsimp only
theorem replayTimeout_keeps (p : Nat) (s : State) (hmem : Keeps qs s) : Keeps qs (replayTimeout p s) := by
  unfold replayTimeout
  try dsimp only
  repeat' first
    | intro _ | with_reducible assumption | with_reducible apply portReplay_keeps | with_reducible apply halReplay_keeps
    | with_reducible apply keeps_ite | split | dsimp only
theorem halMsg_keeps (opc : Nat) (m : HalMsg) (body : State → State) (s : State) (hbody : ∀ t, Keeps qs t → Keeps qs (body t)) (hmem : Keeps qs s) : Keeps qs (halMsg opc m body s) := by
  unfold halMsg
  try dsimp only
  repeat' first
    | intro _ | with_reducible assumption | with_reducible apply hbody | with_reducible apply keeps_ite | split | dsimp only
theorem onSnoopRsp_keeps (shared withData : Bool) (m : HalMsg) (s : State) (hmem : Keeps qs s) : Keeps qs (onSnoopRsp shared withData m s) := by
  unfold onSnoopRsp
  try dsimp only
  repeat' first
    | intro _ | with_reducible assumption | with_reducible apply afterSnoop_keeps | with_reducible apply snoopClose_keeps
    | with_reducible apply keeps_ite | split | dsimp only
theorem halNack_keeps (m : HalMsg) (s : State) (hmem : Keeps qs s) : Keeps qs (halNack m s) := by
  unfold halNack
  try dsimp only
  repeat' first
    | intro _ | with_reducible assumption | with_reducible apply reqFailed_keeps
    | fail_if_no_progress (with_reducible refine keeps_mk (h := ?_) (h4 := rfl) (h5 := rfl) ..) | with_reducible rfl | split | dsimp only
theorem setV_keeps (p n : Nat) (v : BitVec 2048) (s : State) (hmem : Keeps qs s) : Keeps qs (setV p n v s) := by
  unfold setV
  try dsimp only
  repeat' first
    | intro _ | with_reducible assumption | fail_if_no_progress (with_reducible refine keeps_mk (h := ?_) (h4 := rfl) (h5 := rfl) ..)
    | with_reducible rfl | dsimp only
theorem setM_keeps (p n : Nat) (v : BitVec 256) (s : State) (hmem : Keeps qs s) : Keeps qs (setM p n v s) := by
  unfold setM
  try dsimp only
  repeat' first
    | intro _ | with_reducible assumption | with_reducible apply keeps_ite
    | fail_if_no_progress (with_reducible refine keeps_mk (h := ?_) (h4 := rfl) (h5 := rfl) ..) | with_reducible rfl | split | dsimp only
theorem vxAccept_keeps (p : Nat) (ue : Bool) (ce : Nat) (s : State) (hmem : Keeps qs s) : Keeps qs (vxAccept p ue ce s) := by
  unfold vxAccept
  try dsimp only
  repeat' first
    | intro _ | with_reducible assumption | with_reducible apply acceptCe_keeps | with_reducible apply accept_keeps | dsimp only
theorem vxPut_keeps (p : Nat) (x : VxD) (e r : Nat) (s : State) (hmem : Keeps qs s) : Keeps qs (vxPut p x e r s) := by
  unfold vxPut
  try dsimp only
  repeat' first
    | intro _ | with_reducible assumption | with_reducible apply tileWriteN_keeps | with_reducible apply setM_keeps | with_reducible apply setV_keeps
    | with_reducible apply keeps_ite | split | dsimp only
theorem vxGo_keeps (v : VxEnv) (trapEn : Nat) (masked : Option Nat) : ∀ (l : List Nat) (a : VxAcc), Keeps qs a.s → Keeps qs (vxGo v trapEn masked l a).s
  | [], a, h => h
  | e :: es, a, h => by
    unfold vxGo
    split
    · dsimp only
      split
      · exact h
      · exact vxGo_keeps v trapEn masked es _ (vxPut_keeps _ _ _ _ _ h)
    · exact vxGo_keeps v trapEn masked es a h
theorem vxFlags_keeps (p fl : Nat) (s : State) (hmem : Keeps qs s) : Keeps qs (vxFlags p fl s) := by
  unfold vxFlags
  try dsimp only
  repeat' first
    | intro _ | with_reducible assumption | with_reducible apply setFlags_keeps | dsimp only
theorem vxElems_keeps (p : Nat) (v1 : BitVec 2048) (masked : Option Nat) (bad es : List Nat) (e : EngIns) (s : State) (h : Keeps qs s) :
    Keeps qs (vxElems p v1 masked bad es e s) := by
  have hg := fun v t a (ha : Keeps qs a.s) => vxGo_keeps v t masked es a ha
  unfold vxElems
  dsimp only
  split
  · exact setHead_keeps _ _ _ (hg _ _ _ h)
  · exact setEng_keeps _ _ _ (setF_keeps _ _ _ _ (setF_keeps _ _ _ _ (setF_keeps _ _ _ _ (setF_keeps _ _ _ _ (setF_keeps _ _ _ _
      (setHead_keeps _ _ _ (vxFlags_keeps _ _ _ (hg _ _ _ h))))))))
theorem vxReduce_keeps (p : Nat) (bad : List Nat) (e : EngIns) (s : State) (hmem : Keeps qs s) : Keeps qs (vxReduce p bad e s) := by
  unfold vxReduce
  try dsimp only
  repeat' first
    | intro _ | with_reducible assumption | with_reducible apply setHead_keeps | with_reducible apply keeps_ite
    | fail_if_no_progress (with_reducible refine keeps_mk (h := ?_) (h4 := rfl) (h5 := rfl) ..) | with_reducible rfl | split | dsimp only
theorem vxUe_keeps (p : Nat) (bad : List Nat) (e : EngIns) (s : State) (hmem : Keeps qs s) : Keeps qs (vxUe p bad e s) := by
  unfold vxUe
  try dsimp only
  repeat' first
    | intro _ | with_reducible assumption | with_reducible apply engUe_keeps | with_reducible apply setF_keeps | with_reducible apply raise_keeps
    | dsimp only
theorem vxRun_keeps (op p : Nat) (ecc : Ecc) (s : State) (hmem : Keeps qs s) : Keeps qs (vxRun op p ecc s) := by
  unfold vxRun
  try dsimp only
  repeat' first
    | intro _ | with_reducible assumption | with_reducible apply bumpF_keeps | with_reducible apply vxUe_keeps | with_reducible apply vxReduce_keeps
    | with_reducible apply vxElems_keeps | with_reducible apply keeps_ite
    | fail_if_no_progress (with_reducible refine keeps_mk (h := ?_) (h4 := rfl) (h5 := rfl) ..) | with_reducible rfl | split | dsimp only
theorem vxResume_keeps (p mode : Nat) (s : State) (hmem : Keeps qs s) : Keeps qs (vxResume p mode s) := by
  unfold vxResume
  try dsimp only
  repeat' first
    | intro _ | with_reducible assumption | with_reducible apply setF_keeps | with_reducible apply setEng_keeps | with_reducible apply vxElems_keeps
    | with_reducible apply vxPut_keeps | with_reducible apply setHead_keeps | with_reducible apply keeps_ite
    | fail_if_no_progress (with_reducible refine keeps_mk (h := ?_) (h4 := rfl) (h5 := rfl) ..) | with_reducible rfl | split | dsimp only
theorem vxComplete_keeps (p : Nat) (s : State) (hmem : Keeps qs s) : Keeps qs (vxComplete p s) := by
  unfold vxComplete
  try dsimp only
  repeat' first
    | intro _ | with_reducible assumption | with_reducible apply vxFlags_keeps | with_reducible apply setF_keeps | with_reducible apply bumpF_keeps
    | with_reducible apply engComplete_keeps | with_reducible apply keeps_ite
    | fail_if_no_progress (with_reducible refine keeps_mk (h := ?_) (h4 := rfl) (h5 := rfl) ..) | with_reducible rfl | split | dsimp only
theorem vxRestore_keeps (path : Path) (p : Nat) (v : Word) (s : State) (hmem : Keeps qs s) : Keeps qs (vxRestore path p v s) := by
  unfold vxRestore
  try dsimp only
  repeat' first
    | intro _ | with_reducible assumption | with_reducible apply restoreStatus_keeps | dsimp only
theorem vxWindow_keeps (path : Path) (p off : Nat) (v : Word) (s : State) (hmem : Keeps qs s) : Keeps qs (vxWindow path p off v s) := by
  unfold vxWindow
  try dsimp only
  repeat' first
    | intro _ | with_reducible assumption | with_reducible apply rejectWrite_keeps | with_reducible apply setM_keeps | with_reducible apply setV_keeps
    | with_reducible apply keeps_ite | split | dsimp only
theorem issueRetire_keeps (c : Nat) (w : BitVec 24) (out : Option OutIns) (k : Core) (s : State) (hmem : Keeps qs s) : Keeps qs (issueRetire c w out k s) := by
  unfold issueRetire
  try dsimp only
  repeat' first
    | intro _ | with_reducible assumption | with_reducible apply addPair_keeps | with_reducible apply retire_keeps
    | fail_if_no_progress (with_reducible refine keeps_mk (h := ?_) (h4 := rfl) (h5 := rfl) ..) | with_reducible rfl | split | dsimp only
theorem issueTo_keeps (kind : Nat) (c : Nat) (w : BitVec 24) (k : Core) (s : State) (hmem : Keeps qs s) : Keeps qs (issueTo kind c w k s) := by
  unfold issueTo
  try dsimp only
  repeat' first
    | intro _ | with_reducible assumption | with_reducible apply issueRetire_keeps | with_reducible apply setEng_keeps
    | with_reducible apply withSummary_keeps | with_reducible apply keeps_ite
    | fail_if_no_progress (with_reducible refine keeps_mk (h := ?_) (h4 := rfl) (h5 := rfl) ..) | with_reducible rfl | split | dsimp only
theorem issueInsn_keeps (kind : Nat) (c : Fin 44) (w : BitVec 24) (s : State) (hmem : Keeps qs s) : Keeps qs (issueInsn kind c w s) := by
  unfold issueInsn
  try dsimp only
  repeat' first
    | intro _ | with_reducible assumption | with_reducible apply insn_keeps | with_reducible apply issueTo_keeps | dsimp only
theorem issueResume_keeps (c : Fin 44) (w : BitVec 24) (s : State) (hmem : Keeps qs s) : Keeps qs (issueResume c w s) := by
  unfold issueResume
  try dsimp only
  repeat' first
    | intro _ | with_reducible assumption | with_reducible apply insn_keeps | with_reducible apply issueRetire_keeps
    | with_reducible apply vxResume_keeps | with_reducible apply setPair_keeps
    | fail_if_no_progress (with_reducible refine keeps_mk (h := ?_) (h4 := rfl) (h5 := rfl) ..) | with_reducible rfl | split | dsimp only
theorem startCore_keeps (c : Nat) (entry : BitVec 48) (arg : DWord) (s : State) (hmem : Keeps qs s) : Keeps qs (startCore c entry arg s) := by
  unfold startCore
  try dsimp only
  repeat' first
    | intro _ | with_reducible assumption | with_reducible apply setF_keeps | with_reducible apply setPair_keeps | with_reducible apply setCore_keeps
    | with_reducible apply ranAdd_keeps | fail_if_no_progress (with_reducible refine keeps_mk (h := ?_) (h4 := rfl) (h5 := rfl) ..)
    | with_reducible rfl | dsimp only
theorem startAtCount_keeps (c : Nat) (s : State) (hmem : Keeps qs s) : Keeps qs (startAtCount c s) := by
  unfold startAtCount
  try dsimp only
  repeat' first
    | intro _ | with_reducible assumption | with_reducible apply startCore_keeps | with_reducible apply keeps_ite
    | fail_if_no_progress (with_reducible refine keeps_mk (h := ?_) (h4 := rfl) (h5 := rfl) ..) | with_reducible rfl | split | dsimp only
theorem startCores_keeps (b : Nat) (s : State) (hmem : Keeps qs s) : Keeps qs (startCores b s) := by
  unfold startCores
  try dsimp only
  repeat' first
    | intro _ | with_reducible assumption | with_reducible apply startCore_keeps | with_reducible apply setCore_keeps | with_reducible apply keeps_ite
    | with_reducible apply keeps_foldl | fail_if_no_progress (with_reducible refine keeps_mk (h := ?_) (h4 := rfl) (h5 := rfl) ..)
    | with_reducible rfl | split | dsimp only
theorem issueStart_keeps (c : Fin 44) (w : BitVec 24) (s : State) (hmem : Keeps qs s) : Keeps qs (issueStart c w s) := by
  unfold issueStart
  try dsimp only
  repeat' first
    | intro _ | with_reducible assumption | with_reducible apply insn_keeps | with_reducible apply coreFault_keeps
    | with_reducible apply issueRetire_keeps | with_reducible apply startCores_keeps | with_reducible apply keeps_ite
    | fail_if_no_progress (with_reducible refine keeps_mk (h := ?_) (h4 := rfl) (h5 := rfl) ..) | with_reducible rfl | split | dsimp only
  all_goals exact blockAsk_keeps _ _ _ _ (by assumption) (by assumption)
theorem putTrap_keeps (c : Nat) (x : Store Word) (s : State) (hmem : Keeps qs s) : Keeps qs (putTrap c x s) := by
  unfold putTrap
  try dsimp only
  repeat' first
    | intro _ | with_reducible assumption | with_reducible apply csrSet_keeps | with_reducible apply keeps_foldl | dsimp only
theorem seqWindow_keeps (path : Path) (c : Nat) (off : Nat) (v : Word) (s : State) (hmem : Keeps qs s) : OutKeeps qs (seqWindow path c off v s) := by
  unfold seqWindow
  try dsimp only
  repeat' first
    | intro _ | with_reducible assumption | with_reducible apply rejectWrite_keeps | with_reducible apply setCore_keeps
    | with_reducible apply windowWrite_keeps | with_reducible apply putTrap_keeps | with_reducible apply outKeeps_next
    | with_reducible apply outKeeps_fault | with_reducible apply keeps_ite
    | fail_if_no_progress (with_reducible refine keeps_mk (h := ?_) (h4 := rfl) (h5 := rfl) ..) | with_reducible rfl | split | dsimp only
theorem launchState_keeps (n : Nat) (s : State) (hmem : Keeps qs s) : Keeps qs (launchState n s) := by
  unfold launchState
  try dsimp only
  repeat' first
    | intro _ | with_reducible assumption | with_reducible apply setF_keeps | dsimp only
theorem launchSend_keeps (kind : Nat) (args : List Nat) (dst : Nat) (s : State) (hmem : Keeps qs s) : Keeps qs (launchSend kind args dst s) := by
  unfold launchSend
  try dsimp only
  repeat' first
    | intro _ | with_reducible assumption | with_reducible apply slotSend_keeps | dsimp only
theorem setLaunch_keeps (l : LaunchRec) (s : State) (hmem : Keeps qs s) : Keeps qs (setLaunch l s) := by
  unfold setLaunch
  try dsimp only
  repeat' first
    | intro _ | with_reducible assumption | fail_if_no_progress (with_reducible refine keeps_mk (h := ?_) (h4 := rfl) (h5 := rfl) ..)
    | with_reducible rfl | dsimp only
theorem launchStop_keeps (dead : Nat) (s : State) (hmem : Keeps qs s) : Keeps qs (launchStop dead s) := by
  unfold launchStop
  try dsimp only
  repeat' first
    | intro _ | with_reducible assumption | with_reducible apply launchState_keeps | with_reducible apply setF_keeps
    | with_reducible apply cmdFinish_keeps | with_reducible apply keeps_ite
    | fail_if_no_progress (with_reducible refine keeps_mk (h := ?_) (h4 := rfl) (h5 := rfl) ..) | with_reducible rfl | split | dsimp only
theorem launchFlood_keeps (l : LaunchRec) (from_ : Nat) (cause dead : Nat) (s : State) (hmem : Keeps qs s) : Keeps qs (launchFlood l from_ cause dead s) := by
  unfold launchFlood
  try dsimp only
  repeat' first
    | intro _ | with_reducible assumption | with_reducible apply launchSend_keeps | with_reducible apply keeps_foldl | dsimp only
theorem launchFailed_keeps (cause dead : Nat) (s : State) (hmem : Keeps qs s) : Keeps qs (launchFailed cause dead s) := by
  unfold launchFailed
  try dsimp only
  repeat' first
    | intro _ | with_reducible assumption | with_reducible apply raise_keeps | dsimp only
theorem launchOrigin_keeps (l : LaunchRec) (cause dead : Nat) (s : State) (hmem : Keeps qs s) : Keeps qs (launchOrigin l cause dead s) := by
  unfold launchOrigin
  try dsimp only
  repeat' first
    | intro _ | with_reducible assumption | with_reducible apply launchFlood_keeps | with_reducible apply launchStop_keeps
    | with_reducible apply launchFailed_keeps | fail_if_no_progress (with_reducible refine keeps_mk (h := ?_) (h4 := rfl) (h5 := rfl) ..)
    | with_reducible rfl | dsimp only
theorem launchAborted_keeps (l : LaunchRec) (src cause dead : Nat) (s : State) (hmem : Keeps qs s) : Keeps qs (launchAborted l src cause dead s) := by
  unfold launchAborted
  try dsimp only
  repeat' first
    | intro _ | with_reducible assumption | with_reducible apply launchFailed_keeps | with_reducible apply launchFlood_keeps
    | with_reducible apply launchStop_keeps | with_reducible apply keeps_ite | split | dsimp only
theorem launchGo_keeps (l : LaunchRec) (s : State) (hmem : Keeps qs s) : Keeps qs (launchGo l s) := by
  unfold launchGo
  try dsimp only
  repeat' first
    | intro _ | with_reducible assumption | with_reducible apply launchState_keeps | with_reducible apply setLaunch_keeps
    | with_reducible apply launchSend_keeps | with_reducible apply keeps_foldl
    | fail_if_no_progress (with_reducible refine keeps_mk (h := ?_) (h4 := rfl) (h5 := rfl) ..) | with_reducible rfl | dsimp only
theorem launchCheck_keeps (s : State) (hmem : Keeps qs s) : Keeps qs (launchCheck s) := by
  unfold launchCheck
  try dsimp only
  repeat' first
    | intro _ | with_reducible assumption | with_reducible apply launchGo_keeps | with_reducible apply launchSend_keeps
    | with_reducible apply launchState_keeps | with_reducible apply setLaunch_keeps | with_reducible apply keeps_ite
    | fail_if_no_progress (with_reducible refine keeps_mk (h := ?_) (h4 := rfl) (h5 := rfl) ..) | with_reducible rfl | split | dsimp only
theorem launchPrepare_keeps (l : LaunchRec) (s : State) (hmem : Keeps qs s) : Keeps qs (launchPrepare l s) := by
  unfold launchPrepare
  try dsimp only
  repeat' first
    | intro _ | with_reducible assumption | with_reducible apply launchState_keeps | with_reducible apply setLaunch_keeps
    | with_reducible apply launchCheck_keeps | with_reducible apply launchSend_keeps | with_reducible apply keeps_foldl
    | fail_if_no_progress (with_reducible refine keeps_mk (h := ?_) (h4 := rfl) (h5 := rfl) ..) | with_reducible rfl | dsimp only
theorem onPrepare_keeps (src crc : Nat) (s : State) (hmem : Keeps qs s) : Keeps qs (onPrepare src crc s) := by
  unfold onPrepare
  try dsimp only
  repeat' first
    | intro _ | with_reducible assumption | with_reducible apply launchSend_keeps | with_reducible apply launchStop_keeps
    | with_reducible apply launchFailed_keeps | with_reducible apply launchOrigin_keeps | with_reducible apply launchCheck_keeps
    | with_reducible apply setLaunch_keeps | with_reducible apply launchPrepare_keeps | with_reducible apply keeps_ite
    | fail_if_no_progress (with_reducible refine keeps_mk (h := ?_) (h4 := rfl) (h5 := rfl) ..) | with_reducible rfl | split | dsimp only
theorem onReady_keeps (src : Nat) (s : State) (hmem : Keeps qs s) : Keeps qs (onReady src s) := by
  unfold onReady
  try dsimp only
  repeat' first
    | intro _ | with_reducible assumption | with_reducible apply setLaunch_keeps | with_reducible apply launchCheck_keeps
    | with_reducible apply launchSend_keeps | with_reducible apply keeps_foldl
    | fail_if_no_progress (with_reducible refine keeps_mk (h := ?_) (h4 := rfl) (h5 := rfl) ..) | with_reducible rfl | split | dsimp only
theorem onGo_keeps (s : State) (hmem : Keeps qs s) : Keeps qs (onGo s) := by
  unfold onGo
  try dsimp only
  repeat' first
    | intro _ | with_reducible assumption | with_reducible apply launchGo_keeps | with_reducible apply keeps_ite
    | fail_if_no_progress (with_reducible refine keeps_mk (h := ?_) (h4 := rfl) (h5 := rfl) ..) | with_reducible rfl | split | dsimp only
theorem launchAdopt_keeps (i : Nat) (report : Option Nat) (s : State) (hmem : Keeps qs s) : Keeps qs (launchAdopt i report s) := by
  unfold launchAdopt
  try dsimp only
  repeat' first
    | intro _ | with_reducible assumption | with_reducible apply bumpF_keeps | with_reducible apply setLaunch_keeps
    | with_reducible apply launchSend_keeps | with_reducible apply keeps_ite
    | fail_if_no_progress (with_reducible refine keeps_mk (h := ?_) (h4 := rfl) (h5 := rfl) ..) | with_reducible rfl | split | dsimp only
theorem onAdopt_keeps (src orphan : Nat) (s : State) (hmem : Keeps qs s) : Keeps qs (onAdopt src orphan s) := by
  unfold onAdopt
  try dsimp only
  repeat' first
    | intro _ | with_reducible assumption | with_reducible apply launchAdopt_keeps
    | fail_if_no_progress (with_reducible refine keeps_mk (h := ?_) (h4 := rfl) (h5 := rfl) ..) | with_reducible rfl | split | dsimp only
theorem reparent_keeps (relay : Nat) (orphan : Nat) (s : State) (hmem : Keeps qs s) : Keeps qs (reparent relay orphan s) := by
  unfold reparent
  try dsimp only
  repeat' first
    | intro _ | with_reducible assumption | with_reducible apply launchOrigin_keeps | with_reducible apply raise_keeps
    | with_reducible apply launchAdopt_keeps | with_reducible apply setLaunch_keeps | with_reducible apply launchSend_keeps
    | with_reducible apply keeps_ite | fail_if_no_progress (with_reducible refine keeps_mk (h := ?_) (h4 := rfl) (h5 := rfl) ..) | with_reducible rfl
    | split | dsimp only
theorem childTimeout_keeps (p : Nat) (s : State) (hmem : Keeps qs s) : Keeps qs (childTimeout p s) := by
  unfold childTimeout
  try dsimp only
  repeat' first
    | intro _ | with_reducible assumption | with_reducible apply reparent_keeps | with_reducible apply setLaunch_keeps
    | with_reducible apply launchCheck_keeps | with_reducible apply launchOrigin_keeps | with_reducible apply keeps_ite
    | with_reducible apply keeps_foldl | fail_if_no_progress (with_reducible refine keeps_mk (h := ?_) (h4 := rfl) (h5 := rfl) ..)
    | with_reducible rfl | split | dsimp only
theorem launchDeadline_keeps (s : State) (hmem : Keeps qs s) : Keeps qs (launchDeadline s) := by
  unfold launchDeadline
  try dsimp only
  repeat' first
    | intro _ | with_reducible assumption | with_reducible apply launchGo_keeps | with_reducible apply launchOrigin_keeps
    | with_reducible apply keeps_ite | fail_if_no_progress (with_reducible refine keeps_mk (h := ?_) (h4 := rfl) (h5 := rfl) ..) | with_reducible rfl
    | split | dsimp only
theorem launchBegin_keeps (op : Nat) (entry : BitVec 48) (c arg g2 : DWord) (s : State) (hmem : Keeps qs s) : Keeps qs (launchBegin op entry c arg g2 s) := by
  unfold launchBegin
  try dsimp only
  repeat' first
    | intro _ | with_reducible assumption | with_reducible apply launchState_keeps | with_reducible apply launchOrigin_keeps
    | with_reducible apply launchPrepare_keeps | with_reducible apply setLaunch_keeps | with_reducible apply keeps_ite
    | fail_if_no_progress (with_reducible refine keeps_mk (h := ?_) (h4 := rfl) (h5 := rfl) ..) | with_reducible rfl | split | dsimp only
theorem launchCmd_keeps (path : Path) (s : State) (hmem : Keeps qs s) : Keeps qs (launchCmd path s) := by
  unfold launchCmd
  try dsimp only
  repeat' first
    | intro _ | with_reducible assumption | with_reducible apply plainCommand_keeps | with_reducible apply setPair_keeps
    | with_reducible apply launchBegin_keeps | dsimp only
theorem resumeCmd_keeps (path : Path) (s : State) (hmem : Keeps qs s) : Keeps qs (resumeCmd path s) := by
  unfold resumeCmd
  try dsimp only
  repeat' first
    | intro _ | with_reducible assumption | with_reducible apply plainCommand_keeps | with_reducible apply launchBegin_keeps | dsimp only
theorem stepBegin_keeps (s : State) (hmem : Keeps qs s) : Keeps qs (stepBegin s) := by
  unfold stepBegin
  try dsimp only
  repeat' first
    | intro _ | with_reducible assumption | with_reducible apply setF_keeps
    | fail_if_no_progress (with_reducible refine keeps_mk (h := ?_) (h4 := rfl) (h5 := rfl) ..) | with_reducible rfl | dsimp only
theorem startPsc_keeps (entry : BitVec 48) (g1 g2 : DWord) (s : State) (hmem : Keeps qs s) : Keeps qs (startPsc entry g1 g2 s) := by
  unfold startPsc
  try dsimp only
  repeat' first
    | intro _ | with_reducible assumption | with_reducible apply startCore_keeps | with_reducible apply setCore_keeps
    | with_reducible apply keeps_foldl | dsimp only
theorem unpark_keeps (s : State) (hmem : Keeps qs s) : Keeps qs (unpark s) := by
  unfold unpark
  try dsimp only
  repeat' first
    | intro _ | with_reducible assumption | with_reducible apply setCore_keeps | with_reducible apply flipClocks_keeps
    | with_reducible apply halt_keeps | with_reducible apply keeps_ite | with_reducible apply keeps_foldl
    | fail_if_no_progress (with_reducible refine keeps_mk (h := ?_) (h4 := rfl) (h5 := rfl) ..) | with_reducible rfl | split | dsimp only
theorem coreStartAtCount_keeps (s : State) (hmem : Keeps qs s) : Keeps qs (coreStartAtCount s) := by
  unfold coreStartAtCount
  try dsimp only
  repeat' first
    | intro _ | with_reducible assumption | with_reducible apply launchStop_keeps | with_reducible apply cmdFinishOf_keeps
    | with_reducible apply setPair_keeps | with_reducible apply stepBegin_keeps | with_reducible apply setPkg_keeps
    | with_reducible apply startPsc_keeps | with_reducible apply halt_keeps | with_reducible apply colThaw_keeps | with_reducible apply unpark_keeps
    | with_reducible apply setF_keeps | with_reducible apply keeps_ite
    | fail_if_no_progress (with_reducible refine keeps_mk (h := ?_) (h4 := rfl) (h5 := rfl) ..) | with_reducible rfl | split | dsimp only
theorem groupAbort_keeps (m : ColMsg) (cause origin : Nat) (s : State) (hmem : Keeps qs s) : Keeps qs (groupAbort m cause origin s) := by
  unfold groupAbort
  try dsimp only
  repeat' first
    | intro _ | with_reducible assumption | with_reducible apply abortFlood_keeps | with_reducible apply colAbort_keeps
    | with_reducible apply voteAborted_keeps | with_reducible apply keeps_ite | split | dsimp only
theorem onAbort_keeps (m : ColMsg) (cause origin : Nat) (s : State) (hmem : Keeps qs s) : Keeps qs (onAbort m cause origin s) := by
  unfold onAbort
  try dsimp only
  repeat' first
    | intro _ | with_reducible assumption | with_reducible apply launchAborted_keeps | with_reducible apply groupAbort_keeps
    | with_reducible apply keeps_ite | fail_if_no_progress (with_reducible refine keeps_mk (h := ?_) (h4 := rfl) (h5 := rfl) ..) | with_reducible rfl
    | split | dsimp only
theorem coreStop_keeps (s : State) (hmem : Keeps qs s) : Keeps qs (coreStop s) := by
  unfold coreStop
  try dsimp only
  repeat' first
    | intro _ | with_reducible assumption | with_reducible apply setCore_keeps | with_reducible apply load_keeps
    | with_reducible apply colAbortAll_keeps | with_reducible apply setFaulted_keeps | with_reducible apply keeps_ite
    | with_reducible apply keeps_foldl | fail_if_no_progress (with_reducible refine keeps_mk (h := ?_) (h4 := rfl) (h5 := rfl) ..)
    | with_reducible rfl | split | dsimp only
theorem slotWrite_keeps (k off : Nat) (bs : List Byte) (s : State) (hmem : Keeps qs s) : Keeps qs (slotWrite k off bs s) := by
  unfold slotWrite
  try dsimp only
  repeat' first
    | intro _ | with_reducible assumption | with_reducible apply bs_keeps | with_reducible apply writeExt_keeps | dsimp only
theorem slotOpen_keeps (k : Nat) (s : State) (hmem : Keeps qs s) : Keeps qs (slotOpen k s) := by
  unfold slotOpen
  try dsimp only
  repeat' first
    | intro _ | with_reducible assumption | with_reducible apply slotWrite_keeps
    | fail_if_no_progress (with_reducible refine keeps_mk (h := ?_) (h4 := rfl) (h5 := rfl) ..) | with_reducible rfl | dsimp only
theorem scatterData_keeps : ∀ (l : List (Nat × Nat)) (b : List Byte) (s : State), Keeps qs s → Keeps qs (scatterData l b s)
  | [], _, s, h => h
  | r :: m, bs, s, h => by unfold scatterData; exact scatterData_keeps m _ _ (writeOff_keeps _ _ _ _ h)
theorem slotFill_keeps (k cut : Nat) (ctrl : List Byte) (ok : Bool) (s : State) (hmem : Keeps qs s) : Keeps qs (slotFill k cut ctrl ok s) := by
  unfold slotFill
  try dsimp only
  repeat' first
    | intro _ | with_reducible assumption | with_reducible apply slotWrite_keeps | with_reducible apply keeps_ite | split | dsimp only
theorem slotLoad_keeps (k : Nat) (s : State) (h : Keeps qs s) : Keeps qs (slotLoad k s).2.2 := scatterData_keeps _ _ _ h
theorem ctrlPut_keeps (c : CtrlImage) (s : State) (hc : Mem.wf zeroByte c.tileSram = true) (h : Keeps qs s) : Keeps qs (ctrlPut c s) :=
  ⟨⟨h.1.1, hc, h.1.2.2.1, h.1.2.2.2⟩, h.2⟩
theorem partnerCheck_keeps (s : State) (hmem : Keeps qs s) : Keeps qs (partnerCheck s) := by
  unfold partnerCheck
  try dsimp only
  repeat' first
    | intro _ | with_reducible assumption | with_reducible apply setF_keeps | with_reducible apply raise_keeps | with_reducible apply keeps_ite
    | split | dsimp only
theorem ckpReject_keeps (off data : Nat) (s : State) (hmem : Keeps qs s) : Keeps qs (ckpReject off data s) := by
  unfold ckpReject
  try dsimp only
  repeat' first
    | intro _ | with_reducible assumption | with_reducible apply raise_keeps | dsimp only
theorem ckpEnable_keeps (s : State) (hmem : Keeps qs s) : Keeps qs (ckpEnable s) := by
  unfold ckpEnable
  try dsimp only
  repeat' first
    | intro _ | with_reducible assumption | with_reducible apply ckpReject_keeps | with_reducible apply raise_keeps | with_reducible apply setF_keeps
    | with_reducible apply partnerCheck_keeps | with_reducible apply keeps_ite
    | fail_if_no_progress (with_reducible refine keeps_mk (h := ?_) (h4 := rfl) (h5 := rfl) ..) | with_reducible rfl | split | dsimp only
theorem ckpState_keeps (n : Nat) (s : State) (hmem : Keeps qs s) : Keeps qs (ckpState n s) := by
  unfold ckpState
  try dsimp only
  repeat' first
    | intro _ | with_reducible assumption | with_reducible apply setF_keeps | dsimp only
theorem setStep_keeps (t : Nat) (s : State) (hmem : Keeps qs s) : Keeps qs (setStep t s) := by
  unfold setStep
  try dsimp only
  repeat' first
    | intro _ | with_reducible assumption | with_reducible apply setPair_keeps | dsimp only
theorem drainChoose_keeps (s : State) (hmem : Keeps qs s) : Keeps qs (drainChoose s) := by
  unfold drainChoose
  try dsimp only
  repeat' first
    | intro _ | with_reducible assumption | with_reducible apply keeps_ite
    | fail_if_no_progress (with_reducible refine keeps_mk (h := ?_) (h4 := rfl) (h5 := rfl) ..) | with_reducible rfl | split | dsimp only
theorem pumpWrites_keeps (s : State) (hmem : Keeps qs s) : Keeps qs (pumpWrites s) := by
  unfold pumpWrites
  try dsimp only
  repeat' first
    | intro _ | with_reducible assumption | with_reducible apply drainChoose_keeps | with_reducible apply sendReq_keeps
    | with_reducible apply keeps_ite | fail_if_no_progress (with_reducible refine keeps_mk (h := ?_) (h4 := rfl) (h5 := rfl) ..) | with_reducible rfl
    | split | dsimp only
theorem pumpReads_keeps (s : State) (hmem : Keeps qs s) : Keeps qs (pumpReads s) := by
  unfold pumpReads
  try dsimp only
  repeat' first
    | intro _ | with_reducible assumption | with_reducible apply sendReq_keeps | with_reducible apply keeps_ite
    | fail_if_no_progress (with_reducible refine keeps_mk (h := ?_) (h4 := rfl) (h5 := rfl) ..) | with_reducible rfl | split | dsimp only
theorem readFrom_keeps (rs : List (Nat × Nat)) (s : State) (hmem : Keeps qs s) : Keeps qs (readFrom rs s) := by
  unfold readFrom
  try dsimp only
  repeat' first
    | intro _ | with_reducible assumption | with_reducible apply pumpReads_keeps
    | fail_if_no_progress (with_reducible refine keeps_mk (h := ?_) (h4 := rfl) (h5 := rfl) ..) | with_reducible rfl | dsimp only
theorem farClear_keeps (s : State) (hmem : Keeps qs s) : Keeps qs (farClear s) := by
  unfold farClear
  try dsimp only
  repeat' first
    | intro _ | with_reducible assumption | with_reducible apply setEng_keeps | dsimp only
theorem voteSend_keeps (kind : Nat) (data : List Slot) (r : Nat) (s : State) (hmem : Keeps qs s) : Keeps qs (voteSend kind data r s) := by
  unfold voteSend
  try dsimp only
  repeat' first
    | intro _ | with_reducible assumption | with_reducible apply slotSend_keeps | dsimp only
theorem coresIdle_keeps (s : State) (hmem : Keeps qs s) : Keeps qs (coresIdle s) := by
  unfold coresIdle
  try dsimp only
  repeat' first
    | intro _ | with_reducible assumption | with_reducible apply setCore_keeps | with_reducible apply load_keeps | with_reducible apply keeps_foldl
    | fail_if_no_progress (with_reducible refine keeps_mk (h := ?_) (h4 := rfl) (h5 := rfl) ..) | with_reducible rfl | dsimp only
theorem discardWork_keeps (s : State) (hmem : Keeps qs s) : Keeps qs (discardWork s) := by
  unfold discardWork
  try dsimp only
  repeat' first
    | intro _ | with_reducible assumption | with_reducible apply colShow_keeps
    | fail_if_no_progress (with_reducible refine keeps_mk (h := ?_) (h4 := rfl) (h5 := rfl) ..) | with_reducible rfl | dsimp only
theorem clearGroups_keeps (s : State) (hmem : Keeps qs s) : Keeps qs (clearGroups s) := by
  unfold clearGroups
  try dsimp only
  repeat' first
    | intro _ | with_reducible assumption | with_reducible apply setGrpWord_keeps | with_reducible apply keeps_ite | with_reducible apply keeps_foldl
    | split | dsimp only
theorem drainCheck_keeps (s : State) (hmem : Keeps qs s) : Keeps qs (drainCheck s) := by
  unfold drainCheck
  try dsimp only
  repeat' first
    | intro _ | with_reducible assumption | with_reducible apply bumpF_keeps | with_reducible apply setF_keeps | with_reducible apply keeps_ite
    | fail_if_no_progress (with_reducible refine keeps_mk (h := ?_) (h4 := rfl) (h5 := rfl) ..) | with_reducible rfl | split | dsimp only
theorem drainStart_keeps (k cut : Nat) (s : State) (hmem : Keeps qs s) : Keeps qs (drainStart k cut s) := by
  unfold drainStart
  try dsimp only
  repeat' first
    | intro _ | with_reducible assumption | with_reducible apply setF_keeps | with_reducible apply slotOpen_keeps
    | with_reducible apply pumpReads_keeps | with_reducible apply drainCheck_keeps | with_reducible apply pumpWrites_keeps
    | with_reducible apply keeps_ite | fail_if_no_progress (with_reducible refine keeps_mk (h := ?_) (h4 := rfl) (h5 := rfl) ..) | with_reducible rfl
    | split | dsimp only
theorem mirrorDone_keeps (ok : Bool) (s : State) (hmem : Keeps qs s) : Keeps qs (mirrorDone ok s) := by
  unfold mirrorDone
  try dsimp only
  repeat' first
    | intro _ | with_reducible assumption | with_reducible apply drainAbandon_keeps | with_reducible apply drainCheck_keeps
    | with_reducible apply keeps_ite | fail_if_no_progress (with_reducible refine keeps_mk (h := ?_) (h4 := rfl) (h5 := rfl) ..) | with_reducible rfl
    | split | dsimp only
theorem durableDone_keeps (ok : Bool) (s : State) (hmem : Keeps qs s) : Keeps qs (durableDone ok s) := by
  unfold durableDone
  try dsimp only
  repeat' first
    | intro _ | with_reducible assumption | with_reducible apply drainAbandon_keeps | with_reducible apply slotWrite_keeps
    | with_reducible apply drainCheck_keeps | with_reducible apply keeps_ite
    | fail_if_no_progress (with_reducible refine keeps_mk (h := ?_) (h4 := rfl) (h5 := rfl) ..) | with_reducible rfl | split | dsimp only
theorem ckpNotify_keeps (s : State) (hmem : Keeps qs s) : Keeps qs (ckpNotify s) := by
  unfold ckpNotify
  try dsimp only
  repeat' first
    | intro _ | with_reducible assumption | with_reducible apply writeOff_keeps | dsimp only
theorem auditPick_keeps (t : Nat) (s : State) (hmem : Keeps qs s) : Keeps qs (auditPick t s) := by
  unfold auditPick
  try dsimp only
  repeat' first
    | intro _ | with_reducible assumption | with_reducible apply setPair_keeps | with_reducible apply keeps_ite
    | fail_if_no_progress (with_reducible refine keeps_mk (h := ?_) (h4 := rfl) (h5 := rfl) ..) | with_reducible rfl | split | dsimp only
theorem stepCommit_keeps (t : Nat) (drain : Bool) (s : State) (hmem : Keeps qs s) : Keeps qs (stepCommit t drain s) := by
  unfold stepCommit
  try dsimp only
  repeat' first
    | intro _ | with_reducible assumption | with_reducible apply auditPick_keeps | with_reducible apply epochSwitch_keeps
    | with_reducible apply setStep_keeps | with_reducible apply ckpState_keeps | with_reducible apply slotOpen_keeps
    | with_reducible apply ckpNotify_keeps | with_reducible apply keeps_ite
    | fail_if_no_progress (with_reducible refine keeps_mk (h := ?_) (h4 := rfl) (h5 := rfl) ..) | with_reducible rfl | split | dsimp only
theorem firnDone_keeps (ok : Bool) (dur : Nat) (s : State) (hmem : Keeps qs s) : Keeps qs (firnDone ok dur s) := by
  unfold firnDone
  try dsimp only
  repeat' first
    | intro _ | with_reducible assumption | with_reducible apply slotFill_keeps | with_reducible apply setF_keeps
    | with_reducible apply ckpNotify_keeps | with_reducible apply ckpState_keeps | with_reducible apply drainStart_keeps
    | with_reducible apply recoveryFreeze_keeps | with_reducible apply raise_keeps | with_reducible apply keeps_ite
    | fail_if_no_progress (with_reducible refine keeps_mk (h := ?_) (h4 := rfl) (h5 := rfl) ..) | with_reducible rfl | split | dsimp only
theorem restoreClear_keeps (s : State) (hmem : Keeps qs s) : Keeps qs (restoreClear s) := by
  unfold restoreClear
  try dsimp only
  repeat' first
    | intro _ | with_reducible assumption | with_reducible apply farClear_keeps
    | fail_if_no_progress (with_reducible refine keeps_mk (h := ?_) (h4 := rfl) (h5 := rfl) ..) | with_reducible rfl | dsimp only
theorem restoreEnd_keeps (code : Nat) (s : State) (hmem : Keeps qs s) : Keeps qs (restoreEnd code s) := by
  unfold restoreEnd
  try dsimp only
  repeat' first
    | intro _ | with_reducible assumption | with_reducible apply cmdFinishOf_keeps | with_reducible apply ckpState_keeps
    | with_reducible apply restoreClear_keeps | dsimp only
theorem restoreDone_keeps (cut : Nat) (g2 : DWord) (s : State) (hmem : Keeps qs s) : Keeps qs (restoreDone cut g2 s) := by
  unfold restoreDone
  try dsimp only
  repeat' first
    | intro _ | with_reducible assumption | with_reducible apply restoreClear_keeps | with_reducible apply discardWork_keeps
    | with_reducible apply clearGroups_keeps | with_reducible apply coresIdle_keeps | with_reducible apply colShow_keeps
    | with_reducible apply ctrlPut_keeps | with_reducible apply flush_keeps | with_reducible apply setStep_keeps | with_reducible apply halt_keeps
    | with_reducible apply setPair_keeps | with_reducible apply cmdFinishOf_keeps | with_reducible apply ckpState_keeps
    | with_reducible apply setPkg_keeps | with_reducible apply keeps_ite
    | fail_if_no_progress (with_reducible refine keeps_mk (h := ?_) (h4 := rfl) (h5 := rfl) ..) | with_reducible rfl | split | dsimp only
  all_goals exact (restoreClear_keeps s hmem).1.2.2.2 _ (List.mem_of_find?_eq_some (by assumption))
theorem decideDown_keeps (o : Nat) (drain : Bool) (step count : Nat) (s : State) (hmem : Keeps qs s) : Keeps qs (decideDown o drain step count s) := by
  unfold decideDown
  try dsimp only
  repeat' first
    | intro _ | with_reducible assumption | with_reducible apply voteSend_keeps | with_reducible apply keeps_foldl | dsimp only
theorem failFreeze_keeps (s : State) (hmem : Keeps qs s) : Keeps qs (failFreeze s) := by
  unfold failFreeze
  try dsimp only
  repeat' first
    | intro _ | with_reducible assumption | with_reducible apply recoveryFreeze_keeps | dsimp only
theorem replayBegin_keeps (s : State) (hmem : Keeps qs s) : Keeps qs (replayBegin s) := by
  unfold replayBegin
  try dsimp only
  repeat' first
    | intro _ | with_reducible assumption | with_reducible apply discardWork_keeps | with_reducible apply coresIdle_keeps
    | with_reducible apply ckpState_keeps | fail_if_no_progress (with_reducible refine keeps_mk (h := ?_) (h4 := rfl) (h5 := rfl) ..)
    | with_reducible rfl | dsimp only
theorem restoreStart_keeps (s : State) (hmem : Keeps qs s) : Keeps qs (restoreStart s) := by
  unfold restoreStart
  try dsimp only
  repeat' first
    | intro _ | with_reducible assumption | with_reducible apply readFrom_keeps | with_reducible apply keeps_ite
    | fail_if_no_progress (with_reducible refine keeps_mk (h := ?_) (h4 := rfl) (h5 := rfl) ..) | with_reducible rfl | split | dsimp only
theorem restoreChosen_keeps (cut : Nat) (s : State) (hmem : Keeps qs s) : Keeps qs (restoreChosen cut s) := by
  unfold restoreChosen
  try dsimp only
  repeat' first
    | intro _ | with_reducible assumption | with_reducible apply restoreStart_keeps | with_reducible apply ckpState_keeps
    | fail_if_no_progress (with_reducible refine keeps_mk (h := ?_) (h4 := rfl) (h5 := rfl) ..) | with_reducible rfl | split | dsimp only
theorem decideAct_keeps (p o : Nat) (drain : Bool) (step count : Nat) (s : State) (hmem : Keeps qs s) : Keeps qs (decideAct p o drain step count s) := by
  unfold decideAct
  try dsimp only
  repeat' first
    | intro _ | with_reducible assumption | with_reducible apply stepCommit_keeps | with_reducible apply failFreeze_keeps
    | with_reducible apply replayBegin_keeps | with_reducible apply freezeDecided_keeps | with_reducible apply restoreChosen_keeps
    | with_reducible apply restoreEnd_keeps | with_reducible apply raise_keeps | with_reducible apply restoreDone_keeps
    | with_reducible apply keeps_ite | fail_if_no_progress (with_reducible refine keeps_mk (h := ?_) (h4 := rfl) (h5 := rfl) ..) | with_reducible rfl
    | split | dsimp only
theorem onDecide_keeps (o : Nat) (drain : Bool) (step count : Nat) (s : State) (hmem : Keeps qs s) : Keeps qs (onDecide o drain step count s) := by
  unfold onDecide
  try dsimp only
  repeat' first
    | intro _ | with_reducible assumption | with_reducible apply decideAct_keeps | with_reducible apply voteClear_keeps
    | with_reducible apply decideDown_keeps | dsimp only
theorem decideMsg_keeps (o : Nat) (drain : Bool) (step count : Nat) (s : State) (hmem : Keeps qs s) : Keeps qs (decideMsg o drain step count s) := by
  unfold decideMsg
  try dsimp only
  repeat' first
    | intro _ | with_reducible assumption | with_reducible apply onDecide_keeps | with_reducible apply keeps_ite | split | dsimp only
theorem voteCheck_keeps (s : State) (hmem : Keeps qs s) : Keeps qs (voteCheck s) := by
  unfold voteCheck
  try dsimp only
  repeat' first
    | intro _ | with_reducible assumption | with_reducible apply onDecide_keeps | with_reducible apply voteSend_keeps | with_reducible apply keeps_ite
    | fail_if_no_progress (with_reducible refine keeps_mk (h := ?_) (h4 := rfl) (h5 := rfl) ..) | with_reducible rfl | split | dsimp only
theorem voteCast_keeps (phase : Nat) (v : VoteMsg) (s : State) (hmem : Keeps qs s) : Keeps qs (voteCast phase v s) := by
  unfold voteCast
  try dsimp only
  repeat' first
    | intro _ | with_reducible assumption | with_reducible apply voteCheck_keeps
    | fail_if_no_progress (with_reducible refine keeps_mk (h := ?_) (h4 := rfl) (h5 := rfl) ..) | with_reducible rfl | dsimp only
theorem onVote_keeps (src : Nat) (v : VoteMsg) (s : State) (hmem : Keeps qs s) : Keeps qs (onVote src v s) := by
  unfold onVote
  try dsimp only
  repeat' first
    | intro _ | with_reducible assumption | with_reducible apply voteCheck_keeps
    | fail_if_no_progress (with_reducible refine keeps_mk (h := ?_) (h4 := rfl) (h5 := rfl) ..) | with_reducible rfl | split | dsimp only
theorem boundaryVote_keeps (t : Nat) (bad : Bool) (s : State) (hmem : Keeps qs s) : Keeps qs (boundaryVote t bad s) := by
  unfold boundaryVote
  try dsimp only
  repeat' first
    | intro _ | with_reducible assumption | with_reducible apply setF_keeps | with_reducible apply voteCast_keeps
    | with_reducible apply ckpState_keeps | with_reducible apply keeps_ite
    | fail_if_no_progress (with_reducible refine keeps_mk (h := ?_) (h4 := rfl) (h5 := rfl) ..) | with_reducible rfl | split | dsimp only
theorem boundary_keeps (path : Path) (lo : Word) (s : State) (hmem : Keeps qs s) : Keeps qs (boundary path lo s) := by
  unfold boundary
  try dsimp only
  repeat' first
    | intro _ | with_reducible assumption | with_reducible apply rejectWrite_keeps | with_reducible apply boundaryVote_keeps
    | with_reducible apply keeps_ite | fail_if_no_progress (with_reducible refine keeps_mk (h := ?_) (h4 := rfl) (h5 := rfl) ..) | with_reducible rfl
    | split | dsimp only
theorem ckpPoll_keeps (s : State) (hmem : Keeps qs s) : Keeps qs (ckpPoll s) := by
  unfold ckpPoll
  try dsimp only
  repeat' first
    | intro _ | with_reducible assumption | with_reducible apply boundaryVote_keeps | with_reducible apply keeps_ite
    | fail_if_no_progress (with_reducible refine keeps_mk (h := ?_) (h4 := rfl) (h5 := rfl) ..) | with_reducible rfl | split | dsimp only
theorem boundaryTimeout_keeps (s : State) (hmem : Keeps qs s) : Keeps qs (boundaryTimeout s) := by
  unfold boundaryTimeout
  try dsimp only
  repeat' first
    | intro _ | with_reducible assumption | with_reducible apply boundaryVote_keeps
    | fail_if_no_progress (with_reducible refine keeps_mk (h := ?_) (h4 := rfl) (h5 := rfl) ..) | with_reducible rfl | split | dsimp only
theorem replayRestored_keeps (ok : Bool) (s : State) (hmem : Keeps qs s) : Keeps qs (replayRestored ok s) := by
  unfold replayRestored
  try dsimp only
  repeat' first
    | intro _ | with_reducible assumption | with_reducible apply slotLoad_keeps | with_reducible apply setF_keeps
    | with_reducible apply clearGroups_keeps | with_reducible apply bumpF_keeps | with_reducible apply raise_keeps
    | with_reducible apply voteCast_keeps | with_reducible apply keeps_ite
    | fail_if_no_progress (with_reducible refine keeps_mk (h := ?_) (h4 := rfl) (h5 := rfl) ..) | with_reducible rfl | split | dsimp only
theorem replayRestart_keeps (s : State) (hmem : Keeps qs s) : Keeps qs (replayRestart s) := by
  unfold replayRestart
  try dsimp only
  repeat' first
    | intro _ | with_reducible assumption | with_reducible apply ckpState_keeps | with_reducible apply startPsc_keeps | with_reducible apply keeps_ite
    | fail_if_no_progress (with_reducible refine keeps_mk (h := ?_) (h4 := rfl) (h5 := rfl) ..) | with_reducible rfl | split | dsimp only
theorem freezeCmd_keeps (path : Path) (s : State) (hmem : Keeps qs s) : Keeps qs (freezeCmd path s) := by
  unfold freezeCmd
  try dsimp only
  repeat' first
    | intro _ | with_reducible assumption | with_reducible apply plainCommand_keeps | with_reducible apply ckpState_keeps
    | fail_if_no_progress (with_reducible refine keeps_mk (h := ?_) (h4 := rfl) (h5 := rfl) ..) | with_reducible rfl | dsimp only
theorem phase1Ready_keeps (s : State) (hmem : Keeps qs s) : Keeps qs (phase1Ready s) := by
  unfold phase1Ready
  try dsimp only
  repeat' first
    | intro _ | with_reducible assumption | with_reducible apply frozenCheck_keeps | with_reducible apply halt_keeps
    | with_reducible apply freezeSkip_keeps | with_reducible apply voteCast_keeps | with_reducible apply keeps_ite
    | fail_if_no_progress (with_reducible refine keeps_mk (h := ?_) (h4 := rfl) (h5 := rfl) ..) | with_reducible rfl | split | dsimp only
theorem freezeSaved_keeps (s : State) (hmem : Keeps qs s) : Keeps qs (freezeSaved s) := by
  unfold freezeSaved
  try dsimp only
  repeat' first
    | intro _ | with_reducible assumption | with_reducible apply drainAbandon_keeps | with_reducible apply slotFill_keeps
    | with_reducible apply slotOpen_keeps | with_reducible apply raise_keeps | with_reducible apply setF_keeps | with_reducible apply ckpState_keeps
    | with_reducible apply cmdFinishOf_keeps | with_reducible refine keeps_saved _ _ _ ?_ ?_ | with_reducible refine keeps_ctrlTake (q := qs) _ _ ?_
    | with_reducible apply keeps_ite | fail_if_no_progress (with_reducible refine keeps_mk (h := ?_) (h4 := rfl) (h5 := rfl) ..) | with_reducible rfl
    | split | dsimp only
theorem restoreVote_keeps (s : State) (hmem : Keeps qs s) : Keeps qs (restoreVote s) := by
  unfold restoreVote
  try dsimp only
  repeat' first
    | intro _ | with_reducible assumption | with_reducible apply voteCast_keeps | with_reducible apply keeps_ite
    | fail_if_no_progress (with_reducible refine keeps_mk (h := ?_) (h4 := rfl) (h5 := rfl) ..) | with_reducible rfl | split | dsimp only
theorem restoreCmd_keeps (path : Path) (s : State) (hmem : Keeps qs s) : Keeps qs (restoreCmd path s) := by
  unfold restoreCmd
  try dsimp only
  repeat' first
    | intro _ | with_reducible assumption | with_reducible apply plainCommand_keeps | with_reducible apply ckpState_keeps
    | with_reducible apply farClear_keeps | with_reducible apply readFrom_keeps | with_reducible apply restoreVote_keeps
    | with_reducible apply keeps_ite | fail_if_no_progress (with_reducible refine keeps_mk (h := ?_) (h4 := rfl) (h5 := rfl) ..) | with_reducible rfl
    | split | dsimp only
theorem restoreCopied_keeps (ok : Bool) (s : State) (hmem : Keeps qs s) : Keeps qs (restoreCopied ok s) := by
  unfold restoreCopied
  try dsimp only
  repeat' first
    | intro _ | with_reducible assumption | with_reducible apply voteCast_keeps | with_reducible apply bs_keeps
    | with_reducible apply scatterData_keeps | with_reducible apply slotLoad_keeps | with_reducible apply raise_keeps
    | with_reducible apply setF_keeps | with_reducible apply voteCheck_keeps | with_reducible apply restoreStart_keeps
    | with_reducible apply keeps_ite | fail_if_no_progress (with_reducible refine keeps_mk (h := ?_) (h4 := rfl) (h5 := rfl) ..) | with_reducible rfl
    | split | dsimp only
theorem ckpWake_keeps (s : State) (hmem : Keeps qs s) : Keeps qs (ckpWake s) := by
  unfold ckpWake
  try dsimp only
  repeat' first
    | intro _ | with_reducible assumption | with_reducible apply pumpReads_keeps | with_reducible apply pumpWrites_keeps
    | with_reducible apply restoreVote_keeps | with_reducible apply keeps_ite | split | dsimp only
theorem ckpDead_keeps (isRead : Bool) (s : State) (hmem : Keeps qs s) : Keeps qs (ckpDead isRead s) := by
  unfold ckpDead
  try dsimp only
  repeat' first
    | intro _ | with_reducible assumption | with_reducible apply restoreVote_keeps | with_reducible apply voteCast_keeps
    | with_reducible apply drainAbandon_keeps | with_reducible apply keeps_ite
    | fail_if_no_progress (with_reducible refine keeps_mk (h := ?_) (h4 := rfl) (h5 := rfl) ..) | with_reducible rfl | split | dsimp only
theorem takeoverCmd_keeps (path : Path) (s : State) (hmem : Keeps qs s) : Keeps qs (takeoverCmd path s) := by
  unfold takeoverCmd
  try dsimp only
  repeat' first
    | intro _ | with_reducible assumption | with_reducible apply plainCommand_keeps | with_reducible apply cmdFinish_keeps
    | with_reducible apply partnerCheck_keeps | with_reducible apply setF_keeps
    | fail_if_no_progress (with_reducible refine keeps_mk (h := ?_) (h4 := rfl) (h5 := rfl) ..) | with_reducible rfl | dsimp only
theorem recoverCmd_keeps (path : Path) (s : State) (hmem : Keeps qs s) : Keeps qs (recoverCmd path s) := by
  unfold recoverCmd
  try dsimp only
  repeat' first
    | intro _ | with_reducible assumption | with_reducible apply plainCommand_keeps | with_reducible apply cmdFinish_keeps
    | with_reducible apply setPkg_keeps | with_reducible apply discardWork_keeps | with_reducible apply coresIdle_keeps
    | with_reducible apply copyClear_keeps | with_reducible apply voteClear_keeps | with_reducible apply drainAbandon_keeps
    | fail_if_no_progress (with_reducible refine keeps_mk (h := ?_) (h4 := rfl) (h5 := rfl) ..) | with_reducible rfl | dsimp only

end Sys2Proof.Machine
end

