-- ==== Sys2Proof/Laws/Keep4.lean ====
section
/-! SUPPORT. Each operation of the machine keeps the queue and the canonical form of the byte memories: one lemma per operation
of Logbook, Audit, Space, Power, Porter, Solver, Discard, Gct, Security. -/

set_option linter.all false

namespace Sys2Proof.Machine

variable {qs : List Instr}

theorem mapCursors_keeps (f : Cursor → Cursor) (s : State) (hmem : Keeps qs s) : Keeps qs (mapCursors f s) := by
  unfold mapCursors
  try dsimp only
  repeat' first
    | intro _ | with_reducible assumption | fail_if_no_progress (with_reducible refine keeps_mk (h := ?_) (h4 := rfl) (h5 := rfl) ..)
    | with_reducible rfl | dsimp only
theorem markStale_keeps (q : Word) (s : State) (hmem : Keeps qs s) : Keeps qs (markStale q s) := by
  unfold markStale
  try dsimp only
  repeat' first
    | intro _ | with_reducible assumption | with_reducible apply mapCursors_keeps | with_reducible apply keeps_ite
    | fail_if_no_progress (with_reducible refine keeps_mk (h := ?_) (h4 := rfl) (h5 := rfl) ..) | with_reducible rfl | split | dsimp only
theorem markGone_keeps (q : Word) (s : State) (hmem : Keeps qs s) : Keeps qs (markGone q s) := by
  unfold markGone
  try dsimp only
  repeat' first
    | intro _ | with_reducible assumption | with_reducible apply mapCursors_keeps | with_reducible apply keeps_ite
    | fail_if_no_progress (with_reducible refine keeps_mk (h := ?_) (h4 := rfl) (h5 := rfl) ..) | with_reducible rfl | split | dsimp only
theorem afterStore_keeps (r : Rec) (s : State) (hmem : Keeps qs s) : Keeps qs (afterStore r s) := by
  unfold afterStore
  try dsimp only
  repeat' first
    | intro _ | with_reducible assumption | with_reducible apply cairnAdd_keeps | with_reducible apply writeOff_keeps | with_reducible apply keeps_ite
    | fail_if_no_progress (with_reducible refine keeps_mk (h := ?_) (h4 := rfl) (h5 := rfl) ..) | with_reducible rfl | split | dsimp only
theorem storeNew_keeps (e : Event) (late : Bool) (s : State) (hmem : Keeps qs s) : Keeps qs (storeNew e late s) := by
  unfold storeNew
  try dsimp only
  repeat' first
    | intro _ | with_reducible assumption | with_reducible apply afterStore_keeps | with_reducible apply markGone_keeps
    | with_reducible apply dropEvent_keeps | with_reducible apply keeps_ite
    | fail_if_no_progress (with_reducible refine keeps_mk (h := ?_) (h4 := rfl) (h5 := rfl) ..) | with_reducible rfl | split | dsimp only
theorem storeEvent_keeps (e : Event) (late : Bool) (s : State) (hmem : Keeps qs s) : Keeps qs (storeEvent e late s) := by
  unfold storeEvent
  try dsimp only
  repeat' first
    | intro _ | with_reducible assumption | with_reducible apply afterStore_keeps | with_reducible apply markStale_keeps
    | with_reducible apply storeNew_keeps | with_reducible apply keeps_ite
    | fail_if_no_progress (with_reducible refine keeps_mk (h := ?_) (h4 := rfl) (h5 := rfl) ..) | with_reducible rfl | split | dsimp only
theorem eventAccept_keeps (src : Nat) (s : State) (hmem : Keeps qs s) : Keeps qs (eventAccept src s) := by
  unfold eventAccept
  try dsimp only
  repeat' first
    | intro _ | with_reducible assumption | with_reducible apply storeEvent_keeps | with_reducible apply keeps_ite
    | fail_if_no_progress (with_reducible refine keeps_mk (h := ?_) (h4 := rfl) (h5 := rfl) ..) | with_reducible rfl | split | dsimp only
theorem eventStore_keeps (s : State) (hmem : Keeps qs s) : Keeps qs (eventStore s) := by
  unfold eventStore
  try dsimp only
  repeat' first
    | intro _ | with_reducible assumption | with_reducible apply storeEvent_keeps
    | fail_if_no_progress (with_reducible refine keeps_mk (h := ?_) (h4 := rfl) (h5 := rfl) ..) | with_reducible rfl | split | dsimp only
theorem setCur_keeps (k : Nat) (c : Cursor) (s : State) (hmem : Keeps qs s) : Keeps qs (setCur k c s) := by
  unfold setCur
  try dsimp only
  repeat' first
    | intro _ | with_reducible assumption | with_reducible apply keeps_ite
    | fail_if_no_progress (with_reducible refine keeps_mk (h := ?_) (h4 := rfl) (h5 := rfl) ..) | with_reducible rfl | split | dsimp only
theorem latch_keeps (k : Nat) (v : Word) (s : State) (hmem : Keeps qs s) : Keeps qs (latch k v s) := by
  unfold latch
  try dsimp only
  repeat' first
    | intro _ | with_reducible assumption | with_reducible apply setCur_keeps
    | fail_if_no_progress (with_reducible refine keeps_mk (h := ?_) (h4 := rfl) (h5 := rfl) ..) | with_reducible rfl | split | dsimp only
theorem curSeq_keeps (k : Nat) (v : Word) (s : State) (hmem : Keeps qs s) : Keeps qs (curSeq k v s) := by
  unfold curSeq
  try dsimp only
  repeat' first
    | intro _ | with_reducible assumption | with_reducible apply latch_keeps | dsimp only
theorem curNext_keeps (k : Nat) (s : State) (hmem : Keeps qs s) : Keeps qs (curNext k s) := by
  unfold curNext
  try dsimp only
  repeat' first
    | intro _ | with_reducible assumption | with_reducible apply latch_keeps | dsimp only
theorem evrClear_keeps (path : Path) (data : Nat) (s : State) (hmem : Keeps qs s) : Keeps qs (evrClear path data s) := by
  unfold evrClear
  try dsimp only
  repeat' first
    | intro _ | with_reducible assumption | with_reducible apply mapCursors_keeps | with_reducible apply rejectWrite_keeps
    | with_reducible apply keeps_ite | fail_if_no_progress (with_reducible refine keeps_mk (h := ?_) (h4 := rfl) (h5 := rfl) ..) | with_reducible rfl
    | split | dsimp only
theorem auditGo_keeps (n : Nat) (s : State) (hmem : Keeps qs s) : Keeps qs (auditGo n s) := by
  unfold auditGo
  try dsimp only
  repeat' first
    | intro _ | with_reducible assumption | with_reducible apply readFrom_keeps | with_reducible apply farClear_keeps | with_reducible apply keeps_ite
    | fail_if_no_progress (with_reducible refine keeps_mk (h := ?_) (h4 := rfl) (h5 := rfl) ..) | with_reducible rfl | split | dsimp only
theorem suspect_keeps (auditee : Bool) (other : Nat) (s : State) (hmem : Keeps qs s) : Keeps qs (suspect auditee other s) := by
  unfold suspect
  try dsimp only
  repeat' first
    | intro _ | with_reducible assumption | with_reducible apply setF_keeps | with_reducible apply bumpF_keeps | with_reducible apply cairnAdd_keeps
    | with_reducible apply raise_keeps | with_reducible apply keeps_ite
    | fail_if_no_progress (with_reducible refine keeps_mk (h := ?_) (h4 := rfl) (h5 := rfl) ..) | with_reducible rfl | split | dsimp only
theorem auditRecord_keeps (owner layer piece : Nat) (s : State) (hmem : Keeps qs s) : Keeps qs (auditRecord owner layer piece s) := by
  unfold auditRecord
  try dsimp only
  repeat' first
    | intro _ | with_reducible assumption | with_reducible apply raise_keeps | dsimp only
theorem auditDone_keeps (s : State) (hmem : Keeps qs s) : Keeps qs (auditDone s) := by
  unfold auditDone
  try dsimp only
  repeat' first
    | intro _ | with_reducible assumption | with_reducible apply farClear_keeps | with_reducible apply setF_keeps | with_reducible apply suspect_keeps
    | with_reducible apply emit_keeps | with_reducible apply auditRecord_keeps | with_reducible apply keeps_ite | with_reducible apply keeps_foldl
    | fail_if_no_progress (with_reducible refine keeps_mk (h := ?_) (h4 := rfl) (h5 := rfl) ..) | with_reducible rfl | split | dsimp only
theorem auditReport_keeps (auditor layer piece : Nat) (s : State) (hmem : Keeps qs s) : Keeps qs (auditReport auditor layer piece s) := by
  unfold auditReport
  try dsimp only
  repeat' first
    | intro _ | with_reducible assumption | with_reducible apply suspect_keeps | with_reducible apply auditRecord_keeps | dsimp only
theorem suspicionClear_keeps (path : Path) (s : State) (hmem : Keeps qs s) : Keeps qs (suspicionClear path s) := by
  unfold suspicionClear
  try dsimp only
  repeat' first
    | intro _ | with_reducible assumption | with_reducible apply cairnAdd_keeps | with_reducible apply setF_keeps
    | with_reducible apply rejectWrite_keeps | with_reducible apply keeps_ite | split | dsimp only
theorem ownSlot_keeps (s : State) (hmem : Keeps qs s) : Keeps qs (ownSlot s) := by
  unfold ownSlot
  try dsimp only
  repeat' first
    | intro _ | with_reducible assumption | with_reducible apply csrSet_keeps | with_reducible apply keeps_foldl | dsimp only
theorem resetRegs_keeps (sel : Nat → Bool) (s : State) (hmem : Keeps qs s) : Keeps qs (resetRegs sel s) := by
  unfold resetRegs
  try dsimp only
  repeat' first
    | intro _ | with_reducible assumption | with_reducible apply keeps_ite
    | fail_if_no_progress (with_reducible refine keeps_mk (h := ?_) (h4 := rfl) (h5 := rfl) ..) | with_reducible rfl | split | dsimp only
theorem accrue_keeps (r : Nat) (s : State) (hmem : Keeps qs s) : Keeps qs (accrue r s) := by
  unfold accrue
  try dsimp only
  repeat' first
    | intro _ | with_reducible assumption | fail_if_no_progress (with_reducible refine keeps_mk (h := ?_) (h4 := rfl) (h5 := rfl) ..)
    | with_reducible rfl | split | dsimp only
theorem retuneOne_keeps (r : Nat) (s : State) (hmem : Keeps qs s) : Keeps qs (retuneOne r s) := by
  unfold retuneOne
  try dsimp only
  repeat' first
    | intro _ | with_reducible assumption | with_reducible apply accrue_keeps | with_reducible apply setF_keeps | with_reducible apply raise_keeps
    | with_reducible apply keeps_ite | fail_if_no_progress (with_reducible refine keeps_mk (h := ?_) (h4 := rfl) (h5 := rfl) ..) | with_reducible rfl
    | split | dsimp only
theorem retune_keeps (s : State) (hmem : Keeps qs s) : Keeps qs (retune s) := by
  unfold retune
  try dsimp only
  repeat' first
    | intro _ | with_reducible assumption | with_reducible apply retuneOne_keeps | with_reducible apply keeps_foldl | dsimp only
theorem setDemand_keeps (r n : Nat) (s : State) (hmem : Keeps qs s) : Keeps qs (setDemand r n s) := by
  unfold setDemand
  try dsimp only
  repeat' first
    | intro _ | with_reducible assumption | with_reducible apply retune_keeps
    | fail_if_no_progress (with_reducible refine keeps_mk (h := ?_) (h4 := rfl) (h5 := rfl) ..) | with_reducible rfl | dsimp only
theorem setQuiet_keeps (r n : Nat) (s : State) (hmem : Keeps qs s) : Keeps qs (setQuiet r n s) := by
  unfold setQuiet
  try dsimp only
  repeat' first
    | intro _ | with_reducible assumption | fail_if_no_progress (with_reducible refine keeps_mk (h := ?_) (h4 := rfl) (h5 := rfl) ..)
    | with_reducible rfl | dsimp only
theorem raiseDemand_keeps (r n : Nat) (s : State) (hmem : Keeps qs s) : Keeps qs (raiseDemand r n s) := by
  unfold raiseDemand
  try dsimp only
  repeat' first
    | intro _ | with_reducible assumption | with_reducible apply setDemand_keeps | with_reducible apply setQuiet_keeps | dsimp only
theorem quietTick_keeps (r : Nat) (q : Bool) (s : State) (hmem : Keeps qs s) : Keeps qs (quietTick r q s) := by
  unfold quietTick
  try dsimp only
  repeat' first
    | intro _ | with_reducible assumption | with_reducible apply setQuiet_keeps | with_reducible apply keeps_ite | split | dsimp only
theorem opChange_keeps (s : State) (hmem : Keeps qs s) : Keeps qs (opChange s) := by
  unfold opChange
  try dsimp only
  repeat' first
    | intro _ | with_reducible assumption | with_reducible apply setF_keeps | with_reducible apply bumpF_keeps | with_reducible apply retune_keeps
    | with_reducible apply keeps_ite | fail_if_no_progress (with_reducible refine keeps_mk (h := ?_) (h4 := rfl) (h5 := rfl) ..) | with_reducible rfl
    | split | dsimp only
theorem opFreqSwitch_keeps (s : State) (hmem : Keeps qs s) : Keeps qs (opFreqSwitch s) := by
  unfold opFreqSwitch
  try dsimp only
  repeat' first
    | intro _ | with_reducible assumption | with_reducible apply setF_keeps | with_reducible apply keeps_ite
    | fail_if_no_progress (with_reducible refine keeps_mk (h := ?_) (h4 := rfl) (h5 := rfl) ..) | with_reducible rfl | split | dsimp only
theorem opSettled_keeps (s : State) (hmem : Keeps qs s) : Keeps qs (opSettled s) := by
  unfold opSettled
  try dsimp only
  repeat' first
    | intro _ | with_reducible assumption | with_reducible apply setF_keeps | with_reducible apply keeps_ite | split | dsimp only
theorem opSlowest_keeps (s : State) (hmem : Keeps qs s) : Keeps qs (opSlowest s) := by
  unfold opSlowest
  try dsimp only
  repeat' first
    | intro _ | with_reducible assumption | with_reducible apply retune_keeps | with_reducible apply setF_keeps
    | fail_if_no_progress (with_reducible refine keeps_mk (h := ?_) (h4 := rfl) (h5 := rfl) ..) | with_reducible rfl | dsimp only
theorem loadTable_keeps (s : State) (hmem : Keeps qs s) : Keeps qs (loadTable s) := by
  unfold loadTable
  try dsimp only
  repeat' first
    | intro _ | with_reducible assumption | with_reducible apply setF_keeps | with_reducible apply retune_keeps | with_reducible apply raise_keeps
    | with_reducible apply keeps_ite | split | dsimp only
theorem loadGuard_keeps (s : State) (hmem : Keeps qs s) : Keeps qs (loadGuard s) := by
  unfold loadGuard
  try dsimp only
  repeat' first
    | intro _ | with_reducible assumption | with_reducible apply setF_keeps | with_reducible apply keeps_foldl | dsimp only
theorem capLoop_keeps (avg : Nat) (s : State) (hmem : Keeps qs s) : Keeps qs (capLoop avg s) := by
  unfold capLoop
  try dsimp only
  repeat' first
    | intro _ | with_reducible assumption | with_reducible apply raiseDemand_keeps | with_reducible apply quietTick_keeps
    | with_reducible apply keeps_ite | fail_if_no_progress (with_reducible refine keeps_mk (h := ?_) (h4 := rfl) (h5 := rfl) ..) | with_reducible rfl
    | split | dsimp only
theorem currentLoop_keeps (avg : Nat) (s : State) (hmem : Keeps qs s) : Keeps qs (currentLoop avg s) := by
  unfold currentLoop
  try dsimp only
  repeat' first
    | intro _ | with_reducible assumption | with_reducible apply quietTick_keeps
    | fail_if_no_progress (with_reducible refine keeps_mk (h := ?_) (h4 := rfl) (h5 := rfl) ..) | with_reducible rfl | dsimp only
theorem droopLoop_keeps (stretch : List Nat) (s : State) (hmem : Keeps qs s) : Keeps qs (droopLoop stretch s) := by
  unfold droopLoop
  try dsimp only
  repeat' first
    | intro _ | with_reducible assumption | with_reducible apply raiseDemand_keeps | with_reducible apply quietTick_keeps
    | with_reducible apply keeps_ite | with_reducible apply keeps_foldl
    | fail_if_no_progress (with_reducible refine keeps_mk (h := ?_) (h4 := rfl) (h5 := rfl) ..) | with_reducible rfl | split | dsimp only
theorem thermalLoop_keeps (s : State) (hmem : Keeps qs s) : Keeps qs (thermalLoop s) := by
  unfold thermalLoop
  try dsimp only
  repeat' first
    | intro _ | with_reducible assumption | with_reducible apply raise_keeps | with_reducible apply raiseDemand_keeps
    | with_reducible apply quietTick_keeps | with_reducible apply keeps_ite | split | dsimp only
theorem capTick_keeps (avg avg10 : Nat) (stretch : List Nat) (s : State) (hmem : Keeps qs s) : Keeps qs (capTick avg avg10 stretch s) := by
  unfold capTick
  try dsimp only
  repeat' first
    | intro _ | with_reducible assumption | with_reducible apply setF_keeps | with_reducible apply thermalLoop_keeps
    | with_reducible apply droopLoop_keeps | with_reducible apply currentLoop_keeps | with_reducible apply capLoop_keeps
    | with_reducible apply keeps_ite | split | dsimp only
theorem demandRecovery_keeps (r : Nat) (s : State) (hmem : Keeps qs s) : Keeps qs (demandRecovery r s) := by
  unfold demandRecovery
  try dsimp only
  repeat' first
    | intro _ | with_reducible assumption | with_reducible apply setDemand_keeps | with_reducible apply setQuiet_keeps
    | with_reducible apply keeps_ite | split | dsimp only
theorem capUnmet_keeps (s : State) (hmem : Keeps qs s) : Keeps qs (capUnmet s) := by
  unfold capUnmet
  try dsimp only
  repeat' first
    | intro _ | with_reducible assumption | with_reducible apply raise_keeps | with_reducible apply setF_keeps | with_reducible apply keeps_ite
    | fail_if_no_progress (with_reducible refine keeps_mk (h := ?_) (h4 := rfl) (h5 := rfl) ..) | with_reducible rfl | split | dsimp only
theorem currentSample_keeps (p : PowerSample) (s : State) (hmem : Keeps qs s) : Keeps qs (currentSample p s) := by
  unfold currentSample
  try dsimp only
  repeat' first
    | intro _ | with_reducible assumption | with_reducible apply setF_keeps | with_reducible apply addPair_keeps
    | with_reducible apply raiseDemand_keeps | with_reducible apply keeps_ite
    | fail_if_no_progress (with_reducible refine keeps_mk (h := ?_) (h4 := rfl) (h5 := rfl) ..) | with_reducible rfl | split | dsimp only
theorem currentOver_keeps (s : State) (hmem : Keeps qs s) : Keeps qs (currentOver s) := by
  unfold currentOver
  try dsimp only
  repeat' first
    | intro _ | with_reducible assumption | with_reducible apply raiseDemand_keeps | with_reducible apply keeps_ite
    | fail_if_no_progress (with_reducible refine keeps_mk (h := ?_) (h4 := rfl) (h5 := rfl) ..) | with_reducible rfl | split | dsimp only
theorem showSlow_keeps (s : State) (hmem : Keeps qs s) : Keeps qs (showSlow s) := by
  unfold showSlow
  try dsimp only
  repeat' first
    | intro _ | with_reducible assumption | with_reducible apply retune_keeps | with_reducible apply setF_keeps | dsimp only
theorem droopTrip_keeps (d : Nat) (s : State) (hmem : Keeps qs s) : Keeps qs (droopTrip d s) := by
  unfold droopTrip
  try dsimp only
  repeat' first
    | intro _ | with_reducible assumption | with_reducible apply tally_keeps | with_reducible apply showSlow_keeps | with_reducible apply keeps_ite
    | fail_if_no_progress (with_reducible refine keeps_mk (h := ?_) (h4 := rfl) (h5 := rfl) ..) | with_reducible rfl | split | dsimp only
theorem droopEnd_keeps (d : Nat) (s : State) (hmem : Keeps qs s) : Keeps qs (droopEnd d s) := by
  unfold droopEnd
  try dsimp only
  repeat' first
    | intro _ | with_reducible assumption | with_reducible apply showSlow_keeps
    | fail_if_no_progress (with_reducible refine keeps_mk (h := ?_) (h4 := rfl) (h5 := rfl) ..) | with_reducible rfl | dsimp only
theorem boostStart_keeps (s : State) (hmem : Keeps qs s) : Keeps qs (boostStart s) := by
  unfold boostStart
  try dsimp only
  repeat' first
    | intro _ | with_reducible assumption | with_reducible apply keeps_ite
    | fail_if_no_progress (with_reducible refine keeps_mk (h := ?_) (h4 := rfl) (h5 := rfl) ..) | with_reducible rfl | split | dsimp only
theorem boostEnd_keeps (s : State) (hmem : Keeps qs s) : Keeps qs (boostEnd s) := by
  unfold boostEnd
  try dsimp only
  repeat' first
    | intro _ | with_reducible assumption | fail_if_no_progress (with_reducible refine keeps_mk (h := ?_) (h4 := rfl) (h5 := rfl) ..)
    | with_reducible rfl | dsimp only
theorem takeReading_keeps (s : State) (r : SensorReading) (hmem : Keeps qs s) : Keeps qs (takeReading s r) := by
  unfold takeReading
  try dsimp only
  repeat' first
    | intro _ | with_reducible assumption | with_reducible apply raise_keeps | with_reducible apply keeps_ite
    | fail_if_no_progress (with_reducible refine keeps_mk (h := ?_) (h4 := rfl) (h5 := rfl) ..) | with_reducible rfl | split | dsimp only
theorem dieTemp_keeps (s : State) (d : Nat) (hmem : Keeps qs s) : Keeps qs (dieTemp s d) := by
  unfold dieTemp
  try dsimp only
  repeat' first
    | intro _ | with_reducible assumption | with_reducible apply setDemand_keeps | with_reducible apply keeps_ite
    | fail_if_no_progress (with_reducible refine keeps_mk (h := ?_) (h4 := rfl) (h5 := rfl) ..) | with_reducible rfl | split | dsimp only
theorem critical_keeps (s : State) (hmem : Keeps qs s) : Keeps qs (critical s) := by
  unfold critical
  try dsimp only
  repeat' first
    | intro _ | with_reducible assumption | with_reducible apply raise_keeps | with_reducible apply setDemand_keeps
    | with_reducible apply setQuiet_keeps | with_reducible apply keeps_ite
    | fail_if_no_progress (with_reducible refine keeps_mk (h := ?_) (h4 := rfl) (h5 := rfl) ..) | with_reducible rfl | split | dsimp only
theorem coolant_keeps (tin tout : Int) (s : State) (hmem : Keeps qs s) : Keeps qs (coolant tin tout s) := by
  unfold coolant
  try dsimp only
  repeat' first
    | intro _ | with_reducible assumption | with_reducible apply raise_keeps | with_reducible apply setF_keeps | with_reducible apply keeps_ite
    | fail_if_no_progress (with_reducible refine keeps_mk (h := ?_) (h4 := rfl) (h5 := rfl) ..) | with_reducible rfl | split | dsimp only
theorem stackTemps_keeps (ts : List Nat) (s : State) (hmem : Keeps qs s) : Keeps qs (stackTemps ts s) := by
  unfold stackTemps
  try dsimp only
  repeat' first
    | intro _ | with_reducible assumption | with_reducible apply setF_keeps | with_reducible apply keeps_ite | with_reducible apply keeps_foldl
    | fail_if_no_progress (with_reducible refine keeps_mk (h := ?_) (h4 := rfl) (h5 := rfl) ..) | with_reducible rfl | split | dsimp only
theorem sensorSample_keeps (rs : List SensorReading) (temps : List Nat) (tin tout : Int) (s : State) (hmem : Keeps qs s) : Keeps qs (sensorSample rs temps tin tout s) := by
  unfold sensorSample
  try dsimp only
  repeat' first
    | intro _ | with_reducible assumption | with_reducible apply takeReading_keeps | with_reducible apply dieTemp_keeps
    | with_reducible apply critical_keeps | with_reducible apply coolant_keeps | with_reducible apply stackTemps_keeps
    | with_reducible apply keeps_ite | with_reducible apply keeps_foldl
    | fail_if_no_progress (with_reducible refine keeps_mk (h := ?_) (h4 := rfl) (h5 := rfl) ..) | with_reducible rfl | split | dsimp only
theorem sensorsFresh_keeps (sel : Nat → Bool) (s : State) (hmem : Keeps qs s) : Keeps qs (sensorsFresh sel s) := by
  unfold sensorsFresh
  try dsimp only
  repeat' first
    | intro _ | with_reducible assumption | fail_if_no_progress (with_reducible refine keeps_mk (h := ?_) (h4 := rfl) (h5 := rfl) ..)
    | with_reducible rfl | dsimp only
theorem islandsOff_keeps (s : State) (h : Keeps qs s) : Keeps qs (islandsOff s) := by
  have h1 : Keeps qs { s with
      cores := [], starts := [], engines := [], tileSram := [], vregs := [], masks := [], dsps := [], slvs := [],
      depot := [], depotCtl := [], ramps := [], rails := false, col := { s.col with runs := [], mail := [], lost := [] } } :=
    ⟨⟨h.1.1, rfl, h.1.2.2.1, h.1.2.2.2⟩, h.2⟩
  have h2 := colShow_keeps _ h1
  unfold islandsOff
  generalize colShow _ = s1 at h2 ⊢
  exact showSlow_keeps _ (setF_keeps _ _ _ _ (keeps_same s1 _ h2 rfl rfl rfl rfl rfl rfl))
theorem stacksOff_keeps (s : State) (h : Keeps qs s) : Keeps qs (stacksOff s) := ⟨⟨rfl, h.1.2.1, h.1.2.2.1, h.1.2.2.2⟩, h.2⟩
theorem railFault_keeps (cause : Nat) (s : State) (hmem : Keeps qs s) : Keeps qs (railFault cause s) := by
  unfold railFault
  try dsimp only
  repeat' first
    | intro _ | with_reducible assumption | with_reducible apply setFaulted_keeps | with_reducible apply stacksOff_keeps
    | with_reducible apply islandsOff_keeps | with_reducible apply drainAbandon_keeps | with_reducible apply copyClear_keeps
    | with_reducible apply voteClear_keeps | with_reducible apply colAbortAll_keeps | dsimp only
theorem thermalTrip_keeps (die tempC : Nat) (s : State) (hmem : Keeps qs s) : Keeps qs (thermalTrip die tempC s) := by
  unfold thermalTrip
  try dsimp only
  repeat' first
    | intro _ | with_reducible assumption | with_reducible apply railFault_keeps | with_reducible apply raise_keeps | with_reducible apply keeps_ite
    | split | dsimp only
theorem stageWarn_keeps (s : State) (hmem : Keeps qs s) : Keeps qs (stageWarn s) := by
  unfold stageWarn
  try dsimp only
  repeat' first
    | intro _ | with_reducible assumption | with_reducible apply raise_keeps | with_reducible apply setDemand_keeps | with_reducible apply keeps_ite
    | fail_if_no_progress (with_reducible refine keeps_mk (h := ?_) (h4 := rfl) (h5 := rfl) ..) | with_reducible rfl | split | dsimp only
theorem faultClear_keeps (s : State) (hmem : Keeps qs s) : Keeps qs (faultClear s) := by
  unfold faultClear
  try dsimp only
  repeat' first
    | intro _ | with_reducible assumption | with_reducible apply setDemand_keeps | with_reducible apply keeps_ite
    | fail_if_no_progress (with_reducible refine keeps_mk (h := ?_) (h4 := rfl) (h5 := rfl) ..) | with_reducible rfl | split | dsimp only
theorem stageFail_keeps (s : State) (hmem : Keeps qs s) : Keeps qs (stageFail s) := by
  unfold stageFail
  try dsimp only
  repeat' first
    | intro _ | with_reducible assumption | with_reducible apply railFault_keeps | with_reducible apply raise_keeps | with_reducible apply keeps_ite
    | split | dsimp only
theorem handover_keeps (s : State) (hmem : Keeps qs s) : Keeps qs (handover s) := by
  unfold handover
  try dsimp only
  repeat' first
    | intro _ | with_reducible assumption | with_reducible apply accrue_keeps | with_reducible apply keeps_foldl
    | fail_if_no_progress (with_reducible refine keeps_mk (h := ?_) (h4 := rfl) (h5 := rfl) ..) | with_reducible rfl | dsimp only
theorem sleepCmd_keeps (path : Path) (s : State) (hmem : Keeps qs s) : Keeps qs (sleepCmd path s) := by
  unfold sleepCmd
  try dsimp only
  repeat' first
    | intro _ | with_reducible assumption | with_reducible apply plainCommand_keeps | with_reducible apply islandsOff_keeps
    | with_reducible apply flush_keeps | dsimp only
theorem sleepDone_keeps (s : State) (hmem : Keeps qs s) : Keeps qs (sleepDone s) := by
  unfold sleepDone
  try dsimp only
  repeat' first
    | intro _ | with_reducible assumption | with_reducible apply handover_keeps | with_reducible apply cmdFinish_keeps
    | with_reducible apply setPkg_keeps | with_reducible apply bumpF_keeps | with_reducible apply keeps_ite | split | dsimp only
theorem islandsOn_keeps (s : State) (hmem : Keeps qs s) : Keeps qs (islandsOn s) := by
  unfold islandsOn
  try dsimp only
  repeat' first
    | intro _ | with_reducible assumption | with_reducible apply resetRegs_keeps | with_reducible apply setF_keeps
    | with_reducible apply sensorsFresh_keeps | fail_if_no_progress (with_reducible refine keeps_mk (h := ?_) (h4 := rfl) (h5 := rfl) ..)
    | with_reducible rfl | dsimp only
theorem wakeCmd_keeps (path : Path) (s : State) (hmem : Keeps qs s) : Keeps qs (wakeCmd path s) := by
  unfold wakeCmd
  try dsimp only
  repeat' first
    | intro _ | with_reducible assumption | with_reducible apply plainCommand_keeps | with_reducible apply islandsOn_keeps
    | fail_if_no_progress (with_reducible refine keeps_mk (h := ?_) (h4 := rfl) (h5 := rfl) ..) | with_reducible rfl | dsimp only
theorem wakeDone_keeps (s : State) (hmem : Keeps qs s) : Keeps qs (wakeDone s) := by
  unfold wakeDone
  try dsimp only
  repeat' first
    | intro _ | with_reducible assumption | with_reducible apply cmdFinish_keeps | with_reducible apply setPkg_keeps
    | with_reducible apply opSlowest_keeps | with_reducible apply setF_keeps | with_reducible apply keeps_ite
    | fail_if_no_progress (with_reducible refine keeps_mk (h := ?_) (h4 := rfl) (h5 := rfl) ..) | with_reducible rfl | split | dsimp only
theorem prefWrite_keeps (v : Nat) (s : State) (hmem : Keeps qs s) : Keeps qs (prefWrite v s) := by
  unfold prefWrite
  try dsimp only
  repeat' first
    | intro _ | with_reducible assumption | with_reducible apply retune_keeps | with_reducible apply setF_keeps | dsimp only
theorem hostOpWrite_keeps (v : Nat) (s : State) (hmem : Keeps qs s) : Keeps qs (hostOpWrite v s) := by
  unfold hostOpWrite
  try dsimp only
  repeat' first
    | intro _ | with_reducible assumption | with_reducible apply retune_keeps | with_reducible apply setF_keeps | dsimp only
theorem capWrite_keeps (v : Nat) (s : State) (hmem : Keeps qs s) : Keeps qs (capWrite v s) := by
  unfold capWrite
  try dsimp only
  repeat' first
    | intro _ | with_reducible assumption | with_reducible apply setF_keeps | dsimp only
theorem porAccept_keeps (cl : Nat) (ue : Bool) (ce : Nat) (s : State) (hmem : Keeps qs s) : Keeps qs (porAccept cl ue ce s) := by
  unfold porAccept
  try dsimp only
  repeat' first
    | intro _ | with_reducible assumption | with_reducible apply withBlock_keeps | with_reducible apply acceptCe_keeps
    | with_reducible apply accept_keeps | dsimp only
theorem porNote_keeps (k key row : Nat) (s : State) (hmem : Keeps qs s) : Keeps qs (porNote k key row s) := by
  unfold porNote
  try dsimp only
  repeat' first
    | intro _ | with_reducible assumption | with_reducible apply setEng_keeps
    | fail_if_no_progress (with_reducible refine keeps_mk (h := ?_) (h4 := rfl) (h5 := rfl) ..) | with_reducible rfl | dsimp only
theorem porWriteRow_keeps (k : Nat) (x : PorD) (bad : List Nat) (s0 s : State) (r : PorRow) (hmem : Keeps qs s) : Keeps qs (porWriteRow k x bad s0 s r) := by
  unfold porWriteRow
  try dsimp only
  repeat' first
    | intro _ | with_reducible assumption | with_reducible apply porNote_keeps | with_reducible apply engWriteBad_keeps
    | with_reducible apply keeps_ite | with_reducible apply keeps_foldl
    | fail_if_no_progress (with_reducible refine keeps_mk (h := ?_) (h4 := rfl) (h5 := rfl) ..) | with_reducible rfl | split | dsimp only
theorem porRun_keeps (op cl : Nat) (ecc : Ecc) (s : State) (hmem : Keeps qs s) : Keeps qs (porRun op cl ecc s) := by
  unfold porRun
  try dsimp only
  repeat' first
    | intro _ | with_reducible assumption | with_reducible apply withSourcesLat_keeps | with_reducible apply porWriteRow_keeps
    | with_reducible apply engWrite_keeps | with_reducible apply engUe_keeps | with_reducible apply setPair_keeps | with_reducible apply raise_keeps
    | with_reducible apply setF_keeps | with_reducible apply bumpF_keeps | with_reducible apply addPair_keeps | with_reducible apply setHead_keeps
    | with_reducible apply engFlush_keeps | with_reducible apply keeps_ite | with_reducible apply keeps_foldl
    | fail_if_no_progress (with_reducible refine keeps_mk (h := ?_) (h4 := rfl) (h5 := rfl) ..) | with_reducible rfl | split | dsimp only
theorem porDigest_keeps (k : Nat) (e : EngIns) (s : State) (hmem : Keeps qs s) : Keeps qs (porDigest k e s) := by
  unfold porDigest
  try dsimp only
  repeat' first
    | intro _ | with_reducible assumption | with_reducible apply setHead_keeps | with_reducible apply engFlush_keeps
    | with_reducible apply engWrite_keeps | with_reducible apply keeps_ite
    | fail_if_no_progress (with_reducible refine keeps_mk (h := ?_) (h4 := rfl) (h5 := rfl) ..) | with_reducible rfl | split | dsimp only
theorem porComplete_keeps (cl : Nat) (s : State) (hmem : Keeps qs s) : Keeps qs (porComplete cl s) := by
  unfold porComplete
  try dsimp only
  repeat' first
    | intro _ | with_reducible assumption | with_reducible apply porDigest_keeps | with_reducible apply setF_keeps | with_reducible apply bumpF_keeps
    | with_reducible apply engComplete_keeps | with_reducible apply keeps_ite | with_reducible apply keeps_foldl
    | fail_if_no_progress (with_reducible refine keeps_mk (h := ?_) (h4 := rfl) (h5 := rfl) ..) | with_reducible rfl | split | dsimp only
theorem porRestore_keeps (path : Path) (cl : Nat) (v : Word) (s : State) (hmem : Keeps qs s) : Keeps qs (porRestore path cl v s) := by
  unfold porRestore
  try dsimp only
  repeat' first
    | intro _ | with_reducible assumption | with_reducible apply restoreStatus_keeps | dsimp only
theorem slvAccept_keeps (e : Nat) (ue : Bool) (ce : Nat) (s : State) (hmem : Keeps qs s) : Keeps qs (slvAccept e ue ce s) := by
  unfold slvAccept
  try dsimp only
  repeat' first
    | intro _ | with_reducible assumption | with_reducible apply withBlock_keeps | with_reducible apply acceptCe_keeps
    | with_reducible apply accept_keeps | dsimp only
theorem slvRun_keeps (op e : Nat) (ecc : Ecc) (s : State) (hmem : Keeps qs s) : Keeps qs (slvRun op e ecc s) := by
  unfold slvRun
  try dsimp only
  repeat' first
    | intro _ | with_reducible assumption | with_reducible apply withSources_keeps | with_reducible apply setHead_keeps
    | with_reducible apply bumpF_keeps | with_reducible apply keeps_ite
    | fail_if_no_progress (with_reducible refine keeps_mk (h := ?_) (h4 := rfl) (h5 := rfl) ..) | with_reducible rfl | split | dsimp only
theorem writeDWords_keeps (k : Nat) : ∀ (l : List DWord) (a : Nat) (s : State), Keeps qs s → Keeps qs (writeDWords k l a s)
  | [], _, s, h => h
  | v :: vs, a, s, h => by unfold writeDWords; exact writeDWords_keeps k vs _ _ (engWrite_keeps _ _ _ _ _ h)
theorem slvEnd_keeps (e : Nat) (s : State) (hmem : Keeps qs s) : Keeps qs (slvEnd e s) := by
  unfold slvEnd
  try dsimp only
  repeat' first
    | intro _ | with_reducible assumption | with_reducible apply writeDWords_keeps | with_reducible apply engWrite_keeps
    | with_reducible apply capture_keeps | with_reducible apply setF_keeps | with_reducible apply bumpF_keeps | with_reducible apply raise_keeps
    | with_reducible apply setPair_keeps | with_reducible apply addPair_keeps | with_reducible apply setHead_keeps | with_reducible apply keeps_ite
    | fail_if_no_progress (with_reducible refine keeps_mk (h := ?_) (h4 := rfl) (h5 := rfl) ..) | with_reducible rfl | split | dsimp only
theorem slvComplete_keeps (e : Nat) (s : State) (hmem : Keeps qs s) : Keeps qs (slvComplete e s) := by
  unfold slvComplete
  try dsimp only
  repeat' first
    | intro _ | with_reducible assumption | with_reducible apply engComplete_keeps | with_reducible apply recallLine_keeps
    | with_reducible apply atomicAt_keeps | with_reducible apply keeps_ite
    | fail_if_no_progress (with_reducible refine keeps_mk (h := ?_) (h4 := rfl) (h5 := rfl) ..) | with_reducible rfl | split | dsimp only
theorem slvRestore_keeps (path : Path) (e : Nat) (v : Word) (s : State) (hmem : Keeps qs s) : Keeps qs (slvRestore path e v s) := by
  unfold slvRestore
  try dsimp only
  repeat' first
    | intro _ | with_reducible assumption | with_reducible apply restoreStatus_keeps | dsimp only
theorem spoil_keeps (l : List (Nat × Nat)) (s : State) (hmem : Keeps qs s) : Keeps qs (spoil l s) := by
  unfold spoil
  try dsimp only
  repeat' first
    | intro _ | with_reducible assumption | with_reducible apply writeBy_keeps | with_reducible apply keeps_ite | with_reducible apply keeps_foldl
    | fail_if_no_progress (with_reducible refine keeps_mk (h := ?_) (h4 := rfl) (h5 := rfl) ..) | with_reducible rfl | split | dsimp only
theorem spoilReg_keeps (k : Nat) (e : EngIns) (s : State) (hmem : Keeps qs s) : Keeps qs (spoilReg k e s) := by
  unfold spoilReg
  try dsimp only
  repeat' first
    | intro _ | with_reducible assumption | with_reducible apply setM_keeps | with_reducible apply setV_keeps | with_reducible apply keeps_ite
    | fail_if_no_progress (with_reducible refine keeps_mk (h := ?_) (h4 := rfl) (h5 := rfl) ..) | with_reducible rfl | split | dsimp only
theorem discardAll_keeps (s : State) (hmem : Keeps qs s) : Keeps qs (discardAll s) := by
  unfold discardAll
  try dsimp only
  repeat' first
    | intro _ | with_reducible assumption | with_reducible apply spoilReg_keeps | with_reducible apply discardWork_keeps
    | with_reducible apply spoil_keeps | with_reducible apply keeps_foldl | dsimp only
theorem digGo_keeps (slot : Nat) (s : State) (hmem : Keeps qs s) : Keeps qs (digGo slot s) := by
  unfold digGo
  try dsimp only
  repeat' first
    | intro _ | with_reducible assumption | with_reducible apply setF_keeps | with_reducible apply keeps_ite
    | fail_if_no_progress (with_reducible refine keeps_mk (h := ?_) (h4 := rfl) (h5 := rfl) ..) | with_reducible rfl | split | dsimp only
theorem digDone_keeps (s : State) (hmem : Keeps qs s) : Keeps qs (digDone s) := by
  unfold digDone
  try dsimp only
  repeat' first
    | intro _ | with_reducible assumption | with_reducible apply recallLine_keeps | with_reducible apply bs_keeps
    | with_reducible apply writeOff_keeps | with_reducible apply setF_keeps | with_reducible apply bumpF_keeps | with_reducible apply capture_keeps
    | with_reducible apply raise_keeps | with_reducible apply keeps_foldl
    | fail_if_no_progress (with_reducible refine keeps_mk (h := ?_) (h4 := rfl) (h5 := rfl) ..) | with_reducible rfl | split | dsimp only
theorem countStep_keeps (v : DWord) (s : State) (hmem : Keeps qs s) : Keeps qs (countStep v s) := by
  unfold countStep
  try dsimp only
  repeat' first
    | intro _ | with_reducible assumption | with_reducible apply raise_keeps | with_reducible apply setF_keeps
    | fail_if_no_progress (with_reducible refine keeps_mk (h := ?_) (h4 := rfl) (h5 := rfl) ..) | with_reducible rfl | dsimp only
theorem lockWith_keeps (off : Int) (s : State) (hmem : Keeps qs s) : Keeps qs (lockWith off s) := by
  unfold lockWith
  try dsimp only
  repeat' first
    | intro _ | with_reducible assumption | with_reducible apply setGct_keeps | with_reducible apply keeps_ite
    | fail_if_no_progress (with_reducible refine keeps_mk (h := ?_) (h4 := rfl) (h5 := rfl) ..) | with_reducible rfl | split | dsimp only
theorem correct_keeps (off delay : Int) (s : State) (hmem : Keeps qs s) : Keeps qs (correct off delay s) := by
  unfold correct
  try dsimp only
  repeat' first
    | intro _ | with_reducible assumption | with_reducible apply setF_keeps | with_reducible apply lockWith_keeps
    | with_reducible apply countStep_keeps | with_reducible apply keeps_ite
    | fail_if_no_progress (with_reducible refine keeps_mk (h := ?_) (h4 := rfl) (h5 := rfl) ..) | with_reducible rfl | split | dsimp only
theorem countTick_keeps (s : State) (hmem : Keeps qs s) : Keeps qs (countTick s) := by
  unfold countTick
  try dsimp only
  repeat' first
    | intro _ | with_reducible assumption | with_reducible apply setF_keeps | with_reducible apply keeps_ite
    | fail_if_no_progress (with_reducible refine keeps_mk (h := ?_) (h4 := rfl) (h5 := rfl) ..) | with_reducible rfl | split | dsimp only
theorem syncSend_keeps (p dst : Nat) (x : Slot) (s : State) (hmem : Keeps qs s) : Keeps qs (syncSend p dst x s) := by
  unfold syncSend
  try dsimp only
  repeat' first
    | intro _ | with_reducible assumption | with_reducible apply portSend_keeps | with_reducible apply routeSend_keeps
    | with_reducible apply keeps_ite | split | dsimp only
theorem beReference_keeps (s : State) (hmem : Keeps qs s) : Keeps qs (beReference s) := by
  unfold beReference
  try dsimp only
  repeat' first
    | intro _ | with_reducible assumption | with_reducible apply setF_keeps | dsimp only
theorem askOn_keeps (p : Nat) (s : State) (hmem : Keeps qs s) : Keeps qs (askOn p s) := by
  unfold askOn
  try dsimp only
  repeat' first
    | intro _ | with_reducible assumption | with_reducible apply syncSend_keeps | dsimp only
theorem exchangeTake_keeps (s : State) (hmem : Keeps qs s) : Keeps qs (exchangeTake s) := by
  unfold exchangeTake
  try dsimp only
  repeat' first
    | intro _ | with_reducible assumption | fail_if_no_progress (with_reducible refine keeps_mk (h := ?_) (h4 := rfl) (h5 := rfl) ..)
    | with_reducible rfl | dsimp only
theorem parentMove_keeps (s : State) (hmem : Keeps qs s) : Keeps qs (parentMove s) := by
  unfold parentMove
  try dsimp only
  repeat' first
    | intro _ | with_reducible assumption | with_reducible apply parentLost_keeps | with_reducible apply setParent_keeps
    | with_reducible apply keeps_ite | fail_if_no_progress (with_reducible refine keeps_mk (h := ?_) (h4 := rfl) (h5 := rfl) ..) | with_reducible rfl
    | split | dsimp only
theorem syncTimer_keeps (s : State) (hmem : Keeps qs s) : Keeps qs (syncTimer s) := by
  unfold syncTimer
  try dsimp only
  repeat' first
    | intro _ | with_reducible assumption | with_reducible apply exchangeTake_keeps | with_reducible apply beReference_keeps
    | with_reducible apply setGct_keeps | with_reducible apply parentMove_keeps | with_reducible apply askOn_keeps | with_reducible apply keeps_ite
    | with_reducible apply keeps_foldl | fail_if_no_progress (with_reducible refine keeps_mk (h := ?_) (h4 := rfl) (h5 := rfl) ..)
    | with_reducible rfl | split | dsimp only
theorem syncRequest_keeps (p src : Nat) (x : Slot) (s : State) (hmem : Keeps qs s) : Keeps qs (syncRequest p src x s) := by
  unfold syncRequest
  try dsimp only
  repeat' first
    | intro _ | with_reducible assumption | with_reducible apply syncSend_keeps | with_reducible apply keeps_ite
    | fail_if_no_progress (with_reducible refine keeps_mk (h := ?_) (h4 := rfl) (h5 := rfl) ..) | with_reducible rfl | split | dsimp only
theorem syncResponse_keeps (p : Nat) (x : Slot) (s : State) (hmem : Keeps qs s) : Keeps qs (syncResponse p x s) := by
  unfold syncResponse
  try dsimp only
  repeat' first
    | intro _ | with_reducible assumption | with_reducible apply setF_keeps | with_reducible apply keeps_ite
    | fail_if_no_progress (with_reducible refine keeps_mk (h := ?_) (h4 := rfl) (h5 := rfl) ..) | with_reducible rfl | split | dsimp only
theorem syncCorrection_keeps (s : State) (hmem : Keeps qs s) : Keeps qs (syncCorrection s) := by
  unfold syncCorrection
  try dsimp only
  repeat' first
    | intro _ | with_reducible assumption | with_reducible apply correct_keeps | with_reducible apply countStep_keeps
    | with_reducible apply setF_keeps | with_reducible apply keeps_ite
    | fail_if_no_progress (with_reducible refine keeps_mk (h := ?_) (h4 := rfl) (h5 := rfl) ..) | with_reducible rfl | split | dsimp only
theorem routeTimer_keeps (ref : Nat) (s : State) (hmem : Keeps qs s) : Keeps qs (routeTimer ref s) := by
  unfold routeTimer
  try dsimp only
  repeat' first
    | intro _ | with_reducible assumption | with_reducible apply exchangeTake_keeps | with_reducible apply setGct_keeps
    | with_reducible apply syncSend_keeps | with_reducible apply keeps_ite
    | fail_if_no_progress (with_reducible refine keeps_mk (h := ?_) (h4 := rfl) (h5 := rfl) ..) | with_reducible rfl | split | dsimp only
theorem ppsMiss_keeps (s : State) (hmem : Keeps qs s) : Keeps qs (ppsMiss s) := by
  unfold ppsMiss
  try dsimp only
  repeat' first
    | intro _ | with_reducible assumption | with_reducible apply bumpF_keeps | with_reducible apply raise_keeps | with_reducible apply keeps_ite
    | split | dsimp only
theorem ppsEdge_keeps (t : DWord) (s : State) (hmem : Keeps qs s) : Keeps qs (ppsEdge t s) := by
  unfold ppsEdge
  try dsimp only
  repeat' first
    | intro _ | with_reducible assumption | with_reducible apply setF_keeps | with_reducible apply ppsMiss_keeps | with_reducible apply setPair_keeps
    | with_reducible apply correct_keeps | with_reducible apply keeps_ite
    | fail_if_no_progress (with_reducible refine keeps_mk (h := ?_) (h4 := rfl) (h5 := rfl) ..) | with_reducible rfl | split | dsimp only
theorem referenceSilent_keeps (lowest : Bool) (s : State) (hmem : Keeps qs s) : Keeps qs (referenceSilent lowest s) := by
  unfold referenceSilent
  try dsimp only
  repeat' first
    | intro _ | with_reducible assumption | with_reducible apply raise_keeps | with_reducible apply beReference_keeps
    | with_reducible apply setF_keeps | with_reducible apply keeps_ite
    | fail_if_no_progress (with_reducible refine keeps_mk (h := ?_) (h4 := rfl) (h5 := rfl) ..) | with_reducible rfl | split | dsimp only
theorem gctSet_keeps (path : Path) (v : DWord) (s : State) (hmem : Keeps qs s) : Keeps qs (gctSet path v s) := by
  unfold gctSet
  try dsimp only
  repeat' first
    | intro _ | with_reducible assumption | with_reducible apply rejectWrite_keeps | with_reducible apply countStep_keeps
    | with_reducible apply keeps_ite | split | dsimp only
theorem nopCmd_keeps (path : Path) (s : State) (hmem : Keeps qs s) : Keeps qs (nopCmd path s) := by
  unfold nopCmd
  try dsimp only
  repeat' first
    | intro _ | with_reducible assumption | with_reducible apply plainCommand_keeps | with_reducible apply cmdFinish_keeps | dsimp only
theorem showRating_keeps (s : State) (hmem : Keeps qs s) : Keeps qs (showRating s) := by
  unfold showRating
  try dsimp only
  repeat' first
    | intro _ | with_reducible assumption | with_reducible apply setF_keeps | dsimp only
theorem rateEffect_keeps (s : State) (hmem : Keeps qs s) : Keeps qs (rateEffect s) := by
  unfold rateEffect
  try dsimp only
  repeat' first
    | intro _ | with_reducible assumption | with_reducible apply raise_keeps | with_reducible apply cairnAdd_keeps
    | with_reducible apply showRating_keeps | fail_if_no_progress (with_reducible refine keeps_mk (h := ?_) (h4 := rfl) (h5 := rfl) ..)
    | with_reducible rfl | split | dsimp only
theorem tapReset_keeps (s : State) (hmem : Keeps qs s) : Keeps qs (tapReset s) := by
  unfold tapReset
  try dsimp only
  repeat' first
    | intro _ | with_reducible assumption | with_reducible apply setF_keeps
    | fail_if_no_progress (with_reducible refine keeps_mk (h := ?_) (h4 := rfl) (h5 := rfl) ..) | with_reducible rfl | dsimp only
theorem fabricClear_keeps (s : State) (hmem : Keeps qs s) : Keeps qs (fabricClear s) := by
  unfold fabricClear
  try dsimp only
  repeat' first
    | intro _ | with_reducible assumption | fail_if_no_progress (with_reducible refine keeps_mk (h := ?_) (h4 := rfl) (h5 := rfl) ..)
    | with_reducible rfl | dsimp only
theorem portsTrain_keeps (s : State) (hmem : Keeps qs s) : Keeps qs (portsTrain s) := by
  unfold portsTrain
  try dsimp only
  repeat' first
    | intro _ | with_reducible assumption | with_reducible apply setPort_keeps | with_reducible apply keeps_ite | with_reducible apply keeps_foldl
    | split | dsimp only
theorem powerUp_keeps (path : Path) (s : State) (hmem : Keeps qs s) : Keeps qs (powerUp path s) := by
  unfold powerUp
  try dsimp only
  repeat' first
    | intro _ | with_reducible assumption | with_reducible apply plainCommand_keeps | with_reducible apply rateEffect_keeps
    | with_reducible apply tapReset_keeps | with_reducible apply ownSlot_keeps | with_reducible apply resetRegs_keeps
    | with_reducible apply fabricClear_keeps | with_reducible apply loadTable_keeps | with_reducible apply opSlowest_keeps
    | with_reducible apply sensorsFresh_keeps | with_reducible apply setF_keeps
    | fail_if_no_progress (with_reducible refine keeps_mk (h := ?_) (h4 := rfl) (h5 := rfl) ..) | with_reducible rfl | dsimp only
theorem rollbackAdvance_keeps (s : State) (hmem : Keeps qs s) : Keeps qs (rollbackAdvance s) := by
  unfold rollbackAdvance
  try dsimp only
  repeat' first
    | intro _ | with_reducible assumption | with_reducible apply cairnAdd_keeps | with_reducible apply raise_keeps | with_reducible apply setF_keeps
    | with_reducible apply keeps_ite | split | dsimp only
theorem diesOff_keeps (s : State) (hmem : Keeps qs s) : Keeps qs (diesOff s) := by
  unfold diesOff
  try dsimp only
  repeat' first
    | intro _ | with_reducible assumption | with_reducible apply fabricClear_keeps | with_reducible apply stacksOff_keeps
    | with_reducible apply islandsOff_keeps | with_reducible apply setPort_keeps | with_reducible apply keeps_foldl | dsimp only
theorem powerUpDone_keeps (fail : Option (BitVec 16 × BitVec 16)) (s : State) (hmem : Keeps qs s) : Keeps qs (powerUpDone fail s) := by
  unfold powerUpDone
  try dsimp only
  repeat' first
    | intro _ | with_reducible assumption | with_reducible apply cmdFinish_keeps | with_reducible apply rollbackAdvance_keeps
    | with_reducible apply portsTrain_keeps | with_reducible apply setPkg_keeps | with_reducible apply raise_keeps
    | with_reducible apply diesOff_keeps | with_reducible apply keeps_ite
    | fail_if_no_progress (with_reducible refine keeps_mk (h := ?_) (h4 := rfl) (h5 := rfl) ..) | with_reducible rfl | split | dsimp only
theorem jobClear_keeps (s : State) (hmem : Keeps qs s) : Keeps qs (jobClear s) := by
  unfold jobClear
  try dsimp only
  repeat' first
    | intro _ | with_reducible assumption | with_reducible apply copyClear_keeps | with_reducible apply voteClear_keeps
    | with_reducible apply drainAbandon_keeps | with_reducible apply discardAll_keeps | with_reducible apply coresIdle_keeps
    | with_reducible apply halt_keeps | with_reducible apply setF_keeps
    | fail_if_no_progress (with_reducible refine keeps_mk (h := ?_) (h4 := rfl) (h5 := rfl) ..) | with_reducible rfl | dsimp only
theorem powerDown_keeps (path : Path) (s : State) (hmem : Keeps qs s) : Keeps qs (powerDown path s) := by
  unfold powerDown
  try dsimp only
  repeat' first
    | intro _ | with_reducible assumption | with_reducible apply plainCommand_keeps | with_reducible apply cmdFinish_keeps
    | with_reducible apply setPkg_keeps | with_reducible apply diesOff_keeps | with_reducible apply jobClear_keeps
    | fail_if_no_progress (with_reducible refine keeps_mk (h := ?_) (h4 := rfl) (h5 := rfl) ..) | with_reducible rfl | dsimp only
theorem warmReset_keeps (s : State) (hmem : Keeps qs s) : Keeps qs (warmReset s) := by
  unfold warmReset
  try dsimp only
  repeat' first
    | intro _ | with_reducible assumption | with_reducible apply discardAll_keeps | with_reducible apply colAbortAll_keeps
    | with_reducible apply flush_keeps | with_reducible apply jobClear_keeps | with_reducible apply ownSlot_keeps
    | with_reducible apply resetRegs_keeps | with_reducible apply fabricClear_keeps | with_reducible apply opSlowest_keeps
    | with_reducible apply setGct_keeps | with_reducible apply halRetrain_keeps | with_reducible apply portsTrain_keeps
    | fail_if_no_progress (with_reducible refine keeps_mk (h := ?_) (h4 := rfl) (h5 := rfl) ..) | with_reducible rfl | dsimp only
theorem warmStart_keeps (s : State) (hmem : Keeps qs s) : Keeps qs (warmStart s) := by
  unfold warmStart
  try dsimp only
  repeat' first
    | intro _ | with_reducible assumption | with_reducible apply cmdAccept_keeps | with_reducible apply warmReset_keeps | dsimp only
theorem resetWarm_keeps (path : Path) (s : State) (hmem : Keeps qs s) : Keeps qs (resetWarm path s) := by
  unfold resetWarm
  try dsimp only
  repeat' first
    | intro _ | with_reducible assumption | with_reducible apply plainCommand_keeps | with_reducible apply warmStart_keeps | dsimp only
theorem warmRequest_keeps (s : State) (hmem : Keeps qs s) : Keeps qs (warmRequest s) := by
  unfold warmRequest
  try dsimp only
  repeat' first
    | intro _ | with_reducible assumption | with_reducible apply raise_keeps | with_reducible apply warmStart_keeps
    | with_reducible apply resetWarm_keeps | with_reducible apply keeps_ite
    | fail_if_no_progress (with_reducible refine keeps_mk (h := ?_) (h4 := rfl) (h5 := rfl) ..) | with_reducible rfl | split | dsimp only
theorem warmDone_keeps (s : State) (hmem : Keeps qs s) : Keeps qs (warmDone s) := by
  unfold warmDone
  try dsimp only
  repeat' first
    | intro _ | with_reducible assumption | with_reducible apply cmdFinish_keeps | with_reducible apply loadTable_keeps
    | with_reducible apply halTrain_keeps | with_reducible apply setPkg_keeps | with_reducible apply keeps_ite
    | fail_if_no_progress (with_reducible refine keeps_mk (h := ?_) (h4 := rfl) (h5 := rfl) ..) | with_reducible rfl | split | dsimp only
theorem newKey_keeps (s : State) (h : Keeps qs s) : Keeps qs (newKey s) := by
  have hf := flush_keeps (fun _ => true) true s h
  exact ⟨⟨rfl, hf.1.2.1, hf.1.2.2.1, hf.1.2.2.2⟩, hf.2⟩
theorem admitArm_keeps (tag at_ : Nat) (s : State) (fd : Nat) (hmem : Keeps qs s) : Keeps qs (admitArm tag at_ s fd) := by
  unfold admitArm
  try dsimp only
  repeat' first
    | intro _ | with_reducible assumption | with_reducible apply setF_keeps | with_reducible apply epochDisarm_keeps
    | with_reducible apply epochArm_keeps | with_reducible apply setPair_keeps | dsimp only
theorem admitCmd_keeps (path : Path) (s : State) (hmem : Keeps qs s) : Keeps qs (admitCmd path s) := by
  unfold admitCmd
  try dsimp only
  repeat' first
    | intro _ | with_reducible assumption | with_reducible apply command_keeps | with_reducible apply newKey_keeps | with_reducible apply setF_keeps
    | with_reducible apply setPair_keeps | with_reducible apply admitArm_keeps | with_reducible apply keeps_ite | with_reducible apply keeps_id
    | with_reducible apply keeps_foldl | split | dsimp only
theorem teardownCmd_keeps (path : Path) (s : State) (hmem : Keeps qs s) : Keeps qs (teardownCmd path s) := by
  unfold teardownCmd
  try dsimp only
  repeat' first
    | intro _ | with_reducible assumption | with_reducible apply plainCommand_keeps | with_reducible apply handover_keeps
    | with_reducible apply flush_keeps | with_reducible apply jobClear_keeps | with_reducible apply discardAll_keeps
    | with_reducible apply colAbortAll_keeps | dsimp only
theorem homePurge_keeps (s : State) (hmem : Keeps qs s) : Keeps qs (homePurge s) := by
  unfold homePurge
  try dsimp only
  repeat' first
    | intro _ | with_reducible assumption | fail_if_no_progress (with_reducible refine keeps_mk (h := ?_) (h4 := rfl) (h5 := rfl) ..)
    | with_reducible rfl | split | dsimp only
theorem teardownDone_keeps (s : State) (hmem : Keeps qs s) : Keeps qs (teardownDone s) := by
  unfold teardownDone
  try dsimp only
  repeat' first
    | intro _ | with_reducible assumption | with_reducible apply homePurge_keeps | with_reducible apply setF_keeps | with_reducible apply setFab_keeps
    | with_reducible apply cmdFinish_keeps | with_reducible apply raise_keeps | with_reducible apply setPkg_keeps | with_reducible apply keeps_ite
    | with_reducible apply keeps_foldl | fail_if_no_progress (with_reducible refine keeps_mk (h := ?_) (h4 := rfl) (h5 := rfl) ..)
    | with_reducible rfl | split | dsimp only
theorem scorePart_keeps (s : State) (k i : Nat) (hmem : Keeps qs s) : Keeps qs (scorePart s k i) := by
  unfold scorePart
  try dsimp only
  repeat' first
    | intro _ | with_reducible assumption | with_reducible apply cairnAdd_keeps | with_reducible apply raise_keeps | with_reducible apply keeps_ite
    | with_reducible apply keeps_foldl | fail_if_no_progress (with_reducible refine keeps_mk (h := ?_) (h4 := rfl) (h5 := rfl) ..)
    | with_reducible rfl | split | dsimp only
theorem scoreAll_keeps (s : State) (hmem : Keeps qs s) : Keeps qs (scoreAll s) := by
  unfold scoreAll
  try dsimp only
  repeat' first
    | intro _ | with_reducible assumption | with_reducible apply scorePart_keeps | with_reducible apply setF_keeps | with_reducible apply keeps_foldl
    | dsimp only
theorem periodEntry_keeps (s : State) (hmem : Keeps qs s) : Keeps qs (periodEntry s) := by
  unfold periodEntry
  try dsimp only
  repeat' first
    | intro _ | with_reducible assumption | with_reducible apply cairnAdd_keeps
    | fail_if_no_progress (with_reducible refine keeps_mk (h := ?_) (h4 := rfl) (h5 := rfl) ..) | with_reducible rfl | dsimp only
theorem dailyPeriod_keeps (s : State) (hmem : Keeps qs s) : Keeps qs (dailyPeriod s) := by
  unfold dailyPeriod
  try dsimp only
  repeat' first
    | intro _ | with_reducible assumption | with_reducible apply periodEntry_keeps | with_reducible apply scoreAll_keeps
    | with_reducible apply keeps_ite | split | dsimp only
theorem attestCmd_keeps (path : Path) (s : State) (hmem : Keeps qs s) : Keeps qs (attestCmd path s) := by
  unfold attestCmd
  try dsimp only
  repeat' first
    | intro _ | with_reducible assumption | with_reducible apply command_keeps | with_reducible apply keeps_id
    | fail_if_no_progress (with_reducible refine keeps_mk (h := ?_) (h4 := rfl) (h5 := rfl) ..) | with_reducible rfl | dsimp only
theorem attestSigned_keeps (s : State) (hmem : Keeps qs s) : Keeps qs (attestSigned s) := by
  unfold attestSigned
  try dsimp only
  repeat' first
    | intro _ | with_reducible assumption | with_reducible apply writeExt_keeps | with_reducible apply cmdFinish_keeps
    | with_reducible apply setF_keeps | with_reducible apply keeps_ite | split | dsimp only
theorem eraseCmd_keeps (path : Path) (s : State) (h : Keeps qs s) : Keeps qs (eraseCmd path s) := by
  unfold eraseCmd
  refine command_keeps _ _ _ _ _ _ _ (fun t ht => ht) (fun t ht => ?_) h
  have hk := newKey_keeps t ht
  have hc : Keeps qs (colShow { newKey t with
      depot := [], tileSram := [], vregs := [], masks := (List.range 288).flatMap (fun p => (List.range 7).map (fun i => (p * 8 + i + 1, 0))), cores := [],
      starts := [], engines := [], dsps := [], slvs := [], col := .init, imgCore := [], imgDsp := [], imgSlv := [], imgCol := none,
      hal := { (newKey t).hal with dir := [] }, sec := { (newKey t).sec with erase := some (eraseReq t) } }) :=
    colShow_keeps _ ⟨⟨hk.1.1, rfl, hk.1.2.2.1, hk.1.2.2.2⟩, hk.2⟩
  dsimp only
  generalize colShow _ = s1 at hc ⊢
  split
  · exact ⟨⟨rfl, hc.1.2.1, hc.1.2.2.1, hc.1.2.2.2⟩, hc.2⟩
  · exact hc
theorem sigReset_keeps (s : State) (hmem : Keeps qs s) : Keeps qs (sigReset s) := by
  unfold sigReset
  try dsimp only
  repeat' first
    | intro _ | with_reducible assumption | with_reducible apply setF_keeps | with_reducible apply resetRegs_keeps | with_reducible apply keeps_foldl
    | dsimp only
theorem eraseRegs_keeps (s : State) (hmem : Keeps qs s) : Keeps qs (eraseRegs s) := by
  unfold eraseRegs
  try dsimp only
  repeat' first
    | intro _ | with_reducible assumption | with_reducible apply resetRegs_keeps | with_reducible apply sigReset_keeps | dsimp only
theorem ckpReset_keeps (s : State) (hmem : Keeps qs s) : Keeps qs (ckpReset s) := by
  unfold ckpReset
  try dsimp only
  repeat' first
    | intro _ | with_reducible assumption | with_reducible refine keeps_mk0 (h := ?_) (h4 := rfl) (h5 := rfl) ..
    | fail_if_no_progress (with_reducible refine keeps_mk (h := ?_) (h4 := rfl) (h5 := rfl) ..) | with_reducible rfl | dsimp only
theorem eraseDone_keeps (s : State) (hmem : Keeps qs s) : Keeps qs (eraseDone s) := by
  unfold eraseDone
  try dsimp only
  repeat' first
    | intro _ | with_reducible assumption | with_reducible apply eraseRegs_keeps | with_reducible apply cairnAdd_keeps
    | with_reducible apply periodEntry_keeps | with_reducible apply ckpReset_keeps | with_reducible apply setPair_keeps
    | with_reducible apply setF_keeps | with_reducible apply writeExt_keeps | with_reducible apply cmdFinish_keeps | with_reducible apply raise_keeps
    | with_reducible apply keeps_ite | fail_if_no_progress (with_reducible refine keeps_mk (h := ?_) (h4 := rfl) (h5 := rfl) ..) | with_reducible rfl
    | split | dsimp only
theorem nonceGen_keeps (s : State) (hmem : Keeps qs s) : Keeps qs (nonceGen s) := by
  unfold nonceGen
  try dsimp only
  repeat' first
    | intro _ | with_reducible assumption | fail_if_no_progress (with_reducible refine keeps_mk (h := ?_) (h4 := rfl) (h5 := rfl) ..)
    | with_reducible rfl | dsimp only
theorem serviceEnter_keeps (path : Path) (ok : Bool) (s : State) (hmem : Keeps qs s) : Keeps qs (serviceEnter path ok s) := by
  unfold serviceEnter
  try dsimp only
  repeat' first
    | intro _ | with_reducible assumption | with_reducible apply command_keeps | with_reducible apply cmdFinish_keeps
    | with_reducible apply setPkg_keeps | with_reducible apply raise_keeps
    | fail_if_no_progress (with_reducible refine keeps_mk (h := ?_) (h4 := rfl) (h5 := rfl) ..) | with_reducible rfl | dsimp only
theorem serviceExit_keeps (path : Path) (s : State) (hmem : Keeps qs s) : Keeps qs (serviceExit path s) := by
  unfold serviceExit
  try dsimp only
  repeat' first
    | intro _ | with_reducible assumption | with_reducible apply plainCommand_keeps | with_reducible apply cmdFinish_keeps
    | with_reducible apply setPkg_keeps | fail_if_no_progress (with_reducible refine keeps_mk (h := ?_) (h4 := rfl) (h5 := rfl) ..)
    | with_reducible rfl | dsimp only
theorem rerateCmd_keeps (path : Path) (ok : Bool) (r : Rating) (s : State) (hmem : Keeps qs s) : Keeps qs (rerateCmd path ok r s) := by
  unfold rerateCmd
  try dsimp only
  repeat' first
    | intro _ | with_reducible assumption | with_reducible apply command_keeps | with_reducible apply cairnAdd_keeps
    | with_reducible apply cmdFinish_keeps | with_reducible apply showRating_keeps | with_reducible apply keeps_id
    | fail_if_no_progress (with_reducible refine keeps_mk (h := ?_) (h4 := rfl) (h5 := rfl) ..) | with_reducible rfl | dsimp only
theorem coldStart_keeps (s : State) (h : Keeps qs s) : Keeps qs (coldStart s) := by
  unfold coldStart
  split
  · exact h
  · dsimp only
    exact setF_keeps _ _ _ _ (setF_keeps _ _ _ _ (setF_keeps _ _ _ _ ⟨⟨rfl, rfl, h.1.2.2.1, fun _ he => absurd he List.not_mem_nil⟩, h.2⟩))
theorem bootFail_keeps (s : State) (hmem : Keeps qs s) : Keeps qs (bootFail s) := by
  unfold bootFail
  try dsimp only
  repeat' first
    | intro _ | with_reducible assumption | with_reducible apply raise_keeps
    | fail_if_no_progress (with_reducible refine keeps_mk (h := ?_) (h4 := rfl) (h5 := rfl) ..) | with_reducible rfl | dsimp only
theorem uncleanCheck_keeps (s : State) (hmem : Keeps qs s) : Keeps qs (uncleanCheck s) := by
  unfold uncleanCheck
  try dsimp only
  repeat' first
    | intro _ | with_reducible assumption | with_reducible apply setF_keeps | with_reducible apply cairnAdd_keeps | with_reducible apply raise_keeps
    | with_reducible apply keeps_ite | fail_if_no_progress (with_reducible refine keeps_mk (h := ?_) (h4 := rfl) (h5 := rfl) ..) | with_reducible rfl
    | split | dsimp only
theorem bootOk_keeps (bank svn : Nat) (adv : Bool) (r : Rating) (s : State) (hmem : Keeps qs s) : Keeps qs (bootOk bank svn adv r s) := by
  unfold bootOk
  try dsimp only
  repeat' first
    | intro _ | with_reducible assumption | with_reducible apply setF_keeps | with_reducible apply cairnAdd_keeps
    | with_reducible apply rateEffect_keeps | with_reducible apply uncleanCheck_keeps | with_reducible apply loadGuard_keeps
    | with_reducible apply showRating_keeps | with_reducible apply halTrain_keeps | with_reducible apply ownSlot_keeps
    | with_reducible apply setPkg_keeps | with_reducible apply raise_keeps | with_reducible apply keeps_ite
    | fail_if_no_progress (with_reducible refine keeps_mk (h := ?_) (h4 := rfl) (h5 := rfl) ..) | with_reducible rfl | split | dsimp only
theorem bootDone_keeps (b : BootInputs) (s : State) (hmem : Keeps qs s) : Keeps qs (bootDone b s) := by
  unfold bootDone
  try dsimp only
  repeat' first
    | intro _ | with_reducible assumption | with_reducible apply setF_keeps | with_reducible apply raise_keeps | with_reducible apply bootFail_keeps
    | with_reducible apply bootOk_keeps | with_reducible apply keeps_ite
    | fail_if_no_progress (with_reducible refine keeps_mk (h := ?_) (h4 := rfl) (h5 := rfl) ..) | with_reducible rfl | split | dsimp only
theorem removal_keeps (s : State) (hmem : Keeps qs s) : Keeps qs (removal s) := by
  unfold removal
  try dsimp only
  repeat' first
    | intro _ | with_reducible assumption | with_reducible apply bumpF_keeps | with_reducible apply raise_keeps
    | with_reducible apply colAbortAll_keeps | with_reducible apply diesOff_keeps | with_reducible apply flush_keeps
    | with_reducible apply jobClear_keeps | with_reducible apply periodEntry_keeps | with_reducible apply handover_keeps
    | with_reducible apply cairnAdd_keeps | with_reducible apply cmdAbandon_keeps | with_reducible apply keeps_ite
    | fail_if_no_progress (with_reducible refine keeps_mk (h := ?_) (h4 := rfl) (h5 := rfl) ..) | with_reducible rfl | split | dsimp only
theorem powerGone_keeps (s : State) (hmem : Keeps qs s) : Keeps qs (powerGone s) := by
  unfold powerGone
  try dsimp only
  repeat' first
    | intro _ | with_reducible assumption | fail_if_no_progress (with_reducible refine keeps_mk (h := ?_) (h4 := rfl) (h5 := rfl) ..)
    | with_reducible rfl | dsimp only
theorem leverOpen_keeps (s : State) (hmem : Keeps qs s) : Keeps qs (leverOpen s) := by
  unfold leverOpen
  try dsimp only
  repeat' first
    | intro _ | with_reducible assumption | with_reducible apply powerGone_keeps | with_reducible apply removal_keeps
    | with_reducible apply setPkg_keeps | with_reducible apply keeps_ite
    | fail_if_no_progress (with_reducible refine keeps_mk (h := ?_) (h4 := rfl) (h5 := rfl) ..) | with_reducible rfl | split | dsimp only
theorem pwrEnDrop_keeps (s : State) (hmem : Keeps qs s) : Keeps qs (pwrEnDrop s) := by
  unfold pwrEnDrop
  try dsimp only
  repeat' first
    | intro _ | with_reducible assumption | with_reducible apply powerGone_keeps | with_reducible apply removal_keeps | with_reducible apply keeps_ite
    | fail_if_no_progress (with_reducible refine keeps_mk (h := ?_) (h4 := rfl) (h5 := rfl) ..) | with_reducible rfl | split | dsimp only
theorem inputLoss_keeps (s : State) (hmem : Keeps qs s) : Keeps qs (inputLoss s) := by
  unfold inputLoss
  try dsimp only
  repeat' first
    | intro _ | with_reducible assumption | with_reducible apply powerGone_keeps | with_reducible apply stacksOff_keeps
    | with_reducible apply islandsOff_keeps | with_reducible apply keeps_ite | split | dsimp only
theorem presentLost_keeps (s : State) (hmem : Keeps qs s) : Keeps qs (presentLost s) := by
  unfold presentLost
  try dsimp only
  repeat' first
    | intro _ | with_reducible assumption | with_reducible apply leverOpen_keeps | with_reducible apply raise_keeps | with_reducible apply keeps_ite
    | fail_if_no_progress (with_reducible refine keeps_mk (h := ?_) (h4 := rfl) (h5 := rfl) ..) | with_reducible rfl | split | dsimp only
theorem flashUnlock_keeps (bank : Nat) (s : State) (hmem : Keeps qs s) : Keeps qs (flashUnlock bank s) := by
  unfold flashUnlock
  try dsimp only
  repeat' first
    | intro _ | with_reducible assumption | with_reducible apply keeps_ite
    | fail_if_no_progress (with_reducible refine keeps_mk (h := ?_) (h4 := rfl) (h5 := rfl) ..) | with_reducible rfl | split | dsimp only
theorem flashPage_keeps (path : Path) (page : Nat) (data : List Byte) (s : State) (h : Keeps qs s) : Keeps qs (flashPage path page data s) := by
  unfold flashPage
  split
  · exact h
  · split
    · exact rejectWrite_keeps _ _ _ _ h
    · split
      · exact h
      · exact ⟨⟨h.1.1, h.1.2.1, memWriteN_wf _ _ _ _ _ h.1.2.2.1, h.1.2.2.2⟩, h.2⟩
theorem cairnCompact_keeps (path : Path) (n : Nat) (s : State) (hmem : Keeps qs s) : Keeps qs (cairnCompact path n s) := by
  unfold cairnCompact
  try dsimp only
  repeat' first
    | intro _ | with_reducible assumption | with_reducible apply cairnAdd_keeps | with_reducible apply rejectWrite_keeps
    | with_reducible apply keeps_ite | fail_if_no_progress (with_reducible refine keeps_mk (h := ?_) (h4 := rfl) (h5 := rfl) ..) | with_reducible rfl
    | split | dsimp only
theorem cairnSel_keeps (lo : Nat) (s : State) (hmem : Keeps qs s) : Keeps qs (cairnSel lo s) := by
  unfold cairnSel
  try dsimp only
  repeat' first
    | intro _ | with_reducible assumption | with_reducible apply setF_keeps | with_reducible apply keeps_ite
    | fail_if_no_progress (with_reducible refine keeps_mk (h := ?_) (h4 := rfl) (h5 := rfl) ..) | with_reducible rfl | split | dsimp only

end Sys2Proof.Machine
end

