-- ==== Sys2Proof/Laws/Keep5.lean ====
section
/-! SUPPORT. Each operation of the machine keeps the queue and the canonical form of the byte memories: one lemma per operation
of CsrRead, CsrWrite, Csr, Remote, Route, Flit, Pins, ShortVec, Tick. -/

set_option linter.all false

namespace Sys2Proof.Machine

variable {qs : List Instr}

theorem clearRead_keeps (k : Blk) (n base : Nat) (r : Reg) (s : State) (hmem : Keeps qs s) : Keeps qs (clearRead k n base r s) := by
  unfold clearRead
  try dsimp only
  repeat' first
    | intro _ | with_reducible assumption | with_reducible apply setF_keeps | with_reducible apply setChan_keeps | with_reducible apply setLink_keeps
    | with_reducible apply keeps_ite | with_reducible apply keeps_foldl
    | fail_if_no_progress (with_reducible refine keeps_mk (h := ?_) (h4 := rfl) (h5 := rfl) ..) | with_reducible rfl | split | dsimp only
theorem regRead_keeps (path : Path) (k : Blk) (n base : Nat) (r : Reg) (s : State) (hmem : Keeps qs s) : Keeps qs (regRead path k n base r s).2 := by
  unfold regRead
  try dsimp only
  repeat' first
    | intro _ | with_reducible assumption | with_reducible apply clearRead_keeps | with_reducible apply keeps_ite
    | fail_if_no_progress (with_reducible refine keeps_mk (h := ?_) (h4 := rfl) (h5 := rfl) ..) | with_reducible rfl | split | dsimp only
theorem imageRead_keeps {α : Type} [DecidableEq α] (img : Option (Nat × α)) (now : α) (base off : Nat) (keep : Nat × α → State → State) (s : State) (hkeep : ∀ z0 t, Keeps qs t → Keeps qs (keep z0 t)) (hmem : Keeps qs s) : Keeps qs (imageRead img now base off keep s).2 := by
  unfold imageRead
  try dsimp only
  repeat' first
    | intro _ | with_reducible assumption | with_reducible apply hkeep | with_reducible apply keeps_ite
    | fail_if_no_progress (with_reducible refine keeps_mk (h := ?_) (h4 := rfl) (h5 := rfl) ..) | with_reducible rfl | split | dsimp only
theorem seqWinRead_keeps (c off : Nat) (s : State) (hmem : Keeps qs s) : Keeps qs (seqWinRead c off s).2 := by
  unfold seqWinRead
  try dsimp only
  repeat' first
    | intro _ | with_reducible assumption | with_reducible apply imageRead_keeps | with_reducible apply keeps_ite
    | fail_if_no_progress (with_reducible refine keeps_mk (h := ?_) (h4 := rfl) (h5 := rfl) ..) | with_reducible rfl | split | dsimp only
theorem csrRead_keeps (path : Path) (o : Nat) (s : State) (hmem : Keeps qs s) : Keeps qs (csrRead path o s).2 := by
  unfold csrRead
  try dsimp only
  repeat' first
    | intro _ | with_reducible assumption | with_reducible apply regRead_keeps | with_reducible apply seqWinRead_keeps
    | with_reducible apply imageRead_keeps | fail_if_no_progress (with_reducible refine keeps_mk (h := ?_) (h4 := rfl) (h5 := rfl) ..)
    | with_reducible rfl | split | dsimp only
theorem fieldStore_keeps (base : Nat) (lvl : Bool) (v : Nat) (s : State) (f : Fld) (hmem : Keeps qs s) : Keeps qs (fieldStore base lvl v s f) := by
  unfold fieldStore
  try dsimp only
  repeat' first
    | intro _ | with_reducible assumption | with_reducible apply setF_keeps | with_reducible apply keeps_ite
    | fail_if_no_progress (with_reducible refine keeps_mk (h := ?_) (h4 := rfl) (h5 := rfl) ..) | with_reducible rfl | split | dsimp only
theorem regStore_keeps (base : Nat) (r : Reg) (v : Nat) (s : State) (hmem : Keeps qs s) : Keeps qs (regStore base r v s) := by
  unfold regStore
  try dsimp only
  repeat' first
    | intro _ | with_reducible assumption | with_reducible apply fieldStore_keeps | with_reducible apply keeps_ite | with_reducible apply keeps_foldl
    | split | dsimp only
theorem goCommand_keeps (path : Path) (s0 : State) (hmem : Keeps qs s0) : Keeps qs (goCommand path s0) := by
  unfold goCommand
  try dsimp only
  repeat' first
    | intro _ | with_reducible assumption | with_reducible apply nopCmd_keeps | with_reducible apply powerUp_keeps
    | with_reducible apply powerDown_keeps | with_reducible apply serviceEnter_keeps | with_reducible apply serviceExit_keeps
    | with_reducible apply sleepCmd_keeps | with_reducible apply wakeCmd_keeps | with_reducible apply repairCmd_keeps
    | with_reducible apply admitCmd_keeps | with_reducible apply launchCmd_keeps | with_reducible apply freezeCmd_keeps
    | with_reducible apply resumeCmd_keeps | with_reducible apply restoreCmd_keeps | with_reducible apply takeoverCmd_keeps
    | with_reducible apply recoverCmd_keeps | with_reducible apply teardownCmd_keeps | with_reducible apply eraseCmd_keeps
    | with_reducible apply attestCmd_keeps | with_reducible apply rerateCmd_keeps | with_reducible apply resetWarm_keeps
    | with_reducible apply plainCommand_keeps | with_reducible apply keeps_id
    | fail_if_no_progress (with_reducible refine keeps_mk (h := ?_) (h4 := rfl) (h5 := rfl) ..) | with_reducible rfl | split | dsimp only
theorem tabWrite_keeps (path : Path) (fd t : Nat) (v : Word) (s : State) (hmem : Keeps qs s) : Keeps qs (tabWrite path fd t v s) := by
  unfold tabWrite
  try dsimp only
  repeat' first
    | intro _ | with_reducible assumption | with_reducible apply rejectWrite_keeps | with_reducible apply csrSet_keeps
    | with_reducible apply keeps_ite | split | dsimp only
theorem portCtrl_keeps (p : Nat) (base : Nat) (r : Reg) (v : Nat) (s : State) (hmem : Keeps qs s) : Keeps qs (portCtrl p base r v s) := by
  unfold portCtrl
  try dsimp only
  repeat' first
    | intro _ | with_reducible assumption | with_reducible apply regStore_keeps | with_reducible apply portDisable_keeps
    | with_reducible apply portEnable_keeps | with_reducible apply portAdmit_keeps | with_reducible apply portRetrain_keeps
    | with_reducible apply portSelftest_keeps | with_reducible apply keeps_ite | split | dsimp only
theorem halCfg_keeps (base : Nat) (r : Reg) (v : Nat) (s : State) (hmem : Keeps qs s) : Keeps qs (halCfg base r v s) := by
  unfold halCfg
  try dsimp only
  repeat' first
    | intro _ | with_reducible assumption | with_reducible apply regStore_keeps | with_reducible apply setF_keeps
    | with_reducible apply halPortDown_keeps | with_reducible apply keeps_ite | with_reducible apply keeps_foldl | split | dsimp only
theorem ckpCfg_keeps (base : Nat) (r : Reg) (v : Nat) (s : State) (hmem : Keeps qs s) : Keeps qs (ckpCfg base r v s) := by
  unfold ckpCfg
  try dsimp only
  repeat' first
    | intro _ | with_reducible assumption | with_reducible apply regStore_keeps | with_reducible apply setF_keeps
    | with_reducible apply ckpReject_keeps | with_reducible apply ckpEnable_keeps | with_reducible apply keeps_ite | split | dsimp only
theorem ckpWrite_keeps (path : Path) (base : Nat) (r : Reg) (v : Word) (s : State) (hmem : Keeps qs s) : Keeps qs (ckpWrite path base r v s) := by
  unfold ckpWrite
  try dsimp only
  repeat' first
    | intro _ | with_reducible assumption | with_reducible apply ckpCfg_keeps | with_reducible apply ckpReject_keeps
    | with_reducible apply boundary_keeps | with_reducible apply auditGo_keeps | with_reducible apply suspicionClear_keeps
    | with_reducible apply regStore_keeps | with_reducible apply keeps_ite
    | fail_if_no_progress (with_reducible refine keeps_mk (h := ?_) (h4 := rfl) (h5 := rfl) ..) | with_reducible rfl | split | dsimp only
theorem gctWrite_keeps (path : Path) (base : Nat) (r : Reg) (v : Word) (s : State) (hmem : Keeps qs s) : Keeps qs (gctWrite path base r v s) := by
  unfold gctWrite
  try dsimp only
  repeat' first
    | intro _ | with_reducible assumption | with_reducible apply setF_keeps | with_reducible apply gctSet_keeps | with_reducible apply regStore_keeps
    | with_reducible apply digGo_keeps | with_reducible apply keeps_ite | split | dsimp only
theorem fabWrite_keeps (path : Path) (fd base : Nat) (r : Reg) (v : Nat) (s : State) (hmem : Keeps qs s) : Keeps qs (fabWrite path fd base r v s) := by
  unfold fabWrite
  try dsimp only
  repeat' first
    | intro _ | with_reducible assumption | with_reducible apply rejectWrite_keeps | with_reducible apply regStore_keeps
    | with_reducible apply epochArm_keeps | with_reducible apply epochDisarm_keeps | with_reducible apply keeps_ite | split | dsimp only
theorem regWrite_keeps (path : Path) (k : Blk) (n base : Nat) (r : Reg) (v : Word) (s : State) (hmem : Keeps qs s) : Keeps qs (regWrite path k n base r v s) := by
  unfold regWrite
  try dsimp only
  repeat' first
    | intro _ | with_reducible assumption | with_reducible apply mxRestore_keeps | with_reducible apply vxResume_keeps
    | with_reducible apply vxRestore_keeps | with_reducible apply regStore_keeps | with_reducible apply sxRestore_keeps
    | with_reducible apply asyRestore_keeps | with_reducible apply porRestore_keeps | with_reducible apply slvRestore_keeps
    | with_reducible apply retrainTrigger_keeps | with_reducible apply selftest_keeps | with_reducible apply memAdmit_keeps
    | with_reducible apply spreadWrite_keeps | with_reducible apply depFlush_keeps | with_reducible apply depInval_keeps
    | with_reducible apply fabWrite_keeps | with_reducible apply portCtrl_keeps | with_reducible apply halCfg_keeps
    | with_reducible apply rejectWrite_keeps | with_reducible apply colRestore_keeps | with_reducible apply gctWrite_keeps
    | with_reducible apply ckpWrite_keeps | with_reducible apply prefWrite_keeps | with_reducible apply hostOpWrite_keeps
    | with_reducible apply capWrite_keeps | with_reducible apply goCommand_keeps | with_reducible apply evrClear_keeps
    | with_reducible apply nonceGen_keeps | with_reducible apply cairnSel_keeps | with_reducible apply cairnCompact_keeps
    | with_reducible apply flashUnlock_keeps | with_reducible apply keeps_ite
    | fail_if_no_progress (with_reducible refine keeps_mk (h := ?_) (h4 := rfl) (h5 := rfl) ..) | with_reducible rfl | split | dsimp only
theorem flashWord_keeps (path : Path) (t : Nat) (v : Word) (s : State) (h : Keeps qs s) : Keeps qs (flashWord path t v s) := by
  unfold flashWord
  split
  · exact h
  · split
    · exact rejectWrite_keeps _ _ _ _ h
    · exact ⟨⟨h.1.1, h.1.2.1, memWriteN_wf _ _ _ _ _ h.1.2.2.1, h.1.2.2.2⟩, h.2⟩
theorem csrPut_keeps (path : Path) (o : Nat) (v : Word) (s : State) (hmem : Keeps qs s) : OutKeeps qs (csrPut path o v s) := by
  unfold csrPut
  try dsimp only
  repeat' first
    | intro _ | with_reducible assumption | with_reducible apply regWrite_keeps | with_reducible apply vxWindow_keeps
    | with_reducible apply seqWindow_keeps | with_reducible apply windowWrite_keeps | with_reducible apply setDsp_keeps
    | with_reducible apply setEng_keeps | with_reducible apply colShow_keeps | with_reducible apply groupPut_keeps
    | with_reducible apply tabWrite_keeps | with_reducible apply curSeq_keeps | with_reducible apply curNext_keeps
    | with_reducible apply flashWord_keeps | with_reducible apply outKeeps_next | with_reducible apply outKeeps_fault | with_reducible apply keeps_ite
    | fail_if_no_progress (with_reducible refine keeps_mk (h := ?_) (h4 := rfl) (h5 := rfl) ..) | with_reducible rfl | split | dsimp only
theorem andThen_keeps (r : Host.Outcome State Fault Refusal) (f : State → Host.Outcome State Fault Refusal) (hr : OutKeeps qs r)
    (hf : ∀ t, Keeps qs t → OutKeeps qs (f t)) : OutKeeps qs (andThen r f) := by
  unfold andThen
  split
  · exact hf _ hr
  · trivial
  · trivial
theorem csrErr_keeps (o : Nat) (s : State) (hmem : Keeps qs s) : Keeps qs (csrErr o s) := by
  unfold csrErr
  try dsimp only
  repeat' first
    | intro _ | with_reducible assumption | with_reducible apply setF_keeps | with_reducible apply bumpF_keeps | with_reducible apply keeps_ite
    | split | dsimp only
theorem halterData_keeps (a : CsrAcc) (v : Nat) (s : State) (hmem : Keeps qs s) : Keeps qs (halterData a v s) := by
  unfold halterData
  try dsimp only
  repeat' first
    | intro _ | with_reducible assumption | with_reducible apply keeps_ite
    | fail_if_no_progress (with_reducible refine keeps_mk (h := ?_) (h4 := rfl) (h5 := rfl) ..) | with_reducible rfl | split | dsimp only
theorem coreData_keeps (n : Nat) (a : CsrAcc) (v : Nat) (s : State) (hmem : Keeps qs s) : Keeps qs (coreData n a v s) := by
  unfold coreData
  try dsimp only
  repeat' first
    | intro _ | with_reducible assumption | with_reducible apply retire_keeps | with_reducible apply keeps_ite
    | fail_if_no_progress (with_reducible refine keeps_mk (h := ?_) (h4 := rfl) (h5 := rfl) ..) | with_reducible rfl | split | dsimp only
theorem accDone_keeps (a : CsrAcc) (v : Nat) (s : State) (hmem : Keeps qs s) : Keeps qs (accDone a v s) := by
  unfold accDone
  try dsimp only
  repeat' first
    | intro _ | with_reducible assumption | with_reducible apply coreData_keeps | with_reducible apply halterData_keeps
    | with_reducible apply keeps_ite | fail_if_no_progress (with_reducible refine keeps_mk (h := ?_) (h4 := rfl) (h5 := rfl) ..) | with_reducible rfl
    | split | dsimp only
theorem accDo_keeps (a : CsrAcc) (s : State) (hmem : Keeps qs s) : OutKeeps qs (accDo a s) := by
  unfold accDo
  try dsimp only
  repeat' first
    | intro _ | with_reducible assumption | with_reducible apply andThen_keeps | with_reducible apply csrPut_keeps
    | with_reducible apply accDone_keeps | with_reducible apply csrRead_keeps | with_reducible apply outKeeps_next
    | with_reducible apply outKeeps_fault | fail_if_no_progress (with_reducible refine keeps_mk (h := ?_) (h4 := rfl) (h5 := rfl) ..)
    | with_reducible rfl | split | dsimp only
theorem accOff_keeps (a : CsrAcc) (s : State) (hmem : Keeps qs s) : Keeps qs (accOff a s) := by
  unfold accOff
  try dsimp only
  repeat' first
    | intro _ | with_reducible assumption | with_reducible apply accDone_keeps | with_reducible apply bumpF_keeps | dsimp only
theorem serve_keeps (a : CsrAcc) (s : State) (hmem : Keeps qs s) : OutKeeps qs (serve a s) := by
  unfold serve
  try dsimp only
  repeat' first
    | intro _ | with_reducible assumption | with_reducible apply accDone_keeps | with_reducible apply csrErr_keeps | with_reducible apply accDo_keeps
    | with_reducible apply accOff_keeps | with_reducible apply outKeeps_next | with_reducible apply outKeeps_fault | with_reducible apply keeps_ite
    | fail_if_no_progress (with_reducible refine keeps_mk (h := ?_) (h4 := rfl) (h5 := rfl) ..) | with_reducible rfl | split | dsimp only
theorem drain_keeps : ∀ (fuel : Nat) (s : State), Keeps qs s → OutKeeps qs (drain fuel s)
  | 0, s, h => h
  | fuel + 1, s, h => by
    unfold drain
    split
    · exact andThen_keeps _ _ (serve_keeps _ _ (keeps_same s _ h rfl rfl rfl rfl rfl rfl)) (drain_keeps fuel)
    · exact h
theorem arrive_keeps (a : CsrAcc) (s : State) (hmem : Keeps qs s) : OutKeeps qs (arrive a s) := by
  unfold arrive
  try dsimp only
  repeat' first
    | intro _ | with_reducible assumption | with_reducible apply serve_keeps | with_reducible apply outKeeps_next
    | with_reducible apply outKeeps_fault | with_reducible apply keeps_ite
    | fail_if_no_progress (with_reducible refine keeps_mk (h := ?_) (h4 := rfl) (h5 := rfl) ..) | with_reducible rfl | split | dsimp only
theorem csrWrite_keeps (path : Path) (o : Nat) (v : Word) (s : State) (hmem : Keeps qs s) : OutKeeps qs (csrWrite path o v s) := by
  unfold csrWrite
  try dsimp only
  repeat' first
    | intro _ | with_reducible assumption | with_reducible apply csrPut_keeps | with_reducible apply arrive_keeps | with_reducible apply outKeeps_next
    | with_reducible apply outKeeps_fault | with_reducible apply keeps_ite
    | fail_if_no_progress (with_reducible refine keeps_mk (h := ?_) (h4 := rfl) (h5 := rfl) ..) | with_reducible rfl | split | dsimp only
theorem landPosted_keeps (d : Nat) (s : State) (hmem : Keeps qs s) : OutKeeps qs (landPosted d s) := by
  unfold landPosted
  try dsimp only
  repeat' first
    | intro _ | with_reducible assumption | with_reducible apply csrPut_keeps | with_reducible apply bumpF_keeps | with_reducible apply outKeeps_next
    | with_reducible apply outKeeps_fault | with_reducible apply keeps_ite
    | fail_if_no_progress (with_reducible refine keeps_mk (h := ?_) (h4 := rfl) (h5 := rfl) ..) | with_reducible rfl | split | dsimp only
theorem landHeld_keeps (d : Nat) (a : CsrAcc) (s : State) (hmem : Keeps qs s) : OutKeeps qs (landHeld d a s) := by
  unfold landHeld
  try dsimp only
  repeat' first
    | intro _ | with_reducible assumption | with_reducible apply andThen_keeps | with_reducible apply accDo_keeps | with_reducible apply accOff_keeps
    | with_reducible apply drain_keeps | with_reducible apply outKeeps_next | with_reducible apply outKeeps_fault | with_reducible apply keeps_ite
    | fail_if_no_progress (with_reducible refine keeps_mk (h := ?_) (h4 := rfl) (h5 := rfl) ..) | with_reducible rfl | split | dsimp only
theorem writeCrossed_keeps (d : Nat) (s : State) (hmem : Keeps qs s) : OutKeeps qs (writeCrossed d s) := by
  unfold writeCrossed
  try dsimp only
  repeat' first
    | intro _ | with_reducible assumption | with_reducible apply landPosted_keeps | with_reducible apply landHeld_keeps
    | with_reducible apply outKeeps_next | with_reducible apply outKeeps_fault | with_reducible apply keeps_ite
    | fail_if_no_progress (with_reducible refine keeps_mk (h := ?_) (h4 := rfl) (h5 := rfl) ..) | with_reducible rfl | split | dsimp only
theorem readCrossed_keeps (d : Nat) (s : State) (hmem : Keeps qs s) : OutKeeps qs (readCrossed d s) := by
  unfold readCrossed
  try dsimp only
  repeat' first
    | intro _ | with_reducible assumption | with_reducible apply andThen_keeps | with_reducible apply landPosted_keeps
    | with_reducible apply landHeld_keeps | with_reducible apply outKeeps_next | with_reducible apply outKeeps_fault | with_reducible apply keeps_ite
    | fail_if_no_progress (with_reducible refine keeps_mk (h := ?_) (h4 := rfl) (h5 := rfl) ..) | with_reducible rfl | split | dsimp only
theorem abandoned_keeps (a : CsrAcc) (s : State) (hmem : Keeps qs s) : Keeps qs (abandoned a s) := by
  unfold abandoned
  try dsimp only
  repeat' first
    | intro _ | with_reducible assumption | with_reducible apply raise_keeps | with_reducible apply setF_keeps | with_reducible apply bumpF_keeps
    | dsimp only
theorem accessAbandon_keeps (d : Nat) (s : State) (hmem : Keeps qs s) : OutKeeps qs (accessAbandon d s) := by
  unfold accessAbandon
  try dsimp only
  repeat' first
    | intro _ | with_reducible assumption | with_reducible apply abandoned_keeps | with_reducible apply accDone_keeps
    | with_reducible apply drain_keeps | with_reducible apply outKeeps_next | with_reducible apply outKeeps_fault | with_reducible apply keeps_ite
    | fail_if_no_progress (with_reducible refine keeps_mk (h := ?_) (h4 := rfl) (h5 := rfl) ..) | with_reducible rfl | split | dsimp only
theorem coreCsr_keeps (wr : Bool) (c : Fin 44) (w : BitVec 22) (s : State) (hmem : Keeps qs s) : OutKeeps qs (coreCsr wr c w s) := by
  unfold coreCsr
  try dsimp only
  repeat' first
    | intro _ | with_reducible assumption | with_reducible apply faultHere_keeps | with_reducible apply andThen_keeps
    | with_reducible apply csrPut_keeps | with_reducible apply retire_keeps | with_reducible apply csrRead_keeps | with_reducible apply setCore_keeps
    | with_reducible apply arrive_keeps | with_reducible apply outKeeps_next | with_reducible apply outKeeps_fault | with_reducible apply keeps_ite
    | with_reducible apply keeps_id | fail_if_no_progress (with_reducible refine keeps_mk (h := ?_) (h4 := rfl) (h5 := rfl) ..) | with_reducible rfl
    | split | dsimp only
theorem arriveAll_keeps : ∀ (l : List CsrAcc) (s : State), Keeps qs s → OutKeeps qs (arriveAll l s)
  | [], s, h => h
  | a :: l, s, h => by unfold arriveAll; exact andThen_keeps _ _ (arrive_keeps a s h) (arriveAll_keeps l)
theorem halterRd_keeps (m : HalMsg) (s : State) (hmem : Keeps qs s) : OutKeeps qs (halterRd m s) := by
  unfold halterRd
  try dsimp only
  repeat' first
    | intro _ | with_reducible assumption | with_reducible apply arriveAll_keeps | with_reducible apply outKeeps_next
    | with_reducible apply outKeeps_fault | with_reducible apply keeps_ite
    | fail_if_no_progress (with_reducible refine keeps_mk (h := ?_) (h4 := rfl) (h5 := rfl) ..) | with_reducible rfl | split | dsimp only
theorem halterWr_keeps (m : HalMsg) (s : State) (hmem : Keeps qs s) : OutKeeps qs (halterWr m s) := by
  unfold halterWr
  try dsimp only
  repeat' first
    | intro _ | with_reducible assumption | with_reducible apply arriveAll_keeps | with_reducible apply outKeeps_next
    | with_reducible apply outKeeps_fault | with_reducible apply keeps_ite | split | dsimp only
theorem halterRsp_keeps (s : State) (hmem : Keeps qs s) : Keeps qs (halterRsp s) := by
  unfold halterRsp
  try dsimp only
  repeat' first
    | intro _ | with_reducible assumption | with_reducible apply halPut_keeps
    | fail_if_no_progress (with_reducible refine keeps_mk (h := ?_) (h4 := rfl) (h5 := rfl) ..) | with_reducible rfl | split | dsimp only
theorem answerWake_keeps (fd : Nat) (m : Msg) (take : State → State) (s : State) (htake : ∀ t, Keeps qs t → Keeps qs (take t)) (hmem : Keeps qs s) : Keeps qs (answerWake fd m take s) := by
  unfold answerWake
  try dsimp only
  repeat' first
    | intro _ | with_reducible assumption | with_reducible apply ckpWake_keeps | with_reducible apply htake | with_reducible apply keeps_ite | split
    | dsimp only
theorem memMsg_keeps (opc fd : Nat) (m : Msg) (s : State) (hmem : Keeps qs s) : Keeps qs (memMsg opc fd m s) := by
  unfold memMsg
  try dsimp only
  repeat' first
    | intro _ | with_reducible assumption | with_reducible apply ingress_keeps | with_reducible apply onRd_keeps
    | with_reducible apply answerWake_keeps | with_reducible apply onRdrsp_keeps | with_reducible apply onWr_keeps
    | with_reducible apply onWrack_keeps | with_reducible apply onNack_keeps | with_reducible apply keeps_ite
    | fail_if_no_progress (with_reducible refine keeps_mk (h := ?_) (h4 := rfl) (h5 := rfl) ..) | with_reducible rfl | split | dsimp only
theorem expire_keeps (fd : Nat) (t : BitVec 15) (s : State) (hmem : Keeps qs s) : Keeps qs (expire fd t s) := by
  unfold expire
  try dsimp only
  repeat' first
    | intro _ | with_reducible assumption | with_reducible apply deadExpiry_keeps | with_reducible apply ckpDead_keeps
    | with_reducible apply keeps_ite | fail_if_no_progress (with_reducible refine keeps_mk (h := ?_) (h4 := rfl) (h5 := rfl) ..) | with_reducible rfl
    | split | dsimp only
theorem decideOfSlots_keeps (l : List Slot) (s : State) (hmem : Keeps qs s) : Keeps qs (decideOfSlots l s) := by
  unfold decideOfSlots
  try dsimp only
  repeat' first
    | intro _ | with_reducible assumption | with_reducible apply decideMsg_keeps | with_reducible apply voteCheck_keeps
    | with_reducible apply keeps_ite | fail_if_no_progress (with_reducible refine keeps_mk (h := ?_) (h4 := rfl) (h5 := rfl) ..) | with_reducible rfl
    | split | dsimp only
theorem colDeliver_keeps (h : MsgHdr) (x : Slot) (data : List Slot) (s : State) (hmem : Keeps qs s) : Keeps qs (colDeliver h x data s) := by
  unfold colDeliver
  try dsimp only
  repeat' first
    | intro _ | with_reducible assumption | with_reducible apply colArrive_keeps | with_reducible apply progressTake_keeps
    | with_reducible apply onAbort_keeps | with_reducible apply onPrepare_keeps | with_reducible apply onReady_keeps | with_reducible apply onGo_keeps
    | with_reducible apply onAdopt_keeps | with_reducible apply onVote_keeps | with_reducible apply decideOfSlots_keeps
    | fail_if_no_progress (with_reducible refine keeps_mk (h := ?_) (h4 := rfl) (h5 := rfl) ..) | with_reducible rfl | split | dsimp only
theorem slotDeliver_keeps (p : Nat) (m : Msg) (s : State) (hmem : Keeps qs s) : Keeps qs (slotDeliver p m s) := by
  unfold slotDeliver
  try dsimp only
  repeat' first
    | intro _ | with_reducible assumption | with_reducible apply syncRequest_keeps | with_reducible apply syncResponse_keeps
    | with_reducible apply colDeliver_keeps | with_reducible apply keeps_ite
    | fail_if_no_progress (with_reducible refine keeps_mk (h := ?_) (h4 := rfl) (h5 := rfl) ..) | with_reducible rfl | split | dsimp only
theorem deliver_keeps (p : Nat) (m : Msg) (s : State) (hmem : Keeps qs s) : Keeps qs (deliver p m s) := by
  unfold deliver
  try dsimp only
  repeat' first
    | intro _ | with_reducible assumption | with_reducible apply memMsg_keeps | with_reducible apply ingress_keeps
    | with_reducible apply slotDeliver_keeps | with_reducible apply keeps_ite | split | dsimp only
theorem routeFrameIn_keeps (r typ : Nat) (f : RouteFrame) (body : State → State) (s : State) (hbody : ∀ t, Keeps qs t → Keeps qs (body t)) (hmem : Keeps qs s) : Keeps qs (routeFrameIn r typ f body s) := by
  unfold routeFrameIn
  try dsimp only
  repeat' first
    | intro _ | with_reducible assumption | with_reducible apply bumpF_keeps | with_reducible apply addPair_keeps | with_reducible apply hbody
    | with_reducible apply keeps_ite | split | dsimp only
theorem routeRelease_keeps (fd : Nat) (f : RouteFrame) (s : State) (hmem : Keeps qs s) : Keeps qs (routeRelease fd f s) := by
  unfold routeRelease
  try dsimp only
  repeat' first
    | intro _ | with_reducible assumption | with_reducible apply routeFlush_keeps | with_reducible apply setPeer_keeps
    | fail_if_no_progress (with_reducible refine keeps_mk (h := ?_) (h4 := rfl) (h5 := rfl) ..) | with_reducible rfl | split | dsimp only
theorem routeAckSend_keeps (r : Nat) (peer : BitVec 16) (s : State) (hmem : Keeps qs s) : Keeps qs (routeAckSend r peer s) := by
  unfold routeAckSend
  try dsimp only
  repeat' first
    | intro _ | with_reducible assumption | with_reducible apply routeOut_keeps | dsimp only
theorem routeData_keeps (r : Nat) (f : RouteFrame) (s : State) (hmem : Keeps qs s) : Keeps qs (routeData r f s) := by
  unfold routeData
  try dsimp only
  repeat' first
    | intro _ | with_reducible assumption | with_reducible apply routeFrameIn_keeps | with_reducible apply routeRelease_keeps
    | with_reducible apply peerRoom_keeps | with_reducible apply routeAckSend_keeps | with_reducible apply bumpF_keeps
    | with_reducible apply setPeer_keeps | with_reducible apply deliver_keeps | with_reducible apply keeps_ite | with_reducible apply keeps_foldl
    | fail_if_no_progress (with_reducible refine keeps_mk (h := ?_) (h4 := rfl) (h5 := rfl) ..) | with_reducible rfl | split | dsimp only
theorem routeAnnounce_keeps (r : Nat) (s : State) (hmem : Keeps qs s) : Keeps qs (routeAnnounce r s) := by
  unfold routeAnnounce
  try dsimp only
  repeat' first
    | intro _ | with_reducible assumption | with_reducible apply emit_keeps | with_reducible apply keeps_ite | split | dsimp only
theorem routeRto_keeps (fd : Nat) (peer : BitVec 16) (q : BitVec 32) (s : State) (hmem : Keeps qs s) : Keeps qs (routeRto fd peer q s) := by
  unfold routeRto
  try dsimp only
  repeat' first
    | intro _ | with_reducible assumption | with_reducible apply routeUnreachable_keeps | with_reducible apply setPeer_keeps
    | with_reducible apply routeOut_keeps | with_reducible apply bumpF_keeps | with_reducible apply keeps_ite
    | fail_if_no_progress (with_reducible refine keeps_mk (h := ?_) (h4 := rfl) (h5 := rfl) ..) | with_reducible rfl | split | dsimp only
theorem halDeliver_keeps (m : HalMsg) (s : State) (hmem : Keeps qs s) : OutKeeps qs (halDeliver m s) := by
  unfold halDeliver
  try dsimp only
  repeat' first
    | intro _ | with_reducible assumption | with_reducible apply halAccept_keeps | with_reducible apply halSnooped_keeps
    | with_reducible apply onSnoopRsp_keeps | with_reducible apply afterSnoop_keeps | with_reducible apply halWb_keeps
    | with_reducible apply halComplete_keeps | with_reducible apply halAnswered_keeps | with_reducible apply halterRd_keeps
    | with_reducible apply halterWr_keeps | with_reducible apply halNack_keeps | with_reducible apply outKeeps_next
    | with_reducible apply outKeeps_fault | fail_if_no_progress (with_reducible refine keeps_mk (h := ?_) (h4 := rfl) (h5 := rfl) ..)
    | with_reducible rfl | split | dsimp only
theorem halDeliverAll_keeps : ∀ (l : List HalMsg) (s : State), Keeps qs s → OutKeeps qs (halDeliverAll l s)
  | [], s, h => h
  | a :: l, s, h => by unfold halDeliverAll; exact andThen_keeps _ _ (halDeliver_keeps a s h) (halDeliverAll_keeps l)
theorem flitDiscard_keeps (p : Nat) (s : State) (hmem : Keeps qs s) : Keeps qs (flitDiscard p s) := by
  unfold flitDiscard
  try dsimp only
  repeat' first
    | intro _ | with_reducible assumption | with_reducible apply sendIdle_keeps | with_reducible apply setLink_keeps
    | fail_if_no_progress (with_reducible refine keeps_mk (h := ?_) (h4 := rfl) (h5 := rfl) ..) | with_reducible rfl | dsimp only
theorem flitHeader_keeps (p : Nat) (f : Flit) (s : State) (hmem : Keeps qs s) : Keeps qs (flitHeader p f s) := by
  unfold flitHeader
  try dsimp only
  repeat' first
    | intro _ | with_reducible assumption | with_reducible apply setLink_keeps | with_reducible apply linkFlush_keeps
    | with_reducible apply portReplay_keeps | with_reducible apply halReplay_keeps | with_reducible apply keeps_ite
    | fail_if_no_progress (with_reducible refine keeps_mk (h := ?_) (h4 := rfl) (h5 := rfl) ..) | with_reducible rfl | split | dsimp only
theorem creditOwed_keeps (p : Nat) (b : LinkMsg) (s : State) (hmem : Keeps qs s) : Keeps qs (creditOwed p b s) := by
  unfold creditOwed
  try dsimp only
  repeat' first
    | intro _ | with_reducible assumption | with_reducible apply setLink_keeps
    | fail_if_no_progress (with_reducible refine keeps_mk (h := ?_) (h4 := rfl) (h5 := rfl) ..) | with_reducible rfl | dsimp only
theorem portTake_keeps (p : Nat) (m : Msg) (s : State) (hmem : Keeps qs s) : Keeps qs (portTake p m s) := by
  unfold portTake
  try dsimp only
  repeat' first
    | intro _ | with_reducible assumption | with_reducible apply creditOwed_keeps | with_reducible apply portFar_keeps
    | with_reducible apply deliver_keeps | with_reducible apply addPair_keeps | with_reducible apply keeps_ite | split | dsimp only
theorem flitBody_keeps (p : Nat) (f : Flit) (s : State) (hmem : Keeps qs s) : OutKeeps qs (flitBody p f s) := by
  unfold flitBody
  try dsimp only
  repeat' first
    | intro _ | with_reducible assumption | with_reducible apply portTake_keeps | with_reducible apply setLink_keeps
    | with_reducible apply halDeliverAll_keeps | with_reducible apply creditOwed_keeps | with_reducible apply outKeeps_next
    | with_reducible apply outKeeps_fault | with_reducible apply keeps_ite | with_reducible apply keeps_foldl
    | fail_if_no_progress (with_reducible refine keeps_mk (h := ?_) (h4 := rfl) (h5 := rfl) ..) | with_reducible rfl | split | dsimp only
theorem halRevive_keeps (p : Nat) (s : State) (hmem : Keeps qs s) : Keeps qs (halRevive p s) := by
  unfold halRevive
  try dsimp only
  repeat' first
    | intro _ | with_reducible assumption | with_reducible apply setF_keeps | with_reducible apply keeps_ite
    | fail_if_no_progress (with_reducible refine keeps_mk (h := ?_) (h4 := rfl) (h5 := rfl) ..) | with_reducible rfl | split | dsimp only
theorem fecCount_keeps (p : Nat) (s : State) (hmem : Keeps qs s) : Keeps qs (fecCount p s) := by
  unfold fecCount
  try dsimp only
  repeat' first
    | intro _ | with_reducible assumption | with_reducible apply setLink_keeps | with_reducible apply keeps_ite
    | fail_if_no_progress (with_reducible refine keeps_mk (h := ?_) (h4 := rfl) (h5 := rfl) ..) | with_reducible rfl | split | dsimp only
theorem flitReceive_keeps (p : Nat) (f : Flit) (s : State) (hmem : Keeps qs s) : OutKeeps qs (flitReceive p f s) := by
  unfold flitReceive
  try dsimp only
  repeat' first
    | intro _ | with_reducible assumption | with_reducible apply fecCount_keeps | with_reducible apply flitDiscard_keeps
    | with_reducible apply bumpF_keeps | with_reducible apply halRevive_keeps | with_reducible apply flitHeader_keeps
    | with_reducible apply andThen_keeps | with_reducible apply flitBody_keeps | with_reducible apply sendIdle_keeps
    | with_reducible apply outKeeps_next | with_reducible apply outKeeps_fault | with_reducible apply keeps_ite | split | dsimp only
theorem inputOut_keeps (mv : Nat) (s : State) (hmem : Keeps qs s) : Keeps qs (inputOut mv s) := by
  unfold inputOut
  try dsimp only
  repeat' first
    | intro _ | with_reducible assumption | with_reducible apply stageWarn_keeps | with_reducible apply raise_keeps | with_reducible apply bumpF_keeps
    | with_reducible apply keeps_ite | split | dsimp only
theorem inputLock_keeps (mv : Nat) (s : State) (hmem : Keeps qs s) : Keeps qs (inputLock mv s) := by
  unfold inputLock
  try dsimp only
  repeat' first
    | intro _ | with_reducible assumption | with_reducible apply stageFail_keeps | with_reducible apply keeps_ite | split | dsimp only
theorem strapSample_keeps (a b c : BitVec 7) (s : State) (hmem : Keeps qs s) : Keeps qs (strapSample a b c s) := by
  unfold strapSample
  try dsimp only
  repeat' first
    | intro _ | with_reducible assumption | with_reducible apply setF_keeps | with_reducible apply csrSet_keeps | with_reducible apply ownSlot_keeps
    | with_reducible apply raise_keeps | with_reducible apply setPort_keeps | with_reducible apply keeps_ite | with_reducible apply keeps_foldl
    | fail_if_no_progress (with_reducible refine keeps_mk (h := ?_) (h4 := rfl) (h5 := rfl) ..) | with_reducible rfl | split | dsimp only
theorem strapChange_keeps (v : BitVec 7) (s : State) (hmem : Keeps qs s) : Keeps qs (strapChange v s) := by
  unfold strapChange
  try dsimp only
  repeat' first
    | intro _ | with_reducible assumption | with_reducible apply raise_keeps | with_reducible apply bumpF_keeps | with_reducible apply keeps_ite
    | fail_if_no_progress (with_reducible refine keeps_mk (h := ?_) (h4 := rfl) (h5 := rfl) ..) | with_reducible rfl | split | dsimp only
theorem refMeasure_keeps (off : BitVec 16) (present : Bool) (s : State) (hmem : Keeps qs s) : Keeps qs (refMeasure off present s) := by
  unfold refMeasure
  try dsimp only
  repeat' first
    | intro _ | with_reducible assumption | with_reducible apply setF_keeps | with_reducible apply keeps_ite
    | fail_if_no_progress (with_reducible refine keeps_mk (h := ?_) (h4 := rfl) (h5 := rfl) ..) | with_reducible rfl | split | dsimp only
theorem refSwitch_keeps (s : State) (hmem : Keeps qs s) : Keeps qs (refSwitch s) := by
  unfold refSwitch
  try dsimp only
  repeat' first
    | intro _ | with_reducible assumption | with_reducible apply raise_keeps | with_reducible apply bumpF_keeps | with_reducible apply setF_keeps
    | with_reducible apply keeps_ite | split | dsimp only
theorem refReturn_keeps (s : State) (hmem : Keeps qs s) : Keeps qs (refReturn s) := by
  unfold refReturn
  try dsimp only
  repeat' first
    | intro _ | with_reducible assumption | with_reducible apply raise_keeps | with_reducible apply setF_keeps | with_reducible apply keeps_ite
    | split | dsimp only
theorem sbWrite_keeps (off v : Word) (s : State) (hmem : Keeps qs s) : OutKeeps qs (sbWrite off v s) := by
  unfold sbWrite
  try dsimp only
  repeat' first
    | intro _ | with_reducible assumption | with_reducible apply arrive_keeps | with_reducible apply outKeeps_next
    | with_reducible apply outKeeps_fault | with_reducible apply keeps_ite | split | dsimp only
theorem sbOffset_keeps (off : Word) (s : State) (hmem : Keeps qs s) : Keeps qs (sbOffset off s) := by
  unfold sbOffset
  try dsimp only
  repeat' first
    | intro _ | with_reducible assumption | with_reducible apply keeps_ite
    | fail_if_no_progress (with_reducible refine keeps_mk (h := ?_) (h4 := rfl) (h5 := rfl) ..) | with_reducible rfl | split | dsimp only
theorem sbAnswer_keeps (s : State) (hmem : Keeps qs s) : Keeps qs (sbAnswer s) := by
  unfold sbAnswer
  try dsimp only
  repeat' first
    | intro _ | with_reducible assumption | with_reducible apply emit_keeps
    | fail_if_no_progress (with_reducible refine keeps_mk (h := ?_) (h4 := rfl) (h5 := rfl) ..) | with_reducible rfl | split | dsimp only
theorem sbRead_keeps (s : State) (hmem : Keeps qs s) : OutKeeps qs (sbRead s) := by
  unfold sbRead
  try dsimp only
  repeat' first
    | intro _ | with_reducible assumption | with_reducible apply sbAnswer_keeps | with_reducible apply andThen_keeps
    | with_reducible apply arrive_keeps | with_reducible apply outKeeps_next | with_reducible apply outKeeps_fault | with_reducible apply keeps_ite
    | split | dsimp only
theorem sbEventSeq_keeps (s : State) (hmem : Keeps qs s) : Keeps qs (sbEventSeq s) := by
  unfold sbEventSeq
  try dsimp only
  repeat' first
    | intro _ | with_reducible assumption | with_reducible apply emit_keeps | with_reducible apply keeps_ite
    | fail_if_no_progress (with_reducible refine keeps_mk (h := ?_) (h4 := rfl) (h5 := rfl) ..) | with_reducible rfl | split | dsimp only
theorem sbReset_keeps (s : State) (hmem : Keeps qs s) : Keeps qs (sbReset s) := by
  unfold sbReset
  try dsimp only
  repeat' first
    | intro _ | with_reducible assumption | fail_if_no_progress (with_reducible refine keeps_mk (h := ?_) (h4 := rfl) (h5 := rfl) ..)
    | with_reducible rfl | dsimp only
theorem sbStuck_keeps (s : State) (hmem : Keeps qs s) : Keeps qs (sbStuck s) := by
  unfold sbStuck
  try dsimp only
  repeat' first
    | intro _ | with_reducible assumption | with_reducible apply raise_keeps | with_reducible apply bumpF_keeps | with_reducible apply sbReset_keeps
    | with_reducible apply keeps_ite | split | dsimp only
theorem sbAddress_keeps (a : BitVec 7) (s : State) (hmem : Keeps qs s) : Keeps qs (sbAddress a s) := by
  unfold sbAddress
  try dsimp only
  repeat' first
    | intro _ | with_reducible assumption | with_reducible apply keeps_ite
    | fail_if_no_progress (with_reducible refine keeps_mk (h := ?_) (h4 := rfl) (h5 := rfl) ..) | with_reducible rfl | split | dsimp only
theorem sbFree_keeps (i n : Nat) (s : State) (hmem : Keeps qs s) : Keeps qs (sbFree i n s) := by
  unfold sbFree
  try dsimp only
  repeat' first
    | intro _ | with_reducible assumption | with_reducible apply emit_keeps | with_reducible apply keeps_ite | split | dsimp only
theorem sbEntdaa_keeps (a : BitVec 7) (s : State) (hmem : Keeps qs s) : Keeps qs (sbEntdaa a s) := by
  unfold sbEntdaa
  try dsimp only
  repeat' first
    | intro _ | with_reducible assumption | with_reducible apply sbAddress_keeps | with_reducible apply sbFree_keeps | with_reducible apply keeps_ite
    | split | dsimp only
theorem sbEvents_keeps (on : Bool) (s : State) (hmem : Keeps qs s) : Keeps qs (sbEvents on s) := by
  unfold sbEvents
  try dsimp only
  repeat' first
    | intro _ | with_reducible assumption | with_reducible apply keeps_ite
    | fail_if_no_progress (with_reducible refine keeps_mk (h := ?_) (h4 := rfl) (h5 := rfl) ..) | with_reducible rfl | split | dsimp only
theorem sbRstact_keeps (action : Byte) (s : State) (hmem : Keeps qs s) : Keeps qs (sbRstact action s) := by
  unfold sbRstact
  try dsimp only
  repeat' first
    | intro _ | with_reducible assumption | with_reducible apply sbReset_keeps | with_reducible apply warmRequest_keeps
    | with_reducible apply keeps_ite | split | dsimp only
theorem tapLoad_keeps (i : Nat) (s : State) (hmem : Keeps qs s) : Keeps qs (tapLoad i s) := by
  unfold tapLoad
  try dsimp only
  repeat' first
    | intro _ | with_reducible assumption | with_reducible apply setF_keeps
    | fail_if_no_progress (with_reducible refine keeps_mk (h := ?_) (h4 := rfl) (h5 := rfl) ..) | with_reducible rfl | dsimp only
theorem tapIdcode_keeps (s : State) (hmem : Keeps qs s) : Keeps qs (tapIdcode s) := by
  unfold tapIdcode
  try dsimp only
  repeat' first
    | intro _ | with_reducible assumption | with_reducible apply emit_keeps | with_reducible apply tapLoad_keeps | with_reducible apply keeps_ite
    | split | dsimp only
theorem tapSample_keeps (s : State) (hmem : Keeps qs s) : Keeps qs (tapSample s) := by
  unfold tapSample
  try dsimp only
  repeat' first
    | intro _ | with_reducible assumption | with_reducible apply emit_keeps | with_reducible apply tapLoad_keeps | with_reducible apply keeps_ite
    | fail_if_no_progress (with_reducible refine keeps_mk (h := ?_) (h4 := rfl) (h5 := rfl) ..) | with_reducible rfl | split | dsimp only
theorem tapExtest_keeps (s : State) (hmem : Keeps qs s) : Keeps qs (tapExtest s) := by
  unfold tapExtest
  try dsimp only
  repeat' first
    | intro _ | with_reducible assumption | with_reducible apply tapLoad_keeps | with_reducible apply raise_keeps | with_reducible apply keeps_ite
    | split | dsimp only
theorem tapIdle_keeps (s : State) (hmem : Keeps qs s) : Keeps qs (tapIdle s) := by
  unfold tapIdle
  try dsimp only
  repeat' first
    | intro _ | with_reducible assumption | with_reducible apply raise_keeps | with_reducible apply tapReset_keeps | with_reducible apply keeps_ite
    | split | dsimp only
theorem seqFlags_keeps (c fl : Nat) (s : State) (hmem : Keeps qs s) : Keeps qs (seqFlags c fl s) := by
  unfold seqFlags
  try dsimp only
  repeat' first
    | intro _ | with_reducible assumption | with_reducible apply setF_keeps | with_reducible apply keeps_ite | split | dsimp only
theorem shortVec_keeps (op : Nat) (ok : Bool) (f : Nat → Nat → Nat → Nat × Nat) (c : Fin 44) (w : BitVec 22) (s : State) (hmem : Keeps qs s) : Keeps qs (shortVec op ok f c w s) := by
  unfold shortVec
  try dsimp only
  repeat' first
    | intro _ | with_reducible assumption | with_reducible apply insn_keeps | with_reducible apply seqFlags_keeps | with_reducible apply retire_keeps
    | dsimp only
theorem svElem_keeps (op opc : Nat) (c : Fin 44) (w : BitVec 22) (s : State) (hmem : Keeps qs s) : Keeps qs (svElem op opc c w s) := by
  unfold svElem
  try dsimp only
  repeat' first
    | intro _ | with_reducible assumption | with_reducible apply shortVec_keeps | dsimp only
theorem tick_keeps (s : State) (hmem : Keeps qs s) : Keeps qs (tick s) := by
  unfold tick
  try dsimp only
  repeat' first
    | intro _ | with_reducible assumption | with_reducible apply countTick_keeps | with_reducible apply ckpPoll_keeps | with_reducible apply keeps_ite
    | fail_if_no_progress (with_reducible refine keeps_mk (h := ?_) (h4 := rfl) (h5 := rfl) ..) | with_reducible rfl | split | dsimp only

end Sys2Proof.Machine
end

