-- ==== Sys2Proof/Laws/State.lean ====
section
/-! SUPPORT. What the state updates change: one lemma per field per update, and what a register field, a core, an engine and a
channel read after a write. -/

namespace Sys2Proof.Machine

/-! ### Bit fields -/

theorem putBits_eq (v lo w x : Nat) : putBits v lo w x = 2 ^ lo * (2 ^ w * (v / 2 ^ lo / 2 ^ w) + x % 2 ^ w) + v % 2 ^ lo := by
  have h1 := Nat.div_add_mod v (2 ^ lo)
  have h2 := Nat.div_add_mod (v / 2 ^ lo) (2 ^ w)
  unfold putBits bitsAt
  simp only [Nat.shiftRight_eq_div_pow, Nat.shiftLeft_eq]
  have h3 : v = 2 ^ lo * (2 ^ w * (v / 2 ^ lo / 2 ^ w)) + 2 ^ lo * (v / 2 ^ lo % 2 ^ w) + v % 2 ^ lo := by
    rw [← Nat.mul_add, h2, h1]
  have h4 : v / 2 ^ lo % 2 ^ w * 2 ^ lo = 2 ^ lo * (v / 2 ^ lo % 2 ^ w) := Nat.mul_comm _ _
  rw [h4, Nat.mul_add, Nat.mul_comm (x % 2 ^ w)]
  omega

/-- A field put into a number is read back. -/
@[simp] theorem bitsAt_putBits (v lo w x : Nat) : bitsAt (putBits v lo w x) lo w = x % 2 ^ w := by
  rw [putBits_eq, bitsAt, Nat.shiftRight_eq_div_pow, Nat.add_comm, Nat.add_mul_div_left _ _ (Nat.two_pow_pos lo),
    Nat.div_eq_of_lt (Nat.mod_lt _ (Nat.two_pow_pos lo)), Nat.zero_add, Nat.mul_add_mod, Nat.mod_mod]

/-- A field put into a number that fits `n` bits fits too. -/
theorem putBits_lt (v lo w x n : Nat) (hv : v < 2 ^ n) (hf : lo + w ≤ n) : putBits v lo w x < 2 ^ n := by
  rw [putBits_eq]
  have h1 : v / 2 ^ lo / 2 ^ w < 2 ^ (n - (lo + w)) := by
    rw [Nat.div_div_eq_div_mul, ← Nat.pow_add]
    apply Nat.div_lt_of_lt_mul
    rw [← Nat.pow_add]
    rwa [show lo + w + (n - (lo + w)) = n by omega]
  have h2 : x % 2 ^ w < 2 ^ w := Nat.mod_lt _ (Nat.two_pow_pos w)
  have h3 : v % 2 ^ lo < 2 ^ lo := Nat.mod_lt _ (Nat.two_pow_pos lo)
  have h4 : 2 ^ w * (v / 2 ^ lo / 2 ^ w) + x % 2 ^ w + 1 ≤ 2 ^ w * 2 ^ (n - (lo + w)) := by
    have := Nat.mul_le_mul_left (2 ^ w) h1
    rw [Nat.mul_succ] at this
    omega
  have h5 := Nat.mul_le_mul_left (2 ^ lo) h4
  rw [Nat.mul_succ] at h5
  have h6 : 2 ^ lo * (2 ^ w * 2 ^ (n - (lo + w))) = 2 ^ n := by
    rw [← Nat.pow_add, ← Nat.pow_add]
    congr 1
    omega
  omega

/-! ### Cores, engines and channels read after a write -/

@[simp] theorem getCore_setCore (c j : Nat) (k : Core) (s : State) : getCore j (setCore c k s) = if j = c then k else getCore j s :=
  sGet_sSet _ _ _ _ _
@[simp] theorem getEng_setEng (c j : Nat) (e : Engine) (s : State) : getEng j (setEng c e s) = if j = c then e else getEng j s :=
  sGet_sSet _ _ _ _ _
@[simp] theorem getChan_setChan (a b c d : Nat) (x : Chan) (s : State) :
    getChan a b (setChan c d x s) = if a * 32 + b = c * 32 + d then x else getChan a b s :=
  sGet_sSet _ _ _ _ _
@[simp] theorem getG_setG_same (k : Core) (n : Nat) (v : DWord) : getG (setG n v k) n = if n = 0 then 0 else v := by
  unfold setG getG
  split <;> simp
theorem getG_setG (k : Core) (n j : Nat) (v : DWord) : getG (setG n v k) j = if j = 0 then 0 else if j = n then v else getG k j := by
  unfold setG getG
  by_cases hn : n = 0 <;> by_cases hj : j = 0 <;> simp_all
@[simp] theorem getH_setH (k : Core) (n j : Nat) (v : BitVec 256) : getH (setH n v k) j = if j = n then v else getH k j :=
  sGet_sSet _ _ _ _ _
@[simp] theorem getS_putSum (k : Core) (n j : Nat) (v : BitVec 128) : getS (putSum n v k) j = if j = n then v else getS k j :=
  sGet_sSet _ _ _ _ _

/-! ### Register fields read after a write -/

/-- A CSR word reads what was stored; the other offsets read as before. -/
@[simp] theorem csrGet_csrSet (d off : Nat) (v : Word) (s : State) : csrGet d off (csrSet d off v s) = v := by
  simp [csrGet, csrSet]
theorem csrGet_csrSet_other (d e off j : Nat) (v : Word) (s : State) (h : j ≠ off) : csrGet e j (csrSet d off v s) = csrGet e j s := by
  have hs : ∀ (x y : Word) (k : Nat) (m : Store Word), k ≠ off → sGet x (sSet y off v m) k = sGet x m k := by
    intro x y k m hk
    rw [sGet_eq_sFind, sGet_eq_sFind]
    unfold sSet
    split
    · rw [sFind_sDel, if_neg hk]
    · rw [sFind_sIns, if_neg hk]
  exact hs _ _ _ _ h

/-- A register field reads what was put into it, modulo its width. -/
theorem getF_setF (base v : Nat) (f : Fld) (s : State) (hf : f.lo + f.w ≤ 32) : getF base f (setF base f v s) = v % 2 ^ f.w := by
  unfold getF setF
  rw [csrGet_csrSet, BitVec.toNat_ofNat, Nat.mod_eq_of_lt (putBits_lt _ _ _ _ 32 (BitVec.isLt _) hf), bitsAt_putBits]
/-- A field of another register reads as before. -/
theorem getF_setF_other (base b2 v : Nat) (f g : Fld) (s : State) (h : b2 + g.off ≠ base + f.off) :
    getF b2 g (setF base f v s) = getF b2 g s := by
  unfold getF setF
  rw [csrGet_csrSet_other _ _ _ _ _ _ h]

/-! ### One lemma per field per update -/

@[simp] theorem csrSet_pending (d off : Nat) (v : Word) (s : State) : (csrSet d off v s).pending = s.pending := rfl
@[simp] theorem csrSet_fresh (d off : Nat) (v : Word) (s : State) : (csrSet d off v s).fresh = s.fresh := rfl
@[simp] theorem csrSet_ran (d off : Nat) (v : Word) (s : State) : (csrSet d off v s).ran = s.ran := rfl
@[simp] theorem csrSet_pkg (d off : Nat) (v : Word) (s : State) : (csrSet d off v s).pkg = s.pkg := rfl
@[simp] theorem csrSet_prev (d off : Nat) (v : Word) (s : State) : (csrSet d off v s).prev = s.prev := rfl
@[simp] theorem csrSet_cause (d off : Nat) (v : Word) (s : State) : (csrSet d off v s).cause = s.cause := rfl
@[simp] theorem csrSet_rails (d off : Nat) (v : Word) (s : State) : (csrSet d off v s).rails = s.rails := rfl
@[simp] theorem csrSet_count (d off : Nat) (v : Word) (s : State) : (csrSet d off v s).count = s.count := rfl
@[simp] theorem csrSet_counting (d off : Nat) (v : Word) (s : State) : (csrSet d off v s).counting = s.counting := rfl
@[simp] theorem csrSet_root (d off : Nat) (v : Word) (s : State) : (csrSet d off v s).root = s.root := rfl
@[simp] theorem csrSet_log (d off : Nat) (v : Word) (s : State) : (csrSet d off v s).log = s.log := rfl
@[simp] theorem csrSet_stepErr (d off : Nat) (v : Word) (s : State) : (csrSet d off v s).stepErr = s.stepErr := rfl
@[simp] theorem csrSet_freezeF (d off : Nat) (v : Word) (s : State) : (csrSet d off v s).freezeF = s.freezeF := rfl
@[simp] theorem csrSet_cores (d off : Nat) (v : Word) (s : State) : (csrSet d off v s).cores = s.cores := rfl
@[simp] theorem csrSet_starts (d off : Nat) (v : Word) (s : State) : (csrSet d off v s).starts = s.starts := rfl
@[simp] theorem csrSet_ramps (d off : Nat) (v : Word) (s : State) : (csrSet d off v s).ramps = s.ramps := rfl
@[simp] theorem csrSet_engines (d off : Nat) (v : Word) (s : State) : (csrSet d off v s).engines = s.engines := rfl
@[simp] theorem csrSet_hbm (d off : Nat) (v : Word) (s : State) : (csrSet d off v s).hbm = s.hbm := rfl
@[simp] theorem csrSet_hbmBg (d off : Nat) (v : Word) (s : State) : (csrSet d off v s).hbmBg = s.hbmBg := rfl
@[simp] theorem csrSet_poison (d off : Nat) (v : Word) (s : State) : (csrSet d off v s).poison = s.poison := rfl
@[simp] theorem csrSet_depot (d off : Nat) (v : Word) (s : State) : (csrSet d off v s).depot = s.depot := rfl
@[simp] theorem csrSet_depotCtl (d off : Nat) (v : Word) (s : State) : (csrSet d off v s).depotCtl = s.depotCtl := rfl
@[simp] theorem csrSet_tileSram (d off : Nat) (v : Word) (s : State) : (csrSet d off v s).tileSram = s.tileSram := rfl
@[simp] theorem csrSet_vregs (d off : Nat) (v : Word) (s : State) : (csrSet d off v s).vregs = s.vregs := rfl
@[simp] theorem csrSet_masks (d off : Nat) (v : Word) (s : State) : (csrSet d off v s).masks = s.masks := rfl
@[simp] theorem csrSet_chans (d off : Nat) (v : Word) (s : State) : (csrSet d off v s).chans = s.chans := rfl
@[simp] theorem csrSet_rows (d off : Nat) (v : Word) (s : State) : (csrSet d off v s).rows = s.rows := rfl
@[simp] theorem csrSet_spares (d off : Nat) (v : Word) (s : State) : (csrSet d off v s).spares = s.spares := rfl
@[simp] theorem csrSet_fab (d off : Nat) (v : Word) (s : State) : (csrSet d off v s).fab = s.fab := rfl
@[simp] theorem csrSet_links (d off : Nat) (v : Word) (s : State) : (csrSet d off v s).links = s.links := rfl
@[simp] theorem csrSet_peers (d off : Nat) (v : Word) (s : State) : (csrSet d off v s).peers = s.peers := rfl
@[simp] theorem csrSet_hal (d off : Nat) (v : Word) (s : State) : (csrSet d off v s).hal = s.hal := rfl
@[simp] theorem csrSet_out (d off : Nat) (v : Word) (s : State) : (csrSet d off v s).out = s.out := rfl
@[simp] theorem csrSet_dsps (d off : Nat) (v : Word) (s : State) : (csrSet d off v s).dsps = s.dsps := rfl
@[simp] theorem csrSet_imgCore (d off : Nat) (v : Word) (s : State) : (csrSet d off v s).imgCore = s.imgCore := rfl
@[simp] theorem csrSet_imgDsp (d off : Nat) (v : Word) (s : State) : (csrSet d off v s).imgDsp = s.imgDsp := rfl
@[simp] theorem csrSet_slvs (d off : Nat) (v : Word) (s : State) : (csrSet d off v s).slvs = s.slvs := rfl
@[simp] theorem csrSet_imgSlv (d off : Nat) (v : Word) (s : State) : (csrSet d off v s).imgSlv = s.imgSlv := rfl
@[simp] theorem csrSet_sec (d off : Nat) (v : Word) (s : State) : (csrSet d off v s).sec = s.sec := rfl
@[simp] theorem csrSet_upNs (d off : Nat) (v : Word) (s : State) : (csrSet d off v s).upNs = s.upNs := rfl
@[simp] theorem csrSet_totals (d off : Nat) (v : Word) (s : State) : (csrSet d off v s).totals = s.totals := rfl
@[simp] theorem csrSet_ckp (d off : Nat) (v : Word) (s : State) : (csrSet d off v s).ckp = s.ckp := rfl
@[simp] theorem csrSet_col (d off : Nat) (v : Word) (s : State) : (csrSet d off v s).col = s.col := rfl
@[simp] theorem csrSet_imgCol (d off : Nat) (v : Word) (s : State) : (csrSet d off v s).imgCol = s.imgCol := rfl
@[simp] theorem csrSet_launch (d off : Nat) (v : Word) (s : State) : (csrSet d off v s).launch = s.launch := rfl
@[simp] theorem csrSet_ownAbort (d off : Nat) (v : Word) (s : State) : (csrSet d off v s).ownAbort = s.ownAbort := rfl
@[simp] theorem csrSet_pwr (d off : Nat) (v : Word) (s : State) : (csrSet d off v s).pwr = s.pwr := rfl
@[simp] theorem csrSet_sync (d off : Nat) (v : Word) (s : State) : (csrSet d off v s).sync = s.sync := rfl
@[simp] theorem csrSet_dig (d off : Nat) (v : Word) (s : State) : (csrSet d off v s).dig = s.dig := rfl
@[simp] theorem csrSet_pins (d off : Nat) (v : Word) (s : State) : (csrSet d off v s).pins = s.pins := rfl
@[simp] theorem setF_pending (base : Nat) (f : Fld) (v : Nat) (s : State) : (setF base f v s).pending = s.pending := rfl
@[simp] theorem setF_fresh (base : Nat) (f : Fld) (v : Nat) (s : State) : (setF base f v s).fresh = s.fresh := rfl
@[simp] theorem setF_ran (base : Nat) (f : Fld) (v : Nat) (s : State) : (setF base f v s).ran = s.ran := rfl
@[simp] theorem setF_pkg (base : Nat) (f : Fld) (v : Nat) (s : State) : (setF base f v s).pkg = s.pkg := rfl
@[simp] theorem setF_prev (base : Nat) (f : Fld) (v : Nat) (s : State) : (setF base f v s).prev = s.prev := rfl
@[simp] theorem setF_cause (base : Nat) (f : Fld) (v : Nat) (s : State) : (setF base f v s).cause = s.cause := rfl
@[simp] theorem setF_rails (base : Nat) (f : Fld) (v : Nat) (s : State) : (setF base f v s).rails = s.rails := rfl
@[simp] theorem setF_count (base : Nat) (f : Fld) (v : Nat) (s : State) : (setF base f v s).count = s.count := rfl
@[simp] theorem setF_counting (base : Nat) (f : Fld) (v : Nat) (s : State) : (setF base f v s).counting = s.counting := rfl
@[simp] theorem setF_root (base : Nat) (f : Fld) (v : Nat) (s : State) : (setF base f v s).root = s.root := rfl
@[simp] theorem setF_log (base : Nat) (f : Fld) (v : Nat) (s : State) : (setF base f v s).log = s.log := rfl
@[simp] theorem setF_stepErr (base : Nat) (f : Fld) (v : Nat) (s : State) : (setF base f v s).stepErr = s.stepErr := rfl
@[simp] theorem setF_freezeF (base : Nat) (f : Fld) (v : Nat) (s : State) : (setF base f v s).freezeF = s.freezeF := rfl
@[simp] theorem setF_cores (base : Nat) (f : Fld) (v : Nat) (s : State) : (setF base f v s).cores = s.cores := rfl
@[simp] theorem setF_starts (base : Nat) (f : Fld) (v : Nat) (s : State) : (setF base f v s).starts = s.starts := rfl
@[simp] theorem setF_ramps (base : Nat) (f : Fld) (v : Nat) (s : State) : (setF base f v s).ramps = s.ramps := rfl
@[simp] theorem setF_engines (base : Nat) (f : Fld) (v : Nat) (s : State) : (setF base f v s).engines = s.engines := rfl
@[simp] theorem setF_hbm (base : Nat) (f : Fld) (v : Nat) (s : State) : (setF base f v s).hbm = s.hbm := rfl
@[simp] theorem setF_hbmBg (base : Nat) (f : Fld) (v : Nat) (s : State) : (setF base f v s).hbmBg = s.hbmBg := rfl
@[simp] theorem setF_poison (base : Nat) (f : Fld) (v : Nat) (s : State) : (setF base f v s).poison = s.poison := rfl
@[simp] theorem setF_depot (base : Nat) (f : Fld) (v : Nat) (s : State) : (setF base f v s).depot = s.depot := rfl
@[simp] theorem setF_depotCtl (base : Nat) (f : Fld) (v : Nat) (s : State) : (setF base f v s).depotCtl = s.depotCtl := rfl
@[simp] theorem setF_tileSram (base : Nat) (f : Fld) (v : Nat) (s : State) : (setF base f v s).tileSram = s.tileSram := rfl
@[simp] theorem setF_vregs (base : Nat) (f : Fld) (v : Nat) (s : State) : (setF base f v s).vregs = s.vregs := rfl
@[simp] theorem setF_masks (base : Nat) (f : Fld) (v : Nat) (s : State) : (setF base f v s).masks = s.masks := rfl
@[simp] theorem setF_chans (base : Nat) (f : Fld) (v : Nat) (s : State) : (setF base f v s).chans = s.chans := rfl
@[simp] theorem setF_rows (base : Nat) (f : Fld) (v : Nat) (s : State) : (setF base f v s).rows = s.rows := rfl
@[simp] theorem setF_spares (base : Nat) (f : Fld) (v : Nat) (s : State) : (setF base f v s).spares = s.spares := rfl
@[simp] theorem setF_fab (base : Nat) (f : Fld) (v : Nat) (s : State) : (setF base f v s).fab = s.fab := rfl
@[simp] theorem setF_links (base : Nat) (f : Fld) (v : Nat) (s : State) : (setF base f v s).links = s.links := rfl
@[simp] theorem setF_peers (base : Nat) (f : Fld) (v : Nat) (s : State) : (setF base f v s).peers = s.peers := rfl
@[simp] theorem setF_hal (base : Nat) (f : Fld) (v : Nat) (s : State) : (setF base f v s).hal = s.hal := rfl
@[simp] theorem setF_out (base : Nat) (f : Fld) (v : Nat) (s : State) : (setF base f v s).out = s.out := rfl
@[simp] theorem setF_dsps (base : Nat) (f : Fld) (v : Nat) (s : State) : (setF base f v s).dsps = s.dsps := rfl
@[simp] theorem setF_imgCore (base : Nat) (f : Fld) (v : Nat) (s : State) : (setF base f v s).imgCore = s.imgCore := rfl
@[simp] theorem setF_imgDsp (base : Nat) (f : Fld) (v : Nat) (s : State) : (setF base f v s).imgDsp = s.imgDsp := rfl
@[simp] theorem setF_slvs (base : Nat) (f : Fld) (v : Nat) (s : State) : (setF base f v s).slvs = s.slvs := rfl
@[simp] theorem setF_imgSlv (base : Nat) (f : Fld) (v : Nat) (s : State) : (setF base f v s).imgSlv = s.imgSlv := rfl
@[simp] theorem setF_sec (base : Nat) (f : Fld) (v : Nat) (s : State) : (setF base f v s).sec = s.sec := rfl
@[simp] theorem setF_upNs (base : Nat) (f : Fld) (v : Nat) (s : State) : (setF base f v s).upNs = s.upNs := rfl
@[simp] theorem setF_totals (base : Nat) (f : Fld) (v : Nat) (s : State) : (setF base f v s).totals = s.totals := rfl
@[simp] theorem setF_ckp (base : Nat) (f : Fld) (v : Nat) (s : State) : (setF base f v s).ckp = s.ckp := rfl
@[simp] theorem setF_col (base : Nat) (f : Fld) (v : Nat) (s : State) : (setF base f v s).col = s.col := rfl
@[simp] theorem setF_imgCol (base : Nat) (f : Fld) (v : Nat) (s : State) : (setF base f v s).imgCol = s.imgCol := rfl
@[simp] theorem setF_launch (base : Nat) (f : Fld) (v : Nat) (s : State) : (setF base f v s).launch = s.launch := rfl
@[simp] theorem setF_ownAbort (base : Nat) (f : Fld) (v : Nat) (s : State) : (setF base f v s).ownAbort = s.ownAbort := rfl
@[simp] theorem setF_pwr (base : Nat) (f : Fld) (v : Nat) (s : State) : (setF base f v s).pwr = s.pwr := rfl
@[simp] theorem setF_sync (base : Nat) (f : Fld) (v : Nat) (s : State) : (setF base f v s).sync = s.sync := rfl
@[simp] theorem setF_dig (base : Nat) (f : Fld) (v : Nat) (s : State) : (setF base f v s).dig = s.dig := rfl
@[simp] theorem setF_pins (base : Nat) (f : Fld) (v : Nat) (s : State) : (setF base f v s).pins = s.pins := rfl
@[simp] theorem setPair_pending (base : Nat) (lo hi : Fld) (v : Nat) (s : State) : (setPair base lo hi v s).pending = s.pending := rfl
@[simp] theorem setPair_fresh (base : Nat) (lo hi : Fld) (v : Nat) (s : State) : (setPair base lo hi v s).fresh = s.fresh := rfl
@[simp] theorem setPair_ran (base : Nat) (lo hi : Fld) (v : Nat) (s : State) : (setPair base lo hi v s).ran = s.ran := rfl
@[simp] theorem setPair_pkg (base : Nat) (lo hi : Fld) (v : Nat) (s : State) : (setPair base lo hi v s).pkg = s.pkg := rfl
@[simp] theorem setPair_prev (base : Nat) (lo hi : Fld) (v : Nat) (s : State) : (setPair base lo hi v s).prev = s.prev := rfl
@[simp] theorem setPair_cause (base : Nat) (lo hi : Fld) (v : Nat) (s : State) : (setPair base lo hi v s).cause = s.cause := rfl
@[simp] theorem setPair_rails (base : Nat) (lo hi : Fld) (v : Nat) (s : State) : (setPair base lo hi v s).rails = s.rails := rfl
@[simp] theorem setPair_count (base : Nat) (lo hi : Fld) (v : Nat) (s : State) : (setPair base lo hi v s).count = s.count := rfl
@[simp] theorem setPair_counting (base : Nat) (lo hi : Fld) (v : Nat) (s : State) : (setPair base lo hi v s).counting = s.counting := rfl
@[simp] theorem setPair_root (base : Nat) (lo hi : Fld) (v : Nat) (s : State) : (setPair base lo hi v s).root = s.root := rfl
@[simp] theorem setPair_log (base : Nat) (lo hi : Fld) (v : Nat) (s : State) : (setPair base lo hi v s).log = s.log := rfl
@[simp] theorem setPair_stepErr (base : Nat) (lo hi : Fld) (v : Nat) (s : State) : (setPair base lo hi v s).stepErr = s.stepErr := rfl
@[simp] theorem setPair_freezeF (base : Nat) (lo hi : Fld) (v : Nat) (s : State) : (setPair base lo hi v s).freezeF = s.freezeF := rfl
@[simp] theorem setPair_cores (base : Nat) (lo hi : Fld) (v : Nat) (s : State) : (setPair base lo hi v s).cores = s.cores := rfl
@[simp] theorem setPair_starts (base : Nat) (lo hi : Fld) (v : Nat) (s : State) : (setPair base lo hi v s).starts = s.starts := rfl
@[simp] theorem setPair_ramps (base : Nat) (lo hi : Fld) (v : Nat) (s : State) : (setPair base lo hi v s).ramps = s.ramps := rfl
@[simp] theorem setPair_engines (base : Nat) (lo hi : Fld) (v : Nat) (s : State) : (setPair base lo hi v s).engines = s.engines := rfl
@[simp] theorem setPair_hbm (base : Nat) (lo hi : Fld) (v : Nat) (s : State) : (setPair base lo hi v s).hbm = s.hbm := rfl
@[simp] theorem setPair_hbmBg (base : Nat) (lo hi : Fld) (v : Nat) (s : State) : (setPair base lo hi v s).hbmBg = s.hbmBg := rfl
@[simp] theorem setPair_poison (base : Nat) (lo hi : Fld) (v : Nat) (s : State) : (setPair base lo hi v s).poison = s.poison := rfl
@[simp] theorem setPair_depot (base : Nat) (lo hi : Fld) (v : Nat) (s : State) : (setPair base lo hi v s).depot = s.depot := rfl
@[simp] theorem setPair_depotCtl (base : Nat) (lo hi : Fld) (v : Nat) (s : State) : (setPair base lo hi v s).depotCtl = s.depotCtl := rfl
@[simp] theorem setPair_tileSram (base : Nat) (lo hi : Fld) (v : Nat) (s : State) : (setPair base lo hi v s).tileSram = s.tileSram := rfl
@[simp] theorem setPair_vregs (base : Nat) (lo hi : Fld) (v : Nat) (s : State) : (setPair base lo hi v s).vregs = s.vregs := rfl
@[simp] theorem setPair_masks (base : Nat) (lo hi : Fld) (v : Nat) (s : State) : (setPair base lo hi v s).masks = s.masks := rfl
@[simp] theorem setPair_chans (base : Nat) (lo hi : Fld) (v : Nat) (s : State) : (setPair base lo hi v s).chans = s.chans := rfl
@[simp] theorem setPair_rows (base : Nat) (lo hi : Fld) (v : Nat) (s : State) : (setPair base lo hi v s).rows = s.rows := rfl
@[simp] theorem setPair_spares (base : Nat) (lo hi : Fld) (v : Nat) (s : State) : (setPair base lo hi v s).spares = s.spares := rfl
@[simp] theorem setPair_fab (base : Nat) (lo hi : Fld) (v : Nat) (s : State) : (setPair base lo hi v s).fab = s.fab := rfl
@[simp] theorem setPair_links (base : Nat) (lo hi : Fld) (v : Nat) (s : State) : (setPair base lo hi v s).links = s.links := rfl
@[simp] theorem setPair_peers (base : Nat) (lo hi : Fld) (v : Nat) (s : State) : (setPair base lo hi v s).peers = s.peers := rfl
@[simp] theorem setPair_hal (base : Nat) (lo hi : Fld) (v : Nat) (s : State) : (setPair base lo hi v s).hal = s.hal := rfl
@[simp] theorem setPair_out (base : Nat) (lo hi : Fld) (v : Nat) (s : State) : (setPair base lo hi v s).out = s.out := rfl
@[simp] theorem setPair_dsps (base : Nat) (lo hi : Fld) (v : Nat) (s : State) : (setPair base lo hi v s).dsps = s.dsps := rfl
@[simp] theorem setPair_imgCore (base : Nat) (lo hi : Fld) (v : Nat) (s : State) : (setPair base lo hi v s).imgCore = s.imgCore := rfl
@[simp] theorem setPair_imgDsp (base : Nat) (lo hi : Fld) (v : Nat) (s : State) : (setPair base lo hi v s).imgDsp = s.imgDsp := rfl
@[simp] theorem setPair_slvs (base : Nat) (lo hi : Fld) (v : Nat) (s : State) : (setPair base lo hi v s).slvs = s.slvs := rfl
@[simp] theorem setPair_imgSlv (base : Nat) (lo hi : Fld) (v : Nat) (s : State) : (setPair base lo hi v s).imgSlv = s.imgSlv := rfl
@[simp] theorem setPair_sec (base : Nat) (lo hi : Fld) (v : Nat) (s : State) : (setPair base lo hi v s).sec = s.sec := rfl
@[simp] theorem setPair_upNs (base : Nat) (lo hi : Fld) (v : Nat) (s : State) : (setPair base lo hi v s).upNs = s.upNs := rfl
@[simp] theorem setPair_totals (base : Nat) (lo hi : Fld) (v : Nat) (s : State) : (setPair base lo hi v s).totals = s.totals := rfl
@[simp] theorem setPair_ckp (base : Nat) (lo hi : Fld) (v : Nat) (s : State) : (setPair base lo hi v s).ckp = s.ckp := rfl
@[simp] theorem setPair_col (base : Nat) (lo hi : Fld) (v : Nat) (s : State) : (setPair base lo hi v s).col = s.col := rfl
@[simp] theorem setPair_imgCol (base : Nat) (lo hi : Fld) (v : Nat) (s : State) : (setPair base lo hi v s).imgCol = s.imgCol := rfl
@[simp] theorem setPair_launch (base : Nat) (lo hi : Fld) (v : Nat) (s : State) : (setPair base lo hi v s).launch = s.launch := rfl
@[simp] theorem setPair_ownAbort (base : Nat) (lo hi : Fld) (v : Nat) (s : State) : (setPair base lo hi v s).ownAbort = s.ownAbort := rfl
@[simp] theorem setPair_pwr (base : Nat) (lo hi : Fld) (v : Nat) (s : State) : (setPair base lo hi v s).pwr = s.pwr := rfl
@[simp] theorem setPair_sync (base : Nat) (lo hi : Fld) (v : Nat) (s : State) : (setPair base lo hi v s).sync = s.sync := rfl
@[simp] theorem setPair_dig (base : Nat) (lo hi : Fld) (v : Nat) (s : State) : (setPair base lo hi v s).dig = s.dig := rfl
@[simp] theorem setPair_pins (base : Nat) (lo hi : Fld) (v : Nat) (s : State) : (setPair base lo hi v s).pins = s.pins := rfl
@[simp] theorem addPair_pending (base : Nat) (lo hi : Fld) (n : Nat) (s : State) : (addPair base lo hi n s).pending = s.pending := rfl
@[simp] theorem addPair_fresh (base : Nat) (lo hi : Fld) (n : Nat) (s : State) : (addPair base lo hi n s).fresh = s.fresh := rfl
@[simp] theorem addPair_ran (base : Nat) (lo hi : Fld) (n : Nat) (s : State) : (addPair base lo hi n s).ran = s.ran := rfl
@[simp] theorem addPair_pkg (base : Nat) (lo hi : Fld) (n : Nat) (s : State) : (addPair base lo hi n s).pkg = s.pkg := rfl
@[simp] theorem addPair_prev (base : Nat) (lo hi : Fld) (n : Nat) (s : State) : (addPair base lo hi n s).prev = s.prev := rfl
@[simp] theorem addPair_cause (base : Nat) (lo hi : Fld) (n : Nat) (s : State) : (addPair base lo hi n s).cause = s.cause := rfl
@[simp] theorem addPair_rails (base : Nat) (lo hi : Fld) (n : Nat) (s : State) : (addPair base lo hi n s).rails = s.rails := rfl
@[simp] theorem addPair_count (base : Nat) (lo hi : Fld) (n : Nat) (s : State) : (addPair base lo hi n s).count = s.count := rfl
@[simp] theorem addPair_counting (base : Nat) (lo hi : Fld) (n : Nat) (s : State) : (addPair base lo hi n s).counting = s.counting := rfl
@[simp] theorem addPair_root (base : Nat) (lo hi : Fld) (n : Nat) (s : State) : (addPair base lo hi n s).root = s.root := rfl
@[simp] theorem addPair_log (base : Nat) (lo hi : Fld) (n : Nat) (s : State) : (addPair base lo hi n s).log = s.log := rfl
@[simp] theorem addPair_stepErr (base : Nat) (lo hi : Fld) (n : Nat) (s : State) : (addPair base lo hi n s).stepErr = s.stepErr := rfl
@[simp] theorem addPair_freezeF (base : Nat) (lo hi : Fld) (n : Nat) (s : State) : (addPair base lo hi n s).freezeF = s.freezeF := rfl
@[simp] theorem addPair_cores (base : Nat) (lo hi : Fld) (n : Nat) (s : State) : (addPair base lo hi n s).cores = s.cores := rfl
@[simp] theorem addPair_starts (base : Nat) (lo hi : Fld) (n : Nat) (s : State) : (addPair base lo hi n s).starts = s.starts := rfl
@[simp] theorem addPair_ramps (base : Nat) (lo hi : Fld) (n : Nat) (s : State) : (addPair base lo hi n s).ramps = s.ramps := rfl
@[simp] theorem addPair_engines (base : Nat) (lo hi : Fld) (n : Nat) (s : State) : (addPair base lo hi n s).engines = s.engines := rfl
@[simp] theorem addPair_hbm (base : Nat) (lo hi : Fld) (n : Nat) (s : State) : (addPair base lo hi n s).hbm = s.hbm := rfl
@[simp] theorem addPair_hbmBg (base : Nat) (lo hi : Fld) (n : Nat) (s : State) : (addPair base lo hi n s).hbmBg = s.hbmBg := rfl
@[simp] theorem addPair_poison (base : Nat) (lo hi : Fld) (n : Nat) (s : State) : (addPair base lo hi n s).poison = s.poison := rfl
@[simp] theorem addPair_depot (base : Nat) (lo hi : Fld) (n : Nat) (s : State) : (addPair base lo hi n s).depot = s.depot := rfl
@[simp] theorem addPair_depotCtl (base : Nat) (lo hi : Fld) (n : Nat) (s : State) : (addPair base lo hi n s).depotCtl = s.depotCtl := rfl
@[simp] theorem addPair_tileSram (base : Nat) (lo hi : Fld) (n : Nat) (s : State) : (addPair base lo hi n s).tileSram = s.tileSram := rfl
@[simp] theorem addPair_vregs (base : Nat) (lo hi : Fld) (n : Nat) (s : State) : (addPair base lo hi n s).vregs = s.vregs := rfl
@[simp] theorem addPair_masks (base : Nat) (lo hi : Fld) (n : Nat) (s : State) : (addPair base lo hi n s).masks = s.masks := rfl
@[simp] theorem addPair_chans (base : Nat) (lo hi : Fld) (n : Nat) (s : State) : (addPair base lo hi n s).chans = s.chans := rfl
@[simp] theorem addPair_rows (base : Nat) (lo hi : Fld) (n : Nat) (s : State) : (addPair base lo hi n s).rows = s.rows := rfl
@[simp] theorem addPair_spares (base : Nat) (lo hi : Fld) (n : Nat) (s : State) : (addPair base lo hi n s).spares = s.spares := rfl
@[simp] theorem addPair_fab (base : Nat) (lo hi : Fld) (n : Nat) (s : State) : (addPair base lo hi n s).fab = s.fab := rfl
@[simp] theorem addPair_links (base : Nat) (lo hi : Fld) (n : Nat) (s : State) : (addPair base lo hi n s).links = s.links := rfl
@[simp] theorem addPair_peers (base : Nat) (lo hi : Fld) (n : Nat) (s : State) : (addPair base lo hi n s).peers = s.peers := rfl
@[simp] theorem addPair_hal (base : Nat) (lo hi : Fld) (n : Nat) (s : State) : (addPair base lo hi n s).hal = s.hal := rfl
@[simp] theorem addPair_out (base : Nat) (lo hi : Fld) (n : Nat) (s : State) : (addPair base lo hi n s).out = s.out := rfl
@[simp] theorem addPair_dsps (base : Nat) (lo hi : Fld) (n : Nat) (s : State) : (addPair base lo hi n s).dsps = s.dsps := rfl
@[simp] theorem addPair_imgCore (base : Nat) (lo hi : Fld) (n : Nat) (s : State) : (addPair base lo hi n s).imgCore = s.imgCore := rfl
@[simp] theorem addPair_imgDsp (base : Nat) (lo hi : Fld) (n : Nat) (s : State) : (addPair base lo hi n s).imgDsp = s.imgDsp := rfl
@[simp] theorem addPair_slvs (base : Nat) (lo hi : Fld) (n : Nat) (s : State) : (addPair base lo hi n s).slvs = s.slvs := rfl
@[simp] theorem addPair_imgSlv (base : Nat) (lo hi : Fld) (n : Nat) (s : State) : (addPair base lo hi n s).imgSlv = s.imgSlv := rfl
@[simp] theorem addPair_sec (base : Nat) (lo hi : Fld) (n : Nat) (s : State) : (addPair base lo hi n s).sec = s.sec := rfl
@[simp] theorem addPair_upNs (base : Nat) (lo hi : Fld) (n : Nat) (s : State) : (addPair base lo hi n s).upNs = s.upNs := rfl
@[simp] theorem addPair_totals (base : Nat) (lo hi : Fld) (n : Nat) (s : State) : (addPair base lo hi n s).totals = s.totals := rfl
@[simp] theorem addPair_ckp (base : Nat) (lo hi : Fld) (n : Nat) (s : State) : (addPair base lo hi n s).ckp = s.ckp := rfl
@[simp] theorem addPair_col (base : Nat) (lo hi : Fld) (n : Nat) (s : State) : (addPair base lo hi n s).col = s.col := rfl
@[simp] theorem addPair_imgCol (base : Nat) (lo hi : Fld) (n : Nat) (s : State) : (addPair base lo hi n s).imgCol = s.imgCol := rfl
@[simp] theorem addPair_launch (base : Nat) (lo hi : Fld) (n : Nat) (s : State) : (addPair base lo hi n s).launch = s.launch := rfl
@[simp] theorem addPair_ownAbort (base : Nat) (lo hi : Fld) (n : Nat) (s : State) : (addPair base lo hi n s).ownAbort = s.ownAbort := rfl
@[simp] theorem addPair_pwr (base : Nat) (lo hi : Fld) (n : Nat) (s : State) : (addPair base lo hi n s).pwr = s.pwr := rfl
@[simp] theorem addPair_sync (base : Nat) (lo hi : Fld) (n : Nat) (s : State) : (addPair base lo hi n s).sync = s.sync := rfl
@[simp] theorem addPair_dig (base : Nat) (lo hi : Fld) (n : Nat) (s : State) : (addPair base lo hi n s).dig = s.dig := rfl
@[simp] theorem addPair_pins (base : Nat) (lo hi : Fld) (n : Nat) (s : State) : (addPair base lo hi n s).pins = s.pins := rfl
@[simp] theorem tally_pending (k n : Nat) (s : State) : (tally k n s).pending = s.pending := rfl
@[simp] theorem tally_fresh (k n : Nat) (s : State) : (tally k n s).fresh = s.fresh := rfl
@[simp] theorem tally_ran (k n : Nat) (s : State) : (tally k n s).ran = s.ran := rfl
@[simp] theorem tally_pkg (k n : Nat) (s : State) : (tally k n s).pkg = s.pkg := rfl
@[simp] theorem tally_prev (k n : Nat) (s : State) : (tally k n s).prev = s.prev := rfl
@[simp] theorem tally_cause (k n : Nat) (s : State) : (tally k n s).cause = s.cause := rfl
@[simp] theorem tally_rails (k n : Nat) (s : State) : (tally k n s).rails = s.rails := rfl
@[simp] theorem tally_count (k n : Nat) (s : State) : (tally k n s).count = s.count := rfl
@[simp] theorem tally_counting (k n : Nat) (s : State) : (tally k n s).counting = s.counting := rfl
@[simp] theorem tally_csr (k n : Nat) (s : State) : (tally k n s).csr = s.csr := rfl
@[simp] theorem tally_root (k n : Nat) (s : State) : (tally k n s).root = s.root := rfl
@[simp] theorem tally_log (k n : Nat) (s : State) : (tally k n s).log = s.log := rfl
@[simp] theorem tally_stepErr (k n : Nat) (s : State) : (tally k n s).stepErr = s.stepErr := rfl
@[simp] theorem tally_freezeF (k n : Nat) (s : State) : (tally k n s).freezeF = s.freezeF := rfl
@[simp] theorem tally_cores (k n : Nat) (s : State) : (tally k n s).cores = s.cores := rfl
@[simp] theorem tally_starts (k n : Nat) (s : State) : (tally k n s).starts = s.starts := rfl
@[simp] theorem tally_ramps (k n : Nat) (s : State) : (tally k n s).ramps = s.ramps := rfl
@[simp] theorem tally_engines (k n : Nat) (s : State) : (tally k n s).engines = s.engines := rfl
@[simp] theorem tally_hbm (k n : Nat) (s : State) : (tally k n s).hbm = s.hbm := rfl
@[simp] theorem tally_hbmBg (k n : Nat) (s : State) : (tally k n s).hbmBg = s.hbmBg := rfl
@[simp] theorem tally_poison (k n : Nat) (s : State) : (tally k n s).poison = s.poison := rfl
@[simp] theorem tally_depot (k n : Nat) (s : State) : (tally k n s).depot = s.depot := rfl
@[simp] theorem tally_depotCtl (k n : Nat) (s : State) : (tally k n s).depotCtl = s.depotCtl := rfl
@[simp] theorem tally_tileSram (k n : Nat) (s : State) : (tally k n s).tileSram = s.tileSram := rfl
@[simp] theorem tally_vregs (k n : Nat) (s : State) : (tally k n s).vregs = s.vregs := rfl
@[simp] theorem tally_masks (k n : Nat) (s : State) : (tally k n s).masks = s.masks := rfl
@[simp] theorem tally_chans (k n : Nat) (s : State) : (tally k n s).chans = s.chans := rfl
@[simp] theorem tally_rows (k n : Nat) (s : State) : (tally k n s).rows = s.rows := rfl
@[simp] theorem tally_spares (k n : Nat) (s : State) : (tally k n s).spares = s.spares := rfl
@[simp] theorem tally_fab (k n : Nat) (s : State) : (tally k n s).fab = s.fab := rfl
@[simp] theorem tally_links (k n : Nat) (s : State) : (tally k n s).links = s.links := rfl
@[simp] theorem tally_peers (k n : Nat) (s : State) : (tally k n s).peers = s.peers := rfl
@[simp] theorem tally_hal (k n : Nat) (s : State) : (tally k n s).hal = s.hal := rfl
@[simp] theorem tally_out (k n : Nat) (s : State) : (tally k n s).out = s.out := rfl
@[simp] theorem tally_dsps (k n : Nat) (s : State) : (tally k n s).dsps = s.dsps := rfl
@[simp] theorem tally_imgCore (k n : Nat) (s : State) : (tally k n s).imgCore = s.imgCore := rfl
@[simp] theorem tally_imgDsp (k n : Nat) (s : State) : (tally k n s).imgDsp = s.imgDsp := rfl
@[simp] theorem tally_slvs (k n : Nat) (s : State) : (tally k n s).slvs = s.slvs := rfl
@[simp] theorem tally_imgSlv (k n : Nat) (s : State) : (tally k n s).imgSlv = s.imgSlv := rfl
@[simp] theorem tally_sec (k n : Nat) (s : State) : (tally k n s).sec = s.sec := rfl
@[simp] theorem tally_upNs (k n : Nat) (s : State) : (tally k n s).upNs = s.upNs := rfl
@[simp] theorem tally_ckp (k n : Nat) (s : State) : (tally k n s).ckp = s.ckp := rfl
@[simp] theorem tally_col (k n : Nat) (s : State) : (tally k n s).col = s.col := rfl
@[simp] theorem tally_imgCol (k n : Nat) (s : State) : (tally k n s).imgCol = s.imgCol := rfl
@[simp] theorem tally_launch (k n : Nat) (s : State) : (tally k n s).launch = s.launch := rfl
@[simp] theorem tally_ownAbort (k n : Nat) (s : State) : (tally k n s).ownAbort = s.ownAbort := rfl
@[simp] theorem tally_pwr (k n : Nat) (s : State) : (tally k n s).pwr = s.pwr := rfl
@[simp] theorem tally_sync (k n : Nat) (s : State) : (tally k n s).sync = s.sync := rfl
@[simp] theorem tally_dig (k n : Nat) (s : State) : (tally k n s).dig = s.dig := rfl
@[simp] theorem tally_pins (k n : Nat) (s : State) : (tally k n s).pins = s.pins := rfl
@[simp] theorem bumpF_pending (base : Nat) (f : Fld) (n : Nat) (s : State) : (bumpF base f n s).pending = s.pending := rfl
@[simp] theorem bumpF_fresh (base : Nat) (f : Fld) (n : Nat) (s : State) : (bumpF base f n s).fresh = s.fresh := rfl
@[simp] theorem bumpF_ran (base : Nat) (f : Fld) (n : Nat) (s : State) : (bumpF base f n s).ran = s.ran := rfl
@[simp] theorem bumpF_pkg (base : Nat) (f : Fld) (n : Nat) (s : State) : (bumpF base f n s).pkg = s.pkg := rfl
@[simp] theorem bumpF_prev (base : Nat) (f : Fld) (n : Nat) (s : State) : (bumpF base f n s).prev = s.prev := rfl
@[simp] theorem bumpF_cause (base : Nat) (f : Fld) (n : Nat) (s : State) : (bumpF base f n s).cause = s.cause := rfl
@[simp] theorem bumpF_rails (base : Nat) (f : Fld) (n : Nat) (s : State) : (bumpF base f n s).rails = s.rails := rfl
@[simp] theorem bumpF_count (base : Nat) (f : Fld) (n : Nat) (s : State) : (bumpF base f n s).count = s.count := rfl
@[simp] theorem bumpF_counting (base : Nat) (f : Fld) (n : Nat) (s : State) : (bumpF base f n s).counting = s.counting := rfl
@[simp] theorem bumpF_root (base : Nat) (f : Fld) (n : Nat) (s : State) : (bumpF base f n s).root = s.root := rfl
@[simp] theorem bumpF_log (base : Nat) (f : Fld) (n : Nat) (s : State) : (bumpF base f n s).log = s.log := rfl
@[simp] theorem bumpF_stepErr (base : Nat) (f : Fld) (n : Nat) (s : State) : (bumpF base f n s).stepErr = s.stepErr := rfl
@[simp] theorem bumpF_freezeF (base : Nat) (f : Fld) (n : Nat) (s : State) : (bumpF base f n s).freezeF = s.freezeF := rfl
@[simp] theorem bumpF_cores (base : Nat) (f : Fld) (n : Nat) (s : State) : (bumpF base f n s).cores = s.cores := rfl
@[simp] theorem bumpF_starts (base : Nat) (f : Fld) (n : Nat) (s : State) : (bumpF base f n s).starts = s.starts := rfl
@[simp] theorem bumpF_ramps (base : Nat) (f : Fld) (n : Nat) (s : State) : (bumpF base f n s).ramps = s.ramps := rfl
@[simp] theorem bumpF_engines (base : Nat) (f : Fld) (n : Nat) (s : State) : (bumpF base f n s).engines = s.engines := rfl
@[simp] theorem bumpF_hbm (base : Nat) (f : Fld) (n : Nat) (s : State) : (bumpF base f n s).hbm = s.hbm := rfl
@[simp] theorem bumpF_hbmBg (base : Nat) (f : Fld) (n : Nat) (s : State) : (bumpF base f n s).hbmBg = s.hbmBg := rfl
@[simp] theorem bumpF_poison (base : Nat) (f : Fld) (n : Nat) (s : State) : (bumpF base f n s).poison = s.poison := rfl
@[simp] theorem bumpF_depot (base : Nat) (f : Fld) (n : Nat) (s : State) : (bumpF base f n s).depot = s.depot := rfl
@[simp] theorem bumpF_depotCtl (base : Nat) (f : Fld) (n : Nat) (s : State) : (bumpF base f n s).depotCtl = s.depotCtl := rfl
@[simp] theorem bumpF_tileSram (base : Nat) (f : Fld) (n : Nat) (s : State) : (bumpF base f n s).tileSram = s.tileSram := rfl
@[simp] theorem bumpF_vregs (base : Nat) (f : Fld) (n : Nat) (s : State) : (bumpF base f n s).vregs = s.vregs := rfl
@[simp] theorem bumpF_masks (base : Nat) (f : Fld) (n : Nat) (s : State) : (bumpF base f n s).masks = s.masks := rfl
@[simp] theorem bumpF_chans (base : Nat) (f : Fld) (n : Nat) (s : State) : (bumpF base f n s).chans = s.chans := rfl
@[simp] theorem bumpF_rows (base : Nat) (f : Fld) (n : Nat) (s : State) : (bumpF base f n s).rows = s.rows := rfl
@[simp] theorem bumpF_spares (base : Nat) (f : Fld) (n : Nat) (s : State) : (bumpF base f n s).spares = s.spares := rfl
@[simp] theorem bumpF_fab (base : Nat) (f : Fld) (n : Nat) (s : State) : (bumpF base f n s).fab = s.fab := rfl
@[simp] theorem bumpF_links (base : Nat) (f : Fld) (n : Nat) (s : State) : (bumpF base f n s).links = s.links := rfl
@[simp] theorem bumpF_peers (base : Nat) (f : Fld) (n : Nat) (s : State) : (bumpF base f n s).peers = s.peers := rfl
@[simp] theorem bumpF_hal (base : Nat) (f : Fld) (n : Nat) (s : State) : (bumpF base f n s).hal = s.hal := rfl
@[simp] theorem bumpF_out (base : Nat) (f : Fld) (n : Nat) (s : State) : (bumpF base f n s).out = s.out := rfl
@[simp] theorem bumpF_dsps (base : Nat) (f : Fld) (n : Nat) (s : State) : (bumpF base f n s).dsps = s.dsps := rfl
@[simp] theorem bumpF_imgCore (base : Nat) (f : Fld) (n : Nat) (s : State) : (bumpF base f n s).imgCore = s.imgCore := rfl
@[simp] theorem bumpF_imgDsp (base : Nat) (f : Fld) (n : Nat) (s : State) : (bumpF base f n s).imgDsp = s.imgDsp := rfl
@[simp] theorem bumpF_slvs (base : Nat) (f : Fld) (n : Nat) (s : State) : (bumpF base f n s).slvs = s.slvs := rfl
@[simp] theorem bumpF_imgSlv (base : Nat) (f : Fld) (n : Nat) (s : State) : (bumpF base f n s).imgSlv = s.imgSlv := rfl
@[simp] theorem bumpF_sec (base : Nat) (f : Fld) (n : Nat) (s : State) : (bumpF base f n s).sec = s.sec := rfl
@[simp] theorem bumpF_upNs (base : Nat) (f : Fld) (n : Nat) (s : State) : (bumpF base f n s).upNs = s.upNs := rfl
@[simp] theorem bumpF_ckp (base : Nat) (f : Fld) (n : Nat) (s : State) : (bumpF base f n s).ckp = s.ckp := rfl
@[simp] theorem bumpF_col (base : Nat) (f : Fld) (n : Nat) (s : State) : (bumpF base f n s).col = s.col := rfl
@[simp] theorem bumpF_imgCol (base : Nat) (f : Fld) (n : Nat) (s : State) : (bumpF base f n s).imgCol = s.imgCol := rfl
@[simp] theorem bumpF_launch (base : Nat) (f : Fld) (n : Nat) (s : State) : (bumpF base f n s).launch = s.launch := rfl
@[simp] theorem bumpF_ownAbort (base : Nat) (f : Fld) (n : Nat) (s : State) : (bumpF base f n s).ownAbort = s.ownAbort := rfl
@[simp] theorem bumpF_pwr (base : Nat) (f : Fld) (n : Nat) (s : State) : (bumpF base f n s).pwr = s.pwr := rfl
@[simp] theorem bumpF_sync (base : Nat) (f : Fld) (n : Nat) (s : State) : (bumpF base f n s).sync = s.sync := rfl
@[simp] theorem bumpF_dig (base : Nat) (f : Fld) (n : Nat) (s : State) : (bumpF base f n s).dig = s.dig := rfl
@[simp] theorem bumpF_pins (base : Nat) (f : Fld) (n : Nat) (s : State) : (bumpF base f n s).pins = s.pins := rfl
@[simp] theorem setCore_pending (c : Nat) (k : Core) (s : State) : (setCore c k s).pending = s.pending := rfl
@[simp] theorem setCore_fresh (c : Nat) (k : Core) (s : State) : (setCore c k s).fresh = s.fresh := rfl
@[simp] theorem setCore_ran (c : Nat) (k : Core) (s : State) : (setCore c k s).ran = s.ran := rfl
@[simp] theorem setCore_pkg (c : Nat) (k : Core) (s : State) : (setCore c k s).pkg = s.pkg := rfl
@[simp] theorem setCore_prev (c : Nat) (k : Core) (s : State) : (setCore c k s).prev = s.prev := rfl
@[simp] theorem setCore_cause (c : Nat) (k : Core) (s : State) : (setCore c k s).cause = s.cause := rfl
@[simp] theorem setCore_rails (c : Nat) (k : Core) (s : State) : (setCore c k s).rails = s.rails := rfl
@[simp] theorem setCore_count (c : Nat) (k : Core) (s : State) : (setCore c k s).count = s.count := rfl
@[simp] theorem setCore_counting (c : Nat) (k : Core) (s : State) : (setCore c k s).counting = s.counting := rfl
@[simp] theorem setCore_csr (c : Nat) (k : Core) (s : State) : (setCore c k s).csr = s.csr := rfl
@[simp] theorem setCore_root (c : Nat) (k : Core) (s : State) : (setCore c k s).root = s.root := rfl
@[simp] theorem setCore_log (c : Nat) (k : Core) (s : State) : (setCore c k s).log = s.log := rfl
@[simp] theorem setCore_stepErr (c : Nat) (k : Core) (s : State) : (setCore c k s).stepErr = s.stepErr := rfl
@[simp] theorem setCore_freezeF (c : Nat) (k : Core) (s : State) : (setCore c k s).freezeF = s.freezeF := rfl
@[simp] theorem setCore_starts (c : Nat) (k : Core) (s : State) : (setCore c k s).starts = s.starts := rfl
@[simp] theorem setCore_ramps (c : Nat) (k : Core) (s : State) : (setCore c k s).ramps = s.ramps := rfl
@[simp] theorem setCore_engines (c : Nat) (k : Core) (s : State) : (setCore c k s).engines = s.engines := rfl
@[simp] theorem setCore_hbm (c : Nat) (k : Core) (s : State) : (setCore c k s).hbm = s.hbm := rfl
@[simp] theorem setCore_hbmBg (c : Nat) (k : Core) (s : State) : (setCore c k s).hbmBg = s.hbmBg := rfl
@[simp] theorem setCore_poison (c : Nat) (k : Core) (s : State) : (setCore c k s).poison = s.poison := rfl
@[simp] theorem setCore_depot (c : Nat) (k : Core) (s : State) : (setCore c k s).depot = s.depot := rfl
@[simp] theorem setCore_depotCtl (c : Nat) (k : Core) (s : State) : (setCore c k s).depotCtl = s.depotCtl := rfl
@[simp] theorem setCore_tileSram (c : Nat) (k : Core) (s : State) : (setCore c k s).tileSram = s.tileSram := rfl
@[simp] theorem setCore_vregs (c : Nat) (k : Core) (s : State) : (setCore c k s).vregs = s.vregs := rfl
@[simp] theorem setCore_masks (c : Nat) (k : Core) (s : State) : (setCore c k s).masks = s.masks := rfl
@[simp] theorem setCore_chans (c : Nat) (k : Core) (s : State) : (setCore c k s).chans = s.chans := rfl
@[simp] theorem setCore_rows (c : Nat) (k : Core) (s : State) : (setCore c k s).rows = s.rows := rfl
@[simp] theorem setCore_spares (c : Nat) (k : Core) (s : State) : (setCore c k s).spares = s.spares := rfl
@[simp] theorem setCore_fab (c : Nat) (k : Core) (s : State) : (setCore c k s).fab = s.fab := rfl
@[simp] theorem setCore_links (c : Nat) (k : Core) (s : State) : (setCore c k s).links = s.links := rfl
@[simp] theorem setCore_peers (c : Nat) (k : Core) (s : State) : (setCore c k s).peers = s.peers := rfl
@[simp] theorem setCore_hal (c : Nat) (k : Core) (s : State) : (setCore c k s).hal = s.hal := rfl
@[simp] theorem setCore_out (c : Nat) (k : Core) (s : State) : (setCore c k s).out = s.out := rfl
@[simp] theorem setCore_dsps (c : Nat) (k : Core) (s : State) : (setCore c k s).dsps = s.dsps := rfl
@[simp] theorem setCore_imgCore (c : Nat) (k : Core) (s : State) : (setCore c k s).imgCore = s.imgCore := rfl
@[simp] theorem setCore_imgDsp (c : Nat) (k : Core) (s : State) : (setCore c k s).imgDsp = s.imgDsp := rfl
@[simp] theorem setCore_slvs (c : Nat) (k : Core) (s : State) : (setCore c k s).slvs = s.slvs := rfl
@[simp] theorem setCore_imgSlv (c : Nat) (k : Core) (s : State) : (setCore c k s).imgSlv = s.imgSlv := rfl
@[simp] theorem setCore_sec (c : Nat) (k : Core) (s : State) : (setCore c k s).sec = s.sec := rfl
@[simp] theorem setCore_upNs (c : Nat) (k : Core) (s : State) : (setCore c k s).upNs = s.upNs := rfl
@[simp] theorem setCore_totals (c : Nat) (k : Core) (s : State) : (setCore c k s).totals = s.totals := rfl
@[simp] theorem setCore_ckp (c : Nat) (k : Core) (s : State) : (setCore c k s).ckp = s.ckp := rfl
@[simp] theorem setCore_col (c : Nat) (k : Core) (s : State) : (setCore c k s).col = s.col := rfl
@[simp] theorem setCore_imgCol (c : Nat) (k : Core) (s : State) : (setCore c k s).imgCol = s.imgCol := rfl
@[simp] theorem setCore_launch (c : Nat) (k : Core) (s : State) : (setCore c k s).launch = s.launch := rfl
@[simp] theorem setCore_ownAbort (c : Nat) (k : Core) (s : State) : (setCore c k s).ownAbort = s.ownAbort := rfl
@[simp] theorem setCore_pwr (c : Nat) (k : Core) (s : State) : (setCore c k s).pwr = s.pwr := rfl
@[simp] theorem setCore_sync (c : Nat) (k : Core) (s : State) : (setCore c k s).sync = s.sync := rfl
@[simp] theorem setCore_dig (c : Nat) (k : Core) (s : State) : (setCore c k s).dig = s.dig := rfl
@[simp] theorem setCore_pins (c : Nat) (k : Core) (s : State) : (setCore c k s).pins = s.pins := rfl
@[simp] theorem setEng_pending (k : Nat) (e : Engine) (s : State) : (setEng k e s).pending = s.pending := rfl
@[simp] theorem setEng_fresh (k : Nat) (e : Engine) (s : State) : (setEng k e s).fresh = s.fresh := rfl
@[simp] theorem setEng_ran (k : Nat) (e : Engine) (s : State) : (setEng k e s).ran = s.ran := rfl
@[simp] theorem setEng_pkg (k : Nat) (e : Engine) (s : State) : (setEng k e s).pkg = s.pkg := rfl
@[simp] theorem setEng_prev (k : Nat) (e : Engine) (s : State) : (setEng k e s).prev = s.prev := rfl
@[simp] theorem setEng_cause (k : Nat) (e : Engine) (s : State) : (setEng k e s).cause = s.cause := rfl
@[simp] theorem setEng_rails (k : Nat) (e : Engine) (s : State) : (setEng k e s).rails = s.rails := rfl
@[simp] theorem setEng_count (k : Nat) (e : Engine) (s : State) : (setEng k e s).count = s.count := rfl
@[simp] theorem setEng_counting (k : Nat) (e : Engine) (s : State) : (setEng k e s).counting = s.counting := rfl
@[simp] theorem setEng_csr (k : Nat) (e : Engine) (s : State) : (setEng k e s).csr = s.csr := rfl
@[simp] theorem setEng_root (k : Nat) (e : Engine) (s : State) : (setEng k e s).root = s.root := rfl
@[simp] theorem setEng_log (k : Nat) (e : Engine) (s : State) : (setEng k e s).log = s.log := rfl
@[simp] theorem setEng_stepErr (k : Nat) (e : Engine) (s : State) : (setEng k e s).stepErr = s.stepErr := rfl
@[simp] theorem setEng_freezeF (k : Nat) (e : Engine) (s : State) : (setEng k e s).freezeF = s.freezeF := rfl
@[simp] theorem setEng_cores (k : Nat) (e : Engine) (s : State) : (setEng k e s).cores = s.cores := rfl
@[simp] theorem setEng_starts (k : Nat) (e : Engine) (s : State) : (setEng k e s).starts = s.starts := rfl
@[simp] theorem setEng_ramps (k : Nat) (e : Engine) (s : State) : (setEng k e s).ramps = s.ramps := rfl
@[simp] theorem setEng_hbm (k : Nat) (e : Engine) (s : State) : (setEng k e s).hbm = s.hbm := rfl
@[simp] theorem setEng_hbmBg (k : Nat) (e : Engine) (s : State) : (setEng k e s).hbmBg = s.hbmBg := rfl
@[simp] theorem setEng_poison (k : Nat) (e : Engine) (s : State) : (setEng k e s).poison = s.poison := rfl
@[simp] theorem setEng_depot (k : Nat) (e : Engine) (s : State) : (setEng k e s).depot = s.depot := rfl
@[simp] theorem setEng_depotCtl (k : Nat) (e : Engine) (s : State) : (setEng k e s).depotCtl = s.depotCtl := rfl
@[simp] theorem setEng_tileSram (k : Nat) (e : Engine) (s : State) : (setEng k e s).tileSram = s.tileSram := rfl
@[simp] theorem setEng_vregs (k : Nat) (e : Engine) (s : State) : (setEng k e s).vregs = s.vregs := rfl
@[simp] theorem setEng_masks (k : Nat) (e : Engine) (s : State) : (setEng k e s).masks = s.masks := rfl
@[simp] theorem setEng_chans (k : Nat) (e : Engine) (s : State) : (setEng k e s).chans = s.chans := rfl
@[simp] theorem setEng_rows (k : Nat) (e : Engine) (s : State) : (setEng k e s).rows = s.rows := rfl
@[simp] theorem setEng_spares (k : Nat) (e : Engine) (s : State) : (setEng k e s).spares = s.spares := rfl
@[simp] theorem setEng_fab (k : Nat) (e : Engine) (s : State) : (setEng k e s).fab = s.fab := rfl
@[simp] theorem setEng_links (k : Nat) (e : Engine) (s : State) : (setEng k e s).links = s.links := rfl
@[simp] theorem setEng_peers (k : Nat) (e : Engine) (s : State) : (setEng k e s).peers = s.peers := rfl
@[simp] theorem setEng_hal (k : Nat) (e : Engine) (s : State) : (setEng k e s).hal = s.hal := rfl
@[simp] theorem setEng_out (k : Nat) (e : Engine) (s : State) : (setEng k e s).out = s.out := rfl
@[simp] theorem setEng_dsps (k : Nat) (e : Engine) (s : State) : (setEng k e s).dsps = s.dsps := rfl
@[simp] theorem setEng_imgCore (k : Nat) (e : Engine) (s : State) : (setEng k e s).imgCore = s.imgCore := rfl
@[simp] theorem setEng_imgDsp (k : Nat) (e : Engine) (s : State) : (setEng k e s).imgDsp = s.imgDsp := rfl
@[simp] theorem setEng_slvs (k : Nat) (e : Engine) (s : State) : (setEng k e s).slvs = s.slvs := rfl
@[simp] theorem setEng_imgSlv (k : Nat) (e : Engine) (s : State) : (setEng k e s).imgSlv = s.imgSlv := rfl
@[simp] theorem setEng_sec (k : Nat) (e : Engine) (s : State) : (setEng k e s).sec = s.sec := rfl
@[simp] theorem setEng_upNs (k : Nat) (e : Engine) (s : State) : (setEng k e s).upNs = s.upNs := rfl
@[simp] theorem setEng_totals (k : Nat) (e : Engine) (s : State) : (setEng k e s).totals = s.totals := rfl
@[simp] theorem setEng_ckp (k : Nat) (e : Engine) (s : State) : (setEng k e s).ckp = s.ckp := rfl
@[simp] theorem setEng_col (k : Nat) (e : Engine) (s : State) : (setEng k e s).col = s.col := rfl
@[simp] theorem setEng_imgCol (k : Nat) (e : Engine) (s : State) : (setEng k e s).imgCol = s.imgCol := rfl
@[simp] theorem setEng_launch (k : Nat) (e : Engine) (s : State) : (setEng k e s).launch = s.launch := rfl
@[simp] theorem setEng_ownAbort (k : Nat) (e : Engine) (s : State) : (setEng k e s).ownAbort = s.ownAbort := rfl
@[simp] theorem setEng_pwr (k : Nat) (e : Engine) (s : State) : (setEng k e s).pwr = s.pwr := rfl
@[simp] theorem setEng_sync (k : Nat) (e : Engine) (s : State) : (setEng k e s).sync = s.sync := rfl
@[simp] theorem setEng_dig (k : Nat) (e : Engine) (s : State) : (setEng k e s).dig = s.dig := rfl
@[simp] theorem setEng_pins (k : Nat) (e : Engine) (s : State) : (setEng k e s).pins = s.pins := rfl
@[simp] theorem setChan_pending (a b : Nat) (x : Chan) (s : State) : (setChan a b x s).pending = s.pending := rfl
@[simp] theorem setChan_fresh (a b : Nat) (x : Chan) (s : State) : (setChan a b x s).fresh = s.fresh := rfl
@[simp] theorem setChan_ran (a b : Nat) (x : Chan) (s : State) : (setChan a b x s).ran = s.ran := rfl
@[simp] theorem setChan_pkg (a b : Nat) (x : Chan) (s : State) : (setChan a b x s).pkg = s.pkg := rfl
@[simp] theorem setChan_prev (a b : Nat) (x : Chan) (s : State) : (setChan a b x s).prev = s.prev := rfl
@[simp] theorem setChan_cause (a b : Nat) (x : Chan) (s : State) : (setChan a b x s).cause = s.cause := rfl
@[simp] theorem setChan_rails (a b : Nat) (x : Chan) (s : State) : (setChan a b x s).rails = s.rails := rfl
@[simp] theorem setChan_count (a b : Nat) (x : Chan) (s : State) : (setChan a b x s).count = s.count := rfl
@[simp] theorem setChan_counting (a b : Nat) (x : Chan) (s : State) : (setChan a b x s).counting = s.counting := rfl
@[simp] theorem setChan_csr (a b : Nat) (x : Chan) (s : State) : (setChan a b x s).csr = s.csr := rfl
@[simp] theorem setChan_root (a b : Nat) (x : Chan) (s : State) : (setChan a b x s).root = s.root := rfl
@[simp] theorem setChan_log (a b : Nat) (x : Chan) (s : State) : (setChan a b x s).log = s.log := rfl
@[simp] theorem setChan_stepErr (a b : Nat) (x : Chan) (s : State) : (setChan a b x s).stepErr = s.stepErr := rfl
@[simp] theorem setChan_freezeF (a b : Nat) (x : Chan) (s : State) : (setChan a b x s).freezeF = s.freezeF := rfl
@[simp] theorem setChan_cores (a b : Nat) (x : Chan) (s : State) : (setChan a b x s).cores = s.cores := rfl
@[simp] theorem setChan_starts (a b : Nat) (x : Chan) (s : State) : (setChan a b x s).starts = s.starts := rfl
@[simp] theorem setChan_ramps (a b : Nat) (x : Chan) (s : State) : (setChan a b x s).ramps = s.ramps := rfl
@[simp] theorem setChan_engines (a b : Nat) (x : Chan) (s : State) : (setChan a b x s).engines = s.engines := rfl
@[simp] theorem setChan_hbm (a b : Nat) (x : Chan) (s : State) : (setChan a b x s).hbm = s.hbm := rfl
@[simp] theorem setChan_hbmBg (a b : Nat) (x : Chan) (s : State) : (setChan a b x s).hbmBg = s.hbmBg := rfl
@[simp] theorem setChan_poison (a b : Nat) (x : Chan) (s : State) : (setChan a b x s).poison = s.poison := rfl
@[simp] theorem setChan_depot (a b : Nat) (x : Chan) (s : State) : (setChan a b x s).depot = s.depot := rfl
@[simp] theorem setChan_depotCtl (a b : Nat) (x : Chan) (s : State) : (setChan a b x s).depotCtl = s.depotCtl := rfl
@[simp] theorem setChan_tileSram (a b : Nat) (x : Chan) (s : State) : (setChan a b x s).tileSram = s.tileSram := rfl
@[simp] theorem setChan_vregs (a b : Nat) (x : Chan) (s : State) : (setChan a b x s).vregs = s.vregs := rfl
@[simp] theorem setChan_masks (a b : Nat) (x : Chan) (s : State) : (setChan a b x s).masks = s.masks := rfl
@[simp] theorem setChan_rows (a b : Nat) (x : Chan) (s : State) : (setChan a b x s).rows = s.rows := rfl
@[simp] theorem setChan_spares (a b : Nat) (x : Chan) (s : State) : (setChan a b x s).spares = s.spares := rfl
@[simp] theorem setChan_fab (a b : Nat) (x : Chan) (s : State) : (setChan a b x s).fab = s.fab := rfl
@[simp] theorem setChan_links (a b : Nat) (x : Chan) (s : State) : (setChan a b x s).links = s.links := rfl
@[simp] theorem setChan_peers (a b : Nat) (x : Chan) (s : State) : (setChan a b x s).peers = s.peers := rfl
@[simp] theorem setChan_hal (a b : Nat) (x : Chan) (s : State) : (setChan a b x s).hal = s.hal := rfl
@[simp] theorem setChan_out (a b : Nat) (x : Chan) (s : State) : (setChan a b x s).out = s.out := rfl
@[simp] theorem setChan_dsps (a b : Nat) (x : Chan) (s : State) : (setChan a b x s).dsps = s.dsps := rfl
@[simp] theorem setChan_imgCore (a b : Nat) (x : Chan) (s : State) : (setChan a b x s).imgCore = s.imgCore := rfl
@[simp] theorem setChan_imgDsp (a b : Nat) (x : Chan) (s : State) : (setChan a b x s).imgDsp = s.imgDsp := rfl
@[simp] theorem setChan_slvs (a b : Nat) (x : Chan) (s : State) : (setChan a b x s).slvs = s.slvs := rfl
@[simp] theorem setChan_imgSlv (a b : Nat) (x : Chan) (s : State) : (setChan a b x s).imgSlv = s.imgSlv := rfl
@[simp] theorem setChan_sec (a b : Nat) (x : Chan) (s : State) : (setChan a b x s).sec = s.sec := rfl
@[simp] theorem setChan_upNs (a b : Nat) (x : Chan) (s : State) : (setChan a b x s).upNs = s.upNs := rfl
@[simp] theorem setChan_totals (a b : Nat) (x : Chan) (s : State) : (setChan a b x s).totals = s.totals := rfl
@[simp] theorem setChan_ckp (a b : Nat) (x : Chan) (s : State) : (setChan a b x s).ckp = s.ckp := rfl
@[simp] theorem setChan_col (a b : Nat) (x : Chan) (s : State) : (setChan a b x s).col = s.col := rfl
@[simp] theorem setChan_imgCol (a b : Nat) (x : Chan) (s : State) : (setChan a b x s).imgCol = s.imgCol := rfl
@[simp] theorem setChan_launch (a b : Nat) (x : Chan) (s : State) : (setChan a b x s).launch = s.launch := rfl
@[simp] theorem setChan_ownAbort (a b : Nat) (x : Chan) (s : State) : (setChan a b x s).ownAbort = s.ownAbort := rfl
@[simp] theorem setChan_pwr (a b : Nat) (x : Chan) (s : State) : (setChan a b x s).pwr = s.pwr := rfl
@[simp] theorem setChan_sync (a b : Nat) (x : Chan) (s : State) : (setChan a b x s).sync = s.sync := rfl
@[simp] theorem setChan_dig (a b : Nat) (x : Chan) (s : State) : (setChan a b x s).dig = s.dig := rfl
@[simp] theorem setChan_pins (a b : Nat) (x : Chan) (s : State) : (setChan a b x s).pins = s.pins := rfl
@[simp] theorem tileWriteN_pending (p a n v : Nat) (s : State) : (tileWriteN p a n v s).pending = s.pending := rfl
@[simp] theorem tileWriteN_fresh (p a n v : Nat) (s : State) : (tileWriteN p a n v s).fresh = s.fresh := rfl
@[simp] theorem tileWriteN_ran (p a n v : Nat) (s : State) : (tileWriteN p a n v s).ran = s.ran := rfl
@[simp] theorem tileWriteN_pkg (p a n v : Nat) (s : State) : (tileWriteN p a n v s).pkg = s.pkg := rfl
@[simp] theorem tileWriteN_prev (p a n v : Nat) (s : State) : (tileWriteN p a n v s).prev = s.prev := rfl
@[simp] theorem tileWriteN_cause (p a n v : Nat) (s : State) : (tileWriteN p a n v s).cause = s.cause := rfl
@[simp] theorem tileWriteN_rails (p a n v : Nat) (s : State) : (tileWriteN p a n v s).rails = s.rails := rfl
@[simp] theorem tileWriteN_count (p a n v : Nat) (s : State) : (tileWriteN p a n v s).count = s.count := rfl
@[simp] theorem tileWriteN_counting (p a n v : Nat) (s : State) : (tileWriteN p a n v s).counting = s.counting := rfl
@[simp] theorem tileWriteN_csr (p a n v : Nat) (s : State) : (tileWriteN p a n v s).csr = s.csr := rfl
@[simp] theorem tileWriteN_root (p a n v : Nat) (s : State) : (tileWriteN p a n v s).root = s.root := rfl
@[simp] theorem tileWriteN_log (p a n v : Nat) (s : State) : (tileWriteN p a n v s).log = s.log := rfl
@[simp] theorem tileWriteN_stepErr (p a n v : Nat) (s : State) : (tileWriteN p a n v s).stepErr = s.stepErr := rfl
@[simp] theorem tileWriteN_freezeF (p a n v : Nat) (s : State) : (tileWriteN p a n v s).freezeF = s.freezeF := rfl
@[simp] theorem tileWriteN_cores (p a n v : Nat) (s : State) : (tileWriteN p a n v s).cores = s.cores := rfl
@[simp] theorem tileWriteN_starts (p a n v : Nat) (s : State) : (tileWriteN p a n v s).starts = s.starts := rfl
@[simp] theorem tileWriteN_ramps (p a n v : Nat) (s : State) : (tileWriteN p a n v s).ramps = s.ramps := rfl
@[simp] theorem tileWriteN_engines (p a n v : Nat) (s : State) : (tileWriteN p a n v s).engines = s.engines := rfl
@[simp] theorem tileWriteN_hbm (p a n v : Nat) (s : State) : (tileWriteN p a n v s).hbm = s.hbm := rfl
@[simp] theorem tileWriteN_hbmBg (p a n v : Nat) (s : State) : (tileWriteN p a n v s).hbmBg = s.hbmBg := rfl
@[simp] theorem tileWriteN_poison (p a n v : Nat) (s : State) : (tileWriteN p a n v s).poison = s.poison := rfl
@[simp] theorem tileWriteN_depot (p a n v : Nat) (s : State) : (tileWriteN p a n v s).depot = s.depot := rfl
@[simp] theorem tileWriteN_depotCtl (p a n v : Nat) (s : State) : (tileWriteN p a n v s).depotCtl = s.depotCtl := rfl
@[simp] theorem tileWriteN_vregs (p a n v : Nat) (s : State) : (tileWriteN p a n v s).vregs = s.vregs := rfl
@[simp] theorem tileWriteN_masks (p a n v : Nat) (s : State) : (tileWriteN p a n v s).masks = s.masks := rfl
@[simp] theorem tileWriteN_chans (p a n v : Nat) (s : State) : (tileWriteN p a n v s).chans = s.chans := rfl
@[simp] theorem tileWriteN_rows (p a n v : Nat) (s : State) : (tileWriteN p a n v s).rows = s.rows := rfl
@[simp] theorem tileWriteN_spares (p a n v : Nat) (s : State) : (tileWriteN p a n v s).spares = s.spares := rfl
@[simp] theorem tileWriteN_fab (p a n v : Nat) (s : State) : (tileWriteN p a n v s).fab = s.fab := rfl
@[simp] theorem tileWriteN_links (p a n v : Nat) (s : State) : (tileWriteN p a n v s).links = s.links := rfl
@[simp] theorem tileWriteN_peers (p a n v : Nat) (s : State) : (tileWriteN p a n v s).peers = s.peers := rfl
@[simp] theorem tileWriteN_hal (p a n v : Nat) (s : State) : (tileWriteN p a n v s).hal = s.hal := rfl
@[simp] theorem tileWriteN_out (p a n v : Nat) (s : State) : (tileWriteN p a n v s).out = s.out := rfl
@[simp] theorem tileWriteN_dsps (p a n v : Nat) (s : State) : (tileWriteN p a n v s).dsps = s.dsps := rfl
@[simp] theorem tileWriteN_imgCore (p a n v : Nat) (s : State) : (tileWriteN p a n v s).imgCore = s.imgCore := rfl
@[simp] theorem tileWriteN_imgDsp (p a n v : Nat) (s : State) : (tileWriteN p a n v s).imgDsp = s.imgDsp := rfl
@[simp] theorem tileWriteN_slvs (p a n v : Nat) (s : State) : (tileWriteN p a n v s).slvs = s.slvs := rfl
@[simp] theorem tileWriteN_imgSlv (p a n v : Nat) (s : State) : (tileWriteN p a n v s).imgSlv = s.imgSlv := rfl
@[simp] theorem tileWriteN_sec (p a n v : Nat) (s : State) : (tileWriteN p a n v s).sec = s.sec := rfl
@[simp] theorem tileWriteN_upNs (p a n v : Nat) (s : State) : (tileWriteN p a n v s).upNs = s.upNs := rfl
@[simp] theorem tileWriteN_totals (p a n v : Nat) (s : State) : (tileWriteN p a n v s).totals = s.totals := rfl
@[simp] theorem tileWriteN_ckp (p a n v : Nat) (s : State) : (tileWriteN p a n v s).ckp = s.ckp := rfl
@[simp] theorem tileWriteN_col (p a n v : Nat) (s : State) : (tileWriteN p a n v s).col = s.col := rfl
@[simp] theorem tileWriteN_imgCol (p a n v : Nat) (s : State) : (tileWriteN p a n v s).imgCol = s.imgCol := rfl
@[simp] theorem tileWriteN_launch (p a n v : Nat) (s : State) : (tileWriteN p a n v s).launch = s.launch := rfl
@[simp] theorem tileWriteN_ownAbort (p a n v : Nat) (s : State) : (tileWriteN p a n v s).ownAbort = s.ownAbort := rfl
@[simp] theorem tileWriteN_pwr (p a n v : Nat) (s : State) : (tileWriteN p a n v s).pwr = s.pwr := rfl
@[simp] theorem tileWriteN_sync (p a n v : Nat) (s : State) : (tileWriteN p a n v s).sync = s.sync := rfl
@[simp] theorem tileWriteN_dig (p a n v : Nat) (s : State) : (tileWriteN p a n v s).dig = s.dig := rfl
@[simp] theorem tileWriteN_pins (p a n v : Nat) (s : State) : (tileWriteN p a n v s).pins = s.pins := rfl
@[simp] theorem emit_pending (e : OutMsg) (s : State) : (emit e s).pending = s.pending := rfl
@[simp] theorem emit_fresh (e : OutMsg) (s : State) : (emit e s).fresh = s.fresh := rfl
@[simp] theorem emit_ran (e : OutMsg) (s : State) : (emit e s).ran = s.ran := rfl
@[simp] theorem emit_pkg (e : OutMsg) (s : State) : (emit e s).pkg = s.pkg := rfl
@[simp] theorem emit_prev (e : OutMsg) (s : State) : (emit e s).prev = s.prev := rfl
@[simp] theorem emit_cause (e : OutMsg) (s : State) : (emit e s).cause = s.cause := rfl
@[simp] theorem emit_rails (e : OutMsg) (s : State) : (emit e s).rails = s.rails := rfl
@[simp] theorem emit_count (e : OutMsg) (s : State) : (emit e s).count = s.count := rfl
@[simp] theorem emit_counting (e : OutMsg) (s : State) : (emit e s).counting = s.counting := rfl
@[simp] theorem emit_csr (e : OutMsg) (s : State) : (emit e s).csr = s.csr := rfl
@[simp] theorem emit_root (e : OutMsg) (s : State) : (emit e s).root = s.root := rfl
@[simp] theorem emit_log (e : OutMsg) (s : State) : (emit e s).log = s.log := rfl
@[simp] theorem emit_stepErr (e : OutMsg) (s : State) : (emit e s).stepErr = s.stepErr := rfl
@[simp] theorem emit_freezeF (e : OutMsg) (s : State) : (emit e s).freezeF = s.freezeF := rfl
@[simp] theorem emit_cores (e : OutMsg) (s : State) : (emit e s).cores = s.cores := rfl
@[simp] theorem emit_starts (e : OutMsg) (s : State) : (emit e s).starts = s.starts := rfl
@[simp] theorem emit_ramps (e : OutMsg) (s : State) : (emit e s).ramps = s.ramps := rfl
@[simp] theorem emit_engines (e : OutMsg) (s : State) : (emit e s).engines = s.engines := rfl
@[simp] theorem emit_hbm (e : OutMsg) (s : State) : (emit e s).hbm = s.hbm := rfl
@[simp] theorem emit_hbmBg (e : OutMsg) (s : State) : (emit e s).hbmBg = s.hbmBg := rfl
@[simp] theorem emit_poison (e : OutMsg) (s : State) : (emit e s).poison = s.poison := rfl
@[simp] theorem emit_depot (e : OutMsg) (s : State) : (emit e s).depot = s.depot := rfl
@[simp] theorem emit_depotCtl (e : OutMsg) (s : State) : (emit e s).depotCtl = s.depotCtl := rfl
@[simp] theorem emit_tileSram (e : OutMsg) (s : State) : (emit e s).tileSram = s.tileSram := rfl
@[simp] theorem emit_vregs (e : OutMsg) (s : State) : (emit e s).vregs = s.vregs := rfl
@[simp] theorem emit_masks (e : OutMsg) (s : State) : (emit e s).masks = s.masks := rfl
@[simp] theorem emit_chans (e : OutMsg) (s : State) : (emit e s).chans = s.chans := rfl
@[simp] theorem emit_rows (e : OutMsg) (s : State) : (emit e s).rows = s.rows := rfl
@[simp] theorem emit_spares (e : OutMsg) (s : State) : (emit e s).spares = s.spares := rfl
@[simp] theorem emit_fab (e : OutMsg) (s : State) : (emit e s).fab = s.fab := rfl
@[simp] theorem emit_links (e : OutMsg) (s : State) : (emit e s).links = s.links := rfl
@[simp] theorem emit_peers (e : OutMsg) (s : State) : (emit e s).peers = s.peers := rfl
@[simp] theorem emit_hal (e : OutMsg) (s : State) : (emit e s).hal = s.hal := rfl
@[simp] theorem emit_dsps (e : OutMsg) (s : State) : (emit e s).dsps = s.dsps := rfl
@[simp] theorem emit_imgCore (e : OutMsg) (s : State) : (emit e s).imgCore = s.imgCore := rfl
@[simp] theorem emit_imgDsp (e : OutMsg) (s : State) : (emit e s).imgDsp = s.imgDsp := rfl
@[simp] theorem emit_slvs (e : OutMsg) (s : State) : (emit e s).slvs = s.slvs := rfl
@[simp] theorem emit_imgSlv (e : OutMsg) (s : State) : (emit e s).imgSlv = s.imgSlv := rfl
@[simp] theorem emit_sec (e : OutMsg) (s : State) : (emit e s).sec = s.sec := rfl
@[simp] theorem emit_upNs (e : OutMsg) (s : State) : (emit e s).upNs = s.upNs := rfl
@[simp] theorem emit_totals (e : OutMsg) (s : State) : (emit e s).totals = s.totals := rfl
@[simp] theorem emit_ckp (e : OutMsg) (s : State) : (emit e s).ckp = s.ckp := rfl
@[simp] theorem emit_col (e : OutMsg) (s : State) : (emit e s).col = s.col := rfl
@[simp] theorem emit_imgCol (e : OutMsg) (s : State) : (emit e s).imgCol = s.imgCol := rfl
@[simp] theorem emit_launch (e : OutMsg) (s : State) : (emit e s).launch = s.launch := rfl
@[simp] theorem emit_ownAbort (e : OutMsg) (s : State) : (emit e s).ownAbort = s.ownAbort := rfl
@[simp] theorem emit_pwr (e : OutMsg) (s : State) : (emit e s).pwr = s.pwr := rfl
@[simp] theorem emit_sync (e : OutMsg) (s : State) : (emit e s).sync = s.sync := rfl
@[simp] theorem emit_dig (e : OutMsg) (s : State) : (emit e s).dig = s.dig := rfl
@[simp] theorem emit_pins (e : OutMsg) (s : State) : (emit e s).pins = s.pins := rfl

end Sys2Proof.Machine
end

