-- ==== Sys2Proof/WellFormed.lean ====
section
/-! DEFINITION. Which commands are well formed: a message carries as many slots as its header says, a flit 31 slots, a frame at most 560 slots,
and lists of readings have the length of what they read. -/

namespace Sys2Proof

/-- A Caravan message of opcode `o` with the slots its header announces (R263, R264). -/
def Msg.wf (o : Nat) (m : Msg) : Bool := m.hdr.opc.toNat = o && m.slots.length = Machine.bodySlots m.hdr

/-- A flit: 31 slots after the header slot, reserved bits 0 (R260). -/
def Flit.wf (f : Flit) : Bool := f.slots.length = 31 && f.rsv = 0

/-- A Route frame of TYPE `t`: SLOTS slots, at most 560 (R286). -/
def RouteFrame.wf (t : Nat) (f : RouteFrame) : Bool := f.typ.toNat = t && f.slots.length = f.nslots.toNat && decide (f.slots.length ≤ 560)

/-- The lines a Halter message of an opcode carries; a CSR message's slot counts as one (R289, R291). -/
def halLineCount (o len : Nat) : Nat :=
  match o with
  | 0x05 | 0x18 | 0x19 => len + 1
  | 0x12 | 0x13 | 0x14 | 0x21 => 1
  | _ => 0

/-- A Halter message of opcode `o` (R289, R291). -/
def HalMsg.wf (o : Nat) (m : HalMsg) : Bool := m.opc.toNat = o && m.lines.length = halLineCount o m.len.toNat

/-- A chunk or a message with lines: 1 to 8 lines of slots (R312). -/
def ColMsg.wfLines (m : ColMsg) : Bool := decide (8 ≤ m.slots.length) && decide (m.slots.length ≤ 64) && decide (m.slots.length % 8 = 0)
/-- A control message: at most 7 slots after the collective slot (R263, R312). -/
def ColMsg.wfCtrl (m : ColMsg) : Bool := decide (m.slots.length ≤ 7)

/-- Well-formed commands. -/
def Instr.wf : Instr → Bool
  | .flitReceive _ f => f.wf
  | .rd _ m => m.wf 1
  | .rdrsp _ m => m.wf 2
  | .wr _ m => m.wf 3
  | .wrack _ m => m.wf 4
  | .caravanNack _ m => m.wf 5
  | .routeData _ f => f.wf 0
  | .routeAck _ f => f.wf 1
  | .rdS m => m.wf 0x01
  | .rdO m => m.wf 0x02
  | .upg m => m.wf 0x03
  | .rdNc m => m.wf 0x04
  | .wrFull m => m.wf 0x05
  | .snpInv m => m.wf 0x08
  | .snpDown m => m.wf 0x09
  | .rspI m => m.wf 0x10
  | .rspS m => m.wf 0x11
  | .rspDataI m => m.wf 0x12
  | .rspDataS m => m.wf 0x13
  | .wb m => m.wf 0x14
  | .cmp m => m.wf 0x15
  | .dataS m => m.wf 0x18
  | .dataO m => m.wf 0x19
  | .csrRd m => m.wf 0x20
  | .csrWr m => m.wf 0x21
  | .halterNack m => m.wf 0x3F
  | .exp m => m.wfLines
  | .data m => m.wfLines
  | .counts m _ => m.wfLines
  | .allow m _ => m.wfLines
  | .freezeMark m => m.wfLines
  | .progress m _ _ => m.wfCtrl
  | .abort m _ _ => m.wfCtrl
  | .flashPageWrite _ _ d => d.length = 4096
  | .sensorSample _ t _ _ => t.length = 12
  | .capTick _ _ l => l.length = 5
  | _ => true

end Sys2Proof
end

