-- ==== Sys2Proof/Tests/Slice0.lean ====
section
/-! SUPPORT. The model's own tests: ill-formed commands that WellFormed refuses, single steps with the values of the spec's text and worked
examples, and for every statement with hypotheses a concrete state and operands that meet them. -/

namespace Sys2Proof.Tests

set_option Elab.async false

open Sys2Proof Sys2Proof.Machine Sys2Proof.Claims

/-! ### Small states -/

/-- A running package. -/
def on : State := { State.reset with pkg := .running, rails := true }
/-- A core in the middle of its program. -/
def live : Core := { Core.init with st := .running }
/-- Core `c` of a running package. -/
def core (c : Nat) (k : Core) : State := setCore c k on
/-- An instruction's operand bits from D, P, Q and X. -/
def word (d p q x : Nat) : BitVec 22 := BitVec.ofNat 22 (d * 2 ^ 17 + p * 2 ^ 12 + q * 2 ^ 7 + x)
/-- An ISSUE's operand bits from TILE, D, P and Q. -/
def issueWord (tile d p q : Nat) : BitVec 24 := BitVec.ofNat 24 (tile * 2 ^ 21 + d * 2 ^ 16 + p * 2 ^ 11 + q * 2 ^ 6)
/-- No error event comes with a load. -/
def noEv : LoadEv := ⟨false, false, false⟩
/-- The next state of a command, where it answers one. -/
def after (i : Instr) (s : State) : State :=
  match exec i s with
  | .next t => t
  | _ => s
/-! ### Hypotheses over every byte of a range -/

theorem plain_low {off n : Nat} {s : State} (h : off + n ≤ 2 ^ 34)
    (hd : s.hal.dir = [] ∧ s.hal.snoops = [] ∧ s.hal.waiting = []) (hc : s.chans = []) : PlainRange off n s := by
  refine ⟨fun o h1 h2 => ⟨linearMap o, target_linear (by omega) s, ?_, ?_⟩, fun o u h1 h2 h3 h4 e => target_linear_inj (by omega) (by omega) e⟩
  · simp [writeHeld, snooped, awaited, hd, sFind]
  · simp [chanOos, hc, sGet, Chan.init]

theorem apart_low {a n b m : Nat} {s : State} (h1 : a + n ≤ 2 ^ 34) (h2 : b + m ≤ 2 ^ 34) (h : a + n ≤ b ∨ b + m ≤ a) : Apart a n b m s := by
  intro o u h3 h4 h5 h6 e
  have := target_linear_inj (by omega) (by omega) e
  omega

/-- Words below 16 GiB of package 0 are at home when they are aligned and apart. -/
theorem home_low {ws : List (Nat × Nat × Nat)} {s : State} (hp : pkgNum s = 0)
    (hd : s.hal.dir = [] ∧ s.hal.snoops = [] ∧ s.hal.waiting = []) (hc : s.chans = [])
    (hw : ∀ w ∈ ws, w.1 < 2 ^ 34 ∧ (w.2.1 = 1 ∨ w.2.1 = 4 ∨ w.2.1 = 8) ∧ w.1 % w.2.1 = 0)
    (ha : ws.Pairwise (fun a b => a.1 + a.2.1 ≤ b.1 ∨ b.1 + b.2.1 ≤ a.1)) : WordsAtHome ws s := by
  have off : ∀ w ∈ ws, offOf w.1 = w.1 := fun w h => by have := (hw w h).1; unfold offOf; omega
  refine ⟨fun w h => ⟨?_, (hw w h).2.2, linearMap w.1, ?_, ?_, ?_⟩, ?_⟩
  · have := (hw w h).1
    have e : w.1 / 2 ^ 48 % 2 ^ 16 = 0 := by omega
    unfold isLocal
    rw [e, hp]; rfl
  · rw [off w h]; exact target_linear (hw w h).1 s
  · simp [writeHeld, snooped, awaited, hd, sFind]
  · simp [chanOos, hc, sGet, Chan.init]
  · refine ha.imp_of_mem (fun {a b} hma hmb hab p q ea eb => ?_)
    rw [off a hma, target_linear (hw a hma).1] at ea
    rw [off b hmb, target_linear (hw b hmb).1] at eb
    cases ea; cases eb
    obtain ⟨_, h1, h2⟩ := hw a hma
    obtain ⟨_, h3, h4⟩ := hw b hmb
    refine linearMap_apart ?_ ?_ hab
    · rcases h1 with h | h | h <;> rw [h] at h2 ⊢ <;> omega
    · rcases h3 with h | h | h <;> rw [h] at h4 ⊢ <;> omega


/-- An empty Depot takes any line. -/
theorem takes_empty {d : Fin 4} {pl : Nat} {s : State} (h : s.depot = []) (hd : s.hal.dir = []) : DepotTakes d pl s :=
  Or.inr ⟨by simp [waysOf, h], fun _ => by simp [dirLines, h, hd]⟩
/-! ### Cores: the hypotheses of their statements are met -/

/-- A general register that holds an address of the spread HBM window, one of the tile window of tile 0, a count of a minute ahead. -/
def busy : Core := setG 3 0xFFFF200000000000 (setG 2 60000000000 (setG 1 0xFFFF000000000000 live))

theorem witness_LocalWritesReadBack :
    target 0x40 on = .hbm 0x40 ∧ chanOos (0x40 / 128) on = false ∧ 0x40 % 128 + 64 ≤ 128 ∧ target 0x200000000000 on = .tile 0 0 := by
  decide +kernel

theorem witness_AluRegisterForms : Ready 0 (core 0 live) ∧ Ready 43 (core 43 live) ∧ fX (word 31 1 2 0) = 0 ∧ fQ (word 31 1 0 0) = 0 := by
  unfold Ready; decide +kernel

theorem witness_ImmediateForms :
    Ready 0 (core 0 live) ∧ bitsAt (word 1 2 0 9).toNat 0 12 = 9 ∧ bitsAt (word 1 2 0 10).toNat 0 12 = 10 ∧ bitsAt (0x2FFFF : BitVec 22).toNat 16 1 = 0 := by
  unfold Ready; decide +kernel

theorem witness_BranchesAndJumps : Ready 0 (core 0 live) ∧ (getG busy 2 + BitVec.ofInt 64 (fImm (word 0 2 0 0))).toNat % 4 = 0 := by
  unfold Ready; decide +kernel

theorem witness_SummaryClass :
    Ready 0 (core 0 live) ∧ NoTrapFor 0 7 (core 0 live) ∧ 7 ∉ (getCore 0 (core 0 live)).sPend ∧
    7 ∈ (getCore 0 (core 0 { live with sPend := [7] })).sPend ∧ Ready 0 (core 0 { live with sPend := [7] }) := by
  unfold Ready NoTrapFor; decide +kernel

theorem witness_ShortVectors :
    Ready 0 (core 0 live) ∧ fD (word 15 15 15 6) = 15 ∧ bitsAt (word 15 15 15 6).toNat 0 4 = 6 ∧ bitsAt (word 15 15 15 6).toNat 4 3 = 0 ∧
    codeBits 9 * (3 + 1) ≤ 256 ∧ bitsAt (word 15 15 15 (16 + 5)).toNat 4 3 = 1 := by
  unfold Ready; decide +kernel

theorem witness_Loads :
    let s := core 0 busy
    let hit := { s with depot := [(0, ⟨5, false, false, 0, [], true⟩)] }
    Ready 0 s ∧ accessAddr 0 (word 4 3 0 0) s = 0xFFFF200000000000 ∧ isLocal 0xFFFF200000000000 s = true ∧
    target (offOf 0xFFFF200000000000) s = .tile 0 0 ∧ accessAddr 0 (word 4 1 0 0) s = 0xFFFF000000000000 ∧ target 0 s = .hbm 0 ∧
    Ready 0 hit ∧ sFind hit.depot 0 = some ⟨5, false, false, 0, [], true⟩ ∧ sFind s.depot 0 = none ∧ readHeld 0 s = false ∧ (0 : Nat) < compKey 0 := by
  unfold Ready; decide +kernel

theorem witness_LoadDataReturn :
    (let s := core 0 { live with load := some ⟨4, 8, false, false, 0xFFFF000000000000, none, false⟩ }
    (getCore 0 s).load.isSome = true ∧ (getCore 0 s).st ≠ .stopped ∧ target 0 s = .hbm 0 ∧ sFind s.depot 0 = none ∧ readHeld 0 s = false ∧
    linePoison 0 s = false) ∧
    DepotTakes (coreDie 0 0) 0 (core 0 { live with load := some ⟨4, 8, false, false, 0xFFFF000000000000, none, false⟩ }) :=
  ⟨by decide +kernel, takes_empty rfl rfl⟩

theorem witness_Stores :
    (let s := core 0 busy
    let held := { s with hal := { s.hal with dir := [(0, .shared)] } }
    Ready 0 s ∧ isLocal (accessAddr 0 (word 4 1 0 0) s).toNat s = true ∧ target (offOf (accessAddr 0 (word 4 1 0 0) s).toNat) s = .hbm 0 ∧
    writeHeld 0 s = false ∧ writeHeld 0 held = true ∧ Ready 0 held ∧ target (offOf (accessAddr 0 (word 4 3 0 0) s).toNat) s = .tile 0 0) ∧
    DepotTakes (coreDie 0 0) 0 (core 0 busy) :=
  ⟨by unfold Ready; decide +kernel, takes_empty rfl rfl⟩

theorem witness_Atomics :
    (let s := core 0 busy
    Ready 0 s ∧ fX (word 4 1 2 0) = 0 ∧ (getG (getCore 0 s) 1).toNat % 8 = 0 ∧ target (offOf (getG (getCore 0 s) 1).toNat) s = .hbm 0 ∧
    writeHeld 0 s = false ∧ linePoison 0 s = false) ∧
    DepotTakes (Fin.ofNat 4 (homeDie 0)) 0 (core 0 busy) :=
  ⟨by unfold Ready; decide +kernel, takes_empty rfl rfl⟩

theorem witness_SystemClass :
    let s := core 0 busy
    Ready 0 s ∧ (getCore 0 s).wait = none ∧ fP (word 4 0 0 3) = 0 ∧ bitsAt (word 4 0 0 3).toNat 0 12 = 3 ∧
    trappedTile 0 (fun _ => true) s = none ∧ s.count.toNat + 20000 ≤ (getG (getCore 0 s) 2).toNat ∧ s.ramps.length < 8 ∧
    fP (word 0 2 0 0) = 2 := by unfold Ready; decide +kernel

theorem witness_Waits :
    (let s := core 0 { busy with out := [⟨0, 7, 1, none⟩] }
    Ready 0 s ∧ trappedTile 0 (fun _ => true) s = none ∧ (getCore 0 s).out ≠ [] ∧ hasTxn (fun x => !x.isRead && ownEngine 0 x.owner) s = false ∧
    hasTxn (fun x => !x.isRead && ownEngine 0 x.owner)
      (setFab 0 { FabDie.init with txns := [⟨0, false, 1, 0, 1, .eng (kSx 0), false⟩] } s) = true ∧
    target (offOf (getG (getCore 0 s) 1).toNat) s = .hbm 0 ∧ linePoison 0 s = false ∧ writeHeld 0 s = false) ∧
    DepotTakes (Fin.ofNat 4 (homeDie 0)) 0 (core 0 { busy with out := [⟨0, 7, 1, none⟩] }) :=
  ⟨by unfold Ready; decide +kernel, takes_empty rfl rfl⟩

theorem witness_Faults :
    let bad := { core 0 live with poison := [0] }
    canRetire (getCore 0 (core 0 live)) = true ∧ fetchFault (getCore 0 (core 0 live)) (core 0 live) = none ∧ fX (word 0 0 0 1) ≠ 0 ∧
    fQ (word 0 0 1 0) ≠ 0 ∧ (16 ≤ fD (word 16 0 0 0)) ∧ bitsAt (0x10000 : BitVec 22).toNat 16 1 = 1 ∧
    (accessAddr 0 (word 0 1 0 1) (core 0 busy)).toNat % 2 ≠ 0 ∧
    (getCore 0 (core 0 { live with first := true, pc := 2 })).pc.toNat % 4 ≠ 0 ∧ target 0 bad = .hbm 0 ∧ linePoison 0 bad = true ∧
    target 0x200000000000 on = .tile 0 0 := by decide +kernel

theorem witness_CoreEvents :
    let waits := core 0 { live with st := .waiting, wait := some ⟨4, 0, none, 0xFFFF000000000000, 0, 0, some 7⟩ }
    let parks := core 0 { live with parkFrom := some 0 }
    let starts := core 0 { Core.init with start := some ⟨0x100, 0, 7⟩ }
    let l : LaunchRec := ⟨9, 0x100, 0, 5, 0, 0, [], 0, none, [], [], [], [], [], true, none, true, 0, [], []⟩
    (getCore 0 waits).st = .waiting ∧ target (offOf 0xFFFF000000000000) waits = .hbm 0 ∧ bitsAt (lineNat 0 waits) 0 64 = 0 ∧
    effF (seqBase 0) R.SEQ_CTRL_WAIT_LIMIT_EN R.SEQ_CTRL_LEVEL (setF (seqBase 0) R.SEQ_CTRL_WAIT_LIMIT_EN 1 (setF (seqBase 0) R.SEQ_CTRL_LEVEL 1 waits)) = 1 ∧
    freezeDue { waits with freezeF := some 0 } = true ∧ queuesEmpty 0 parks = true ∧ (getCore 0 parks).parkFrom = some 0 ∧
    (getCore 0 starts).start = some ⟨0x100, 0, 7⟩ ∧ (getCore 0 starts).st = .idle ∧ ({ on with launch := some l }).launch = some l ∧ getF ckpBase R.CKP_RANK_ROLE on ≠ 1 ∧
    (getCore 0 (core 0 { live with st := .faulted })).st = .faulted ∧ on.col.runs = [] := by decide +kernel

/-- An instruction for an engine of core 0. -/
def insOf (kind tile : Nat) (tag : BitVec 16) (sum : Option Nat) : EngIns :=
  ⟨0, kind, tile, tag, 0, 0, 0, 0, sum, 0, 0, 0, 0, 0, 0, 0, false, false, 0⟩

theorem witness_PendingTraps :
    let x := insOf 1 0 5 (some 2)
    let s := setEng (kVx 0) { Engine.init with queue := [x], trap := some ⟨0, 0, 0, [], false⟩ } (core 0 live)
    let armed := setF (seqBase 0) R.SEQ_TVEC_LO_ADDR 0x100 s
    Ready 0 s ∧ (getCore 0 s).wait = none ∧ (getCore 0 s).trapMask = false ∧ trappedTile 0 (fun _ => true) s = some (0, x) ∧
    trappedTile 0 (fun y => y.sum = some (fS (word 8 0 0 0))) s = some (0, x) ∧
    getPair (seqBase 0) R.SEQ_TVEC_LO_ADDR R.SEQ_TVEC_HI_ADDR s = 0 ∧ getPair (seqBase 0) R.SEQ_TVEC_LO_ADDR R.SEQ_TVEC_HI_ADDR armed ≠ 0 := by
  unfold Ready; decide +kernel

theorem witness_Issue :
    let s := core 0 (setG 1 0xFFFF000000000000 live)
    let full := setEng (kMx 63) { Engine.init with cross := List.replicate 4 (insOf 0 7 0 none) } (core 7 live)
    let b := natBytes (0x40 + 2 ^ 193) 32
    let started := writeOff 0 32 (bytesNat b) (core 36 (setG 1 0xFFFF000000000000 live))
    Ready 0 s ∧ issueLegal 0 0 (issueWord 7 4 1 2) = true ∧ issueLegal 2 0 (issueWord 7 4 0 0) = true ∧ issueLegal 8 43 (issueWord 7 4 1 0) = true ∧
    (getEng (kMx 0) s).cross.length + (getEng (kMx 0) s).queue.length < 4 ∧ engKey 0 7 7 = kMx 63 ∧
    4 ≤ (getEng (kMx 63) full).cross.length ∧ (getEng (kVx 0) s).trap = none ∧ Ready 36 started ∧
    issueLegal 0xA 36 (issueWord 0 4 1 0) = true ∧ bitAt (bitsAt (readOff 0 32 started) 192 36) 1 = true ∧
    bitsAt (readOff 0 32 started) 228 28 = 0 ∧ bitsAt (readOff 0 32 started) 64 64 = 0 ∧ target 0 started = .hbm 0 ∧ readHeld 0 started = false ∧
    localPoison 0 started = false ∧ dspTakes 0 0 0xFFFF000000000000 s = true ∧ (getCore 1 started).st = .idle := by
  unfold Ready; decide +kernel

/-! ### Engines: the hypotheses of their statements are met -/

/-- `n` bytes of `v` at a local offset. -/
def put (off n v : Nat) (s : State) : State := writeBy .none off n v s
/-- An engine with instruction `x` crossing into its island. -/
def crossing1 (k : Nat) (x : EngIns) (s : State) : State := setEng k { Engine.init with cross := [x] } s
/-- An engine with instruction `x` at the front of its queue. -/
def queued (k : Nat) (x : EngIns) (s : State) : State := setEng k { Engine.init with queue := [x] } s
/-- An instruction whose operand P is `p`. -/
def insP (p : Nat) : EngIns := { insOf 0 0 5 (some 2) with p := BitVec.ofNat 64 p }
/-- A VX instruction word: opcode, format, VD, VS1, VS2, VL. -/
def vxWord (o f vd v1 v2 vl : Nat) : Nat := o + 2 ^ 8 * f + 2 ^ 16 * vd + 2 ^ 21 * v1 + 2 ^ 26 * v2 + 2 ^ 38 * (vl - 1)

theorem witness_StateWindows :
    let s := { on with pkg := .frozen, imgCore := [(3, (1, live, []))], imgDsp := [(3, (2, Dsp.init))], imgSlv := [(7, (3, Engine.init))],
                       imgCol := some (4, on.col) }
    s.pkg = .frozen ∧ (0x8FC : BitVec 12).toNat % 4 = 0 ∧ 0x808 ≤ (0x8FC : BitVec 12).toNat ∧ (0x8FC : BitVec 12).toNat < 0x900 ∧
    0xC00 ≤ (0xDFC : BitVec 12).toNat ∧ (0xDFC : BitVec 12).toNat < 0xE00 ∧ 0xE00 ≤ (0xE1C : BitVec 12).toNat ∧ (0xE1C : BitVec 12).toNat < 0xE20 ∧
    sFind s.imgCore 3 = some (1, live, []) ∧ sFind s.imgDsp 3 = some (2, Dsp.init) ∧ sFind s.imgSlv 7 = some (3, Engine.init) ∧
    s.imgCol = some (4, on.col) ∧ 0x1000 ≤ (0x1020 : BitVec 14).toNat ∧ (0x1020 : BitVec 14).toNat < 0x1100 ∧ 0x2000 ≤ (0x3FFC : BitVec 14).toNat ∧
    on.pkg ≠ .frozen := by decide +kernel

/-- Both an image's own word and another one exist. -/
theorem witness_StateWindowWords :
    ∃ v w : Word, v = imageWord (seqBase 3 + 0xE00) 1 (0xE1C - 0xE00) ∧ w ≠ imageWord (seqBase 3 + 0xE00) 1 (0xE1C - 0xE00) := by
  refine ⟨_, imageWord (seqBase 3 + 0xE00) 1 (0xE1C - 0xE00) + 1, rfl, ?_⟩
  generalize imageWord (seqBase 3 + 0xE00) 1 (0xE1C - 0xE00) = x
  intro h; have := congrArg BitVec.toNat h; simp [BitVec.toNat_add] at this; omega

theorem witness_RestoreRegisters : ({ on with pkg := .frozen }).pkg = .frozen ∧ on.pkg ≠ .frozen := by decide

/-- A legal 1 × 1 × 1 multiply, a legal conversion, copy, stencil and solve, each rejected at an odd address. -/
theorem witness_Acceptance :
    let mx := put (0x200000000000 + 0x1000) 64 (0x80 * 2 ^ 96 + 0x400 * 2 ^ 160 + 0x10001 * 2 ^ 384 + 0x10001 * 2 ^ 416) on
    let m := crossing1 (kMx 0) (insP 0x1000) mx
    let v := crossing1 (kVx 287) (insP (vxWord 0 9 1 2 3 4)) on
    let sx := put (0x200000000000 + 0x1000) 128 (8 * 2 ^ 96) on
    let x := crossing1 (kSx 0) (insP 0xFFFF200000001000) sx
    let asy := put 0x1000 64 (1 + 6 * 2 + 9 * 2 ^ 5 + 128 * 2 ^ 128 + 0x10001 * 2 ^ 448) on
    let a := crossing1 (kAsy 35) (insP 0xFFFF000000001000) asy
    let por := put 0x1000 128 (8 * 2 ^ 192) on
    let p := crossing1 (kPor 35) (insP 0xFFFF000000001000) por
    let slv := put 0x1000 128 (0x2000 * 2 ^ 512 + 8 * 2 ^ 768) on
    let e := crossing1 (kSlv 7) (insP 0xFFFF000000001000) slv
    (getEng (kMx 0) m).cross = [insP 0x1000] ∧ (getEng (kMx 0) m).queue.length < 4 ∧
    tileMarked 0 0x1000 64 m = false ∧ firstFailing (mxChecks false 0x1000 (mxD (mxCfg 0 m) (mxDesc 0 (insP 0x1000) m))) = none ∧
    firstFailing (mxChecks false 0x1001 (mxD (mxCfg 0 m) (mxDesc 0 (insP 0x1001) m))) = some 3 ∧
    tileMarked 287 (32 * bitsAt (insP (vxWord 0 9 1 2 3 4)).p.toNat 16 18) 32 v = false ∧ (getEng (kVx 287) v).cross ≠ [] ∧ firstFailing (vxChecks false (vxD (insP (vxWord 0 9 1 2 3 4)) 0)) = none ∧
    firstFailing (vxChecks false (vxD (insP (vxWord 0xFF 9 1 2 3 4)) 0)) = some 1 ∧
    tileMarked 0 0x1000 128 x = false ∧ (getEng (kSx 0) x).cross ≠ [] ∧ firstFailing (sxChecks 0 false false 0xFFFF200000001000 ⟨sxDesc 0 false (insP 0xFFFF200000001000) x⟩ x) = none ∧
    firstFailing (sxChecks 0 true false 0xFFFF200000001000 ⟨sxDesc 0 false (insP 0xFFFF200000001000) x⟩ x) = some 6 ∧
    (getEng (kAsy 35) a).cross ≠ [] ∧ blockAsk 64 0xFFFF000000001000 a = none ∧ firstFailing (asyChecks 35 false 0xFFFF000000001000 ⟨readOff (offOf 0xFFFF000000001000) 64 a⟩ a) = none ∧
    firstFailing (asyChecks 35 true 0xFFFF000000001000 ⟨readOff (offOf 0xFFFF000000001000) 64 a⟩ a) = some 6 ∧
    (getEng (kPor 35) p).cross ≠ [] ∧ blockAsk 128 0xFFFF000000001000 p = none ∧ firstFailing (porChecks 35 false 0xFFFF000000001000 ⟨readOff (offOf 0xFFFF000000001000) 128 p⟩ p) = none ∧
    firstFailing (porChecks 35 true 0xFFFF000000001000 ⟨readOff (offOf 0xFFFF000000001000) 128 p⟩ p) = some 6 ∧
    (getEng (kSlv 7) e).cross ≠ [] ∧ blockAsk 128 0xFFFF000000001000 e = none ∧
    firstFailing (slvChecks false 0xFFFF000000001000 ⟨readOff (offOf 0xFFFF000000001000) 128 e + 2 ^ 1024 * slvPivot 7 e⟩ e) = none ∧
    firstFailing (slvChecks true 0xFFFF000000001000 ⟨readOff (offOf 0xFFFF000000001000) 128 e + 2 ^ 1024 * slvPivot 7 e⟩ e) = some 7 := by
  decide +kernel

theorem witness_Completion :
    let x := { insOf 0 0 5 (some 2) with phase := 1 }
    let y := { insOf 0 0 5 none with value := 1 }
    (getEng (kMx 3) (queued (kMx 3) x on)).queue = [x] ∧ (getEng (kVx 3) (queued (kVx 3) x on)).queue = [x] ∧
    (getEng (kSx 3) (queued (kSx 3) x on)).queue = [x] ∧ (getEng (kAsy 3) (queued (kAsy 3) x on)).queue = [x] ∧
    (getEng (kPor 3) (queued (kPor 3) x on)).queue = [x] ∧ x.phase ≠ 0 ∧
    hasTxn (fun q => q.owner = .eng (kPor 3)) (queued (kPor 3) x on) = false ∧
    (getEng (kSlv 3) (queued (kSlv 3) y on)).queue = [y] ∧ y.phase = 0 ∧ writesOpen (.eng (kSlv 3)) on = false ∧ (⟨y.desc⟩ : SlvD).batch ≤ y.value := by decide +kernel

theorem witness_VectorRegisterForms :
    let x := insP (vxWord 0x01 9 31 2 3 32)
    let c := insP (vxWord 0x20 9 7 2 3 32)
    (∃ rest, (getEng (kVx 287) (queued (kVx 287) x on)).queue = x :: rest) ∧ (getEng (kVx 287) (queued (kVx 287) x on)).trap = none ∧ x.phase = 0 ∧
    (vxD x x.desc).opc = 0x01 ∧ bitsAt x.cfg.toNat 1 4 = 0 ∧ (vxD x x.desc).stream = false ∧ (vxD x x.desc).vl * (vxD x x.desc).wd ≤ 2048 ∧
    (∃ rest, (getEng (kVx 0) (queued (kVx 0) c on)).queue = c :: rest) ∧ (vxD c c.desc).opc = 0x20 ∧ c.phase = 0 := by
  refine ⟨⟨[], by decide +kernel⟩, ?_⟩
  refine ⟨by decide +kernel, by decide +kernel, by decide +kernel, by decide +kernel, by decide +kernel, by decide +kernel, ⟨[], by decide +kernel⟩, ?_⟩
  decide +kernel

theorem witness_VectorMoves :
    let x := insP (vxWord 0x70 9 1 2 3 32)
    let y := { insP (vxWord 0x73 9 1 2 3 2) with q := 0x5FFF80, stride := BitVec.ofNat 64 (2 ^ 64 - 1) }
    VxFront 0 0x70 x (queued (kVx 0) x on) ∧ VxFront 0 0x73 y (queued (kVx 0) y on) ∧ (vxD x x.desc).stream = false ∧
    (vxD x x.desc).vl * (vxD x x.desc).ws ≤ 2048 ∧ (vxD x x.desc).fmt ∈ vxFmts ∧ signed 64 (vxD y y.desc).stride = -1 ∧
    ∀ e : Nat, e < (vxD y y.desc).vl →
      (0 : Int) ≤ ((vxD y y.desc).scalar : Int) + e * signed 64 (vxD y y.desc).stride * (((vxD y y.desc).ws / 8 : Nat) : Int) := by
  unfold VxFront
  refine ⟨⟨⟨[], by decide +kernel⟩, by decide +kernel⟩, ⟨⟨[], by decide +kernel⟩, by decide +kernel⟩, by decide +kernel, by decide +kernel, by decide +kernel,
    by decide +kernel, by decide +kernel⟩

theorem witness_VectorStreams :
    let desc := 1 + 0x2000 * 2 ^ 32 + 1 * 2 ^ 160
    let x := { insP (0x00 + 2 ^ 8 * 9 + 2 ^ 12) with desc := desc }
    let c := { insP (0x20 + 2 ^ 8 * 9 + 2 ^ 12) with desc := desc }
    VxFront 0 0x00 x (queued (kVx 0) x on) ∧ VxFront 0 0x20 c (queued (kVx 0) c on) ∧ (vxD x x.desc).stream = true ∧ (vxD x x.desc).str 0 ≠ 0 ∧
    ∀ e : Nat, e < (vxD x x.desc).vl →
      (0 : Int) ≤ ((vxD x x.desc).addr 1 : Int) + e * (vxD x x.desc).str 0 * (((vxD x x.desc).wd / 8 : Nat) : Int) := by
  unfold VxFront
  refine ⟨⟨⟨[], by decide +kernel⟩, by decide +kernel⟩, ⟨⟨[], by decide +kernel⟩, by decide +kernel⟩, by decide +kernel, by decide +kernel, by decide +kernel⟩

theorem witness_VectorReductions :
    let x := insP (vxWord 0x60 9 1 2 3 32)
    let v := vxWord 0x00 9 1 2 3 32
    let y := { insP v with cfg := 0x1E }
    let s := setM 5 0 (BitVec.ofNat 256 1) (setV 5 3 (BitVec.ofNat 2048 0xFFF0000000000000) (setV 5 2 (BitVec.ofNat 2048 0x7FF0000000000000)
      (queued (kVx 5) y on)))
    let g : VxTrap := ⟨31, 1, getV 5 2 s, [], false⟩
    let z := { insP v with cfg := 0 }
    let r := setEng (kVx 5) { Engine.init with queue := [z], trap := some g } s
    (getEng (kVx 5) (queued (kVx 5) x on)).queue = [x] ∧ tileMarks 5 on = [] ∧ g.bad = [] ∧ (getEng (kVx 5) (queued (kVx 5) x on)).trap = none ∧ x.phase = 0 ∧ (vxD x x.desc).opc = 0x60 ∧
    bitAt (getM 5 (vxD y y.desc).mask s).toNat 0 = true ∧
    (elemFp 0 (vxD y y.desc).rm fp64 0x7FF0000000000000 0xFFF0000000000000 0).2 % 16 &&& bitsAt y.cfg.toNat 1 4 ≠ 0 ∧
    regLane 5 (vxD y y.desc) s 1 0 = 0x7FF0000000000000 ∧ regLane 5 (vxD y y.desc) s 2 0 = 0xFFF0000000000000 ∧
    (getEng (kVx 5) r).trap = some g ∧ (vxD z z.desc).vl * (vxD z z.desc).wd ≤ 2048 ∧ g.index < (vxD z z.desc).vl ∧ bitsAt z.cfg.toNat 1 4 = 0 ∧
    (vxD z z.desc).vs 1 ≠ (vxD z z.desc).vd ∧ g.src = getV 5 ((vxD z z.desc).vs 1) r ∧ bitAt (getM 5 (vxD z z.desc).mask r).toNat g.index = true := by
  decide +kernel

/-! ### Registers, memory, links, Route and Halter: the hypotheses of their statements are met -/

/-- A mapped register whose block and description satisfy `p`. -/
def isReg (off : Nat) (p : Blk → Reg → Bool) : Bool :=
  match csrPlace off with
  | .reg k _ _ r => p k r
  | _ => false

theorem witness_RegisterAccesses :
    let off := pkgBase + R.PKG_XD_MODE_MODE.off
    let seqOff := seqBase 0 + R.SEQ_TVEC_LO_ADDR.off
    let a : CsrAcc := ⟨.halter, depBase 0, some 1, 0, 0, false⟩
    let s := { on with root := { on.root with posted := [(19, a)] } }
    let r := { on with root := { on.root with held := some ⟨.halter, depBase 0, none, 7, 1, true⟩ } }
    let c := core 0 (setG 1 (BitVec.ofNat 64 seqOff) live)
    let p := core 36 (setG 1 (BitVec.ofNat 64 off) live)
    csrUp on = true ∧ on.root.held = none ∧ isReg off (fun k x => storesOnly k x.off) = true ∧ off % 4 = 0 ∧ off < 0x30000 ∧
    csrUnmapped .halter 0x70000 = true ∧ domOf (depBase 0) = some 19 ∧ csrUnmapped .halter (depBase 0) = false ∧ domPowered 19 on = true ∧
    getF pkgBase R.PKG_XD_MODE_MODE (setF pkgBase R.PKG_XD_MODE_MODE 1 on) = 1 ∧ getF pkgBase R.PKG_XD_MODE_MODE (setF pkgBase R.PKG_XD_MODE_MODE 0 on) ≠ 1 ∧
    crossing 19 s = true ∧ crossing 19 on = false ∧ sFind s.root.posted 19 = some a ∧ isReg (depBase 0) (fun k x => storesOnly k x.off) = true ∧
    domPowered 19 s = true ∧ r.root.held.isSome = true ∧ domOf (depBase 0) = some 19 ∧ isReg (depBase 0) (fun k x => freeBits k 0 x.off r = none) = true ∧
    sFind r.root.posted 19 = none ∧ r.root.waiting = [] ∧
    Ready 0 c ∧ (getG (getCore 0 c) (fP (word 4 1 0 0)) + BitVec.ofInt 64 (fImm (word 4 1 0 0))).toNat = seqOff ∧ seqOff % 4 = 0 ∧
    isReg seqOff (fun k x => freeBits k 0 x.off c = none && storesOnly k x.off) = true ∧ droverReach 0 seqOff = true ∧
    Ready 36 p ∧ (getG (getCore 36 p) (fP (word 4 1 0 0)) + BitVec.ofInt 64 (fImm (word 4 1 0 0))).toNat = off ∧
    isReg off (fun k _ => k = .pkg) = true ∧ (getCore 36 p).first = false ∧ p.root.held = none ∧
    bitsAt (0x0F : BitVec 8).toNat 0 4 = 15 ∧ bitsAt (0x0F : BitVec 8).toNat 4 4 ≠ 15 ∧ isReg off (fun k x => freeBits k 0 x.off on = none) = true := by
  unfold Ready; decide +kernel

theorem witness_Channels :
    let out := setChan 11 31 { Chan.init with st := .outOfService, passed := true } on
    let test := setChan 11 31 { Chan.init with st := .selfTest } on
    chanOos (chanLine 11 31 5) on = false ∧ effF (stackBase 11) R.MEM_CFG_SCRUB_EN R.MEM_CFG_LEVEL (setF (stackBase 11) R.MEM_CFG_SCRUB_EN 1 (setF (stackBase 11) R.MEM_CFG_LEVEL 1 on)) = 1 ∧
    chanOos (chanLine 11 31 5) out = true ∧ effF (stackBase 11) R.MEM_CFG_SCRUB_EN R.MEM_CFG_LEVEL (setF (stackBase 11) R.MEM_CFG_SCRUB_EN 0 (setF (stackBase 11) R.MEM_CFG_LEVEL 1 on)) ≠ 1 ∧
    (getChan 11 31 out).st = .outOfService ∧ (getChan 11 31 out).passed = true ∧ (getChan 11 31 test).st = .selfTest ∧
    (getChan 11 31 on).st ≠ .outOfService ∧ ({ on with pkg := .ready }).pkg = .ready ∧ on.pkg ≠ .ready ∧
    getF (stackBase 11) R.MEM_UE_ADDR_HI_VALID on = 0 ∧ getF (stackBase 11) R.MEM_UE_ADDR_HI_VALID (setF (stackBase 11) R.MEM_UE_ADDR_HI_VALID 1 on) = 1 := by
  decide +kernel

theorem witness_Retraining :
    let other := setChan 11 0 { Chan.init with st := .retraining } on
    let between := setChan 11 31 { Chan.init with st := .retraining, slices := 23 } { on with pkg := .ready }
    let inside := setChan 11 31 { Chan.init with st := .retraining, slices := 1, inSlice := true } { on with pkg := .ready }
    let again := setChan 11 31 { Chan.init with st := .retraining, slices := 24, inSlice := true, fails := 1 } { on with pkg := .ready }
    (getChan 11 31 on).st = .inService ∧ otherRetrains 11 31 on = false ∧ otherRetrains 11 31 other = true ∧ (getChan 11 31 between).st ≠ .inService ∧
    effF (stackBase 11) R.MEM_CFG_RETRAIN_AUTO R.MEM_CFG_LEVEL (setF (stackBase 11) R.MEM_CFG_RETRAIN_AUTO 1 (setF (stackBase 11) R.MEM_CFG_LEVEL 1 on)) = 1 ∧
    effF (stackBase 11) R.MEM_CFG_RETRAIN_AUTO R.MEM_CFG_LEVEL (setF (stackBase 11) R.MEM_CFG_RETRAIN_AUTO 0 (setF (stackBase 11) R.MEM_CFG_LEVEL 1 on)) ≠ 1 ∧
    (getChan 11 31 between).st = .retraining ∧ (getChan 11 31 between).inSlice = false ∧ (getChan 11 31 between).slices < 24 ∧
    (getChan 11 31 inside).inSlice = true ∧ (getChan 11 31 inside).slices < 24 ∧ (getChan 11 31 inside).fails = 0 ∧
    (getChan 11 31 again).fails ≠ 0 ∧ again.pkg ≠ .running ∧ ∀ j, j < 32 → (getChan 11 j inside).trig = false := by decide +kernel

theorem witness_DepotsReduce :
    let held := { on with hal := { on.hal with dir := [(0, .shared)] } }
    let s := { on with pkg := .ready, depot := [(2 ^ 33 - 1, ⟨5, true, false, 3, [], true⟩)] }
    target (3 * 2 ^ 44 + 2 ^ 41) on = .reduction 1 0 ∧ writeHeld 0 on = false ∧ writeHeld 0 held = true ∧ held.hal.snoops = [] ∧
    target (3 * 2 ^ 44 + 2 ^ 41) held = .reduction 1 0 ∧ s.pkg = .ready ∧ chanOos (2 ^ 33 - 1) s = false ∧ (2 ^ 33 - 1, ⟨5, true, false, 3, [], true⟩) ∈ s.depot ∧
    ¬ (on.pkg = .service ∨ on.pkg = .ready) := by decide +kernel

/-- The header of a message to package 0 with opcode `o` for `line` from package 1. -/
def hdrTo0 (o : BitVec 4) (line : BitVec 41) : MsgHdr := ⟨o, 0, 0, 0, false, 0, 0, 1, 0, 9, line, 1⟩
/-- The far end of port `p` reports ACTIVE. -/
def farUp (p : Nat) (s : State) : State := setLink p { getLink p s with farActive := true } s
/-- Package 1 is reached by port 6 of either fabric die. -/
def routed : State := farUp 6 (farUp 15 <|
  csrSet 0 (tabBase 1 + 0x108) 1 (csrSet 0 (tabBase 0 + 0x108) 1 (setF (portBase 15) R.PORT_STATUS_STATE 5 (setF (portBase 6) R.PORT_STATUS_STATE 5 on))))

theorem witness_RemoteAccesses :
    let rd : Msg := ⟨hdrTo0 1 0, []⟩
    let far : Msg := ⟨hdrTo0 1 (2 ^ 40 - 1), []⟩
    let wr : Msg := ⟨hdrTo0 3 0, List.replicate 8 7⟩
    let farW : Msg := ⟨hdrTo0 3 (2 ^ 40 - 1), List.replicate 8 7⟩
    let x : Txn := ⟨9, true, 1, 5, 1, .eng (kSx 0), false⟩
    let y : Txn := ⟨9, false, 1, 5, 1, .eng (kPor 0), false⟩
    let z : Txn := ⟨9, true, 1, 5, 1, .core 4, false⟩
    Delivered 0 rd routed ∧ Delivered 1 wr routed ∧ Delivered 0 far routed ∧ Delivered 0 farW routed ∧ CkpQuiet routed ∧ AnswersBy 0 6 1 routed ∧ AnswersBy 1 15 1 routed ∧
    lineTargets rd routed = [.hbm 0] ∧ readHeld 0 routed = false ∧ lineTargets far routed = [.unmapped] ∧ lineTargets farW routed = [.unmapped] ∧
    writeHeld 0 routed = false ∧ chanOos 0 routed = false ∧ target (wr.hdr.line.toNat * 128 % 2 ^ 48) routed = .hbm 0 ∧
    txnFind 0 true 9 (setFab 0 { FabDie.init with txns := [x] } routed) = some x ∧ txnFind 0 false 9 (setFab 0 { FabDie.init with txns := [y] } routed) = some y ∧
    (setFab 0 { FabDie.init with txns := [z] } (core 4 { live with load := some ⟨4, 8, false, false, 0x1000000000000, none, false⟩ })).cores ≠ [] ∧
    x.n = 1 ∧ x.owner ≠ .eng kCol ∧ x.owner ≠ .eng kCkp ∧ y.owner ≠ .eng kCol ∧ y.owner ≠ .eng kCkp ∧ z.owner = .core 4 := by
  unfold Delivered CkpQuiet AnswersBy; decide +kernel

theorem witness_LateResponses :
    let m : Msg := ⟨hdrTo0 2 0, List.replicate 8 7⟩
    let n : Msg := ⟨hdrTo0 4 0, []⟩
    let k : Msg := ⟨hdrTo0 5 0, []⟩
    Delivered 0 m on ∧ Delivered 1 n on ∧ Delivered 0 k on ∧ ∀ x ∈ (getFab 0 on).txns, x.txid ≠ m.hdr.txid := by
  unfold Delivered; decide +kernel

/-- Port `p` in state `n`. -/
def portIn (p n : Nat) : State := setF (portBase p) R.PORT_STATUS_STATE n on

theorem witness_Ports :
    let passed := setF (portBase 0) R.PORT_STATUS_SELFTEST_PASS 1 (portIn 0 4)
    let sent : Msg := ⟨⟨1, 0, 0, 0, false, 0, 0, 0, 1, 9, 0, 0⟩, []⟩
    let unacked := setLink 0 { Link.init with replay := [⟨0, .caravan sent, []⟩] } (farUp 9 <| setF (portBase 9) R.PORT_STATUS_STATE 5 (portIn 0 5))
    let planned := csrSet 0 (tabBase 0) (BitVec.ofNat 32 (1 + 3 * 2 ^ 16 + 2 ^ 28)) (portIn 0 3)
    portState 0 (portIn 0 4) = 4 ∧ portState 21 (portIn 21 7) = 7 ∧ portState 0 passed = 4 ∧ getF (portBase 0) R.PORT_STATUS_SELFTEST_PASS passed = 1 ∧
    inJob passed = true ∧ inJob { passed with pkg := .ready } = false ∧ (getLink 0 (portIn 0 5)).replay = [] ∧ 3 ≤ portState 0 (portIn 0 5) ∧
    (getLink 0 unacked).replay = [⟨0, .caravan sent, []⟩] ∧ isReducing sent = false ∧ portCarries sent.hdr.vc.toNat 9 unacked = true ∧ linkRoom (.caravan sent) (getLink 9 unacked) = true ∧ 3 ≤ portState 0 unacked ∧
    portState 0 (portIn 0 2) < 3 ∧ portState 0 (portIn 0 0) = 0 ∧ getF (portBase 0) R.PORT_CTRL_ENABLE (setF (portBase 0) R.PORT_CTRL_ENABLE 1 (portIn 0 2)) = 1 ∧
    planOf 0 planned = (1, 3, 1) ∧ portState 0 planned = 3 ∧ (∀ q, q < 18 → q ≠ 0 → peerOf q planned = none) ∧
    effF (portBase 0) R.PORT_CTRL_ACCEPT_ANY R.PORT_CTRL_LEVEL planned = 0 := by decide +kernel

theorem witness_Epochs :
    let s := setFab 0 { FabDie.init with armedAt := some 5 } (setFab 1 { FabDie.init with armedAt := some 5 } { on with pkg := .admitted, count := 5 })
    s.pkg = .admitted ∧ cmdBusy s = false ∧ (getFab 1 s).armedAt = some 5 ∧ (5 : DWord) ≤ s.count ∧ (getFab 1 s).grace = false ∧ (getFab 0 s).armedAt = some 5 ∧ (getFab 0 s).grace = false ∧ getF (fabBase 0) R.FAB_EPOCH_TAG_APPLY s = 0 ∧
    getF (fabBase 1) R.FAB_EPOCH_TAG_APPLY s = 0 ∧ on.pkg = .running ∧ cmdBusy on = false ∧ (getFab 0 on).armedAt = none ∧ (getFab 1 on).armedAt = none := by
  decide +kernel

/-- A flit with its CRC; one slot after the header keeps the evaluation of the CRC short. -/
def flitOf (seq : BitVec 12) (idle : Bool) : Flit :=
  let f : Flit := ⟨seq, 0, 1, 3, false, idle, 0, 0, [0]⟩
  { f with crc := BitVec.ofNat 64 (flitCrc f) }
/-- A Route frame from package 1 to package 0 with its CRC. -/
def frameOf (typ : BitVec 4) (seq ack : BitVec 32) : RouteFrame :=
  let f : RouteFrame := ⟨0, 0, none, 0, 0xA3C1, 0, typ, 0, 0, 1, 0, seq, ack, 0, 0, 0, 0, [], 0⟩
  { f with crc := BitVec.ofNat 32 (routeCrc f) }

theorem witness_Flits :
    let s := portIn 17 5
    let msg : Msg := ⟨⟨1, 0, 0, 0, false, 0, 0, 0, 1, 9, 0, 0⟩, []⟩
    let l := setLink 17 { Link.init with replay := [⟨0, .caravan msg, []⟩] } s
    flitPort 17 s = true ∧ (flitOf 0 true).crc.toNat = flitCrc (flitOf 0 true) ∧ ({ flitOf 0 true with crc := 0 }).crc.toNat ≠ flitCrc (flitOf 0 true) ∧
    (flitOf 1 false).crc.toNat = flitCrc (flitOf 1 false) ∧ (flitOf 1 false).seq ≠ (getLink 17 s).rxSeq ∧
    (flitOf 0 false).crc.toNat = flitCrc (flitOf 0 false) ∧ (flitOf 0 false).seq = (getLink 17 s).rxSeq ∧ (getLink 17 s).asm = [] ∧
    bitsAt (0 : Slot).toNat 124 4 = 0 ∧ portState 17 l ≥ 3 ∧ (getLink 17 l).replay ≠ [] ∧ (getLink 17 l).sends < 7 ∧ (getLink 17 l).replayAt = [] := by
  decide +kernel

theorem witness_Route :
    let s := setF (rtBase 1) R.RT_CFG_VLAN_EN 0 (portIn 21 5)
    let k := peerKey 1 1
    let p := setPeer k RoutePeer.init s
    let q := setPeer k { RoutePeer.init with window := [(frameOf 0 4 0, 1)] } s
    routeUp 3 s = true ∧ (frameOf 0 0 0).vid = routeVid 1 s ∧ ({ frameOf 0 0 0 with crc := 0 }).crc.toNat ≠ routeCrc (frameOf 0 0 0) ∧
    FrameGood 3 0 (frameOf 0 0 0) p ∧ sFind p.peers k = some RoutePeer.init ∧ (frameOf 0 0 0).seq = RoutePeer.init.rxNext ∧ RoutePeer.init.rxBeyond = [] ∧
    RoutePeer.init.window = [] ∧ RoutePeer.init.queue = [] ∧ FrameGood 3 0 (frameOf 0 0xFFFFFFFF 0) p ∧ routeSeen (frameOf 0 0xFFFFFFFF 0).seq RoutePeer.init = true ∧
    FrameGood 3 1 (frameOf 1 0 4) q ∧ (getPeer k q).window.find? (fun e => e.1.seq = 4) = some (frameOf 0 4 0, 1) ∧
    1 < effF (rtBase 1) R.RT_RTO_MAX_TX R.RT_CFG_LEVEL (setF (rtBase 1) R.RT_RTO_MAX_TX 7 q) ∧
    (∀ x ∈ (getPeer k q).window, ∀ m ∈ frameMsgs x.1, isReducing m = false) := by
  unfold FrameGood; decide +kernel

/-- A Halter message of one line. -/
def halMsg (o : BitVec 6) (line : BitVec 41) (lines : List Line) : HalMsg := ⟨o, 0, 0, false, 6, line, 0, lines⟩

theorem witness_Halter :
    let asks := halMsg 1 0 []
    let beside := halMsg 1 (2 ^ 40 - 1) []
    let w := winBase on / 128
    let inWin := halMsg 8 (BitVec.ofNat 41 w) []
    let held := setF halBase R.HAL_WIN_SIZE_GIB 1 { on with depot := [(compKey 0, ⟨5, true, false, 0, [], true⟩)] }
    let shared := { on with hal := { on.hal with dir := [(0, .shared)] } }
    let snoop : Snoop := ⟨6, 0, true⟩
    let snooped := { on with hal := { on.hal with snoops := [snoop], dir := [(0, .owned)] } }
    let req : HalReq := ⟨6, 0, 4, .eng (kAsy 0)⟩
    let upg : HalReq := ⟨6, 0, 3, .none⟩
    let fill : HalReq := ⟨6, 0, 1, .none⟩
    let upgs := { held with hal := { on.hal with reqs := [upg] } }
    let fills := { on with hal := { on.hal with reqs := [fill] } }
    let asked := { on with hal := { on.hal with reqs := [req] } }
    let ports := setF halBase R.HAL_STATUS_STATE0 5 (setF halBase R.HAL_STATUS_STATE1 5 on)
    let lost := setF halBase R.HAL_STATUS_STATE0 1 (setF halBase R.HAL_STATUS_STATE1 1 on)
    AsksLine asks 0 on ∧ chanOos 0 on = false ∧ (sFind shared.hal.dir 0).isSome = true ∧ AsksLine asks 0 shared ∧ halLines beside on = none ∧
    sFind on.depot (compKey 0) = none ∧ winLine inWin.line.toNat held = some 0 ∧ sFind held.depot (compKey 0) = some ⟨5, true, false, 0, [], true⟩ ∧ HalRoom inWin.line.toNat held ∧ HalRoom 0 on ∧
    snooped.hal.snoops.find? (fun y => y.txid = 6) = some snoop ∧ asked.hal.reqs.find? (fun y => y.txid = 6) = some req ∧
    upgs.hal.reqs.find? (fun y => y.txid = 6) = some upg ∧ (sFind upgs.depot (compKey upg.line)).isSome = true ∧
    fills.hal.reqs.find? (fun y => y.txid = 6) = some fill ∧ (waysOf 0 (compKey fill.line) fills).length < 16 ∧ (getLink 22 ports).replay = [] ∧
    (getLink 22 ports).waiting = [] ∧ (2 ^ 33 : Nat) ≤ compKey 0 ∧
    getF halBase (halState 0) ports = 5 ∧ getF halBase (halState (1 - 0)) ports = 5 ∧
    getF halBase R.HAL_STATUS_STATE0 lost ≠ 5 ∧ getF halBase R.HAL_STATUS_STATE1 lost ≠ 5 ∧ lost.hal.reqs = [] ∧ ({ on with pkg := .ready }).pkg ≠ .running := by
  unfold AsksLine HalRoom; decide +kernel

theorem witness_HalterNobodyWaits : NobodyWaits on := by
  rfl


/-! ### What the engines write: the hypotheses of their statements are met -/

/-- Byte 8 of the tile SRAM of tile 0. -/
def tile8 : Nat := 0xFFFF200000000008

theorem witness_MatrixForms :
    let desc := 0x80 * 2 ^ 96 + 0x400 * 2 ^ 160 + 0x10001 * 2 ^ 384 + 0x10001 * 2 ^ 416
    let e := { insP 0x1000 with cfg := BitVec.ofNat 32 (5 + 5 * 2 ^ 4 + 10 * 2 ^ 8 + 2 ^ 12), desc := desc }
    let f := { e with desc := desc + 1 }
    let x := mxD e.cfg e.desc
    engHead (kMx 287) (queued (kMx 287) e on) = some e ∧ e.phase = 0 ∧ mxLegal x = true ∧ x.ldd ≥ x.rD.len ∧ x.rD.stop ≤ 0x600000 ∧ x.op = 0 ∧
    tileMarks 287 on = [] ∧ (mxD f.cfg f.desc).op = 1 ∧ mxLegal (mxD f.cfg f.desc) = true ∧ x.fa = 5 ∧ x.sparse = false ∧ x.skip = false ∧ x.k ≤ 16 ∧ 0 < x.m ∧ 0 < x.n := by
  decide +kernel

theorem dests_one {a n q o : Nat} {s : State} (h1 : isLocal a s = true) (h2 : target (offOf a) s = .tile q o) (h3 : o + n ≤ 0x600000) :
    DestsInTiles (q / 8) [(a, n)] s := by
  refine ⟨fun r hr => ?_, List.pairwise_singleton _ _⟩
  rw [List.mem_singleton.mp hr]
  exact ⟨h1, q, o, h2, rfl, h3⟩

/-- The destinations of the stencil, the conversions and the Porter's forms below. -/
theorem witness_Destinations : DestsInTiles 0 [(tile8, 8)] (queued (kSx 0) (insP 0) on) ∧ DestsInTiles 0 [(tile8, 4)] (queued (kAsy 0) (insP 0) on) ∧
    DestsInTiles 0 [(tile8, 1)] (queued (kPor 0) (insP 0) on) :=
  ⟨dests_one (q := 0) (o := 8) (by decide +kernel) (by decide +kernel) (by decide), dests_one (q := 0) (o := 8) (by decide +kernel) (by decide +kernel) (by decide),
    dests_one (q := 0) (o := 8) (by decide +kernel) (by decide +kernel) (by decide)⟩

theorem witness_Stencil :
    let e := { insP 0xFFFF200000001000 with desc := tile8 * 2 ^ 96 }
    let s := queued (kSx 0) e on
    engHead (kSx 0) s = some e ∧ e.phase = 0 ∧ SourcesHere (kSx 0) (sxRanges ⟨e.desc⟩) s ∧
    (SxD.points ⟨e.desc⟩).map (fun q => (SxD.outAt ⟨e.desc⟩ q, 8)) = [(tile8, 8)] := by
  unfold SourcesHere; decide +kernel

theorem witness_Assay :
    let wide := { insP 0x1000 with desc := 1 + 6 * 2 + 9 * 2 ^ 5 + tile8 * 2 ^ 128 + 0x10001 * 2 ^ 448 }
    let narrow := { insP 0x1000 with desc := 9 * 2 + 8 * 2 ^ 5 + tile8 * 2 ^ 128 + 0x10001 * 2 ^ 448 }
    let s := queued (kAsy 0) wide on
    let t := queued (kAsy 0) narrow on
    engHead (kAsy 0) s = some wide ∧ engHead (kAsy 0) t = some narrow ∧ wide.phase = 0 ∧ narrow.phase = 0 ∧
    SourcesHere (kAsy 0) (rowList (AsyD.reads ⟨wide.desc⟩)) s ∧ SourcesHere (kAsy 0) (rowList (AsyD.reads ⟨narrow.desc⟩)) t ∧
    asyDests ⟨wide.desc⟩ = [(tile8, 8)] ∧ asyDests ⟨narrow.desc⟩ = [(tile8, 4)] ∧ AsyD.bmpEn ⟨wide.desc⟩ = false ∧ AsyD.bmpEn ⟨narrow.desc⟩ = false ∧
    asyLegal ⟨wide.desc⟩ = true ∧ asyLegal ⟨narrow.desc⟩ = true ∧ AsyD.widen ⟨wide.desc⟩ = true ∧ AsyD.widen ⟨narrow.desc⟩ = false := by
  unfold SourcesHere; decide +kernel

/-- A Porter instruction of one byte with DST in tile SRAM, one row in SRC_S2 and DST_S2. -/
def porIns (op : Nat) : EngIns := { insP 0x1000 with desc := op + tile8 * 2 ^ 192 + 2 ^ 288 + 2 ^ 352 }

theorem witness_Porter :
    let x := fun op => (⟨(porIns op).desc⟩ : PorD)
    let s := fun op => queued (kPor 0) (porIns op) on
    (∀ op, op < 5 → engHead (kPor 0) (s op) = some (porIns op) ∧ (porIns op).phase = 0 ∧ (x op).op = op ∧ (x op).bmpEn = false ∧ (x op).elem ≤ 10 ∧
      (x op).w % 8 = 0 ∧ (getEng (kPor 0) (s op)).rxDead = [] ∧ SourcesHere (kPor 0) (x op).idxRange (s op) ∧
      SourcesHere (kPor 0) ((porReads (kPor 0) (x op) [] (s op)).map (·.1)) (s op) ∧ (x op).dstRanges = [(tile8, 1)]) ∧
    (x 1).e2 = 1 ∧ porIdx (kPor 0) (x 1) [] ((x 1).rowsOf 1) (s 1) 0 = .row 0 ∧ porIdx (kPor 0) (x 2) [] ((x 2).rowsOf 3) (s 2) 0 = .row 0 ∧
    ((List.range (x 2).e1).filterMap (fun r => match porIdx (kPor 0) (x 2) [] ((x 2).rowsOf 3) (s 2) r with
      | .row i => some ((x 2).dstRow 0 i, (x 2).rowB)
      | _ => none)) = [(tile8, 1)] ∧ porWhole (x 2) (s 2) = false ∧ (∀ i, i < (x 3).e1 → (x 3).srcRow 0 i + (x 3).rowB ≤ 2 ^ 64) := by
  unfold SourcesHere; decide +kernel

theorem witness_Solvers :
    let y := { insP 0x1000 with desc := 0x2000 * 2 ^ 512 + 8 * 2 ^ 768 }
    let s := queued (kSlv 7) y on
    engHead (kSlv 7) s = some y ∧ y.phase = 0 ∧ y.value < SlvD.batch ⟨y.desc⟩ ∧ freezeDue s = false ∧ s.pkg ≠ .frozen ∧
    SourcesHere (kSlv 7) (slvRanges (kSlv 7) ⟨y.desc⟩ y.value s) s ∧ SlvD.op ⟨y.desc⟩ = 0 ∧ SlvD.op ⟨y.desc + 4⟩ = 4 := by
  unfold SourcesHere; decide +kernel

/-- A problem that writes one word of X, its status word and its warm record. -/
def slvDone : SlvRes := ⟨[5], [], 3, some (1, 2, 3), none, none, []⟩

theorem witness_SolverEnd :
    let y := { insP 0x1000 with desc := 2 ^ 4 + 2 ^ 5 + 0x2000 * 2 ^ 512 + 0x3000 * 2 ^ 384 + 0x4000 * 2 ^ 576, phase := 1 }
    let s := { queued (kSlv 7) y on with slvs := [(7, slvDone)] }
    engHead (kSlv 7) s = some y ∧ y.phase = 1 ∧ sFind s.slvs 7 = some slvDone ∧ slvDone.ue = [] ∧ (∀ d, d < 4 → streamAlloc d s = false) ∧ WordsAtHome (solverWords ⟨y.desc⟩ slvDone y.value) s := by
  refine ⟨by decide +kernel, by decide, by decide +kernel, rfl, by decide +kernel, home_low (by decide +kernel) (by decide +kernel) (by decide +kernel) (by decide +kernel) (by decide +kernel)⟩

/-- A contribution of core `c` with no tokens, its header at address 0. -/
def conIns (c : Nat) : EngIns := { insP (0xFFFF200000000000 + c * 2 ^ 26) with core := c }
/-- A batch with `n` contributions. -/
def batchOf (h n phase : Nat) : Batch := ⟨0, h, true, 0, 0, (List.range n).map (fun c => ⟨{ conIns c with desc := 0 }, []⟩), phase⟩

theorem witness_Contribution :
    let s := crossing1 (kDsp 0) (conIns 8) on
    let nine := { s with dsps := [(0, ⟨[batchOf 0 8 0], []⟩)] }
    (getEng (kDsp 0) s).cross = [conIns 8] ∧ (getDsp 0 s).batches.length < 2 ∧ (∀ i, i < 4 → streamAlloc i s = false) ∧ s.poison = [] ∧
    dspAsk 0 8 [] (conIns 8).p.toNat s = none ∧ dspAsk 0 8 [] (conIns 8).p.toNat nine = none ∧ firstFailing (dspChecks 0 8 [] (conIns 8).p.toNat s) = none ∧
    (getEng (kDsp 0) nine).cross = [conIns 8] ∧ firstFailing (dspChecks 0 8 [] (conIns 8).p.toNat nine) = none ∧ (getDsp 0 nine).batches = [batchOf 0 8 0] ∧
    (batchOf 0 8 0).contribs.length = 8 ∧ (batchOf 0 8 0).phase = 0 ∧ (batchOf 0 8 0).addr = conHeader (conRead 8 (conIns 8).p.toNat nine) := by
  decide +kernel

theorem witness_ContributionCounts (v : Nat → Nat) : WordsAtHome ((List.range 256).map (fun e => (hdrCount 0 + 1024 * 0 + 4 * e, 4, v e))) on := by
  refine home_low (by decide +kernel) (by decide +kernel) (by decide +kernel) (fun w h => ?_) (List.pairwise_map.mpr (List.pairwise_lt_range.imp (fun h => ?_)))
  · obtain ⟨e, he, rfl⟩ := List.mem_map.mp h
    have := List.mem_range.mp he
    have e0 : hdrCount 0 = 0 := by decide
    rw [e0]; dsimp only; omega
  · have e0 : hdrCount 0 = 0 := by decide
    rw [e0]; dsimp only; omega

theorem witness_BatchEnds :
    let h := 0x1000 * 2 ^ 192
    let s := core 36 live
    let ex := { s with dsps := [(0, ⟨[batchOf (h + 3 * 2 ^ 12) 9 1], [(1, 0x1000)]⟩)] }
    let done := { s with dsps := [(0, ⟨[batchOf h 9 1], []⟩)] }
    let late := { s with count := 1, dsps := [(0, ⟨[batchOf h 3 0], []⟩)] }
    (getDsp 0 ex).batches = [batchOf (h + 3 * 2 ^ 12) 9 1] ∧ hdrExch (h + 3 * 2 ^ 12) = 3 ∧ namedDies (h + 3 * 2 ^ 12) 0 = [0, 1] ∧
    (1, offOf (hdrCount (h + 3 * 2 ^ 12))) ∈ (getDsp 0 ex).got ∧
    (getDsp 0 done).batches = [batchOf h 9 1] ∧ hdrExch h = 0 ∧ (getCore 36 done).st ≠ .idle ∧ ((batchOf h 9 1).contribs.map (fun c => c.ins.core)).Nodup ∧
    (getDsp 0 late).batches = [batchOf h 3 0] ∧ (batchOf h 3 0).contribs.length < 9 ∧ late.pkg ≠ .frozen ∧
    1000 * (batchOf h 3 0).limit < (late.count - (batchOf h 3 0).since).toNat ∧ writesOpen (.eng (kDsp 0)) ex = false ∧
    (∀ pl ∈ rangeHbm (dspRanges h 9) done, writeHeld pl done = false) ∧ ∀ c ∈ (batchOf h 3 0).contribs, c.ins.core < 44 := by
  decide +kernel

theorem witness_BatchWords :
    let h := 0x1000 * 2 ^ 192
    WordsAtHome (batchWords (batchOf h 9 1) 0 { core 36 live with dsps := [(0, ⟨[batchOf h 9 1], []⟩)] }) { core 36 live with dsps := [(0, ⟨[batchOf h 9 1], []⟩)] } :=
  home_low (by decide +kernel) (by decide +kernel) (by decide +kernel) (by decide +kernel) (by decide +kernel)

/-! ### Collectives and launches: the hypotheses of their statements are met -/

/-- Group 3 of packages 0 and 1, or 1 and 0, this package having rank `rank`; package 1 can be reached. -/
def grouped (rank : Nat) : State :=
  let s := csrSet 0 (grpBase 3) (BitVec.ofNat 32 (rank + 2 ^ 16 + 2 ^ 31)) (setCore 36 live routed)
  { s with col := { s.col with groups := [(3, ⟨true, if rank = 0 then [0, 1] else [1, 0]⟩)] } }
/-- A collective's ISSUE: operation `op` of group 3 with one element. -/
def colIns (op : Nat) : EngIns := { insP 0xFFFF000000004000 with core := 36, desc := op + 3 * 2 ^ 16 + 2 ^ 64 }
/-- With collective `op` accepted. -/
def joined (rank op : Nat) (f : ColX → ColX) : State :=
  let s := grouped rank
  { s with col := { s.col with runs := [f (ColX.new (colIns op) 3 0)] } }
/-- A launch at 1 s over two packages: node 0 is package `a`, node 1 package `b`, this node `me`. -/
def launchOf (a b me : Nat) : LaunchRec :=
  ⟨9, 0x100, 1000000000, 5, 0, me, [(0, BitVec.ofNat 512 (a + 2 ^ 24 + 2 ^ 64)), (1, BitVec.ofNat 512 b)], 77, if me = 0 then none else some a,
    if me = 0 then [1] else [], [], [], [], [], false, none, false, 2000, [], []⟩
/-- A message of a collective of group 3 from rank `r`, with the CRC of a chunk of kind `k`. -/
def colMsg (k : Nat) (r : BitVec 16) : ColMsg :=
  let m : ColMsg := ⟨3, 0, 0, 1, r, 0, 0, 0, 0, []⟩
  { m with crc := BitVec.ofNat 64 (crc64Go 0 (colBytes (colTop 3 0 k 0 r.toNat 0) [])) }

theorem witness_CollectiveAccepted :
    let s := put 0x4000 64 (colIns 0).desc (csrSet 0 (tabBase 0 + 0x1000) 3 (crossing1 kCol (colIns 0) (grouped 1)))
    (∀ x ∈ (grouped 1).col.runs, x.grp ≠ 3) ∧ (joined 1 0 id).col.runs.map (fun x => x.grp) = [3] ∧
    (getEng kCol s).cross = [colIns 0] ∧ (getEng kCol s).queue.length < 64 ∧ (colIns 0).p.toNat % 64 = 0 ∧ ownHbm (colIns 0).p.toNat 64 s = true ∧
    SourcesHere kCol [(0xFFFF * 2 ^ 48 + offOf (colIns 0).p.toNat, 64)] s ∧ cGroup (readOff (offOf (colIns 0).p.toNat) 64 s) = 3 ∧ grpValid 3 s = true ∧
    firstFailing (colChecks false (colIns 0) (readOff (offOf (colIns 0).p.toNat) 64 s) (grpLoad 3 s)) = none ∧ grpBroken 3 s = false ∧
    (∀ m ∈ grpMembers 3 (grpLoad 3 s), isMember 0 m s = true) ∧ (sGet ⟨false, []⟩ s.col.groups 3).read = true ∧
    (let first := { s with col := { s.col with groups := [] } }
     (sGet ⟨false, []⟩ first.col.groups 3).read = false ∧ SourcesHere kCol [grpListAt 3 first] first ∧ grpValid 3 first = true ∧
     firstFailing (colChecks false (colIns 0) (readOff (offOf (colIns 0).p.toNat) 64 s) (grpLoad 3 first)) = none ∧
     (∀ m ∈ grpMembers 3 (grpLoad 3 first), isMember 0 m first = true)) := by
  unfold SourcesHere; decide +kernel

theorem witness_CollectiveStarts :
    let s := joined 1 3 id
    let b := joined 1 0 id
    let r := joined 0 3 id
    let one := { b with csr := (csrSet 0 (grpBase 3) (BitVec.ofNat 32 (2 ^ 31)) b).csr }
    let x := ColX.new (colIns 3) 3 0
    s.col.runs.find? (fun y => y.grp = 3) = some x ∧ cOp x.ins.desc = 3 ∧ x = ColX.new x.ins 3 x.seq ∧ claimBefore x s = false ∧ (s.col.runs.filter (fun y => y.started)).length < 16 ∧
    freezeDue s = false ∧ s.ckp.halt = none ∧ s.col.lost = [] ∧ s.col.mail = [] ∧ SourcesHere kCol (cSources x.ins.desc 2 s) s ∧
    r.col.runs = [x] ∧ SourcesHere kCol (cSources x.ins.desc 2 r) r ∧ treeKids (grpN 3 r) (grpRank 3 r) ≠ [] ∧
    treeKids (grpN 3 b) (grpRank 3 b) = [] ∧ treeUp (grpN 3 b) (grpRank 3 b) = some 0 ∧ cFix (colIns 0).desc = false ∧
    b.col.runs = [ColX.new (colIns 0) 3 0] ∧ SourcesHere kCol (cSources (colIns 0).desc 2 b) b ∧ Reachable ((grpMembers 3 b).getD 0 0) b ∧
    grpN 3 one = 1 ∧ grpRank 3 one = 0 ∧ SourcesHere kCol (cSources (colIns 0).desc 1 one) one := by
  unfold SourcesHere Reachable; decide +kernel

/-- A finished broadcast of one element at rank 1. -/
def castDone : State := joined 1 1 (fun x => { x with started := true, joined := true, joinFwd := true, res := [(0, (7, false))], fwd := [0] })

theorem witness_CollectiveFinished :
    colFinished (ColX.new (colIns 1) 3 0) castDone = false ∧ (castDone.col.runs.map (fun x => colFinished x castDone)) = [true] ∧
    (getCore 36 castDone).st ≠ .idle ∧ offOf (cDst (colIns 1).desc) + cDstBytes (colIns 1).desc 2 1 ≤ 2 ^ 34 ∧ grpN 3 castDone = 2 ∧ grpRank 3 castDone = 1 ∧
    (∀ x ∈ castDone.col.runs, x.put = false) ∧ (∀ i, i < 4 → streamAlloc i castDone = false) ∧ cA2a (cOp (colIns 1).desc) = false := by decide +kernel

theorem witness_CollectiveWrites : PlainRange (offOf (cDst (colIns 1).desc)) (cDstBytes (colIns 1).desc 2 1) castDone :=
  plain_low (by decide +kernel) (by decide +kernel) (by decide +kernel)

theorem witness_CollectiveMessages :
    let start := fun (x : ColX) => { x with started := true }
    let s := joined 1 0 start
    let r := joined 1 3 start
    let root := joined 0 3 start
    let x := start (ColX.new (colIns 3) 3 0)
    getRun 3 0 (joined 1 0 id) = some (ColX.new (colIns 0) 3 0) ∧ getRun 3 0 (grouped 1) = none ∧ grpBroken 3 (grouped 1) = false ∧
    (0 + 2 ^ 16 - grpSeq 3 (grouped 1)) % 2 ^ 16 < 2 ^ 15 ∧ 2 ^ 15 ≤ (0xFFFF + 2 ^ 16 - grpSeq 3 (grouped 1)) % 2 ^ 16 ∧
    grpBroken 3 (csrSet 0 (grpBase 3 + 4) 0x10000 (grouped 1)) = true ∧ getRun 3 0 r = some x ∧ x.started = true ∧
    treeUp (grpN 3 r) (grpRank 3 r) = some 0 ∧ treeUp (grpN 3 root) (grpRank 3 root) = none ∧ cReduces (cOp x.ins.desc) = true ∧ x.failed = false ∧
    ¬ (cReduces (cOp (colIns 0).desc) = true) ∧ (getCore 36 s).st ≠ .idle ∧ ownSig x r ≠ { ownSig x r with op := 7 } ∧
    (colMsg 1 0).pmask = 0 ∧ chunkBad 1 (colMsg 1 0) = false ∧ chunkBad 2 (colMsg 2 0) = false ∧ chunkBad 2 { colMsg 2 0 with crc := 0 } = true ∧
    colUp x (grpMembers 3 r) 0 1 = some 0 ∧ colUp x (grpMembers 3 root) 0 0 ≠ some 1 ∧ x.parts = [] ∧
    s.col.runs.find? (fun y => y.grp = 3) = some (start (ColX.new (colIns 0) 3 0)) ∧ 0 ∈ ctlNeighbours (grpN 3 s) (grpRank 3 s) ∧ s.ckp.mine = none ∧
    s.pkg ≠ .frozen ∧ s.launch = none ∧ grpValid 3 s = true ∧ (3 : BitVec 8).toNat < 8 ∧ freezeDue s = false ∧ freezeDue r = false ∧
    s.ckp.freeze = none ∧ s.ckp.restore = none ∧ (s.col.runs.map (fun y => (y.grp, y.seq))).Nodup ∧ (getCore 36 s).st ≠ .parked ∧
    (∃ y ∈ s.col.runs, y.started = true ∧ y.limit ≤ (s.count - y.since).toNat) ∧ cA2a (cOp x.ins.desc) = false ∧ cFix (colIns 3).desc = true ∧
    cA2a (cOp (colIns 6).desc) = true ∧ bitAt (colMsg 2 0).flags.toNat 2 = false ∧
    (sGet ColPart.init ({ x with parts := [(0, ⟨[5], 0, false⟩)] } : ColX).parts 0).got = [5] ∧
    launchAbort (colMsg 1 0) 3 { s with launch := some (launchOf 0 1 0) } = false ∧ s.pkg = .running ∧
    ¬ (grpValid 3 s = true ∧ s.pkg ≠ .running ∧ getF colBase R.COL_LAUNCH_STATUS_STATE s = 5) := by
  decide +kernel

theorem witness_AbortsAreTold :
    let s := joined 1 0 (fun x => { x with started := true })
    NeighboursReachable 3 s ∧ Reachable 1 s := by
  refine ⟨⟨fun r hr => ?_, by decide +kernel, fun x hx _ => plain_low ?_ (by decide +kernel) (by decide +kernel)⟩, by unfold Reachable; decide +kernel⟩
  · rw [show ctlNeighbours (grpN 3 (joined 1 0 (fun x => { x with started := true }))) (grpRank 3 (joined 1 0 (fun x => { x with started := true }))) = [0] by
      decide +kernel] at hr
    cases List.mem_singleton.mp hr
    exact ⟨1, by decide +kernel, by unfold Reachable; decide +kernel⟩
  · cases List.mem_singleton.mp hx
    decide +kernel

/-- Package 1 can be reached and a launch is in progress. -/
def launching (l : LaunchRec) : State := { routed with launch := some l, pkg := .admitted }

theorem witness_LaunchMessages :
    let root := launchOf 0 1 0
    let leaf := launchOf 1 0 1
    let prep := { root with prep := true }
    let held := { prep with ready := [1] }
    let s := launching root
    routed.launch = none ∧ routed.ownAbort = none ∧ Reachable 1 routed ∧ ({ routed with ownAbort := some (9, 0, 5) }).count < 5 ∧
    s.launch = some root ∧ (∀ p ∈ launchPeers { root with up := some 1 } 0x10000, Reachable p s) ∧ (77 : DWord).toNat = root.crc ∧ (78 : DWord).toNat ≠ root.crc ∧
    root.prep = false ∧ ChildAwaited root ∧ (∀ i ∈ root.kids, Reachable (nodePkg root i) s) ∧
    leaf.kids = [] ∧ leaf.await = [] ∧ leaf.go = false ∧ leaf.me ≠ 0 ∧ leaf.sentTo = none ∧ Reachable 1 (launching leaf) ∧
    prep.kids.find? (fun i => nodePkg prep i = 1 && !prep.ready.contains i) = some 1 ∧ prep.report = [] ∧ ¬ ChildAwaited held ∧ prep.me = 0 ∧
    s.count.toNat + prep.margin ≤ prep.count.toNat ∧ nodeAt root 1 = some 1 ∧ nodeRelay prep 1 = false ∧
    s.count.toNat + root.margin < root.count.toNat ∧ launchReady held = true ∧
    (let late := { launching held with count := BitVec.ofNat 64 (1000000000 - 2000) }
     late.count.toNat + held.margin = held.count.toNat ∧ launchReady root = false) := by
  unfold Reachable ChildAwaited
  dsimp only
  repeat' apply And.intro
  all_goals decide +kernel

/-- Node 0 of a tree whose child 1 is a relay with the one child 2, which has the alternate 3. -/
def relaying : LaunchRec :=
  { launchOf 0 1 0 with prep := true, tree := [(0, BitVec.ofNat 512 (2 ^ 24 + 2 ^ 64)), (1, BitVec.ofNat 512 (2 + 2 ^ 16 + 2 ^ 24 + 2 * 2 ^ 64)),
      (2, BitVec.ofNat 512 (3 + 3 * 2 ^ 320)), (3, BitVec.ofNat 512 1)] }

theorem witness_LaunchTimers :
    let root := launchOf 0 1 0
    let relay := relaying
    let s := launching root
    relay.kids.find? (fun i => nodePkg relay i = 2 && !relay.ready.contains i && !relay.dead.contains i) = some 1 ∧ nodeRelay relay 1 = true ∧
    entryKids (nodeOf relay 1) = [2] ∧ (entryAlts (nodeOf relay 2)).find? (fun a => a ≠ 1 && !relay.dead.contains a) = some 3 ∧ 3 ≠ relay.me ∧
    Reachable (nodePkg relay 3) (launching relay) ∧
    (let timed := { relay with timers := [(1, 0)] }
     timerOver 1 relay s = false ∧ timerOver 1 timed s = true ∧ relay.go = false ∧ relay.prep = true ∧
     (entryAlts (nodeOf relay 2)).find? (fun a => a ≠ 1 && !relay.dead.contains a && !relay.tried.contains (2, a)) = some 3) ∧
    (let gone := { relay with timers := [(2, 0)], kids := [1], dead := [1], await := [(2, 1)], tried := [(2, 1)] }
     gone.kids.find? (fun i => nodePkg gone i = 3 && !gone.ready.contains i && !gone.dead.contains i) = none ∧
     gone.await.find? (fun e => nodePkg gone e.1 = nodePkg gone 2) = some (2, 1) ∧ timerOver 2 gone s = true ∧
     (entryAlts (nodeOf gone 2)).find? (fun a => !gone.dead.contains a && !gone.tried.contains (2, a)) = some 3) ∧
    root.report.filter (fun e => decide (e.1 = 1)) = [] ∧ root.kids.length ≤ 40 ∧ relay.kids.length ≤ 40 ∧ root.await = [] ∧
    (let mid := { launchOf 1 0 1 with prep := true, kids := [2], ready := [2] }
     mid.me ≠ 0 ∧ mid.up = some 1 ∧ mid.sentTo ≠ some 1 ∧ ¬ ChildAwaited mid) ∧
    launchAbort (colMsg 1 0) 8 s = true := by
  unfold Reachable ChildAwaited; decide +kernel

theorem witness_Counter :
    let with_ := fun (f : Sync → Sync) (s : State) => { s with sync := f s.sync }
    let f := with_ (fun y => { y with strata := [(6, 1)] }) { routed with counting := true }
    let role := fun n => with_ (fun y => { y with role := n }) (setF gctBase R.GCT_CFG_ROLE n f)
    let d : Dig := ⟨0, 0x10000, 0, 0x20000⟩
    let sent := with_ (fun y => { y with sent := some (6, 3, 100) }) f
    let far := with_ (fun y => { y with rsent := some (3, 100), rbest := some (5, 3), rn := 64 }) (role 1)
    let resp : Slot := BitVec.ofNat 128 (2 * 2 ^ 124 + 3 * 2 ^ 96)
    let parent := setF gctBase R.GCT_STATUS_PARENT_PORT 6 (role 0)
    let pps := setF pkgBase R.PKG_INPUTS_PPS_FITTED 1 (with_ (fun y => { y with pps := true }) (role 1))
    let cand := setGct 2 (with_ (fun y => { y with cand := true }) (role 0))
    f.dig = none ∧ ({ f with dig := some d }).dig = some d ∧ (combine [] 0 none [] 0).1.length < 2 ^ 32 ∧
    heldLines [(0xFFFF * 2 ^ 48 + d.base, 64 + 32 * d.records)] f = [] ∧ getF gctBase R.GCT_CFG_ROLE (role 1) % 3 = 1 ∧ getF gctBase R.GCT_CFG_ROLE (role 2) % 3 = 2 ∧
    getF gctBase R.GCT_CFG_ROLE f % 3 = 0 ∧ parentPort f = 0x1F ∧ portUsable 6 f = true ∧ sGet 7 f.sync.strata 6 = 1 ∧
    (∀ j, j < 18 → j ≠ 6 → sGet 7 f.sync.strata j = 7) ∧ (∀ j, j < 6 → portUsable j f = false) ∧
    parentPort parent = 6 ∧ portUsable 6 parent = true ∧ (getLink 6 parent).waiting = [] ∧ replayFlits (getLink 6 parent) + 1 ≤ 512 ∧
    bitsAt (BitVec.ofNat 128 (2 ^ 124) : Slot).toNat 124 4 = 1 ∧ bitsAt resp.toNat 124 4 = 2 ∧ bitsAt resp.toNat 96 24 = 3 ∧ sent.sync.sent = some (6, 3, 100) ∧
    far.sync.rsent = some (3, 100) ∧ far.sync.rbest = some (5, 3) ∧ gctRole far ≠ 0 ∧ far.sync.pps = false ∧ 64 ≤ far.sync.rn ∧
    gctRole f = 0 ∧ ({ f.sync with best := some (5, 3), n := 16 } : Sync).best = some (5, 3) ∧ ppsOn f = false ∧ ppsOn pps = true ∧ f.sync.lastPps = none ∧
    gctRole parent = 0 ∧ (∀ p, p < 18 → p ≠ 6 → portUsable p (farUp 15 (setF (portBase 15) R.PORT_STATUS_STATE 0 parent)) = false) ∧
    cand.sync.cand = true ∧ gctState cand = 2 ∧ gctRole cand = 0 ∧ inJob f = true ∧ inJob { f with pkg := .ready } = false := by decide +kernel

theorem witness_DigestWrites : PlainRange 0x20000 (16 + 32 * (combine [] 0 none [] 0).1.length) on :=
  plain_low (by decide) (by decide +kernel) (by decide +kernel)

/-! ### Checkpoints, freezes and power: the hypotheses of their statements are met -/

/-- A leaf of the job's control tree with one range of `n` bytes at 0x80000, the Firn slots at 4 GiB and the mirror slots at 8 GiB. -/
def ckpLeaf (n : Nat) : State :=
  let s := setF ckpBase R.CKP_CFG_GROUP 3 (grouped 1)
  let s := setF ckpBase R.CKP_NRANGES_N 1 (setPair ckpBase R.CKP_RANGES_LO_ADDR R.CKP_RANGES_HI_ADDR 0x40000 s)
  let s := setPair ckpBase R.CKP_FIRN_BASE_LO_ADDR R.CKP_FIRN_BASE_HI_ADDR (2 ^ 32) s
  put 0x40000 16 (0x80000 + n * 2 ^ 64) (setPair ckpBase R.CKP_MIRROR_BASE_LO_ADDR R.CKP_MIRROR_BASE_HI_ADDR (2 ^ 33) s)
/-- The checkpoint controller's state changed. -/
def ckpWith (f : Ckp → Ckp) (s : State) : State := { s with ckp := f s.ckp }
/-- The package's vote at step 0. -/
def aVote : VoteMsg := ⟨0, 0, false, false, true, false, none⟩
/-- A drain of both copies. -/
def aDrain : Drain := ⟨0, 0, true, true, 1, 0, 2, 4, 4, true⟩

theorem witness_Enable :
    let ready := { ckpLeaf 0x80 with pkg := .admitted }
    let placed := setF halBase R.HAL_WIN_SIZE_GIB 8 (setPair ckpBase R.CKP_DURABLE_BASE_LO_ADDR R.CKP_DURABLE_BASE_HI_ADDR (2 ^ 46) ready)
    let same := setPair ckpBase R.CKP_MIRROR_BASE_LO_ADDR R.CKP_MIRROR_BASE_HI_ADDR (2 ^ 32) ready
    on.pkg = .running ∧ ready.pkg ≠ .running ∧ rangesOk { on with pkg := .admitted } = false ∧ rangesOk same = true ∧ regionsClear same = false ∧
    rangesOk ready = true ∧ regionsClear ready = true ∧ regionsPlaced ready = false ∧ rangesOk placed = true ∧ regionsClear placed = true ∧
    regionsPlaced placed = true ∧ placed.pkg ≠ .running := by decide +kernel

theorem witness_Boundary :
    let s := ckpLeaf 8
    let noisy := setCore 0 live s
    let checking := ckpWith (fun c => { c with checking := some 0 }) s
    let voted := ckpWith (fun c => { c with mine := some aVote, sent := true, phase := 1 }) s
    let root := ckpWith (fun c => { c with mine := some aVote }) (setF ckpBase R.CKP_CFG_GROUP 3 (grouped 0))
    LeafBelow 1 s ∧ s.pkg = .running ∧ s.ckp.phase = 0 ∧ s.ckp.checking = none ∧ s.ckp.votes = [] ∧ ckpStep s = 0 ∧ allEnginesIdle s = true ∧ coresQuiet s = true ∧
    coresQuiet noisy = false ∧ noisy.pkg = .running ∧ checking.ckp.checking = some 0 ∧ LeafBelow 1 checking ∧ rankOf (voteGroup s).1 5 = none ∧
    rankOf (voteGroup s).1 0 = some 1 ∧ s.ckp.mine = none ∧ root.ckp.mine = some aVote ∧ root.ckp.sent = false ∧ rankOf (voteGroup root).1 1 = some 1 ∧
    voteKids (voteGroup root).1.length (voteGroup root).2 = [1] ∧
    voted.ckp.mine.isSome = true ∧ voted.ckp.sent = true ∧ LeafBelow 1 voted ∧ voted.ckp.phase = 1 ∧ getF ckpBase R.CKP_CFG_ENABLE voted = 0 ∧
    getF ckpBase R.CKP_CFG_ENABLE (setF ckpBase R.CKP_CFG_ENABLE 1 voted) = 1 ∧ voted.ckp.halt = none := by
  unfold LeafBelow Reachable; decide +kernel

/-- A rank in the middle of a control tree of 34: rank 1 with the one child 33. -/
theorem witness_VoteInTheMiddle :
    let s := csrSet 0 (grpBase 3) (BitVec.ofNat 32 (1 + 33 * 2 ^ 16 + 2 ^ 31)) (ckpLeaf 8)
    let s := { s with col := { s.col with groups := [(3, ⟨true, [1, 0] ++ List.replicate 31 9 ++ [63]⟩)] } }
    let s := ckpWith (fun c => { c with mine := some aVote }) s
    voteKids (voteGroup s).1.length (voteGroup s).2 = [33] ∧ rankOf (voteGroup s).1 63 = some 33 ∧ (voteGroup s).2 = 1 ∧
    (voteGroup s).1.getD (((voteGroup s).2 - 1) / 32) 0 = 1 ∧ Reachable 1 s ∧ s.ckp.mine = some aVote ∧ s.ckp.sent = false ∧ s.ckp.votes = [] := by
  unfold Reachable; decide +kernel

/-- The registers and memory of a leaf with one range of 8 bytes whose slot 0 holds a committed step cut 0, written out. -/
def slotted : State :=
  { ckpLeaf 8 with
    csr := [(131104, 132608), (1048576, 196912), (1048624, 262144), (1048632, 1), (1048652, 1), (1048660, 2), (4261384, 5), (4325632, 1), (4325640, 1),
      (4326144, 1), (4980744, 45), (5309960, 5), (5374208, 1), (5374216, 1), (5374720, 1), (6295648, 2147549185)]
    hbm := [(34359746562, 8), (34359746568, 8)]
    depot := [(135266304, ⟨BitVec.ofNat 1024 (13610773301117056590 * 2 ^ 320), true, false, 0, [], false⟩), (135266305, ⟨BitVec.ofNat 1024 (2 ^ 128), true, false, 0, [], false⟩)] }
/-- Slot 0 in a replay, and in a restore. -/
def replaying : State := ckpWith (fun c => { c with phase := 6 }) slotted
def restoring : State :=
  ckpWith (fun c => { c with restore := some ⟨1, 0, 0, some 0, [0]⟩, phase := 8 }) { slotted with pkg := .frozen }
/-- The head of slot 0: the signature of the range table and the commit word. -/
def head0 : Nat := 13610773301117056590 * 2 ^ 320 + 2 ^ 1152

theorem replaying_head : slotHead 0 replaying = head0 := by
  unfold slotHead
  rw [show slotBase 0 replaying = 4294967296 by decide +kernel]
  decide +kernel
theorem restoring_head : slotHead 0 restoring = head0 := by
  unfold slotHead
  rw [show slotBase 0 restoring = 4294967296 by decide +kernel]
  decide +kernel

theorem slot_committed {s : State} (h : slotHead 0 s = head0) (hn : slotSize s ≠ 0) (hb : s.ckp.bad = []) : slotState 0 s = 2 ∧ hCut (slotHead 0 s) = 0 ∧
    hKind (slotHead 0 s) = 0 ∧ hDigest (slotHead 0 s) = 0 := by
  have e : committed head0 = true ∧ hCut head0 = 0 ∧ hKind head0 = 0 ∧ hDigest head0 = 0 := by decide +kernel
  refine ⟨?_, by rw [h]; exact e.2.1, by rw [h]; exact e.2.2.1, by rw [h]; exact e.2.2.2⟩
  unfold slotState
  rw [if_neg hn, h]
  simp [e.1, hb]

theorem witness_Replay :
    let s := ckpLeaf 8
    let go := ckpWith (fun c => { c with mine := some aVote, sent := true, phase := 2 }) s
    let due := ckpWith (fun c => { c with go := some 5 }) { s with count := 5 }
    replaying.ckp.phase = 6 ∧ LeafBelow 1 replaying ∧ replaying.ckp.votes = [] ∧ ckpStep replaying = 0 ∧ ranges replaying = [(0x80000, 8)] ∧
    LeafBelow 1 go ∧ go.ckp.phase = 2 ∧ due.ckp.go = some 5 ∧ (5 : DWord) ≤ due.count ∧ s.ckp.phase ≠ 6 := by
  unfold LeafBelow Reachable; decide +kernel

theorem witness_ReplaySlot : slotOfCut (2 * 0) replaying = some 0 ∧ hKind (slotHead 0 replaying) ≠ 1 := by
  obtain ⟨h1, h2, h3, h4⟩ := slot_committed replaying_head (by decide +kernel) (by decide +kernel)
  refine ⟨?_, by rw [h3]; decide⟩
  unfold slotOfCut
  rw [List.find?_cons_of_pos (by simp [h1, h2])]

theorem witness_Copies :
    let s := ckpWith (fun c => { c with copy := some 0 }) (ckpLeaf 0x80)
    let d := ckpWith (fun c => { c with drain := some aDrain }) (ckpLeaf 8)
    s.ckp.copy = some 0 ∧ dataPoison s = false ∧ s.ckp.wantDrain = false ∧ ranges s = [(0x80000, 0x80)] ∧ 0x80 % 8 = 0 ∧ ckpStep s < 2 ^ 63 ∧ slotBase 0 s = 2 ^ 32 ∧
    getPair ckpBase R.CKP_NOTIFY_LO_ADDR R.CKP_NOTIFY_HI_ADDR s / 8 * 8 = 0 ∧ rangesAt s = 0x40000 ∧ s.pkg = .running ∧ s.ckp.halt = none ∧ s.ckp.drain = none ∧
    d.ckp.drain = some aDrain ∧ aDrain.mirror = true ∧ aDrain.durable = true ∧ drainLines d ≤ aDrain.sent ∧ ckpBusy false d = false ∧
    getF ckpBase R.CKP_STATUS_STATE (setF ckpBase R.CKP_STATUS_STATE 3 s) = 3 ∧ drainLines { d with ckp := { d.ckp with drain := some { aDrain with sent := 0 } } } ≤ 2 ^ 20 := by decide +kernel

theorem witness_CopyRanges :
    let s := ckpWith (fun c => { c with copy := some 0 }) (ckpLeaf 0x80)
    PlainRange 0x80000 8 slotted ∧ PlainRange (2 ^ 32) (0x10000 + 0x80) s ∧ PlainRange 0 8 s ∧ Apart (2 ^ 32) (0x10000 + 0x80) 0 8 s ∧
    Apart (2 ^ 32) (0x10000 + 0x80) 0x40000 16 s ∧ Apart 0 8 0x40000 16 s :=
  ⟨plain_low (by decide) (by decide +kernel) (by decide +kernel), plain_low (by decide) (by decide +kernel) (by decide +kernel),
    plain_low (by decide) (by decide +kernel) (by decide +kernel), apart_low (by decide) (by decide) (by decide), apart_low (by decide) (by decide) (by decide),
    apart_low (by decide) (by decide) (by decide)⟩

theorem witness_Freezes :
    let run := setCore 36 Core.init { ckpLeaf 8 with freezeF := some 0 }
    let f := ckpWith (fun c => { c with freeze := some (true, 0) }) { ckpLeaf 8 with pkg := .frozen }
    let halted := ckpWith (fun c => { c with halt := some 1 }) f
    let decided := ckpWith (fun c => { c with freeze := some (true, 1), mine := some aVote, sent := true, phase := 3 }) f
    let saving := ckpWith (fun c => { c with freeze := some (true, 2) }) f
    run.ckp.freeze = none ∧ run.pkg = .running ∧ freezeDue run = true ∧ (∀ c, c < 44 → countsParked c run = true) ∧ f.ckp.freeze = some (true, 0) ∧ f.pkg = .frozen ∧
    halted.ckp.halt ≠ none ∧ f.ckp.halt = none ∧ colSettled f = true ∧ (∀ fd : Fin 2, ∀ x ∈ (getFab fd f).txns, x.isRead = true) ∧
    LeafBelow 1 f ∧ f.ckp.votes = [] ∧ decided.ckp.phase = 3 ∧ LeafBelow 1 decided ∧ saving.ckp.freeze = some (true, 2) ∧ (∀ i, i < 4 → getF (depBase i) R.DEP_STATUS_FLUSHING saving = 0) ∧ getF ckpBase R.CKP_STATUS_PINNED saving = 0 ∧
    dataPoison saving = false ∧ dataPoison { saving with poison := [linearMap 0x80000 / 128] } = true := by
  unfold LeafBelow Reachable; decide +kernel

theorem witness_Restore :
    let s := restoring
    s.ckp.restore = some ⟨1, 0, 0, some 0, [0]⟩ ∧ s.ckp.phase = 8 ∧ s.ckp.reads = [] ∧ ckpBusy true s = false ∧ farDead s = false ∧
    ranges s = [(0x80000, 8)] ∧ LeafBelow 1 s ∧ s.ckp.votes = [] ∧ s.ckp.sent = false ∧
    crc64Go 0 (natBytes (readExt (slotBase 0 s + 0x10000) 8 s) 8) = 0 ∧
    poisonOff (slotBase 0 s + 0x10000) 8 s = false ∧ s.ckp.mine = none ∧ s.hal.dir = [] ∧ s.chans = [] ∧
    (let s := ckpWith (fun c => { c with restore := some ⟨1, 0, 0, some 0, [0, 2]⟩ }) s
     s.ckp.phase = 8 ∧ s.ckp.reads = [] ∧ ckpBusy true s = false ∧ farDead s = false ∧ LeafBelow 1 s) := by
  unfold LeafBelow Reachable; decide +kernel

theorem witness_RestoreSlot : [0, 1].find? (fun k => decide (cutAt true (ckpRank restoring) k restoring = some 0)) = some 0 ∧
    hKind (slotHead 0 restoring) ≠ 1 ∧ hDigest (slotHead 0 restoring) = 0 := by
  obtain ⟨h1, h2, h3, h4⟩ := slot_committed restoring_head (by decide +kernel) (by decide +kernel)
  refine ⟨?_, by rw [h3]; decide, h4⟩
  have c : candidate true (ckpRank restoring) head0 restoring = true := by decide +kernel
  have e : cutAt true (ckpRank restoring) 0 restoring = some 0 := by
    unfold cutAt
    rw [restoring_head] at h2 ⊢
    simp [h1, c, h2]
  rw [List.find?_cons_of_pos (by simp [e])]

theorem witness_Audits :
    let s := setF ckpBase R.CKP_CFG_AUDIT_EN 1 (grouped 1)
    let s := setF ckpBase R.CKP_CFG_GROUP 3 s
    let a := ckpWith (fun c => { c with auditN := some 1 }) s
    let w := put 0 8 5 (setPair ckpBase R.CKP_AUDIT_LOG_LO_ADDR R.CKP_AUDIT_LOG_HI_ADDR 0x40000 a)
    getF ckpBase R.CKP_CFG_AUDIT_EN on = 0 ∧ s.ckp.auditN = none ∧ auditOwner s = some 0 ∧ auditOwner on = none ∧ a.ckp.auditN = some 1 ∧ a.ckp.reads = [] ∧ ckpBusy true a = false ∧
    ownerRecord 0 0 a = some 0 ∧ auditEntry 0 a = (0, 0) ∧ readOff 0 24 a = 0 ∧ ownerRecord 0 0 w = some 0 ∧ auditEntry 0 w = (0, 0) ∧ readOff 0 24 w ≠ 0 ∧
    opsBit 2 { on with pkg := .service, sec := { on.sec with ops := some 4 } } = true ∧ opsBit 2 on = false := by decide +kernel

/-- The power controller's state changed. -/
def pwrWith (f : Pwr → Pwr) (s : State) : State := { s with pwr := f s.pwr }

theorem witness_Power :
    let slow := setF pwrBase R.PWR_HOST_OP_OP 15 on
    let quiet := pwrWith (fun p => { p with quiet := [(1, 1000000)] }) on
    pwrReach .halter on = true ∧ (∀ c : Fin 36, pwrReach (.drover c) on = false) ∧ on.pkg ≠ .off ∧ ({ on with pkg := .off }).pkg = .off ∧ opLive on = true ∧ canTrip on = true ∧ on.col.runs = [] ∧
    (pwrWith (fun p => { p with capOver := 10 }) on).pwr.capOver ≥ 10 ∧ upTicks quiet ≤ sGet 0 quiet.pwr.quiet 1 ∧
    (effOp on = opNow on ∨ opNow on < effOp on ∨ effOp on < opNow on) ∧ slow.pkg = on.pkg ∧
    ((List.replicate 80 (0 : DWord)).filter (fun x => decide (on.count.toNat ≤ x.toNat + 10000000))).length = 80 ∧ on.rails = true ∧
    ({ on with ramps := [5] }).ramps = [5] ∧ (5 : DWord).toNat ≤ on.count.toNat + 20000 ∧ on.count.toNat < (5 : DWord).toNat + 20000 ∧
    diePowered 0 on = true ∧ 0 < sensorsOf 0 ∧ on.pwr.accAt = [] ∧ (on.pwr.acc.map (fun e => e.1)).Nodup ∧ on.pwr.bindAt = [] ∧
    (let hot := { pwrWith (fun p => { p with faultAt := some 5 }) on with count := 100000005 }
     hot.pwr.faultAt = some 5 ∧ (5 : DWord).toNat + 100000000 ≤ hot.count.toNat ∧ ∀ d, d < 7 → diePowered d hot = true → sensorShort d hot = false) ∧
    (getSensor 0 on).failed = false := by decide +kernel

/-! ### The Logbook -/

/-- An event of source 0xE000 at 5 us of the counter. -/
def anEvent (code sev : Nat) : Event := ⟨0xE000, code, sev, 5000, 7, 0, 1000⟩
/-- Record number `n` of the same source. -/
def aRec (code sev n : Nat) : Rec := ⟨BitVec.ofNat 32 n, code, sev, false, false, 0, 0xE000, 4000, 0, 0, 0, 7, 4000⟩
/-- A Logbook with one event in the hold, and one with a late event in its queue. -/
def holding (e : Event) (recs : List Rec) : State :=
  { on with log := { on.log with hold := [e], recs := recs, head := BitVec.ofNat 32 recs.length } }
def arriving (e : Event) (recs : List Rec) : State :=
  { on with count := 10000, log := { on.log with queues := [(0xE000, [e])], recs := recs, head := BitVec.ofNat 32 recs.length } }
/-- `n` records of different numbers. -/
def manyRecs (code sev n : Nat) : List Rec := (List.range n).map (aRec code sev)

theorem holds_numbers (e : Event) (l : List Rec) : Numbers .eventStore e false (holding e l) := .inl ⟨rfl, rfl, rfl⟩

theorem late_numbers (code sev : Nat) (l : List Rec) :
    Numbers (.eventAccept 0xE000) (anEvent code sev) true (arriving (anEvent code sev) l) :=
  .inr ⟨rfl, by simp [arriving, anEvent], _, rfl, by simp [arriving, sGet]⟩

theorem stays_new {e : Event} {s : State} (h : ∀ r ∈ s.log.recs, r.code ≠ e.code) : StaysNew e s := by
  intro a r b h1 h2
  exact absurd h2 (h r (by rw [h1]; simp))

theorem many_recs {code sev n : Nat} {r : Rec} (h : r ∈ manyRecs code sev n) : r.code = code ∧ r.sev = sev := by
  simp only [manyRecs, List.mem_map] at h
  obtain ⟨k, -, rfl⟩ := h
  exact ⟨rfl, rfl⟩

theorem many_full (code sev n : Nat) (h : 8192 ≤ n) : (if Config.stepping = 0 then 4096 else 8192) ≤ (manyRecs code sev n).length := by
  rw [manyRecs, List.length_map, List.length_range]
  split <;> omega

theorem witness_BufferWithRoom :
    StaysNew (anEvent 0x81 2) (holding (anEvent 0x81 2) []) ∧ StaysNew (anEvent 0x81 2) (arriving (anEvent 0x81 2) [aRec 0x10 0 0]) ∧
    ¬ (if Config.stepping = 0 then 4096 else 8192) ≤ ([aRec 0x10 0 0] : List Rec).length := by
  refine ⟨stays_new (by decide), stays_new (by decide), ?_⟩
  split <;> decide

theorem full_of_many {e : Event} {code : Nat} (h : code ≠ e.code) (h1 : 1 ≤ e.sev) (n : Nat) (hn : n + 1 < 2 ^ 32) (h0 : BitVec.ofNat 32 (n + 1) ≠ 0) :
    let s := holding e (manyRecs code 1 (n + 1))
    StaysNew e s ∧ (s.log.recs.map Rec.seq).Nodup ∧ s.log.head ≠ (aRec code 1 0).seq ∧
    ∃ b, s.log.recs = [] ++ aRec code 1 0 :: b ∧ (∀ x ∈ b, (aRec code 1 0).sev ≤ x.sev) ∧ (aRec code 1 0).sev ≤ e.sev := by
  refine ⟨stays_new (fun r h' => ?_), ?_, ?_, ((List.range n).map Nat.succ).map (aRec code 1), ?_, ?_, h1⟩
  · rw [(many_recs h').1]; exact h
  · show ((manyRecs code 1 (n + 1)).map Rec.seq).Nodup
    simp only [manyRecs, List.map_map]
    refine List.Nodup.map_on (fun a ha b hb h => ?_) List.nodup_range
    rw [List.mem_range] at ha hb
    have h : BitVec.ofNat 32 a = BitVec.ofNat 32 b := h
    have h := congrArg BitVec.toNat h
    rw [BitVec.toNat_ofNat, BitVec.toNat_ofNat, Nat.mod_eq_of_lt (by omega), Nat.mod_eq_of_lt (by omega)] at h
    exact h
  · show BitVec.ofNat 32 ((List.range (n + 1)).map (aRec code 1)).length ≠ 0
    rw [List.length_map, List.length_range]; exact h0
  · show manyRecs code 1 (n + 1) = _
    rw [manyRecs, List.range_succ_eq_map]; rfl
  · intro x h
    simp only [List.mem_map] at h
    obtain ⟨k, -, rfl⟩ := h
    exact Nat.le_refl 1

theorem witness_FullBuffer : let s := holding (anEvent 0x81 2) (manyRecs 0x10 1 (8191 + 1))
    StaysNew (anEvent 0x81 2) s ∧ (s.log.recs.map Rec.seq).Nodup ∧ s.log.head ≠ (aRec 0x10 1 0).seq ∧
    ∃ b, s.log.recs = [] ++ aRec 0x10 1 0 :: b ∧ (∀ x ∈ b, (aRec 0x10 1 0).sev ≤ x.sev) ∧ (aRec 0x10 1 0).sev ≤ (anEvent 0x81 2).sev :=
  full_of_many (by decide) (by decide) 8191 (by decide) (by decide)

theorem dropped_of_many {e : Event} {code : Nat} (h : code ≠ e.code) (h1 : e.sev < 1) (n : Nat) : let s := holding e (manyRecs code 1 n)
    StaysNew e s ∧ ∀ x ∈ s.log.recs, e.sev < x.sev := by
  refine ⟨stays_new (fun r h' => ?_), fun r h' => ?_⟩
  · rw [(many_recs h').1]; exact h
  · rw [(many_recs h').2]; exact h1

theorem witness_DroppedEvent : let s := holding (anEvent 0x81 0) (manyRecs 0x10 1 8192)
    StaysNew (anEvent 0x81 0) s ∧ ∀ x ∈ s.log.recs, (anEvent 0x81 0).sev < x.sev :=
  dropped_of_many (by decide) (by decide) 8192

theorem witness_FullQueue :
    4 ≤ (sGet [] ({ on with log := { on.log with queues := [(0xE000, List.replicate 4 (anEvent 0x81 1))] } }).log.queues 0xE000).length := by decide

theorem witness_Merge : let e := anEvent 0x10 1
    let s := holding e [aRec 0x10 1 0]
    let r := aRec 0x10 1 0
    s.log.recs = [] ++ r :: [] ∧ r.code = e.code ∧ r.src = e.src ∧ r.sev = e.sev ∧ r.rep < 0xFFFF ∧ r.arg0 = e.arg0 ∧
    e.time.toNat ≤ r.latest.toNat + 1000 * e.window ∧ r.latest.toNat ≤ e.time.toNat + 1000 * e.window := by decide

theorem witness_LogbookCommands :
    on.log.hold = [] ∧ sGet [] on.log.queues 0xE000 = [] ∧
    (let s := { arriving (anEvent 0x10 1) [] with count := 9000 }
     sGet [] s.log.queues 0xE000 = anEvent 0x10 1 :: [] ∧ s.count.toNat ≤ (anEvent 0x10 1).time.toNat + 4000) ∧
    (getCur 0 on).sought = none ∧ (getCur 0 (after (.evrCurSeq 0 5) on)).sought = some 5 ∧
    (let s := { on with pkg := .service, sec := { on.sec with ops := some 2 } }
     s.pkg = .service ∧ s.sec.ops = some 2 ∧ bitAt 2 1 = true) ∧ ¬ on.pkg = .service := by
  decide +kernel

theorem witness_LayerDigests : ∃ ps : List (List Byte), ps ≠ [] ∧ (∀ p ∈ ps, p ≠ []) ∧ ps.flatten.length < 2 ^ 64 :=
  ⟨[[1], [2, 3]], by decide, by decide, by decide⟩

/-! ### The command interface -/

/-- The package in state `p`, its islands powered. -/
def inState (p : PkgSt) : State := { on with pkg := p, cause := 1 }
/-- With opcode `op` in progress. -/
def working (op : Nat) (s : State) : State := setF cmdBase R.CMD_STATUS_BUSY 1 (setF cmdBase R.CMD_STATUS_LAST_OPCODE op s)
/-- With the command's argument `n`. -/
def withArg (n v : Nat) (s : State) : State :=
  if n = 0 then setPair cmdBase R.CMD_ARG0_LO_VALUE R.CMD_ARG0_HI_VALUE v s
  else if n = 1 then setPair cmdBase R.CMD_ARG1_LO_VALUE R.CMD_ARG1_HI_VALUE v s
  else if n = 2 then setPair cmdBase R.CMD_ARG2_LO_VALUE R.CMD_ARG2_HI_VALUE v s
  else setPair cmdBase R.CMD_ARG3_LO_VALUE R.CMD_ARG3_HI_VALUE v s
/-- A companion window of 1 GiB whose first four lines lie in a Depot: the bytes of `v`, then zeros; the first argument names the window's first byte. -/
def windowed (v : Nat) (s : State) : State :=
  let z : DepotLine := ⟨0, false, false, 0, [], false⟩
  { withArg 0 (2 ^ 46) (setF halBase R.HAL_WIN_SIZE_GIB 1 s) with
    depot := [(compKey 0, ⟨BitVec.ofNat 1024 v, false, false, 0, [], false⟩), (compKey 1, z), (compKey 2, z), (compKey 3, z)] }

theorem bytes_of (v n : Nat) : bytesNat ((List.range n).map (fun i => BitVec.ofNat 8 (v / 256 ^ i % 256))) = v % 256 ^ n := by
  induction n generalizing v with
  | zero => simp [bytesNat, Nat.mod_one]
  | succ n ih =>
    rw [List.range_succ_eq_map, List.map_cons, List.map_map, bytesNat]
    have e : (fun i => BitVec.ofNat 8 (v / 256 ^ i % 256)) ∘ Nat.succ = fun i => BitVec.ofNat 8 (v / 256 / 256 ^ i % 256) := by
      funext i
      simp only [Function.comp, Nat.succ_eq_add_one, Nat.pow_succ, Nat.mul_comm _ 256, Nat.div_div_eq_div_mul]
    rw [e, ih, BitVec.toNat_ofNat, show 256 ^ (n + 1) = 256 * 256 ^ n by rw [Nat.pow_succ, Nat.mul_comm], Nat.mod_mul]
    simp

theorem target_companion {o : Nat} {s : State} (h1 : 2 ^ 46 ≤ o) (h2 : o - 2 ^ 46 < halWinBytes s) : target o s = .companion (o - 2 ^ 46) := by
  have h3 : halWinBytes s ≤ 2 ^ 46 := Nat.min_le_right _ _
  have a : ¬ o < 2 ^ 44 := by omega
  have b : ¬ o < 2 ^ 45 := by omega
  have c : ¬ o < 3 * 2 ^ 44 := by omega
  have d : ¬ o < 2 ^ 46 := by omega
  have e : o < 2 ^ 47 := by omega
  unfold target
  rw [if_neg a, if_neg b, if_neg c, if_neg d, if_pos e, if_pos h2]

/-- A command reads the window's Depot lines. -/
theorem ext_window {v n : Nat} {s : State} (hs : 512 ≤ halWinBytes s) (hd : s.depot = (windowed v on).depot) (hv : v < 2 ^ 160) (hn : n ≤ 512)
    (hm : 20 ≤ n) : readExt (2 ^ 46) n s = v := by
  have big : ∀ k, 20 ≤ k → v < 256 ^ k := fun k h => Nat.lt_of_lt_of_le hv (by
    rw [show (256 : Nat) = 2 ^ 8 by rfl, ← Nat.pow_mul]
    exact Nat.pow_le_pow_right (by decide) (by omega))
  rw [← Nat.mod_eq_of_lt (big n hm), ← bytes_of]
  unfold readExt
  congr 1
  apply List.map_congr_left
  intro i hi
  rw [List.mem_range] at hi
  congr 1
  have ht : target (2 ^ 46 + i) s = .companion i := by
    rw [target_companion (Nat.le_add_right _ _) (by omega), Nat.add_sub_cancel_left]
  unfold extByte
  rw [ht]
  simp only [hd]
  obtain h | h | h | h : i / 128 = 0 ∨ i / 128 = 1 ∨ i / 128 = 2 ∨ i / 128 = 3 := by omega
  · rw [h]
    simp only [windowed, sFind, if_true]
    have h1 : v < 2 ^ 1024 := Nat.lt_of_lt_of_le hv (Nat.pow_le_pow_right (by decide) (by decide))
    rw [(BitVec.toNat_ofNat v 1024).trans (Nat.mod_eq_of_lt h1), Nat.mod_eq_of_lt (by omega)]
    unfold bitsAt
    rw [Nat.shiftRight_eq_div_pow, show (256 : Nat) = 2 ^ 8 by rfl, ← Nat.pow_mul]
  all_goals
    rw [h, Nat.div_eq_of_lt (big i (by omega))]
    simp [windowed, sFind, compKey, bitsAt]

theorem fields_of {a b k : Nat} (ha : a < 2 ^ 64) (hb : b < 2 ^ 64) (hk : k < 2 ^ 32) :
    let v := a + b * 2 ^ 64 + k * 2 ^ 128
    bitsAt v 0 64 = a ∧ bitsAt v 64 64 = b ∧ bitsAt v 128 32 = k ∧ v < 2 ^ 160 := by
  simp only [bitsAt, Nat.shiftRight_eq_div_pow]
  omega

/-- The service authorisation of this package's serial number and nonce with the operation bits `k`. -/
def authBytes (k : Nat) (s : State) : Nat := Config.serial.toNat + (nonceNow s).toNat * 2 ^ 64 + k * 2 ^ 128

theorem bits_above {v lo : Nat} (w : Nat) (h : v < 2 ^ lo) : bitsAt v lo w = 0 := by
  unfold bitsAt
  rw [Nat.shiftRight_eq_div_pow, Nat.div_eq_of_lt h]
  exact Nat.zero_mod _

theorem auth_fields (k : Nat) (s : State) (hk : k < 2 ^ 32) : bitsAt (authBytes k s) 0 64 = Config.serial.toNat ∧ bitsAt (authBytes k s) 64 64 = (nonceNow s).toNat ∧
    bitsAt (authBytes k s) 160 3936 = 0 ∧ authBytes k s < 2 ^ 160 := by
  obtain ⟨h1, h2, -, h3⟩ := fields_of (a := Config.serial.toNat) (b := (nonceNow s).toNat) Config.serial.isLt (nonceNow s).isLt hk
  exact ⟨h1, h2, bits_above 3936 h3, h3⟩

/-- The state in which a service authorisation lies in the window. -/
def serviced : State := windowed (authBytes 3 on) (inState .ready)

theorem witness_ServiceEnter : Admissible 3 .halter serviced ∧ inCompanion (cmdArg 0 serviced) 1024 serviced = true ∧ serviced.sec.nonceUsed = false ∧
    Admissible 3 .halter (inState .ready) ∧ inCompanion (cmdArg 0 (inState .ready)) 1024 (inState .ready) = false := by
  unfold Admissible mayIssue legalNow; decide +kernel

theorem witness_Authorised : let b := readExt (cmdArg 0 serviced) 512 serviced
    bitsAt b 0 64 = Config.serial.toNat ∧ bitsAt b 64 64 = (nonceNow serviced).toNat ∧ bitsAt b 160 3936 = 0 := by
  obtain ⟨h1, h2, h3, h4⟩ := auth_fields 3 on (by decide)
  have e : readExt (cmdArg 0 serviced) 512 serviced = authBytes 3 on := by
    rw [show cmdArg 0 serviced = 2 ^ 46 by decide +kernel]
    exact ext_window (by decide +kernel) rfl h4 (by decide) (by decide)
  have n : nonceNow serviced = nonceNow on := rfl
  intro b
  rw [n]
  have eb : b = authBytes 3 on := e
  rw [eb]
  exact ⟨h1, h2, h3⟩

theorem witness_Admissible :
    ∀ e ∈ [(0, on), (1, inState .standby), (2, inState .ready), (3, inState .ready), (4, inState .service), (5, inState .ready), (6, inState .sleep),
      (7, inState .ready), (8, inState .ready), (9, inState .admitted), (0xA, on), (0xB, inState .frozen), (0xC, inState .frozen),
      (0xD, setF ckpBase R.CKP_RANK_ROLE 1 (inState .admitted)), (0xE, inState .faulted), (0xF, inState .faulted), (0x10, inState .ready), (0x11, on),
      (0x12, inState .service), (0x13, inState .ready)], Admissible e.1 .halter e.2 := by
  unfold Admissible mayIssue legalNow; decide +kernel

theorem witness_NotLegal :
    ∀ e ∈ [(1, on), (2, on), (3, on), (4, on), (5, on), (6, on), (7, on), (8, on), (9, on), (0xA, inState .ready), (0xB, on), (0xC, on), (0xD, on), (0xE, on),
      (0xF, inState .ready), (0x10, on), (0x12, on), (0x13, inState .standby)], ¬ legalNow e.1 e.2 ∧ cmdBusy e.2 = false ∧ e.2.pkg ≠ .off := by
  unfold legalNow; decide +kernel

theorem witness_NotAllowed : (∀ op ∈ List.range 20, ¬ mayIssue (.psc 0) op) ∧ mayIssue .halter 5 ∧ mayIssue .sideband 5 ∧ ¬ mayIssue .sideband 9 ∧
    (inState .off).pkg = .off := by
  unfold mayIssue; decide +kernel

theorem witness_InProgress :
    (∀ op ∈ [1, 5, 6, 7, 0xF, 0x10, 0x11, 0x13], cmdBusy (working op on) = true ∧ cmdOp (working op on) = op) ∧ on.pkg ≠ .off ∧
    ({ working 6 on with pwr := { on.pwr with wakeAt := some 0 } }).pwr.wakeAt = some 0 ∧ cmdBusy { working 6 on with pwr := { on.pwr with wakeAt := some 0 } } = true := by
  decide +kernel

theorem witness_SleepWritesBack :
    let s := { inState .ready with depot := [(5, ⟨7, true, false, 0, [], false⟩)] }
    (s.depot.map (fun e => e.1)).Nodup ∧ chanOos 5 s = false ∧ (∀ x, sFind s.depot 5 = some x → x.dirty = true) ∧ s.pkg = .ready ∧ cmdBusy s = false := by
  refine ⟨by decide, by decide +kernel, ?_, rfl, by decide +kernel⟩
  intro x h
  simp only [sFind, if_true, Option.some.injEq] at h
  rw [← h]

/-- An ERASE request of nonce 9 and the new custody 77 with these flags lies in the window. -/
def erasing (flags : Nat) : State := windowed (9 + 77 * 2 ^ 64 + flags * 2 ^ 128) (inState .ready)

theorem witness_Erase :
    (∀ flags ∈ [0, 1], Admissible 0x10 .halter (erasing flags) ∧ eraseReq (erasing flags) = (9, 77, flags) ∧ eraseOk (erasing flags) = true) ∧
    eraseOk (inState .ready) = false ∧
    (let s := { working 0x10 on with sec := { on.sec with erase := some (9, 77, 1) } }
     s.sec.erase = some (9, 77, 1) ∧ cmdBusy s = true ∧ cmdOp s = 0x10 ∧ s.sec.cairn.length + 3 ≤ cairnCap) ∧ on.sec.erase = none := by
  unfold Admissible mayIssue legalNow; decide +kernel

theorem witness_Attest :
    let s := { working 0x11 on with sec := { on.sec with report := List.replicate 512 0 } }
    attestOk on = true ∧ attestOk (withArg 1 1 on) = false ∧ cmdBusy (withArg 1 1 on) = false ∧ cmdBusy s = true ∧ cmdOp s = 0x11 ∧
    PlainRange s.sec.reportAt 1024 s ∧ s.sec.report.length = 512 := by
  refine ⟨by decide +kernel, by decide +kernel, by decide +kernel, by decide +kernel, by decide +kernel, ?_, List.length_replicate ..⟩
  exact plain_low (by decide) ⟨rfl, rfl, rfl⟩ rfl

/-- A rating record of grade A for this package. -/
def aRating : Rating := { State.reset.sec.rating with serial := Config.serial, seq := State.reset.sec.rating.seq + 1, refurb := true }

theorem witness_Rerate :
    let s := inState .service
    let a := { s with sec := { s.sec with ops := some 1 } }
    aRating.serial = Config.serial ∧ a.sec.rating.seq < aRating.seq ∧ a.sec.pendRating = none ∧ aRating.refurb = true ∧ gradeOk aRating = true ∧
    a.sec.ops = some 1 ∧ bitAt 1 0 = true ∧ a.pkg = .service ∧ cmdBusy a = false ∧ s.sec.ops = none ∧ a.sec.cairn.length < cairnCap ∧
    ({ aRating with refurb := false }).refurb ≠ true := by
  refine ⟨rfl, ?_⟩; decide +kernel

/-! ### The job's commands -/

/-- Two entries of 64 bytes lie in a Depot line at 0x4000. -/
def lineAt (e0 e1 : Nat) (s : State) : State :=
  { s with depot := [(linearMap 0x4000 / 128, ⟨BitVec.ofNat 1024 (e0 + e1 * 2 ^ 512), false, false, 0, [], false⟩)] }
/-- An ADMIT of tag 5 and a spread of 4 whose block lies in that line; bit 32 of the block asks for a new key. -/
def admitting (newKey : Nat) : State :=
  let s := inState .ready
  lineAt (1 + newKey * 2 ^ 32 + 5 * 2 ^ 128 + 4 * 2 ^ 144 + (custody s).toNat * 2 ^ 192) 0 (withArg 2 0x4000 (withArg 1 (5 + 4 * 2 ^ 16) s))

theorem witness_Admit : (∀ k ∈ [0, 1], Admissible 8 .halter (admitting k) ∧ admitOk (admitting k) = true ∧
      bitAt (readExt (cmdArg 2 (admitting k)) 64 (admitting k)) 32 = decide (k = 1)) ∧ admitOk (inState .ready) = false := by
  unfold Admissible mayIssue legalNow; decide +kernel

/-- A launch of opcode `op` at C whose table, at 0x4000, holds the nodes 0 and 1. -/
def launchAt (p : PkgSt) (c e0 e1 : Nat) : State :=
  lineAt e0 e1 (setPair colBase R.COL_LAUNCH_TBL_LO_ADDR R.COL_LAUNCH_TBL_HI_ADDR 0x4000 (withArg 0 c (withArg 1 c { routed with pkg := p })))
/-- The record that LAUNCH or RESUME begins with, but for the table's CRC. -/
def started (s : State) : LaunchRec :=
  ⟨9, 0, 0, 0, 0, 0xFFFF, treeRead 0x4000 s 0x200000 [0] [], 0, none, [], [], [], [], [], false, none, false, 0, [], []⟩

/-- The tables: this package the root with child package 1, the leaf below package 1, in no node. -/
def asRoot (p : PkgSt) (c : Nat) : State := launchAt p c (2 ^ 24 + 2 ^ 64 + 0xFFFF * 2 ^ 32) 1
def asLeaf (p : PkgSt) (c : Nat) : State := launchAt p c (1 + 2 ^ 24 + 2 ^ 64 + 0xFFFF * 2 ^ 32) 0
def asNone : State := launchAt .admitted 0 5 0

theorem witness_LaunchAdmissible : ∀ e ∈ [(9, asNone), (9, asRoot .admitted 20000), (0xB, asRoot .frozen 20000), (9, asLeaf .admitted 20000),
    (9, asRoot .admitted 5)], Admissible e.1 .halter e.2 := by
  unfold Admissible mayIssue legalNow; decide +kernel

theorem witness_LaunchTables :
    getPair colBase R.COL_LAUNCH_TBL_LO_ADDR R.COL_LAUNCH_TBL_HI_ADDR asNone % 2 ^ 48 = 0x4000 ∧ nodeAt (started asNone) (pkgNum asNone) = none ∧
    nodeAt (started (asRoot .admitted 20000)) 0 = some 0 ∧ nodeAt (started (asLeaf .admitted 20000)) 0 = some 1 ∧
    entryKids (nodeOf (started (asRoot .admitted 20000)) 0) = [1] ∧ nodePkg (started (asRoot .admitted 20000)) 1 = 1 ∧
    Reachable 1 (asRoot .admitted 20000) ∧ cmdArg 1 (asRoot .admitted 20000) = 20000 ∧ cmdArg 0 (asRoot .frozen 20000) = 20000 ∧
    (asRoot .admitted 20000).count.toNat + 10000 ≤ 20000 := by
  unfold Reachable; decide +kernel

theorem witness_LaunchTooLate : nodeAt (started (asRoot .admitted 5)) 0 = some 0 ∧ cmdArg 1 (asRoot .admitted 5) = 5 ∧
    (∀ p ∈ launchPeers { started (asRoot .admitted 5) with me := 0, kids := [1] } 0x10000, Reachable p (asRoot .admitted 5)) := by
  unfold Reachable; decide +kernel

theorem witness_RestoreCommand :
    let mirror := lineAt (2 ^ 16) 0 (setPair ckpBase R.CKP_PARTNER_TBL_LO_ADDR R.CKP_PARTNER_TBL_HI_ADDR 0x4000 (withArg 1 2 { routed with pkg := .frozen }))
    let own := withArg 1 1 { ckpLeaf 8 with pkg := .frozen }
    (∀ s ∈ [mirror, own], Admissible 0xC .halter s) ∧ bitAt (cmdArg 1 mirror) 1 = true ∧ pPartner (partner (ckpRank mirror) mirror) = 1 ∧ Reachable 1 mirror ∧
    bitAt (cmdArg 1 own) 1 = false ∧ LeafBelow 1 own ∧ own.ckp.votes = [] := by
  unfold Admissible mayIssue legalNow LeafBelow Reachable; decide +kernel

/-! ### Pins, boot and the security block -/

/-- A change of the pins' state. -/
def pinned (f : Pins → Pins) (s : State) : State := { s with pins := f s.pins }
/-- In boot. -/
def booting : State := pinned (fun p => { p with boot := true }) (inState .off)
/-- What boot reads: images of SVN 1 and 2 signed by the key of slot 0, accepted or not, and a rating record whose signature verifies. -/
def images (okA okB : Bool) : BootInputs := ⟨1, okA, true, 0, 5, 2, okB, false, 0, 5, true, true⟩
/-- In boot with the hash of that key in slot 0. -/
def keyed : State := { booting with sec := { booting.sec with fwKeys := [(5, false), (6, true)], rating := aRating } }
/-- A Cairn entry. -/
def anEntry : CairnEntry := ⟨1, 0, 0, [], 0⟩

theorem witness_Boot :
    (inState .off).pins.boot = false ∧ ((inState .off).csr.map (fun e => e.1)).Nodup ∧ booting.pkg = .off ∧ booting.pins.boot = true ∧ booting.pins.bootBad = false ∧
    getF secBase R.SEC_STATUS_ROLLBACK booting ≤ 1 ∧ booting.sec.pendRating = none ∧ booting.sec.saved = [] ∧
    ({ booting with sec := { booting.sec with saved := [1], removed := false } }).sec.saved ≠ [] ∧
    ({ booting with sec := { booting.sec with pendRating := some { aRating with seq := 0 } } }).sec.pendRating.isSome = true ∧
    keyed.sec.fwKeys[(images true true).slotA]? = some ((images true true).keyA, false) ∧ keyed.sec.fwKeys[(images true true).slotB]? = some ((images true true).keyB, false) ∧
    keyed.pins.boot = true ∧ keyed.pins.bootBad = false ∧ keyed.pkg = .off ∧ getF secBase R.SEC_STATUS_ROLLBACK keyed ≤ 1 ∧ keyed.sec.pendRating = none ∧
    (images true true).activeOk = true ∧ gradeOk aRating = true ∧ (images true true).svnA.toNat < (images true true).svnB.toNat ∧ (images true false).okB = false ∧
    (images false false).okA = false ∧ booting.sec.cairn.length + 4 ≤ cairnCap := by
  decide +kernel

theorem witness_RatingFound : aRating.serial = Config.serial ∧ keyed.sec.rating = aRating := ⟨rfl, rfl⟩

theorem witness_Removal :
    let off := inState .off
    let gone := { on with sec := { on.sec with removed := true } }
    on.pins.lever = true ∧ (pinned (fun p => { p with lever := false }) on).pins.lever = false ∧ off.pkg = .off ∧ off.pins.lever = true ∧ gone.sec.removed = true ∧
    on.sec.removed = false ∧ on.pkg ≠ .off ∧ on.sec.cairn.length + 3 ≤ cairnCap ∧ cmdBusy (working 9 on) = true ∧ on.pins.pwrEn = true ∧ off.pins.pwrEn = true ∧
    (pinned (fun p => { p with pwrEn := false }) on).pins.pwrEn = false ∧ off.pins.boot = false ∧ booting.pins.boot = true := by
  decide +kernel

theorem witness_Inputs :
    csrUp on = true ∧ csrUp (inState .off) = false ∧ canTrip on = true ∧ canTrip (inState .off) = false ∧ on.col.runs = [] ∧
    (inState .standby).pins.strapsBad = false ∧ getF pkgBase R.PKG_INPUTS_SLOT_OK (inState .standby) = 0 ∧ csrUp (inState .standby) = true ∧
    popCount (3 : BitVec 7).toNat 7 % 2 = 0 ∧ getF pkgBase R.PKG_INPUTS_SLOT_OK (setF pkgBase R.PKG_INPUTS_SLOT_OK 1 on) = 1 ∧ (3 : BitVec 7) ≠ on.pins.straps ∧
    (let s := { pinned (fun p => { p with refBad := some 0 }) on with count := 100000 }
     s.pins.refBad = some 0 ∧ (0 : DWord).toNat + 100000 ≤ s.count.toNat ∧ getF pkgBase R.PKG_INPUTS_REFCLK_SRC s = 0) ∧
    (let s := setF pkgBase R.PKG_INPUT_CFG_REFCLK_RETURN 1 (setF pkgBase R.PKG_INPUTS_REFCLK_SRC 1
       { pinned (fun p => { p with refGood := some 0 }) (inState .ready) with count := 100000000 })
     s.pkg = .ready ∧ s.pins.refGood = some 0 ∧ (0 : DWord).toNat + 100000000 ≤ s.count.toNat ∧ getF pkgBase R.PKG_INPUTS_REFCLK_SRC s = 1 ∧
     effF pkgBase R.PKG_INPUT_CFG_REFCLK_RETURN R.PKG_INPUT_CFG_LEVEL s = 1) := by
  decide +kernel

theorem witness_Sideband :
    let s := pinned (fun p => { p with sbData := some 5 }) on
    let i3c := setF pkgBase R.PKG_INPUTS_SB_MODE 1 on
    let smbus := setF pkgBase R.PKG_INPUTS_SB_MODE 0 on
    let loud : Rec := aRec 0x10 3 0
    let quiet : Rec := aRec 0x10 0 1
    let logged := setF evrBase R.EVR_CFG_IBI_SEV 3 { smbus with log := { smbus.log with recs := [loud, quiet] } }
    on.root.held = none ∧ on.root.waiting = [] ∧ isReg 0x20008 (fun k r => storesOnly k r.off) = true ∧ s.pins.sbData = some 5 ∧ on.pins.sbData = none ∧
    csrUp i3c = true ∧ getF pkgBase R.PKG_INPUTS_SB_MODE i3c = 1 ∧ i3c.pins.sbAddr = none ∧ csrUp smbus = true ∧ getF pkgBase R.PKG_INPUTS_SB_MODE smbus = 0 ∧
    logged.log.recs = [] ++ loud :: [quiet] ∧ getF evrBase R.EVR_CFG_IBI_SEV logged ≤ loud.sev ∧ ¬ getF evrBase R.EVR_CFG_IBI_SEV logged ≤ quiet.sev ∧
    getF pkgBase R.PKG_INPUTS_SB_MODE logged = 0 ∧ smbus.log.recs = [] := by
  decide +kernel

theorem witness_Tap : csrUp on = true ∧ 2 ≤ (pinned (fun p => { p with tap := 2 }) on).pins.tap ∧ on.pins.tap < 2 ∧ (inState .standby).pkg = .standby ∧ on.pkg ≠ .standby := by
  decide

theorem witness_SecurityBlock :
    let open0 := { on with sec := { on.sec with unlocked := some 0 } }
    let open1 := { on with sec := { on.sec with unlocked := some 1 } }
    let svc := { inState .service with sec := { on.sec with ops := some 8, base := 2000, cairn := [anEntry, anEntry] } }
    secReach .halter on = true ∧ secReach (.drover 0) on = false ∧ secReach .halter (inState .off) = false ∧ on.sec.unlocked = none ∧ open0.sec.unlocked = some 0 ∧
    open0.pkg ≠ .off ∧ getF secBase R.SEC_STATUS_BANK open0 = 0 ∧ getF secBase R.SEC_STATUS_BANK open1 ≠ 1 ∧
    svc.pkg = .service ∧ svc.sec.ops = some 8 ∧ bitAt 8 3 = true ∧ (1 : Word).toNat + 1024 < cairnCount svc ∧ (1 : Word).toNat < svc.sec.cairn.length ∧
    svc.sec.cairn.length < cairnCap + 1 ∧ on.sec.ops = none ∧
    effF secBase R.SEC_CFG_HEALTH_EN R.SEC_CFG_LEVEL (setF secBase R.SEC_CFG_HEALTH_EN 1 on) = 1 ∧
    effF secBase R.SEC_CFG_HEALTH_EN R.SEC_CFG_LEVEL (setF secBase R.SEC_CFG_LEVEL 1 (setF secBase R.SEC_CFG_HEALTH_EN 0 on)) ≠ 1 ∧ on.sec.cairn.length + 2 ≤ cairnCap ∧
    svc.sec.cairn[2001 - svc.sec.base]? = some anEntry := by
  decide +kernel

/-! ### Statements about every command: states that meet their hypotheses -/

theorem witness_IdleSteps :
    let s := { on with counting := true }
    on.pending = [] ∧ on.ckp.checking = none ∧ ({ on with counting := false }).counting = false ∧ s.counting = true ∧ s.sync.slew = 0 ∧ s.pending = [] ∧ s.ckp.checking = none ∧
    ({ s with sync := { s.sync with slew := 5 } }).sync.slew > 0 ∧ ({ s with sync := { s.sync with slew := -5 } }).sync.slew < 0 := by decide

theorem witness_CanonicalMemories : let s := { put 0x40 8 5 on with pending := [.eventStore] }
    (Mem.wf (hbmBgByte s) s.hbm = true ∧ Mem.wf zeroByte s.tileSram = true ∧ Mem.wf zeroByte s.sec.flash = true ∧ s.ckp.saved = []) ∧ s.hbm ≠ [] := by
  decide +kernel

theorem witness_AStepAnswers (s : State) : ∃ t, step { s with pending := [.eventStore] } = .next t := by
  have h : step { s with pending := [.eventStore] } = execEventStore { s with pending := [] } := rfl
  exact ⟨_, h.trans (by unfold execEventStore; rfl)⟩

theorem witness_OnlyImagesStop : ¬ mayWriteImage (.nop .halter) ∧ mayWriteImage .sbRead := by
  exact ⟨id, trivial⟩

/-! ### Ill-formed commands are refused -/

theorem smoke_flit : (Instr.flitReceive 0 ⟨0, 0, 0, 0, false, false, 0, 0, []⟩).wf = false ∧
    (Instr.flitReceive 0 ⟨0, 0, 0, 0, false, false, 1, 0, List.replicate 31 0⟩).wf = false ∧
    (Instr.flitReceive 0 ⟨0, 0, 0, 0, false, false, 0, 0, List.replicate 31 0⟩).wf = true := by decide

theorem smoke_message : (Instr.rd 0 ⟨hdrTo0 3 0, []⟩).wf = false ∧ (Instr.wr 0 ⟨hdrTo0 3 0, []⟩).wf = false ∧ (Instr.rd 0 ⟨hdrTo0 1 0, []⟩).wf = true := by
  decide

theorem smoke_frame : (Instr.routeAck 0 (frameOf 0 0 0)).wf = false ∧ (Instr.routeData 0 { frameOf 0 0 0 with nslots := 1 }).wf = false ∧
    (Instr.routeAck 0 { frameOf 1 0 0 with nslots := 561, slots := List.replicate 561 0 }).wf = false ∧ (Instr.routeAck 0 (frameOf 1 0 0)).wf = true := by
  decide +kernel

theorem smoke_halter : (Instr.rdS (halMsg 2 0 [])).wf = false ∧ (Instr.wrFull (halMsg 5 0 [])).wf = false ∧ (Instr.wrFull (halMsg 5 0 [0])).wf = true := by decide

theorem smoke_collective : (Instr.data { colMsg 2 0 with slots := [0] }).wf = false ∧ (Instr.data { colMsg 2 0 with slots := List.replicate 72 0 }).wf = false ∧
    (Instr.data { colMsg 2 0 with slots := List.replicate 12 0 }).wf = false ∧ (Instr.data { colMsg 2 0 with slots := List.replicate 8 0 }).wf = true ∧
    (Instr.abort { colMsg 9 0 with slots := List.replicate 8 0 } 0 0).wf = false := by decide +kernel

theorem smoke_lists : (Instr.flashPageWrite .halter 0 [0]).wf = false ∧ (Instr.sensorSample [] [] 0 0).wf = false ∧ (Instr.capTick 0 0 []).wf = false := by decide

/-! ### Single steps and operations, with the values of the spec's rules and worked examples -/

/-- R138: DIVU by zero returns all ones, REMU by zero the dividend; g0 discards writes (R134). -/
theorem test_divu_by_zero : getG (getCore 0 (after (.divu 0 (word 1 2 0 0)) (core 0 busy))) 1 = BitVec.allOnes 64 ∧
    getG (getCore 0 (after (.remu 0 (word 4 2 0 0)) (core 0 busy))) 4 = 60000000000 ∧
    getG (getCore 0 (after (.divu 0 (word 0 2 0 0)) (core 0 busy))) 0 = 0 := by decide +kernel

/-- R138: shift counts are modulo 64, and MULH is signed where MULHU is not. -/
theorem test_shift_and_mulh : let k := setG 4 0xFFFFFFFFFFFFFFFF (setG 5 65 live)
    getG (getCore 0 (after (.shl 0 (word 1 5 5 0)) (core 0 k))) 1 = 130 ∧ getG (getCore 0 (after (.mulh 0 (word 1 4 4 0)) (core 0 k))) 1 = 0 ∧
    getG (getCore 0 (after (.mulhu 0 (word 1 4 4 0)) (core 0 k))) 1 = 0xFFFFFFFFFFFFFFFE := by decide +kernel

/-- The worked example of VQMULH in Q7 (R108). -/
theorem test_vqmulh : elemInt 0x58 0 8 0x60 0xA0 0 = (0xB8, 0) ∧ elemInt 0x58 0 8 0x55 3 0 = (2, 0) ∧ elemInt 0x58 2 8 0x55 3 0 = (1, 0) ∧
    elemInt 0x58 0 8 0x80 0x80 0 = (0x7F, flSATD) := by decide

/-- The worked examples of the address map (R228, R229). -/
theorem test_address_map : spreadMap 0x1234000 16 = physOf 5 8 0x6000C000 ∧ linearMap (2 * 2 ^ 36 + 0x400000) = physOf 2 8 0x20000 := by decide

/-- The worked example of the MX dot product: one group of E4M3 summed exactly (R42). -/
theorem test_mx_group : groupUpdate fp32 (decodeF fp32 0)
    (mxProds (mxD 0 0) 0x7F 0x7F ((0x7E, 0x7E) :: List.replicate 14 (1, 1) ++ [(0x7E, 0xFE)])) = (0x38600000, 0) := by decide +kernel

/-- The worked example of CHOL with a singular column (R208, R209). -/
theorem test_chol : let x : SlvD := ⟨2 ^ 4 + 2 * 2 ^ 32 + 32 * (2 ^ 96 + 2 ^ 104 + 2 ^ 112 + 2 ^ 120 + 2 ^ 128) + 0x1000 * 2 ^ 1024⟩
    let a : Nat → Nat → Int := fun i j => 2 ^ 32 * ([4, 2, 2, 2, 5, 1, 2, 1, 1].getD (3 * i + j) 0 : Nat)
    let b : Nat → Int := fun i => 2 ^ 32 * ([6, 8, 3].getD i 0 : Nat)
    let s := solveRhs x b 32 (factorise x a 32 .empty) 0
    x.n = 3 ∧ s.sing = [2] ∧ [me s.x 0 0, me s.x 1 0, me s.x 2 0] = [0xE0000000, 0x140000000, 0] := by decide +kernel

/-- The worked example of narrowing a block to E4M3 under FLOOR (R178 to R181). -/
theorem test_narrow :
    let vs := ([0x4031000000000000, 0xC008000000000000, 0x3F30000000000000, 0x3F28000000000000] ++ List.replicate 28 0).map (decodeF fp64)
    let r := asyNarrowBlk ⟨9 * 2⟩ false false vs
    r.scale = 0x7B ∧ r.out.take 4 = [0x78, 0xE4, 0x02, 0x02] ∧ r.abs = 0x3F800000 ∧ r.rel = 0x3EAAAAAB ∧ r.flags = flNX := by decide +kernel

/-- The worked example of a routing row: equal scores go to the lower expert (R172). -/
theorem test_selections : (topK 2 [(0, 0x3EC00000), (1, 0x3EC00000), (2, 0x3F400000), (3, 0x3E000000)]).map (·.1) = [2, 0] ∧
    (topK 2 [(0, 0x3E000000), (1, 0x3F000000), (2, 0x3F000000), (3, 0x3F000000)]).map (·.1) = [1, 2] := by decide +kernel

/-- The worked example of a fixed-point all-reduce (R305, R306). -/
theorem test_fixed_sum : fixOf fp32 2 0x40400000 = 0x0000600000000000 ∧ fixOf fp32 2 0x2B802000 = 0x20 ∧ fixOf fp32 2 0xC03FFFFF = 0xFFFFA00000800000 ∧
    roundDy fp32 false false ⟨8388640, -45⟩ = (0x34800020, 0) := by decide +kernel

/-- The worked example of a channel's health score (R466). -/
theorem test_health_score : partScore (weights 1) (List.replicate 23 [2, 0, 0] ++
    [[4, 1, 0], [8, 1, 0], [12, 2, 0], [20, 2, 0], [30, 3, 0], [44, 4, 0], [60, 5, 0]]) = 226 := by decide +kernel

/-- The worked example of the Logbook: LAUNCH in READY is refused, and two milliseconds later again (R430, R434, R436, R440). -/
def readyAt : State := { inState .ready with count := 5000000000, log := { on.log with head := 0x1A2B } }
def logOnce (s : State) : State := after .eventStore (after (.eventAccept 0) (after (.launch .halter) s))
theorem test_refused_launch : let t := logOnce readyAt
    getF cmdBase R.CMD_STATUS_CODE t = 2 ∧ t.pkg = .ready ∧
    t.log.recs.map (fun r => (r.seq, r.code, r.sev, r.src, r.arg0, r.rep)) = [((0x1A2B : Word), 1, 1, 0, (0x309 : DWord), 0)] := by decide +kernel
theorem test_merged_launch : let t := logOnce { logOnce readyAt with count := 5002000000 }
    t.log.recs.map (fun r => (r.rep, r.lastDt, r.upd)) = [(1, 2000, 1)] ∧ t.log.head = 0x1A2C := by decide +kernel

/-- A command spelt by a word of the table: no row gives bits, so no word spells one. -/
theorem test_no_words : decodeTableWord 32 0 = none ∧ decodeTableWord 8 0x5A = none := by decide

/-! ### Fletrum instruction words, written out from R136, R141, R149 and R491 -/

theorem test_words_scalar : let w := fun v => decodeInsn 5 noEv v
    w 0x00061100 = some (.add 5 0x061100) ∧ w 0x05461000 = some (.popcnt 5 0x061000) ∧ w 0x12061004 = some (.strip 5 0x061004) ∧
    w 0x28460123 = some (.movk 5 2 0x060123) ∧ w 0x33061020 = some (.sth 5 0x061020 ) ∧ w 0x41461FFF = some (.bgeu 5 0x061FFF) := by decide
theorem test_words_other : let w := fun v => decodeInsn 5 noEv v
    w 0x54003000 = some (.sgetValue 5 0x003000) ∧ w 0x60420000 = some (.jalr 5 0x020000) ∧ w 0x7A001000 = some (.issueClusterStart 5 0x001000) ∧
    w 0x81C00000 = some (.qpt 5 0) ∧ w 0x93822005 = some (.svmv 5 0x022005) ∧ w 0xA1821100 = some (.amoMaxu 5 0x021100 noEv) ∧
    w 0xB1400000 = some (.fletrumNop 5 0) := by decide
theorem test_words_reserved : let w := fun v => decodeInsn 5 noEv v
    w 0x05800000 = none ∧ w 0x12400000 = none ∧ w 0x20800000 = none ∧ w 0x33400000 = none ∧ w 0x77000000 = none ∧ w 0xB1800000 = none ∧
    w 0xC0000000 = none := by decide

/-- A value beyond the range counts as beyond it before rounding: 127.25 to INT8 is 127 with OF and NX; 126.5 rounds to even with NX only (R62). -/
theorem test_beyond_before_rounding : toIntV .rne 8 (.fin false 509 (-2)) = (127, flOF + flNX) ∧ toIntV .rne 8 (.fin false 253 (-1)) = (126, flNX) ∧
    toIntV .rne 8 (.fin true 257 (-1)) = (-128, flOF + flNX) := by decide +kernel

end Sys2Proof.Tests
end

section
/-! PROOFS. Bytes of memory as the package reads them: what a byte of a number reads after a field of it is replaced, what the byte at a place of HBM reads
after a write into its line, and the statement that a local write reads back (R12, R226, R227, R245, R247). -/

namespace Sys2Proof.Machine

open Sys2Proof.Claims

/-! ### Bytes of a number (R12) -/

theorem testBit_bitsAt (v lo w i : Nat) : (bitsAt v lo w).testBit i = (decide (i < w) && v.testBit (lo + i)) := by
  simp [bitsAt, Nat.testBit_mod_two_pow, Nat.testBit_shiftRight]

theorem testBit_putBits (v lo w x i : Nat) :
    (putBits v lo w x).testBit i = if lo ≤ i ∧ i < lo + w then x.testBit (i - lo) else v.testBit i := by
  rw [putBits_eq, Nat.testBit_two_pow_mul_add _ (Nat.mod_lt _ (Nat.two_pow_pos lo)),
    Nat.testBit_two_pow_mul_add _ (Nat.mod_lt _ (Nat.two_pow_pos w))]
  by_cases hlo : i < lo
  · rw [if_pos hlo, if_neg (by omega), Nat.testBit_mod_two_pow]
    simp [hlo]
  · rw [if_neg hlo]
    by_cases hw : i - lo < w
    · rw [if_pos hw, if_pos (by omega), Nat.testBit_mod_two_pow]
      simp [hw]
    · rw [if_neg hw, if_neg (by omega), Nat.testBit_div_two_pow, Nat.testBit_div_two_pow]
      congr 1
      omega

/-- A part of the field replaced reads as that part of the new value. -/
theorem bitsAt_putBits_inside {k u w : Nat} (v lo x : Nat) (h : k + u ≤ w) : bitsAt (putBits v lo w x) (lo + k) u = bitsAt x k u := by
  refine Nat.eq_of_testBit_eq fun i => ?_
  rw [testBit_bitsAt, testBit_bitsAt, testBit_putBits]
  by_cases hi : i < u
  · rw [if_pos (by omega), show lo + k + i - lo = k + i by omega]
  · simp [hi]

/-- Bits beside the field replaced read as before. -/
theorem bitsAt_putBits_outside {j u lo w : Nat} (v x : Nat) (h : j + u ≤ lo ∨ lo + w ≤ j) : bitsAt (putBits v lo w x) j u = bitsAt v j u := by
  refine Nat.eq_of_testBit_eq fun i => ?_
  rw [testBit_bitsAt, testBit_bitsAt, testBit_putBits]
  by_cases hi : i < u
  · rw [if_neg (by omega)]
  · simp [hi]

/-- The low bits of a number keep every field that lies in them. -/
theorem bitsAt_mod_two_pow {lo w m : Nat} (v : Nat) (h : lo + w ≤ m) : bitsAt (v % 2 ^ m) lo w = bitsAt v lo w := by
  refine Nat.eq_of_testBit_eq fun i => ?_
  rw [testBit_bitsAt, testBit_bitsAt, Nat.testBit_mod_two_pow]
  by_cases hi : i < w
  · simp [show lo + i < m by omega]
  · simp [hi]

theorem bitsAt_toNat_ofNat {lo w m : Nat} (v : Nat) (h : lo + w ≤ m) : bitsAt (BitVec.ofNat m v).toNat lo w = bitsAt v lo w := by
  rw [BitVec.toNat_ofNat, bitsAt_mod_two_pow v h]

/-- Byte `i` of a number, as bits and as a quotient (R12). -/
theorem bitsAt_byte (v i : Nat) : bitsAt v (8 * i) 8 = v / 256 ^ i % 256 := by
  rw [bitsAt, Nat.shiftRight_eq_div_pow, Nat.pow_mul, show 2 ^ 8 = 256 from rfl]

/-- A byte of a number read from memory is the byte at its address. -/
theorem bitsAt_memReadN (bg : Nat → Byte) (m : Mem) : ∀ (n i a : Nat), i < n → bitsAt (memReadN bg m a n) (8 * i) 8 = (memRead bg m (a + i)).toNat
  | n + 1, 0, a, _ => by
    have hb := (memRead bg m a).isLt
    rw [bitsAt_byte, memReadN, Nat.pow_zero, Nat.div_one, Nat.add_zero a]
    omega
  | n + 1, i + 1, a, hi => by
    have hb := (memRead bg m a).isLt
    have hrest : memReadN bg m a (n + 1) / 256 = memReadN bg m (a + 1) n := by
      rw [memReadN]; omega
    rw [bitsAt_byte, Nat.pow_succ', ← Nat.div_div_eq_div_mul, hrest, ← bitsAt_byte, bitsAt_memReadN bg m n i (a + 1) (by omega),
      show a + 1 + i = a + (i + 1) by omega]

/-! ### The byte at a place of HBM -/

/-- With the line in a Depot, the byte is the Depot's. -/
theorem placeByte_of_depot {x : Nat} {s : State} {d : DepotLine} (h : sFind s.depot (x / 128) = some d) :
    placeByte x s = bitsAt d.data.toNat (8 * (x % 128)) 8 := by
  rw [placeByte, lineNat, h]

/-- With the line in no Depot, the byte is that of HBM. -/
theorem placeByte_of_hbm {x : Nat} {s : State} (h : sFind s.depot (x / 128) = none) : placeByte x s = (memRead (hbmBgByte s) s.hbm x).toNat := by
  rw [placeByte, lineNat, h]
  change bitsAt (hbmLine (x / 128) s) _ _ = _
  rw [hbmLine, bitsAt_memReadN _ _ _ _ _ (by omega), show x / 128 * 128 + x % 128 = x by omega]

/-- A byte of HBM depends on its line's Depot copy, on the byte HBM holds and on the background alone. -/
theorem placeByte_congr {x : Nat} {s t : State} (hd : sFind t.depot (x / 128) = sFind s.depot (x / 128))
    (hm : memRead (hbmBgByte t) t.hbm x = memRead (hbmBgByte s) s.hbm x) : placeByte x t = placeByte x s := by
  cases h : sFind s.depot (x / 128) with
  | some d => rw [placeByte_of_depot h, placeByte_of_depot (hd.trans h)]
  | none => rw [placeByte_of_hbm h, placeByte_of_hbm (hd.trans h), hm]

/-- Putting the line that a write merges into a Depot stores the bytes written. -/
theorem storedAt_depot {p n v : Nat} {s : State} {d : DepotLine} (hn : p % 128 + n ≤ 128)
    (hd : d.data = BitVec.ofNat 1024 (putBits (lineNat (p / 128) s) (8 * (p % 128)) (8 * n) v)) :
    StoredAt p n v s { s with depot := sIns (p / 128) d s.depot } := by
  have hline : ∀ x, x / 128 = p / 128 → placeByte x { s with depot := sIns (p / 128) d s.depot } =
      bitsAt (putBits (lineNat (p / 128) s) (8 * (p % 128)) (8 * n) v) (8 * (x % 128)) 8 := by
    intro x hx
    have hfind : sFind (sIns (p / 128) d s.depot) (x / 128) = some d := by simp [hx]
    rw [placeByte_of_depot hfind, hd, bitsAt_toNat_ofNat _ (by omega)]
  refine ⟨fun i hi => ?_, fun x hx => ?_, rfl⟩
  · rw [hline (p + i) (by omega), show 8 * ((p + i) % 128) = 8 * (p % 128) + 8 * i by omega, bitsAt_putBits_inside _ _ _ (by omega),
      bitsAt_byte]
  · by_cases hpl : x / 128 = p / 128
    · rw [hline x hpl, bitsAt_putBits_outside _ _ (by omega), ← hpl, placeByte]
    · exact placeByte_congr (by simp [hpl]) rfl

/-! ### What a write into a line changes -/

theorem poisonAdd_frame (pl : Nat) (s : State) : ∃ ps, poisonAdd pl s = { s with poison := ps } := by
  unfold poisonAdd
  split
  · exact ⟨s.poison, rfl⟩
  · exact ⟨pl :: s.poison, rfl⟩

theorem poisonDel_frame (pl : Nat) (s : State) : ∃ ps cs, poisonDel pl s = { s with poison := ps, chans := cs } := by
  unfold poisonDel
  dsimp only
  split
  · exact ⟨_, _, rfl⟩
  · exact ⟨_, s.chans, rfl⟩

/-- A write to a channel in service changes HBM by its bytes, and beside them poison marks only. -/
theorem hbmWrite_frame {p : Nat} {s : State} (n v : Nat) (hc : chanOos (p / 128) s = false) :
    ∃ ps cs, hbmWrite p n v s = { s with hbm := memWriteN (hbmBgByte s) p v n s.hbm, poison := ps, chans := cs } := by
  unfold hbmWrite
  rw [if_neg (by simp [hc])]
  dsimp only
  split
  · exact poisonDel_frame (p / 128) { s with hbm := memWriteN (hbmBgByte s) p v n s.hbm }
  · exact ⟨s.poison, s.chans, rfl⟩

/-- A write to HBM of a line that no Depot holds stores its bytes. -/
theorem storedAt_hbmWrite {p n : Nat} {s : State} (v : Nat) (hc : chanOos (p / 128) s = false) (hd : sFind s.depot (p / 128) = none)
    (hn : p % 128 + n ≤ 128) : StoredAt p n v s (hbmWrite p n v s) := by
  obtain ⟨ps, cs, hw⟩ := hbmWrite_frame n v hc
  rw [hw]
  refine ⟨fun i hi => ?_, fun x hx => placeByte_congr rfl (memRead_memWriteN_outside _ _ _ _ _ _ (by omega)), rfl⟩
  have hline : (p + i) / 128 = p / 128 := by omega
  have hbyte := congrArg BitVec.toNat (memRead_memWriteN_inside (hbmBgByte s) n p v i s.hbm hi)
  rw [BitVec.toNat_ofNat] at hbyte
  exact (placeByte_of_hbm (hline ▸ hd)).trans hbyte

/-- Without allocation a line that a Depot holds is written there (R245). -/
theorem lineWrite_none_of_depot {p : Nat} {s : State} {x : DepotLine} (n v : Nat) (hd : sFind s.depot (p / 128) = some x) :
    ∃ d, d.data = BitVec.ofNat 1024 (putBits (lineNat (p / 128) s) (8 * (p % 128)) (8 * n) v) ∧
      lineWrite none p n v s = { s with depot := sIns (p / 128) d s.depot } := by
  simp only [lineWrite, hd]
  exact ⟨_, rfl, rfl⟩

/-- Without allocation a line that no Depot holds is written in HBM. -/
theorem lineWrite_none_of_hbm {p : Nat} {s : State} (n v : Nat) (hd : sFind s.depot (p / 128) = none) :
    lineWrite none p n v s = hbmWrite p n v s := by
  simp only [lineWrite, hd]

/-- A coherent write that allocates in no Depot stores its bytes (R245, R247). -/
theorem storedAt_lineWrite_none {p n : Nat} {s : State} (v : Nat) (hc : chanOos (p / 128) s = false) (hn : p % 128 + n ≤ 128) :
    StoredAt p n v s (lineWrite none p n v s) := by
  cases hd : sFind s.depot (p / 128) with
  | some x =>
    obtain ⟨d, hdata, hw⟩ := lineWrite_none_of_depot n v hd
    exact hw ▸ storedAt_depot hn hdata
  | none => exact lineWrite_none_of_hbm n v hd ▸ storedAt_hbmWrite v hc hd hn

/-- A coherent write that allocates in no Depot changes its line, where it is held, and beside it poison marks only. -/
theorem lineWrite_none_frame {p : Nat} {s : State} (n v : Nat) (hc : chanOos (p / 128) s = false) :
    ∃ h d ps cs, lineWrite none p n v s = { s with hbm := h, depot := d, poison := ps, chans := cs } := by
  cases hd : sFind s.depot (p / 128) with
  | some x =>
    obtain ⟨d, -, hw⟩ := lineWrite_none_of_depot n v hd
    exact ⟨s.hbm, _, s.poison, s.chans, hw⟩
  | none =>
    obtain ⟨ps, cs, hw⟩ := hbmWrite_frame n v hc
    exact ⟨_, s.depot, ps, cs, (lineWrite_none_of_hbm n v hd).trans hw⟩

/-- Only the bytes of the value that are stored count. -/
theorem storedAt_mod {p n v : Nat} {s t : State} (h : StoredAt p n (v % 2 ^ (8 * n)) s t) : StoredAt p n v s t := by
  obtain ⟨hin, hout, htile⟩ := h
  refine ⟨fun i hi => ?_, hout, htile⟩
  rw [hin i hi, ← bitsAt_byte, ← bitsAt_byte, bitsAt_mod_two_pow _ (by omega)]

/-! ### Writes at local offsets -/

theorem linearMap_mod_line (off : Nat) : linearMap off % 128 = off % 128 := by
  have := linearMap_granule off
  omega

theorem spreadMap_mod_line (o sg : Nat) : spreadMap o sg % 128 = o % 128 := by
  unfold spreadMap physOf
  dsimp only
  omega

/-- Both maps keep a byte's place in its line (R226, R228, R229). -/
theorem hbmOf_mod_line {spread : Bool} {o p : Nat} {s : State} (h : hbmOf spread o s = some p) : p % 128 = o % 128 := by
  unfold hbmOf at h
  cases spread with
  | true =>
    rw [if_pos rfl] at h
    obtain ⟨-, hp⟩ := Option.ite_none_right_eq_some.1 h
    rw [← Option.some.inj hp, spreadMap_mod_line]
  | false =>
    rw [if_neg Bool.false_ne_true] at h
    obtain ⟨-, hp⟩ := Option.ite_none_right_eq_some.1 h
    rw [← Option.some.inj hp, linearMap_mod_line]

/-- Only the two HBM windows name bytes of HBM (R227). -/
theorem target_eq_hbm {off p : Nat} {s : State} (h : target off s = .hbm p) :
    hbmOf false off s = some p ∨ 2 ^ 44 ≤ off ∧ hbmOf true (off - 2 ^ 44) s = some p := by
  unfold target at h
  by_cases hlin : off < 2 ^ 44
  · rw [if_pos hlin] at h
    cases ho : hbmOf false off s with
    | some q => rw [ho] at h; exact .inl (congrArg some (Target.hbm.inj h))
    | none => rw [ho] at h; cases h
  · rw [if_neg hlin] at h
    by_cases hspread : off < 2 ^ 45
    · rw [if_pos hspread] at h
      cases ho : hbmOf true (off - 2 ^ 44) s with
      | some q => rw [ho] at h; exact .inr ⟨Nat.le_of_not_lt hlin, congrArg some (Target.hbm.inj h)⟩
      | none => rw [ho] at h; cases h
    · rw [if_neg hspread] at h
      exfalso
      dsimp only at h
      (repeat' split at h) <;> cases h

/-- A byte of HBM that a local offset names has the offset's place in its line. -/
theorem target_hbm_mod_line {off p : Nat} {s : State} (h : target off s = .hbm p) : p % 128 = off % 128 := by
  rcases target_eq_hbm h with hlin | ⟨hoff, hspread⟩
  · exact hbmOf_mod_line hlin
  · have := hbmOf_mod_line hspread
    omega

/-- A write inside one line is one write of that line, of the value's low bytes. -/
theorem writeBy_line {off n : Nat} (o : Owner) (v : Nat) (s : State) (h0 : 0 < n) (hn : off % 128 + n ≤ 128) :
    writeBy o off n v s = putLine o off n (v % 2 ^ (8 * n)) false s := by
  have hdone : ∀ fuel off v s, writeByGo o fuel off 0 v s = s := by
    intro fuel off v s
    cases fuel <;> rfl
  have hm : min n (128 - off % 128) = n := by omega
  rw [writeBy, writeByGo, if_neg (by omega)]
  dsimp only
  rw [hm, Nat.sub_self, hdone]

/-- The package's own write inside a line of HBM of which the companion holds no copy is a coherent write of that line. -/
theorem writeOff_hbm_line {off n p : Nat} (v : Nat) {s : State} (h0 : 0 < n) (hn : off % 128 + n ≤ 128) (ht : target off s = .hbm p)
    (hw : writeHeld (p / 128) s = false) : writeOff off n v s = lineWrite none p n (v % 2 ^ (8 * n)) s := by
  have hoff : writeOff off n v s = writeBy .none off n v s := by rw [writeOff, ht]
  rw [hoff, writeBy_line _ _ _ h0 hn, putLine, ht]
  simp only [homeWrite, hw, writeDo, writeAlloc, Bool.false_eq_true, if_false, if_true, Nat.div_add_mod']

/-- The package's own writes leave tile windows alone (R22). -/
theorem writeOff_tile {off q a : Nat} (n v : Nat) {s : State} (h : target off s = .tile q a) : writeOff off n v s = s := by
  rw [writeOff, h]

theorem putLine_tile {off q a : Nat} (o : Owner) (n v : Nat) (poison : Bool) {s : State} (h : target off s = .tile q a) :
    putLine o off n v poison s = tilePut q a n v poison s := by
  rw [putLine, h]

/-- A write of tile SRAM changes its bytes, and beside them poison marks only. -/
theorem tilePut_frame (q a n v : Nat) (poison : Bool) (s : State) :
    ∃ ps, tilePut q a n v poison s = { s with tileSram := memWriteN zeroByte (tileAddr q a) v n s.tileSram, poison := ps } := by
  unfold tilePut
  dsimp only
  split
  · exact poisonAdd_frame (tileKey q a) (tileWriteN q a n v s)
  · split
    · exact ⟨_, rfl⟩
    · exact ⟨s.poison, rfl⟩

/-- A write of tile SRAM stores its bytes. -/
theorem storedInTile_tilePut (q a n v : Nat) (poison : Bool) (s : State) : StoredInTile (tileAddr q a) n v s (tilePut q a n v poison s) := by
  obtain ⟨ps, hw⟩ := tilePut_frame q a n v poison s
  rw [hw]
  exact ⟨fun i hi => memRead_memWriteN_inside _ _ _ _ _ _ hi, fun y hy => memRead_memWriteN_outside _ _ _ _ _ _ (by omega), rfl, rfl⟩

/-- Settles O8: inside one line a write is one write of the line, which replaces the written bytes of the line where it is held, in a Depot or in HBM. -/
theorem localWritesReadBack : Obligations.LocalWritesReadBack := by
  intro off n v s h0 hn
  refine ⟨fun p ht hc hw => ?_, fun q a ht => ⟨writeOff_tile n v ht, fun o => ?_⟩⟩
  · have hp : p % 128 + n ≤ 128 := by rwa [target_hbm_mod_line ht]
    have hstored := storedAt_mod (storedAt_lineWrite_none (v % 2 ^ (8 * n)) hc hp)
    obtain ⟨h, d, ps, cs, hframe⟩ := lineWrite_none_frame n (v % 2 ^ (8 * n)) hc
    rw [hframe] at hstored
    rw [writeOff_hbm_line v h0 hn ht hw, hframe]
    exact ⟨hstored, rfl, rfl, rfl⟩
  · have hstored := storedInTile_tilePut q a n v false s
    obtain ⟨ps, hframe⟩ := tilePut_frame q a n v false s
    rw [hframe] at hstored
    rw [putLine_tile o n v false ht, hframe]
    exact ⟨hstored, rfl⟩

end Sys2Proof.Machine
end

section
/-! PROOFS. One idle step: what a nanosecond adds to the global counter, what an idle step leaves unchanged, and the statement about the empty queue
(R29, R344, log 2). -/

namespace Sys2Proof.Machine

open Sys2Proof.Claims

/-! ### What a nanosecond gains over a tick (R344) -/

/-- The correction moves the counter its own way, and by no more than FREQ. -/
theorem tickGain_between (s : State) :
    min 0 (16 * signed 32 (getF gctBase R.GCT_FREQ_FREQ s)) ≤ tickGain s ∧
      tickGain s ≤ max 0 (16 * signed 32 (getF gctBase R.GCT_FREQ_FREQ s)) := by
  unfold tickGain
  dsimp only
  split
  · omega
  · split <;> omega

theorem tickGain_eq_zero {s : State} (h : signed 32 (getF gctBase R.GCT_FREQ_FREQ s) = 0) : tickGain s = 0 := by
  have := tickGain_between s
  omega

/-! ### The counter after a nanosecond -/

theorem countTick_of_tickGain_zero {s : State} (h : tickGain s = 0) : countTick s = { s with count := s.count + 1 } := by
  rw [countTick, if_pos h]

/-- With a gain the counter takes the whole ticks of its exact value, `frac` the rest; of the registers only GCT_FREQ may be cleared. -/
theorem countTick_of_tickGain_ne_zero {s : State} (h : tickGain s ≠ 0) :
    ∃ u left, (u = s ∨ u = setF gctBase R.GCT_FREQ_FREQ 0 s) ∧
      countTick s = { u with
        count := s.count + BitVec.ofInt 64 (1 + (s.sync.frac + tickGain s) / 16000000000),
        sync := { s.sync with frac := (s.sync.frac + tickGain s) % 16000000000, slew := left } } := by
  rw [countTick, if_neg h]
  dsimp only
  generalize (if s.sync.slew > 0 then max 0 (s.sync.slew - tickGain s) else min 0 (s.sync.slew - tickGain s)) = left
  by_cases hspent : left = 0 ∧ gctState s ≠ 3
  · rw [if_pos hspent]
    exact ⟨_, left, .inr rfl, rfl⟩
  · rw [if_neg hspent]
    exact ⟨_, left, .inl rfl, rfl⟩

/-- From a fraction below one tick, with a gain or without: the whole ticks are counted and the rest stays a fraction. -/
theorem countTick_count_frac {s : State} (h0 : 0 ≤ s.sync.frac) (h1 : s.sync.frac < 16000000000) :
    (countTick s).count = s.count + BitVec.ofInt 64 (1 + (s.sync.frac + tickGain s) / 16000000000) ∧
      (countTick s).sync.frac = (s.sync.frac + tickGain s) % 16000000000 := by
  by_cases h : tickGain s = 0
  · have hcarry : (s.sync.frac + tickGain s) / 16000000000 = 0 := by omega
    have hrest : (s.sync.frac + tickGain s) % 16000000000 = s.sync.frac := by omega
    rw [countTick_of_tickGain_zero h, hcarry, hrest]
    exact ⟨rfl, rfl⟩
  · obtain ⟨u, left, -, heq⟩ := countTick_of_tickGain_ne_zero h
    rw [heq]
    exact ⟨rfl, rfl⟩

/-- A positive correction of at most 100 ppm carries at most one tick more. -/
theorem countTick_count_of_speedup {s : State} (h0 : 0 ≤ s.sync.frac) (h1 : s.sync.frac < 16000000000)
    (hf : 0 < signed 32 (getF gctBase R.GCT_FREQ_FREQ s)) (hmax : signed 32 (getF gctBase R.GCT_FREQ_FREQ s) ≤ 100000) :
    (countTick s).count = s.count + 1 ∨ (countTick s).count = s.count + 2 := by
  have hgain := tickGain_between s
  have hcarry : (s.sync.frac + tickGain s) / 16000000000 = 0 ∨ (s.sync.frac + tickGain s) / 16000000000 = 1 := by omega
  rw [(countTick_count_frac h0 h1).1]
  rcases hcarry with hc | hc <;> rw [hc]
  · exact .inl rfl
  · exact .inr rfl

/-- A negative correction of at most 100 ppm takes back at most the tick itself. -/
theorem countTick_count_of_slowdown {s : State} (h0 : 0 ≤ s.sync.frac) (h1 : s.sync.frac < 16000000000)
    (hf : signed 32 (getF gctBase R.GCT_FREQ_FREQ s) < 0) (hmin : -100000 ≤ signed 32 (getF gctBase R.GCT_FREQ_FREQ s)) :
    (countTick s).count = s.count + 1 ∨ (countTick s).count = s.count := by
  have hgain := tickGain_between s
  have hcarry : (s.sync.frac + tickGain s) / 16000000000 = 0 ∨ (s.sync.frac + tickGain s) / 16000000000 = -1 := by omega
  rw [(countTick_count_frac h0 h1).1]
  rcases hcarry with hc | hc <;> rw [hc]
  · exact .inl rfl
  · exact .inr (BitVec.add_zero _)

/-! ### What an idle step leaves unchanged -/

/-- What an idle step may write: the counter and its correction, power-on time, and GCT_FREQ, which may be cleared. -/
def IdleChange (s t : State) : Prop :=
  ∃ u c y n, (u = s ∨ u = setF gctBase R.GCT_FREQ_FREQ 0 s) ∧ t = { u with count := c, sync := y, upNs := n }

theorem idleChange_countTick (s : State) : IdleChange s (countTick s) := by
  by_cases h : tickGain s = 0
  · exact ⟨s, s.count + 1, s.sync, s.upNs, .inl rfl, countTick_of_tickGain_zero h⟩
  · obtain ⟨u, left, hu, heq⟩ := countTick_of_tickGain_ne_zero h
    exact ⟨u, _, _, u.upNs, hu, heq⟩

theorem IdleChange.setUpNs {s t : State} (h : IdleChange s t) (n : Nat) : IdleChange s { t with upNs := n } := by
  obtain ⟨u, c, y, _, hu, rfl⟩ := h
  exact ⟨u, c, y, n, hu, rfl⟩

theorem IdleChange.ckp_eq {s t : State} (h : IdleChange s t) : t.ckp = s.ckp := by
  obtain ⟨u, c, y, n, rfl | rfl, rfl⟩ := h
  · rfl
  · rfl

/-- Every register word but GCT_FREQ reads as before. -/
theorem IdleChange.csrGet_eq {s t : State} (h : IdleChange s t) (d : Nat) {off : Nat} (hoff : off ≠ gctBase + R.GCT_FREQ_FREQ.off) :
    csrGet d off t = csrGet d off s := by
  obtain ⟨u, c, y, n, rfl | rfl, rfl⟩ := h
  · rfl
  · exact csrGet_csrSet_other _ d _ _ _ s hoff

theorem IdleChange.freq_eq_or_zero {s t : State} (h : IdleChange s t) :
    getF gctBase R.GCT_FREQ_FREQ t = getF gctBase R.GCT_FREQ_FREQ s ∨ getF gctBase R.GCT_FREQ_FREQ t = 0 := by
  obtain ⟨u, c, y, n, rfl | rfl, rfl⟩ := h
  · exact .inl rfl
  · exact .inr (getF_setF gctBase 0 R.GCT_FREQ_FREQ s (by decide))

theorem IdleChange.blocks_eq {s t : State} (h : IdleChange s t) :
    t.cores = s.cores ∧ t.engines = s.engines ∧ MemoriesKept s t ∧ t.pending = s.pending := by
  obtain ⟨u, c, y, n, rfl | rfl, rfl⟩ := h
  · exact ⟨rfl, rfl, ⟨rfl, rfl, rfl, rfl, rfl⟩, rfl⟩
  · exact ⟨rfl, rfl, ⟨rfl, rfl, rfl, rfl, rfl⟩, rfl⟩

/-! ### The idle step -/

theorem idleChange_if_counting (s : State) : IdleChange s (if s.counting then countTick s else s) := by
  split
  · exact idleChange_countTick s
  · exact ⟨s, s.count, s.sync, s.upNs, .inl rfl, rfl⟩

/-- With no boundary check open, a tick is the counter's nanosecond and power-on time's. -/
theorem tick_of_no_check {s : State} (h : s.ckp.checking = none) :
    ∃ n, tick s = { (if s.counting then countTick s else s) with upNs := n } := by
  have hpoll : ∀ t : State, t.ckp = s.ckp → ckpPoll t = t := by
    intro t ht
    rw [ckpPoll, ht, h]
  have hckp := (idleChange_if_counting s).ckp_eq
  unfold tick
  dsimp only
  generalize (if s.counting then countTick s else s) = u at hckp ⊢
  split
  · exact ⟨u.upNs, hpoll u hckp⟩
  · exact ⟨u.upNs + 1, hpoll _ hckp⟩

/-- Settles O2: the count by the whole ticks of the counter's exact value, the frame by what an idle step may write. -/
theorem emptyQueueTicks : Obligations.EmptyQueueTicks := by
  intro s hq hck
  dsimp only
  obtain ⟨n, htick⟩ := tick_of_no_check hck
  have hchange : IdleChange s (tick s) := htick ▸ (idleChange_if_counting s).setUpNs n
  obtain ⟨hcores, hengines, hmem, hpending⟩ := hchange.blocks_eq
  have hrun : s.counting = true → (tick s).count = (countTick s).count ∧ (tick s).sync = (countTick s).sync := by
    intro hc
    rw [htick, if_pos hc]
    exact ⟨rfl, rfl⟩
  refine ⟨tick s, by rw [step, hq], fun hc => ?_, fun hc => ⟨fun hf => ?_, fun h0 h1 hmax => ⟨fun hf => ?_, fun hf => ?_, ?_⟩⟩,
    fun d off hoff => hchange.csrGet_eq d hoff, hchange.freq_eq_or_zero, hcores, hengines, hmem, hpending.trans hq⟩
  · rw [htick, hc]
    rfl
  · rw [(hrun hc).1, countTick_of_tickGain_zero (tickGain_eq_zero hf)]
  · rw [(hrun hc).1]
    exact countTick_count_of_speedup h0 h1 hf (by omega)
  · rw [(hrun hc).1]
    exact countTick_count_of_slowdown h0 h1 hf (by omega)
  · rw [(hrun hc).2, (countTick_count_frac h0 h1).2]
    omega

end Sys2Proof.Machine
end

section
/-! PROOFS. The matrix forms: what a row of packed elements reads back, what the writing of D stores, gathers and leaves alone, what the front instruction
of an MX does on clean data, the INT8 sum of one group, and the statement about MX.MM and MX.MMA (R40, R42, R43, R44, R46, R69, R75, R76). -/

namespace Sys2Proof.Machine

open Sys2Proof.Claims

/-! ### Packed elements (R12, R75) -/

/-- Each element of a packed list is read back, modulo its width. -/
theorem bitsAt_packBits (w : Nat) : ∀ (l : List Nat) (n : Nat) (h : n < l.length), bitsAt (packBits w l) (w * n) w = l[n] % 2 ^ w
  | x :: xs, 0, _ => by
    simp [bitsAt, packBits]
  | x :: xs, n + 1, h => by
    have hrest : packBits w (x :: xs) / 2 ^ w = packBits w xs := by
      rw [packBits, Nat.add_mul_div_left _ _ (Nat.two_pow_pos w), Nat.div_eq_of_lt (Nat.mod_lt _ (Nat.two_pow_pos w)), Nat.zero_add]
    have ih := bitsAt_packBits w xs n (Nat.lt_of_succ_lt_succ h)
    rw [bitsAt, Nat.shiftRight_eq_div_pow] at ih ⊢
    rw [Nat.mul_succ, Nat.add_comm, Nat.pow_add, ← Nat.div_div_eq_div_mul, hrest, ih, List.getElem_cons_succ]

/-- Bytes that hold the low bytes of `v` read as them. -/
theorem memReadN_eq_mod (bg : Nat → Byte) (m : Mem) : ∀ (n v a : Nat), (∀ i, i < n → memRead bg m (a + i) = BitVec.ofNat 8 (v / 256 ^ i)) →
    memReadN bg m a n = v % 256 ^ n
  | 0, v, _, _ => (Nat.mod_one v).symm
  | n + 1, v, a, h => by
    have hfirst : memRead bg m a = BitVec.ofNat 8 v := by simpa using h 0 (Nat.succ_pos n)
    have hrest := memReadN_eq_mod bg m n (v / 256) (a + 1) fun i hi => by
      rw [show a + 1 + i = a + (i + 1) by omega, h (i + 1) (by omega), Nat.pow_succ', Nat.div_div_eq_div_mul]
    have hsplit : v % 256 ^ (n + 1) = v % 256 + 256 * (v / 256 % 256 ^ n) := by rw [Nat.pow_succ', Nat.mod_mul]
    rw [memReadN, hrest, hfirst, hsplit, BitVec.toNat_ofNat]

/-! ### Writing D (R75, R76) -/

/-- The first byte of row `m` of D. -/
def MxD.rowAt (x : MxD) (p m : Nat) : Nat := tileAddr p (x.rD.base + m * x.ldd)

/-- The writing of one row of D, which gathers its flags. -/
def mxPutRow (x : MxD) (p m : Nat) (row : List (Nat × Nat)) (r : State × Nat) : State × Nat :=
  (tileWriteRow p (x.rD.base + m * x.ldd) x.rD.len (packBits (codeBits x.fo) (row.map (·.1))) r.1, row.foldl (fun fl c => fl ||| c.2) r.2)

theorem mxWrite_cons (x : MxD) (p : Nat) (row : List (Nat × Nat)) (rows : List (List (Nat × Nat))) (m : Nat) (r : State × Nat) :
    mxWrite x p (row :: rows) m r = mxWrite x p rows (m + 1) (mxPutRow x p m row r) := rfl

theorem mxPutRow_frame (x : MxD) (p m : Nat) (row : List (Nat × Nat)) (r : State × Nat) :
    ∃ ps, (mxPutRow x p m row r).1 = { r.1 with
      tileSram := memWriteN zeroByte (x.rowAt p m) (packBits (codeBits x.fo) (row.map (·.1))) x.rD.len r.1.tileSram, poison := ps } := ⟨_, rfl⟩

theorem sramByte_mxPutRow_inside (x : MxD) (p m : Nat) (row : List (Nat × Nat)) (r : State × Nat) {i : Nat} (hi : i < x.rD.len) :
    sramByte (x.rowAt p m + i) (mxPutRow x p m row r).1 = BitVec.ofNat 8 (packBits (codeBits x.fo) (row.map (·.1)) / 256 ^ i) := by
  obtain ⟨ps, h⟩ := mxPutRow_frame x p m row r
  rw [h]
  exact memRead_memWriteN_inside _ _ _ _ _ _ hi

theorem sramByte_mxPutRow_outside (x : MxD) (p m : Nat) (row : List (Nat × Nat)) (r : State × Nat) {a : Nat}
    (ha : ¬ (x.rowAt p m ≤ a ∧ a < x.rowAt p m + x.rD.len)) : sramByte a (mxPutRow x p m row r).1 = sramByte a r.1 := by
  obtain ⟨ps, h⟩ := mxPutRow_frame x p m row r
  rw [h]
  exact memRead_memWriteN_outside _ _ _ _ _ _ (by omega)

/-- Writing rows of D changes tile SRAM, and beside it poison marks only. -/
theorem mxWrite_frame (x : MxD) (p : Nat) : ∀ (l : List (List (Nat × Nat))) (m : Nat) (r : State × Nat),
    ∃ ts ps, (mxWrite x p l m r).1 = { r.1 with tileSram := ts, poison := ps }
  | [], _, r => ⟨r.1.tileSram, r.1.poison, rfl⟩
  | row :: rows, m, r => by
    obtain ⟨qs, hrow⟩ := mxPutRow_frame x p m row r
    obtain ⟨ts, ps, hrows⟩ := mxWrite_frame x p rows (m + 1) (mxPutRow x p m row r)
    exact ⟨ts, ps, by rw [mxWrite_cons, hrows, hrow]⟩

/-- The flags gathered are those of all elements. -/
theorem mxWrite_flags (x : MxD) (p : Nat) : ∀ (l : List (List (Nat × Nat))) (m : Nat) (r : State × Nat),
    (mxWrite x p l m r).2 = (l.flatten.map (·.2)).foldl (· ||| ·) r.2
  | [], _, _ => rfl
  | row :: rows, m, r => by
    rw [mxWrite_cons, mxWrite_flags x p rows, List.flatten_cons, List.map_append, List.foldl_append, mxPutRow, List.foldl_map (l := row)]

/-- A byte of tile SRAM outside the rows written reads as before. -/
theorem sramByte_mxWrite_outside (x : MxD) (p a : Nat) : ∀ (l : List (List (Nat × Nat))) (m : Nat) (r : State × Nat),
    (∀ j, j < l.length → ¬ (x.rowAt p (m + j) ≤ a ∧ a < x.rowAt p (m + j) + x.rD.len)) → sramByte a (mxWrite x p l m r).1 = sramByte a r.1
  | [], _, _, _ => rfl
  | row :: rows, m, r, h => by
    have hlater : ∀ j, j < rows.length → ¬ (x.rowAt p (m + 1 + j) ≤ a ∧ a < x.rowAt p (m + 1 + j) + x.rD.len) := by
      intro j hj
      rw [Nat.add_assoc, Nat.add_comm 1]
      exact h (j + 1) (Nat.succ_lt_succ hj)
    rw [mxWrite_cons, sramByte_mxWrite_outside x p a rows _ _ hlater, sramByte_mxPutRow_outside x p m row r (h 0 (Nat.succ_pos _))]

/-- With a stride of at least a row's length, rows begin behind every earlier row. -/
theorem rowAt_later (x : MxD) (p m j : Nat) (hapart : x.rD.len ≤ x.ldd) : x.rowAt p m + x.rD.len ≤ x.rowAt p (m + 1 + j) := by
  have hstride : (m + 1 + j) * x.ldd = m * x.ldd + x.ldd + j * x.ldd := by rw [Nat.add_mul, Nat.succ_mul]
  unfold MxD.rowAt tileAddr
  omega

/-- With the rows apart, each byte of a row written is that of its packed elements: no later row covers it. -/
theorem sramByte_mxWrite_row (x : MxD) (p : Nat) (hapart : x.rD.len ≤ x.ldd) {i : Nat} (hi : i < x.rD.len) :
    ∀ (l : List (List (Nat × Nat))) (m : Nat) (r : State × Nat) (j : Nat) (hj : j < l.length),
    sramByte (x.rowAt p (m + j) + i) (mxWrite x p l m r).1 = BitVec.ofNat 8 (packBits (codeBits x.fo) (l[j].map (·.1)) / 256 ^ i) := by
  intro l
  induction l with
  | nil => exact fun _ _ _ hj => absurd hj (Nat.not_lt_zero _)
  | cons row rows ih =>
    intro m r j hj
    cases j with
    | zero =>
      have hlater : ∀ j, j < rows.length →
          ¬ (x.rowAt p (m + 1 + j) ≤ x.rowAt p m + i ∧ x.rowAt p m + i < x.rowAt p (m + 1 + j) + x.rD.len) := by
        intro j _
        have := rowAt_later x p m j hapart
        omega
      rw [mxWrite_cons, Nat.add_zero, sramByte_mxWrite_outside x p _ rows _ _ hlater, sramByte_mxPutRow_inside x p m row r hi, List.getElem_cons_zero]
    | succ j =>
      rw [mxWrite_cons, ← Nat.add_assoc, Nat.add_right_comm m j 1, ih (m + 1) _ j (Nat.lt_of_succ_lt_succ hj), List.getElem_cons_succ]

/-- With the rows apart, an element of D that lies in its row reads as the element written. -/
theorem bitsAt_rowOf_mxWrite (x : MxD) (p : Nat) (hapart : x.rD.len ≤ x.ldd) (l : List (List (Nat × Nat))) (r : State × Nat) (m n : Nat)
    (hm : m < l.length) (hn : n < l[m].length) (hlen : codeBits x.fo * (n + 1) ≤ 8 * x.rD.len) :
    bitsAt (rowOf p x.rD m (mxWrite x p l 0 r).1) (codeBits x.fo * n) (codeBits x.fo) = l[m][n].1 % 2 ^ codeBits x.fo := by
  have hrow : rowOf p x.rD m (mxWrite x p l 0 r).1 = packBits (codeBits x.fo) (l[m].map (·.1)) % 256 ^ x.rD.len :=
    memReadN_eq_mod _ _ _ _ _ fun i hi => by
      have hbyte := sramByte_mxWrite_row x p hapart hi l 0 r m hm
      rwa [Nat.zero_add] at hbyte
  rw [hrow, show (256 : Nat) = 2 ^ 8 from rfl, ← Nat.pow_mul, bitsAt_mod_two_pow _ (by rwa [Nat.mul_succ] at hlen),
    bitsAt_packBits _ _ _ (by rwa [List.length_map]), List.getElem_map]

/-- The output formats of the legal combinations are whole bytes (R40). -/
theorem outBytes_of_mxLegal {x : MxD} (h : mxLegal x = true) : 8 * x.outBytes = codeBits x.fo := by
  have hfo : x.fo = 0 ∨ x.fo = 1 ∨ x.fo = 6 ∨ x.fo = 7 ∨ x.fo = 8 ∨ x.fo = 9 ∨ x.fo = 10 := by
    simp only [mxLegal, Bool.and_eq_true] at h
    obtain ⟨-, hout⟩ := h
    split_ifs at hout <;> (simp at hout; omega)
  rw [MxD.outBytes]
  rcases hfo with hf | hf | hf | hf | hf | hf | hf <;> rw [hf] <;> rfl

/-! ### The front instruction on clean data -/

/-- Only registers and companion totals changed. -/
def RegsOnly (s t : State) : Prop := ∃ c k, t = { s with csr := c, totals := k }

theorem RegsOnly.refl (s : State) : RegsOnly s s := ⟨s.csr, s.totals, rfl⟩

theorem RegsOnly.setF {s t : State} (h : RegsOnly s t) (base : Nat) (f : Fld) (v : Nat) : RegsOnly s (setF base f v t) := by
  obtain ⟨c, k, rfl⟩ := h
  exact ⟨(Machine.setF base f v _).csr, k, rfl⟩

theorem RegsOnly.bumpF {s t : State} (h : RegsOnly s t) (base : Nat) (f : Fld) (n : Nat) : RegsOnly s (bumpF base f n t) := by
  obtain ⟨c, k, rfl⟩ := h
  exact ⟨(Machine.bumpF base f n _).csr, (Machine.bumpF base f n _).totals, rfl⟩

theorem RegsOnly.addPair {s t : State} (h : RegsOnly s t) (base : Nat) (lo hi : Fld) (n : Nat) : RegsOnly s (addPair base lo hi n t) :=
  (h.setF base lo _).setF base hi _

theorem regsOnly_mxMetaErr (p : Nat) (tag : BitVec 16) (l : List (Nat × Nat)) (s : State) : RegsOnly s (mxMetaErr p tag l s) := by
  cases l with
  | nil => exact .refl s
  | cons q l =>
    have hpos : RegsOnly s (capture (tileBase p) R.MX_META_POS_VALID
        (fun s => setF (tileBase p) R.MX_META_POS_ROW q.1 (setF (tileBase p) R.MX_META_POS_QUAD q.2 s)) s) := by
      rw [capture]
      split
      · exact .refl s
      · exact (((RegsOnly.refl s).setF _ _ _).setF _ _ _).setF _ _ _
    exact ((hpos.setF _ _ _).bumpF _ _ _).setF _ _ _

/-- The elements of D in rows, each with its flags. -/
def mxProduct (x : MxD) (p : Nat) (s : State) : List (List (Nat × Nat)) :=
  (List.range x.m).map (fun m => (List.range x.n).map (fun n => mxElem x p m n s))

/-- Writing the product gathers the flags of its elements, row by row. -/
theorem mxWrite_mxProduct_flags (x : MxD) (p : Nat) (s : State) : (mxWrite x p (mxProduct x p s) 0 (s, 0)).2 =
    ((List.range x.m).flatMap (fun m => (List.range x.n).map (fun n => (mxElem x p m n s).2))).foldl (· ||| ·) 0 := by
  rw [mxWrite_flags, mxProduct, ← List.flatMap_def, List.map_flatMap]
  simp only [List.map_map, Function.comp_def]

/-- Without bad bytes the rows computed are the product. -/
theorem map_mxRow_nil (x : MxD) (p : Nat) (s : State) : (List.range x.m).map (fun m => mxRow x p m [] s) = mxProduct x p s := rfl

/-- On clean data the front instruction of the form named writes its product, notes the flags gathered, and beside that changes registers and totals only. -/
theorem mxRun_clean {op p corrected : Nat} {s : State} {e : EngIns} (he : engHead (kMx p) s = some e) (hphase : e.phase = 0)
    (hop : (mxD e.cfg e.desc).op = op) (hmarks : tileMarks p s = []) :
    let w := mxWrite (mxD e.cfg e.desc) p (mxProduct (mxD e.cfg e.desc) p s) 0 (s, 0)
    ∃ u, RegsOnly w.1 u ∧ mxRun op p ⟨corrected, []⟩ s = setHead (kMx p) { e with phase := 1, flags := w.2, ue := false } u := by
  intro w
  have hrun : ¬ (e.phase ≠ 0 ∨ (mxD e.cfg e.desc).op ≠ op) := by simp [hphase, hop]
  refine ⟨_, (((regsOnly_mxMetaErr p e.tag (mxMetaBad (mxD e.cfg e.desc) p s) w.1).bumpF (tileBase p) R.MX_CE_COUNT_COUNT corrected).addPair
    (tileBase p) R.MX_SKIP_LO_VALUE R.MX_SKIP_HI_VALUE (mxSkipped (mxD e.cfg e.desc) p s)), ?_⟩
  rw [mxRun, he]
  dsimp only
  rw [if_neg hrun, hmarks]
  rfl

/-- Replacing the front of an engine's queue changes that engine's queue alone. -/
theorem getEng_setHead (k j : Nat) (x : EngIns) (s : State) :
    getEng j (setHead k x s) = if j = k then { getEng k s with queue := x :: (getEng k s).queue.tail } else getEng j s :=
  getEng_setEng k j _ s

/-- The front instruction has executed where it is put back with the outcome, and no engine and no core changed otherwise. -/
theorem executed_setHead (k : Nat) (e : EngIns) (flags : Nat) (ue : Bool) {s u : State} (hengines : u.engines = s.engines) (hcores : u.cores = s.cores) :
    Executed k e { e with phase := 1, flags := flags, ue := ue } s (setHead k { e with phase := 1, flags := flags, ue := ue } u) := by
  have hkept : ∀ j, getEng j u = getEng j s := fun j => by rw [getEng, getEng, hengines]
  refine ⟨?_, rfl, rfl, fun j hj => ?_, hcores⟩
  · rw [getEng_setHead, if_pos rfl, hkept]
  · rw [getEng_setHead, if_neg hj, hkept]

/-! ### INT8 (R44, R46) -/

/-- Choosing the numbers below `k` of a range that reaches so far gives the range of `k`. -/
theorem filterMap_range_lt {α : Type} (f : Nat → α) {g k : Nat} (h : k ≤ g) :
    (List.range g).filterMap (fun t => if t < k then some (f t) else none) = (List.range k).map f := by
  obtain ⟨d, rfl⟩ := Nat.exists_eq_add_of_le h
  have hlow : (List.range k).filterMap (fun t => if t < k then some (f t) else none) = (List.range k).map f := by
    rw [← List.filterMap_eq_map]
    exact List.filterMap_congr fun t ht => if_pos (List.mem_range.1 ht)
  have hhigh : ((List.range d).map (fun i => k + i)).filterMap (fun t => if t < k then some (f t) else none) = [] := by
    rw [List.filterMap_eq_nil_iff]
    intro t ht
    obtain ⟨i, -, rfl⟩ := List.mem_map.1 ht
    exact if_neg (by omega)
  rw [List.range_add, List.filterMap_append, hlow, hhigh, List.append_nil]

/-- Dense and without skipping, a K within one group has every pair present (R44). -/
theorem mxPairs_dense {x : MxD} (p m n : Nat) (s : State) (hsparse : x.sparse = false) (hskip : x.skip = false) (hk : x.k ≤ x.g) :
    mxPairs x p m n 0 s = (List.range x.k).map (fun k => (bitsAt (rowOf p x.rA m s) (k * codeBits x.fa) (codeBits x.fa), mxB x p n k s)) := by
  rw [← filterMap_range_lt _ hk]
  refine List.filterMap_congr fun t _ => ?_
  simp [mxSkip, mxA, hsparse, hskip]

/-- An accumulation from `a` is `a` and the sum. -/
theorem foldl_add_eq_sum {α : Type} (f : α → Int) (l : List α) (a : Int) : l.foldl (fun t c => t + f c) a = a + (l.map f).sum := by
  rw [List.sum_eq_foldl, ← List.foldl_assoc (op := ((· + ·) : Int → Int → Int)), Int.add_zero, List.foldl_map]

theorem wrap_lt (w : Nat) (i : Int) : wrap w i < 2 ^ w := by
  have hpos : (0 : Int) < ((2 ^ w : Nat) : Int) := Int.natCast_pos.2 (Nat.two_pow_pos w)
  have hlt := Int.emod_lt_of_pos i hpos
  have hnonneg := Int.emod_nonneg i hpos.ne'
  unfold wrap
  omega

/-- INT8 combines with itself and gives INT32 (R40). -/
theorem formats_of_int8 {x : MxD} (h : mxLegal x = true) (hfa : x.fa = 5) : x.fb = 5 ∧ x.fo = 10 := by
  have hkind : mxKind x.fb = 21 → x.fb = 5 := by
    unfold mxKind
    split <;> simp_all
  have hfields : 21 = mxKind x.fb ∧ x.pass = 1 ∧ x.fo = 10 := by simpa [mxLegal, hfa, show mxKind 5 = 21 from rfl] using h
  obtain ⟨hsame, -, hfo⟩ := hfields
  exact ⟨hkind hsame.symm, hfo⟩

/-- Over one group, the clamped sum of R46. -/
theorem mxElem_int8 {x : MxD} (p m n : Nat) (s : State) (hlegal : mxLegal x = true) (hfa : x.fa = 5) (hsparse : x.sparse = false)
    (hskip : x.skip = false) (hpos : 0 < x.k) (hk : x.k ≤ 16) : (mxElem x p m n s).1 = int8Element x p m n s := by
  obtain ⟨hfb, -⟩ := formats_of_int8 hlegal hfa
  have hkind : mxKind x.fa = 21 := by rw [hfa]; rfl
  have hg : x.g = 16 := by simp [MxD.g, hkind]
  have hacc : x.accBytes = 4 := by simp [MxD.accBytes, hkind]
  have hgroups : (x.k + x.g - 1) / x.g = 1 := by rw [hg]; omega
  have hpairs : mxPairs x p m n 0 s =
      (List.range x.k).map (fun k => (bitsAt (rowOf p x.rA m s) (8 * k) 8, bitsAt (rowOf p x.rB n s) (8 * k) 8)) := by
    rw [mxPairs_dense p m n s hsparse hskip (hg ▸ hk)]
    simp only [mxB, hfa, hfb, codeBits, Nat.mul_comm 8]
  simp only [mxElem, if_pos hkind, hgroups, mxDotInt, Nat.zero_add, Nat.sub_self, foldl_add_eq_sum, hpairs, int8Element, mxC, hacc, List.map_map,
    Function.comp_def]
  by_cases hop : x.op = 1
  · rw [if_pos hop, if_pos hop]
  · rw [if_neg hop, if_neg hop]

/-! ### The statement -/

section
variable {x : MxD} {p : Nat} {s t : State} (hlegal : mxLegal x = true) (hapart : x.rD.len ≤ x.ldd)
  (hsram : t.tileSram = (mxWrite x p (mxProduct x p s) 0 (s, 0)).1.tileSram)
include hlegal hapart hsram

/-- Every element of D reads as its product. -/
theorem bitsAt_rowOf_product {m n : Nat} (hm : m < x.m) (hn : n < x.n) :
    bitsAt (rowOf p x.rD m t) (codeBits x.fo * n) (codeBits x.fo) = (mxElem x p m n s).1 % 2 ^ codeBits x.fo := by
  have hlen : codeBits x.fo * (n + 1) ≤ 8 * x.rD.len := by
    calc codeBits x.fo * (n + 1) = 8 * ((n + 1) * x.outBytes) := by rw [← outBytes_of_mxLegal hlegal, Nat.mul_assoc, Nat.mul_comm x.outBytes]
      _ ≤ 8 * (x.n * x.outBytes) := Nat.mul_le_mul_left _ (Nat.mul_le_mul_right _ hn)
  have hrow : rowOf p x.rD m t = rowOf p x.rD m (mxWrite x p (mxProduct x p s) 0 (s, 0)).1 := by
    rw [rowOf, rowOf, tileReadN, tileReadN, hsram]
  rw [hrow, bitsAt_rowOf_mxWrite x p hapart _ _ m n (by simpa [mxProduct] using hm) (by simpa [mxProduct] using hn) hlen]
  simp [mxProduct]

/-- In INT8 mode with one dense group every element of D reads as the clamped sum of R46. -/
theorem bitsAt_rowOf_int8 {m n : Nat} (hm : m < x.m) (hn : n < x.n) (hfa : x.fa = 5) (hsparse : x.sparse = false) (hskip : x.skip = false)
    (hpos : 0 < x.k) (hk : x.k ≤ 16) : bitsAt (rowOf p x.rD m t) (32 * n) 32 = int8Element x p m n s := by
  have hw : codeBits x.fo = 32 := by rw [(formats_of_int8 hlegal hfa).2]; rfl
  have helem := bitsAt_rowOf_product hlegal hapart hsram hm hn
  rw [hw, mxElem_int8 p m n s hlegal hfa hsparse hskip hpos hk] at helem
  rw [helem, int8Element, Nat.mod_eq_of_lt (wrap_lt 32 _)]
end

/-- Settles O43: the rows of D are written one after another and apart, so each keeps its packed elements; what follows the writing of D changes registers
and the front of the queue only. -/
theorem matrixFormsWriteTheirProduct : Obligations.MatrixFormsWriteTheirProduct := by
  intro p corrected s e he hphase x hmarks hlegal hapart _ i hi
  have hruns : ∃ op, x.op = op ∧ exec i s = .next (mxRun op p ⟨corrected, []⟩ s) := by
    rcases hi with ⟨rfl, hop⟩ | ⟨rfl, hop⟩
    · exact ⟨0, hop, rfl⟩
    · exact ⟨1, hop, rfl⟩
  obtain ⟨op, hop, hexec⟩ := hruns
  obtain ⟨u, ⟨c, k, hu⟩, hrun⟩ := mxRun_clean (corrected := corrected) he hphase hop hmarks
  obtain ⟨ts, ps, hframe⟩ := mxWrite_frame x p (mxProduct x p s) 0 (s, 0)
  have hsram : u.tileSram = (mxWrite x p (mxProduct x p s) 0 (s, 0)).1.tileSram := by rw [hu]
  have hrest : u.engines = s.engines ∧ u.cores = s.cores ∧ u.hbm = s.hbm ∧ u.depot = s.depot := by
    rw [hu, hframe]
    exact ⟨rfl, rfl, rfl, rfl⟩
  obtain ⟨hengines, hcores, hhbm, hdepot⟩ := hrest
  refine ⟨_, _, hexec.trans (congrArg _ hrun), executed_setHead _ e _ _ hengines hcores, fun m n hm hn => ⟨?_, fun hfa hsparse hskip hk => ?_⟩, ?_,
    fun a ha => ?_, hhbm, hdepot⟩
  · exact bitsAt_rowOf_product hlegal hapart hsram hm hn
  · exact bitsAt_rowOf_int8 hlegal hapart hsram hm hn hfa hsparse hskip (Nat.succ_pos _) hk
  · exact mxWrite_mxProduct_flags x p s
  · have hout := sramByte_mxWrite_outside x p a (mxProduct x p s) 0 (s, 0) fun j hj => by
      rw [Nat.zero_add]
      exact ha j (by simpa [mxProduct] using hj)
    rwa [sramByte, ← hsram] at hout

end Sys2Proof.Machine
end

section
/-! PROOFS. The restore registers: what writing several fields of one register one after another leaves in each, what raising an event changes, and the
statement about MX_RESTORE and the other restore registers (R96, R130, R196, R222, R319, R439, R442). -/

namespace Sys2Proof.Machine

open Sys2Proof.Claims

/-! ### Fields beside one another in a register -/

/-- Two fields of one register share no bit. -/
abbrev FieldsBeside (f g : Fld) : Prop := f.off = g.off ∧ f.word = g.word ∧ (f.lo + f.w ≤ g.lo ∨ g.lo + g.w ≤ f.lo)

/-- Fields of one word of 32 bits, no two of which share a bit. -/
abbrev FieldsApart (l : List Fld) : Prop := (∀ f ∈ l, f.lo + f.w ≤ 32) ∧ l.Pairwise FieldsBeside

/-- A field reads as before where a field beside it is set. -/
theorem getF_setF_beside {f g : Fld} (base v : Nat) (s : State) (h : FieldsBeside f g) (hg : g.lo + g.w ≤ 32) :
    getF base g (setF base f v s) = getF base g s := by
  obtain ⟨hoff, hword, hbits⟩ := h
  rw [getF, getF, setF, hoff, hword, csrGet_csrSet, bitsAt_toNat_ofNat _ hg, bitsAt_putBits_outside _ _ (by omega)]

/-! ### Several fields put from one value, as the restore registers do -/

/-- Each field of the list, set to its own bits of `v`. -/
def putFields (base v : Nat) (l : List Fld) (s : State) : State := l.foldl (fun s f => setF base f (bitsAt v f.lo f.w) s) s

theorem putFields_cons (base v : Nat) (f : Fld) (l : List Fld) (s : State) :
    putFields base v (f :: l) s = putFields base v l (setF base f (bitsAt v f.lo f.w) s) := rfl

/-- Fields put change registers only. -/
theorem putFields_frame (base v : Nat) : ∀ (l : List Fld) (s : State), { putFields base v l s with csr := s.csr } = s
  | [], _ => rfl
  | f :: l, s => by
    have hset : { setF base f (bitsAt v f.lo f.w) s with csr := s.csr } = s := rfl
    have hrest := congrArg (fun t : State => { t with csr := s.csr }) (putFields_frame base v l (setF base f (bitsAt v f.lo f.w) s))
    exact hrest.trans hset

/-- A word of none of the fields' registers reads as before. -/
theorem csrGet_putFields_other (base v d off : Nat) : ∀ (l : List Fld) (s : State), (∀ f ∈ l, off ≠ base + f.off) →
    csrGet d off (putFields base v l s) = csrGet d off s
  | [], _, _ => rfl
  | f :: l, s, h => by
    obtain ⟨hf, hl⟩ := List.forall_mem_cons.1 h
    rw [putFields_cons, csrGet_putFields_other base v d off l _ hl, setF, csrGet_csrSet_other _ _ _ _ _ _ hf]

/-- A field beside all the fields put reads as before. -/
theorem getF_putFields_beside {g : Fld} (base v : Nat) (hg : g.lo + g.w ≤ 32) : ∀ (l : List Fld) (s : State), (∀ f ∈ l, FieldsBeside g f) →
    getF base g (putFields base v l s) = getF base g s
  | [], _, _ => rfl
  | f :: l, s, h => by
    obtain ⟨⟨hoff, hword, hbits⟩, hl⟩ := List.forall_mem_cons.1 h
    rw [putFields_cons, getF_putFields_beside base v hg l _ hl, getF_setF_beside base _ s ⟨hoff.symm, hword.symm, hbits.symm⟩ hg]

/-- With the fields beside one another, each reads its bits of the value: no later one overwrites it. -/
theorem getF_putFields (base v : Nat) {l : List Fld} (hapart : FieldsApart l) {g : Fld} (hg : g ∈ l) (s : State) :
    getF base g (putFields base v l s) = bitsAt v g.lo g.w := by
  induction l generalizing s with
  | nil => cases hg
  | cons f l ih =>
    obtain ⟨hfit, hbeside⟩ := hapart
    obtain ⟨hf, hl⟩ := List.forall_mem_cons.1 hfit
    obtain ⟨hfl, hll⟩ := List.pairwise_cons.1 hbeside
    rcases List.mem_cons.1 hg with rfl | hgl
    · rw [putFields_cons, getF_putFields_beside base v hf l _ hfl, getF_setF _ _ _ _ hf, bitsAt, Nat.mod_mod]
    · exact ih ⟨hl, hll⟩ hgl _

/-! ### What raising an event changes (R435, R437, R439) -/

theorem lostFld_at (sev : Nat) : evrBase + (lostFld sev).off = lostAt := by
  unfold lostFld
  split_ifs <;> rfl

theorem csrGet_bumpF_other (base n d : Nat) (f : Fld) (s : State) {off : Nat} (h : off ≠ base + f.off) :
    csrGet d off (bumpF base f n s) = csrGet d off s :=
  csrGet_csrSet_other f.word d (base + f.off) off _ s h

/-- A dropped event is counted in EVR_LOST, and no other register changes. -/
theorem onlyLogged_dropEvent (src sev : Nat) (s : State) : OnlyLogged s (dropEvent src sev s) := by
  obtain ⟨c, k, hbump⟩ := (RegsOnly.refl s).bumpF evrBase (lostFld sev) 1
  have hcsr : ∀ d off, off ≠ lostAt → sGet (BitVec.ofNat 32 d) c off = csrGet d off s := by
    intro d off hoff
    have hother := csrGet_bumpF_other evrBase 1 d (lostFld sev) s (hoff.trans_eq (lostFld_at sev).symm)
    rwa [hbump] at hother
  rw [dropEvent, hbump]
  exact ⟨fun d off _ hoff => hcsr d off hoff, rfl⟩

/-- The step's error flag is none of the registers, so noting it first changes nothing that counts. -/
theorem onlyLogged_of_stepErr {b : Bool} {s t : State} (h : OnlyLogged { s with stepErr := b } t) : OnlyLogged s t := by
  obtain ⟨hcsr, hrest⟩ := h
  exact ⟨hcsr, congrArg (fun u : State => { u with stepErr := s.stepErr }) hrest⟩

/-- An event raised enters its source's queue or is dropped. -/
theorem onlyLogged_raise (src code sev arg0 arg1 : Nat) (s : State) : OnlyLogged s (raise src code sev arg0 arg1 s) := by
  have hflag : ∃ b, (if sev ≥ 2 then { s with stepErr := true } else s) = { s with stepErr := b } := by
    split
    · exact ⟨true, rfl⟩
    · exact ⟨s.stepErr, rfl⟩
  obtain ⟨b, hb⟩ := hflag
  apply onlyLogged_of_stepErr (b := b)
  rw [raise, hb]
  dsimp only
  split
  · exact onlyLogged_dropEvent src sev { s with stepErr := b }
  · exact ⟨fun _ _ _ _ => rfl, rfl⟩

/-! ### The restore registers -/

theorem restoreStatus_of_frozen {s : State} (h : s.pkg = .frozen) (path : Path) (reg base : Nat) (l : List Fld) (v : Nat) :
    restoreStatus path reg base l v s = putFields base v l s := if_pos h

theorem restoreStatus_of_not_frozen {s : State} (h : s.pkg ≠ .frozen) (path : Path) (reg base : Nat) (l : List Fld) (v : Nat) :
    restoreStatus path reg base l v s = rejectWrite path reg v s := if_neg h

/-- Each restore command restores the status fields it is listed with, and these share no bit of the STATUS word. -/
theorem restoreStatus_of_mem_restoreForms {path : Path} {t : Fin 288} {cl : Fin 36} {e : Fin 8} {v : Word} {f : Instr × Nat × List Fld}
    (hf : f ∈ restoreForms path t cl e v) (s : State) :
    (∃ reg, exec f.1 s = .next (restoreStatus path reg f.2.1 f.2.2 v.toNat s)) ∧ FieldsApart f.2.2 := by
  simp only [restoreForms, List.mem_cons, List.not_mem_nil, or_false] at hf
  rcases hf with rfl | rfl | rfl | rfl | rfl | rfl | rfl <;> exact ⟨⟨_, rfl⟩, by dsimp only; decide⟩

/-- Settles O26: while FROZEN the fields are put one after another and lie beside one another, so each keeps its bits; otherwise only the rejection
is recorded. -/
theorem restoreRegistersPutStatusBack : Obligations.RestoreRegistersPutStatusBack := by
  intro path t cl e v s f hf
  obtain ⟨⟨reg, hexec⟩, hapart⟩ := restoreStatus_of_mem_restoreForms hf s
  refine ⟨fun hfrozen => ?_, fun hother => ?_⟩
  · rw [restoreStatus_of_frozen hfrozen] at hexec
    exact ⟨_, hexec, fun x hx => getF_putFields _ _ hapart hx s, fun d off => csrGet_putFields_other _ _ d off _ s, putFields_frame _ _ _ s⟩
  · rw [restoreStatus_of_not_frozen hother] at hexec
    exact ⟨_, hexec, onlyLogged_raise ..⟩

end Sys2Proof.Machine
end

section
/-! PROOFS. The state after cold reset: where the registers of the CSR space lie, that each table's reset words hold their fields' Reset values, and
the statement about the reset state (R14, R33, R95, R129, R165, R195, R221, R418, R443). -/

namespace Sys2Proof.Machine

open Sys2Proof.Claims

/-! ### Registers and their reset words -/

/-- The fields of a register lie at its offset, and its reset word holds each one's Reset value. -/
abbrev Reg.WordMatches (r : Reg) : Prop := ∀ f ∈ r.flds, f.off = r.off ∧ bitsAt (BitVec.ofNat 32 f.word).toNat f.lo f.w = f.rst

/-- The register tables of all blocks. -/
def regTables : List (List Reg) :=
  [regsMX, regsSX, regsSEQ, regsDSP, regsASY, regsPOR, regsSLV, regsMEM, regsMEMP, regsDEP, regsFAB, regsPORT, regsRT, regsHAL, regsCOL, regsGCT, regsCKP,
   regsPWR, regsCMD, regsPKG, regsEVR, regsSEC]

/-- Every register of the tables meets its reset word. -/
theorem wordMatches_of_mem : ∀ l ∈ regTables, ∀ r ∈ l, r.WordMatches := by decide +kernel

/-! ### Where the registers lie (R33, R418) -/

/-- If the place at offset `o` is a register, it lies there in its block and is one of the tables'. -/
structure Place.RegisterAt (o : Nat) (p : Place) : Prop where
  of_reg : ∀ {k n base r}, p = .reg k n base r → o = base + r.off ∧ ∃ l ∈ regTables, r ∈ l

theorem registerAt_inBlock {k : Blk} {n base x o : Nat} {l : List Reg} (ho : o = base + x) (hl : l ∈ regTables := by simp [regTables]) :
    (inBlock k n base l x).RegisterAt o := by
  constructor
  intro k' n' base' r' h
  unfold inBlock at h
  split at h
  next r hr =>
    obtain ⟨-, -, rfl, rfl⟩ := Place.reg.inj h
    have hx : r.off = x := by simpa using List.find?_some hr
    exact ⟨by rw [hx, ho], l, hl, List.mem_of_find?_eq_some hr⟩
  next => cases h

theorem registerAt_ite {c : Prop} [Decidable c] {o : Nat} {a b : Place} (ha : c → a.RegisterAt o) (hb : ¬ c → b.RegisterAt o) :
    (if c then a else b).RegisterAt o := by
  split
  · exact ha ‹c›
  · exact hb ‹¬ c›

theorem registerAt_placeCluster {cl o : Nat} (hcl : cl < 36) (ho : o < 0x40000) : (placeCluster cl o).RegisterAt (clusterBase cl + o) := by
  have htile : o < 0x20000 → clusterBase cl + o = tileBase (8 * cl + o / 0x4000) + o % 0x4000 := by
    intro hlow
    have hdiv : (8 * cl + o / 0x4000) / 8 = cl := by omega
    have hmod : (8 * cl + o / 0x4000) % 8 = o / 0x4000 := by omega
    rw [tileBase, hdiv, hmod]
    omega
  have hseq : seqBase cl = clusterBase cl + 0x20000 := if_pos hcl
  unfold placeCluster
  dsimp only
  repeat' with_reducible refine registerAt_ite (fun _ => ?_) (fun _ => ?_)
  · exact ⟨nofun⟩
  · exact registerAt_inBlock (htile ‹_›)
  · exact ⟨nofun⟩
  · exact registerAt_inBlock (by omega)
  · exact registerAt_inBlock (by rw [sxBase]; omega)
  · exact registerAt_inBlock (by rw [asyBase]; omega)
  · exact registerAt_inBlock (by rw [porBase]; omega)
  · exact ⟨nofun⟩

theorem registerAt_placeDie {d o : Nat} (hd : d < 4) : (placeDie d o).RegisterAt (dieBase d + o) := by
  unfold placeDie
  repeat' with_reducible refine registerAt_ite (fun _ => ?_) (fun _ => ?_)
  · have hbase : dieBase d + o = clusterBase (9 * d + o / 0x40000) + o % 0x40000 := by
      have hdiv : (9 * d + o / 0x40000) / 9 = d := by omega
      have hmod : (9 * d + o / 0x40000) % 9 = o / 0x40000 := by omega
      rw [clusterBase, hdiv, hmod]
      omega
    exact hbase ▸ registerAt_placeCluster (by omega) (by omega)
  · exact ⟨nofun⟩
  · exact registerAt_inBlock (by rw [depBase]; omega)
  · exact ⟨nofun⟩
  · exact registerAt_inBlock (by rw [dspBase]; omega)

theorem portBase_caravan {f i : Nat} (hf : f < 2) (hi : i < 9) : portBase (9 * f + i) = fabBase f + 0x10000 + 0x100 * i := by
  have hdiv : (9 * f + i) / 9 = f := by omega
  have hmod : (9 * f + i) % 9 = i := by omega
  rw [portBase, if_pos (by omega), hdiv, hmod]

theorem portBase_route {f i : Nat} (hi : i < 2) : portBase (18 + 2 * f + i) = fabBase f + 0x11000 + 0x100 * i := by
  have hdiv : (18 + 2 * f + i - 18) / 2 = f := by omega
  have hmod : (18 + 2 * f + i - 18) % 2 = i := by omega
  rw [portBase, if_neg (by omega), hdiv, hmod]

theorem registerAt_placeFab {f o : Nat} (hf : f < 2) : (placeFab f o).RegisterAt (fabBase f + o) := by
  unfold placeFab
  repeat' with_reducible refine registerAt_ite (fun _ => ?_) (fun _ => ?_)
  · exact registerAt_inBlock rfl
  · exact registerAt_inBlock (by rw [portBase_caravan hf (by omega)]; omega)
  · exact registerAt_inBlock (by rw [portBase_route (by omega)]; omega)
  · exact registerAt_inBlock (by rw [rtBase]; omega)
  · exact ⟨nofun⟩
  · exact ⟨nofun⟩

/-- Every register of the CSR space lies at its block's base and its own offset. -/
theorem registerAt_csrPlace (o : Nat) : (csrPlace o).RegisterAt o := by
  unfold csrPlace
  dsimp only
  repeat' with_reducible refine registerAt_ite (fun _ => ?_) (fun _ => ?_)
  · exact ⟨nofun⟩
  · exact registerAt_inBlock (by rw [cmdBase]; omega)
  · exact registerAt_inBlock (by rw [pkgBase]; omega)
  · exact ⟨nofun⟩
  · exact registerAt_inBlock (by rw [seqBase, if_neg (by omega)]; omega)
  · exact ⟨nofun⟩
  · exact registerAt_inBlock (by rw [evrBase]; omega)
  · exact registerAt_inBlock (by rw [pwrBase]; omega)
  · exact ⟨nofun⟩
  · exact ⟨nofun⟩
  · exact ⟨nofun⟩
  · exact registerAt_inBlock (by rw [secBase]; omega)
  · exact registerAt_inBlock (by rw [gctBase]; omega)
  · exact ⟨nofun⟩
  · exact ⟨nofun⟩
  · exact registerAt_inBlock (by rw [slvBase]; omega)
  · exact ⟨nofun⟩
  · exact registerAt_inBlock (by rw [ckpBase]; omega)
  · exact ⟨nofun⟩
  · exact registerAt_inBlock (by rw [stackBase]; omega)
  · exact registerAt_inBlock (by rw [mempBase]; omega)
  · exact ⟨nofun⟩
  · exact registerAt_inBlock (by rw [halBase]; omega)
  · have hbase : o = fabBase ((o - 0x400000) / 0x100000) + o % 0x100000 := by rw [fabBase]; omega
    have hfab := registerAt_placeFab (f := (o - 0x400000) / 0x100000) (o := o % 0x100000) (by omega)
    rwa [← hbase] at hfab
  · exact ⟨nofun⟩
  · exact ⟨nofun⟩
  · exact registerAt_inBlock (by rw [colBase]; omega)
  · exact ⟨nofun⟩
  · have hbase : o = dieBase ((o - 0x1000000) / 0x400000) + o % 0x400000 := by rw [dieBase]; omega
    have hdie := registerAt_placeDie (d := (o - 0x1000000) / 0x400000) (o := o % 0x400000) (by omega)
    rwa [← hbase] at hdie
  · exact ⟨nofun⟩

/-- The registers of the CSR space are those of the tables, each at its block's base. -/
theorem csrPlace_eq_reg {o n base : Nat} {k : Blk} {r : Reg} (h : csrPlace o = .reg k n base r) : o = base + r.off ∧ r.WordMatches := by
  obtain ⟨ho, l, hl, hr⟩ := (registerAt_csrPlace o).of_reg h
  exact ⟨ho, wordMatches_of_mem l hl r hr⟩

/-! ### The registers at reset -/

/-- Of the words that the reset state lists, all but PKG_INPUTS and HAL_STATUS are words of the slot tables (R296, log 14). -/
theorem csrPlace_slotWords : csrPlace 0x420100 = .fabTab 0 0x100 ∧ csrPlace 0x420300 = .fabTab 0 0x300 ∧ csrPlace 0x520100 = .fabTab 1 0x100 ∧
    csrPlace 0x520300 = .fabTab 1 0x300 := by
  decide

/-- Every register but PKG_INPUTS and HAL_STATUS reads its reset word at reset. -/
theorem csrGet_reset {o n base : Nat} {k : Blk} {r : Reg} (hreg : csrPlace o = .reg k n base r) (hother : o ∉ [0x020020, 0x4C0008]) (d : Nat) :
    csrGet d o State.reset = BitVec.ofNat 32 d := by
  have hslot : ∀ {x f i}, csrPlace x = .fabTab f i → o ≠ x := by
    rintro x f i hx rfl
    cases hreg.symm.trans hx
  obtain ⟨h1, h2, h3, h4⟩ := csrPlace_slotWords
  simp only [List.mem_cons, List.not_mem_nil, or_false, not_or] at hother
  simp [csrGet, State.reset, sGet, hother, hslot h1, hslot h2, hslot h3, hslot h4]

/-- Settles O3: every store is empty at reset, so each block reads its initial value, and a register reads its reset word, which holds the Reset values
of its fields. -/
theorem resetLeavesTheBlocksEmpty : Obligations.ResetLeavesTheBlocksEmpty := by
  refine ⟨rfl, rfl, rfl, fun c => ⟨rfl, rfl, rfl, rfl, fun n => ?_, fun n => rfl, fun n => rfl⟩, fun k => ⟨rfl, rfl, rfl⟩, fun d => rfl, fun p n => rfl,
    fun p n => ?_, fun k n base r hr f hf => ?_, rfl, rfl, rfl, fun q => rfl⟩
  · exact ite_self 0
  · exact ite_self _
  · obtain ⟨o, hreg, hother⟩ := hr
    obtain ⟨ho, hword⟩ := csrPlace_eq_reg hreg
    obtain ⟨hoff, hrst⟩ := hword f hf
    rw [getF, hoff, ← ho, csrGet_reset hreg hother, hrst]

end Sys2Proof.Machine
end

section
/-! PROOFS. The registers of a VX and the general registers of a core: what a read returns after a write, and the statement about m0 and g0
(R98, R129, R134). -/

namespace Sys2Proof.Machine

open Sys2Proof.Claims

/-- A vector register reads what was written to it; every other register of every tile reads as before. -/
theorem getV_setV {n m : Nat} (p q : Nat) (v : BitVec 2048) (s : State) (hn : n < 32) (hm : m < 32) :
    getV q m (setV p n v s) = if q = p ∧ m = n then v else getV q m s := by
  have hkey : q * 32 + m = p * 32 + n ↔ q = p ∧ m = n := by omega
  rw [getV, getV, setV, sGet_sSet]
  simp only [hkey]

@[simp] theorem getM_zero (p : Nat) (s : State) : getM p 0 s = BitVec.allOnes 256 := if_pos rfl

@[simp] theorem setM_zero (p : Nat) (v : BitVec 256) (s : State) : setM p 0 v s = s := if_pos rfl

/-- A mask register other than m0 reads what was written to it; every other mask of every tile reads as before. -/
theorem getM_setM {n m : Nat} (p q : Nat) (v : BitVec 256) (s : State) (h0 : 0 < n) (hn : n < 8) (hm : m < 8) :
    getM q m (setM p n v s) = if q = p ∧ m = n then v else getM q m s := by
  have hkey : q * 8 + m = p * 8 + n ↔ q = p ∧ m = n := by omega
  rw [setM, if_neg (by omega), getM, getM]
  by_cases hm0 : m = 0
  · rw [if_pos hm0, if_pos hm0, if_neg (by omega)]
  · rw [if_neg hm0, if_neg hm0, sGet_sSet]
    simp only [hkey]

/-- A write to m[n] keeps every other mask, also where it is ignored because n is 0. -/
theorem getM_setM_other {n m : Nat} {p q : Nat} (v : BitVec 256) (s : State) (hn : n < 8) (hm : m < 8) (hne : ¬ (q = p ∧ m = n)) :
    getM q m (setM p n v s) = getM q m s := by
  rcases Nat.eq_zero_or_pos n with rfl | h0
  · rw [setM_zero]
  · rw [getM_setM p q v s h0 hn hm, if_neg hne]

/-- Settles O9: a file's key names tile and register without a second reading, and number 0 is set apart before the key is formed. -/
theorem maskZeroReadsOnes : Obligations.MaskZeroReadsOnes := by
  refine ⟨getM_zero, fun _ => if_pos rfl, setM_zero, fun v k n => ?_, fun p q n m v s h0 hn hm => getM_setM p q v s h0 hn hm,
    fun p q n m v s hn hm => getV_setV p q v s hn hm, fun n m v k h0 => ?_⟩
  · rw [setG, if_pos rfl]
  · rw [getG_setG]
    by_cases hm : m = 0
    · rw [if_pos hm, if_neg (by omega), getG, if_pos hm]
    · rw [if_neg hm]

end Sys2Proof.Machine
end

section
/-! PROOFS. Completion: what leaves engines and cores alone, what the delivery of a summary changes, and the statement about the engines'
COMPLETE commands (R111, R135, R145, R191, R207). -/

namespace Sys2Proof.Machine

open Sys2Proof.Claims

/-! ### What changes no engine and no core -/

/-- No engine and no core changed. -/
structure SameBlocks (s t : State) : Prop where
  engines : t.engines = s.engines
  cores : t.cores = s.cores

theorem SameBlocks.refl (s : State) : SameBlocks s s := ⟨rfl, rfl⟩

theorem SameBlocks.trans {s t u : State} (h : SameBlocks s t) (h' : SameBlocks t u) : SameBlocks s u :=
  ⟨h'.engines.trans h.engines, h'.cores.trans h.cores⟩

theorem SameBlocks.ite {c : Prop} [Decidable c] {s t u : State} (ht : SameBlocks s t) (hu : SameBlocks s u) :
    SameBlocks s (if c then t else u) := by
  split <;> assumption

theorem SameBlocks.foldl {α : Type} {f : State → α → State} (hf : ∀ s a, SameBlocks s (f s a)) :
    ∀ (l : List α) (s : State), SameBlocks s (l.foldl f s)
  | [], s => .refl s
  | a :: l, s => (hf s a).trans (SameBlocks.foldl hf l (f s a))

theorem SameBlocks.getEng_eq {s t : State} (h : SameBlocks s t) (k : Nat) : getEng k t = getEng k s := by
  rw [getEng, getEng, h.engines]

theorem SameBlocks.getCore_eq {s t : State} (h : SameBlocks s t) (c : Nat) : getCore c t = getCore c s := by
  rw [getCore, getCore, h.cores]

theorem RegsOnly.sameBlocks {s t : State} (h : RegsOnly s t) : SameBlocks s t := by
  obtain ⟨c, k, rfl⟩ := h
  exact ⟨rfl, rfl⟩

theorem regsOnly_setFlags (base fl : Nat) : ∀ (l : List (Nat × Fld)) {s t : State}, RegsOnly s t → RegsOnly s (setFlags base fl l t)
  | [], _, _, h => h
  | (i, f) :: m, s, t, h => by
    rw [setFlags]
    refine regsOnly_setFlags base fl m ?_
    split
    · exact h.setF base f 1
    · exact h

/-- An operation on a state with the same engines and cores. -/
theorem SameBlocks.of_same {s t u : State} (h : SameBlocks t u) (hengines : t.engines = s.engines) (hcores : t.cores = s.cores) : SameBlocks s u :=
  ⟨h.engines.trans hengines, h.cores.trans hcores⟩

theorem sameBlocks_raise (src code sev arg0 arg1 : Nat) (s : State) : SameBlocks s (raise src code sev arg0 arg1 s) := by
  obtain ⟨-, hrest⟩ := onlyLogged_raise src code sev arg0 arg1 s
  have hengines := congrArg State.engines hrest
  have hcores := congrArg State.cores hrest
  exact ⟨hengines, hcores⟩

theorem sameBlocks_setPkg (p : PkgSt) (s : State) : SameBlocks s (setPkg p s) := by
  rw [setPkg]
  exact .of_same (sameBlocks_raise ..) rfl rfl

/-- The end of a job changes the package's state and the Logbook. -/
theorem sameBlocks_jobEnd (s : State) : SameBlocks s (jobEnd s) :=
  .ite ((sameBlocks_raise ..).trans (sameBlocks_setPkg ..)) (.refl s)

/-! ### The write of a solver engine's done word -/

theorem sameBlocks_linkPut (p : Nat) (b : LinkMsg) (s : State) : SameBlocks s (linkPut p b s) := .ite ⟨rfl, rfl⟩ ⟨rfl, rfl⟩

theorem sameBlocks_halAsk (opc vc len line pmask : Nat) (lines : List Line) (s : State) : SameBlocks s (halAsk opc vc len line pmask lines s) := by
  rw [halAsk, halSend, halPut]
  exact .of_same (sameBlocks_linkPut ..) rfl rfl

theorem sameBlocks_snoop (inv : Bool) (pl : Nat) (s : State) : SameBlocks s (snoop inv pl s) := by
  rw [snoop]
  exact .ite (.refl s) (.of_same (sameBlocks_halAsk ..) rfl rfl)

theorem sameBlocks_recallLine (inv : Bool) (pl : Nat) (s : State) : SameBlocks s (recallLine inv pl s) := by
  rw [recallLine]
  split
  · exact sameBlocks_snoop ..
  · exact .ite (sameBlocks_snoop ..) (.refl s)
  · exact .refl s

theorem sameBlocks_poisonAdd (pl : Nat) (s : State) : SameBlocks s (poisonAdd pl s) := .ite (.refl s) ⟨rfl, rfl⟩

theorem sameBlocks_hbmWrite (p n v : Nat) (s : State) : SameBlocks s (hbmWrite p n v s) := by
  cases hc : chanOos (p / 128) s with
  | true => rw [hbmWrite, if_pos hc]; exact .refl s
  | false =>
    obtain ⟨ps, cs, hw⟩ := hbmWrite_frame n v hc
    rw [hw]
    exact ⟨rfl, rfl⟩

theorem sameBlocks_writeBack (pl : Nat) (d : DepotLine) (s : State) : SameBlocks s (writeBack pl d s) := by
  have hhome := sameBlocks_hbmWrite (pl * 128) 128 d.data.toNat s
  rw [writeBack]
  exact .ite (.ite (.of_same (sameBlocks_halAsk ..) rfl rfl) (.ite (hhome.trans (sameBlocks_poisonAdd ..)) hhome)) (.refl s)

theorem sameBlocks_depotGiveUp (d : Fin 4) (pl : Nat) (x : DepotLine) (s : State) : SameBlocks s (depotGiveUp d pl x s) := by
  rw [depotGiveUp]
  split
  · exact .of_same (sameBlocks_writeBack ..) rfl rfl
  · exact ⟨rfl, rfl⟩

theorem sameBlocks_depotRoom (d : Fin 4) (pl : Nat) (s : State) : SameBlocks s (depotRoom d pl s) := by
  rw [depotRoom]
  refine .ite (.refl s) ?_
  split
  · exact .of_same (sameBlocks_depotGiveUp ..) rfl rfl
  · exact .refl s

/-- A Depot beside the home gives up its copy where it has one. -/
theorem sameBlocks_recallFrom (pl : Nat) (s : State) (d : Fin 4) : SameBlocks s (if d.val = homeDie pl then s else match sFind s.depot pl with
    | some y => depotGiveUp d pl y s
    | none => s) := by
  refine .ite (.refl s) ?_
  split
  · exact sameBlocks_depotGiveUp ..
  · exact .refl s

theorem sameBlocks_recallAll (pl : Nat) (s : State) : SameBlocks s (recallAll pl s) := by
  rw [recallAll]
  refine SameBlocks.trans ?_ (sameBlocks_recallLine ..)
  split
  · exact .foldl (sameBlocks_recallFrom pl) _ s
  · exact .refl s

theorem sameBlocks_dirRoom (pl : Nat) (s : State) : SameBlocks s (dirRoom pl s) := by
  rw [dirRoom]
  refine .ite (.refl s) ?_
  split
  · exact .of_same (sameBlocks_recallAll ..) rfl rfl
  · exact .refl s

theorem sameBlocks_depotPut (d : Fin 4) (pl : Nat) (x : DepotLine) (s : State) : SameBlocks s (depotPut d pl x s) := by
  have hdir : SameBlocks s (if pl < compKey 0 ∧ d.val ≠ homeDie pl then dirRoom pl s else s) := .ite (sameBlocks_dirRoom ..) (.refl s)
  obtain ⟨hengines, hcores⟩ := hdir.trans (sameBlocks_depotRoom d pl _)
  exact ⟨hengines, hcores⟩

theorem sameBlocks_lineWrite (alloc : Option (Fin 4)) (p n v : Nat) (s : State) : SameBlocks s (lineWrite alloc p n v s) := by
  unfold lineWrite
  dsimp only
  split
  · exact ⟨rfl, rfl⟩
  · exact .ite ⟨rfl, rfl⟩ (sameBlocks_depotPut ..)
  · exact sameBlocks_depotPut ..
  · exact sameBlocks_hbmWrite ..

theorem sameBlocks_atomicAt (p : Nat) (f : Nat → Nat) (s : State) : SameBlocks s (atomicAt p f s).2 := by
  rw [atomicAt]
  exact .of_same (sameBlocks_lineWrite ..) rfl rfl

/-! ### The delivery of a summary (R135, R145) -/

/-- Engine `k` has completed its front instruction `x`, `rest` being the queue behind it: the issuing core has summary `v` where `x` names a summary
register, and no longer lists `x`; no other engine, no other core and nothing else of these two changed. -/
def Delivered (k : Nat) (x : EngIns) (rest : List EngIns) (v : BitVec 128) (s u : State) : Prop :=
  (getEng k u).queue = rest ∧ (getEng k u).cross = (getEng k s).cross ∧ (∀ j, j ≠ k → getEng j u = getEng j s) ∧ OtherCoresKept x.core s u ∧
    (let k := getCore x.core s
     let k' := getCore x.core u
     (∀ r, x.sum = some r → getS k' r = v ∧ r ∉ k'.sPend) ∧
     (∀ n, x.sum ≠ some n → getS k' n = getS k n ∧ (n ∈ k'.sPend ↔ n ∈ k.sPend)) ∧
     (∀ o, o ∈ k'.out ↔ o ∈ k.out ∧ ¬ (o.kind = x.kind ∧ o.tile = x.tile ∧ o.tag = x.tag)) ∧
     { k' with s := k.s, sPend := k.sPend, out := k.out } = k)

/-- The issuing core after the delivery of summary `v`. -/
def coreAfter (x : EngIns) (v : BitVec 128) (k : Core) : Core :=
  let k := match x.sum with
    | some r => putSum r v k
    | none => k
  { k with out := k.out.filter (fun o => !(o.kind = x.kind && o.tile = x.tile && o.tag = x.tag)) }

theorem coreComplete_eq (x : EngIns) (v : BitVec 128) (s : State) :
    coreComplete x v s = setCore x.core (coreAfter x v (getCore x.core s)) s := by
  unfold coreComplete coreAfter
  cases x.sum <;> rfl

theorem coreAfter_summary (x : EngIns) (v : BitVec 128) (k : Core) (n : Nat) :
    (x.sum = some n → getS (coreAfter x v k) n = v ∧ n ∉ (coreAfter x v k).sPend) ∧
      (x.sum ≠ some n → getS (coreAfter x v k) n = getS k n ∧ (n ∈ (coreAfter x v k).sPend ↔ n ∈ k.sPend)) := by
  cases hsum : x.sum with
  | none => simp [coreAfter, hsum, getS]
  | some r =>
    have hgetS : getS (coreAfter x v k) n = if n = r then v else getS k n := by
      simp only [coreAfter, hsum]
      exact getS_putSum k r n v
    have hpend : n ∈ (coreAfter x v k).sPend ↔ n ∈ k.sPend ∧ n ≠ r := by simp [coreAfter, hsum, putSum]
    rw [hgetS, hpend]
    by_cases hn : n = r
    · simp [hn]
    · simp [hn, Ne.symm hn]

theorem mem_coreAfter_out (x : EngIns) (v : BitVec 128) (k : Core) (o : OutIns) :
    o ∈ (coreAfter x v k).out ↔ o ∈ k.out ∧ ¬ (o.kind = x.kind ∧ o.tile = x.tile ∧ o.tag = x.tag) := by
  have hout : (coreAfter x v k).out = k.out.filter (fun o => !(o.kind = x.kind && o.tile = x.tile && o.tag = x.tag)) := by
    rw [coreAfter]
    split <;> rfl
  rw [hout, List.mem_filter]
  simp only [Bool.not_eq_true', Bool.and_eq_false_iff, decide_eq_false_iff_not, not_and_or, or_assoc]

theorem coreAfter_frame (x : EngIns) (v : BitVec 128) (k : Core) : { coreAfter x v k with s := k.s, sPend := k.sPend, out := k.out } = k := by
  rw [coreAfter]
  split <;> rfl

/-- Completing the front instruction delivers its summary, also after steps that changed no engine and no core. -/
theorem delivered_engComplete {k : Nat} {x : EngIns} {rest : List EngIns} {s t : State} (hq : (getEng k s).queue = x :: rest) (v : BitVec 128)
    (h : SameBlocks s t) : Delivered k x rest v s (engComplete k v t) := by
  have hhead : engHead k t = some x := by rw [engHead, h.getEng_eq, hq]; rfl
  let e : Engine := { getEng k s with queue := rest, rx := [], rxPoison := [], rxDead := [], drops := [], trap := none, rows := [] }
  have hrun : engComplete k v t = jobEnd (setCore x.core (coreAfter x v (getCore x.core s)) (setEng k e t)) := by
    have hcore : getCore x.core (setEng k e t) = getCore x.core s := h.getCore_eq x.core
    rw [engComplete, hhead]
    dsimp only
    rw [h.getEng_eq, hq, coreComplete_eq, List.tail_cons, hcore]
  have heng : ∀ j, getEng j (engComplete k v t) = if j = k then e else getEng j s := by
    intro j
    rw [hrun, (sameBlocks_jobEnd _).getEng_eq]
    exact (getEng_setEng k j e t).trans (by rw [h.getEng_eq])
  have hcore : ∀ c, getCore c (engComplete k v t) = if c = x.core then coreAfter x v (getCore x.core s) else getCore c s := by
    intro c
    rw [hrun, (sameBlocks_jobEnd _).getCore_eq, getCore_setCore]
    exact congrArg _ (h.getCore_eq c)
  refine ⟨by rw [heng, if_pos rfl], by rw [heng, if_pos rfl], fun j hj => by rw [heng, if_neg hj], fun c hc => by rw [hcore, if_neg hc], ?_⟩
  rw [hcore, if_pos rfl]
  exact ⟨fun n => (coreAfter_summary x v _ n).1, fun n => (coreAfter_summary x v _ n).2, mem_coreAfter_out x v _, coreAfter_frame x v _⟩

/-! ### The engines -/

theorem engHead_of_queue {k : Nat} {s : State} {x : EngIns} {rest : List EngIns} (h : (getEng k s).queue = x :: rest) : engHead k s = some x := by
  rw [engHead, h, List.head?_cons]

theorem RegsOnly.ite {c : Prop} [Decidable c] {s t u : State} (ht : RegsOnly s t) (hu : RegsOnly s u) : RegsOnly s (if c then t else u) := by
  split <;> assumption

/-- The engine status a completion leaves: the sticky flags and, where the instruction has more than the flags left out, its count and tag. -/
theorem regsOnly_status {c : Prop} [Decidable c] {s t : State} (h : RegsOnly s t) (base fl n : Nat) (l : List (Nat × Fld)) (count tag : Fld) :
    RegsOnly s (if c then setF base tag n (bumpF base count 1 (setFlags base fl l t)) else setFlags base fl l t) :=
  have hflags := regsOnly_setFlags base fl l h
  .ite ((hflags.bumpF base count 1).setF base tag n) hflags

section
variable {s : State} {x : EngIns} {rest : List EngIns}

theorem mxComplete_eq {p : Nat} (hq : (getEng (kMx p) s).queue = x :: rest) (hphase : x.phase ≠ 0) :
    ∃ t, SameBlocks s t ∧ mxComplete p s = engComplete (kMx p)
      (mkSummary 0 0 none x.flags (decide (x.flags % 16 &&& (mxD x.cfg x.desc).flagSum ≠ 0)) false x.ue) t := by
  rw [mxComplete, engHead_of_queue hq]
  dsimp only
  rw [if_neg hphase]
  generalize hw : (if (mxD x.cfg x.desc).bmdEn = true then tileWriteRow p _ _ _ s else s) = w
  have hbitmap : SameBlocks s w := hw ▸ .ite ⟨rfl, rfl⟩ (.refl s)
  exact ⟨_, hbitmap.trans (regsOnly_status (.refl w) ..).sameBlocks, rfl⟩

theorem vxComplete_eq {p : Nat} (hq : (getEng (kVx p) s).queue = x :: rest) (hphase : x.phase ≠ 0) :
    ∃ t, SameBlocks s t ∧ vxComplete p s = engComplete (kVx p)
      (mkSummary x.value x.count (firstOf x.first) x.flags (decide (x.flags % 16 &&& bitsAt x.cfg.toNat 5 4 ≠ 0)) x.trap x.ue) t := by
  rw [vxComplete, engHead_of_queue hq]
  dsimp only
  rw [if_neg hphase]
  exact ⟨_, (regsOnly_status (.refl s) ..).sameBlocks, rfl⟩

theorem sxComplete_eq {cl : Nat} (hq : (getEng (kSx cl) s).queue = x :: rest) (hphase : x.phase ≠ 0)
    (hquiet : writesOpen (.eng (kSx cl)) s = false) :
    ∃ t, SameBlocks s t ∧ sxComplete cl s = engComplete (kSx cl)
      (mkSummary x.value x.count (firstOf x.first) x.flags (decide (x.flags % 16 &&& bitsAt x.cfg.toNat 0 4 ≠ 0)) false x.ue) t := by
  rw [sxComplete, engHead_of_queue hq]
  dsimp only
  rw [if_neg (by simp [hphase, hquiet])]
  exact ⟨_, (regsOnly_status (.refl s) ..).sameBlocks, rfl⟩

theorem asyComplete_eq {cl : Nat} (hq : (getEng (kAsy cl) s).queue = x :: rest) (hphase : x.phase ≠ 0)
    (hquiet : writesOpen (.eng (kAsy cl)) s = false) :
    ∃ t, SameBlocks s t ∧ asyComplete cl s = engComplete (kAsy cl)
      (mkSummary (cvtV fp64 false (decodeF fp32 x.value)).1 x.count (firstOf x.first) x.flags
        (decide (x.flags % 16 &&& bitsAt x.cfg.toNat 1 4 ≠ 0)) false x.ue) t := by
  rw [asyComplete, engHead_of_queue hq]
  dsimp only
  rw [if_neg (by simp [hphase, hquiet])]
  exact ⟨_, (regsOnly_status (.refl s) ..).sameBlocks, rfl⟩

/-- A Porter whose digest record is written, or that makes none, writes nothing more. -/
theorem porDigest_of_written {k : Nat} (h : ¬ ((⟨x.desc⟩ : PorD).digEn = true ∧ x.phase = 1)) : porDigest k x s = s :=
  if_neg (by simpa using h)

theorem porComplete_eq {cl : Nat} (hq : (getEng (kPor cl) s).queue = x :: rest) (hphase : x.phase ≠ 0)
    (hdigest : ¬ ((⟨x.desc⟩ : PorD).digEn = true ∧ x.phase = 1)) (htxn : hasTxn (fun q => q.owner = .eng (kPor cl)) s = false)
    (hquiet : writesOpen (.eng (kPor cl)) s = false) :
    let por := getEng (kPor cl) s
    ∃ t, SameBlocks s t ∧ porComplete cl s = engComplete (kPor cl)
      (mkSummary x.value (x.count + por.drops.length) (firstOf ((por.drops.map (fun l => sGet 0x1FFFFFF por.rows l)).foldl min x.first)) 0 false false
        x.ue) t := by
  rw [porComplete, engHead_of_queue hq]
  dsimp only
  rw [if_neg (by simp [hphase, htxn, hquiet]), porDigest_of_written hdigest, if_neg (by simp [hquiet])]
  exact ⟨_, .ite (.refl s) ((((RegsOnly.refl s).setF ..).bumpF ..).setF ..).sameBlocks, rfl⟩

theorem slvComplete_eq {e : Nat} (hq : (getEng (kSlv e) s).queue = x :: rest) (hphase : x.phase = 0) (hbatch : (⟨x.desc⟩ : SlvD).batch ≤ x.value)
    (hquiet : writesOpen (.eng (kSlv e)) s = false)
    (hdone : (⟨x.desc⟩ : SlvD).done ≠ 0 → ∀ p, target (offOf (⟨x.desc⟩ : SlvD).done) s = .hbm p → writeHeld (p / 128) s = false) :
    ∃ t, SameBlocks s t ∧ slvComplete e s = engComplete (kSlv e) 0 t := by
  rw [slvComplete, engHead_of_queue hq]
  dsimp only
  rw [if_neg (by simp [hphase, hquiet, hbatch])]
  split
  · exact ⟨s, .refl s, rfl⟩
  next hword =>
    split
    next p hp =>
      rw [if_neg (by simp [hdone hword p hp])]
      exact ⟨_, sameBlocks_atomicAt .., rfl⟩
    next => exact ⟨s, .refl s, rfl⟩

end

/-- Each engine's COMPLETE first changes no engine and no core, and then delivers the summary. -/
theorem completeForms_run {t : Fin 288} {cl : Fin 36} {e : Fin 8} {s : State} {f : Instr × Nat × (EngIns → Prop) × (EngIns → BitVec 128)}
    (hf : f ∈ completeForms t cl e s) {x : EngIns} {rest : List EngIns} (hq : (getEng f.2.1 s).queue = x :: rest) (hready : f.2.2.1 x) :
    ∃ u, SameBlocks s u ∧ exec f.1 s = .next (engComplete f.2.1 (f.2.2.2 x) u) := by
  simp only [completeForms, List.mem_cons, List.not_mem_nil, or_false] at hf
  rcases hf with rfl | rfl | rfl | rfl | rfl | rfl
  · obtain ⟨u, hu, heq⟩ := mxComplete_eq hq hready
    exact ⟨u, hu, congrArg _ heq⟩
  · obtain ⟨u, hu, heq⟩ := vxComplete_eq hq hready
    exact ⟨u, hu, congrArg _ heq⟩
  · obtain ⟨hphase, hquiet⟩ := hready
    obtain ⟨u, hu, heq⟩ := sxComplete_eq hq hphase hquiet
    exact ⟨u, hu, congrArg _ heq⟩
  · obtain ⟨hphase, hquiet⟩ := hready
    obtain ⟨u, hu, heq⟩ := asyComplete_eq hq hphase hquiet
    exact ⟨u, hu, congrArg _ heq⟩
  · obtain ⟨hphase, hdigest, htxn, hquiet⟩ := hready
    obtain ⟨u, hu, heq⟩ := porComplete_eq hq hphase hdigest htxn hquiet
    exact ⟨u, hu, congrArg _ heq⟩
  · obtain ⟨hphase, hbatch, hquiet, hdone⟩ := hready
    obtain ⟨u, hu, heq⟩ := slvComplete_eq hq hphase hbatch hquiet hdone
    exact ⟨u, hu, congrArg _ heq⟩

/-- Settles O28: whatever an engine records before it completes changes no engine and no core, so one delivery serves all six. -/
theorem enginesDeliverTheirSummaries : Obligations.EnginesDeliverTheirSummaries := by
  intro t cl e s f hf x rest hq hready
  obtain ⟨u, hu, hexec⟩ := completeForms_run hf hq hready
  exact ⟨_, hexec, delivered_engComplete hq _ hu⟩

end Sys2Proof.Machine
end

section
/-! PROOFS. One element of a VX instruction: the equations of the element-wise operations, of the compares and of the data movements by the lanes they work
on, and what a run over the elements leaves where no element traps (R99, R101, R103 to R108, R112). -/

namespace Sys2Proof.Machine

open Sys2Proof.Claims

/-! ### Bits -/

theorem bitAt_eq_testBit (v i : Nat) : bitAt v i = v.testBit i := by
  rw [bitAt, Nat.testBit_eq_decide_div_mod_eq, Nat.shiftRight_eq_div_pow]

theorem bitAt_or (a b i : Nat) : bitAt (a ||| b) i = (bitAt a i || bitAt b i) := by
  simp only [bitAt_eq_testBit, Nat.testBit_or]

theorem bitAt_b2n (b : Bool) : bitAt (b2n b) 0 = b := by
  cases b <;> rfl

/-- A rotated lane fits the lane. -/
theorem rotate_lt (a w n : Nat) : ((a % 2 ^ w) <<< (n % w)) % 2 ^ w + (a % 2 ^ w) >>> (w - n % w) < 2 ^ w := by
  have ha : a % 2 ^ w < 2 ^ w := Nat.mod_lt _ (Nat.two_pow_pos w)
  rcases Nat.eq_zero_or_pos w with rfl | hw
  · simp [Nat.mod_one]
  · have hsh : n % w < w := Nat.mod_lt _ hw
    generalize a % 2 ^ w = x at ha
    generalize n % w = k at hsh
    have hpow : 2 ^ w = 2 ^ k * 2 ^ (w - k) := by rw [← Nat.pow_add, Nat.add_sub_cancel' hsh.le]
    have hlow : x / 2 ^ (w - k) < 2 ^ k := Nat.div_lt_of_lt_mul (by rwa [Nat.mul_comm, ← hpow])
    have hhigh : x * 2 ^ k % 2 ^ w = 2 ^ k * (x % 2 ^ (w - k)) := by rw [hpow, Nat.mul_comm x, Nat.mul_mod_mul_left]
    have hrest : x % 2 ^ (w - k) + 1 ≤ 2 ^ (w - k) := Nat.mod_lt _ (Nat.two_pow_pos _)
    have htop := Nat.mul_le_mul_left (2 ^ k) hrest
    rw [Nat.mul_succ, ← hpow] at htop
    rw [Nat.shiftLeft_eq, Nat.shiftRight_eq_div_pow, hhigh]
    omega

/-! ### The element-wise operations (R103 to R108) -/

/-- The opcodes of the element-wise operations that write lanes, but for those of floating point, VSEL, VCVT and VMV. -/
def intOpcodes : List Nat :=
  [0x40, 0x41, 0x42, 0x43, 0x44, 0x45, 0x46, 0x47, 0x48, 0x49, 0x4A, 0x4B, 0x4C, 0x4D, 0x50, 0x51, 0x52, 0x53, 0x54, 0x55, 0x58, 0x59, 0x5A, 0x5B, 0x5C]

/-- The opcodes of the element-wise operations that write lanes. -/
def laneOpcodes : List Nat :=
  [0x00, 0x01, 0x02, 0x03, 0x04, 0x05, 0x06, 0x07, 0x08, 0x09, 0x0A, 0x0B, 0x0C, 0x10, 0x11, 0x12, 0x13, 0x27, 0x30] ++
    intOpcodes ++ [0x78]

/-- The opcodes of the operations that write mask bits. -/
def maskOpcodes : List Nat := [0x20, 0x21, 0x22, 0x23, 0x24, 0x25, 0x26, 0x28]

theorem laneFn_of_fp (x : LaneIn) {o : Nat} (ho : o ≤ 0x13) : laneFn o x = elemFp o x.rm x.f x.a x.b x.c := by
  interval_cases o <;> rfl

/-- NOT, the logical right shift and the rotation give lanes that fit, so taking them modulo the lane changes nothing. -/
theorem laneFn_of_bits (x : LaneIn) : ∀ o ∈ [0x46, 0x48, 0x4A], laneFn o x = elemInt o x.rm x.w x.a x.b x.c := by
  have ha : x.a % 2 ^ x.w < 2 ^ x.w := Nat.mod_lt _ (Nat.two_pow_pos _)
  have hnot : 2 ^ x.w - 1 - x.a % 2 ^ x.w < 2 ^ x.w := by omega
  have hshr : (x.a % 2 ^ x.w) >>> (x.b % x.w) < 2 ^ x.w := by
    rw [Nat.shiftRight_eq_div_pow]
    exact (Nat.div_le_self _ _).trans_lt ha
  simp only [List.forall_mem_cons, List.not_mem_nil, false_imp_iff, implies_true, and_true]
  exact ⟨congrArg (·, 0) (Nat.mod_eq_of_lt hnot), congrArg (·, 0) (Nat.mod_eq_of_lt hshr), congrArg (·, 0) (Nat.mod_eq_of_lt (rotate_lt x.a x.w x.b))⟩

theorem laneFn_of_int (x : LaneIn) {o : Nat} (ho : o ∈ intOpcodes) : laneFn o x = elemInt o x.rm x.w x.a x.b x.c := by
  by_cases hbits : o ∈ [0x46, 0x48, 0x4A]
  · exact laneFn_of_bits x o hbits
  · have hrest : ∀ o ∈ [0x40, 0x41, 0x42, 0x43, 0x44, 0x45, 0x47, 0x49, 0x4B, 0x4C, 0x4D, 0x50, 0x51, 0x52, 0x53, 0x54, 0x55, 0x58, 0x59, 0x5A, 0x5B,
        0x5C], laneFn o x = elemInt o x.rm x.w x.a x.b x.c := by
      simp only [List.forall_mem_cons, List.not_mem_nil, false_imp_iff, implies_true, and_true]
      and_intros <;> rfl
    exact hrest o (by simp only [intOpcodes, List.mem_cons, List.not_mem_nil, or_false] at ho hbits ⊢; omega)

/-! ### What an element works on -/

/-- What element `e` of a run works on. -/
def VxEnv.laneIn (v : VxEnv) (e : Nat) : LaneIn :=
  ⟨v.x.fmt, v.x.rm, v.x.ws, v.sat, v.x.srcFmt, v.src 1 e, v.src 2 e, v.src 3 e, v.maskBit e⟩

/-- The result of an element-wise operation that writes lanes. -/
theorem VxEnv.value_lane (v : VxEnv) (e : Nat) {o : Nat} (hopc : v.x.opc = o) (ho : o ∈ laneOpcodes) : v.value e = laneFn o (v.laneIn e) := by
  have hclass : ∀ o ∈ laneOpcodes, o ≤ 0x13 ∨ o = 0x27 ∨ o = 0x30 ∨ o = 0x78 ∨ o ∈ intOpcodes := by decide
  have hint : ∀ o ∈ intOpcodes, 0x40 ≤ o ∧ o ≤ 0x5C := by decide
  rcases hclass o ho with h | rfl | rfl | rfl | h
  · rw [VxEnv.value, hopc, laneFn_of_fp _ h]
    exact if_pos h
  · rw [VxEnv.value, hopc]; rfl
  · rw [VxEnv.value, hopc]; rfl
  · rw [VxEnv.value, hopc]; rfl
  · obtain ⟨hlow, hhigh⟩ := hint o h
    rw [VxEnv.value, hopc, laneFn_of_int _ h]
    dsimp only
    rw [if_neg (by omega), if_neg (by omega), if_neg (by omega), if_neg (by omega), if_neg (by omega), if_pos hhigh]
    rfl

theorem cmpInt_eq_maskFn (m : Nat) (x : LaneIn) (h : fmtOf x.fmt = none) :
    ∀ o ∈ [0x20, 0x21, 0x22, 0x23, 0x24, 0x25, 0x26], (cmpInt o x.w x.a x.b, 0) = maskFn m o x := by
  simp only [List.forall_mem_cons, List.not_mem_nil, false_imp_iff, implies_true, and_true]
  and_intros <;> (unfold maskFn; rw [h]; rfl)

theorem cmpFp_eq_maskFn (m : Nat) (x : LaneIn) {f : Fmt} (h : fmtOf x.fmt = some f) :
    ∀ o ∈ [0x20, 0x21, 0x22, 0x23, 0x24, 0x25, 0x26], cmpFp o f x.a x.b = maskFn m o x := by
  simp only [List.forall_mem_cons, List.not_mem_nil, false_imp_iff, implies_true, and_true]
  and_intros <;> (unfold maskFn; rw [h]; rfl)

/-- The result of an operation that writes mask bits. -/
theorem VxEnv.value_mask (v : VxEnv) (e : Nat) {o : Nat} (hopc : v.x.opc = o) (ho : o ∈ maskOpcodes) :
    v.value e = (b2n (maskFn v.x.vs3 o (v.laneIn e)).1, (maskFn v.x.vs3 o (v.laneIn e)).2) := by
  have hclass : ∀ o ∈ maskOpcodes, o = 0x28 ∨ 0x13 < o ∧ o ≤ 0x26 ∧ o ∈ [0x20, 0x21, 0x22, 0x23, 0x24, 0x25, 0x26] := by decide
  rcases hclass o ho with rfl | ⟨hlow, hhigh, hcmp⟩
  · rw [VxEnv.value, hopc, maskFn]
    rfl
  · rw [VxEnv.value, hopc]
    dsimp only
    rw [if_neg (by omega), if_pos hhigh]
    cases hf : fmtOf v.x.fmt with
    | some f =>
      rw [← cmpFp_eq_maskFn v.x.vs3 (v.laneIn e) hf o hcmp]
      rfl
    | none =>
      rw [← cmpInt_eq_maskFn v.x.vs3 (v.laneIn e) hf o hcmp]
      rfl

/-! ### The front instruction on clean data -/

/-- What the front instruction `x` of the VX of tile `t` reads, the data being without errors. -/
def vxEnvOf (t : Nat) (x : EngIns) (s : State) : VxEnv :=
  let d := vxD x x.desc
  ⟨t, d, s, getV t (d.vs 1) s, bitAt x.cfg.toNat 0, []⟩

/-- Without bad data the result is the value. -/
theorem VxEnv.result_of_clean {v : VxEnv} (h : v.bad = []) (e : Nat) : v.result e = v.value e := by
  rw [VxEnv.result, h]
  rfl

theorem VxEnv.active_iff (v : VxEnv) (e : Nat) : v.active e = true ↔ v.x.opc = 0x27 ∨ v.maskBit e = true := by
  simp [VxEnv.active]

/-- But for VSEL, the mask decides which elements are active. -/
theorem VxEnv.active_iff_maskBit {v : VxEnv} (h : v.x.opc ≠ 0x27) (e : Nat) : v.active e = true ↔ v.maskBit e = true := by
  rw [VxEnv.active_iff, or_iff_right h]

/-- VSEL is no compare. -/
theorem ne_vsel_of_cmp {o : Nat} (h : vxIsCmp o = true) : o ≠ 0x27 := by
  rintro rfl
  cases h

section
variable {t : Nat} {x : EngIns} {s : State}

theorem vxEnvOf_result (e : Nat) : (vxEnvOf t x s).result e = (vxEnvOf t x s).value e := VxEnv.result_of_clean rfl e

/-- Registers and totals have no part in what an element works on and gives. -/
theorem vxEnvOf_regsOnly {s' : State} (h : RegsOnly s s') :
    (vxEnvOf t x s').active = (vxEnvOf t x s).active ∧ (vxEnvOf t x s').value = (vxEnvOf t x s).value := by
  obtain ⟨c, k, rfl⟩ := h
  exact ⟨rfl, rfl⟩

/-- The lane of a source of a register form. -/
theorem vxEnvOf_src_register (h : (vxD x x.desc).stream = false) (i e : Nat) : (vxEnvOf t x s).src i e = regLane t (vxD x x.desc) s i e := by
  simp only [VxEnv.src, vxEnvOf, regLane, h, Bool.false_eq_true, if_false]
  by_cases hi : i = 1
  · simp [hi]
  · simp [hi]

/-- The element of a source of a stream form. -/
theorem vxEnvOf_src_stream (h : (vxD x x.desc).stream = true) (hmove : vxIsMove (vxD x x.desc).opc = false) {i : Nat} (hi : i ≠ 0) (e : Nat) :
    (vxEnvOf t x s).src i e = streamLane t (vxD x x.desc) s i e := by
  simp [VxEnv.src, vxEnvOf, streamLane, VxD.elAddr, h, hmove, hi]

theorem vxEnvOf_maskBit_register (h : (vxD x x.desc).stream = false) (e : Nat) :
    (vxEnvOf t x s).maskBit e = bitAt (getM t (vxD x x.desc).mask s).toNat e := by
  simp [VxEnv.maskBit, vxEnvOf, h]

theorem vxEnvOf_maskBit_stream (h : (vxD x x.desc).stream = true) (e : Nat) : (vxEnvOf t x s).maskBit e = streamMask t (vxD x x.desc) s e :=
  if_pos h

theorem vxEnvOf_laneIn_register (h : (vxD x x.desc).stream = false) (e : Nat) : (vxEnvOf t x s).laneIn e = regIn t x s e := by
  simp only [VxEnv.laneIn, vxEnvOf_src_register h, vxEnvOf_maskBit_register h]
  rfl

theorem vxEnvOf_laneIn_stream (h : (vxD x x.desc).stream = true) (hmove : vxIsMove (vxD x x.desc).opc = false) (e : Nat) :
    (vxEnvOf t x s).laneIn e = streamIn t x s e := by
  simp only [VxEnv.laneIn, vxEnvOf_src_stream h hmove (by decide : (1 : Nat) ≠ 0), vxEnvOf_src_stream h hmove (by decide : (2 : Nat) ≠ 0),
    vxEnvOf_src_stream h hmove (by decide : (3 : Nat) ≠ 0), vxEnvOf_maskBit_stream h]
  rfl

end

/-! ### A run over the elements in which none traps -/

/-- The results of elements `l`, written one after another. -/
def vxWrites (v : VxEnv) (l : List Nat) (s : State) : State := l.foldl (fun s e => vxPut v.p v.x e (v.result e).1 s) s

theorem vxWrites_cons (v : VxEnv) (e : Nat) (l : List Nat) (s : State) :
    vxWrites v (e :: l) s = vxWrites v l (vxPut v.p v.x e (v.result e).1 s) := rfl

/-- A write of a result changes the VX's registers and tile SRAM only. -/
theorem vxPut_frame (p : Nat) (x : VxD) (e r : Nat) (s : State) :
    ∃ vr ms ts, vxPut p x e r s = { s with vregs := vr, masks := ms, tileSram := ts } := by
  have hset : ∀ n v, ∃ ms, setM p n v s = { s with masks := ms } := by
    intro n v
    rw [setM]
    split
    · exact ⟨s.masks, rfl⟩
    · exact ⟨_, rfl⟩
  unfold vxPut
  dsimp only
  split_ifs
  · exact ⟨_, _, _, rfl⟩
  · exact ⟨_, _, _, rfl⟩
  · exact ⟨_, _, _, rfl⟩
  · obtain ⟨ms, h⟩ := hset (x.vd % 8) (BitVec.ofNat 256 (putBits (getM p (x.vd % 8) s).toNat e 1 r))
    exact ⟨_, ms, _, h⟩
  · exact ⟨_, _, _, rfl⟩

theorem vxWrites_frame (v : VxEnv) : ∀ (l : List Nat) (s : State),
    ∃ vr ms ts, vxWrites v l s = { s with vregs := vr, masks := ms, tileSram := ts }
  | [], s => ⟨s.vregs, s.masks, s.tileSram, rfl⟩
  | e :: l, s => by
    obtain ⟨vr, ms, ts, hput⟩ := vxPut_frame v.p v.x e (v.result e).1 s
    obtain ⟨vr', ms', ts', hrest⟩ := vxWrites_frame v l (vxPut v.p v.x e (v.result e).1 s)
    exact ⟨vr', ms', ts', by rw [vxWrites_cons, hrest, hput]⟩

/-- With no trap enabled the active elements are written one after another, their flags are gathered, and nothing stops the run. -/
theorem vxGo_untrapped (v : VxEnv) (masked : Option Nat) : ∀ (l : List Nat) (a : VxAcc), a.stop = none →
    (vxGo v 0 masked l a).stop = none ∧ (vxGo v 0 masked l a).s = vxWrites v (l.filter v.active) a.s ∧
      ∀ i, bitAt (vxGo v 0 masked l a).flags i = true ↔ bitAt a.flags i = true ∨ ∃ e ∈ l, v.active e = true ∧ bitAt (v.result e).2 i = true
  | [], a, h => ⟨h, rfl, fun i => by simp [vxGo]⟩
  | e :: l, a, h => by
    rw [vxGo]
    by_cases he : v.active e = true
    · rw [if_pos he, if_neg (by simp), List.filter_cons_of_pos he]
      obtain ⟨hstop, hs, hflags⟩ := vxGo_untrapped v masked l ⟨vxPut v.p v.x e (v.result e).1 a.s, a.flags ||| (v.result e).2,
        a.pend ||| (v.result e).2, if vxCounts v.x (v.result e).1 (v.result e).2 then a.count + 1 else a.count,
        if vxCounts v.x (v.result e).1 (v.result e).2 then min a.first e else a.first, none⟩ rfl
      refine ⟨hstop, hs, fun i => ?_⟩
      rw [hflags i, bitAt_or]
      simp [he, or_assoc]
    · rw [if_neg he, List.filter_cons_of_neg he]
      obtain ⟨hstop, hs, hflags⟩ := vxGo_untrapped v masked l a h
      refine ⟨hstop, hs, fun i => ?_⟩
      rw [hflags i]
      simp [he]

/-- Nothing of an instruction but the results of its run changed. -/
abbrev SameInstruction (e y : EngIns) : Prop := y.sum = e.sum ∧ y.tag = e.tag

/-- With no trap enabled the run writes the active elements and leaves the instruction ready to complete. -/
theorem vxElems_untrapped {e : EngIns} (h : bitsAt e.cfg.toNat 1 4 = 0 ∨ vxIsMove (vxD e e.desc).opc = true) (p : Nat) (v1 : BitVec 2048)
    (masked : Option Nat) (bad l : List Nat) (s : State) :
    let v : VxEnv := ⟨p, vxD e e.desc, s, v1, bitAt e.cfg.toNat 0, bad⟩
    ∃ y, vxElems p v1 masked bad l e s = setHead (kVx p) y (vxWrites v (l.filter v.active) s) ∧ y.phase = 1 ∧ SameInstruction e y ∧
      ∀ i, bitAt y.flags i = true ↔ bitAt e.flags i = true ∨ ∃ j ∈ l, v.active j = true ∧ bitAt (v.result j).2 i = true := by
  intro v
  have htrap : (if vxIsMove (vxD e e.desc).opc then 0 else bitsAt e.cfg.toNat 1 4) = 0 := by
    rcases h with h | h
    · rw [h, ite_self]
    · rw [if_pos h]
  obtain ⟨hstop, hs, hflags⟩ := vxGo_untrapped v masked l ⟨s, e.flags, e.digest, e.count, e.first, none⟩ rfl
  unfold vxElems
  dsimp only
  rw [htrap, hstop]
  dsimp only
  rw [hs]
  exact ⟨_, rfl, rfl, ⟨rfl, rfl⟩, hflags⟩

end Sys2Proof.Machine
end

section
/-! PROOFS. The register forms of the VX: what the front instruction does on clean data, what a register holds after lanes are written into it, what a mask
holds after bits are, and the statement about the element-wise register forms (R98, R99, R101, R103, R104, R106 to R108, R128). -/

namespace Sys2Proof.Machine

open Sys2Proof.Claims

/-! ### The front instruction on clean data -/

/-- On clean data the front instruction of the opcode named runs as it stands: beside its elements or its reduction only corrected errors are counted. -/
theorem vxRun_clean {op t : Nat} {ecc : Ecc} {s : State} {x : EngIns} {rest : List EngIns} (hbad : ecc.bad = []) (hmarks : tileMarks t s = [])
    (hq : (getEng (kVx t) s).queue = x :: rest) (htrap : (getEng (kVx t) s).trap = none) (hphase : x.phase = 0) (hopc : (vxD x x.desc).opc = op) :
    let d := vxD x x.desc
    let s1 := bumpF (tileBase t) R.VX_CE_COUNT_COUNT ecc.corrected s
    let e := { x with ue := false, first := 0x1FFFFFF }
    vxRun op t ecc s = if vxIsRed op then vxReduce t [] e s1 else vxElems t (getV t (d.vs 1) s) none [] (List.range d.vl) e s1 := by
  have hruns : ¬ ((vxD x x.desc).opc ≠ op ∨ x.phase ≠ 0 ∨ (getEng (kVx t) s).trap.isSome) := by simp [hopc, hphase, htrap]
  intro d s1 e
  rw [vxRun, engHead_of_queue hq]
  dsimp only
  rw [if_neg hruns, hbad, hmarks]
  rfl

theorem opc_of_vxFront {t op : Nat} {x : EngIns} {s : State} (h : VxFront t op x s) : (vxD x x.desc).opc = op := by
  obtain ⟨-, -, -, hopc, -⟩ := h
  exact hopc

/-- The writing of results depends on the state it starts from, and not on the registers the sources were read beside. -/
theorem vxWrites_regsOnly {t : Nat} {x : EngIns} {s s' : State} (h : RegsOnly s s') : vxWrites (vxEnvOf t x s') = vxWrites (vxEnvOf t x s) := by
  funext l u
  simp only [vxWrites, vxEnvOf_result, (vxEnvOf_regsOnly h).2]
  rfl

theorem vxRan_congr {t : Nat} {x : EngIns} {a b : Nat → Prop} {f g : Nat → Nat} {s u : State} (h : VxRan t x a f s u) (hab : ∀ e, a e ↔ b e)
    (hfg : ∀ e, f e = g e) : VxRan t x b g s u := by
  rwa [funext fun e => propext (hab e), funext hfg] at h

/-- The elements of `x` that are active, in ascending order. -/
def vxActive (t : Nat) (x : EngIns) (s : State) : List Nat := (List.range (vxD x x.desc).vl).filter (vxEnvOf t x s).active

theorem mem_vxActive {t : Nat} {x : EngIns} {s : State} {e : Nat} :
    e ∈ vxActive t x s ↔ e < (vxD x x.desc).vl ∧ (vxEnvOf t x s).active e = true := by
  rw [vxActive, List.mem_filter, List.mem_range]

/-- The registers and masks of the VXs and tile SRAM are the same. -/
structure SameVx (s t : State) : Prop where
  vregs : t.vregs = s.vregs
  masks : t.masks = s.masks
  tileSram : t.tileSram = s.tileSram

section
variable {s t : State} (h : SameVx s t)
include h

theorem SameVx.getV_eq (q n : Nat) : getV q n t = getV q n s := by rw [getV, getV, h.vregs]

theorem SameVx.getM_eq (q n : Nat) : getM q n t = getM q n s := by rw [getM, getM, h.masks]

theorem SameVx.sramByte_eq (y : Nat) : sramByte y t = sramByte y s := by rw [sramByte, sramByte, h.tileSram]

end

theorem sameVx_regsOnly {s t : State} (h : RegsOnly s t) : SameVx s t := by
  obtain ⟨c, k, rfl⟩ := h
  exact ⟨rfl, rfl, rfl⟩

theorem sameVx_setHead (k : Nat) (y : EngIns) (s : State) : SameVx s (setHead k y s) := ⟨rfl, rfl, rfl⟩

/-- With no trap enabled and on clean data, the front instruction writes its active elements and is ready to complete. -/
theorem vxRun_untrapped {op t : Nat} {ecc : Ecc} {s : State} {x : EngIns} (hbad : ecc.bad = []) (hfront : VxFront t op x s) (hred : vxIsRed op = false) :
    let v := vxEnvOf t x s
    ∃ s1, SameVx s s1 ∧ SameVx (vxWrites v (vxActive t x s) s1) (vxRun op t ecc s) ∧
      VxRan t x (fun e => v.active e = true) (fun e => (v.value e).2) s (vxRun op t ecc s) := by
  obtain ⟨⟨rest, hq⟩, htrap, hphase, hopc, hoff, hmarks⟩ := hfront
  intro v
  have hregs : RegsOnly s (bumpF (tileBase t) R.VX_CE_COUNT_COUNT ecc.corrected s) := (RegsOnly.refl s).bumpF ..
  have hclean := vxRun_clean hbad hmarks hq htrap hphase hopc
  dsimp only at hclean
  rw [if_neg (by simp [hred])] at hclean
  obtain ⟨y, hrun, hy, ⟨hsum, htag⟩, hflags⟩ := vxElems_untrapped (e := { x with ue := false, first := 0x1FFFFFF }) (.inl hoff) t
    (getV t ((vxD x x.desc).vs 1) s) none [] (List.range (vxD x x.desc).vl) (bumpF (tileBase t) R.VX_CE_COUNT_COUNT ecc.corrected s)
  change _ = setHead (kVx t) y (vxWrites (vxEnvOf t x _) (vxActive t x _) _) at hrun
  change ∀ i, _ ↔ _ ∨ ∃ j ∈ _, (vxEnvOf t x _).active j = true ∧ bitAt ((vxEnvOf t x _).result j).2 i = true at hflags
  rw [vxWrites_regsOnly hregs, vxActive, (vxEnvOf_regsOnly hregs).1, ← vxActive] at hrun
  simp only [vxEnvOf_result, (vxEnvOf_regsOnly hregs).2, (vxEnvOf_regsOnly hregs).1, List.mem_range] at hflags
  obtain ⟨vr, ms, ts, hframe⟩ := vxWrites_frame v (vxActive t x s) (bumpF (tileBase t) R.VX_CE_COUNT_COUNT ecc.corrected s)
  rw [hclean, hrun]
  refine ⟨_, sameVx_regsOnly hregs, sameVx_setHead .., y, ?_, hy, hsum, htag, fun i _ => hflags i, fun j hj => ?_, ?_⟩
  · rw [getEng_setHead, if_pos rfl, hframe]
    rfl
  · rw [getEng_setHead, if_neg hj, hframe]
    rfl
  · rw [hframe]
    exact ⟨rfl, rfl, rfl⟩

/-! ### Lanes of a register -/

/-- Two lanes of one width lie beside each other. -/
theorem lanes_beside {i j : Nat} (w : Nat) (h : i ≠ j) : i * w + w ≤ j * w ∨ j * w + w ≤ i * w := by
  rw [← Nat.succ_mul, ← Nat.succ_mul]
  rcases Nat.lt_or_gt_of_ne h with h | h
  · exact .inl (Nat.mul_le_mul_right w h)
  · exact .inr (Nat.mul_le_mul_right w h)

/-- A field put into a word that holds it is not cut off. -/
theorem toNat_ofNat_putBits {m lo w : Nat} (v : BitVec m) (x : Nat) (h : lo + w ≤ m) :
    (BitVec.ofNat m (putBits v.toNat lo w x)).toNat = putBits v.toNat lo w x := by
  rw [BitVec.toNat_ofNat, Nat.mod_eq_of_lt (putBits_lt _ _ _ _ _ v.isLt h)]

theorem VxD.vd_lt (x : VxD) : x.vd < 32 := Nat.mod_lt _ (by decide)

section
variable {v : VxEnv} (hstore : vxIsStore v.x.opc = false) (hstream : v.x.stream = false) (hcmp : vxIsCmp v.x.opc = false)
include hstore hstream hcmp

theorem vxPut_lane (e r : Nat) (s : State) :
    vxPut v.p v.x e r s = setV v.p v.x.vd (BitVec.ofNat 2048 (putBits (getV v.p v.x.vd s).toNat (e * v.x.wd) v.x.wd r)) s := by
  simp [vxPut, hstore, hstream, hcmp]

/-- The destination register after one lane is written. -/
theorem toNat_getV_vxPut {e : Nat} (hfit : e * v.x.wd + v.x.wd ≤ 2048) (r : Nat) (s : State) :
    (getV v.p v.x.vd (vxPut v.p v.x e r s)).toNat = putBits (getV v.p v.x.vd s).toNat (e * v.x.wd) v.x.wd r := by
  rw [vxPut_lane hstore hstream hcmp, getV_setV _ _ _ _ v.x.vd_lt v.x.vd_lt, if_pos ⟨rfl, rfl⟩, toNat_ofNat_putBits _ _ hfit]

/-- A lane of the destination register holds its result where it was written, and else what it held. -/
theorem bitsAt_getV_vxWrites (j : Nat) : ∀ (l : List Nat) (s : State), (∀ e ∈ l, e * v.x.wd + v.x.wd ≤ 2048) →
    bitsAt (getV v.p v.x.vd (vxWrites v l s)).toNat (j * v.x.wd) v.x.wd =
      if j ∈ l then (v.result j).1 % 2 ^ v.x.wd else bitsAt (getV v.p v.x.vd s).toNat (j * v.x.wd) v.x.wd
  | [], s, _ => rfl
  | e :: l, s, hfit => by
    obtain ⟨he, hl⟩ := List.forall_mem_cons.1 hfit
    rw [vxWrites_cons, bitsAt_getV_vxWrites j l _ hl, toNat_getV_vxPut hstore hstream hcmp he]
    by_cases hjl : j ∈ l
    · rw [if_pos hjl, if_pos (List.mem_cons_of_mem e hjl)]
    · rw [if_neg hjl]
      by_cases hje : j = e
      · rw [hje, bitsAt_putBits, if_pos List.mem_cons_self]
      · rw [bitsAt_putBits_outside _ _ (lanes_beside v.x.wd hje), if_neg (by simp [hje, hjl])]

/-- Writing lanes changes one register. -/
theorem getV_vxWrites_other {q n : Nat} (hn : n < 32) (hne : ¬ (q = v.p ∧ n = v.x.vd)) : ∀ (l : List Nat) (s : State),
    getV q n (vxWrites v l s) = getV q n s
  | [], _ => rfl
  | e :: l, s => by
    rw [vxWrites_cons, getV_vxWrites_other hn hne l, vxPut_lane hstore hstream hcmp, getV_setV _ _ _ _ v.x.vd_lt hn, if_neg hne]

theorem vxWrites_lanes_frame : ∀ (l : List Nat) (s : State), (vxWrites v l s).masks = s.masks ∧ (vxWrites v l s).tileSram = s.tileSram
  | [], _ => ⟨rfl, rfl⟩
  | e :: l, s => by
    obtain ⟨hmasks, hsram⟩ := vxWrites_lanes_frame l (vxPut v.p v.x e (v.result e).1 s)
    rw [vxWrites_cons, hmasks, hsram, vxPut_lane hstore hstream hcmp]
    exact ⟨rfl, rfl⟩
end

/-- Lanes that an instruction numbers fit the register with all of them. -/
theorem lane_fits {vl w e : Nat} (hfit : vl * w ≤ 2048) (he : e < vl) : e * w + w ≤ 2048 := by
  rw [← Nat.succ_mul]
  exact (Nat.mul_le_mul_right w he).trans hfit

/-- A register form that writes lanes leaves each active element's value in its lane, and nothing else of registers, masks and tile SRAM changed. -/
theorem lanesRan_vxRun {op t : Nat} {ecc : Ecc} {s : State} {x : EngIns} (hbad : ecc.bad = []) (hfront : VxFront t op x s) (hred : vxIsRed op = false)
    (hstore : vxIsStore op = false) (hcmp : vxIsCmp op = false) (hstream : (vxD x x.desc).stream = false)
    (hfit : (vxD x x.desc).vl * (vxD x x.desc).wd ≤ 2048) {r : Nat → Nat × Nat} (hr : ∀ e, (vxEnvOf t x s).value e = r e) :
    LanesRan t x r s (vxRun op t ecc s) := by
  have hopc : (vxEnvOf t x s).x.opc = op := opc_of_vxFront hfront
  rw [← hopc] at hstore hcmp
  have hactive : ∀ e, (vxEnvOf t x s).active e = true ↔ (vxD x x.desc).opc = 0x27 ∨ bitAt (getM t (vxD x x.desc).mask s).toNat e = true := by
    intro e
    rw [VxEnv.active_iff, vxEnvOf_maskBit_register hstream]
    rfl
  obtain ⟨s1, hstart, hend, hran⟩ := vxRun_untrapped hbad hfront hred
  have hlanes := fun j => bitsAt_getV_vxWrites (v := vxEnvOf t x s) hstore hstream hcmp j (vxActive t x s) s1
    fun e he => lane_fits hfit (mem_vxActive.1 he).1
  have hother := fun q n hn hne => getV_vxWrites_other (v := vxEnvOf t x s) (q := q) (n := n) hstore hstream hcmp hn hne (vxActive t x s) s1
  obtain ⟨hmasks, hsram⟩ := vxWrites_lanes_frame (v := vxEnvOf t x s) hstore hstream hcmp (vxActive t x s) s1
  rw [hstart.masks, ← hend.masks] at hmasks
  rw [hstart.tileSram, ← hend.tileSram] at hsram
  refine ⟨vxRan_congr hran hactive fun e => congrArg Prod.snd (hr e), hmasks, hsram, fun e he hact => ?_, fun e hout => ?_, fun q n _ hn hne => ?_⟩
  · have hlane := hlanes e
    rw [if_pos (mem_vxActive.2 ⟨he, (hactive e).2 hact⟩), vxEnvOf_result, hr] at hlane
    rw [hend.getV_eq]
    exact hlane
  · have hlane := hlanes e
    rw [if_neg (by rw [mem_vxActive, hactive]; exact hout), hstart.getV_eq] at hlane
    rw [hend.getV_eq]
    exact hlane
  · rw [hend.getV_eq, hother q n hn hne, hstart.getV_eq]

/-! ### Bits of a mask -/

theorem bitAt_putBits (v i r j : Nat) : bitAt (putBits v i 1 r) j = if j = i then bitAt r 0 else bitAt v j := by
  rw [bitAt_eq_testBit, bitAt_eq_testBit, bitAt_eq_testBit, testBit_putBits]
  by_cases h : j = i
  · rw [if_pos (by omega), if_pos h, h, Nat.sub_self]
  · rw [if_neg (by omega), if_neg h]

section
variable {v : VxEnv} (hstore : vxIsStore v.x.opc = false) (hstream : v.x.stream = false) (hcmp : vxIsCmp v.x.opc = true)
include hstore hstream hcmp

theorem vxPut_bit (e r : Nat) (s : State) :
    vxPut v.p v.x e r s = setM v.p (v.x.vd % 8) (BitVec.ofNat 256 (putBits (getM v.p (v.x.vd % 8) s).toNat e 1 r)) s := by
  simp [vxPut, hstore, hstream, hcmp]

/-- A bit of the destination mask holds its result where it was written, and else what it held. -/
theorem bitAt_getM_vxWrites (hm : v.x.vd % 8 ≠ 0) (j : Nat) : ∀ (l : List Nat) (s : State), (∀ e ∈ l, e < 256) →
    bitAt (getM v.p (v.x.vd % 8) (vxWrites v l s)).toNat j =
      if j ∈ l then bitAt (v.result j).1 0 else bitAt (getM v.p (v.x.vd % 8) s).toNat j
  | [], s, _ => rfl
  | e :: l, s, hfit => by
    obtain ⟨he, hl⟩ := List.forall_mem_cons.1 hfit
    have hm8 : v.x.vd % 8 < 8 := Nat.mod_lt _ (by decide)
    have hput : (getM v.p (v.x.vd % 8) (vxPut v.p v.x e (v.result e).1 s)).toNat = putBits (getM v.p (v.x.vd % 8) s).toNat e 1 (v.result e).1 := by
      rw [vxPut_bit hstore hstream hcmp, getM_setM _ _ _ _ (Nat.pos_of_ne_zero hm) hm8 hm8, if_pos ⟨rfl, rfl⟩,
        toNat_ofNat_putBits _ _ (by omega)]
    rw [vxWrites_cons, bitAt_getM_vxWrites hm j l _ hl, hput, bitAt_putBits]
    by_cases hjl : j ∈ l
    · rw [if_pos hjl, if_pos (List.mem_cons_of_mem e hjl)]
    · rw [if_neg hjl]
      by_cases hje : j = e
      · rw [if_pos hje, hje, if_pos List.mem_cons_self]
      · rw [if_neg hje, if_neg (by simp [hje, hjl])]

/-- Writing mask bits changes one mask. -/
theorem getM_vxWrites_other {q n : Nat} (hn : n < 8) (hne : ¬ (q = v.p ∧ n = v.x.vd % 8)) : ∀ (l : List Nat) (s : State),
    getM q n (vxWrites v l s) = getM q n s
  | [], _ => rfl
  | e :: l, s => by
    rw [vxWrites_cons, getM_vxWrites_other hn hne l, vxPut_bit hstore hstream hcmp, getM_setM_other _ _ (Nat.mod_lt _ (by decide)) hn hne]

theorem vxWrites_bits_frame : ∀ (l : List Nat) (s : State), (vxWrites v l s).vregs = s.vregs ∧ (vxWrites v l s).tileSram = s.tileSram
  | [], _ => ⟨rfl, rfl⟩
  | e :: l, s => by
    obtain ⟨hvregs, hsram⟩ := vxWrites_bits_frame l (vxPut v.p v.x e (v.result e).1 s)
    rw [vxWrites_cons, hvregs, hsram, vxPut_bit hstore hstream hcmp, setM]
    split <;> exact ⟨rfl, rfl⟩
end

/-- A register form has at most 256 elements (R101). -/
theorem vl_le_of_register {d : VxD} (h : d.stream = false) : d.vl ≤ 256 := by
  have hlt : bitsAt d.op 38 8 < 2 ^ 8 := Nat.mod_lt _ (by decide)
  rw [VxD.vl, h, if_neg Bool.false_ne_true]
  omega

/-- A register form that writes mask bits leaves each active element's bit in m[VD mod 8], and nothing else of registers, masks and tile SRAM changed. -/
theorem bitsRan_vxRun {op t : Nat} {ecc : Ecc} {s : State} {x : EngIns} (hbad : ecc.bad = []) (hfront : VxFront t op x s) (hred : vxIsRed op = false)
    (hstore : vxIsStore op = false) (hcmp : vxIsCmp op = true) (hstream : (vxD x x.desc).stream = false) {r : Nat → Bool × Nat}
    (hr : ∀ e, (vxEnvOf t x s).value e = (b2n (r e).1, (r e).2)) : BitsRan t x r s (vxRun op t ecc s) := by
  have hopc : (vxEnvOf t x s).x.opc = op := opc_of_vxFront hfront
  rw [← hopc] at hstore hcmp
  have hactive : ∀ e, (vxEnvOf t x s).active e = true ↔ bitAt (getM t (vxD x x.desc).mask s).toNat e = true := by
    intro e
    rw [VxEnv.active_iff_maskBit (ne_vsel_of_cmp hcmp), vxEnvOf_maskBit_register hstream]
  obtain ⟨s1, hstart, hend, hran⟩ := vxRun_untrapped hbad hfront hred
  have hbits := fun hm j => bitAt_getM_vxWrites (v := vxEnvOf t x s) hstore hstream hcmp hm j (vxActive t x s) s1
    fun e he => (mem_vxActive.1 he).1.trans_le (vl_le_of_register hstream)
  have hother := fun q n hn hne => getM_vxWrites_other (v := vxEnvOf t x s) (q := q) (n := n) hstore hstream hcmp hn hne (vxActive t x s) s1
  obtain ⟨hvregs, hsram⟩ := vxWrites_bits_frame (v := vxEnvOf t x s) hstore hstream hcmp (vxActive t x s) s1
  rw [hstart.vregs, ← hend.vregs] at hvregs
  rw [hstart.tileSram, ← hend.tileSram] at hsram
  refine ⟨vxRan_congr hran hactive fun e => congrArg Prod.snd (hr e), hvregs, hsram, fun hm e => ?_, fun q n _ hn hne => ?_⟩
  · have hbit := hbits hm e
    simp only [mem_vxActive, hactive, vxEnvOf_result, hr, bitAt_b2n, hstart.getM_eq] at hbit
    rw [hend.getM_eq]
    exact hbit
  · rw [hend.getM_eq, hother q n hn hne, hstart.getM_eq]

/-! ### The statement -/

/-- The commands of the lane forms run their opcodes. -/
theorem exec_laneForms (t : Fin 288) (ecc : Ecc) (s : State) : ∀ f ∈ vxLaneForms t ecc, exec f.1 s = .next (vxRun f.2 t ecc s) := by
  simp only [vxLaneForms, List.forall_mem_cons, List.not_mem_nil, false_imp_iff, implies_true, and_true]
  and_intros <;> rfl

theorem laneForms_opcode {t : Fin 288} {ecc : Ecc} {f : Instr × Nat} (hf : f ∈ vxLaneForms t ecc) : f.2 ∈ laneOpcodes :=
  List.mem_map_of_mem (f := Prod.snd) hf

/-- The commands of the mask forms run their opcodes. -/
theorem exec_maskForms (t : Fin 288) (ecc : Ecc) (s : State) : ∀ f ∈ vxMaskForms t ecc, exec f.1 s = .next (vxRun f.2 t ecc s) := by
  simp only [vxMaskForms, List.forall_mem_cons, List.not_mem_nil, false_imp_iff, implies_true, and_true]
  and_intros <;> rfl

theorem maskForms_opcode {t : Fin 288} {ecc : Ecc} {f : Instr × Nat} (hf : f ∈ vxMaskForms t ecc) : f.2 ∈ maskOpcodes :=
  List.mem_map_of_mem (f := Prod.snd) hf

/-- The lane forms are no reductions, no stores and no compares. -/
theorem laneOpcodes_class : ∀ o ∈ laneOpcodes, vxIsRed o = false ∧ vxIsStore o = false ∧ vxIsCmp o = false := by decide

/-- The mask forms are compares (VCLASS among them), and no moves. -/
theorem maskOpcodes_class : ∀ o ∈ maskOpcodes, vxIsRed o = false ∧ vxIsStore o = false ∧ vxIsCmp o = true ∧ vxIsMove o = false := by decide

/-- Settles O29: each element's value is the table's function of the lanes it works on; the active ones are written into lanes or bits apart from one
another, so each keeps its own. -/
theorem vectorRegisterFormsByLane : Obligations.VectorRegisterFormsByLane := by
  intro t ecc s x hbad d at_ lanes bits hstream hfit
  have hlanes : ∀ f ∈ vxLaneForms t ecc, at_ f.2 → ∃ u, Runs f.1 s u ∧ lanes f.2 u := by
    intro f hf hfront
    have hmem := laneForms_opcode hf
    obtain ⟨hred, hstore, hcmp⟩ := laneOpcodes_class f.2 hmem
    refine ⟨_, exec_laneForms t ecc s f hf, lanesRan_vxRun hbad hfront hred hstore hcmp hstream hfit fun e => ?_⟩
    rw [VxEnv.value_lane _ e (opc_of_vxFront hfront) hmem, vxEnvOf_laneIn_register hstream]
  have hbits : ∀ f ∈ vxMaskForms t ecc, at_ f.2 → ∃ u, Runs f.1 s u ∧ bits f.2 u := by
    intro f hf hfront
    have hmem := maskForms_opcode hf
    obtain ⟨hred, hstore, hcmp, -⟩ := maskOpcodes_class f.2 hmem
    refine ⟨_, exec_maskForms t ecc s f hf, bitsRan_vxRun hbad hfront hred hstore hcmp hstream fun e => ?_⟩
    rw [VxEnv.value_mask _ e (opc_of_vxFront hfront) hmem, vxEnvOf_laneIn_register hstream]
    rfl
  simpa only [vxLaneForms, vxMaskForms, List.forall_mem_cons, List.not_mem_nil, false_imp_iff, implies_true, and_true, and_assoc] using
    And.intro hlanes hbits

end Sys2Proof.Machine
end

section
/-! PROOFS. The data movements of the VX: what element-wise writes of tile SRAM store and leave alone, and the statement about VBCAST, VPERM, the slides,
loads and stores (R99, R101, R103, R104). -/

namespace Sys2Proof.Machine

open Sys2Proof.Claims

/-! ### Elements in tile SRAM -/

/-- Elements of `n` bytes, a stride of whole elements apart, share no byte. -/
theorem strided_apart {b k : Int} {n i j : Nat} (hk : k ≠ 0) (hij : i ≠ j) (hi : 0 ≤ b + i * k * (n : Int)) (hj : 0 ≤ b + j * k * (n : Int)) :
    (b + i * k * (n : Int)).toNat + n ≤ (b + j * k * (n : Int)).toNat ∨ (b + j * k * (n : Int)).toNat + n ≤ (b + i * k * (n : Int)).toNat := by
  have hsteps : ((j : Int) - i) * k ≠ 0 := mul_ne_zero (by omega) hk
  have hdiff : b + j * k * (n : Int) - (b + i * k * (n : Int)) = ((j : Int) - i) * k * n := by ring
  rcases Int.lt_or_gt_of_ne hsteps with h | h
  · have := Int.mul_le_mul_of_nonneg_right (show ((j : Int) - i) * k ≤ -1 by omega) (Int.natCast_nonneg n)
    omega
  · have := Int.mul_le_mul_of_nonneg_right (show 1 ≤ ((j : Int) - i) * k by omega) (Int.natCast_nonneg n)
    omega

theorem tileAddr_add (p a i : Nat) : tileAddr p (a + i) = tileAddr p a + i := (Nat.add_assoc ..).symm

theorem sramByte_tileWriteN_inside (p a n v : Nat) (s : State) {i : Nat} (hi : i < n) :
    sramByte (tileAddr p a + i) (tileWriteN p a n v s) = BitVec.ofNat 8 (v / 256 ^ i) := memRead_memWriteN_inside _ _ _ _ _ _ hi

theorem sramByte_tileWriteN_outside (p a n v : Nat) (s : State) {y : Nat} (hy : ¬ (tileAddr p a ≤ y ∧ y < tileAddr p a + n)) :
    sramByte y (tileWriteN p a n v s) = sramByte y s := memRead_memWriteN_outside _ _ _ _ _ _ (by omega)

section
variable {v : VxEnv} {n : Nat} (hput : ∀ e r s, vxPut v.p v.x e r s = tileWriteN v.p (v.x.elAddr 0 e).toNat n r s)
include hput

theorem sramByte_vxWrites_outside {y : Nat} : ∀ (l : List Nat) (s : State),
    (∀ e ∈ l, ¬ (tileAddr v.p (v.x.elAddr 0 e).toNat ≤ y ∧ y < tileAddr v.p (v.x.elAddr 0 e).toNat + n)) → sramByte y (vxWrites v l s) = sramByte y s
  | [], _, _ => rfl
  | e :: l, s, h => by
    obtain ⟨he, hl⟩ := List.forall_mem_cons.1 h
    rw [vxWrites_cons, sramByte_vxWrites_outside l _ hl, hput, sramByte_tileWriteN_outside _ _ _ _ _ he]

/-- With the elements apart, each byte of an element written is that of its result: no later element covers it. -/
theorem sramByte_vxWrites_element {e i : Nat} (hi : i < n) : ∀ (l : List Nat) (s : State), e ∈ l →
    (∀ j ∈ l, e ≠ j → (v.x.elAddr 0 e).toNat + n ≤ (v.x.elAddr 0 j).toNat ∨ (v.x.elAddr 0 j).toNat + n ≤ (v.x.elAddr 0 e).toNat) →
    sramByte (tileAddr v.p ((v.x.elAddr 0 e).toNat + i)) (vxWrites v l s) = BitVec.ofNat 8 ((v.result e).1 / 256 ^ i)
  | [], _, he, _ => absurd he List.not_mem_nil
  | j :: l, s, he, hapart => by
    rw [vxWrites_cons]
    obtain ⟨-, hl⟩ := List.forall_mem_cons.1 hapart
    by_cases hel : e ∈ l
    · exact sramByte_vxWrites_element hi l _ hel hl
    · obtain rfl : e = j := (List.mem_cons.1 he).resolve_right hel
      have hlater : ∀ j ∈ l, ¬ (tileAddr v.p (v.x.elAddr 0 j).toNat ≤ tileAddr v.p ((v.x.elAddr 0 e).toNat + i) ∧
          tileAddr v.p ((v.x.elAddr 0 e).toNat + i) < tileAddr v.p (v.x.elAddr 0 j).toNat + n) := by
        intro j hj
        have := hl j hj (ne_of_mem_of_not_mem hj hel).symm
        unfold tileAddr
        omega
      rw [sramByte_vxWrites_outside hput l _ hlater, hput, tileAddr_add]
      exact sramByte_tileWriteN_inside _ _ _ _ _ hi

theorem vxWrites_elements_frame : ∀ (l : List Nat) (s : State), (vxWrites v l s).vregs = s.vregs ∧ (vxWrites v l s).masks = s.masks
  | [], _ => ⟨rfl, rfl⟩
  | e :: l, s => by
    obtain ⟨hvregs, hmasks⟩ := vxWrites_elements_frame l (vxPut v.p v.x e (v.result e).1 s)
    rw [vxWrites_cons, hvregs, hmasks, hput]
    exact ⟨tileWriteN_vregs .., tileWriteN_masks ..⟩
end

/-- What a form that writes elements of `n` bytes at addresses `a` into tile SRAM does, the result of element `e` being `r e`: each active element holds its
result, no other byte, no register and no mask changes, and the instruction is ready to complete. -/
def ElementsRan (t : Nat) (x : EngIns) (n : Nat) (a : Nat → Int) (active : Nat → Prop) (r : Nat → Nat × Nat) (s u : State) : Prop :=
  VxRan t x active (fun e => (r e).2) s u ∧ u.masks = s.masks ∧ u.vregs = s.vregs ∧
    (∀ e i, e < (vxD x x.desc).vl → active e → i < n → sramByte (tileAddr t ((a e).toNat + i)) u = BitVec.ofNat 8 ((r e).1 / 256 ^ i)) ∧
    (∀ y, (∀ e, e < (vxD x x.desc).vl → active e → ¬ (tileAddr t (a e).toNat ≤ y ∧ y < tileAddr t (a e).toNat + n)) → sramByte y u = sramByte y s)

/-- A form that writes elements into tile SRAM, the addresses not negative and a stride of whole elements apart, leaves each active element's value there. -/
theorem elementsRan_vxRun {op t n : Nat} {ecc : Ecc} {s : State} {x : EngIns} (hbad : ecc.bad = []) (hfront : VxFront t op x s) (hred : vxIsRed op = false)
    (hput : ∀ e r s, vxPut t (vxD x x.desc) e r s = tileWriteN t ((vxD x x.desc).elAddr 0 e).toNat n r s) {b k : Int}
    (haddr : ∀ e, (vxD x x.desc).elAddr 0 e = b + e * k * (n : Int)) (hk : k ≠ 0) (habove : ∀ e, e < (vxD x x.desc).vl → 0 ≤ b + e * k * (n : Int))
    {active : Nat → Prop} (hactive : ∀ e, (vxEnvOf t x s).active e = true ↔ active e) {r : Nat → Nat × Nat} (hr : ∀ e, (vxEnvOf t x s).value e = r e) :
    ElementsRan t x n (fun e => b + e * k * (n : Int)) active r s (vxRun op t ecc s) := by
  obtain ⟨s1, hstart, hend, hran⟩ := vxRun_untrapped hbad hfront hred
  have hput' : ∀ e r u, vxPut (vxEnvOf t x s).p (vxEnvOf t x s).x e r u =
      tileWriteN (vxEnvOf t x s).p ((vxEnvOf t x s).x.elAddr 0 e).toNat n r u := hput
  have haddr' : ∀ e, (vxEnvOf t x s).x.elAddr 0 e = b + e * k * (n : Int) := haddr
  have hinside := fun e i hi he => sramByte_vxWrites_element (e := e) (i := i) hput' hi (vxActive t x s) s1 he
  have houtside := fun y => sramByte_vxWrites_outside (y := y) hput' (vxActive t x s) s1
  simp only [haddr'] at hinside houtside
  obtain ⟨hvregs, hmasks⟩ := vxWrites_elements_frame hput' (vxActive t x s) s1
  rw [hstart.vregs, ← hend.vregs] at hvregs
  rw [hstart.masks, ← hend.masks] at hmasks
  refine ⟨vxRan_congr hran hactive fun e => congrArg Prod.snd (hr e), hmasks, hvregs, fun e i he hact hi => ?_, fun y hy => ?_⟩
  · have hmem : e ∈ vxActive t x s := mem_vxActive.2 ⟨he, (hactive e).2 hact⟩
    have hbyte := hinside e i hi hmem fun j hj hne => strided_apart hk hne (habove e he) (habove j (mem_vxActive.1 hj).1)
    rw [vxEnvOf_result, hr] at hbyte
    exact (hend.sramByte_eq _).trans hbyte
  · rw [hend.sramByte_eq, houtside y fun e he => hy e (mem_vxActive.1 he).1 ((hactive e).1 (mem_vxActive.1 he).2), hstart.sramByte_eq]

/-! ### The statement -/

section
variable {t : Nat} {x : EngIns} {s : State} {o : Nat} (hstream : (vxD x x.desc).stream = false) (hopc : (vxD x x.desc).opc = o)
include hopc

/-- Loads, stores and moves name one format, and their lanes have its width (R99, R103). -/
theorem widths_of_move (ho : vxIsMove o = true) : (vxD x x.desc).ws = codeBits (vxD x x.desc).fmt ∧ (vxD x x.desc).wd = (vxD x x.desc).ws := by
  have hcvt : (vxD x x.desc).opc ≠ 0x30 := by rintro h; rw [← hopc, h] at ho; cases ho
  have hnarrow : ¬ ((vxD x x.desc).opc = 0x55 ∨ (vxD x x.desc).opc = 0x5B) := by
    rintro (h | h) <;> (rw [← hopc, h] at ho; cases ho)
  have hws : (vxD x x.desc).ws = codeBits (vxD x x.desc).fmt := by rw [VxD.ws, VxD.srcFmt, if_neg hcvt]
  exact ⟨hws, by rw [VxD.wd, if_neg hnarrow, hws]⟩

/-- Where element `e` of a load or store lies (R103). -/
theorem elAddr_of_move (ho : vxIsMove o = true) (i e : Nat) :
    (vxD x x.desc).elAddr i e = ((vxD x x.desc).scalar : Int) + e * (if o ≥ 0x72 then signed 64 (vxD x x.desc).stride else 1) *
      (((vxD x x.desc).ws / 8 : Nat) : Int) := by
  rw [VxD.elAddr, hopc, if_pos ho]

include hstream

/-- The value of a data movement that writes a register. -/
theorem vxEnvOf_value_move (ho : o ∈ [0x70, 0x72, 0x74, 0x75, 0x76, 0x77]) (e : Nat) :
    (vxEnvOf t x s).value e = (moveFn t (vxD x x.desc) s o e, 0) := by
  have hopc' : (vxEnvOf t x s).x.opc = o := hopc
  rw [VxEnv.value, hopc']
  simp only [vxEnvOf_src_register hstream]
  simp only [List.mem_cons, List.not_mem_nil, or_false] at ho
  rcases ho with rfl | rfl | rfl | rfl | rfl | rfl
  · change (tileReadN t ((vxD x x.desc).elAddr 0 e).toNat _ s, 0) = _
    rw [elAddr_of_move hopc rfl]
    rfl
  · change (tileReadN t ((vxD x x.desc).elAddr 0 e).toNat _ s, 0) = _
    rw [elAddr_of_move hopc rfl]
    rfl
  · rfl
  · rfl
  · rfl
  · rfl

/-- The value of a store is its source lane. -/
theorem vxEnvOf_value_store (ho : vxIsStore o = true) (e : Nat) : (vxEnvOf t x s).value e = (regLane t (vxD x x.desc) s 1 e, 0) := by
  have hopc' : (vxEnvOf t x s).x.opc = o := hopc
  have hcase : o = 0x71 ∨ o = 0x73 := by simpa [vxIsStore] using ho
  rw [VxEnv.value, hopc']
  simp only [vxEnvOf_src_register hstream]
  rcases hcase with rfl | rfl <;> rfl

end

/-- A store leaves the active lanes of VS1 in tile SRAM. -/
theorem lanesStored_vxRun {op t : Nat} {ecc : Ecc} {s : State} {x : EngIns} {k : Int} (hbad : ecc.bad = []) (hfront : VxFront t op x s)
    (hstore : vxIsStore op = true) (hstream : (vxD x x.desc).stream = false)
    (hstride : (if op ≥ 0x72 then signed 64 (vxD x x.desc).stride else 1) = k) (hk : k ≠ 0)
    (habove : ∀ e, e < (vxD x x.desc).vl → 0 ≤ ((vxD x x.desc).scalar : Int) + e * k * (((vxD x x.desc).ws / 8 : Nat) : Int)) :
    LanesStored t x k s (vxRun op t ecc s) := by
  have hopc : (vxD x x.desc).opc = op := opc_of_vxFront hfront
  have hcase : op = 0x71 ∨ op = 0x73 := by simpa [vxIsStore] using hstore
  have hclass : vxIsRed op = false ∧ vxIsMove op = true ∧ op ≠ 0x27 := by
    rcases hcase with rfl | rfl <;> decide
  obtain ⟨hred, hmove, hsel⟩ := hclass
  have hactive : ∀ e, (vxEnvOf t x s).active e = true ↔ bitAt (getM t (vxD x x.desc).mask s).toNat e = true := by
    intro e
    rw [VxEnv.active_iff_maskBit (hopc.trans_ne hsel), vxEnvOf_maskBit_register hstream]
  exact elementsRan_vxRun hbad hfront hred (fun e r s => if_pos (by rw [hopc, hstore]))
    (fun e => by rw [elAddr_of_move hopc hmove, hstride]) hk habove hactive (vxEnvOf_value_store hstream hopc hstore)

/-- Settles O30: a movement into a register writes lanes as the element-wise forms do; a store writes elements of tile SRAM that lie apart. -/
theorem vectorMovesByLane : Obligations.VectorMovesByLane := by
  intro t ecc s x hbad d at_ lanes above k hstream hfit _
  have hlanes : ∀ o ∈ [0x70, 0x72, 0x74, 0x75, 0x76, 0x77], at_ o → lanes o (vxRun o t ecc s) := by
    intro o ho hfront
    have hclass : ∀ o ∈ [0x70, 0x72, 0x74, 0x75, 0x76, 0x77], vxIsRed o = false ∧ vxIsStore o = false ∧ vxIsCmp o = false ∧ vxIsMove o = true := by decide
    obtain ⟨hred, hstore, hcmp, hmove⟩ := hclass o ho
    have hopc : d.opc = o := opc_of_vxFront hfront
    exact lanesRan_vxRun hbad hfront hred hstore hcmp hstream ((widths_of_move hopc hmove).2 ▸ hfit) (vxEnvOf_value_move hstream hopc ho)
  refine ⟨fun h => ⟨_, rfl, hlanes _ (by decide) h⟩, fun h => ⟨_, rfl, hlanes _ (by decide) h⟩, fun h => ⟨_, rfl, hlanes _ (by decide) h⟩,
    fun h => ⟨_, rfl, hlanes _ (by decide) h⟩, fun h => ⟨_, rfl, hlanes _ (by decide) h⟩, fun h => ⟨_, rfl, hlanes _ (by decide) h⟩,
    fun h => ⟨_, rfl, ?_⟩, fun h hk habove => ⟨_, rfl, ?_⟩⟩
  · exact lanesStored_vxRun hbad h rfl hstream rfl one_ne_zero fun e _ => by positivity
  · exact lanesStored_vxRun hbad h rfl hstream rfl hk habove

end Sys2Proof.Machine
end

section
/-! PROOFS. The stream forms of the VX: what the bit vector of a compare in tile SRAM holds after bits are written into it, and the statement about the
element-wise stream forms (R101 to R104). -/

namespace Sys2Proof.Machine

open Sys2Proof.Claims

/-! ### A bit vector in tile SRAM -/

theorem sramByte_tileWriteN_one (p a b : Nat) (s : State) (y : Nat) :
    sramByte y (tileWriteN p a 1 b s) = if y = tileAddr p a then BitVec.ofNat 8 b else sramByte y s := by
  rw [sramByte, sramByte, tileWriteN, memWriteN, memWriteN, memRead_memWrite]

theorem tileReadN_one (p a : Nat) (s : State) : tileReadN p a 1 s = (sramByte (tileAddr p a) s).toNat := rfl

section
variable {v : VxEnv} (hstore : vxIsStore v.x.opc = false) (hstream : v.x.stream = true) (hcmp : vxIsCmp v.x.opc = true)

/-- The byte of the destination bit vector that holds bit `e`. -/
def VxEnv.bitByte (v : VxEnv) (e : Nat) : Nat := tileAddr v.p (v.x.addr 1 + e / 8)

theorem VxEnv.bitByte_eq_iff (v : VxEnv) (i j : Nat) : v.bitByte i = v.bitByte j ↔ i / 8 = j / 8 := by
  unfold VxEnv.bitByte tileAddr
  omega

include hstore hstream hcmp

theorem vxPut_streamBit (e r : Nat) (s : State) : vxPut v.p v.x e r s =
    tileWriteN v.p (v.x.addr 1 + e / 8) 1 (putBits (tileReadN v.p (v.x.addr 1 + e / 8) 1 s) (e % 8) 1 r) s := by
  simp [vxPut, hstore, hstream, hcmp]

theorem sramByte_vxPut_streamBit (e r y : Nat) (s : State) : sramByte y (vxPut v.p v.x e r s) =
    if y = v.bitByte e then BitVec.ofNat 8 (putBits (sramByte (v.bitByte e) s).toNat (e % 8) 1 r) else sramByte y s := by
  rw [vxPut_streamBit hstore hstream hcmp, sramByte_tileWriteN_one, tileReadN_one]
  rfl

/-- A bit of the destination bit vector holds its result where it was written, and else what it held. -/
theorem bitAt_sramByte_vxWrites (j : Nat) : ∀ (l : List Nat) (s : State), bitAt (sramByte (v.bitByte j) (vxWrites v l s)).toNat (j % 8) =
      if j ∈ l then bitAt (v.result j).1 0 else bitAt (sramByte (v.bitByte j) s).toNat (j % 8)
  | [], _ => rfl
  | e :: l, s => by
    rw [vxWrites_cons, bitAt_sramByte_vxWrites j l, sramByte_vxPut_streamBit hstore hstream hcmp]
    by_cases hjl : j ∈ l
    · rw [if_pos hjl, if_pos (List.mem_cons_of_mem e hjl)]
    · rw [if_neg hjl]
      by_cases hbyte : j / 8 = e / 8
      · have hsame : v.bitByte j = v.bitByte e := (v.bitByte_eq_iff j e).2 hbyte
        rw [if_pos hsame, toNat_ofNat_putBits _ _ (by omega), bitAt_putBits, hsame]
        by_cases hje : j = e
        · rw [hje, if_pos rfl, if_pos List.mem_cons_self]
        · rw [if_neg (by omega), if_neg (by simp [hje, hjl])]
      · rw [if_neg (mt (v.bitByte_eq_iff j e).1 hbyte), if_neg (by simp [hjl, show j ≠ e from fun h => hbyte (h ▸ rfl)])]

/-- A byte that holds no bit written reads as before. -/
theorem sramByte_vxWrites_beside {y : Nat} : ∀ (l : List Nat) (s : State), (∀ e ∈ l, y ≠ v.bitByte e) → sramByte y (vxWrites v l s) = sramByte y s
  | [], _, _ => rfl
  | e :: l, s, h => by
    obtain ⟨he, hl⟩ := List.forall_mem_cons.1 h
    rw [vxWrites_cons, sramByte_vxWrites_beside l _ hl, sramByte_vxPut_streamBit hstore hstream hcmp, if_neg he]

theorem vxWrites_streamBits_frame : ∀ (l : List Nat) (s : State), (vxWrites v l s).vregs = s.vregs ∧ (vxWrites v l s).masks = s.masks
  | [], _ => ⟨rfl, rfl⟩
  | e :: l, s => by
    obtain ⟨hvregs, hmasks⟩ := vxWrites_streamBits_frame l (vxPut v.p v.x e (v.result e).1 s)
    rw [vxWrites_cons, hvregs, hmasks, vxPut_streamBit hstore hstream hcmp]
    exact ⟨tileWriteN_vregs .., tileWriteN_masks ..⟩

end

/-! ### The statement -/

theorem laneOpcodes_move : ∀ o ∈ laneOpcodes, o ≠ 0x78 → vxIsMove o = false := by decide

section
variable {t : Nat} {x : EngIns} {s : State} {ecc : Ecc} {o : Nat} (hbad : ecc.bad = []) (hfront : VxFront t o x s)
  (hstream : (vxD x x.desc).stream = true)
include hbad hfront hstream

/-- A stream form that writes lanes leaves each active element's value in its element of the destination. -/
theorem streamLanes_vxRun (ho : o ∈ laneOpcodes) (hmv : o ≠ 0x78) (hstride : (vxD x x.desc).str 0 ≠ 0)
    (habove : ∀ e, e < (vxD x x.desc).vl → 0 ≤ ((vxD x x.desc).addr 1 : Int) + e * (vxD x x.desc).str 0 * (((vxD x x.desc).wd / 8 : Nat) : Int)) :
    ElementsRan t x ((vxD x x.desc).wd / 8)
      (fun e => ((vxD x x.desc).addr 1 : Int) + e * (vxD x x.desc).str 0 * (((vxD x x.desc).wd / 8 : Nat) : Int))
      (fun e => (vxD x x.desc).opc = 0x27 ∨ streamMask t (vxD x x.desc) s e = true) (fun e => laneFn o (streamIn t x s e)) s (vxRun o t ecc s) := by
  have hopc := opc_of_vxFront hfront
  obtain ⟨hred, hstore, hcmp⟩ := laneOpcodes_class o ho
  have hmove := laneOpcodes_move o ho hmv
  refine elementsRan_vxRun hbad hfront hred (fun e r s => ?_) (fun e => ?_) hstride habove (fun e => ?_) (fun e => ?_)
  · simp [vxPut, hopc, hstore, hstream, hcmp]
  · simp [VxD.elAddr, hopc, hmove]
  · rw [VxEnv.active_iff, vxEnvOf_maskBit_stream hstream]
    rfl
  · rw [VxEnv.value_lane _ e hopc ho, vxEnvOf_laneIn_stream hstream (by rw [hopc, hmove])]

/-- A compare of streams leaves each active element's bit in the destination bit vector, and every byte beside those bits as it was. -/
theorem streamBits_vxRun (ho : o ∈ maskOpcodes) :
    let d := vxD x x.desc
    let r := fun e => maskFn d.vs3 o (streamIn t x s e)
    VxRan t x (fun e => streamMask t d s e = true) (fun e => (r e).2) s (vxRun o t ecc s) ∧
      (vxRun o t ecc s).masks = s.masks ∧ (vxRun o t ecc s).vregs = s.vregs ∧
      (∀ e, e < d.vl → streamMask t d s e = true → 
        bitAt (sramByte (tileAddr t (d.addr 1 + e / 8)) (vxRun o t ecc s)).toNat (e % 8) = (r e).1) ∧
      (∀ y, (∀ e, e < d.vl → y ≠ tileAddr t (d.addr 1 + e / 8)) → sramByte y (vxRun o t ecc s) = sramByte y s) := by
  intro d r
  have hopc := opc_of_vxFront hfront
  obtain ⟨hred, hstore, hcmp, hmove⟩ := maskOpcodes_class o ho
  have hvalue : ∀ e, (vxEnvOf t x s).value e = (b2n (r e).1, (r e).2) := fun e => by
    rw [VxEnv.value_mask _ e hopc ho, vxEnvOf_laneIn_stream hstream (by rw [hopc, hmove])]
    rfl
  rw [← hopc] at hstore hcmp
  have hactive : ∀ e, (vxEnvOf t x s).active e = true ↔ streamMask t d s e = true := fun e => by
    rw [VxEnv.active_iff_maskBit (ne_vsel_of_cmp hcmp), vxEnvOf_maskBit_stream hstream]
  obtain ⟨s1, hstart, hend, hran⟩ := vxRun_untrapped hbad hfront hred
  have hbit := fun e => bitAt_sramByte_vxWrites (v := vxEnvOf t x s) hstore hstream hcmp e (vxActive t x s) s1
  have hbeside := fun y => sramByte_vxWrites_beside (v := vxEnvOf t x s) (y := y) hstore hstream hcmp (vxActive t x s) s1
  obtain ⟨hvregs, hmasks⟩ := vxWrites_streamBits_frame (v := vxEnvOf t x s) hstore hstream hcmp (vxActive t x s) s1
  rw [hstart.vregs, ← hend.vregs] at hvregs
  rw [hstart.masks, ← hend.masks] at hmasks
  refine ⟨vxRan_congr hran hactive fun e => congrArg Prod.snd (hvalue e), hmasks, hvregs, fun e he hact => ?_, fun y hy => ?_⟩
  · have hres := hbit e
    rw [if_pos (mem_vxActive.2 ⟨he, (hactive e).2 hact⟩), vxEnvOf_result, hvalue, bitAt_b2n] at hres
    rw [hend.sramByte_eq]
    exact hres
  · rw [hend.sramByte_eq, hbeside y fun e he => hy e (mem_vxActive.1 he).1, hstart.sramByte_eq]
end

/-- Settles O31: elements a stride apart keep their bytes, and the bits of a compare's bit vector are put into their bytes one by one. -/
theorem vectorStreamFormsInTileSram : Obligations.VectorStreamFormsInTileSram := by
  intro t ecc s x hbad d hstream
  constructor
  · intro f hf hmv hfront hstride a r active habove
    exact ⟨_, exec_laneForms t ecc s f hf, streamLanes_vxRun hbad hfront hstream (laneForms_opcode hf) hmv hstride habove⟩
  · intro f hf hfront r
    exact ⟨_, exec_maskForms t ecc s f hf, streamBits_vxRun hbad hfront hstream (maskForms_opcode hf)⟩

end Sys2Proof.Machine
end

section
/-! PROOFS. Reductions, traps and resumes of the VX: what keeps every byte of local memory, what a reduction leaves, where the first trapping element stops the
run, what a resume writes, and the statement about all three (R103, R109, R111 to R113). -/

namespace Sys2Proof.Machine

open Sys2Proof.Claims

/-! ### What keeps every byte of local memory -/

/-- The memories are the same, and so are the registers below those of the compute dies, which say where an offset lies. -/
structure SameBytes (s t : State) : Prop where
  csr : ∀ d off, off < 0x1000000 → csrGet d off t = csrGet d off s
  tileSram : t.tileSram = s.tileSram
  hbm : t.hbm = s.hbm
  hbmBg : t.hbmBg = s.hbmBg
  depot : t.depot = s.depot

section
variable {s t : State} (h : SameBytes s t)
include h

theorem SameBytes.target_eq (off : Nat) : target off t = target off s := by
  have hspread : spreadGib t = spreadGib s := by
    rw [spreadGib, spreadGib, getF, getF, h.csr _ _ (by decide)]
  have hwin : halWinBytes t = halWinBytes s := by
    rw [halWinBytes, halWinBytes, getF, getF, h.csr _ _ (by decide)]
  have hhbm : ∀ spread o, hbmOf spread o t = hbmOf spread o s := fun spread o => by rw [hbmOf, hbmOf, hspread]
  simp only [target, hhbm, hwin]

theorem SameBytes.localLine_eq (off : Nat) : localLine off t = localLine off s := by
  have hline : ∀ pl, lineNat pl t = lineNat pl s := fun pl => by
    have hbg : hbmBgByte t = hbmBgByte s := funext fun a => by rw [hbmBgByte, hbmBgByte, h.hbmBg]
    simp only [lineNat, hbmLine, h.depot, h.hbm, hbg]
  have htile : ∀ p a n, tileReadN p a n t = tileReadN p a n s := fun p a n => by rw [tileReadN, tileReadN, h.tileSram]
  simp only [localLine, h.target_eq, hline, htile, h.depot]

theorem SameBytes.readOffGo_eq : ∀ fuel off n, readOffGo t fuel off n = readOffGo s fuel off n
  | 0, _, _ => rfl
  | fuel + 1, off, n => by simp only [readOffGo, h.localLine_eq, SameBytes.readOffGo_eq fuel]

theorem SameBytes.bytesKept : BytesKept s t := fun a => h.readOffGo_eq _ a 1

/-- A register of a compute die decides about no offset. -/
theorem SameBytes.setF {base : Nat} (hbase : 0x1000000 ≤ base) (f : Fld) (v : Nat) : SameBytes s (setF base f v t) :=
  { h with csr := fun d off hoff => (csrGet_csrSet_other _ d _ _ _ t (by omega)).trans (h.csr d off hoff) }

theorem SameBytes.bumpF {base : Nat} (hbase : 0x1000000 ≤ base) (f : Fld) (n : Nat) : SameBytes s (bumpF base f n t) := by
  obtain ⟨hcsr, hsram, hhbm, hbg, hdepot⟩ := h.setF hbase f (satAdd f.w (getF base f t) n)
  exact ⟨hcsr, hsram, hhbm, hbg, hdepot⟩

theorem SameBytes.setEng (k : Nat) (e : Engine) : SameBytes s (setEng k e t) := ⟨h.csr, h.tileSram, h.hbm, h.hbmBg, h.depot⟩

theorem SameBytes.setHead (k : Nat) (y : EngIns) : SameBytes s (setHead k y t) := h.setEng k _

theorem SameBytes.setFlags {base : Nat} (hbase : 0x1000000 ≤ base) (fl : Nat) (l : List (Nat × Fld)) : SameBytes s (setFlags base fl l t) := by
  induction l generalizing t with
  | nil => exact h
  | cons p l ih =>
    obtain ⟨i, f⟩ := p
    rw [Machine.setFlags]
    split
    · exact ih (h.setF hbase f 1)
    · exact ih h

end

theorem SameBytes.refl (s : State) : SameBytes s s := ⟨fun _ _ _ => rfl, rfl, rfl, rfl, rfl⟩

theorem le_tileBase (p : Nat) : 0x1000000 ≤ tileBase p := by
  unfold tileBase clusterBase dieBase
  omega

/-! ### Reductions (R109, R111) -/

/-- The tree's input is the element of VS1 where it is active. -/
theorem vxEnvOf_reductionIn {t : Nat} {x : EngIns} {s : State} (hred : vxIsRed (vxD x x.desc).opc = true) (e : Nat) :
    (if (vxEnvOf t x s).active e then some ((vxEnvOf t x s).src 1 e) else none) = reductionIn t (vxD x x.desc) s e := by
  have hclass : vxIsMove (vxD x x.desc).opc = false ∧ (vxD x x.desc).opc ≠ 0x27 := by
    simp only [vxIsRed, vxIsMove, Bool.and_eq_true, decide_eq_true_eq, Bool.and_eq_false_iff, decide_eq_false_iff_not] at hred ⊢
    omega
  obtain ⟨hmove, hsel⟩ := hclass
  have hmask : (vxEnvOf t x s).active e = (vxEnvOf t x s).maskBit e := Bool.eq_iff_iff.2 (VxEnv.active_iff_maskBit hsel e)
  rw [hmask, reductionIn]
  cases hstream : (vxD x x.desc).stream with
  | true => rw [vxEnvOf_maskBit_stream hstream, vxEnvOf_src_stream hstream hmove one_ne_zero, if_pos rfl]
  | false => rw [vxEnvOf_maskBit_register hstream, vxEnvOf_src_register hstream, if_neg Bool.false_ne_true]

/-- The reduction `x` once it has run: with bad data its VALUE is `badValue` and no flag is set (R128), else both are those of the tree. -/
def reducedIns (x : EngIns) (isBad : Bool) (badValue : Nat) (r : Nat × Nat) (special : List Nat) : EngIns :=
  { x with ue := false, phase := 1, value := if isBad then badValue else r.1, flags := if isBad then 0 else r.2, digest := if isBad then 0 else r.2,
           count := special.length, first := special.headD 0x1FFFFFF }

/-- A reduction of the tree's inputs, on clean data. -/
theorem vxReduce_clean {t : Nat} {x : EngIns} {s s1 : State} (hregs : RegsOnly s s1) (hred : vxIsRed (vxD x x.desc).opc = true) :
    let d := vxD x x.desc
    let r := reduce d.opc d.fmt (2048 / d.ws) ((List.range d.vl).map (reductionIn t d s))
    let special := (List.range d.vl).filter (fun e => specialIn d.fmt (reductionIn t d s e))
    ∃ y, vxReduce t [] { x with ue := false, first := 0x1FFFFFF } s1 = setHead (kVx t) y s1 ∧ y.phase = 1 ∧ (y.value, y.flags) = r ∧
      y.count = special.length ∧ y.first = special.headD 0x1FFFFFF ∧ SameInstruction x y := by
  intro d r special
  obtain ⟨c, k, rfl⟩ := hregs
  let inputs := (List.range d.vl).map fun i => if (vxEnvOf t x s).active i then some ((vxEnvOf t x s).src 1 i) else none
  let hits := (List.range d.vl).filter fun i => (vxEnvOf t x s).active i && (match fmtOf d.fmt with
    | some f => (decodeF f ((vxEnvOf t x s).src 1 i)).special
    | none => false)
  let isBad := (List.range d.vl).any fun i => (vxEnvOf t x s).active i && ([] : List Nat).any fun a => (vxEnvOf t x s).usesBad i a
  have hrun : ∃ badValue, vxReduce t [] { x with ue := false, first := 0x1FFFFFF } { s with csr := c, totals := k } =
      setHead (kVx t) (reducedIns x isBad badValue (reduce d.opc d.fmt (2048 / d.ws) inputs) hits) { s with csr := c, totals := k } := ⟨_, rfl⟩
  have hinputs : inputs = (List.range d.vl).map (reductionIn t d s) := List.map_congr_left fun e _ => vxEnvOf_reductionIn hred e
  have hhits : hits = special := by
    refine List.filter_congr fun e _ => ?_
    rw [← vxEnvOf_reductionIn hred e]
    cases (vxEnvOf t x s).active e with
    | false => rfl
    | true =>
      unfold specialIn
      cases fmtOf d.fmt <;> rfl
  have hclean : isBad = false := by simp [isBad]
  rw [hinputs, hhits, hclean] at hrun
  obtain ⟨badValue, hrun⟩ := hrun
  exact ⟨_, hrun, rfl, rfl, rfl, rfl, rfl, rfl⟩

/-- What the reduction of an untrapped VX leaves on clean data. -/
theorem reduced_vxRun {o t : Nat} {ecc : Ecc} {s : State} {x : EngIns} {rest : List EngIns} (hbad : ecc.bad = []) (hmarks : tileMarks t s = [])
    (hq : (getEng (kVx t) s).queue = x :: rest) (htrap : (getEng (kVx t) s).trap = none) (hphase : x.phase = 0) (hopc : (vxD x x.desc).opc = o)
    (hred : vxIsRed o = true) : Reduced t o x s (vxRun o t ecc s) := by
  have hregs : RegsOnly s (bumpF (tileBase t) R.VX_CE_COUNT_COUNT ecc.corrected s) := (RegsOnly.refl s).bumpF ..
  have hrun := vxRun_clean hbad hmarks hq htrap hphase hopc
  dsimp only at hrun
  rw [if_pos hred] at hrun
  obtain ⟨y, hreduce, hy, hvalue, hcount, hfirst, hsum, htag⟩ := vxReduce_clean hregs (by rw [hopc, hred])
  have hbytes := ((SameBytes.refl s).bumpF (le_tileBase t) R.VX_CE_COUNT_COUNT ecc.corrected).setHead (kVx t) y
  rw [hrun, hreduce]
  refine ⟨y, ?_, hy, by rw [hvalue, hopc], hcount, hfirst, hsum, htag, rfl, rfl, rfl, hbytes.bytesKept⟩
  rw [getEng_setHead, if_pos rfl]
  rfl

/-! ### The trap (R112) -/

/-- An active element whose flags are enabled stops the run before it is written. -/
theorem vxGo_stops {v : VxEnv} {trapEn e : Nat} {masked : Option Nat} (hactive : v.active e = true) (hflags : (v.result e).2 % 16 &&& trapEn ≠ 0)
    (hmasked : masked ≠ some e) (l : List Nat) (a : VxAcc) : vxGo v trapEn masked (e :: l) a = { a with stop := some (e, (v.result e).2) } := by
  rw [vxGo, if_pos hactive]
  exact if_pos ⟨hflags, hmasked⟩

/-- VX_STATUS and VX_EXC as a trap of element `j` leaves them. -/
def vxExc (p j fl tag : Nat) (s : State) : State :=
  let b := tileBase p
  setF b R.VX_EXC_INDEX j (setF b R.VX_EXC_FLAGS fl (setF b R.VX_EXC_TAG tag (setF b R.VX_EXC_VALID 1 (setF b R.VX_STATUS_TRAPPED 1 s))))

theorem getF_vxExc (p j fl tag : Nat) (s : State) :
    getF (tileBase p) R.VX_STATUS_TRAPPED (vxExc p j fl tag s) = 1 ∧ getF (tileBase p) R.VX_EXC_VALID (vxExc p j fl tag s) = 1 ∧
      getF (tileBase p) R.VX_EXC_INDEX (vxExc p j fl tag s) = j % 2 ^ 16 ∧ getF (tileBase p) R.VX_EXC_TAG (vxExc p j fl tag s) = tag % 2 ^ 8 := by
  have hother : ∀ f ∈ [R.VX_EXC_INDEX, R.VX_EXC_FLAGS, R.VX_EXC_TAG, R.VX_EXC_VALID], ∀ v t,
      getF (tileBase p) R.VX_STATUS_TRAPPED (setF (tileBase p) f v t) = getF (tileBase p) R.VX_STATUS_TRAPPED t := by
    intro f hf v t
    have hoff : ∀ f ∈ [R.VX_EXC_INDEX, R.VX_EXC_FLAGS, R.VX_EXC_TAG, R.VX_EXC_VALID], R.VX_STATUS_TRAPPED.off ≠ f.off := by decide
    exact getF_setF_other _ _ _ _ _ _ fun h => hoff f hf (Nat.add_left_cancel h)
  refine ⟨?_, ?_, ?_, ?_⟩
  · rw [vxExc, hother _ (by decide), hother _ (by decide), hother _ (by decide), hother _ (by decide), getF_setF _ _ _ _ (by decide)]
    rfl
  · rw [vxExc, getF_setF_beside _ _ _ (by decide) (by decide), getF_setF_beside _ _ _ (by decide) (by decide),
      getF_setF_beside _ _ _ (by decide) (by decide), getF_setF _ _ _ _ (by decide)]
    rfl
  · rw [vxExc, getF_setF _ _ _ _ (by decide)]
    rfl
  · rw [vxExc, getF_setF_beside _ _ _ (by decide) (by decide), getF_setF_beside _ _ _ (by decide) (by decide), getF_setF _ _ _ _ (by decide)]
    rfl

/-- Where the first element traps, the instruction stays at the front, VX_EXC tells of it, and nothing is written. -/
theorem vxElems_trapped {p : Nat} {v1 : BitVec 2048} {bad l : List Nat} {e : EngIns} {s : State} {j : Nat}
    (hmove : vxIsMove (vxD e e.desc).opc = false) (hactive : (⟨p, vxD e e.desc, s, v1, bitAt e.cfg.toNat 0, bad⟩ : VxEnv).active j = true) {fl : Nat}
    (hfl : ((⟨p, vxD e e.desc, s, v1, bitAt e.cfg.toNat 0, bad⟩ : VxEnv).result j).2 = fl) (hflags : fl % 16 &&& bitsAt e.cfg.toNat 1 4 ≠ 0) :
    ∃ y, vxElems p v1 none bad (j :: l) e s =
      let w := vxExc p j fl (e.tag.toNat % 256) (setHead (kVx p) y (vxFlags p e.digest s))
      setEng (kVx p) { getEng (kVx p) w with trap := some ⟨j, fl, v1, bad, false⟩ } w := by
  unfold vxElems
  dsimp only
  rw [hmove, if_neg Bool.false_ne_true, vxGo_stops (masked := none) hactive (by rw [hfl]; exact hflags) nofun, hfl]
  exact ⟨_, rfl⟩

theorem SameVx.setF {s t : State} (h : SameVx s t) (base : Nat) (f : Fld) (v : Nat) : SameVx s (setF base f v t) := ⟨h.vregs, h.masks, h.tileSram⟩

theorem SameVx.setEng {s t : State} (h : SameVx s t) (k : Nat) (e : Engine) : SameVx s (setEng k e t) := ⟨h.vregs, h.masks, h.tileSram⟩

theorem SameVx.setHead {s t : State} (h : SameVx s t) (k : Nat) (y : EngIns) : SameVx s (setHead k y t) := h.setEng k _

theorem SameVx.vxExc {s t : State} (h : SameVx s t) (p j fl tag : Nat) : SameVx s (vxExc p j fl tag t) :=
  ((((h.setF ..).setF ..).setF ..).setF ..).setF ..

theorem SameBytes.vxExc {s t : State} (h : SameBytes s t) (p j fl tag : Nat) : SameBytes s (vxExc p j fl tag t) :=
  ((((h.setF (le_tileBase p) _ _).setF (le_tileBase p) _ _).setF (le_tileBase p) _ _).setF (le_tileBase p) _ _).setF (le_tileBase p) _ _

/-- Element 0 is the first of every instruction. -/
theorem range_vl (d : VxD) : ∃ l, List.range d.vl = 0 :: l := by
  have hpos : ∃ n, d.vl = n + 1 := by
    rw [VxD.vl]
    split <;> exact ⟨_, rfl⟩
  obtain ⟨n, hn⟩ := hpos
  exact ⟨_, hn ▸ List.range_succ_eq_map⟩

theorem sameVx_vxFlags (p fl : Nat) (s : State) : SameVx s (vxFlags p fl s) := sameVx_regsOnly (regsOnly_setFlags _ _ _ (.refl s))

/-- An enabled flag of the active element 0 stops the VX before it. -/
theorem vxRun_trapped {o t : Nat} {ecc : Ecc} {s : State} {x : EngIns} {rest : List EngIns} (hbad : ecc.bad = []) (hmarks : tileMarks t s = [])
    (hq : (getEng (kVx t) s).queue = x :: rest) (htrap : (getEng (kVx t) s).trap = none) (hphase : x.phase = 0) (hopc : (vxD x x.desc).opc = o)
    (ho : o ∈ laneOpcodes) (hmv : o ≠ 0x78) (hstream : (vxD x x.desc).stream = false)
    (hactive : o = 0x27 ∨ bitAt (getM t (vxD x x.desc).mask s).toNat 0 = true)
    (hflags : (laneFn o (regIn t x s 0)).2 % 16 &&& bitsAt x.cfg.toNat 1 4 ≠ 0) :
    ∃ w, SameVx s w ∧ SameBytes s w ∧
      (∃ w', w = vxExc t 0 (laneFn o (regIn t x s 0)).2 (x.tag.toNat % 256) w') ∧
      vxRun o t ecc s =
        setEng (kVx t) { getEng (kVx t) w with trap := some ⟨0, (laneFn o (regIn t x s 0)).2, getV t ((vxD x x.desc).vs 1) s, [], false⟩ } w := by
  let s1 := bumpF (tileBase t) R.VX_CE_COUNT_COUNT ecc.corrected s
  have hregs : RegsOnly s s1 := (RegsOnly.refl s).bumpF ..
  obtain ⟨hred, -, -⟩ := laneOpcodes_class o ho
  have hrun := vxRun_clean hbad hmarks hq htrap hphase hopc
  dsimp only at hrun
  obtain ⟨l, hl⟩ := range_vl (vxD x x.desc)
  rw [if_neg (by simp [hred]), hl] at hrun
  have hact : (vxEnvOf t x s).active 0 = true := by
    rw [VxEnv.active_iff, vxEnvOf_maskBit_register hstream]
    exact hactive.imp_left hopc.trans
  have hres : ((vxEnvOf t x s1).result 0).2 = (laneFn o (regIn t x s 0)).2 := by
    rw [vxEnvOf_result, (vxEnvOf_regsOnly hregs).2, VxEnv.value_lane _ 0 hopc ho, vxEnvOf_laneIn_register hstream]
  obtain ⟨y, helems⟩ := vxElems_trapped (p := t) (v1 := getV t ((vxD x x.desc).vs 1) s) (bad := []) (l := l) (s := s1) (j := 0)
    (e := { x with ue := false, first := 0x1FFFFFF }) (by rw [← laneOpcodes_move o ho hmv, ← hopc]; rfl) (by rw [← hact]; rfl) hres hflags
  have hvx := sameVx_vxFlags t x.digest s1
  have hstart := sameVx_regsOnly hregs
  have hsame : SameVx s (vxFlags t x.digest s1) := ⟨hvx.vregs.trans hstart.vregs, hvx.masks.trans hstart.masks, hvx.tileSram.trans hstart.tileSram⟩
  have hbytes : SameBytes s (vxFlags t x.digest s1) := ((SameBytes.refl s).bumpF (le_tileBase t) ..).setFlags (le_tileBase t) ..
  exact ⟨_, (hsame.setHead (kVx t) y).vxExc .., (hbytes.setHead (kVx t) y).vxExc .., ⟨_, rfl⟩, hrun.trans helems⟩

/-! ### Resumes (R113) -/

/-- The VX of tile `p` without its trap, before a resume goes on. -/
def vxCleared (p : Nat) (s : State) : State :=
  setF (tileBase p) R.VX_EXC_VALID 0 (setF (tileBase p) R.VX_STATUS_TRAPPED 0 (setEng (kVx p) { getEng (kVx p) s with trap := none } s))

theorem getEng_setF (k base : Nat) (f : Fld) (v : Nat) (s : State) : getEng k (setF base f v s) = getEng k s := rfl

theorem getEng_vxCleared (p : Nat) (s : State) : getEng (kVx p) (vxCleared p s) = { getEng (kVx p) s with trap := none } := by
  rw [vxCleared, getEng_setF, getEng_setF, getEng_setEng, if_pos rfl]

theorem sameVx_vxCleared (p : Nat) (s : State) : SameVx s (vxCleared p s) := by
  constructor <;> simp only [vxCleared, setF_vregs, setF_masks, setF_tileSram, setEng_vregs, setEng_masks, setEng_tileSram]

theorem sameBytes_vxCleared (p : Nat) (s : State) : SameBytes s (vxCleared p s) :=
  (((SameBytes.refl s).setEng ..).setF (le_tileBase p) ..).setF (le_tileBase p) ..

theorem getF_vxCleared (p : Nat) (s : State) : getF (tileBase p) R.VX_STATUS_TRAPPED (vxCleared p s) = 0 ∧
    getF (tileBase p) R.VX_EXC_VALID (vxCleared p s) = 0 := by
  constructor
  · rw [vxCleared, getF_setF_other _ _ _ _ _ _ (by simp [R.VX_STATUS_TRAPPED, R.VX_EXC_VALID]), getF_setF _ _ _ _ (by decide), Nat.zero_mod]
  · rw [vxCleared, getF_setF _ _ _ _ (by decide), Nat.zero_mod]

/-- VX_FIX stays as software wrote it. -/
theorem getPair_vxFix_vxCleared (p : Nat) (s : State) : getPair (tileBase p) R.VX_FIX_LO_VALUE R.VX_FIX_HI_VALUE (vxCleared p s) =
    getPair (tileBase p) R.VX_FIX_LO_VALUE R.VX_FIX_HI_VALUE s := by
  have hkept : ∀ f ∈ [R.VX_FIX_LO_VALUE, R.VX_FIX_HI_VALUE], getF (tileBase p) f (vxCleared p s) = getF (tileBase p) f s := by
    intro f hf
    have hoff : ∀ f ∈ [R.VX_FIX_LO_VALUE, R.VX_FIX_HI_VALUE], f.off ≠ R.VX_EXC_VALID.off ∧ f.off ≠ R.VX_STATUS_TRAPPED.off := by decide
    obtain ⟨hexc, hstatus⟩ := hoff f hf
    rw [vxCleared, getF_setF_other _ _ _ _ _ _ fun h => hexc (Nat.add_left_cancel h), getF_setF_other _ _ _ _ _ _ fun h => hstatus (Nat.add_left_cancel h)]
    rfl
  rw [getPair, getPair, hkept _ (by decide), hkept _ (by decide)]

section
variable {t : Nat} {s : State} {x : EngIns} {rest : List EngIns} {g : VxTrap} (hq : (getEng (kVx t) s).queue = x :: rest)
  (htrap : (getEng (kVx t) s).trap = some g)
include hq htrap

theorem vxResume_end : vxResume t 2 s = setHead (kVx t) { x with phase := 1 } (vxCleared t s) := by
  unfold vxResume vxCleared
  generalize getEng (kVx t) s = e at hq htrap ⊢
  obtain ⟨⟩ := e
  subst hq htrap
  rfl

theorem vxResume_recompute : vxResume t 0 s =
    vxElems t g.src (some g.index) g.bad ((List.range (vxD x x.desc).vl).drop g.index) x (vxCleared t s) := by
  unfold vxResume vxCleared
  generalize getEng (kVx t) s = e at hq htrap ⊢
  obtain ⟨⟩ := e
  subst hq htrap
  rfl

/-- A resume with VX_FIX puts it in the place of the trapped element's result and goes on behind that element. -/
theorem vxResume_fix (hcmp : vxIsCmp (vxD x x.desc).opc = false) : ∃ count first, vxResume t 1 s =
    vxElems t g.src none g.bad ((List.range (vxD x x.desc).vl).drop (g.index + 1)) { x with count := count, first := first }
      (vxPut t (vxD x x.desc) g.index (getPair (tileBase t) R.VX_FIX_LO_VALUE R.VX_FIX_HI_VALUE s % 2 ^ (vxD x x.desc).wd) (vxCleared t s)) := by
  rw [← getPair_vxFix_vxCleared]
  unfold vxResume vxCleared
  generalize getEng (kVx t) s = e at hq htrap ⊢
  obtain ⟨⟩ := e
  subst hq htrap
  dsimp only
  rw [if_neg (by decide), if_neg (by decide), if_pos rfl, hcmp]
  exact ⟨_, _, rfl⟩

end

/-- The elements from number `k` on. -/
theorem mem_drop_range {n k e : Nat} : e ∈ (List.range n).drop k ↔ k ≤ e ∧ e < n := by
  rw [List.range_eq_range', List.drop_range', List.mem_range'_1]
  omega

theorem getEng_vxPut (k p : Nat) (d : VxD) (e r : Nat) (s : State) : getEng k (vxPut p d e r s) = getEng k s := by
  obtain ⟨vr, ms, ts, hput⟩ := vxPut_frame p d e r s
  rw [hput]
  rfl

theorem regIn_sameVx {s u : State} (h : SameVx s u) (t : Nat) (x : EngIns) (e : Nat) : regIn t x u e = regIn t x s e := by
  simp only [regIn, regLane, h.getV_eq, h.getM_eq]

/-- A run leaves the engine without a trap if it was without one. -/
theorem trap_setHead_vxWrites {p : Nat} {v : VxEnv} {l : List Nat} {s : State} (y : EngIns) (h : (getEng (kVx p) s).trap = none) :
    (getEng (kVx p) (setHead (kVx p) y (vxWrites v l s))).trap = none := by
  obtain ⟨vr, ms, ts, hframe⟩ := vxWrites_frame v l s
  rw [getEng_setHead, if_pos rfl, hframe]
  exact h

section
variable {t : Nat} {s : State} {x : EngIns} {rest : List EngIns} {g : VxTrap} (hq : (getEng (kVx t) s).queue = x :: rest)
  (htrap : (getEng (kVx t) s).trap = some g) (hstream : (vxD x x.desc).stream = false) (hfit : (vxD x x.desc).vl * (vxD x x.desc).wd ≤ 2048)
  (hindex : g.index < (vxD x x.desc).vl) (hoff : bitsAt x.cfg.toNat 1 4 = 0) {o : Nat} (ho : o ∈ laneOpcodes) (hopc : (vxD x x.desc).opc = o)
include hq htrap hstream hfit hindex hoff ho hopc

/-- After a resume with VX_FIX the trapped element's lane holds it: the elements behind have lanes of their own. -/
theorem vxResume_fix_lane : (getEng (kVx t) (vxResume t 1 s)).trap = none ∧
    bitsAt (getV t (vxD x x.desc).vd (vxResume t 1 s)).toNat (g.index * (vxD x x.desc).wd) (vxD x x.desc).wd =
      getPair (tileBase t) R.VX_FIX_LO_VALUE R.VX_FIX_HI_VALUE s % 2 ^ (vxD x x.desc).wd := by
  obtain ⟨-, hstore, hcmp⟩ := laneOpcodes_class o ho
  rw [← hopc] at hstore hcmp
  obtain ⟨count, first, hrun⟩ := vxResume_fix hq htrap hcmp
  generalize hfix : getPair (tileBase t) R.VX_FIX_LO_VALUE R.VX_FIX_HI_VALUE s = fix at hrun ⊢
  let w := vxPut t (vxD x x.desc) g.index (fix % 2 ^ (vxD x x.desc).wd) (vxCleared t s)
  let v : VxEnv := ⟨t, vxD x x.desc, w, g.src, bitAt x.cfg.toNat 0, g.bad⟩
  let l := ((List.range (vxD x x.desc).vl).drop (g.index + 1)).filter v.active
  obtain ⟨y, helems, -⟩ := vxElems_untrapped (e := { x with count := count, first := first }) (.inl hoff) t g.src none g.bad
    ((List.range (vxD x x.desc).vl).drop (g.index + 1)) w
  have hend : vxResume t 1 s = setHead (kVx t) y (vxWrites v l w) := hrun.trans helems
  have hmem : ∀ e ∈ l, g.index + 1 ≤ e ∧ e < (vxD x x.desc).vl := fun e he => mem_drop_range.1 (List.mem_filter.1 he).1
  have hclear : (getEng (kVx t) w).trap = none := by rw [getEng_vxPut, getEng_vxCleared]
  refine ⟨by rw [hend]; exact trap_setHead_vxWrites y hclear, ?_⟩
  have hlane := bitsAt_getV_vxWrites (v := v) hstore hstream hcmp g.index l w fun e he => lane_fits hfit (hmem e he).2
  rw [if_neg fun he => absurd (hmem g.index he).1 (by omega)] at hlane
  rw [hend, (sameVx_setHead ..).getV_eq]
  refine hlane.trans ?_
  have hput := toNat_getV_vxPut (v := v) hstore hstream hcmp (lane_fits hfit hindex) (fix % 2 ^ (vxD x x.desc).wd) (vxCleared t s)
  exact (congrArg (bitsAt · _ _) hput).trans ((bitsAt_putBits ..).trans (Nat.mod_mod _ _))

/-- After a resume that recomputes, the trapped element's lane holds the result its sources give, VS1 as saved. -/
theorem vxResume_recompute_lane (hsrc : g.src = getV t ((vxD x x.desc).vs 1) s) (hbad : g.bad = [])
    (hactive : o = 0x27 ∨ bitAt (getM t (vxD x x.desc).mask s).toNat g.index = true) : (getEng (kVx t) (vxResume t 0 s)).trap = none ∧
    bitsAt (getV t (vxD x x.desc).vd (vxResume t 0 s)).toNat (g.index * (vxD x x.desc).wd) (vxD x x.desc).wd =
      (laneFn o (regIn t x s g.index)).1 % 2 ^ (vxD x x.desc).wd := by
  obtain ⟨-, hstore, hcmp⟩ := laneOpcodes_class o ho
  have hsame := sameVx_vxCleared t s
  have hrun := vxResume_recompute hq htrap
  rw [hsrc, ← hsame.getV_eq, hbad] at hrun
  let v := vxEnvOf t x (vxCleared t s)
  let l := ((List.range (vxD x x.desc).vl).drop g.index).filter v.active
  obtain ⟨y, helems, -⟩ := vxElems_untrapped (e := x) (.inl hoff) t (getV t ((vxD x x.desc).vs 1) (vxCleared t s)) (some g.index) []
    ((List.range (vxD x x.desc).vl).drop g.index) (vxCleared t s)
  have hend : vxResume t 0 s = setHead (kVx t) y (vxWrites v l (vxCleared t s)) := hrun.trans helems
  have hact : v.active g.index = true := by
    rw [VxEnv.active_iff, vxEnvOf_maskBit_register hstream, hsame.getM_eq]
    exact hactive.imp_left hopc.trans
  have hmem : g.index ∈ l := List.mem_filter.2 ⟨mem_drop_range.2 ⟨le_rfl, hindex⟩, hact⟩
  refine ⟨by rw [hend]; exact trap_setHead_vxWrites y (congrArg Engine.trap (getEng_vxCleared t s)), ?_⟩
  have hlane := bitsAt_getV_vxWrites (v := v) (by rw [← hstore, ← hopc]; rfl) hstream (by rw [← hcmp, ← hopc]; rfl) g.index l (vxCleared t s)
    fun e he => lane_fits hfit (mem_drop_range.1 (List.mem_filter.1 he).1).2
  rw [if_pos hmem, vxEnvOf_result, VxEnv.value_lane _ _ hopc ho, vxEnvOf_laneIn_register hstream, regIn_sameVx hsame] at hlane
  rw [hend, (sameVx_setHead ..).getV_eq]
  exact hlane

end

/-! ### The statement -/

/-- Settles O32: a reduction notes the tree's outcome alone; a trap stops at element 0 with nothing written; a resume goes on from the trapped element. -/
theorem vectorReductionsAndResumes : Obligations.VectorReductionsAndResumes := by
  intro t ecc s x rest d b at_ hq
  have hreduce : ∀ o, vxIsRed o = true → at_ o → Reduced t o x s (vxRun o t ecc s) := by
    rintro o hred ⟨hbad, hmarks, htrap, hphase, hopc⟩
    exact reduced_vxRun hbad hmarks hq htrap hphase hopc hred
  refine ⟨fun h => ⟨_, rfl, hreduce _ rfl h⟩, fun h => ⟨_, rfl, hreduce _ rfl h⟩, fun h => ⟨_, rfl, hreduce _ rfl h⟩, fun h => ⟨_, rfl, hreduce _ rfl h⟩,
    fun h => ⟨_, rfl, hreduce _ rfl h⟩, fun h => ⟨_, rfl, hreduce _ rfl h⟩, fun h => ⟨_, rfl, hreduce _ rfl h⟩, ?_, fun g hg => ⟨?_, ?_⟩⟩
  · rintro f hf ⟨hbad, hmarks, htrap, hphase, hopc⟩ hmv hstream hactive hflags
    obtain ⟨w, hvx, hbytes, ⟨w', hw⟩, hrun⟩ := vxRun_trapped hbad hmarks hq htrap hphase hopc (laneForms_opcode hf) hmv hstream hactive hflags
    obtain ⟨htrapped, hvalid, hindex, htag⟩ := getF_vxExc t 0 (laneFn f.2 (regIn t x s 0)).2 (x.tag.toNat % 256) w'
    rw [← hw] at htrapped hvalid hindex htag
    refine ⟨_, ⟨0, (laneFn f.2 (regIn t x s 0)).2, getV t ((vxD x x.desc).vs 1) s, [], false⟩, (exec_laneForms t ecc s f hf).trans (congrArg _ hrun), ?_⟩
    rw [getEng_setEng, if_pos rfl]
    exact ⟨rfl, rfl, rfl, rfl, htrapped, hvalid, hindex, htag.trans (Nat.mod_mod _ _), hvx.vregs, hvx.masks, (hbytes.setEng ..).bytesKept⟩
  · have hrun : Runs (.vxResumeEnd t) s (setHead (kVx t) { x with phase := 1 } (vxCleared t s)) := congrArg _ (vxResume_end hq hg)
    obtain ⟨htrapped, hvalid⟩ := getF_vxCleared t s
    have hstill := sameVx_vxCleared t s
    have hkept := sameBytes_vxCleared t s
    have heng := getEng_vxCleared t s
    generalize vxCleared t s = v at hrun htrapped hvalid hstill hkept heng
    refine ⟨_, { x with phase := 1 }, hrun, ?_, rfl, ?_, htrapped, hvalid, hstill.vregs, hstill.masks, (hkept.setHead ..).bytesKept⟩
    · rw [getEng_setHead, if_pos rfl, heng, hq, List.tail_cons]
    · rw [getEng_setHead, if_pos rfl, heng]
  · intro hstream hfit hindex hoff f hf hopc
    have ho := laneForms_opcode hf
    exact ⟨⟨_, rfl, vxResume_fix_lane hq hg hstream hfit hindex hoff ho hopc⟩, fun _ hsrc hbad hactive =>
      ⟨_, rfl, vxResume_recompute_lane hq hg hstream hfit hindex hoff ho hopc hsrc hbad hactive⟩⟩

end Sys2Proof.Machine
end

section
/-! PROOFS. What an engine of a cluster writes into tile SRAM of its own cluster (R22, R145, R231): one write, a list of writes that lie apart, and the
engine's sources when every line of them is at hand (R140). -/

namespace Sys2Proof.Machine

open Sys2Proof.Claims

/-! ### The tile windows (R227) -/

/-- The byte of tile SRAM that a local offset of the tile windows names. -/
def tileByte (off : Nat) : Nat := off % 2 ^ 45

/-- The tile windows lie at fixed offsets, whatever the state. -/
theorem target_tile_iff {off q o : Nat} {s : State} :
    target off s = .tile q o ↔ (2 ^ 45 ≤ off ∧ off < 3 * 2 ^ 44) ∧ (q < 288 ∧ o < 0x600000) ∧ tileByte off = tileAddr q o := by
  rw [target, tileByte, tileAddr]
  by_cases hlin : off < 2 ^ 44
  · rw [if_pos hlin]
    cases hbmOf false off s <;> simp <;> omega
  by_cases hspread : off < 2 ^ 45
  · rw [if_neg hlin, if_pos hspread]
    cases hbmOf true (off - 2 ^ 44) s <;> simp <;> omega
  by_cases htile : off < 3 * 2 ^ 44
  · rw [if_neg hlin, if_neg hspread, if_pos htile]
    dsimp only
    split
    · rw [Target.tile.injEq]
      omega
    · simp only [reduceCtorEq, false_iff]
      omega
  · rw [if_neg hlin, if_neg hspread, if_neg htile]
    have hnot : ¬ ((2 ^ 45 ≤ off ∧ off < 3 * 2 ^ 44) ∧ (q < 288 ∧ o < 0x600000) ∧ off % 2 ^ 45 = q * 2 ^ 23 + o) := by omega
    simp only [hnot, iff_false]
    (repeat' split) <;> nofun

theorem target_tile_state {off q o : Nat} {s : State} (h : target off s = .tile q o) (t : State) : target off t = .tile q o :=
  target_tile_iff.2 (target_tile_iff.1 h)

theorem target_tile_add {off q o : Nat} {s : State} (h : target off s = .tile q o) {m : Nat} (hm : o + m < 0x600000) :
    target (off + m) s = .tile q (o + m) := by
  simp only [target_tile_iff, tileByte, tileAddr] at h ⊢
  omega

theorem tileByte_eq {off q o : Nat} {s : State} (h : target off s = .tile q o) : tileByte off = tileAddr q o := by
  obtain ⟨-, -, hbyte⟩ := target_tile_iff.1 h
  exact hbyte

/-- A tile window ends below the next 256 TiB, so a range inside it has one package number. -/
theorem div_add_of_tile {a q o m : Nat} {s : State} (h : target (offOf a) s = .tile q o) (hm : o + m ≤ 0x600000) :
    (a + m) / 2 ^ 48 = a / 2 ^ 48 ∧ offOf (a + m) = offOf a + m := by
  simp only [target_tile_iff, tileByte, tileAddr, offOf] at h ⊢
  omega

/-! ### One write -/

theorem memWriteN_add (bg : Nat → Byte) : ∀ (m n a v : Nat) (mem : Mem),
    memWriteN bg a v (m + n) mem = memWriteN bg (a + m) (v / 2 ^ (8 * m)) n (memWriteN bg a v m mem)
  | 0, n, a, v, mem => by simp [memWriteN]
  | m + 1, n, a, v, mem => by
    have hv : v / 256 / 2 ^ (8 * m) = v / 2 ^ (8 * (m + 1)) := by
      rw [Nat.div_div_eq_div_mul, Nat.mul_succ, Nat.add_comm (8 * m), Nat.pow_add]
    rw [Nat.succ_add, memWriteN, memWriteN, memWriteN_add bg m n, hv, Nat.add_assoc, Nat.add_comm 1 m]

/-- A write takes the low bytes of its value. -/
theorem memWriteN_mod (bg : Nat → Byte) : ∀ (n a v : Nat) (mem : Mem), memWriteN bg a (v % 2 ^ (8 * n)) n mem = memWriteN bg a v n mem
  | 0, _, _, _ => rfl
  | n + 1, a, v, mem => by
    have hsplit : v % 2 ^ (8 * (n + 1)) = v % 256 + 256 * (v / 256 % 2 ^ (8 * n)) := by
      rw [Nat.mul_succ, Nat.add_comm (8 * n), Nat.pow_add, Nat.mod_mul]
    have hlow : BitVec.ofNat 8 (v % 2 ^ (8 * (n + 1))) = BitVec.ofNat 8 v := by
      apply BitVec.eq_of_toNat_eq
      rw [hsplit, BitVec.toNat_ofNat, BitVec.toNat_ofNat]
      omega
    have hhigh : v % 2 ^ (8 * (n + 1)) / 256 = v / 256 % 2 ^ (8 * n) := by
      rw [hsplit]
      omega
    rw [memWriteN, memWriteN, hlow, hhigh, memWriteN_mod bg n]

/-- Tile SRAM of `t` is `mem`; nothing else changed but poison marks: none is new, and only one of a tile line may be gone. -/
def TilesBecome (mem : Mem) (s t : State) : Prop :=
  ∃ ps, t = { s with tileSram := mem, poison := ps } ∧ (∀ l, l ∈ ps → l ∈ s.poison) ∧ ∀ l, l ∈ s.poison → l < 2 ^ 34 → l ∈ ps

theorem TilesBecome.refl (s : State) : TilesBecome s.tileSram s s := ⟨s.poison, rfl, fun _ h => h, fun _ h _ => h⟩

theorem TilesBecome.trans {m1 m2 : Mem} {s t u : State} (h1 : TilesBecome m1 s t) (h2 : TilesBecome m2 t u) : TilesBecome m2 s u := by
  obtain ⟨p1, rfl, hnone1, hkept1⟩ := h1
  obtain ⟨p2, rfl, hnone2, hkept2⟩ := h2
  exact ⟨p2, rfl, fun l hl => hnone1 l (hnone2 l hl), fun l hl hlow => hkept2 l (hkept1 l hl hlow) hlow⟩

theorem tilesBecome_tilePut (q o n v : Nat) (s : State) :
    TilesBecome (memWriteN zeroByte (tileAddr q o) v n s.tileSram) s (tilePut q o n v false s) := by
  rw [tilePut, if_neg Bool.false_ne_true]
  split
  · refine ⟨_, rfl, fun l hl => (List.mem_filter.1 hl).1, fun l hl hlow => List.mem_filter.2 ⟨hl, decide_eq_true ?_⟩⟩
    rw [tileKey]
    omega
  · exact ⟨_, rfl, fun _ h => h, fun _ h _ => h⟩

/-- A write into tile SRAM of the engine's own cluster does not leave. -/
theorem leaves_own_tile {k a q o : Nat} {s : State} (hlocal : isLocal a s = true) (ht : target (offOf a) s = .tile q o) (hk : porterCluster k = some (q / 8)) :
    leaves k a s = false := by
  rw [leaves, if_pos hlocal, ht, hk]
  simp

theorem engWriteGo_none (k : Nat) (poison : Bool) (fuel a v : Nat) (s : State) : engWriteGo k poison fuel a 0 v s = s := by
  cases fuel with
  | zero => rfl
  | succ fuel => rw [engWriteGo, if_pos rfl]

theorem tilesBecome_engWriteGo {k q : Nat} (hk : porterCluster k = some (q / 8)) : ∀ (fuel a n v o : Nat) (s : State),
    isLocal a s = true → target (offOf a) s = .tile q o → o + n ≤ 0x600000 → a % 128 + n ≤ 128 * fuel →
      TilesBecome (memWriteN zeroByte (tileAddr q o) v n s.tileSram) s (engWriteGo k false fuel a n v s)
  | 0, a, n, v, o, s, _, _, _, hfuel => by
    obtain rfl : n = 0 := by omega
    exact .refl s
  | fuel + 1, a, n, v, o, s, hlocal, ht, hfit, hfuel => by
    rw [engWriteGo]
    by_cases hn : n = 0
    · subst hn
      exact .refl s
    rw [if_neg hn]
    dsimp only
    generalize hm : min n (128 - a % 128) = m
    obtain ⟨r, rfl⟩ : ∃ r, n = m + r := ⟨n - m, by omega⟩
    have hput : TilesBecome (memWriteN zeroByte (tileAddr q o) v m s.tileSram) s (engPut k a m (v % 2 ^ (8 * m)) false s) := by
      rw [engPut, leaves_own_tile hlocal ht hk, if_neg Bool.false_ne_true, putLine_tile _ _ _ _ ht, ← memWriteN_mod]
      exact tilesBecome_tilePut ..
    rw [Nat.add_sub_cancel_left, memWriteN_add]
    by_cases hr : r = 0
    · subst hr
      rwa [engWriteGo_none, memWriteN]
    obtain ⟨hpkg, hoff⟩ := div_add_of_tile ht (m := m) (by omega)
    have haddr : tileAddr q o + m = tileAddr q (o + m) := by rw [tileAddr, tileAddr, Nat.add_assoc]
    have ⟨ps, hframe, _⟩ := hput
    have hlocal' : isLocal (a + m) (engPut k a m (v % 2 ^ (8 * m)) false s) = true := by
      rw [hframe, ← hlocal]
      simp only [isLocal, hpkg]
      rfl
    have htarget' : target (offOf (a + m)) (engPut k a m (v % 2 ^ (8 * m)) false s) = .tile q (o + m) := by
      rw [hoff]
      exact target_tile_state (target_tile_add ht (by omega)) _
    have hrest := tilesBecome_engWriteGo hk fuel (a + m) r (v / 2 ^ (8 * m)) (o + m) _ hlocal' htarget' (by omega) (by omega)
    rw [haddr]
    rw [show (engPut k a m (v % 2 ^ (8 * m)) false s).tileSram = memWriteN zeroByte (tileAddr q o) v m s.tileSram by rw [hframe]] at hrest
    exact hput.trans hrest

/-- A write of an engine into tile SRAM of its own cluster writes its bytes there at once. -/
theorem tilesBecome_engWrite {k q a n v o : Nat} {s : State} (hk : porterCluster k = some (q / 8)) (hlocal : isLocal a s = true)
    (ht : target (offOf a) s = .tile q o) (hfit : o + n ≤ 0x600000) :
    TilesBecome (memWriteN zeroByte (tileByte (offOf a)) v n s.tileSram) s (engWrite k a n v s) := by
  rw [tileByte_eq ht]
  exact tilesBecome_engWriteGo hk _ a n v o s hlocal ht hfit (by omega)

/-! ### A list of writes that lie apart -/

/-- The writes (global address, bytes, value) of engine `k`, one after another. -/
def engWrites (k : Nat) (ws : List (Nat × Nat × Nat)) (s : State) : State := ws.foldl (fun s w => engWrite k w.1 w.2.1 w.2.2 s) s

/-- The range of a write. -/
def writeRange (w : Nat × Nat × Nat) : Nat × Nat := (w.1, w.2.1)

/-- Byte `y` of tile SRAM lies in the range at a global address of a tile window. -/
def InRange (r : Nat × Nat) (y : Nat) : Prop := tileByte (offOf r.1) ≤ y ∧ y < tileByte (offOf r.1) + r.2

/-- The bytes of a write are there. -/
def BytesHeld (w : Nat × Nat × Nat) (t : State) : Prop := ∀ i, i < w.2.1 → sramByte (tileByte (offOf w.1) + i) t = BitVec.ofNat 8 (w.2.2 / 256 ^ i)

/-- Ranges of tile SRAM that lie apart share no byte. -/
theorem not_inRange_of_apart {a b : Nat × Nat} {cl : Nat} {s : State} {y : Nat} (ha : DestsInTiles cl [a] s) (hb : DestsInTiles cl [b] s)
    (hapart : overlaps (offOf a.1) a.2 (offOf b.1) b.2 = false) (hy : InRange a y) : ¬ InRange b y := by
  obtain ⟨-, q, o, hqo, -⟩ := ha.1 a (List.mem_singleton_self a)
  obtain ⟨-, r, p, hrp, -⟩ := hb.1 b (List.mem_singleton_self b)
  obtain ⟨hwindow, -⟩ := target_tile_iff.1 hqo
  obtain ⟨hwindow', -⟩ := target_tile_iff.1 hrp
  simp only [overlaps, ne_eq, decide_not, Bool.and_eq_false_iff, decide_eq_false_iff_not, Bool.not_eq_false', decide_eq_true_eq] at hapart
  unfold InRange tileByte at *
  omega

theorem destsInTiles_cons {cl : Nat} {r : Nat × Nat} {l : List (Nat × Nat)} {s : State} (h : DestsInTiles cl (r :: l) s) :
    DestsInTiles cl [r] s ∧ DestsInTiles cl l s ∧ ∀ x ∈ l, overlaps (offOf r.1) r.2 (offOf x.1) x.2 = false := by
  obtain ⟨hin, happart⟩ := h
  obtain ⟨hhead, htail⟩ := List.pairwise_cons.1 happart
  exact ⟨⟨fun x hx => hin x (List.mem_cons.2 (.inl (List.mem_singleton.1 hx))), List.pairwise_singleton ..⟩,
    ⟨fun x hx => hin x (List.mem_cons_of_mem r hx), htail⟩, hhead⟩

theorem destsInTiles_mem {cl : Nat} {r : Nat × Nat} {l : List (Nat × Nat)} {s : State} (h : DestsInTiles cl l s) (hr : r ∈ l) : DestsInTiles cl [r] s :=
  ⟨fun x hx => h.1 x (List.mem_singleton.1 hx ▸ hr), List.pairwise_singleton ..⟩

theorem TilesBecome.dests {mem : Mem} {s t : State} (h : TilesBecome mem s t) {cl : Nat} {l : List (Nat × Nat)} (hd : DestsInTiles cl l s) :
    DestsInTiles cl l t := by
  obtain ⟨ps, rfl, -⟩ := h
  refine ⟨fun r hr => ?_, hd.2⟩
  obtain ⟨hlocal, q, o, hqo, hcl⟩ := hd.1 r hr
  exact ⟨hlocal, q, o, target_tile_state hqo _, hcl⟩

/-- One write of an engine into its own cluster. -/
theorem engWrite_own {k cl : Nat} (hk : porterCluster k = some cl) {w : Nat × Nat × Nat} {s : State} (hd : DestsInTiles cl [writeRange w] s) :
    TilesBecome (memWriteN zeroByte (tileByte (offOf w.1)) w.2.2 w.2.1 s.tileSram) s (engWrite k w.1 w.2.1 w.2.2 s) := by
  obtain ⟨hlocal, q, o, hqo, rfl, hfit⟩ := hd.1 _ (List.mem_singleton_self _)
  exact tilesBecome_engWrite hk hlocal hqo hfit

/-- Writes that lie apart in the own cluster all stay, and every other byte is as before. -/
theorem engWrites_own {k cl : Nat} (hk : porterCluster k = some cl) : ∀ (ws : List (Nat × Nat × Nat)) (s : State), DestsInTiles cl (ws.map writeRange) s →
    (∃ mem, TilesBecome mem s (engWrites k ws s)) ∧ (∀ w ∈ ws, BytesHeld w (engWrites k ws s)) ∧
      ∀ y, (∀ w ∈ ws, ¬ InRange (writeRange w) y) → sramByte y (engWrites k ws s) = sramByte y s
  | [], s, _ => ⟨⟨_, .refl s⟩, nofun, fun _ _ => rfl⟩
  | w :: ws, s, hd => by
    obtain ⟨hhead, htail, hapart⟩ := destsInTiles_cons hd
    have hone := engWrite_own hk hhead
    obtain ⟨⟨mem, hmem⟩, hheld, hkept⟩ := engWrites_own hk ws _ (hone.dests htail)
    change TilesBecome _ _ (engWrites k (w :: ws) s) at hmem
    change ∀ v ∈ ws, BytesHeld v (engWrites k (w :: ws) s) at hheld
    change ∀ y, _ → sramByte y (engWrites k (w :: ws) s) = _ at hkept
    have hsram : (engWrite k w.1 w.2.1 w.2.2 s).tileSram = memWriteN zeroByte (tileByte (offOf w.1)) w.2.2 w.2.1 s.tileSram := by
      obtain ⟨ps, hframe, -⟩ := hone
      rw [hframe]
    refine ⟨⟨mem, hone.trans hmem⟩, fun v hv => ?_, fun y hy => ?_⟩
    · rcases List.mem_cons.1 hv with rfl | hv
      · intro i hi
        have hout : ∀ u ∈ ws, ¬ InRange (writeRange u) (tileByte (offOf v.1) + i) := fun u hu =>
          not_inRange_of_apart hhead (destsInTiles_mem htail (List.mem_map_of_mem hu)) (hapart _ (List.mem_map_of_mem hu))
            ⟨Nat.le_add_right _ _, Nat.add_lt_add_left hi _⟩
        rw [hkept _ hout, sramByte, hsram]
        exact memRead_memWriteN_inside _ _ _ _ _ _ hi
      · exact hheld v hv
    · have hw : ¬ (tileByte (offOf w.1) ≤ y ∧ y < tileByte (offOf w.1) + w.2.1) := hy w (List.mem_cons_self ..)
      rw [hkept y fun v hv => hy v (List.mem_cons_of_mem w hv), sramByte, hsram]
      exact memRead_memWriteN_outside _ _ _ _ _ _ (by omega)

theorem holdsInTile_of_bytesHeld {a n v : Nat} {t : State} (h : BytesHeld (a, n, v) t) : HoldsInTile a n v t := by
  intro q o hqo
  have hbytes : ∀ i, i < n → memRead zeroByte t.tileSram (tileAddr q o + i) = BitVec.ofNat 8 (v / 256 ^ i) := fun i hi => by
    rw [← h i hi, ← tileByte_eq hqo, sramByte]
  rw [tileReadN, memReadN_eq_mod _ _ n v _ hbytes, Nat.pow_mul]

/-! ### The frame of an engine's run -/

/-- The instruction with an outcome of its own. -/
def OutcomeOnly (e y : EngIns) : Prop := ∃ flags value count first, y = { e with flags := flags, value := value, count := count, first := first }

/-- Putting the instruction back as executed, where no engine and no core changed. -/
theorem executed_of_outcomeOnly {k : Nat} {e y : EngIns} {ue : Bool} {first : Nat} {s u : State} (hy : OutcomeOnly { e with first := first, ue := ue } y)
    (hengines : u.engines = s.engines) (hcores : u.cores = s.cores) : Executed k e { y with phase := 1 } s (setHead k { y with phase := 1 } u) := by
  obtain ⟨flags, value, count, first, rfl⟩ := hy
  have hkept : ∀ j, getEng j u = getEng j s := fun j => by rw [getEng, getEng, hengines]
  refine ⟨?_, rfl, rfl, fun j hj => ?_, hcores⟩
  · rw [getEng_setHead, if_pos rfl, hkept]
  · rw [getEng_setHead, if_neg hj, hkept]

/-- Nothing is sent where nothing waits to leave. -/
theorem engFlush_empty {k : Nat} {s : State} (h : (getEng k s).tx = []) : engFlush k s = s := by
  unfold engFlush
  dsimp only
  rw [h]

/-- With every source at hand the engine runs on the state as it is. -/
theorem withSources_here {k : Nat} {ranges : List (Nat × Nat)} {s : State} (h : SourcesHere k ranges s) (body : State → State) :
    withSources k ranges body s = body s := by
  obtain ⟨hheld, hmissing, -, halloc, -⟩ := h
  have hfill : streamFill k ranges s = s := by
    rw [streamFill, if_neg]
    simp [halloc]
  rw [withSources, withSourcesLat, hheld]
  dsimp only
  rw [hmissing]
  dsimp only
  rw [hfill]

/-- No source byte is bad where no line reads poisoned and ECC reported none. -/
theorem badAddrs_clean {k : Nat} {ranges : List (Nat × Nat)} {s : State} (h : SourcesHere k ranges s) : badAddrs k [] ranges s = [] := by
  obtain ⟨-, -, hpoison, -⟩ := h
  have hlines : (ranges.flatMap fun r => rangeLines r.1 r.2).filter (fun l => engPoison k l s) = [] := by
    refine List.filter_eq_nil_iff.2 fun l hl => ?_
    obtain ⟨r, hr, hlr⟩ := List.mem_flatMap.1 hl
    rw [hpoison r hr l hlr]
    exact Bool.false_ne_true
  rw [badAddrs, hlines]
  rfl

theorem badGlobal_clean {k a n : Nat} {ranges : List (Nat × Nat)} {s : State} (h : SourcesHere k ranges s) (ha : (a, n) ∈ ranges) :
    badGlobal k [] a n s = false := by
  obtain ⟨-, -, hpoison, -⟩ := h
  rw [badGlobal, List.any_nil, Bool.false_or, List.any_eq_false]
  exact fun l hl => by rw [hpoison _ ha l hl]; exact Bool.false_ne_true

section
variable {k cl : Nat} (hk : porterCluster k = some cl) {ws : List (Nat × Nat × Nat)} {dests : List (Nat × Nat)} {s u : State} {e y : EngIns}
  {ue : Bool} {first : Nat} (hdests : DestsInTiles cl (ws.map writeRange) s) (hsub : ∀ r ∈ ws.map writeRange, r ∈ dests)
  (htx : (getEng k s).tx = []) (hy : OutcomeOnly { e with first := first, ue := ue } y) (hregs : RegsOnly (engWrites k ws s) u)
include hk hdests hsub htx hy hregs

/-- An engine that has written into its own cluster, counted in its registers and put its instruction back has executed it, has written those ranges
alone, and holds its results there. -/
theorem executed_engWrites : Executed k e { y with phase := 1 } s (setHead k { y with phase := 1 } (engFlush k u)) ∧
    OnlyTilesWritten dests s (setHead k { y with phase := 1 } (engFlush k u)) ∧
    ∀ w ∈ ws, HoldsInTile w.1 w.2.1 w.2.2 (setHead k { y with phase := 1 } (engFlush k u)) := by
  obtain ⟨⟨mem, ps, hframe, hnone, hkept⟩, hheld, hbytes⟩ := engWrites_own hk ws s hdests
  generalize engWrites k ws s = t at hregs hframe hheld hbytes
  obtain ⟨c, n, rfl⟩ := hregs
  rw [engFlush_empty (by rw [hframe]; exact htx)]
  refine ⟨executed_of_outcomeOnly hy (by rw [hframe]) (by rw [hframe]), ⟨fun y hy => ?_, ?_, ?_, ?_, ?_⟩, fun w hw => ?_⟩
  · refine hbytes y fun w hw hin => ?_
    obtain ⟨-, q, o, hqo, -⟩ := hdests.1 _ (List.mem_map_of_mem hw)
    refine hy (writeRange w) (hsub _ (List.mem_map_of_mem hw)) q o hqo ?_
    rwa [← tileByte_eq hqo]
  · rw [hframe]; rfl
  · rw [hframe]; rfl
  · rw [hframe]; exact hnone
  · rw [hframe]; exact hkept
  · exact holdsInTile_of_bytesHeld (hheld w hw)

end

end Sys2Proof.Machine
end

section
/-! PROOFS. The stencil engine and the Assay unit: their writes as one list, the points and blocks on clean data, and the statement about what they
write (R120, R176 to R182). -/

namespace Sys2Proof.Machine

open Sys2Proof.Claims

/-! ### The stencil (R120) -/

/-- The stencil writes its points one after another and notes their outcome alone. -/
theorem sxWrite_engWrites (k : Nat) : ∀ (outs : List (Nat × Nat × Nat)) (e : EngIns) (i : Nat) (s : State),
    OutcomeOnly e (sxWrite k outs e i s).1 ∧ (sxWrite k outs e i s).2 = engWrites k (outs.map fun p => (p.1, 8, p.2.1)) s
  | [], e, _, s => ⟨⟨e.flags, e.value, e.count, e.first, rfl⟩, rfl⟩
  | (a, v, fl) :: m, e, i, s => by
    rw [sxWrite]
    obtain ⟨⟨flags, value, count, first, hins⟩, hstate⟩ := sxWrite_engWrites k m _ (i + 1) (engWrite k a 8 v s)
    exact ⟨⟨flags, value, count, first, hins⟩, hstate⟩

/-- What the stencil computes at a point. -/
def stencilAt (cl : Nat) (x : SxD) (s : State) (q : Nat × Nat × Nat) : Nat × Nat :=
  sxTaps (kSx cl) x s q (List.range x.taps) (if x.acc then engRead (kSx cl) (x.outAt q) 8 s else 2 ^ 63, 0)

/-- With no source bad every point is what the taps give. -/
theorem sxPoint_clean {cl : Nat} {x : SxD} {s : State} (h : SourcesHere (kSx cl) (sxRanges x) s) {q : Nat × Nat × Nat} (hq : q ∈ x.points) :
    sxPoint (kSx cl) x [] s q = stencilAt cl x s q := by
  have hclean : ¬ ((if x.acc then [x.outAt q] else []) ++ x.reads q).any (fun a => badGlobal (kSx cl) [] a 8 s) = true := by
    rw [List.any_eq_true]
    rintro ⟨a, ha, hbad⟩
    rw [badGlobal_clean h (List.mem_flatMap.2 ⟨q, hq, List.mem_map_of_mem ha⟩)] at hbad
    exact Bool.false_ne_true hbad
  rw [sxPoint, if_neg hclean, stencilAt]
  rfl

/-- The stencil's writes. -/
def stencilWrites (cl : Nat) (x : SxD) (s : State) : List (Nat × Nat × Nat) := x.points.map fun q => (x.outAt q, 8, (stencilAt cl x s q).1)

theorem kSx_porterCluster (cl : Fin 36) : porterCluster (kSx cl) = some cl.val := by
  have hcl := cl.isLt
  rw [porterCluster, kSx, if_pos (by omega), Option.some_inj]
  omega

theorem kAsy_porterCluster (cl : Fin 36) : porterCluster (kAsy cl) = some cl.val := by
  have hcl := cl.isLt
  rw [porterCluster, kAsy, if_pos (by omega), Option.some_inj]
  omega

/-- The run of the stencil with every source at hand and no bad data: its writes, a count in a register, and the instruction put back. -/
theorem sxRun_clean {cl corrected : Nat} {s : State} {e : EngIns} (he : engHead (kSx cl) s = some e) (hphase : e.phase = 0)
    (h : SourcesHere (kSx cl) (sxRanges ⟨e.desc⟩) s) :
    ∃ y, OutcomeOnly { e with first := 0x1FFFFFF, ue := false } y ∧
      sxRun cl ⟨corrected, []⟩ s = setHead (kSx cl) { y with phase := 1 }
        (engFlush (kSx cl) (bumpF (sxBase cl) R.SX_CE_COUNT_COUNT corrected (engWrites (kSx cl) (stencilWrites cl ⟨e.desc⟩ s) s))) := by
  have hbad : badAddrs (kSx cl) [] (sxRanges ⟨e.desc⟩) s ++ sxWindowBad [] (sxRanges ⟨e.desc⟩) = [] := by
    rw [badAddrs_clean h]
    rfl
  have houts : (SxD.points ⟨e.desc⟩).map (fun q => (SxD.outAt ⟨e.desc⟩ q, sxPoint (kSx cl) ⟨e.desc⟩ [] s q)) =
      (SxD.points ⟨e.desc⟩).map (fun q => (SxD.outAt ⟨e.desc⟩ q, stencilAt cl ⟨e.desc⟩ s q)) :=
    List.map_congr_left fun q hq => by rw [sxPoint_clean h hq]
  rw [sxRun, he]
  dsimp only
  rw [if_neg (by simp [hphase]), withSources_here h]
  rw [List.map_nil, hbad, houts]
  obtain ⟨hins, hstate⟩ := sxWrite_engWrites (kSx cl) ((SxD.points ⟨e.desc⟩).map (fun q => (SxD.outAt ⟨e.desc⟩ q, stencilAt cl ⟨e.desc⟩ s q)))
    { e with first := 0x1FFFFFF, ue := false } 0 s
  rw [List.map_map] at hstate
  refine ⟨_, hins, ?_⟩
  rw [List.isEmpty_nil, engUe, Bool.not_true, hstate]
  rfl

/-! ### The Assay unit (R176 to R182) -/

/-- What one row of the Assay unit writes: its elements, its scales and its sidecars. -/
def assayRow (x : AsyD) (r : Nat) (bs : List AsyBlk) : List (Nat × Nat × Nat) :=
  [(x.rDst.base + r * x.rDst.stride, x.rDst.len, packBits (codeBits x.df) (bs.flatMap (·.out)))] ++
    (if x.scaled && !x.widen then [(x.rScl.base + r * x.rScl.stride, x.rScl.len, packBits 8 (bs.map (·.scale)))] else []) ++
    (if x.scEn then [(x.rSide.base + 8 * r * x.nb, 8 * x.nb, packBits 64 (bs.map (fun b => b.abs + 2 ^ 32 * b.rel)))] else [])

theorem engWrites_append (k : Nat) (l m : List (Nat × Nat × Nat)) (s : State) : engWrites k (l ++ m) s = engWrites k m (engWrites k l s) :=
  List.foldl_append ..

/-- The instruction with the flags, VALUE, COUNT and FIRST of one row more. -/
def assayNote (x : AsyD) (r : Nat) (bs : List AsyBlk) (e : EngIns) : EngIns :=
  let val := fun (b : AsyBlk) => if x.widen && !x.refEn then b.abs else b.rel
  { e with
    flags := bs.foldl (fun a b => a ||| b.flags) e.flags
    value := bs.foldl (fun a b => if val b > 0x7F800000 then a else max a (val b)) e.value
    count := e.count + (bs.filter (·.nonfin)).length
    first := min e.first ((bs.findIdx? (·.nonfin)).map (fun j => r * x.nb + j) |>.getD 0x1FFFFFF) }

theorem asyWrite_cons (k : Nat) (x : AsyD) (r : Nat) (bs : List AsyBlk) (m : List (Nat × List AsyBlk)) (e : EngIns) (s : State) :
    asyWrite k x ((r, bs) :: m) e s = asyWrite k x m (assayNote x r bs e) (engWrites k (assayRow x r bs) s) := by
  rw [asyWrite, assayRow]
  cases x.scEn <;> cases (x.scaled && !x.widen) <;> rfl

/-- The Assay unit writes its rows one after another and notes their outcome alone. -/
theorem asyWrite_engWrites (k : Nat) (x : AsyD) : ∀ (blks : List (Nat × List AsyBlk)) (e : EngIns) (s : State),
    OutcomeOnly e (asyWrite k x blks e s).1 ∧ (asyWrite k x blks e s).2 = engWrites k (blks.flatMap fun p => assayRow x p.1 p.2) s
  | [], e, s => ⟨⟨e.flags, e.value, e.count, e.first, rfl⟩, rfl⟩
  | (r, bs) :: m, e, s => by
    obtain ⟨⟨flags, value, count, first, hins⟩, hstate⟩ := asyWrite_engWrites k x m (assayNote x r bs e) (engWrites k (assayRow x r bs) s)
    rw [asyWrite_cons]
    exact ⟨⟨flags, value, count, first, hins⟩, by rw [hstate, List.flatMap_cons, engWrites_append]⟩

/-- The blocks of the tensor, row by row. -/
def assayBlks (cl : Nat) (x : AsyD) (sat : Bool) (s : State) (r : Nat) : List AsyBlk := (List.range x.nb).map fun j => asyBlk (kAsy cl) x sat [] s r j

/-- The Assay unit's writes. -/
def assayWrites (cl : Nat) (x : AsyD) (sat : Bool) (s : State) : List (Nat × Nat × Nat) :=
  (List.range x.rows).flatMap fun r => assayRow x r (assayBlks cl x sat s r)

/-- The run of the Assay unit with every source at hand, no bad data and no bitmap: its writes, counts in registers, and the instruction put back. -/
theorem asyRun_clean {cl corrected : Nat} {widen : Bool} {s : State} {e : EngIns} (he : engHead (kAsy cl) s = some e) (hphase : e.phase = 0)
    (hwiden : AsyD.widen ⟨e.desc⟩ = widen) (hbmp : AsyD.bmpEn ⟨e.desc⟩ = false) (h : SourcesHere (kAsy cl) (rowList (AsyD.reads ⟨e.desc⟩)) s) :
    ∃ y u, OutcomeOnly { e with first := 0x1FFFFFF, ue := false } y ∧
      RegsOnly (engWrites (kAsy cl) (assayWrites cl ⟨e.desc⟩ (bitAt e.cfg.toNat 0) s) s) u ∧
      asyRun widen cl ⟨corrected, []⟩ s = setHead (kAsy cl) { y with phase := 1 } (engFlush (kAsy cl) u) := by
  have hguard : ¬ (e.phase ≠ 0 ∨ AsyD.widen ⟨e.desc⟩ ≠ widen) := by simp [hphase, hwiden]
  let r := asyWrite (kAsy cl) ⟨e.desc⟩ ((List.range (AsyD.rows ⟨e.desc⟩)).map fun r => (r, assayBlks cl ⟨e.desc⟩ (bitAt e.cfg.toNat 0) s r))
    { e with first := 0x1FFFFFF, ue := false } s
  obtain ⟨hins, hstate⟩ := asyWrite_engWrites (kAsy cl) ⟨e.desc⟩
    ((List.range (AsyD.rows ⟨e.desc⟩)).map fun r => (r, assayBlks cl ⟨e.desc⟩ (bitAt e.cfg.toNat 0) s r)) { e with first := 0x1FFFFFF, ue := false } s
  refine ⟨r.1, bumpF (asyBase cl) R.ASY_NONFIN_COUNT r.1.count (bumpF (asyBase cl) R.ASY_CE_COUNT_COUNT corrected r.2), hins, ?_, ?_⟩
  · rw [assayWrites, ← List.flatMap_map (f := fun r => (r, assayBlks cl ⟨e.desc⟩ (bitAt e.cfg.toNat 0) s r)) (g := fun p => assayRow ⟨e.desc⟩ p.1 p.2),
      ← hstate]
    exact ((RegsOnly.refl _).bumpF ..).bumpF ..
  · rw [asyRun, he]
    dsimp only
    rw [if_neg hguard, withSources_here h, badAddrs_clean h, hbmp, if_neg Bool.false_ne_true]
    rfl

theorem elements_mem_assayRow (x : AsyD) (r : Nat) (bs : List AsyBlk) :
    (x.rDst.base + r * x.rDst.stride, x.rDst.len, packBits (codeBits x.df) (bs.flatMap (·.out))) ∈ assayRow x r bs := by
  rw [assayRow]
  exact List.mem_append_left _ (List.mem_append_left _ (List.mem_singleton_self _))

theorem scales_mem_assayRow {x : AsyD} (hscaled : x.scaled = true) (hwiden : x.widen = false) (r : Nat) (bs : List AsyBlk) :
    (x.rScl.base + r * x.rScl.stride, x.rScl.len, packBits 8 (bs.map (·.scale))) ∈ assayRow x r bs := by
  rw [assayRow, hscaled, hwiden]
  exact List.mem_append_left _ (List.mem_append_right _ (List.mem_singleton_self _))

theorem sidecars_mem_assayRow {x : AsyD} (hside : x.scEn = true) (r : Nat) (bs : List AsyBlk) :
    (x.rSide.base + 8 * r * x.nb, 8 * x.nb, packBits 64 (bs.map (fun b => b.abs + 2 ^ 32 * b.rel))) ∈ assayRow x r bs := by
  rw [assayRow, hside]
  exact List.mem_append_right _ (List.mem_singleton_self _)

/-- Where row `r` of the Assay unit writes. -/
theorem map_writeRange_assayRow (x : AsyD) (r : Nat) (bs : List AsyBlk) : (assayRow x r bs).map writeRange =
    [(x.rDst.base + r * x.rDst.stride, x.rDst.len)] ++
      (if x.scaled && !x.widen then [(x.rScl.base + r * x.rScl.stride, x.rScl.len)] else []) ++
      (if x.scEn then [(x.rSide.base + 8 * r * x.nb, 8 * x.nb)] else []) := by
  rw [assayRow]
  cases x.scEn <;> cases (x.scaled && !x.widen) <;> rfl

/-- A range given per row where a condition holds is the ranges of all rows where it holds. -/
theorem flatMap_ite_singleton {α β : Type} (c : Bool) (l : List α) (f : α → β) : l.flatMap (fun r => if c then [f r] else []) = if c then l.map f else [] := by
  cases c with
  | true => exact List.map_eq_flatMap.symm
  | false => simp

/-- Row by row, or array by array, the Assay unit writes the same ranges. -/
theorem asyDests_perm (cl : Nat) (x : AsyD) (sat : Bool) (s : State) : ((assayWrites cl x sat s).map writeRange).Perm (asyDests x) := by
  have hscl : (if x.scaled && !x.widen then rowList [x.rScl] else []) =
      (List.range x.rows).flatMap fun r => if x.scaled && !x.widen then [(x.rScl.base + r * x.rScl.stride, x.rScl.len)] else [] := by
    rw [flatMap_ite_singleton]
    cases hscaled : x.scaled <;> cases x.widen <;> simp [rowList, AsyD.rScl, hscaled]
  have hdst : rowList [x.rDst] = (List.range x.rows).flatMap fun r => [(x.rDst.base + r * x.rDst.stride, x.rDst.len)] := by
    simp [rowList, AsyD.rDst, List.map_eq_flatMap]
  rw [asyDests, hscl, hdst, ← flatMap_ite_singleton, assayWrites, List.map_flatMap]
  simp only [map_writeRange_assayRow]
  exact (List.flatMap_append_perm ..).symm.trans ((List.flatMap_append_perm ..).symm.append_right _)

theorem overlaps_comm (a n b m : Nat) : overlaps a n b m = overlaps b m a n := by
  rw [overlaps, overlaps]
  ac_rfl

theorem destsInTiles_perm {cl : Nat} {l m : List (Nat × Nat)} {s : State} (hperm : l.Perm m) (h : DestsInTiles cl m s) : DestsInTiles cl l s := by
  obtain ⟨hin, happart⟩ := h
  refine ⟨fun r hr => hin r (hperm.mem_iff.1 hr), hperm.symm.pairwise happart fun {a b} hab => ?_⟩
  rwa [overlaps_comm]

/-! ### The statement -/

/-- Settles O44: both engines write a list of ranges that lie apart in their own cluster, and nothing else of memory. -/
theorem stencilAndAssayWriteTheirResults : Obligations.StencilAndAssayWriteTheirResults := by
  intro cl corrected s e
  refine ⟨fun he hphase => ?_, fun he hphase => ?_⟩
  · intro x dests hsources hdests
    have hranges : (stencilWrites cl x s).map writeRange = dests := by
      rw [stencilWrites, List.map_map]
      rfl
    have ⟨_, _, _, _, htx⟩ := hsources
    obtain ⟨y, hy, hrun⟩ := sxRun_clean (corrected := corrected) he hphase hsources
    have hrun : Runs (.sxStencil cl ⟨corrected, []⟩) s _ := congrArg Host.Outcome.next hrun
    obtain ⟨hexecuted, honly, hholds⟩ := executed_engWrites (kSx_porterCluster cl) (ws := stencilWrites cl x s) (dests := dests)
      (by rw [hranges]; exact hdests) (fun r hr => hranges ▸ hr) htx hy ((RegsOnly.refl _).bumpF (sxBase cl) R.SX_CE_COUNT_COUNT corrected)
    exact ⟨_, _, hrun, hexecuted, honly, fun q hq => hholds _ (List.mem_map_of_mem hq)⟩
  · intro x blk hsources hdests hbmp _ i hi
    have hperm := asyDests_perm cl x (bitAt e.cfg.toNat 0) s
    have ⟨_, _, _, _, htx⟩ := hsources
    have hrun : ∃ y u, OutcomeOnly { e with first := 0x1FFFFFF, ue := false } y ∧
        RegsOnly (engWrites (kAsy cl) (assayWrites cl x (bitAt e.cfg.toNat 0) s) s) u ∧
        Runs i s (setHead (kAsy cl) { y with phase := 1 } (engFlush (kAsy cl) u)) := by
      rcases hi with ⟨rfl, hwiden⟩ | ⟨rfl, hwiden⟩
      · obtain ⟨y, u, hy, hu, hrun⟩ := asyRun_clean (corrected := corrected) he hphase hwiden hbmp hsources
        exact ⟨y, u, hy, hu, congrArg _ hrun⟩
      · obtain ⟨y, u, hy, hu, hrun⟩ := asyRun_clean (corrected := corrected) he hphase hwiden hbmp hsources
        exact ⟨y, u, hy, hu, congrArg _ hrun⟩
    obtain ⟨y, u, hy, hu, hrun⟩ := hrun
    obtain ⟨hexecuted, honly, hholds⟩ := executed_engWrites (kAsy_porterCluster cl) (destsInTiles_perm hperm hdests) (fun r => hperm.mem_iff.1) htx hy hu
    refine ⟨_, _, hrun, hexecuted, honly, fun r hr => ?_⟩
    have hrow : ∀ w ∈ assayRow x r (assayBlks cl x (bitAt e.cfg.toNat 0) s r), w ∈ assayWrites cl x (bitAt e.cfg.toNat 0) s := fun w hw =>
      List.mem_flatMap.2 ⟨r, List.mem_range.2 hr, hw⟩
    refine ⟨?_, fun hscaled hwiden => ?_, fun hside => ?_⟩
    · have hdst := hholds _ (hrow _ (elements_mem_assayRow ..))
      rwa [assayBlks, List.flatMap_map] at hdst
    · have hscl := hholds _ (hrow _ (scales_mem_assayRow hscaled hwiden ..))
      rwa [assayBlks, List.map_map] at hscl
    · have hsc := hholds _ (hrow _ (sidecars_mem_assayRow hside ..))
      rwa [assayBlks, List.map_map] at hsc

end Sys2Proof.Machine
end

section
/-! PROOFS. Cores that retire: what a register pair reads after a write, which words decide where a local offset lies, what retiring changes of a core and of the
state, and the statements about the scalar classes (R134, R136, R138, R161, R349, R426). -/

namespace Sys2Proof.Machine

open Sys2Proof.Claims

/-! ### Register words and pairs (R426) -/

theorem csrGet_setF_other {base off : Nat} {f : Fld} (v d : Nat) (s : State) (h : off ≠ base + f.off) :
    csrGet d off (setF base f v s) = csrGet d off s := csrGet_csrSet_other _ _ _ _ _ _ h

theorem getF_of_word {base : Nat} {f : Fld} {s t : State} (h : csrGet f.word (base + f.off) t = csrGet f.word (base + f.off) s) :
    getF base f t = getF base f s := by
  rw [getF, getF, h]

/-- The two halves of a 64-bit register fill a word each. -/
abbrev HalvesOf (lo hi : Fld) : Prop := lo.lo = 0 ∧ lo.w = 32 ∧ hi.lo = 0 ∧ hi.w = 32 ∧ lo.off ≠ hi.off

theorem getPair_setPair {lo hi : Fld} (h : HalvesOf lo hi) (base v : Nat) (s : State) : getPair base lo hi (setPair base lo hi v s) = v % 2 ^ 64 := by
  obtain ⟨hlo, hlow, hhi, hhiw, hoff⟩ := h
  have hlow' : getF base lo (setPair base lo hi v s) = v % 2 ^ 32 := by
    rw [setPair, getF_setF_other _ _ _ _ _ _ (by omega), getF_setF _ _ _ _ (by omega), hlow]
  have hhigh : getF base hi (setPair base lo hi v s) = v / 2 ^ 32 % 2 ^ 32 := by
    rw [setPair, getF_setF _ _ _ _ (by omega), hhiw]
  rw [getPair, hlow', hhigh]
  omega

theorem getPair_of_words {base : Nat} {lo hi : Fld} {s t : State} (h : ∀ d off, pairWords base lo hi off → csrGet d off t = csrGet d off s) :
    getPair base lo hi t = getPair base lo hi s := by
  rw [getPair, getPair, getF_of_word (h _ _ (.inl rfl)), getF_of_word (h _ _ (.inr rfl))]

/-- Only register words that `touched` names changed. -/
def OnlyWords (touched : Nat → Prop) (s t : State) : Prop :=
  ∃ c, t = { s with csr := c } ∧ ∀ d off, ¬ touched off → csrGet d off t = csrGet d off s

theorem OnlyWords.refl (touched : Nat → Prop) (s : State) : OnlyWords touched s s := ⟨s.csr, rfl, fun _ _ _ => rfl⟩

theorem OnlyWords.trans {touched : Nat → Prop} {s t u : State} (h : OnlyWords touched s t) (h' : OnlyWords touched t u) : OnlyWords touched s u := by
  obtain ⟨c, rfl, hc⟩ := h
  obtain ⟨c', rfl, hc'⟩ := h'
  exact ⟨c', rfl, fun d off hoff => (hc' d off hoff).trans (hc d off hoff)⟩

theorem OnlyWords.mono {touched wider : Nat → Prop} {s t : State} (h : OnlyWords touched s t) (hle : ∀ off, touched off → wider off) :
    OnlyWords wider s t := by
  obtain ⟨c, rfl, hc⟩ := h
  exact ⟨c, rfl, fun d off hoff => hc d off fun ht => hoff (hle off ht)⟩

theorem onlyWords_setF (base : Nat) (f : Fld) (v : Nat) (s : State) : OnlyWords (fun off => off = base + f.off) s (setF base f v s) :=
  ⟨_, rfl, fun d _ hoff => csrGet_setF_other v d s hoff⟩

theorem onlyWords_setPair (base : Nat) (lo hi : Fld) (v : Nat) (s : State) : OnlyWords (pairWords base lo hi) s (setPair base lo hi v s) :=
  ((onlyWords_setF base lo _ s).mono fun _ => .inl).trans ((onlyWords_setF base hi _ _).mono fun _ => .inr)

theorem onlyWords_addPair (base : Nat) (lo hi : Fld) (n : Nat) (s : State) : OnlyWords (pairWords base lo hi) s (addPair base lo hi n s) :=
  onlyWords_setPair ..

theorem countedOne_addPair {lo hi : Fld} (h : HalvesOf lo hi) (base : Nat) (s : State) : CountedOne base lo hi s (addPair base lo hi 1 s) := by
  rw [CountedOne, addPair, getPair_setPair h]
  omega

/-! ### Where the registers of cores and Depots lie (R33) -/

/-- The registers of the package's sequencer cores lie below the Logbook's, those of compute dies above all others. -/
theorem seqBase_range {c x : Nat} (hc : c < 44) (hx : x < 0x1000) :
    0x028000 ≤ seqBase c + x ∧ seqBase c + x < 0x030000 ∨ 0x1000000 ≤ seqBase c + x := by
  unfold seqBase clusterBase dieBase
  split <;> omega

theorem le_depBase (d : Nat) : 0x1000000 ≤ depBase d := by
  unfold depBase dieBase
  omega

theorem startWord_eq {off : Nat} (h : startWord off) : off = 0x060038 ∨ off = 0x06003C := h

/-! ### What keeps every byte of local memory (R227, R230, R290) -/

/-- The two words that decide what a local offset names: the spread size and the size of the companion window. -/
def mapWord (off : Nat) : Prop := off = mempBase + R.MEM_SPREAD_SIZE.off ∨ off = halBase + R.HAL_WIN_SIZE_GIB.off

theorem mapWord_eq {off : Nat} (h : mapWord off) : off = 0x2C0000 ∨ off = 0x4C0018 := h

theorem target_of_mapWords {s t : State} (h : ∀ d off, mapWord off → csrGet d off t = csrGet d off s) (off : Nat) : target off t = target off s := by
  have hspread : spreadGib t = spreadGib s := by rw [spreadGib, spreadGib, getF_of_word (h _ _ (.inl rfl))]
  have hwin : halWinBytes t = halWinBytes s := by rw [halWinBytes, halWinBytes, getF_of_word (h _ _ (.inr rfl))]
  have hhbm : ∀ spread o, hbmOf spread o t = hbmOf spread o s := fun spread o => by rw [hbmOf, hbmOf, hspread]
  simp only [target, hhbm, hwin]

/-- With the memories and these two words kept, every byte of local memory reads as before. -/
theorem bytesKept_of_mapWords {s t : State} (hcsr : ∀ d off, mapWord off → csrGet d off t = csrGet d off s) (htile : t.tileSram = s.tileSram)
    (hhbm : t.hbm = s.hbm) (hbg : t.hbmBg = s.hbmBg) (hdepot : t.depot = s.depot) : BytesKept s t := by
  have hbytes : hbmBgByte t = hbmBgByte s := by
    funext a
    rw [hbmBgByte, hbmBgByte, hbg]
  have hline : ∀ off, localLine off t = localLine off s := fun off => by
    simp only [localLine, target_of_mapWords hcsr, lineNat, hbmLine, tileReadN, htile, hhbm, hbytes, hdepot]
  have hgo : ∀ fuel off n, readOffGo t fuel off n = readOffGo s fuel off n := fun fuel => by
    induction fuel with
    | zero => exact fun _ _ => rfl
    | succ fuel ih => exact fun off n => by simp only [readOffGo, hline, ih]
  exact fun a => hgo _ a 1

theorem OnlyWords.bytesKept {touched : Nat → Prop} {s t : State} (h : OnlyWords touched s t) (hmap : ∀ off, touched off → ¬ mapWord off) :
    BytesKept s t := by
  obtain ⟨c, rfl, hc⟩ := h
  exact bytesKept_of_mapWords (fun d off hoff => hc d off fun ht => hmap off ht hoff) rfl rfl rfl rfl

/-! ### One instruction of a core (R137, R145) -/

section
variable {c : Nat} {s : State} (h : Ready c s)
include h

theorem insn_of_ready (word : Nat) {legal : Bool} (hlegal : legal = true) (body : Core → State → State) :
    insn c word legal body s = body (getCore c s) s := by
  obtain ⟨hretire, hfetch⟩ := h
  simp only [insn, hretire, hfetch, hlegal, if_true]

theorem insn_of_illegal (word : Nat) {legal : Bool} (hlegal : legal = false) (body : Core → State → State) :
    insn c word legal body s = faultHere c 1 word s := by
  obtain ⟨hretire, hfetch⟩ := h
  simp only [insn, hretire, hfetch, hlegal, if_true, Bool.false_eq_true, if_false]

end

/-- A core that waits for nothing takes a wait as any instruction. -/
theorem waitInsn_of_no_wait {c : Nat} {s : State} (h : (getCore c s).wait = none) (op word : Nat) (legal : Bool) (body : Core → State → State) :
    waitInsn op c word legal body s = insn c word legal body s := by
  rw [waitInsn, h]

/-! ### Retiring -/

/-- The state in which a core of the first retirement leaves the counter's value. -/
def noteStart (c : Nat) (k : Core) (s : State) : State :=
  if k.first && c = 36 then setPair gctBase R.GCT_START_LO_COUNT R.GCT_START_HI_COUNT s.count.toNat s else s

/-- The core that has retired and goes on at `pc`. -/
def wentOn (pc : BitVec 48) (k : Core) (count : DWord) : Core :=
  { k with pc := pc, first := false, wait := none, qpLast := if k.first then some count else k.qpLast,
           st := if k.trapMask then .inTrap else .running }

theorem onlyWords_noteStart (c : Nat) (k : Core) (s : State) :
    OnlyWords (fun off => startWord off ∧ k.first = true ∧ c = 36) s (noteStart c k s) := by
  unfold noteStart
  split
  next h =>
    simp only [Bool.and_eq_true, decide_eq_true_eq] at h
    exact (onlyWords_setPair ..).mono fun off hoff => ⟨hoff, h⟩
  next => exact .refl _ s

theorem retireAt_eq (c : Nat) (pc : BitVec 48) (k : Core) (s : State) : retireAt c pc k s = setCore c (wentOn pc k s.count) (noteStart c k s) := by
  unfold retireAt noteStart wentOn
  split <;> rfl

theorem getCore_retireAt (c j : Nat) (pc : BitVec 48) (k : Core) (s : State) :
    getCore j (retireAt c pc k s) = if j = c then wentOn pc k s.count else getCore j s := by
  obtain ⟨m, hm, -⟩ := onlyWords_noteStart c k s
  rw [retireAt_eq, getCore_setCore, hm]
  rfl

@[simp] theorem getCore_retireAt_same (c : Nat) (pc : BitVec 48) (k : Core) (s : State) : getCore c (retireAt c pc k s) = wentOn pc k s.count := by
  rw [getCore_retireAt, if_pos rfl]

theorem getCore_retireAt_other {c j : Nat} (h : j ≠ c) (pc : BitVec 48) (k : Core) (s : State) : getCore j (retireAt c pc k s) = getCore j s := by
  rw [getCore_retireAt, if_neg h]

/-- Retiring changes the core and, where GCT_START is noted, its words; the rest of the state is as before. -/
theorem retireAt_frame (c : Nat) (pc : BitVec 48) (k : Core) (s : State) : ∃ m, retireAt c pc k s = { s with cores := (retireAt c pc k s).cores, csr := m } ∧
    ∀ d off, ¬ (startWord off ∧ k.first = true ∧ c = 36) → csrGet d off (retireAt c pc k s) = csrGet d off s := by
  obtain ⟨m, hm, hwords⟩ := onlyWords_noteStart c k s
  rw [retireAt_eq]
  refine ⟨m, by rw [hm]; rfl, fun d off hoff => hwords d off hoff⟩

/-- The first retirement of package sequencer core 0 notes the counter (R349). -/
theorem gctStart_retireAt {c : Nat} {k : Core} (hfirst : k.first = true) (hc : c = 36) (pc : BitVec 48) (s : State) :
    getPair gctBase R.GCT_START_LO_COUNT R.GCT_START_HI_COUNT (retireAt c pc k s) = s.count.toNat := by
  rw [retireAt_eq, noteStart, if_pos (by simp [hfirst, hc])]
  have hpair := getPair_setPair (lo := R.GCT_START_LO_COUNT) (hi := R.GCT_START_HI_COUNT) (by decide) gctBase s.count.toNat s
  rw [Nat.mod_eq_of_lt s.count.isLt] at hpair
  exact hpair

/-- Retiring after a step that changed only register words changes the core alone beside them. -/
theorem onlyCoreBut_retireAt {touched : Nat → Prop} {c : Nat} {s u : State} {k : Core} (hu : OnlyWords touched s u) (hmap : ∀ off, touched off → ¬ mapWord off)
    (hfirst : k.first = (getCore c s).first) (pc : BitVec 48) : OnlyCoreBut touched c s (retireAt c pc k u) := by
  obtain ⟨m, rfl, hm⟩ := hu
  obtain ⟨n, hn, hwords⟩ := retireAt_frame c pc k { s with csr := m }
  refine ⟨fun j hj => getCore_retireAt_other hj .., ⟨fun d off hoff hstart => ?_, fun ⟨hf, hc⟩ => gctStart_retireAt (hfirst.trans hf) hc ..⟩,
    bytesKept_of_mapWords (fun d off hoff => ?_) ?_ ?_ ?_ ?_, ?_⟩
  · exact (hwords d off fun ⟨ho, hf, hc⟩ => hstart ⟨ho, hfirst ▸ hf, hc⟩).trans (hm d off hoff)
  · refine (hwords d off fun ⟨ho, _⟩ => ?_).trans (hm d off fun ht => hmap off ht hoff)
    have := startWord_eq ho
    have := mapWord_eq hoff
    omega
  all_goals rw [hn]

theorem onlyCore_retireAt {c : Nat} {s : State} {k : Core} (hfirst : k.first = (getCore c s).first) (pc : BitVec 48) : OnlyCore c s (retireAt c pc k s) :=
  onlyCoreBut_retireAt (.refl _ s) nofun hfirst pc

/-- A core that differs from `k` in its general and vector registers alone goes on as `k`. -/
theorem wentOn_of_sameRest {k k' : Core} (h : { k' with g := k.g, h := k.h } = k) (pc : BitVec 48) (count : DWord) : WentOn pc k (wentOn pc k' count) := by
  obtain ⟨g, v, rfl⟩ : ∃ g v, k' = { k with g := g, h := v } := ⟨k'.g, k'.h, by rw [← h]⟩
  exact ⟨rfl, rfl, rfl, rfl, rfl⟩

theorem setG_sameRest (d : Nat) (v : DWord) (k : Core) : { setG d v k with g := k.g, h := k.h } = k := by
  unfold setG
  split <;> rfl

theorem setH_sameRest (d : Nat) (v : BitVec 256) (k : Core) : { setH d v k with g := k.g, h := k.h } = k := rfl

theorem getH_setG (d n : Nat) (v : DWord) (k : Core) : getH (setG d v k) n = getH k n := by
  unfold setG
  split <;> rfl

theorem first_of_sameRest {k k' : Core} (h : { k' with g := k.g, h := k.h } = k) : k'.first = k.first := by
  have hfirst := congrArg Core.first h
  exact hfirst

theorem pc_setG (d : Nat) (v : DWord) (k : Core) : (setG d v k).pc = k.pc := by
  unfold setG
  split <;> rfl

theorem retire_setG (c d : Nat) (v : DWord) (k : Core) (s : State) : retire c (setG d v k) s = retireAt c (k.pc + 4) (setG d v k) s := by
  rw [retire, pc_setG]

theorem wroteG_setG (d : Nat) (v : DWord) (k : Core) (pc : BitVec 48) (count : DWord) : WroteG d v k (wentOn pc (setG d v k) count) := by
  refine ⟨getG_setG_same k d v, fun n hn => ?_, fun n => getH_setG d n v k⟩
  have hread := getG_setG k d n v
  rw [if_neg hn] at hread
  refine hread.trans ?_
  split
  next h0 => rw [getG, if_pos h0]
  next => rfl

theorem wroteH_setH (d : Nat) (v : BitVec 256) (k : Core) (pc : BitVec 48) (count : DWord) : WroteH d v k (wentOn pc (setH d v k) count) :=
  ⟨(getH_setH k d d v).trans (if_pos rfl), fun n hn => (getH_setH k d n v).trans (if_neg hn), fun _ => rfl⟩

theorem wroteNone_wentOn (k : Core) (pc : BitVec 48) (count : DWord) : WroteNone k (wentOn pc k count) := ⟨fun _ => rfl, fun _ => rfl⟩

section
variable {i : Instr} {c : Nat} {s : State} {pc : BitVec 48}

theorem retiresG_of_run {d : Nat} {v : DWord} (h : Runs i s (retireAt c pc (setG d v (getCore c s)) s)) : RetiresG i c d v pc s := by
  refine ⟨_, h, onlyCore_retireAt (first_of_sameRest (setG_sameRest ..)) _, ?_⟩
  rw [getCore_retireAt_same]
  exact ⟨wentOn_of_sameRest (setG_sameRest ..) .., wroteG_setG ..⟩

theorem retiresH_of_run {d : Nat} {v : BitVec 256} (h : Runs i s (retireAt c pc (setH d v (getCore c s)) s)) : RetiresH i c d v pc s := by
  refine ⟨_, h, onlyCore_retireAt (first_of_sameRest (setH_sameRest ..)) _, ?_⟩
  rw [getCore_retireAt_same]
  exact ⟨wentOn_of_sameRest (setH_sameRest ..) .., wroteH_setH ..⟩

theorem retires_of_run (h : Runs i s (retireAt c pc (getCore c s) s)) : Retires i c pc s := by
  refine ⟨_, h, onlyCore_retireAt rfl _, ?_⟩
  rw [getCore_retireAt_same]
  exact ⟨wentOn_of_sameRest rfl .., wroteNone_wentOn ..⟩

end

end Sys2Proof.Machine
end

section
/-! PROOFS. The scalar classes of a core: each form as the operation of its class, the values of the comparisons, and the statements about the ALU, the
immediate and constant forms, branches and jumps (R136, R138, R161, R491). -/

namespace Sys2Proof.Machine

open Sys2Proof.Claims

/-! ### Values of the comparisons -/

theorem slt_eq_decide (a b : DWord) : a.slt b = decide (a.toInt < b.toInt) := rfl

theorem ofNat_b2n_decide (p : Prop) [Decidable p] : BitVec.ofNat 64 (b2n (decide p)) = if p then 1 else 0 := by
  by_cases hp : p <;> simp [b2n, hp]

theorem ofNat_b2n_slt (a b : DWord) : BitVec.ofNat 64 (b2n (a.slt b)) = if a.toInt < b.toInt then 1 else 0 := ofNat_b2n_decide _

theorem ofNat_b2n_lt (a b : DWord) : BitVec.ofNat 64 (b2n (decide (a < b))) = if a.toNat < b.toNat then 1 else 0 := ofNat_b2n_decide _

/-- The greater and the lesser of two words are the same where the words are. -/
theorem ite_slt_eq_ite_le {a b : DWord} {x y : DWord} (h : a = b → x = y) : (if a.slt b then x else y) = if a.toInt ≤ b.toInt then x else y := by
  rw [slt_eq_decide]
  rcases Int.lt_trichotomy a.toInt b.toInt with hlt | heq | hgt
  · simp [hlt, Int.le_of_lt hlt]
  · simp [heq, h (BitVec.eq_of_toInt_eq heq)]
  · simp [Int.not_lt.2 (Int.le_of_lt hgt), Int.not_le.2 hgt]

theorem ite_lt_eq_ite_le {a b : DWord} {x y : DWord} (h : a = b → x = y) : (if a < b then x else y) = if a.toNat ≤ b.toNat then x else y := by
  simp only [BitVec.lt_def]
  rcases Nat.lt_trichotomy a.toNat b.toNat with hlt | heq | hgt
  · simp [hlt, Nat.le_of_lt hlt]
  · simp [heq, h (BitVec.eq_of_toNat_eq heq)]
  · simp [Nat.not_lt.2 (Nat.le_of_lt hgt), Nat.not_le.2 hgt]

/-! ### The forms of a class on a core that may retire -/

section
variable {c : Fin 44} {w : BitVec 22} {s : State} (h : Ready c s) {i : Instr} {op : Nat} {v : DWord}
include h

theorem retiresG_alu {unary : Bool} {f : Core → DWord} (hrun : exec i s = .next (alu op unary f c w s)) (hx : fX w = 0)
    (hq : unary = true → fQ w = 0) (hv : f (getCore c s) = v) : RetiresG i c (fD w) v ((getCore c s).pc + 4) s := by
  have hlegal : (decide (fX w = 0) && (!unary || decide (fQ w = 0))) = true := by
    cases unary <;> simp [hx, hq]
  refine retiresG_of_run (hrun.trans ?_)
  rw [alu, insn_of_ready h _ hlegal, hv, retire_setG]

theorem retiresG_aluImm {f : Core → DWord} (hrun : exec i s = .next (aluImm op f c w s)) (hv : f (getCore c s) = v) :
    RetiresG i c (fD w) v ((getCore c s).pc + 4) s := by
  refine retiresG_of_run (hrun.trans ?_)
  rw [aluImm, insn_of_ready h _ rfl, hv, retire_setG]

theorem retiresG_constant {keep : Bool} {hw : BitVec 2} (hrun : exec i s = .next (constant op keep c hw w s)) (hbit : bitsAt w.toNat 16 1 = 0)
    (hv : BitVec.ofNat 64 (putBits (if keep then (getG (getCore c s) (fD w)).toNat else 0) (16 * hw.toNat) 16 w.toNat) = v) :
    RetiresG i c (fD w) v ((getCore c s).pc + 4) s := by
  refine retiresG_of_run (hrun.trans ?_)
  rw [constant, insn_of_ready h _ (decide_eq_true hbit)]
  dsimp only
  rw [hv, retire_setG]

theorem retires_branch {taken : DWord → DWord → Bool} (hrun : exec i s = .next (branch op taken c w s)) :
    Retires i c (if taken (getG (getCore c s) (fD w)) (getG (getCore c s) (fP w)) then (getCore c s).pc + BitVec.ofInt 48 (4 * fImm w)
      else (getCore c s).pc + 4) s := by
  refine retires_of_run (hrun.trans ?_)
  rw [branch, insn_of_ready h _ rfl]
  rfl

/-- A branch goes where its condition says. -/
theorem retires_branch_iff {taken : DWord → DWord → Bool} (hrun : exec i s = .next (branch op taken c w s)) {p : Prop}
    (hp : taken (getG (getCore c s) (fD w)) (getG (getCore c s) (fP w)) = true ↔ p) :
    (p → Retires i c ((getCore c s).pc + BitVec.ofInt 48 (4 * fImm w)) s) ∧ (¬ p → Retires i c ((getCore c s).pc + 4) s) := by
  have hretires := retires_branch h hrun
  refine ⟨fun hyes => ?_, fun hno => ?_⟩
  · rwa [if_pos (hp.2 hyes)] at hretires
  · rwa [if_neg (mt hp.1 hno)] at hretires

end

/-- Settles O10: each form is its operation in class 0x0, which retires with the result where the reserved fields are 0. -/
theorem aluRegisterFormsWriteTheirResult : Obligations.AluRegisterFormsWriteTheirResult := by
  intro c w s h hx
  refine ⟨?_, fun hq => ?_⟩
  · have halu {i op f v} (hrun : exec i s = .next (alu op false f c w s)) (hv : f (getCore c s) = v) := retiresG_alu h hrun hx nofun hv
    simp only [aluForms, List.forall_mem_cons, -Int.reducePow, -Nat.reducePow]
    exact ⟨halu rfl rfl, halu rfl rfl, halu rfl rfl, halu rfl rfl, halu rfl rfl, halu rfl rfl, halu rfl rfl, halu rfl rfl, halu rfl rfl, halu rfl rfl,
      halu rfl rfl, halu rfl rfl, halu rfl rfl, halu rfl (ite_slt_eq_ite_le id), halu rfl (ite_slt_eq_ite_le Eq.symm), halu rfl (ite_lt_eq_ite_le id),
      halu rfl (ite_lt_eq_ite_le Eq.symm), halu rfl (ofNat_b2n_slt ..), halu rfl (ofNat_b2n_lt ..), halu rfl (ofNat_b2n_decide _), List.forall_mem_nil _⟩
  · simp only [aluUnaryForms, List.forall_mem_cons]
    exact ⟨retiresG_alu h rfl hx (fun _ => hq) rfl, retiresG_alu h rfl hx (fun _ => hq) rfl, List.forall_mem_nil _⟩

/-- Every format code with lanes is one of the table's (R99). -/
theorem vxLanes_of_mem_laneCounts : ∀ x ∈ laneCounts, ∃ n, vxLanes x.1 = some n ∧ (n : Int) = x.2 ∧ x.1 < 16 := by decide

/-- STRIP of a format with lanes, the rest of IMM12 being 0 (R138). -/
theorem retiresG_strip {c : Fin 44} {w : BitVec 22} {s : State} (h : Ready c s) {n : Nat} (hhigh : bitsAt w.toNat 4 8 = 0)
    (hn : vxLanes (bitsAt w.toNat 0 4) = some n) :
    RetiresG (.strip c w) c (fD w)
      (BitVec.ofInt 64 (if 0 < (getG (getCore c s) (fP w)).toInt then min (getG (getCore c s) (fP w)).toInt n - 1 else -1)) ((getCore c s).pc + 4) s := by
  refine retiresG_of_run (Eq.trans (b := execStrip c w s) rfl ?_)
  rw [execStrip, insn_of_ready h _ (by simp [hhigh, hn]), hn]
  dsimp only [Option.getD_some]
  rw [retire_setG]

/-- Settles O11: each form is its operation in class 0x1 or 0x2; of STRIP the format code is what the low 12 bits hold. -/
theorem immediateFormsWriteTheirResult : Obligations.ImmediateFormsWriteTheirResult := by
  intro c w s h
  refine ⟨?_, fun x hx hcode => ?_, fun hw hbit => ⟨retiresG_constant h rfl hbit ?_, retiresG_constant h rfl hbit rfl⟩⟩
  · have himm {i op f v} (hrun : exec i s = .next (aluImm op f c w s)) (hv : f (getCore c s) = v) := retiresG_aluImm h hrun hv
    simp only [immForms, List.forall_mem_cons]
    exact ⟨himm rfl rfl, himm rfl rfl, himm rfl rfl, himm rfl rfl, himm rfl rfl, himm rfl rfl, himm rfl rfl, himm rfl (ofNat_b2n_slt ..),
      List.forall_mem_nil _⟩
  · obtain ⟨n, hn, hint, hlt⟩ := vxLanes_of_mem_laneCounts x hx
    have hlow : bitsAt w.toNat 0 4 = x.1 := by
      rw [← hcode, bitsAt, bitsAt] at *
      omega
    have hhigh : bitsAt w.toNat 4 8 = 0 := by
      rw [bitsAt, Nat.shiftRight_eq_div_pow] at *
      omega
    rw [← hint]
    exact retiresG_strip h hhigh (hlow ▸ hn)
  · rw [if_neg Bool.false_ne_true, putBits_eq]
    simp [Nat.mul_comm, bitsAt]

/-- Settles O12: a branch goes where its relation says, a jump to its target with the next instruction's offset linked. -/
theorem branchesAndJumpsSetThePc : Obligations.BranchesAndJumpsSetThePc := by
  intro c w s h
  refine ⟨?_, retiresG_of_run (Eq.trans (b := execJal c w s) rfl ?_), fun halign => retiresG_of_run (Eq.trans (b := execJalr c w s) rfl ?_)⟩
  · have hbranch {i op taken p} (hrun : exec i s = .next (branch op taken c w s))
        (hp : taken (getG (getCore c s) (fD w)) (getG (getCore c s) (fP w)) = true ↔ p) := retires_branch_iff h hrun hp
    simp only [branchForms, List.forall_mem_cons]
    refine ⟨hbranch rfl decide_eq_true_iff, hbranch rfl decide_eq_true_iff, hbranch rfl decide_eq_true_iff, hbranch rfl ?_,
      hbranch rfl decide_eq_true_iff, hbranch rfl ?_, List.forall_mem_nil _⟩
    · simp [slt_eq_decide]
    · simp [BitVec.lt_def]
  · rw [execJal, insn_of_ready h _ rfl]
    rfl
  · rw [execJalr, insn_of_ready h _ rfl]
    dsimp only
    rw [if_neg (by simpa [immG] using halign)]
    rfl

end Sys2Proof.Machine
end

section
/-! PROOFS. The summary class: what an instruction that names a summary register does where no trap is to be delivered, and the statement about its branches
and reads (R111, R135, R149, R152). -/

namespace Sys2Proof.Machine

open Sys2Proof.Claims

/-- Where delivery is masked or no covered VX is trapped, a delivery point goes on (R152). -/
theorem orTrap_of_none {c : Nat} {sel : EngIns → Bool} {k : Core} {s : State} (h : k.trapMask = true ∨ trappedTile c sel s = none)
    (body : Core → State → State) : orTrap c sel body k s = body k s := by
  unfold orTrap
  split
  next => rfl
  next hmask =>
    rw [h.resolve_left hmask]

theorem withSummary_of_valid {c r : Nat} {s : State} (h : NoTrapFor c r s) (hvalid : r ∉ (getCore c s).sPend) (body : Core → State → State) :
    withSummary c r body (getCore c s) s = body (getCore c s) s := by
  rw [withSummary, orTrap_of_none h, if_neg (by simpa using hvalid)]

theorem withSummary_of_pending {c r : Nat} {s : State} (h : NoTrapFor c r s) (hpend : r ∈ (getCore c s).sPend) (body : Core → State → State) :
    withSummary c r body (getCore c s) s = s := by
  rw [withSummary, orTrap_of_none h, if_pos (by simpa using hpend)]

/-! ### The forms of the class -/

section
variable {c : Fin 44} {w : BitVec 22} {s : State} (h : Ready c s) (hno : NoTrapFor c (fS w) s) {i : Instr} {op : Nat}
include h hno

theorem retires_bs (hvalid : fS w ∉ (getCore c s).sPend) {taken : Core → Bool} (hrun : exec i s = .next (bs op taken c w s)) {p : Prop}
    (hp : taken (getCore c s) = true ↔ p) :
    (p → Retires i c ((getCore c s).pc + BitVec.ofInt 48 (4 * fImm w)) s) ∧ (¬ p → Retires i c ((getCore c s).pc + 4) s) := by
  have hbs : bs op taken c w s =
      retireAt c (if taken (getCore c s) then branchTo (getCore c s) (fImm w) else (getCore c s).pc + 4) (getCore c s) s := by
    rw [bs, insn_of_ready h _ rfl, withSummary_of_valid hno hvalid]
  rw [hbs] at hrun
  refine ⟨fun hyes => ?_, fun hno => ?_⟩
  · rw [if_pos (hp.2 hyes)] at hrun
    exact retires_of_run hrun
  · rw [if_neg (mt hp.1 hno)] at hrun
    exact retires_of_run hrun

theorem retiresG_sget (hvalid : fS w ∉ (getCore c s).sPend) {f : BitVec 128 → Nat} (hrun : exec i s = .next (sget op f c w s)) :
    RetiresG i c (fP w) (BitVec.ofNat 64 (f (getS (getCore c s) (fS w)))) ((getCore c s).pc + 4) s := by
  refine retiresG_of_run (hrun.trans ?_)
  rw [sget, insn_of_ready h _ rfl, withSummary_of_valid hno hvalid, retire_setG]

theorem runs_bs_of_pending (hpend : fS w ∈ (getCore c s).sPend) {taken : Core → Bool} (hrun : exec i s = .next (bs op taken c w s)) : Runs i s s := by
  refine hrun.trans ?_
  rw [bs, insn_of_ready h _ rfl, withSummary_of_pending hno hpend]

theorem runs_sget_of_pending (hpend : fS w ∈ (getCore c s).sPend) {f : BitVec 128 → Nat} (hrun : exec i s = .next (sget op f c w s)) : Runs i s s := by
  refine hrun.trans ?_
  rw [sget, insn_of_ready h _ rfl, withSummary_of_pending hno hpend]

end

/-! ### The conditions (R111, R149) -/

theorem bitAt_iff (v i : Nat) : bitAt v i = true ↔ bitsAt v i 1 = 1 := decide_eq_true_iff

theorem not_bitAt_iff (v i : Nat) : (!bitAt v i) = true ↔ bitsAt v i 1 = 0 := by
  have hbit : bitsAt v i 1 < 2 := Nat.mod_lt _ (by decide)
  rw [Bool.not_eq_true', ← Bool.not_eq_true, bitAt_iff]
  omega

/-- The model's reading of VALUE under VF is the statement's. -/
theorem vfKey_eq_vfNumber (vf v : Nat) : vfKey vf v = vfNumber vf v := rfl

/-- A comparison is taken when both operands are numbers in the relation. -/
theorem vfCompare_iff {r : Int → Int → Bool} {rel : Int → Int → Prop} (hr : ∀ m n, r m n = true ↔ rel m n) (w : BitVec 22) (k : Core) :
    vfCompare r w k = true ↔ vfHolds (fVf w) (getS k (fS w)) (getG k (fP w)) rel := by
  unfold vfCompare vfHolds
  rw [vfKey_eq_vfNumber, vfKey_eq_vfNumber, sumValue]
  cases hm : vfNumber (fVf w) (bitsAt (getS k (fS w)).toNat 0 64) with
  | none => simp
  | some m =>
    cases hn : vfNumber (fVf w) (getG k (fP w)).toNat with
    | none => simp
    | some n => simp [hr]

/-- Settles O13: with the summary valid and no trap to deliver each form branches or reads by its field; with it pending each stalls. -/
theorem summaryClassBranchesAndReads : Obligations.SummaryClassBranchesAndReads := by
  intro c w s h hno
  refine ⟨fun hvalid => ⟨?_, ?_⟩, fun hpend => ⟨?_, ?_⟩⟩
  · have hbs {i op taken p} (hrun : exec i s = .next (bs op taken c w s)) (hp : taken (getCore c s) = true ↔ p) := retires_bs h hno hvalid hrun hp
    simp only [bsForms, List.forall_mem_cons]
    exact ⟨hbs rfl (bitAt_iff ..), hbs rfl (not_bitAt_iff ..), hbs rfl (bitAt_iff ..), hbs rfl (bitAt_iff ..), hbs rfl decide_eq_true_iff,
      hbs rfl decide_eq_true_iff, hbs rfl (vfCompare_iff (fun _ _ => decide_eq_true_iff) ..), hbs rfl (vfCompare_iff (fun _ _ => decide_eq_true_iff) ..), hbs rfl (vfCompare_iff (fun _ _ => decide_eq_true_iff) ..),
      List.forall_mem_nil _⟩
  · have hsget {i op f} (hrun : exec i s = .next (sget op f c w s)) := retiresG_sget h hno hvalid hrun
    simp only [sgetForms, List.forall_mem_cons]
    exact ⟨hsget (f := sumValue) rfl, hsget (f := sumCount) rfl, hsget (f := sumFirst) rfl, hsget (f := sumFlags) rfl, List.forall_mem_nil _⟩
  · have hbs {i op taken} (hrun : exec i s = .next (bs op taken c w s)) := runs_bs_of_pending h hno hpend hrun
    simp only [bsForms, List.forall_mem_cons]
    exact ⟨hbs rfl, hbs rfl, hbs rfl, hbs rfl, hbs rfl, hbs rfl, hbs rfl, hbs rfl, hbs rfl, List.forall_mem_nil _⟩
  · have hsget {i op f} (hrun : exec i s = .next (sget op f c w s)) := runs_sget_of_pending h hno hpend hrun
    simp only [sgetForms, List.forall_mem_cons]
    exact ⟨hsget rfl, hsget rfl, hsget rfl, hsget rfl, List.forall_mem_nil _⟩

end Sys2Proof.Machine
end

section
/-! PROOFS. Faults and traps of a core: what taking a fault writes, which bytes of memory it keeps, the delivery of a VX trap to its handler, and the statements
about illegal words, misaligned accesses, bad fetches and pending traps (R137, R140, R152, R153, R157, R161, R163, R248). -/

namespace Sys2Proof.Machine

open Sys2Proof.Claims

/-! ### Events and bytes of memory -/

theorem BytesKept.trans {s t u : State} (h : BytesKept s t) (h' : BytesKept t u) : BytesKept s u := fun a => (h' a).trans (h a)

theorem csrGet_setCore (d off c : Nat) (k : Core) (s : State) : csrGet d off (setCore c k s) = csrGet d off s := rfl

theorem bytesKept_setCore (c : Nat) (k : Core) (s : State) : BytesKept s (setCore c k s) :=
  bytesKept_of_mapWords (fun _ _ _ => rfl) rfl rfl rfl rfl

theorem not_mapWord_seq {c x : Nat} (hc : c < 44) (hx : x < 0x1000) : ¬ mapWord (seqBase c + x) := by
  intro hmap
  have hrange := seqBase_range hc hx
  have hat := mapWord_eq hmap
  omega

theorem seq_ne_lostAt {c x : Nat} (hc : c < 44) (hx : x < 0x1000) : seqBase c + x ≠ lostAt := by
  have hrange := seqBase_range hc hx
  have hlost : lostAt = 0x030010 := rfl
  omega

theorem bytesKept_of_onlyRegs {touched : Nat → Prop} {s t : State} (h : OnlyRegs touched s t) (hmap : ∀ off, touched off → ¬ mapWord off) :
    BytesKept s t := by
  obtain ⟨hcsr, hrest⟩ := h
  have htile := congrArg State.tileSram hrest
  have hhbm := congrArg State.hbm hrest
  have hbg := congrArg State.hbmBg hrest
  have hdepot := congrArg State.depot hrest
  refine bytesKept_of_mapWords (fun d off hoff => hcsr d off (fun ht => hmap off ht hoff) ?_) htile hhbm hbg hdepot
  have hat := mapWord_eq hoff
  have hlost : lostAt = 0x030010 := rfl
  omega

theorem bytesKept_raise (src code sev arg0 arg1 : Nat) (s : State) : BytesKept s (raise src code sev arg0 arg1 s) :=
  bytesKept_of_onlyRegs (onlyLogged_raise ..) nofun

/-- An event of severity 2 or 3 sets the step's error flag (R437). -/
theorem stepErr_raise {sev : Nat} (h : 2 ≤ sev) (src code arg0 arg1 : Nat) (s : State) : (raise src code sev arg0 arg1 s).stepErr = true := by
  rw [raise, if_pos h]
  dsimp only
  split <;> rfl

/-! ### Taking a fault (R161, R163) -/

/-- The fault registers of a core after a fault. -/
def faultRegs (c code : Nat) (pc : BitVec 48) (addr kind tile cause : Nat) (s : State) : State :=
  setPair (seqBase c) R.SEQ_FAULT_ADDR_LO_VALUE R.SEQ_FAULT_ADDR_HI_VALUE addr
    (setPair (seqBase c) R.SEQ_FAULT_PC_LO_VALUE R.SEQ_FAULT_PC_HI_VALUE pc.toNat
      (setF (seqBase c) R.SEQ_FAULT_CODE code (setF (seqBase c) R.SEQ_FAULT_KIND kind (setF (seqBase c) R.SEQ_FAULT_TILE tile
        (setF (seqBase c) R.SEQ_FAULT_CAUSE cause (setF (seqBase c) R.SEQ_FAULT_VALID 1 s))))))

/-- A register of core `c`'s block. -/
def seqWord (c off : Nat) : Prop := ∃ x, x < 0x1000 ∧ off = seqBase c + x

theorem not_mapWord_of_seqWord {c off : Nat} (hc : c < 44) (h : seqWord c off) : ¬ mapWord off := by
  obtain ⟨x, hx, rfl⟩ := h
  exact not_mapWord_seq hc hx

theorem onlyWords_setF_seq (c : Nat) (f : Fld) (hf : f.off < 0x1000) (v : Nat) (s : State) : OnlyWords (seqWord c) s (setF (seqBase c) f v s) :=
  (onlyWords_setF ..).mono fun _ hoff => ⟨_, hf, hoff⟩

theorem onlyWords_setPair_seq (c : Nat) (lo hi : Fld) (hlo : lo.off < 0x1000) (hhi : hi.off < 0x1000) (v : Nat) (s : State) :
    OnlyWords (seqWord c) s (setPair (seqBase c) lo hi v s) :=
  (onlyWords_setF_seq c lo hlo ..).trans (onlyWords_setF_seq c hi hhi ..)

theorem onlyWords_faultRegs (c code : Nat) (pc : BitVec 48) (addr kind tile cause : Nat) (s : State) :
    OnlyWords (seqWord c) s (faultRegs c code pc addr kind tile cause s) :=
  (onlyWords_setF_seq c R.SEQ_FAULT_VALID (by decide) ..).trans <| (onlyWords_setF_seq c R.SEQ_FAULT_CAUSE (by decide) ..).trans <|
    (onlyWords_setF_seq c R.SEQ_FAULT_TILE (by decide) ..).trans <| (onlyWords_setF_seq c R.SEQ_FAULT_KIND (by decide) ..).trans <|
    (onlyWords_setF_seq c R.SEQ_FAULT_CODE (by decide) ..).trans <| (onlyWords_setPair_seq c _ _ (by decide) (by decide) ..).trans <|
    onlyWords_setPair_seq c _ _ (by decide) (by decide) ..

theorem coreFault_eq (c code : Nat) (pc : BitVec 48) (addr kind tile cause : Nat) (s : State) : coreFault c code pc addr kind tile cause s =
    raise (srcCore c) 0x10 2 (coreId c + code * 2 ^ 8 + pc.toNat * 2 ^ 16) 0
      (setCore c { getCore c s with st := .faulted, wait := none } (faultRegs c code pc addr kind tile cause s)) := by
  have hcore : getCore c (faultRegs c code pc addr kind tile cause s) = getCore c s := by
    obtain ⟨m, hm, -⟩ := onlyWords_faultRegs c code pc addr kind tile cause s
    rw [hm]
    rfl
  rw [← hcore]
  rfl

/-- A field of another register than the pair's reads as before the pair is set. -/
theorem getF_setPair_other {base : Nat} {lo hi f : Fld} (hlo : f.off ≠ lo.off) (hhi : f.off ≠ hi.off) (v : Nat) (s : State) :
    getF base f (setPair base lo hi v s) = getF base f s := by
  rw [setPair, getF_setF_other _ _ _ _ _ _ (by omega), getF_setF_other _ _ _ _ _ _ (by omega)]

theorem getPair_setPair_other {base : Nat} {lo hi lo' hi' : Fld}
    (h : (lo'.off ≠ lo.off ∧ lo'.off ≠ hi.off) ∧ hi'.off ≠ lo.off ∧ hi'.off ≠ hi.off) (v : Nat) (s : State) :
    getPair base lo' hi' (setPair base lo hi v s) = getPair base lo' hi' s := by
  obtain ⟨⟨hlo, hlohi⟩, hhilo, hhi⟩ := h
  rw [getPair, getPair, getF_setPair_other hlo hlohi, getF_setPair_other hhilo hhi]

/-- What the fault registers read. -/
theorem faultRegs_read {code addr : Nat} (hcode : code < 256) (haddr : addr < 2 ^ 64) (c : Nat) (pc : BitVec 48) (kind tile cause : Nat) (s : State) :
    let t := faultRegs c code pc addr kind tile cause s
    getF (seqBase c) R.SEQ_FAULT_VALID t = 1 ∧ getF (seqBase c) R.SEQ_FAULT_CODE t = code ∧
      getPair (seqBase c) R.SEQ_FAULT_PC_LO_VALUE R.SEQ_FAULT_PC_HI_VALUE t = pc.toNat ∧
      getPair (seqBase c) R.SEQ_FAULT_ADDR_LO_VALUE R.SEQ_FAULT_ADDR_HI_VALUE t = addr := by
  have hpc := pc.isLt
  refine ⟨?_, ?_, ?_, ?_⟩
  · rw [faultRegs, getF_setPair_other (by decide) (by decide), getF_setPair_other (by decide) (by decide), getF_setF_beside _ _ _ (by decide) (by decide),
      getF_setF_beside _ _ _ (by decide) (by decide), getF_setF_beside _ _ _ (by decide) (by decide), getF_setF_beside _ _ _ (by decide) (by decide),
      getF_setF _ _ _ _ (by decide)]
    rfl
  · rw [faultRegs, getF_setPair_other (by decide) (by decide), getF_setPair_other (by decide) (by decide), getF_setF _ _ _ _ (by decide)]
    exact Nat.mod_eq_of_lt hcode
  · rw [faultRegs, getPair_setPair_other (by decide), getPair_setPair (by decide)]
    omega
  · rw [faultRegs, getPair_setPair (by decide), Nat.mod_eq_of_lt haddr]

/-- A fault leaves the core FAULTED with its registers set, and every other core and every byte of memory as before. -/
theorem faultsTo_faultHere {c code addr : Nat} (hc : c < 44) (hcode : code < 256) (haddr : addr < 2 ^ 64) (s : State) :
    FaultsTo (.next (faultHere c code addr s)) c code addr s := by
  have hread := faultRegs_read hcode haddr c (getCore c s).pc 0 0 0 s
  have honly := onlyWords_faultRegs c code (getCore c s).pc addr 0 0 0 s
  have hlog := onlyLogged_raise (srcCore c) 0x10 2 (coreId c + code * 2 ^ 8 + (getCore c s).pc.toNat * 2 ^ 16) 0
    (setCore c { getCore c s with st := .faulted, wait := none } (faultRegs c code (getCore c s).pc addr 0 0 0 s))
  have herr := stepErr_raise (Nat.le_refl 2) (srcCore c) 0x10 (coreId c + code * 2 ^ 8 + (getCore c s).pc.toNat * 2 ^ 16) 0
    (setCore c { getCore c s with st := .faulted, wait := none } (faultRegs c code (getCore c s).pc addr 0 0 0 s))
  rw [← coreFault_eq, ← faultHere] at hlog herr
  obtain ⟨hcsr, -⟩ := hlog
  have hcore : ∀ j, getCore j (faultHere c code addr s) = if j = c then { getCore c s with st := .faulted, wait := none } else getCore j s := by
    intro j
    obtain ⟨m, hm, -⟩ := honly
    rw [faultHere, coreFault_eq, (sameBlocks_raise ..).getCore_eq, getCore_setCore, hm]
    rfl
  have hword : ∀ d x, x < 0x1000 → csrGet d (seqBase c + x) (faultHere c code addr s) =
      csrGet d (seqBase c + x) (faultRegs c code (getCore c s).pc addr 0 0 0 s) := fun d x hx =>
    (hcsr d _ not_false (seq_ne_lostAt hc hx)).trans (csrGet_setCore ..)
  obtain ⟨hvalid, hcode', hpc, haddr'⟩ := hread
  refine ⟨_, rfl, fun j hj => by rw [hcore, if_neg hj], by rw [hcore, if_pos rfl], ?_, ?_, ?_, ?_, ?_, ?_⟩
  · exact (getF_of_word (hword _ _ (by decide))).trans hvalid
  · exact (getF_of_word (hword _ _ (by decide))).trans hcode'
  · refine (getPair_of_words fun d off hoff => ?_).trans hpc
    rcases hoff with rfl | rfl <;> exact hword _ _ (by decide)
  · refine (getPair_of_words fun d off hoff => ?_).trans haddr'
    rcases hoff with rfl | rfl <;> exact hword _ _ (by decide)
  · exact herr
  · rw [faultHere, coreFault_eq]
    exact BytesKept.trans (honly.bytesKept fun off hoff => not_mapWord_of_seqWord hc hoff)
      (BytesKept.trans (bytesKept_setCore _ _ _) (bytesKept_raise _ _ _ _ _ _))

/-! ### The faults of an instruction -/

section
variable {c : Fin 44} {s : State} {i : Instr}

theorem takesFault_of_run {code addr : Nat} (hrun : exec i s = .next (faultHere c code addr s)) (hcode : code < 256) (haddr : addr < 2 ^ 64) :
    TakesFault i c code addr s := by
  rw [TakesFault, hrun]
  exact faultsTo_faultHere c.isLt hcode haddr s

/-- An illegal word is ILLEGAL_INSN with the word (R137). -/
theorem takesFault_illegal (h : Ready c s) {word : Nat} {legal : Bool} {body : Core → State → State} (hrun : exec i s = .next (insn c word legal body s))
    (hlegal : legal = false) (hword : word < 2 ^ 64) : TakesFault i c 1 word s := by
  rw [insn_of_illegal h _ hlegal] at hrun
  exact takesFault_of_run hrun (by decide) hword

/-- A fetch fault comes before the instruction (R157, R161). -/
theorem takesFault_fetch (hretire : canRetire (getCore c s) = true) {code : Nat} (hfetch : fetchFault (getCore c s) s = some code) (hcode : code < 256)
    {word : Nat} {legal : Bool} {body : Core → State → State} (hrun : exec i s = .next (insn c word legal body s)) :
    TakesFault i c code (getCore c s).pc.toNat s := by
  have hpc := (getCore c s).pc.isLt
  have hinsn : insn c word legal body s = faultHere c code (getCore c s).pc.toNat s := by
    simp only [insn, hretire, hfetch, if_true]
  rw [hinsn] at hrun
  exact takesFault_of_run hrun hcode (by omega)

end

end Sys2Proof.Machine
end

section
/-! PROOFS. Illegal words, misaligned addresses and bad fetches: which instructions take which fault, and the statement about them (R136, R137, R140, R157,
R161, R248). -/

namespace Sys2Proof.Machine

open Sys2Proof.Claims

/-- An instruction word has 32 bits. -/
theorem wordOf_lt {cls op : Nat} (hcls : cls < 16) (hop : op < 64) (w : BitVec 22) : wordOf cls op w < 2 ^ 64 := by
  have hw := w.isLt
  unfold wordOf
  omega

/-! ### Reserved fields (R136, R137) -/

section
variable {c : Fin 44} {w : BitVec 22} {s : State} (h : Ready c s) {i : Instr} {op : Nat}
include h

theorem takesFault_alu {unary : Bool} {f : Core → DWord} (hrun : exec i s = .next (alu op unary f c w s)) (hop : op < 64)
    (hbad : fX w ≠ 0 ∨ unary = true ∧ fQ w ≠ 0) : TakesFault i c 1 (wordOf 0 op w) s := by
  refine takesFault_illegal h hrun ?_ (wordOf_lt (by decide) hop w)
  rcases hbad with hx | ⟨rfl, hq⟩
  · simp [hx]
  · simp [hq]

theorem takesFault_amo {f : Nat → Nat → Nat → Nat} {ev : LoadEv} (hrun : exec i s = .next (amo op f c w ev s)) (hop : op < 64) (hx : fX w ≠ 0) :
    TakesFault i c 1 (wordOf 0xA op w) s :=
  takesFault_illegal h hrun (decide_eq_false hx) (wordOf_lt (by decide) hop w)

theorem takesFault_constant {keep : Bool} {hw : BitVec 2} (hrun : exec i s = .next (constant op keep c hw w s)) (hop : op < 2)
    (hbit : bitsAt w.toNat 16 1 = 1) {word : Nat} (hword : 2 * 2 ^ 28 + hw.toNat * 2 ^ 26 + op * 2 ^ 22 + w.toNat = word) : TakesFault i c 1 word s := by
  have hhw := hw.isLt
  have hw := w.isLt
  subst hword
  exact takesFault_illegal h hrun (by simp [hbit]) (by omega)

/-! ### Misaligned addresses (R140, R161, R248) -/

theorem takesFault_load_misaligned {size : Nat} {sign : Bool} {ev : LoadEv} (hrun : exec i s = .next (load op size sign false c w ev s))
    (halign : (accessAddr c w s).toNat % size ≠ 0) : TakesFault i c 4 (accessAddr c w s).toNat s := by
  have hload : load op size sign false c w ev s = faultHere c 4 (accessAddr c w s).toNat s := by
    rw [load, insn_of_ready h _ (by simp)]
    exact if_pos halign
  rw [hload] at hrun
  exact takesFault_of_run hrun (by decide) (BitVec.isLt _)

theorem takesFault_store_misaligned {size : Nat} {fromH : Bool} (hrun : exec i s = .next (store op size fromH c w s)) (hlegal : fromH = true → fD w < 16)
    (halign : (accessAddr c w s).toNat % size ≠ 0) : TakesFault i c 4 (accessAddr c w s).toNat s := by
  have hstore : store op size fromH c w s = faultHere c 4 (accessAddr c w s).toNat s := by
    rw [store, insn_of_ready h _ (by cases fromH <;> simp [hlegal])]
    exact if_pos halign
  rw [hstore] at hrun
  exact takesFault_of_run hrun (by decide) (BitVec.isLt _)

theorem takesFault_amo_misaligned {f : Nat → Nat → Nat → Nat} {ev : LoadEv} (hrun : exec i s = .next (amo op f c w ev s)) (hx : fX w = 0)
    (halign : (getG (getCore c s) (fP w)).toNat % 8 ≠ 0) : TakesFault i c 4 (getG (getCore c s) (fP w)).toNat s := by
  have hamo : amo op f c w ev s = faultHere c 4 (getG (getCore c s) (fP w)).toNat s := by
    rw [amo, insn_of_ready h _ (decide_eq_true hx)]
    exact if_pos halign
  rw [hamo] at hrun
  exact takesFault_of_run hrun (by decide) (BitVec.isLt _)

theorem takesFault_jalr_misaligned (halign : (accessAddr c w s).toNat % 4 ≠ 0) : TakesFault (.jalr c w) c 4 (accessAddr c w s).toNat s := by
  refine takesFault_of_run (Eq.trans (b := execJalr c w s) rfl ?_) (by decide) (BitVec.isLt _)
  rw [execJalr, insn_of_ready h _ rfl]
  exact congrArg _ (if_pos halign)

end

/-! ### Reserved classes (R137) -/

/-- Classes 0xC to 0xF spell no instruction. -/
theorem decodeInsn_of_reserved_class {v : BitVec 32} (hv : 0xC ≤ v.toNat / 2 ^ 28) (c : Fin 44) (ev : LoadEv) : decodeInsn c ev v = none := by
  unfold decodeInsn
  dsimp only
  split
  case h_13 => rfl
  all_goals omega

theorem faultsTo_runWord_reserved {c : Fin 44} {s : State} (h : Ready c s) {v : BitVec 32} (hv : 0xC ≤ v.toNat / 2 ^ 28) (ev : LoadEv) : FaultsTo (runWord c ev v s) c 1 v.toNat s := by
  have hlt := v.isLt
  rw [runWord, decodeInsn_of_reserved_class hv]
  dsimp only
  rw [insn_of_illegal h _ rfl]
  exact faultsTo_faultHere c.isLt (by decide) (by omega) s

/-! ### Bad fetches (R157, R161) -/

theorem fetchFault_of_misaligned {k : Core} (s : State) (hfirst : k.first = true) (halign : k.pc.toNat % 4 ≠ 0) : fetchFault k s = some 4 := by
  rw [fetchFault, if_pos (by simp [hfirst, halign])]

section
variable {k : Core} {s : State} (hstart : k.first = false ∨ k.pc.toNat % 4 = 0)
include hstart

theorem not_misaligned_start : ¬ (k.first && decide (k.pc.toNat % 4 ≠ 0)) = true := by
  rcases hstart with hfirst | halign
  · simp [hfirst]
  · simp [halign]

theorem fetchFault_of_poisoned_hbm {p : Nat} (ht : target k.pc.toNat s = .hbm p) (hpoison : linePoison (p / 128) s = true) : fetchFault k s = some 5 := by
  rw [fetchFault, if_neg (not_misaligned_start hstart), ht]
  exact if_pos hpoison

theorem fetchFault_of_poisoned_companion {p : Nat} {y : DepotLine} (ht : target k.pc.toNat s = .companion p)
    (hy : sFind s.depot (compKey (p / 128)) = some y) (hpoison : y.poison = true) : fetchFault k s = some 5 := by
  rw [fetchFault, if_neg (not_misaligned_start hstart), ht]
  dsimp only
  rw [hy]
  exact if_pos hpoison

theorem fetchFault_of_no_memory (hhbm : ∀ p, target k.pc.toNat s ≠ .hbm p) (hcomp : ∀ p, target k.pc.toNat s ≠ .companion p) : fetchFault k s = some 3 := by
  rw [fetchFault, if_neg (not_misaligned_start hstart)]
  split
  next p ht => exact absurd ht (hhbm p)
  next p ht => exact absurd ht (hcomp p)
  next => rfl

end

/-- An ALU form whose fetch fails takes the fetch's fault. -/
theorem takesFault_aluForms_of_fetchFault {c : Fin 44} {w : BitVec 22} {s : State} (hretire : canRetire (getCore c s) = true) {code : Nat}
    (hfetch : fetchFault (getCore c s) s = some code) (hcode : code < 256) : ∀ x ∈ aluForms c w 0 0, TakesFault x.1 c code (getCore c s).pc.toNat s := by
  have halu {i op f} (hrun : exec i s = .next (alu op false f c w s)) := takesFault_fetch hretire hfetch hcode hrun
  simp only [aluForms, List.forall_mem_cons, -Int.reducePow, -Nat.reducePow]
  exact ⟨halu rfl, halu rfl, halu rfl, halu rfl, halu rfl, halu rfl, halu rfl, halu rfl, halu rfl, halu rfl, halu rfl, halu rfl, halu rfl, halu rfl,
    halu rfl, halu rfl, halu rfl, halu rfl, halu rfl, halu rfl, List.forall_mem_nil _⟩

/-! ### The statement -/

/-- Settles O21: each instruction's legality and alignment checks stand before its effect, and the fetch check before both; a fault changes its core
alone. -/
theorem illegalWordsAndBadFetchesFault : Obligations.IllegalWordsAndBadFetchesFault := by
  intro c w s hretire
  refine ⟨fun hfetch => ?_, fun hfirst halign => ?_, fun hstart x hx => ⟨fun p ht hp => ?_, fun p y ht hy hp => ?_, fun hhbm hcomp => ?_⟩⟩
  · have h : Ready c s := ⟨hretire, hfetch⟩
    refine ⟨fun hx => ⟨?_, ?_, ?_, ?_⟩, fun hq => ⟨?_, ?_⟩, fun hbit hw => ⟨?_, ?_⟩, fun hd => ⟨?_, ?_, ?_⟩, fun hwait hw => ⟨?_, ?_, ?_, ?_⟩,
      ?_, ?_, fun hx halign => ?_, fun halign => takesFault_jalr_misaligned h halign, fun v hv => faultsTo_runWord_reserved h hv _⟩
    · have halu {i op f} (hrun : exec i s = .next (alu op false f c w s)) (hop : op < 64) := takesFault_alu h hrun hop (.inl hx)
      simp only [aluForms, List.zipIdx_cons, List.zipIdx_nil, List.forall_mem_cons, -Int.reducePow, -Nat.reducePow]
      exact ⟨halu rfl (by decide), halu rfl (by decide), halu rfl (by decide), halu rfl (by decide), halu rfl (by decide), halu rfl (by decide),
        halu rfl (by decide), halu rfl (by decide), halu rfl (by decide), halu rfl (by decide), halu rfl (by decide), halu rfl (by decide),
        halu rfl (by decide), halu rfl (by decide), halu rfl (by decide), halu rfl (by decide), halu rfl (by decide), halu rfl (by decide),
        halu rfl (by decide), halu rfl (by decide), List.forall_mem_nil _⟩
    · exact takesFault_alu h rfl (by decide) (.inl hx)
    · exact takesFault_alu h rfl (by decide) (.inl hx)
    · have hamo {i op f} (hrun : exec i s = .next (amo op f c w ⟨false, false, false⟩ s)) (hop : op < 64) := takesFault_amo h hrun hop hx
      simp only [amoForms, List.zipIdx_cons, List.zipIdx_nil, List.forall_mem_cons, -Nat.reducePow]
      exact ⟨hamo rfl (by decide), hamo rfl (by decide), hamo rfl (by decide), hamo rfl (by decide), hamo rfl (by decide), hamo rfl (by decide),
        hamo rfl (by decide), List.forall_mem_nil _⟩
    · exact takesFault_alu h rfl (by decide) (.inr ⟨rfl, hq⟩)
    · exact takesFault_alu h rfl (by decide) (.inr ⟨rfl, hq⟩)
    · exact takesFault_constant (i := .movz c hw w) h rfl (by decide) hbit (by omega)
    · exact takesFault_constant (i := .movk c hw w) h rfl (by decide) hbit (by omega)
    · exact takesFault_illegal h rfl (by simp [hd]) (wordOf_lt (by decide) (by decide) w)
    · exact takesFault_illegal h rfl (by simp [hd]) (wordOf_lt (by decide) (by decide) w)
    · exact takesFault_illegal h rfl (by simp [hd]) (wordOf_lt (by decide) (by decide) w)
    · exact takesFault_illegal h rfl (decide_eq_false hw) (wordOf_lt (by decide) (by decide) w)
    · exact takesFault_illegal h rfl (decide_eq_false hw) (wordOf_lt (by decide) (by decide) w)
    · exact takesFault_illegal h rfl (decide_eq_false hw) (wordOf_lt (by decide) (by decide) w)
    · exact takesFault_illegal h (congrArg _ (waitInsn_of_no_wait hwait ..)) (decide_eq_false hw) (wordOf_lt (by decide) (by decide) w)
    · simp only [loadForms, List.forall_mem_cons]
      exact ⟨takesFault_load_misaligned h rfl, takesFault_load_misaligned h rfl, takesFault_load_misaligned h rfl, takesFault_load_misaligned h rfl,
        takesFault_load_misaligned h rfl, takesFault_load_misaligned h rfl, takesFault_load_misaligned h rfl, List.forall_mem_nil _⟩
    · simp only [storeForms, List.forall_mem_cons]
      exact ⟨fun halign _ => takesFault_store_misaligned h rfl nofun halign, fun halign _ => takesFault_store_misaligned h rfl nofun halign,
        fun halign _ => takesFault_store_misaligned h rfl nofun halign, fun halign _ => takesFault_store_misaligned h rfl nofun halign,
        fun halign hd => takesFault_store_misaligned h rfl (fun _ => hd trivial) halign, List.forall_mem_nil _⟩
    · have hamo {i op f} (hrun : exec i s = .next (amo op f c w ⟨false, false, false⟩ s)) := takesFault_amo_misaligned h hrun hx halign
      simp only [amoForms, List.forall_mem_cons, -Nat.reducePow]
      exact ⟨hamo rfl, hamo rfl, hamo rfl, hamo rfl, hamo rfl, hamo rfl, hamo rfl, List.forall_mem_nil _⟩
  · exact takesFault_aluForms_of_fetchFault hretire (fetchFault_of_misaligned s hfirst halign) (by decide)
  · exact takesFault_aluForms_of_fetchFault hretire (fetchFault_of_poisoned_hbm hstart ht hp) (by decide) x hx
  · exact takesFault_aluForms_of_fetchFault hretire (fetchFault_of_poisoned_companion hstart ht hy hp) (by decide) x hx
  · exact takesFault_aluForms_of_fetchFault hretire (fetchFault_of_no_memory hstart hhbm hcomp) (by decide) x hx

end Sys2Proof.Machine
end

section
/-! PROOFS. The delivery of a VX trap to its core's handler: what it writes, and the statement about the instructions that cover a pending trap (R152, R153). -/

namespace Sys2Proof.Machine

open Sys2Proof.Claims

/-- A trapped tile is one of a cluster's eight, and its instruction is one that the delivery point covers. -/
theorem of_trappedTile {c i : Nat} {sel : EngIns → Bool} {e : EngIns} {s : State} (h : trappedTile c sel s = some (i, e)) : i < 8 := by
  unfold trappedTile at h
  split at h
  · obtain ⟨j, hj, hfound⟩ := List.exists_of_findSome?_eq_some h
    dsimp only at hfound
    split at hfound
    · split at hfound
      · obtain ⟨rfl, -⟩ := Prod.mk.inj (Option.some.inj hfound)
        exact List.mem_range.1 hj
      · cases hfound
    · cases hfound
  · cases h

theorem csrGet_setEng (d off k : Nat) (e : Engine) (s : State) : csrGet d off (setEng k e s) = csrGet d off s := rfl

theorem bytesKept_setEng (k : Nat) (e : Engine) (s : State) : BytesKept s (setEng k e s) :=
  bytesKept_of_mapWords (fun _ _ _ => rfl) rfl rfl rfl rfl

/-- The trap registers of a core after a delivery. -/
def deliverRegs (c tile tag : Nat) (pc : BitVec 48) (s : State) : State :=
  setF (seqBase c) R.SEQ_TCAUSE_TILE tile (setF (seqBase c) R.SEQ_TCAUSE_TAG tag (setF (seqBase c) R.SEQ_TCAUSE_VALID 1
    (setPair (seqBase c) R.SEQ_TRAP_PC_LO_VALUE R.SEQ_TRAP_PC_HI_VALUE pc.toNat s)))

theorem onlyWords_deliverRegs (c tile tag : Nat) (pc : BitVec 48) (s : State) : OnlyWords (seqWord c) s (deliverRegs c tile tag pc s) :=
  (onlyWords_setPair_seq c R.SEQ_TRAP_PC_LO_VALUE R.SEQ_TRAP_PC_HI_VALUE (by decide) (by decide) ..).trans <|
    (onlyWords_setF_seq c R.SEQ_TCAUSE_VALID (by decide) ..).trans <| (onlyWords_setF_seq c R.SEQ_TCAUSE_TAG (by decide) ..).trans <|
    onlyWords_setF_seq c R.SEQ_TCAUSE_TILE (by decide) ..

theorem deliverRegs_read {tile : Nat} (htile : tile < 8) (c tag : Nat) (pc : BitVec 48) (s : State) :
    let t := deliverRegs c tile tag pc s
    getPair (seqBase c) R.SEQ_TRAP_PC_LO_VALUE R.SEQ_TRAP_PC_HI_VALUE t = pc.toNat ∧ getF (seqBase c) R.SEQ_TCAUSE_TILE t = tile ∧
      getF (seqBase c) R.SEQ_TCAUSE_TAG t = tag % 256 ∧ getF (seqBase c) R.SEQ_TCAUSE_VALID t = 1 := by
  have hpc := pc.isLt
  refine ⟨?_, ?_, ?_, ?_⟩
  · have hpair := getPair_setPair (lo := R.SEQ_TRAP_PC_LO_VALUE) (hi := R.SEQ_TRAP_PC_HI_VALUE) (by decide) (seqBase c) pc.toNat s
    rw [Nat.mod_eq_of_lt (by omega)] at hpair
    rw [← hpair]
    refine getPair_of_words fun d off hoff => ?_
    have hword : off ≠ seqBase c + 0x40 := by
      rcases hoff with rfl | rfl <;> exact fun h => absurd (Nat.add_left_cancel h) (by decide)
    exact (csrGet_setF_other _ d _ hword).trans ((csrGet_setF_other _ d _ hword).trans (csrGet_setF_other _ d _ hword))
  · rw [deliverRegs, getF_setF _ _ _ _ (by decide)]
    exact Nat.mod_eq_of_lt htile
  · rw [deliverRegs, getF_setF_beside _ _ _ (by decide) (by decide), getF_setF _ _ _ _ (by decide)]
    rfl
  · rw [deliverRegs, getF_setF_beside _ _ _ (by decide) (by decide), getF_setF_beside _ _ _ (by decide) (by decide), getF_setF _ _ _ _ (by decide)]
    rfl

/-- A delivery with a handler set: the trap registers, the mark that the VX's trap is delivered, and the core at its handler. -/
theorem deliverTrap_of_handler {c : Nat} {s : State} (htv : getPair (seqBase c) R.SEQ_TVEC_LO_ADDR R.SEQ_TVEC_HI_ADDR s ≠ 0) (i : Nat) (x : EngIns) (k : Core) :
    ∃ e, deliverTrap c i x k s =
      setCore c { k with trapMask := true, st := .inTrap, wait := none, heldWait := k.wait, pc := BitVec.ofNat 48 (getPair (seqBase c) R.SEQ_TVEC_LO_ADDR R.SEQ_TVEC_HI_ADDR s) }
        (setEng (kVx (8 * c + i)) e (deliverRegs c i x.tag.toNat k.pc s)) :=
  ⟨_, if_neg htv⟩

section
variable {c : Fin 44} {s : State} {i : Nat} {e : EngIns} {x : Instr}

/-- An instruction that delivers the trap goes to the handler, or faults where none is set. -/
theorem goesToHandler_of_run (hrun : exec x s = .next (deliverTrap c i e (getCore c s) s)) (hi : i < 8) (hwait : (getCore c s).wait = none) :
    let tv := getPair (seqBase c) R.SEQ_TVEC_LO_ADDR R.SEQ_TVEC_HI_ADDR s
    (tv ≠ 0 → GoesToHandler x c i e.tag.toNat tv s) ∧ (tv = 0 → TakesFault x c 8 (i + e.tag.toNat % 256 * 256) s) := by
  intro tv
  refine ⟨fun htv => ?_, fun htv => ?_⟩
  · obtain ⟨y, hy⟩ := deliverTrap_of_handler htv i e (getCore c s)
    obtain ⟨m, hm, -⟩ := onlyWords_deliverRegs c i e.tag.toNat (getCore c s).pc s
    obtain ⟨hpc, htile, htag, hvalid⟩ := deliverRegs_read hi c e.tag.toNat (getCore c s).pc s
    have hword : ∀ d off, csrGet d off (deliverTrap c i e (getCore c s) s) = csrGet d off (deliverRegs c i e.tag.toNat (getCore c s).pc s) :=
      fun d off => by rw [hy, csrGet_setCore, csrGet_setEng]
    refine ⟨_, hrun, fun j hj => ?_, ?_, (getPair_of_words fun _ _ _ => hword ..).trans hpc, (getF_of_word (hword ..)).trans htile,
      (getF_of_word (hword ..)).trans htag, (getF_of_word (hword ..)).trans hvalid, ?_⟩ <;> rw [hy]
    · rw [getCore_setCore, if_neg hj, hm]
      rfl
    · rw [getCore_setCore, if_pos rfl, hwait]
    · exact BytesKept.trans ((onlyWords_deliverRegs ..).bytesKept fun off hoff => not_mapWord_of_seqWord c.isLt hoff)
        (BytesKept.trans (bytesKept_setEng _ _ _) (bytesKept_setCore _ _ _))
  · have hfault : deliverTrap c i e (getCore c s) s = faultHere c 8 (i + e.tag.toNat % 256 * 256) s := if_pos htv
    rw [hfault] at hrun
    exact takesFault_of_run hrun (by decide) (by omega)

/-- A delivery point whose trap is pending delivers it before the instruction acts. -/
theorem orTrap_of_some {sel : EngIns → Bool} (hmask : (getCore c s).trapMask = false) (htrap : trappedTile c sel s = some (i, e))
    (body : Core → State → State) : orTrap c sel body (getCore c s) s = deliverTrap c i e (getCore c s) s := by
  rw [orTrap, if_neg (by simp [hmask]), htrap]

end

/-- Settles O23: every instruction of the list is a delivery point, and a delivery writes the trap registers and moves the core to SEQ_TVEC. -/
theorem pendingTrapsGoToTheHandler : Obligations.PendingTrapsGoToTheHandler := by
  intro c w s i e h hwait hmask tv goes
  refine ⟨fun htrap hw => ?_, fun htrap => ?_⟩
  · have hgoes {x op word legal body} (hrun : exec x s = .next (waitInsn op c word legal (orTrap c (fun _ => true) body) s)) (hlegal : legal = true) : goes x := by
      rw [waitInsn_of_no_wait hwait, insn_of_ready h _ hlegal, orTrap_of_some hmask htrap] at hrun
      exact goesToHandler_of_run hrun (of_trappedTile htrap) hwait
    exact ⟨hgoes rfl (decide_eq_true hw), hgoes rfl (decide_eq_true hw)⟩
  · have hgoes {x word body} (hrun : exec x s = .next (insn c word true (withSummary c (fS w) body) s)) : goes x := by
      rw [insn_of_ready h _ rfl, withSummary, orTrap_of_some hmask htrap] at hrun
      exact goesToHandler_of_run hrun (of_trappedTile htrap) hwait
    simp only [bsForms, sgetForms, List.forall_mem_cons]
    exact ⟨⟨hgoes rfl, hgoes rfl, hgoes rfl, hgoes rfl, hgoes rfl, hgoes rfl, hgoes rfl, hgoes rfl, hgoes rfl, List.forall_mem_nil _⟩,
      hgoes rfl, hgoes rfl, hgoes rfl, hgoes rfl, List.forall_mem_nil _⟩

end Sys2Proof.Machine
end

section
/-! PROOFS. Acceptance with a corrected error: it counts in the companion total too (R466), which the statement about acceptance holds fixed (R94, R143). -/

namespace Sys2Proof.Machine

open Sys2Proof.Claims

/-- A matrix instruction of core 0 with its descriptor at offset 0 of tile 0. -/
def crossingMx : EngIns := ⟨0, 0, 0, 5, 0, 0, 0, 0, none, 0, 0, 0, 0, 0, 0, 0, false, false, 0⟩

/-- It has crossed to an idle MX whose tile SRAM holds a legal 1 × 1 × 1 multiply. -/
def mxWaiting : State :=
  setEng (kMx 0) { Engine.init with cross := [crossingMx] }
    (tileWriteN 0 0 64 (0x80 * 2 ^ 96 + 0x400 * 2 ^ 160 + 0x10001 * 2 ^ 384 + 0x10001 * 2 ^ 416) State.reset)

theorem mxWaiting_crosses : (getEng (kMx 0) mxWaiting).cross = [crossingMx] ∧ (getEng (kMx 0) mxWaiting).queue.length < 4 := by decide +kernel

theorem mxWaiting_passes : firstFailing
    (mxChecks (false || tileMarked 0 crossingMx.p.toNat 64 mxWaiting) crossingMx.p.toNat (mxD (mxCfg 0 mxWaiting) (mxDesc 0 crossingMx mxWaiting))) = none := by
  decide +kernel

/-- One corrected error in the descriptor counts in the companion total of MX_CE_COUNT. -/
theorem totals_mxAccept_mxWaiting : (mxAccept 0 false 1 mxWaiting).totals ≠ mxWaiting.totals := by decide +kernel

/-- The statement would let no companion total change where an MX accepts. -/
theorem totals_mxAccept_of_statement (h : Obligations.EnginesAcceptOrRejectTheirWork) {x : EngIns} {s : State} (ce : Nat) (hcross : (getEng (kMx 0) s).cross = [x])
    (hcore : x.core < 44) (hroom : (getEng (kMx 0) s).queue.length < 4)
    (hpass : firstFailing (mxChecks (false || tileMarked 0 x.p.toNat 64 s) x.p.toNat (mxD (mxCfg 0 s) (mxDesc 0 x s))) = none) :
    (mxAccept 0 false ce s).totals = s.totals := by
  obtain ⟨haccept, -⟩ := h 0 0 0 false false ce s _ (List.mem_cons_self ..) x [] hcross hcore hroom rfl
  obtain ⟨u, -, hrun, -, -, -, -, -, hframe⟩ := haccept hpass
  have hu : mxAccept 0 false ce s = u := Host.Outcome.next.inj hrun
  rw [hu]
  exact (congrArg State.totals hframe :)

/-- Refutes O27: a corrected error in the descriptor of an accepted instruction also adds to the companion total that no read clears (R466), and the statement
lets only the 32-bit count change. -/
theorem not_enginesAcceptOrRejectTheirWork : ¬ Obligations.EnginesAcceptOrRejectTheirWork := by
  intro h
  obtain ⟨hcross, hroom⟩ := mxWaiting_crosses
  exact totals_mxAccept_mxWaiting (totals_mxAccept_of_statement h 1 hcross (by decide) hroom mxWaiting_passes)

end Sys2Proof.Machine
end

section
/-! PROOFS. The state windows: the word of a wide register that a write replaces, what an image puts back, and the statement about them (R130, R196, R222, R319,
R442, R490). -/

namespace Sys2Proof.Machine

open Sys2Proof.Claims

/-! ### One 32-bit word of a wide register -/

theorem wordPut_putBits (i : Nat) (v : Word) (old : Nat) : WordPut i v.toNat old (putBits old (i * 32) 32 v.toNat) := by
  intro j
  split
  next hj =>
    rw [hj, Nat.mul_comm, bitsAt_putBits]
    exact Nat.mod_eq_of_lt v.isLt
  next hj => exact bitsAt_putBits_outside _ _ (by omega)

theorem wordPut_ofNat_putBits {n i : Nat} (h : i * 32 + 32 ≤ n) (v : Word) (old : BitVec n) :
    WordPut i v.toNat old.toNat (BitVec.ofNat n (putBits old.toNat (i * 32) 32 v.toNat)).toNat := by
  rw [toNat_ofNat_putBits old _ h]
  exact wordPut_putBits i v old.toNat

/-! ### An image of a core, and of the collective engine -/

/-- Words put one after another: each listed one reads what was put, and no other changes. -/
theorem putWords_csr (f : Nat → Word) (l : List Nat) (s : State) :
    let t := l.foldl (fun s o => csrSet 0 o (f o) s) s
    (∀ o ∈ l, csrGet 0 o t = f o) ∧ (∀ d o, o ∉ l → csrGet d o t = csrGet d o s) ∧ ∃ m, t = { s with csr := m } := by
  induction l generalizing s with
  | nil => exact ⟨nofun, fun _ _ _ => rfl, s.csr, rfl⟩
  | cons a l ih =>
    obtain ⟨hin, hout, m, hm⟩ := ih (csrSet 0 a (f a) s)
    refine ⟨fun o ho => ?_, fun d o ho => ?_, m, hm⟩
    · by_cases hl : o ∈ l
      · exact hin o hl
      · obtain rfl := (List.mem_cons.1 ho).resolve_right hl
        exact (hout 0 _ hl).trans ((sGet_sSet ..).trans (if_pos rfl))
    · exact (hout d o (List.not_mem_of_not_mem_cons ho)).trans (csrGet_csrSet_other _ _ _ _ _ _ (List.ne_of_not_mem_cons ho))

/-- A register of the collective engine's block. -/
def colWord (off : Nat) : Prop := ∃ x, x < 0x8000 ∧ off = colBase + x

theorem onlyWords_setF_col (f : Fld) (hf : f.off < 0x8000) (v : Nat) (s : State) : OnlyWords colWord s (setF colBase f v s) :=
  (onlyWords_setF ..).mono fun _ hoff => ⟨_, hf, hoff⟩

theorem onlyWords_colShow (s : State) : OnlyWords colWord s (colShow s) :=
  (onlyWords_setF_col R.COL_RSRAM_USED1 (by decide) ..).trans <| (onlyWords_setF_col R.COL_RSRAM_USED0 (by decide) ..).trans <|
    (onlyWords_setF_col R.COL_QUEUE_DEPTH (by decide) ..).trans <| onlyWords_setF_col R.COL_STATUS_RUNNING (by decide) ..

theorem not_mapWord_of_colWord {off : Nat} (h : colWord off) : ¬ mapWord off := by
  obtain ⟨x, hx, rfl⟩ := h
  intro hmap
  have hat := mapWord_eq hmap
  have hbase : colBase = 0x600000 := rfl
  omega

/-! ### The windows while FROZEN -/

section
variable {s : State} (h : s.pkg = .frozen) (path : Path) (val : Word)
include h

theorem windowWrite_of_image {α : Type} {img : Option (Nat × α)} {n : Nat} {x : α} (himg : img = some (n, x)) {base off : Nat}
    (hval : val = imageWord base n off) (put : α → State → State) : windowWrite path img base off val put s = .next (put x s) := by
  subst himg
  exact (if_neg (not_not_intro h)).trans (if_pos hval)

theorem windowWrite_of_other_word {α : Type} {img : Option (Nat × α)} {n : Nat} {x : α} (himg : img = some (n, x)) {base off : Nat}
    (hval : val ≠ imageWord base n off) (put : α → State → State) : windowWrite path img base off val put s = .fault .undefinedImage := by
  subst himg
  exact (if_neg (not_not_intro h)).trans (if_neg hval)

section
variable (c : Fin 44) (off : BitVec 12)

/-- The window of the g registers. -/
theorem seqWindow_g (hlo : 0x808 ≤ off.toNat) (hhi : off.toNat < 0x900) :
    let k := getCore c s
    let n := (off.toNat - 0x800) / 8
    exec (.seqStateWindow path c off val) s =
      .next (setCore c (setG n (BitVec.ofNat 64 (putBits (getG k n).toNat (off.toNat % 8 / 4 * 32) 32 val.toNat)) k) s) := by
  refine Eq.trans (b := seqWindow path c off.toNat val s) rfl ?_
  rw [seqWindow, if_neg (not_not_intro h), if_pos (by omega)]

/-- The window of the h registers. -/
theorem seqWindow_h (hlo : 0xC00 ≤ off.toNat) (hhi : off.toNat < 0xE00) :
    let k := getCore c s
    let n := (off.toNat - 0xC00) / 32
    exec (.seqStateWindow path c off val) s =
      .next (setCore c (setH n (BitVec.ofNat 256 (putBits (getH k n).toNat (off.toNat % 32 / 4 * 32) 32 val.toNat)) k) s) := by
  refine Eq.trans (b := seqWindow path c off.toNat val s) rfl ?_
  rw [seqWindow, if_neg (not_not_intro h), if_neg (by omega), if_neg (by omega), if_pos (by omega)]

/-- The window of the core's image. -/
theorem seqWindow_image (hlo : 0xE00 ≤ off.toNat) (hhi : off.toNat < 0xE20) :
    exec (.seqStateWindow path c off val) s = windowWrite path (sFind s.imgCore c) (seqBase c + 0xE00) (off.toNat - 0xE00) val (fun x s =>
      setCore c { getCore c s with pc := x.1.pc, tag := x.1.tag, trapMask := x.1.trapMask, heldWait := x.1.heldWait, qpLast := x.1.qpLast, qpCount := x.1.qpCount }
        (putTrap c x.2 s)) s := by
  refine Eq.trans (b := seqWindow path c off.toNat val s) rfl ?_
  rw [seqWindow, if_neg (not_not_intro h), if_neg (by omega), if_neg (by omega), if_neg (by omega), if_pos (by omega)]

end

section
variable (p : Fin 288) (off : BitVec 14)

/-- The window of the mask registers. -/
theorem vxWindow_masks (hlo : 0x1000 ≤ off.toNat) (hhi : off.toNat < 0x1100) :
    let m := (off.toNat - 0x1000) / 32
    exec (.vxRegfileWindow path p off val) s =
      .next (setM p m (BitVec.ofNat 256 (putBits (getM p m s).toNat (off.toNat % 32 / 4 * 32) 32 val.toNat)) s) := by
  refine Eq.trans (b := .next (vxWindow path p off.toNat val s)) rfl ?_
  rw [vxWindow, if_neg (not_not_intro h), if_pos (by omega)]

/-- The window of the vector registers. -/
theorem vxWindow_registers (hlo : 0x2000 ≤ off.toNat) :
    let n := (off.toNat - 0x2000) / 0x100 % 32
    exec (.vxRegfileWindow path p off val) s =
      .next (setV p n (BitVec.ofNat 2048 (putBits (getV p n s).toNat (off.toNat % 0x100 / 4 * 32) 32 val.toNat)) s) := by
  refine Eq.trans (b := .next (vxWindow path p off.toNat val s)) rfl ?_
  rw [vxWindow, if_neg (not_not_intro h), if_neg (by omega), if_pos (by omega)]

end

end

theorem setM_frame (p m : Nat) (v : BitVec 256) (s : State) : { setM p m v s with masks := s.masks } = s := by
  unfold setM
  split <;> rfl

/-- Outside FROZEN a window write is recorded and nothing else (R442). -/
theorem windowWrite_of_not_frozen {α : Type} {s : State} (h : s.pkg ≠ .frozen) (path : Path) (img : Option (Nat × α)) (base off : Nat) (val : Word)
    (put : α → State → State) : windowWrite path img base off val put s = .next (rejectWrite path (base + off) val.toNat s) := if_pos h

theorem exec_seqStateWindow_of_not_frozen {s : State} (h : s.pkg ≠ .frozen) (path : Path) (val : Word) (c : Fin 44) (off : BitVec 12) :
    exec (.seqStateWindow path c off val) s = .next (rejectWrite path (seqBase c + off.toNat) val.toNat s) :=
  Eq.trans (b := seqWindow path c off.toNat val s) rfl (if_pos h)

theorem exec_vxRegfileWindow_of_not_frozen {s : State} (h : s.pkg ≠ .frozen) (path : Path) (val : Word) (p : Fin 288) (off : BitVec 14) :
    exec (.vxRegfileWindow path p off val) s = .next (rejectWrite path (tileBase p + off.toNat) val.toNat s) :=
  Eq.trans (b := .next (vxWindow path p off.toNat val s)) rfl (congrArg _ (if_pos h))

theorem exec_dspStateWindow (path : Path) (d : Fin 4) (off : BitVec 11) (val : Word) (s : State) :
    exec (.dspStateWindow path d off val) s = windowWrite path (sFind s.imgDsp d) (dspBase d + 0x800) off.toNat val (fun x s => setDsp d x s) s :=
  (rfl : _ = execDspStateWindow path d off val s)

theorem exec_slvStateWindow (path : Path) (e : Fin 8) (off : BitVec 10) (val : Word) (s : State) :
    exec (.slvStateWindow path e off val) s = windowWrite path (sFind s.imgSlv e) (slvBase e + 0x800) off.toNat val (fun x s => setEng (kSlv e) x s) s :=
  (rfl : _ = execSlvStateWindow path e off val s)

/-- The collective engine with the queue that an image's collectives fill. -/
def setCol (x : ColEng) (s : State) : State := setEng kCol { getEng kCol s with queue := x.runs.map (fun r => r.ins) } { s with col := x }

/-- What an image of the collective engine puts back. -/
def putCol (x : ColEng) (s : State) : State := colShow (setCol x s)

theorem getEng_setCol_other {j : Nat} (h : j ≠ kCol) (x : ColEng) (s : State) : getEng j (setCol x s) = getEng j s :=
  (sGet_sSet ..).trans (if_neg h)

theorem bytesKept_setCol (x : ColEng) (s : State) : BytesKept s (setCol x s) := bytesKept_of_mapWords (fun _ _ _ => rfl) rfl rfl rfl rfl

theorem bytesKept_colShow (s : State) : BytesKept s (colShow s) := (onlyWords_colShow s).bytesKept fun _ => not_mapWord_of_colWord

theorem bytesKept_putCol (x : ColEng) (s : State) : BytesKept s (putCol x s) := BytesKept.trans (bytesKept_setCol x s) (bytesKept_colShow _)

/-- Only register words of the engine's block follow its image. -/
theorem putCol_frame (x : ColEng) (s : State) : ∃ m, putCol x s = { setCol x s with csr := m } := by
  obtain ⟨m, hm, -⟩ := onlyWords_colShow (setCol x s)
  exact ⟨m, hm⟩

theorem exec_colStateWindow (path : Path) (off : BitVec 14) (val : Word) (s : State) :
    exec (.colStateWindow path off val) s = windowWrite path s.imgCol (colBase + 0x8000) off.toNat val putCol s :=
  (rfl : _ = execColStateWindow path off val s)

/-- Settles O25: each window writes the word of the register, or puts back the image whose word it is given; otherwise only the rejection is recorded. -/
theorem stateWindowsActWhileFrozen : Obligations.StateWindowsActWhileFrozen := by
  intro path val s
  refine ⟨fun h => ⟨fun c off _ => ⟨fun hlo hhi => ?_, fun hlo hhi => ?_, fun n x hlo hhi himg => ⟨fun hval => ?_, fun hval => ?_⟩⟩,
    fun p off _ => ⟨fun hlo hhi => ?_, fun hlo => ?_⟩, fun d off n x himg hval => ?_, fun e off n x himg hval => ?_, fun off n x himg hval => ?_⟩,
    fun h => ⟨fun c off => ?_, fun p off => ?_, fun d off => ?_, fun e off => ?_, fun off => ?_⟩⟩
  · refine ⟨_, seqWindow_g h path val c off hlo hhi, fun j hj => ?_, rfl, ?_⟩
    · rw [getCore_setCore, if_neg hj]
    · have hpos : (off.toNat - 0x800) / 8 ≠ 0 := by omega
      rw [getCore_setCore, if_pos rfl, getG_setG_same, if_neg hpos]
      refine ⟨wordPut_ofNat_putBits (by omega) val _, fun m hm => ?_, fun m => getH_setG ..⟩
      rw [getG_setG, if_neg hm]
      split
      next h0 => rw [getG, if_pos h0]
      next => rfl
  · refine ⟨_, seqWindow_h h path val c off hlo hhi, fun j hj => ?_, rfl, ?_⟩
    · rw [getCore_setCore, if_neg hj]
    · rw [getCore_setCore, if_pos rfl, getH_setH, if_pos rfl]
      refine ⟨wordPut_ofNat_putBits (by omega) val _, fun m hm => ?_, fun m => rfl⟩
      rw [getH_setH, if_neg hm]
  · obtain ⟨hin, hout, m, hm⟩ := putWords_csr (sGet 0 x.2) (trapRegs c) s
    have hcore : ∀ j, getCore j (putTrap c x.2 s) = getCore j s := fun j => by
      rw [putTrap, hm]
      rfl
    refine ⟨_, (seqWindow_image h path val c off hlo hhi).trans (windowWrite_of_image h path val himg hval _), fun j hj => ?_, ?_, ?_, hin, hout⟩
    · rw [getCore_setCore, if_neg hj, hcore]
    · rw [putTrap, hm]
      rfl
    · rw [getCore_setCore, if_pos rfl]
  · exact (seqWindow_image h path val c off hlo hhi).trans (windowWrite_of_other_word h path val himg hval _)
  · refine ⟨_, vxWindow_masks h path val p off hlo hhi, setM_frame .., fun hpos => ?_, fun q i hi _ hne => getM_setM_other _ _ (by omega) hi hne⟩
    rw [getM_setM _ _ _ _ hpos (by omega) (by omega), if_pos ⟨rfl, rfl⟩]
    exact wordPut_ofNat_putBits (by omega) val _
  · have hn : (off.toNat - 0x2000) / 0x100 % 32 < 32 := Nat.mod_lt _ (by decide)
    refine ⟨_, vxWindow_registers h path val p off hlo, rfl, ?_, fun q i hi _ hne => ?_⟩
    · rw [getV_setV _ _ _ _ hn hn, if_pos ⟨rfl, rfl⟩]
      exact wordPut_ofNat_putBits (by omega) val _
    · rw [getV_setV _ _ _ _ hn hi, if_neg hne]
  · refine ⟨_, (exec_dspStateWindow ..).trans (windowWrite_of_image h path val himg hval _), ?_, fun e he => ?_, rfl⟩
    · exact (sGet_sSet ..).trans (if_pos rfl)
    · exact (sGet_sSet ..).trans (if_neg he)
  · refine ⟨_, (exec_slvStateWindow ..).trans (windowWrite_of_image h path val himg hval _), ?_, fun j hj => ?_, rfl⟩
    · rw [getEng_setEng, if_pos rfl]
    · rw [getEng_setEng, if_neg hj]
  · obtain ⟨m, hm⟩ := putCol_frame x s
    refine ⟨_, (exec_colStateWindow ..).trans (windowWrite_of_image h path val himg hval _), ?_, fun j hj => ?_, ?_, bytesKept_putCol x s⟩
    · rw [hm]
      rfl
    · rw [hm]
      exact getEng_setCol_other hj x s
    · rw [hm]
      rfl
  · exact ⟨_, exec_seqStateWindow_of_not_frozen h path val c off, onlyLogged_raise ..⟩
  · exact ⟨_, exec_vxRegfileWindow_of_not_frozen h path val p off, onlyLogged_raise ..⟩
  · exact ⟨_, (exec_dspStateWindow ..).trans (windowWrite_of_not_frozen h ..), onlyLogged_raise ..⟩
  · exact ⟨_, (exec_slvStateWindow ..).trans (windowWrite_of_not_frozen h ..), onlyLogged_raise ..⟩
  · exact ⟨_, (exec_colStateWindow ..).trans (windowWrite_of_not_frozen h ..), onlyLogged_raise ..⟩

end Sys2Proof.Machine
end

section
/-! PROOFS. Lines in the Depots: which physical lines a local offset can name, what a coherent write that allocates a line puts into the Depot, what making room
keeps, and what a recall sends (R226, R228, R229, R245, R246, R247, R248, R291). -/

namespace Sys2Proof.Machine

open Sys2Proof.Claims

/-! ### Physical lines (R228, R229) -/

/-- HBM has twelve stacks of 64 GiB. -/
theorem physOf_lt {stack chan loc : Nat} (hstack : stack < 12) (hchan : chan < 32) (hloc : loc < 2 ^ 31) : physOf stack chan loc < 12 * 2 ^ 36 := by
  unfold physOf
  omega

theorem hbmOf_lt {spread : Bool} {o p : Nat} {s : State} (h : hbmOf spread o s = some p) : p < 12 * 2 ^ 36 := by
  unfold hbmOf at h
  have hsize : spreadGib s ≤ 48 := by
    unfold spreadGib
    omega
  cases spread with
  | true =>
    rw [if_pos rfl] at h
    obtain ⟨ho, hp⟩ := Option.ite_none_right_eq_some.1 h
    have hquot : o / 4096 / 12 / 32 < spreadGib s * 2 ^ 13 := by omega
    rw [← Option.some.inj hp]
    exact physOf_lt (Nat.mod_lt _ (by decide)) (fold5_lt ..) (by omega)
  | false =>
    rw [if_neg Bool.false_ne_true] at h
    obtain ⟨⟨hstack, -⟩, hp⟩ := Option.ite_none_right_eq_some.1 h
    rw [← Option.some.inj hp]
    exact physOf_lt hstack (fold5_lt ..) (by omega)

theorem target_hbm_lt {off p : Nat} {s : State} (h : target off s = .hbm p) : p < 12 * 2 ^ 36 := by
  rcases target_eq_hbm h with hlin | ⟨-, hspread⟩
  · exact hbmOf_lt hlin
  · exact hbmOf_lt hspread

/-- A line of HBM is no companion line, and its home is one of the four dies. -/
theorem line_of_target_hbm {off p : Nat} {s : State} (h : target off s = .hbm p) : p / 128 < compKey 0 ∧ homeDie (p / 128) < 4 := by
  have hp := target_hbm_lt h
  unfold compKey homeDie
  omega

/-! ### The line that an allocating write puts into a Depot -/

/-- Room for a line in the Depot of die `d`, in the home's directory first. -/
def depotMade (d : Fin 4) (pl : Nat) (s : State) : State :=
  depotRoom d pl (if pl < compKey 0 ∧ d.val ≠ homeDie pl then dirRoom pl s else s)

theorem depotPut_eq (d : Fin 4) (pl : Nat) (x : DepotLine) (s : State) :
    depotPut d pl x s = { depotMade d pl s with depot := sIns pl x (depotMade d pl s).depot } := rfl

/-- A Depot with room that holds no copy of the line gives nothing up. -/
theorem depotMade_of_takes {d : Fin 4} {pl : Nat} {s : State} (h : DepotTakes d pl s) (hno : ∀ x, sFind s.depot pl = some x → d ∉ x.holders) :
    depotMade d pl s = s := by
  rcases h with ⟨x, hx, hd⟩ | ⟨hways, hdir⟩
  · exact absurd hd (hno x hx)
  · have hroom : (if pl < compKey 0 ∧ d.val ≠ homeDie pl then dirRoom pl s else s) = s := by
      split
      next hout => exact if_pos (.inl (hdir hout.2))
      next => rfl
    rw [depotMade, hroom]
    exact if_pos hways

/-- The line a write merges is the only copy, modified; room is made where the Depot holds none (R245, R247). -/
theorem lineWrite_some_eq (d : Fin 4) (p n v : Nat) (s : State) :
    ∃ y u, lineWrite (some d) p n v s = { u with depot := sIns (p / 128) y u.depot } ∧ y.dirty = true ∧
      y.data = BitVec.ofNat 1024 (putBits (lineNat (p / 128) s) (8 * (p % 128)) (8 * n) v) ∧
      (u = s ∨ u = depotMade d (p / 128) s ∧ ∀ x, sFind s.depot (p / 128) = some x → d ∉ x.holders) := by
  unfold lineWrite
  dsimp only
  cases hx : sFind s.depot (p / 128) with
  | none =>
    exact ⟨_, _, depotPut_eq .., rfl, rfl, .inr ⟨rfl, fun _ h => absurd h.symm (Option.some_ne_none _)⟩⟩
  | some x =>
    dsimp only
    by_cases hd : x.holders.contains d = true
    · rw [if_pos hd]
      exact ⟨_, s, rfl, rfl, rfl, .inl rfl⟩
    · rw [if_neg hd]
      refine ⟨_, _, depotPut_eq .., rfl, rfl, .inr ⟨rfl, fun y hy hmem => hd ?_⟩⟩
      obtain rfl := Option.some.inj hy
      simpa using hmem

/-- Where the Depot takes the line, an allocating write changes that line alone. -/
theorem lineWrite_of_takes {d : Fin 4} {p : Nat} {s : State} (n v : Nat) (h : DepotTakes d (p / 128) s) :
    ∃ y, lineWrite (some d) p n v s = { s with depot := sIns (p / 128) y s.depot } ∧ y.dirty = true ∧
      y.data = BitVec.ofNat 1024 (putBits (lineNat (p / 128) s) (8 * (p % 128)) (8 * n) v) := by
  obtain ⟨y, u, hw, hdirty, hdata, rfl | ⟨rfl, hno⟩⟩ := lineWrite_some_eq d p n v s
  · exact ⟨y, hw, hdirty, hdata⟩
  · rw [depotMade_of_takes h hno] at hw
    exact ⟨y, hw, hdirty, hdata⟩

theorem storedAt_lineWrite_of_takes {d : Fin 4} {p n : Nat} {s : State} (v : Nat) (h : DepotTakes d (p / 128) s) (hn : p % 128 + n ≤ 128) :
    StoredAt p n v s (lineWrite (some d) p n v s) := by
  obtain ⟨y, hw, -, hdata⟩ := lineWrite_of_takes n v h
  rw [hw]
  exact storedAt_depot hn hdata

/-- The bytes written read as the value whether or not room had to be made. -/
theorem placeByte_lineWrite_some {p n i : Nat} (d : Fin 4) (v : Nat) (s : State) (hn : p % 128 + n ≤ 128) (hi : i < n) :
    placeByte (p + i) (lineWrite (some d) p n v s) = v / 256 ^ i % 256 := by
  obtain ⟨y, u, hw, -, hdata, -⟩ := lineWrite_some_eq d p n v s
  have hline : (p + i) / 128 = p / 128 := by omega
  have hfind : ∀ m : Store DepotLine, sFind (sIns (p / 128) y m) ((p + i) / 128) = some y := fun m => by simp [hline]
  obtain ⟨hin, -⟩ := storedAt_depot (s := s) hn hdata
  rw [← hin i hi, hw, placeByte_of_depot (hfind u.depot), placeByte_of_depot (hfind s.depot)]

theorem sFind_lineWrite_some (d : Fin 4) (p n v : Nat) (s : State) :
    ∃ y, sFind (lineWrite (some d) p n v s).depot (p / 128) = some y ∧ y.dirty = true := by
  obtain ⟨y, u, hw, hdirty, -⟩ := lineWrite_some_eq d p n v s
  exact ⟨y, by simp [hw], hdirty⟩

/-! ### What keeps the registers and the counter -/

/-- No register word and not the counter changed. -/
structure SameRegs (s t : State) : Prop where
  csr : t.csr = s.csr
  count : t.count = s.count

theorem SameRegs.refl (s : State) : SameRegs s s := ⟨rfl, rfl⟩

theorem SameRegs.trans {s t u : State} (h : SameRegs s t) (h' : SameRegs t u) : SameRegs s u := ⟨h'.csr.trans h.csr, h'.count.trans h.count⟩

theorem SameRegs.ite {c : Prop} [Decidable c] {s t u : State} (ht : SameRegs s t) (hu : SameRegs s u) : SameRegs s (if c then t else u) := by
  split <;> assumption

/-- A message of the package's own takes the next TXID, and leaves the snoops and requests outstanding as they are. -/
theorem halAsk_frame (opc vc len line pmask : Nat) (lines : List Line) (s : State) :
    ∃ l o, halAsk opc vc len line pmask lines s = { s with hal := { s.hal with nextTx := s.hal.nextTx + 1 }, links := l, out := o } := by
  rw [halAsk, halSend, halPut, linkPut]
  split
  · exact ⟨_, _, rfl⟩
  · exact ⟨_, s.out, rfl⟩

theorem sameRegs_halAsk (opc vc len line pmask : Nat) (lines : List Line) (s : State) : SameRegs s (halAsk opc vc len line pmask lines s) := by
  obtain ⟨l, o, h⟩ := halAsk_frame opc vc len line pmask lines s
  rw [h]
  exact ⟨rfl, rfl⟩

theorem sameRegs_hbmWrite (p n v : Nat) (s : State) : SameRegs s (hbmWrite p n v s) := by
  cases hc : chanOos (p / 128) s with
  | true => rw [hbmWrite, if_pos hc]; exact .refl s
  | false =>
    obtain ⟨ps, cs, hw⟩ := hbmWrite_frame n v hc
    rw [hw]
    exact ⟨rfl, rfl⟩

theorem sameRegs_writeBack (pl : Nat) (d : DepotLine) (s : State) : SameRegs s (writeBack pl d s) := by
  have hhome := sameRegs_hbmWrite (pl * 128) 128 d.data.toNat s
  have hask := fun t => sameRegs_halAsk 0x14 2 0 (winBase s / 128 + (pl - compKey 0)) (b2n d.poison) [d.data] t
  rw [writeBack]
  exact .ite (.ite ⟨(hask _).csr, (hask _).count⟩ (.ite (hhome.trans (.ite (.refl _) ⟨rfl, rfl⟩)) hhome)) (.refl s)

theorem sameRegs_depotGiveUp (d : Fin 4) (pl : Nat) (x : DepotLine) (s : State) : SameRegs s (depotGiveUp d pl x s) := by
  rw [depotGiveUp]
  split
  · obtain ⟨hcsr, hcount⟩ := sameRegs_writeBack pl x { s with depot := sDel pl s.depot }
    exact ⟨hcsr, hcount⟩
  · exact ⟨rfl, rfl⟩

theorem sameRegs_depotRoom (d : Fin 4) (pl : Nat) (s : State) : SameRegs s (depotRoom d pl s) := by
  rw [depotRoom]
  refine .ite (.refl s) ?_
  split
  next e _ =>
    obtain ⟨hcsr, hcount⟩ := sameRegs_depotGiveUp d e.1 e.2 { s with fresh := s.fresh + 1 }
    exact ⟨hcsr, hcount⟩
  · exact .refl s

/-- A write into the home's own Depot changes no register: only an entry of the directory would count a victim (R246). -/
theorem sameRegs_lineWrite_home {d : Fin 4} {p : Nat} (hhome : d.val = homeDie (p / 128)) (n v : Nat) (s : State) :
    SameRegs s (lineWrite (some d) p n v s) := by
  obtain ⟨y, u, hw, -, -, hu⟩ := lineWrite_some_eq d p n v s
  have hsame : SameRegs s u := by
    rcases hu with rfl | ⟨rfl, -⟩
    · exact .refl _
    · rw [depotMade, if_neg (by simp [hhome])]
      exact sameRegs_depotRoom ..
  rw [hw]
  exact ⟨hsame.csr, hsame.count⟩

/-! ### Recalling the companion's copy (R291, R292) -/

/-- A snoop for a line is outstanding afterwards; the Depots, HBM and the cores are as before. -/
theorem snoop_spec (inv : Bool) (pl : Nat) (s : State) :
    (snoop inv pl s).depot = s.depot ∧ (snoop inv pl s).hbm = s.hbm ∧ ∃ x ∈ (snoop inv pl s).hal.snoops, x.line = pl := by
  rw [snoop]
  split
  next h =>
    obtain ⟨x, hx, hline⟩ := List.any_eq_true.1 h
    exact ⟨rfl, rfl, x, hx, of_decide_eq_true hline⟩
  next =>
    dsimp only
    obtain ⟨l, o, h⟩ := halAsk_frame (if inv then 0x08 else 0x09) 1 0
      (localOf pl (addPair halBase R.HAL_RECALLS_LO_VALUE R.HAL_RECALLS_HI_VALUE 1 s) / 128) 0 []
      { addPair halBase R.HAL_RECALLS_LO_VALUE R.HAL_RECALLS_HI_VALUE 1 s with
        hal := { s.hal with snoops := s.hal.snoops ++ [⟨s.hal.nextTx, pl, inv⟩] } }
    refine ⟨(congrArg State.depot h :), (congrArg State.hbm h :), ⟨s.hal.nextTx, pl, inv⟩, ?_, rfl⟩
    have hsnoops := congrArg (fun t => t.hal.snoops) h
    exact hsnoops ▸ List.mem_append_right _ (List.mem_singleton_self _)

/-- A recall for a write asks the companion for its copy, where it holds one. -/
theorem recallLine_true_spec (pl : Nat) (s : State) : (recallLine true pl s).depot = s.depot ∧ (recallLine true pl s).hbm = s.hbm ∧
    ((sFind s.hal.dir pl).isSome → ∃ x ∈ (recallLine true pl s).hal.snoops, x.line = pl) := by
  obtain ⟨hdepot, hhbm, hsnoop⟩ := snoop_spec true pl s
  rw [recallLine]
  split
  · exact ⟨hdepot, hhbm, fun _ => hsnoop⟩
  · exact ⟨hdepot, hhbm, fun _ => hsnoop⟩
  next hnone => exact ⟨rfl, rfl, fun hsome => by simp [hnone] at hsome⟩

end Sys2Proof.Machine
end

section
/-! PROOFS. Stores: what retiring keeps of a state that a store has changed, where a store goes, and the statement about stores (R140, R231, R245, R247). -/

namespace Sys2Proof.Machine

open Sys2Proof.Claims

/-! ### Retiring after memory or registers changed -/

section
variable {c : Nat} {s u : State} {k : Core} {pc : BitVec 48}

theorem csrKeptBut_retireAt {touched : Nat → Prop} (hcsr : ∀ d off, ¬ touched off → csrGet d off u = csrGet d off s) (hcount : u.count = s.count)
    (hfirst : k.first = (getCore c s).first) : CsrKeptBut touched c s (retireAt c pc k u) := by
  obtain ⟨m, -, hwords⟩ := retireAt_frame c pc k u
  refine ⟨fun d off htouched hstart => ?_, fun ⟨hf, hc⟩ => ?_⟩
  · exact (hwords d off fun ⟨ho, hf, hc⟩ => hstart ⟨ho, hfirst ▸ hf, hc⟩).trans (hcsr d off htouched)
  · rw [gctStart_retireAt (hfirst.trans hf) hc, hcount]

theorem otherCoresKept_retireAt (h : SameBlocks s u) : OtherCoresKept c s (retireAt c pc k u) := fun j hj =>
  (getCore_retireAt_other hj ..).trans (h.getCore_eq j)

theorem placeByte_retireAt (x : Nat) : placeByte x (retireAt c pc k u) = placeByte x u := by
  obtain ⟨m, hm, -⟩ := retireAt_frame c pc k u
  rw [hm]
  exact placeByte_congr rfl rfl

theorem storedAt_retireAt {p n v : Nat} (h : StoredAt p n v s u) : StoredAt p n v s (retireAt c pc k u) := by
  obtain ⟨hin, hout, htile⟩ := h
  obtain ⟨m, hm, -⟩ := retireAt_frame c pc k u
  refine ⟨fun i hi => (placeByte_retireAt _).trans (hin i hi), fun x hx => (placeByte_retireAt _).trans (hout x hx), ?_⟩
  rw [hm, ← htile]

theorem depot_retireAt : (retireAt c pc k u).depot = u.depot := by
  obtain ⟨m, hm, -⟩ := retireAt_frame c pc k u
  rw [hm]

end

/-! ### A store on a core that may retire -/

/-- Data of these sizes at a multiple of their size stay in one line. -/
theorem in_line_of_aligned {a p size : Nat} (hsize : size ∈ [1, 2, 4, 8, 32]) (halign : a % size = 0) (hp : p % 128 = a % 128) : p % 128 + size ≤ 128 := by
  simp only [List.mem_cons, List.not_mem_nil, or_false] at hsize
  rcases hsize with rfl | rfl | rfl | rfl | rfl <;> omega

/-- A physical byte has its address's place in the line. -/
theorem mod_line_of_target {a p : Nat} {s : State} (h : target (offOf a) s = .hbm p) : p % 128 = a % 128 := by
  have hp := target_hbm_mod_line h
  unfold offOf at hp
  omega

/-- The bytes of a number below `n` are those of its low part. -/
theorem byte_mod_two_pow {i n : Nat} (hi : i < n) (v : Nat) : v % 2 ^ (8 * n) / 256 ^ i % 256 = v / 256 ^ i % 256 := by
  rw [← bitsAt_byte, ← bitsAt_byte, bitsAt_mod_two_pow _ (by omega)]

/-- The bytes that a store takes from its register. -/
def storeValue (fromH : Bool) (w : BitVec 22) (k : Core) : Nat := if fromH then (getH k (fD w)).toNat else (getG k (fD w)).toNat

/-- Each listed store is the class's operation with its size and register. -/
theorem store_of_mem_storeForms {c : Fin 44} {w : BitVec 22} {k : Core} {f : Instr × Nat × Nat} (hf : f ∈ storeForms c w (getG k (fD w)) (getH k (fD w)))
    (s : State) : ∃ op fromH, exec f.1 s = .next (store op f.2.1 fromH c w s) ∧ f.2.2 = storeValue fromH w k ∧ f.2.1 ∈ [1, 2, 4, 8, 32] ∧
      (fromH = true → f.2.1 = 32) := by
  simp only [storeForms, List.mem_cons, List.not_mem_nil, or_false] at hf
  rcases hf with rfl | rfl | rfl | rfl | rfl
  · exact ⟨7, false, rfl, rfl, by simp, nofun⟩
  · exact ⟨8, false, rfl, rfl, by simp, nofun⟩
  · exact ⟨9, false, rfl, rfl, by simp, nofun⟩
  · exact ⟨10, false, rfl, rfl, by simp, nofun⟩
  · exact ⟨12, true, rfl, rfl, by simp, fun _ => rfl⟩

section
variable {c : Fin 44} {w : BitVec 22} {s : State} (h : Ready c s) {op size : Nat} {fromH : Bool} (hlegal : fromH = true → fD w < 16)
  (halign : (accessAddr c w s).toNat % size = 0) (hlocal : isLocal (accessAddr c w s).toNat s = true)
include h hlegal halign hlocal

theorem store_tile {p b : Nat} (ht : target (offOf (accessAddr c w s).toNat) s = .tile p b) (hc : c.val < 36) (hp : p / 8 = c.val) :
    store op size fromH c w s = retire c (getCore c s) (tileWriteN p b size (storeValue fromH w (getCore c s) % 2 ^ (8 * size)) s) := by
  rw [store, insn_of_ready h _ (by cases fromH <;> simp [hlegal])]
  refine (if_neg (not_not_intro halign)).trans ((if_pos hlocal).trans ?_)
  rw [accessAddr] at ht
  rw [immG, ht]
  exact if_pos ⟨hc, hp⟩

theorem store_hbm {p : Nat} (ht : target (offOf (accessAddr c w s).toNat) s = .hbm p) :
    store op size fromH c w s = if writeHeld (p / 128) s then recallLine true (p / 128) s
      else retire c (getCore c s) (lineWrite (some (coreDie c (p / 128))) p size (storeValue fromH w (getCore c s) % 2 ^ (8 * size)) s) := by
  obtain ⟨hline, -⟩ := line_of_target_hbm ht
  rw [store, insn_of_ready h _ (by cases fromH <;> simp [hlegal])]
  refine (if_neg (not_not_intro halign)).trans ((if_pos hlocal).trans ?_)
  rw [accessAddr] at ht
  rw [immG, ht]
  exact if_neg (by omega)

end

theorem storedInTile_tileWriteN (p b n v : Nat) (s : State) : StoredInTile (tileAddr p b) n v s (tileWriteN p b n v s) :=
  ⟨fun _ hi => memRead_memWriteN_inside _ _ _ _ _ _ hi, fun _ hy => memRead_memWriteN_outside _ _ _ _ _ _ (by omega), rfl, rfl⟩

theorem tileWriteN_mod (p b n v : Nat) (s : State) : tileWriteN p b n (v % 2 ^ (8 * n)) s = tileWriteN p b n v s := by
  rw [tileWriteN, memWriteN_mod]
  rfl

/-- Settles O17: a store to its own tile SRAM writes it there; one to HBM puts the merged line into the core's Depot, or recalls the companion's copy. -/
theorem storesWriteTheirBytes : Obligations.StoresWriteTheirBytes := by
  intro c w s h k a hlocal f hf halign hsth
  obtain ⟨op, fromH, hrun, hv, hsize, hwide⟩ := store_of_mem_storeForms hf s
  have hlegal : fromH = true → fD w < 16 := fun hH => hsth (hwide hH)
  refine ⟨fun p b ht hc hp => ?_, fun p ht hheld => ?_, fun p ht hheld => ?_⟩
  · rw [store_tile h hlegal halign hlocal ht hc hp, ← hv, tileWriteN_mod] at hrun
    obtain ⟨m, hm, -⟩ := retireAt_frame c (k.pc + 4) k (tileWriteN p b f.2.1 f.2.2 s)
    obtain ⟨hin, hout, hhbm, hdepot⟩ := storedInTile_tileWriteN p b f.2.1 f.2.2 s
    refine ⟨_, hrun, otherCoresKept_retireAt ⟨rfl, rfl⟩, csrKeptBut_retireAt (fun _ _ _ => rfl) rfl rfl, ?_, ?_, ⟨?_, ?_, ?_, ?_⟩, ?_⟩
    · rw [retire, getCore_retireAt_same]
      exact wentOn_of_sameRest rfl ..
    · rw [retire, getCore_retireAt_same]
      exact wroteNone_wentOn ..
    all_goals rw [retire, hm]
    · exact hin
    · exact hout
    · exact hhbm
    · exact hdepot
    · rfl
  · rw [store_hbm h hlegal halign hlocal ht, if_neg (by simp [hheld])] at hrun
    have hroom := in_line_of_aligned hsize halign (mod_line_of_target ht)
    rw [← hv] at hrun
    refine ⟨_, hrun, otherCoresKept_retireAt (sameBlocks_lineWrite ..), ?_, ?_, ?_, fun i hi => ?_, fun htakes => ?_⟩
    · rw [retire, getCore_retireAt_same]
      exact wentOn_of_sameRest rfl ..
    · rw [retire, getCore_retireAt_same]
      exact wroteNone_wentOn ..
    · rw [retire, depot_retireAt]
      exact sFind_lineWrite_some ..
    · rw [retire, placeByte_retireAt, placeByte_lineWrite_some _ _ _ hroom hi, byte_mod_two_pow hi]
    · obtain ⟨y, hw, -, -⟩ := lineWrite_of_takes f.2.1 (f.2.2 % 2 ^ (8 * f.2.1)) htakes
      obtain ⟨m, hm, -⟩ := retireAt_frame c (k.pc + 4) k (lineWrite (some (coreDie c (p / 128))) p f.2.1 (f.2.2 % 2 ^ (8 * f.2.1)) s)
      refine ⟨csrKeptBut_retireAt (fun d off _ => by rw [hw]; rfl) (by rw [hw]) rfl,
        storedAt_mod (storedAt_retireAt (storedAt_lineWrite_of_takes _ htakes hroom)), ?_⟩
      rw [retire, hm, hw]
  · rw [store_hbm h hlegal halign hlocal ht, if_pos hheld] at hrun
    obtain ⟨hdepot, hhbm, hsnoop⟩ := recallLine_true_spec (p / 128) s
    exact ⟨_, hrun, (sameBlocks_recallLine ..).cores, hdepot, hhbm, hsnoop⟩

end Sys2Proof.Machine
end

section
/-! PROOFS. Atomics: one atomic operation at a line's home Depot, and the statement about the atomic class (R24, R136, R248). -/

namespace Sys2Proof.Machine

open Sys2Proof.Claims

/-! ### One atomic operation (R248) -/

section
variable (p : Nat) (f : Nat → Nat) (s : State)

/-- The word at a physical place. -/
def oldWord (p : Nat) (s : State) : Nat := bitsAt (lineNat (p / 128) s) (8 * (p % 128)) 64

/-- The die whose Depot is home of a place. -/
def homeOf (p : Nat) : Fin 4 := Fin.ofNat 4 (homeDie (p / 128))

/-- The state once the home Depot has counted the operation. -/
def atomicCounted (p : Nat) (s : State) : State := addPair (depBase (homeOf p)) R.DEP_ATOMIC_LO_VALUE R.DEP_ATOMIC_HI_VALUE 1 s

theorem atomicAt_eq : atomicAt p f s = (oldWord p s, lineWrite (some (homeOf p)) p 8 (f (oldWord p s)) (atomicCounted p s)) := rfl

theorem onlyWords_atomicCounted :
    OnlyWords (pairWords (depBase (homeOf p)) R.DEP_ATOMIC_LO_VALUE R.DEP_ATOMIC_HI_VALUE) s (atomicCounted p s) := onlyWords_addPair ..

theorem depotTakes_atomicCounted (d : Fin 4) (pl : Nat) : DepotTakes d pl (atomicCounted p s) ↔ DepotTakes d pl s := by
  obtain ⟨m, hm, -⟩ := onlyWords_atomicCounted p s
  rw [hm]
  exact Iff.rfl

variable {p}

theorem placeByte_atomicAt {i : Nat} (hroom : p % 128 + 8 ≤ 128) (hi : i < 8) :
    placeByte (p + i) (atomicAt p f s).2 = f (oldWord p s) / 256 ^ i % 256 := by
  rw [atomicAt_eq]
  exact placeByte_lineWrite_some _ _ _ hroom hi

/-- The operation counts once and changes no other register: its line's home needs no directory entry. -/
theorem csr_atomicAt (hhome : homeDie (p / 128) < 4) :
    (∀ d off, ¬ pairWords (depBase (homeOf p)) R.DEP_ATOMIC_LO_VALUE R.DEP_ATOMIC_HI_VALUE off → csrGet d off (atomicAt p f s).2 = csrGet d off s) ∧
      CountedOne (depBase (homeOf p)) R.DEP_ATOMIC_LO_VALUE R.DEP_ATOMIC_HI_VALUE s (atomicAt p f s).2 ∧ (atomicAt p f s).2.count = s.count := by
  obtain ⟨hcsr, hcount⟩ := sameRegs_lineWrite_home (d := homeOf p) (Nat.mod_eq_of_lt hhome) 8 (f (oldWord p s)) (atomicCounted p s)
  obtain ⟨m, hm, hwords⟩ := onlyWords_atomicCounted p s
  have hword : ∀ d off, csrGet d off (atomicAt p f s).2 = csrGet d off (atomicCounted p s) := fun d off => by
    rw [atomicAt_eq, csrGet, csrGet, hcsr]
  refine ⟨fun d off hoff => (hword d off).trans (hwords d off hoff), ?_, ?_⟩
  · exact (getPair_of_words fun d off _ => hword d off).trans (countedOne_addPair (by decide) _ s)
  · rw [atomicAt_eq, hcount, hm]

/-- Where the home Depot takes the line, nothing of memory changes but the word. -/
theorem storedAt_atomicAt (htakes : DepotTakes (homeOf p) (p / 128) s) (hroom : p % 128 + 8 ≤ 128) :
    StoredAt p 8 (f (oldWord p s)) s (atomicAt p f s).2 ∧ ∃ m y, (atomicAt p f s).2 = { s with csr := m, depot := y } := by
  obtain ⟨m, hm, -⟩ := onlyWords_atomicCounted p s
  rw [← depotTakes_atomicCounted p s] at htakes
  obtain ⟨y, hw, -, hdata⟩ := lineWrite_of_takes 8 (f (oldWord p s)) htakes
  obtain ⟨hin, hout, htile⟩ := storedAt_lineWrite_of_takes (f (oldWord p s)) htakes hroom
  rw [atomicAt_eq]
  refine ⟨⟨hin, fun x hx => (hout x hx).trans ?_, ?_⟩, ?_⟩
  · rw [hm]
    exact placeByte_congr rfl rfl
  · rw [htile, hm]
  · rw [hw, hm]
    exact ⟨_, _, rfl⟩

end

/-- Only the bytes of the value that are stored count. -/
theorem storedAt_low {p n v : Nat} {s t : State} (h : StoredAt p n v s t) : StoredAt p n (v % 2 ^ (8 * n)) s t := by
  obtain ⟨hin, hout, htile⟩ := h
  exact ⟨fun i hi => (hin i hi).trans (byte_mod_two_pow hi v).symm, hout, htile⟩

/-! ### The atomic class -/

/-- Without an event an access meets no error in the Depot's copy or the directory (R253). -/
theorem depotErrs_none (d : Fin 4) (pl gaddr : Nat) (s : State) : depotErrs d pl gaddr ⟨false, false, false⟩ s = s := by
  simp only [depotErrs, Bool.false_eq_true, false_and, if_false]
  split
  · split <;> rfl
  · rfl

/-- Each listed atomic is the class's operation, and the word it writes is the operation's low 64 bits. -/
theorem amo_of_mem_amoForms {c : Fin 44} {w : BitVec 22} {ev : LoadEv} {o d q : Nat} (ho : o < 2 ^ 64) (hq : q < 2 ^ 64) {f : Instr × Nat}
    (hf : f ∈ amoForms c w ev o d q) (s : State) : ∃ op g, exec f.1 s = .next (amo op g c w ev s) ∧ f.2 = g o d q % 2 ^ 64 := by
  simp only [amoForms, List.mem_cons, List.not_mem_nil, or_false, -Nat.reducePow] at hf
  rcases hf with rfl | rfl | rfl | rfl | rfl | rfl | rfl
  · exact ⟨0, fun o _ q => o + q, rfl, rfl⟩
  · exact ⟨1, fun _ _ q => q, rfl, (Nat.mod_eq_of_lt hq).symm⟩
  · refine ⟨2, fun o d q => if o = d then q else o, rfl, (Nat.mod_eq_of_lt ?_).symm⟩
    dsimp only
    split <;> assumption
  · exact ⟨3, fun o _ q => o &&& q, rfl, (Nat.mod_eq_of_lt (Nat.and_lt_two_pow _ hq)).symm⟩
  · exact ⟨4, fun o _ q => o ||| q, rfl, (Nat.mod_eq_of_lt (Nat.or_lt_two_pow ho hq)).symm⟩
  · exact ⟨5, fun o _ q => min o q, rfl, (Nat.mod_eq_of_lt (Nat.lt_of_le_of_lt (Nat.min_le_left ..) ho)).symm⟩
  · exact ⟨6, fun o _ q => max o q, rfl, (Nat.mod_eq_of_lt (Nat.max_lt.2 ⟨ho, hq⟩)).symm⟩

/-- An atomic on a line that is here: the old word to g[D], the new one to the home Depot. -/
theorem amo_here {c : Fin 44} {w : BitVec 22} {s : State} {p : Nat} (h : Ready c s) (hx : fX w = 0) (halign : (getG (getCore c s) (fP w)).toNat % 8 = 0)
    (hlocal : isLocal (getG (getCore c s) (fP w)).toNat s = true) (ht : target (offOf (getG (getCore c s) (fP w)).toNat) s = .hbm p)
    (hheld : writeHeld (p / 128) s = false) (hpoison : linePoison (p / 128) s = false) (op : Nat) (g : Nat → Nat → Nat → Nat) :
    let k := getCore c s
    amo op g c w ⟨false, false, false⟩ s = retireAt c (k.pc + 4) (setG (fD w) (BitVec.ofNat 64 (oldWord p s)) k)
      (atomicAt p (fun old => g old (getG k (fD w)).toNat (getG k (fQ w)).toNat) s).2 := by
  rw [amo, insn_of_ready h _ (decide_eq_true hx)]
  dsimp only
  rw [if_neg (not_not_intro halign), if_pos hlocal, ht]
  dsimp only
  rw [depotErrs_none, hheld, hpoison]
  exact retire_setG ..

/-- Settles O18: an atomic is one operation at the home Depot, whose word is the low 64 bits of the operation's result. -/
theorem atomicsExchangeOneWord : Obligations.AtomicsExchangeOneWord := by
  intro c w s p h hx k a halign hlocal ht hheld hpoison o d f hf
  obtain ⟨op, g, hrun, hvalue⟩ := amo_of_mem_amoForms (Nat.mod_lt _ (Nat.two_pow_pos 64)) (BitVec.isLt _) hf s
  rw [amo_here h hx halign hlocal ht hheld hpoison] at hrun
  obtain ⟨-, hhome⟩ := line_of_target_hbm ht
  have hroom := in_line_of_aligned (size := 8) (by simp) halign (mod_line_of_target ht)
  generalize hG : (fun old => g old (getG (getCore c s) (fD w)).toNat (getG (getCore c s) (fQ w)).toNat) = G at hrun
  replace hvalue : f.2 = G (oldWord p s) % 2 ^ (8 * 8) := by rw [← hG]; exact hvalue
  obtain ⟨hcsr, hcounted, hcount⟩ := csr_atomicAt G s hhome
  refine ⟨_, hrun, otherCoresKept_retireAt (sameBlocks_atomicAt ..), csrKeptBut_retireAt hcsr hcount (first_of_sameRest (setG_sameRest ..)), ?_, ?_, ?_,
    fun i hi => ?_, fun htakes => ?_⟩
  · obtain ⟨m, -, hwords⟩ := retireAt_frame c ((getCore c s).pc + 4) (setG (fD w) (BitVec.ofNat 64 (oldWord p s)) (getCore c s)) (atomicAt p G s).2
    refine (getPair_of_words fun e off (hoff : pairWords (depBase (homeOf p)) _ _ off) => hwords e off fun ⟨hstart, _⟩ => ?_).trans hcounted
    have hdep := le_depBase (homeOf p)
    have hat := startWord_eq hstart
    rcases hoff with rfl | rfl <;> omega
  · rw [getCore_retireAt_same]
    exact wentOn_of_sameRest (setG_sameRest ..) ..
  · rw [getCore_retireAt_same]
    exact wroteG_setG ..
  · rw [placeByte_retireAt, placeByte_atomicAt G s hroom hi, hvalue, byte_mod_two_pow hi]
  · obtain ⟨hstored, _, _, hframe⟩ := storedAt_atomicAt G s htakes hroom
    obtain ⟨m, hm, -⟩ := retireAt_frame c ((getCore c s).pc + 4) (setG (fD w) (BitVec.ofNat 64 (oldWord p s)) (getCore c s)) (atomicAt p G s).2
    refine ⟨hvalue ▸ storedAt_low (storedAt_retireAt hstored), ?_⟩
    rw [hm, hframe]

end Sys2Proof.Machine
end

section
/-! PROOFS. Waits: how a core begins to wait, what the words of WAITSIG and BAR decide, and the statement about the waiting class (R142, R145, R147, R154, R155,
R248). -/

namespace Sys2Proof.Machine

open Sys2Proof.Claims

/-! ### Beginning a wait (R145, R155) -/

/-- Without a trap to deliver there is none that a narrower delivery point covers. -/
theorem trappedTile_none_of_all {c : Nat} {s : State} (h : trappedTile c (fun _ => true) s = none) (sel : EngIns → Bool) : trappedTile c sel s = none := by
  unfold trappedTile at h ⊢
  split
  next hc =>
    rw [if_pos hc, List.findSome?_eq_none_iff] at h
    rw [List.findSome?_eq_none_iff]
    intro i hi
    have hnone := h i hi
    dsimp only at hnone ⊢
    cases htrap : (getEng (kVx (8 * c + i)) s).trap with
    | none => rfl
    | some t =>
      cases hqueue : (getEng (kVx (8 * c + i)) s).queue with
      | nil => rfl
      | cons x l => simp [htrap, hqueue] at hnone
  next => rfl

/-- The wait that begins now. -/
def beginsWait (c op : Nat) (target : Option Nat) (addr value : DWord) (cond : Nat) (s : State) : WaitRec :=
  ⟨op, s.count, target, addr, value, cond, waitLimit c s⟩

/-- The core that waits by `r`. -/
def waitingCore (r : WaitRec) (k : Core) (s : State) : Core := parkWaiting r { k with st := .waiting, wait := some r } s

theorem waitOn_of_no_wait {c : Nat} {k : Core} (h : k.wait = none) (op : Nat) (target : Option Nat) (addr value : DWord) (cond : Nat) (s : State) :
    waitOn c op target addr value cond k s = setCore c (waitingCore (beginsWait c op target addr value cond s) k s) s := by
  rw [waitOn, h]
  rfl

/-- Whether the core that begins to wait by `r` starts to park. -/
def parks (r : WaitRec) (k : Core) (s : State) : Prop := freezeDue s = true ∧ quiesceWait r = true ∧ k.parkFrom = none ∧ k.trapMask = false

theorem waitingCore_of_parks {r : WaitRec} {k : Core} {s : State} (h : parks r k s) :
    waitingCore r k s = { k with st := .waiting, wait := some r, parkFrom := some s.count, held := some .waiting } := by
  obtain ⟨hdue, hquiesce, hpark, hmask⟩ := h
  exact if_pos (by simp [hdue, hquiesce, hpark, hmask])

theorem waitingCore_of_not_parks {r : WaitRec} {k : Core} {s : State} (h : ¬ parks r k s) :
    waitingCore r k s = { k with st := .waiting, wait := some r } := by
  refine if_neg fun hall => h ?_
  simp only [Bool.and_eq_true, Option.isNone_iff_eq_none, Bool.not_eq_true'] at hall
  obtain ⟨⟨⟨hdue, hquiesce⟩, hpark⟩, hmask⟩ := hall
  exact ⟨hdue, hquiesce, hpark, hmask⟩

/-- Whether it starts to park or not, a core that begins to wait keeps its pc and its registers. -/
theorem waitingCore_eq (r : WaitRec) (k : Core) (s : State) :
    ∃ u o, waitingCore r k s = { k with st := .waiting, wait := some r, parkFrom := u, held := o } := by
  by_cases h : parks r k s
  · exact ⟨_, _, waitingCore_of_parks h⟩
  · exact ⟨_, _, waitingCore_of_not_parks h⟩

theorem nowWaits_of_run {i : Instr} {c op : Nat} {quiesce : Prop} {s : State} {target : Option Nat} {addr value : DWord} {cond : Nat}
    (hwait : (getCore c s).wait = none) (hrun : exec i s = .next (waitOn c op target addr value cond (getCore c s) s))
    (hq : quiesceWait (beginsWait c op target addr value cond s) = true ↔ quiesce) : NowWaits i c op quiesce s := by
  rw [waitOn_of_no_wait hwait] at hrun
  have hparks : parks (beginsWait c op target addr value cond s) (getCore c s) s ↔
      freezeDue s = true ∧ quiesce ∧ (getCore c s).parkFrom = none ∧ (getCore c s).trapMask = false := by
    rw [parks, hq]
  have hcore : getCore c (setCore c (waitingCore (beginsWait c op target addr value cond s) (getCore c s) s) s) =
      waitingCore (beginsWait c op target addr value cond s) (getCore c s) s := by rw [getCore_setCore, if_pos rfl]
  obtain ⟨u, o, heq⟩ := waitingCore_eq (beginsWait c op target addr value cond s) (getCore c s) s
  refine ⟨_, hrun, fun j hj => by rw [getCore_setCore, if_neg hj], rfl, rfl, bytesKept_setCore _ _ _, ?_, ?_, fun h => ?_, fun h => ?_, ?_⟩ <;>
    rw [hcore]
  · rw [heq]
  · exact ⟨_, by rw [heq], rfl, rfl⟩
  · rw [waitingCore_of_parks (hparks.2 h)]
    exact ⟨rfl, rfl⟩
  · rw [waitingCore_of_not_parks (mt hparks.1 h)]
    exact ⟨rfl, rfl⟩
  · rw [heq]
    conv_rhs => rw [← (show { getCore c s with wait := none } = getCore c s by rw [← hwait])]

/-- A wait on an engine is a quiesce point for the collective engine (R154). -/
theorem quiesceWait_engine {c kind : Nat} (hkind : kind < 16) {s : State} :
    quiesceWait (beginsWait c 0 none (BitVec.ofNat 64 kind) 0 0 s) = true ↔ kind = 9 := by
  have haddr : BitVec.ofNat 64 kind = 9#64 ↔ kind = 9 := by
    rw [← BitVec.toNat_inj, BitVec.toNat_ofNat, Nat.mod_eq_of_lt (by omega)]
    rfl
  rw [← haddr, quiesceWait, beginsWait]
  exact decide_eq_true_iff

theorem placeByte_setCore (x c : Nat) (k : Core) (s : State) : placeByte x (setCore c k s) = placeByte x s := placeByte_congr rfl rfl

theorem storedAt_setCore {p n v : Nat} {s u : State} (h : StoredAt p n v s u) (c : Nat) (k : Core) : StoredAt p n v s (setCore c k u) := by
  obtain ⟨hin, hout, htile⟩ := h
  exact ⟨fun i hi => (placeByte_setCore ..).trans (hin i hi), fun x hx => (placeByte_setCore ..).trans (hout x hx), htile⟩

/-! ### The words that WAITSIG and BAR name -/

theorem depotWord_here {c a p : Nat} {s : State} (halign : a % 8 = 0) (hlocal : isLocal a s = true) (ht : target (offOf a) s = .hbm p)
    (hpoison : linePoison (p / 128) s = false) (body : Nat → State → State) : depotWord c a body s = body p s := by
  rw [depotWord, if_neg (not_not_intro halign), if_pos hlocal, ht]
  exact if_neg (by simp [hpoison])

/-- The three condition codes (R145). -/
theorem sigHolds_iff {cond : Nat} (h3 : cond < 4) (hne : cond ≠ 3) (word value : Nat) :
    sigHolds cond word value = true ↔ (cond = 0 ∧ word = value) ∨ (cond = 1 ∧ word ≠ value) ∨ (cond = 2 ∧ value ≤ word) := by
  obtain rfl | rfl | rfl : cond = 0 ∨ cond = 1 ∨ cond = 2 := by omega
  all_goals simp [sigHolds]

/-- A number is at its least multiple exactly when the count divides it. -/
theorem leastMultiple_le_iff {n : Nat} (hn : 1 < n) (v : Nat) : leastMultiple v n ≤ v ↔ v % n = 0 := by
  unfold leastMultiple
  have hsplit := Nat.div_add_mod v n
  have hmod : v % n < n := Nat.mod_lt _ (by omega)
  by_cases h0 : v % n = 0
  · have hquot : (v + n - 1) / n = v / n := by
      rw [Nat.div_eq_iff (by omega), Nat.mul_comm]
      omega
    rw [hquot, Nat.mul_comm]
    omega
  · have hquot : (v + n - 1) / n = v / n + 1 := by
      rw [Nat.div_eq_iff (by omega), Nat.add_mul, Nat.mul_comm]
      omega
    rw [hquot, Nat.add_mul, Nat.mul_comm]
    omega

/-! ### The statement -/

section
variable {c : Fin 44} {w : BitVec 22} {s : State} (h : Ready c s) (hwait : (getCore c s).wait = none)
include h hwait

/-- A wait of a core that waits for nothing runs its body. -/
theorem run_waitInsn {i : Instr} {op word : Nat} {legal : Bool} {body : Core → State → State}
    (hrun : exec i s = .next (waitInsn op c word legal body s)) (hlegal : legal = true) : exec i s = .next (body (getCore c s) s) := by
  rwa [waitInsn_of_no_wait hwait, insn_of_ready h _ hlegal] at hrun

/-- What BAR does once it has incremented its word (R145). -/
def barAfter (c : Nat) (a : DWord) (n v : Nat) (k : Core) (s : State) : State :=
  if n ≤ 1 ∨ v % n = 0 then retire c k s else waitOn c 5 (some (leastMultiple v n)) a 0 0 k s

theorem run_bar {p : Nat} (hlegal : fD w = 0 ∧ fX w = 0) (halign : (getG (getCore c s) (fP w)).toNat % 8 = 0)
    (hlocal : isLocal (getG (getCore c s) (fP w)).toNat s = true) (ht : target (offOf (getG (getCore c s) (fP w)).toNat) s = .hbm p)
    (hpoison : linePoison (p / 128) s = false) (hheld : writeHeld (p / 128) s = false) :
    exec (.bar c w) s = .next (barAfter c (getG (getCore c s) (fP w)) (getG (getCore c s) (fQ w)).toNat ((oldWord p s + 1) % 2 ^ 64) (getCore c s)
      (atomicAt p (fun o => o + 1) s).2) := by
  refine (run_waitInsn h hwait (i := .bar c w) rfl (by simp [hlegal])).trans (congrArg _ ?_)
  dsimp only
  rw [depotWord_here halign hlocal ht hpoison, hwait]
  dsimp only
  rw [if_neg (by simp [hheld]), barAfter, show (atomicAt p (fun o => o + 1) s).1 = oldWord p s from rfl]
  by_cases hn : (getG (getCore c s) (fQ w)).toNat ≤ 1
  · rw [if_pos hn, if_pos (.inl hn)]
  · rw [if_neg hn]
    refine if_congr ?_ rfl rfl
    rw [ge_iff_le, leastMultiple_le_iff (by omega)]
    simp [hn]

end

/-- Settles O20: each wait retires where its condition holds and else records what it waits for; BAR's increment is one atomic operation. -/
theorem waitsEndOrHold : Obligations.WaitsEndOrHold := by
  intro c w s h hwait hmask k kind tile n a out
  have hno : ∀ sel, k.trapMask = true ∨ trappedTile c sel s = none := fun sel => hmask.imp_right fun hnone => trappedTile_none_of_all hnone sel
  refine ⟨fun hkind hseven htile hbits hx => ?_, fun hw => ?_, fun p hd halign hlocal ht hpoison => ⟨fun hbits hcond hheld => ?_, fun hx hheld => ?_⟩⟩
  · have hrun := run_waitInsn h hwait (i := .waitE c w) rfl (by simp [kindOk, kind, tile] at *; simp [*])
    rw [orTrap_of_none (hno _)] at hrun
    have hout : (k.out.any fun o => o.kind = kind && o.tile = tile && tagCovers n o.tag) = true ↔ ∃ o ∈ k.out, out o := by
      simp [List.any_eq_true, out, tagCovers, and_assoc]
    refine ⟨fun hnone => ?_, fun hsome => ?_⟩
    · rw [if_neg (mt hout.1 (by simpa using hnone))] at hrun
      exact retires_of_run hrun
    · rw [if_pos (hout.2 hsome)] at hrun
      exact nowWaits_of_run hwait hrun (quiesceWait_engine (by omega))
  · refine ⟨fun hnone => ?_, fun hsome => ?_, fun hnone => ?_, fun hsome => ?_⟩
    · have hrun := run_waitInsn h hwait (i := .waitAll c w) rfl (decide_eq_true hw)
      rw [orTrap_of_none (hno _), if_pos (List.isEmpty_iff.2 hnone)] at hrun
      exact retires_of_run hrun
    · have hrun := run_waitInsn h hwait (i := .waitAll c w) rfl (decide_eq_true hw)
      rw [orTrap_of_none (hno _), if_neg (mt List.isEmpty_iff.1 hsome)] at hrun
      exact nowWaits_of_run hwait hrun (iff_of_false Bool.false_ne_true id)
    · have hrun := run_waitInsn h hwait (i := .fenceRemote c w) rfl (decide_eq_true hw)
      rw [if_neg (by simp [hnone])] at hrun
      exact retires_of_run hrun
    · have hrun := run_waitInsn h hwait (i := .fenceRemote c w) rfl (decide_eq_true hw)
      rw [if_pos hsome] at hrun
      exact nowWaits_of_run hwait hrun (iff_of_false Bool.false_ne_true id)
  · have hrun := run_waitInsn h hwait (i := .waitsig c w) rfl (by simp [hd, hbits, hcond])
    dsimp only at hrun
    rw [depotWord_here halign hlocal ht hpoison, if_neg (by simp [hheld])] at hrun
    have hholds := sigHolds_iff (cond := bitsAt w.toNat 0 2) (Nat.mod_lt _ (by decide)) hcond (wordAt p s) (getG k (fQ w)).toNat
    refine ⟨fun hyes => ?_, fun hno => ?_⟩
    · rw [if_pos (hholds.2 hyes)] at hrun
      exact retires_of_run hrun
    · rw [if_neg (mt hholds.1 hno)] at hrun
      exact nowWaits_of_run hwait hrun (iff_of_true rfl trivial)
  · have hrun := run_bar h hwait ⟨hd, hx⟩ halign hlocal ht hpoison hheld
    have hroom := in_line_of_aligned (size := 8) (by simp) halign (mod_line_of_target ht)
    have hbytes : ∀ i, i < 8 → placeByte (p + i) (atomicAt p (fun o => o + 1) s).2 = (oldWord p s + 1) % 2 ^ (8 * 8) / 256 ^ i % 256 := fun i hi => by
      rw [placeByte_atomicAt _ s hroom hi, byte_mod_two_pow hi]
    have hstored : DepotTakes (homeOf p) (p / 128) s → StoredAt p 8 ((oldWord p s + 1) % 2 ^ (8 * 8)) s (atomicAt p (fun o => o + 1) s).2 :=
      fun htakes => storedAt_low (storedAt_atomicAt (fun o => o + 1) s htakes hroom).1
    have hblocks := sameBlocks_atomicAt p (fun o => o + 1) s
    by_cases hends : (getG k (fQ w)).toNat ≤ 1 ∨ (oldWord p s + 1) % 2 ^ 64 % (getG k (fQ w)).toNat = 0
    · rw [barAfter, if_pos hends] at hrun
      refine ⟨_, hrun, otherCoresKept_retireAt hblocks, fun i hi => (placeByte_retireAt _).trans (hbytes i hi), fun htakes => storedAt_retireAt (hstored htakes),
        ?_, fun _ => ?_, fun hnot => absurd hends hnot⟩
      · rw [retire, getCore_retireAt_same]
        exact wroteNone_wentOn ..
      · rw [retire, getCore_retireAt_same]
        exact wentOn_of_sameRest rfl ..
    · rw [barAfter, if_neg hends, waitOn_of_no_wait hwait] at hrun
      obtain ⟨u, o, heq⟩ := waitingCore_eq (beginsWait c 5 (some (leastMultiple ((oldWord p s + 1) % 2 ^ 64) (getG k (fQ w)).toNat)) (getG k (fP w)) 0 0
        (atomicAt p (fun o => o + 1) s).2) k (atomicAt p (fun o => o + 1) s).2
      rw [heq] at hrun
      refine ⟨_, hrun, fun j hj => ?_, fun i hi => (placeByte_setCore ..).trans (hbytes i hi), fun htakes => storedAt_setCore (hstored htakes) _ _, ?_,
        fun hyes => absurd hyes hends, fun _ => ?_⟩
      · rw [getCore_setCore, if_neg hj, hblocks.getCore_eq]
      · rw [getCore_setCore, if_pos rfl]
        exact ⟨fun _ => rfl, fun _ => rfl⟩
      · rw [getCore_setCore, if_pos rfl]
        exact ⟨rfl, rfl, _, rfl, rfl, rfl⟩

end Sys2Proof.Machine
end

section
/-! PROOFS. Loads: the value delivered, where a load finds its bytes, the return of a missed load's data, and the statements about loads (R136, R140, R231, R245,
R253). -/

namespace Sys2Proof.Machine

open Sys2Proof.Claims

/-! ### Delivering a value (R140) -/

theorem ofNat_extend (size : Nat) (sign : Bool) (v : Nat) : BitVec.ofNat 64 (extend size sign v) = loadedG size sign v := by
  cases sign with
  | false => exact (BitVec.ofInt_natCast ..).symm
  | true =>
    refine BitVec.eq_of_toNat_eq ?_
    rw [loadedG, if_pos rfl, extend, if_pos rfl, BitVec.toNat_ofInt, BitVec.toNat_ofNat, wrap]
    omega

/-- The core with the load's value in its register. -/
def loadedCore (lw : LoadWait) (v : Nat) (k : Core) : Core :=
  if lw.toH then setH lw.dreg (BitVec.ofNat 256 v) k else setG lw.dreg (loadedG lw.size lw.sign v) k

theorem loadDone_eq (c : Nat) (lw : LoadWait) (v : Nat) (k : Core) (s : State) :
    loadDone c lw.dreg lw.size lw.sign lw.toH v k s = retireAt c (k.pc + 4) (loadedCore lw v k) s := by
  unfold loadDone loadedCore
  rw [ofNat_extend]
  split
  · rfl
  · exact retire_setG ..

theorem loadedCore_sameRest (lw : LoadWait) (v : Nat) (k : Core) : { loadedCore lw v k with g := k.g, h := k.h } = k := by
  unfold loadedCore
  split
  · rfl
  · exact setG_sameRest ..

theorem wroteG_loadedCore {lw : LoadWait} (hG : lw.toH = false) (v : Nat) (k : Core) (pc : BitVec 48) (count : DWord) :
    WroteG lw.dreg (loadedG lw.size lw.sign v) k (wentOn pc (loadedCore lw v k) count) := by
  rw [loadedCore, if_neg (by simp [hG])]
  exact wroteG_setG ..

theorem wroteH_loadedCore {lw : LoadWait} (hH : lw.toH = true) (v : Nat) (k : Core) (pc : BitVec 48) (count : DWord) :
    WroteH lw.dreg (BitVec.ofNat 256 v) k (wentOn pc (loadedCore lw v k) count) := by
  rw [loadedCore, if_pos hH]
  exact wroteH_setH ..

/-! ### Where a load finds its bytes -/

/-- Each listed load is the class's operation with its size and extension. -/
theorem load_of_mem_loadForms {c : Fin 44} {w : BitVec 22} {ev : LoadEv} {f : Instr × Nat × Bool} (hf : f ∈ loadForms c w ev) (s : State) :
    ∃ op, exec f.1 s = .next (load op f.2.1 f.2.2 false c w ev s) := by
  simp only [loadForms, List.mem_cons, List.not_mem_nil, or_false] at hf
  rcases hf with rfl | rfl | rfl | rfl | rfl | rfl | rfl <;> exact ⟨_, rfl⟩

section
variable {c : Fin 44} {w : BitVec 22} {s : State} (h : Ready c s) {op size : Nat} {sign toH : Bool} (hlegal : toH = true → fD w < 16)
  (halign : (accessAddr c w s).toNat % size = 0) (hlocal : isLocal (accessAddr c w s).toNat s = true)
include h hlegal halign hlocal

/-- A load from the core's own tile SRAM. -/
theorem load_tile {p b : Nat} (ht : target (offOf (accessAddr c w s).toNat) s = .tile p b) (hc : c.val < 36) (hp : p / 8 = c.val)
    (hpoison : tileKey p b ∉ s.poison) : load op size sign toH c w ⟨false, false, false⟩ s =
      retireAt c ((getCore c s).pc + 4) (loadedCore ⟨fD w, size, sign, toH, accessAddr c w s, none, false⟩ (tileReadN p b size s) (getCore c s)) s := by
  rw [load, insn_of_ready h _ (by cases toH <;> simp [hlegal])]
  refine (if_neg (not_not_intro halign)).trans ((if_pos hlocal).trans ?_)
  rw [accessAddr] at ht
  rw [immG, ht]
  refine (if_pos ⟨hc, hp⟩).trans ((if_neg (by simp [hpoison])).trans ?_)
  exact loadDone_eq c ⟨fD w, size, sign, toH, accessAddr c w s, none, false⟩ ..

/-- A load from HBM looks in the Depot of the core's die. -/
theorem load_hbm {p : Nat} (ht : target (offOf (accessAddr c w s).toNat) s = .hbm p) : load op size sign toH c w ⟨false, false, false⟩ s =
    loadLine c ⟨fD w, size, sign, toH, accessAddr c w s, none, false⟩ (p / 128) p ⟨false, false, false⟩ (getCore c s) s := by
  rw [load, insn_of_ready h _ (by cases toH <;> simp [hlegal])]
  refine (if_neg (not_not_intro halign)).trans ((if_pos hlocal).trans ?_)
  rw [accessAddr] at ht
  rw [immG, ht]
  rfl

end

section
variable {c : Nat} {lw : LoadWait} {pl phys : Nat} {k : Core} {s : State}

/-- A hit: the bytes of the Depot's copy, and one more hit (R245). -/
theorem loadLine_hit {x : DepotLine} (hx : sFind s.depot pl = some x) (hpoison : x.poison = false) (hd : coreDie c pl ∈ x.holders) :
    loadLine c lw pl phys ⟨false, false, false⟩ k s =
      retireAt c (k.pc + 4) (loadedCore lw (bitsAt x.data.toNat (8 * (phys % 128)) (8 * lw.size)) k)
        (addPair (depBase (coreDie c pl)) R.DEP_HIT_LO_VALUE R.DEP_HIT_HI_VALUE 1 s) := by
  rw [loadLine, depotErrs_none, hx]
  dsimp only
  rw [if_pos (by simpa using hd), if_neg (by simp [hpoison])]
  exact loadDone_eq ..

/-- A miss: the load is in flight, and one more miss counts (R245). -/
theorem loadLine_miss (hno : ∀ x, sFind s.depot pl = some x → coreDie c pl ∉ x.holders) (hheld : sFind s.depot pl = none → readHeld pl s = false)
    (hline : pl < compKey 0) : loadLine c lw pl phys ⟨false, false, false⟩ k s =
      setCore c { k with load := some lw } (addPair (depBase (coreDie c pl)) R.DEP_MISS_LO_VALUE R.DEP_MISS_HI_VALUE 1 s) := by
  rw [loadLine, depotErrs_none]
  cases hx : sFind s.depot pl with
  | some x =>
    dsimp only
    rw [if_neg (by simpa using hno x hx)]
  | none =>
    dsimp only
    rw [if_neg (by omega), hheld hx]
    rfl

end

/-- The words of a Depot's counters decide no address. -/
theorem not_mapWord_dep {d : Nat} {lo hi : Fld} {off : Nat} (h : pairWords (depBase d) lo hi off) : ¬ mapWord off := by
  intro hmap
  have hat := mapWord_eq hmap
  have hbase := le_depBase d
  rcases h with rfl | rfl <;> omega

/-- Retiring writes no word of a Depot's counters. -/
theorem not_startWord_dep {d : Nat} {lo hi : Fld} {off : Nat} (h : pairWords (depBase d) lo hi off) : ¬ startWord off := by
  intro hstart
  have hat := startWord_eq hstart
  have hbase := le_depBase d
  rcases h with rfl | rfl <;> omega

section
variable {i : Instr} {c d : Nat} {lo hi : Fld} {k' : Core} {s : State}

/-- A core that retires while a counter of a Depot counts one. -/
theorem retires_counted (hhalves : HalvesOf lo hi) (hsame : { k' with g := (getCore c s).g, h := (getCore c s).h } = getCore c s) {pc : BitVec 48}
    (hrun : exec i s = .next (retireAt c pc k' (addPair (depBase d) lo hi 1 s))) :
    let t := retireAt c pc k' (addPair (depBase d) lo hi 1 s)
    Runs i s t ∧ OnlyCoreBut (pairWords (depBase d) lo hi) c s t ∧ CountedOne (depBase d) lo hi s t ∧ WentOn pc (getCore c s) (getCore c t) := by
  obtain ⟨m, -, hwords⟩ := retireAt_frame c pc k' (addPair (depBase d) lo hi 1 s)
  refine ⟨hrun, onlyCoreBut_retireAt (onlyWords_addPair ..) (fun off hoff => not_mapWord_dep hoff) (first_of_sameRest hsame) pc, ?_, ?_⟩
  · exact (getPair_of_words fun e off hoff => hwords e off fun ⟨hstart, _⟩ => not_startWord_dep hoff hstart).trans (countedOne_addPair hhalves _ s)
  · rw [getCore_retireAt_same]
    exact wentOn_of_sameRest hsame ..

end

theorem missed_of_run {i : Instr} {c d : Nat} {lw : LoadWait} {s : State} (hrun : exec i s =
    .next (setCore c { getCore c s with load := some lw } (addPair (depBase d) R.DEP_MISS_LO_VALUE R.DEP_MISS_HI_VALUE 1 s))) : Missed i c d lw s := by
  have honly := onlyWords_addPair (depBase d) R.DEP_MISS_LO_VALUE R.DEP_MISS_HI_VALUE 1 s
  have hbytes := honly.bytesKept fun off hoff => not_mapWord_dep hoff
  obtain ⟨m, hm, hwords⟩ := honly
  refine ⟨_, hrun, fun j hj => ?_, ?_, ?_, fun e off hoff => ?_, BytesKept.trans hbytes (bytesKept_setCore _ _ _), ?_⟩
  · rw [getCore_setCore, if_neg hj, hm]
    rfl
  · rw [getCore_setCore, if_pos rfl]
  · exact (getPair_of_words fun _ _ _ => csrGet_setCore ..).trans (countedOne_addPair (by decide) _ s)
  · rw [csrGet_setCore, hwords e off hoff]
  · rw [hm]
    rfl

/-- Settles O15: a load delivers from its own tile SRAM or from its die's Depot, and else is in flight. -/
theorem loadsDeliverTheirBytes : Obligations.LoadsDeliverTheirBytes := by
  intro c w s h k a ev hlocal
  refine ⟨fun p b ht hc hp hpoison => ⟨fun f hf halign => ?_, fun halign hlegal => ?_⟩,
    fun p x ht hx hpoison hd => ⟨fun f hf halign => ?_, fun halign hlegal => ?_⟩,
    fun p ht hno hheld hline => ⟨fun f hf halign => ?_, fun halign hlegal => ?_⟩⟩
  · obtain ⟨op, hrun⟩ := load_of_mem_loadForms hf s
    rw [load_tile (toH := false) h nofun halign hlocal ht hc hp hpoison] at hrun
    exact retiresG_of_run hrun
  · refine retiresH_of_run (Eq.trans (b := .next (load 11 32 false true c w ev s)) rfl ?_)
    rw [load_tile h (fun _ => hlegal) halign hlocal ht hc hp hpoison]
    rfl
  · obtain ⟨op, hrun⟩ := load_of_mem_loadForms hf s
    rw [load_hbm (toH := false) h nofun halign hlocal ht, loadLine_hit hx hpoison hd] at hrun
    obtain ⟨hruns, honly, hcounted, hwent⟩ := retires_counted (by decide) (loadedCore_sameRest ..) hrun
    refine ⟨_, hruns, honly, hcounted, hwent, ?_⟩
    rw [getCore_retireAt_same]
    exact wroteG_loadedCore rfl ..
  · have hrun : exec (.ldh c w ev) s = .next (load 11 32 false true c w ev s) := rfl
    rw [load_hbm h (fun _ => hlegal) halign hlocal ht, loadLine_hit hx hpoison hd] at hrun
    obtain ⟨hruns, honly, hcounted, hwent⟩ := retires_counted (by decide) (loadedCore_sameRest ..) hrun
    refine ⟨_, hruns, honly, hcounted, hwent, ?_⟩
    rw [getCore_retireAt_same]
    exact wroteH_loadedCore rfl ..
  · obtain ⟨op, hrun⟩ := load_of_mem_loadForms hf s
    rw [load_hbm (toH := false) h nofun halign hlocal ht, loadLine_miss hno hheld hline] at hrun
    exact missed_of_run hrun
  · have hrun : exec (.ldh c w ev) s = .next (load 11 32 false true c w ev s) := rfl
    rw [load_hbm h (fun _ => hlegal) halign hlocal ht, loadLine_miss hno hheld hline] at hrun
    exact missed_of_run hrun

/-! ### The return of a missed load's data -/

/-- A line that enters the Depot as it reads leaves every byte as it is. -/
theorem placeByte_depotRead (pl : Nat) {y : DepotLine} {s : State} (hy : y.data = BitVec.ofNat 1024 (lineNat pl s)) (x : Nat) :
    placeByte x { s with depot := sIns pl y s.depot } = placeByte x s := by
  by_cases hx : x / 128 = pl
  · have hfind : sFind (sIns pl y s.depot) (x / 128) = some y := by simp [hx]
    rw [placeByte_of_depot hfind, hy, bitsAt_toNat_ofNat _ (by omega), placeByte, hx]
  · exact placeByte_congr (by simp [hx]) rfl

/-- A line that no Depot holds, filled where the Depot has room. -/
theorem depotFill_of_takes {d : Fin 4} {pl : Nat} {s : State} (hnone : sFind s.depot pl = none) (htakes : DepotTakes d pl s) :
    depotFill d pl s = { s with depot := sIns pl ⟨BitVec.ofNat 1024 (lineNat pl s), false, linePoison pl s, d, [], false⟩ s.depot } := by
  have hmade : depotMade d pl s = s := depotMade_of_takes htakes fun x hx => absurd (hnone.symm.trans hx) (Option.some_ne_none x).symm
  rw [depotFill, hnone]
  dsimp only
  rw [depotPut_eq, hmade]

/-- The data of a load from HBM that missed, once no copy is open at the companion. -/
theorem loadReturn_hbm {c : Fin 44} {s : State} {lw : LoadWait} {p : Nat} (hload : (getCore c s).load = some lw) (hstopped : (getCore c s).st ≠ .stopped)
    (hfaulted : (getCore c s).st ≠ .faulted) (hlocal : isLocal lw.addr.toNat s = true) (ht : target (offOf lw.addr.toNat) s = .hbm p)
    (hheld : readHeld (p / 128) s = false) (hpoison : linePoison (p / 128) s = false) :
    loadReturn c s = retireAt c ((getCore c s).pc + 4)
      (loadedCore lw (bitsAt (lineNat (p / 128) s) (8 * (lw.addr.toNat % 128)) (8 * lw.size)) { getCore c s with load := none })
      (depotFill (coreDie c (p / 128)) (p / 128) s) := by
  rw [loadReturn, hload]
  dsimp only
  rw [if_neg (by simp [hstopped, hfaulted]), if_pos hlocal, ht]
  dsimp only
  rw [if_neg (by simp [hheld]), if_neg (by simp [hpoison])]
  exact loadDone_eq ..

/-- Settles O16: the line enters the Depot as it reads, and the register receives its bytes from the line. -/
theorem loadDataReturnCompletesTheLoad : Obligations.LoadDataReturnCompletesTheLoad := by
  intro c s lw p k hload hstopped hfaulted hlocal ht hnone hheld hpoison htakes _ v
  have hrun : exec (.loadDataReturn c) s = .next (loadReturn c s) := rfl
  rw [loadReturn_hbm hload hstopped hfaulted hlocal ht hheld hpoison, depotFill_of_takes hnone htakes, hpoison] at hrun
  have hsame := loadedCore_sameRest lw v { k with load := none }
  have hfirst : (loadedCore lw v { k with load := none }).first = k.first := first_of_sameRest (k := { k with load := none }) hsame
  refine ⟨_, hrun, otherCoresKept_retireAt ⟨rfl, rfl⟩, csrKeptBut_retireAt (fun _ _ _ => rfl) rfl hfirst, ?_, ?_, ?_, fun x => ?_, ?_, ?_⟩
  · rw [getCore_retireAt_same]
    exact wentOn_of_sameRest hsame ..
  · rw [getCore_retireAt_same]
    split
    next hH => exact wroteH_loadedCore hH v { k with load := none } ..
    next hG => exact wroteG_loadedCore (Bool.eq_false_of_not_eq_true hG) v { k with load := none } ..
  · rw [depot_retireAt]
    simp
  · rw [placeByte_retireAt]
    exact placeByte_depotRead _ rfl x
  all_goals
    obtain ⟨m, hm, -⟩ := retireAt_frame c (k.pc + 4) (loadedCore lw v { k with load := none })
      { s with depot := sIns (p / 128) ⟨BitVec.ofNat 1024 (lineNat (p / 128) s), false, false, coreDie c (p / 128), [], false⟩ s.depot }
    rw [hm]

end Sys2Proof.Machine
end

section
/-! PROOFS. The system class: what a quiesce point's bookkeeping keeps, which core a halt moves, and the statement about SYSRD, NOP, FENCE.LOCAL, TRET, HALT, RHINT
and QPT (R133, R136, R145, R153, R154, R155, R160, R349, R403, R429). -/

namespace Sys2Proof.Machine

open Sys2Proof.Claims

/-! ### What changes registers and the Logbook alone -/

/-- Only register words, the Logbook, the companion totals and the step's error flag changed. -/
def RestKept (s t : State) : Prop := ∃ c l k e, t = { s with csr := c, log := l, totals := k, stepErr := e }

theorem RestKept.refl (s : State) : RestKept s s := ⟨s.csr, s.log, s.totals, s.stepErr, rfl⟩

theorem RestKept.trans {s t u : State} (h : RestKept s t) (h' : RestKept t u) : RestKept s u := by
  obtain ⟨c, l, k, e, rfl⟩ := h
  obtain ⟨c', l', k', e', rfl⟩ := h'
  exact ⟨c', l', k', e', rfl⟩

theorem restKept_of_onlyRegs {touched : Nat → Prop} {s t : State} (h : OnlyRegs touched s t) : RestKept s t := by
  obtain ⟨-, hrest⟩ := h
  have hback := congrArg (fun x : State => { x with csr := t.csr, log := t.log, totals := t.totals, stepErr := t.stepErr }) hrest
  exact ⟨_, _, _, _, hback⟩

theorem RestKept.ite {c : Prop} [Decidable c] {s t u : State} (ht : RestKept s t) (hu : RestKept s u) : RestKept s (if c then t else u) := by
  split <;> assumption

theorem restKept_raise (src code sev arg0 arg1 : Nat) (s : State) : RestKept s (raise src code sev arg0 arg1 s) :=
  restKept_of_onlyRegs (onlyLogged_raise ..)

theorem restKept_bumpF (base : Nat) (f : Fld) (n : Nat) (s : State) : RestKept s (bumpF base f n s) :=
  ⟨(bumpF base f n s).csr, s.log, (bumpF base f n s).totals, s.stepErr, rfl⟩

theorem restKept_setF (base : Nat) (f : Fld) (v : Nat) (s : State) : RestKept s (setF base f v s) :=
  ⟨(setF base f v s).csr, s.log, s.totals, s.stepErr, rfl⟩

theorem restKept_setPair (base : Nat) (lo hi : Fld) (v : Nat) (s : State) : RestKept s (setPair base lo hi v s) :=
  (restKept_setF ..).trans (restKept_setF ..)

theorem RestKept.sameBlocks {s t : State} (h : RestKept s t) : SameBlocks s t := by
  obtain ⟨c, l, k, e, rfl⟩ := h
  exact ⟨rfl, rfl⟩

/-! ### Quiesce points (R154) -/

/-- The report of an interval above the limit. -/
def qpReported (c iv : Nat) (s : State) : State :=
  if effF (seqBase c) R.SEQ_CTRL_QP_CHECK R.SEQ_CTRL_LEVEL s = 1 ∧ iv > effF (seqBase c) R.SEQ_QP_LIMIT_LIMIT_NS R.SEQ_CTRL_LEVEL s then
    raise (srcCore c) 0x11 1 (coreId c + min iv (2 ^ 32 - 1) * 2 ^ 8) 0
      (bumpF (seqBase c) R.SEQ_STATUS_QP_OVER_COUNT 1 (setF (seqBase c) R.SEQ_STATUS_QP_OVER 1 s))
  else s

/-- The longest interval, kept up. -/
def qpLongest (c iv : Nat) (s : State) : State :=
  setF (seqBase c) R.SEQ_QP_MAX_MAX_NS (max (getF (seqBase c) R.SEQ_QP_MAX_MAX_NS (qpReported c iv s)) (min iv (2 ^ 32 - 1))) (qpReported c iv s)

theorem restKept_qpLongest (c iv : Nat) (s : State) : RestKept s (qpLongest c iv s) := by
  have hreport : RestKept s (qpReported c iv s) :=
    .ite ((restKept_setF ..).trans ((restKept_bumpF ..).trans (restKept_raise ..))) (.refl s)
  exact hreport.trans (restKept_setF ..)

theorem qpInterval_eq (c : Nat) (k : Core) (s : State) : qpInterval c k s =
    setPair (seqBase c) R.SEQ_QP_LAST_LO_VALUE R.SEQ_QP_LAST_HI_VALUE (qpLongest c (s.count - k.qpLast.getD s.count).toNat s).count.toNat
      (qpLongest c (s.count - k.qpLast.getD s.count).toNat s) := rfl

theorem restKept_qpInterval (c : Nat) (k : Core) (s : State) : RestKept s (qpInterval c k s) := by
  rw [qpInterval_eq]
  exact (restKept_qpLongest ..).trans (restKept_setPair ..)

theorem qpLast_qpInterval (c : Nat) (k : Core) (s : State) :
    getPair (seqBase c) R.SEQ_QP_LAST_LO_VALUE R.SEQ_QP_LAST_HI_VALUE (qpInterval c k s) = s.count.toNat := by
  obtain ⟨_, _, _, _, hkept⟩ := restKept_qpLongest c (s.count - k.qpLast.getD s.count).toNat s
  rw [qpInterval_eq, getPair_setPair (by decide), Nat.mod_eq_of_lt (BitVec.isLt _), hkept]

/-! ### What a halt moves (R155, R160, R429) -/

/-- Every core is in the state and at the pc it was. -/
def RunKept (s t : State) : Prop := ∀ j, (getCore j t).st = (getCore j s).st ∧ (getCore j t).pc = (getCore j s).pc

theorem RunKept.trans {s t u : State} (h : RunKept s t) (h' : RunKept t u) : RunKept s u := fun j =>
  ⟨(h' j).1.trans (h j).1, (h' j).2.trans (h j).2⟩

theorem runKept_of_sameBlocks {s t : State} (h : SameBlocks s t) : RunKept s t := fun j => by
  rw [h.getCore_eq]
  exact ⟨rfl, rfl⟩

theorem runKept_setCore {c : Nat} {k : Core} {s : State} (hst : k.st = (getCore c s).st) (hpc : k.pc = (getCore c s).pc) : RunKept s (setCore c k s) := by
  intro j
  rw [getCore_setCore]
  split
  next hj => exact hj ▸ ⟨hst, hpc⟩
  next => exact ⟨rfl, rfl⟩

theorem runKept_foldl {α : Type} {f : State → α → State} (hf : ∀ s a, RunKept s (f s a)) : ∀ (l : List α) (s : State), RunKept s (l.foldl f s)
  | [], _ => fun _ => ⟨rfl, rfl⟩
  | a :: l, s => (hf s a).trans (runKept_foldl hf l (f s a))

/-- A start that counts a halted core changes its issuer's list of issued instructions at most. -/
theorem runKept_startHalted (c : Nat) (s : State) : RunKept s (startHalted c s) := by
  have hclear : RunKept s { s with starts := [] } := fun _ => ⟨rfl, rfl⟩
  refine hclear.trans (runKept_foldl (fun t g => ?_) _ _)
  dsimp only
  split
  · exact runKept_setCore rfl rfl
  · exact fun _ => ⟨rfl, rfl⟩

/-- A map over the values of a store that keeps the default. -/
theorem sGet_map {α : Type} {f : α → α} {d : α} (hd : f d = d) (m : Store α) (k : Nat) : sGet d (m.map fun e => (e.1, f e.2)) k = f (sGet d m k) := by
  induction m with
  | nil => exact hd.symm
  | cons e m ih =>
    rw [List.map_cons, sGet, sGet, ih]
    split <;> rfl

theorem runKept_flipClocks (s : State) : RunKept s (flipClocks s) := by
  intro j
  have hcore : getCore j (flipClocks s) = { getCore j s with
      wait := (getCore j s).wait.map fun r => { r with since := s.count - r.since }
      heldWait := (getCore j s).heldWait.map fun r => { r with since := s.count - r.since } } :=
    sGet_map (f := fun k : Core => { k with
      wait := k.wait.map fun r => { r with since := s.count - r.since }
      heldWait := k.heldWait.map fun r => { r with since := s.count - r.since } }) rfl s.cores j
  rw [hcore]
  exact ⟨rfl, rfl⟩

theorem runKept_frozenCheck (s : State) : RunKept s (frozenCheck s) := by
  have hfrozen : RunKept s (setPkg .frozen (flipClocks s)) := (runKept_flipClocks s).trans (runKept_of_sameBlocks (sameBlocks_setPkg ..))
  unfold frozenCheck
  split
  · dsimp only
    split
    · exact hfrozen.trans fun _ => ⟨rfl, rfl⟩
    · exact hfrozen
  · exact fun _ => ⟨rfl, rfl⟩

/-! ### The statement -/

section
variable {c : Fin 44} {w : BitVec 22} {s : State} (h : Ready c s)
include h

theorem retiresG_sysrd (hP : fP w = 0) {v : DWord} {sel : Nat} (hsel : bitsAt w.toNat 0 12 = sel) (hlt : sel < 4)
    (hv : BitVec.ofNat 64 (if sel = 0 then coreId c else if sel = 1 then pkgNum s else if sel = 2 then s.count.toNat else (getCore c s).tag.toNat) = v) :
    RetiresG (.sysrd c w) c (fD w) v ((getCore c s).pc + 4) s := by
  refine retiresG_of_run (Eq.trans (b := .next (sysrd c w s)) rfl (congrArg _ ?_))
  rw [sysrd, insn_of_ready h _ (by simp [hP, hsel, hlt])]
  dsimp only
  rw [hsel, hv, retire_setG]

/-- The core after TRET: back at the trapped instruction, delivery unmasked (R153). -/
def tretCore (k : Core) : Core := { k with trapMask := false, heldWait := none }

end

/-! ### HALT (R160) -/

/-- The core after HALT, before its checks. -/
def haltedCore (c : Nat) (s : State) : State :=
  setCore c { getCore c (retire c (getCore c s) s) with st := .idle } (retire c (getCore c s) s)

theorem run_halt {c : Fin 44} {s : State} (h : Ready c s) :
    exec (.halt c 0) s = .next (frozenCheck (jobEnd (startHalted c (haltedCore c s)))) := by
  refine Eq.trans (b := .next (halt c 0 s)) rfl (congrArg _ ?_)
  rw [halt, insn_of_ready h _ (decide_eq_true rfl)]
  rfl

/-- What the checks after a halt find changes no core's state and no pc. -/
theorem stAndPc_halted (c : Nat) (s : State) :
    let t := frozenCheck (jobEnd (startHalted c (haltedCore c s)))
    (getCore c t).st = .idle ∧ (getCore c t).pc = (getCore c s).pc + 4 ∧ ∀ j, j ≠ c → (getCore j t).st = (getCore j s).st := by
  intro t
  have hkept : RunKept (haltedCore c s) t :=
    (runKept_startHalted c _).trans ((runKept_of_sameBlocks (sameBlocks_jobEnd _)).trans (runKept_frozenCheck _))
  have hcore : ∀ j, getCore j (haltedCore c s) =
      if j = c then { wentOn ((getCore c s).pc + 4) (getCore c s) s.count with st := .idle } else getCore j s := fun j => by
    rw [haltedCore, getCore_setCore, retire, getCore_retireAt_same, getCore_retireAt]
    split <;> rfl
  obtain ⟨hst, hpc⟩ := hkept c
  rw [hst, hpc, hcore, if_pos rfl]
  refine ⟨rfl, rfl, fun j hj => ?_⟩
  rw [(hkept j).1, hcore, if_neg hj]

/-! ### QPT and RHINT (R154, R155, R403) -/

/-- The core after a quiesce point. -/
def quiesced (k : Core) (s : State) : Core :=
  if freezeDue s && k.parkFrom.isNone then { k with qpCount := k.qpCount + 1, qpLast := some s.count, parkFrom := some s.count, held := some .running }
  else { k with qpCount := k.qpCount + 1, qpLast := some s.count }

theorem run_qpt {c : Fin 44} {s : State} (h : Ready c s) (hwait : (getCore c s).wait = none)
    (hmask : (getCore c s).trapMask = true ∨ trappedTile c (fun _ => true) s = none) :
    exec (.qpt c 0) s = .next (retireAt c ((getCore c s).pc + 4) (quiesced (getCore c s) s) (qpInterval c (getCore c s) s)) := by
  refine (run_waitInsn h hwait (i := .qpt c 0) rfl (decide_eq_true rfl)).trans (congrArg _ ?_)
  obtain ⟨_, _, _, _, hkept⟩ := restKept_qpInterval c (getCore c s) s
  have hcount : (qpInterval c (getCore c s) s).count = s.count := by rw [hkept]
  rw [orTrap_of_none hmask]
  dsimp only
  rw [hcount, retire, quiesced]
  split <;> rfl

section
variable (k : Core) (pc : BitVec 48) (s : State)

theorem qpCount_quiesced (count : DWord) : (wentOn pc (quiesced k s) count).qpCount = k.qpCount + 1 := by
  unfold quiesced
  split <;> rfl

theorem qpLast_quiesced {count : DWord} (hcount : count = s.count) : (wentOn pc (quiesced k s) count).qpLast = some s.count := by
  subst hcount
  unfold quiesced
  split
  all_goals
    unfold wentOn
    dsimp only
    split <;> rfl

theorem parkFrom_quiesced (count : DWord) :
    (wentOn pc (quiesced k s) count).parkFrom = if freezeDue s = true ∧ k.parkFrom = none then some s.count else k.parkFrom := by
  rw [quiesced]
  by_cases hpark : freezeDue s = true ∧ k.parkFrom = none
  · rw [if_pos (by simp [hpark]), if_pos hpark]
    rfl
  · rw [if_neg (by simpa using hpark), if_neg hpark]
    rfl

theorem wroteNone_quiesced (count : DWord) : WroteNone k (wentOn pc (quiesced k s) count) := by
  unfold quiesced
  split
  · exact ⟨fun _ => rfl, fun _ => rfl⟩
  · exact ⟨fun _ => rfl, fun _ => rfl⟩

end

/-- A hint at least 20 us ahead, apart from the pending ones, with room for it. -/
theorem rampHint_adds {rc : DWord} {s : State} (hahead : s.count.toNat + 20000 ≤ rc.toNat) (hroom : s.ramps.length < 8)
    (hapart : ∀ x ∈ s.ramps, 1000 < (x.toNat : Int) - rc.toNat ∨ 1000 < (rc.toNat : Int) - x.toNat) :
    rampHint rc s = { s with ramps := s.ramps ++ [rc] } := by
  have hnear : ¬ (s.ramps.any fun x => decide ((x.toNat : Int) - rc.toNat ≤ 1000 ∧ (rc.toNat : Int) - x.toNat ≤ 1000)) = true := by
    intro hany
    obtain ⟨x, hx, hclose⟩ := List.any_eq_true.1 hany
    have hfar := hapart x hx
    have hboth := of_decide_eq_true hclose
    omega
  unfold rampHint
  dsimp only
  rw [if_neg (by omega), if_neg hnear, if_neg (by omega), if_neg (by omega)]

/-- The state with one more pending ramp. -/
def withRamp (rc : DWord) (s : State) : State := { s with ramps := s.ramps ++ [rc] }

theorem run_rhint {c : Fin 44} {w : BitVec 22} {s : State} (h : Ready c s) (hwait : (getCore c s).wait = none) (hlegal : fD w = 0 ∧ fQ w = 0 ∧ fX w = 0)
    (hahead : s.count.toNat + 20000 ≤ (getG (getCore c s) (fP w)).toNat) (hroom : s.ramps.length < 8)
    (hapart : ∀ x ∈ s.ramps, 1000 < (x.toNat : Int) - (getG (getCore c s) (fP w)).toNat ∨ 1000 < ((getG (getCore c s) (fP w)).toNat : Int) - x.toNat) :
    exec (.rhint c w) s = .next (retireAt c ((getCore c s).pc + 4) (getCore c s) (withRamp (getG (getCore c s) (fP w)) s)) := by
  refine (run_waitInsn h hwait (i := .rhint c w) rfl (by simp [hlegal])).trans (congrArg _ ?_)
  rw [rampHint_adds hahead hroom hapart]
  rfl

/-- A core that goes on with its hint pending. -/
theorem hinted (c : Nat) (rc : DWord) (s : State) :
    let k := getCore c s
    let t := retireAt c (k.pc + 4) k (withRamp rc s)
    t.ramps = s.ramps ++ [rc] ∧ OtherCoresKept c s t ∧ WentOn (k.pc + 4) k (getCore c t) ∧ WroteNone k (getCore c t) ∧
      CsrKeptBut (fun _ => False) c s t ∧ BytesKept s t := by
  intro k t
  obtain ⟨m, hm, -⟩ := retireAt_frame c (k.pc + 4) k (withRamp rc s)
  have hramps : t.ramps = s.ramps ++ [rc] := (congrArg State.ramps hm :)
  have honly : OnlyCore c (withRamp rc s) t := onlyCore_retireAt rfl _
  obtain ⟨-, -, hbytes, -⟩ := honly
  have hramp : BytesKept s (withRamp rc s) := bytesKept_of_mapWords (fun _ _ _ => rfl) rfl rfl rfl rfl
  have hcore : getCore c t = wentOn (k.pc + 4) k (withRamp rc s).count := getCore_retireAt_same ..
  refine ⟨hramps, otherCoresKept_retireAt ⟨rfl, rfl⟩, ?_, ?_, csrKeptBut_retireAt (fun _ _ _ => rfl) rfl rfl, BytesKept.trans hramp hbytes⟩
  · rw [hcore]
    exact wentOn_of_sameRest rfl ..
  · rw [hcore]
    exact wroteNone_wentOn ..

theorem not_startWord_seq {c x : Nat} (hc : c < 44) (hx : x < 0x1000) : ¬ startWord (seqBase c + x) := by
  intro hstart
  have hat := startWord_eq hstart
  have hrange := seqBase_range hc hx
  omega

/-! ### TRET (R153) -/

/-- A core after TRET is at the trapped instruction with its registers, in `st` and with wait `o`. -/
def Returned (c : Nat) (st : CoreSt) (o : Option WaitRec) (s t : State) : Prop :=
  OtherCoresKept c s t ∧ (getCore c t).trapMask = false ∧ (getCore c t).st = st ∧ (getCore c t).wait = o ∧
    (getCore c t).pc = BitVec.ofNat 48 (getPair (seqBase c) R.SEQ_TRAP_PC_LO_VALUE R.SEQ_TRAP_PC_HI_VALUE s) ∧
    getF (seqBase c) R.SEQ_TCAUSE_VALID t = 0 ∧ WroteNone (getCore c s) (getCore c t) ∧ BytesKept s t ∧ { t with cores := s.cores, csr := s.csr } = s

/-- The state in which the core has left the handler. -/
def leftHandler (c : Nat) (s : State) : State :=
  retireAt c (BitVec.ofNat 48 (getPair (seqBase c) R.SEQ_TRAP_PC_LO_VALUE R.SEQ_TRAP_PC_HI_VALUE s)) (tretCore (getCore c s))
    (setF (seqBase c) R.SEQ_TCAUSE_VALID 0 s)

theorem returned_leftHandler {c : Nat} (hc : c < 44) (s : State) : Returned c .running none s (leftHandler c s) := by
  have hword : ∀ off, off = seqBase c + R.SEQ_TCAUSE_VALID.off → seqWord c off := fun off hoff => ⟨_, by decide, hoff⟩
  have honly : OnlyCoreBut (fun off => off = seqBase c + R.SEQ_TCAUSE_VALID.off) c s (leftHandler c s) :=
    onlyCoreBut_retireAt (k := tretCore (getCore c s)) (onlyWords_setF ..) (fun off hoff => not_mapWord_of_seqWord hc (hword off hoff)) rfl _
  obtain ⟨hothers, -, hbytes, hframe⟩ := honly
  have hcore : getCore c (leftHandler c s) = wentOn (BitVec.ofNat 48 (getPair (seqBase c) R.SEQ_TRAP_PC_LO_VALUE R.SEQ_TRAP_PC_HI_VALUE s))
      (tretCore (getCore c s)) (setF (seqBase c) R.SEQ_TCAUSE_VALID 0 s).count := by
    rw [leftHandler, getCore_retireAt_same]
  refine ⟨hothers, ?_, ?_, ?_, ?_, ?_, ?_, hbytes, hframe⟩
  · rw [hcore]
    rfl
  · rw [hcore]
    rfl
  · rw [hcore]
    rfl
  · rw [hcore]
    rfl
  · obtain ⟨m, -, hwords⟩ := retireAt_frame c (BitVec.ofNat 48 (getPair (seqBase c) R.SEQ_TRAP_PC_LO_VALUE R.SEQ_TRAP_PC_HI_VALUE s))
      (tretCore (getCore c s)) (setF (seqBase c) R.SEQ_TCAUSE_VALID 0 s)
    refine (getF_of_word (hwords _ _ fun ⟨hstart, _⟩ => ?_)).trans (getF_setF _ _ _ _ (by decide))
    exact not_startWord_seq hc (by decide) hstart
  · rw [hcore]
    exact ⟨fun _ => rfl, fun _ => rfl⟩

/-- The wait that the trap interrupted goes on. -/
theorem returned_waiting {c : Nat} {st : CoreSt} {o : Option WaitRec} {s t : State} (h : Returned c st o s t) (r : WaitRec) :
    Returned c .waiting (some r) s (setCore c { getCore c t with st := .waiting, wait := some r } t) := by
  obtain ⟨hothers, hmask, -, -, hpc, hvalid, hwrote, hbytes, hframe⟩ := h
  have hcore : getCore c (setCore c { getCore c t with st := .waiting, wait := some r } t) = { getCore c t with st := .waiting, wait := some r } := by
    rw [getCore_setCore, if_pos rfl]
  refine ⟨fun j hj => ?_, ?_, ?_, ?_, ?_, hvalid, ?_, BytesKept.trans hbytes (bytesKept_setCore _ _ _), hframe⟩
  · rw [getCore_setCore, if_neg hj]
    exact hothers j hj
  all_goals rw [hcore]
  · exact hmask
  · exact hpc
  · exact hwrote

/-- TRET leaves the handler, and goes on with the wait that the trap interrupted. -/
theorem run_tret {c : Fin 44} {s : State} (h : Ready c s) : exec (.tret c 0) s = .next
    (match (getCore c s).heldWait with
     | some r => setCore c { getCore c (leftHandler c s) with st := .waiting, wait := some r } (leftHandler c s)
     | none => leftHandler c s) := by
  refine Eq.trans (b := .next (tret c 0 s)) rfl (congrArg _ ?_)
  rw [tret, insn_of_ready h _ (decide_eq_true rfl)]
  rfl

/-- Settles O19: SYSRD reads its four words; TRET puts back the interrupted wait; HALT's checks keep every core where it is; RHINT and QPT change their records. -/
theorem systemClassEffects : Obligations.SystemClassEffects := by
  intro c w s h hwait k b
  refine ⟨fun hP => ⟨fun hsel => ?_, fun hsel => ?_, fun hsel => ?_, fun hsel => ?_⟩, fun hw => ⟨?_, ?_, ?_, ?_, fun hmask => ?_⟩,
    fun hd hq hx hahead hroom hapart => ?_⟩
  · exact retiresG_sysrd h hP hsel (by decide) rfl
  · exact retiresG_sysrd h hP hsel (by decide) rfl
  · exact retiresG_sysrd h hP hsel (by decide) (BitVec.ofNat_toNat ..)
  · exact retiresG_sysrd h hP hsel (by decide) (BitVec.ofNat_toNat ..)
  · subst hw
    refine retires_of_run (Eq.trans (b := .next (sysNop c 0 s)) rfl (congrArg _ ?_))
    exact insn_of_ready h _ (decide_eq_true rfl) _
  · subst hw
    refine retires_of_run (Eq.trans (b := .next (fenceLocal c 0 s)) rfl (congrArg _ ?_))
    exact (waitInsn_of_no_wait hwait ..).trans (insn_of_ready h _ (decide_eq_true rfl) _)
  · subst hw
    have hleft := returned_leftHandler c.isLt s
    have hrun := run_tret h
    cases hheld : (getCore c s).heldWait with
    | none =>
      rw [hheld] at hrun
      obtain ⟨hothers, hmask, hst, hwt, hrest⟩ := hleft
      exact ⟨_, hrun, hothers, hmask, fun _ => ⟨hst, hwt⟩, nofun, hrest⟩
    | some r =>
      rw [hheld] at hrun
      obtain ⟨hothers, hmask, hst, hwt, hrest⟩ := returned_waiting hleft r
      exact ⟨_, hrun, hothers, hmask, nofun, fun x hx => Option.some.inj hx ▸ ⟨hst, hwt⟩, hrest⟩
  · subst hw
    exact ⟨_, run_halt h, stAndPc_halted c s⟩
  · subst hw
    obtain ⟨_, _, _, _, hkept⟩ := restKept_qpInterval c k s
    refine ⟨_, run_qpt h hwait hmask, otherCoresKept_retireAt (restKept_qpInterval c k s).sameBlocks, ?_, ?_, ?_, ?_, ?_, ?_, ?_⟩
    · rw [getCore_retireAt_same]
      rfl
    · rw [getCore_retireAt_same]
      exact qpCount_quiesced ..
    · rw [getCore_retireAt_same]
      exact qpLast_quiesced _ _ _ (by rw [hkept])
    · obtain ⟨m, -, hwords⟩ := retireAt_frame c (k.pc + 4) (quiesced k s) (qpInterval c k s)
      refine (getPair_of_words fun e off hoff => hwords e off fun ⟨hstart, _⟩ => ?_).trans (qpLast_qpInterval c k s)
      rcases hoff with rfl | rfl
      · exact not_startWord_seq c.isLt (by decide) hstart
      · exact not_startWord_seq c.isLt (by decide) hstart
    · rw [getCore_retireAt_same]
      exact parkFrom_quiesced ..
    · rw [getCore_retireAt_same]
      exact wroteNone_quiesced ..
    · obtain ⟨m, hm, -⟩ := retireAt_frame c (k.pc + 4) (quiesced k s) (qpInterval c k s)
      rw [hm, hkept]
      exact ⟨rfl, rfl, rfl⟩
  · exact ⟨_, run_rhint h hwait ⟨hd, hq, hx⟩ hahead hroom hapart, hinted c (getG k (fP w)) s⟩

end Sys2Proof.Machine
end

section
/-! PROOFS. What sending a message keeps of the cores, of the package's state and of its launch (R158, R429). -/

namespace Sys2Proof.Machine

open Sys2Proof.Claims

/-! ### What sending a message keeps (R267, R268, R286, R287) -/

/-- The cores, the package's state and the launch are as before. -/
structure LaunchKept (s t : State) : Prop where
  cores : t.cores = s.cores
  pkg : t.pkg = s.pkg
  launch : t.launch = s.launch

theorem LaunchKept.refl (s : State) : LaunchKept s s := ⟨rfl, rfl, rfl⟩

theorem LaunchKept.trans {s t u : State} (h : LaunchKept s t) (h' : LaunchKept t u) : LaunchKept s u :=
  ⟨h'.cores.trans h.cores, h'.pkg.trans h.pkg, h'.launch.trans h.launch⟩

theorem LaunchKept.ite {c : Prop} [Decidable c] {s t u : State} (ht : LaunchKept s t) (hu : LaunchKept s u) : LaunchKept s (if c then t else u) := by
  split <;> assumption

theorem LaunchKept.foldl {α : Type} {f : State → α → State} (hf : ∀ s a, LaunchKept s (f s a)) :
    ∀ (l : List α) (s : State), LaunchKept s (l.foldl f s)
  | [], s => .refl s
  | a :: l, s => (hf s a).trans (LaunchKept.foldl hf l (f s a))

theorem RestKept.launchKept {s t : State} (h : RestKept s t) : LaunchKept s t := by
  obtain ⟨_, _, _, _, rfl⟩ := h
  exact ⟨rfl, rfl, rfl⟩

theorem restKept_addPair (base : Nat) (lo hi : Fld) (n : Nat) (s : State) : RestKept s (addPair base lo hi n s) := restKept_setPair ..

theorem launchKept_linkPut (p : Nat) (b : LinkMsg) (s : State) : LaunchKept s (linkPut p b s) := .ite ⟨rfl, rfl, rfl⟩ ⟨rfl, rfl, rfl⟩

theorem launchKept_portSend (p : Nat) (m : Msg) (s : State) : LaunchKept s (portSend p m s) :=
  (restKept_addPair ..).launchKept.trans (launchKept_linkPut ..)

theorem launchKept_redUncertain (fd src : Nat) (s : State) : LaunchKept s (redUncertain fd src s) :=
  ((restKept_setF ..).trans (restKept_raise ..)).launchKept

/-- The reducing writes of lost frames are reported. -/
theorem launchKept_reportLost (fd : Nat) (l : List Msg) (s : State) :
    LaunchKept s (l.foldl (fun s m => if isReducing m then redUncertain fd (srcFab fd) s else s) s) :=
  .foldl (fun t _ => .ite (launchKept_redUncertain fd (srcFab fd) t) (.refl t)) l s

theorem launchKept_routeUnreachable (fd k : Nat) (p : RoutePeer) (s : State) : LaunchKept s (routeUnreachable fd k p s) := by
  have hdel : LaunchKept s { s with peers := sDel k s.peers } := ⟨rfl, rfl, rfl⟩
  exact hdel.trans (launchKept_reportLost ..)

theorem launchKept_peerRoom (fd k : Nat) (s : State) : LaunchKept s (peerRoom fd k s) := by
  unfold peerRoom
  refine .ite (.refl s) ?_
  split
  · exact ⟨rfl, rfl, rfl⟩
  · split
    · exact launchKept_routeUnreachable ..
    · exact .refl s

theorem launchKept_emit (o : OutMsg) (s : State) : LaunchKept s (emit o s) := ⟨rfl, rfl, rfl⟩

theorem launchKept_routeOut (r : Nat) (f : RouteFrame) (s : State) : LaunchKept s (routeOut r f s) :=
  .ite ((restKept_addPair ..).launchKept.trans (launchKept_emit ..)) (.refl s)

theorem launchKept_routeEmit (fd k dst : Nat) (ms : List Msg) (s : State) : LaunchKept s (routeEmit fd k dst ms s) := by
  unfold routeEmit
  split
  · exact .refl s
  next m _ =>
    have hpeer : ∀ x, LaunchKept s (setPeer k x s) := fun _ => ⟨rfl, rfl, rfl⟩
    exact (hpeer _).trans (launchKept_routeOut ..)

theorem launchKept_routeSend (fd : Nat) (m : Msg) (s : State) : LaunchKept s (routeSend fd m s) :=
  (launchKept_peerRoom ..).trans (.ite ⟨rfl, rfl, rfl⟩ (launchKept_routeEmit ..))

theorem launchKept_sendMsg (fd : Nat) (m : Msg) (s : State) : LaunchKept s (sendMsg fd m s) := by
  have hcount := (restKept_addPair (fabBase fd) R.FAB_TX_BYTES_LO_VALUE R.FAB_TX_BYTES_HI_VALUE (msgBytes m) s).launchKept
  unfold sendMsg
  refine hcount.trans (.ite ?_ (launchKept_routeSend ..))
  split
  · exact launchKept_portSend ..
  · exact (restKept_bumpF ..).launchKept

theorem launchKept_sendReq (isRead lat : Bool) (dst line n : Nat) (data : List Slot) (pmask : Nat) (owner : Owner) (reducing : Bool) (s : State) :
    LaunchKept s (sendReq isRead lat dst line n data pmask owner reducing s) := by
  have hfab : ∀ f x, LaunchKept s (setFab f x s) := fun _ _ => ⟨rfl, rfl, rfl⟩
  exact .ite ((hfab _ _).trans (launchKept_sendMsg ..)) (hfab _ _)

/-- A drain that goes on sends at most. -/
theorem launchKept_pumpWrites (s : State) : LaunchKept s (pumpWrites s) := by
  have hchoose : LaunchKept s (drainChoose s) := by
    unfold drainChoose
    split
    · exact .ite ⟨rfl, rfl, rfl⟩ (.refl s)
    · exact .refl s
  unfold pumpWrites
  refine hchoose.trans ?_
  dsimp only
  split
  · exact .refl _
  next d _ =>
    have hdrain : ∀ x, LaunchKept (drainChoose s) { drainChoose s with ckp := x } := fun _ => ⟨rfl, rfl, rfl⟩
    exact .ite (.refl _) ((hdrain _).trans (launchKept_sendReq ..))

end Sys2Proof.Machine
end

section
/-! PROOFS. What moves a core from outside: parking and the package's freeze, the starts at their count and the stop after a fault (R152, R154, R155, R158, R160,
R163, R319). -/

namespace Sys2Proof.Machine

open Sys2Proof.Claims

/-! ### Parking and the freeze (R155) -/

/-- With a core that is neither parked nor idle the package does not freeze. -/
theorem frozenCheck_of_unparked {s : State} (h : ∃ j, j < 44 ∧ countsParked j s = false) : frozenCheck s = s := by
  obtain ⟨j, hj, hno⟩ := h
  refine if_neg fun ⟨_, _, hall⟩ => ?_
  have hparked := List.all_eq_true.1 hall j (List.mem_range.2 hj)
  rw [hno] at hparked
  exact Bool.false_ne_true hparked

/-- A change of the package's state raises its record and leaves cores and launch alone. -/
theorem launchKept_setPkg (p : PkgSt) (s : State) : (setPkg p s).cores = s.cores ∧ (setPkg p s).pkg = p ∧ (setPkg p s).launch = s.launch := by
  obtain ⟨_, _, _, _, hset⟩ := restKept_raise 0 0x05 0 (stCode p + 16 * stCode s.pkg + 256 * (if p = .faulted then s.cause else 0)) 0
    { s with pkg := p, prev := s.pkg }
  have hrun : setPkg p s = _ := hset
  rw [hrun]
  exact ⟨rfl, rfl, rfl⟩

theorem pkg_frozenCheck {s : State} (hpkg : s.pkg = .running) (hdue : freezeDue s = true) (hall : ∀ j, j < 44 → countsParked j s = true) :
    (frozenCheck s).pkg = .frozen := by
  have hparked : (List.range 44).all (fun c => countsParked c s) = true := List.all_eq_true.2 fun j hj => hall j (List.mem_range.1 hj)
  rw [frozenCheck, if_pos ⟨hpkg, hdue, hparked⟩]
  dsimp only
  split
  · exact (launchKept_setPkg ..).2.1
  · exact (launchKept_setPkg ..).2.1

/-- The freeze of the package writes no register of a core. -/
theorem csrGet_frozenCheck {c x : Nat} (hc : c < 44) (hx : x < 0x1000) (d : Nat) (s : State) :
    csrGet d (seqBase c + x) (frozenCheck s) = csrGet d (seqBase c + x) s := by
  have hrange := seqBase_range hc hx
  have hckp : seqBase c + x ≠ ckpBase + R.CKP_STATUS_STATE.off := by
    have hbase : ckpBase + R.CKP_STATUS_STATE.off = 0x100008 := rfl
    omega
  have hpkg : csrGet d (seqBase c + x) (setPkg .frozen (flipClocks s)) = csrGet d (seqBase c + x) s :=
    (onlyLogged_raise ..).1 d _ not_false (seq_ne_lostAt hc hx)
  unfold frozenCheck
  split
  · dsimp only
    split
    · exact (csrGet_setF_other _ _ _ hckp).trans hpkg
    · exact hpkg
  · rfl

theorem countsParked_setCore (c j : Nat) (k : Core) (s : State) :
    countsParked j (setCore c k s) = if j = c then (decide (k.st = .parked) || decide (k.st = .idle)) else countsParked j s := by
  unfold countsParked
  rw [getCore_setCore]
  split <;> rfl

/-- A core that parks: its state, and the drain time in its register. -/
def parkedAt (c : Nat) (u : DWord) (s : State) : State :=
  setCore c { getCore c s with st := .parked } (setF (seqBase c) R.SEQ_DRAIN_NS_DRAIN_NS (s.count - u).toNat s)

theorem run_corePark {c : Fin 44} {u : DWord} {s : State} (hpark : (getCore c s).parkFrom = some u) (hst : (getCore c s).st ≠ .parked)
    (hmask : (getCore c s).trapMask = false) (htrap : trappedTile c (fun _ => true) s = none) (hempty : queuesEmpty c s = true) :
    exec (.corePark c) s = .next (frozenCheck (parkedAt c u s)) := by
  refine Eq.trans (b := .next (corePark c s)) rfl (congrArg _ ?_)
  rw [corePark, hpark]
  dsimp only
  rw [if_neg (by simp [hst, hmask]), htrap]
  dsimp only
  rw [if_pos hempty, parkedAt]
  dsimp only
  rw [hpark]

section
variable (c : Nat) (u : DWord) (s : State)

theorem getCore_parkedAt (j : Nat) : getCore j (parkedAt c u s) = if j = c then { getCore c s with st := .parked } else getCore j s := by
  rw [parkedAt, getCore_setCore]
  rfl

theorem countsParked_parkedAt (j : Nat) : countsParked j (parkedAt c u s) = if j = c then true else countsParked j s := by
  rw [parkedAt, countsParked_setCore]
  rfl

theorem drain_parkedAt : getF (seqBase c) R.SEQ_DRAIN_NS_DRAIN_NS (parkedAt c u s) = (s.count - u).toNat % 2 ^ 32 :=
  (getF_of_word (csrGet_setCore ..)).trans (getF_setF (seqBase c) (s.count - u).toNat R.SEQ_DRAIN_NS_DRAIN_NS s (by decide))

end

/-! ### The freeze count (R155, R319) -/

/-- From the freeze count on no collective sends; with none running nothing changes. -/
theorem colFreeze_of_idle {s : State} (hruns : s.col.runs = []) (hmail : s.col.mail = []) : colFreeze s = s := by
  have hearly : s.col.mail.filter (fun w => w.kind = 7) = [] := by rw [hmail, List.filter_nil]
  have hlate : s.col.mail.filter (fun w => w.kind ≠ 7) = s.col.mail := by rw [hmail, List.filter_nil]
  have hnone : ∀ (f : State → ColX → State) (t : State), t.col.runs = [] → t.col.runs.foldl f t = t := fun f t ht => by rw [ht, List.foldl_nil]
  unfold colFreeze
  split
  · dsimp only
    rw [hearly, List.foldl_nil, hlate]
    exact hnone _ _ hruns
  · rfl

/-- A core that waits at a quiesce point begins to park. -/
theorem run_freezeCountReached {c : Fin 44} {r : WaitRec} {s : State} (hwait : (getCore c s).wait = some r) (hst : (getCore c s).st = .waiting)
    (hparks : parks r (getCore c s) s) (hruns : s.col.runs = []) (hmail : s.col.mail = []) :
    exec (.freezeCountReached c) s = .next (setCore c { getCore c s with parkFrom := some s.count, held := some .waiting } s) := by
  obtain ⟨hdue, hquiesce, hpark, hmask⟩ := hparks
  have hcore : parkWaiting r (getCore c s) s = { getCore c s with parkFrom := some s.count, held := some .waiting } :=
    if_pos (by simp [hdue, hquiesce, hpark, hmask])
  refine Eq.trans (b := .next (colFreeze (freezeReached c s))) rfl (congrArg _ ?_)
  rw [freezeReached, hwait]
  dsimp only
  rw [if_pos hst, hcore, frozenCheck_of_unparked, colFreeze_of_idle]
  · exact hruns
  · exact hmail
  · refine ⟨c, c.isLt, ?_⟩
    rw [countsParked_setCore, if_pos rfl, hst]
    rfl

/-! ### Starts (R158, R160) -/

/-- The registers that a start resets. -/
def startRegs (c : Nat) (s : State) : State :=
  setPair (seqBase c) R.SEQ_TRAP_PC_LO_VALUE R.SEQ_TRAP_PC_HI_VALUE 0
    (setF (seqBase c) R.SEQ_FLAGS_NV 0 (setF (seqBase c) R.SEQ_FLAGS_OF 0 (setF (seqBase c) R.SEQ_FLAGS_UF 0 (setF (seqBase c) R.SEQ_FLAGS_NX 0
      (setF (seqBase c) R.SEQ_FAULT_VALID 0 (setF (seqBase c) R.SEQ_TCAUSE_TILE 0 (setF (seqBase c) R.SEQ_TCAUSE_TAG 0
        (setF (seqBase c) R.SEQ_TCAUSE_VALID 0 s))))))))

theorem onlyWords_startRegs (c : Nat) (s : State) : OnlyWords (seqWord c) s (startRegs c s) :=
  (onlyWords_setF_seq c R.SEQ_TCAUSE_VALID (by decide) ..).trans <| (onlyWords_setF_seq c R.SEQ_TCAUSE_TAG (by decide) ..).trans <|
    (onlyWords_setF_seq c R.SEQ_TCAUSE_TILE (by decide) ..).trans <| (onlyWords_setF_seq c R.SEQ_FAULT_VALID (by decide) ..).trans <|
    (onlyWords_setF_seq c R.SEQ_FLAGS_NX (by decide) ..).trans <| (onlyWords_setF_seq c R.SEQ_FLAGS_UF (by decide) ..).trans <|
    (onlyWords_setF_seq c R.SEQ_FLAGS_OF (by decide) ..).trans <| (onlyWords_setF_seq c R.SEQ_FLAGS_NV (by decide) ..).trans <|
    onlyWords_setPair_seq c _ _ (by decide) (by decide) ..

theorem faultValid_startRegs (c : Nat) (s : State) : getF (seqBase c) R.SEQ_FAULT_VALID (startRegs c s) = 0 := by
  rw [startRegs, getF_setPair_other (by decide) (by decide), getF_setF_other _ _ _ _ _ _ (by simp [R.SEQ_FAULT_VALID, R.SEQ_FLAGS_NV]),
    getF_setF_other _ _ _ _ _ _ (by simp [R.SEQ_FAULT_VALID, R.SEQ_FLAGS_OF]), getF_setF_other _ _ _ _ _ _ (by simp [R.SEQ_FAULT_VALID, R.SEQ_FLAGS_UF]),
    getF_setF_other _ _ _ _ _ _ (by simp [R.SEQ_FAULT_VALID, R.SEQ_FLAGS_NX]), getF_setF _ _ _ _ (by decide)]
  rfl

/-- The core that a start leaves. -/
def startedCore (entry : BitVec 48) (arg : DWord) : Core := setG 1 arg { Core.init with st := .running, pc := entry, first := true }

theorem startCore_eq (c : Nat) (entry : BitVec 48) (arg : DWord) (s : State) :
    startCore c entry arg s = setCore c (startedCore entry arg) (ranAdd (1000 + c) (startRegs c s)) := rfl

/-- Noting that a block has run changes no core, no register word and no byte. -/
theorem getCore_ranAdd (j k : Nat) (s : State) : getCore j (ranAdd k s) = getCore j s := by
  unfold ranAdd
  split <;> rfl

theorem csrGet_ranAdd (d off k : Nat) (s : State) : csrGet d off (ranAdd k s) = csrGet d off s := by
  unfold ranAdd
  split <;> rfl

theorem bytesKept_ranAdd (k : Nat) (s : State) : BytesKept s (ranAdd k s) := by
  unfold ranAdd
  split
  · exact fun _ => rfl
  · exact bytesKept_of_mapWords (fun _ _ _ => rfl) rfl rfl rfl rfl

theorem OnlyWords.getCore_eq {touched : Nat → Prop} {s t : State} (h : OnlyWords touched s t) (j : Nat) : getCore j t = getCore j s := by
  obtain ⟨m, rfl, -⟩ := h
  rfl

theorem getCore_startCore (c j : Nat) (entry : BitVec 48) (arg : DWord) (s : State) :
    getCore j (startCore c entry arg s) = if j = c then startedCore entry arg else getCore j s := by
  rw [startCore_eq, getCore_setCore, getCore_ranAdd, (onlyWords_startRegs c s).getCore_eq]

theorem getG_startedCore (entry : BitVec 48) (arg : DWord) (n : Nat) : getG (startedCore entry arg) n = if n = 1 then arg else 0 := by
  rw [startedCore, getG_setG]
  split
  next h0 => rw [if_neg (by omega)]
  next h0 =>
    rw [getG, if_neg h0]
    rfl

theorem started_startedCore (entry : BitVec 48) (arg : DWord) : Started entry arg (startedCore entry arg) :=
  ⟨rfl, rfl, (getG_startedCore ..).trans (if_pos rfl), fun _ hn => (getG_startedCore ..).trans (if_neg hn), fun _ => rfl, rfl, fun _ => rfl, rfl, rfl, rfl,
    rfl⟩

theorem csrGet_startCore (c : Nat) (entry : BitVec 48) (arg : DWord) (d off : Nat) (s : State) :
    csrGet d off (startCore c entry arg s) = csrGet d off (startRegs c s) := by
  rw [startCore_eq, csrGet_setCore, csrGet_ranAdd]

theorem bytesKept_startCore {c : Nat} (hc : c < 44) (entry : BitVec 48) (arg : DWord) (s : State) : BytesKept s (startCore c entry arg s) := by
  rw [startCore_eq]
  exact BytesKept.trans ((onlyWords_startRegs c s).bytesKept fun off hoff => not_mapWord_of_seqWord hc hoff)
    (BytesKept.trans (bytesKept_ranAdd _ _) (bytesKept_setCore _ _ _))

/-- A package sequencer core as LAUNCH starts it: g2 holds 0 (R158). -/
theorem started_setG_two (entry : BitVec 48) (arg : DWord) : Started entry arg (setG 2 0 (startedCore entry arg)) := by
  have hread : ∀ n, getG (setG 2 0 (startedCore entry arg)) n = if n = 1 then arg else 0 := fun n => by
    rw [getG_setG, getG_startedCore]
    by_cases h0 : n = 0
    · rw [if_pos h0, if_neg (by omega)]
    · rw [if_neg h0]
      by_cases h2 : n = 2
      · rw [if_pos h2, if_neg (by omega)]
      · rw [if_neg h2]
  exact ⟨rfl, rfl, (hread 1).trans (if_pos rfl), fun n hn => (hread n).trans (if_neg hn), fun _ => rfl, rfl, fun _ => rfl, rfl, rfl, rfl, rfl⟩

/-- One package sequencer core started. -/
def startOne (entry : BitVec 48) (g1 g2 : DWord) (s : State) (n : Nat) : State :=
  setCore (36 + n) (setG 2 g2 (getCore (36 + n) (startCore (36 + n) entry g1 s))) (startCore (36 + n) entry g1 s)

theorem getCore_startOne (entry : BitVec 48) (g1 g2 : DWord) (s : State) (n j : Nat) :
    getCore j (startOne entry g1 g2 s n) = if j = 36 + n then setG 2 g2 (startedCore entry g1) else getCore j s := by
  rw [startOne, getCore_setCore, getCore_startCore, if_pos rfl, getCore_startCore]
  split <;> rfl

/-- A core after the listed package sequencer cores have started. -/
theorem getCore_startOnes (entry : BitVec 48) (g1 g2 : DWord) (j : Nat) : ∀ (l : List Nat) (s : State),
    getCore j (l.foldl (startOne entry g1 g2) s) = if ∃ n ∈ l, j = 36 + n then setG 2 g2 (startedCore entry g1) else getCore j s
  | [], s => by simp
  | n :: l, s => by
    rw [List.foldl_cons, getCore_startOnes entry g1 g2 j l, getCore_startOne]
    by_cases hl : ∃ m ∈ l, j = 36 + m
    · rw [if_pos hl, if_pos (by simpa using .inr hl)]
    · rw [if_neg hl]
      simp only [List.exists_mem_cons_iff, hl, or_false]

theorem getCore_startPsc (entry : BitVec 48) (g1 g2 : DWord) (j : Nat) (s : State) :
    getCore j (startPsc entry g1 g2 s) = if 36 ≤ j ∧ j < 44 then setG 2 g2 (startedCore entry g1) else getCore j s := by
  refine (getCore_startOnes entry g1 g2 j (List.range 8) s).trans (if_congr ?_ rfl rfl)
  simp only [List.mem_range]
  exact ⟨fun ⟨n, hn, hj⟩ => by omega, fun hj => ⟨j - 36, by omega, by omega⟩⟩

/-! ### The stop after a fault (R163, R429) -/

/-- A core that has not faulted is stopped. -/
def stopOne (s : State) (c : Nat) : State :=
  if (getCore c s).st = .faulted then s
  else setCore c { getCore c s with st := .stopped, wait := none, load := none, parkFrom := none, start := none } s

theorem st_stopOne (s : State) (c j : Nat) :
    (getCore j (stopOne s c)).st = if j = c then (if (getCore c s).st = .faulted then .faulted else .stopped) else (getCore j s).st := by
  unfold stopOne
  split
  next hf =>
    split
    next hj => rw [hj, hf]
    next => rfl
  next hf =>
    rw [getCore_setCore]
    split <;> rfl

/-- Stopping the listed cores leaves every core that has not faulted and is listed STOPPED. -/
theorem st_stopOnes (j : Nat) : ∀ (l : List Nat) (s : State), (getCore j (l.foldl stopOne s)).st =
    if j ∈ l then (if (getCore j s).st = .faulted then .faulted else .stopped) else (getCore j s).st
  | [], s => by simp
  | c :: l, s => by
    rw [List.foldl_cons, st_stopOnes j l, st_stopOne]
    by_cases hc : j = c
    · subst hc
      simp
    · simp [hc]

/-- Nothing but cores changes where cores stop. -/
theorem stopOnes_frame (l : List Nat) (s : State) : ∃ m, l.foldl stopOne s = { s with cores := m } := by
  induction l generalizing s with
  | nil => exact ⟨s.cores, rfl⟩
  | cons c l ih =>
    have hone : ∃ m, stopOne s c = { s with cores := m } := by
      unfold stopOne
      split
      · exact ⟨s.cores, rfl⟩
      · exact ⟨_, rfl⟩
    obtain ⟨m, hm⟩ := hone
    obtain ⟨m', hm'⟩ := ih (stopOne s c)
    exact ⟨m', by rw [List.foldl_cons, hm', hm]⟩

theorem restKept_cmdFinish (code : Nat) (s : State) : RestKept s (cmdFinish code s) :=
  (restKept_setF ..).trans ((restKept_setF ..).trans (restKept_setF ..))

/-- The package is FAULTED with its cause; its cores and collectives are as before. -/
theorem setFaulted_spec (cause : Nat) (s : State) :
    (setFaulted cause s).pkg = .faulted ∧ (setFaulted cause s).cause = cause ∧ (setFaulted cause s).cores = s.cores ∧ (setFaulted cause s).col = s.col := by
  obtain ⟨_, _, _, _, hpkg⟩ := restKept_raise 0 0x05 0 (stCode .faulted + 16 * stCode s.pkg + 256 * (if PkgSt.faulted = .faulted then cause else 0)) 0
    { s with cause := cause, pkg := .faulted, prev := s.pkg }
  have hset : setPkg .faulted { s with cause := cause } = _ := hpkg
  unfold setFaulted cmdAbandon
  split
  · obtain ⟨_, _, _, _, hfinish⟩ := (restKept_cmdFinish 5 { setPkg .faulted { s with cause := cause } with launch := none }).trans
      (restKept_raise 0 0x04 1 (cmdOp (setPkg .faulted { s with cause := cause })) 0 _)
    rw [hfinish, hset]
    exact ⟨rfl, rfl, rfl, rfl⟩
  · rw [hset]
    exact ⟨rfl, rfl, rfl, rfl⟩

end Sys2Proof.Machine
end

section
/-! PROOFS. Notices and limits of a wait, the launch of a package, and the statement about the events that move a core (R147, R152, R153, R154, R155, R158, R160,
R163, R319, R429). -/

namespace Sys2Proof.Machine

open Sys2Proof.Claims

section
variable {c : Fin 44} {r : WaitRec} {s : State} (hwait : (getCore c s).wait = some r) (hst : (getCore c s).st = .waiting)
  (hpark : (getCore c s).parkFrom = none)
include hwait hst hpark

/-- The Depot's notice ends a wait whose word holds (R147). -/
theorem run_depotNotify {p : Nat} (ht : target (offOf r.addr.toNat) s = .hbm p)
    (hholds : (r.op = 4 ∧ sigHolds r.cond (wordAt p s) r.value.toNat = true) ∨ (r.op = 5 ∧ ∃ v, r.target = some v ∧ v ≤ wordAt p s)) :
    exec (.depotNotify c) s = .next (retireAt c ((getCore c s).pc + 4) (getCore c s) s) := by
  have hcond : ((r.op = 4 && sigHolds r.cond (wordAt p s) r.value.toNat) || (r.op = 5 && wordAt p s ≥ r.target.getD 0)) = true := by
    rcases hholds with ⟨hop, hsig⟩ | ⟨hop, v, htarget, hle⟩
    · simp [hop, hsig]
    · simp [hop, htarget, hle]
  refine Eq.trans (b := .next (depotNotify c s)) rfl (congrArg _ ?_)
  unfold depotNotify
  dsimp only
  split
  next hnone => exact absurd (hwait.symm.trans hnone) (Option.some_ne_none r)
  next r' hr =>
    obtain rfl := Option.some.inj (hwait.symm.trans hr)
    rw [if_pos ⟨hst, .inl (by simp [hpark])⟩, ht]
    exact if_pos hcond

/-- The limit of a wait faults it once it has lasted longer, and does nothing before (R147). -/
theorem run_waitTimeout {l : Nat} (hop : r.op = 4 ∨ r.op = 5) (hlimit : r.limit = some l) :
    exec (.waitTimeout c) s = .next (if 1000 * l < (s.count - r.since).toNat then faultHere c 7 r.addr.toNat s else s) := by
  refine Eq.trans (b := .next (waitTimeout c s)) rfl (congrArg _ ?_)
  unfold waitTimeout
  dsimp only
  split
  next hnone => exact absurd (hwait.symm.trans hnone) (Option.some_ne_none r)
  next r' hr =>
    obtain rfl := Option.some.inj (hwait.symm.trans hr)
    refine if_congr ?_ rfl rfl
    simp [hst, hop, hpark, hlimit]

end

/-- A core's start at its count (R160). -/
theorem run_clusterStartAtCount {c : Fin 36} {r : StartRec} {s : State} (hstart : (getCore c s).start = some r) (hcount : r.count ≤ s.count)
    (hst : (getCore c s).st = .idle) : exec (.clusterStartAtCount c) s = .next (startCore c r.entry r.arg s) := by
  refine Eq.trans (b := .next (startAtCount c s)) rfl (congrArg _ ?_)
  rw [startAtCount, hstart]
  exact if_pos ⟨hcount, hst⟩

/-- The package at the moment LAUNCH's count has come: nothing launches any more, and its step count begins anew. -/
def launched (s : State) : State :=
  setPair ckpBase R.CKP_STEP_LO_VALUE R.CKP_STEP_HI_VALUE 0 { s with launch := none, ckp := { s.ckp with lastDrain := none } }

theorem launch_startCore (c : Nat) (entry : BitVec 48) (arg : DWord) (s : State) : (startCore c entry arg s).launch = s.launch := by
  obtain ⟨m, hm, -⟩ := onlyWords_startRegs c s
  have hran : ∀ k t, (ranAdd k t).launch = t.launch := fun k t => by
    unfold ranAdd
    split <;> rfl
  have hregs : (startRegs c s).launch = s.launch := by rw [hm]
  exact (hran _ _).trans hregs

theorem launch_startOnes (entry : BitVec 48) (g1 g2 : DWord) : ∀ (l : List Nat) (s : State), (l.foldl (startOne entry g1 g2) s).launch = s.launch
  | [], _ => rfl
  | n :: l, s => (launch_startOnes entry g1 g2 l (startOne entry g1 g2 s n)).trans (launch_startCore (36 + n) entry g1 s)

/-- The package after a launch at its count. -/
def startedPackage (entry : BitVec 48) (arg : DWord) (s : State) : State :=
  pumpWrites (cmdFinishOf 9 0 (stepBegin (setPkg .running (startPsc entry arg 0 (launched s)))))

/-- The package runs with the cores that its start left, and launches nothing. -/
theorem launchKept_started (entry : BitVec 48) (arg : DWord) (s : State) :
    (startedPackage entry arg s).cores = (startPsc entry arg 0 (launched s)).cores ∧ (startedPackage entry arg s).pkg = .running ∧
      (startedPackage entry arg s).launch = none := by
  have hstep : RestKept (setPkg .running (startPsc entry arg 0 (launched s))) (stepBegin (setPkg .running (startPsc entry arg 0 (launched s)))) :=
    RestKept.trans ⟨_, _, _, false, rfl⟩ (restKept_setF ..)
  have hfinish : RestKept (setPkg .running (startPsc entry arg 0 (launched s))) (cmdFinishOf 9 0 (stepBegin (setPkg .running (startPsc entry arg 0 (launched s))))) :=
    hstep.trans (.ite (restKept_cmdFinish 0 _) (.refl _))
  obtain ⟨hcores, hpkg, hlaunch⟩ := hfinish.launchKept.trans (launchKept_pumpWrites _)
  obtain ⟨hc, hp, hl⟩ := launchKept_setPkg .running (startPsc entry arg 0 (launched s))
  exact ⟨hcores.trans hc, hpkg.trans hp, hlaunch.trans (hl.trans (launch_startOnes entry arg 0 (List.range 8) (launched s)))⟩

/-- The start of a package that is not a spare (R158). -/
theorem run_coreStartAtCount {l : LaunchRec} {s : State} (hlaunch : s.launch = some l) (hcount : l.count ≤ s.count) (hgo : l.go = true) (hop : l.op = 9)
    (hrole : getF ckpBase R.CKP_RANK_ROLE s ≠ 1) :
    exec .coreStartAtCount s = .next (startedPackage l.entry l.arg s) := by
  refine Eq.trans (b := .next (pumpWrites (coreStartAtCount s))) rfl (congrArg (fun t => Host.Outcome.next (pumpWrites t)) ?_)
  unfold coreStartAtCount
  split
  next hnone => exact absurd (hlaunch.symm.trans hnone) (Option.some_ne_none l)
  next l' hl =>
    obtain rfl := Option.some.inj (hlaunch.symm.trans hl)
    rw [if_neg (BitVec.not_lt.2 hcount), if_neg (by simp [hgo])]
    dsimp only
    rw [if_pos hop]
    exact if_neg hrole

/-- The stop after a fault, with no collective in progress (R163). -/
theorem run_coreStop {s : State} (hpkg : s.pkg = .running) (hfault : ∃ c, c < 44 ∧ (getCore c s).st = .faulted) (hruns : s.col.runs = []) :
    exec .coreStop s = .next (setFaulted 1 ((List.range 44).foldl stopOne s)) := by
  have hany : (List.range 44).any (fun c => (getCore c s).st = .faulted) = true := by
    obtain ⟨c, hc, hst⟩ := hfault
    exact List.any_eq_true.2 ⟨c, List.mem_range.2 hc, decide_eq_true hst⟩
  obtain ⟨m, hm⟩ := stopOnes_frame (List.range 44) s
  obtain ⟨-, -, -, hcol⟩ := setFaulted_spec 1 ((List.range 44).foldl stopOne s)
  refine Eq.trans (b := .next (coreStop s)) rfl (congrArg _ ((if_pos ⟨hpkg, hany⟩).trans ?_))
  change colAbortAll 1 true (setFaulted 1 ((List.range 44).foldl stopOne s)) = _
  rw [colAbortAll, hcol, hm, hruns]
  rfl

/-- Settles O22: each event finds what it acts on and moves its cores; the checks of the whole package that follow keep them. -/
theorem coreEventsMoveTheCore : Obligations.CoreEventsMoveTheCore := by
  intro s
  refine ⟨fun c r hwait hst hpark => ⟨fun p ht => ?_, fun l hop hlimit => ?_, fun hdue hop hmask hruns hmail => ?_⟩, fun c u hpark hst hmask htrap hempty => ?_,
    fun c r hstart hcount hst => ?_, fun l hlaunch hcount hgo hop hrole => ?_, fun hpkg hfault hruns => ?_⟩
  · intro m hholds
    refine retires_of_run (run_depotNotify hwait hst hpark ht ?_)
    refine hholds.imp_left fun ⟨hop, hcond⟩ => ⟨hop, ?_⟩
    rcases hcond with ⟨h0, hm⟩ | ⟨h1, hm⟩ | ⟨h2, hm⟩
    · exact (sigHolds_iff (by omega) (by omega) ..).2 (.inl ⟨h0, hm⟩)
    · exact (sigHolds_iff (by omega) (by omega) ..).2 (.inr (.inl ⟨h1, hm⟩))
    · exact (sigHolds_iff (by omega) (by omega) ..).2 (.inr (.inr ⟨h2, hm⟩))
  · have hrun := run_waitTimeout hwait hst hpark hop hlimit
    refine ⟨fun hlong => ?_, fun hshort => ?_⟩
    · rw [if_pos hlong] at hrun
      exact takesFault_of_run hrun (by decide) r.addr.isLt
    · rwa [if_neg (by omega)] at hrun
  · have hquiesce : quiesceWait r = true := by
      rcases hop with hop | hop | ⟨hop, haddr⟩
      · simp [quiesceWait, hop]
      · simp [quiesceWait, hop]
      · simp [quiesceWait, hop, haddr]
    refine ⟨_, run_freezeCountReached hwait hst ⟨hdue, hquiesce, hpark, hmask⟩ hruns hmail, fun j hj => ?_, ?_, rfl⟩
    · rw [getCore_setCore, if_neg hj]
    · rw [getCore_setCore, if_pos rfl]
  · have hkept := runKept_frozenCheck (parkedAt c u s)
    refine ⟨_, run_corePark hpark hst hmask htrap hempty, ?_, fun j hj => ?_, fun ⟨j, hj, hne, hno⟩ => ?_, fun hpkg hdue hall => ?_, ?_⟩
    · rw [(hkept c).1, getCore_parkedAt, if_pos rfl]
    · rw [(hkept j).1, getCore_parkedAt, if_neg hj]
    · rw [frozenCheck_of_unparked ⟨j, hj, by rw [countsParked_parkedAt, if_neg hne, hno]⟩]
      refine ⟨rfl, fun i hi => ?_, ?_⟩
      · rw [getCore_parkedAt, if_neg hi]
      · rw [getCore_parkedAt, if_pos rfl]
    · refine pkg_frozenCheck hpkg hdue fun j hj => ?_
      rw [countsParked_parkedAt]
      split
      next => rfl
      next hne => exact hall j hj hne
    · exact (getF_of_word (csrGet_frozenCheck c.isLt (by decide) _ _)).trans (drain_parkedAt ..)
  · refine ⟨_, run_clusterStartAtCount hstart hcount hst, fun j hj => ?_, ?_, ?_, bytesKept_startCore (by omega) _ _ _⟩
    · rw [getCore_startCore, if_neg hj]
    · rw [getCore_startCore, if_pos rfl]
      exact started_startedCore ..
    · exact (getF_of_word (csrGet_startCore ..)).trans (faultValid_startRegs ..)
  · obtain ⟨hcores, hpkg, hlaunch'⟩ := launchKept_started l.entry l.arg s
    have hcore : ∀ j, getCore j _ = _ := fun j => (congrArg (fun m => sGet Core.init m j) hcores).trans (getCore_startPsc l.entry l.arg 0 j (launched s))
    refine ⟨_, run_coreStartAtCount hlaunch hcount hgo hop hrole, hlaunch', hpkg, fun n hn => ?_, fun n hn => ?_⟩
    · rw [hcore, if_pos (by omega)]
      exact started_setG_two ..
    · rw [hcore, if_neg (by omega)]
      rfl
  · obtain ⟨hfaulted, hcause, hcores, -⟩ := setFaulted_spec 1 ((List.range 44).foldl stopOne s)
    refine ⟨_, run_coreStop hpkg hfault hruns, hfaulted, hcause, fun c hc => ?_⟩
    rw [getCore, hcores]
    exact (st_stopOnes c (List.range 44) s).trans (if_pos (List.mem_range.2 hc))

end Sys2Proof.Machine
end

section
/-! PROOFS. Issuing work: the books an ISSUE keeps, the crossing to an engine, the start of a cluster's cores, and the statement about ISSUE (R135, R141, R142,
R143, R144, R160, R167). -/

namespace Sys2Proof.Machine

open Sys2Proof.Claims

theorem bytesKept_retireAt (c : Nat) (pc : BitVec 48) (k : Core) (s : State) : BytesKept s (retireAt c pc k s) := by
  rw [retireAt_eq]
  refine BytesKept.trans ((onlyWords_noteStart c k s).bytesKept fun off ⟨hoff, _⟩ hmap => ?_) (bytesKept_setCore _ _ _)
  have := startWord_eq hoff
  have := mapWord_eq hmap
  omega

/-- The registers of one cluster's sequencer and those of a package sequencer core lie apart. -/
theorem not_seqWord_of_package {n c x : Nat} (hn : n < 36) (hc : 36 ≤ c) (hc' : c < 44) (hx : x < 0x1000) : ¬ seqWord n (seqBase c + x) := by
  rintro ⟨y, hy, heq⟩
  unfold seqBase clusterBase dieBase at heq
  rw [if_neg (by omega), if_pos hn] at heq
  omega

/-! ### The books of an ISSUE (R142) -/

/-- The core with the instruction outstanding and its summary register pending. -/
def noted : Option OutIns → Core → Core
  | none, k => k
  | some o, k => { k with out := k.out ++ [o], sPend := o.sum.toList ++ k.sPend }

/-- The core whose tag is taken. -/
def tagTaken (out : Option OutIns) (k : Core) : Core := { noted out k with tag := k.tag + 1 }

/-- The core that has taken its tag into g[D]. -/
def issuedCore (w : BitVec 24) (out : Option OutIns) (k : Core) : Core := setG (iD w) (k.tag.zeroExtend 64) (tagTaken out k)

/-- The state in which SEQ_ISSUED has counted. -/
def issueCounted (c : Nat) (s : State) : State := addPair (seqBase c) R.SEQ_ISSUED_LO_VALUE R.SEQ_ISSUED_HI_VALUE 1 s

theorem issueRetire_eq (c : Nat) (w : BitVec 24) (out : Option OutIns) (k : Core) (s : State) :
    issueRetire c w out k s = retireAt c (k.pc + 4) (issuedCore w out k) (issueCounted c s) := by
  rcases out with _ | ⟨kind, tile, tag, _ | r⟩ <;> exact retire_setG ..

/-- A write of a g register leaves the books. -/
theorem books_setG (d : Nat) (v : DWord) (k : Core) :
    (setG d v k).tag = k.tag ∧ (setG d v k).s = k.s ∧ (setG d v k).out = k.out ∧ (setG d v k).sPend = k.sPend := by
  unfold setG
  split <;> exact ⟨rfl, rfl, rfl, rfl⟩

/-- The books an ISSUE keeps, as its core shows them. -/
theorem issued_wentOn (w : BitVec 24) (out : Option OutIns) (k : Core) (count : DWord) :
    Issued (iD w) out k (wentOn (k.pc + 4) (issuedCore w out k) count) := by
  obtain ⟨hd, hother, hh⟩ := wroteG_setG (iD w) (k.tag.zeroExtend 64) (tagTaken out k) (k.pc + 4) count
  obtain ⟨htag, hs, hout, hpend⟩ := books_setG (iD w) (k.tag.zeroExtend 64) (tagTaken out k)
  have hmem : ∀ n, n ∈ (issuedCore w out k).sPend ↔ n ∈ (tagTaken out k).sPend := fun n => iff_of_eq (congrArg (n ∈ ·) hpend)
  cases out with
  | none => exact ⟨rfl, htag, hd, hother, hh, fun n => congrArg (sGet sumReset · n) hs, hout.trans (List.append_nil _).symm,
      fun n => (hmem n).trans (by simp [tagTaken, noted])⟩
  | some o => exact ⟨rfl, htag, hd, hother, hh, fun n => congrArg (sGet sumReset · n) hs, hout,
      fun n => (hmem n).trans (by simp [tagTaken, noted, or_comm])⟩

/-- What an ISSUE leaves, from a state that only engines tell from the one it ran in. -/
theorem issueRetire_spec {c : Nat} (hc : c < 44) (w : BitVec 24) (out : Option OutIns) {s u : State} (hcores : u.cores = s.cores) (hcsr : u.csr = s.csr)
    (hbytes : BytesKept s u) {t : State} (ht : t = issueRetire c w out (getCore c s) u) :
    OtherCoresKept c s t ∧ Issued (iD w) out (getCore c s) (getCore c t) ∧
      CountedOne (seqBase c) R.SEQ_ISSUED_LO_VALUE R.SEQ_ISSUED_HI_VALUE s t ∧ t.engines = u.engines ∧ BytesKept s t := by
  obtain ⟨m, hm, hwords⟩ := retireAt_frame c ((getCore c s).pc + 4) (issuedCore w out (getCore c s)) (issueCounted c u)
  have hcount := countedOne_addPair (lo := R.SEQ_ISSUED_LO_VALUE) (hi := R.SEQ_ISSUED_HI_VALUE) (by decide) (seqBase c) u
  have hword : ∀ off, pairWords (seqBase c) R.SEQ_ISSUED_LO_VALUE R.SEQ_ISSUED_HI_VALUE off → seqWord c off := by
    rintro off (rfl | rfl)
    · exact ⟨_, by decide, rfl⟩
    · exact ⟨_, by decide, rfl⟩
  rw [issueRetire_eq] at ht
  subst ht
  refine ⟨fun j hj => ?_, ?_, ?_, by rw [hm]; rfl, ?_⟩
  · rw [getCore_retireAt_other hj]
    exact congrArg (sGet Core.init · j) hcores
  · rw [getCore_retireAt_same]
    exact issued_wentOn ..
  · have hu : getPair (seqBase c) R.SEQ_ISSUED_LO_VALUE R.SEQ_ISSUED_HI_VALUE u = getPair (seqBase c) R.SEQ_ISSUED_LO_VALUE R.SEQ_ISSUED_HI_VALUE s :=
      getPair_of_words fun d off _ => congrArg (sGet (BitVec.ofNat 32 d) · off) hcsr
    rw [CountedOne, ← hu]
    refine (getPair_of_words fun d off hoff => hwords d off fun ⟨hstart, _⟩ => ?_).trans hcount
    obtain ⟨x, hx, rfl⟩ := hword off hoff
    exact not_startWord_seq hc hx hstart
  · have hcounted := (onlyWords_addPair (seqBase c) R.SEQ_ISSUED_LO_VALUE R.SEQ_ISSUED_HI_VALUE 1 u).bytesKept
      fun off hoff => not_mapWord_of_seqWord hc (hword off hoff)
    exact BytesKept.trans hbytes (BytesKept.trans hcounted (bytesKept_retireAt _ _ _ _))

/-! ### The crossing to an engine (R141, R143, R144, R167) -/

/-- The instruction that crosses to its engine. -/
def crossingIns (kind c : Nat) (w : BitVec 24) (k : Core) : EngIns :=
  let p := getG k (iP w)
  ⟨c, kind, iTile w, k.tag, k.pc, p, getG k (iQ w), if kind = 1 then getG k (bitsAt p.toNat 26 5) else 0, issueSum kind w p.toNat, 0, 0, 0, 0, 0, 0,
    0x1FFFFFF, false, false, 0⟩

/-- The engine with the instruction under way to it. -/
def crossed (kind c : Nat) (w : BitVec 24) (k : Core) (s : State) : State :=
  setEng (engKey kind c (iTile w)) { getEng (engKey kind c (iTile w)) s with
    cross := (getEng (engKey kind c (iTile w)) s).cross ++ [crossingIns kind c w k] } s

/-- An ISSUE whose summary register is valid and has no trap to deliver stalls or crosses. -/
theorem issueTo_eq {kind c : Nat} {w : BitVec 24} {s : State}
    (hsum : ∀ r, issueSum kind w (getG (getCore c s) (iP w)).toNat = some r → NoTrapFor c r s ∧ r ∉ (getCore c s).sPend) :
    issueTo kind c w (getCore c s) s =
      if issueStalls kind c (engKey kind c (iTile w)) (getG (getCore c s) (iP w)).toNat s then s
      else issueRetire c w (some ⟨kind, iTile w, (getCore c s).tag, issueSum kind w (getG (getCore c s) (iP w)).toNat⟩) (getCore c s)
        (crossed kind c w (getCore c s) s) := by
  unfold issueTo
  dsimp only
  split
  next r hr =>
    obtain ⟨hno, hvalid⟩ := hsum r hr
    rw [withSummary_of_valid hno hvalid, crossed, crossingIns, hr]
  next hr => rw [crossed, crossingIns, hr]

theorem issueStalls_iff (kind c key p : Nat) (s : State) : issueStalls kind c key p s = true ↔
    queueCap kind ≤ (getEng key s).cross.length + (getEng key s).queue.length ∨ (kind = 6 ∧ dspTakes (c / 9) c p s = false) := by
  simp [issueStalls]

/-- Each issue to an engine with a queue runs as its kind; the kind's queue has the engine's capacity. -/
theorem exec_issueForms (c : Fin 44) (w : BitVec 24) (s : State) :
    ∀ f ∈ issueForms c w, exec f.1 s = .next (issueInsn f.2.1 c w s) ∧ queueCap f.2.1 = f.2.2 := by
  simp only [issueForms, List.forall_mem_cons]
  exact ⟨⟨rfl, rfl⟩, ⟨rfl, rfl⟩, ⟨rfl, rfl⟩, ⟨rfl, rfl⟩, ⟨rfl, rfl⟩, ⟨rfl, rfl⟩, ⟨rfl, rfl⟩, ⟨rfl, rfl⟩, List.forall_mem_nil _⟩

theorem run_issueResume {c : Fin 44} {w : BitVec 24} {s : State} (h : Ready c s) (hlegal : issueLegal 2 c w = true)
    (htrap : (getEng (kVx (8 * c.val + iTile w)) s).trap = none) :
    exec (.issueVxResume c w) s = .next (issueRetire c w none (getCore c s) s) := by
  obtain ⟨-, -, -, hengines, -⟩ := issueRetire_spec c.isLt w none (s := s) rfl rfl (fun _ => rfl) rfl
  have hnone : (getEng (kVx (8 * c.val + iTile w)) (issueRetire c w none (getCore c s) s)).trap = none := by
    rw [getEng, hengines]
    exact htrap
  refine Eq.trans (b := .next (issueResume c w s)) rfl (congrArg _ ?_)
  rw [issueResume, insn_of_ready h _ hlegal]
  dsimp only
  rw [hnone]

/-! ### The start of a cluster's cores (R160) -/

section
variable {b : Nat} (hnow : bitsAt b 64 64 = 0)

/-- The core that a start block starts. -/
def blockCore (b : Nat) : Core := startedCore (BitVec.ofNat 48 (bitsAt b 0 64)) (BitVec.ofNat 64 (bitsAt b 128 64))

/-- A start block with START = 0 starts core `n` at once. -/
def startNow (b : Nat) (s : State) (n : Nat) : State := startCore n (BitVec.ofNat 48 (bitsAt b 0 64)) (BitVec.ofNat 64 (bitsAt b 128 64)) s

theorem getCore_startNow (j : Nat) : ∀ (l : List Nat) (s : State),
    getCore j (l.foldl (startNow b) s) = if j ∈ l then blockCore b else getCore j s
  | [], s => by simp
  | n :: l, s => by
    rw [List.foldl_cons, getCore_startNow j l, startNow, getCore_startCore]
    by_cases hj : j = n <;> simp [hj, blockCore]

/-- No register of a package sequencer core changes when cluster cores start. -/
theorem csrGet_startNow {c x : Nat} (hc : 36 ≤ c) (hc' : c < 44) (hx : x < 0x1000) (d : Nat) : ∀ (l : List Nat) (s : State), (∀ n ∈ l, n < 36) →
    csrGet d (seqBase c + x) (l.foldl (startNow b) s) = csrGet d (seqBase c + x) s
  | [], _, _ => rfl
  | n :: l, s, hl => by
    obtain ⟨hn, hl⟩ := List.forall_mem_cons.1 hl
    rw [List.foldl_cons, csrGet_startNow hc hc' hx d l _ hl, startNow, csrGet_startCore]
    obtain ⟨m, -, hwords⟩ := onlyWords_startRegs n s
    exact hwords d _ (not_seqWord_of_package hn hc hc' hx)

theorem mem_maskCores {m n : Nat} : n ∈ maskCores m ↔ n < 36 ∧ bitAt m n = true := by
  simp [maskCores]

include hnow in
theorem startCores_of_now (s : State) : startCores b s = (maskCores (bitsAt b 192 36)).foldl (startNow b) s := by
  rw [startCores, hnow]
  rfl

end

/-- A start block that can be read, names only IDLE cores and has no reserved bit set breaks no rule (R143, R160). -/
theorem startCause_eq_none {a b : Nat} {s : State} (halign : a % 32 = 0) (hlocal : isLocal a s = true) {x : Nat} (ht : target (offOf a) s = .hbm x)
    (hpoison : localPoison (offOf a - offOf a % 128) s = false) (hreserved : bitsAt b 228 28 = 0)
    (hidle : ∀ n, n < 36 → bitAt (bitsAt b 192 36) n = true → (getCore n s).st = .idle) : startCause a b s = none := by
  have hall : (maskCores (bitsAt b 192 36)).any (fun n => (getCore n s).st ≠ .idle) = false :=
    List.any_eq_false.2 fun n hn => by simp [hidle n (mem_maskCores.1 hn).1 (mem_maskCores.1 hn).2]
  unfold startCause
  simp only [ht, hlocal, hpoison, hall, firstCause, halign, hreserved]
  rfl

/-- The state in which the cluster start's books are kept, before a core starts. -/
def startNoted (c : Nat) (w : BitVec 24) (b : Nat) (s : State) : State :=
  if (maskCores (bitsAt b 192 36)).isEmpty then issueRetire c w none (getCore c s) s
  else
    let t := issueRetire c w (some ⟨0xA, 0, (getCore c s).tag, none⟩) (getCore c s) s
    { t with starts := t.starts ++ [⟨c, (getCore c s).tag, maskCores (bitsAt b 192 36)⟩] }

/-- The books of a cluster start: as for every ISSUE. -/
theorem startNoted_spec {c : Nat} (hc : c < 44) (w : BitVec 24) (b : Nat) (s : State) :
    OtherCoresKept c s (startNoted c w b s) ∧ (getCore c (startNoted c w b s)).tag = (getCore c s).tag + 1 ∧
      (getCore c (startNoted c w b s)).pc = (getCore c s).pc + 4 ∧
      CountedOne (seqBase c) R.SEQ_ISSUED_LO_VALUE R.SEQ_ISSUED_HI_VALUE s (startNoted c w b s) := by
  unfold startNoted
  split
  next =>
    obtain ⟨hothers, ⟨hpc, htag, -⟩, hcount, -⟩ := issueRetire_spec hc w none (s := s) rfl rfl (fun _ => rfl) rfl
    exact ⟨hothers, htag, hpc, hcount⟩
  next =>
    obtain ⟨hothers, ⟨hpc, htag, -⟩, hcount, -⟩ :=
      issueRetire_spec hc w (some ⟨0xA, 0, (getCore c s).tag, none⟩) (s := s) rfl rfl (fun _ => rfl) rfl
    exact ⟨hothers, htag, hpc, hcount⟩

theorem run_issueClusterStart {c : Fin 44} {w : BitVec 24} {b : Nat} {s : State} (h : Ready c s) (hlegal : issueLegal 0xA c w = true)
    (hask : blockAsk 32 (getG (getCore c s) (iP w)).toNat s = none) (hb : readOff (offOf (getG (getCore c s) (iP w)).toNat) 32 s = b)
    (hcause : startCause (getG (getCore c s) (iP w)).toNat b s = none) (hnow : bitsAt b 64 64 = 0) :
    exec (.issueClusterStart c w) s = .next ((maskCores (bitsAt b 192 36)).foldl (startNow b) (startNoted c w b s)) := by
  refine Eq.trans (b := .next (issueStart c w s)) rfl (congrArg _ ?_)
  rw [issueStart, insn_of_ready h _ hlegal]
  dsimp only
  rw [hask, hb]
  dsimp only
  rw [hcause, startNoted]
  dsimp only
  split
  next hempty => rw [List.isEmpty_iff.1 hempty, List.foldl_nil]
  next => exact startCores_of_now hnow _

/-- Only package sequencer cores start clusters (R141). -/
theorem le_of_issueLegal_start {c : Nat} {w : BitVec 24} (h : issueLegal 0xA c w = true) : 36 ≤ c := by
  rw [issueLegal, Bool.and_eq_true] at h
  exact of_decide_eq_true h.2

/-- Settles O24: an ISSUE keeps its core's books and puts the instruction under way, or stalls; a cluster start then starts the cores of its block one by one. -/
theorem issueHandsWorkToItsEngine : Obligations.IssueHandsWorkToItsEngine := by
  intro c w s h k p counted
  refine ⟨fun f hf hlegal => ?_, fun hlegal htrap => ?_, fun hlegal halign hlocal ⟨x, ht, hheld⟩ hpoison => ?_⟩
  · obtain ⟨hexec, hcap⟩ := exec_issueForms c w s f hf
    intro key sum hsum e third
    have hrun : exec f.1 s = .next (issueTo f.2.1 c w k s) := hexec.trans (congrArg _ (insn_of_ready h _ hlegal _))
    have hstalls := issueStalls_iff f.2.1 c key p.toNat s
    rw [hcap] at hstalls
    rw [issueTo_eq hsum] at hrun
    refine ⟨fun hroom hthird => ?_, fun hfull => ?_⟩
    · rw [if_neg fun hs => (hstalls.1 hs).elim (Nat.not_le.2 hroom) hthird] at hrun
      obtain ⟨hothers, hissued, hcount, hengines, hbytes⟩ :=
        issueRetire_spec c.isLt w (some ⟨f.2.1, iTile w, k.tag, sum⟩) (s := s) (u := crossed f.2.1 c w k s) rfl rfl (bytesKept_setEng _ _ _) rfl
      have heng : ∀ j, getEng j (issueRetire c w (some ⟨f.2.1, iTile w, k.tag, sum⟩) k (crossed f.2.1 c w k s)) = _ :=
        fun j => (congrArg (sGet Engine.init · j) hengines).trans (getEng_setEng key j _ s)
      refine ⟨_, crossingIns f.2.1 c w k, hrun, hothers, hissued, hcount, ?_, ?_, fun j hj => ?_, rfl, rfl, rfl, rfl, rfl, rfl, rfl, rfl, hbytes⟩
      · rw [heng, if_pos rfl]
      · rw [heng, if_pos rfl]
      · rw [heng, if_neg hj]
    · rwa [if_pos (hstalls.2 hfull)] at hrun
  · obtain ⟨hothers, hissued, hcount, hengines, hbytes⟩ := issueRetire_spec c.isLt w none (s := s) rfl rfl (fun _ => rfl) rfl
    exact ⟨_, run_issueResume h hlegal htrap, hothers, hissued, hcount, hengines, hbytes⟩
  · have hpsc : 36 ≤ c.val := le_of_issueLegal_start hlegal
    have hask : blockAsk 32 p.toNat s = none := by simp [blockAsk, ht, hheld]
    intro b hreserved hnow hidle
    have hcause := startCause_eq_none halign hlocal ht hpoison hreserved hidle
    obtain ⟨hothers, htag, hpc, hcount⟩ := startNoted_spec c.isLt w b s
    have hcore : ∀ n, getCore n ((maskCores (bitsAt b 192 36)).foldl (startNow b) (startNoted c w b s)) = _ :=
      fun n => getCore_startNow n _ (startNoted c w b s)
    have hself : c.val ∉ maskCores (bitsAt b 192 36) := fun hmem => Nat.not_lt.2 hpsc (mem_maskCores.1 hmem).1
    refine ⟨_, run_issueClusterStart h hlegal hask rfl hcause hnow, fun n hn hbit => ?_, fun n hn hbit => ?_, ?_, ?_, ?_⟩
    · rw [hcore, if_pos (mem_maskCores.2 ⟨hn, hbit⟩)]
      exact started_startedCore ..
    · rw [hcore, if_neg fun hmem => Bool.eq_false_iff.1 hbit (mem_maskCores.1 hmem).2]
      exact hothers n (by omega)
    · refine (getPair_of_words fun d off hoff => ?_).trans hcount
      rcases hoff with rfl | rfl
      · exact csrGet_startNow hpsc c.isLt (by decide) d _ _ fun n hn => (mem_maskCores.1 hn).1
      · exact csrGet_startNow hpsc c.isLt (by decide) d _ _ fun n hn => (mem_maskCores.1 hn).1
    · rw [hcore, if_neg hself, htag]
    · rw [hcore, if_neg hself, hpc]

end Sys2Proof.Machine
end

section
/-! PROOFS. The short-vector extension: what a register built lane by lane holds, the sticky flags, and the statement about its operations and moves (R58, R62,
R136, R139). -/

namespace Sys2Proof.Machine

open Sys2Proof.Claims

/-! ### Registers built lane by lane -/

section
variable (b : Nat) (r : Nat → Nat × Nat)

theorem buildLanes_lt : ∀ n, (buildLanes b r n).1 < 2 ^ (b * n)
  | 0 => Nat.one_pos
  | n + 1 => by
    have hlow := buildLanes_lt n
    have htop : (r n).1 % 2 ^ b + 1 ≤ 2 ^ b := Nat.mod_lt _ (Nat.two_pow_pos b)
    calc (buildLanes b r n).1 + (r n).1 % 2 ^ b * 2 ^ (b * n) < ((r n).1 % 2 ^ b + 1) * 2 ^ (b * n) := by rw [Nat.add_mul]; omega
      _ ≤ 2 ^ b * 2 ^ (b * n) := Nat.mul_le_mul_right _ htop
      _ = 2 ^ (b * (n + 1)) := by rw [← Nat.pow_add, Nat.mul_succ, Nat.add_comm]

/-- Each lane is put above the lanes before it. -/
theorem buildLanes_succ (n : Nat) : (buildLanes b r (n + 1)).1 = putBits (buildLanes b r n).1 (b * n) b (r n).1 := by
  have hlow := buildLanes_lt b r n
  rw [putBits, bitsAt, Nat.shiftRight_eq_div_pow, Nat.div_eq_of_lt hlow, Nat.zero_mod, Nat.zero_shiftLeft, Nat.sub_zero, Nat.shiftLeft_eq]
  rfl

theorem lane_buildLanes : ∀ n j, j < n → lane (buildLanes b r n).1 b j = (r j).1 % 2 ^ b
  | n + 1, j, hj => by
    rw [lane, buildLanes_succ]
    rcases Nat.lt_succ_iff_lt_or_eq.1 hj with hlt | rfl
    · rw [bitsAt_putBits_outside _ _ (.inl ((Nat.mul_succ b j).symm.trans_le (Nat.mul_le_mul_left b hlt)))]
      exact lane_buildLanes n j hlt
    · exact bitsAt_putBits ..

/-- A flag is gathered when a lane raised it. -/
theorem bitAt_buildLanes (x : Nat) : ∀ n, bitAt (buildLanes b r n).2 x = true ↔ ∃ j, j < n ∧ bitAt (r j).2 x = true
  | 0 => by simp [buildLanes, bitAt]
  | n + 1 => by
    have hor : bitAt (buildLanes b r (n + 1)).2 x = (bitAt (buildLanes b r n).2 x || bitAt (r n).2 x) := bitAt_or ..
    rw [hor, Bool.or_eq_true, bitAt_buildLanes x n]
    constructor
    · rintro (⟨j, hj, hbit⟩ | hbit)
      · exact ⟨j, Nat.lt_succ_of_lt hj, hbit⟩
      · exact ⟨n, Nat.lt_succ_self n, hbit⟩
    · rintro ⟨j, hj, hbit⟩
      rcases Nat.lt_succ_iff_lt_or_eq.1 hj with hlt | rfl
      · exact .inl ⟨j, hlt, hbit⟩
      · exact .inr hbit

end

/-- A whole lane of an h register lies in its 256 bits. -/
theorem lane_le {b j : Nat} (hj : j < 256 / b) : b * j + b ≤ 256 :=
  calc b * j + b = b * (j + 1) := (Nat.mul_succ b j).symm
    _ ≤ b * (256 / b) := Nat.mul_le_mul_left b hj
    _ ≤ 256 := Nat.mul_div_le 256 b

theorem lane_ofNat {b j : Nat} (hj : j < 256 / b) (v : Nat) : lane (BitVec.ofNat 256 v).toNat b j = lane v b j :=
  bitsAt_toNat_ofNat v (lane_le hj)

/-- What lies above a field does not change it. -/
theorem bitsAt_add_mul_two_pow {lo w m : Nat} (v x : Nat) (h : lo + w ≤ m) : bitsAt (v + x * 2 ^ m) lo w = bitsAt v lo w := by
  rw [← bitsAt_mod_two_pow _ h, Nat.add_mul_mod_self_right, bitsAt_mod_two_pow _ h]

/-- The bits beside the lanes of a 6-bit format lie above them. -/
theorem lane_add_laneRest {b j : Nat} (hj : j < 256 / b) (v op : Nat) : lane (v + laneRest b op) b j = lane v b j := by
  unfold laneRest
  split
  next h =>
    subst h
    exact bitsAt_add_mul_two_pow v _ (by omega)
  next => rfl

/-! ### Sticky flags (R139) -/

/-- One flag of SEQ_FLAGS becomes 1 when the flag set has it. -/
def setFlag (c fl : Nat) (s : State) (x : Nat × Fld) : State := if bitAt fl x.1 then setF (seqBase c) x.2 1 s else s

theorem seqFlags_eq (c fl : Nat) (s : State) : seqFlags c fl s = seqFlagBits.foldl (setFlag c fl) s := rfl

/-- No flag raised, none set. -/
theorem seqFlags_zero (c : Nat) (s : State) : seqFlags c 0 s = s := rfl

theorem seqFlagBits_spec : ∀ x ∈ seqFlagBits, x.2.off = R.SEQ_FLAGS_NV.off ∧ x.2.lo + x.2.w ≤ 32 ∧ x.2.w = 1 ∧
    ∀ y ∈ seqFlagBits, y ≠ x → FieldsBeside x.2 y.2 := by decide

section
variable {c fl : Nat} {s : State}

theorem getF_setFlag {x y : Nat × Fld} (hx : x ∈ seqFlagBits) (hy : y ∈ seqFlagBits) :
    getF (seqBase c) y.2 (setFlag c fl s x) = if y = x ∧ bitAt fl y.1 = true then 1 else getF (seqBase c) y.2 s := by
  obtain ⟨-, hfit, hone, hbeside⟩ := seqFlagBits_spec x hx
  obtain ⟨-, hfit', -⟩ := seqFlagBits_spec y hy
  unfold setFlag
  by_cases heq : y = x
  · subst heq
    by_cases hbit : bitAt fl y.1 = true
    · rw [if_pos hbit, if_pos ⟨rfl, hbit⟩, getF_setF _ _ _ _ hfit, hone]
      rfl
    · rw [if_neg hbit, if_neg fun h => hbit h.2]
  · rw [if_neg fun hboth : y = x ∧ _ => heq hboth.1]
    split
    · exact getF_setF_beside _ _ _ (hbeside y hy heq) hfit'
    · rfl

theorem getF_setFlags {y : Nat × Fld} (hy : y ∈ seqFlagBits) : ∀ (l : List (Nat × Fld)) (s : State), (∀ x ∈ l, x ∈ seqFlagBits) →
    getF (seqBase c) y.2 (l.foldl (setFlag c fl) s) = if y ∈ l ∧ bitAt fl y.1 = true then 1 else getF (seqBase c) y.2 s
  | [], _, _ => by simp
  | x :: l, s, hl => by
    obtain ⟨hx, hl⟩ := List.forall_mem_cons.1 hl
    rw [List.foldl_cons, getF_setFlags hy l _ hl, getF_setFlag hx hy]
    by_cases hbit : bitAt fl y.1 = true <;> by_cases hyl : y ∈ l <;> simp [hbit, hyl]

/-- A sticky flag is 1 when it was or the flag set has it. -/
theorem getF_seqFlags {y : Nat × Fld} (hy : y ∈ seqFlagBits) (s : State) :
    getF (seqBase c) y.2 (seqFlags c fl s) = 1 ↔ getF (seqBase c) y.2 s = 1 ∨ bitAt fl y.1 = true := by
  rw [seqFlags_eq, getF_setFlags hy _ _ fun _ hx => hx]
  by_cases hbit : bitAt fl y.1 = true <;> simp [hy, hbit]

theorem onlyWords_setFlags : ∀ (l : List (Nat × Fld)) (s : State), (∀ x ∈ l, x ∈ seqFlagBits) →
    OnlyWords (fun off => off = seqBase c + R.SEQ_FLAGS_NV.off) s (l.foldl (setFlag c fl) s)
  | [], s, _ => .refl _ s
  | x :: l, s, hl => by
    obtain ⟨hx, hl⟩ := List.forall_mem_cons.1 hl
    refine OnlyWords.trans ?_ (onlyWords_setFlags l _ hl)
    unfold setFlag
    split
    · exact (onlyWords_setF ..).mono fun off hoff => hoff.trans (by rw [(seqFlagBits_spec x hx).1])
    · exact .refl _ s

theorem onlyWords_seqFlags (c fl : Nat) (s : State) : OnlyWords (fun off => off = seqBase c + R.SEQ_FLAGS_NV.off) s (seqFlags c fl s) :=
  onlyWords_setFlags seqFlagBits s fun _ hx => hx

end

/-- Register words that change after a core has retired. -/
theorem OnlyCoreBut.of_onlyWords {touched : Nat → Prop} {c : Nat} {s t u : State} (h : OnlyCoreBut (fun _ => False) c s t) (hu : OnlyWords touched t u)
    (hmap : ∀ off, touched off → ¬ mapWord off) (hstart : ∀ off, touched off → ¬ startWord off) : OnlyCoreBut touched c s u := by
  obtain ⟨hcores, ⟨hcsr, hbegin⟩, hbytes, hrest⟩ := h
  have hmapped := hu.bytesKept hmap
  obtain ⟨m, rfl, hwords⟩ := hu
  refine ⟨hcores, ⟨fun d off hoff hnot => (hwords d off hoff).trans (hcsr d off not_false hnot), fun hb => (getPair_of_words fun d off hoff => ?_).trans (hbegin hb)⟩,
    BytesKept.trans hbytes hmapped, hrest⟩
  exact hwords d off fun ht => hstart off ht hoff

/-! ### The operations (R139) -/

section
variable {c : Fin 44} {w : BitVec 22} {s : State} (h : Ready c s) (hD : fD w < 16) (hP : fP w < 16) (hQ : fQ w < 16)
include h hD hP hQ

/-- A short-vector instruction of a legal word retires with its register and flags. -/
theorem run_shortVec {i : Instr} {op : Nat} {ok : Bool} {f : Nat → Nat → Nat → Nat × Nat} (hok : ok = true)
    (hrun : exec i s = .next (shortVec op ok f c w s)) {x : Nat × Nat}
    (hf : f (getH (getCore c s) (fD w)).toNat (getH (getCore c s) (fP w)).toNat (getH (getCore c s) (fQ w)).toNat = x) :
    exec i s = .next (seqFlags c x.2 (retireAt c ((getCore c s).pc + 4) (setH (fD w) (BitVec.ofNat 256 x.1) (getCore c s)) s)) := by
  refine hrun.trans (congrArg _ ?_)
  rw [shortVec, insn_of_ready h _ (by simp [hok, hD, hP, hQ])]
  dsimp only
  rw [hf]
  rfl

/-- A short-vector instruction whose register is built lane by lane. -/
theorem lanesDone_shortVec {i : Instr} {op : Nat} {ok : Bool} {f : Nat → Nat → Nat → Nat × Nat} (hok : ok = true)
    (hrun : exec i s = .next (shortVec op ok f c w s)) {b : Nat} {r : Nat → Nat × Nat}
    (hf : f (getH (getCore c s) (fD w)).toNat (getH (getCore c s) (fP w)).toNat (getH (getCore c s) (fQ w)).toNat = buildLanes b r (256 / b)) :
    ∃ t, Runs i s t ∧ LanesDone c w b r s t := by
  have honly := onlyWords_seqFlags c (buildLanes b r (256 / b)).2
    (retireAt c ((getCore c s).pc + 4) (setH (fD w) (BitVec.ofNat 256 (buildLanes b r (256 / b)).1) (getCore c s)) s)
  have hretired := onlyCore_retireAt (c := c) (k := setH (fD w) (BitVec.ofNat 256 (buildLanes b r (256 / b)).1) (getCore c s)) (s := s) rfl
    ((getCore c s).pc + 4)
  have hcore := (honly.getCore_eq c).trans (getCore_retireAt_same ..)
  obtain ⟨hd, hother, hg⟩ := wroteH_setH (fD w) (BitVec.ofNat 256 (buildLanes b r (256 / b)).1) (getCore c s) ((getCore c s).pc + 4) s.count
  refine ⟨_, run_shortVec h hD hP hQ hok hrun hf, OnlyCoreBut.of_onlyWords hretired honly ?_ ?_, ?_, fun j hj => ?_, ?_, ?_, fun y hy => ?_⟩
  · rintro off rfl
    exact not_mapWord_seq c.isLt (by decide)
  · rintro off rfl
    exact not_startWord_seq c.isLt (by decide)
  · rw [hcore]
    exact wentOn_of_sameRest (setH_sameRest ..) _ _
  · rw [hcore, hd, lane_ofNat hj]
    exact lane_buildLanes b r _ j hj
  · rw [hcore]
    exact hother
  · rw [hcore]
    exact hg
  · rw [getF_seqFlags hy, bitAt_buildLanes]
    refine or_congr_left (iff_of_eq (congrArg (· = 1) (getF_of_word ?_)))
    obtain ⟨m, -, hwords⟩ := retireAt_frame c ((getCore c s).pc + 4) (setH (fD w) (BitVec.ofNat 256 (buildLanes b r (256 / b)).1) (getCore c s)) s
    exact hwords _ _ fun hstart => not_startWord_seq c.isLt (by rw [(seqFlagBits_spec y hy).1]; decide) hstart.1

/-- An element-wise form. -/
theorem lanesDone_svElem {i : Instr} {op opc : Nat} (hfmt : isFpLane (fFmt w) = true) (hvar : fVar w = 0)
    (hrun : exec i s = .next (svElem op opc c w s)) :
    ∃ t, Runs i s t ∧ LanesDone c w (codeBits (fFmt w)) (fun j => elemFp opc 0 ((fmtOf (fFmt w)).getD fp64)
      (lane (getH (getCore c s) (fP w)).toNat (codeBits (fFmt w)) j) (lane (getH (getCore c s) (fQ w)).toNat (codeBits (fFmt w)) j)
      (lane (getH (getCore c s) (fD w)).toNat (codeBits (fFmt w)) j)) s t := by
  unfold svElem at hrun
  dsimp only at hrun
  refine lanesDone_shortVec h hD hP hQ ?_ hrun ?_
  · rw [hfmt, hvar]
    rfl
  · rfl

end

/-! ### The moves -/

/-- Two lanes lie apart. -/
theorem lanes_apart {b i j : Nat} (hij : j ≠ i) : b * j + b ≤ b * i ∨ b * i + b ≤ b * j := by
  rw [← Nat.mul_succ, ← Nat.mul_succ]
  rcases Nat.lt_or_gt_of_ne hij with hlt | hgt
  · exact .inl (Nat.mul_le_mul_left b hlt)
  · exact .inr (Nat.mul_le_mul_left b hgt)

section
variable {c : Fin 44} {w : BitVec 22} {s : State} (h : Ready c s) (hcode : fFmt w ≤ 10) (hQ : fQ w < 16)
include h hcode hQ

theorem retiresH_svbcast (hD : fD w < 16) (hvar : fVar w = 0) :
    RetiresH (.svbcast c w) c (fD w) (BitVec.ofNat 256 ((buildLanes (codeBits (fFmt w)) (fun _ => ((getG (getCore c s) (fP w)).toNat, 0))
      (256 / codeBits (fFmt w))).1 + laneRest (codeBits (fFmt w)) w.toNat)) ((getCore c s).pc + 4) s :=
  retiresH_of_run (congrArg _ (insn_of_ready h _ (by simp [laneOk, hcode, hvar, hD, hQ]) _))

theorem retiresH_svins (hD : fD w < 16) (hfit : codeBits (fFmt w) * (fVar w + 1) ≤ 256) :
    RetiresH (.svins c w) c (fD w) (BitVec.ofNat 256 (putBits (getH (getCore c s) (fD w)).toNat (codeBits (fFmt w) * fVar w) (codeBits (fFmt w))
      (getG (getCore c s) (fP w)).toNat)) ((getCore c s).pc + 4) s :=
  retiresH_of_run (congrArg _ (insn_of_ready h _ (by simp [laneOk, hcode, hfit, hD, hQ]) _))

theorem retiresG_svext (hP : fP w < 16) (hfit : codeBits (fFmt w) * (fVar w + 1) ≤ 256) :
    RetiresG (.svext c w) c (fD w) (BitVec.ofNat 64 (lane (getH (getCore c s) (fP w)).toNat (codeBits (fFmt w)) (fVar w))) ((getCore c s).pc + 4) s :=
  retiresG_of_run (congrArg _ ((insn_of_ready h _ (by simp [laneOk, hcode, hfit, hP, hQ]) _).trans (retire_setG ..)))

theorem retiresH_svmv (hD : fD w < 16) (hP : fP w < 16) (hvar : fVar w = 0) :
    RetiresH (.svmv c w) c (fD w) (getH (getCore c s) (fP w)) ((getCore c s).pc + 4) s := by
  have hrun := run_shortVec h hD hP hQ (i := .svmv c w) (op := 14) (ok := laneOk (fFmt w) && fVar w = 0) (by simp [laneOk, hcode, hvar]) rfl rfl
  rw [BitVec.ofNat_toNat, BitVec.setWidth_eq, seqFlags_zero] at hrun
  exact retiresH_of_run hrun

end

theorem shortVectorMovesHold : ShortVectorMovesHold := by
  intro c w s h hcode hQ k b i
  refine ⟨fun hD hvar => ⟨_, retiresH_svbcast h hcode hQ hD hvar, fun j hj => ?_⟩, fun hD hfit => ⟨_, retiresH_svins h hcode hQ hD hfit, ?_, fun j hj hne => ?_⟩,
    fun hP hfit => retiresG_svext h hcode hQ hP hfit, fun hD hP hvar => retiresH_svmv h hcode hQ hD hP hvar⟩
  · exact (lane_ofNat hj _).trans ((lane_add_laneRest hj _ _).trans (lane_buildLanes b _ _ j hj))
  · exact (bitsAt_toNat_ofNat _ ((Nat.mul_succ b i).symm.trans_le hfit)).trans (bitsAt_putBits ..)
  · exact (lane_ofNat hj _).trans (bitsAt_putBits_outside _ _ (lanes_apart hne))

/-! ### The formats of the operations (R139) -/

theorem isFpLane_of_mem {n : Nat} (h : n ∈ [6, 7, 8, 9]) : isFpLane n = true := by
  simpa [isFpLane, or_assoc] using h

section
variable {w : BitVec 22}

theorem legal_svcvt (h : fFmt w ∈ laneCounts.map (·.1)) (hvar : fVar w = 0) : ((vxLanes (fFmt w)).isSome && decide (fVar w = 0)) = true := by
  obtain ⟨x, hx, hcode⟩ := List.mem_map.1 h
  obtain ⟨n, hn, -⟩ := vxLanes_of_mem_laneCounts x hx
  rw [← hcode, hn, hvar]
  rfl

theorem legal_svwmul (h : fFmt w ∈ [5, 6, 7, 8, 10]) (hvar : fVar w < 2) :
    (((fFmt w = 5 || fFmt w = 10 || fFmt w = 6 || fFmt w = 7 || fFmt w = 8) && decide (fVar w < 2)) || false) = true := by
  simp only [List.mem_cons, List.not_mem_nil, or_false] at h
  rcases h with h | h | h | h | h <;> simp [h, hvar]

theorem legal_svdot2 (h : fFmt w ∈ [6, 7]) (hvar : fVar w = 0) : ((fFmt w = 6 || fFmt w = 7) && decide (fVar w = 0)) = true := by
  simpa [hvar] using h

theorem isInt16_eq_false (h : fFmt w ∈ [5, 6, 7, 8, 10]) : isInt16 w = false := by
  simp only [List.mem_cons, List.not_mem_nil, or_false] at h
  rcases h with h | h | h | h | h <;> simp [isInt16, h]

theorem isInt16_eq_true (h : fFmt w ∉ [5, 6, 7, 8, 10]) (hvar : fVar w < 2) (hfree : Config.freeResult 100 (fFmt w) % 2 = 1) : isInt16 w = true := by
  simp only [List.mem_cons, List.not_mem_nil, or_false, not_or] at h
  simp [isInt16, h, hvar, hfree]

end

/-- Settles O14: each operation builds its register lane by lane from the lanes of its sources and gathers their flags. -/
theorem shortVectorResultsAndMoves : Obligations.ShortVectorResultsAndMoves := by
  refine ⟨shortVectorMovesHold, fun c w s h hD hP hQ => ?_⟩
  intro d p q fmt var b elem src sb f16
  refine ⟨fun hfmt hvar => ?_, fun hfmt hvar => ?_, fun hfmt hvar => ?_, fun hfmt hvar hfree => ?_, fun hfmt hvar => ?_, fun hfmt hvar => ?_,
    fun hfmt hvar => ?_⟩
  · have hlane := isFpLane_of_mem hfmt
    exact ⟨lanesDone_svElem h hD hP hQ hlane hvar rfl, lanesDone_svElem h hD hP hQ hlane hvar rfl, lanesDone_svElem h hD hP hQ hlane hvar rfl,
      lanesDone_svElem h hD hP hQ hlane hvar rfl, lanesDone_svElem h hD hP hQ hlane hvar rfl, lanesDone_svElem h hD hP hQ hlane hvar rfl⟩
  · have hrun : exec (.svcvt c w) s = execSvcvt c w s := rfl
    unfold execSvcvt at hrun
    exact lanesDone_shortVec h hD hP hQ (legal_svcvt hfmt hvar) hrun rfl
  · have hrun : exec (.svwmul c w) s = execSvwmul c w s := rfl
    unfold execSvwmul at hrun
    dsimp only at hrun
    rw [isInt16_eq_false hfmt, Nat.mod_eq_of_lt (show fVar w < 2 from hvar)] at hrun
    exact lanesDone_shortVec h hD hP hQ (legal_svwmul hfmt hvar) hrun rfl
  · have hrun : exec (.svwmul c w) s = execSvwmul c w s := rfl
    unfold execSvwmul at hrun
    dsimp only at hrun
    rw [Nat.mod_eq_of_lt (show fVar w < 2 from hvar)] at hrun
    simp only [isInt16_eq_true hfmt hvar hfree, if_true] at hrun
    exact lanesDone_shortVec h hD hP hQ (Bool.or_true _) hrun rfl
  · have hrun : exec (.svdot4 c w) s = execSvdot4 c w s := rfl
    unfold execSvdot4 at hrun
    exact lanesDone_shortVec h hD hP hQ (Bool.and_eq_true_iff.2 ⟨decide_eq_true hfmt, decide_eq_true hvar⟩) hrun rfl
  · have hrun : exec (.svdot2 c w) s = execSvdot2 c w s := rfl
    unfold execSvdot2 at hrun
    exact lanesDone_shortVec h hD hP hQ (legal_svdot2 hfmt hvar) hrun rfl
  · have hrun : exec (.svwdot2 c w) s = execSvwdot2 c w s := rfl
    unfold execSvwdot2 at hrun
    exact lanesDone_shortVec h hD hP hQ (Bool.and_eq_true_iff.2 ⟨decide_eq_true hfmt, decide_eq_true hvar⟩) hrun rfl

end Sys2Proof.Machine
end

section
/-! PROOFS. The Porter's forms: the lines of a row, the run on clean data as a list of rows written into the own cluster, which rows each form writes, and the
statement about them (R186, R187, R189, R191, R194). -/

namespace Sys2Proof.Machine

open Sys2Proof.Claims

/-! ### The lines of a range -/

/-- The first line of a range, and the lines of the rest. -/
theorem rangeLines_cons {a n : Nat} (h : n ≠ 0) :
    rangeLines a n = (a - a % 128) :: rangeLines (a + min n (128 - a % 128)) (n - min n (128 - a % 128)) := by
  by_cases hone : a % 128 + n ≤ 128
  · have hcount : (a % 128 + n + 127) / 128 = 1 := by omega
    have hrest : n - min n (128 - a % 128) = 0 := by omega
    simp [rangeLines, h, hcount, hrest]
  · have hcount : (a % 128 + n + 127) / 128 = (n - (128 - a % 128) + 127) / 128 + 1 := by omega
    have hmin : min n (128 - a % 128) = 128 - a % 128 := by omega
    have hline : (a + (128 - a % 128)) % 128 = 0 := by omega
    have hleft : n - (128 - a % 128) ≠ 0 := by omega
    rw [hmin, rangeLines, if_neg h, rangeLines, if_neg hleft, hcount, hline, List.range_succ_eq_map, List.map_cons, List.map_map, Nat.zero_add]
    refine congrArg₂ List.cons (by omega) (List.map_congr_left fun i _ => ?_)
    simp only [Function.comp_apply]
    omega

/-- A line of a part of a range is a line of the range. -/
theorem rangeLines_part {a n b m l : Nat} (h : b + m ≤ n) (hl : l ∈ rangeLines (a + b) m) : l ∈ rangeLines a n := by
  by_cases hm : m = 0
  · simp [rangeLines, hm] at hl
  rw [rangeLines, if_neg hm] at hl
  obtain ⟨i, hi, rfl⟩ := List.mem_map.1 hl
  rw [List.mem_range] at hi
  rw [rangeLines, if_neg (by omega)]
  exact List.mem_map.2 ⟨(a + b) / 128 - a / 128 + i, List.mem_range.2 (by omega), by omega⟩

/-- A part of a clean source is clean. -/
theorem badGlobal_part {k a n b m : Nat} {ranges : List (Nat × Nat)} {s : State} (h : SourcesHere k ranges s) (ha : (a, n) ∈ ranges) (hb : b + m ≤ n) :
    badGlobal k [] (a + b) m s = false := by
  obtain ⟨-, -, hpoison, -⟩ := h
  rw [badGlobal, List.any_nil, Bool.false_or, List.any_eq_false]
  exact fun l hl => by rw [hpoison _ ha l (rangeLines_part hb hl)]; exact Bool.false_ne_true

/-- Two lists of clean sources together are clean. -/
theorem badAddrs_append_clean {k : Nat} {l m : List (Nat × Nat)} {s : State} (hl : SourcesHere k l s) (hm : SourcesHere k m s) :
    badAddrs k [] (l ++ m) s = [] := by
  obtain ⟨-, -, hpl, -⟩ := hl
  obtain ⟨-, -, hpm, -⟩ := hm
  have hlines : ((l ++ m).flatMap fun r => rangeLines r.1 r.2).filter (fun x => engPoison k x s) = [] := by
    refine List.filter_eq_nil_iff.2 fun x hx => ?_
    obtain ⟨r, hr, hxr⟩ := List.mem_flatMap.1 hx
    rcases List.mem_append.1 hr with hr | hr
    · rw [hpl r hr x hxr]; exact Bool.false_ne_true
    · rw [hpm r hr x hxr]; exact Bool.false_ne_true
  rw [badAddrs, hlines]
  rfl

/-! ### One destination row, line by line (R189) -/

/-- The piece in the first line, and the pieces of the rest. -/
theorem linePieces_cons {a n : Nat} (h : n ≠ 0) : linePieces a n = (0, min n (128 - a % 128)) ::
    (linePieces (a + min n (128 - a % 128)) (n - min n (128 - a % 128))).map fun c => (min n (128 - a % 128) + c.1, c.2) := by
  rw [linePieces, rangeLines_cons h, List.map_cons, linePieces, List.map_map]
  refine congrArg₂ List.cons (Prod.ext ?_ ?_) (List.map_congr_left fun l hl => Prod.ext ?_ ?_)
  · change max a (a - a % 128) - a = 0
    omega
  · change min (a + n) (a - a % 128 + 128) - max a (a - a % 128) = _
    omega
  all_goals
    rw [rangeLines] at hl
    split at hl
    · cases hl
    obtain ⟨i, hi, rfl⟩ := List.mem_map.1 hl
    simp only [Function.comp_apply]
    omega

theorem linePieces_within {a n : Nat} {c : Nat × Nat} (h : c ∈ linePieces a n) : c.1 < n ∧ c.1 + c.2 ≤ n ∧ 0 < c.2 ∧ (a + c.1) % 128 + c.2 ≤ 128 := by
  obtain ⟨l, hl, rfl⟩ := List.mem_map.1 h
  rw [rangeLines] at hl
  split at hl
  · cases hl
  obtain ⟨i, hi, rfl⟩ := List.mem_map.1 hl
  rw [List.mem_range] at hi
  dsimp only
  omega

/-- A write inside one line. -/
theorem engWrite_line {k a n : Nat} (v : Nat) (s : State) (h0 : 0 < n) (hn : a % 128 + n ≤ 128) :
    engWrite k a n v s = engPut k a n (v % 2 ^ (8 * n)) false s := by
  have hmin : min n (128 - a % 128) = n := by omega
  rw [engWrite, engWriteGo, if_neg (by omega)]
  dsimp only
  rw [hmin, Nat.sub_self, engWriteGo_none]

/-- One piece of a row, as part of its value. -/
def putPiece (k a v : Nat) (s : State) (c : Nat × Nat) : State := engWrite k (a + c.1) c.2 (bitsAt v (8 * c.1) (8 * c.2)) s

/-- Writing a value line by line is writing the pieces of its lines. -/
theorem foldl_putPiece (k : Nat) : ∀ (fuel a n v : Nat) (s : State), n = 0 ∨ a % 128 + n ≤ 128 * fuel →
    (linePieces a n).foldl (putPiece k a v) s = engWriteGo k false fuel a n v s
  | 0, a, n, v, s, h => by
    obtain rfl : n = 0 := by omega
    rfl
  | fuel + 1, a, n, v, s, h => by
    rw [engWriteGo]
    by_cases hn : n = 0
    · subst hn
      rfl
    rw [if_neg hn, linePieces_cons hn]
    dsimp only
    generalize hm : min n (128 - a % 128) = m
    have hfirst : putPiece k a v s (0, m) = engPut k a m (v % 2 ^ (8 * m)) false s := by
      rw [putPiece, engWrite_line _ _ (by omega) (by dsimp only; omega), Nat.add_zero, bitsAt, Nat.mul_zero, Nat.shiftRight_zero, Nat.mod_mod]
    have hrest : ∀ t c, putPiece k a v t (m + c.1, c.2) = putPiece k (a + m) (v / 2 ^ (8 * m)) t c := by
      intro t c
      have hbits : bitsAt v (8 * (m + c.1)) (8 * c.2) = bitsAt (v / 2 ^ (8 * m)) (8 * c.1) (8 * c.2) := by
        rw [bitsAt, bitsAt, Nat.shiftRight_eq_div_pow, Nat.shiftRight_eq_div_pow, Nat.mul_add, Nat.pow_add, Nat.div_div_eq_div_mul]
      simp only [putPiece, hbits, Nat.add_assoc]
    rw [List.foldl_cons, List.foldl_map, hfirst]
    simp only [hrest]
    exact foldl_putPiece k fuel (a + m) (n - m) _ _ (by omega)

theorem destsInTiles_piece {cl a n : Nat} {s : State} (h : DestsInTiles cl [(a, n)] s) {c : Nat × Nat} (hc : c ∈ linePieces a n) :
    DestsInTiles cl [(a + c.1, c.2)] s := by
  obtain ⟨hstart, hfit, -⟩ := linePieces_within hc
  obtain ⟨hlocal, q, o, hqo, hcl, hroom⟩ := h.1 _ (List.mem_singleton_self _)
  dsimp only at hlocal hqo hroom
  obtain ⟨hpkg, hoff⟩ := div_add_of_tile hqo (m := c.1) (by omega)
  refine ⟨fun r hr => ?_, List.pairwise_singleton ..⟩
  obtain rfl := List.mem_singleton.1 hr
  refine ⟨?_, q, o + c.1, ?_, hcl, by dsimp only; omega⟩
  · rwa [isLocal, hpkg, ← isLocal]
  · rw [hoff]
    exact target_tile_add hqo (by omega)

section
variable {k cl : Nat} (hk : porterCluster k = some cl) {x : PorD} {s0 : State} {r : PorRow}
  (hclean : ∀ b m, b + m ≤ x.dstB → porSegBad k x [] r b m s0 = false)
include hk hclean

/-- Pieces of clean data for the own cluster are plain writes: no line of another package is noted, none is marked. -/
theorem foldl_porPiece {a : Nat} : ∀ (l : List (Nat × Nat)) (s : State), isLocal a s = true → (∀ c ∈ l, DestsInTiles cl [(a + c.1, c.2)] s) →
    (∀ c ∈ l, c.1 + c.2 ≤ x.dstB) →
    l.foldl (fun s c =>
      let s := if isLocal a s then s else porNote k (lineKey (a + c.1)) (r.rowAt x c.1) s
      engWriteBad k (porSegBad k x [] r c.1 c.2 s0) (a + c.1) c.2 (bitsAt r.data (8 * c.1) (8 * c.2)) s) s = l.foldl (putPiece k a r.data) s
  | [], _, _, _, _ => rfl
  | c :: l, s, hlocal, hdests, hfit => by
    have hone : TilesBecome _ s (putPiece k a r.data s c) :=
      engWrite_own hk (w := (a + c.1, c.2, bitsAt r.data (8 * c.1) (8 * c.2))) (hdests c (List.mem_cons_self ..))
    have hlocal' : isLocal a (putPiece k a r.data s c) = true := by
      obtain ⟨ps, hframe, -⟩ := hone
      rw [hframe]
      exact hlocal
    rw [List.foldl_cons, List.foldl_cons, hclean _ _ (hfit c (List.mem_cons_self ..))]
    dsimp only
    rw [if_pos hlocal]
    exact foldl_porPiece l _ hlocal' (fun d hd => hone.dests (hdests d (List.mem_cons_of_mem _ hd))) fun d hd => hfit d (List.mem_cons_of_mem _ hd)

/-- A row of clean data for the own cluster is one write. -/
theorem porWriteRow_eq_engWrite {a : Nat} {s : State} (ha : r.dst = some a) (hd : DestsInTiles cl [(a, x.dstB)] s) :
    porWriteRow k x [] s0 s r = engWrite k a x.dstB r.data s := by
  obtain ⟨hlocal, -⟩ := hd.1 _ (List.mem_singleton_self _)
  have hfit : ∀ c ∈ linePieces a x.dstB, c.1 + c.2 ≤ x.dstB := fun c hc => by
    obtain ⟨-, hfit, -⟩ := linePieces_within hc
    exact hfit
  rw [porWriteRow, ha]
  exact (foldl_porPiece hk hclean _ s hlocal (fun c hc => destsInTiles_piece hd hc) hfit).trans (foldl_putPiece k _ a x.dstB r.data s (by omega))

end

/-! ### The run on clean data -/

/-- What the rows write. -/
def porWrites (x : PorD) (rows : List PorRow) : List (Nat × Nat × Nat) := rows.filterMap fun r => r.dst.map fun a => (a, x.dstB, r.data)

/-- Rows of clean data that lie apart in the own cluster are a list of writes. -/
theorem foldl_porWriteRow {k cl : Nat} (hk : porterCluster k = some cl) {x : PorD} {s0 : State} : ∀ (rows : List PorRow) (s : State),
    DestsInTiles cl ((porWrites x rows).map writeRange) s → (∀ r ∈ rows, ∀ b m, b + m ≤ x.dstB → porSegBad k x [] r b m s0 = false) →
    rows.foldl (porWriteRow k x [] s0) s = engWrites k (porWrites x rows) s
  | [], _, _, _ => rfl
  | r :: rows, s, hdests, hclean => by
    have hrest : ∀ q ∈ rows, ∀ b m, b + m ≤ x.dstB → porSegBad k x [] q b m s0 = false := fun q hq => hclean q (List.mem_cons_of_mem _ hq)
    cases hr : r.dst with
    | none =>
      have hskip : porWriteRow k x [] s0 s r = s := by rw [porWriteRow, hr]
      have hws : porWrites x (r :: rows) = porWrites x rows := by simp [porWrites, hr]
      rw [List.foldl_cons, hskip, hws]
      exact foldl_porWriteRow hk rows s (hws ▸ hdests) hrest
    | some a =>
      have hws : porWrites x (r :: rows) = (a, x.dstB, r.data) :: porWrites x rows := by simp [porWrites, hr]
      rw [hws, List.map_cons] at hdests
      obtain ⟨hhead, htail, -⟩ := destsInTiles_cons hdests
      rw [List.foldl_cons, porWriteRow_eq_engWrite hk (hclean r (List.mem_cons_self ..)) hr hhead, hws]
      exact foldl_porWriteRow hk rows _ ((engWrite_own hk hhead).dests htail) hrest

/-- With every source at hand the engine runs on the state as it is, with normal or latency-critical reads. -/
theorem withSourcesLat_here {k : Nat} {ranges : List (Nat × Nat)} {s : State} (lat : Bool) (h : SourcesHere k ranges s) (body : State → State) :
    withSourcesLat lat k ranges body s = body s := by
  have hnormal := withSources_here h body
  obtain ⟨hheld, hmissing, -⟩ := h
  rw [withSources, withSourcesLat, hheld] at hnormal
  rw [withSourcesLat, hheld]
  dsimp only at hnormal ⊢
  rw [hmissing] at hnormal ⊢
  exact hnormal

/-- Without a dead target no poison line of one is counted. -/
theorem porDeadCount_nil (x : PorD) (idx rows : List (Nat × Nat)) : porDeadCount x [] idx rows = 0 := by
  simp [porDeadCount]

theorem kPor_porterCluster (cl : Fin 36) : porterCluster (kPor cl) = some cl.val := by
  have hcl := cl.isLt
  rw [porterCluster, kPor, if_pos (by omega), Option.some_inj]
  omega

/-- Only the Porter's own digest may differ besides what execution notes. -/
theorem executed_of_digest {k d : Nat} {e y : EngIns} {s t : State} (h : Executed k { e with digest := d } y s t) : Executed k e y s t := by
  obtain ⟨hqueue, hphase, hrest, hothers, hcores⟩ := h
  have hrest' := congrArg (fun z : EngIns => { z with digest := e.digest }) hrest
  exact ⟨hqueue, hphase, hrest', hothers, hcores⟩

section
variable {cl : Fin 36} {corrected : Nat} {s : State} {e : EngIns} (he : engHead (kPor cl) s = some e) (hphase : e.phase = 0)
  (hbmp : PorD.bmpEn ⟨e.desc⟩ = false) (hdead : (getEng (kPor cl) s).rxDead = []) (hidx : SourcesHere (kPor cl) (PorD.idxRange ⟨e.desc⟩) s)
  (hreads : SourcesHere (kPor cl) ((porReads (kPor cl) ⟨e.desc⟩ [] s).map (·.1)) s)
include he hphase hbmp hdead hidx hreads

/-- The run of a Porter with every source at hand, no bad data and no bitmap: its rows, counts in registers, and the instruction put back. -/
theorem porRun_clean {op : Nat} (hop : PorD.op ⟨e.desc⟩ = op) :
    let x : PorD := ⟨e.desc⟩
    let rows := porRows (kPor cl) x [] s
    ∃ first crc u, RegsOnly (rows.foldl (porWriteRow (kPor cl) x [] s) s) u ∧
      porRun op cl ⟨corrected, []⟩ s = setHead (kPor cl) { e with
        phase := 1, value := (rows.filter (·.dst.isSome)).length * x.dstB, count := (rows.filter (·.outIdx)).length, first := first, ue := false,
        digest := crc } (engFlush (kPor cl) u) := by
  intro x rows
  have hguard : ¬ (e.phase ≠ 0 ∨ PorD.op ⟨e.desc⟩ ≠ op) := by simp [hphase, hop]
  have hnodead : ∀ ranges : List (Nat × Nat), ((ranges.flatMap fun r => rangeLines r.1 r.2).filter
      fun l => ([] : List Nat).contains (lineKey l)).dedup = [] := fun ranges => by simp
  refine ⟨?_, ?_, ?_, ?hregs, ?hrun⟩
  case hrun =>
    rw [porRun, he]
    dsimp only
    rw [if_neg hguard, withSourcesLat_here _ hidx, withSourcesLat_here _ hreads, badAddrs_append_clean hidx hreads, hdead, hnodead, hbmp,
      porDeadCount_nil, if_neg Bool.false_ne_true, engUe, List.isEmpty_nil, if_pos rfl, Bool.not_true, Nat.zero_add]
  case hregs => exact .ite ((((RegsOnly.refl _).bumpF ..).addPair ..).addPair ..) (((((RegsOnly.refl _).bumpF ..).addPair ..).addPair ..).addPair ..)

/-- A Porter that writes its rows into its own cluster has executed: it has written those rows alone, and they hold their data. -/
theorem porRun_writes {op : Nat} {i : Instr} (hi : exec i s = .next (porRun op cl ⟨corrected, []⟩ s)) (hop : PorD.op ⟨e.desc⟩ = op)
    (hclean : ∀ r ∈ porRows (kPor cl) ⟨e.desc⟩ [] s, ∀ b m, b + m ≤ PorD.dstB ⟨e.desc⟩ → porSegBad (kPor cl) ⟨e.desc⟩ [] r b m s = false)
    {dests : List (Nat × Nat)} (hranges : (porWrites ⟨e.desc⟩ (porRows (kPor cl) ⟨e.desc⟩ [] s)).map writeRange = dests) (hdests : DestsInTiles cl dests s) :
    let x : PorD := ⟨e.desc⟩
    let rows := porRows (kPor cl) x [] s
    ∃ t y, Runs i s t ∧ Executed (kPor cl) e y s t ∧ OnlyTilesWritten dests s t ∧
      y.value = (rows.filter (·.dst.isSome)).length * x.dstB ∧ y.count = (rows.filter (·.outIdx)).length ∧
      ∀ w ∈ porWrites x rows, HoldsInTile w.1 w.2.1 w.2.2 t := by
  intro x rows
  subst hranges
  obtain ⟨first, crc, u, hu, hrun⟩ := porRun_clean (corrected := corrected) he hphase hbmp hdead hidx hreads hop
  rw [foldl_porWriteRow (kPor_porterCluster cl) _ s hdests hclean] at hu
  have ⟨_, _, _, _, htx⟩ := hreads
  have hy : OutcomeOnly { ({ e with digest := crc } : EngIns) with first := first, ue := false }
      { e with value := (rows.filter (·.dst.isSome)).length * x.dstB, count := (rows.filter (·.outIdx)).length, first := first, ue := false, digest := crc } :=
    ⟨_, _, _, _, rfl⟩
  obtain ⟨hexecuted, honly, hholds⟩ := executed_engWrites (kPor_porterCluster cl) hdests (fun r hr => hr) htx hy hu
  exact ⟨_, _, hi.trans (congrArg _ hrun), executed_of_digest hexecuted, honly, rfl, rfl, hholds⟩

end

/-! ### The rows of each form (R186, R187) -/

section
variable {k : Nat} {x : PorD} {bad : List Nat} {s : State}

/-- A row of a copy. -/
def copyRow (k : Nat) (x : PorD) (s : State) (p r : Nat) : PorRow :=
  ⟨some (x.dstRow p r), engRead k (x.srcRow p r) x.rowB s, [(x.srcRow p r, x.rowB)], p * x.e1 + r, false⟩

/-- A row of a gather, after its index entry. -/
def gatherRow (k : Nat) (x : PorD) (s : State) (r : Nat) : PorIdx → PorRow
  | .row i => ⟨some (x.dstRow 0 r), engRead k (x.srcRow 0 i) x.rowB s, [(x.srcRow 0 i, x.rowB)], r, false⟩
  | .pad => ⟨some (x.dstRow 0 r), 0, [], r, false⟩
  | .out => ⟨some (x.dstRow 0 r), 0, [], r, true⟩

/-- A row of a scatter, after its index entry. -/
def scatterRow (k : Nat) (x : PorD) (s : State) (r : Nat) : PorIdx → PorRow
  | .row i => ⟨some (x.dstRow 0 i), engRead k (x.srcRow 0 r) x.rowB s, [(x.srcRow 0 r, x.rowB)], r, false⟩
  | .pad => ⟨none, 0, [], r, false⟩
  | .out => ⟨none, 0, [], r, true⟩

/-- Where element `j` of source row `i` lies. -/
def elemAt (x : PorD) (j i : Nat) : Nat × Nat := (at64 (x.srcRow 0 i) (j * (x.w / 8) : Nat), x.w / 8)

/-- A row of a transposition. -/
def transposedRow (k : Nat) (x : PorD) (s : State) (j : Nat) : PorRow :=
  ⟨some (x.dstRow 0 j), packBits x.w ((List.range x.e1).map fun i => engRead k (elemAt x j i).1 (elemAt x j i).2 s), (List.range x.e1).map (elemAt x j), 0, false⟩

/-- A row of a fill. -/
def fillRow (x : PorD) (p r : Nat) : PorRow := ⟨some (x.dstRow p r), packBits x.w (List.replicate x.e0 x.fill), [], p * x.e1 + r, false⟩

theorem porRows_copy (h : x.op = 0) : porRows k x bad s = (List.range x.e2).flatMap fun p => (List.range x.e1).map (copyRow k x s p) := by
  rw [porRows, h]
  rfl

theorem porRows_gather (h : x.op = 1) :
    porRows k x bad s = (List.range x.e1).map fun r => gatherRow k x s r (porIdx k x bad (x.rowsOf 1) s r) := by
  rw [porRows, h]
  refine List.map_congr_left fun r _ => ?_
  cases porIdx k x bad (x.rowsOf 1) s r <;> rfl

theorem porRows_scatter (h : x.op = 2) :
    porRows k x bad s = (List.range x.e1).map fun r => scatterRow k x s r (porIdx k x bad (x.rowsOf 3) s r) := by
  rw [porRows, h]
  refine List.map_congr_left fun r _ => ?_
  cases porIdx k x bad (x.rowsOf 3) s r <;> rfl

theorem porRows_transpose (h : x.op = 3) : porRows k x bad s = (List.range x.e0).map (transposedRow k x s) := by
  rw [porRows, h]
  rfl

theorem porRows_fill (h : x.op = 4) : porRows k x bad s = (List.range x.e2).flatMap fun p => (List.range x.e1).map (fillRow x p) := by
  rw [porRows, h]
  rfl

/-! ### Clean rows -/

/-- Beside transpositions, what a row is read from is a whole source row. -/
theorem length_of_mem_srcs (hop : x.op ≠ 3) {r : PorRow} (hr : r ∈ porRows k x bad s) {q : Nat × Nat} (hq : q ∈ r.srcs) : q.2 = x.rowB := by
  have hmem : ∀ a, (q ∈ ([(a, x.rowB)] : List (Nat × Nat))) → q.2 = x.rowB := fun a h => by rw [List.mem_singleton.1 h]
  unfold porRows at hr
  dsimp only at hr
  split at hr
  case h_1 =>
    obtain ⟨p, -, hr⟩ := List.mem_flatMap.1 hr
    obtain ⟨i, -, rfl⟩ := List.mem_map.1 hr
    exact hmem _ hq
  case h_2 | h_3 =>
    obtain ⟨i, -, rfl⟩ := List.mem_map.1 hr
    split at hq
    · exact hmem _ hq
    · cases hq
    · cases hq
  case h_4 => contradiction
  case h_5 =>
    obtain ⟨p, -, hr⟩ := List.mem_flatMap.1 hr
    obtain ⟨i, -, rfl⟩ := List.mem_map.1 hr
    cases hq

/-- Rows that are each read from whole source rows are clean where these are. -/
theorem porSegBad_clean (hop : x.op ≠ 3) (hreads : SourcesHere k ((porReads k x [] s).map (·.1)) s) :
    ∀ r ∈ porRows k x [] s, ∀ b m, b + m ≤ x.dstB → porSegBad k x [] r b m s = false := by
  intro r hr b m hb
  rw [PorD.dstB, if_neg hop] at hb
  rw [porSegBad, if_neg hop, List.any_eq_false]
  intro q hq
  have hread : (q, r.row) ∈ porReads k x [] s := by
    rw [porReads, if_neg hop]
    exact List.mem_flatMap.2 ⟨r, hr, List.mem_map_of_mem hq⟩
  have hsrc : (q.1, q.2) ∈ (porReads k x [] s).map (·.1) := List.mem_map_of_mem hread
  rw [badGlobal_part hreads hsrc (by rwa [length_of_mem_srcs hop hr hq])]
  exact Bool.false_ne_true

/-- Elements of clean source rows that do not wrap around the address space are clean. -/
theorem porSegBad_transpose (hop : x.op = 3) (hw : x.w % 8 = 0) (hpos : 0 < x.w) (hreads : SourcesHere k ((porReads k x [] s).map (·.1)) s)
    (hfit : ∀ i, i < x.e1 → x.srcRow 0 i + x.rowB ≤ 2 ^ 64) :
    ∀ r ∈ porRows k x [] s, ∀ b m, b + m ≤ x.dstB → porSegBad k x [] r b m s = false := by
  intro r hr b m _
  rw [porRows_transpose hop] at hr
  obtain ⟨j, hj, rfl⟩ := List.mem_map.1 hr
  rw [porSegBad, if_pos hop, List.any_eq_false]
  intro q hq
  obtain ⟨i, hi, rfl⟩ := List.mem_map.1 (List.mem_of_mem_drop (List.mem_of_mem_take hq))
  rw [List.mem_range] at hi hj
  have hrow : x.rowB = x.e0 * (x.w / 8) := by
    rw [PorD.rowB, ← Nat.mul_div_cancel' (Nat.dvd_of_mod_eq_zero hw), Nat.mul_left_comm, Nat.mul_div_cancel_left _ (by decide : 0 < 8)]
    omega
  have hinside : j * (x.w / 8) + x.w / 8 ≤ x.rowB := by
    rw [hrow, ← Nat.succ_mul]
    exact Nat.mul_le_mul_right _ hj
  have haddr : at64 (x.srcRow 0 i) (j * (x.w / 8) : Nat) = x.srcRow 0 i + j * (x.w / 8) := by
    have := hfit i hi
    rw [at64, wrap, ← Int.natCast_add, ← Int.natCast_mod, Int.toNat_natCast, Nat.mod_eq_of_lt (by omega)]
  have hsrc : (x.srcRow 0 i, x.rowB) ∈ (porReads k x [] s).map (·.1) := by
    rw [porReads, if_pos hop]
    exact List.mem_map.2 ⟨_, List.mem_map_of_mem (List.mem_range.2 hi), rfl⟩
  rw [elemAt, haddr, badGlobal_part hreads hsrc hinside]
  exact Bool.false_ne_true

/-! ### Where the forms write -/

theorem map_writeRange_porWrites (x : PorD) (rows : List PorRow) :
    (porWrites x rows).map writeRange = rows.filterMap fun r => r.dst.map fun a => (a, x.dstB) := by
  rw [porWrites, List.map_filterMap]
  refine List.filterMap_congr fun r _ => ?_
  cases r.dst <;> rfl

theorem copy_ranges (h : x.op = 0) : (porWrites x (porRows k x bad s)).map writeRange = x.dstRanges := by
  simp [map_writeRange_porWrites, porRows_copy h, PorD.dstRanges, PorD.dstRows, h, copyRow, List.filterMap_flatMap, List.filterMap_map, Function.comp_def]

theorem gatherRow_dst (k : Nat) (x : PorD) (s : State) (r : Nat) (i : PorIdx) : (gatherRow k x s r i).dst = some (x.dstRow 0 r) := by
  cases i <;> rfl

theorem gather_ranges (h : x.op = 1) : (porWrites x (porRows k x bad s)).map writeRange = x.dstRanges := by
  simp [map_writeRange_porWrites, porRows_gather h, PorD.dstRanges, PorD.dstRows, h, gatherRow_dst, List.filterMap_map]

theorem transpose_ranges (h : x.op = 3) : (porWrites x (porRows k x bad s)).map writeRange = x.dstRanges := by
  simp [map_writeRange_porWrites, porRows_transpose h, PorD.dstRanges, PorD.dstRows, h, transposedRow, List.filterMap_map, Function.comp_def]

theorem fill_ranges (h : x.op = 4) : (porWrites x (porRows k x bad s)).map writeRange = x.dstRanges := by
  simp [map_writeRange_porWrites, porRows_fill h, PorD.dstRanges, PorD.dstRows, h, fillRow, List.filterMap_flatMap, List.filterMap_map, Function.comp_def]

/-- What a row with a destination writes. -/
theorem mem_porWrites {rows : List PorRow} {r : PorRow} {a n : Nat} (hn : x.dstB = n) (hr : r ∈ rows) (ha : r.dst = some a) :
    (a, n, r.data) ∈ porWrites x rows := List.mem_filterMap.2 ⟨r, hr, by rw [ha, ← hn]; rfl⟩

end

/-! ### Parts of a row in tile SRAM -/

/-- A part of a number read from memory is the number at the part's address. -/
theorem bitsAt_memReadN_part (bg : Nat → Byte) (m : Mem) {a n i k : Nat} (h : i + k ≤ n) :
    bitsAt (memReadN bg m a n) (8 * i) (8 * k) = memReadN bg m (a + i) k := by
  have hbytes : ∀ j, j < k → memRead bg m (a + i + j) = BitVec.ofNat 8 (memReadN bg m a n / 256 ^ i / 256 ^ j) := fun j hj => by
    apply BitVec.eq_of_toNat_eq
    rw [BitVec.toNat_ofNat, Nat.div_div_eq_div_mul, ← Nat.pow_add, ← bitsAt_byte, bitsAt_memReadN _ _ _ _ _ (by omega), Nat.add_assoc]
  rw [memReadN_eq_mod bg m k _ (a + i) hbytes, bitsAt, Nat.shiftRight_eq_div_pow, Nat.pow_mul, Nat.pow_mul]

/-- An element of whole bytes in a packed row of tile SRAM is read at its place. -/
theorem tileReadN_packBits {w a i q o : Nat} {l : List Nat} {t : State} (hw : w % 8 = 0) (hi : i < l.length)
    (h : HoldsInTile a (l.length * (w / 8)) (packBits w l) t) (hqo : target (offOf a) t = .tile q o) :
    tileReadN q (o + i * (w / 8)) (w / 8) t = l[i] % 2 ^ w := by
  have hwidth : 8 * (w / 8) = w := by omega
  have hroom : i * (w / 8) + w / 8 ≤ l.length * (w / 8) := by
    rw [← Nat.succ_mul]
    exact Nat.mul_le_mul_right _ hi
  have hbit : 8 * (i * (w / 8)) = w * i := by rw [Nat.mul_comm i, ← Nat.mul_assoc, hwidth]
  have hbits : w * i + w ≤ 8 * (l.length * (w / 8)) := by omega
  have hpart := bitsAt_memReadN_part zeroByte t.tileSram (a := tileAddr q o) hroom
  have hrow : memReadN zeroByte t.tileSram (tileAddr q o) (l.length * (w / 8)) = _ := h q o hqo
  rw [tileReadN, tileAddr, ← Nat.add_assoc, ← tileAddr, ← hpart, hrow, hwidth, hbit, bitsAt_mod_two_pow _ hbits, bitsAt_packBits]

theorem codeBits_pos {c : Nat} (h : c ≤ 10) : 0 < codeBits c := by
  interval_cases c <;> decide

/-! ### The statement -/

/-- A property of every row of every plane. -/
theorem forall_mem_planes {α : Type} {f : Nat → Nat → α} {m n : Nat} {P : α → Prop} (h : ∀ p r, P (f p r)) :
    ∀ a ∈ (List.range m).flatMap fun p => (List.range n).map (f p), P a := by
  intro a ha
  obtain ⟨p, -, ha⟩ := List.mem_flatMap.1 ha
  obtain ⟨r, -, rfl⟩ := List.mem_map.1 ha
  exact h p r

theorem mem_planes {α : Type} (f : Nat → Nat → α) {m n p r : Nat} (hp : p < m) (hr : r < n) :
    f p r ∈ (List.range m).flatMap fun p => (List.range n).map (f p) :=
  List.mem_flatMap.2 ⟨p, List.mem_range.2 hp, List.mem_map_of_mem (List.mem_range.2 hr)⟩

theorem length_planes {α : Type} (f : Nat → Nat → α) (m n : Nat) : ((List.range m).flatMap fun p => (List.range n).map (f p)).length = m * n := by
  simp [List.length_flatMap]

/-- Settles O45: on clean data each form is a list of rows, and the rows it writes lie apart in its own cluster. -/
theorem porterFormsMoveTheirRows : Obligations.PorterFormsMoveTheirRows := by
  intro cl corrected s e he hphase k x ecc idx hbmp hdead helem hwhole hidx hreads
  have hdstB : x.op ≠ 3 → x.dstB = x.rowB := fun hnot => if_neg hnot
  refine ⟨fun hop hdests => ?_, fun hop hdests _ => ?_, ?_, fun hop hdests hfit => ?_, fun hop hdests => ?_⟩
  · have hnot : x.op ≠ 3 := by omega
    have hrows := porRows_copy (k := k) (bad := []) (s := s) hop
    obtain ⟨t, y, hrun, hdone, honly, hvalue, hcount, hholds⟩ := 
      porRun_writes he hphase hbmp hdead hidx hreads (i := .porCopy cl ecc) rfl hop (porSegBad_clean hnot hreads) (copy_ranges hop) hdests
    rw [hrows] at hvalue hcount hholds
    rw [hdstB hnot] at hvalue
    refine ⟨t, y, hrun, hdone, honly, ?_, ?_, fun p r hp hr => hholds _ (mem_porWrites (hdstB hnot) (mem_planes _ hp hr) rfl)⟩
    · rw [hvalue, List.filter_eq_self.2 (forall_mem_planes fun _ _ => rfl), length_planes]
    · rw [hcount, List.filter_eq_nil_iff.2 (forall_mem_planes fun _ _ => Bool.false_ne_true), List.length_nil]
  · have hnot : x.op ≠ 3 := by omega
    have hidx' : idx = porIdx k x [] (x.rowsOf 1) s := congrArg (fun n => porIdx k x [] n s) (if_pos hop)
    have hrows := porRows_gather (k := k) (bad := []) (s := s) hop
    obtain ⟨t, y, hrun, hdone, honly, -, hcount, hholds⟩ := 
      porRun_writes he hphase hbmp hdead hidx hreads (i := .porGather cl ecc) rfl hop (porSegBad_clean hnot hreads) (gather_ranges hop) hdests
    rw [hrows, ← hidx'] at hcount hholds
    refine ⟨t, y, hrun, hdone, honly, ?_, fun r hr => ?_⟩
    · rw [hcount, List.filter_map, List.length_map]
      refine congrArg List.length (List.filter_congr fun r _ => ?_)
      rw [Function.comp_apply]
      cases idx r <;> rfl
    · have hheld := hholds _ (mem_porWrites (hdstB hnot) (List.mem_map_of_mem (List.mem_range.2 hr)) (gatherRow_dst ..))
      generalize idx r = i at hheld ⊢
      cases i <;> exact hheld
  · intro hop dests hdests
    have hnot : x.op ≠ 3 := by omega
    have hidx' : idx = porIdx k x [] (x.rowsOf 3) s := congrArg (fun n => porIdx k x [] n s) (if_neg (by omega))
    have hrows := porRows_scatter (k := k) (bad := []) (s := s) hop
    rw [← hidx'] at hrows
    have hranges : (porWrites x (porRows k x [] s)).map writeRange = dests := by
      rw [map_writeRange_porWrites, hrows, List.filterMap_map, hdstB hnot]
      refine List.filterMap_congr fun r _ => ?_
      rw [Function.comp_apply]
      cases idx r <;> rfl
    obtain ⟨t, y, hrun, hdone, honly, -, -, hholds⟩ := 
      porRun_writes he hphase hbmp hdead hidx hreads (i := .porScatter cl ecc) rfl hop (porSegBad_clean hnot hreads) hranges hdests
    rw [hrows] at hholds
    refine ⟨t, y, hrun, hdone, honly, fun r i hr hi => ?_⟩
    have hmem : scatterRow k x s r (.row i) ∈ (List.range x.e1).map fun r => scatterRow k x s r (idx r) :=
      List.mem_map.2 ⟨r, List.mem_range.2 hr, by rw [hi]⟩
    exact hholds _ (mem_porWrites (hdstB hnot) hmem rfl)
  · have hclean := porSegBad_transpose hop (hwhole hop) (codeBits_pos helem) hreads hfit
    obtain ⟨t, y, hrun, hdone, honly, -, -, hholds⟩ := 
      porRun_writes he hphase hbmp hdead hidx hreads (i := .porTranspose cl ecc) rfl hop hclean (transpose_ranges hop) hdests
    rw [porRows_transpose hop] at hholds
    refine ⟨t, y, hrun, hdone, honly, fun i j hi hj q o hqo => ?_⟩
    have hheld := hholds _ (mem_porWrites (if_pos hop) (List.mem_map_of_mem (List.mem_range.2 hj)) rfl)
    have hread := tileReadN_packBits (l := (List.range x.e1).map fun i => engRead k (elemAt x j i).1 (elemAt x j i).2 s) (i := i) (hwhole hop)
      (by simpa using hi) (by rw [List.length_map, List.length_range]; exact hheld) (target_tile_state hqo t)
    rw [hread, List.getElem_map, List.getElem_range, elemAt]
  · have hnot : x.op ≠ 3 := by omega
    obtain ⟨t, y, hrun, hdone, honly, -, -, hholds⟩ := 
      porRun_writes he hphase hbmp hdead hidx hreads (i := .porFill cl ecc) rfl hop (porSegBad_clean hnot hreads) (fill_ranges hop) hdests
    rw [porRows_fill hop] at hholds
    exact ⟨t, y, hrun, hdone, honly, fun p r hp hr => hholds _ (mem_porWrites (hdstB hnot) (mem_planes _ hp hr) rfl)⟩

end Sys2Proof.Machine
end

section
/-! PROOFS. What an engine writes into HBM of its own package word by word (R145, R245, R247): one word, a list of words that lie apart, and runs of words. -/

namespace Sys2Proof.Machine

open Sys2Proof.Claims

/-! ### One word -/

/-- An engine's traffic for a line of HBM concerns one of the four Depots. -/
theorem ownerDie_lt {k pl : Nat} (h : pl < compKey 0 ∧ homeDie pl < 4) : ownerDie (.eng k) pl < 4 := by
  obtain ⟨hkey, hhome⟩ := h
  simp only [ownerDie, if_neg (Nat.not_le.2 hkey)]
  split_ifs <;> omega

/-- Where no Depot takes engine traffic, a word of HBM that nobody else holds is written at its line. -/
theorem engWrite_hbm {k a n p : Nat} (v : Nat) {s : State} (h0 : 0 < n) (hn : a % 128 + n ≤ 128) (hlocal : isLocal a s = true)
    (ht : target (offOf a) s = .hbm p) (hheld : writeHeld (p / 128) s = false) (halloc : ∀ i, i < 4 → streamAlloc i s = false) :
    engWrite k a n v s = lineWrite none p n (v % 2 ^ (8 * n)) s := by
  have hstay : leaves k a s = false := by rw [leaves, if_pos hlocal, ht]
  have hnone : writeAlloc (.eng k) (p / 128) s = none := by
    rw [writeAlloc, halloc _ (ownerDie_lt (line_of_target_hbm ht)), if_neg Bool.false_ne_true]
  rw [engWrite_line v s h0 hn, engPut, hstay, if_neg Bool.false_ne_true, putLine, ht]
  simp only [homeWrite, hheld, writeDo, hnone, Bool.false_eq_true, if_false, if_true, Nat.div_add_mod']

/-- A coherent write of part of a line that allocates in no Depot changes the line where it is held, and nothing else. -/
theorem lineWrite_none_part {p n : Nat} {s : State} (v : Nat) (hn : n ≠ 128) (hc : chanOos (p / 128) s = false) :
    ∃ h d, lineWrite none p n v s = { s with hbm := h, depot := d } := by
  cases hd : sFind s.depot (p / 128) with
  | some x =>
    obtain ⟨d, -, hw⟩ := lineWrite_none_of_depot n v hd
    exact ⟨s.hbm, _, hw⟩
  | none =>
    rw [lineWrite_none_of_hbm n v hd, hbmWrite, if_neg (by simp [hc])]
    dsimp only
    rw [if_neg hn]
    exact ⟨_, s.depot, rfl⟩

/-! ### A list of words that lie apart -/

/-- Only what HBM and the Depots hold changed. -/
def HbmOnly (s t : State) : Prop := ∃ h d, t = { s with hbm := h, depot := d }

theorem HbmOnly.refl (s : State) : HbmOnly s s := ⟨s.hbm, s.depot, rfl⟩

theorem HbmOnly.trans {s t u : State} (h : HbmOnly s t) (h' : HbmOnly t u) : HbmOnly s u := by
  obtain ⟨_, _, rfl⟩ := h
  obtain ⟨_, _, rfl⟩ := h'
  exact ⟨_, _, rfl⟩

/-- Where local offsets lie depends on registers alone. -/
theorem HbmOnly.target_eq {s t : State} (h : HbmOnly s t) (off : Nat) : target off t = target off s := by
  have hcsr : t.csr = s.csr := by
    obtain ⟨_, _, rfl⟩ := h
    rfl
  exact target_of_mapWords (fun d o _ => by rw [csrGet, csrGet, hcsr]) off

theorem HbmOnly.wordsAtHome {s t : State} (h : HbmOnly s t) {ws : List (Nat × Nat × Nat)} (hws : WordsAtHome ws s) : WordsAtHome ws t := by
  have htarget := h.target_eq
  obtain ⟨_, _, rfl⟩ := h
  refine ⟨fun w hw => ?_, ?_⟩
  · obtain ⟨hlocal, halign, p, hp, hrest⟩ := hws.1 w hw
    exact ⟨hlocal, halign, p, (htarget _).trans hp, hrest⟩
  · simp only [htarget]
    exact hws.2

/-- Sizes of a word that never crosses a line when aligned. -/
def WordSize (n : Nat) : Prop := n = 1 ∨ n = 4 ∨ n = 8

section
variable {k : Nat} {s : State} (halloc : ∀ i, i < 4 → streamAlloc i s = false)
include halloc

/-- One aligned word of HBM stores its bytes. -/
theorem storedAt_engWrite {w : Nat × Nat × Nat} {p : Nat} (hsize : WordSize w.2.1) (hlocal : isLocal w.1 s = true) (halign : w.1 % w.2.1 = 0)
    (ht : target (offOf w.1) s = .hbm p) (hheld : writeHeld (p / 128) s = false) (hc : chanOos (p / 128) s = false) :
    StoredAt p w.2.1 w.2.2 s (engWrite k w.1 w.2.1 w.2.2 s) ∧ HbmOnly s (engWrite k w.1 w.2.1 w.2.2 s) := by
  obtain ⟨a, n, v⟩ := w
  dsimp only at *
  have hline : a % 128 + n ≤ 128 ∧ 0 < n ∧ n ≠ 128 := by
    rcases hsize with rfl | rfl | rfl <;> omega
  obtain ⟨hfit, hpos, hpart⟩ := hline
  have hp : p % 128 + n ≤ 128 := by rwa [mod_line_of_target ht]
  rw [engWrite_hbm v hpos hfit hlocal ht hheld halloc]
  exact ⟨storedAt_mod (storedAt_lineWrite_none _ hc hp), lineWrite_none_part _ hpart hc⟩

end

/-- Words that lie apart at home all stay, and nothing else of memory changes. -/
theorem wordsWritten_engWrites (k : Nat) : ∀ (ws : List (Nat × Nat × Nat)) (s : State), (∀ i, i < 4 → streamAlloc i s = false) →
    (∀ w ∈ ws, WordSize w.2.1) → WordsAtHome ws s → WordsWritten ws s (engWrites k ws s) ∧ HbmOnly s (engWrites k ws s)
  | [], s, _, _, _ => ⟨⟨nofun, fun _ _ => rfl, rfl⟩, .refl s⟩
  | w :: ws, s, halloc, hsize, hhome => by
    obtain ⟨hplaces, happart⟩ := hhome
    obtain ⟨hhead, hapart⟩ := List.pairwise_cons.1 happart
    obtain ⟨hlocal, halign, p, hp, hheld, hc⟩ := hplaces w (List.mem_cons_self ..)
    obtain ⟨⟨hin, hout, htile⟩, honly⟩ := storedAt_engWrite (k := k) halloc (hsize w (List.mem_cons_self ..)) hlocal halign hp hheld hc
    have halloc' : ∀ i, i < 4 → streamAlloc i (engWrite k w.1 w.2.1 w.2.2 s) = false := by
      obtain ⟨_, _, hframe⟩ := honly
      rw [hframe]
      exact halloc
    obtain ⟨⟨hheld', hkept', htile'⟩, honly'⟩ := wordsWritten_engWrites k ws _ halloc' (fun v hv => hsize v (List.mem_cons_of_mem _ hv))
      (honly.wordsAtHome ⟨fun v hv => hplaces v (List.mem_cons_of_mem _ hv), hapart⟩)
    simp only [honly.target_eq] at hheld' hkept'
    refine ⟨⟨fun v hv q hq i hi => ?_, fun y hy => ?_, htile'.trans htile⟩, honly.trans honly'⟩
    · rcases List.mem_cons.1 hv with rfl | hv
      · obtain rfl := Target.hbm.inj (hp.symm.trans hq)
        refine (hkept' _ fun u hu r hr hin => ?_).trans (hin i hi)
        have := hhead u hu p r hp hr
        omega
      · exact hheld' v hv q hq i hi
    · exact (hkept' y fun v hv => hy v (List.mem_cons_of_mem _ hv)).trans (hout y (hy w (List.mem_cons_self ..) p hp))

/-! ### Runs of words -/

theorem engWrites_flatMap {α : Type} (k : Nat) (f : α → List (Nat × Nat × Nat)) : ∀ (l : List α) (s : State),
    l.foldl (fun s x => engWrites k (f x) s) s = engWrites k (l.flatMap f) s
  | [], _ => rfl
  | x :: l, s => by rw [List.foldl_cons, engWrites_flatMap k f l, List.flatMap_cons, engWrites_append]

theorem engWrites_ite (k : Nat) (c : Prop) [Decidable c] (ws : List (Nat × Nat × Nat)) (s : State) :
    (if c then engWrites k ws s else s) = engWrites k (if c then ws else []) s := by
  split <;> rfl

/-- Words written one after another are a list of words, each at its place. -/
theorem writeWords_eq_engWrites (k n : Nat) (a : Nat) : ∀ (l : List Nat) (i : Nat) (s : State),
    writeWords k n l (a + n * i) s = engWrites k ((l.zipIdx i).map fun v => (a + n * v.2, n, v.1)) s
  | [], _, _ => rfl
  | v :: l, i, s => by
    rw [writeWords, Nat.add_assoc, ← Nat.mul_succ, writeWords_eq_engWrites k n a l (i + 1), List.zipIdx_cons, List.map_cons]
    rfl

theorem zipIdx_range_map {α : Type} (f : Nat → α) (n : Nat) : ((List.range n).map f).zipIdx = (List.range n).map fun i => (f i, i) :=
  List.ext_getElem (by simp) (by simp)

/-- Words given by their number. -/
theorem writeWords_range (k n a m : Nat) (f : Nat → Nat) (s : State) :
    writeWords k n ((List.range m).map f) a s = engWrites k ((List.range m).map fun i => (a + n * i, n, f i)) s := by
  have hwords := writeWords_eq_engWrites k n a ((List.range m).map f) 0 s
  rwa [Nat.mul_zero, Nat.add_zero, zipIdx_range_map, List.map_map] at hwords

end Sys2Proof.Machine
end

section
/-! PROOFS. A Dispatcher accepts a contribution: what does not depend on a Dispatcher's registers and queues, the checks of a contribution, the batch it joins or
opens, and the start of a closed batch (R167, R168, R169, R173, R174). -/

namespace Sys2Proof.Machine

open Sys2Proof.Claims

/-! ### What keeps local memory and its homes -/

/-- The memories, their marks and channels and what the companion holds are the same, and so are the registers below those of the compute dies. -/
structure SameHomes (s t : State) : Prop extends SameBytes s t where
  poison : t.poison = s.poison
  chans : t.chans = s.chans
  hal : t.hal = s.hal

theorem SameHomes.refl (s : State) : SameHomes s s := ⟨.refl s, rfl, rfl, rfl⟩

theorem le_dspBase (d : Nat) : 0x1000000 ≤ dspBase d := by
  unfold dspBase dieBase
  omega

section
variable {s t : State} (h : SameHomes s t)
include h

theorem SameHomes.setF {base : Nat} (hbase : 0x1000000 ≤ base) (f : Fld) (v : Nat) : SameHomes s (setF base f v t) :=
  ⟨h.toSameBytes.setF hbase f v, h.poison, h.chans, h.hal⟩

theorem SameHomes.bumpF {base : Nat} (hbase : 0x1000000 ≤ base) (f : Fld) (n : Nat) : SameHomes s (bumpF base f n t) :=
  ⟨h.toSameBytes.bumpF hbase f n, h.poison, h.chans, h.hal⟩

theorem SameHomes.addPair {base : Nat} (hbase : 0x1000000 ≤ base) (lo hi : Fld) (n : Nat) : SameHomes s (addPair base lo hi n t) :=
  (h.setF hbase lo _).setF hbase hi _

theorem SameHomes.setEng (k : Nat) (e : Engine) : SameHomes s (setEng k e t) := ⟨h.toSameBytes.setEng k e, h.poison, h.chans, h.hal⟩

theorem SameHomes.setDsp (d : Nat) (x : Dsp) : SameHomes s (setDsp d x t) := ⟨⟨h.csr, h.tileSram, h.hbm, h.hbmBg, h.depot⟩, h.poison, h.chans, h.hal⟩

theorem SameHomes.setCore (c : Nat) (k : Core) : SameHomes s (setCore c k t) := ⟨⟨h.csr, h.tileSram, h.hbm, h.hbmBg, h.depot⟩, h.poison, h.chans, h.hal⟩

theorem SameHomes.isLocal_eq (a : Nat) : isLocal a t = isLocal a s := by
  have hnum : pkgNum t = pkgNum s := by
    rw [pkgNum, pkgNum, getF_of_word (h.csr _ _ (by decide)), getF_of_word (h.csr _ _ (by decide))]
  rw [isLocal, isLocal, hnum]

theorem SameHomes.tileReadN_eq (p a n : Nat) : tileReadN p a n t = tileReadN p a n s := by
  rw [tileReadN, tileReadN, h.tileSram]

theorem SameHomes.placeByte_eq (y : Nat) : placeByte y t = placeByte y s := by
  refine placeByte_congr (by rw [h.depot]) ?_
  have hbg : hbmBgByte t = hbmBgByte s := funext fun a => by rw [hbmBgByte, hbmBgByte, h.hbmBg]
  rw [hbg, h.hbm]

theorem SameHomes.chanOos_eq (pl : Nat) : chanOos pl t = chanOos pl s := by rw [chanOos, chanOos, h.chans]

theorem SameHomes.writeHeld_eq (pl : Nat) : writeHeld pl t = writeHeld pl s := by
  simp only [writeHeld, snooped, awaited, h.hal]

theorem SameHomes.localPoison_eq (off : Nat) : localPoison off t = localPoison off s := by
  simp only [localPoison, h.toSameBytes.target_eq, linePoison, markedPoison, chanOos, h.depot, h.poison, h.chans]

theorem SameHomes.wordsAtHome {ws : List (Nat × Nat × Nat)} (hws : WordsAtHome ws s) : WordsAtHome ws t := by
  simpa only [WordsAtHome, h.isLocal_eq, h.toSameBytes.target_eq, h.writeHeld_eq, h.chanOos_eq] using hws

theorem SameHomes.wordsWritten {ws : List (Nat × Nat × Nat)} {u : State} (hws : WordsWritten ws t u) : WordsWritten ws s u := by
  simpa only [WordsWritten, h.toSameBytes.target_eq, h.placeByte_eq, h.tileSram] using hws

theorem SameHomes.wordsWritten_after {ws : List (Nat × Nat × Nat)} {r : State} (hws : WordsWritten ws r s) : WordsWritten ws r t := by
  simpa only [WordsWritten, h.placeByte_eq, h.tileSram] using hws

end

/-! ### The first failing check (R143) -/

theorem firstFailing_eq_none {l : List (Bool × Nat)} : firstFailing l = none ↔ ∀ x ∈ l, x.1 = false := by
  simp [firstFailing]

theorem firstCause_eq_firstFailing : ∀ l : List (Bool × Nat), firstCause l = firstFailing l
  | [] => rfl
  | (bad, c) :: l => by
    rw [firstCause, firstCause_eq_firstFailing l]
    cases bad <;> rfl

/-! ### Reading a contribution (R167, R174) -/

section
variable {s t : State} (h : SameHomes s t)
include h

theorem SameHomes.ownTile_eq (cl ga : Nat) : ownTile cl ga t = ownTile cl ga s := by
  simp only [ownTile, h.isLocal_eq, h.toSameBytes.target_eq]

theorem SameHomes.conRead_eq (cl ga : Nat) : conRead cl ga t = conRead cl ga s := by
  simp only [conRead, h.ownTile_eq, h.tileReadN_eq]

theorem SameHomes.tileMarked_eq (p a n : Nat) : tileMarked p a n t = tileMarked p a n s := by
  simp only [tileMarked, h.poison]

theorem SameHomes.hbmRange_eq (ga n : Nat) : hbmRange ga n t = hbmRange ga n s := by
  simp only [hbmRange, h.isLocal_eq, inHbm, h.toSameBytes.target_eq]

variable (hdsps : t.dsps = s.dsps)
include hdsps

omit h in
theorem dspFind_of_dsps (d ha : Nat) : dspFind d ha t = dspFind d ha s := by
  simp only [dspFind, dspOpen, getDsp, hdsps]

theorem SameHomes.hdrRead_eq (d ha : Nat) : hdrRead d ha t = hdrRead d ha s := by
  simp only [hdrRead, dspFind_of_dsps hdsps, readOff, h.toSameBytes.readOffGo_eq]

theorem SameHomes.dspChecks_eq (d cl : Nat) (bad : List Nat) (ga : Nat) : dspChecks d cl bad ga t = dspChecks d cl bad ga s := by
  simp only [dspChecks, h.conRead_eq, dspFind_of_dsps hdsps, h.hdrRead_eq hdsps, h.hbmRange_eq, h.ownTile_eq, poisonOff, h.localPoison_eq, conMarked,
    h.tileMarked_eq]

end

/-! ### The checks of a contribution that passes -/

section
variable {d cl ga : Nat} {s : State} (h : ∀ x ∈ dspChecks d cl [] ga s, x.1 = false)
include h

/-- The contribution lies in a tile of its own cluster. -/
theorem core_lt_of_dspChecks : cl < 36 := by
  have hplace : (ownTile cl ga s).isNone = false := by
    have hcheck := h ((ownTile cl ga s).isNone || decide (bitsAt ga 0 23 + 16 > 0x600000), 5) (by simp [dspChecks])
    exact (Bool.or_eq_false_iff.1 hcheck).1
  rw [ownTile] at hplace
  split at hplace
  · split at hplace
    next p a hp =>
      split at hplace
      next hcl =>
        obtain ⟨-, ⟨hlt, -⟩, -⟩ := target_tile_iff.1 hp
        omega
      next => cases hplace
    next => cases hplace
  · cases hplace

/-- Each row of scores lies in a tile. -/
theorem row_fits_of_dspChecks {c hd r : Nat} (hc : conRead cl ga s = c) (hhd : hdrRead d (conHeader c) s = hd) (hr : r < conT c) :
    conScore c + r * conLds c + hdrE hd * hdrSize hd ≤ 0x600000 := by
  simp only [dspChecks, hc, hhd, List.forall_mem_cons] at h
  obtain ⟨-, -, -, -, hsize, halign, -, hplace, hbad, -⟩ := h
  have hha : conHeader c % 64 = 0 := by simpa using (Bool.or_eq_false_iff.1 (Bool.or_eq_false_iff.1 halign).1).1
  have hrange : hbmRange (conHeader c) 64 s = true := by simpa using (Bool.or_eq_false_iff.1 hplace).1
  have hstep : r * conLds c ≤ (conT c - 1) * conLds c := Nat.mul_le_mul_right _ (by omega)
  have hfit := (Bool.or_eq_false_iff.1 hsize).2
  simp only [hha, hrange, decide_true, Bool.true_and] at hbad hfit
  simp only [hbad, Bool.not_false, Bool.and_true, Bool.and_eq_false_iff, Bool.or_eq_false_iff, decide_eq_false_iff_not] at hfit
  omega

end

/-- Where no line of a tile is marked, no byte of it is. -/
theorem tileMarked_of_no_marks {p a n : Nat} {s : State} (h : tileMarks p s = []) (hn : a + n ≤ 0x600000) : tileMarked p a n s = false := by
  rw [tileMarked, List.any_eq_false]
  intro i hi
  rw [List.mem_range] at hi
  intro hmark
  have hline := List.flatMap_eq_nil_iff.1 h (tileKey p (a - a % 128 + 128 * i)) (List.mem_filter.2 ⟨by simpa using hmark,
    Bool.and_eq_true_iff.2 ⟨decide_eq_true (by simp only [tileKey, tileAddr]; omega), decide_eq_true (by simp only [tileKey, tileAddr]; omega)⟩⟩)
  simp at hline

end Sys2Proof.Machine
end

section
/-! PROOFS. The contribution a Dispatcher takes (R167, R173, R174) and the start of a closed batch (R168, R169). -/

namespace Sys2Proof.Machine

open Sys2Proof.Claims

/-! ### Joining a batch (R167, R173) -/

theorem getDsp_setDsp (d j : Nat) (x : Dsp) (s : State) : getDsp j (setDsp d x s) = if j = d then x else getDsp j s := sGet_sSet ..

/-- A batch that takes contributions with the header at `ha`. -/
def Batch.takes (ha : Nat) (b : Batch) : Bool := decide (b.contribs.length < 9) && decide (b.addr = ha)

theorem dspFind_isSome (d ha : Nat) (s : State) : (dspFind d ha s).isSome = (getDsp d s).batches.any (Batch.takes ha) := by
  rw [Bool.eq_iff_iff, dspFind, List.find?_isSome, ← List.any_eq_true, dspOpen, List.any_filter]
  rfl

/-- A batch with a contribution more, where it takes it. -/
def Batch.join (ha : Nat) (con : Contrib) (b : Batch) : Batch :=
  if b.contribs.length < 9 ∧ b.addr = ha then { b with contribs := b.contribs ++ [con] } else b

theorem dspJoin_opened {d ha h : Nat} {con : Contrib} {s : State} (hopen : (getDsp d s).batches.any (Batch.takes ha) = true) :
    dspJoin d ha h con s = setDsp d { getDsp d s with batches := (getDsp d s).batches.map (Batch.join ha con) } s := by
  rw [dspJoin, dspFind_isSome, hopen]
  refine (if_pos rfl).trans (congrArg (fun l => setDsp d { getDsp d s with batches := l } s) (List.map_congr_left fun b _ => ?_))
  simp [Batch.join, Batch.isOpen]

theorem dspJoin_new {d ha h : Nat} {con : Contrib} {s : State} (hopen : (getDsp d s).batches.any (Batch.takes ha) = false) :
    dspJoin d ha h con s = setDsp d { getDsp d s with batches := (getDsp d s).batches ++
      [⟨ha, h, decide (effF (dspBase d) R.DSP_CFG_PAD_FILL R.DSP_CFG_LEVEL s = 1), dspLimit d con.ins.core s, s.count, [con], 0⟩] } s := by
  rw [dspJoin, dspFind_isSome, hopen]
  rfl

/-! ### Taking a contribution (R167, R174) -/

/-- The corrected errors of a contribution counted, `x` standing before `rest`. -/
def dspCounted (d n : Nat) (x : EngIns) (rest : List EngIns) (s : State) : State :=
  bumpF (dspBase d) R.DSP_CE_COUNT_COUNT n (setEng (kDsp d) { getEng (kDsp d) s with cross := x :: rest } s)

/-- The contribution has left the crossing instructions, of which `rest` remain. -/
def dspTaken (d : Nat) (rest : List EngIns) (s : State) : State := ranAdd (kDsp d) (setEng (kDsp d) { getEng (kDsp d) s with cross := rest } s)

theorem sameHomes_dspCounted (d n : Nat) (x : EngIns) (rest : List EngIns) (s : State) : SameHomes s (dspCounted d n x rest s) :=
  ((SameHomes.refl s).setEng _ _).bumpF (le_dspBase d) _ _

theorem csrGet_dspCounted {off : Nat} (d n : Nat) (x : EngIns) (rest : List EngIns) (s : State) (def' : Nat) (h : off ≠ dspBase d + 0x1C) :
    csrGet def' off (dspCounted d n x rest s) = csrGet def' off s := csrGet_bumpF_other _ _ _ _ _ h

theorem dspTaken_frame (d : Nat) (rest : List EngIns) (s : State) : ∃ es r, dspTaken d rest s = { s with engines := es, ran := r } := by
  rw [dspTaken, ranAdd]
  split <;> exact ⟨_, _, rfl⟩

theorem getEng_dspTaken (d j : Nat) (rest : List EngIns) (s : State) :
    getEng j (dspTaken d rest s) = if j = kDsp d then { getEng (kDsp d) s with cross := rest } else getEng j s := by
  have hran : ∀ u, getEng j (ranAdd (kDsp d) u) = getEng j u := fun u => by
    rw [ranAdd]
    split <;> rfl
  rw [dspTaken, hran, getEng_setEng]

theorem engines_dspJoin (d ha h : Nat) (con : Contrib) (s : State) : (dspJoin d ha h con s).engines = s.engines := by
  rw [dspJoin]
  split <;> rfl

section
variable {d : Fin 4} {corrected : Nat} {s : State} {x : EngIns} {rest : List EngIns} (hcross : (getEng (kDsp d) s).cross = x :: rest)
  (hmarks : ∀ p, p / 8 = x.core → tileMarks p s = [])
  (hroom : (getDsp d s).batches.any (Batch.takes (conHeader (conRead x.core x.p.toNat s))) = true ∨
    ((getDsp d s).batches.filter (fun b => decide (b.contribs.length < 9))).length < 2)
  (hask : dspAsk d x.core [] x.p.toNat s = none) (hpass : firstFailing (dspChecks d x.core [] x.p.toNat s) = none)

include hpass in
/-- No row of scores is bad where no line of the cluster's tiles is marked. -/
theorem rows_clean_of_dspChecks (hmarks : ∀ p, p / 8 = x.core → tileMarks p s = []) {c hd : Nat} (hc : conRead x.core x.p.toNat s = c)
    (hhd : hdrRead d (conHeader c) s = hd) :
    (List.range (conT c)).filter (fun t => eccHits [] (selfAddr (tileWin (8 * x.core + conTile c) (conScore c + t * conLds c))) (hdrE hd * hdrSize hd) ||
      tileMarked (8 * x.core + conTile c) (conScore c + t * conLds c) (hdrE hd * hdrSize hd) s) = [] := by
  refine List.filter_eq_nil_iff.2 fun t ht => ?_
  have htile : conTile c < 8 := Nat.mod_lt _ (by decide)
  have hfit := row_fits_of_dspChecks (firstFailing_eq_none.1 hpass) hc hhd (List.mem_range.1 ht)
  rw [tileMarked_of_no_marks (hmarks _ (by omega)) hfit]
  exact Bool.false_ne_true

include hcross hmarks hroom hask hpass in
/-- A contribution that passes its checks joins a batch and leaves the crossing instructions; a batch that it closes may start. -/
theorem dspContribution_accepts {c hd : Nat} (hc : conRead x.core x.p.toNat s = c) (hhd : hdrRead d (conHeader c) s = hd) :
    dspContribution d ⟨corrected, []⟩ s =
      dspStart d (dspTaken d rest (dspJoin d (conHeader c) hd ⟨{ x with desc := c }, []⟩ (dspCounted d corrected x rest s))) := by
  have hpick : dspPick d s (x :: rest) [] = some x := by
    have htakes : dspTakes d x.core x.p.toNat s = true := by
      rw [dspTakes, dspOpen, List.any_filter, Bool.or_eq_true, decide_eq_true_eq]
      exact hroom.symm
    simp [dspPick, htakes]
  have hsame := sameHomes_dspCounted d corrected x rest s
  have hdsps : (dspCounted d corrected x rest s).dsps = s.dsps := rfl
  rw [dspContribution, hcross, hpick]
  dsimp only
  rw [hask]
  dsimp only
  rw [hcross, List.erase_cons_head, ← dspCounted, firstCause_eq_firstFailing, hsame.dspChecks_eq hdsps, hpass]
  dsimp only
  simp only [hsame.conRead_eq, hsame.hdrRead_eq hdsps, hsame.tileMarked_eq, hc, hhd]
  rw [rows_clean_of_dspChecks hpass hmarks hc hhd, dspTaken, getEng, getEng, engines_dspJoin]
  rfl

end

/-! ### The start of a closed batch (R168, R169) -/

/-- What a closed batch writes into the count table. -/
def countWords (d : Nat) (b : Batch) (s : State) : List (Nat × Nat × Nat) :=
  (List.range 256).map fun e => (hdrCount b.header + 1024 * d + 4 * e, 4, (selsOf (batchTokens b s) e).length)

/-- Die `d` tells other dies that its slot of the count table at `ca` is written. -/
def dspTell (d ca : Nat) (dies : List Nat) (s : State) : State :=
  dies.foldl (fun s i => if i = d then s else setDsp i { getDsp i s with got := (getDsp i s).got ++ [(d, ca)] } s) s

theorem dspTell_frame (d ca : Nat) : ∀ (dies : List Nat) (s : State), ∃ ds, dspTell d ca dies s = { s with dsps := ds }
  | [], s => ⟨s.dsps, rfl⟩
  | i :: dies, s => by
    rw [dspTell, List.foldl_cons, ← dspTell]
    split
    · exact dspTell_frame d ca dies s
    · obtain ⟨ds, hds⟩ := dspTell_frame d ca dies (setDsp i { getDsp i s with got := (getDsp i s).got ++ [(d, ca)] } s)
      exact ⟨ds, hds⟩

/-- Telling adds to what each other die knows, and leaves this die as it is. -/
theorem getDsp_dspTell (d ca : Nat) : ∀ (dies : List Nat) (s : State), getDsp d (dspTell d ca dies s) = getDsp d s ∧
    ∀ i, i ≠ d → (d, ca) ∈ (getDsp i s).got ∨ i ∈ dies → (d, ca) ∈ (getDsp i (dspTell d ca dies s)).got
  | [], s => ⟨rfl, fun i _ h => h.resolve_right List.not_mem_nil⟩
  | j :: dies, s => by
    rw [dspTell, List.foldl_cons, ← dspTell]
    by_cases hj : j = d
    · obtain ⟨hown, hothers⟩ := getDsp_dspTell d ca dies s
      rw [if_pos hj]
      exact ⟨hown, fun i hi h => hothers i hi (h.imp_right fun hmem => (List.mem_cons.1 hmem).resolve_left fun hij => hi (hij.trans hj))⟩
    · obtain ⟨hown, hothers⟩ := getDsp_dspTell d ca dies (setDsp j { getDsp j s with got := (getDsp j s).got ++ [(d, ca)] } s)
      rw [if_neg hj]
      refine ⟨by rw [hown, getDsp_setDsp, if_neg (Ne.symm hj)], fun i hi h => hothers i hi ?_⟩
      rw [getDsp_setDsp]
      by_cases hij : i = j
      · rw [if_pos hij]
        exact .inl (List.mem_append_right _ (List.mem_singleton_self _))
      · rw [if_neg hij]
        exact h.imp_right fun hmem => (List.mem_cons.1 hmem).resolve_left hij

theorem dspStart_of_waiting {d : Nat} {s : State} (h : ∀ b bs, (getDsp d s).batches = b :: bs → b.contribs.length < 9 ∨ b.phase ≠ 0) : dspStart d s = s := by
  rw [dspStart]
  dsimp only
  split
  · rfl
  next b bs hb =>
    rw [if_pos]
    exact (h b bs hb).imp_left decide_eq_true

theorem dspStart_closed {d : Nat} {s : State} {b : Batch} {bs : List Batch} (hb : (getDsp d s).batches = b :: bs) (hclosed : 9 ≤ b.contribs.length)
    (hphase : b.phase = 0) : dspStart d s = dspTell d (offOf (hdrCount b.header)) (namedDies b.header d) (engWrites (kDsp d) (countWords d b s)
      (setDsp d { getDsp d s with batches := { b with phase := 1, since := s.count } :: bs } s)) := by
  have hstart : ¬ (b.isOpen = true ∨ b.phase ≠ 0) := by
    simp only [Batch.isOpen, decide_eq_true_eq]
    omega
  rw [dspStart]
  dsimp only
  rw [hb]
  dsimp only
  rw [if_neg hstart, writeWords_range]
  rfl

/-! ### What a batch selects -/

/-- Selections depend on the scores in tile SRAM alone. -/
theorem tokensGo_of_tileSram {s t : State} (h : t.tileSram = s.tileSram) (hd : Nat) : ∀ (l : List Contrib) (o : Nat), tokensGo hd t l o = tokensGo hd s l o
  | [], _ => rfl
  | x :: l, o => by
    have hscore : ∀ c core r e, conScoreAt hd c core r e t = conScoreAt hd c core r e s := fun c core r e => by
      unfold conScoreAt tileReadN
      rw [h]
    simp only [tokensGo, hscore, tokensGo_of_tileSram h hd l]

theorem countWords_of_tileSram {s t : State} (h : t.tileSram = s.tileSram) (d : Nat) (b : Batch) : countWords d b t = countWords d b s := by
  simp only [countWords, batchTokens, tokensGo_of_tileSram h]

end Sys2Proof.Machine
end

section
/-! PROOFS. Contributions that join, open or close a batch, and the exchange of counts (R167, R168, R169, R173). -/

namespace Sys2Proof.Machine

open Sys2Proof.Claims

/-! ### Registers that a contribution leaves alone (R33) -/

theorem dspCount_ne_depBase (d i : Nat) {x : Nat} (hx : x < 0x1000) : depBase i + x ≠ dspBase d + 0x1C := by
  unfold depBase dspBase dieBase
  omega

/-- The registers of a core are none of a Dispatcher. -/
theorem seqBase_ne_dspBase (d : Nat) {c x y : Nat} (hc : c < 44) (hx : x < 0x1000) (hy : y < 0x1000) : seqBase c + x ≠ dspBase d + y := by
  unfold seqBase clusterBase dspBase dieBase
  split <;> omega

theorem effF_of_words {base : Nat} {f lvl : Fld} {s t : State} (hf : csrGet f.word (base + f.off) t = csrGet f.word (base + f.off) s)
    (hl : csrGet lvl.word (base + lvl.off) t = csrGet lvl.word (base + lvl.off) s) : effF base f lvl t = effF base f lvl s := by
  rw [effF, effF, getF_of_word hf, getF_of_word hl]

section
variable (d n : Nat) (x : EngIns) (rest : List EngIns) (s : State)

theorem streamAlloc_dspCounted (i : Nat) : streamAlloc i (dspCounted d n x rest s) = streamAlloc i s := by
  rw [streamAlloc, streamAlloc, effF_of_words (csrGet_dspCounted _ _ _ _ _ _ (dspCount_ne_depBase d i (by decide)))
    (csrGet_dspCounted _ _ _ _ _ _ (dspCount_ne_depBase d i (by decide)))]

/-- A field of a Dispatcher's configuration. -/
theorem effF_dspCounted {f : Fld} (h : f.off ≠ 0x1C) : effF (dspBase d) f R.DSP_CFG_LEVEL (dspCounted d n x rest s) = effF (dspBase d) f R.DSP_CFG_LEVEL s :=
  effF_of_words (csrGet_dspCounted _ _ _ _ _ _ (by omega)) (csrGet_dspCounted _ _ _ _ _ _ (Nat.add_right_inj.not.2 (by decide)))

theorem dspLimit_dspCounted {c : Nat} (hc : c < 36) : dspLimit d c (dspCounted d n x rest s) = dspLimit d c s := by
  have hwait := effF_of_words (f := R.SEQ_WAIT_LIMIT_LIMIT_US) (lvl := R.SEQ_CTRL_LEVEL)
    (csrGet_dspCounted d n x rest s _ (seqBase_ne_dspBase d (Nat.lt_of_lt_of_le hc (by decide)) (by decide) (by decide)))
    (csrGet_dspCounted d n x rest s _ (seqBase_ne_dspBase d (Nat.lt_of_lt_of_le hc (by decide)) (by decide) (by decide)))
  rw [dspLimit, dspLimit, effF_dspCounted _ _ _ _ _ (by decide), effF_dspCounted _ _ _ _ _ (by decide), hwait]

end

/-! ### The batch after a contribution (R167) -/

theorem dspJoin_frame (d ha h : Nat) (con : Contrib) (s : State) : ∃ ds, dspJoin d ha h con s = { s with dsps := ds } := by
  rw [dspJoin]
  split <;> exact ⟨_, rfl⟩

theorem Batch.join_of_takes {ha : Nat} {con : Contrib} {b : Batch} (h : b.contribs.length < 9 ∧ b.addr = ha) :
    b.join ha con = { b with contribs := b.contribs ++ [con] } := if_pos h

/-- The state in which a contribution with 16 bytes `c` and header `hd` has joined or opened its batch. -/
def dspAfter (d n c hd : Nat) (x : EngIns) (rest : List EngIns) (s : State) : State :=
  dspTaken d rest (dspJoin d (conHeader c) hd ⟨{ x with desc := c }, []⟩ (dspCounted d n x rest s))

section
variable (d n c hd : Nat) (x : EngIns) (rest : List EngIns) (s : State)

theorem dspAfter_frame : { dspAfter d n c hd x rest s with engines := s.engines, dsps := s.dsps, csr := s.csr, totals := s.totals, ran := s.ran } = s := by
  obtain ⟨ds, hjoin⟩ := dspJoin_frame d (conHeader c) hd ⟨{ x with desc := c }, []⟩ (dspCounted d n x rest s)
  obtain ⟨es, r, htaken⟩ := dspTaken_frame d rest (dspJoin d (conHeader c) hd ⟨{ x with desc := c }, []⟩ (dspCounted d n x rest s))
  rw [dspAfter, htaken, hjoin]
  rfl

theorem sameHomes_dspAfter : SameHomes s (dspAfter d n c hd x rest s) := by
  obtain ⟨hbytes, hpoison, hchans, hhal⟩ := sameHomes_dspCounted d n x rest s
  obtain ⟨hcsr, hsram, hhbm, hbg, hdepot⟩ := hbytes
  obtain ⟨ds, hjoin⟩ := dspJoin_frame d (conHeader c) hd ⟨{ x with desc := c }, []⟩ (dspCounted d n x rest s)
  obtain ⟨es, r, htaken⟩ := dspTaken_frame d rest (dspJoin d (conHeader c) hd ⟨{ x with desc := c }, []⟩ (dspCounted d n x rest s))
  rw [dspAfter, htaken, hjoin]
  exact ⟨⟨hcsr, hsram, hhbm, hbg, hdepot⟩, hpoison, hchans, hhal⟩

theorem streamAlloc_dspAfter (i : Nat) : streamAlloc i (dspAfter d n c hd x rest s) = streamAlloc i s := by
  obtain ⟨ds, hjoin⟩ := dspJoin_frame d (conHeader c) hd ⟨{ x with desc := c }, []⟩ (dspCounted d n x rest s)
  obtain ⟨es, r, htaken⟩ := dspTaken_frame d rest (dspJoin d (conHeader c) hd ⟨{ x with desc := c }, []⟩ (dspCounted d n x rest s))
  rw [dspAfter, htaken, hjoin, ← streamAlloc_dspCounted d n x rest s i]
  rfl

theorem getEng_dspAfter : (getEng (kDsp d) (dspAfter d n c hd x rest s)).cross = rest ∧
    ∀ j, j ≠ kDsp d → getEng j (dspAfter d n c hd x rest s) = getEng j s := by
  refine ⟨by rw [dspAfter, getEng_dspTaken, if_pos rfl], fun j hj => ?_⟩
  rw [dspAfter, getEng_dspTaken, if_neg hj, getEng, engines_dspJoin]
  exact (getEng_setEng (kDsp d) j { getEng (kDsp d) s with cross := x :: rest } s).trans (if_neg hj)

theorem getDsp_dspAfter : getDsp d (dspAfter d n c hd x rest s) = getDsp d (dspJoin d (conHeader c) hd ⟨{ x with desc := c }, []⟩ (dspCounted d n x rest s)) := by
  obtain ⟨es, r, htaken⟩ := dspTaken_frame d rest (dspJoin d (conHeader c) hd ⟨{ x with desc := c }, []⟩ (dspCounted d n x rest s))
  rw [dspAfter, htaken]
  rfl

/-- An open batch with the header takes the contribution. -/
theorem batches_dspAfter_opened (hopen : (getDsp d s).batches.any (Batch.takes (conHeader c)) = true) :
    (getDsp d (dspAfter d n c hd x rest s)).batches = (getDsp d s).batches.map (Batch.join (conHeader c) ⟨{ x with desc := c }, []⟩) := by
  have hdsp : getDsp d (dspCounted d n x rest s) = getDsp d s := rfl
  rw [getDsp_dspAfter, dspJoin_opened (by rwa [hdsp]), getDsp_setDsp, if_pos rfl, hdsp]

/-- Without one it opens a batch with the timeout and padding in force. -/
theorem batches_dspAfter_new (hcore : x.core < 36) (hopen : (getDsp d s).batches.any (Batch.takes (conHeader c)) = false) :
    (getDsp d (dspAfter d n c hd x rest s)).batches = (getDsp d s).batches ++
      [⟨conHeader c, hd, decide (effF (dspBase d) R.DSP_CFG_PAD_FILL R.DSP_CFG_LEVEL s = 1), dspLimit d x.core s, s.count, [⟨{ x with desc := c }, []⟩], 0⟩] := by
  have hdsp : getDsp d (dspCounted d n x rest s) = getDsp d s := rfl
  rw [getDsp_dspAfter, dspJoin_new (by rwa [hdsp]), getDsp_setDsp, if_pos rfl, hdsp, effF_dspCounted _ _ _ _ _ (by decide), dspLimit_dspCounted _ _ _ _ _ hcore]
  rfl

end

/-- A batch that neither was full nor gets its ninth contribution does not start. -/
theorem waiting_dspAfter {d n c hd : Nat} {x : EngIns} {rest : List EngIns} {s : State} (hcore : x.core < 36)
    (hnone : ∀ b ∈ (getDsp d s).batches, b.addr = conHeader c → b.contribs.length ≠ 8)
    (hfront : ∀ b bs, (getDsp d s).batches = b :: bs → b.contribs.length < 9 ∨ b.phase ≠ 0) :
    ∀ b bs, (getDsp d (dspAfter d n c hd x rest s)).batches = b :: bs → b.contribs.length < 9 ∨ b.phase ≠ 0 := by
  intro b bs hb
  cases hopen : (getDsp d s).batches.any (Batch.takes (conHeader c)) with
  | true =>
    rw [batches_dspAfter_opened _ _ _ _ _ _ _ hopen, List.map_eq_cons_iff] at hb
    obtain ⟨b0, bs0, hb0, rfl, -⟩ := hb
    have hlen := hnone b0 (by rw [hb0]; exact List.mem_cons_self ..)
    have hfront0 := hfront b0 bs0 hb0
    rw [Batch.join]
    split
    next hjoin =>
      left
      have := hlen hjoin.2
      simp only [List.length_append, List.length_singleton]
      omega
    next => exact hfront0
  | false =>
    rw [batches_dspAfter_new _ _ _ _ _ _ _ hcore hopen] at hb
    cases hbatches : (getDsp d s).batches with
    | nil =>
      rw [hbatches] at hb
      obtain ⟨rfl, -⟩ := List.cons.inj hb
      exact .inl (by simp)
    | cons b0 bs0 =>
      rw [hbatches] at hb
      obtain ⟨rfl, -⟩ := List.cons.inj hb
      exact hfront _ _ hbatches

/-- The ninth contribution of the front batch closes it. -/
theorem batches_dspAfter_ninth {d n c hd : Nat} {x : EngIns} {rest : List EngIns} {s : State} {b : Batch} {bs : List Batch}
    (hb : (getDsp d s).batches = b :: bs) (haddr : b.addr = conHeader c) (hlen : b.contribs.length = 8)
    (hothers : ∀ y ∈ bs, y.addr = conHeader c → 9 ≤ y.contribs.length) :
    (getDsp d (dspAfter d n c hd x rest s)).batches = { b with contribs := b.contribs ++ [⟨{ x with desc := c }, []⟩] } :: bs := by
  have hopen : (getDsp d s).batches.any (Batch.takes (conHeader c)) = true := by
    rw [hb, List.any_cons, Batch.takes, hlen, haddr]
    simp
  have hkept : bs.map (Batch.join (conHeader c) ⟨{ x with desc := c }, []⟩) = bs := by
    refine (List.map_congr_left fun y hy => ?_).trans (List.map_id bs)
    exact if_neg fun ⟨hopen, ha⟩ => Nat.not_lt.2 (hothers y hy ha) hopen
  rw [batches_dspAfter_opened _ _ _ _ _ _ _ hopen, hb, List.map_cons, Batch.join_of_takes ⟨by omega, haddr⟩, hkept]

end Sys2Proof.Machine
end

section
/-! PROOFS. The end of a batch: its lists, pads, kept counts and drop map as one list of words, its registers and its summaries (R170, R171, R172). -/

namespace Sys2Proof.Machine

open Sys2Proof.Claims

/-! ### The words of a batch (R170, R171) -/

/-- The kept selections of every expert. -/
def keptWords (b : Batch) (d : Nat) (s : State) : List (Nat × Nat × Nat) :=
  (List.range (hdrE b.header)).flatMap fun e => (selsOf (batchTokens b s) e).zipIdx.filterMap fun y =>
    if listBase b.header d e s + y.2 < hdrCap b.header then
      some (hdrList b.header + 8 * (e * hdrCap b.header + listBase b.header d e s + y.2), 8, y.1.2.2 * 2 ^ 32 + y.1.2.1 * 2 ^ 29 + (hdrToken b.header + y.1.1))
    else none

/-- The pads behind the kept selections of every expert. -/
def padWords (b : Batch) (d : Nat) (s : State) : List (Nat × Nat × Nat) :=
  (List.range (hdrE b.header)).flatMap fun e => (List.range (hdrCap b.header)).filterMap fun i =>
    if listTotal b.header d e s ≤ i then some (hdrList b.header + 8 * (e * hdrCap b.header + i), 8, 0xFFFFFFFF) else none

/-- The kept count of every expert. -/
def totalWords (b : Batch) (d : Nat) (s : State) : List (Nat × Nat × Nat) :=
  (List.range (hdrE b.header)).map fun e => (hdrCount b.header + 4096 + 4 * e, 4, min (listTotal b.header d e s) (hdrCap b.header))

/-- The drop map. -/
def dropWords (b : Batch) (d : Nat) (s : State) : List (Nat × Nat × Nat) :=
  (batchTokens b s).zipIdx.map fun t => (hdrDmapAddr b.header + t.2, 1, packBits 1 ((List.range 8).map fun r => b2n (keptSel b d s t.1.off r)))

theorem batchWords_eq (b : Batch) (d : Nat) (s : State) : batchWords b d s = keptWords b d s ++
    (if b.pad ∧ d = (namedDies b.header d).headD d then padWords b d s else []) ++
    (if d = (namedDies b.header d).headD d then totalWords b d s else []) ++ (if hdrDmap b.header then dropWords b d s else []) := rfl

theorem wordSize_of_mem_batchWords {b : Batch} {d : Nat} {s : State} {w : Nat × Nat × Nat} (h : w ∈ batchWords b d s) : WordSize w.2.1 := by
  rw [batchWords_eq, List.mem_append, List.mem_append, List.mem_append] at h
  rcases h with ((h | h) | h) | h
  · obtain ⟨e, -, h⟩ := List.mem_flatMap.1 h
    obtain ⟨y, -, h⟩ := List.mem_filterMap.1 h
    obtain ⟨-, hw⟩ := Option.ite_none_right_eq_some.1 h
    rw [← Option.some.inj hw]
    exact .inr (.inr rfl)
  · obtain ⟨-, h⟩ := List.mem_ite_nil_right.1 h
    obtain ⟨e, -, h⟩ := List.mem_flatMap.1 h
    obtain ⟨i, -, h⟩ := List.mem_filterMap.1 h
    obtain ⟨-, hw⟩ := Option.ite_none_right_eq_some.1 h
    rw [← Option.some.inj hw]
    exact .inr (.inr rfl)
  · obtain ⟨-, h⟩ := List.mem_ite_nil_right.1 h
    obtain ⟨e, -, rfl⟩ := List.mem_map.1 h
    exact .inr (.inl rfl)
  · obtain ⟨-, h⟩ := List.mem_ite_nil_right.1 h
    obtain ⟨t, -, rfl⟩ := List.mem_map.1 h
    exact .inl rfl

/-- The list of an expert is written entry by entry. -/
theorem writeList_eq_engWrites (d h e base : Nat) : ∀ (l : List (Nat × Nat × Nat)) (i : Nat) (s : State),
    writeList d h e base l i s = engWrites (kDsp d) ((l.zipIdx i).filterMap fun y => if base + y.2 < hdrCap h then
      some (hdrList h + 8 * (e * hdrCap h + base + y.2), 8, y.1.2.2 * 2 ^ 32 + y.1.2.1 * 2 ^ 29 + (hdrToken h + y.1.1)) else none) s
  | [], _, _ => rfl
  | (o, r, sc) :: l, i, s => by
    rw [writeList, writeList_eq_engWrites d h e base l (i + 1), List.zipIdx_cons, List.filterMap_cons]
    by_cases hroom : base + i < hdrCap h
    · simp only [if_pos hroom]
      rfl
    · simp only [if_neg hroom]

theorem filterMap_range_ge {α : Type} (f : Nat → α) (m n : Nat) :
    (List.range n).filterMap (fun i => if m ≤ i then some (f i) else none) = (List.range (n - m)).map fun i => f (min m n + i) := by
  obtain ⟨r, hr⟩ : ∃ r, n = min m n + r := ⟨n - min m n, by omega⟩
  have hlow : (List.range (min m n)).filterMap (fun i => if m ≤ i then some (f i) else none) = [] :=
    List.filterMap_eq_nil_iff.2 fun i hi => if_neg (by have := List.mem_range.1 hi; omega)
  have hhigh : ((List.range r).map (min m n + ·)).filterMap (fun i => if m ≤ i then some (f i) else none) = (List.range r).map fun i => f (min m n + i) := by
    rw [List.filterMap_map, ← List.filterMap_eq_map]
    refine List.filterMap_congr fun i hi => if_pos (?_ : m ≤ min m n + i)
    have := List.mem_range.1 hi
    omega
  have hlist : List.range n = List.range (min m n) ++ (List.range r).map (min m n + ·) := by
    rw [← List.range_add, ← hr]
  rw [hlist, List.filterMap_append, hlow, hhigh, show n - m = r by omega, List.nil_append]

/-- The pads of an expert. -/
theorem writePads_eq_engWrites (k h e t : Nat) (s : State) :
    writeWords k 8 (List.replicate (hdrCap h - t) 0xFFFFFFFF) (hdrList h + 8 * (e * hdrCap h + min t (hdrCap h))) s =
      engWrites k ((List.range (hdrCap h)).filterMap fun i => if t ≤ i then some (hdrList h + 8 * (e * hdrCap h + i), 8, 0xFFFFFFFF) else none) s := by
  have hpads : List.replicate (hdrCap h - t) 0xFFFFFFFF = (List.range (hdrCap h - t)).map fun _ => 0xFFFFFFFF := by simp
  rw [hpads, writeWords_range, filterMap_range_ge (fun i => (hdrList h + 8 * (e * hdrCap h + i), 8, 0xFFFFFFFF))]
  refine congrArg (fun l => engWrites k l s) (List.map_congr_left fun i _ => ?_)
  rw [Nat.add_assoc, ← Nat.mul_add, Nat.add_assoc]

/-- The drop map of a batch. -/
theorem writeDrops_eq_engWrites {α : Type} (k a : Nat) (f : α → Nat) (l : List α) (s : State) :
    writeWords k 1 (l.map f) a s = engWrites k (l.zipIdx.map fun t => (a + t.2, 1, f t.1)) s := by
  have hwords := writeWords_eq_engWrites k 1 a (l.map f) 0 s
  simp only [Nat.mul_zero, Nat.add_zero, Nat.one_mul, List.zipIdx_map, List.map_map] at hwords
  exact hwords

/-- A sum gathered by a fold. -/
theorem foldl_add_nat {α : Type} (f : α → Nat) (l : List α) : l.foldl (fun n x => n + f x) 0 = (l.map f).sum := by
  rw [List.sum_eq_foldl, List.foldl_map]

/-! ### The end of a batch (R171) -/

/-- Without a copy elsewhere of a line of the ranges the writes may begin. -/
theorem withRoom_of_free {ranges : List (Nat × Nat)} {s : State} (h : ∀ pl ∈ rangeHbm ranges s, writeHeld pl s = false) (body : State → State) :
    withRoom ranges body s = body s := by
  have hnone : (rangeHbm ranges s).filter (fun pl => writeHeld pl s) = [] := List.filter_eq_nil_iff.2 fun pl hpl => by
    rw [h pl hpl]
    exact Bool.false_ne_true
  rw [withRoom, hnone]
  exact ite_self _

/-- What the end of a batch counts in the Dispatcher's registers. -/
def dspCounts (d entries drops nans : Nat) (s : State) : State :=
  let s := addPair (dspBase d) R.DSP_ENTRIES_LO_VALUE R.DSP_ENTRIES_HI_VALUE entries s
  let s := if drops = 0 then s else bumpF (dspBase d) R.DSP_STATUS_DROP_COUNT drops (setF (dspBase d) R.DSP_STATUS_DROP 1 s)
  bumpF (dspBase d) R.DSP_STATUS_NAN_COUNT nans s

/-- The end of a batch after its words are written: the registers, the summaries of the contributors and what starts next. -/
def dspFinish (d : Nat) (b : Batch) (bs : List Batch) (entries drops nans : Nat) (v : BitVec 128) (s : State) : State :=
  let u := dspCounts d entries drops nans s
  jobEnd (dspStart d (b.contribs.foldl (fun s c => coreComplete c.ins v s) (setDsp d { getDsp d u with batches := bs } u)))

/-- This die's selections of each expert, with the place of the first in the expert's list. -/
def placedSels (b : Batch) (d : Nat) (s : State) : List (Nat × Nat × List (Nat × Nat × Nat)) :=
  (List.range (hdrE b.header)).map fun e =>
    (e, ((namedDies b.header d).filter (· < d)).foldl (fun n i => n + slotCount b.header i e s) 0, selsOf (batchTokens b s) e)

/-- The total of an expert, gathered die by die. -/
def foldTotal (b : Batch) (d : Nat) (s : State) (e : Nat) : Nat := (namedDies b.header d).foldl (fun n i => n + slotCount b.header i e s) 0

/-- Whether a selection has a place among those of `placedSels`. -/
def keptPlaced (b : Batch) (d : Nat) (s : State) (o r : Nat) : Bool :=
  (placedSels b d s).any (fun p => p.2.2.zipIdx.any (fun y => y.1.1 = o && y.1.2.1 = r && p.2.1 + y.2 < hdrCap b.header))

/-- The selections of a token that `placedSels` has no place for. -/
def lostPlaced (b : Batch) (d : Nat) (s : State) (t : Token) : Nat :=
  if t.bad then hdrK b.header else ((List.range t.sels.length).filter (fun r => !keptPlaced b d s t.off r)).length

/-- The lists and pads of a batch, written by what it selects and counts in `s₀`. -/
def storeLists (b : Batch) (d : Nat) (s₀ s : State) : State :=
  let s := (placedSels b d s₀).foldl (fun s p => writeList d b.header p.1 p.2.1 p.2.2 0 s) s
  if b.pad && d = (namedDies b.header d).headD d then
    ((List.range (hdrE b.header)).zip ((List.range (hdrE b.header)).map (foldTotal b d s₀))).foldl (fun s p => writeWords (kDsp d) 8
      (List.replicate (hdrCap b.header - p.2) 0xFFFFFFFF) (hdrList b.header + 8 * (p.1 * hdrCap b.header + min p.2 (hdrCap b.header))) s) s
  else s

/-- The kept counts and the drop map of a batch. -/
def storeMaps (b : Batch) (d : Nat) (s₀ s : State) : State :=
  let s := if d = (namedDies b.header d).headD d then
      writeWords (kDsp d) 4 (((List.range (hdrE b.header)).map (foldTotal b d s₀)).map (fun t => min t (hdrCap b.header))) (hdrCount b.header + 4096) s else s
  if hdrDmap b.header then
    writeWords (kDsp d) 1 ((batchTokens b s₀).map fun t => packBits 1 ((List.range 8).map fun r => b2n (keptPlaced b d s₀ t.off r))) (hdrDmapAddr b.header) s
  else s

theorem foldTotal_eq (b : Batch) (d : Nat) (s : State) : foldTotal b d s = fun e => listTotal b.header d e s := funext fun _ => foldl_add_nat ..

theorem placedSels_eq (b : Batch) (d : Nat) (s : State) :
    placedSels b d s = (List.range (hdrE b.header)).map fun e => (e, listBase b.header d e s, selsOf (batchTokens b s) e) :=
  List.map_congr_left fun e _ => congrArg (fun n => (e, n, selsOf (batchTokens b s) e)) (foldl_add_nat ..)

theorem keptPlaced_eq (b : Batch) (d : Nat) (s : State) : keptPlaced b d s = keptSel b d s := by
  funext o r
  rw [keptPlaced, placedSels_eq, List.any_map]
  rfl

theorem sum_lostPlaced (b : Batch) (d : Nat) (s : State) : (batchTokens b s).foldl (fun n t => n + lostPlaced b d s t) 0 = lostSels b d s := by
  rw [foldl_add_nat]
  unfold lostPlaced
  rw [keptPlaced_eq]
  rfl

theorem storeLists_eq (b : Batch) (d : Nat) (s₀ s : State) : storeLists b d s₀ s = engWrites (kDsp d)
    (keptWords b d s₀ ++ if b.pad ∧ d = (namedDies b.header d).headD d then padWords b d s₀ else []) s := by
  have hkept : (placedSels b d s₀).foldl (fun s p => writeList d b.header p.1 p.2.1 p.2.2 0 s) s = engWrites (kDsp d) (keptWords b d s₀) s := by
    rw [placedSels_eq, List.foldl_map]
    simp only [writeList_eq_engWrites]
    exact engWrites_flatMap ..
  rw [storeLists, hkept, foldTotal_eq, ← List.map_prod_left_eq_zip, List.foldl_map, engWrites_append, ← engWrites_ite]
  simp only [Bool.and_eq_true, decide_eq_true_eq, writePads_eq_engWrites, engWrites_flatMap]
  rfl

theorem storeMaps_eq (b : Batch) (d : Nat) (s₀ s : State) : storeMaps b d s₀ s = engWrites (kDsp d)
    ((if d = (namedDies b.header d).headD d then totalWords b d s₀ else []) ++ if hdrDmap b.header then dropWords b d s₀ else []) s := by
  rw [storeMaps, foldTotal_eq, keptPlaced_eq, List.map_map, writeDrops_eq_engWrites, writeWords_range, engWrites_append, ← engWrites_ite, ← engWrites_ite]
  rfl

theorem dspBatchDone_eq {d : Nat} {s : State} {b : Batch} {bs : List Batch} (hb : (getDsp d s).batches = b :: bs)
    (hready : b.phase = 2 ∨ (b.phase = 1 ∧ hdrExch b.header = 0))
    (hfree : ∀ pl ∈ rangeHbm (dspRanges b.header (batchTokens b s).length) s, writeHeld pl s = false) :
    ∃ entries nans first ue, dspBatchDone d s = dspFinish d b bs entries (lostSels b d s) nans
      (mkSummary (((List.range (hdrE b.header)).map (fun e => listTotal b.header d e s)).foldl max 0) (lostSels b d s) first 0 false false ue)
      (engWrites (kDsp d) (batchWords b d s) s) := by
  rw [List.foldl_map, batchWords_eq, List.append_assoc, engWrites_append, ← storeLists_eq, ← storeMaps_eq, ← sum_lostPlaced]
  have htotal := foldTotal_eq b d s
  simp only [funext_iff] at htotal
  simp only [← htotal]
  rw [dspBatchDone]
  dsimp only
  rw [hb]
  dsimp only
  rw [if_neg (not_not_intro hready), withRoom_of_free hfree]
  exact ⟨_, _, _, _, rfl⟩

end Sys2Proof.Machine
end

section
/-! PROOFS. The end of a batch: its registers, its summaries and what stays (R171, R172), and the exchange of counts (R169). -/

namespace Sys2Proof.Machine

open Sys2Proof.Claims

/-! ### The summary (R172) -/

/-- VALUE and COUNT are the low fields of a summary. -/
theorem mkSummary_low (value count : Nat) (first : Option Nat) (flags : Nat) (mark trap ue : Bool) :
    ∃ r, mkSummary value count first flags mark trap ue = BitVec.ofNat 128 (value % 2 ^ 64 + min count 0x1FFFFFF * 2 ^ 64 + r * 2 ^ 89) := by
  obtain ⟨f, hf⟩ : ∃ f, mkSummary value count first flags mark trap ue = BitVec.ofNat 128 (value % 2 ^ 64 + min count 0x1FFFFFF * 2 ^ 64 + f * 2 ^ 89 +
      flags % 32 * 2 ^ 114 + b2n mark * 2 ^ 119 + b2n trap * 2 ^ 120 + b2n ue * 2 ^ 121) := ⟨_, rfl⟩
  rw [hf]
  exact ⟨f + flags % 32 * 2 ^ 25 + b2n mark * 2 ^ 30 + b2n trap * 2 ^ 31 + b2n ue * 2 ^ 32, congrArg (BitVec.ofNat 128) (by omega)⟩

theorem summary_value (value count : Nat) (first : Option Nat) (flags : Nat) (mark trap ue : Bool) :
    bitsAt (mkSummary value count first flags mark trap ue).toNat 0 64 = value % 2 ^ 64 := by
  obtain ⟨r, hr⟩ := mkSummary_low value count first flags mark trap ue
  rw [hr, bitsAt_toNat_ofNat _ (by decide), bitsAt, Nat.shiftRight_zero]
  omega

theorem summary_count (value count : Nat) (first : Option Nat) (flags : Nat) (mark trap ue : Bool) :
    bitsAt (mkSummary value count first flags mark trap ue).toNat 64 25 = min count 0x1FFFFFF := by
  obtain ⟨r, hr⟩ := mkSummary_low value count first flags mark trap ue
  rw [hr, bitsAt_toNat_ofNat _ (by decide), bitsAt, Nat.shiftRight_eq_div_pow]
  omega

/-! ### Every contributor's instruction completes (R172) -/

/-- The instructions of the contributions complete with the summary `v`. -/
def completeAll (v : BitVec 128) (l : List Contrib) (s : State) : State := l.foldl (fun s c => coreComplete c.ins v s) s

theorem completeAll_cons (v : BitVec 128) (c : Contrib) (l : List Contrib) (s : State) :
    completeAll v (c :: l) s = completeAll v l (setCore c.ins.core (coreAfter c.ins v (getCore c.ins.core s)) s) := by
  rw [completeAll, List.foldl_cons, coreComplete_eq, completeAll]

theorem completeAll_frame (v : BitVec 128) : ∀ (l : List Contrib) (s : State), ∃ cs, completeAll v l s = { s with cores := cs }
  | [], s => ⟨s.cores, rfl⟩
  | c :: l, s => by
    rw [completeAll_cons]
    obtain ⟨cs, hcs⟩ := completeAll_frame v l (setCore c.ins.core (coreAfter c.ins v (getCore c.ins.core s)) s)
    exact ⟨cs, hcs⟩

/-- A completion changes no core's state. -/
theorem st_completeAll (v : BitVec 128) (j : Nat) : ∀ (l : List Contrib) (s : State), (getCore j (completeAll v l s)).st = (getCore j s).st
  | [], _ => rfl
  | c :: l, s => by
    rw [completeAll_cons, st_completeAll v j l, getCore_setCore]
    split
    next hj =>
      subst hj
      have hst := congrArg Core.st (coreAfter_frame c.ins v (getCore c.ins.core s))
      exact hst
    next => rfl

theorem getCore_completeAll_other {v : BitVec 128} {j : Nat} : ∀ {l : List Contrib} {s : State}, (∀ c ∈ l, c.ins.core ≠ j) →
    getCore j (completeAll v l s) = getCore j s
  | [], _, _ => rfl
  | c :: l, s, h => by
    obtain ⟨hc, hl⟩ := List.forall_mem_cons.1 h
    rw [completeAll_cons, getCore_completeAll_other hl, getCore_setCore, if_neg (Ne.symm hc)]

/-- Where the contributors are different cores, each has its own instruction completed. -/
theorem getCore_completeAll {v : BitVec 128} : ∀ {l : List Contrib} {s : State}, (l.map (fun c => c.ins.core)).Nodup →
    ∀ c ∈ l, getCore c.ins.core (completeAll v l s) = coreAfter c.ins v (getCore c.ins.core s)
  | [], _, _, _, hc => absurd hc List.not_mem_nil
  | c :: l, s, h, x, hx => by
    rw [List.map_cons, List.nodup_cons] at h
    obtain ⟨hhead, htail⟩ := h
    have hother : ∀ y ∈ l, y.ins.core ≠ c.ins.core := fun y hy heq => hhead (List.mem_map.2 ⟨y, hy, heq⟩)
    rw [completeAll_cons]
    rcases List.mem_cons.1 hx with rfl | hx
    · rw [getCore_completeAll_other hother, getCore_setCore, if_pos rfl]
    · rw [getCore_completeAll htail x hx, getCore_setCore, if_neg (hother x hx)]

/-! ### The registers of the end of a batch -/

theorem regsOnly_dspCounts (d entries drops nans : Nat) (s : State) : RegsOnly s (dspCounts d entries drops nans s) := by
  have hentries := (RegsOnly.refl s).addPair (dspBase d) R.DSP_ENTRIES_LO_VALUE R.DSP_ENTRIES_HI_VALUE entries
  exact (RegsOnly.ite hentries ((hentries.setF ..).bumpF ..)).bumpF ..

theorem sameHomes_dspCounts (d entries drops nans : Nat) (s : State) : SameHomes s (dspCounts d entries drops nans s) := by
  have hentries := (SameHomes.refl s).addPair (le_dspBase d) R.DSP_ENTRIES_LO_VALUE R.DSP_ENTRIES_HI_VALUE entries
  rw [dspCounts]
  refine SameHomes.bumpF ?_ (le_dspBase d) ..
  split
  · exact hentries
  · exact (hentries.setF (le_dspBase d) ..).bumpF (le_dspBase d) ..

theorem getF_bumpF_beside {f g : Fld} (base n : Nat) (s : State) (h : FieldsBeside f g) (hg : g.lo + g.w ≤ 32) :
    getF base g (bumpF base f n s) = getF base g s := getF_setF_beside base _ s h hg

/-- A batch with dropped selections sets DROP. -/
theorem drop_dspCounts (d entries nans : Nat) {drops : Nat} (h : drops ≠ 0) (s : State) :
    getF (dspBase d) R.DSP_STATUS_DROP (dspCounts d entries drops nans s) = 1 := by
  rw [dspCounts, getF_bumpF_beside _ _ _ (by decide) (by decide), if_neg h, getF_bumpF_beside _ _ _ (by decide) (by decide), getF_setF _ _ _ _ (by decide)]
  rfl

theorem jobEnd_of_busy {s : State} (h : (getCore 36 s).st ≠ .idle) : jobEnd s = s := by
  refine if_neg fun ⟨_, hall, _⟩ => h ?_
  simpa using List.all_eq_true.1 hall 0 (by decide)

/-- With no batch behind and a core at work, the end of a batch is its registers, its queue and the summaries. -/
theorem dspFinish_last {d entries drops nans : Nat} {b : Batch} {v : BitVec 128} {s : State} (hbusy : (getCore 36 s).st ≠ .idle) :
    let u := dspCounts d entries drops nans s
    dspFinish d b [] entries drops nans v s = completeAll v b.contribs (setDsp d { getDsp d u with batches := [] } u) := by
  intro u
  obtain ⟨cs, hcs⟩ := completeAll_frame v b.contribs (setDsp d { getDsp d u with batches := [] } u)
  have hempty : (getDsp d (completeAll v b.contribs (setDsp d { getDsp d u with batches := [] } u))).batches = [] := by
    have hdsp : getDsp d (completeAll v b.contribs (setDsp d { getDsp d u with batches := [] } u)) =
        getDsp d (setDsp d { getDsp d u with batches := [] } u) := by rw [hcs]; rfl
    rw [hdsp, getDsp_setDsp, if_pos rfl]
  have hstart := dspStart_of_waiting (d := d) (s := completeAll v b.contribs (setDsp d { getDsp d u with batches := [] } u))
    fun _ _ h => nomatch hempty.symm.trans h
  have hcore : getCore 36 u = getCore 36 s := (regsOnly_dspCounts d entries drops nans s).sameBlocks.getCore_eq 36
  have hst := st_completeAll v 36 b.contribs (setDsp d { getDsp d u with batches := [] } u)
  rw [dspFinish]
  dsimp only
  rw [← completeAll, hstart]
  exact jobEnd_of_busy (by rw [hst]; exact hcore ▸ hbusy)

/-! ### The exchange of counts (R169) -/

theorem namedDies_nodup (h d : Nat) : (namedDies h d).Nodup := by
  rw [namedDies]
  split
  · exact List.nodup_singleton d
  · exact List.nodup_range.filter _

/-- Each slot taken out once takes one of it away. -/
theorem count_foldl_erase (ca : Nat) (y : Nat × Nat) : ∀ (l : List Nat) (g : List (Nat × Nat)), l.Nodup →
    (l.foldl (fun g i => g.erase (i, ca)) g).count y = g.count y - if y.2 = ca ∧ y.1 ∈ l then 1 else 0
  | [], g, _ => by simp
  | i :: l, g, h => by
    obtain ⟨hi, hl⟩ := List.nodup_cons.1 h
    rw [List.foldl_cons, count_foldl_erase ca y l _ hl]
    by_cases hy : (i, ca) = y
    · subst hy
      simp [hi]
    · have hmem : (y.2 = ca ∧ y.1 ∈ i :: l) ↔ y.2 = ca ∧ y.1 ∈ l := and_congr_right fun hca =>
        ⟨fun hmem => (List.mem_cons.1 hmem).resolve_left fun hfirst => hy (Prod.ext hfirst.symm hca.symm), List.mem_cons_of_mem i⟩
      rw [List.count_erase_of_ne (Ne.symm hy), if_congr hmem rfl rfl]

theorem dspExchange_of_ready {d : Nat} {s : State} {b : Batch} {bs : List Batch} (hb : (getDsp d s).batches = b :: bs) (hphase : b.phase = 1)
    (hexch : hdrExch b.header ≠ 0) (hgot : ∀ i ∈ (namedDies b.header d).filter (fun i => decide (i ≠ d)), (i, offOf (hdrCount b.header)) ∈ (getDsp d s).got)
    (hopen : ∀ i ∈ namedDies b.header d, writesOpen (.eng (kDsp i)) s = false) :
    dspExchange d s = setDsp d ⟨{ b with phase := 2 } :: bs,
      ((namedDies b.header d).filter (fun i => decide (i ≠ d))).foldl (fun g i => g.erase (i, offOf (hdrCount b.header))) (getDsp d s).got⟩ s := by
  rw [dspExchange]
  dsimp only
  rw [hb]
  refine if_pos ⟨hphase, hexch, List.all_eq_true.2 fun i hi => List.contains_iff_mem.2 (hgot i hi), List.all_eq_true.2 fun i hi => ?_⟩
  rw [hopen i hi]
  rfl

end Sys2Proof.Machine
end

section
/-! PROOFS. What a contribution, the exchange and the end of a batch do, as a whole (R167, R168, R169, R170, R171, R172). -/

namespace Sys2Proof.Machine

open Sys2Proof.Claims

/-! ### The start of a closed batch (R168, R169) -/

/-- A closed batch at the front writes the die's counts and tells the other named dies. -/
theorem dspStart_writes {d : Nat} {s : State} {b : Batch} {bs : List Batch} (halloc : ∀ i, i < 4 → streamAlloc i s = false)
    (hb : (getDsp d s).batches = b :: bs) (hclosed : 9 ≤ b.contribs.length) (hphase : b.phase = 0) (hhome : WordsAtHome (countWords d b s) s) :
    WordsWritten (countWords d b s) s (dspStart d s) ∧ (getDsp d (dspStart d s)).batches = { b with phase := 1, since := s.count } :: bs ∧
      (∀ i, i ∈ namedDies b.header d → i ≠ d → (d, offOf (hdrCount b.header)) ∈ (getDsp i (dspStart d s)).got) ∧ (dspStart d s).cores = s.cores := by
  have hsame := (SameHomes.refl s).setDsp d { getDsp d s with batches := { b with phase := 1, since := s.count } :: bs }
  have hfront : (getDsp d (setDsp d { getDsp d s with batches := { b with phase := 1, since := s.count } :: bs } s)).batches =
      { b with phase := 1, since := s.count } :: bs := by rw [getDsp_setDsp, if_pos rfl]
  rw [dspStart_closed hb hclosed hphase]
  generalize hw : setDsp d { getDsp d s with batches := { b with phase := 1, since := s.count } :: bs } s = w at *
  have hstart : w.cores = s.cores ∧ ∀ i, streamAlloc i w = streamAlloc i s := hw ▸ ⟨rfl, fun _ => rfl⟩
  obtain ⟨hcores, halloc'⟩ := hstart
  obtain ⟨hwritten, honly⟩ := wordsWritten_engWrites (kDsp d) (countWords d b s) w (fun i hi => (halloc' i).trans (halloc i hi))
    (fun y hy => by obtain ⟨e, -, rfl⟩ := List.mem_map.1 hy; exact .inr (.inl rfl)) (hsame.wordsAtHome hhome)
  generalize engWrites (kDsp d) (countWords d b s) w = v at *
  have hkept : v.cores = w.cores ∧ getDsp d v = getDsp d w := by
    obtain ⟨hbm, depot, rfl⟩ := honly
    exact ⟨rfl, rfl⟩
  obtain ⟨hvcores, hvdsp⟩ := hkept
  obtain ⟨ds, htell⟩ := dspTell_frame d (offOf (hdrCount b.header)) (namedDies b.header d) v
  obtain ⟨hown, hgot⟩ := getDsp_dspTell d (offOf (hdrCount b.header)) (namedDies b.header d) v
  refine ⟨?_, ?_, fun i hi hne => hgot i hne (.inr hi), ?_⟩
  · have hlast : SameHomes v (dspTell d (offOf (hdrCount b.header)) (namedDies b.header d) v) := by
      rw [htell]
      exact ⟨⟨fun _ _ _ => rfl, rfl, rfl, rfl, rfl⟩, rfl, rfl, rfl⟩
    exact hlast.wordsWritten_after (hsame.wordsWritten hwritten)
  · rw [hown, hvdsp, hfront]
  · rw [htell]
    exact hvcores.trans hcores

/-! ### A contribution (R167, R168) -/

section
variable {d : Fin 4} {corrected : Nat} {s : State} {x : EngIns} {rest : List EngIns} (hcross : (getEng (kDsp d) s).cross = x :: rest)
  (hmarks : ∀ p, p / 8 = x.core → tileMarks p s = []) {c : Nat} (hc : conRead x.core x.p.toNat s = c)
  (hroom : (getDsp d s).batches.any (Batch.takes (conHeader c)) = true ∨ ((getDsp d s).batches.filter (fun b => decide (b.contribs.length < 9))).length < 2)
  (hask : dspAsk d x.core [] x.p.toNat s = none) (hpass : firstFailing (dspChecks d x.core [] x.p.toNat s) = none)
include hcross hmarks hc hroom hask hpass

theorem runs_dspContribution : Runs (.dspContribution d ⟨corrected, []⟩) s (dspStart d (dspAfter d corrected c (hdrRead d (conHeader c) s) x rest s)) := by
  refine congrArg Host.Outcome.next ?_
  subst hc
  exact dspContribution_accepts hcross hmarks hroom hask hpass rfl rfl

/-- A contribution that closes no batch joins an open batch or opens one. -/
theorem dspContribution_joins (hnone : ∀ b ∈ (getDsp d s).batches, b.addr = conHeader c → b.contribs.length ≠ 8)
    (hfront : ∀ b bs, (getDsp d s).batches = b :: bs → b.contribs.length < 9 ∨ b.phase ≠ 0) :
    ∃ t con, Runs (.dspContribution d ⟨corrected, []⟩) s t ∧ (getEng (kDsp d) t).cross = rest ∧ con.ins = { x with desc := c } ∧ con.bad = [] ∧
      ((getDsp d s).batches.any (Batch.takes (conHeader c)) = true → (getDsp d t).batches = (getDsp d s).batches.map (Batch.join (conHeader c) con)) ∧
      ((getDsp d s).batches.any (Batch.takes (conHeader c)) = false → (getDsp d t).batches = (getDsp d s).batches ++
        [⟨conHeader c, hdrRead d (conHeader c) s, decide (effF (dspBase d) R.DSP_CFG_PAD_FILL R.DSP_CFG_LEVEL s = 1), dspLimit d x.core s, s.count, [con], 0⟩]) ∧
      (∀ j, j ≠ kDsp d → getEng j t = getEng j s) ∧
      { t with engines := s.engines, dsps := s.dsps, csr := s.csr, totals := s.totals, ran := s.ran } = s := by
  have hcore := core_lt_of_dspChecks (firstFailing_eq_none.1 hpass)
  have hrun := runs_dspContribution (corrected := corrected) hcross hmarks hc hroom hask hpass
  rw [dspStart_of_waiting (waiting_dspAfter hcore hnone hfront)] at hrun
  obtain ⟨hleft, hothers⟩ := getEng_dspAfter d corrected c (hdrRead d (conHeader c) s) x rest s
  exact ⟨_, ⟨{ x with desc := c }, []⟩, hrun, hleft, rfl, rfl, fun h => batches_dspAfter_opened (hopen := h) ..,
    fun h => batches_dspAfter_new (hcore := hcore) (hopen := h) .., hothers, dspAfter_frame ..⟩

/-- The ninth contribution of the front batch closes it and writes the die's counts. -/
theorem dspContribution_closes (halloc : ∀ i, i < 4 → streamAlloc i s = false) {b : Batch} {bs : List Batch} (hb : (getDsp d s).batches = b :: bs)
    (haddr : b.addr = conHeader c) (hlen : b.contribs.length = 8) (hphase : b.phase = 0) (hothers : ∀ y ∈ bs, y.addr = conHeader c → 9 ≤ y.contribs.length)
    (hhome : WordsAtHome (countWords d { b with contribs := b.contribs ++ [⟨{ x with desc := c }, []⟩] } s) s) :
    ∃ t, Runs (.dspContribution d ⟨corrected, []⟩) s t ∧
      WordsWritten (countWords d { b with contribs := b.contribs ++ [⟨{ x with desc := c }, []⟩] } s) s t ∧
      (getDsp d t).batches = { b with contribs := b.contribs ++ [⟨{ x with desc := c }, []⟩], phase := 1, since := s.count } :: bs ∧
      (∀ i, i ∈ namedDies b.header d → i ≠ d → (d.val, offOf (hdrCount b.header)) ∈ (getDsp i t).got) ∧ t.cores = s.cores := by
  have hrun := runs_dspContribution (corrected := corrected) hcross hmarks hc hroom hask hpass
  have hbatches := batches_dspAfter_ninth (n := corrected) (hd := hdrRead d (conHeader c) s) (x := x) (rest := rest) hb haddr hlen hothers
  have hsame := sameHomes_dspAfter d corrected c (hdrRead d (conHeader c) s) x rest s
  have halloc' := streamAlloc_dspAfter d corrected c (hdrRead d (conHeader c) s) x rest s
  have hframe := dspAfter_frame d corrected c (hdrRead d (conHeader c) s) x rest s
  generalize dspAfter d corrected c (hdrRead d (conHeader c) s) x rest s = u at *
  have hcount := congrArg State.count hframe
  have hcores := congrArg State.cores hframe
  rw [← countWords_of_tileSram hsame.tileSram] at hhome ⊢
  obtain ⟨hwritten, hfront, hgot, hkept⟩ := dspStart_writes (fun i hi => (halloc' i).trans (halloc i hi)) hbatches (by simp [hlen]) hphase
    (hsame.wordsAtHome hhome)
  exact ⟨_, hrun, hsame.wordsWritten hwritten, hcount ▸ hfront, hgot, hkept.trans hcores⟩

end

/-! ### The exchange of counts (R169) -/

theorem dspExchange_runs {d : Fin 4} {s : State} {b : Batch} {bs : List Batch} (hb : (getDsp d s).batches = b :: bs) (hphase : b.phase = 1)
    (hexch : hdrExch b.header ≠ 0)
    (hgot : ∀ i ∈ (namedDies b.header d).filter (fun i => decide (i ≠ d.val)), (i, offOf (hdrCount b.header)) ∈ (getDsp d s).got)
    (hopen : ∀ i ∈ namedDies b.header d, writesOpen (.eng (kDsp i)) s = false) :
    ∃ t, Runs (.dspExchangeDone d) s t ∧ (getDsp d t).batches = { b with phase := 2 } :: bs ∧
      (∀ y, (getDsp d t).got.count y = (getDsp d s).got.count y -
        (if y.2 = offOf (hdrCount b.header) ∧ y.1 ∈ (namedDies b.header d).filter (fun i => decide (i ≠ d.val)) then 1 else 0)) ∧
      (∀ j, j ≠ d.val → getDsp j t = getDsp j s) ∧ { t with dsps := s.dsps } = s := by
  refine ⟨_, congrArg Host.Outcome.next (dspExchange_of_ready hb hphase hexch hgot hopen), ?_, fun y => ?_, fun j hj => ?_, rfl⟩
  · rw [getDsp_setDsp, if_pos rfl]
  · rw [getDsp_setDsp, if_pos rfl]
    exact count_foldl_erase _ y _ _ ((namedDies_nodup ..).filter _)
  · rw [getDsp_setDsp, if_neg hj]

/-! ### The end of a batch (R170, R171, R172) -/

theorem dspBatchDone_runs {d : Fin 4} {s : State} {b : Batch} (halloc : ∀ i, i < 4 → streamAlloc i s = false) (hb : (getDsp d s).batches = [b])
    (hready : b.phase = 2 ∨ (b.phase = 1 ∧ hdrExch b.header = 0)) (hbusy : (getCore 36 s).st ≠ .idle) (hhome : WordsAtHome (batchWords b d s) s)
    (hfree : ∀ pl ∈ rangeHbm (dspRanges b.header (batchTokens b s).length) s, writeHeld pl s = false)
    (hcores : (b.contribs.map (fun c => c.ins.core)).Nodup) :
    ∃ t, Runs (.dspBatchDone d) s t ∧ WordsWritten (batchWords b d s) s t ∧ (getDsp d t).batches = [] ∧ t.engines = s.engines ∧ t.pkg = s.pkg ∧
      (lostSels b d s ≠ 0 → getF (dspBase d) R.DSP_STATUS_DROP t = 1) ∧
      ∀ c ∈ b.contribs,
        let v := ((List.range (hdrE b.header)).map (fun e => listTotal b.header d e s)).foldl max 0
        (∀ r, c.ins.sum = some r →
          let y := getS (getCore c.ins.core t) r
          bitsAt y.toNat 0 64 = v % 2 ^ 64 ∧ bitsAt y.toNat 64 25 = min (lostSels b d s) 0x1FFFFFF) ∧
        ∀ o, o ∈ (getCore c.ins.core t).out ↔
          o ∈ (getCore c.ins.core s).out ∧ ¬ (o.kind = c.ins.kind ∧ o.tile = c.ins.tile ∧ o.tag = c.ins.tag) := by
  obtain ⟨entries, nans, first, ue, hdone⟩ := dspBatchDone_eq hb hready hfree
  obtain ⟨hwritten, honly⟩ := wordsWritten_engWrites (kDsp d) (batchWords b d s) s halloc (fun w hw => wordSize_of_mem_batchWords hw) hhome
  generalize hw : engWrites (kDsp d) (batchWords b d s) s = w at hdone hwritten honly
  have hkept : w.engines = s.engines ∧ w.pkg = s.pkg ∧ w.cores = s.cores := by
    obtain ⟨hbm, depot, rfl⟩ := honly
    exact ⟨rfl, rfl, rfl⟩
  obtain ⟨hengines, hpkg, hwcores⟩ := hkept
  have hcore : ∀ j, getCore j w = getCore j s := fun j => by rw [getCore, getCore, hwcores]
  generalize hv : mkSummary _ (lostSels b d s) first 0 false false ue = v at hdone
  rw [dspFinish_last (by rwa [hcore])] at hdone
  generalize hu : dspCounts d entries (lostSels b d s) nans w = u at hdone
  have hregs : RegsOnly w u := hu ▸ regsOnly_dspCounts ..
  have hsame : SameHomes w u := hu ▸ sameHomes_dspCounts ..
  obtain ⟨cs, hframe⟩ := completeAll_frame v b.contribs (setDsp d { getDsp d u with batches := [] } u)
  have hsummary : ∀ c ∈ b.contribs, getCore c.ins.core (completeAll v b.contribs (setDsp d { getDsp d u with batches := [] } u)) =
      coreAfter c.ins v (getCore c.ins.core s) := fun c hc => by
    rw [getCore_completeAll hcores c hc, ← hcore, ← hregs.sameBlocks.getCore_eq]
    rfl
  refine ⟨_, congrArg Host.Outcome.next hdone, ?_, ?_, ?_, ?_, fun hlost => ?_, fun c hc => ⟨fun r hr => ?_, fun o => ?_⟩⟩
  · have hlast : SameHomes w (completeAll v b.contribs (setDsp d { getDsp d u with batches := [] } u)) := by
      obtain ⟨hbytes, hpoison, hchans, hhal⟩ := hsame.setDsp d { getDsp d u with batches := [] }
      obtain ⟨hcsr, hsram, hhbm, hbg, hdepot⟩ := hbytes
      rw [hframe]
      exact ⟨⟨hcsr, hsram, hhbm, hbg, hdepot⟩, hpoison, hchans, hhal⟩
    exact hlast.wordsWritten_after hwritten
  · rw [hframe]
    exact congrArg Dsp.batches ((getDsp_setDsp d d _ u).trans (if_pos rfl))
  · rw [hframe]
    exact hregs.sameBlocks.engines.trans hengines
  · obtain ⟨r, k, rfl⟩ := hregs
    rw [hframe]
    exact hpkg
  · rw [hframe, ← drop_dspCounts d entries nans hlost w, hu]
    rfl
  · rw [hsummary c hc, ((coreAfter_summary c.ins v (getCore c.ins.core s) r).1 hr).1, ← hv]
    exact ⟨summary_value .., summary_count ..⟩
  · rw [hsummary c hc]
    exact mem_coreAfter_out ..

end Sys2Proof.Machine
end

section
/-! PROOFS. The timeout of a batch (R173): the batch whose limit has run out, the missing contributions, and the fault of every core that contributed. -/

namespace Sys2Proof.Machine

open Sys2Proof.Claims

/-! ### The batch and its missing contributions -/

theorem batchExpired_iff (b : Batch) (s : State) : batchExpired b s = true ↔
    (b.contribs.length < 9 ∨ (b.phase = 1 ∧ hdrExch b.header ≠ 0)) ∧ 1000 * b.limit < (s.count - b.since).toNat := by
  simp [batchExpired, Batch.isOpen]

/-- The numbers below `n` that `p` does not name, as bits. -/
def missingBits (p : Nat → Bool) (n : Nat) : Nat := (List.range n).foldl (fun m i => if p i then m else m + 2 ^ i) 0

theorem missingBits_succ (p : Nat → Bool) (n : Nat) :
    missingBits p (n + 1) = if p n then missingBits p n else missingBits p n + 2 ^ n := by
  rw [missingBits, List.range_succ, List.foldl_append]
  rfl

theorem missingBits_lt (p : Nat → Bool) : ∀ n, missingBits p n < 2 ^ n
  | 0 => Nat.one_pos
  | n + 1 => by
    have := missingBits_lt p n
    rw [missingBits_succ]
    split <;> omega

theorem bitAt_missingBits (p : Nat → Bool) : ∀ (n : Nat) {i : Nat}, i < n → bitAt (missingBits p n) i = !p i
  | 0, _, hi => absurd hi (Nat.not_lt_zero _)
  | n + 1, i, hi => by
    have hlow := missingBits_lt p n
    rw [missingBits_succ, bitAt_eq_testBit]
    rcases Nat.lt_succ_iff_lt_or_eq.1 hi with hi | rfl
    · have hbelow := bitAt_missingBits p n hi
      rw [bitAt_eq_testBit] at hbelow
      split
      · exact hbelow
      · rwa [Nat.add_comm, Nat.testBit_two_pow_add_gt hi]
    · cases hp : p i with
      | true => rw [if_pos rfl, Nat.testBit_lt_two_pow hlow, Bool.not_true]
      | false => rw [if_neg Bool.false_ne_true, Nat.add_comm, Nat.testBit_two_pow_add_eq, Nat.testBit_lt_two_pow hlow]

/-! ### What a fault leaves alone (R161, R163) -/

/-- Of the registers only those of cores and the count of lost events changed, and no memory and no Dispatcher did. -/
def FaultsOnly (s t : State) : Prop :=
  (∀ d off, (∀ c, c < 44 → ¬ seqWord c off) → off ≠ lostAt → csrGet d off t = csrGet d off s) ∧ MemoriesKept s t ∧ t.dsps = s.dsps

theorem FaultsOnly.refl (s : State) : FaultsOnly s s := ⟨fun _ _ _ _ => rfl, ⟨rfl, rfl, rfl, rfl, rfl⟩, rfl⟩

theorem memoriesKept_trans {s t u : State} (h : MemoriesKept s t) (h' : MemoriesKept t u) : MemoriesKept s u := by
  obtain ⟨hhbm, hsram, hdepot, hpoison, hbg⟩ := h
  obtain ⟨hhbm', hsram', hdepot', hpoison', hbg'⟩ := h'
  exact ⟨hhbm'.trans hhbm, hsram'.trans hsram, hdepot'.trans hdepot, hpoison'.trans hpoison, hbg'.trans hbg⟩

theorem FaultsOnly.trans {s t u : State} (h : FaultsOnly s t) (h' : FaultsOnly t u) : FaultsOnly s u := by
  obtain ⟨hwords, hmem, hdsps⟩ := h
  obtain ⟨hwords', hmem', hdsps'⟩ := h'
  exact ⟨fun d off hoff hlost => (hwords' d off hoff hlost).trans (hwords d off hoff hlost), memoriesKept_trans hmem hmem', hdsps'.trans hdsps⟩

section
variable (c code addr : Nat) (s : State)

/-- An event changes no register but the count of lost events. -/
theorem csrGet_raise {d off : Nat} (src sev arg0 arg1 : Nat) (hlost : off ≠ lostAt) : csrGet d off (raise src code sev arg0 arg1 s) = csrGet d off s := by
  obtain ⟨hwords, -⟩ := onlyLogged_raise src code sev arg0 arg1 s
  exact hwords d off not_false hlost

/-- A register word that is none of the core's reads as before its fault. -/
theorem csrGet_faultHere {d off : Nat} (hseq : ¬ seqWord c off) (hlost : off ≠ lostAt) : csrGet d off (faultHere c code addr s) = csrGet d off s := by
  obtain ⟨m, hm, hwords⟩ := onlyWords_faultRegs c code (getCore c s).pc addr 0 0 0 s
  rw [faultHere, coreFault_eq, csrGet_raise _ _ _ _ _ _ hlost, csrGet_setCore]
  exact hwords d off hseq

theorem csrGet_faultHere_own (hc : c < 44) {d x : Nat} (hx : x < 0x1000) : csrGet d (seqBase c + x) (faultHere c code addr s) =
    csrGet d (seqBase c + x) (faultRegs c code (getCore c s).pc addr 0 0 0 s) := by
  rw [faultHere, coreFault_eq, csrGet_raise _ _ _ _ _ _ (seq_ne_lostAt hc hx), csrGet_setCore]

theorem getCore_faultHere (j : Nat) :
    getCore j (faultHere c code addr s) = if j = c then { getCore c s with st := .faulted, wait := none } else getCore j s := by
  obtain ⟨m, hm, -⟩ := onlyWords_faultRegs c code (getCore c s).pc addr 0 0 0 s
  rw [faultHere, coreFault_eq, (sameBlocks_raise ..).getCore_eq, getCore_setCore, hm]
  rfl

theorem faultsOnly_faultHere (hc : c < 44) : FaultsOnly s (faultHere c code addr s) := by
  refine ⟨fun d off hoff hlost => csrGet_faultHere c code addr s (hoff c hc) hlost, ?_⟩
  obtain ⟨m, hm, -⟩ := onlyWords_faultRegs c code (getCore c s).pc addr 0 0 0 s
  obtain ⟨-, hrest⟩ := onlyLogged_raise (srcCore c) 0x10 2 (coreId c + code * 2 ^ 8 + (getCore c s).pc.toNat * 2 ^ 16) 0
    (setCore c { getCore c s with st := .faulted, wait := none } (faultRegs c code (getCore c s).pc addr 0 0 0 s))
  rw [← coreFault_eq, ← faultHere, hm] at hrest
  have hhbm := congrArg State.hbm hrest
  have hsram := congrArg State.tileSram hrest
  have hdepot := congrArg State.depot hrest
  have hpoison := congrArg State.poison hrest
  have hbg := congrArg State.hbmBg hrest
  have hdsps := congrArg State.dsps hrest
  exact ⟨⟨hhbm, hsram, hdepot, hpoison, hbg⟩, hdsps⟩

end

/-! ### WAIT_TIMEOUT of a core (R173) -/

/-- Core `c` has taken WAIT_TIMEOUT with this address. -/
def TookTimeout (c addr : Nat) (s : State) : Prop :=
  (getCore c s).st = .faulted ∧ getF (seqBase c) R.SEQ_FAULT_CODE s = 7 ∧
    getPair (seqBase c) R.SEQ_FAULT_ADDR_LO_VALUE R.SEQ_FAULT_ADDR_HI_VALUE s = addr % 2 ^ 64

theorem tookTimeout_of_words {c addr : Nat} {s t : State} (h : TookTimeout c addr s) (hcore : getCore c t = getCore c s)
    (hwords : ∀ d x, x < 0x1000 → csrGet d (seqBase c + x) t = csrGet d (seqBase c + x) s) : TookTimeout c addr t := by
  obtain ⟨hst, hcode, haddr⟩ := h
  refine ⟨by rw [hcore, hst], (getF_of_word (hwords _ _ (by decide))).trans hcode, (getPair_of_words fun d off hoff => ?_).trans haddr⟩
  rcases hoff with rfl | rfl <;> exact hwords _ _ (by decide)

theorem tookTimeout_faultHere {c : Nat} (hc : c < 44) (addr : Nat) (s : State) : TookTimeout c addr (faultHere c 7 addr s) := by
  have hwords : ∀ d x, x < 0x1000 → csrGet d (seqBase c + x) (faultHere c 7 addr s) =
      csrGet d (seqBase c + x) (faultRegs c 7 (getCore c s).pc addr 0 0 0 s) := fun _ _ hx => csrGet_faultHere_own c 7 addr s hc hx
  have hpair : getPair (seqBase c) R.SEQ_FAULT_ADDR_LO_VALUE R.SEQ_FAULT_ADDR_HI_VALUE (faultHere c 7 addr s) =
      getPair (seqBase c) R.SEQ_FAULT_ADDR_LO_VALUE R.SEQ_FAULT_ADDR_HI_VALUE (faultRegs c 7 (getCore c s).pc addr 0 0 0 s) := by
    refine getPair_of_words fun d off hoff => ?_
    rcases hoff with rfl | rfl <;> exact hwords _ _ (by decide)
  refine ⟨by rw [getCore_faultHere, if_pos rfl], (getF_of_word (hwords _ _ (by decide))).trans ?_, hpair.trans ?_⟩
  · rw [faultRegs, getF_setPair_other (by decide) (by decide), getF_setPair_other (by decide) (by decide), getF_setF _ _ _ _ (by decide)]
    rfl
  · rw [faultRegs, getPair_setPair (by decide)]

/-- The registers of two cores lie apart. -/
theorem not_seqWord_of_ne {c j x : Nat} (hc : c < 44) (hj : j < 44) (hne : j ≠ c) (hx : x < 0x1000) : ¬ seqWord c (seqBase j + x) := by
  rintro ⟨y, hy, heq⟩
  unfold seqBase clusterBase dieBase at heq
  split at heq <;> split at heq <;> omega

/-- The fault of another core leaves one that has taken its own as it is. -/
theorem TookTimeout.faultHere_other {c j addr : Nat} {s : State} (h : TookTimeout j addr s) (hc : c < 44) (hj : j < 44) (hne : j ≠ c) (code a : Nat) :
    TookTimeout j addr (faultHere c code a s) :=
  tookTimeout_of_words h (by rw [getCore_faultHere, if_neg hne]) fun _ _ hx =>
    csrGet_faultHere c code a s (not_seqWord_of_ne hc hj hne hx) (seq_ne_lostAt hj hx)

/-! ### Every core that contributed (R173) -/

/-- Every core that contributed takes WAIT_TIMEOUT, except one that is stopped. -/
def expireAll (addr : Nat) (l : List Contrib) (s : State) : State :=
  l.foldl (fun s c => if (getCore c.ins.core s).st = .stopped then s else faultHere c.ins.core 7 addr s) s

theorem expireAll_cons (addr : Nat) (c : Contrib) (l : List Contrib) (s : State) : expireAll addr (c :: l) s =
    expireAll addr l (if (getCore c.ins.core s).st = .stopped then s else faultHere c.ins.core 7 addr s) := rfl

theorem faultsOnly_expireAll (addr : Nat) : ∀ {l : List Contrib} {s : State}, (∀ c ∈ l, c.ins.core < 44) → FaultsOnly s (expireAll addr l s)
  | [], s, _ => .refl s
  | c :: l, s, h => by
    obtain ⟨hc, hl⟩ := List.forall_mem_cons.1 h
    rw [expireAll_cons]
    split
    · exact faultsOnly_expireAll addr hl
    · exact (faultsOnly_faultHere _ 7 addr s hc).trans (faultsOnly_expireAll addr hl)

theorem getCore_expireAll {addr j : Nat} : ∀ {l : List Contrib} {s : State}, (∀ c ∈ l, c.ins.core ≠ j) → getCore j (expireAll addr l s) = getCore j s
  | [], _, _ => rfl
  | c :: l, s, h => by
    obtain ⟨hc, hl⟩ := List.forall_mem_cons.1 h
    rw [expireAll_cons, getCore_expireAll hl]
    split
    · rfl
    · rw [getCore_faultHere, if_neg (Ne.symm hc)]

theorem TookTimeout.expireAll {addr j : Nat} (hj : j < 44) : ∀ {l : List Contrib} {s : State}, (∀ c ∈ l, c.ins.core < 44) → TookTimeout j addr s →
    TookTimeout j addr (expireAll addr l s)
  | [], _, _, h => h
  | c :: l, s, hl, h => by
    obtain ⟨hc, hl⟩ := List.forall_mem_cons.1 hl
    rw [expireAll_cons]
    refine TookTimeout.expireAll hj hl ?_
    split
    · exact h
    · by_cases hne : j = c.ins.core
      · exact hne ▸ tookTimeout_faultHere hc addr s
      · exact h.faultHere_other hc hj hne 7 addr

/-- A contributor that is not stopped takes its fault. -/
theorem tookTimeout_expireAll {addr : Nat} : ∀ {l : List Contrib} {s : State}, (∀ c ∈ l, c.ins.core < 44) → ∀ c ∈ l, (getCore c.ins.core s).st ≠ .stopped →
    TookTimeout c.ins.core addr (expireAll addr l s)
  | [], _, _, _, hc, _ => absurd hc List.not_mem_nil
  | x :: l, s, hl, c, hc, hst => by
    have hlt := hl c hc
    obtain ⟨hx, hl⟩ := List.forall_mem_cons.1 hl
    rw [expireAll_cons]
    by_cases heq : c.ins.core = x.ins.core
    · rw [← heq, if_neg hst]
      exact (tookTimeout_faultHere hlt addr s).expireAll hlt hl
    · have hmem : c ∈ l := (List.mem_cons.1 hc).resolve_left fun h => heq (h ▸ rfl)
      refine tookTimeout_expireAll hl c hmem ?_
      split
      · exact hst
      · rwa [getCore_faultHere, if_neg heq]

/-! ### The timeout (R173) -/

/-- The registers that name the timeout and the missing contributions. -/
def timeoutRegs (d missing : Nat) (s : State) : State := setF (dspBase d) R.DSP_ERR_MISSING missing (setF (dspBase d) R.DSP_ERR_TIMEOUT 1 s)

theorem timeoutRegs_read (d : Nat) {missing : Nat} (h : missing < 2 ^ 9) (s : State) :
    getF (dspBase d) R.DSP_ERR_TIMEOUT (timeoutRegs d missing s) = 1 ∧ getF (dspBase d) R.DSP_ERR_MISSING (timeoutRegs d missing s) = missing := by
  constructor
  · rw [timeoutRegs, getF_setF_beside _ _ _ (by decide) (by decide), getF_setF _ _ _ _ (by decide)]
    rfl
  · rw [timeoutRegs, getF_setF _ _ _ _ (by decide)]
    exact Nat.mod_eq_of_lt h

theorem dspTimeout_eq {d : Nat} {s : State} {b : Batch} (hpkg : s.pkg ≠ .frozen)
    (hfind : (getDsp d s).batches.find? (fun b => batchExpired b s) = some b) :
    dspTimeout d s = expireAll b.addr b.contribs (timeoutRegs d (missingBits (fun i => b.contribs.any (fun c => c.ins.core = 9 * d + i)) 9) s) := by
  rw [dspTimeout, if_neg hpkg, hfind]
  rfl

theorem dspTimeout_runs {d : Fin 4} {s : State} {pre post : List Batch} {b : Batch} (hb : (getDsp d s).batches = pre ++ b :: post) (hpkg : s.pkg ≠ .frozen)
    (hpre : ∀ y ∈ pre, batchExpired y s = false) (hexpired : batchExpired b s = true) (hcores : ∀ c ∈ b.contribs, c.ins.core < 44) :
    ∃ t, Runs (.dspBatchTimeout d) s t ∧ getF (dspBase d) R.DSP_ERR_TIMEOUT t = 1 ∧
      (∀ i, i < 9 → (bitAt (getF (dspBase d) R.DSP_ERR_MISSING t) i = true ↔ ∀ c ∈ b.contribs, c.ins.core ≠ 9 * d.val + i)) ∧
      (∀ c ∈ b.contribs, (getCore c.ins.core s).st ∈ [CoreSt.running, .waiting, .inTrap] → TookTimeout c.ins.core b.addr t) ∧
      (∀ j, (∀ c ∈ b.contribs, c.ins.core ≠ j) → getCore j t = getCore j s) ∧ MemoriesKept s t ∧ t.dsps = s.dsps := by
  have hfind : (getDsp d s).batches.find? (fun b => batchExpired b s) = some b :=
    List.find?_eq_some_iff_append.2 ⟨hexpired, pre, post, hb, fun y hy => by rw [hpre y hy]; rfl⟩
  have hrun : Runs (.dspBatchTimeout d) s (dspTimeout d s) := rfl
  rw [dspTimeout_eq hpkg hfind] at hrun
  generalize hp : (fun i => b.contribs.any (fun c => c.ins.core = 9 * d.val + i)) = p at hrun
  obtain ⟨htimeout, hmissing⟩ := timeoutRegs_read d (missingBits_lt p 9) s
  have hregs : RegsOnly s (timeoutRegs d (missingBits p 9) s) := ((RegsOnly.refl s).setF ..).setF ..
  generalize timeoutRegs d (missingBits p 9) s = u at hrun htimeout hmissing hregs
  have hkept : MemoriesKept s u ∧ u.dsps = s.dsps ∧ ∀ j, getCore j u = getCore j s := by
    obtain ⟨r, k, rfl⟩ := hregs
    exact ⟨⟨rfl, rfl, rfl, rfl, rfl⟩, rfl, fun _ => rfl⟩
  obtain ⟨hmem, hdsps, hcore⟩ := hkept
  obtain ⟨hwords, hmem', hdsps'⟩ := faultsOnly_expireAll b.addr (s := u) hcores
  have herr : csrGet R.DSP_ERR_TIMEOUT.word (dspBase d + 0x10) (expireAll b.addr b.contribs u) = csrGet R.DSP_ERR_TIMEOUT.word (dspBase d + 0x10) u := by
    refine hwords _ _ (fun c hc ⟨x, hx, heq⟩ => seqBase_ne_dspBase d hc hx (by decide) heq.symm) ?_
    have hdsp := le_dspBase d
    have hlost : lostAt = 0x030010 := rfl
    omega
  refine ⟨_, hrun, (getF_of_word herr).trans htimeout, fun i hi => ?_, fun c hc hst => ?_, fun j hj => (getCore_expireAll hj).trans (hcore j),
    memoriesKept_trans hmem hmem', hdsps'.trans hdsps⟩
  · rw [(getF_of_word (f := R.DSP_ERR_MISSING) herr).trans hmissing, bitAt_missingBits p 9 hi, ← hp]
    simp
  · refine tookTimeout_expireAll hcores c hc fun hstopped => ?_
    rw [← hcore, hstopped] at hst
    simp at hst

/-- In FROZEN a batch does not time out. -/
theorem dspTimeout_frozen (d : Fin 4) {s : State} (h : s.pkg = .frozen) : Runs (.dspBatchTimeout d) s s := congrArg Host.Outcome.next (if_pos h)

end Sys2Proof.Machine
end

section
/-! PROOFS. The statement about the Dispatchers' batches (R167 to R174). -/

namespace Sys2Proof.Machine

open Sys2Proof.Claims

/-- Settles O47: a contribution joins, opens or closes its batch, the exchange and the end of a batch write what the batch selects, and a timeout names what is missing. -/
theorem dispatchersRouteTheirBatches : Obligations.DispatchersRouteTheirBatches := by
  unfold Obligations.DispatchersRouteTheirBatches
  intro d corrected s halloc k z ecc
  refine ⟨fun x rest hcross hmarks hroom hask hpass => ⟨?_, ?_⟩, fun b bs hb => ⟨?_, ?_⟩, dspTimeout_frozen d, ?_⟩
  · exact dspContribution_joins hcross hmarks rfl hroom hask hpass
  · exact fun b bs hb haddr hlen hphase hothers => dspContribution_closes hcross hmarks rfl hroom hask hpass halloc hb haddr hlen hphase hothers
  · exact fun hphase hexch hgot hopen => dspExchange_runs hb hphase hexch hgot hopen
  · intro hready hlast hbusy hhome hfree hcores
    subst hlast
    exact dspBatchDone_runs halloc hb hready hbusy hhome hfree hcores
  · intro pre b post hb hpkg collecting late hpre hcollecting hlate hcores
    refine dspTimeout_runs hb hpkg (fun y hy => ?_) ((batchExpired_iff b s).2 ⟨hcollecting, hlate⟩) hcores
    exact Bool.eq_false_iff.2 fun hexpired => hpre y hy ((batchExpired_iff y s).1 hexpired)

end Sys2Proof.Machine
end

section
/-! PROOFS. A solver computes a problem: the parts of its result, its sources, and what an operation leaves (R207 to R215, R222). -/

namespace Sys2Proof.Machine

open Sys2Proof.Claims

/-! ### The parts of a problem's result (R215) -/

/-- The status word of a problem by its parts (R215). -/
def statusWord (sing range reject warm ue : Bool) (col var elem sings clamps : Nat) : Nat :=
  b2n sing + 2 * b2n range + 4 * b2n reject + 8 * b2n warm + 16 * b2n ue + 2 ^ 8 * col + 2 ^ 16 * var + 2 ^ 20 * elem + 2 ^ 40 * sings + 2 ^ 48 * clamps

/-- The flags of a status word lie below its other parts. -/
theorem bitAt_statusWord (sing range reject warm ue : Bool) (col var elem sings clamps : Nat) :
    let v := (BitVec.ofNat 64 (statusWord sing range reject warm ue col var elem sings clamps)).toNat
    bitAt v 0 = sing ∧ bitAt v 1 = range ∧ bitAt v 2 = reject ∧ bitAt v 4 = ue := by
  intro v
  have hlow : v % 2 ^ 8 = b2n sing + 2 * b2n range + 4 * b2n reject + 8 * b2n warm + 16 * b2n ue := by
    have hflag : ∀ b, b2n b ≤ 1 := fun b => by cases b <;> decide
    have := hflag sing
    have := hflag range
    have := hflag reject
    have := hflag warm
    have := hflag ue
    simp only [v, statusWord, BitVec.toNat_ofNat]
    omega
  have hbit : ∀ i, i < 8 → bitAt v i = bitAt (v % 2 ^ 8) i := fun i hi => by
    rw [bitAt_eq_testBit, bitAt_eq_testBit, Nat.testBit_mod_two_pow, decide_eq_true hi, Bool.true_and]
  rw [hbit 0 (by decide), hbit 1 (by decide), hbit 2 (by decide), hbit 4 (by decide), hlow]
  clear hlow hbit v
  revert sing range reject warm ue
  decide

/-- On clean data a result is put together from the words of X and F, the warm record's words, and what the work met. -/
theorem slvProblem_clean (k : Nat) (x : SlvD) (p : Nat) (s : State) : ∃ (st : Slv) (xs fs : List DWord) (w : DWord × DWord × Word) (warm : Bool)
    (col var elem sings clamps : Nat),
    slvProblem k x p [] s = ⟨if x.solve then xs else [], if x.addr 3 ≠ 0 then fs else [],
      BitVec.ofNat 64 (statusWord (!st.sing.isEmpty) (!st.log.isEmpty) (x.warm && !warm) warm false col var elem sings clamps),
      if x.warm then some w else none, st.sing.head?, lowestClamp st.log, []⟩ :=
  ⟨_, _, _, _, _, _, _, _, _, _, rfl⟩

theorem lowestClamp_isSome : ∀ l : List (Nat × Nat), (lowestClamp l).isSome = !l.isEmpty
  | [] => rfl
  | c :: l => by
    rw [lowestClamp]
    split <;> rfl

/-- Outputs that the descriptor does not ask for are empty, and the flags say what the work met. -/
theorem slvProblem_parts (k : Nat) (x : SlvD) (p : Nat) (s : State) :
    let r := slvProblem k x p [] s
    (x.solve = false → r.x = []) ∧ (x.addr 3 = 0 → r.f = []) ∧
      (bitAt r.status.toNat 0 = true ↔ r.sing ≠ none) ∧ (bitAt r.status.toNat 1 = true ↔ r.range ≠ none) ∧
      (bitAt r.status.toNat 2 = true → x.warm = true) ∧ bitAt r.status.toNat 4 = false ∧ (r.warm.isSome ↔ x.warm = true) := by
  intro r
  obtain ⟨st, xs, fs, w, warm, col, var, elem, sings, clamps, hr⟩ := slvProblem_clean k x p s
  obtain ⟨hsing, hrange, hreject, hue⟩ := bitAt_statusWord (!st.sing.isEmpty) (!st.log.isEmpty) (x.warm && !warm) warm false col var elem sings clamps
  simp only [r, hr, hsing, hrange, hreject, hue]
  refine ⟨fun h => if_neg (by simp [h]), fun h => if_neg (by simp [h]), ?_, ?_, fun h => (Bool.and_eq_true_iff.1 h).1, trivial, ?_⟩
  · simp
  · rw [← lowestClamp_isSome, ← Option.isSome_iff_ne_none]
  · cases x.warm <;> simp

/-! ### A problem starts (R207, R222) -/

/-- Part of the sources is at hand where all of them are. -/
theorem sourcesHere_of_subset {k : Nat} {l m : List (Nat × Nat)} {s : State} (h : SourcesHere k m s) (hsub : l ⊆ m) : SourcesHere k l s := by
  obtain ⟨hheld, hmissing, hpoison, hrest⟩ := h
  have hlines : (l.flatMap fun r => rangeLines r.1 r.2) ⊆ m.flatMap fun r => rangeLines r.1 r.2 := by
    intro a ha
    obtain ⟨r, hr, har⟩ := List.mem_flatMap.1 ha
    exact List.mem_flatMap.2 ⟨r, hsub hr, har⟩
  have hnone : missingLines k l s = [] := by
    rw [missingLines, List.dedup_eq_nil, List.filter_eq_nil_iff] at hmissing ⊢
    exact fun x hx => hmissing x (hlines hx)
  have hhome : rangeHbm l s ⊆ rangeHbm m s := by
    intro pl hpl
    rw [rangeHbm, List.mem_dedup, List.mem_filterMap] at hpl ⊢
    obtain ⟨x, hx, hxpl⟩ := hpl
    exact ⟨x, hlines hx, hxpl⟩
  refine ⟨?_, hnone, fun r hr => hpoison r (hsub hr), hrest⟩
  rw [heldLines] at hheld ⊢
  split
  · rfl
  · rename_i hbusy
    rw [if_neg hbusy, List.filter_eq_nil_iff] at hheld
    exact List.filter_eq_nil_iff.2 fun pl hpl => hheld pl (hhome hpl)

theorem slvHead_subset (k : Nat) (x : SlvD) (p : Nat) (s : State) : slvHead x p ⊆ slvRanges k x p s := by
  intro r hr
  simp only [slvRanges, List.mem_append, hr, or_true, true_or]

/-- With its sources at hand and clean the front instruction computes its next problem. -/
theorem slvRun_clean {op e corrected : Nat} {s : State} {y : EngIns} (hy : engHead (kSlv e) s = some y) (hop : SlvD.op ⟨y.desc⟩ = op) (hphase : y.phase = 0)
    (hleft : y.value < SlvD.batch ⟨y.desc⟩) (hdue : freezeDue s = false) (hpkg : s.pkg ≠ .frozen)
    (hsrc : SourcesHere (kSlv e) (slvRanges (kSlv e) ⟨y.desc⟩ y.value s) s) :
    slvRun op e ⟨corrected, []⟩ s = setHead (kSlv e) { y with phase := 1 }
      { bumpF (slvBase e) R.SLV_CE_COUNT_COUNT corrected s with slvs := sIns e (slvProblem (kSlv e) ⟨y.desc⟩ y.value [] s) s.slvs } := by
  have hstart : ¬ (SlvD.op ⟨y.desc⟩ ≠ op ∨ y.phase ≠ 0 ∨ y.value ≥ SlvD.batch ⟨y.desc⟩ ∨ freezeDue s ∨ s.pkg = .frozen) := by
    simp [hop, hphase, hdue, hpkg, hleft]
  rw [slvRun, hy]
  dsimp only
  rw [if_neg hstart, withSources_here (sourcesHere_of_subset hsrc (slvHead_subset ..)), withSources_here hsrc, badAddrs_clean hsrc]

theorem engHead_setHead (k : Nat) (x : EngIns) (s : State) : engHead k (setHead k x s) = some x := by
  rw [engHead, getEng_setHead, if_pos rfl, List.head?_cons]

theorem setHead_frame (k : Nat) (x : EngIns) (s : State) : ∃ m, setHead k x s = { s with engines := m } := ⟨_, rfl⟩

/-- An operation notes its problem's result, makes its instruction wait for the problem's end, and counts corrected errors. -/
theorem slvRun_spec {op corrected : Nat} {e : Fin 8} {s : State} {y : EngIns} {i : Instr} (hi : exec i s = .next (slvRun op e ⟨corrected, []⟩ s))
    (hy : engHead (kSlv e) s = some y) (hop : SlvD.op ⟨y.desc⟩ = op) (hphase : y.phase = 0) (hleft : y.value < SlvD.batch ⟨y.desc⟩)
    (hdue : freezeDue s = false) (hpkg : s.pkg ≠ .frozen) (hsrc : SourcesHere (kSlv e) (slvRanges (kSlv e) ⟨y.desc⟩ y.value s) s) :
    ∃ t, Runs i s t ∧ sFind t.slvs e = some (slvProblem (kSlv e) ⟨y.desc⟩ y.value [] s) ∧ engHead (kSlv e) t = some { y with phase := 1 } ∧
      (∀ j, j ≠ kSlv e → getEng j t = getEng j s) ∧ { t with slvs := s.slvs, engines := s.engines, csr := s.csr, totals := s.totals } = s := by
  rw [slvRun_clean hy hop hphase hleft hdue hpkg hsrc] at hi
  generalize slvProblem (kSlv e) ⟨y.desc⟩ y.value [] s = r at hi ⊢
  obtain ⟨c, n, hbump⟩ := (RegsOnly.refl s).bumpF (slvBase e) R.SLV_CE_COUNT_COUNT corrected
  rw [hbump] at hi
  refine ⟨_, hi, ?_, engHead_setHead .., fun j hj => ?_, ?_⟩
  · exact (sFind_sIns ..).trans (if_pos rfl)
  · exact (getEng_setHead ..).trans (if_neg hj)
  · obtain ⟨m, hm⟩ := setHead_frame (kSlv e) { y with phase := 1 } { s with csr := c, totals := n, slvs := sIns e r s.slvs }
    rw [hm]

end Sys2Proof.Machine
end

section
/-! PROOFS. What a solver writes at a problem's end: arrays, status word and warm record as words that lie apart, the record's first two words in one write (R211,
R212, R215). -/

namespace Sys2Proof.Machine

open Sys2Proof.Claims

/-! ### Words that lie apart, in two parts -/

theorem wordsAtHome_append {l m : List (Nat × Nat × Nat)} {s : State} (h : WordsAtHome (l ++ m) s) : WordsAtHome l s ∧ WordsAtHome m s := by
  obtain ⟨hplaces, happart⟩ := h
  obtain ⟨hl, hm, -⟩ := List.pairwise_append.1 happart
  exact ⟨⟨fun w hw => hplaces w (List.mem_append_left _ hw), hl⟩, fun w hw => hplaces w (List.mem_append_right _ hw), hm⟩

/-- Words written after others that lie apart from them leave those as written. -/
theorem wordsWritten_append {l m : List (Nat × Nat × Nat)} {s t u : State} (h : WordsAtHome (l ++ m) s) (honly : HbmOnly s t)
    (hl : WordsWritten l s t) (hm : WordsWritten m t u) : WordsWritten (l ++ m) s u := by
  obtain ⟨hplaces, happart⟩ := h
  obtain ⟨-, -, hbetween⟩ := List.pairwise_append.1 happart
  obtain ⟨hheld, hkept, htile⟩ := hl
  obtain ⟨hheld', hkept', htile'⟩ := hm
  simp only [honly.target_eq] at hheld' hkept'
  refine ⟨fun w hw p hp i hi => ?_, fun y hy => ?_, htile'.trans htile⟩
  · rcases List.mem_append.1 hw with hw | hw
    · refine (hkept' _ fun v hv q hq hin => ?_).trans (hheld w hw p hp i hi)
      have := hbetween w hw v hv p q hp hq
      omega
    · exact hheld' w hw p hp i hi
  · exact (hkept' y fun w hw => hy w (List.mem_append_right _ hw)).trans (hkept y fun w hw => hy w (List.mem_append_left _ hw))

/-! ### Two words in one write -/

/-- Bytes of one line lie in HBM as they lie in the line (R226, R228, R229). -/
theorem hbmOf_add {spread : Bool} {o m p q : Nat} {s : State} (hm : o % 128 + m < 128) (hp : hbmOf spread o s = some p)
    (hq : hbmOf spread (o + m) s = some q) : q = p + m := by
  unfold hbmOf at hp hq
  cases spread with
  | true =>
    rw [if_pos rfl] at hp hq
    obtain ⟨-, hp⟩ := Option.ite_none_right_eq_some.1 hp
    obtain ⟨-, hq⟩ := Option.ite_none_right_eq_some.1 hq
    have hgranule : (o + m) / 4096 = o / 4096 := by omega
    rw [← Option.some.inj hp, ← Option.some.inj hq, spreadMap, spreadMap, hgranule, physOf, physOf]
    omega
  | false =>
    rw [if_neg Bool.false_ne_true] at hp hq
    obtain ⟨-, hp⟩ := Option.ite_none_right_eq_some.1 hp
    obtain ⟨-, hq⟩ := Option.ite_none_right_eq_some.1 hq
    obtain ⟨hlow, -⟩ := linearMap_granule o
    obtain ⟨hhigh, -⟩ := linearMap_granule (o + m)
    rw [← Option.some.inj hp, ← Option.some.inj hq, hlow, hhigh, show (o + m) / 512 = o / 512 by omega]
    omega

/-- Bytes of one line that global addresses name lie in HBM as they lie in the line. -/
theorem target_hbm_add {a m p q : Nat} {s : State} (hm : a % 128 + m < 128) (hp : target (offOf a) s = .hbm p) (hq : target (offOf (a + m)) s = .hbm q) :
    q = p + m := by
  have hoff : offOf (a + m) = offOf a + m ∧ offOf a % 128 + m < 128 := by
    unfold offOf
    omega
  obtain ⟨hoff, hline⟩ := hoff
  rw [hoff] at hq
  have hlin : ∀ o r, hbmOf false o s = some r → o < 12 * 2 ^ 36 := fun o r hr => by
    rw [hbmOf, if_neg Bool.false_ne_true] at hr
    obtain ⟨⟨hstack, -⟩, -⟩ := Option.ite_none_right_eq_some.1 hr
    omega
  rcases target_eq_hbm hp with hp | ⟨hwin, hp⟩ <;> rcases target_eq_hbm hq with hq | ⟨hwin', hq⟩
  · exact hbmOf_add hline hp hq
  · have := hlin _ _ hp
    omega
  · have := hlin _ _ hq
    omega
  · rw [show offOf a + m - 2 ^ 44 = offOf a - 2 ^ 44 + m by omega] at hq
    exact hbmOf_add (by omega) hp hq

/-- Two words stored side by side are both written. -/
theorem wordsWritten_of_storedAt_pair {a p lo up : Nat} {s t : State} (hlo : lo < 2 ^ 64) (hline : a % 128 + 8 < 128) (hp : target (offOf a) s = .hbm p)
    (hplaced : ∃ q, target (offOf (a + 8)) s = .hbm q) (h : StoredAt p 16 (lo + 2 ^ 64 * up) s t) : WordsWritten [(a, 8, lo), (a + 8, 8, up)] s t := by
  obtain ⟨hin, hout, htile⟩ := h
  obtain ⟨q, hq⟩ := hplaced
  obtain rfl := target_hbm_add hline hp hq
  refine ⟨fun w hw r hr i hi => ?_, fun y hy => hout y ?_, htile⟩
  · rcases List.mem_pair.1 hw with rfl | rfl
    · obtain rfl := Target.hbm.inj (hp.symm.trans hr)
      dsimp only at hi ⊢
      rw [hin i (by omega), ← byte_mod_two_pow hi, show (lo + 2 ^ 64 * up) % 2 ^ (8 * 8) = lo by omega]
    · obtain rfl := Target.hbm.inj (hq.symm.trans hr)
      dsimp only at hi ⊢
      rw [Nat.add_assoc, hin (8 + i) (by omega), Nat.pow_add, ← Nat.div_div_eq_div_mul, show (lo + 2 ^ 64 * up) / 256 ^ 8 = up by omega]
  · have hlow := hy _ (List.mem_cons_self ..) p hp
    have hhigh := hy _ (List.mem_cons_of_mem _ (List.mem_cons_self ..)) _ hq
    dsimp only at hlow hhigh
    omega

theorem engWrites_singleton (k a n v : Nat) (s : State) : engWrites k [(a, n, v)] s = engWrite k a n v s := by
  rw [engWrites, List.foldl_cons, List.foldl_nil]

theorem engWrites_pair (k a n v b m u : Nat) (s : State) : engWrites k [(a, n, v), (b, m, u)] s = engWrite k b m u (engWrite k a n v s) := by
  rw [engWrites, List.foldl_cons, List.foldl_cons, List.foldl_nil]

/-- Across a line's end a write of two words is a write of each. -/
theorem engWrite_pair_across {k a lo up : Nat} (hlo : lo < 2 ^ 64) (hup : up < 2 ^ 64) (hcross : a % 128 = 120) (s : State) :
    engWrite k a 16 (lo + 2 ^ 64 * up) s = engWrites k [(a, 8, lo), (a + 8, 8, up)] s := by
  have hpieces : linePieces a 16 = [(0, 8), (8, 8)] := by
    rw [linePieces_cons (by omega), show min 16 (128 - a % 128) = 8 by omega, linePieces_cons (by omega),
      show min (16 - 8) (128 - (a + 8) % 128) = 8 by omega]
    rfl
  rw [engWrite, ← foldl_putPiece k _ a 16 _ s (.inr (by omega)), hpieces]
  have hlow : bitsAt (lo + 2 ^ 64 * up) 0 64 = lo := by
    rw [bitsAt, Nat.shiftRight_zero]
    omega
  have hhigh : bitsAt (lo + 2 ^ 64 * up) 64 64 = up := by
    rw [bitsAt, Nat.shiftRight_eq_div_pow]
    omega
  simp only [List.foldl_cons, List.foldl_nil, putPiece, Nat.mul_zero, Nat.reduceMul, hlow, hhigh, Nat.add_zero, engWrites_pair]

/-- A write of two words that lie at home writes both, and nothing else of memory. -/
theorem wordsWritten_engWrite_pair {k a lo up : Nat} {s : State} (hlo : lo < 2 ^ 64) (hup : up < 2 ^ 64) (halloc : ∀ i, i < 4 → streamAlloc i s = false)
    (hhome : WordsAtHome [(a, 8, lo), (a + 8, 8, up)] s) :
    WordsWritten [(a, 8, lo), (a + 8, 8, up)] s (engWrite k a 16 (lo + 2 ^ 64 * up) s) ∧ HbmOnly s (engWrite k a 16 (lo + 2 ^ 64 * up) s) := by
  obtain ⟨hlocal, halign, p, hp, hheld, hc⟩ := hhome.1 _ (List.mem_cons_self ..)
  obtain ⟨-, -, q, hq, -⟩ := hhome.1 _ (List.mem_cons_of_mem _ (List.mem_cons_self ..))
  dsimp only at hlocal halign hp hheld hc hq
  by_cases hcross : a % 128 = 120
  · rw [engWrite_pair_across hlo hup hcross]
    refine wordsWritten_engWrites k _ s halloc (fun w hw => ?_) hhome
    rcases List.mem_pair.1 hw with rfl | rfl <;> exact .inr (.inr rfl)
  · have hfit : a % 128 + 16 ≤ 128 := by omega
    rw [engWrite_hbm _ (by decide) hfit hlocal hp hheld halloc]
    refine ⟨?_, lineWrite_none_part _ (by decide) hc⟩
    have hin : p % 128 + 16 ≤ 128 := by rwa [mod_line_of_target hp]
    exact wordsWritten_of_storedAt_pair hlo (by omega) hp ⟨q, hq⟩ (storedAt_mod (storedAt_lineWrite_none _ hc hin))

/-! ### A problem's outputs (R215) -/

theorem writeDWords_eq_engWrites (k a : Nat) : ∀ (l : List DWord) (i : Nat) (s : State),
    writeDWords k l (a + 8 * i) s = engWrites k ((l.zipIdx i).map fun v => (a + 8 * v.2, 8, v.1.toNat)) s
  | [], _, _ => rfl
  | v :: l, i, s => by
    rw [writeDWords, Nat.add_assoc, ← Nat.mul_succ, writeDWords_eq_engWrites k a l (i + 1), List.zipIdx_cons, List.map_cons]
    rfl

theorem writeDWords_eq_wordsFrom (k a : Nat) (l : List DWord) (s : State) : writeDWords k l a s = engWrites k (wordsFrom a l) s :=
  writeDWords_eq_engWrites k a l 0 s

/-- The warm record's new words (R211, R212): SIG and LAMBDA in one write, COUNT with VALID in another. -/
def writeRecord (k a : Nat) : Option (DWord × DWord × Word) → State → State
  | some (sig, l, c), s => engWrite k (a + 24) 8 (c.toNat + 2 ^ 32) (engWrite k a 16 (sig.toNat + 2 ^ 64 * l.toNat) s)
  | none, s => s

/-- The words of the warm record. -/
def recordWords (a : Nat) : Option (DWord × DWord × Word) → List (Nat × Nat × Nat)
  | some (sig, l, c) => [(a, 8, sig.toNat), (a + 8, 8, l.toNat), (a + 24, 8, c.toNat + 2 ^ 32)]
  | none => []

theorem wordsWritten_writeRecord {k a : Nat} {s : State} (halloc : ∀ i, i < 4 → streamAlloc i s = false) (w : Option (DWord × DWord × Word))
    (hhome : WordsAtHome (recordWords a w) s) : WordsWritten (recordWords a w) s (writeRecord k a w s) ∧ HbmOnly s (writeRecord k a w s) := by
  match w with
  | none => exact ⟨⟨nofun, fun _ _ => rfl, rfl⟩, .refl s⟩
  | some (sig, l, c) =>
    have hwords : recordWords a (some (sig, l, c)) = [(a, 8, sig.toNat), (a + 8, 8, l.toNat)] ++ [(a + 24, 8, c.toNat + 2 ^ 32)] := rfl
    rw [hwords] at hhome ⊢
    obtain ⟨hpair, hcount⟩ := wordsAtHome_append hhome
    obtain ⟨hwritten, honly⟩ := wordsWritten_engWrite_pair (k := k) sig.isLt l.isLt halloc hpair
    rw [writeRecord]
    generalize engWrite k a 16 _ s = t at hwritten honly ⊢
    have halloc' : ∀ i, i < 4 → streamAlloc i t = false := by
      obtain ⟨_, _, rfl⟩ := honly
      exact halloc
    obtain ⟨hwritten', honly'⟩ := wordsWritten_engWrites k _ t halloc' (fun w hw => by rw [List.mem_singleton.1 hw]; exact .inr (.inr rfl))
      (honly.wordsAtHome hcount)
    rw [engWrites_singleton] at hwritten' honly'
    exact ⟨wordsWritten_append hhome honly hwritten hwritten', honly.trans honly'⟩

/-- What the engine writes at a problem's end, one array after another. -/
def writeOutputs (k : Nat) (x : SlvD) (r : SlvRes) (p : Nat) (s : State) : State :=
  writeRecord k (x.rW.base + 32 * p) r.warm (engWrite k (x.addr 4 + 8 * p) 8 r.status.toNat
    (writeDWords k r.f (x.rF.base + p * x.rF.stride) (writeDWords k r.x (x.rX.base + p * x.rX.stride) s)))

theorem wordSize_of_mem_wordsFrom {a : Nat} {l : List DWord} {w : Nat × Nat × Nat} (h : w ∈ wordsFrom a l) : WordSize w.2.1 := by
  obtain ⟨v, -, rfl⟩ := List.mem_map.1 h
  exact .inr (.inr rfl)

/-- The outputs are the words of the statement, where those lie at home. -/
theorem wordsWritten_writeOutputs {k p : Nat} {x : SlvD} {r : SlvRes} {s : State} (halloc : ∀ i, i < 4 → streamAlloc i s = false)
    (hhome : WordsAtHome (solverWords x r p) s) : WordsWritten (solverWords x r p) s (writeOutputs k x r p s) ∧ HbmOnly s (writeOutputs k x r p s) := by
  have hwords : solverWords x r p = (wordsFrom (x.rX.base + p * x.rX.stride) r.x ++ wordsFrom (x.rF.base + p * x.rF.stride) r.f ++
      [(x.addr 4 + 8 * p, 8, r.status.toNat)]) ++ recordWords (x.rW.base + 32 * p) r.warm := by
    rw [solverWords]
    cases r.warm <;> rfl
  have houts : writeOutputs k x r p s = writeRecord k (x.rW.base + 32 * p) r.warm (engWrites k
      (wordsFrom (x.rX.base + p * x.rX.stride) r.x ++ wordsFrom (x.rF.base + p * x.rF.stride) r.f ++ [(x.addr 4 + 8 * p, 8, r.status.toNat)]) s) := by
    rw [writeOutputs, writeDWords_eq_wordsFrom, writeDWords_eq_wordsFrom, engWrites_append, engWrites_append, engWrites_singleton]
  rw [hwords] at hhome ⊢
  rw [houts]
  obtain ⟨harrays, hrecord⟩ := wordsAtHome_append hhome
  have hsize : ∀ w ∈ wordsFrom (x.rX.base + p * x.rX.stride) r.x ++ wordsFrom (x.rF.base + p * x.rF.stride) r.f ++ [(x.addr 4 + 8 * p, 8, r.status.toNat)],
      WordSize w.2.1 := fun w hw => by
    rcases List.mem_append.1 hw with hw | hw
    · rcases List.mem_append.1 hw with hw | hw <;> exact wordSize_of_mem_wordsFrom hw
    · rw [List.mem_singleton.1 hw]
      exact .inr (.inr rfl)
  obtain ⟨hwritten, honly⟩ := wordsWritten_engWrites k _ s halloc hsize harrays
  generalize engWrites k _ s = t at hwritten honly ⊢
  have halloc' : ∀ i, i < 4 → streamAlloc i t = false := by
    obtain ⟨_, _, rfl⟩ := honly
    exact halloc
  obtain ⟨hwritten', honly'⟩ := wordsWritten_writeRecord (k := k) halloc' r.warm (honly.wordsAtHome hrecord)
  exact ⟨wordsWritten_append hhome honly hwritten hwritten', honly.trans honly'⟩

end Sys2Proof.Machine
end

section
/-! PROOFS. What a solver's registers collect at a problem's end, and the end of a problem (R212, R215, R216). -/

namespace Sys2Proof.Machine

open Sys2Proof.Claims

/-! ### Fields that a list of fields leaves alone (R423, R426) -/

/-- Two fields of one block lie in different registers or beside one another in one. -/
abbrev FieldsClear (f g : Fld) : Prop := f.off ≠ g.off ∨ FieldsBeside f g

/-- Only registers and totals changed, and every field clear of those listed reads as before. -/
def FieldsOnly (b : Nat) (l : List Fld) (s t : State) : Prop :=
  RegsOnly s t ∧ ∀ g : Fld, g.lo + g.w ≤ 32 → (∀ f ∈ l, FieldsClear f g) → getF b g t = getF b g s

theorem FieldsOnly.refl (b : Nat) (l : List Fld) (s : State) : FieldsOnly b l s s := ⟨.refl s, fun _ _ _ => rfl⟩

section
variable {b : Nat} {l : List Fld} {s t : State} (h : FieldsOnly b l s t)
include h

theorem FieldsOnly.setF {f : Fld} (hf : f ∈ l) (v : Nat) : FieldsOnly b l s (setF b f v t) := by
  obtain ⟨hregs, hkept⟩ := h
  refine ⟨hregs.setF b f v, fun g hg hclear => Eq.trans ?_ (hkept g hg hclear)⟩
  rcases hclear f hf with hoff | hbeside
  · exact getF_setF_other _ _ _ _ _ _ (by omega)
  · exact getF_setF_beside _ _ _ hbeside hg

theorem FieldsOnly.bumpF {f : Fld} (hf : f ∈ l) (n : Nat) : FieldsOnly b l s (bumpF b f n t) := by
  obtain ⟨-, hkept⟩ := h.setF hf (satAdd f.w (getF b f t) n)
  exact ⟨h.1.bumpF b f n, hkept⟩

theorem FieldsOnly.addPair {lo hi : Fld} (hlo : lo ∈ l) (hhi : hi ∈ l) (n : Nat) : FieldsOnly b l s (addPair b lo hi n t) :=
  (h.setF hlo _).setF hhi _

theorem FieldsOnly.capture {valid : Fld} (hvalid : valid ∈ l) {put : State → State} (hput : FieldsOnly b l s (put t)) :
    FieldsOnly b l s (capture b valid put t) := by
  rw [Machine.capture]
  split
  · exact h
  · exact hput.setF hvalid 1

theorem FieldsOnly.ite {c : Prop} [Decidable c] {u : State} (hu : FieldsOnly b l s u) : FieldsOnly b l s (if c then u else t) := by
  split
  · exact hu
  · exact h

end

theorem FieldsOnly.trans {b : Nat} {l m : List Fld} {s t u : State} (h : FieldsOnly b l s t) (h' : FieldsOnly b m t u) : FieldsOnly b (l ++ m) s u := by
  obtain ⟨⟨c, n, rfl⟩, hkept⟩ := h
  obtain ⟨⟨c', n', rfl⟩, hkept'⟩ := h'
  refine ⟨⟨c', n', rfl⟩, fun g hg hclear => ?_⟩
  obtain ⟨hl, hm⟩ := List.forall_mem_append.1 hclear
  exact (hkept' g hg hm).trans (hkept g hg hl)

theorem FieldsOnly.getPair {b : Nat} {l : List Fld} {s t : State} (h : FieldsOnly b l s t) {lo hi : Fld} (hlo : ∀ f ∈ l, FieldsClear f lo)
    (hhi : ∀ f ∈ l, FieldsClear f hi) (halves : HalvesOf lo hi) : Machine.getPair b lo hi t = Machine.getPair b lo hi s := by
  obtain ⟨-, hkept⟩ := h
  obtain ⟨hlolo, hlow, hhilo, hhiw, -⟩ := halves
  rw [Machine.getPair, Machine.getPair, hkept lo (by omega) hlo, hkept hi (by omega) hhi]

/-- A count field counts one more (R423). -/
theorem bumped_bumpF {f : Fld} (hf : f.lo + f.w ≤ 32) (b : Nat) (s : State) : Bumped b f s (bumpF b f 1 s) := by
  have hsat : satAdd f.w (getF b f s) 1 < 2 ^ f.w := by
    have := Nat.two_pow_pos f.w
    unfold satAdd
    omega
  exact (getF_setF b _ f s hf).trans (Nat.mod_eq_of_lt hsat)

/-! ### A flag and its count -/

/-- Where `c` holds the flag is set and its count one more, elsewhere the flag reads as before. -/
def FlagNoted (b : Nat) (c : Bool) (flag count : Fld) (s t : State) : Prop :=
  if c then getF b flag t = 1 ∧ Bumped b count s t else getF b flag t = getF b flag s

/-- Steps before and after that keep both fields do not matter. -/
theorem FlagNoted.between {b : Nat} {c : Bool} {flag count : Fld} {s u v t : State} (h : FlagNoted b c flag count u v)
    (hbefore : getF b flag u = getF b flag s ∧ getF b count u = getF b count s) (hafter : getF b flag t = getF b flag v ∧ getF b count t = getF b count v) :
    FlagNoted b c flag count s t := by
  obtain ⟨hflag, hcount⟩ := hbefore
  obtain ⟨hflag', hcount'⟩ := hafter
  rwa [FlagNoted, Bumped, hflag', hcount', ← hflag, ← hcount, ← Bumped]

/-- A flag of one bit and a count clear of it. -/
abbrev FlagAndCount (flag count : Fld) : Prop :=
  flag.w = 1 ∧ flag.lo + flag.w ≤ 32 ∧ count.lo + count.w ≤ 32 ∧ FieldsClear flag count ∧ FieldsClear count flag

/-- Setting the flag and counting notes it. -/
theorem flagNoted_bumpF_setF {flag count : Fld} (h : FlagAndCount flag count) (b : Nat) (s : State) :
    FlagNoted b true flag count s (bumpF b count 1 (setF b flag 1 s)) := by
  obtain ⟨hone, hflag, hcount, hahead, hback⟩ := h
  obtain ⟨-, hbefore⟩ := (FieldsOnly.refl b [flag] s).setF (List.mem_singleton_self _) 1
  obtain ⟨-, hafter⟩ := (FieldsOnly.refl b [count] (setF b flag 1 s)).bumpF (List.mem_singleton_self _) 1
  have hbumped := bumped_bumpF hcount b (setF b flag 1 s)
  rw [Bumped, hbefore count hcount (List.forall_mem_singleton.2 hahead)] at hbumped
  refine ⟨?_, hbumped⟩
  rw [hafter flag hflag (List.forall_mem_singleton.2 hback), getF_setF _ _ _ _ hflag, hone]
  rfl

theorem flagNoted_ite {b : Nat} {c : Bool} {flag count : Fld} {s t : State} (h : FlagNoted b true flag count s t) :
    FlagNoted b c flag count s (if c then t else s) := by
  cases c with
  | false => exact congrArg (getF b flag) (if_neg Bool.false_ne_true)
  | true => rwa [if_pos rfl]

/-! ### The registers of a problem's end (R215, R216) -/

/-- The position of the first singular column, unless one is held. -/
def captureSing (b p : Nat) (r : SlvRes) : State → State :=
  capture b R.SLV_SING_POS_VALID fun s => setF b R.SLV_SING_POS_PROBLEM p (setF b R.SLV_SING_POS_COL (r.sing.getD 0) s)

/-- The position of the lowest clamp, unless one is held. -/
def captureRange (b p : Nat) (r : SlvRes) : State → State :=
  capture b R.SLV_RANGE_POS_VALID fun s => setF b R.SLV_RANGE_POS_ELEM (r.range.getD (0, 0)).2
    (setF b R.SLV_RANGE_POS_VAR (r.range.getD (0, 0)).1 (setF b R.SLV_RANGE_PROB_PROBLEM p s))

/-- SINGULAR with its count and the position. -/
def noteSing (b p : Nat) (r : SlvRes) (s : State) : State :=
  if bitAt r.status.toNat 0 then captureSing b p r (bumpF b R.SLV_STATUS_SING_PROBLEMS 1 (setF b R.SLV_STATUS_SINGULAR 1 s)) else s

/-- RANGE with its count and the position. -/
def noteRange (b p : Nat) (r : SlvRes) (s : State) : State :=
  if bitAt r.status.toNat 1 then captureRange b p r (bumpF b R.SLV_STATUS_RANGE_PROBLEMS 1 (setF b R.SLV_STATUS_RANGE 1 s)) else s

/-- WARM_REJECT with its count. -/
def noteReject (b : Nat) (r : SlvRes) (s : State) : State :=
  if bitAt r.status.toNat 2 then bumpF b R.SLV_WARM_COUNT_COUNT 1 (setF b R.SLV_STATUS_WARM_REJECT 1 s) else s

/-- The instruction's tag, where the problem was singular, clamped or met bad data. -/
def noteTag (b tag : Nat) (r : SlvRes) (s : State) : State :=
  if r.status.toNat % 4 ≠ 0 ∨ !r.ue.isEmpty then setF b R.SLV_STATUS_LAST_TAG tag s else s

/-- What the registers collect at the end of problem `p` without uncorrectable data. -/
def noteEnd (b p tag : Nat) (r : SlvRes) (s : State) : State :=
  addPair b R.SLV_PROBLEMS_LO_VALUE R.SLV_PROBLEMS_HI_VALUE 1 (noteTag b tag r (noteReject b r (noteRange b p r (noteSing b p r s))))

/-! The fields that each part sets. -/

def singPos : List Fld := [R.SLV_SING_POS_COL, R.SLV_SING_POS_PROBLEM, R.SLV_SING_POS_VALID]
def rangePos : List Fld := [R.SLV_RANGE_PROB_PROBLEM, R.SLV_RANGE_POS_VAR, R.SLV_RANGE_POS_ELEM, R.SLV_RANGE_POS_VALID]
def singFields : List Fld := R.SLV_STATUS_SINGULAR :: R.SLV_STATUS_SING_PROBLEMS :: singPos
def rangeFields : List Fld := R.SLV_STATUS_RANGE :: R.SLV_STATUS_RANGE_PROBLEMS :: rangePos
def rejectFields : List Fld := [R.SLV_STATUS_WARM_REJECT, R.SLV_WARM_COUNT_COUNT]
def tagFields : List Fld := [R.SLV_STATUS_LAST_TAG]
def passedFields : List Fld := [R.SLV_PROBLEMS_LO_VALUE, R.SLV_PROBLEMS_HI_VALUE]

section
variable (b p tag : Nat) (r : SlvRes) (s : State)

theorem fieldsOnly_captureSing {l : List Fld} (hl : singPos ⊆ l) {t : State} (h : FieldsOnly b l s t) : FieldsOnly b l s (captureSing b p r t) :=
  h.capture (hl (by decide)) ((h.setF (hl (by decide)) _).setF (hl (by decide)) _)

theorem fieldsOnly_captureRange {l : List Fld} (hl : rangePos ⊆ l) {t : State} (h : FieldsOnly b l s t) : FieldsOnly b l s (captureRange b p r t) :=
  h.capture (hl (by decide)) (((h.setF (hl (by decide)) _).setF (hl (by decide)) _).setF (hl (by decide)) _)

theorem fieldsOnly_noteSing : FieldsOnly b singFields s (noteSing b p r s) :=
  (FieldsOnly.refl ..).ite (fieldsOnly_captureSing b p r s (by decide) (((FieldsOnly.refl ..).setF (by decide) 1).bumpF (by decide) 1))

theorem fieldsOnly_noteRange : FieldsOnly b rangeFields s (noteRange b p r s) :=
  (FieldsOnly.refl ..).ite (fieldsOnly_captureRange b p r s (by decide) (((FieldsOnly.refl ..).setF (by decide) 1).bumpF (by decide) 1))

theorem fieldsOnly_noteReject : FieldsOnly b rejectFields s (noteReject b r s) :=
  (FieldsOnly.refl ..).ite (((FieldsOnly.refl ..).setF (by decide) 1).bumpF (by decide) 1)

theorem fieldsOnly_noteTag : FieldsOnly b tagFields s (noteTag b tag r s) :=
  (FieldsOnly.refl ..).ite ((FieldsOnly.refl ..).setF (by decide) tag)

theorem flagNoted_noteSing : FlagNoted b (bitAt r.status.toNat 0) R.SLV_STATUS_SINGULAR R.SLV_STATUS_SING_PROBLEMS s (noteSing b p r s) := by
  rw [noteSing]
  obtain ⟨-, hkept⟩ := fieldsOnly_captureSing b p r _ (List.Subset.refl _)
    (.refl b singPos (bumpF b R.SLV_STATUS_SING_PROBLEMS 1 (setF b R.SLV_STATUS_SINGULAR 1 s)))
  exact flagNoted_ite ((flagNoted_bumpF_setF (by decide) b s).between ⟨rfl, rfl⟩ ⟨hkept _ (by decide) (by decide), hkept _ (by decide) (by decide)⟩)

theorem flagNoted_noteRange : FlagNoted b (bitAt r.status.toNat 1) R.SLV_STATUS_RANGE R.SLV_STATUS_RANGE_PROBLEMS s (noteRange b p r s) := by
  rw [noteRange]
  obtain ⟨-, hkept⟩ := fieldsOnly_captureRange b p r _ (List.Subset.refl _)
    (.refl b rangePos (bumpF b R.SLV_STATUS_RANGE_PROBLEMS 1 (setF b R.SLV_STATUS_RANGE 1 s)))
  exact flagNoted_ite ((flagNoted_bumpF_setF (by decide) b s).between ⟨rfl, rfl⟩ ⟨hkept _ (by decide) (by decide), hkept _ (by decide) (by decide)⟩)

theorem flagNoted_noteReject : FlagNoted b (bitAt r.status.toNat 2) R.SLV_STATUS_WARM_REJECT R.SLV_WARM_COUNT_COUNT s (noteReject b r s) := by
  rw [noteReject]
  exact flagNoted_ite (flagNoted_bumpF_setF (by decide) b s)

/-- A singular problem's number is captured where no position was held. -/
theorem singPos_noteSing (hsing : bitAt r.status.toNat 0 = true) (hfree : getF b R.SLV_SING_POS_VALID s = 0) :
    getF b R.SLV_SING_POS_PROBLEM (noteSing b p r s) = p % 65536 ∧ getF b R.SLV_SING_POS_VALID (noteSing b p r s) = 1 := by
  obtain ⟨-, hkept⟩ := ((FieldsOnly.refl b [R.SLV_STATUS_SINGULAR, R.SLV_STATUS_SING_PROBLEMS] s).setF (f := R.SLV_STATUS_SINGULAR) (by decide) 1).bumpF
    (f := R.SLV_STATUS_SING_PROBLEMS) (by decide) 1
  rw [noteSing, if_pos hsing, captureSing, capture, hkept _ (by decide) (by decide), hfree, if_neg (by decide)]
  constructor
  · rw [getF_setF_beside _ _ _ (by decide) (by decide), getF_setF _ _ _ _ (by decide)]
    rfl
  · rw [getF_setF _ _ _ _ (by decide)]
    rfl

/-- No part of the end undoes what another noted. -/
theorem noteEnd_spec :
    CountedOne b R.SLV_PROBLEMS_LO_VALUE R.SLV_PROBLEMS_HI_VALUE s (noteEnd b p tag r s) ∧
    FlagNoted b (bitAt r.status.toNat 0) R.SLV_STATUS_SINGULAR R.SLV_STATUS_SING_PROBLEMS s (noteEnd b p tag r s) ∧
    (bitAt r.status.toNat 0 = true → getF b R.SLV_SING_POS_VALID s = 0 →
      getF b R.SLV_SING_POS_PROBLEM (noteEnd b p tag r s) = p % 65536 ∧ getF b R.SLV_SING_POS_VALID (noteEnd b p tag r s) = 1) ∧
    FlagNoted b (bitAt r.status.toNat 1) R.SLV_STATUS_RANGE R.SLV_STATUS_RANGE_PROBLEMS s (noteEnd b p tag r s) ∧
    FlagNoted b (bitAt r.status.toNat 2) R.SLV_STATUS_WARM_REJECT R.SLV_WARM_COUNT_COUNT s (noteEnd b p tag r s) ∧
    RegsOnly s (noteEnd b p tag r s) := by
  rw [noteEnd]
  have hsing := fieldsOnly_noteSing b p r s
  have hsingFlag := flagNoted_noteSing b p r s
  have hsingPos := singPos_noteSing b p r s
  generalize noteSing b p r s = s₁ at *
  have hrange := fieldsOnly_noteRange b p r s₁
  have hrangeFlag := flagNoted_noteRange b p r s₁
  generalize noteRange b p r s₁ = s₂ at *
  have hreject := fieldsOnly_noteReject b r s₂
  have hrejectFlag := flagNoted_noteReject b r s₂
  generalize noteReject b r s₂ = s₃ at *
  have htag := fieldsOnly_noteTag b tag r s₃
  generalize noteTag b tag r s₃ = s₄ at *
  have hpassed : FieldsOnly b passedFields s₄ (addPair b R.SLV_PROBLEMS_LO_VALUE R.SLV_PROBLEMS_HI_VALUE 1 s₄) :=
    (FieldsOnly.refl ..).addPair (by decide) (by decide) 1
  have hcounted := countedOne_addPair (lo := R.SLV_PROBLEMS_LO_VALUE) (hi := R.SLV_PROBLEMS_HI_VALUE) (by decide) b s₄
  generalize addPair b R.SLV_PROBLEMS_LO_VALUE R.SLV_PROBLEMS_HI_VALUE 1 s₄ = t at *
  have hbefore := hsing.trans hrange
  obtain ⟨-, hkeptPos⟩ := hrange.trans (hreject.trans (htag.trans hpassed))
  obtain ⟨-, hkeptRange⟩ := hreject.trans (htag.trans hpassed)
  obtain ⟨-, hkeptReject⟩ := htag.trans hpassed
  obtain ⟨hregs, -⟩ := hbefore.trans (hreject.trans (htag.trans hpassed))
  have hpair := (hbefore.trans (hreject.trans htag)).getPair (lo := R.SLV_PROBLEMS_LO_VALUE) (hi := R.SLV_PROBLEMS_HI_VALUE)
    (by decide) (by decide) (by decide)
  obtain ⟨-, hsame⟩ := hsing
  obtain ⟨-, hsame'⟩ := hbefore
  refine ⟨by rwa [CountedOne, ← hpair], ?_, fun hbit hfree => ?_, ?_, ?_, hregs⟩
  · exact hsingFlag.between ⟨rfl, rfl⟩ ⟨hkeptPos _ (by decide) (by decide), hkeptPos _ (by decide) (by decide)⟩
  · obtain ⟨hproblem, hvalid⟩ := hsingPos hbit hfree
    exact ⟨(hkeptPos _ (by decide) (by decide)).trans hproblem, (hkeptPos _ (by decide) (by decide)).trans hvalid⟩
  · exact hrangeFlag.between ⟨hsame _ (by decide) (by decide), hsame _ (by decide) (by decide)⟩
      ⟨hkeptRange _ (by decide) (by decide), hkeptRange _ (by decide) (by decide)⟩
  · exact hrejectFlag.between ⟨hsame' _ (by decide) (by decide), hsame' _ (by decide) (by decide)⟩
      ⟨hkeptReject _ (by decide) (by decide), hkeptReject _ (by decide) (by decide)⟩

end

/-! ### The end of a problem (R212, R215, R216) -/

/-- Without uncorrectable data the end of a problem is its outputs, its registers and the next problem made the one to compute. -/
theorem slvEnd_clean {e : Nat} {s : State} {y : EngIns} {r : SlvRes} (hy : engHead (kSlv e) s = some y) (hr : sFind s.slvs e = some r) (hphase : y.phase = 1)
    (hue : r.ue = []) :
    let u := noteEnd (slvBase e) y.value (y.tag.toNat % 256) r (writeOutputs (kSlv e) ⟨y.desc⟩ r y.value s)
    slvEnd e s = setHead (kSlv e) { y with phase := 0, value := y.value + 1 } { u with slvs := sDel e u.slvs } := by
  obtain ⟨x, f, status, warm, sing, range, ue⟩ := r
  dsimp only at hue
  subst hue
  rw [slvEnd, hy, hr]
  dsimp only
  rw [if_neg (by rw [hphase]; decide)]
  cases warm with
  | none => rfl
  | some w => rfl

/-- What the end of a problem leaves: its words, its registers, and the next problem to compute. -/
theorem slvEnd_spec {e : Fin 8} {s : State} {y : EngIns} {r : SlvRes} (hy : engHead (kSlv e) s = some y) (hr : sFind s.slvs e = some r) (hphase : y.phase = 1)
    (hue : r.ue = []) (halloc : ∀ d, d < 4 → streamAlloc d s = false) (hhome : WordsAtHome (solverWords ⟨y.desc⟩ r y.value) s) :
    let b := slvBase e
    ∃ t, Runs (.slvProblemEnd e) s t ∧ WordsWritten (solverWords ⟨y.desc⟩ r y.value) s t ∧ sFind t.slvs e = none ∧
      engHead (kSlv e) t = some { y with phase := 0, value := y.value + 1 } ∧ CountedOne b R.SLV_PROBLEMS_LO_VALUE R.SLV_PROBLEMS_HI_VALUE s t ∧
      FlagNoted b (bitAt r.status.toNat 0) R.SLV_STATUS_SINGULAR R.SLV_STATUS_SING_PROBLEMS s t ∧
      (bitAt r.status.toNat 0 = true → getF b R.SLV_SING_POS_VALID s = 0 →
        getF b R.SLV_SING_POS_PROBLEM t = y.value % 65536 ∧ getF b R.SLV_SING_POS_VALID t = 1) ∧
      FlagNoted b (bitAt r.status.toNat 1) R.SLV_STATUS_RANGE R.SLV_STATUS_RANGE_PROBLEMS s t ∧
      FlagNoted b (bitAt r.status.toNat 2) R.SLV_STATUS_WARM_REJECT R.SLV_WARM_COUNT_COUNT s t ∧
      (∀ j, j ≠ kSlv e → getEng j t = getEng j s) ∧ t.cores = s.cores ∧ t.pkg = s.pkg := by
  intro b
  have hrun : Runs (.slvProblemEnd e) s (slvEnd e s) := rfl
  rw [slvEnd_clean hy hr hphase hue] at hrun
  obtain ⟨hwritten, honly⟩ := wordsWritten_writeOutputs (k := kSlv e) halloc hhome
  generalize writeOutputs (kSlv e) ⟨y.desc⟩ r y.value s = w at hrun hwritten honly
  have hnoted := noteEnd_spec b y.value (y.tag.toNat % 256) r w
  generalize noteEnd b y.value (y.tag.toNat % 256) r w = u at hrun hnoted
  obtain ⟨hcounted, hsing, hpos, hrange, hreject, hregs⟩ := hnoted
  obtain ⟨c, n, rfl⟩ := hregs
  obtain ⟨h, d, rfl⟩ := honly
  obtain ⟨hheld, hkept, htile⟩ := hwritten
  refine ⟨_, hrun, ⟨hheld, hkept, htile⟩, ?_, engHead_setHead .., hcounted, hsing, hpos, hrange, hreject, fun j hj => ?_, rfl, rfl⟩
  · exact (sFind_sDel ..).trans (if_pos rfl)
  · exact (getEng_setHead ..).trans (if_neg hj)

end Sys2Proof.Machine
end

section
/-! PROOFS. The statement about the solvers' problems (R205 to R216, R222). -/

namespace Sys2Proof.Machine

open Sys2Proof.Claims

/-- Settles O46: each operation computes its next problem on the sources as they are; the end of the problem writes words that lie apart, and none of its
registers' parts undoes another. -/
theorem solversComputeAndWriteEachProblem : Obligations.SolversComputeAndWriteEachProblem := by
  unfold Obligations.SolversComputeAndWriteEachProblem
  intro e corrected s y hy x b ecc
  refine ⟨fun hphase hleft hdue hpkg hsrc f hf hop => ?_, fun r hphase hr hue halloc hhome => ?_⟩
  · have hexec : exec f.1 s = .next (slvRun f.2 e ecc s) := by
      simp only [List.mem_cons, List.not_mem_nil, or_false] at hf
      rcases hf with rfl | rfl | rfl | rfl | rfl <;> rfl
    obtain ⟨t, hrun, hfound, hhead, hothers, hrest⟩ := slvRun_spec hexec hy hop hphase hleft hdue hpkg hsrc
    obtain ⟨hx, hf, hsing, hrange, hreject, hue, hwarm⟩ := slvProblem_parts (kSlv e) x y.value s
    exact ⟨t, _, hrun, hfound, rfl, hhead, hx, hf, hsing, hrange, hreject, hue, hwarm, hothers, hrest⟩
  · obtain ⟨t, hrun, hwritten, hnone, hhead, hcounted, hsing, hpos, hrange, hreject, hrest⟩ := slvEnd_spec hy hr hphase hue halloc hhome
    refine ⟨t, hrun, hwritten, hnone, hhead, hcounted, ?_, hrange, hreject, hrest⟩
    rw [FlagNoted] at hsing
    split
    · rename_i hbit
      rw [if_pos hbit] at hsing
      obtain ⟨hflag, hcount⟩ := hsing
      exact ⟨hflag, hcount, hpos hbit⟩
    · rename_i hbit
      rwa [if_neg hbit] at hsing

end Sys2Proof.Machine
end

section
/-! PROOFS. Every command and every idle step keeps the byte memories in canonical form, and the statements about that invariant (R227, R234, R236, R355). -/

namespace Sys2Proof.Machine

/-! ### The commands, one by one -/

section

variable {qs : List Instr}

theorem putCol_keeps (x : ColEng) (s : State) (h : Keeps qs s) : Keeps qs (putCol x s) := by
  rw [putCol, setCol]
  exact colShow_keeps _ (setEng_keeps _ _ _ (keeps_same _ _ h rfl rfl rfl rfl rfl rfl))

/-- A command is one operation of the machine, which keeps queue and memories by its lemma of the files Keep1 to Keep5. -/
theorem exec_keeps (i : Instr) (s : State) (h : Keeps qs s) : OutKeeps qs (exec i s) := by
  cases i with
  | csrWrite => exact csrWrite_keeps (hmem := h) ..
  | slowWriteCrossed => exact writeCrossed_keeps (hmem := h) ..
  | slowAccessAbandon => exact accessAbandon_keeps (hmem := h) ..
  | nop => exact outKeeps_next (nopCmd_keeps (hmem := h) ..)
  | powerUp => exact outKeeps_next (powerUp_keeps (hmem := h) ..)
  | powerUpDone => exact outKeeps_next (powerUpDone_keeps (hmem := h) ..)
  | powerDown => exact outKeeps_next (powerDown_keeps (hmem := h) ..)
  | serviceEnter => exact outKeeps_next (serviceEnter_keeps (hmem := h) ..)
  | serviceExit => exact outKeeps_next (serviceExit_keeps (hmem := h) ..)
  | sleep => exact outKeeps_next (sleepCmd_keeps (hmem := h) ..)
  | wake => exact outKeeps_next (wakeCmd_keeps (hmem := h) ..)
  | wakeDone => exact outKeeps_next (wakeDone_keeps (hmem := h) ..)
  | repair => exact outKeeps_next (repairCmd_keeps (hmem := h) ..)
  | repairDone => exact outKeeps_next (repairDone_keeps (hmem := h) ..)
  | admitJob => exact outKeeps_next (admitCmd_keeps (hmem := h) ..)
  | launch => exact outKeeps_next (launchCmd_keeps (hmem := h) ..)
  | freeze => exact outKeeps_next (freezeCmd_keeps (hmem := h) ..)
  | resume => exact outKeeps_next (resumeCmd_keeps (hmem := h) ..)
  | restore => exact outKeeps_next (restoreCmd_keeps (hmem := h) ..)
  | takeover => exact outKeeps_next (takeoverCmd_keeps (hmem := h) ..)
  | recover => exact outKeeps_next (recoverCmd_keeps (hmem := h) ..)
  | teardown => exact outKeeps_next (teardownCmd_keeps (hmem := h) ..)
  | teardownDone => exact outKeeps_next (teardownDone_keeps (hmem := h) ..)
  | erase => exact outKeeps_next (eraseCmd_keeps (h := h) ..)
  | eraseDone => exact outKeeps_next (eraseDone_keeps (hmem := h) ..)
  | attest => exact outKeeps_next (attestCmd_keeps (hmem := h) ..)
  | attestSigned => exact outKeeps_next (attestSigned_keeps (hmem := h) ..)
  | rerate => exact outKeeps_next (rerateCmd_keeps (hmem := h) ..)
  | resetWarm => exact outKeeps_next (resetWarm_keeps (hmem := h) ..)
  | eventAccept => exact outKeeps_next (eventAccept_keeps (hmem := h) ..)
  | eventStore => exact outKeeps_next (eventStore_keeps (hmem := h) ..)
  | evrCurSeq => exact outKeeps_next (curSeq_keeps (hmem := h) ..)
  | evrCurNext => exact outKeeps_next (curNext_keeps (hmem := h) ..)
  | evrClear => exact outKeeps_next (evrClear_keeps (hmem := h) ..)
  | add | sub | and | or | xor | shl | shrl | shra | mul | mulh | mulhu | divu | remu | min | max | minu | maxu | slt | sltu | seq | clz | popcnt =>
    exact outKeeps_next (alu_keeps (hmem := h) ..)
  | addi | andi | ori | xori | shli | shrli | shrai | slti => exact outKeeps_next (aluImm_keeps (hmem := h) ..)
  | strip | svbcast | svins | svext => exact outKeeps_next (insn_keeps (hbody := fun _ _ ht => retire_keeps (hmem := ht) ..) (hmem := h) ..)
  | movz | movk => exact outKeeps_next (constant_keeps (hmem := h) ..)
  | ld8 | ld16 | ld32 | ld64 | ldu8 | ldu16 | ldu32 | ldh => exact outKeeps_next (load_keeps (hmem := h) ..)
  | st8 | st16 | st32 | st64 | sth => exact outKeeps_next (store_keeps (hmem := h) ..)
  | loadDataReturn => exact outKeeps_next (loadReturn_keeps (hmem := h) ..)
  | beq | bne | blt | bge | bltu | bgeu => exact outKeeps_next (branch_keeps (hmem := h) ..)
  | jal => exact outKeeps_next (insn_keeps (hbody := fun _ _ ht => retireAt_keeps (hmem := ht) ..) (hmem := h) ..)
  | jalr =>
    exact outKeeps_next (insn_keeps (hbody := fun _ _ ht => keeps_ite (faultHere_keeps (hmem := ht) ..) (retireAt_keeps (hmem := ht) ..)) (hmem := h) ..)
  | bsMark | bsNmark | bsTrap | bsUe | bsCnz | bsCz | bsVgt | bsVle | bsVeq => exact outKeeps_next (bs_keeps (hmem := h) ..)
  | sgetValue | sgetCount | sgetFirst | sgetFlags => exact outKeeps_next (sget_keeps (hmem := h) ..)
  | svadd | svsub | svmul | svfma | svmin | svmax => exact outKeeps_next (svElem_keeps (hmem := h) ..)
  | svcvt | svwmul | svdot4 | svdot2 | svwdot2 | svmv => exact outKeeps_next (shortVec_keeps (hmem := h) ..)
  | amoAdd | amoSwap | amoCas | amoAnd | amoOr | amoMinu | amoMaxu => exact outKeeps_next (amo_keeps (hmem := h) ..)
  | sysrd => exact outKeeps_next (sysrd_keeps (hmem := h) ..)
  | csrrd | csrwr => exact coreCsr_keeps (hmem := h) ..
  | tret => exact outKeeps_next (tret_keeps (hmem := h) ..)
  | halt => exact outKeeps_next (halt_keeps (hmem := h) ..)
  | fletrumNop => exact outKeeps_next (sysNop_keeps (hmem := h) ..)
  | waitE => exact outKeeps_next (waitE_keeps (hmem := h) ..)
  | waitAll => exact outKeeps_next (waitAll_keeps (hmem := h) ..)
  | fenceLocal => exact outKeeps_next (fenceLocal_keeps (hmem := h) ..)
  | fenceRemote => exact outKeeps_next (fenceRemote_keeps (hmem := h) ..)
  | waitsig => exact outKeeps_next (waitSig_keeps (hmem := h) ..)
  | bar => exact outKeeps_next (barInsn_keeps (hmem := h) ..)
  | rhint => exact outKeeps_next (rhintInsn_keeps (hmem := h) ..)
  | qpt => exact outKeeps_next (qptInsn_keeps (hmem := h) ..)
  | depotNotify => exact outKeeps_next (depotNotify_keeps (hmem := h) ..)
  | waitTimeout => exact outKeeps_next (waitTimeout_keeps (hmem := h) ..)
  | coreStop => exact outKeeps_next (coreStop_keeps (hmem := h) ..)
  | issueMx | issueVx | issueSx | issueAssay | issuePorter | issueDispatcher | issueSolver | issueCollective =>
    exact outKeeps_next (issueInsn_keeps (hmem := h) ..)
  | issueVxResume => exact outKeeps_next (issueResume_keeps (hmem := h) ..)
  | issueClusterStart => exact outKeeps_next (issueStart_keeps (hmem := h) ..)
  | clusterStartAtCount => exact outKeeps_next (startAtCount_keeps (hmem := h) ..)
  | coreStartAtCount => exact outKeeps_next (pumpWrites_keeps _ (coreStartAtCount_keeps s h))
  | freezeCountReached => exact outKeeps_next (colFreeze_keeps _ (freezeReached_keeps _ s h))
  | corePark => exact outKeeps_next (corePark_keeps (hmem := h) ..)
  | seqStateWindow => exact seqWindow_keeps (hmem := h) ..
  | mxAccept => exact outKeeps_next (mxAccept_keeps (hmem := h) ..)
  | mxMm | mxMma => exact outKeeps_next (mxRun_keeps (hmem := h) ..)
  | mxComplete => exact outKeeps_next (mxComplete_keeps (hmem := h) ..)
  | mxRestore => exact outKeeps_next (mxRestore_keeps (hmem := h) ..)
  | vxAccept => exact outKeeps_next (vxAccept_keeps (hmem := h) ..)
  | vadd | vsub | vmul | vfma | vfms | vfnma | vmin | vmax | vminnum | vmaxnum | vabs | vneg | vcopysign | vgetexp | vgetmant | vscale | vroundi
  | vcmpeq | vcmpne | vcmplt | vcmple | vcmpgt | vcmpge | vcmpun | vsel | vclass | vcvt | viadd | visub | vimul | vand | vor | vxor | vnot | vshl
  | vshrl | vshra | vrotl | vimin | vimax | viabs | vsadd | vssub | vsmul | vsabs | vsneg | vsnarrow | vqmulh | vqrdmlah | vqrshr | vqrshrn | vqavg
  | vrsum | vrsumsq | vrmax | vrmin | vrmaxabs | vrisum | vrimax | vld | vst | vlds | vsts | vbcast | vperm | vslideup | vslidedn | vmv =>
    exact outKeeps_next (vxRun_keeps (hmem := h) ..)
  | vxResumeRecompute | vxResumeFix | vxResumeEnd => exact outKeeps_next (vxResume_keeps (hmem := h) ..)
  | vxComplete => exact outKeeps_next (vxComplete_keeps (hmem := h) ..)
  | vxRestore => exact outKeeps_next (vxRestore_keeps (hmem := h) ..)
  | vxRegfileWindow => exact outKeeps_next (vxWindow_keeps (hmem := h) ..)
  | sxAccept => exact outKeeps_next (sxAccept_keeps (hmem := h) ..)
  | sxStencil => exact outKeeps_next (sxRun_keeps (hmem := h) ..)
  | sxComplete => exact outKeeps_next (sxComplete_keeps (hmem := h) ..)
  | sxRestore => exact outKeeps_next (sxRestore_keeps (hmem := h) ..)
  | dspContribution => exact outKeeps_next (dspContribution_keeps (hmem := h) ..)
  | dspExchangeDone => exact outKeeps_next (dspExchange_keeps (hmem := h) ..)
  | dspBatchDone => exact outKeeps_next (dspBatchDone_keeps (hmem := h) ..)
  | dspBatchTimeout => exact outKeeps_next (dspTimeout_keeps (hmem := h) ..)
  | dspStateWindow => exact windowWrite_keeps (hput := fun _ _ ht => setDsp_keeps (hmem := ht) ..) (hmem := h) ..
  | asyAccept => exact outKeeps_next (asyAccept_keeps (hmem := h) ..)
  | asyNarrow | asyWiden => exact outKeeps_next (asyRun_keeps (hmem := h) ..)
  | asyComplete => exact outKeeps_next (asyComplete_keeps (hmem := h) ..)
  | asyRestore => exact outKeeps_next (asyRestore_keeps (hmem := h) ..)
  | porAccept => exact outKeeps_next (porAccept_keeps (hmem := h) ..)
  | porCopy | porGather | porScatter | porTranspose | porFill => exact outKeeps_next (porRun_keeps (hmem := h) ..)
  | porComplete => exact outKeeps_next (porComplete_keeps (hmem := h) ..)
  | porRestore => exact outKeeps_next (porRestore_keeps (hmem := h) ..)
  | slvAccept => exact outKeeps_next (slvAccept_keeps (hmem := h) ..)
  | chol | ldlt | qr | gn | lm => exact outKeeps_next (slvRun_keeps (hmem := h) ..)
  | slvProblemEnd => exact outKeeps_next (slvEnd_keeps (hmem := h) ..)
  | slvComplete => exact outKeeps_next (slvComplete_keeps (hmem := h) ..)
  | slvRestore => exact outKeeps_next (slvRestore_keeps (hmem := h) ..)
  | slvStateWindow => exact windowWrite_keeps (hput := fun _ _ ht => setEng_keeps (hmem := ht) ..) (hmem := h) ..
  | hbmLineRead => exact outKeeps_next (lineRead_keeps (hmem := h) ..)
  | hbmLineWrite => exact outKeeps_next (lineStore_keeps (hmem := h) ..)
  | patrolScrub => exact outKeeps_next (patrol_keeps (hmem := h) ..)
  | refresh => exact outKeeps_next (refresh_keeps (hmem := h) ..)
  | reducingWrite => exact outKeeps_next (reducingWrite_keeps (hmem := h) ..)
  | retrainOnErrors | retrainPeriodic => exact outKeeps_next (retrainAuto_keeps (hmem := h) ..)
  | memRetrain => exact outKeeps_next (retrainTrigger_keeps (hmem := h) ..)
  | retrainSliceStart => exact outKeeps_next (sliceStart_keeps (hmem := h) ..)
  | retrainSliceEnd => exact outKeeps_next (sliceEnd_keeps (hmem := h) ..)
  | memSelftest => exact outKeeps_next (selftest_keeps (hmem := h) ..)
  | memSelftestDone => exact outKeeps_next (selftestDone_keeps (hmem := h) ..)
  | memAdmit => exact outKeeps_next (memAdmit_keeps (hmem := h) ..)
  | memSpreadWrite => exact outKeeps_next (spreadWrite_keeps (hmem := h) ..)
  | depFlush => exact outKeeps_next (depFlush_keeps (hmem := h) ..)
  | depInval => exact outKeeps_next (depInval_keeps (hmem := h) ..)
  | depotFlushDone => exact outKeeps_next (setF_keeps (hmem := h) ..)
  | flitReceive => exact flitReceive_keeps (hmem := h) ..
  | linkReplayTimeout => exact outKeeps_next (replayTimeout_keeps (hmem := h) ..)
  | rd | rdrsp | wr | wrack | caravanNack => exact outKeeps_next (memMsg_keeps (hmem := h) ..)
  | deadTargetExpiry => exact outKeeps_next (expire_keeps (hmem := h) ..)
  | portLossOfSignal => exact outKeeps_next (lossOfSignal_keeps (hmem := h) ..)
  | portTrained => exact outKeeps_next (portTrained_keeps (hmem := h) ..)
  | portIdentity => exact outKeeps_next (portIdentity_keeps (hmem := h) ..)
  | portMissingTimeout => exact outKeeps_next (portMissing_keeps (hmem := h) ..)
  | portSelftest => exact outKeeps_next (portSelftest_keeps (hmem := h) ..)
  | portSelftestDone => exact outKeeps_next (portSelftestDone_keeps (hmem := h) ..)
  | portAdmit => exact outKeeps_next (portAdmit_keeps (hmem := h) ..)
  | portRetrain => exact outKeeps_next (keeps_ite h (portRetrain_keeps _ s h))
  | portDisable => exact outKeeps_next (portDisable_keeps (hmem := h) ..)
  | fabEpochArm => exact outKeeps_next (epochArm_keeps (hmem := h) ..)
  | fabEpochDisarm => exact outKeeps_next (epochDisarm_keeps (hmem := h) ..)
  | epochSwitch => exact outKeeps_next (epochSwitch_keeps (hmem := h) ..)
  | epochGraceEnd => exact outKeeps_next (graceEnd_keeps (hmem := h) ..)
  | epochMark => exact outKeeps_next (epochMark_keeps (hmem := h) ..)
  | routeData => exact outKeeps_next (routeData_keeps (hmem := h) ..)
  | routeAck => exact outKeeps_next (routeFrameIn_keeps (hbody := routeRelease_keeps _ _) (hmem := h) ..)
  | routeAnnounce => exact outKeeps_next (routeAnnounce_keeps (hmem := h) ..)
  | routeRtoExpiry => exact outKeeps_next (routeRto_keeps (hmem := h) ..)
  | rdS | rdO | upg | rdNc | wrFull => exact outKeeps_next (halMsg_keeps (hbody := fun _ ht => halAccept_keeps (hmem := ht) ..) (hmem := h) ..)
  | snpInv | snpDown => exact outKeeps_next (halMsg_keeps (hbody := fun _ ht => halSnooped_keeps (hmem := ht) ..) (hmem := h) ..)
  | rspI | rspS | rspDataI | rspDataS => exact outKeeps_next (halMsg_keeps (hbody := fun _ ht => onSnoopRsp_keeps (hmem := ht) ..) (hmem := h) ..)
  | wb => exact outKeeps_next (halMsg_keeps (hbody := fun _ ht => afterSnoop_keeps _ (halWb_keeps (hmem := ht) ..)) (hmem := h) ..)
  | cmp => exact outKeeps_next (halMsg_keeps (hbody := fun _ ht => halComplete_keeps (hmem := ht) ..) (hmem := h) ..)
  | dataS | dataO => exact outKeeps_next (halMsg_keeps (hbody := fun _ ht => halAnswered_keeps (hmem := ht) ..) (hmem := h) ..)
  | csrRd => exact halterRd_keeps (hmem := h) ..
  | csrWr => exact halterWr_keeps (hmem := h) ..
  | csrRsp => exact outKeeps_next (halterRsp_keeps (hmem := h) ..)
  | halterNack => exact outKeeps_next (halMsg_keeps (hbody := fun _ ht => halNack_keeps (hmem := ht) ..) (hmem := h) ..)
  | halterSnpTimeout => exact outKeeps_next (afterSnoop_keeps _ (halTimeout_keeps _ s h))
  | halterPortDown => exact outKeeps_next (halPortDown_keeps (hmem := h) ..)
  | halterDown => exact outKeeps_next (afterSnoop_keeps _ (halDown_keeps s h))
  | groupEntryWrite => exact outKeeps_next (groupPut_keeps (hmem := h) ..)
  | colAccept => exact outKeeps_next (colAccept_keeps (hmem := h) ..)
  | barrier | broadcast | reduce | allreduce | reduceScatter | allgather | alltoallv | alltoallCap =>
    exact outKeeps_next (colStart_keeps (hmem := h) ..)
  | join | exp | data | counts | allow | freezeMark => exact outKeeps_next (colArrive_keeps (hmem := h) ..)
  | progress => exact outKeeps_next (progressTake_keeps (hmem := h) ..)
  | progressSendTimer => exact outKeeps_next (progressSend_keeps (hmem := h) ..)
  | abort => exact outKeeps_next (onAbort_keeps (hmem := h) ..)
  | colProgressTimeout => exact outKeeps_next (colTimeout_keeps (hmem := h) ..)
  | peerSilent => exact outKeeps_next (peerSilent_keeps (hmem := h) ..)
  | colComplete => exact outKeeps_next (colComplete_keeps (hmem := h) ..)
  | colRestore => exact outKeeps_next (colRestore_keeps (hmem := h) ..)
  | colStateWindow => exact windowWrite_keeps (hput := fun _ _ ht => putCol_keeps _ _ ht) (hmem := h) ..
  | prepare => exact outKeeps_next (onPrepare_keeps (hmem := h) ..)
  | ready => exact outKeeps_next (onReady_keeps (hmem := h) ..)
  | go => exact outKeeps_next (onGo_keeps (hmem := h) ..)
  | adopt => exact outKeeps_next (onAdopt_keeps (hmem := h) ..)
  | launchChildTimeout => exact outKeeps_next (childTimeout_keeps (hmem := h) ..)
  | launchMargin => exact outKeeps_next (launchDeadline_keeps (hmem := h) ..)
  | gctDigGo => exact outKeeps_next (digGo_keeps (hmem := h) ..)
  | digCombinerDone => exact outKeeps_next (digDone_keeps (hmem := h) ..)
  | syncExchangeTimer => exact outKeeps_next (syncTimer_keeps (hmem := h) ..)
  | syncRequest => exact outKeeps_next (syncRequest_keeps (hmem := h) ..)
  | syncResponse => exact outKeeps_next (syncResponse_keeps (hmem := h) ..)
  | syncCorrection => exact outKeeps_next (syncCorrection_keeps (hmem := h) ..)
  | routeSyncTimer => exact outKeeps_next (routeTimer_keeps (hmem := h) ..)
  | ppsEdge => exact outKeeps_next (ppsEdge_keeps (hmem := h) ..)
  | ppsMissing => exact outKeeps_next (keeps_ite (ppsMiss_keeps (hmem := h) ..) h)
  | parentSilent => exact outKeeps_next (keeps_ite (parentLost_keeps (hmem := h) ..) h)
  | referenceSilent => exact outKeeps_next (referenceSilent_keeps (hmem := h) ..)
  | gctSet => exact outKeeps_next (gctSet_keeps (hmem := h) ..)
  | ckpEnable => exact outKeeps_next (ckpEnable_keeps (hmem := h) ..)
  | ckpBoundary => exact outKeeps_next (boundary_keeps (hmem := h) ..)
  | vote => exact outKeeps_next (onVote_keeps (hmem := h) ..)
  | decideCommit => exact outKeeps_next (keeps_ite h (voteCheck_keeps _ (decideMsg_keeps (hmem := h) ..)))
  | decideReplay | decideGo => exact outKeeps_next (decideMsg_keeps (hmem := h) ..)
  | decideFail => exact outKeeps_next (keeps_ite h (decideMsg_keeps (hmem := h) ..))
  | replayRestart => exact outKeeps_next (replayRestart_keeps (hmem := h) ..)
  | firnCopyDone => exact outKeeps_next (firnDone_keeps (hmem := h) ..)
  | mirrorCopyDone => exact outKeeps_next (mirrorDone_keeps (hmem := h) ..)
  | durableCopyDone => exact outKeeps_next (durableDone_keeps (hmem := h) ..)
  | freezePhase1Ready => exact outKeeps_next (phase1Ready_keeps (hmem := h) ..)
  | freezeSaveDone => exact outKeeps_next (freezeSaved_keeps (hmem := h) ..)
  | restoreCopyDone => exact outKeeps_next (restoreCopied_keeps (hmem := h) ..)
  | ckpAuditGo => exact outKeeps_next (auditGo_keeps (hmem := h) ..)
  | auditDone => exact outKeeps_next (auditDone_keeps (hmem := h) ..)
  | auditMismatch => exact outKeeps_next (auditReport_keeps (hmem := h) ..)
  | suspicionClear => exact outKeeps_next (suspicionClear_keeps (hmem := h) ..)
  | pwrPref => exact outKeeps_next (keeps_ite (prefWrite_keeps (hmem := h) ..) h)
  | pwrHostOp => exact outKeeps_next (keeps_ite (hostOpWrite_keeps (hmem := h) ..) h)
  | pwrCap => exact outKeeps_next (keeps_ite (capWrite_keeps (hmem := h) ..) h)
  | opChange => exact outKeeps_next (opChange_keeps (hmem := h) ..)
  | opFreqSwitch => exact outKeeps_next (opFreqSwitch_keeps (hmem := h) ..)
  | capTick => exact outKeeps_next (capTick_keeps (hmem := h) ..)
  | demandRecovery => exact outKeeps_next (demandRecovery_keeps (hmem := h) ..)
  | capUnmet => exact outKeeps_next (capUnmet_keeps (hmem := h) ..)
  | currentSample => exact outKeeps_next (currentSample_keeps (hmem := h) ..)
  | currentOverTotal => exact outKeeps_next (currentOver_keeps (hmem := h) ..)
  | droopTrip => exact outKeeps_next (droopTrip_keeps (hmem := h) ..)
  | droopStretchEnd => exact outKeeps_next (droopEnd_keeps (hmem := h) ..)
  | rampBoostStart => exact outKeeps_next (boostStart_keeps (hmem := h) ..)
  | rampBoostEnd => exact outKeeps_next (boostEnd_keeps (hmem := h) ..)
  | sensorSample => exact outKeeps_next (sensorSample_keeps (hmem := h) ..)
  | thermalTrip => exact outKeeps_next (thermalTrip_keeps (hmem := h) ..)
  | powerStageWarn => exact outKeeps_next (stageWarn_keeps (hmem := h) ..)
  | faultDemandClear => exact outKeeps_next (faultClear_keeps (hmem := h) ..)
  | powerStageFail => exact outKeeps_next (stageFail_keeps (hmem := h) ..)
  | powerHandover => exact outKeeps_next (handover_keeps (hmem := h) ..)
  | coldStart => exact outKeeps_next (coldStart_keeps (h := h) ..)
  | bootDone => exact outKeeps_next (bootDone_keeps (hmem := h) ..)
  | leverOpen => exact outKeeps_next (leverOpen_keeps (hmem := h) ..)
  | hostPwrEnDeassert => exact outKeeps_next (pwrEnDrop_keeps (hmem := h) ..)
  | modPresentLost => exact outKeeps_next (presentLost_keeps (hmem := h) ..)
  | inputLoss => exact outKeeps_next (inputLoss_keeps (hmem := h) ..)
  | inputOutOfRange => exact outKeeps_next (inputOut_keeps (hmem := h) ..)
  | inputLockout => exact outKeeps_next (inputLock_keeps (hmem := h) ..)
  | strapSample => exact outKeeps_next (strapSample_keeps (hmem := h) ..)
  | strapChange => exact outKeeps_next (strapChange_keeps (hmem := h) ..)
  | refclkMeasure => exact outKeeps_next (refMeasure_keeps (hmem := h) ..)
  | refclkSwitch => exact outKeeps_next (refSwitch_keeps (hmem := h) ..)
  | refclkReturn => exact outKeeps_next (refReturn_keeps (hmem := h) ..)
  | sbWrite => exact sbWrite_keeps (hmem := h) ..
  | sbSetOffset => exact outKeeps_next (sbOffset_keeps (hmem := h) ..)
  | sbRead => exact sbRead_keeps (hmem := h) ..
  | sbReadEventSeq => exact outKeeps_next (sbEventSeq_keeps (hmem := h) ..)
  | sbBusStuck => exact outKeeps_next (sbStuck_keeps (hmem := h) ..)
  | entdaa => exact outKeeps_next (sbEntdaa_keeps (hmem := h) ..)
  | setdasa => exact outKeeps_next (sbAddress_keeps (hmem := h) ..)
  | getpid | getbcr | getdcr => exact outKeeps_next (sbFree_keeps (hmem := h) ..)
  | getstatus => exact outKeeps_next (keeps_same _ _ (sbFree_keeps _ _ s h) rfl rfl rfl rfl rfl rfl)
  | enec | disec => exact outKeeps_next (sbEvents_keeps (hmem := h) ..)
  | rstact => exact outKeeps_next (sbRstact_keeps (hmem := h) ..)
  | tapBypass => exact outKeeps_next (keeps_ite (tapLoad_keeps (hmem := h) ..) h)
  | tapIdcode => exact outKeeps_next (tapIdcode_keeps (hmem := h) ..)
  | tapSamplePreload => exact outKeeps_next (tapSample_keeps (hmem := h) ..)
  | tapExtest => exact outKeeps_next (tapExtest_keeps (hmem := h) ..)
  | tapIdleTimeout => exact outKeeps_next (tapIdle_keeps (hmem := h) ..)
  | secNonceGen => exact outKeeps_next (keeps_ite (nonceGen_keeps (hmem := h) ..) h)
  | secFlashUnlock => exact outKeeps_next (keeps_ite (flashUnlock_keeps (hmem := h) ..) h)
  | flashPageWrite => exact outKeeps_next (keeps_ite (flashPage_keeps (h := h) ..) h)
  | secCairnCompact => exact outKeeps_next (keeps_ite (cairnCompact_keeps (hmem := h) ..) h)
  | secCairnSel => exact outKeeps_next (keeps_ite (cairnSel_keeps (hmem := h) ..) h)
  | dailyPeriod => exact outKeeps_next (dailyPeriod_keeps (hmem := h) ..)
  | slowReadCrossed => exact readCrossed_keeps (hmem := h) ..
  | opVoltageSettled => exact outKeeps_next (opSettled_keeps (hmem := h) ..)
  | replayRestoreDone => exact outKeeps_next (replayRestored_keeps (hmem := h) ..)
  | boundaryCheckTimeout => exact outKeeps_next (boundaryTimeout_keeps (hmem := h) ..)
  | freezeDecide => exact outKeeps_next (keeps_ite (decideMsg_keeps (hmem := h) ..) h)
  | warmResetDone => exact outKeeps_next (warmDone_keeps (hmem := h) ..)
  | sleepEntryDone => exact outKeeps_next (sleepDone_keeps (hmem := h) ..)
  | portEnable => exact outKeeps_next (portEnable_keeps (hmem := h) ..)

end

/-! ### The step -/

/-- A step removes the front of the queue, if there is one, and keeps the memories. -/
theorem step_keeps {s : State} (h : MemOk s) : OutKeeps s.pending.tail (step s) := by
  unfold step
  split
  · rename_i hq
    exact tick_keeps s ⟨h, by rw [hq]; rfl⟩
  · rename_i c rest hq
    rw [hq]
    exact exec_keeps c _ ⟨h, rfl⟩

/-- A next state that an outcome keeping the memories answers has canonical memories. -/
theorem OutKeeps.memOk {qs : List Instr} {o : Host.Outcome State Fault Refusal} {t : State} (h : OutKeeps qs o) (ho : o = .next t) : MemOk t := by
  subst ho
  exact h.1

/-- Settles O5: each operation keeps the canonical form, because the only writes to a byte memory are canonical ones, and a step is one operation. -/
theorem everyStepKeepsMemoriesCanonical : Obligations.EveryStepKeepsMemoriesCanonical := by
  unfold Obligations.EveryStepKeepsMemoriesCanonical
  intro s t h hstep
  exact (step_keeps h).memOk hstep

/-- Settles O4: at reset every byte memory lists nothing and no control image is saved. -/
theorem resetMemoriesAreCanonical : Obligations.ResetMemoriesAreCanonical := by
  unfold Obligations.ResetMemoriesAreCanonical
  refine ⟨rfl, rfl, rfl, fun e he => ?_⟩
  exact absurd he List.not_mem_nil

end Sys2Proof.Machine
end

section
/-! PROOFS. Events in their queues, registers that several writes leave alone, channels of a stack, and whole lines of HBM: what the commands of the memory
system read and change (R226, R235, R236, R242, R243, R423, R426, R435, R439). -/

namespace Sys2Proof.Machine

open Sys2Proof.Claims

/-! ### Events in their queues (R435, R439) -/

/-- Every queue of events keeps what it held, in order, and may hold more. -/
def QueuesGrow (s t : State) : Prop := ∀ q, sGet [] s.log.queues q <+: sGet [] t.log.queues q

theorem QueuesGrow.of_eq {s t : State} (h : t.log.queues = s.log.queues) : QueuesGrow s t := fun q => by rw [h]

theorem QueuesGrow.trans {s t u : State} (h : QueuesGrow s t) (h' : QueuesGrow t u) : QueuesGrow s u := fun q => (h q).trans (h' q)

/-- An event raised is the last of its source's queue, where that has a free place; no other queue changes. -/
theorem sGet_queues_raise (src code sev arg0 arg1 q : Nat) (s : State) : sGet [] (raise src code sev arg0 arg1 s).log.queues q =
    if q = src ∧ (sGet [] s.log.queues src).length < 4 then
      sGet [] s.log.queues src ++ [⟨src, code, sev, s.count, BitVec.ofNat 64 arg0, arg1 % 2 ^ 16, mergeUs code s⟩]
    else sGet [] s.log.queues q := by
  have hflag : ∃ b, (if sev ≥ 2 then { s with stepErr := true } else s) = { s with stepErr := b } := by
    split
    · exact ⟨true, rfl⟩
    · exact ⟨s.stepErr, rfl⟩
  obtain ⟨b, hb⟩ := hflag
  rw [raise, hb]
  dsimp only
  split
  next hfull =>
    rw [if_neg (by omega)]
    rfl
  next hroom =>
    rw [sGet_sIns]
    by_cases hq : q = src
    · rw [if_pos hq, if_pos ⟨hq, by omega⟩]
      rfl
    · rw [if_neg hq, if_neg fun h => hq h.1]

theorem queuesGrow_raise (src code sev arg0 arg1 : Nat) (s : State) : QueuesGrow s (raise src code sev arg0 arg1 s) := fun q => by
  rw [sGet_queues_raise]
  split
  next h =>
    rw [h.1]
    exact ⟨_, rfl⟩
  next => exact ⟨[], List.append_nil _⟩

theorem logged_raise (src code sev arg0 arg1 : Nat) (s : State) : Logged src code sev s (raise src code sev arg0 arg1 s) := by
  intro hroom
  refine ⟨⟨src, code, sev, s.count, BitVec.ofNat 64 arg0, arg1 % 2 ^ 16, mergeUs code s⟩, ?_, rfl, rfl, rfl, rfl⟩
  rw [sGet_queues_raise, if_pos ⟨rfl, by omega⟩]
  exact List.mem_append_right _ (List.mem_singleton_self _)

/-- What is in a queue stays there while queues grow. -/
theorem logged_later {src code sev : Nat} {s t u : State} (h : Logged src code sev s t) (hgrow : QueuesGrow t u) : Logged src code sev s u :=
  fun hroom => by
    obtain ⟨e, he, hfields⟩ := h hroom
    exact ⟨e, (hgrow src).subset he, hfields⟩

/-- Changes before the event that leave Logbook and counter alone do not matter. -/
theorem logged_of_same {src code sev : Nat} {s u t : State} (h : Logged src code sev u t) (hlog : u.log = s.log) (hcount : u.count = s.count) :
    Logged src code sev s t := by
  rwa [Logged, hlog, hcount] at h

/-! ### Registers and the Logbook alone -/

theorem onlyRegs_trans {touched : Nat → Prop} {s t u : State} (h : OnlyRegs touched s t) (h' : OnlyRegs touched t u) : OnlyRegs touched s u := by
  obtain ⟨c, l, k, e, rfl⟩ := restKept_of_onlyRegs h
  obtain ⟨c', l', k', e', rfl⟩ := restKept_of_onlyRegs h'
  exact ⟨fun d off ht hlost => (h'.1 d off ht hlost).trans (h.1 d off ht hlost), rfl⟩

theorem onlyRegs_mono {touched wider : Nat → Prop} {s t : State} (h : OnlyRegs touched s t) (hle : ∀ off, touched off → wider off) :
    OnlyRegs wider s t := ⟨fun d off ht => h.1 d off fun hoff => ht (hle off hoff), h.2⟩

theorem OnlyWords.onlyRegs {touched : Nat → Prop} {s t : State} (h : OnlyWords touched s t) : OnlyRegs touched s t := by
  obtain ⟨c, rfl, hc⟩ := h
  exact ⟨fun d off ht _ => hc d off ht, rfl⟩

/-- Setting a field changes the word of its register. -/
theorem onlyRegs_setF {base : Nat} {f : Fld} {l : List Fld} (hf : f ∈ l) (v : Nat) (s : State) : OnlyRegs (regAt base l) s (setF base f v s) :=
  ((onlyWords_setF base f v s).mono fun _ hoff => ⟨f, hf, hoff⟩).onlyRegs

theorem onlyRegs_bumpF {base : Nat} {f : Fld} {l : List Fld} (hf : f ∈ l) (n : Nat) (s : State) : OnlyRegs (regAt base l) s (bumpF base f n s) :=
  ⟨fun d _ ht _ => csrGet_bumpF_other base n d f s fun hoff => ht ⟨f, hf, hoff⟩, rfl⟩

theorem onlyRegs_addPair (base : Nat) (lo hi : Fld) (n : Nat) (s : State) : OnlyRegs (regAt base [lo, hi]) s (addPair base lo hi n s) :=
  onlyRegs_trans (onlyRegs_setF (by simp) _ s) (onlyRegs_setF (by simp) _ _)

/-- A field of another register of the block reads as before. -/
theorem getF_setF_apart {f g : Fld} (base v : Nat) (s : State) (h : g.off ≠ f.off) : getF base g (setF base f v s) = getF base g s :=
  getF_setF_other _ _ _ _ _ _ (by omega)

theorem getF_bumpF_apart {f g : Fld} (base n : Nat) (s : State) (h : g.off ≠ f.off) : getF base g (bumpF base f n s) = getF base g s :=
  getF_setF_apart base _ s h

theorem getF_tally (base k n : Nat) (f : Fld) (s : State) : getF base f (tally k n s) = getF base f s := rfl

theorem getF_setChan (base : Nat) (f : Fld) (st c : Nat) (x : Chan) (s : State) : getF base f (setChan st c x s) = getF base f s := rfl

/-- A 64-bit byte counter counts the bytes given. -/
theorem countedBytes_addPair {lo hi : Fld} (h : HalvesOf lo hi) (base n : Nat) (s : State) : CountedBytes base lo hi n s (addPair base lo hi n s) := by
  rw [CountedBytes, addPair, getPair_setPair h, Nat.mod_mod]

theorem countedBytes_of_same {base n : Nat} {lo hi : Fld} {s t u : State} (h : CountedBytes base lo hi n s u) (hlo : getF base lo t = getF base lo u)
    (hhi : getF base hi t = getF base hi u) : CountedBytes base lo hi n s t := by
  rwa [CountedBytes, getPair, hlo, hhi, ← getPair]

/-- Steps before and after that keep the count do not matter. -/
theorem bumped_between {base : Nat} {f : Fld} {s u v t : State} (h : Bumped base f u v) (hbefore : getF base f u = getF base f s)
    (hafter : getF base f t = getF base f v) : Bumped base f s t := by
  rwa [Bumped, hafter, ← hbefore]

/-- A rejected write is recorded as CSR_WRITE_REJECT of the package (R442, R489). -/
theorem rejectWrite_spec (path : Path) (off data : Nat) (s : State) : Logged 0 0x08 1 s (rejectWrite path off data s) ∧
    OnlyLogged s (rejectWrite path off data s) := ⟨logged_raise _ _ _ _ _ _, onlyLogged_raise ..⟩

/-! ### Registers of a stack (R33) -/

theorem stack_ne_lostAt (st x : Nat) : stackBase st + x ≠ lostAt := by
  have hlost : lostAt = 0x030010 := rfl
  unfold stackBase
  omega

/-- An event raised changes no register of a stack. -/
theorem getF_raise_stack (st : Nat) (f : Fld) (src code sev arg0 arg1 : Nat) (s : State) :
    getF (stackBase st) f (raise src code sev arg0 arg1 s) = getF (stackBase st) f s :=
  getF_of_word (csrGet_raise _ _ _ _ _ _ (stack_ne_lostAt _ _))

/-! ### One channel (R239 to R243) -/

theorem getChan_setChan_same (st c : Nat) (x : Chan) (s : State) : getChan st c (setChan st c x s) = x := by
  rw [getChan_setChan, if_pos rfl]

theorem getChan_of_restKept {s t : State} (h : RestKept s t) (a b : Nat) : getChan a b t = getChan a b s := by
  obtain ⟨c, l, k, e, rfl⟩ := h
  rfl

theorem getChan_of_onlyRegs {touched : Nat → Prop} {s t : State} (h : OnlyRegs touched s t) (a b : Nat) : getChan a b t = getChan a b s :=
  getChan_of_restKept (restKept_of_onlyRegs h) a b

theorem onlyChan_setChan {c : Nat} (hc : c < 32) (touched : Nat → Prop) (st : Nat) (x : Chan) (s : State) : OnlyChan st c touched s (setChan st c x s) := by
  refine ⟨fun a b hb hne => ?_, fun _ _ _ _ => rfl, rfl⟩
  rw [getChan_setChan, if_neg (by omega)]

/-- The channel first, then the registers and the Logbook. -/
theorem onlyChan_onlyRegs {st c : Nat} {touched : Nat → Prop} {s t u : State} (h : OnlyChan st c touched s t) (h' : OnlyRegs touched t u) :
    OnlyChan st c touched s u := by
  obtain ⟨hchans, hwords, hrest⟩ := h
  refine ⟨fun a b hb hne => (getChan_of_onlyRegs h' a b).trans (hchans a b hb hne),
    fun d off ht hlost => (h'.1 d off ht hlost).trans (hwords d off ht hlost), ?_⟩
  obtain ⟨c', l, k, e, rfl⟩ := restKept_of_onlyRegs h'
  exact hrest

/-! ### A whole line of HBM (R226, R236) -/

theorem memReadN_congr {bg bg' : Nat → Byte} {m m' : Mem} : ∀ {n a : Nat}, (∀ x, a ≤ x → x < a + n → memRead bg' m' x = memRead bg m x) →
    memReadN bg' m' a n = memReadN bg m a n
  | 0, _, _ => rfl
  | n + 1, a, h => by
    rw [memReadN, memReadN, h a (le_refl a) (by omega), memReadN_congr fun x hx hx' => h x (by omega) (by omega)]

theorem memReadN_memWriteN (bg : Nat → Byte) (n a v : Nat) (m : Mem) : memReadN bg (memWriteN bg a v n m) a n = v % 2 ^ (8 * n) := by
  rw [Nat.pow_mul]
  exact memReadN_eq_mod _ _ n v a fun _ hi => memRead_memWriteN_inside _ _ _ _ _ _ hi

/-- The marks of a line's own poison, and its channel's state, before and after another line's poison is cleared. -/
theorem poisonDel_spec (pl : Nat) (s : State) : markedPoison pl (poisonDel pl s) = false ∧
    (∀ q, q ≠ pl → markedPoison q (poisonDel pl s) = markedPoison q s) ∧ (∀ q, chanOos q (poisonDel pl s) = chanOos q s) := by
  have hown : (s.poison.filter (· ≠ pl)).contains pl = false := by simp
  have hother : ∀ q, q ≠ pl → (s.poison.filter (· ≠ pl)).contains q = s.poison.contains q := fun q hq => by
    simp [List.contains_eq_mem, hq]
  unfold poisonDel
  dsimp only
  split
  next hall =>
    have hfind : ∀ q, sGet Chan.init (sIns (chanOf pl) { sGet Chan.init s.chans (chanOf pl) with
        clean := pl :: (sGet Chan.init s.chans (chanOf pl)).clean } s.chans) (chanOf q) =
        { sGet Chan.init s.chans (chanOf q) with clean := if chanOf q = chanOf pl then pl :: (sGet Chan.init s.chans (chanOf q)).clean else
          (sGet Chan.init s.chans (chanOf q)).clean } := fun q => by
      rw [sGet_sIns]
      split
      next h => rw [h]
      next => rfl
    refine ⟨?_, fun q hq => ?_, fun q => ?_⟩
    · simp only [markedPoison, hfind, hown]
      simp
    · simp only [markedPoison, hfind, hother q hq]
      split <;> simp [hq]
    · simp only [chanOos, hfind]
  next hall =>
    refine ⟨?_, fun q hq => ?_, fun _ => rfl⟩
    · simp only [markedPoison, hown]
      simpa using hall
    · simp only [markedPoison, hother q hq]

section
variable (pl v : Nat) (s : State)

/-- The bytes of a whole line, once its channel has taken them. -/
def lineTaken : State := { s with hbm := memWriteN (hbmBgByte s) (pl * 128) v 128 s.hbm }

theorem hbmWrite_line (h : chanOos pl s = false) : hbmWrite (pl * 128) 128 v s = poisonDel pl (lineTaken pl v s) := by
  rw [hbmWrite, Nat.mul_div_cancel _ (by decide), if_neg (by simp [h])]
  rfl

theorem hbmLine_lineTaken : hbmLine pl (lineTaken pl v s) = v % 2 ^ (8 * 128) := memReadN_memWriteN ..

theorem hbmLine_lineTaken_other {q : Nat} (hq : q ≠ pl) : hbmLine q (lineTaken pl v s) = hbmLine q s :=
  memReadN_congr fun _ _ _ => memRead_memWriteN_outside _ _ _ _ _ _ (by omega)

theorem hbmLine_poisonDel (q : Nat) : hbmLine q (poisonDel pl s) = hbmLine q s := by
  obtain ⟨ps, cs, h⟩ := poisonDel_frame pl s
  rw [h]
  rfl

/-- A line written whole reads the value, unpoisoned (R236). -/
theorem hbmWrite_line_spec (data : Line) (h : chanOos pl s = false) : hbmLine pl (hbmWrite (pl * 128) 128 data.toNat s) = data.toNat ∧
    markedPoison pl (hbmWrite (pl * 128) 128 data.toNat s) = false := by
  obtain ⟨hclean, -⟩ := poisonDel_spec pl (lineTaken pl data.toNat s)
  rw [hbmWrite_line pl data.toNat s h, hbmLine_poisonDel, hbmLine_lineTaken, show 8 * 128 = 1024 from rfl, Nat.mod_eq_of_lt data.isLt]
  exact ⟨rfl, hclean⟩

/-- No other line changes, and no channel's state. -/
theorem hbmWrite_line_others : (∀ q, q ≠ pl → hbmLine q (hbmWrite (pl * 128) 128 v s) = hbmLine q s ∧
    markedPoison q (hbmWrite (pl * 128) 128 v s) = markedPoison q s) ∧ ∀ q, chanOos q (hbmWrite (pl * 128) 128 v s) = chanOos q s := by
  cases hoos : chanOos pl s with
  | true => rw [hbmWrite, Nat.mul_div_cancel _ (by decide), if_pos hoos]; exact ⟨fun _ _ => ⟨rfl, rfl⟩, fun _ => rfl⟩
  | false =>
    obtain ⟨-, hmarks, hchans⟩ := poisonDel_spec pl (lineTaken pl v s)
    rw [hbmWrite_line pl v s hoos]
    exact ⟨fun q hq => ⟨(hbmLine_poisonDel ..).trans (hbmLine_lineTaken_other pl v s hq), hmarks q hq⟩, hchans⟩

end

end Sys2Proof.Machine
end

section
/-! PROOFS. Line reads and writes of a channel, its errors, patrol scrubbing, refresh, self-test and admission, and the spread size (R226, R230, R235, R236, R239,
R243, R244). -/

namespace Sys2Proof.Machine

open Sys2Proof.Claims

/-! ### The lists of rows with errors (R244) -/

/-- The fields that show a stack's repairs. -/
def repairShown : List Fld := [R.MEM_REPAIR_STATUS_PENDING_ROWS, R.MEM_REPAIR_STATUS_LIST_OVERFLOW]

/-- Beside the lists of rows only the register that shows them and the Logbook changed, and the step met no new error. -/
def RowsNoted (st : Nat) (s t : State) : Prop :=
  (∃ m, OnlyRegs (regAt (stackBase st) repairShown) { s with rows := m } t) ∧ QueuesGrow s t ∧ t.stepErr = s.stepErr

/-- An event of severity 0 or 1 leaves the step's error flag (R437). -/
theorem stepErr_raise_of_low {sev : Nat} (h : sev < 2) (src code arg0 arg1 : Nat) (s : State) : (raise src code sev arg0 arg1 s).stepErr = s.stepErr := by
  have hflag : (if sev ≥ 2 then { s with stepErr := true } else s) = s := if_neg (by omega)
  rw [raise, hflag]
  dsimp only
  split <;> rfl

theorem rowsNoted_setRows (st : Nat) (m : Store (List RowRec)) (s : State) : RowsNoted st s { s with rows := m } :=
  ⟨⟨m, fun _ _ _ _ => rfl, rfl⟩, .of_eq rfl, rfl⟩

theorem rowsNoted_raise {st sev : Nat} {s t : State} (h : RowsNoted st s t) (hsev : sev < 2) (src code arg0 arg1 : Nat) :
    RowsNoted st s (raise src code sev arg0 arg1 t) := by
  obtain ⟨⟨m, hregs⟩, hqueues, herr⟩ := h
  exact ⟨⟨m, onlyRegs_trans hregs (onlyRegs_mono (onlyLogged_raise ..) fun _ => False.elim)⟩, hqueues.trans (queuesGrow_raise _ _ _ _ _ _),
    (stepErr_raise_of_low hsev ..).trans herr⟩

/-- A row that qualifies is listed, or counted and recorded where the list is full. -/
theorem rowsNoted_rowQualifies (st c bank row : Nat) (s : State) : RowsNoted st s (rowQualifies st c bank row s) := by
  unfold rowQualifies
  dsimp only
  split
  · exact rowsNoted_setRows ..
  · split
    · exact ⟨⟨_, onlyRegs_setF (by simp [repairShown]) _ _⟩, .of_eq rfl, rfl⟩
    · exact rowsNoted_raise ⟨⟨_, onlyRegs_bumpF (by simp [repairShown]) 1 _⟩, .of_eq rfl, rfl⟩ (by decide) ..

theorem RowsNoted.ite {c : Prop} [Decidable c] {st : Nat} {s t u : State} (ht : RowsNoted st s t) (hu : RowsNoted st s u) :
    RowsNoted st s (if c then t else u) := by
  split <;> assumption

theorem rowsNoted_rowCorrected (st c bank row : Nat) (s : State) : RowsNoted st s (rowCorrected st c bank row s) := by
  rw [rowCorrected]
  exact .ite (rowsNoted_setRows st s.rows s) (.ite (rowsNoted_rowQualifies ..) (rowsNoted_setRows ..))

section
variable {st : Nat} {s t : State} (h : RowsNoted st s t)
include h

theorem RowsNoted.getF {f : Fld} (hf : f.off ≠ R.MEM_REPAIR_STATUS_PENDING_ROWS.off) : getF (stackBase st) f t = getF (stackBase st) f s := by
  obtain ⟨⟨m, hwords, -⟩, -⟩ := h
  refine getF_of_word (hwords _ _ ?_ (stack_ne_lostAt _ _))
  rintro ⟨g, hg, hoff⟩
  have hgoff : g.off = R.MEM_REPAIR_STATUS_PENDING_ROWS.off := by
    rcases List.mem_pair.1 hg with rfl | rfl <;> rfl
  omega

theorem RowsNoted.rest : ∃ c r l k e, t = { s with csr := c, rows := r, log := l, totals := k, stepErr := e } := by
  obtain ⟨⟨m, hregs⟩, -⟩ := h
  obtain ⟨c, l, k, e, ht⟩ := restKept_of_onlyRegs hregs
  exact ⟨c, m, l, k, e, ht⟩

end

/-! ### Reading a line (R235) -/

section
variable (st c : Nat) (s : State)

/-- The stack has counted a line read. -/
def readCounted : State := addPair (stackBase st) R.MEM_RD_BYTES_LO_VALUE R.MEM_RD_BYTES_HI_VALUE 128 s

/-- The channel and its stack have counted a corrected error. -/
def ceNoted : State :=
  tally (chanTotal st c 0) 1 (bumpF (stackBase st) R.MEM_CE_COUNT_COUNT 1 (setChan st c { getChan st c s with ceCount := satAdd 16 (getChan st c s).ceCount 1 } s))

/-- The line is marked, and the stack shows and counts an uncorrectable error. -/
def ueNoted (pl : Nat) : State := bumpF (stackBase st) R.MEM_STATUS_UE_COUNT 1 (setF (stackBase st) R.MEM_STATUS_UE 1 (poisonAdd pl s))

/-- The stack holds the address of its first uncorrectable error. -/
def ueHeld (off : Nat) : State :=
  capture (stackBase st) R.MEM_UE_ADDR_HI_VALID
    (fun s => setF (stackBase st) R.MEM_UE_ADDR_LO_ADDR off (setF (stackBase st) R.MEM_UE_ADDR_HI_ADDR (off / 2 ^ 32) s)) s

/-- The event of an uncorrectable error. -/
def ueRaised (off : Nat) : State := raise (srcChan st c) 0x30 2 (st + c * 2 ^ 8 + off * 2 ^ 16) 0 (tally (chanTotal st c 2) 1 s)

/-! The fields that each part sets. -/

def readFields : List Fld := [R.MEM_RD_BYTES_LO_VALUE, R.MEM_RD_BYTES_HI_VALUE]
def ueFields : List Fld := [R.MEM_STATUS_UE, R.MEM_STATUS_UE_COUNT]
def ueAddress : List Fld := [R.MEM_UE_ADDR_LO_ADDR, R.MEM_UE_ADDR_HI_ADDR, R.MEM_UE_ADDR_HI_VALID]

theorem fieldsOnly_readCounted : FieldsOnly (stackBase st) readFields s (readCounted st s) :=
  (FieldsOnly.refl ..).addPair (by simp [readFields]) (by simp [readFields]) 128

theorem fieldsOnly_ueNoted (pl : Nat) : FieldsOnly (stackBase st) ueFields (poisonAdd pl s) (ueNoted st s pl) :=
  ((FieldsOnly.refl ..).setF (by simp [ueFields]) 1).bumpF (by simp [ueFields]) 1

theorem fieldsOnly_ueHeld (off : Nat) : FieldsOnly (stackBase st) ueAddress s (ueHeld st s off) :=
  (FieldsOnly.refl ..).capture (by simp [ueAddress]) (((FieldsOnly.refl ..).setF (by simp [ueAddress]) _).setF (by simp [ueAddress]) _)

theorem getF_poisonAdd (b : Nat) (f : Fld) (pl : Nat) : getF b f (poisonAdd pl s) = getF b f s := by
  obtain ⟨ps, h⟩ := poisonAdd_frame pl s
  rw [h]
  rfl

theorem getF_ceNoted {f : Fld} (hf : f.off ≠ R.MEM_CE_COUNT_COUNT.off) : getF (stackBase st) f (ceNoted st c s) = getF (stackBase st) f s := by
  rw [ceNoted, getF_tally, getF_bumpF_apart _ _ _ hf, getF_setChan]

theorem ceNoted_spec : Bumped (stackBase st) R.MEM_CE_COUNT_COUNT s (ceNoted st c s) ∧
    (getChan st c (ceNoted st c s)).ceCount = satAdd 16 (getChan st c s).ceCount 1 ∧
    ∃ w ch k, ceNoted st c s = { s with csr := w, chans := ch, totals := k } := by
  rw [ceNoted]
  generalize hk : { getChan st c s with ceCount := satAdd 16 (getChan st c s).ceCount 1 } = k
  have hbumped := bumped_bumpF (f := R.MEM_CE_COUNT_COUNT) (by decide) (stackBase st) (setChan st c k s)
  obtain ⟨w, n, hb⟩ := (RegsOnly.refl (setChan st c k s)).bumpF (stackBase st) R.MEM_CE_COUNT_COUNT 1
  refine ⟨bumped_between hbumped (getF_setChan ..) (getF_tally ..), ?_⟩
  rw [hb]
  refine ⟨?_, w, _, _, rfl⟩
  exact (congrArg Chan.ceCount (getChan_setChan_same st c k s)).trans (by rw [← hk])

/-- The address is held where none was, and the first one stays. -/
theorem ueHeld_spec (off : Nat) :
    (getF (stackBase st) R.MEM_UE_ADDR_HI_VALID s = 0 → getF (stackBase st) R.MEM_UE_ADDR_HI_VALID (ueHeld st s off) = 1 ∧
      getF (stackBase st) R.MEM_UE_ADDR_LO_ADDR (ueHeld st s off) = off % 2 ^ 32 ∧
      getF (stackBase st) R.MEM_UE_ADDR_HI_ADDR (ueHeld st s off) = off / 2 ^ 32 % 2 ^ 31) ∧
    (getF (stackBase st) R.MEM_UE_ADDR_HI_VALID s = 1 → ueHeld st s off = s) := by
  refine ⟨fun hfree => ?_, fun hheld => if_pos hheld⟩
  rw [ueHeld, capture, if_neg (by omega)]
  refine ⟨getF_setF _ _ _ _ (by decide), ?_, ?_⟩
  · rw [getF_setF_apart _ _ _ (by decide), getF_setF _ _ _ _ (by decide)]
    rfl
  · rw [getF_setF_beside _ _ _ (by decide) (by decide), getF_setF_apart _ _ _ (by decide), getF_setF _ _ _ _ (by decide)]
    rfl

end

/-- The registers and marks of an uncorrectable error, before its event. -/
def ueRegs (st pl off : Nat) (s : State) : State := ueHeld st (ueNoted st (readCounted st s) pl) off

theorem contains_poisonAdd (pl : Nat) (s : State) : (poisonAdd pl s).poison.contains pl = true := by
  unfold poisonAdd
  split
  next h => exact h
  next => simp

theorem ueRegs_frame (st pl off : Nat) (s : State) :
    ∃ w ps k, ueRegs st pl off s = { s with csr := w, poison := ps, totals := k } ∧ ps.contains pl = true := by
  have hmark := contains_poisonAdd pl (readCounted st s)
  obtain ⟨⟨w, k, hread⟩, -⟩ := fieldsOnly_readCounted st s
  obtain ⟨ps, hadd⟩ := poisonAdd_frame pl (readCounted st s)
  obtain ⟨⟨w', k', hnoted⟩, -⟩ := fieldsOnly_ueNoted st (readCounted st s) pl
  obtain ⟨⟨w'', k'', hheld⟩, -⟩ := fieldsOnly_ueHeld st (ueNoted st (readCounted st s) pl) off
  rw [hadd] at hmark
  rw [ueRegs, hheld, hnoted, hadd, hread]
  exact ⟨_, ps, _, rfl, hmark⟩

/-- The bytes counted, the error shown and counted, and its address held unless one is (R235). -/
theorem ueRegs_spec (st pl off : Nat) (s : State) :
    CountedBytes (stackBase st) R.MEM_RD_BYTES_LO_VALUE R.MEM_RD_BYTES_HI_VALUE 128 s (ueRegs st pl off s) ∧
    getF (stackBase st) R.MEM_STATUS_UE (ueRegs st pl off s) = 1 ∧ Bumped (stackBase st) R.MEM_STATUS_UE_COUNT s (ueRegs st pl off s) ∧
    (getF (stackBase st) R.MEM_UE_ADDR_HI_VALID s = 0 → getF (stackBase st) R.MEM_UE_ADDR_HI_VALID (ueRegs st pl off s) = 1 ∧
      getF (stackBase st) R.MEM_UE_ADDR_LO_ADDR (ueRegs st pl off s) = off % 2 ^ 32 ∧
      getF (stackBase st) R.MEM_UE_ADDR_HI_ADDR (ueRegs st pl off s) = off / 2 ^ 32 % 2 ^ 31) ∧
    (getF (stackBase st) R.MEM_UE_ADDR_HI_VALID s = 1 → getF (stackBase st) R.MEM_UE_ADDR_LO_ADDR (ueRegs st pl off s) = getF (stackBase st) R.MEM_UE_ADDR_LO_ADDR s ∧
      getF (stackBase st) R.MEM_UE_ADDR_HI_ADDR (ueRegs st pl off s) = getF (stackBase st) R.MEM_UE_ADDR_HI_ADDR s) := by
  have hcounted := countedBytes_addPair (lo := R.MEM_RD_BYTES_LO_VALUE) (hi := R.MEM_RD_BYTES_HI_VALUE) (by decide) (stackBase st) 128 s
  obtain ⟨-, hread⟩ := fieldsOnly_readCounted st s
  obtain ⟨-, hnoted⟩ := fieldsOnly_ueNoted st (readCounted st s) pl
  obtain ⟨-, hheld⟩ := fieldsOnly_ueHeld st (ueNoted st (readCounted st s) pl) off
  obtain ⟨hfree, htaken⟩ := ueHeld_spec st (ueNoted st (readCounted st s) pl) off
  obtain ⟨hflag, hcount⟩ := flagNoted_bumpF_setF (flag := R.MEM_STATUS_UE) (count := R.MEM_STATUS_UE_COUNT) (by decide) (stackBase st)
    (poisonAdd pl (readCounted st s))
  have hadd := fun f => getF_poisonAdd (readCounted st s) (stackBase st) f pl
  have hbefore : ∀ f : Fld, f.lo + f.w ≤ 32 → (∀ g ∈ readFields, FieldsClear g f) → (∀ g ∈ ueFields, FieldsClear g f) →
      getF (stackBase st) f (ueNoted st (readCounted st s) pl) = getF (stackBase st) f s := fun f hf hr hu =>
    ((hnoted f hf hu).trans (hadd f)).trans (hread f hf hr)
  refine ⟨countedBytes_of_same hcounted ?_ ?_, ?_, ?_, fun h => hfree ?_, fun h => ?_⟩
  · exact ((hheld _ (by decide) (by decide)).trans (hnoted _ (by decide) (by decide))).trans (hadd _)
  · exact ((hheld _ (by decide) (by decide)).trans (hnoted _ (by decide) (by decide))).trans (hadd _)
  · exact (hheld _ (by decide) (by decide)).trans hflag
  · exact bumped_between hcount ((hadd _).trans (hread _ (by decide) (by decide))) (hheld _ (by decide) (by decide))
  · rw [hbefore _ (by decide) (by decide) (by decide), h]
  · rw [ueRegs, htaken (by rw [hbefore _ (by decide) (by decide) (by decide), h])]
    exact ⟨hbefore _ (by decide) (by decide) (by decide), hbefore _ (by decide) (by decide) (by decide)⟩

/-- The offset of a line depends on the spread size alone. -/
theorem localOf_readCounted (st pl : Nat) (s : State) : localOf pl (readCounted st s) = localOf pl s := by
  have hspread : getF mempBase R.MEM_SPREAD_SIZE (readCounted st s) = getF mempBase R.MEM_SPREAD_SIZE s := by
    have hlo : mempBase + R.MEM_SPREAD_SIZE.off ≠ stackBase st + R.MEM_RD_BYTES_LO_VALUE.off := by
      change 0x2C0000 ≠ 0x200000 + st * 0x10000 + 0x50
      omega
    have hhi : mempBase + R.MEM_SPREAD_SIZE.off ≠ stackBase st + R.MEM_RD_BYTES_HI_VALUE.off := by
      change 0x2C0000 ≠ 0x200000 + st * 0x10000 + 0x54
      omega
    rw [readCounted, addPair, setPair, getF_setF_other _ _ _ _ _ _ hhi, getF_setF_other _ _ _ _ _ _ hlo]
  rw [localOf, localOf, spreadGib, spreadGib, hspread]

section
variable (st c line row bank : Nat) {s : State}

theorem lineRead_oos (err : Nat) (h : chanOos (chanLine st c line) s = true) : lineRead st c line row bank err s = s := if_pos h

variable (h : chanOos (chanLine st c line) s = false)
include h

theorem lineRead_clean : lineRead st c line row bank 0 s = readCounted st s := by
  rw [lineRead, h]
  rfl

theorem lineRead_corrected : lineRead st c line row bank 1 s = rowCorrected st c bank row (ceNoted st c (readCounted st s)) := by
  rw [lineRead, h]
  rfl

theorem lineRead_uncorrectable : lineRead st c line row bank 2 s = rowQualifies st c bank row
    (ueRaised st c (ueRegs st (chanLine st c line) (localOf (chanLine st c line) s) s) (localOf (chanLine st c line) s)) := by
  rw [lineRead, h, ← localOf_readCounted st]
  rfl

/-- A corrected error counts in the channel and the stack (R235). -/
theorem lineRead_corrected_spec {t : State} (ht : lineRead st c line row bank 1 s = t) :
    CountedBytes (stackBase st) R.MEM_RD_BYTES_LO_VALUE R.MEM_RD_BYTES_HI_VALUE 128 s t ∧ Bumped (stackBase st) R.MEM_CE_COUNT_COUNT s t ∧
    (getChan st c t).ceCount = satAdd 16 (getChan st c s).ceCount 1 ∧ MemoriesKept s t ∧ t.cores = s.cores ∧ t.engines = s.engines := by
  rw [lineRead_corrected st c line row bank h] at ht
  have hrows := rowsNoted_rowCorrected st c bank row (ceNoted st c (readCounted st s))
  rw [ht] at hrows
  obtain ⟨⟨w, n, hread⟩, hkept⟩ := fieldsOnly_readCounted st s
  obtain ⟨hbumped, hchan, w', ch, k, hce⟩ := ceNoted_spec st c (readCounted st s)
  refine ⟨?_, bumped_between hbumped (hkept _ (by decide) (by decide)) (hrows.getF (by decide)), ?_⟩
  · refine countedBytes_of_same (countedBytes_addPair (by decide) (stackBase st) 128 s) ?_ ?_
    · exact (hrows.getF (by decide)).trans (getF_ceNoted _ _ _ (by decide))
    · exact (hrows.getF (by decide)).trans (getF_ceNoted _ _ _ (by decide))
  · obtain ⟨cs, r, l, k, e, rfl⟩ := hrows.rest
    rw [hce, hread] at hchan ⊢
    exact ⟨hchan, ⟨rfl, rfl, rfl, rfl, rfl⟩, rfl, rfl⟩

/-- An uncorrectable error marks the line and the step, its address is held unless one is, and its event is recorded (R235, R236, R437). -/
theorem lineRead_uncorrectable_spec {t : State} (ht : lineRead st c line row bank 2 s = t) :
    CountedBytes (stackBase st) R.MEM_RD_BYTES_LO_VALUE R.MEM_RD_BYTES_HI_VALUE 128 s t ∧ markedPoison (chanLine st c line) t = true ∧
    getF (stackBase st) R.MEM_STATUS_UE t = 1 ∧ Bumped (stackBase st) R.MEM_STATUS_UE_COUNT s t ∧ Logged (srcChan st c) 0x30 2 s t ∧
    t.stepErr = true ∧ t.hbm = s.hbm ∧ t.depot = s.depot ∧ t.tileSram = s.tileSram ∧ t.cores = s.cores ∧
    (getF (stackBase st) R.MEM_UE_ADDR_HI_VALID s = 0 → getF (stackBase st) R.MEM_UE_ADDR_HI_VALID t = 1 ∧
      getF (stackBase st) R.MEM_UE_ADDR_LO_ADDR t = localOf (chanLine st c line) s % 2 ^ 32 ∧
      getF (stackBase st) R.MEM_UE_ADDR_HI_ADDR t = localOf (chanLine st c line) s / 2 ^ 32 % 2 ^ 31) ∧
    (getF (stackBase st) R.MEM_UE_ADDR_HI_VALID s = 1 → getF (stackBase st) R.MEM_UE_ADDR_LO_ADDR t = getF (stackBase st) R.MEM_UE_ADDR_LO_ADDR s ∧
      getF (stackBase st) R.MEM_UE_ADDR_HI_ADDR t = getF (stackBase st) R.MEM_UE_ADDR_HI_ADDR s) := by
  rw [lineRead_uncorrectable st c line row bank h] at ht
  generalize localOf (chanLine st c line) s = off at ht ⊢
  obtain ⟨hcounted, hflag, hcount, hfree, htaken⟩ := ueRegs_spec st (chanLine st c line) off s
  obtain ⟨w, ps, k, hregs, hmark⟩ := ueRegs_frame st (chanLine st c line) off s
  have hrows := rowsNoted_rowQualifies st c bank row (ueRaised st c (ueRegs st (chanLine st c line) off s) off)
  rw [ht] at hrows
  have hfield : ∀ f : Fld, f.off ≠ R.MEM_REPAIR_STATUS_PENDING_ROWS.off →
      getF (stackBase st) f t = getF (stackBase st) f (ueRegs st (chanLine st c line) off s) := fun f hf =>
    (hrows.getF hf).trans (getF_raise_stack ..)
  have hlogged : Logged (srcChan st c) 0x30 2 s t := by
    obtain ⟨-, hgrow, -⟩ := hrows
    refine logged_later (logged_of_same (logged_raise _ _ _ _ _ _) ?_ ?_) hgrow
    · rw [hregs]; rfl
    · rw [hregs]; rfl
  have herr : t.stepErr = true := by
    obtain ⟨-, -, herr⟩ := hrows
    exact herr.trans (stepErr_raise (by decide) ..)
  have hframe : ∃ w r l k e, t = { s with csr := w, poison := ps, rows := r, log := l, totals := k, stepErr := e } := by
    obtain ⟨w', r, l, k', e, hrest⟩ := hrows.rest
    obtain ⟨w'', l'', k'', e'', hraise⟩ := restKept_raise (srcChan st c) 0x30 2 (st + c * 2 ^ 8 + off * 2 ^ 16) 0
      (tally (chanTotal st c 2) 1 (ueRegs st (chanLine st c line) off s))
    rw [hrest, ueRaised, hraise, hregs]
    exact ⟨_, _, _, _, _, rfl⟩
  refine ⟨countedBytes_of_same hcounted (hfield _ (by decide)) (hfield _ (by decide)), ?_, (hfield _ (by decide)).trans hflag,
    bumped_between hcount rfl (hfield _ (by decide)), hlogged, herr, ?_⟩
  · obtain ⟨w', r, l, k', e, rfl⟩ := hframe
    simp only [markedPoison, hmark, Bool.true_or]
  · rw [hfield _ (by decide), hfield _ (by decide), hfield _ (by decide)]
    obtain ⟨w', r, l, k', e, rfl⟩ := hframe
    exact ⟨rfl, rfl, rfl, rfl, hfree, htaken⟩

end

/-! ### Writing a line, refresh, self-test and admission (R226, R239, R242, R243) -/

theorem getPair_of_csr {base : Nat} {lo hi : Fld} {s t : State} (h : t.csr = s.csr) : getPair base lo hi t = getPair base lo hi s :=
  getPair_of_words fun d off _ => by rw [csrGet, csrGet, h]

theorem lineStore_oos (st c line : Nat) (data : Line) {s : State} (h : chanOos (chanLine st c line) s = true) : lineStore st c line data s = s := if_pos h

/-- A line written is the one line that changes, and the stack counts its bytes. -/
theorem lineStore_spec {st c line : Nat} {data : Line} {s t : State} (h : chanOos (chanLine st c line) s = false) (ht : lineStore st c line data s = t) :
    hbmLine (chanLine st c line) t = data.toNat ∧ markedPoison (chanLine st c line) t = false ∧
    (∀ q, q ≠ chanLine st c line → hbmLine q t = hbmLine q s) ∧ t.depot = s.depot ∧ t.tileSram = s.tileSram ∧ t.cores = s.cores ∧
    CountedBytes (stackBase st) R.MEM_WR_BYTES_LO_VALUE R.MEM_WR_BYTES_HI_VALUE 128 s t := by
  have hrun : lineStore st c line data s = addPair (stackBase st) R.MEM_WR_BYTES_LO_VALUE R.MEM_WR_BYTES_HI_VALUE 128
      (hbmWrite (chanLine st c line * 128) 128 data.toNat s) := by
    rw [lineStore, h]
    rfl
  rw [hrun] at ht
  generalize chanLine st c line = pl at *
  have hoos : chanOos (pl * 128 / 128) s = false := by rwa [Nat.mul_div_cancel _ (by decide)]
  obtain ⟨hline, hmark⟩ := hbmWrite_line_spec pl s data h
  obtain ⟨hothers, -⟩ := hbmWrite_line_others pl data.toNat s
  obtain ⟨ps, ch, hwrite⟩ := hbmWrite_frame 128 data.toNat hoos
  have hcounted := countedBytes_addPair (lo := R.MEM_WR_BYTES_LO_VALUE) (hi := R.MEM_WR_BYTES_HI_VALUE) (by decide) (stackBase st) 128
    (hbmWrite (pl * 128) 128 data.toNat s)
  rw [CountedBytes, getPair_of_csr (sameRegs_hbmWrite _ _ _ s).csr, ht] at hcounted
  obtain ⟨w, hwords, -⟩ := onlyWords_addPair (stackBase st) R.MEM_WR_BYTES_LO_VALUE R.MEM_WR_BYTES_HI_VALUE 128 (hbmWrite (pl * 128) 128 data.toNat s)
  rw [hwords] at ht
  subst ht
  exact ⟨hline, hmark, fun q hq => (hothers q hq).1, by rw [hwrite], by rw [hwrite], by rw [hwrite], hcounted⟩

theorem chanOf_chanLine {line : Nat} (st c : Nat) (hline : line < 2 ^ 24) : chanOf (chanLine st c line) = st * 32 + c := by
  unfold chanOf chanLine
  omega

/-- A channel that did not change beside its registers. -/
theorem refresh_spec {st c : Nat} (hc : c < 32) (s : State) :
    getChan st c (refresh st c s) = { getChan st c s with owed := if (getChan st c s).inSlice then min 8 ((getChan st c s).owed + 1) else 0 } ∧
    OnlyChan st c (fun _ => False) s (refresh st c s) := ⟨getChan_setChan_same .., onlyChan_setChan hc ..⟩

theorem selftest_spec {st c : Nat} (hc : c < 32) {s : State} (h : (getChan st c s).st = .outOfService) :
    getChan st c (selftest st c s) = { getChan st c s with st := .selfTest, passed := false, admitReq := false } ∧
    OnlyChan st c (fun _ => False) s (selftest st c s) := by
  rw [selftest, if_pos h]
  exact ⟨getChan_setChan_same .., onlyChan_setChan hc ..⟩

/-- A channel whose self-test has ended. -/
def tested (pass : Bool) (k : Chan) : Chan :=
  { k with st := .outOfService, passed := pass, allPoison := k.allPoison || pass, clean := if pass then [] else k.clean }

/-- The end of a self-test: its result, and after a pass every line of the channel reads poisoned (R243). -/
theorem selftestDone_spec {st c : Nat} (hc : c < 32) (pass : Bool) {s t : State} (h : (getChan st c s).st = .selfTest) (ht : selftestDone st c pass s = t) :
    (getChan st c t).st = .outOfService ∧ (getChan st c t).passed = pass ∧ getF (stackBase st) R.MEM_SELFTEST_DONE t = 1 ∧
    getF (stackBase st) R.MEM_SELFTEST_PASS t = b2n pass ∧ (∀ line, line < 2 ^ 24 → pass = true → markedPoison (chanLine st c line) t = true) ∧
    OnlyChan st c (regAt (stackBase st) [R.MEM_SELFTEST_DONE, R.MEM_SELFTEST_PASS]) s t := by
  have hrun : selftestDone st c pass s = setF (stackBase st) R.MEM_SELFTEST_PASS (b2n pass) (setF (stackBase st) R.MEM_SELFTEST_DONE 1
      (setChan st c (tested pass (getChan st c s)) s)) := if_pos h
  rw [hrun] at ht
  have hregs : OnlyRegs (regAt (stackBase st) [R.MEM_SELFTEST_DONE, R.MEM_SELFTEST_PASS]) (setChan st c (tested pass (getChan st c s)) s) t :=
    ht ▸ onlyRegs_trans (onlyRegs_setF (by simp) _ _) (onlyRegs_setF (by simp) _ _)
  have hchan : getChan st c t = tested pass (getChan st c s) := (getChan_of_onlyRegs hregs st c).trans (getChan_setChan_same ..)
  refine ⟨congrArg Chan.st hchan, congrArg Chan.passed hchan, ?_, ?_, fun line hline hpass => ?_, onlyChan_onlyRegs (onlyChan_setChan hc ..) hregs⟩
  · rw [← ht, getF_setF_beside _ _ _ (by decide) (by decide), getF_setF _ _ _ _ (by decide)]
    rfl
  · rw [← ht, getF_setF _ _ _ _ (by decide)]
    cases pass <;> rfl
  · rw [getChan] at hchan
    rw [markedPoison, chanOf_chanLine st c hline, hchan, hpass]
    simp [tested]

theorem memAdmit_spec {st c : Nat} (hc : c < 32) {s : State} (h : (getChan st c s).st = .outOfService) (hpassed : (getChan st c s).passed = true) :
    getChan st c (memAdmit st c s) = { getChan st c s with admitReq := true } ∧ OnlyChan st c (fun _ => False) s (memAdmit st c s) := by
  rw [memAdmit, if_pos ⟨h, hpassed⟩]
  exact ⟨getChan_setChan_same .., onlyChan_setChan hc ..⟩

/-- A request without a passed self-test is recorded (R243). -/
theorem memAdmit_refused {st c : Nat} {s : State} (h : ¬ ((getChan st c s).st = .outOfService ∧ (getChan st c s).passed = true)) :
    Logged (srcChan st c) 0x33 1 s (memAdmit st c s) ∧ OnlyLogged s (memAdmit st c s) := by
  rw [memAdmit, if_neg h]
  exact ⟨logged_raise _ _ _ _ _ _, onlyLogged_raise ..⟩

/-! ### The statement -/

/-- Settles O34: each command changes its own channel, the registers of its stack that it names and the Logbook; a line written is the only one. -/
theorem channelsTransferTestAndAdmit : Obligations.ChannelsTransferTestAndAdmit := by
  unfold Obligations.ChannelsTransferTestAndAdmit
  intro st c line row bank data pass path val s b pl k rdWords counted
  have hread : ∀ err : Fin 3, Runs (.hbmLineRead st c line row bank err) s (lineRead st c line.toNat row.toNat bank.toNat err s) := fun _ => rfl
  have hclean : chanOos pl s = false → ∃ t, lineRead st c line.toNat row.toNat bank.toNat 0 s = t ∧ counted t ∧ OnlyRegs rdWords s t := fun h =>
    ⟨_, lineRead_clean st c line.toNat row.toNat bank.toNat h, countedBytes_addPair (by decide) .., onlyRegs_addPair ..⟩
  have hpatrol : Runs (.patrolScrub st c line row bank 0) s (patrol st c line.toNat row.toNat bank.toNat 0 s) := rfl
  refine ⟨fun h => ⟨?_, ?_, ?_, ?_, fun hscrub => ?_⟩, fun h => ⟨?_, ?_⟩, fun hscrub => ?_, ?_, fun h => ?_, fun h => ?_, fun h => ?_, fun h hpassed => ?_,
    fun h => ?_, fun h => ?_, fun h => ?_⟩
  · obtain ⟨t, ht, hspec⟩ := hclean h
    exact ⟨t, ht ▸ hread 0, hspec⟩
  · exact ⟨_, hread 1, lineRead_corrected_spec st c line.toNat row.toNat bank.toNat h rfl⟩
  · exact ⟨_, hread 2, lineRead_uncorrectable_spec st c line.toNat row.toNat bank.toNat h rfl⟩
  · exact ⟨lineStore st c line.toNat data s, rfl, lineStore_spec h rfl⟩
  · obtain ⟨t, ht, hspec⟩ := hclean h
    rw [patrol, if_pos hscrub] at hpatrol
    exact ⟨t, ht ▸ hpatrol, hspec⟩
  · exact congrArg Host.Outcome.next (lineStore_oos st c line.toNat data h)
  · exact congrArg Host.Outcome.next (lineRead_oos st c line.toNat row.toNat bank.toNat 0 h)
  · rwa [patrol, if_neg hscrub] at hpatrol
  · exact ⟨refresh st c s, rfl, refresh_spec c.isLt s⟩
  · exact ⟨selftest st c s, rfl, selftest_spec c.isLt h⟩
  · exact congrArg Host.Outcome.next (if_neg h)
  · obtain ⟨hst, hpassed, hdone, hpass, hmark, honly⟩ := selftestDone_spec c.isLt pass h rfl
    exact ⟨selftestDone st c pass s, rfl, hst, hpassed, hdone, hpass, hmark _ line.isLt, honly⟩
  · exact ⟨memAdmit st c s, rfl, memAdmit_spec c.isLt h hpassed⟩
  · exact ⟨memAdmit st c s, rfl, memAdmit_refused h⟩
  · have hrun : Runs (.memSpreadWrite path val) s (setF mempBase R.MEM_SPREAD_SIZE val.toNat s) := congrArg Host.Outcome.next (if_pos h)
    exact ⟨_, hrun, getF_setF _ _ _ _ (by decide), onlyRegs_setF (List.mem_singleton_self _) ..⟩
  · have hrun : Runs (.memSpreadWrite path val) s (rejectWrite path (mempBase + R.MEM_SPREAD_SIZE.off) val.toNat s) := congrArg Host.Outcome.next (if_neg h)
    exact ⟨_, hrun, rejectWrite_spec ..⟩

end Sys2Proof.Machine
end

section
/-! PROOFS. Retraining: a trigger, a slice, the end of a retrain and the margin check (R240 to R242). -/

namespace Sys2Proof.Machine

open Sys2Proof.Claims

/-! ### MEM_STATUS, the register of the retrain's fields -/

/-- Fields of one register share its word. -/
theorem onlyRegs_setF_word (f g : Fld) (h : g.off = f.off) (base v : Nat) (s : State) : OnlyRegs (regAt base [f]) s (setF base g v s) :=
  onlyRegs_mono (onlyRegs_setF (List.mem_singleton_self g) v s) fun off ⟨x, hx, hoff⟩ =>
    ⟨f, List.mem_singleton_self f, by rw [hoff, List.mem_singleton.mp hx, h]⟩

theorem onlyRegs_bumpF_word (f g : Fld) (h : g.off = f.off) (base n : Nat) (s : State) : OnlyRegs (regAt base [f]) s (bumpF base g n s) :=
  onlyRegs_mono (onlyRegs_bumpF (List.mem_singleton_self g) n s) fun off ⟨x, hx, hoff⟩ =>
    ⟨f, List.mem_singleton_self f, by rw [hoff, List.mem_singleton.mp hx, h]⟩

theorem onlyRegs_tally (touched : Nat → Prop) (k n : Nat) (s : State) : OnlyRegs touched s (tally k n s) := ⟨fun _ _ _ _ => rfl, rfl⟩

/-- Another value for the channel changes no other. -/
theorem onlyChan_setChan_again {st c : Nat} {touched : Nat → Prop} {s t : State} (h : OnlyChan st c touched s t) (hc : c < 32) (x : Chan) :
    OnlyChan st c touched s (setChan st c x t) := by
  obtain ⟨hchans, hwords, hrest⟩ := h
  exact ⟨fun a b hb hne => ((onlyChan_setChan hc touched st x t).1 a b hb hne).trans (hchans a b hb hne), hwords, hrest⟩

/-! ### A retrain begins -/

/-- A channel whose retrain begins. -/
def retraining (fails : Nat) (k : Chan) : Chan :=
  { k with st := .retraining, slices := 0, fails := fails, trig := false, inSlice := false, retrains := satAdd 8 k.retrains 1 }

/-- A retrain begins: counted in the channel and the stack, whose status shows it. -/
theorem retrainBegin_spec {c : Nat} (hc : c < 32) (st fails : Nat) {s t : State} (ht : retrainBegin st c fails s = t) : RetrainBegan st c fails s t := by
  have hregs : OnlyRegs (regAt (stackBase st) [R.MEM_STATUS_RETRAINING]) (setChan st c (retraining fails (getChan st c s)) s) t :=
    ht ▸ onlyRegs_trans (onlyRegs_trans (onlyRegs_tally _ (chanTotal st c 1) 1 _) (onlyRegs_bumpF_word R.MEM_STATUS_RETRAINING R.MEM_STATUS_RETRAIN_COUNT rfl _ _ _))
      (onlyRegs_setF (List.mem_singleton_self _) _ _)
  refine ⟨(getChan_of_onlyRegs hregs st c).trans (getChan_setChan_same ..), ?_, ?_, onlyChan_onlyRegs (onlyChan_setChan hc ..) hregs⟩
  · rw [← ht, retrainBegin, getF_setF _ _ _ _ (by decide)]
    rfl
  · refine bumped_between (bumped_bumpF (by decide) _ (tally (chanTotal st c 1) 1 (setChan st c (retraining fails (getChan st c s)) s))) rfl ?_
    exact ht ▸ getF_setF_beside _ _ _ (by decide) (by decide)

/-- A trigger of a channel in service starts its retrain (R240). -/
theorem retrainTrigger_begins {st c : Nat} {s : State} (h : (getChan st c s).st = .inService) (hother : otherRetrains st c s = false) :
    retrainTrigger st c s = retrainBegin st c 0 s := by
  rw [retrainTrigger, if_neg (by simp [h]), if_neg (by simp [hother])]

/-- It waits while another channel of the stack retrains. -/
theorem retrainTrigger_waits {st c : Nat} {s : State} (h : (getChan st c s).st = .inService) (hother : otherRetrains st c s = true) :
    retrainTrigger st c s = setChan st c { getChan st c s with trig := true } s := by
  rw [retrainTrigger, if_neg (by simp [h]), if_pos hother]

/-- What a trigger does, whichever command brings it. -/
theorem runs_retrainTrigger {st c : Nat} (hc : c < 32) {s : State} {i : Instr} (hi : Runs i s (retrainTrigger st c s)) :
    ((getChan st c s).st = .inService → otherRetrains st c s = false → ∃ t, Runs i s t ∧ RetrainBegan st c 0 s t) ∧
    ((getChan st c s).st = .inService → otherRetrains st c s = true →
      ∃ t, Runs i s t ∧ getChan st c t = { getChan st c s with trig := true } ∧ OnlyChan st c (fun _ => False) s t) ∧
    ((getChan st c s).st ≠ .inService → Runs i s s) := by
  refine ⟨fun h hother => ?_, fun h hother => ?_, fun h => ?_⟩
  · rw [retrainTrigger_begins h hother] at hi
    exact ⟨_, hi, retrainBegin_spec hc st 0 rfl⟩
  · rw [retrainTrigger_waits h hother] at hi
    exact ⟨_, hi, getChan_setChan_same .., onlyChan_setChan hc ..⟩
  · rwa [retrainTrigger, if_pos h] at hi

/-! ### Slices -/

theorem sliceStart_spec {st c : Nat} (hc : c < 32) {s : State} (h : (getChan st c s).st = .retraining) (hbetween : (getChan st c s).inSlice = false)
    (hleft : (getChan st c s).slices < 24) :
    getChan st c (sliceStart st c s) = { getChan st c s with inSlice := true, slices := (getChan st c s).slices + 1 } ∧
    OnlyChan st c (fun _ => False) s (sliceStart st c s) := by
  rw [sliceStart, if_pos ⟨h, hbetween, hleft⟩]
  exact ⟨getChan_setChan_same .., onlyChan_setChan hc ..⟩

/-- A slice that is not the last leaves the channel retraining. -/
theorem sliceEnd_between {st c : Nat} (hc : c < 32) (ok : Bool) {s : State} (h : (getChan st c s).st = .retraining) (hin : (getChan st c s).inSlice = true)
    (hleft : (getChan st c s).slices < 24) :
    getChan st c (sliceEnd st c false ok s) = { getChan st c s with inSlice := false } ∧ OnlyChan st c (fun _ => False) s (sliceEnd st c false ok s) := by
  rw [sliceEnd, if_pos ⟨h, hin⟩, if_neg (by simp; omega)]
  exact ⟨getChan_setChan_same .., onlyChan_setChan hc ..⟩

/-- With no trigger waiting, the end of a stack's retrain only shows in its status. -/
theorem retrainNext_quiet {st : Nat} {s : State} (h : ∀ j, j < 32 → (getChan st j s).trig = false) :
    retrainNext st s = setF (stackBase st) R.MEM_STATUS_RETRAINING 0 s := by
  have hnone : (List.range 32).find? (fun j => (getChan st j s).trig && (getChan st j s).st = .inService) = none :=
    List.find?_eq_none.mpr fun j hj => by simp [h j (List.mem_range.mp hj)]
  have hkept : ∀ j, getChan st j (setF (stackBase st) R.MEM_STATUS_RETRAINING 0 s) = getChan st j s := fun _ => rfl
  rw [retrainNext]
  simp only [hkept, hnone]

/-- No trigger waits in a stack after a channel without one is put there. -/
theorem trig_setChan {st c : Nat} {k : Chan} {s : State} (hk : k.trig = false) (h : ∀ j, j < 32 → (getChan st j s).trig = false) :
    ∀ j, j < 32 → (getChan st j (setChan st c k s)).trig = false := fun j hj => by
  rw [getChan_setChan]
  split
  · exact hk
  · exact h j hj

theorem satAdd_lt (w a n : Nat) : satAdd w a n < 2 ^ w := by
  have := Nat.two_pow_pos w
  unfold satAdd
  omega

/-- A channel that failed its second margin check. -/
def failedAgain (k : Chan) : Chan := { k with inSlice := false, st := .outOfService, fails := 0, passed := false }

/-- The stack counts one more channel out of service. -/
def oosCounted (st : Nat) (s : State) : State :=
  setF (stackBase st) R.MEM_STATUS_OOS_COUNT (satAdd 4 (getF (stackBase st) R.MEM_STATUS_OOS_COUNT s) 1) s

theorem onlyRegs_oosCounted (st : Nat) (s : State) : OnlyRegs (regAt (stackBase st) [R.MEM_STATUS_RETRAINING]) s (oosCounted st s) :=
  onlyRegs_setF_word R.MEM_STATUS_RETRAINING R.MEM_STATUS_OOS_COUNT rfl _ _ s

theorem recoveryFreeze_idle (cause : Nat) {s : State} (hrunning : s.pkg ≠ .running) (hfrozen : s.pkg ≠ .frozen) : recoveryFreeze cause s = s := by
  rw [recoveryFreeze, if_neg (by simp [hrunning, hfrozen])]

/-- A channel that went out of service is counted and recorded; where no job runs, none is frozen. -/
theorem wentOut_spec {st src : Nat} {s t : State} (hrunning : s.pkg ≠ .running) (hfrozen : s.pkg ≠ .frozen)
    (hquiet : ∀ j, j < 32 → (getChan st j s).trig = false) (ht : recoveryFreeze 6 (raise src 0x32 3 0 0 (retrainNext st (oosCounted st s))) = t) :
    Bumped (stackBase st) R.MEM_STATUS_OOS_COUNT s t ∧ getF (stackBase st) R.MEM_STATUS_RETRAINING t = 0 ∧ Logged src 0x32 3 s t ∧
    OnlyRegs (regAt (stackBase st) [R.MEM_STATUS_RETRAINING]) s t := by
  have hquiet' : ∀ j, j < 32 → (getChan st j (oosCounted st s)).trig = false := fun j hj => by
    rw [getChan_of_onlyRegs (onlyRegs_oosCounted st s)]
    exact hquiet j hj
  rw [retrainNext_quiet hquiet'] at ht
  generalize hu : setF (stackBase st) R.MEM_STATUS_RETRAINING 0 (oosCounted st s) = u at ht
  have hregs : OnlyRegs (regAt (stackBase st) [R.MEM_STATUS_RETRAINING]) s u :=
    hu ▸ onlyRegs_trans (onlyRegs_oosCounted st s) (onlyRegs_setF (List.mem_singleton_self _) _ _)
  obtain ⟨hpkg, hlog, htime⟩ : u.pkg = s.pkg ∧ u.log = s.log ∧ u.count = s.count := by
    obtain ⟨w, hw, -⟩ := onlyWords_setF (stackBase st) R.MEM_STATUS_RETRAINING 0 (oosCounted st s)
    obtain ⟨w', hw', -⟩ := onlyWords_setF (stackBase st) R.MEM_STATUS_OOS_COUNT (satAdd 4 (getF (stackBase st) R.MEM_STATUS_OOS_COUNT s) 1) s
    rw [← hu, hw, oosCounted, hw']
    exact ⟨rfl, rfl, rfl⟩
  have hlogged := onlyLogged_raise src 0x32 3 0 0 u
  obtain ⟨c', l, k, e, hraised⟩ := restKept_of_onlyRegs hlogged
  have hpkg' : (raise src 0x32 3 0 0 u).pkg = s.pkg := by rw [hraised, ← hpkg]
  rw [recoveryFreeze_idle (s := raise src 0x32 3 0 0 u) 6 (by rwa [hpkg']) (by rwa [hpkg'])] at ht
  have hevent : Logged src 0x32 3 s (raise src 0x32 3 0 0 u) := logged_of_same (logged_raise src 0x32 3 0 0 u) hlog htime
  have honly : OnlyRegs (regAt (stackBase st) [R.MEM_STATUS_RETRAINING]) s (raise src 0x32 3 0 0 u) :=
    onlyRegs_trans hregs (onlyRegs_mono hlogged fun _ h => h.elim)
  rw [← ht]
  refine ⟨?_, ?_, hevent, honly⟩
  · rw [Bumped, getF_raise_stack, ← hu, getF_setF_beside _ _ _ (by decide) (by decide), oosCounted, getF_setF _ _ _ _ (by decide)]
    exact Nat.mod_eq_of_lt (satAdd_lt 4 _ 1)
  · rw [getF_raise_stack, ← hu, getF_setF _ _ _ _ (by decide)]
    rfl

section
variable {st c : Nat} (hc : c < 32) {s : State} (h : (getChan st c s).st = .retraining) (hin : (getChan st c s).inSlice = true)
include hc h hin

/-- After the last slice a passed margin check returns the channel to service (R242). -/
theorem sliceEnd_passed (hquiet : ∀ j, j < 32 → (getChan st j s).trig = false) {t : State} (ht : sliceEnd st c true true s = t) :
    getChan st c t = { getChan st c s with inSlice := false, st := .inService, fails := 0 } ∧ getF (stackBase st) R.MEM_STATUS_RETRAINING t = 0 ∧
    OnlyChan st c (regAt (stackBase st) [R.MEM_STATUS_RETRAINING]) s t := by
  have hrun : sliceEnd st c true true s = setF (stackBase st) R.MEM_STATUS_RETRAINING 0 (setChan st c
      { getChan st c s with inSlice := false, st := .inService, fails := 0 } (setChan st c { getChan st c s with inSlice := false } s)) := by
    rw [sliceEnd, if_pos ⟨h, hin⟩]
    exact retrainNext_quiet (trig_setChan (hquiet c hc) (trig_setChan (hquiet c hc) hquiet))
  have hregs := onlyRegs_setF (List.mem_singleton_self R.MEM_STATUS_RETRAINING) (base := stackBase st) 0 (setChan st c
      { getChan st c s with inSlice := false, st := .inService, fails := 0 } (setChan st c { getChan st c s with inSlice := false } s))
  rw [← ht, hrun]
  exact ⟨(getChan_of_onlyRegs hregs st c).trans (getChan_setChan_same ..), getF_setF _ _ _ _ (by decide),
    onlyChan_onlyRegs (onlyChan_setChan_again (onlyChan_setChan hc ..) hc _) hregs⟩

/-- A first failed margin check starts a second retrain. -/
theorem sliceEnd_failed (hfirst : (getChan st c s).fails = 0) {t : State} (ht : sliceEnd st c true false s = t) : (getChan st c t).st = .retraining ∧
    (getChan st c t).fails = 1 ∧ (getChan st c t).slices = 0 ∧ Bumped (stackBase st) R.MEM_STATUS_RETRAIN_COUNT s t := by
  have hrun : sliceEnd st c true false s = retrainBegin st c 1 (setChan st c { getChan st c s with inSlice := false } s) := by
    rw [sliceEnd, if_pos ⟨h, hin⟩]
    exact if_pos hfirst
  obtain ⟨hchan, -, hcount, -⟩ := retrainBegin_spec hc st 1 (hrun.symm.trans ht)
  exact ⟨congrArg Chan.st hchan, congrArg Chan.fails hchan, congrArg Chan.slices hchan, bumped_between hcount rfl rfl⟩

/-- A second takes the channel out of service, with a severity-3 event; where no job runs, none is frozen. -/
theorem sliceEnd_failed_again (hquiet : ∀ j, j < 32 → (getChan st j s).trig = false) (hsecond : (getChan st c s).fails ≠ 0) (hrunning : s.pkg ≠ .running)
    (hfrozen : s.pkg ≠ .frozen) {t : State} (ht : sliceEnd st c true false s = t) :
    getChan st c t = { getChan st c s with inSlice := false, st := .outOfService, fails := 0, passed := false } ∧
    Bumped (stackBase st) R.MEM_STATUS_OOS_COUNT s t ∧ getF (stackBase st) R.MEM_STATUS_RETRAINING t = 0 ∧ Logged (srcChan st c) 0x32 3 s t ∧
    OnlyChan st c (regAt (stackBase st) [R.MEM_STATUS_RETRAINING]) s t := by
  have hrun : sliceEnd st c true false s = recoveryFreeze 6 (raise (srcChan st c) 0x32 3 0 0 (retrainNext st (oosCounted st (setChan st c
      (failedAgain (getChan st c s)) (setChan st c { getChan st c s with inSlice := false } s))))) := by
    rw [sliceEnd, if_pos ⟨h, hin⟩]
    exact if_neg hsecond
  generalize hu : setChan st c (failedAgain (getChan st c s)) (setChan st c { getChan st c s with inSlice := false } s) = u at hrun
  have hquiet' : ∀ j, j < 32 → (getChan st j u).trig = false := hu ▸ trig_setChan (hquiet c hc) (trig_setChan (hquiet c hc) hquiet)
  have hchan : getChan st c u = failedAgain (getChan st c s) := hu ▸ getChan_setChan_same ..
  have hkept : OnlyChan st c (regAt (stackBase st) [R.MEM_STATUS_RETRAINING]) s u := hu ▸ onlyChan_setChan_again (onlyChan_setChan hc ..) hc _
  obtain ⟨hcsr, hlog, htime, hpkg⟩ : u.csr = s.csr ∧ u.log = s.log ∧ u.count = s.count ∧ u.pkg = s.pkg := hu ▸ ⟨rfl, rfl, rfl, rfl⟩
  obtain ⟨hcount, hshown, hevent, hregs⟩ := wentOut_spec (hpkg.symm ▸ hrunning) (hpkg.symm ▸ hfrozen) hquiet' (hrun.symm.trans ht)
  have hbefore : getF (stackBase st) R.MEM_STATUS_OOS_COUNT u = getF (stackBase st) R.MEM_STATUS_OOS_COUNT s :=
    getF_of_word (by rw [csrGet, csrGet, hcsr])
  exact ⟨(getChan_of_onlyRegs hregs st c).trans hchan, bumped_between hcount hbefore rfl, hshown, logged_of_same hevent hlog htime,
    onlyChan_onlyRegs hkept hregs⟩

end

/-! ### The statement -/

/-- Settles O35: the three triggers share one rule; each end of a slice changes its channel, then the status of its stack. -/
theorem channelsRetrainInSlices : Obligations.ChannelsRetrainInSlices := by
  unfold Obligations.ChannelsRetrainInSlices
  intro st c last ok s b k trigger
  have hauto : Runs (.retrainOnErrors st c) s (retrainAuto st c s) ∧ Runs (.retrainPeriodic st c) s (retrainAuto st c s) := ⟨rfl, rfl⟩
  refine ⟨runs_retrainTrigger c.isLt rfl, fun hon => ?_, fun hoff => ?_, fun h hbetween hleft => ?_, fun h hin => ⟨fun hlast hleft => ?_, fun hlast hquiet =>
    ⟨fun hok => ?_, fun hok hfirst => ?_, fun hok hsecond hrunning hfrozen => ?_⟩⟩⟩
  · rw [retrainAuto, if_pos hon] at hauto
    exact ⟨runs_retrainTrigger c.isLt hauto.1, runs_retrainTrigger c.isLt hauto.2⟩
  · rwa [retrainAuto, if_neg hoff] at hauto
  · exact ⟨sliceStart st c s, rfl, sliceStart_spec c.isLt h hbetween hleft⟩
  · subst hlast
    exact ⟨sliceEnd st c false ok s, rfl, sliceEnd_between c.isLt ok h hin hleft⟩
  · subst hlast hok
    exact ⟨sliceEnd st c true true s, rfl, sliceEnd_passed c.isLt h hin hquiet rfl⟩
  · subst hlast hok
    exact ⟨sliceEnd st c true false s, rfl, sliceEnd_failed c.isLt h hin hfirst rfl⟩
  · subst hlast hok
    exact ⟨sliceEnd st c true false s, rfl, sliceEnd_failed_again c.isLt h hin hquiet hsecond hrunning hfrozen rfl⟩

end Sys2Proof.Machine
end

section
/-! PROOFS. The Depots: a reducing write at its line's home (R250, R251), its wait for the companion's copy (R291, R292), and a flush (R255). -/

namespace Sys2Proof.Machine

open Sys2Proof.Claims

/-! ### Lines whose copies are known -/

theorem lineNat_of_find {q : Nat} {x : DepotLine} {s : State} (h : sFind s.depot q = some x) : lineNat q s = x.data.toNat := by rw [lineNat, h]

theorem linePoison_of_find {q : Nat} {x : DepotLine} {s : State} (h : sFind s.depot q = some x) : linePoison q s = x.poison := by rw [linePoison, h]

/-- A line that no Depot holds is HBM's. -/
theorem lineNat_of_none {q : Nat} {s : State} (h : sFind s.depot q = none) : lineNat q s = hbmLine q s := by rw [lineNat, h]

theorem linePoison_of_none {q : Nat} {s : State} (h : sFind s.depot q = none) : linePoison q s = (markedPoison q s || chanOos q s) := by
  rw [linePoison, h]

/-! ### A reducing write in its home Depot -/

/-- A whole line written into a Depot is unpoisoned. -/
theorem sFind_lineWrite_whole (d : Fin 4) (pl v : Nat) (s : State) :
    ∃ y, sFind (lineWrite (some d) (pl * 128) 128 v s).depot pl = some y ∧ y.poison = false := by
  have hput : ∀ y : DepotLine, y.poison = false → ∃ z, sFind (depotPut d pl y s).depot pl = some z ∧ z.poison = false := fun y hy =>
    ⟨y, by rw [depotPut_eq, sFind_sIns, if_pos rfl], hy⟩
  have hwhole : (if (128 : Nat) = 128 then false else linePoison pl s) = false := if_pos rfl
  unfold lineWrite
  dsimp only
  rw [Nat.mul_div_cancel pl (by decide : 0 < 128), hwhole]
  cases sFind s.depot pl with
  | none => exact hput _ rfl
  | some x =>
    dsimp only
    split
    · exact ⟨_, by rw [sFind_sIns, if_pos rfl], rfl⟩
    · exact hput _ rfl

section
variable {pl : Nat} {s : State}

/-- A line written whole where its Depot takes it. -/
theorem lineWrite_whole_of_takes {d : Fin 4} (v : Nat) (h : DepotTakes d pl s) :
    ∃ y, lineWrite (some d) (pl * 128) 128 v s = { s with depot := sIns pl y s.depot } ∧ y.poison = false ∧
      ∀ lo w, lo + w ≤ 1024 → bitsAt y.data.toNat lo w = bitsAt v lo w := by
  have hline : pl * 128 / 128 = pl := Nat.mul_div_cancel _ (by decide)
  obtain ⟨y, hw, -, hdata⟩ := lineWrite_of_takes (p := pl * 128) 128 v (hline.symm ▸ h)
  obtain ⟨y', hy', hclean⟩ := sFind_lineWrite_whole d pl v s
  rw [hline] at hw hdata
  have hsame : y' = y := by
    rw [hw, sFind_sIns, if_pos rfl] at hy'
    exact (Option.some.inj hy').symm
  refine ⟨y, hw, hsame ▸ hclean, fun lo w hlo => ?_⟩
  have hinside := bitsAt_putBits_inside (lineNat pl s) 0 v (k := lo) (u := w) (w := 8 * 128) hlo
  rw [hdata, bitsAt_toNat_ofNat _ hlo, Nat.mul_mod_left, Nat.mul_zero]
  rwa [Nat.zero_add] at hinside

/-- A line with poison on either side, where a Depot holds it. -/
theorem poisonLine_of_find {x : DepotLine} (h : sFind s.depot pl = some x) : poisonLine pl s = { s with depot := sIns pl { x with poison := true } s.depot } := by
  rw [poisonLine, h]

/-- The word of each place, from the words of both lines. -/
theorem bitsAt_reduceWords (op a b : Nat) {i : Nat} (hi : i < 16) :
    bitsAt (reduceWords op a b) (64 * i) 64 = reduceWord op (bitsAt a (64 * i) 64) (bitsAt b (64 * i) 64) % 2 ^ 64 := by
  rw [reduceWords, bitsAt_packBits 64 _ i (by simpa using hi), List.getElem_map, List.getElem_range]

/-- A reducing write changes its line's copy in the home Depot, and the count there (R250, R251). -/
theorem reduceLine_of_takes (op data : Nat) (poison : Bool) (h : DepotTakes (Fin.ofNat 4 (homeDie pl)) pl s) :
    ∃ m z, reduceLine op pl data poison s =
        { addPair (depBase (homeDie pl)) R.DEP_REDUCE_LO_VALUE R.DEP_REDUCE_HI_VALUE 1 s with depot := m } ∧
      sFind m pl = some z ∧ (∀ q, q ≠ pl → sFind m q = sFind s.depot q) ∧ z.poison = (linePoison pl s || poison) ∧
      ∀ i, i < 16 → bitsAt z.data.toNat (64 * i) 64 =
        reduceWord op (bitsAt (lineNat pl s) (64 * i) 64) (bitsAt data (64 * i) 64) % 2 ^ 64 := by
  obtain ⟨w, hw, -⟩ := onlyWords_addPair (depBase (homeDie pl)) R.DEP_REDUCE_LO_VALUE R.DEP_REDUCE_HI_VALUE 1 s
  have htakes : DepotTakes (Fin.ofNat 4 (homeDie pl)) pl { s with csr := w } := h
  obtain ⟨y, hline, hclean, hbits⟩ := lineWrite_whole_of_takes (reduceWords op (lineNat pl { s with csr := w }) data) htakes
  have hwords : ∀ i, i < 16 → bitsAt y.data.toNat (64 * i) 64 =
      reduceWord op (bitsAt (lineNat pl s) (64 * i) 64) (bitsAt data (64 * i) 64) % 2 ^ 64 := fun i hi =>
    (hbits (64 * i) 64 (by omega)).trans (bitsAt_reduceWords op _ data hi)
  have hhere : ∀ (x : DepotLine) (m : Store DepotLine), sFind (sIns pl x m) pl = some x := fun x m => by rw [sFind_sIns, if_pos rfl]
  have hother : ∀ (x : DepotLine) (m : Store DepotLine) (q : Nat), q ≠ pl → sFind (sIns pl x m) q = sFind m q := fun x m q hq => by
    rw [sFind_sIns, if_neg hq]
  rw [reduceLine, hw]
  dsimp only
  rw [hline]
  cases hp : linePoison pl s || poison with
  | false => exact ⟨_, y, rfl, hhere y _, hother y _, hclean, hwords⟩
  | true =>
    rw [if_pos rfl, poisonLine_of_find (hhere y _)]
    exact ⟨_, { y with poison := true }, rfl, hhere _ _, fun q hq => (hother _ _ q hq).trans (hother y _ q hq), rfl, hwords⟩

/-- What a reader of memory sees of a reducing write. -/
theorem reduceLine_spec (op data : Nat) (poison : Bool) (h : DepotTakes (Fin.ofNat 4 (homeDie pl)) pl s) {t : State}
    (ht : reduceLine op pl data poison s = t) :
    (∀ i, i < 16 → bitsAt (lineNat pl t) (64 * i) 64 = reduceWord op (bitsAt (lineNat pl s) (64 * i) 64) (bitsAt data (64 * i) 64) % 2 ^ 64) ∧
    linePoison pl t = (linePoison pl s || poison) ∧ (∀ q, q ≠ pl → lineNat q t = lineNat q s ∧ linePoison q t = linePoison q s) ∧
    CountedOne (depBase (homeDie pl)) R.DEP_REDUCE_LO_VALUE R.DEP_REDUCE_HI_VALUE s t ∧ t.cores = s.cores ∧ t.tileSram = s.tileSram := by
  have hcount := countedOne_addPair (lo := R.DEP_REDUCE_LO_VALUE) (hi := R.DEP_REDUCE_HI_VALUE) (by decide) (depBase (homeDie pl)) s
  obtain ⟨m, z, hrun, hhere, hother, hpoison, hwords⟩ := reduceLine_of_takes op data poison h
  obtain ⟨w, hw, -⟩ := onlyWords_addPair (depBase (homeDie pl)) R.DEP_REDUCE_LO_VALUE R.DEP_REDUCE_HI_VALUE 1 s
  rw [hw] at hrun hcount
  obtain rfl := hrun.symm.trans ht
  refine ⟨?_, ?_, fun q hq => ⟨?_, ?_⟩, hcount, rfl, rfl⟩
  · rw [lineNat_of_find hhere]
    exact hwords
  · rw [linePoison_of_find hhere, hpoison]
  · rw [lineNat, lineNat, hother q hq]
    rfl
  · rw [linePoison, linePoison, hother q hq]
    rfl

/-! ### A write that waits at its home -/

/-- A snoop takes the next TXID and waits for its answer; no memory changes. -/
theorem snoop_asks (inv : Bool) (h : snooped pl s = false) : ∃ w l o, snoop inv pl s = { s with csr := w, links := l, out := o, hal := { s.hal with
    nextTx := s.hal.nextTx + 1, snoops := s.hal.snoops ++ [⟨s.hal.nextTx, pl, inv⟩] } } := by
  obtain ⟨w, hw, -⟩ := onlyWords_addPair halBase R.HAL_RECALLS_LO_VALUE R.HAL_RECALLS_HI_VALUE 1 s
  rw [snoop, if_neg (by simp [h]), hw]
  dsimp only
  obtain ⟨l, o, hask⟩ := halAsk_frame (if inv then 0x08 else 0x09) 1 0 (localOf pl { s with csr := w } / 128) 0 []
    { s with csr := w, hal := { s.hal with snoops := s.hal.snoops ++ [⟨s.hal.nextTx, pl, inv⟩] } }
  exact ⟨w, l, o, hask⟩

/-- A write needs any copy of the companion's back. -/
theorem recallLine_true_of_held (h : (sFind s.hal.dir pl).isSome) : recallLine true pl s = snoop true pl s := by
  rw [recallLine]
  split
  · rfl
  · rfl
  next hnone => simp [hnone] at h

/-- A write of a line that the companion holds recalls it and waits (R247, R292). -/
theorem homeWrite_held {x : HeldWrite} (hheld : (sFind s.hal.dir x.line).isSome) (hquiet : ∀ y ∈ s.hal.snoops, y.line ≠ x.line) {t : State}
    (ht : homeWrite x s = t) : t.hal.snoops = s.hal.snoops ++ [⟨s.hal.nextTx, x.line, true⟩] ∧ t.hal.waiting = s.hal.waiting ++ [.write x] ∧
    MemoriesKept s t := by
  have hnone : snooped x.line s = false := by simpa [snooped] using hquiet
  obtain ⟨w, l, o, hsnoop⟩ := snoop_asks true hnone
  rw [homeWrite, if_pos (by simp [writeHeld, hheld]), recallLine_true_of_held hheld, hsnoop] at ht
  subst ht
  exact ⟨rfl, rfl, rfl, rfl, rfl, rfl, rfl⟩

end

end Sys2Proof.Machine
end

section
/-! PROOFS. A flush of the Depots: the modified lines it writes back, the entries it keeps, and the statement about Depots (R236, R255). -/

namespace Sys2Proof.Machine

open Sys2Proof.Claims

/-! ### One line written back -/

/-- A write-back changes HBM and the marks of its lines, or asks the companion; no register, no core, no tile SRAM and no Depot. -/
theorem writeBack_frame (pl : Nat) (x : DepotLine) (s : State) : ∃ hb ps cs ha l o, writeBack pl x s =
    { s with hbm := hb, poison := ps, chans := cs, hal := ha, links := l, out := o } := by
  rw [writeBack]
  split
  case isFalse => exact ⟨_, _, _, _, _, _, rfl⟩
  split
  case isTrue =>
    obtain ⟨l, o, h⟩ := halAsk_frame 0x14 2 0 (winBase s / 128 + (pl - compKey 0)) (b2n x.poison) [x.data]
      { s with hal := { s.hal with reqs := s.hal.reqs ++ [⟨s.hal.nextTx, pl - compKey 0, 0x14, .none⟩] } }
    exact ⟨_, _, _, _, l, o, h⟩
  case isFalse =>
    have hwrite : ∃ hb ps cs, hbmWrite (pl * 128) 128 x.data.toNat s = { s with hbm := hb, poison := ps, chans := cs } := by
      cases hc : chanOos (pl * 128 / 128) s with
      | true => rw [hbmWrite, if_pos hc]; exact ⟨_, _, _, rfl⟩
      | false => obtain ⟨ps, cs, h⟩ := hbmWrite_frame 128 x.data.toNat hc; exact ⟨_, ps, cs, h⟩
    obtain ⟨hb, ps, cs, hwrite⟩ := hwrite
    rw [hwrite]
    dsimp only
    split
    · obtain ⟨ps', h⟩ := poisonAdd_frame pl { s with hbm := hb, poison := ps, chans := cs }
      exact ⟨_, _, _, _, _, _, h⟩
    · exact ⟨_, _, _, _, _, _, rfl⟩

/-- HBM's own copy of line `q`, its mark and its channel's state are as before. -/
def LineKept (q : Nat) (s t : State) : Prop := hbmLine q t = hbmLine q s ∧ markedPoison q t = markedPoison q s ∧ chanOos q t = chanOos q s

theorem LineKept.refl (q : Nat) (s : State) : LineKept q s s := ⟨rfl, rfl, rfl⟩

theorem LineKept.trans {q : Nat} {s t u : State} (h : LineKept q s t) (h' : LineKept q t u) : LineKept q s u :=
  ⟨h'.1.trans h.1, h'.2.1.trans h.2.1, h'.2.2.trans h.2.2⟩

/-- A mark changes no bytes and no channel, and no other line's mark. -/
theorem poisonAdd_spec (pl : Nat) (s : State) : (∀ q, q ≠ pl → LineKept q s (poisonAdd pl s)) ∧ hbmLine pl (poisonAdd pl s) = hbmLine pl s ∧
    ∀ q, chanOos q (poisonAdd pl s) = chanOos q s := by
  rw [poisonAdd]
  split
  · exact ⟨fun q _ => .refl q s, rfl, fun _ => rfl⟩
  · refine ⟨fun q hq => ⟨rfl, ?_, rfl⟩, rfl, fun _ => rfl⟩
    simp [markedPoison, hq]

/-- A line written back goes to HBM whole; no other line changes, and no channel's state. -/
theorem writeBack_spec (pl : Nat) (x : DepotLine) (s : State) : (∀ q, q ≠ pl → LineKept q s (writeBack pl x s)) ∧
    (x.dirty = true → pl < compKey 0 → chanOos pl s = false → hbmLine pl (writeBack pl x s) = x.data.toNat) ∧
    ∀ q, chanOos q (writeBack pl x s) = chanOos q s := by
  rw [writeBack]
  split
  case isFalse hclean => exact ⟨fun q _ => .refl q s, fun h => absurd h hclean, fun _ => rfl⟩
  split
  case isTrue hcomp =>
    obtain ⟨l, o, h⟩ := halAsk_frame 0x14 2 0 (winBase s / 128 + (pl - compKey 0)) (b2n x.poison) [x.data]
      { s with hal := { s.hal with reqs := s.hal.reqs ++ [⟨s.hal.nextTx, pl - compKey 0, 0x14, .none⟩] } }
    dsimp only
    rw [h]
    exact ⟨fun q _ => ⟨rfl, rfl, rfl⟩, fun _ hlt => absurd hlt (by omega), fun _ => rfl⟩
  case isFalse =>
    obtain ⟨hothers, hchans⟩ := hbmWrite_line_others pl x.data.toNat s
    have hline := hbmWrite_line_spec pl s x.data
    have hkept : ∀ q, q ≠ pl → LineKept q s (hbmWrite (pl * 128) 128 x.data.toNat s) := fun q hq => ⟨(hothers q hq).1, (hothers q hq).2, hchans q⟩
    generalize hbmWrite (pl * 128) 128 x.data.toNat s = u at *
    dsimp only
    split
    · obtain ⟨hmarked, hsame, hstate⟩ := poisonAdd_spec pl u
      exact ⟨fun q hq => (hkept q hq).trans (hmarked q hq), fun _ _ hoos => hsame.trans (hline hoos).1, fun q => (hstate q).trans (hchans q)⟩
    · exact ⟨hkept, fun _ _ hoos => (hline hoos).1, hchans⟩

/-! ### The lines of a flush -/

section
variable (sel : Fin 4 → Bool) (inval : Bool)

/-- A flush writes a line back where it is modified and selected. -/
def flushWrite (s : State) (e : Nat × DepotLine) : State := if (e.2.dirty && sel e.2.die) = true then writeBack e.1 e.2 s else s

/-- What a flush leaves of an entry. -/
def flushKeep (e : Nat × DepotLine) : Option (Nat × DepotLine) :=
  if (e.2.dirty && sel e.2.die && (inval || decide (e.1 ≥ compKey 0))) = true then none
  else match if inval then e.2.holders.filter (fun d => !sel d) else e.2.holders with
    | [] => none
    | d :: ds => some (e.1, { e.2 with dirty := e.2.dirty && !(e.2.dirty && sel e.2.die), die := d, more := ds })

/-- A flush is its write-backs, then the entries it keeps. -/
theorem flushGo_eq : ∀ (l keep : Store DepotLine) (s : State),
    flushGo sel inval l keep s = { l.foldl (flushWrite sel) s with depot := keep.reverse ++ l.filterMap (flushKeep sel inval) }
  | [], keep, s => by simp [flushGo]
  | e :: m, keep, s => by
    rw [flushGo, List.foldl_cons]
    dsimp only
    rw [show (if (e.2.dirty && sel e.2.die) = true then writeBack e.1 e.2 s else s) = flushWrite sel s e from rfl]
    split
    next hgone =>
      have hkeep : flushKeep sel inval e = none := if_pos hgone
      rw [flushGo_eq m, List.filterMap_cons_none hkeep]
    next hstay =>
      split
      next hrest =>
        have hkeep : flushKeep sel inval e = none := by rw [flushKeep, if_neg hstay, hrest]
        rw [flushGo_eq m, List.filterMap_cons_none hkeep]
      next d ds hrest =>
        have hkeep : flushKeep sel inval e =
            some (e.1, { e.2 with dirty := e.2.dirty && !(e.2.dirty && sel e.2.die), die := d, more := ds }) := by rw [flushKeep, if_neg hstay, hrest]
        rw [flushGo_eq m, List.filterMap_cons_some hkeep, List.reverse_cons, List.append_assoc, List.singleton_append]

theorem flushWrite_frame (s : State) (e : Nat × DepotLine) : ∃ hb ps cs ha l o, flushWrite sel s e =
    { s with hbm := hb, poison := ps, chans := cs, hal := ha, links := l, out := o } := by
  rw [flushWrite]
  split
  · exact writeBack_frame e.1 e.2 s
  · exact ⟨_, _, _, _, _, _, rfl⟩

/-- The write-backs of a flush change no register, no core, no tile SRAM. -/
theorem flushWrites_frame : ∀ (l : Store DepotLine) (s : State), ∃ hb ps cs ha li o, l.foldl (flushWrite sel) s =
    { s with hbm := hb, poison := ps, chans := cs, hal := ha, links := li, out := o }
  | [], s => ⟨_, _, _, _, _, _, rfl⟩
  | e :: m, s => by
    obtain ⟨hb, ps, cs, ha, li, o, hstep⟩ := flushWrite_frame sel s e
    rw [List.foldl_cons, hstep]
    exact flushWrites_frame m _

theorem flushWrite_spec (s : State) (e : Nat × DepotLine) : (∀ q, q ≠ e.1 → LineKept q s (flushWrite sel s e)) ∧
    (e.2.dirty = true → sel e.2.die = true → e.1 < compKey 0 → chanOos e.1 s = false → hbmLine e.1 (flushWrite sel s e) = e.2.data.toNat) ∧
    ∀ q, chanOos q (flushWrite sel s e) = chanOos q s := by
  obtain ⟨hothers, hline, hchans⟩ := writeBack_spec e.1 e.2 s
  rw [flushWrite]
  split
  next => exact ⟨hothers, fun hdirty _ => hline hdirty, hchans⟩
  next hnone => exact ⟨fun q _ => .refl q s, fun hdirty hsel => absurd (by simp [hdirty, hsel]) hnone, fun _ => rfl⟩

/-- A line that no entry names is left alone. -/
theorem lineKept_flushWrites {q : Nat} : ∀ {l : Store DepotLine} (s : State), (∀ x, (q, x) ∉ l) → LineKept q s (l.foldl (flushWrite sel) s)
  | [], s, _ => .refl q s
  | e :: m, s, h => by
    have hne : q ≠ e.1 := fun heq => h e.2 (heq ▸ List.mem_cons_self)
    exact ((flushWrite_spec sel s e).1 q hne).trans (lineKept_flushWrites _ fun x hx => h x (List.mem_cons_of_mem _ hx))

/-- A selected modified line reaches HBM, and stays: every entry of it holds the same. -/
theorem hbmLine_flushWrites {q : Nat} {x : DepotLine} (hdirty : x.dirty = true) (hsel : sel x.die = true) (hq : q < compKey 0) :
    ∀ {l : Store DepotLine} (s : State), chanOos q s = false → (∀ y, (q, y) ∈ l → y = x) → ((q, x) ∈ l ∨ hbmLine q s = x.data.toNat) →
      hbmLine q (l.foldl (flushWrite sel) s) = x.data.toNat
  | [], s, _, _, h => h.resolve_left List.not_mem_nil
  | e :: m, s, hoos, honly, h => by
    obtain ⟨hothers, hline, hchans⟩ := flushWrite_spec sel s e
    rw [List.foldl_cons]
    refine hbmLine_flushWrites hdirty hsel hq (l := m) (flushWrite sel s e) ((hchans q).trans hoos) (fun y hy => honly y (List.mem_cons_of_mem _ hy)) ?_
    by_cases heq : q = e.1
    · obtain rfl : e.2 = x := honly e.2 (heq ▸ List.mem_cons_self)
      subst heq
      exact .inr (hline hdirty hsel hq hoos)
    · refine h.imp (fun hmem => ?_) fun hdata => (hothers q heq).1.trans hdata
      exact (List.mem_cons.mp hmem).resolve_left fun he => heq (congrArg Prod.fst he)

end

/-! ### The entries a flush keeps -/

theorem mem_of_sFind {α : Type} {q : Nat} {x : α} : ∀ {m : Store α}, sFind m q = some x → (q, x) ∈ m
  | (a, y) :: m, h => by
    rw [sFind] at h
    split at h
    next heq => exact List.mem_cons.mpr (.inl (by rw [heq, Option.some.inj h]))
    next => exact List.mem_cons_of_mem _ (mem_of_sFind h)

theorem sFind_eq_none {α : Type} {q : Nat} {m : Store α} (h : ∀ x, (q, x) ∉ m) : sFind m q = none :=
  Option.eq_none_iff_forall_ne_some.mpr fun x hx => h x (mem_of_sFind hx)

theorem not_mem_of_sFind_none {α : Type} {q : Nat} : ∀ {m : Store α}, sFind m q = none → ∀ x, (q, x) ∉ m
  | [], _, _ => List.not_mem_nil
  | (a, y) :: m, h, x => by
    rw [sFind] at h
    split at h
    next => cases h
    next hne => exact fun hmem => (List.mem_cons.mp hmem).elim (fun heq => hne (congrArg Prod.fst heq)) (not_mem_of_sFind_none h x)

section
variable (sel : Fin 4 → Bool) (inval : Bool)

/-- An entry a flush keeps has its key and what was left of its holders, clean where it was selected. -/
theorem flushKeep_some {e : Nat × DepotLine} {q : Nat} {x : DepotLine} (h : flushKeep sel inval e = some (q, x)) : e.1 = q ∧
    x.holders = (if inval then e.2.holders.filter (fun d => !sel d) else e.2.holders) ∧ x.dirty = (e.2.dirty && !(e.2.dirty && sel e.2.die)) ∧
    (e.2.dirty && sel e.2.die && (inval || decide (e.1 ≥ compKey 0))) = false := by
  rw [flushKeep] at h
  split at h
  next => cases h
  next hstay =>
    split at h
    next => cases h
    next hrest =>
      cases h
      exact ⟨rfl, hrest.symm, rfl, Bool.eq_false_iff.mpr hstay⟩

/-- A line that no entry names has none afterwards. -/
theorem sFind_flushKeep_none {q : Nat} {l : Store DepotLine} (h : ∀ e ∈ l, ∀ x, flushKeep sel inval e ≠ some (q, x)) :
    sFind (l.filterMap (flushKeep sel inval)) q = none :=
  sFind_eq_none fun x hx => by
    obtain ⟨e, he, hkeep⟩ := List.mem_filterMap.mp hx
    exact h e he x hkeep

/-- A flush without invalidation keeps every copy of an HBM line, clean in the selected Depots. -/
theorem sFind_flushKeep {q : Nat} (hq : q < compKey 0) : ∀ l : Store DepotLine, sFind (l.filterMap (flushKeep sel false)) q =
    (sFind l q).map fun x => { x with dirty := x.dirty && !(x.dirty && sel x.die) }
  | [] => rfl
  | (a, x) :: m => by
    have ih := sFind_flushKeep hq m
    by_cases ha : q = a
    · subst ha
      have hkeep : flushKeep sel false (q, x) = some (q, { x with dirty := x.dirty && !(x.dirty && sel x.die) }) := by
        rw [flushKeep, if_neg (by simp; omega)]
        rfl
      rw [List.filterMap_cons_some hkeep, sFind, if_pos rfl, sFind, if_pos rfl]
      rfl
    · rw [sFind, if_neg ha, ← ih]
      cases hkeep : flushKeep sel false (a, x) with
      | none => rw [List.filterMap_cons_none hkeep]
      | some e =>
        obtain ⟨b, y⟩ := e
        obtain ⟨hkey, -⟩ := flushKeep_some sel false hkeep
        rw [List.filterMap_cons_some hkeep, sFind, if_neg fun h => ha (h.trans hkey.symm)]

end

/-! ### The flush of one Depot -/

/-- A flush: every selected modified line is written back, then the entries that stay. -/
theorem flush_eq (sel : Fin 4 → Bool) (inval : Bool) (s : State) :
    flush sel inval s = { s.depot.foldl (flushWrite sel) s with depot := s.depot.filterMap (flushKeep sel inval) } := flushGo_eq sel inval s.depot [] s

/-- What a flush of any kind leaves: registers, cores and tile SRAM as they were, each selected modified line in HBM, and the lines of no entry untouched. -/
theorem flush_common (sel : Fin 4 → Bool) (inval : Bool) {s t : State} (ht : flush sel inval s = t) :
    t.depot = s.depot.filterMap (flushKeep sel inval) ∧ t.csr = s.csr ∧ t.tileSram = s.tileSram ∧ t.cores = s.cores ∧
    (∀ q, (∀ x, (q, x) ∉ s.depot) → LineKept q s t) ∧
    ∀ q x, (q, x) ∈ s.depot → (∀ y, (q, y) ∈ s.depot → y = x) → x.dirty = true → sel x.die = true → q < compKey 0 → chanOos q s = false →
      hbmLine q t = x.data.toNat := by
  have hlines : ∀ q, (∀ x, (q, x) ∉ s.depot) → LineKept q s (s.depot.foldl (flushWrite sel) s) := fun q h => lineKept_flushWrites sel s h
  have hdata : ∀ q x, (q, x) ∈ s.depot → (∀ y, (q, y) ∈ s.depot → y = x) → x.dirty = true → sel x.die = true → q < compKey 0 → chanOos q s = false →
      hbmLine q (s.depot.foldl (flushWrite sel) s) = x.data.toNat := fun q x hmem honly hdirty hsel hq hoos =>
    hbmLine_flushWrites sel hdirty hsel hq s hoos honly (.inl hmem)
  obtain ⟨hb, ps, cs, ha, li, o, hwrites⟩ := flushWrites_frame sel s.depot s
  rw [flush_eq, hwrites] at ht
  rw [hwrites] at hlines hdata
  subst ht
  exact ⟨rfl, rfl, rfl, rfl, hlines, hdata⟩

/-- A flush keeps every HBM line's value and poison: its copies stay, and a line without one is not written. -/
theorem flush_keeps_lines (sel : Fin 4 → Bool) {s t : State} (ht : flush sel false s = t) {q : Nat} (hq : q < compKey 0) :
    lineNat q t = lineNat q s ∧ linePoison q t = linePoison q s := by
  obtain ⟨hdepot, -, -, -, hlines, -⟩ := flush_common sel false ht
  have hfind := hdepot ▸ sFind_flushKeep sel hq s.depot
  cases hs : sFind s.depot q with
  | some x =>
    rw [hs, Option.map_some] at hfind
    exact ⟨(lineNat_of_find hfind).trans (lineNat_of_find hs).symm, (linePoison_of_find hfind).trans (linePoison_of_find hs).symm⟩
  | none =>
    rw [hs, Option.map_none] at hfind
    obtain ⟨hline, hmark, hoos⟩ := hlines q (not_mem_of_sFind_none hs)
    rw [lineNat_of_none hfind, lineNat_of_none hs, linePoison_of_none hfind, linePoison_of_none hs, hline, hmark, hoos]
    exact ⟨rfl, rfl⟩

/-- An entry of a flushed Depot comes from one that the flush kept. -/
theorem flush_entry {sel : Fin 4 → Bool} {inval : Bool} {s t : State} (ht : flush sel inval s = t) {q : Nat} {x : DepotLine} (hx : sFind t.depot q = some x) :
    ∃ e ∈ s.depot, flushKeep sel inval e = some (q, x) := by
  obtain ⟨hdepot, -⟩ := flush_common sel inval ht
  exact List.mem_filterMap.mp (mem_of_sFind (hdepot ▸ hx))

/-- A flushed Depot is clean. -/
theorem flush_clean {sel : Fin 4 → Bool} {s t : State} (ht : flush sel false s = t) {q : Nat} {x : DepotLine} (hx : sFind t.depot q = some x)
    (hsel : sel x.die = true) : x.dirty = false := by
  obtain ⟨e, -, hkeep⟩ := flush_entry ht hx
  obtain ⟨-, hholders, hdirty, -⟩ := flushKeep_some sel false hkeep
  obtain ⟨hdie, -⟩ := List.cons.inj (hholders : x.die :: x.more = e.2.die :: e.2.more)
  rw [hdirty, ← hdie, hsel]
  cases e.2.dirty <;> rfl

/-- An invalidated Depot holds no copy. -/
theorem flush_drops {sel : Fin 4 → Bool} {s t : State} (ht : flush sel true s = t) {q : Nat} {x : DepotLine} (hx : sFind t.depot q = some x) {d : Fin 4}
    (hsel : sel d = true) : d ∉ x.holders := by
  obtain ⟨e, -, hkeep⟩ := flush_entry ht hx
  obtain ⟨-, hholders, -⟩ := flushKeep_some sel true hkeep
  rw [hholders, if_pos rfl]
  simp [hsel]

/-- A selected modified line leaves the Depots with its contents in HBM. -/
theorem flush_inval_line {sel : Fin 4 → Bool} {s t : State} (ht : flush sel true s = t) {q : Nat} {x : DepotLine} (hmem : (q, x) ∈ s.depot)
    (honly : ∀ y, (q, y) ∈ s.depot → y = x) (hdirty : x.dirty = true) (hsel : sel x.die = true) (hq : q < compKey 0) (hoos : chanOos q s = false) :
    lineNat q t = x.data.toNat := by
  obtain ⟨hdepot, -, -, -, -, hdata⟩ := flush_common sel true ht
  have hnone : sFind t.depot q = none := by
    rw [hdepot]
    refine sFind_flushKeep_none sel true fun e he y hkeep => ?_
    obtain ⟨hkey, -, -, hstay⟩ := flushKeep_some sel true hkeep
    have hsame : e.2 = x := honly e.2 (hkey ▸ he)
    rw [hsame, hdirty, hsel] at hstay
    cases hstay
  rw [lineNat_of_none hnone]
  exact hdata q x hmem honly hdirty hsel hq hoos

/-- A line that no Depot held keeps its value. -/
theorem flush_line_of_none {sel : Fin 4 → Bool} {s t : State} (ht : flush sel true s = t) {q : Nat} (h : ∀ x, (q, x) ∉ s.depot) :
    lineNat q t = lineNat q s := by
  obtain ⟨hdepot, -, -, -, hlines, -⟩ := flush_common sel true ht
  have hnone : sFind t.depot q = none := by
    rw [hdepot]
    exact sFind_flushKeep_none sel true fun e he y hkeep => h e.2 ((flushKeep_some sel true hkeep).1 ▸ he)
  rw [lineNat_of_none hnone, lineNat_of_none (sFind_eq_none h), (hlines q h).1]

/-! ### The statement -/

/-- Settles O36: a reducing write changes its line's copy at the home or waits there; a flush is its write-backs, then the entries it keeps. -/
theorem depotsReduceAndFlush : Obligations.DepotsReduceAndFlush := by
  unfold Obligations.DepotsReduceAndFlush
  intro off data poison d path s
  refine ⟨fun op p htarget hop => ?_, ?_, fun hpkg => ?_, fun hpkg => ?_, ?_⟩
  · have hrun : Runs (.reducingWrite off data poison false) s (homeWrite ⟨.none, p / 128, 0, 128, data.toNat, op, poison⟩ s) := by
      have heq : reducingWrite off.toNat data poison false s = homeWrite ⟨.none, p / 128, 0, 128, data.toNat, op, poison⟩ s := by
        rw [reducingWrite, htarget]
        exact if_neg hop
      exact congrArg Host.Outcome.next heq
    refine ⟨fun hfree htakes => ?_, fun hheld hquiet => ?_⟩
    · have hnow : homeWrite ⟨.none, p / 128, 0, 128, data.toNat, op, poison⟩ s = reduceLine op (p / 128) data.toNat poison s := by
        rw [homeWrite, if_neg (by simp [hfree]), writeDo, if_neg hop]
      rw [hnow] at hrun
      exact ⟨_, hrun, reduceLine_spec op data.toNat poison htakes rfl⟩
    · exact ⟨_, hrun, homeWrite_held hheld hquiet rfl⟩
  · obtain ⟨t, ht⟩ : ∃ t, depFlush d s = t := ⟨_, rfl⟩
    obtain ⟨w, hw, -⟩ := onlyWords_setF (depBase d) R.DEP_STATUS_FLUSHING 1 s
    have hflushing : getF (depBase d) R.DEP_STATUS_FLUSHING (setF (depBase d) R.DEP_STATUS_FLUSHING 1 s) = 1 := getF_setF _ _ _ _ (by decide)
    have hflush : flush (fun x => x = d) false { s with csr := w } = t := by rw [← hw]; exact ht
    obtain ⟨-, hcsr, htile, hcores, -, hdata⟩ := flush_common _ false hflush
    refine ⟨t, congrArg Host.Outcome.next ht, ?_, fun q hq => flush_keeps_lines _ hflush hq, fun q x hx hdie => flush_clean hflush hx (by simpa using hdie),
      fun q x hmem honly hdirty hdie hq hoos => hdata q x hmem honly hdirty (by simpa using hdie) hq hoos, htile, hcores⟩
    rw [hw] at hflushing
    rw [getF, csrGet, hcsr]
    exact hflushing
  · obtain ⟨t, ht⟩ : ∃ t, depInval path d s = t := ⟨_, rfl⟩
    obtain ⟨w, hw, -⟩ := onlyWords_setF (depBase d) R.DEP_STATUS_FLUSHING 1 s
    have hflush : flush (fun x => x = d) true { s with csr := w } = t := by
      rw [← hw, ← ht, depInval, if_pos hpkg]
    obtain ⟨-, -, htile, hcores, -⟩ := flush_common _ true hflush
    exact ⟨t, congrArg Host.Outcome.next ht, fun q x hx => flush_drops hflush hx (by simp), fun q x hmem honly hdirty hdie hq hoos =>
      flush_inval_line hflush hmem honly hdirty (by simpa using hdie) hq hoos, fun q h => flush_line_of_none hflush h, htile, hcores⟩
  · have hrun : Runs (.depInval path d) s (rejectWrite path (depBase d + R.DEP_INVAL_GO.off) 1 s) := congrArg Host.Outcome.next (if_neg hpkg)
    exact ⟨_, hrun, rejectWrite_spec ..⟩
  · exact ⟨setF (depBase d) R.DEP_STATUS_FLUSHING 0 s, rfl, getF_setF _ _ _ _ (by decide), onlyRegs_setF (List.mem_singleton_self _) ..⟩

end Sys2Proof.Machine
end

section
/-! PROOFS. Fabric registers, and what the fabric's common operations change: words that stay apart, a message delivered to this package, an answer that leaves by
a port with room, and the statement about late responses (R33, R261, R263 to R267, R273, R281, R282). -/

namespace Sys2Proof.Claims

open Sys2Proof.Machine

/-! ### Registers and the Logbook alone, step by step -/

section
variable {touched : Nat → Prop} {s t : State} (h : OnlyRegs touched s t)
include h

theorem OnlyRegs.setF {base : Nat} {f : Fld} (hf : touched (base + f.off)) (v : Nat) : OnlyRegs touched s (setF base f v t) :=
  onlyRegs_trans h ((onlyWords_setF base f v t).mono fun _ hoff => hoff ▸ hf).onlyRegs

theorem OnlyRegs.bumpF {base : Nat} {f : Fld} (hf : touched (base + f.off)) (n : Nat) : OnlyRegs touched s (bumpF base f n t) :=
  onlyRegs_trans (h.setF hf _) (onlyRegs_tally _ _ _ _)

theorem OnlyRegs.addPair {base : Nat} {lo hi : Fld} (hlo : touched (base + lo.off)) (hhi : touched (base + hi.off)) (n : Nat) :
    OnlyRegs touched s (addPair base lo hi n t) := (h.setF hlo _).setF hhi _

theorem OnlyRegs.raise (src code sev arg0 arg1 : Nat) : OnlyRegs touched s (raise src code sev arg0 arg1 t) :=
  onlyRegs_trans h (onlyRegs_mono (onlyLogged_raise ..) fun _ => False.elim)

/-- A field whose word is not touched reads as before. -/
theorem OnlyRegs.getF_eq {base : Nat} {f : Fld} (hf : ¬ touched (base + f.off)) (hlost : base + f.off ≠ lostAt) :
    getF base f t = getF base f s := getF_of_word (h.1 _ _ hf hlost)

theorem OnlyRegs.memoriesKept : MemoriesKept s t := by
  obtain ⟨c, l, k, e, rfl⟩ := restKept_of_onlyRegs h
  exact ⟨rfl, rfl, rfl, rfl, rfl⟩

theorem OnlyRegs.blocks : t.cores = s.cores ∧ t.engines = s.engines := by
  obtain ⟨c, l, k, e, rfl⟩ := restKept_of_onlyRegs h
  exact ⟨rfl, rfl⟩

theorem OnlyRegs.links_eq : t.links = s.links ∧ t.out = s.out := by
  obtain ⟨c, l, k, e, rfl⟩ := restKept_of_onlyRegs h
  exact ⟨rfl, rfl⟩

end

theorem OnlyRegs.refl (touched : Nat → Prop) (s : State) : OnlyRegs touched s s := (OnlyWords.refl touched s).onlyRegs

theorem MemoriesKept.trans {s t u : State} (h : MemoriesKept s t) (h' : MemoriesKept t u) : MemoriesKept s u := by
  obtain ⟨h1, h2, h3, h4, h5⟩ := h
  obtain ⟨k1, k2, k3, k4, k5⟩ := h'
  exact ⟨k1.trans h1, k2.trans h2, k3.trans h3, k4.trans h4, k5.trans h5⟩

end Sys2Proof.Claims

namespace Sys2Proof.Machine

open Sys2Proof.Claims

/-! ### Where the registers of the fabric dies lie (R33) -/

theorem fab_ne_lostAt {fd x : Nat} : fabBase fd + x ≠ lostAt := by
  have hlost : lostAt = 0x030010 := rfl
  unfold fabBase
  omega

theorem le_portBase (p : Nat) : 0x410000 ≤ portBase p := by
  unfold portBase fabBase
  split <;> omega

theorem port_ne_lostAt {p x : Nat} : portBase p + x ≠ lostAt := by
  have hlost : lostAt = 0x030010 := rfl
  have := le_portBase p
  omega

/-! ### A message delivered to this package (R264, R281, R282) -/

/-- The bytes of a message that came in are counted. -/
def received (fd : Nat) (m : Msg) (s : State) : State := addPair (fabBase fd) R.FAB_RX_BYTES_LO_VALUE R.FAB_RX_BYTES_HI_VALUE (msgBytes m) s

/-- The words of the count of bytes received. -/
def receivedWords (fd : Nat) : Nat → Prop := regAt (fabBase fd) [R.FAB_RX_BYTES_LO_VALUE, R.FAB_RX_BYTES_HI_VALUE]

theorem onlyRegs_received (fd : Nat) (m : Msg) (s : State) : OnlyRegs (receivedWords fd) s (received fd m s) := onlyRegs_addPair ..

theorem ingress_of_delivered {fd : Nat} {m : Msg} {s : State} (h : Claims.Delivered fd m s) (hopc : 1 ≤ m.hdr.opc.toNat ∧ m.hdr.opc.toNat ≤ 5)
    (body : State → State) : ingress fd m body s = body (received fd m s) := by
  obtain ⟨hup, htable, hdst, htag⟩ := h
  obtain ⟨tab, htab⟩ := Option.isSome_iff_exists.1 htable
  rw [ingress, if_neg (by simp [hup]), htab]
  dsimp only
  rw [if_neg (by omega), if_neg (by simp [hdst]), if_pos htag, received]

section
variable {fd : Fin 2} {m : Msg} {s : State} (h : Claims.Delivered fd m s)
include h

/-! Each message acts on the state in which its bytes are counted. -/

theorem runs_rd (hopc : m.hdr.opc = 1) : Runs (.rd fd m) s (onRd fd m (received fd m s)) :=
  congrArg Host.Outcome.next ((if_neg (by simp [hopc])).trans (ingress_of_delivered h (by simp [hopc]) _))

theorem runs_rdrsp (hopc : m.hdr.opc = 2) : Runs (.rdrsp fd m) s (answerWake fd m (onRdrsp fd m) (received fd m s)) :=
  congrArg Host.Outcome.next ((if_neg (by simp [hopc])).trans (ingress_of_delivered h (by simp [hopc]) _))

theorem runs_wr (hopc : m.hdr.opc = 3) : Runs (.wr fd m) s (onWr fd m (received fd m s)) :=
  congrArg Host.Outcome.next ((if_neg (by simp [hopc])).trans (ingress_of_delivered h (by simp [hopc]) _))

theorem runs_wrack (hopc : m.hdr.opc = 4) : Runs (.wrack fd m) s (answerWake fd m (onWrack fd m) (received fd m s)) :=
  congrArg Host.Outcome.next ((if_neg (by simp [hopc])).trans (ingress_of_delivered h (by simp [hopc]) _))

theorem runs_caravanNack (hopc : m.hdr.opc = 5) : Runs (.caravanNack fd m) s (answerWake fd m (onNack fd m) (received fd m s)) :=
  congrArg Host.Outcome.next ((if_neg (by simp [hopc])).trans (ingress_of_delivered h (by simp [hopc]) _))

end

/-! ### Late responses (R273) -/

/-- A response to a request that is not outstanding: it is only counted. -/
def lateCounted (fd : Nat) (m : Msg) (s : State) : State := bumpF (fabBase fd) R.FAB_LATE_RSP_COUNT 1 (received fd m s)

section
variable {fd : Nat} {m : Msg} {s : State} (hgone : ∀ x ∈ (getFab fd s).txns, x.txid ≠ m.hdr.txid)
include hgone

theorem answerWake_of_gone (take : State → State) : answerWake fd m take s = take s :=
  if_neg (by simpa [List.any_eq_true] using hgone)

theorem txnFind_of_gone (rd : Bool) : txnFind fd rd m.hdr.txid s = none :=
  List.find?_eq_none.2 fun x hx => by simp [hgone x hx]

theorem onNack_of_gone : onNack fd m s = bumpF (fabBase fd) R.FAB_LATE_RSP_COUNT 1 s := by
  have hfind : (getFab fd s).txns.find? (fun x => x.txid = m.hdr.txid) = none := List.find?_eq_none.2 fun x hx => by simp [hgone x hx]
  rw [onNack, hfind]

end

/-- Each of the three responses is dropped and counted. -/
theorem runs_late {fd : Fin 2} {m : Msg} {s : State} (hgone : ∀ x ∈ (getFab fd s).txns, x.txid ≠ m.hdr.txid) (h : Claims.Delivered fd m s) {i : Instr}
    (hi : (i = .rdrsp fd m ∧ m.hdr.opc = 2) ∨ (i = .wrack fd m ∧ m.hdr.opc = 4) ∨ (i = .caravanNack fd m ∧ m.hdr.opc = 5)) :
    Runs i s (lateCounted fd m s) := by
  have hgone' : ∀ x ∈ (getFab fd (received fd m s)).txns, x.txid ≠ m.hdr.txid := hgone
  rcases hi with ⟨rfl, hopc⟩ | ⟨rfl, hopc⟩ | ⟨rfl, hopc⟩
  · have hrun := runs_rdrsp h hopc
    rwa [answerWake_of_gone hgone', onRdrsp, txnFind_of_gone hgone'] at hrun
  · have hrun := runs_wrack h hopc
    rwa [answerWake_of_gone hgone', onWrack, txnFind_of_gone hgone'] at hrun
  · have hrun := runs_caravanNack h hopc
    rwa [answerWake_of_gone hgone', onNack_of_gone hgone'] at hrun

/-- Settles O38: the response finds no request, so the two registers are all that changes. -/
theorem lateResponsesAreDroppedAndCounted : Obligations.LateResponsesAreDroppedAndCounted := by
  intro fd m s i h hgone hi
  have honly : OnlyRegs (regAt (fabBase fd) [R.FAB_LATE_RSP_COUNT, R.FAB_RX_BYTES_LO_VALUE, R.FAB_RX_BYTES_HI_VALUE]) s (lateCounted fd m s) :=
    ((OnlyRegs.refl _ s).addPair ⟨R.FAB_RX_BYTES_LO_VALUE, by simp, rfl⟩ ⟨R.FAB_RX_BYTES_HI_VALUE, by simp, rfl⟩ _).bumpF
      ⟨R.FAB_LATE_RSP_COUNT, by simp, rfl⟩ 1
  have hbump : Bumped (fabBase fd) R.FAB_LATE_RSP_COUNT s (lateCounted fd m s) :=
    bumped_between (bumped_bumpF (by decide) _ (received fd m s)) ((onlyRegs_received fd m s).getF_eq (by simp [receivedWords, regAt, R.FAB_LATE_RSP_COUNT,
      R.FAB_RX_BYTES_LO_VALUE, R.FAB_RX_BYTES_HI_VALUE]) fab_ne_lostAt) rfl
  obtain ⟨hcores, hengines⟩ := honly.blocks
  exact ⟨_, runs_late hgone h hi, hbump, hengines, hcores, honly⟩

end Sys2Proof.Machine
end

section
/-! PROOFS. A whole line that another package or the companion writes: what the line reads afterwards, and that no other line changes (R236, R245, R247). -/

namespace Sys2Proof.Machine

open Sys2Proof.Claims

/-- A whole line written, allocated in no Depot, with the poison that came with it. -/
def wholeLine (pl v : Nat) (poison : Bool) (s : State) : State :=
  if poison then poisonLine pl (lineWrite none (pl * 128) 128 v s) else lineWrite none (pl * 128) 128 v s

/-- Line `q` reads as before, with its poison. -/
def ReadsSame (q : Nat) (s t : State) : Prop := lineNat q t = lineNat q s ∧ linePoison q t = linePoison q s

theorem ReadsSame.trans {q : Nat} {s t u : State} (h : ReadsSame q s t) (h' : ReadsSame q t u) : ReadsSame q s u :=
  ⟨h'.1.trans h.1, h'.2.trans h.2⟩

/-- With the Depots' entry kept, a line reads as HBM and its channel let it. -/
theorem readsSame_of_lineKept {q : Nat} {s t : State} (hdepot : sFind t.depot q = sFind s.depot q) (h : LineKept q s t) : ReadsSame q s t := by
  obtain ⟨hline, hmark, hchan⟩ := h
  unfold ReadsSame lineNat linePoison
  rw [hdepot, hline, hmark, hchan]
  exact ⟨rfl, rfl⟩

theorem depot_poisonAdd (pl : Nat) (s : State) : (poisonAdd pl s).depot = s.depot := by
  obtain ⟨ps, h⟩ := poisonAdd_frame pl s
  rw [h]

theorem markedPoison_poisonAdd (pl : Nat) (s : State) : markedPoison pl (poisonAdd pl s) = true := by
  rw [markedPoison, contains_poisonAdd, Bool.true_or]

/-- A line marked where it is held reads poisoned; no value changes, and no other line's poison (R236). -/
theorem poisonLine_spec (pl : Nat) (s : State) : lineNat pl (poisonLine pl s) = lineNat pl s ∧ linePoison pl (poisonLine pl s) = true ∧
    ∀ q, q ≠ pl → ReadsSame q s (poisonLine pl s) := by
  cases hfind : sFind s.depot pl with
  | some x =>
    have hnew : sFind (poisonLine pl s).depot pl = some { x with poison := true } := by
      rw [poisonLine_of_find hfind, sFind_sIns, if_pos rfl]
    refine ⟨(lineNat_of_find hnew).trans (lineNat_of_find hfind).symm, linePoison_of_find hnew, fun q hq => ?_⟩
    rw [poisonLine_of_find hfind]
    exact readsSame_of_lineKept (by rw [sFind_sIns, if_neg hq]) ⟨rfl, rfl, rfl⟩
  | none =>
    obtain ⟨hothers, hline, -⟩ := poisonAdd_spec pl s
    have hadd : poisonLine pl s = poisonAdd pl s := by rw [poisonLine, hfind]
    have hnone : sFind (poisonAdd pl s).depot pl = none := (congrArg (fun m => sFind m pl) (depot_poisonAdd pl s)).trans hfind
    rw [hadd]
    refine ⟨(lineNat_of_none hnone).trans (hline.trans (lineNat_of_none hfind).symm), ?_, fun q hq =>
      readsSame_of_lineKept (congrArg (fun m => sFind m q) (depot_poisonAdd pl s)) (hothers q hq)⟩
    rw [linePoison_of_none hnone, markedPoison_poisonAdd, Bool.true_or]

/-- What a line given may change of the state: HBM, the Depots' entries, and the marks of poison. -/
def LinesOnly (s t : State) : Prop := ∃ hb ps dp cs, t = { s with hbm := hb, poison := ps, depot := dp, chans := cs }

theorem LinesOnly.refl (s : State) : LinesOnly s s := ⟨s.hbm, s.poison, s.depot, s.chans, rfl⟩

theorem LinesOnly.trans {s t u : State} (h : LinesOnly s t) (h' : LinesOnly t u) : LinesOnly s u := by
  obtain ⟨hb, ps, dp, cs, rfl⟩ := h
  obtain ⟨hb', ps', dp', cs', rfl⟩ := h'
  exact ⟨hb', ps', dp', cs', rfl⟩

theorem linesOnly_poisonLine (pl : Nat) (s : State) : LinesOnly s (poisonLine pl s) := by
  rw [poisonLine]
  split
  · exact ⟨s.hbm, s.poison, _, s.chans, rfl⟩
  · obtain ⟨ps, h⟩ := poisonAdd_frame pl s
    exact ⟨s.hbm, ps, s.depot, s.chans, h⟩

theorem linesOnly_hbmWrite (p n v : Nat) (s : State) : LinesOnly s (hbmWrite p n v s) := by
  cases hc : chanOos (p / 128) s with
  | true => rw [hbmWrite, if_pos hc]; exact .refl s
  | false =>
    obtain ⟨ps, cs, h⟩ := hbmWrite_frame n v hc
    exact ⟨_, ps, s.depot, cs, h⟩

theorem linesOnly_lineWrite_none (p n v : Nat) (s : State) : LinesOnly s (lineWrite none p n v s) := by
  cases hfind : sFind s.depot (p / 128) with
  | some x =>
    obtain ⟨d, -, h⟩ := lineWrite_none_of_depot n v hfind
    exact ⟨s.hbm, s.poison, _, s.chans, h⟩
  | none =>
    rw [lineWrite_none_of_hbm n v hfind]
    exact linesOnly_hbmWrite ..

theorem linesOnly_wholeLine (pl v : Nat) (poison : Bool) (s : State) : LinesOnly s (wholeLine pl v poison s) := by
  rw [wholeLine]
  split
  · exact (linesOnly_lineWrite_none ..).trans (linesOnly_poisonLine ..)
  · exact linesOnly_lineWrite_none ..

theorem putBits_whole (old v : Nat) : putBits old 0 1024 v % 2 ^ 1024 = v % 2 ^ 1024 := by
  rw [putBits_eq, Nat.pow_zero, Nat.mod_one, Nat.one_mul, Nat.add_zero, Nat.mul_add_mod, Nat.mod_mod]

/-- A whole line written coherently reads the value, unpoisoned, and no other line changes. -/
theorem lineWrite_none_spec {pl : Nat} {s : State} (v : Nat) (hoos : chanOos pl s = false) :
    lineNat pl (lineWrite none (pl * 128) 128 v s) = v % 2 ^ 1024 ∧ linePoison pl (lineWrite none (pl * 128) 128 v s) = false ∧
    ∀ q, q ≠ pl → ReadsSame q s (lineWrite none (pl * 128) 128 v s) := by
  have hpl : pl * 128 / 128 = pl := Nat.mul_div_cancel pl (by decide)
  cases hfind : sFind s.depot pl with
  | some x =>
    have hw : lineWrite none (pl * 128) 128 v s =
        { s with depot := sIns pl ⟨BitVec.ofNat 1024 (putBits (lineNat pl s) 0 1024 v), true, false, x.die, [], x.own⟩ s.depot } := by
      simp only [lineWrite, hpl, hfind, Nat.mul_mod_left, Nat.mul_zero, if_true]
    have hnew : sFind (lineWrite none (pl * 128) 128 v s).depot pl = some ⟨BitVec.ofNat 1024 (putBits (lineNat pl s) 0 1024 v), true, false, x.die, [], x.own⟩ := by
      rw [hw, sFind_sIns, if_pos rfl]
    refine ⟨?_, linePoison_of_find hnew, fun q hq => ?_⟩
    · rw [lineNat_of_find hnew, BitVec.toNat_ofNat, putBits_whole]
    · rw [hw]
      exact readsSame_of_lineKept (by rw [sFind_sIns, if_neg hq]) ⟨rfl, rfl, rfl⟩
  | none =>
    have hw : lineWrite none (pl * 128) 128 v s = poisonDel pl (lineTaken pl v s) := by
      rw [lineWrite_none_of_hbm 128 v (hpl.symm ▸ hfind), hbmWrite_line pl v s hoos]
    obtain ⟨hclean, -, -⟩ := poisonDel_spec pl (lineTaken pl v s)
    obtain ⟨hothers, hchans⟩ := hbmWrite_line_others pl v s
    have hdepot : (poisonDel pl (lineTaken pl v s)).depot = s.depot := by
      obtain ⟨ps, cs, h⟩ := poisonDel_frame pl (lineTaken pl v s)
      rw [h]
      rfl
    have hnone : sFind (poisonDel pl (lineTaken pl v s)).depot pl = none := (congrArg (fun m => sFind m pl) hdepot).trans hfind
    rw [hbmWrite_line pl v s hoos] at hothers hchans
    rw [hw]
    refine ⟨?_, ?_, fun q hq => readsSame_of_lineKept (congrArg (fun m => sFind m q) hdepot) ⟨(hothers q hq).1, (hothers q hq).2, hchans q⟩⟩
    · rw [lineNat_of_none hnone, hbmLine_poisonDel, hbmLine_lineTaken]
    · rw [linePoison_of_none hnone, hclean, hchans pl, hoos, Bool.or_false]

/-- A whole line given reads its value and its poison, and no other line changes. -/
theorem wholeLine_spec {pl : Nat} {s : State} (v : Nat) (poison : Bool) (hoos : chanOos pl s = false) :
    lineNat pl (wholeLine pl v poison s) = v % 2 ^ 1024 ∧ linePoison pl (wholeLine pl v poison s) = poison ∧
    ∀ q, q ≠ pl → ReadsSame q s (wholeLine pl v poison s) := by
  obtain ⟨hline, hclean, hothers⟩ := lineWrite_none_spec v hoos
  cases poison with
  | false => exact ⟨hline, hclean, hothers⟩
  | true =>
    obtain ⟨hsame, hpois, hmarked⟩ := poisonLine_spec pl (lineWrite none (pl * 128) 128 v s)
    exact ⟨hsame.trans hline, hpois, fun q hq => (hothers q hq).trans (hmarked q hq)⟩

end Sys2Proof.Machine
end

section
/-! PROOFS. Answers to other packages' requests: what decides a route, a message that leaves by a port with room, and the requests served and refused
(R233, R261, R263, R265 to R267, R269, R270, R274, R276). -/

namespace Sys2Proof.Machine

open Sys2Proof.Claims

/-! ### Routes (R265 to R267, R276) -/

/-- The words that decide a route: the package's number, the slot tables, and the states of the Caravan ports. -/
def routeWord (off : Nat) : Prop :=
  off = fabBase 0 + R.FAB_SELF_SLOT.off ∨ (∃ f x, f < 2 ∧ x < 0x10000 ∧ off = tabBase f + x) ∨ ∃ p, p < 18 ∧ off = portBase p + R.PORT_STATUS_STATE.off

/-- What decides a route, and every link, is as before. -/
structure RoutesKept (s t : State) : Prop where
  words : ∀ d off, routeWord off → csrGet d off t = csrGet d off s
  links : t.links = s.links

theorem RoutesKept.refl (s : State) : RoutesKept s s := ⟨fun _ _ _ => rfl, rfl⟩

theorem RoutesKept.trans {s t u : State} (h : RoutesKept s t) (h' : RoutesKept t u) : RoutesKept s u :=
  ⟨fun d off hoff => (h'.words d off hoff).trans (h.words d off hoff), h'.links.trans h.links⟩

theorem routesKept_of_onlyRegs {touched : Nat → Prop} {s t : State} (h : OnlyRegs touched s t)
    (hapart : ∀ off, routeWord off → ¬ touched off ∧ off ≠ lostAt) : RoutesKept s t :=
  ⟨fun d off hoff => h.1 d off (hapart off hoff).1 (hapart off hoff).2, h.links_eq.1⟩

/-- The words of a route lie among the fabric dies' blocks, apart from the counters of a fabric die. -/
theorem routeWord_range {off : Nat} (h : routeWord off) : 0x400000 ≤ off ∧ ∀ fd x, fd < 2 → 0x14 ≤ x → x < 0x100 → off ≠ fabBase fd + x := by
  rcases h with rfl | ⟨f, y, hf, hy, rfl⟩ | ⟨p, hp, rfl⟩
  · have hoff : R.FAB_SELF_SLOT.off = 0x10 := rfl
    rw [hoff]
    unfold fabBase
    exact ⟨by omega, fun fd x _ _ _ => by omega⟩
  · unfold tabBase fabBase
    exact ⟨by omega, fun fd x _ _ _ => by omega⟩
  · have hoff : R.PORT_STATUS_STATE.off = 0x8 := rfl
    rw [hoff, portBase, if_pos hp]
    unfold fabBase
    exact ⟨by omega, fun fd x _ _ _ => by omega⟩

section
variable {s t : State} (h : RoutesKept s t)
include h

theorem RoutesKept.pkgNum_eq : pkgNum t = pkgNum s := by
  have hword : ∀ d, csrGet d (fabBase 0 + R.FAB_SELF_SLOT.off) t = csrGet d (fabBase 0 + R.FAB_SELF_SLOT.off) s := fun d => h.words d _ (.inl rfl)
  rw [pkgNum, pkgNum, getF_of_word (hword _), getF_of_word (f := R.FAB_SELF_CARAVAN) (hword _)]

theorem RoutesKept.tabWord_eq {f x : Nat} (hf : f < 2) (hx : x < 0x10000) : tabWord f x t = tabWord f x s :=
  congrArg BitVec.toNat (h.words 0 _ (.inr (.inl ⟨f, x, hf, hx, rfl⟩)))

theorem RoutesKept.getLink_eq (p : Nat) : getLink p t = getLink p s := by rw [getLink, getLink, h.links]

theorem RoutesKept.portCarries_eq (vc : Nat) {p : Nat} (hp : p < 18) : portCarries vc p t = portCarries vc p s := by
  have hstate : getF (portBase p) R.PORT_STATUS_STATE t = getF (portBase p) R.PORT_STATUS_STATE s :=
    getF_of_word (h.words _ _ (.inr (.inr ⟨p, hp, rfl⟩)))
  rw [portCarries, portCarries, portUsable, portUsable, hstate, h.getLink_eq]

end

theorem axis_lt {code a : Nat} (h : a ∈ axisOrder code) : a < 3 := by
  unfold axisOrder at h
  split at h <;> simp at h <;> omega

/-- A fabric die's next hop is one of its nine Caravan ports. -/
theorem hopPort_lt {f self dst code p : Nat} (hf : f < 2) (h : hopPort f self dst code = some p) : p < 18 := by
  unfold hopPort at h
  split at h
  · cases h
  next a ha =>
    have hlt := axis_lt (List.mem_of_find?_eq_some ha)
    cases h
    split_ifs <;> omega

theorem RoutesKept.nextHop_eq {s t : State} (h : RoutesKept s t) (vc : Nat) {f tab dst : Nat} (hf : f < 2) (hx : tab + 8 * dst < 0x10000) :
    nextHop vc f tab dst t = nextHop vc f tab dst s := by
  unfold nextHop
  rw [h.tabWord_eq hf hx, h.pkgNum_eq]
  dsimp only
  congr 2
  funext c
  cases hc : hopPort f (pkgNum s % 64) dst c with
  | none => rfl
  | some p => simp only [h.portCarries_eq vc (hopPort_lt hf hc)]

theorem RoutesKept.pathHop_eq {s t : State} (h : RoutesKept s t) (vc : Nat) {f tab dst : Nat} (hf : f < 2) (hx : tab + 8 * dst < 0x10000) :
    pathHop vc f tab dst t = pathHop vc f tab dst s := by
  rw [pathHop, pathHop, h.nextHop_eq vc hf hx, h.nextHop_eq vc (f := 1 - f) (by omega) hx]

/-! ### A message leaves by a port with room (R261) -/

/-- Bytes of a message sent are counted on its port, and its flits are kept for replay. -/
def portSent (p : Nat) (m : Msg) (s : State) : State :=
  emit (.link p m) (setLink p (linkSend (.caravan m) (getLink p s)) (addPair (portBase p) R.PORT_TX_BYTES_LO_VALUE R.PORT_TX_BYTES_HI_VALUE (msgBytes m) s))

theorem portSend_of_room {p : Nat} {m : Msg} {s : State} (h : linkRoom (.caravan m) (getLink p s) = true) : portSend p m s = portSent p m s := if_pos h

/-- A message of at most eight lines takes at most three flits. -/
theorem linkRoom_of_free {m : Msg} {l : Link} (hwaiting : l.waiting = []) (hroom : replayFlits l + 3 ≤ 512) (hslots : m.slots.length ≤ 64) :
    linkRoom (.caravan m) l = true := by
  have hlen : (bodyOf (.caravan m)).length = m.slots.length + 1 := rfl
  rw [linkRoom, hwaiting, hlen]
  simp only [List.isEmpty_nil, Bool.true_and, decide_eq_true_eq]
  omega

/-- Bytes of a message that a fabric die injects are counted. -/
def injected (fd : Nat) (m : Msg) (s : State) : State := addPair (fabBase fd) R.FAB_TX_BYTES_LO_VALUE R.FAB_TX_BYTES_HI_VALUE (msgBytes m) s

theorem sendMsg_of_hop {fd p : Nat} {m : Msg} {s : State} (hcaravan : m.hdr.dst.toNat / 64 = pkgNum (injected fd m s) / 64)
    (hhop : pathHop m.hdr.vc.toNat fd 0x100 (m.hdr.dst.toNat % 64) (injected fd m s) = some p) : sendMsg fd m s = portSend p m (injected fd m s) := by
  unfold injected at *
  rw [sendMsg, if_pos hcaravan, hhop]

theorem routesKept_injected {fd : Nat} (hfd : fd < 2) (m : Msg) (s : State) : RoutesKept s (injected fd m s) := by
  refine routesKept_of_onlyRegs (onlyRegs_addPair ..) fun off hoff => ?_
  obtain ⟨hlow, hapart⟩ := routeWord_range hoff
  have hlost : lostAt = 0x030010 := rfl
  refine ⟨?_, by omega⟩
  rintro ⟨f, hf, rfl⟩
  simp only [List.mem_cons, List.not_mem_nil, or_false] at hf
  rcases hf with rfl | rfl
  · exact hapart fd 0x50 hfd (by omega) (by omega) rfl
  · exact hapart fd 0x54 hfd (by omega) (by omega) rfl

theorem csrGet_addPair_other {base off : Nat} {lo hi : Fld} (hlo : off ≠ base + lo.off) (hhi : off ≠ base + hi.off) (n d : Nat) (s : State) :
    csrGet d off (addPair base lo hi n s) = csrGet d off s :=
  (csrGet_setF_other _ _ _ hhi).trans (csrGet_setF_other _ _ _ hlo)

/-- Between a state and a later one only registers of the fabric dies changed, links, and what was sent: the message `r` on port `p`. -/
def SentBy (p : Nat) (r : Msg) (s t : State) : Prop :=
  (∃ c l, t = { s with csr := c, links := l, out := s.out ++ [.link p r] }) ∧ ∀ d off, off < 0x400000 → csrGet d off t = csrGet d off s

theorem sentBy_portSent (fd p : Nat) (m : Msg) (s : State) : SentBy p m s (portSent p m (injected fd m s)) := by
  have hport := le_portBase p
  have hfab : 0x400000 ≤ fabBase fd := by
    unfold fabBase
    omega
  obtain ⟨c, hc, hwords⟩ := onlyWords_addPair (fabBase fd) R.FAB_TX_BYTES_LO_VALUE R.FAB_TX_BYTES_HI_VALUE (msgBytes m) s
  obtain ⟨c', hc', hwords'⟩ := onlyWords_addPair (portBase p) R.PORT_TX_BYTES_LO_VALUE R.PORT_TX_BYTES_HI_VALUE (msgBytes m) { s with csr := c }
  have hsent : portSent p m (injected fd m s) =
      { s with csr := c', links := sSet Link.init p (linkSend (.caravan m) (getLink p s)) s.links, out := s.out ++ [.link p m] } := by
    rw [portSent, injected, hc, hc']
    rfl
  rw [hsent]
  rw [hc] at hwords
  rw [hc'] at hwords'
  refine ⟨⟨_, _, rfl⟩, fun d off hoff => Eq.trans (hwords' d off ?_) (hwords d off ?_)⟩
  · rintro (h | h) <;> omega
  · rintro (h | h) <;> omega

/-- The message that answers `m` from die `fd`. -/
def answer (fd : Nat) (m : Msg) (opc len pmask : Nat) (slots : List Slot) (s : State) : Msg :=
  ⟨header fd opc 1 len false m.hdr.src.toNat m.hdr.txid.toNat m.hdr.line.toNat pmask s, slots⟩

/-- An answer goes where the requester is, by the port its route names. -/
theorem respond_spec {fd p : Nat} {m : Msg} {s u : State} (hfd : fd < 2) (hby : AnswersBy fd p m.hdr.src.toNat s) (hkept : RoutesKept s u)
    (opc len pmask : Nat) {slots : List Slot} (hslots : slots.length ≤ 64) :
    SentBy p (answer fd m opc len pmask slots u) u (respond fd m opc len pmask slots u) := by
  obtain ⟨hcaravan, hhop, hwaiting, hroom⟩ := hby
  generalize hr : answer fd m opc len pmask slots u = r
  have hdst : r.hdr.dst.toNat = m.hdr.src.toNat := by
    rw [← hr]
    exact (BitVec.toNat_ofNat ..).trans (Nat.mod_eq_of_lt m.hdr.src.isLt)
  have hvc : r.hdr.vc.toNat = 1 := by
    rw [← hr]
    rfl
  have hlen : r.slots.length ≤ 64 := by
    rw [← hr]
    exact hslots
  have hall := hkept.trans (routesKept_injected hfd r u)
  have hsend : sendMsg fd r u = portSend p r (injected fd r u) := by
    refine sendMsg_of_hop ?_ ?_
    · rw [hdst, hall.pkgNum_eq, hcaravan]
    · rw [hdst, hvc, hall.pathHop_eq 1 hfd (by omega), hhop]
  have hport : portSend p r (injected fd r u) = portSent p r (injected fd r u) := by
    refine portSend_of_room (linkRoom_of_free ?_ ?_ hlen)
    · rw [hall.getLink_eq, hwaiting]
    · rw [hall.getLink_eq]
      exact hroom
  have hrespond : respond fd m opc len pmask slots u = sendMsg fd r u := congrArg (fun x => sendMsg fd x u) hr
  rw [hrespond, hsend, hport]
  exact sentBy_portSent fd p r u

end Sys2Proof.Machine
end

section
/-! PROOFS. Remote accesses: the package's requests answered, refused or expired, other packages' requests served, and the statement about memory messages
(R233, R236, R263, R264, R267, R269, R270, R272, R274). -/

namespace Sys2Proof.Machine

open Sys2Proof.Claims

/-! ### What the end of a request may change (R264, R272 to R274) -/

theorem getFab_setFab (f g : Nat) (x : FabDie) (s : State) : getFab g (setFab f x s) = if g = f then x else getFab g s := sGet_sSet ..

/-- Only engines and cores changed. -/
def BlocksOnly (s t : State) : Prop := ∃ cs es, t = { s with cores := cs, engines := es }

theorem BlocksOnly.refl (s : State) : BlocksOnly s s := ⟨s.cores, s.engines, rfl⟩

/-- Beside registers and the Logbook, only the requests outstanding, engines and cores changed. -/
def RequestsOnly (s t : State) : Prop := ∃ c l k e f cs es, t = { s with csr := c, log := l, totals := k, stepErr := e, fab := f, cores := cs, engines := es }

theorem RequestsOnly.trans {s t u : State} (h : RequestsOnly s t) (h' : RequestsOnly t u) : RequestsOnly s u := by
  obtain ⟨c, l, k, e, f, cs, es, rfl⟩ := h
  obtain ⟨c', l', k', e', f', cs', es', rfl⟩ := h'
  exact ⟨c', l', k', e', f', cs', es', rfl⟩

theorem RestKept.requestsOnly {s t : State} (h : RestKept s t) : RequestsOnly s t := by
  obtain ⟨c, l, k, e, rfl⟩ := h
  exact ⟨c, l, k, e, s.fab, s.cores, s.engines, rfl⟩

theorem BlocksOnly.requestsOnly {s t : State} (h : BlocksOnly s t) : RequestsOnly s t := by
  obtain ⟨cs, es, rfl⟩ := h
  exact ⟨s.csr, s.log, s.totals, s.stepErr, s.fab, cs, es, rfl⟩

theorem RequestsOnly.memoriesKept {s t : State} (h : RequestsOnly s t) : MemoriesKept s t := by
  obtain ⟨c, l, k, e, f, cs, es, rfl⟩ := h
  exact ⟨rfl, rfl, rfl, rfl, rfl⟩

theorem RequestsOnly.ckpQuiet {s t : State} (h : RequestsOnly s t) (hquiet : CkpQuiet s) : CkpQuiet t := by
  obtain ⟨c, l, k, e, f, cs, es, rfl⟩ := h
  exact hquiet

/-! ### The package's own requests end (R264, R272 to R274) -/

/-- A request closed leaves the list of its die, and nothing else changes. -/
theorem txnClose_spec (fd : Nat) (x : Txn) (s : State) : TxnGone fd x (txnClose fd x s) ∧ ∃ f, txnClose fd x s = { s with fab := f } := by
  refine ⟨?_, _, rfl⟩
  rw [TxnGone, txnClose, getFab_setFab, if_pos rfl]
  intro y hy
  simpa [imp_iff_not_or] using (List.mem_filter.1 hy).2

theorem txnGone_of_restKept {fd : Nat} {x : Txn} {s t : State} (h : TxnGone fd x s) (hrest : RestKept s t) : TxnGone fd x t := by
  obtain ⟨c, l, k, e, rfl⟩ := hrest
  exact h

theorem txnGone_of_blocksOnly {fd : Nat} {x : Txn} {s t : State} (h : TxnGone fd x s) (hblocks : BlocksOnly s t) : TxnGone fd x t := by
  obtain ⟨cs, es, rfl⟩ := hblocks
  exact h

/-- Steps that leave engines and cores alone do not matter to who has a line. -/
theorem lineGiven_between {x : Txn} {is : Line → Prop} {poison : Bool} {s u v t : State} (h : LineGiven x is poison u v) (hbefore : SameBlocks s u)
    (hafter : SameBlocks v t) : LineGiven x is poison s t := by
  unfold LineGiven at h ⊢
  cases howner : x.owner with
  | core c =>
    simp only [howner, hbefore.getCore_eq, OtherCoresKept] at h ⊢
    simpa only [hafter.getCore_eq] using h
  | eng k =>
    simp only [howner, hbefore.getEng_eq, hbefore.cores] at h ⊢
    simpa only [hafter.getEng_eq, hafter.cores] using h
  | none =>
    simp only [howner, hbefore.engines, hbefore.cores] at h ⊢
    simpa only [hafter.engines, hafter.cores] using h

/-- The line of a one-line read goes to the engine or the load that waits for it. -/
theorem giveLines_one (x : Txn) (dead poison : Bool) (d : Nat) (is : Line → Prop) (his : is (BitVec.ofNat 1024 d)) (s : State) :
    LineGiven x is poison s (giveLines x dead [(d, poison)] 0 s) ∧ BlocksOnly s (giveLines x dead [(d, poison)] 0 s) := by
  rw [giveLines, giveLines, Nat.add_zero, LineGiven]
  cases howner : x.owner with
  | core c =>
    dsimp only
    cases hload : (getCore c s).load with
    | none => exact ⟨fun lw hlw => (by cases hlw), .refl s⟩
    | some lw =>
      refine ⟨?_, _, s.engines, rfl⟩
      rintro _ ⟨⟩
      refine ⟨⟨BitVec.ofNat 1024 d, ?_, his⟩, fun j hj => ?_⟩
      · rw [getCore_setCore, if_pos rfl]
      · rw [getCore_setCore, if_neg hj]
  | eng k =>
    dsimp only
    generalize x.dst.toNat * 2 ^ 41 + x.line.toNat = key
    refine ⟨⟨⟨BitVec.ofNat 1024 d, ?_, his⟩, ?_, ?_, rfl⟩, s.cores, _, rfl⟩
    · rw [getEng_setEng, if_pos rfl, sFind_sIns, if_pos rfl]
    · intro hp
      rw [getEng_setEng, if_pos rfl, if_pos hp]
      exact List.mem_cons_self
    · intro j hj
      rw [getEng_setEng, if_neg hj]
  | none => exact ⟨⟨rfl, rfl⟩, .refl s⟩

theorem isDeadLine_poisonPattern : isDeadLine (BitVec.ofNat 1024 poisonPattern) := by
  intro i hi
  rw [bitsAt_toNat_ofNat _ (by omega), poisonPattern, bitsAt_packBits _ _ _ (by simpa only [List.length_replicate] using hi), List.getElem_replicate]
  exact Nat.mod_eq_of_lt (by decide)

section
variable {fd : Nat} {m : Msg} {s : State} {x : Txn}

/-- A controller that waits for nothing goes on with nothing. -/
theorem ckpWake_of_quiet (h : CkpQuiet s) : ckpWake s = s := by
  obtain ⟨hdrain, hreads, hphase⟩ := h
  have hchoose : drainChoose s = s := by rw [drainChoose, hdrain]
  have hwrites : pumpWrites s = s := by
    rw [pumpWrites, hchoose]
    dsimp only
    rw [hdrain]
  have hpump : pumpReads s = s := by rw [pumpReads, hreads]
  rw [ckpWake, hwrites, hpump]
  exact if_neg fun hc => hphase hc.1

/-- An answer to an outstanding request is taken; the controller waits for nothing. -/
theorem answerWake_of_found (hx : x ∈ (getFab fd s).txns) (htxid : x.txid = m.hdr.txid) {take : State → State} {t : State} (ht : take s = t)
    (hquiet : CkpQuiet t) : answerWake fd m take s = t := by
  rw [answerWake, if_pos (List.any_eq_true.2 ⟨x, hx, by simpa using htxid⟩), ht, ckpWake_of_quiet hquiet]

theorem mem_of_txnFind {rd : Bool} {q : BitVec 15} (h : txnFind fd rd q s = some x) : x ∈ (getFab fd s).txns ∧ x.txid = q := by
  have hsel : x.txid = q ∧ x.isRead = rd := by simpa using List.find?_some h
  exact ⟨List.mem_of_find?_eq_some h, hsel.1⟩

theorem mem_of_find_txid {q : BitVec 15} (h : (getFab fd s).txns.find? (fun y => y.txid = q) = some x) : x ∈ (getFab fd s).txns ∧ x.txid = q :=
  ⟨List.mem_of_find?_eq_some h, by simpa using List.find?_some h⟩

/-- A one-line read's data arrive. -/
theorem onRdrsp_spec (hx : txnFind fd true m.hdr.txid s = some x) (hn : x.n = 1) {t : State} (ht : onRdrsp fd m s = t) :
    TxnGone fd x t ∧ LineGiven x (fun d => d = BitVec.ofNat 1024 (slotsLine (m.slots.take 8))) (bitAt m.hdr.pmask.toNat 0) s t ∧ RequestsOnly s t := by
  have hlist : (List.range x.n).map (fun i => (slotsLine ((m.slots.drop (8 * i)).take 8), bitAt m.hdr.pmask.toNat i)) =
      [(slotsLine (m.slots.take 8), bitAt m.hdr.pmask.toNat 0)] := by
    rw [hn]
    rfl
  obtain ⟨hgone, f, hclose⟩ := txnClose_spec fd x s
  rw [onRdrsp, hx] at ht
  dsimp only at ht
  rw [hlist] at ht
  obtain ⟨hgiven, hblocks⟩ := giveLines_one x false (bitAt m.hdr.pmask.toNat 0) (slotsLine (m.slots.take 8))
    (fun d => d = BitVec.ofNat 1024 (slotsLine (m.slots.take 8))) rfl (txnClose fd x s)
  rw [ht] at hgiven hblocks
  rw [hclose] at hgiven hblocks hgone
  exact ⟨txnGone_of_blocksOnly hgone hblocks, lineGiven_between hgiven ⟨rfl, rfl⟩ (.refl _),
    .trans ⟨s.csr, s.log, s.totals, s.stepErr, f, s.cores, s.engines, rfl⟩ hblocks.requestsOnly⟩

/-- A write is acknowledged. -/
theorem onWrack_spec (hx : txnFind fd false m.hdr.txid s = some x) (howner : x.owner ≠ .eng kCol) : onWrack fd m s = txnClose fd x s := by
  rw [onWrack, hx]
  exact if_neg howner

end

/-! ### Refused and expired requests (R272, R274) -/

/-- A request of this package was refused: it is closed, counted and recorded. -/
def refusalNoted (fd : Nat) (x : Txn) (s : State) : State :=
  raise (srcFab fd) 0x51 1 0 0 (bumpF (fabBase fd) R.FAB_STATUS_REFUSED_COUNT 1 (txnClose fd x s))

theorem getF_raise_fab (fd : Nat) (f : Fld) (src code sev arg0 arg1 : Nat) (s : State) :
    getF (fabBase fd) f (raise src code sev arg0 arg1 s) = getF (fabBase fd) f s := getF_of_word (csrGet_raise _ _ _ _ _ _ fab_ne_lostAt)

theorem refusalNoted_spec {fd : Nat} {x : Txn} {s t : State} (ht : refusalNoted fd x s = t) : TxnGone fd x t ∧ SameBlocks s t ∧ RequestsOnly s t ∧
    Bumped (fabBase fd) R.FAB_STATUS_REFUSED_COUNT s t ∧ Logged (srcFab fd) 0x51 1 s t := by
  obtain ⟨hgone, f, hclose⟩ := txnClose_spec fd x s
  rw [hclose] at hgone
  rw [refusalNoted, hclose] at ht
  have hclosed : RequestsOnly s { s with fab := f } := ⟨s.csr, s.log, s.totals, s.stepErr, f, s.cores, s.engines, rfl⟩
  have hbump := bumped_bumpF (f := R.FAB_STATUS_REFUSED_COUNT) (by decide) (fabBase fd) { s with fab := f }
  have hcount := restKept_bumpF (fabBase fd) R.FAB_STATUS_REFUSED_COUNT 1 { s with fab := f }
  have hlog := bumpF_log (fabBase fd) R.FAB_STATUS_REFUSED_COUNT 1 { s with fab := f }
  have hnow := bumpF_count (fabBase fd) R.FAB_STATUS_REFUSED_COUNT 1 { s with fab := f }
  generalize bumpF (fabBase fd) R.FAB_STATUS_REFUSED_COUNT 1 { s with fab := f } = v at *
  have hraise := restKept_raise (srcFab fd) 0x51 1 0 0 v
  have hlogged := logged_raise (srcFab fd) 0x51 1 0 0 v
  have hfield := getF_raise_fab fd R.FAB_STATUS_REFUSED_COUNT (srcFab fd) 0x51 1 0 0 v
  rw [ht] at hraise hlogged hfield
  have hrest := hcount.trans hraise
  exact ⟨txnGone_of_restKept hgone hrest, hrest.sameBlocks.of_same rfl rfl, hclosed.trans hrest.requestsOnly, bumped_between hbump rfl hfield,
    logged_of_same hlogged hlog hnow⟩

/-- A dead target is counted and shown. -/
def deadCounted (fd : Nat) (s : State) : State := setF (fabBase fd) R.FAB_STATUS_REMOTE_DEAD 1 (bumpF (fabBase fd) R.FAB_STATUS_DEAD_COUNT 1 s)

/-- Its package is captured. -/
def deadHeld (fd pkg : Nat) (s : State) : State := capture (fabBase fd) R.FAB_DEAD_PKG_VALID (setF (fabBase fd) R.FAB_DEAD_PKG_PACKAGE pkg) s

/-- And all is recorded. -/
def deadNoted (fd pkg : Nat) (s : State) : State := raise (srcFab fd) 0x50 2 pkg 0 (deadHeld fd pkg (deadCounted fd s))

theorem fieldsOnly_deadCounted (fd : Nat) (s : State) :
    FieldsOnly (fabBase fd) [R.FAB_STATUS_REMOTE_DEAD, R.FAB_STATUS_DEAD_COUNT] s (deadCounted fd s) :=
  ((FieldsOnly.refl _ _ s).bumpF (by simp) 1).setF (by simp) 1

theorem fieldsOnly_deadHeld (fd pkg : Nat) (s : State) : FieldsOnly (fabBase fd) [R.FAB_DEAD_PKG_PACKAGE, R.FAB_DEAD_PKG_VALID] s (deadHeld fd pkg s) :=
  (FieldsOnly.refl _ _ s).capture (by simp) ((FieldsOnly.refl _ _ s).setF (by simp) pkg)

theorem deadCounted_spec (fd : Nat) (s : State) : getF (fabBase fd) R.FAB_STATUS_REMOTE_DEAD (deadCounted fd s) = 1 ∧
    Bumped (fabBase fd) R.FAB_STATUS_DEAD_COUNT s (deadCounted fd s) :=
  ⟨getF_setF _ _ _ _ (by decide), bumped_between (bumped_bumpF (by decide) _ s) rfl (getF_setF_beside _ _ _ (by decide) (by decide))⟩

theorem deadHeld_spec {fd pkg : Nat} (hpkg : pkg < 2 ^ 16) {s : State} (hfree : getF (fabBase fd) R.FAB_DEAD_PKG_VALID s = 0) :
    getF (fabBase fd) R.FAB_DEAD_PKG_PACKAGE (deadHeld fd pkg s) = pkg := by
  rw [deadHeld, capture, if_neg (by omega), getF_setF_beside _ _ _ (by decide) (by decide), getF_setF _ _ _ _ (by decide)]
  exact Nat.mod_eq_of_lt hpkg

theorem deadNoted_spec {fd pkg : Nat} (hpkg : pkg < 2 ^ 16) {s t : State} (ht : deadNoted fd pkg s = t) : RestKept s t ∧
    getF (fabBase fd) R.FAB_STATUS_REMOTE_DEAD t = 1 ∧ Bumped (fabBase fd) R.FAB_STATUS_DEAD_COUNT s t ∧ Logged (srcFab fd) 0x50 2 s t ∧ t.stepErr = true ∧
    (getF (fabBase fd) R.FAB_DEAD_PKG_VALID s = 0 → getF (fabBase fd) R.FAB_DEAD_PKG_PACKAGE t = pkg) := by
  obtain ⟨hcount, hkept⟩ := fieldsOnly_deadCounted fd s
  obtain ⟨hflag, hbump⟩ := deadCounted_spec fd s
  rw [deadNoted] at ht
  generalize deadCounted fd s = u at *
  obtain ⟨hheld, hkept'⟩ := fieldsOnly_deadHeld fd pkg u
  have hpackage := deadHeld_spec (fd := fd) hpkg (s := u)
  generalize deadHeld fd pkg u = v at *
  have hrest := restKept_raise (srcFab fd) 0x50 2 pkg 0 v
  have hlogged := logged_raise (srcFab fd) 0x50 2 pkg 0 v
  have herr := stepErr_raise (le_refl 2) (srcFab fd) 0x50 pkg 0 v
  have hraise := fun f => getF_raise_fab fd f (srcFab fd) 0x50 2 pkg 0 v
  rw [ht] at hrest hlogged herr
  simp only [ht] at hraise
  obtain ⟨c, k, hu⟩ := hcount
  obtain ⟨c', k', hv⟩ := hheld
  have hlog : v.log = s.log := by rw [hv, hu]
  have hnow : v.count = s.count := by rw [hv, hu]
  have hset : RestKept s v := ⟨c', s.log, k', s.stepErr, by rw [hv, hu]⟩
  refine ⟨hset.trans hrest, ?_, ?_, logged_of_same hlogged hlog hnow, herr, fun hvalid => ?_⟩
  · rw [hraise, hkept' _ (by decide) (by decide), hflag]
  · exact bumped_between hbump rfl ((hraise _).trans (hkept' _ (by decide) (by decide)))
  · rw [hraise]
    exact hpackage ((hkept _ (by decide) (by decide)).trans hvalid)

section
variable {fd : Nat} {m : Msg} {s : State} {x : Txn}

/-- A one-line read that gets no data gives the poison line of a dead target. -/
theorem txnDead_read (hread : x.isRead = true) (hn : x.n = 1) (s : State) : LineGiven x isDeadLine false s (txnDead x s) ∧ BlocksOnly s (txnDead x s) := by
  have hdead : txnDead x s = giveLines x true [(poisonPattern, false)] 0 s := by
    rw [txnDead, if_pos hread, hn]
    rfl
  rw [hdead]
  exact giveLines_one x true false poisonPattern isDeadLine isDeadLine_poisonPattern s

/-- A one-line write of an engine that is not acknowledged counts its line as dropped. -/
theorem txnDead_write {k : Nat} (hwrite : x.isRead = false) (hn : x.n = 1) (howner : x.owner = .eng k) (s : State) :
    (getEng k (txnDead x s)).drops = (getEng k s).drops ++ [x.dst.toNat * 2 ^ 41 + x.line.toNat] ∧ ∃ es, txnDead x s = { s with engines := es } := by
  have hdead : txnDead x s = setEng k { getEng k s with drops := (getEng k s).drops ++ [x.dst.toNat * 2 ^ 41 + x.line.toNat] } s := by
    rw [txnDead, if_neg (by simp [hwrite]), howner]
    dsimp only
    rw [hn, List.range_one, List.map_singleton, Nat.add_zero]
  rw [hdead, getEng_setEng, if_pos rfl]
  exact ⟨rfl, _, rfl⟩

/-- A refusal of a one-line read gives the poison line at once. -/
theorem onNack_read (hx : (getFab fd s).txns.find? (fun y => y.txid = m.hdr.txid) = some x) (hread : x.isRead = true) (hn : x.n = 1) {t : State}
    (ht : onNack fd m s = t) : TxnGone fd x t ∧ LineGiven x isDeadLine false s t ∧ RequestsOnly s t ∧
      Bumped (fabBase fd) R.FAB_STATUS_REFUSED_COUNT s t ∧ Logged (srcFab fd) 0x51 1 s t := by
  rw [onNack, hx] at ht
  dsimp only at ht
  rw [if_pos hread, ← refusalNoted] at ht
  obtain ⟨hgone, hsame, honly, hbump, hlog⟩ := refusalNoted_spec (fd := fd) (x := x) (s := s) rfl
  obtain ⟨hgiven, hblocks⟩ := txnDead_read (x := x) hread hn (refusalNoted fd x s)
  generalize refusalNoted fd x s = v at *
  rw [ht] at hgiven hblocks
  refine ⟨txnGone_of_blocksOnly hgone hblocks, lineGiven_between hgiven hsame (.refl _), honly.trans hblocks.requestsOnly, ?_, ?_⟩
  · obtain ⟨cs, es, rfl⟩ := hblocks
    exact hbump
  · obtain ⟨cs, es, rfl⟩ := hblocks
    exact hlog

/-- A refusal of a write counts as its acknowledgement. -/
theorem onNack_write (hx : (getFab fd s).txns.find? (fun y => y.txid = m.hdr.txid) = some x) (hwrite : x.isRead = false) (hcol : x.owner ≠ .eng kCol) :
    onNack fd m s = refusalNoted fd x s := by
  rw [onNack, hx]
  dsimp only
  rw [if_neg (by simp [hwrite]), colAcked, if_neg hcol, refusalNoted]

/-- A request of neither the collective engine nor the checkpoint controller meets the bound of a dead target. -/
theorem runs_deadTargetExpiry {fd : Fin 2} {q : BitVec 15} (hx : (getFab fd s).txns.find? (fun y => y.txid = q) = some x) (hcol : x.owner ≠ .eng kCol)
    (hckp : x.owner ≠ .eng kCkp) : Runs (.deadTargetExpiry fd q) s (deadNoted fd x.dst.toNat (txnDead x (txnClose fd x s))) := by
  refine congrArg Host.Outcome.next ?_
  rw [expire, hx]
  dsimp only
  rw [if_neg hckp, deadExpiry, hx]
  exact if_neg hcol

theorem expired_read (hread : x.isRead = true) (hn : x.n = 1) {t : State} (ht : deadNoted fd x.dst.toNat (txnDead x (txnClose fd x s)) = t) :
    TxnGone fd x t ∧ LineGiven x isDeadLine false s t ∧ MemoriesKept s t ∧
      getF (fabBase fd) R.FAB_STATUS_REMOTE_DEAD t = 1 ∧ Bumped (fabBase fd) R.FAB_STATUS_DEAD_COUNT s t ∧ Logged (srcFab fd) 0x50 2 s t ∧ t.stepErr = true ∧
      (getF (fabBase fd) R.FAB_DEAD_PKG_VALID s = 0 → getF (fabBase fd) R.FAB_DEAD_PKG_PACKAGE t = x.dst.toNat) := by
  obtain ⟨hgone, f, hclose⟩ := txnClose_spec fd x s
  rw [hclose] at hgone ht
  obtain ⟨hgiven, hblocks⟩ := txnDead_read (x := x) hread hn { s with fab := f }
  generalize txnDead x { s with fab := f } = v at *
  obtain ⟨hrest, hflag, hcount, hlog, herr, hpkg⟩ := deadNoted_spec x.dst.isLt ht
  refine ⟨txnGone_of_restKept (txnGone_of_blocksOnly hgone hblocks) hrest, lineGiven_between hgiven ⟨rfl, rfl⟩ hrest.sameBlocks, ?_, hflag, ?_, ?_, herr, ?_⟩
  · exact RequestsOnly.memoriesKept (.trans ⟨s.csr, s.log, s.totals, s.stepErr, f, s.cores, s.engines, rfl⟩ (hblocks.requestsOnly.trans hrest.requestsOnly))
  · obtain ⟨cs, es, rfl⟩ := hblocks
    exact hcount
  · obtain ⟨cs, es, rfl⟩ := hblocks
    exact hlog
  · obtain ⟨cs, es, rfl⟩ := hblocks
    exact hpkg

theorem expired_write {k : Nat} (hwrite : x.isRead = false) (hn : x.n = 1) (howner : x.owner = .eng k) {t : State}
    (ht : deadNoted fd x.dst.toNat (txnDead x (txnClose fd x s)) = t) :
    TxnGone fd x t ∧ (getEng k t).drops = (getEng k s).drops ++ [x.dst.toNat * 2 ^ 41 + x.line.toNat] ∧ t.cores = s.cores ∧
      MemoriesKept s t ∧ getF (fabBase fd) R.FAB_STATUS_REMOTE_DEAD t = 1 ∧ Bumped (fabBase fd) R.FAB_STATUS_DEAD_COUNT s t ∧ Logged (srcFab fd) 0x50 2 s t := by
  obtain ⟨hgone, f, hclose⟩ := txnClose_spec fd x s
  rw [hclose] at hgone ht
  obtain ⟨hdrops, es, hblocks⟩ := txnDead_write (x := x) hwrite hn howner { s with fab := f }
  rw [hblocks] at ht hdrops
  obtain ⟨hrest, hflag, hcount, hlog, -, -⟩ := deadNoted_spec x.dst.isLt ht
  refine ⟨txnGone_of_restKept (s := { s with fab := f, engines := es }) hgone hrest, ?_, hrest.sameBlocks.cores, ?_, hflag, hcount, hlog⟩
  · rw [hrest.sameBlocks.getEng_eq]
    exact hdrops
  · exact RequestsOnly.memoriesKept (.trans ⟨s.csr, s.log, s.totals, s.stepErr, f, s.cores, es, rfl⟩ hrest.requestsOnly)

end

/-! ### Requests from other packages (R233, R269, R270) -/

theorem lineTargets_of_mapWords {s t : State} (h : ∀ d off, mapWord off → csrGet d off t = csrGet d off s) (m : Msg) : lineTargets m t = lineTargets m s := by
  simp only [lineTargets, target_of_mapWords h]

theorem not_mapWord_fab {fd x : Nat} (hx : x < 0x20000) : ¬ mapWord (fabBase fd + x) := by
  intro h
  have := mapWord_eq h
  unfold fabBase at this
  omega

theorem lineTargets_received (fd : Fin 2) (m : Msg) (s : State) : lineTargets m (received fd m s) = lineTargets m s := by
  refine lineTargets_of_mapWords (fun d off hoff => (onlyRegs_received fd m s).1 d off ?_ ?_) m
  · rintro ⟨f, hf, rfl⟩
    simp only [List.mem_cons, List.not_mem_nil, or_false] at hf
    rcases hf with rfl | rfl <;> exact not_mapWord_fab (by decide) hoff
  · have := mapWord_eq hoff
    have hlost : lostAt = 0x030010 := rfl
    omega

theorem routesKept_received (fd : Fin 2) (m : Msg) (s : State) : RoutesKept s (received fd m s) := by
  refine routesKept_of_onlyRegs (onlyRegs_received fd m s) fun off hoff => ?_
  obtain ⟨hlow, hapart⟩ := routeWord_range hoff
  have hlost : lostAt = 0x030010 := rfl
  refine ⟨?_, by omega⟩
  rintro ⟨f, hf, rfl⟩
  simp only [List.mem_cons, List.not_mem_nil, or_false] at hf
  rcases hf with rfl | rfl
  · exact hapart fd 0x58 fd.isLt (by omega) (by omega) rfl
  · exact hapart fd 0x5C fd.isLt (by omega) (by omega) rfl

/-- A read of HBM lines the companion does not own is answered with their values. -/
theorem onRd_of_hbm {fd : Nat} {m : Msg} {s : State} (hopc : m.hdr.opc = 1) (hhbm : ∀ x ∈ lineTargets m s, ∃ a, x = .hbm a)
    (hfree : ∀ pl ∈ hbmLines (lineTargets m s), readHeld pl s = false) :
    onRd fd m s = respond fd m 2 m.hdr.len.toNat (pmaskOf (hbmLines (lineTargets m s)) s)
      ((hbmLines (lineTargets m s)).flatMap (fun pl => lineSlots (lineNat pl s))) s := by
  have hread : ¬ m.hdr.opc = 3 := by simp [hopc]
  rw [onRd, if_pos (List.all_eq_true.2 fun x hx => by obtain ⟨a, rfl⟩ := hhbm x hx; rfl), remoteAccept, if_neg, remoteServe, if_pos hopc]
  simp only [hread, decide_false, Bool.false_eq_true, if_false, Bool.not_eq_true, List.any_eq_false]
  exact fun pl hpl => by simp [hfree pl hpl]

/-- A read of anything but HBM lines is refused. -/
theorem onRd_of_other {fd : Nat} {m : Msg} {s : State} (h : ∃ x ∈ lineTargets m s, ∀ a, x ≠ .hbm a) : onRd fd m s = refuseRemote fd m s := by
  obtain ⟨x, hx, hother⟩ := h
  rw [onRd, if_neg]
  intro hall
  have := List.all_eq_true.1 hall x hx
  cases x with
  | hbm a => exact hother a rfl
  | _ => cases this

/-- A write that names registers, control blocks, the companion window or nothing is refused. -/
theorem onWr_of_other {fd : Nat} {m : Msg} {s : State}
    (h : ∃ x ∈ lineTargets m s, x = .unmapped ∨ (∃ w, x = .companion w) ∨ (∃ o, x = .csr o) ∨ ∃ d a, x = .depotCtl d a) : onWr fd m s = refuseRemote fd m s := by
  obtain ⟨x, hx, hother⟩ := h
  rw [onWr, if_neg]
  intro hall
  have := List.all_eq_true.1 hall x hx
  rcases hother with rfl | ⟨w, rfl⟩ | ⟨o, rfl⟩ | ⟨d, a, rfl⟩ <;> cases this

/-- A write of one whole HBM line that the companion does not hold is done and acknowledged. -/
theorem onWr_of_line {fd a : Nat} {m : Msg} {s : State} (hopc : m.hdr.opc = 3) (hts : lineTargets m s = [.hbm a]) (hfree : writeHeld (a / 128) s = false) :
    onWr fd m s = respond fd m 4 0 0 [] (wholeLine (a / 128) (slotsLine (m.slots.take 8)) (bitAt m.hdr.pmask.toNat 0) s) := by
  have hwrite : ¬ m.hdr.opc = 1 := by simp [hopc]
  have haccept : onWr fd m s = remoteAccept fd m s := by
    rw [onWr, hts]
    exact if_pos rfl
  rw [haccept, remoteAccept, hts, if_neg, remoteServe, if_neg hwrite, hts]
  · rfl
  · simp [hbmLines, hopc, hfree]

/-- A refused request is counted and recorded. -/
def refusalOf (fd : Nat) (m : Msg) (s : State) : State :=
  raise (srcFab fd) 0x31 2 (m.hdr.src.toNat + m.hdr.line.toNat * 128 % 2 ^ 48 * 2 ^ 16) 0 (bumpF mempBase R.MEM_UNMAPPED_COUNT 1 s)

theorem refuseRemote_eq (fd : Nat) (m : Msg) (s : State) : refuseRemote fd m s = respond fd m 5 0 0 [] (refusalOf fd m s) := rfl

theorem refusalOf_spec (fd : Nat) (m : Msg) (s : State) : RoutesKept s (refusalOf fd m s) ∧ RestKept s (refusalOf fd m s) ∧
    Bumped mempBase R.MEM_UNMAPPED_COUNT s (refusalOf fd m s) ∧ Logged (srcFab fd) 0x31 2 s (refusalOf fd m s) := by
  have honly : OnlyRegs (regAt mempBase [R.MEM_UNMAPPED_COUNT]) s (refusalOf fd m s) :=
    ((OnlyRegs.refl _ s).bumpF ⟨R.MEM_UNMAPPED_COUNT, by simp, rfl⟩ 1).raise ..
  have hbump := bumped_bumpF (f := R.MEM_UNMAPPED_COUNT) (by decide) mempBase s
  have hlog := bumpF_log mempBase R.MEM_UNMAPPED_COUNT 1 s
  have hnow := bumpF_count mempBase R.MEM_UNMAPPED_COUNT 1 s
  have hword : mempBase + R.MEM_UNMAPPED_COUNT.off < 0x400000 ∧ mempBase + R.MEM_UNMAPPED_COUNT.off ≠ lostAt := by decide
  refine ⟨routesKept_of_onlyRegs honly fun off hoff => ⟨?_, ?_⟩, restKept_of_onlyRegs honly, ?_, ?_⟩
  · rintro ⟨f, hf, rfl⟩
    rw [List.mem_singleton.1 hf] at hoff
    exact absurd (routeWord_range hoff).1 (by omega)
  · have hlost : lostAt < 0x400000 := by decide
    exact fun h => absurd (routeWord_range hoff).1 (by omega)
  · exact bumped_between hbump rfl (getF_of_word (csrGet_raise _ _ _ _ _ _ hword.2))
  · exact logged_of_same (logged_raise _ _ _ _ _ _) hlog hnow

end Sys2Proof.Machine
end

section
/-! PROOFS. Requests served and refused, and the statement about memory messages (R233, R236, R263, R264, R267, R269, R270, R272, R274). -/

namespace Sys2Proof.Machine

open Sys2Proof.Claims

/-- What was sent left memories, cores and engines alone. -/
theorem SentBy.kept {p : Nat} {r : Msg} {s t : State} (h : SentBy p r s t) : MemoriesKept s t ∧ SameBlocks s t ∧ t.log = s.log ∧ t.out = s.out ++ [.link p r] := by
  obtain ⟨⟨c, l, rfl⟩, -⟩ := h
  exact ⟨⟨rfl, rfl, rfl, rfl, rfl⟩, ⟨rfl, rfl⟩, rfl, rfl⟩

theorem SentBy.readsSame {p : Nat} {r : Msg} {s t : State} (h : SentBy p r s t) (q : Nat) : ReadsSame q s t := by
  obtain ⟨⟨c, l, rfl⟩, -⟩ := h
  exact ⟨rfl, rfl⟩

theorem answer_addressed (fd : Nat) (m : Msg) (opc len pmask : Nat) (slots : List Slot) (s : State) :
    (answer fd m opc len pmask slots s).hdr.dst = m.hdr.src ∧ (answer fd m opc len pmask slots s).hdr.txid = m.hdr.txid :=
  ⟨by simp [answer, header], by simp [answer, header]⟩

/-- The count of bytes received lies beside every register below the fabric dies. -/
theorem getF_received_below (fd : Nat) (m : Msg) (s : State) {base : Nat} {f : Fld} (hbelow : base + f.off < 0x400000) (hlost : base + f.off ≠ lostAt) :
    getF base f (received fd m s) = getF base f s := by
  refine (onlyRegs_received fd m s).getF_eq ?_ hlost
  rintro ⟨g, -, hg⟩
  unfold fabBase at hg
  omega

theorem length_hbmLines_le (l : List Target) : (hbmLines l).length ≤ l.length := List.length_filterMap_le ..

/-- The lines of one message fill at most 64 slots. -/
theorem length_readSlots (m : Msg) (s : State) (f : Nat → Nat) : ((hbmLines (lineTargets m s)).flatMap (fun pl => lineSlots (f pl))).length ≤ 64 := by
  have hlines : (hbmLines (lineTargets m s)).length ≤ m.hdr.len.toNat + 1 := by
    simpa [lineTargets] using length_hbmLines_le (lineTargets m s)
  have hlen := m.hdr.len.isLt
  have height : ∀ v, (lineSlots v).length = 8 := fun v => by simp [lineSlots]
  simp only [List.length_flatMap, height, List.map_const', List.sum_replicate, smul_eq_mul]
  omega

section
variable {fd : Fin 2} {m : Msg} {s : State} {p : Nat} (hby : AnswersBy fd p m.hdr.src.toNat s)
include hby

/-- A refused request sends a NACK to its source, and is counted and recorded. -/
theorem refuseRemote_spec {t : State} (ht : refuseRemote fd m (received fd m s) = t) : ∃ r : Msg, t.out = s.out ++ [.link p r] ∧ r.hdr.opc = 5 ∧
    r.hdr.dst = m.hdr.src ∧ r.hdr.txid = m.hdr.txid ∧ r.slots = [] ∧ Bumped mempBase R.MEM_UNMAPPED_COUNT s t ∧ Logged (srcFab fd) 0x31 2 s t ∧
    MemoriesKept s t ∧ t.cores = s.cores := by
  obtain ⟨c, hc, hwords⟩ := onlyWords_addPair (fabBase fd) R.FAB_RX_BYTES_LO_VALUE R.FAB_RX_BYTES_HI_VALUE (msgBytes m) s
  have hroutes := routesKept_received fd m s
  have hcount := getF_received_below fd m s (base := mempBase) (f := R.MEM_UNMAPPED_COUNT) (by decide) (by decide)
  rw [received, hc] at hroutes hcount ht
  rw [refuseRemote_eq] at ht
  obtain ⟨hroutes', hrest, hbump, hlog⟩ := refusalOf_spec fd m { s with csr := c }
  generalize refusalOf fd m { s with csr := c } = u at *
  have hsent := respond_spec fd.isLt hby (hroutes.trans hroutes') 5 0 0 (slots := []) (by decide)
  obtain ⟨hdst, htxid⟩ := answer_addressed fd m 5 0 0 [] u
  rw [ht] at hsent
  obtain ⟨hmems, hsame, hqueues, hout⟩ := hsent.kept
  have hlow : getF mempBase R.MEM_UNMAPPED_COUNT t = getF mempBase R.MEM_UNMAPPED_COUNT u := getF_of_word (hsent.2 _ _ (by decide))
  refine ⟨answer fd m 5 0 0 [] u, ?_, rfl, hdst, htxid, rfl, bumped_between hbump hcount hlow,
    logged_later (logged_of_same hlog rfl rfl) (.of_eq (congrArg Logbook.queues hqueues)), ?_, ?_⟩
  · obtain ⟨c', l, k, e, rfl⟩ := hrest
    exact hout
  · obtain ⟨c', l, k, e, rfl⟩ := hrest
    exact hmems
  · obtain ⟨c', l, k, e, rfl⟩ := hrest
    exact hsame.cores

/-- A served read sends the values of its lines, with their poison, and changes no memory. -/
theorem onRd_spec (hopc : m.hdr.opc = 1) (hhbm : ∀ x ∈ lineTargets m s, ∃ a, x = .hbm a)
    (hfree : ∀ pl ∈ hbmLines (lineTargets m s), readHeld pl s = false) {t : State} (ht : onRd fd m (received fd m s) = t) :
    ∃ r : Msg, t.out = s.out ++ [.link p r] ∧ r.hdr.opc = 2 ∧ r.hdr.dst = m.hdr.src ∧ r.hdr.txid = m.hdr.txid ∧
      r.slots = (hbmLines (lineTargets m s)).flatMap (fun pl => lineSlots (lineNat pl s)) ∧
      r.hdr.pmask = BitVec.ofNat 8 (pmaskOf (hbmLines (lineTargets m s)) s) ∧ MemoriesKept s t ∧ t.cores = s.cores ∧ t.engines = s.engines := by
  obtain ⟨c, hc, hwords⟩ := onlyWords_addPair (fabBase fd) R.FAB_RX_BYTES_LO_VALUE R.FAB_RX_BYTES_HI_VALUE (msgBytes m) s
  have hroutes := routesKept_received fd m s
  have hts := lineTargets_received fd m s
  rw [received, hc] at hroutes ht hts
  rw [onRd_of_hbm hopc (by rwa [hts]) (by rw [hts]; exact hfree), hts] at ht
  have hlen := length_readSlots m s (fun pl => lineNat pl s)
  generalize hslots : (hbmLines (lineTargets m s)).flatMap (fun pl => lineSlots (lineNat pl s)) = slots at *
  generalize hmask : pmaskOf (hbmLines (lineTargets m s)) s = pm
  have hrespond : respond fd m 2 m.hdr.len.toNat pm slots { s with csr := c } = t := by
    rw [← ht, ← hmask, ← hslots]
    rfl
  have hsent := respond_spec fd.isLt hby hroutes 2 m.hdr.len.toNat pm hlen
  obtain ⟨hdst, htxid⟩ := answer_addressed fd m 2 m.hdr.len.toNat pm slots { s with csr := c }
  rw [hrespond] at hsent
  obtain ⟨hmems, hsame, -, hout⟩ := hsent.kept
  exact ⟨answer fd m 2 m.hdr.len.toNat pm slots { s with csr := c }, hout, rfl, hdst, htxid, rfl, rfl, hmems, hsame.cores, hsame.engines⟩

/-- A served write of a whole line writes it with its poison and is acknowledged. -/
theorem onWr_spec {a : Nat} (hopc : m.hdr.opc = 3) (hts : lineTargets m s = [.hbm a]) (hfree : writeHeld (a / 128) s = false)
    (hoos : chanOos (a / 128) s = false) {t : State} (ht : onWr fd m (received fd m s) = t) :
    ∃ r : Msg, t.out = s.out ++ [.link p r] ∧ r.hdr.opc = 4 ∧ r.hdr.dst = m.hdr.src ∧ r.hdr.txid = m.hdr.txid ∧
      lineNat (a / 128) t = slotsLine (m.slots.take 8) % 2 ^ 1024 ∧ linePoison (a / 128) t = bitAt m.hdr.pmask.toNat 0 ∧
      (∀ q, q ≠ a / 128 → lineNat q t = lineNat q s) ∧ t.tileSram = s.tileSram ∧ t.cores = s.cores := by
  obtain ⟨c, hc, hwords⟩ := onlyWords_addPair (fabBase fd) R.FAB_RX_BYTES_LO_VALUE R.FAB_RX_BYTES_HI_VALUE (msgBytes m) s
  have hroutes := routesKept_received fd m s
  rw [← lineTargets_received fd m s] at hts
  rw [received, hc] at hroutes ht hts
  rw [onWr_of_line hopc hts hfree] at ht
  generalize slotsLine (m.slots.take 8) = v at *
  generalize bitAt m.hdr.pmask.toNat 0 = poison at *
  obtain ⟨hline, hpoison, hothers⟩ := wholeLine_spec (s := { s with csr := c }) v poison hoos
  obtain ⟨hb, ps, dp, cs, hw⟩ := linesOnly_wholeLine (a / 128) v poison { s with csr := c }
  have hkept : RoutesKept { s with csr := c } (wholeLine (a / 128) v poison { s with csr := c }) := by
    rw [hw]
    exact ⟨fun _ _ _ => rfl, rfl⟩
  have hsent := respond_spec fd.isLt hby (hroutes.trans hkept) 4 0 0 (slots := []) (by decide)
  generalize wholeLine (a / 128) v poison { s with csr := c } = u at *
  obtain ⟨hdst, htxid⟩ := answer_addressed fd m 4 0 0 [] u
  rw [ht] at hsent
  obtain ⟨⟨-, htile, -, -, -⟩, hsame, -, hout⟩ := hsent.kept
  refine ⟨answer fd m 4 0 0 [] u, ?_, rfl, hdst, htxid, (hsent.readsSame _).1.trans hline, (hsent.readsSame _).2.trans hpoison,
    fun q hq => (hsent.readsSame q).1.trans (hothers q hq).1, ?_, ?_⟩
  · rw [hout, hw]
  · rw [htile, hw]
  · rw [hsame.cores, hw]

end

/-! ### The package's own requests -/

section
variable {fd : Fin 2} {m : Msg} {s : State} {x : Txn} (h : Claims.Delivered fd m s) (hquiet : CkpQuiet s)

theorem requestsOnly_received (fd : Nat) (m : Msg) (s : State) : RequestsOnly s (received fd m s) := (restKept_of_onlyRegs (onlyRegs_received fd m s)).requestsOnly

theorem sameBlocks_received (fd : Nat) (m : Msg) (s : State) : SameBlocks s (received fd m s) := (restKept_of_onlyRegs (onlyRegs_received fd m s)).sameBlocks

theorem getF_received_refused (fd : Nat) (m : Msg) (s : State) :
    getF (fabBase fd) R.FAB_STATUS_REFUSED_COUNT (received fd m s) = getF (fabBase fd) R.FAB_STATUS_REFUSED_COUNT s := by
  refine (onlyRegs_received fd m s).getF_eq ?_ fab_ne_lostAt
  simp [receivedWords, regAt, R.FAB_STATUS_REFUSED_COUNT, R.FAB_RX_BYTES_LO_VALUE, R.FAB_RX_BYTES_HI_VALUE]

theorem logged_of_received {src code sev : Nat} {t : State} (hlog : Logged src code sev (received fd m s) t) : Logged src code sev s t := logged_of_same hlog rfl rfl

include hquiet

/-- An outstanding request found in the state in which the bytes are counted is answered there. -/
theorem runs_answer {i : Instr} {take : State → State} (hrun : Runs i s (answerWake fd m take (received fd m s)))
    (hx : x ∈ (getFab fd s).txns ∧ x.txid = m.hdr.txid) {t : State} (ht : take (received fd m s) = t) (honly : RequestsOnly (received fd m s) t) :
    Runs i s t ∧ MemoriesKept s t := by
  have hall := (requestsOnly_received fd m s).trans honly
  have hquiet' := hall.ckpQuiet hquiet
  rw [answerWake_of_found (s := received fd m s) hx.1 hx.2 ht hquiet'] at hrun
  exact ⟨hrun, hall.memoriesKept⟩

include h

theorem rdrsp_closes (hopc : m.hdr.opc = 2) (hx : txnFind fd true m.hdr.txid s = some x) (hn : x.n = 1) : ∃ t, Runs (.rdrsp fd m) s t ∧ TxnGone fd x t ∧
    LineGiven x (fun d => d = BitVec.ofNat 1024 (slotsLine (m.slots.take 8))) (bitAt m.hdr.pmask.toNat 0) s t ∧ MemoriesKept s t := by
  obtain ⟨hgone, hgiven, honly⟩ := onRdrsp_spec (s := received fd m s) hx hn rfl
  obtain ⟨hrun, hmems⟩ := runs_answer hquiet (runs_rdrsp h hopc) (mem_of_txnFind hx) rfl honly
  exact ⟨_, hrun, hgone, lineGiven_between hgiven (sameBlocks_received fd m s) (.refl _), hmems⟩

theorem wrack_closes (hopc : m.hdr.opc = 4) (hx : txnFind fd false m.hdr.txid s = some x) (howner : x.owner ≠ .eng kCol) : ∃ t, Runs (.wrack fd m) s t ∧
    TxnGone fd x t ∧ t.cores = s.cores ∧ t.engines = s.engines ∧ MemoriesKept s t := by
  have ht := onWrack_spec (s := received fd m s) hx howner
  obtain ⟨hgone, f, hclose⟩ := txnClose_spec fd x (received fd m s)
  have honly : RequestsOnly (received fd m s) (txnClose fd x (received fd m s)) := ⟨_, _, _, _, f, _, _, hclose⟩
  have hblocks : SameBlocks (received fd m s) (txnClose fd x (received fd m s)) := by
    rw [hclose]
    exact ⟨rfl, rfl⟩
  obtain ⟨hrun, hmems⟩ := runs_answer hquiet (runs_wrack h hopc) (mem_of_txnFind hx) ht honly
  obtain ⟨hengines, hcores⟩ := (sameBlocks_received fd m s).trans hblocks
  exact ⟨_, hrun, hgone, hcores, hengines, hmems⟩

theorem nack_closes_read (hopc : m.hdr.opc = 5) (hx : (getFab fd s).txns.find? (fun y => y.txid = m.hdr.txid) = some x) (hread : x.isRead = true)
    (hn : x.n = 1) : ∃ t, Runs (.caravanNack fd m) s t ∧ TxnGone fd x t ∧ LineGiven x isDeadLine false s t ∧ MemoriesKept s t ∧
      Bumped (fabBase fd) R.FAB_STATUS_REFUSED_COUNT s t ∧ Logged (srcFab fd) 0x51 1 s t := by
  obtain ⟨hgone, hgiven, honly, hbump, hlog⟩ := onNack_read (s := received fd m s) hx hread hn rfl
  obtain ⟨hrun, hmems⟩ := runs_answer hquiet (runs_caravanNack h hopc) (mem_of_find_txid hx) rfl honly
  exact ⟨_, hrun, hgone, lineGiven_between hgiven (sameBlocks_received fd m s) (.refl _), hmems, bumped_between hbump (getF_received_refused fd m s) rfl,
    logged_of_received hlog⟩

theorem nack_closes_write (hopc : m.hdr.opc = 5) (hx : (getFab fd s).txns.find? (fun y => y.txid = m.hdr.txid) = some x) (hwrite : x.isRead = false)
    (hcol : x.owner ≠ .eng kCol) : ∃ t, Runs (.caravanNack fd m) s t ∧ TxnGone fd x t ∧ t.engines = s.engines ∧ t.cores = s.cores ∧ MemoriesKept s t ∧
      Bumped (fabBase fd) R.FAB_STATUS_REFUSED_COUNT s t := by
  obtain ⟨hgone, hblocks, honly, hbump, -⟩ := refusalNoted_spec (fd := fd) (x := x) (s := received fd m s) rfl
  obtain ⟨hrun, hmems⟩ := runs_answer hquiet (runs_caravanNack h hopc) (mem_of_find_txid hx) (onNack_write (s := received fd m s) hx hwrite hcol) honly
  obtain ⟨hengines, hcores⟩ := (sameBlocks_received fd m s).trans hblocks
  exact ⟨_, hrun, hgone, hengines, hcores, hmems, bumped_between hbump (getF_received_refused fd m s) rfl⟩

end

theorem lineTargets_of_one {m : Msg} {s : State} {x : Target} (hlen : m.hdr.len = 0) (hx : target (m.hdr.line.toNat * 128 % 2 ^ 48) s = x) :
    lineTargets m s = [x] := by
  rw [lineTargets, hlen, ← hx]
  rfl

/-- Settles O37: served and refused requests act on the state in which the bytes received are counted; what the package's own requests gave is closed. -/
theorem remoteAccessesAreServedAndAnswered : Obligations.RemoteAccessesAreServedAndAnswered := by
  intro fd m s h hquiet
  refine ⟨fun p hby => ⟨fun hopc hhbm hfree => ?_, ?_, fun a hopc hlen hts hfree hoos => ?_⟩, fun x hopc hx hn => rdrsp_closes h hquiet hopc hx hn,
    fun x hopc hx howner => wrack_closes h hquiet hopc hx howner, fun x hx hread hn hcol hckp => ⟨fun hopc => ?_, ?_⟩,
    fun x k hx hwrite hn howner hcol hckp => ⟨fun hopc => ?_, ?_⟩⟩
  · obtain ⟨r, hr⟩ := onRd_spec hby hopc hhbm hfree rfl
    exact ⟨_, r, runs_rd h hopc, hr⟩
  · obtain ⟨r, hr⟩ := refuseRemote_spec hby rfl
    have hts := lineTargets_received fd m s
    rintro (⟨hread, hother⟩ | ⟨hwrite, hother⟩) i (⟨rfl, hopc⟩ | ⟨rfl, hopc⟩)
    · have hrun := runs_rd h hopc
      rw [onRd_of_other (by rwa [hts])] at hrun
      exact ⟨_, r, hrun, hr⟩
    · simp [hread] at hopc
    · simp [hwrite] at hopc
    · have hrun := runs_wr h hopc
      rw [onWr_of_other (by rwa [hts])] at hrun
      exact ⟨_, r, hrun, hr⟩
  · obtain ⟨r, hr⟩ := onWr_spec hby hopc (lineTargets_of_one hlen hts) hfree hoos rfl
    exact ⟨_, r, runs_wr h hopc, hr⟩
  · exact nack_closes_read h hquiet hopc hx hread hn
  · exact ⟨_, runs_deadTargetExpiry hx hcol hckp, expired_read hread hn rfl⟩
  · exact nack_closes_write h hquiet hopc hx hwrite (by rw [howner]; simpa using hcol)
  · exact ⟨_, runs_deadTargetExpiry hx (by rw [howner]; simpa using hcol) (by rw [howner]; simpa using hckp), expired_write hwrite hn howner rfl⟩

end Sys2Proof.Machine
end

section
/-! PROOFS. The ports' registers: which words of ports and fabric dies stay apart, and what a change of a port's STATE leaves (R261, R265, R275 to R279). -/

namespace Sys2Proof.Machine

open Sys2Proof.Claims

/-! ### Words of ports and of fabric dies (R265) -/

theorem portDie_lt {p : Nat} (hp : p < 22) : portDie p < 2 := by
  unfold portDie
  split <;> omega

theorem portWord_ne {p q x y : Nat} (hp : p < 22) (hq : q < 22) (hne : q ≠ p) (hx : x < 0x100) (hy : y < 0x100) : portBase q + y ≠ portBase p + x := by
  unfold portBase fabBase
  split <;> split <;> omega

theorem portWord_ne_fab {p fd x y : Nat} (hx : x < 0x100) (hy : y < 0x10000) : portBase p + x ≠ fabBase fd + y := by
  unfold portBase fabBase
  split <;> omega

theorem fabWord_ne {fd g x y : Nat} (hne : g ≠ fd) (hx : x < 0x100000) (hy : y < 0x100000) : fabBase g + y ≠ fabBase fd + x := by
  unfold fabBase
  omega

/-! ### A port's STATE (R275) -/

theorem onlyWords_setPort (p st : Nat) (s : State) : OnlyWords (portWords p) s (setPort p st s) :=
  ((onlyWords_setF (portBase p) R.PORT_STATUS_STATE st s).mono fun _ => .inl).trans ((onlyWords_setF _ R.FAB_STATUS_PORTS_ACTIVE _ _).mono fun _ => .inr)

theorem getLink_setPort (p st q : Nat) (s : State) : getLink q (setPort p st s) = getLink q s := by
  obtain ⟨c, hc, -⟩ := onlyWords_setPort p st s
  rw [hc]
  rfl

theorem getF_setPort_self {p st : Nat} {f : Fld} (hf : f.off < 0x100) (s : State) :
    getF (portBase p) f (setPort p st s) = getF (portBase p) f (setF (portBase p) R.PORT_STATUS_STATE st s) :=
  getF_setF_other _ _ _ _ _ _ (portWord_ne_fab hf (by decide))

/-- A port's other fields read as before. -/
theorem getF_setPort_clear {p st : Nat} {f : Fld} (hf : f.off < 0x100) (hclear : FieldsClear R.PORT_STATUS_STATE f) (hfit : f.lo + f.w ≤ 32)
    (s : State) : getF (portBase p) f (setPort p st s) = getF (portBase p) f s := by
  rw [getF_setPort_self hf]
  rcases hclear with hoff | hbeside
  · exact getF_setF_apart _ _ _ (Ne.symm hoff)
  · exact getF_setF_beside _ _ _ hbeside hfit

/-- Another port's registers read as before. -/
theorem getF_setPort_other {p q st : Nat} (hp : p < 22) (hq : q < 22) (hne : q ≠ p) {f : Fld} (hf : f.off < 0x100) (s : State) :
    getF (portBase q) f (setPort p st s) = getF (portBase q) f s := by
  refine (getF_setF_other _ _ _ _ _ _ (portWord_ne_fab hf (by decide))).trans (getF_setF_other _ _ _ _ _ _ ?_)
  exact portWord_ne hp hq hne (by decide) hf

theorem portState_setPort {p q : Nat} (hp : p < 22) (hq : q < 22) (st : Nat) (s : State) :
    portState q (setPort p st s) = if q = p then st % 2 ^ 3 else portState q s := by
  split
  next h =>
    rw [h, portState, getF_setPort_self (by decide)]
    exact getF_setF _ _ _ _ (by decide)
  next h => exact getF_setPort_other hp hq h (by decide) s

/-- A fabric die's fields beside PORTS_ACTIVE read as before. -/
theorem getF_setPort_fab {p st fd : Nat} {f : Fld} (hf : f.off < 0x10000) (hclear : FieldsClear R.FAB_STATUS_PORTS_ACTIVE f)
    (hfit : f.lo + f.w ≤ 32) (s : State) : getF (fabBase fd) f (setPort p st s) = getF (fabBase fd) f s := by
  have hstate : getF (fabBase fd) f (setF (portBase p) R.PORT_STATUS_STATE st s) = getF (fabBase fd) f s :=
    getF_setF_other _ _ _ _ _ _ (portWord_ne_fab (by decide) hf).symm
  refine Eq.trans ?_ hstate
  by_cases hdie : fd = portDie p
  · rw [setPort, hdie]
    rcases hclear with hoff | hbeside
    · exact getF_setF_apart _ _ _ (Ne.symm hoff)
    · exact getF_setF_beside _ _ _ hbeside hfit
  · exact getF_setF_other _ _ _ _ _ _ (fabWord_ne hdie (by decide) (by omega))

end Sys2Proof.Machine
end

section
/-! PROOFS. Epoch switches: two tables swapped, one die's switch, the ports and channels admitted, and the statement about epochs
(R243, R277, R280, R281, R283). -/

namespace Sys2Proof.Machine

open Sys2Proof.Claims

/-! ### Two tables swapped (R280) -/

section
variable {α : Type}

theorem sFind_filter_key (P : Nat → Bool) (k : Nat) : ∀ m : Store α, sFind (m.filter fun e => P e.1) k = if P k then sFind m k else none
  | [] => by simp [sFind]
  | (a, v) :: m => by
    have ih := sFind_filter_key P k m
    by_cases hP : P a = true
    · rw [List.filter_cons_of_pos (by simpa using hP), sFind, ih, sFind]
      by_cases hk : k = a
      · simp [hk, hP]
      · simp [hk]
    · rw [List.filter_cons_of_neg (by simpa using hP), ih, sFind]
      by_cases hk : k = a
      · simp [hk, hP]
      · simp [hk]

/-- Entries listed anew under other keys: where two would share a key, the first stands. -/
theorem sFind_foldr_sIns (g : Nat → Nat) (m : Store α) (k : Nat) : ∀ l : Store α,
    sFind (l.foldr (fun e m => sIns (g e.1) e.2 m) m) k = (sFind (l.map fun e => (g e.1, e.2)) k).or (sFind m k)
  | [] => by simp [sFind]
  | (a, v) :: l => by
    rw [List.foldr_cons, sFind_sIns, sFind_foldr_sIns g m k l, List.map_cons, sFind]
    split <;> rfl

/-- The entries of `n` words from `lo` on, moved to `hi`. -/
theorem sFind_moved (lo hi n k : Nat) : ∀ m : Store α,
    sFind ((m.filter fun e => lo ≤ e.1 && e.1 < lo + n).map fun e => (e.1 - lo + hi, e.2)) k =
      if hi ≤ k ∧ k < hi + n then sFind m (k - hi + lo) else none
  | [] => by simp [sFind]
  | (a, v) :: m => by
    have ih := sFind_moved lo hi n k m
    by_cases ha : lo ≤ a ∧ a < lo + n
    · rw [List.filter_cons_of_pos (by simpa using ha), List.map_cons, sFind, ih, sFind]
      by_cases hk : k = a - lo + hi
      · rw [if_pos hk, if_pos (by omega), if_pos (by omega)]
      · rw [if_neg hk]
        split
        · rw [if_neg (by omega)]
        · rfl
    · rw [List.filter_cons_of_neg (by simpa using ha), ih, sFind]
      split
      · rw [if_neg (by omega)]
      · rfl

end

/-- The key whose word a swap puts at `k`. -/
def swapKey (ba bb n k : Nat) : Nat := if ba ≤ k ∧ k < ba + n then k - ba + bb else if bb ≤ k ∧ k < bb + n then k - bb + ba else k

theorem sFind_swapTables {fd a b n : Nat} (hapart : a + 4 * n ≤ b) (k : Nat) (s : State) :
    sFind (swapTables fd a b n s).csr k = sFind s.csr (swapKey (tabBase fd + a) (tabBase fd + b) (4 * n) k) := by
  have hrest := sFind_filter_key (fun x => !(tabBase fd + a ≤ x && x < tabBase fd + a + 4 * n) && !(tabBase fd + b ≤ x && x < tabBase fd + b + 4 * n)) k s.csr
  rw [swapTables]
  dsimp only
  rw [sFind_foldr_sIns (fun x => x - (tabBase fd + a) + (tabBase fd + b)), sFind_foldr_sIns (fun x => x - (tabBase fd + b) + (tabBase fd + a)), sFind_moved,
    sFind_moved, hrest, swapKey]
  by_cases ha : tabBase fd + a ≤ k ∧ k < tabBase fd + a + 4 * n
  · have hb : ¬ (tabBase fd + b ≤ k ∧ k < tabBase fd + b + 4 * n) := by omega
    simp [ha, hb]
  · by_cases hb : tabBase fd + b ≤ k ∧ k < tabBase fd + b + 4 * n
    · simp [ha, hb]
    · have hkept : (!(decide (tabBase fd + a ≤ k) && decide (k < tabBase fd + a + 4 * n)) &&
          !(decide (tabBase fd + b ≤ k) && decide (k < tabBase fd + b + 4 * n))) = true := by simpa [imp_iff_not_or] using And.intro (by omega) (by omega)
      rw [if_neg hb, if_neg ha, if_neg ha, if_neg hb, if_pos hkept]
      rfl

theorem csrGet_swapTables {fd a b n : Nat} (hapart : a + 4 * n ≤ b) (d off : Nat) (s : State) :
    csrGet d off (swapTables fd a b n s) = csrGet d (swapKey (tabBase fd + a) (tabBase fd + b) (4 * n) off) s := by
  rw [csrGet, csrGet, sGet_eq_sFind, sGet_eq_sFind, sFind_swapTables hapart]

/-! ### One die's switch (R280, R283) -/

/-- The word that stands at `off` after the active and the shadow tables of a die have changed places. -/
def switchKey (fd off : Nat) : Nat :=
  swapKey (tabBase fd + 0x100) (tabBase fd + 0x300) (4 * 128) (swapKey (tabBase fd + 0x1000) (tabBase fd + 0x2000) (4 * 1024) off)

/-- The die shown as switched. -/
def FabDie.switched (x : FabDie) : FabDie := { x with armedAt := none, grace := true, staleSeen := false }

/-- What a die's switch with the tag kept leaves. -/
structure DieSwitched (fd : Nat) (s t : State) : Prop where
  frame : ∃ c f, t = { s with csr := c, fab := f }
  die : getFab fd t = (getFab fd s).switched
  others : ∀ e, e ≠ fd → getFab e t = getFab e s
  armed : getF (fabBase fd) R.FAB_STATUS_ARMED t = 0
  current : getF (fabBase fd) R.FAB_EPOCH_CURRENT t = (getF (fabBase fd) R.FAB_EPOCH_CURRENT s + 1) % 4
  words : ∀ d off, off ≠ fabBase fd + R.FAB_STATUS_ARMED.off → off ≠ fabBase fd + R.FAB_EPOCH_CURRENT.off → csrGet d off t = csrGet d (switchKey fd off) s

theorem switchKey_apart {fd off : Nat} (h : off < tabBase fd ∨ tabBase fd + 0x3000 ≤ off) : switchKey fd off = off := by
  unfold switchKey swapKey
  split_ifs <;> omega

/-- The tables of a die that has switched. -/
def tablesSwapped (fd : Nat) (s : State) : State :=
  swapTables fd 0x1000 0x2000 1024 (swapTables fd 0x100 0x300 128 (setFab fd (getFab fd s).switched s))

theorem csrGet_tablesSwapped (fd d off : Nat) (s : State) : csrGet d off (tablesSwapped fd s) = csrGet d (switchKey fd off) s := by
  rw [tablesSwapped, csrGet_swapTables (by decide), csrGet_swapTables (by decide)]
  rfl

theorem tablesSwapped_frame (fd : Nat) (s : State) :
    ∃ c, tablesSwapped fd s = { s with csr := c, fab := sSet FabDie.init fd (getFab fd s).switched s.fab } := ⟨_, rfl⟩

/-- The switch made: ARMED clears and the epoch advances. -/
def epochTurned (fd : Nat) (s : State) : State :=
  setF (fabBase fd) R.FAB_EPOCH_CURRENT ((getF (fabBase fd) R.FAB_EPOCH_CURRENT (setF (fabBase fd) R.FAB_STATUS_ARMED 0 (tablesSwapped fd s)) + 1) % 4)
    (setF (fabBase fd) R.FAB_STATUS_ARMED 0 (tablesSwapped fd s))

theorem dieSwitch_of_tagKept {fd : Nat} {s : State} (htag : getF (fabBase fd) R.FAB_EPOCH_TAG_APPLY (epochTurned fd s) ≠ 1) :
    dieSwitch fd s = epochTurned fd s := if_neg htag

/-- A die's registers lie below its tables, so a swap keeps them. -/
theorem getF_tablesSwapped {fd : Nat} {f : Fld} (hf : f.off < 0x10000) (s : State) :
    getF (fabBase fd) f (tablesSwapped fd s) = getF (fabBase fd) f s := by
  refine getF_of_word ((csrGet_tablesSwapped ..).trans (congrArg (fun off => csrGet _ off s) (switchKey_apart (.inl ?_))))
  unfold tabBase
  omega

/-- With the tag kept, a die's switch ends with its epoch advanced. -/
theorem dieSwitch_spec {fd : Nat} {s : State} (htag : getF (fabBase fd) R.FAB_EPOCH_TAG_APPLY s = 0) : DieSwitched fd s (dieSwitch fd s) := by
  have hcurrent := getF_tablesSwapped (fd := fd) (f := R.FAB_EPOCH_CURRENT) (by decide) s
  have htag' := getF_tablesSwapped (fd := fd) (f := R.FAB_EPOCH_TAG_APPLY) (by decide) s
  have hwords := fun d off => csrGet_tablesSwapped fd d off s
  have hturn : dieSwitch fd s = epochTurned fd s := dieSwitch_of_tagKept (by
    rw [epochTurned, getF_setF_beside _ _ _ (by decide) (by decide), getF_setF_apart _ _ _ (by decide), htag', htag]
    decide)
  rw [hturn, epochTurned]
  obtain ⟨c, hframe⟩ := tablesSwapped_frame fd s
  generalize tablesSwapped fd s = u at *
  obtain ⟨c', hc', hwords'⟩ := onlyWords_setF (fabBase fd) R.FAB_STATUS_ARMED 0 u
  have hclear := getF_setF (fabBase fd) 0 R.FAB_STATUS_ARMED u (by decide)
  have hkept := getF_setF_apart (f := R.FAB_STATUS_ARMED) (g := R.FAB_EPOCH_CURRENT) (fabBase fd) 0 u (by decide)
  generalize setF (fabBase fd) R.FAB_STATUS_ARMED 0 u = v at *
  generalize hnext : (getF (fabBase fd) R.FAB_EPOCH_CURRENT v + 1) % 4 = next
  obtain ⟨c'', hc'', hwords''⟩ := onlyWords_setF (fabBase fd) R.FAB_EPOCH_CURRENT next v
  have hset := getF_setF (fabBase fd) next R.FAB_EPOCH_CURRENT v (by decide)
  have hclear' := getF_setF_apart (f := R.FAB_EPOCH_CURRENT) (g := R.FAB_STATUS_ARMED) (fabBase fd) next v (by decide)
  generalize setF (fabBase fd) R.FAB_EPOCH_CURRENT next v = t at *
  have hfab : t.fab = sSet FabDie.init fd (getFab fd s).switched s.fab := by rw [hc'', hc', hframe]
  refine ⟨⟨c'', _, by rw [hc'', hc', hframe]⟩, ?_, fun e he => ?_, hclear'.trans hclear, ?_, fun d off harm hcur =>
    (hwords'' d off hcur).trans ((hwords' d off harm).trans (hwords d off))⟩
  · rw [getFab, hfab, sGet_sSet, if_pos rfl]
  · rw [getFab, hfab, sGet_sSet, if_neg he, getFab]
  · rw [hset, ← hnext, hkept, hcurrent]
    exact Nat.mod_eq_of_lt (Nat.mod_lt _ (by decide))

end Sys2Proof.Machine
end

section
/-! PROOFS. Admission at an epoch switch, the commands of epochs, and the statement about them (R243, R277, R280, R281, R283). -/

namespace Sys2Proof.Machine

open Sys2Proof.Claims

/-! ### What a fold over units leaves of each -/

/-- A fold whose step at `p` updates what is seen at `p` and nothing seen elsewhere updates what is seen at each of its units once. -/
theorem foldl_view {V : Type} {P : Nat → Prop} {step : State → Nat → State} {view : Nat → State → V} {upd : V → V}
    (hself : ∀ p s, P p → view p (step s p) = upd (view p s)) (hother : ∀ p q s, P p → P q → q ≠ p → view q (step s p) = view q s) {q : Nat} (hq : P q) :
    ∀ (l : List Nat) (s : State), l.Nodup → (∀ p ∈ l, P p) → view q (l.foldl step s) = if q ∈ l then upd (view q s) else view q s
  | [], s, _, _ => by simp
  | p :: l, s, hnd, hl => by
    obtain ⟨hp, hl⟩ := List.forall_mem_cons.1 hl
    obtain ⟨hnot, hnd⟩ := List.nodup_cons.1 hnd
    rw [List.foldl_cons, foldl_view hself hother hq l (step s p) hnd hl]
    by_cases hqp : q = p
    · rw [hqp, if_neg hnot, if_pos List.mem_cons_self, hself p s hp]
    · rw [hother p q s hp hq hqp]
      simp [hqp]

/-- What no step of a fold changes, the fold does not change. -/
theorem foldl_same {V : Type} {step : State → Nat → State} {view : State → V} : ∀ (l : List Nat), (∀ p ∈ l, ∀ s, view (step s p) = view s) →
    ∀ s, view (l.foldl step s) = view s
  | [], _, _ => rfl
  | p :: l, hl, s => by
    obtain ⟨hp, hl⟩ := List.forall_mem_cons.1 hl
    exact (foldl_same l hl (step s p)).trans (hp s)

/-! ### What admission may change (R243, R277) -/

/-- The words that admission writes. -/
def admissionWord (off : Nat) : Prop := (∃ p, p < 22 ∧ portWords p off) ∨ ∃ st, st < 12 ∧ off = stackBase st + R.MEM_STATUS_OOS_COUNT.off

/-- Between a state and a later one only links, channels and the words of admission changed, and no die's ARMED. -/
structure AdmissionOnly (s t : State) : Prop where
  frame : ∃ c l ch, t = { s with csr := c, links := l, chans := ch }
  words : ∀ d off, ¬ admissionWord off → csrGet d off t = csrGet d off s
  armed : ∀ fd, fd < 2 → getF (fabBase fd) R.FAB_STATUS_ARMED t = getF (fabBase fd) R.FAB_STATUS_ARMED s

theorem AdmissionOnly.refl (s : State) : AdmissionOnly s s := ⟨⟨s.csr, s.links, s.chans, rfl⟩, fun _ _ _ => rfl, fun _ _ => rfl⟩

theorem AdmissionOnly.trans {s t u : State} (h : AdmissionOnly s t) (h' : AdmissionOnly t u) : AdmissionOnly s u := by
  obtain ⟨⟨c, l, ch, hframe⟩, hwords, harmed⟩ := h
  obtain ⟨⟨c', l', ch', hframe'⟩, hwords', harmed'⟩ := h'
  exact ⟨⟨c', l', ch', by rw [hframe', hframe]⟩, fun d off hoff => (hwords' d off hoff).trans (hwords d off hoff),
    fun fd hfd => (harmed' fd hfd).trans (harmed fd hfd)⟩

theorem AdmissionOnly.foldl {step : State → Nat → State} : ∀ (l : List Nat), (∀ p ∈ l, ∀ s, AdmissionOnly s (step s p)) → ∀ s, AdmissionOnly s (l.foldl step s)
  | [], _, s => .refl s
  | p :: l, hl, s => by
    obtain ⟨hp, hl⟩ := List.forall_mem_cons.1 hl
    exact (hp s).trans (AdmissionOnly.foldl l hl (step s p))

/-! ### Ports (R277) -/

/-- What admission reads of a port: STATE, SELFTEST_PASS, AUTO_ADMIT as it acts, and a request. -/
structure PortView where
  state : Nat
  pass : Nat
  auto : Nat
  req : Bool

def portView (p : Nat) (s : State) : PortView :=
  ⟨portState p s, getF (portBase p) R.PORT_STATUS_SELFTEST_PASS s, effF (portBase p) R.PORT_CTRL_AUTO_ADMIT R.PORT_CTRL_LEVEL s, (getLink p s).admitReq⟩

/-- A passed port that admits itself or is requested becomes ACTIVE. -/
def PortView.admitted (v : PortView) : PortView :=
  if v.state = 4 ∧ v.pass = 1 ∧ (v.auto = 1 ∨ v.req = true) then { v with state := 5, req := false } else v

/-- The step of `admitPorts`. -/
def admitPort (s : State) (p : Nat) : State :=
  if portState p s = 4 ∧ getF (portBase p) R.PORT_STATUS_SELFTEST_PASS s = 1 ∧
      (effF (portBase p) R.PORT_CTRL_AUTO_ADMIT R.PORT_CTRL_LEVEL s = 1 ∨ (getLink p s).admitReq) then
    setPort p 5 (setLink p { getLink p s with admitReq := false } s)
  else s

theorem admitPorts_eq (s : State) : admitPorts s = (List.range 22).foldl admitPort s := rfl

theorem effF_of_fields {base base' : Nat} {f lvl : Fld} {s t : State} (hf : getF base f t = getF base' f s) (hlvl : getF base lvl t = getF base' lvl s) :
    effF base f lvl t = effF base' f lvl s := by
  rw [effF, effF, hf, hlvl]

theorem getLink_setLink (p q : Nat) (x : Link) (s : State) : getLink q (setLink p x s) = if q = p then x else getLink q s := sGet_sSet ..

/-- The step taken: the port is ACTIVE, its request gone. -/
def portTaken (p : Nat) (s : State) : State := setPort p 5 (setLink p { getLink p s with admitReq := false } s)

theorem portView_taken {p : Nat} (hp : p < 22) (s : State) : portView p (portTaken p s) = { portView p s with state := 5, req := false } := by
  have hstate := portState_setPort hp hp 5 (setLink p { getLink p s with admitReq := false } s)
  rw [if_pos rfl] at hstate
  rw [portView, portTaken, hstate, getF_setPort_clear (by decide) (by decide) (by decide), effF_of_fields (getF_setPort_clear (by decide) (by decide) (by decide) _)
    (getF_setPort_clear (by decide) (by decide) (by decide) _), getLink_setPort, getLink_setLink, if_pos rfl]
  rfl

theorem portView_taken_other {p q : Nat} (hp : p < 22) (hq : q < 22) (hne : q ≠ p) (s : State) : portView q (portTaken p s) = portView q s := by
  have hstate := portState_setPort hp hq 5 (setLink p { getLink p s with admitReq := false } s)
  rw [if_neg hne] at hstate
  rw [portView, portTaken, hstate, getF_setPort_other hp hq hne (by decide), effF_of_fields (getF_setPort_other hp hq hne (by decide) _)
    (getF_setPort_other hp hq hne (by decide) _), getLink_setPort, getLink_setLink, if_neg hne]
  rfl

theorem portView_admitPort {p : Nat} (hp : p < 22) (s : State) : portView p (admitPort s p) = (portView p s).admitted := by
  unfold admitPort PortView.admitted
  split
  next h => exact (portView_taken hp s).trans (if_pos h).symm
  next h => exact (if_neg h).symm

theorem portView_admitPort_other {p q : Nat} (hp : p < 22) (hq : q < 22) (hne : q ≠ p) (s : State) : portView q (admitPort s p) = portView q s := by
  unfold admitPort
  split
  · exact portView_taken_other hp hq hne s
  · rfl

theorem admissionOnly_admitPort {p : Nat} (hp : p < 22) (s : State) : AdmissionOnly s (admitPort s p) := by
  unfold admitPort
  split
  · have harmed := fun fd => getF_setPort_fab (p := p) (st := 5) (fd := fd) (f := R.FAB_STATUS_ARMED) (by decide) (by decide) (by decide)
      (setLink p { getLink p s with admitReq := false } s)
    obtain ⟨c, hc, hwords⟩ := onlyWords_setPort p 5 (setLink p { getLink p s with admitReq := false } s)
    generalize setPort p 5 (setLink p { getLink p s with admitReq := false } s) = t at *
    exact ⟨⟨c, _, s.chans, hc⟩, fun d off hoff => hwords d off fun h => hoff (.inl ⟨p, hp, h⟩), fun fd _ => harmed fd⟩
  · exact .refl s

/-! ### Channels (R243) -/

/-- A requested channel returns to service. -/
def Chan.admitted (k : Chan) : Chan :=
  if k.admitReq = true ∧ k.st = .outOfService then { k with st := .inService, admitReq := false, passed := false } else k

/-- The step of `admitChannels`. -/
def admitChannel (s : State) (i : Nat) : State :=
  let k := getChan (i / 32) (i % 32) s
  if k.admitReq ∧ k.st = .outOfService then
    let b := stackBase (i / 32)
    setF b R.MEM_STATUS_OOS_COUNT (getF b R.MEM_STATUS_OOS_COUNT s - 1)
      (setChan (i / 32) (i % 32) { k with st := .inService, admitReq := false, passed := false } s)
  else s

theorem admitChannels_eq (s : State) : admitChannels s = (List.range 384).foldl admitChannel s := rfl

theorem getChan_admitChannel (i a b : Nat) (s : State) : getChan a b (admitChannel s i) =
    if a * 32 + b = i / 32 * 32 + i % 32 then (getChan (i / 32) (i % 32) s).admitted else getChan a b s := by
  unfold admitChannel Chan.admitted
  dsimp only
  by_cases h : (getChan (i / 32) (i % 32) s).admitReq = true ∧ (getChan (i / 32) (i % 32) s).st = .outOfService
  · rw [if_pos h, if_pos h]
    exact getChan_setChan ..
  · rw [if_neg h, if_neg h]
    split
    next heq => rw [getChan, heq, getChan]
    next => rfl

theorem admissionOnly_admitChannel {i : Nat} (hi : i < 384) (s : State) : AdmissionOnly s (admitChannel s i) := by
  unfold admitChannel
  dsimp only
  split
  · generalize { getChan (i / 32) (i % 32) s with st := ChanSt.inService, admitReq := false, passed := false } = k
    have hword : stackBase (i / 32) + R.MEM_STATUS_OOS_COUNT.off < 0x400000 := by
      have hoff : R.MEM_STATUS_OOS_COUNT.off = 8 := rfl
      unfold stackBase
      omega
    obtain ⟨c, hc, hwords⟩ := onlyWords_setF (stackBase (i / 32)) R.MEM_STATUS_OOS_COUNT (getF (stackBase (i / 32)) R.MEM_STATUS_OOS_COUNT s - 1)
      (setChan (i / 32) (i % 32) k s)
    refine ⟨⟨c, s.links, _, hc⟩, fun d off hoff => hwords d off fun h => hoff (.inr ⟨i / 32, by omega, h⟩), fun fd _ => getF_of_word (hwords _ _ ?_)⟩
    unfold fabBase
    omega
  · exact .refl s

theorem portView_admitChannel {q i : Nat} (hi : i < 384) (s : State) : portView q (admitChannel s i) = portView q s := by
  unfold admitChannel
  dsimp only
  split
  · generalize { getChan (i / 32) (i % 32) s with st := ChanSt.inService, admitReq := false, passed := false } = k
    obtain ⟨c, hc, hwords⟩ := onlyWords_setF (stackBase (i / 32)) R.MEM_STATUS_OOS_COUNT (getF (stackBase (i / 32)) R.MEM_STATUS_OOS_COUNT s - 1)
      (setChan (i / 32) (i % 32) k s)
    have hfield : ∀ f : Fld, getF (portBase q) f _ = getF (portBase q) f s := fun f => getF_of_word (hwords _ _ (by
      have hport := le_portBase q
      have hoff : R.MEM_STATUS_OOS_COUNT.off = 8 := rfl
      unfold stackBase
      omega))
    generalize setF (stackBase (i / 32)) R.MEM_STATUS_OOS_COUNT _ _ = t at *
    rw [portView, portView, portState, portState, hfield, hfield, effF_of_fields (hfield _) (hfield _), hc]
    rfl
  · rfl

theorem chans_admitPort (p : Nat) (s : State) : (admitPort s p).chans = s.chans := by
  unfold admitPort
  split
  · obtain ⟨c, hc, -⟩ := onlyWords_setPort p 5 (setLink p { getLink p s with admitReq := false } s)
    rw [hc]
    rfl
  · rfl

/-! ### Admission as a whole -/

theorem admissionOnly_admit (s : State) : AdmissionOnly s (admitPorts (admitChannels s)) :=
  (AdmissionOnly.foldl _ (fun _ hi => admissionOnly_admitChannel (List.mem_range.1 hi)) s).trans
    (AdmissionOnly.foldl _ (fun _ hp => admissionOnly_admitPort (List.mem_range.1 hp)) _)

theorem portView_admit {p : Nat} (hp : p < 22) (s : State) : portView p (admitPorts (admitChannels s)) = (portView p s).admitted := by
  rw [admitPorts_eq, foldl_view (P := fun p => p < 22) (upd := PortView.admitted) (fun p s hp => portView_admitPort hp s)
    (fun p q s hp hq hne => portView_admitPort_other hp hq hne s) hp _ _ List.nodup_range (fun p hp => List.mem_range.1 hp), if_pos (List.mem_range.2 hp),
    admitChannels_eq, foldl_same (view := portView p) _ fun i hi s => portView_admitChannel (List.mem_range.1 hi) s]

theorem getChan_admit (st : Fin 12) (c : Fin 32) (s : State) : getChan st c (admitPorts (admitChannels s)) = (getChan st c s).admitted := by
  have hchans : (admitPorts (admitChannels s)).chans = (admitChannels s).chans := foldl_same (view := State.chans) _ (fun p _ s => chans_admitPort p s) _
  have hview := foldl_view (P := fun i => i < 384) (step := admitChannel) (view := fun i s => getChan (i / 32) (i % 32) s) (upd := Chan.admitted)
    (fun i s _ => by rw [getChan_admitChannel, if_pos rfl]) (fun i j s _ _ hne => by rw [getChan_admitChannel, if_neg (by omega)])
    (q := st * 32 + c) (by omega) (List.range 384) s List.nodup_range (fun i hi => List.mem_range.1 hi)
  have hst : (st.val * 32 + c) / 32 = st := by omega
  have hc : (st.val * 32 + c) % 32 = c := by omega
  rw [if_pos (List.mem_range.2 (by omega)), hst, hc] at hview
  rw [getChan, hchans]
  exact hview

/-- Every unit that admission finds ready is admitted. -/
theorem unitsAdmitted_admit {s u : State} (hports : ∀ p, p < 22 → portView p u = portView p s) (hchans : u.chans = s.chans) :
    UnitsAdmitted s (admitPorts (admitChannels u)) := by
  refine ⟨fun p => ?_, fun st c => ?_⟩
  · have hview := portView_admit p.isLt u
    rw [hports p p.isLt] at hview
    refine (congrArg PortView.state hview).trans ?_
    unfold PortView.admitted portView
    split <;> rfl
  · rw [getChan_admit, getChan, hchans]
    rfl

end Sys2Proof.Machine
end

section
/-! PROOFS. Both dies' switch, the commands of epochs, and the statement about them (R243, R277, R280, R281, R283). -/

namespace Sys2Proof.Machine

open Sys2Proof.Claims

/-! ### Both dies switch (R280) -/

theorem switchKey_below {fd x : Nat} (hx : x < 0x20000) : switchKey fd (fabBase fd + x) = fabBase fd + x := by
  refine switchKey_apart (.inl ?_)
  unfold tabBase
  omega

theorem switchKey_range {fd off : Nat} (h : fabBase fd ≤ off ∧ off < fabBase fd + 0x100000) :
    fabBase fd ≤ switchKey fd off ∧ switchKey fd off < fabBase fd + 0x100000 := by
  unfold switchKey swapKey tabBase
  split_ifs <;> omega

/-- A die's switch leaves all words outside its range. -/
theorem DieSwitched.outside {fd : Nat} {s t : State} (h : DieSwitched fd s t) {off : Nat} (hoff : off < fabBase fd ∨ fabBase fd + 0x100000 ≤ off) (d : Nat) :
    csrGet d off t = csrGet d off s := by
  have hword := h.words d off
  rw [switchKey_apart (by unfold tabBase; omega)] at hword
  have harm : R.FAB_STATUS_ARMED.off = 0x8 := rfl
  have hcur : R.FAB_EPOCH_CURRENT.off = 0x20 := rfl
  exact hword (by omega) (by omega)

/-- One die's part of a switch that both dies made. -/
structure SwitchedIn (fd : Nat) (s t : State) : Prop where
  die : getFab fd t = (getFab fd s).switched
  armed : getF (fabBase fd) R.FAB_STATUS_ARMED t = 0
  current : getF (fabBase fd) R.FAB_EPOCH_CURRENT t = (getF (fabBase fd) R.FAB_EPOCH_CURRENT s + 1) % 4
  words : ∀ d off, fabBase fd ≤ off ∧ off < fabBase fd + 0x100000 → off ≠ fabBase fd + R.FAB_STATUS_ARMED.off →
    off ≠ fabBase fd + R.FAB_EPOCH_CURRENT.off → csrGet d off t = csrGet d (switchKey fd off) s

theorem getF_of_outside {fd g : Nat} {f : Fld} {s t : State} (h : DieSwitched fd s t) (hg : g ≠ fd) (hf : f.off < 0x100000) :
    getF (fabBase g) f t = getF (fabBase g) f s := by
  refine getF_of_word (h.outside ?_ _)
  unfold fabBase
  omega

theorem switchedIn_first {s u t : State} (h : DieSwitched 0 s u) (h' : DieSwitched 1 u t) : SwitchedIn 0 s t where
  die := (h'.others 0 (by decide)).trans h.die
  armed := (getF_of_outside h' (by decide) (by decide)).trans h.armed
  current := (getF_of_outside h' (by decide) (by decide)).trans h.current
  words d off hoff harm hcur := (h'.outside (.inl (by unfold fabBase at *; omega)) d).trans (h.words d off harm hcur)

theorem switchedIn_second {s u t : State} (h : DieSwitched 0 s u) (h' : DieSwitched 1 u t) : SwitchedIn 1 s t where
  die := h'.die.trans (congrArg FabDie.switched (h.others 1 (by decide)))
  armed := h'.armed
  current := by rw [h'.current, getF_of_outside h (by decide) (by decide)]
  words d off hoff harm hcur := (h'.words d off harm hcur).trans (h.outside (.inr (by
    have := (switchKey_range hoff).1
    unfold fabBase at *
    omega)) d)

/-- With tags kept, both dies make the switch. -/
theorem bothSwitch {s : State} (htag : getF (fabBase 0) R.FAB_EPOCH_TAG_APPLY s = 0) (htag' : getF (fabBase 1) R.FAB_EPOCH_TAG_APPLY s = 0) :
    (∀ fd, fd < 2 → SwitchedIn fd s (dieSwitch 1 (dieSwitch 0 s))) ∧ (∃ c f, dieSwitch 1 (dieSwitch 0 s) = { s with csr := c, fab := f }) ∧
      ∀ d off, off < 0x400000 → csrGet d off (dieSwitch 1 (dieSwitch 0 s)) = csrGet d off s := by
  have h := dieSwitch_spec htag
  generalize dieSwitch 0 s = u at *
  have h' := dieSwitch_spec ((getF_of_outside h (g := 1) (by decide) (by decide)).trans htag')
  generalize dieSwitch 1 u = t at *
  refine ⟨fun fd hfd => ?_, ?_, fun d off hoff => (h'.outside (.inl (by unfold fabBase; omega)) d).trans (h.outside (.inl (by unfold fabBase; omega)) d)⟩
  · obtain rfl | rfl : fd = 0 ∨ fd = 1 := by omega
    · exact switchedIn_first h h'
    · exact switchedIn_second h h'
  · obtain ⟨c, f, hu⟩ := h.frame
    obtain ⟨c', f', ht⟩ := h'.frame
    exact ⟨c', f', by rw [ht, hu]⟩

/-- A switch reads the same of every port. -/
theorem portView_of_switched {p : Nat} {s t : State} (h : SwitchedIn (portDie p) s t) (hlinks : t.links = s.links) : portView p t = portView p s := by
  have hbase : ∃ x, portBase p = fabBase (portDie p) + x ∧ 0x10000 ≤ x ∧ x < 0x1FF00 := by
    unfold portBase portDie
    split
    · exact ⟨0x10000 + 0x100 * (p % 9), by omega, by omega, by omega⟩
    · exact ⟨0x11000 + 0x100 * ((p - 18) % 2), by omega, by omega, by omega⟩
  obtain ⟨x, hx, hlo, hhi⟩ := hbase
  have hfield : ∀ f : Fld, f.off < 0x100 → getF (portBase p) f t = getF (portBase p) f s := fun f hf => getF_of_word (by
    have harm : R.FAB_STATUS_ARMED.off = 0x8 := rfl
    have hcur : R.FAB_EPOCH_CURRENT.off = 0x20 := rfl
    rw [hx, Nat.add_assoc, h.words _ _ (by omega) (by omega) (by omega), switchKey_below (by omega)])
  rw [portView, portView, portState, portState, hfield _ (by decide), hfield _ (by decide), effF_of_fields (hfield _ (by decide)) (hfield _ (by decide)),
    getLink, getLink, hlinks]

theorem not_admissionWord {fd x : Nat} (hx : x < 0x10000 ∧ x ≠ 8 ∨ 0x20000 ≤ x ∧ x < 0x100000) : ¬ admissionWord (fabBase fd + x) := by
  rintro (⟨p, hp, hword | hword⟩ | ⟨st, hst, hword⟩)
  · have hoff : R.PORT_STATUS_STATE.off = 8 := rfl
    unfold portBase fabBase at hword
    split at hword <;> omega
  · have hoff : R.FAB_STATUS_PORTS_ACTIVE.off = 8 := rfl
    unfold fabBase at hword
    omega
  · have hoff : R.MEM_STATUS_OOS_COUNT.off = 8 := rfl
    unfold fabBase stackBase at hword
    omega

/-- What a switch of both dies leaves of the state outside the dies and the units admitted. -/
structure SwitchMade (s t : State) : Prop where
  dies : ∀ fd, fd < 2 → getFab fd t = (getFab fd s).switched
  armed : ∀ fd, fd < 2 → getF (fabBase fd) R.FAB_STATUS_ARMED t = 0
  current : ∀ fd, fd < 2 → getF (fabBase fd) R.FAB_EPOCH_CURRENT t = (getF (fabBase fd) R.FAB_EPOCH_CURRENT s + 1) % 4
  words : ∀ fd x, fd < 2 → x < 0x10000 ∧ x ≠ 8 ∧ x ≠ 0x20 ∨ 0x20000 ≤ x ∧ x < 0x100000 →
    ∀ d, csrGet d (fabBase fd + x) t = csrGet d (switchKey fd (fabBase fd + x)) s
  units : UnitsAdmitted s t
  frame : ∃ c f l ch, t = { s with csr := c, fab := f, links := l, chans := ch }

/-- Both dies switch, then the units ready are admitted. -/
theorem switchMade {s : State} (htag : getF (fabBase 0) R.FAB_EPOCH_TAG_APPLY s = 0) (htag' : getF (fabBase 1) R.FAB_EPOCH_TAG_APPLY s = 0) :
    SwitchMade s (admitPorts (admitChannels (dieSwitch 1 (dieSwitch 0 s)))) := by
  obtain ⟨hdies, ⟨c, f, hframe⟩, -⟩ := bothSwitch htag htag'
  generalize dieSwitch 1 (dieSwitch 0 s) = u at *
  obtain ⟨⟨c', l, ch, hframe'⟩, hwords, harmed⟩ := admissionOnly_admit u
  have hunits : UnitsAdmitted s (admitPorts (admitChannels u)) :=
    unitsAdmitted_admit (fun p hp => portView_of_switched (hdies _ (portDie_lt hp)) (by rw [hframe])) (by rw [hframe])
  generalize admitPorts (admitChannels u) = t at *
  refine ⟨fun fd hfd => ?_, fun fd hfd => (harmed fd hfd).trans (hdies fd hfd).armed, fun fd hfd => ?_, fun fd x hfd hx d => ?_, hunits,
    c', f, l, ch, by rw [hframe', hframe]⟩
  · rw [← (hdies fd hfd).die, hframe']
    rfl
  · rw [← (hdies fd hfd).current]
    exact getF_of_word (hwords _ _ (not_admissionWord (by decide)))
  · have harm : R.FAB_STATUS_ARMED.off = 0x8 := rfl
    have hcur : R.FAB_EPOCH_CURRENT.off = 0x20 := rfl
    exact (hwords d _ (not_admissionWord (by omega))).trans ((hdies fd hfd).words d _ (by omega) (by omega) (by omega))

section
variable {fd : Nat} {s t : State} (h : SwitchMade s t) (hfd : fd < 2)
include h hfd

theorem SwitchMade.tabWord_eq {x : Nat} (hx : x < 0x10000) : tabWord fd x t = (csrGet 0 (switchKey fd (tabBase fd + x)) s).toNat := by
  have hword := h.words fd (0x20000 + x) hfd (by omega) 0
  rw [← Nat.add_assoc] at hword
  exact congrArg BitVec.toNat hword

/-- The active and the shadow slot table change places. -/
theorem SwitchMade.slots {i : Nat} (hi : i < 128) :
    tabWord fd (0x100 + 4 * i) t = tabWord fd (0x300 + 4 * i) s ∧ tabWord fd (0x300 + 4 * i) t = tabWord fd (0x100 + 4 * i) s := by
  rw [h.tabWord_eq hfd (by omega), h.tabWord_eq hfd (by omega)]
  have hactive : switchKey fd (tabBase fd + (0x100 + 4 * i)) = tabBase fd + (0x300 + 4 * i) := by
    unfold switchKey swapKey
    split_ifs <;> omega
  have hshadow : switchKey fd (tabBase fd + (0x300 + 4 * i)) = tabBase fd + (0x100 + 4 * i) := by
    unfold switchKey swapKey
    split_ifs <;> omega
  rw [hactive, hshadow]
  exact ⟨rfl, rfl⟩

/-- The active and the shadow member map change places. -/
theorem SwitchMade.members {i : Nat} (hi : i < 1024) :
    tabWord fd (0x1000 + 4 * i) t = tabWord fd (0x2000 + 4 * i) s ∧ tabWord fd (0x2000 + 4 * i) t = tabWord fd (0x1000 + 4 * i) s := by
  rw [h.tabWord_eq hfd (by omega), h.tabWord_eq hfd (by omega)]
  have hactive : switchKey fd (tabBase fd + (0x1000 + 4 * i)) = tabBase fd + (0x2000 + 4 * i) := by
    unfold switchKey swapKey
    split_ifs <;> omega
  have hshadow : switchKey fd (tabBase fd + (0x2000 + 4 * i)) = tabBase fd + (0x1000 + 4 * i) := by
    unfold switchKey swapKey
    split_ifs <;> omega
  rw [hactive, hshadow]
  exact ⟨rfl, rfl⟩

theorem SwitchMade.jobTag : getF (fabBase fd) R.FAB_JOB_TAG t = getF (fabBase fd) R.FAB_JOB_TAG s := by
  have hoff : R.FAB_JOB_TAG.off = 0x18 := rfl
  refine getF_of_word ((h.words fd _ hfd (by omega) _).trans ?_)
  rw [switchKey_below (by omega)]

end

/-! ### The commands of epochs -/

/-- Setting or clearing ARMED with the die's sampled count changes nothing else. -/
theorem armed_spec (fd v : Nat) (hv : v < 2) (x : FabDie) (s : State) : let t := setF (fabBase fd) R.FAB_STATUS_ARMED v (setFab fd x s)
    getFab fd t = x ∧ getF (fabBase fd) R.FAB_STATUS_ARMED t = v ∧ (∀ e, e ≠ fd → getFab e t = getFab e s) ∧
      RegsKeptBut (regAt (fabBase fd) [R.FAB_STATUS_ARMED]) s t ∧ { t with fab := s.fab, csr := s.csr } = s := by
  have hfield := getF_setF (fabBase fd) v R.FAB_STATUS_ARMED (setFab fd x s) (by decide)
  obtain ⟨c, hc, hwords⟩ := onlyWords_setF (fabBase fd) R.FAB_STATUS_ARMED v (setFab fd x s)
  dsimp only
  generalize setF (fabBase fd) R.FAB_STATUS_ARMED v (setFab fd x s) = t at *
  have hfab : ∀ e, getFab e t = getFab e (setFab fd x s) := fun e => by
    rw [hc]
    rfl
  refine ⟨?_, hfield.trans (Nat.mod_eq_of_lt hv), fun e he => ?_, fun d off hoff _ => hwords d off fun h => hoff ⟨_, List.mem_singleton_self _, h⟩, ?_⟩
  · rw [hfab, getFab_setFab, if_pos rfl]
  · rw [hfab, getFab_setFab, if_neg he]
  · rw [hc]
    rfl

theorem getLink_epochMark (p q : Nat) (s : State) :
    getLink q (epochMark p s) = if q = p then { getLink p s with marked := true, farActive := true } else getLink q s := by
  rw [epochMark, portFar, getLink_setLink, getLink_setLink, getLink_setLink, if_pos rfl]
  split <;> rfl

theorem epochMark_frame (p : Nat) (s : State) : ∃ l, epochMark p s = { s with links := l } := ⟨_, rfl⟩

/-- A die armed with a count that has come is due once its grace period is over. -/
theorem dieDue_of_armed {fd : Nat} {s : State} {a : DWord} (ha : (getFab fd s).armedAt = some a) (hcount : a ≤ s.count) (hgrace : (getFab fd s).grace = false) :
    dieDue fd s = true := by
  rw [dieDue, ha]
  simpa [hgrace] using hcount

/-- Outside an ADMIT a switch ends no command. -/
theorem admitCheck_of_idle {s : State} (hidle : cmdBusy s = false) : admitCheck s = s := if_neg (by simp [hidle])

theorem cmdBusy_of_below {s t : State} (h : ∀ d off, off < 0x400000 → csrGet d off t = csrGet d off s) : cmdBusy t = cmdBusy s := by
  rw [cmdBusy, cmdBusy, getF_of_word (h _ _ (by decide))]

/-- An armed switch outside a job: both dies switch, and the units ready are admitted. -/
theorem epochSwitch_of_due {s : State} (hpkg : s.pkg ≠ .running) (hidle : cmdBusy s = false) (hdue : switchDue s = true)
    (htag : getF (fabBase 0) R.FAB_EPOCH_TAG_APPLY s = 0) (htag' : getF (fabBase 1) R.FAB_EPOCH_TAG_APPLY s = 0) :
    epochSwitch false s = admitPorts (admitChannels (dieSwitch 1 (dieSwitch 0 s))) := by
  obtain ⟨-, -, hbelow⟩ := bothSwitch htag htag'
  have hcheck := admitCheck_of_idle ((cmdBusy_of_below hbelow).trans hidle)
  have hgo : (false || (switchDue s && decide (s.pkg ≠ .running))) = true := by simp [hdue, hpkg]
  rw [epochSwitch]
  rw [if_pos hgo, if_pos hdue, hcheck]

/-- A step commit with no switch due admits the units ready. -/
theorem epochSwitch_of_commit {s : State} (hdue : switchDue s = false) : epochSwitch true s = admitPorts (admitChannels s) := by
  rw [epochSwitch]
  rw [if_pos (by simp), if_neg (by simp [hdue])]

theorem switchDue_of_unarmed {s : State} (h : (getFab 0 s).armedAt = none) : switchDue s = false := by
  rw [switchDue, dieDue, h]
  rfl

/-- Settles O40: an armed switch is both dies' switch followed by the admissions, and an unarmed one the admissions alone. -/
theorem epochsSwitchAndAdmit : Obligations.EpochsSwitchAndAdmit := by
  intro fd p s
  refine ⟨?_, ?_, ?_, ?_, fun hrunning => ?_, fun hpkg hidle htag htag' hdue => ?_, fun hidle hnone hnone' => ?_⟩
  · exact ⟨_, rfl, armed_spec fd 1 (by decide) _ s⟩
  · exact ⟨_, rfl, armed_spec fd 0 (by decide) _ s⟩
  · refine ⟨_, rfl, ?_, fun e he => ?_, rfl⟩
    · rw [graceEnd, getFab_setFab, if_pos rfl]
    · rw [graceEnd, getFab_setFab, if_neg he]
  · refine ⟨_, rfl, ?_, fun q hq => ?_, ?_⟩
    · rw [getLink_epochMark, if_pos rfl]
    · rw [getLink_epochMark, if_neg hq]
    · obtain ⟨l, hmark⟩ := epochMark_frame p s
      rw [hmark]
  · refine congrArg Host.Outcome.next (if_neg ?_)
    simp [hrunning]
  · have hdies : ∀ e : Fin 2, dieDue e s = true := fun e => by
      obtain ⟨hgrace, a, ha, hcount⟩ := hdue e
      exact dieDue_of_armed ha hcount hgrace
    have hall : switchDue s = true := (Bool.and_eq_true _ _).mpr ⟨hdies 0, hdies 1⟩
    have hrun := epochSwitch_of_due (by rcases hpkg with h | h <;> simp [h]) hidle hall htag htag'
    have hmade := switchMade htag htag'
    rw [← hrun] at hmade
    refine ⟨epochSwitch false s, rfl, hmade.dies fd fd.isLt, hmade.armed fd fd.isLt, hmade.current fd fd.isLt, fun i hi => hmade.slots fd.isLt hi,
      fun n hn => hmade.members fd.isLt (by omega), hmade.jobTag fd.isLt, hmade.units, ?_⟩
    obtain ⟨c, f, l, ch, hframe⟩ := hmade.frame
    rw [hframe]
    exact ⟨rfl, rfl, rfl, rfl, rfl, rfl, rfl⟩
  · have hrun := epochSwitch_of_commit (switchDue_of_unarmed hnone)
    obtain ⟨⟨c, l, ch, hframe⟩, -, -⟩ := admissionOnly_admit s
    have hunits := unitsAdmitted_admit (s := s) (u := s) (fun _ _ => rfl) rfl
    rw [← hrun] at hframe hunits
    refine ⟨epochSwitch true s, rfl, hunits, ?_⟩
    rw [hframe]
    exact ⟨rfl, rfl, rfl, rfl, rfl, rfl, rfl⟩

end Sys2Proof.Machine
end

section
/-! PROOFS. Ports: self-test, admission, enabling, training and a missing peer (R261, R275, R277 to R279, R479). -/

namespace Sys2Proof.Machine

open Sys2Proof.Claims

/-! ### Fields of one port -/

theorem portBase_above (p : Nat) : fabBase (portDie p) + 0x10000 ≤ portBase p := by
  unfold portBase portDie
  split <;> omega

/-- A change of STATE keeps the port's other fields, wherever they stand. -/
theorem fieldsOnly_setPort (p st : Nat) (s : State) : FieldsOnly (portBase p) [R.PORT_STATUS_STATE] s (setPort p st s) := by
  obtain ⟨c, hc, -⟩ := onlyWords_setPort p st s
  refine ⟨⟨c, s.totals, hc⟩, fun f hclear hfit => ?_⟩
  have hoff : R.FAB_STATUS_PORTS_ACTIVE.off = 8 := rfl
  have habove := portBase_above p
  rw [setPort, getF_setF_other _ _ _ _ _ _ (by omega)]
  exact ((FieldsOnly.refl _ _ s).setF (List.mem_singleton_self _) st).2 f hclear hfit

theorem onlyRegs_setPort {touched : Nat → Prop} {s t : State} (h : OnlyRegs touched s t) {p : Nat} (hp : ∀ off, portWords p off → touched off) (st : Nat) :
    OnlyRegs touched s (setPort p st t) := onlyRegs_trans h ((onlyWords_setPort p st t).mono hp).onlyRegs

/-- A field of STATE's word is set, then STATE: the words of a change of state. -/
theorem onlyRegs_statusSet {p : Nat} {f : Fld} (hf : f.off = R.PORT_STATUS_STATE.off) (v st : Nat) (s : State) :
    OnlyRegs (portWords p) s (setPort p st (setF (portBase p) f v s)) :=
  onlyRegs_setPort ((OnlyRegs.refl _ s).setF (.inl (by rw [hf])) v) (fun _ => id) st

theorem inJob_setF (base : Nat) (f : Fld) (v : Nat) (s : State) : inJob (setF base f v s) = inJob s := rfl

theorem portState_setPort_self {p : Nat} (hp : p < 22) (st : Nat) (s : State) : portState p (setPort p st s) = st % 2 ^ 3 :=
  (portState_setPort hp hp st s).trans (if_pos rfl)

/-- A field beside STATE keeps what it was set to. -/
theorem getF_setPort_setF {p st v : Nat} {f : Fld} (hclear : FieldsClear R.PORT_STATUS_STATE f) (hfit : f.lo + f.w ≤ 32) (hv : v < 2 ^ f.w) (s : State) :
    getF (portBase p) f (setPort p st (setF (portBase p) f v s)) = v := by
  rw [(fieldsOnly_setPort ..).2 f hfit (by simpa using hclear), getF_setF _ _ _ _ hfit]
  exact Nat.mod_eq_of_lt hv

section
variable (p : Fin 22) (s : State)

/-! ### Self-test and admission (R277) -/

theorem portSelftest_spec (hst : portState p s = 4) : ∃ t, Runs (.portSelftest p) s t ∧ portState p t = 7 ∧
    getF (portBase p) R.PORT_STATUS_SELFTEST_PASS t = 0 ∧ OnlyRegs (portWords p) s t :=
  ⟨setPort p 7 (setF (portBase p) R.PORT_STATUS_SELFTEST_PASS 0 s), congrArg Host.Outcome.next (by rw [portSelftest, if_pos hst]),
    portState_setPort_self p.isLt 7 _, getF_setPort_setF (by decide) (by decide) (by decide) s, onlyRegs_statusSet (f := R.PORT_STATUS_SELFTEST_PASS) rfl 0 7 s⟩

theorem portSelftest_ignored (hst : portState p s ≠ 4) : Runs (.portSelftest p) s s := congrArg Host.Outcome.next (if_neg hst)

theorem portSelftestDone_spec (pass : Bool) (hst : portState p s = 7) : ∃ t, Runs (.portSelftestDone p pass) s t ∧
    getF (portBase p) R.PORT_STATUS_SELFTEST_PASS t = b2n pass ∧ portState p t = (if pass = true ∧ inJob s = false then 5 else 4) ∧
    OnlyRegs (portWords p) s t := by
  refine ⟨setPort p (if pass && !inJob s then 5 else 4) (setF (portBase p) R.PORT_STATUS_SELFTEST_PASS (b2n pass) s), congrArg Host.Outcome.next ?_,
    getF_setPort_setF (by decide) (by decide) (by cases pass <;> decide) s, ?_, onlyRegs_statusSet (f := R.PORT_STATUS_SELFTEST_PASS) rfl _ _ s⟩
  · rw [portSelftestDone, if_pos hst]
    dsimp only
    rw [inJob_setF]
  · rw [portState_setPort_self p.isLt]
    cases pass <;> cases inJob s <;> rfl

theorem portAdmit_outside (hst : portState p s = 4) (hpass : getF (portBase p) R.PORT_STATUS_SELFTEST_PASS s = 1) (hjob : inJob s = false) :
    ∃ t, Runs (.portAdmit p) s t ∧ portState p t = 5 ∧ OnlyRegs (portWords p) s t := by
  refine ⟨setPort p 5 s, congrArg Host.Outcome.next ?_, portState_setPort_self p.isLt 5 s, onlyRegs_setPort (.refl _ s) (fun _ => id) 5⟩
  rw [portAdmit, if_pos ⟨hst, hpass⟩, if_neg (by simp [hjob])]

theorem portAdmit_inside (hst : portState p s = 4) (hpass : getF (portBase p) R.PORT_STATUS_SELFTEST_PASS s = 1) (hjob : inJob s = true) :
    ∃ t, Runs (.portAdmit p) s t ∧ getLink p t = { getLink p s with admitReq := true } ∧ { t with links := s.links } = s := by
  refine ⟨setLink p { getLink p s with admitReq := true } s, congrArg Host.Outcome.next ?_, ?_, rfl⟩
  · rw [portAdmit, if_pos ⟨hst, hpass⟩, if_pos hjob]
  · rw [getLink_setLink, if_pos rfl]

theorem portAdmit_refused (h : ¬ (portState p s = 4 ∧ getF (portBase p) R.PORT_STATUS_SELFTEST_PASS s = 1)) :
    ∃ t, Runs (.portAdmit p) s t ∧ Logged (srcPort p) 0x33 1 s t ∧ OnlyLogged s t :=
  ⟨_, congrArg Host.Outcome.next (if_neg h), logged_raise _ _ _ _ _ _, onlyLogged_raise ..⟩

/-! ### Enabling and training (R275, R278, R479) -/

theorem canTrain_setF (v : Nat) : canTrain p (setF (portBase p) R.PORT_CTRL_ENABLE v s) = canTrain p s := by
  have hport := le_portBase p
  rw [canTrain, canTrain, getF_setF_other _ _ _ _ _ _ (by
    have hpkg : pkgBase + R.PKG_INPUTS_SLOT_OK.off < 0x400000 := by decide
    omega)]

/-- The words of a port's state and of its control register. -/
def enableWords (p : Nat) (off : Nat) : Prop := portWords p off ∨ off = portBase p + R.PORT_CTRL_ENABLE.off

theorem portEnable_spec : ∃ t, Runs (.portEnable p) s t ∧ getF (portBase p) R.PORT_CTRL_ENABLE t = 1 ∧
    portState p t = (if portState p s = 0 ∧ canTrain p s = true then 2 else portState p s) ∧ OnlyRegs (enableWords p) s t := by
  have hset := getF_setF (portBase p) 1 R.PORT_CTRL_ENABLE s (by decide)
  have hstate : portState p (setF (portBase p) R.PORT_CTRL_ENABLE 1 s) = portState p s := getF_setF_apart _ _ _ (by decide)
  have htrain := canTrain_setF p s 1
  have honly : OnlyRegs (enableWords p) s (setF (portBase p) R.PORT_CTRL_ENABLE 1 s) := (OnlyRegs.refl _ s).setF (.inr rfl) 1
  refine ⟨portEnable p s, rfl, ?_⟩
  rw [portEnable]
  generalize setF (portBase p) R.PORT_CTRL_ENABLE 1 s = u at *
  rw [hstate, htrain]
  split
  · exact ⟨((fieldsOnly_setPort p 2 u).2 _ (by decide) (by decide)).trans hset, portState_setPort_self p.isLt 2 u, onlyRegs_setPort honly (fun _ => .inl) 2⟩
  · exact ⟨hset, hstate, honly⟩

/-- What training shows of the lanes, before the state changes. -/
def lanesShown (p lanes : Nat) (s : State) : State :=
  setF (portBase p) R.PORT_PEER_VALID 0 (setF (portBase p) R.PORT_STATUS_CHECK 0 (setF (portBase p) R.PORT_STATUS_LANES_UP lanes s))

/-- The words of a port's state and of its peer's mark. -/
def trainedWords (p : Nat) (off : Nat) : Prop := portWords p off ∨ off = portBase p + R.PORT_PEER_VALID.off

theorem lanesShown_spec (lanes : Fin 9) : getF (portBase p) R.PORT_STATUS_LANES_UP (lanesShown p lanes s) = lanes ∧
    getF (portBase p) R.PORT_PEER_VALID (lanesShown p lanes s) = 0 ∧ OnlyRegs (trainedWords p) s (lanesShown p lanes s) := by
  refine ⟨?_, getF_setF _ _ _ _ (by decide), (((OnlyRegs.refl _ s).setF (.inl (.inl rfl)) _).setF (.inl (.inl rfl)) 0).setF (.inr rfl) 0⟩
  rw [lanesShown, getF_setF_apart _ _ _ (by decide), getF_setF_beside _ _ _ (by decide) (by decide), getF_setF _ _ _ _ (by decide)]
  exact Nat.mod_eq_of_lt (lt_of_lt_of_le lanes.isLt (by decide))

/-- The identity a port sends names this package and the port. -/
theorem pkgNum_of_onlyRegs {touched : Nat → Prop} {s t : State} (h : OnlyRegs touched s t) (hself : ¬ touched (fabBase 0 + R.FAB_SELF_SLOT.off)) :
    pkgNum t = pkgNum s := by
  have hword : ∀ d, csrGet d (fabBase 0 + R.FAB_SELF_SLOT.off) t = csrGet d (fabBase 0 + R.FAB_SELF_SLOT.off) s := fun d => h.1 d _ hself fab_ne_lostAt
  rw [pkgNum, pkgNum, getF_of_word (hword _), getF_of_word (f := R.FAB_SELF_CARAVAN) (hword _)]

theorem not_trainedWords_self : ¬ trainedWords p (fabBase 0 + R.FAB_SELF_SLOT.off) := by
  have hslot : R.FAB_SELF_SLOT.off = 0x10 := rfl
  have hstate : R.PORT_STATUS_STATE.off = 8 := rfl
  have hactive : R.FAB_STATUS_PORTS_ACTIVE.off = 8 := rfl
  have hport := le_portBase p
  rintro ((h | h) | h) <;> unfold fabBase at h <;> omega

theorem portTrained_eq (lanes : Fin 9) (hst : portState p s = 1 ∨ portState p s = 2) (hon : getF (portBase p) R.PORT_CTRL_ENABLE s = 1) (hlanes : lanes ≠ 0) :
    portTrained p lanes s = if p.val < 18 then
      emit (.control "IDENTITY" p [Config.serial.toNat, pkgNum (lanesShown p lanes s), p]) (setPort p 3 (lanesShown p lanes s)) else setPort p 4 (lanesShown p lanes s) := by
  have htrains : portTraining p s = true := by rcases hst with h | h <;> simp [portTraining, h]
  have hsome : ¬ lanes.val = 0 := fun h => hlanes (Fin.ext h)
  rw [portTrained, if_pos ⟨htrains, hon⟩, if_neg hsome, lanesShown]

theorem portTrained_spec (lanes : Fin 9) (hst : portState p s = 1 ∨ portState p s = 2) (hon : getF (portBase p) R.PORT_CTRL_ENABLE s = 1) (hlanes : lanes ≠ 0) :
    ∃ t, Runs (.portTrained p lanes) s t ∧ getF (portBase p) R.PORT_STATUS_LANES_UP t = lanes.val ∧ portState p t = (if p.val < 18 then 3 else 4) ∧
      t.out = s.out ++ (if p.val < 18 then [.control "IDENTITY" p [Config.serial.toNat, pkgNum s, p]] else []) ∧
      getF (portBase p) R.PORT_PEER_VALID t = 0 ∧ OnlyRegs (trainedWords p) s { t with out := s.out } := by
  refine ⟨portTrained p lanes s, rfl, ?_⟩
  rw [portTrained_eq p s lanes hst hon hlanes]
  obtain ⟨hup, hvalid, honly⟩ := lanesShown_spec p s lanes
  have hout := honly.links_eq.2
  have hnum := pkgNum_of_onlyRegs honly (not_trainedWords_self p)
  generalize lanesShown p lanes s = u at *
  have hset := fun st => onlyRegs_setPort honly (fun _ => .inl) st
  have hkept := fun st => fieldsOnly_setPort p st u
  have hstate := fun st => portState_setPort_self p.isLt st u
  have hout' : ∀ st, (setPort p st u).out = s.out := fun st => (hset st).links_eq.2
  split
  · have hs := hset 3
    obtain ⟨-, hk⟩ := hkept 3
    have h3 := hstate 3
    have ho := hout' 3
    rw [hnum]
    generalize setPort p 3 u = w at *
    refine ⟨(hk _ (by decide) (by decide)).trans hup, h3, by rw [emit, ho], (hk _ (by decide) (by decide)).trans hvalid, ?_⟩
    rw [emit, ← ho]
    exact hs
  · have hs := hset 4
    obtain ⟨-, hk⟩ := hkept 4
    have h4 := hstate 4
    have ho := hout' 4
    generalize setPort p 4 u = w at *
    refine ⟨(hk _ (by decide) (by decide)).trans hup, h4, by rw [ho, List.append_nil], (hk _ (by decide) (by decide)).trans hvalid, ?_⟩
    rw [← ho]
    exact hs

end

end Sys2Proof.Machine
end

section
/-! PROOFS. Ports: the identity check of the cabling plan, where one port alone has a peer to check (R279). -/

namespace Sys2Proof.Machine

open Sys2Proof.Claims

/-- Port `q` waits in CHECK with an observed peer. -/
def Checking (q : Nat) (s : State) : Prop := portState q s = 3 ∧ (peerOf q s).isSome = true

/-- The step of `recheck`. -/
def recheckPort (s : State) (p : Nat) : State := if portState p s = 3 && (peerOf p s).isSome then portClass p s else s

theorem recheckPort_of_checking {p : Nat} {s : State} (h : Checking p s) : recheckPort s p = portClass p s := if_pos (by simp [h.1, h.2])

theorem recheckPort_of_not {p : Nat} {s : State} (h : ¬ Checking p s) : recheckPort s p = s := if_neg (by simpa [Checking] using h)

theorem foldl_idle {step : State → Nat → State} {s : State} : ∀ l : List Nat, (∀ q ∈ l, step s q = s) → l.foldl step s = s
  | [], _ => rfl
  | q :: l, h => by
    obtain ⟨hq, hl⟩ := List.forall_mem_cons.1 h
    rw [List.foldl_cons, hq, foldl_idle l hl]

/-- A fold in which one unit alone acts, and only once. -/
theorem foldl_once {step : State → Nat → State} {p : Nat} {s t : State} (hself : step s p = t) : ∀ l : List Nat, l.Nodup → p ∈ l →
    (∀ q ∈ l, q ≠ p → step s q = s) → (∀ q ∈ l, q ≠ p → step t q = t) → l.foldl step s = t
  | [], _, hp, _, _ => absurd hp List.not_mem_nil
  | q :: l, hnd, hp, hs, ht => by
    obtain ⟨hnot, hnd⟩ := List.nodup_cons.1 hnd
    obtain ⟨hsq, hs⟩ := List.forall_mem_cons.1 hs
    obtain ⟨-, ht⟩ := List.forall_mem_cons.1 ht
    rw [List.foldl_cons]
    by_cases hq : q = p
    · rw [hq, hself]
      exact foldl_idle l (fun r hr => ht r hr fun h => hnot (by rwa [hq, ← h]))
    · rw [hsq hq]
      exact foldl_once hself l hnd ((List.mem_cons.1 hp).resolve_left fun h => hq h.symm) hs ht

/-- Where no port checks, nothing happens. -/
theorem recheck_of_none {s : State} (h : ∀ q, q < 18 → ¬ Checking q s) : recheck s = s :=
  foldl_idle _ fun q hq => recheckPort_of_not (h q (List.mem_range.1 hq))

/-- Where one port alone checks, it is classified, if that leaves no port checking. -/
theorem recheck_of_one {p : Nat} {s : State} (hp : p < 18) (hself : Checking p s) (hothers : ∀ q, q < 18 → q ≠ p → ¬ Checking q s)
    (hafter : ∀ q, q < 18 → q ≠ p → ¬ Checking q (portClass p s)) : recheck s = portClass p s :=
  foldl_once (recheckPort_of_checking hself) _ List.nodup_range (List.mem_range.2 hp)
    (fun q hq hne => recheckPort_of_not (hothers q (List.mem_range.1 hq) hne)) fun q hq hne => recheckPort_of_not (hafter q (List.mem_range.1 hq) hne)

/-! ### What a port's check leaves of the other ports -/

/-- Ports other than `p` read as before. -/
def PortsApart (p : Nat) (s t : State) : Prop := ∀ q, q < 22 → q ≠ p → ∀ f : Fld, f.off < 0x100 → getF (portBase q) f t = getF (portBase q) f s

section
variable {p : Nat} (hp : p < 22) {s t : State} (h : PortsApart p s t)
include hp h

theorem portsApart_setF {f : Fld} (hf : f.off < 0x100) (v : Nat) : PortsApart p s (setF (portBase p) f v t) :=
  fun q hq hne _ hg => (getF_setF_other _ _ _ _ _ _ (portWord_ne hp hq hne hf hg)).trans (h q hq hne _ hg)

theorem portsApart_setPort (st : Nat) : PortsApart p s (setPort p st t) :=
  fun q hq hne _ hg => (getF_setPort_other hp hq hne hg t).trans (h q hq hne _ hg)

omit hp in
theorem portsApart_raise (src code sev arg0 arg1 : Nat) : PortsApart p s (raise src code sev arg0 arg1 t) :=
  fun q hq hne _ hg => (getF_of_word (csrGet_raise _ _ _ _ _ _ port_ne_lostAt)).trans (h q hq hne _ hg)

end

theorem PortsApart.refl (p : Nat) (s : State) : PortsApart p s s := fun _ _ _ _ _ => rfl

section
variable {p q : Nat} {s t : State} (h : PortsApart p s t) (hq : q < 18) (hne : q ≠ p)
include h hq hne

theorem PortsApart.portState_eq : portState q t = portState q s := h q (by omega) hne _ (by decide)

theorem PortsApart.peerOf_eq : peerOf q t = peerOf q s := by
  have hfield := h q (by omega) hne
  rw [peerOf, peerOf, hfield _ (by decide), hfield R.PORT_PEER_PACKAGE (by decide), hfield R.PORT_PEER_PORT (by decide)]

theorem PortsApart.portLooking_eq : portLooking q t = portLooking q s := by
  rw [portLooking, portLooking, h.portState_eq hq hne, h.peerOf_eq hq hne]

theorem PortsApart.checking_iff : Checking q t ↔ Checking q s := by
  rw [Checking, Checking, h.portState_eq hq hne, h.peerOf_eq hq hne]

end

/-- The cabling plan is as before. -/
theorem planOf_of_onlyRegs {p : Nat} {touched : Nat → Prop} {s t : State} (h : OnlyRegs touched s t)
    (hplan : ¬ touched (tabBase (portDie p) + 8 * (p % 9))) : planOf p t = planOf p s := by
  have hlost : tabBase (portDie p) + 8 * (p % 9) ≠ lostAt := by
    have hat : lostAt = 0x030010 := rfl
    unfold tabBase fabBase
    omega
  rw [planOf, planOf, tabWord, tabWord, h.1 0 _ hplan hlost]

/-- The words of one port and of its die's status. -/
def portBlock (p off : Nat) : Prop := (∃ x, x < 0x100 ∧ off = portBase p + x) ∨ off = fabBase (portDie p) + R.FAB_STATUS_PORTS_ACTIVE.off

theorem not_portBlock_plan {p : Nat} (hp : p < 18) : ¬ portBlock p (tabBase (portDie p) + 8 * (p % 9)) := by
  rintro (⟨x, hx, h⟩ | h)
  · rw [portBase, if_pos hp, portDie, if_pos hp, tabBase] at h
    omega
  · have hoff : R.FAB_STATUS_PORTS_ACTIVE.off = 8 := rfl
    unfold tabBase at h
    omega

/-! ### A peer that never trains (R279) -/

theorem portMissing_spec (p : Fin 22) (s : State) (hst : portState p s = 1 ∨ portState p s = 2) (hp : p.val < 18) (hplan : (planOf p s).2.2 = 1)
    (hnone : NoneChecking p s) : ∃ t, Runs (.portMissingTimeout p) s t ∧ getF (portBase p) R.PORT_STATUS_CHECK t = 5 ∧ portState p t = 6 ∧
      OnlyRegs (portWords p) s t := by
  refine ⟨setPort p 6 (setF (portBase p) R.PORT_STATUS_CHECK 5 s), congrArg Host.Outcome.next ?_, getF_setPort_setF (by decide) (by decide) (by decide) s,
    portState_setPort_self p.isLt 6 _, onlyRegs_statusSet (f := R.PORT_STATUS_CHECK) rfl 5 6 s⟩
  have happart := portsApart_setPort p.isLt (portsApart_setF p.isLt (.refl p s) (f := R.PORT_STATUS_CHECK) (by decide) 5) 6
  have hstate := portState_setPort_self p.isLt 6 (setF (portBase p) R.PORT_STATUS_CHECK 5 s)
  rw [portMissing, if_pos ⟨hp, hst, hplan⟩]
  refine recheck_of_none fun q hq hcheck => ?_
  by_cases hne : q = p
  · rw [hne, Checking, hstate] at hcheck
    exact absurd hcheck.1 (by decide)
  · exact hnone q hq hne ((happart.checking_iff hq hne).1 hcheck)

/-! ### A peer observed (R279) -/

/-- The fields that show the peer. -/
def peerFields : List Fld := [R.PORT_PEER_SERIAL_LO_SERIAL, R.PORT_PEER_SERIAL_HI_SERIAL, R.PORT_PEER_VALID, R.PORT_PEER_PORT, R.PORT_PEER_PACKAGE]

/-- The observed peer is shown. -/
def peerShown (p serial pkg port : Nat) (s : State) : State :=
  setF (portBase p) R.PORT_PEER_PACKAGE pkg (setF (portBase p) R.PORT_PEER_PORT port (setF (portBase p) R.PORT_PEER_VALID 1
    (setPair (portBase p) R.PORT_PEER_SERIAL_LO_SERIAL R.PORT_PEER_SERIAL_HI_SERIAL serial s)))

theorem fieldsOnly_peerShown (p serial pkg port : Nat) (s : State) : FieldsOnly (portBase p) peerFields s (peerShown p serial pkg port s) :=
  (((((FieldsOnly.refl ..).setF (by simp [peerFields]) _).setF (by simp [peerFields]) _).setF (by simp [peerFields]) 1).setF (by simp [peerFields]) port).setF
    (by simp [peerFields]) pkg

theorem onlyRegs_peerShown (p serial pkg port : Nat) (s : State) : OnlyRegs (portBlock p) s (peerShown p serial pkg port s) :=
  (((((OnlyRegs.refl _ s).setF (.inl ⟨_, by decide, rfl⟩) _).setF (.inl ⟨_, by decide, rfl⟩) _).setF (.inl ⟨_, by decide, rfl⟩) 1).setF
    (.inl ⟨_, by decide, rfl⟩) port).setF (.inl ⟨_, by decide, rfl⟩) pkg

theorem portsApart_peerShown {p : Nat} (hp : p < 22) (serial pkg port : Nat) (s : State) : PortsApart p s (peerShown p serial pkg port s) :=
  portsApart_setF hp (portsApart_setF hp (portsApart_setF hp (portsApart_setF hp (portsApart_setF hp (.refl p s) (by decide) _) (by decide) _) (by decide) 1)
    (by decide) port) (by decide) pkg

theorem peerShown_spec (p : Nat) (serial : DWord) (pkg : BitVec 16) (port : BitVec 5) (s : State) :
    peerOf p (peerShown p serial.toNat pkg.toNat port.toNat s) = some (pkg.toNat, port.toNat) ∧
      getPair (portBase p) R.PORT_PEER_SERIAL_LO_SERIAL R.PORT_PEER_SERIAL_HI_SERIAL (peerShown p serial.toNat pkg.toNat port.toNat s) = serial.toNat := by
  constructor
  · have hvalid : getF (portBase p) R.PORT_PEER_VALID (peerShown p serial.toNat pkg.toNat port.toNat s) = 1 := by
      rw [peerShown, getF_setF_beside _ _ _ (by decide) (by decide), getF_setF_beside _ _ _ (by decide) (by decide), getF_setF _ _ _ _ (by decide)]
      rfl
    have hpackage : getF (portBase p) R.PORT_PEER_PACKAGE (peerShown p serial.toNat pkg.toNat port.toNat s) = pkg.toNat := by
      rw [peerShown, getF_setF _ _ _ _ (by decide)]
      exact Nat.mod_eq_of_lt pkg.isLt
    have hport : getF (portBase p) R.PORT_PEER_PORT (peerShown p serial.toNat pkg.toNat port.toNat s) = port.toNat := by
      rw [peerShown, getF_setF_beside _ _ _ (by decide) (by decide), getF_setF _ _ _ _ (by decide)]
      exact Nat.mod_eq_of_lt port.isLt
    rw [peerOf, if_pos hvalid, hpackage, hport]
  · have hbeside : FieldsOnly (portBase p) [R.PORT_PEER_VALID, R.PORT_PEER_PORT, R.PORT_PEER_PACKAGE]
        (setPair (portBase p) R.PORT_PEER_SERIAL_LO_SERIAL R.PORT_PEER_SERIAL_HI_SERIAL serial.toNat s) (peerShown p serial.toNat pkg.toNat port.toNat s) :=
      (((FieldsOnly.refl ..).setF (by simp) 1).setF (by simp) port.toNat).setF (by simp) pkg.toNat
    rw [hbeside.getPair (by decide) (by decide) (by decide), getPair_setPair (by decide)]
    exact Nat.mod_eq_of_lt serial.isLt

/-- The result of a check, and the state it leads to. -/
def checkedAs (p c st : Nat) (s : State) : State := setPort p st (setF (portBase p) R.PORT_STATUS_CHECK c s)

theorem fieldsOnly_checkedAs (p c st : Nat) (s : State) :
    FieldsOnly (portBase p) ([R.PORT_STATUS_CHECK] ++ [R.PORT_STATUS_STATE]) s (checkedAs p c st s) :=
  ((FieldsOnly.refl ..).setF (List.mem_singleton_self _) c).trans (fieldsOnly_setPort ..)

theorem portsApart_checkedAs {p : Nat} (hp : p < 22) (c st : Nat) (s : State) : PortsApart p s (checkedAs p c st s) :=
  portsApart_setPort hp (portsApart_setF hp (.refl p s) (by decide) c) st

theorem peerOf_of_fields {p : Nat} {s t : State} {l : List Fld} (h : FieldsOnly (portBase p) l s t) (hclear : ∀ f ∈ l, FieldsClear f R.PORT_PEER_VALID ∧
    FieldsClear f R.PORT_PEER_PACKAGE ∧ FieldsClear f R.PORT_PEER_PORT) : peerOf p t = peerOf p s := by
  rw [peerOf, peerOf, h.2 R.PORT_PEER_VALID (by decide) fun f hf => (hclear f hf).1, h.2 R.PORT_PEER_PACKAGE (by decide) fun f hf => (hclear f hf).2.1,
    h.2 R.PORT_PEER_PORT (by decide) fun f hf => (hclear f hf).2.2]

section
variable {p : Nat} {s : State} (hplan : (planOf p s).2.2 = 1)
include hplan

/-- The planned peer is a match. -/
theorem portClass_match (hpeer : peerOf p s = some ((planOf p s).1, (planOf p s).2.1)) : portClass p s = checkedAs p 1 4 s := by
  rw [portClass]
  dsimp only
  rw [if_pos (.inr ⟨hplan, hpeer⟩), portChecked]
  exact congrArg (fun st => setPort p st _) (if_pos (by simp))

/-- Another peer, where no port can be the other half of a swap and none is taken on trust, is a mismatch. -/
theorem portClass_mismatch {peer : Nat × Nat} (hpeer : peerOf p s = some peer) (hother : peer ≠ ((planOf p s).1, (planOf p s).2.1))
    (halone : ∀ q, q < 18 → q ≠ p → peerOf q s = none ∧ portLooking q s = false) (hany : effF (portBase p) R.PORT_CTRL_ACCEPT_ANY R.PORT_CTRL_LEVEL s = 0) :
    portClass p s = raise (srcPort p) 0x54 1 0 0 (checkedAs p 2 6 s) := by
  have hswap : swapOf p s = none := by
    rw [swapOf, List.find?_eq_none]
    intro q hq
    by_cases hne : q = p
    · simp [hne]
    · simp [(halone q (List.mem_range.1 hq) hne).1]
  have hopen : swapOpen p s = false := by
    rw [swapOpen, List.any_eq_false]
    intro q hq
    by_cases hne : q = p
    · simp [hne]
    · simp [(halone q (List.mem_range.1 hq) hne).2]
  have hchecked : portChecked p 2 s = checkedAs p 2 6 s := by
    rw [portChecked]
    exact congrArg (fun st => setPort p st _) (if_neg (by simp [hplan, hany]))
  rw [portClass]
  dsimp only
  rw [if_neg (by simp [hplan, hpeer, hother]), if_neg (by simp [hplan]), hswap]
  dsimp only
  rw [if_neg (by simp [hopen]), hchecked]

end

section
variable (p : Fin 22) (serial : DWord) (pkg : BitVec 16) (port : BitVec 5) (s : State)

theorem portIdentity_eq (hst : portState p s = 3) (hp : p.val < 18) :
    portIdentity p serial pkg.toNat port.toNat s = recheck (peerShown p serial.toNat pkg.toNat port.toNat s) := by
  rw [portIdentity, if_neg (by omega), peerShown]

/-- With the peer shown the port alone is checked; nothing else that the check reads has changed. -/
theorem peerShown_checks (hst : portState p s = 3) (hp : p.val < 18) (hnone : NoneChecking p s) {u : State}
    (hu : peerShown p serial.toNat pkg.toNat port.toNat s = u) : Checking p u ∧ (∀ q, q < 18 → q ≠ p.val → ¬ Checking q u) ∧ planOf p u = planOf p s ∧
      effF (portBase p) R.PORT_CTRL_ACCEPT_ANY R.PORT_CTRL_LEVEL u = effF (portBase p) R.PORT_CTRL_ACCEPT_ANY R.PORT_CTRL_LEVEL s := by
  obtain ⟨hpeer, -⟩ := peerShown_spec p serial pkg port s
  obtain ⟨-, hfields⟩ := fieldsOnly_peerShown p serial.toNat pkg.toNat port.toNat s
  have honly := onlyRegs_peerShown p serial.toNat pkg.toNat port.toNat s
  have happart := portsApart_peerShown p.isLt serial.toNat pkg.toNat port.toNat s
  rw [hu] at hpeer hfields honly happart
  refine ⟨⟨(hfields R.PORT_STATUS_STATE (by decide) (by decide)).trans hst, by rw [hpeer]; rfl⟩, fun q hq hne hcheck =>
    hnone q hq hne ((happart.checking_iff hq hne).1 hcheck), planOf_of_onlyRegs honly (not_portBlock_plan hp),
    effF_of_fields (hfields _ (by decide) (by decide)) (hfields _ (by decide) (by decide))⟩

theorem portIdentity_match (hst : portState p s = 3) (hp : p.val < 18) (hplan : (planOf p s).2.2 = 1) (hnone : NoneChecking p s)
    (hpkg : (planOf p s).1 = pkg.toNat) (hport : (planOf p s).2.1 = port.toNat) :
    ∃ t, Runs (.portIdentity p serial pkg port) s t ∧ getF (portBase p) R.PORT_STATUS_CHECK t = 1 ∧ portState p t = 4 ∧
      peerOf p t = some (pkg.toNat, port.toNat) ∧ getPair (portBase p) R.PORT_PEER_SERIAL_LO_SERIAL R.PORT_PEER_SERIAL_HI_SERIAL t = serial.toNat := by
  have hrun := portIdentity_eq p serial pkg port s hst hp
  obtain ⟨hself, hothers, hplan', -⟩ := peerShown_checks p serial pkg port s hst hp hnone rfl
  obtain ⟨hpeer, hserial⟩ := peerShown_spec p serial pkg port s
  generalize peerShown p serial.toNat pkg.toNat port.toNat s = u at *
  have hclass : portClass p u = checkedAs p 1 4 u := portClass_match (by rw [hplan', hplan]) (by rw [hpeer, hplan', hpkg, hport])
  have happart := portsApart_checkedAs p.isLt 1 4 u
  rw [recheck_of_one hp hself hothers (by
    rw [hclass]
    exact fun q hq hne hcheck => hothers q hq hne ((happart.checking_iff hq hne).1 hcheck)), hclass] at hrun
  have hfields := fieldsOnly_checkedAs p 1 4 u
  refine ⟨checkedAs p 1 4 u, congrArg Host.Outcome.next hrun, getF_setPort_setF (by decide) (by decide) (by decide) u, portState_setPort_self p.isLt 4 _, ?_, ?_⟩
  · rw [peerOf_of_fields hfields (by decide), hpeer]
  · rw [hfields.getPair (by decide) (by decide) (by decide), hserial]

theorem portIdentity_mismatch (hst : portState p s = 3) (hp : p.val < 18) (hplan : (planOf p s).2.2 = 1) (hnone : NoneChecking p s)
    (hother : ¬ ((planOf p s).1 = pkg.toNat ∧ (planOf p s).2.1 = port.toNat)) (halone : ∀ q, q < 18 → q ≠ p.val → peerOf q s = none ∧ portLooking q s = false)
    (hany : effF (portBase p) R.PORT_CTRL_ACCEPT_ANY R.PORT_CTRL_LEVEL s = 0) :
    ∃ t, Runs (.portIdentity p serial pkg port) s t ∧ getF (portBase p) R.PORT_STATUS_CHECK t = 2 ∧ portState p t = 6 ∧
      peerOf p t = some (pkg.toNat, port.toNat) ∧ Logged (srcPort p) 0x54 1 s t := by
  have hrun := portIdentity_eq p serial pkg port s hst hp
  obtain ⟨hself, hothers, hplan', hany'⟩ := peerShown_checks p serial pkg port s hst hp hnone rfl
  obtain ⟨hpeer, -⟩ := peerShown_spec p serial pkg port s
  obtain ⟨⟨c, k, hframe⟩, -⟩ := fieldsOnly_peerShown p serial.toNat pkg.toNat port.toNat s
  have happart := portsApart_peerShown p.isLt serial.toNat pkg.toNat port.toNat s
  generalize peerShown p serial.toNat pkg.toNat port.toNat s = u at *
  have hclass : portClass p u = raise (srcPort p) 0x54 1 0 0 (checkedAs p 2 6 u) := by
    refine portClass_mismatch (by rw [hplan', hplan]) hpeer ?_ (fun q hq hne => ?_) (by rw [hany', hany])
    · rw [hplan']
      intro h
      exact hother ⟨(congrArg Prod.fst h).symm, (congrArg Prod.snd h).symm⟩
    · rw [happart.peerOf_eq hq hne, happart.portLooking_eq hq hne]
      exact halone q hq hne
  have hapart' := portsApart_raise (portsApart_checkedAs p.isLt 2 6 u) (srcPort p) 0x54 1 0 0
  rw [recheck_of_one hp hself hothers (by
    rw [hclass]
    exact fun q hq hne hcheck => hothers q hq hne ((hapart'.checking_iff hq hne).1 hcheck)), hclass] at hrun
  have hfields := fieldsOnly_checkedAs p 2 6 u
  have hcheck : getF (portBase p) R.PORT_STATUS_CHECK (checkedAs p 2 6 u) = 2 := getF_setPort_setF (by decide) (by decide) (by decide) u
  have hstate : portState p (checkedAs p 2 6 u) = 6 := portState_setPort_self p.isLt 6 _
  have hpeer' := (peerOf_of_fields hfields (by decide)).trans hpeer
  obtain ⟨⟨c', k', hframe'⟩, -⟩ := hfields
  generalize checkedAs p 2 6 u = v at *
  have hraise := fun f => getF_of_word (f := f) (base := portBase p) (csrGet_raise (s := v) (code := 0x54) (srcPort p) 1 0 0 port_ne_lostAt)
  refine ⟨raise (srcPort p) 0x54 1 0 0 v, congrArg Host.Outcome.next hrun, (hraise _).trans hcheck, (hraise _).trans hstate, ?_, ?_⟩
  · rw [← hpeer', peerOf, peerOf, hraise, hraise, hraise]
  · exact logged_of_same (logged_raise _ _ _ _ _ _) (by rw [hframe', hframe]) (by rw [hframe', hframe])

end

end Sys2Proof.Machine
end

section
/-! PROOFS. A port goes DOWN: what it shows, what the loss of a parent and the checks of other ports leave of it, and a message it had not delivered
(R261, R275, R279, R345, R348). -/

namespace Sys2Proof.Machine

open Sys2Proof.Claims

/-! ### What may follow without touching a port -/

/-- Port `p` reads as before and its link is as before; so are cores, engines and memories, and events only came. -/
structure PortHeld (p : Nat) (s t : State) : Prop where
  block : ∀ d x, x < 0x100 → csrGet d (portBase p + x) t = csrGet d (portBase p + x) s
  link : getLink p t = getLink p s
  queues : QueuesGrow s t
  blocks : SameBlocks s t
  memories : MemoriesKept s t

/-- The same, with nothing sent. -/
structure PortKept (p : Nat) (s t : State) : Prop extends PortHeld p s t where
  out : t.out = s.out

theorem PortHeld.trans {p : Nat} {s t u : State} (h : PortHeld p s t) (h' : PortHeld p t u) : PortHeld p s u where
  block d x hx := (h'.block d x hx).trans (h.block d x hx)
  link := h'.link.trans h.link
  queues := h.queues.trans h'.queues
  blocks := h.blocks.trans h'.blocks
  memories := h.memories.trans h'.memories

theorem PortKept.refl (p : Nat) (s : State) : PortKept p s s :=
  ⟨⟨fun _ _ _ => rfl, rfl, .of_eq rfl, .refl s, ⟨rfl, rfl, rfl, rfl, rfl⟩⟩, rfl⟩

theorem PortKept.trans {p : Nat} {s t u : State} (h : PortKept p s t) (h' : PortKept p t u) : PortKept p s u :=
  ⟨h.toPortHeld.trans h'.toPortHeld, h'.out.trans h.out⟩

theorem PortHeld.getF_eq {p : Nat} {s t : State} (h : PortHeld p s t) {f : Fld} (hf : f.off < 0x100) : getF (portBase p) f t = getF (portBase p) f s :=
  getF_of_word (h.block _ _ hf)

/-- Registers elsewhere and events do not touch a port. -/
theorem portKept_of_onlyRegs {p : Nat} {touched : Nat → Prop} {s t : State} (h : OnlyRegs touched s t) (hapart : ∀ x, x < 0x100 → ¬ touched (portBase p + x))
    (hqueues : QueuesGrow s t) : PortKept p s t where
  block d x hx := h.1 d _ (hapart x hx) port_ne_lostAt
  link := by rw [getLink, getLink, h.links_eq.1]
  queues := hqueues
  blocks := (restKept_of_onlyRegs h).sameBlocks
  memories := h.memoriesKept
  out := h.links_eq.2

theorem onlyRegs_count (base : Nat) (f : Fld) (n : Nat) (s : State) : OnlyRegs (fun off => off = base + f.off) s (bumpF base f n s) :=
  onlyRegs_trans (onlyWords_setF base f _ s).onlyRegs (onlyRegs_tally ..)

theorem portKept_raise (p src code sev arg0 arg1 : Nat) (s : State) : PortKept p s (raise src code sev arg0 arg1 s) :=
  portKept_of_onlyRegs (onlyLogged_raise ..) (fun _ _ => not_false) (queuesGrow_raise _ _ _ _ _ _)

theorem portKept_setF {p base : Nat} {f : Fld} (h : ∀ x, x < 0x100 → portBase p + x ≠ base + f.off) (v : Nat) (s : State) : PortKept p s (setF base f v s) :=
  portKept_of_onlyRegs (onlyWords_setF base f v s).onlyRegs h (.of_eq rfl)

theorem portKept_setPort {p q : Nat} (hp : p < 22) (hq : q < 22) (hne : p ≠ q) (st : Nat) (s : State) : PortKept p s (setPort q st s) := by
  obtain ⟨c, hc, hwords⟩ := onlyWords_setPort q st s
  refine portKept_of_onlyRegs (onlyWords_setPort q st s).onlyRegs (fun x hx h => ?_) (.of_eq (by rw [hc]))
  rcases h with h | h
  · exact portWord_ne hq hp hne (by decide) hx h
  · exact portWord_ne_fab hx (by decide) h

/-! ### The parent of the counter's synchronisation (R345, R348) -/

/-- Beside the synchronisation's own state and the words of the counter's block, only the Logbook changed. -/
structure SyncOnly (s t : State) : Prop where
  frame : ∃ c l k e y, t = { s with csr := c, log := l, totals := k, stepErr := e, sync := y }
  words : ∀ d off, 0x400000 ≤ off → csrGet d off t = csrGet d off s
  queues : QueuesGrow s t

theorem SyncOnly.refl (s : State) : SyncOnly s s := ⟨⟨_, _, _, _, _, rfl⟩, fun _ _ _ => rfl, .of_eq rfl⟩

theorem SyncOnly.trans {s t u : State} (h : SyncOnly s t) (h' : SyncOnly t u) : SyncOnly s u := by
  obtain ⟨⟨c, l, k, e, y, hframe⟩, hwords, hqueues⟩ := h
  obtain ⟨⟨c', l', k', e', y', hframe'⟩, hwords', hqueues'⟩ := h'
  exact ⟨⟨c', l', k', e', y', by rw [hframe', hframe]⟩, fun d off hoff => (hwords' d off hoff).trans (hwords d off hoff), hqueues.trans hqueues'⟩

theorem syncOnly_of_onlyRegs {touched : Nat → Prop} {s t : State} (h : OnlyRegs touched s t) (hbelow : ∀ off, 0x400000 ≤ off → ¬ touched off)
    (hqueues : QueuesGrow s t) : SyncOnly s t := by
  obtain ⟨c, l, k, e, hframe⟩ := restKept_of_onlyRegs h
  have hlost : lostAt < 0x400000 := by decide
  exact ⟨⟨c, l, k, e, s.sync, hframe⟩, fun d off hoff => h.1 d off (hbelow off hoff) (by omega), hqueues⟩

theorem syncOnly_sync (y : Sync) (s : State) : SyncOnly s { s with sync := y } := ⟨⟨s.csr, s.log, s.totals, s.stepErr, y, rfl⟩, fun _ _ _ => rfl, .of_eq rfl⟩

theorem syncOnly_setF {f : Fld} (hf : f.off < 0x1000) (v : Nat) (s : State) : SyncOnly s (setF gctBase f v s) := by
  refine syncOnly_of_onlyRegs (onlyWords_setF gctBase f v s).onlyRegs (fun off hoff h => ?_) (.of_eq rfl)
  unfold gctBase at h
  omega

theorem syncOnly_bumpF {f : Fld} (hf : f.off < 0x1000) (n : Nat) (s : State) : SyncOnly s (bumpF gctBase f n s) := by
  refine syncOnly_of_onlyRegs (onlyRegs_count gctBase f n s) (fun off hoff h => ?_) (.of_eq rfl)
  unfold gctBase at h
  omega

theorem syncOnly_setParent (q : Option Nat) (s : State) : SyncOnly s (setParent q s) := by
  unfold setParent
  dsimp only
  split
  · exact (syncOnly_sync _ s).trans ((syncOnly_setF (by decide) _ _).trans (syncOnly_setF (by decide) _ _))
  · exact (syncOnly_sync _ s).trans ((syncOnly_setF (by decide) _ _).trans (syncOnly_setF (by decide) _ _))

theorem syncOnly_parentLost (s : State) : SyncOnly s (parentLost s) := by
  unfold parentLost
  dsimp only
  generalize { s.sync with strata := sDel (parentPort s) s.sync.strata } = y
  refine SyncOnly.trans ((syncOnly_sync y s).trans (syncOnly_bumpF (f := R.GCT_STATUS_LOSS_COUNT) (by decide) 1 _)) ?_
  generalize bumpF gctBase R.GCT_STATUS_LOSS_COUNT 1 _ = u
  split
  · exact syncOnly_setParent ..
  · refine (syncOnly_sync { u.sync with good := 0 } u).trans ((syncOnly_setParent none _).trans ?_)
    generalize setParent none _ = v
    exact (syncOnly_setF (f := R.GCT_STATUS_STATE) (by decide) 3 v).trans ((syncOnly_setF (by decide) 1 _).trans
      (syncOnly_of_onlyRegs (onlyLogged_raise ..) (fun _ _ => not_false) (queuesGrow_raise _ _ _ _ _ _)))

theorem syncOnly_parentDown (p : Nat) (s : State) : SyncOnly s (parentDown p s) := by
  unfold parentDown
  split
  · exact syncOnly_parentLost s
  · split
    · exact syncOnly_sync _ s
    · exact .refl s

theorem SyncOnly.portKept {s t : State} (h : SyncOnly s t) (p : Nat) : PortKept p s t := by
  obtain ⟨⟨c, l, k, e, y, rfl⟩, hwords, hqueues⟩ := h
  have hport := le_portBase p
  exact ⟨⟨fun d x _ => hwords d _ (by omega), rfl, hqueues, ⟨rfl, rfl⟩, ⟨rfl, rfl, rfl, rfl, rfl⟩⟩, rfl⟩

end Sys2Proof.Machine
end

section
/-! PROOFS. A port goes DOWN: the checks of other ports, what the port shows, and the statement about the port commands (R261, R275 to R279, R479). -/

namespace Sys2Proof.Machine

open Sys2Proof.Claims

/-! ### The checks of other ports leave a port that is down (R279) -/

section
variable {p : Nat} (hp : p < 22)
include hp

theorem portKept_portChecked {q : Nat} (hq : q < 22) (hne : p ≠ q) (c : Nat) (s : State) : PortKept p s (portChecked q c s) := by
  unfold portChecked
  dsimp only
  exact (portKept_setF (fun x hx => portWord_ne hq hp hne (by decide) hx) c s).trans (portKept_setPort hp hq hne ..)

theorem portKept_portClass {q : Nat} (hq : q < 22) (hne : p ≠ q) {s : State} (hdown : portState p s < 3) : PortKept p s (portClass q s) := by
  have hset : ∀ r, r < 22 → p ≠ r → ∀ (v : Nat) (u : State), PortKept p u (setF (portBase r) R.PORT_STATUS_SWAP_PORT v u) := fun r hr hpr v u =>
    portKept_setF (fun x hx => portWord_ne hr hp hpr (by decide) hx) v u
  unfold portClass
  dsimp only
  split
  · exact portKept_portChecked hp hq hne 1 s
  split
  · exact portKept_portChecked hp hq hne 4 s
  split
  next r hr =>
    have hsel := List.find?_some hr
    simp only [Bool.and_eq_true, decide_eq_true_eq] at hsel
    have hpr : p ≠ r := fun h => by
      rw [← h] at hsel
      omega
    have hrange : r < 22 := lt_trans (List.mem_range.1 (List.mem_of_find?_eq_some hr)) (by decide)
    refine PortKept.trans ?_ (portKept_raise ..)
    refine PortKept.trans ?_ (portKept_portChecked hp hrange hpr 3 _)
    refine PortKept.trans ?_ (portKept_portChecked hp hq hne 3 _)
    exact (hset r hrange hpr q s).trans (hset q hq hne r _)
  · split
    · exact .refl p s
    · exact (portKept_portChecked hp hq hne 2 s).trans (portKept_raise ..)

theorem portKept_recheck {s : State} (hdown : portState p s < 3) : PortKept p s (recheck s) := by
  have hfold : ∀ (l : List Nat), (∀ q ∈ l, q < 18) → ∀ u, portState p u < 3 → PortKept p u (l.foldl recheckPort u) := by
    intro l
    induction l with
    | nil => exact fun _ u _ => .refl p u
    | cons q l ih =>
      intro hl u hu
      obtain ⟨hq, hl⟩ := List.forall_mem_cons.1 hl
      have hstep : PortKept p u (recheckPort u q) := by
        by_cases hcheck : Checking q u
        · rw [recheckPort_of_checking hcheck]
          refine portKept_portClass hp (by omega) (fun h => ?_) hu
          rw [h, hcheck.1] at hu
          exact absurd hu (by decide)
        · rw [recheckPort_of_not hcheck]
          exact .refl p u
      exact hstep.trans (ih hl _ (by rwa [portState, hstep.getF_eq (by decide)]))
  exact hfold _ (fun q hq => List.mem_range.1 hq) s hdown

end

/-! ### What a port that goes DOWN shows (R275) -/

/-- The fields that change when a port goes DOWN. -/
def downShown (p st : Nat) (s : State) : State :=
  setF (portBase p) R.PORT_STATUS_SELFTEST_PASS 0 (setF (portBase p) R.PORT_STATUS_LANES_UP 0 (setF (portBase p) R.PORT_STATUS_CHECK 0
    (setF (portBase p) R.PORT_STATUS_DOWN 1 (bumpF (portBase p) R.PORT_STATUS_DOWN_COUNT 1 (setPort p st s)))))

/-- The link of a port that went DOWN: cleared, but for the counts of its code words. -/
def Link.cleared (l : Link) : Link := { Link.init with fecOk := l.fecOk, fecBad := l.fecBad }

/-- The port is shown as down, its link cleared, and the loss recorded. -/
def downNoted (p : Nat) (s : State) : State :=
  raise (srcPort p) 0x52 1 0 0 (setLink p (getLink p s).cleared (downShown p (if getF (portBase p) R.PORT_CTRL_ENABLE s = 1 then 2 else 0) s))

/-- A body that waited on a port that went DOWN is sent again. -/
def resendBody (p : Nat) (s : State) (b : LinkMsg) : State :=
  match b with
  | .caravan m => resend p m s
  | .halter _ => s

theorem portDown_eq (p : Nat) (s : State) : portDown p s = if p < 18 then
    recheck (((getLink p s).replay.map (·.body) ++ (getLink p s).waiting).foldl (resendBody p) (parentDown p (downNoted p s)))
    else parentDown p (downNoted p s) := by
  unfold portDown downNoted downShown Link.cleared
  dsimp only
  generalize parentDown p _ = u
  rfl

theorem fieldsOnly_downTail (p : Nat) (s : State) : FieldsOnly (portBase p)
    [R.PORT_STATUS_CHECK, R.PORT_STATUS_LANES_UP, R.PORT_STATUS_SELFTEST_PASS] s
    (setF (portBase p) R.PORT_STATUS_SELFTEST_PASS 0 (setF (portBase p) R.PORT_STATUS_LANES_UP 0 (setF (portBase p) R.PORT_STATUS_CHECK 0 s))) :=
  (((FieldsOnly.refl ..).setF (by simp) 0).setF (by simp) 0).setF (by simp) 0

/-- The port's fields after it went DOWN; its other registers, and all other registers but its die's count, read as before. -/
theorem downShown_spec {p st : Nat} (hp : p < 22) (hst : st < 2 ^ 3) (s : State) :
    portState p (downShown p st s) = st ∧ getF (portBase p) R.PORT_STATUS_DOWN (downShown p st s) = 1 ∧
    Bumped (portBase p) R.PORT_STATUS_DOWN_COUNT s (downShown p st s) ∧ getF (portBase p) R.PORT_STATUS_LANES_UP (downShown p st s) = 0 ∧
    getF (portBase p) R.PORT_STATUS_CHECK (downShown p st s) = 0 ∧ getF (portBase p) R.PORT_STATUS_SELFTEST_PASS (downShown p st s) = 0 ∧
    OnlyRegs (portWords p) s (downShown p st s) := by
  have hfirst : OnlyRegs (portWords p) s (setPort p st s) := onlyRegs_setPort (.refl _ s) (fun _ => id) st
  have honly : OnlyRegs (portWords p) s (downShown p st s) := by
    unfold downShown
    refine OnlyRegs.setF (OnlyRegs.setF (OnlyRegs.setF (OnlyRegs.setF (OnlyRegs.bumpF hfirst ?_ 1) ?_ 1) ?_ 0) ?_ 0) ?_ 0 <;> exact .inl rfl
  have hstate := portState_setPort_self hp st s
  obtain ⟨-, hset⟩ := fieldsOnly_setPort p st s
  unfold downShown at *
  generalize setPort p st s = u at *
  obtain ⟨-, hbump⟩ := (FieldsOnly.refl (portBase p) [R.PORT_STATUS_DOWN_COUNT] u).bumpF (List.mem_singleton_self _) 1
  have hcount := bumped_bumpF (f := R.PORT_STATUS_DOWN_COUNT) (by decide) (portBase p) u
  generalize bumpF (portBase p) R.PORT_STATUS_DOWN_COUNT 1 u = v at *
  obtain ⟨-, hdown⟩ := (FieldsOnly.refl (portBase p) [R.PORT_STATUS_DOWN] v).setF (List.mem_singleton_self _) 1
  have hflag := getF_setF (portBase p) 1 R.PORT_STATUS_DOWN v (by decide)
  generalize setF (portBase p) R.PORT_STATUS_DOWN 1 v = w at *
  obtain ⟨-, htail⟩ := fieldsOnly_downTail p w
  refine ⟨?_, ?_, ?_, ?_, ?_, ?_, honly⟩
  · rw [portState, htail _ (by decide) (by decide), hdown _ (by decide) (by decide), hbump _ (by decide) (by decide), ← portState, hstate]
    exact Nat.mod_eq_of_lt hst
  · rw [htail _ (by decide) (by decide), hflag]
    rfl
  · exact bumped_between hcount (hset _ (by decide) (by decide)) ((htail _ (by decide) (by decide)).trans (hdown _ (by decide) (by decide)))
  · rw [getF_setF_beside _ _ _ (by decide) (by decide), getF_setF _ _ _ _ (by decide)]
    rfl
  · rw [getF_setF_beside _ _ _ (by decide) (by decide), getF_setF_beside _ _ _ (by decide) (by decide), getF_setF _ _ _ _ (by decide)]
    rfl
  · rw [getF_setF _ _ _ _ (by decide)]
    rfl

theorem regsOnly_downShown (p st : Nat) (s : State) : RegsOnly s (downShown p st s) :=
  ((((((fieldsOnly_setPort p st s).1.bumpF _ _ _).setF _ _ _).setF _ _ _).setF _ _ _).setF _ _ _)

/-- What may have happened before a port goes DOWN: nothing of it, and at most one event in its queue. -/
structure DownFrom (p : Nat) (s₀ s : State) : Prop where
  downs : getF (portBase p) R.PORT_STATUS_DOWN_COUNT s = getF (portBase p) R.PORT_STATUS_DOWN_COUNT s₀
  link : getLink p s = getLink p s₀
  blocks : SameBlocks s₀ s
  memories : MemoriesKept s₀ s
  time : s.count = s₀.count
  queue : (sGet [] s.log.queues (srcPort p)).length ≤ (sGet [] s₀.log.queues (srcPort p)).length + 1

theorem DownFrom.refl (p : Nat) (s : State) : DownFrom p s s := ⟨rfl, rfl, .refl s, ⟨rfl, rfl, rfl, rfl, rfl⟩, rfl, Nat.le_succ _⟩

/-- An event enters its queue where a place is free. -/
theorem entered_raise (src code sev arg0 arg1 : Nat) (s : State) (hfree : (sGet [] s.log.queues src).length < 4) :
    ∃ e ∈ sGet [] (raise src code sev arg0 arg1 s).log.queues src, e.code = code ∧ e.sev = sev ∧ e.src = src ∧ e.time = s.count := by
  rw [sGet_queues_raise, if_pos ⟨rfl, hfree⟩]
  exact ⟨_, List.mem_append_right _ (List.mem_singleton_self _), rfl, rfl, rfl, rfl⟩

theorem getLink_of_restKept {s t : State} (h : RestKept s t) (q : Nat) : getLink q t = getLink q s := by
  obtain ⟨c, l, k, e, rfl⟩ := h
  rfl

theorem csrGet_setLink (d off p : Nat) (x : Link) (s : State) : csrGet d off (setLink p x s) = csrGet d off s := rfl

/-- A port that went DOWN, and is then left alone, shows it. -/
theorem wentDown_of_kept {p : Nat} (hp : p < 22) {s₀ s t : State} (hfrom : DownFrom p s₀ s) (hlater : PortHeld p (downNoted p s) t) :
    WentDown p s₀ t ∧ (∀ f : Fld, f.off < 0x100 → f.off ≠ R.PORT_STATUS_STATE.off → getF (portBase p) f t = getF (portBase p) f s) ∧ QueuesGrow s t := by
  have hst : (if getF (portBase p) R.PORT_CTRL_ENABLE s = 1 then 2 else 0) < 2 ^ 3 := by split <;> decide
  rw [downNoted] at hlater
  generalize hstate : (if getF (portBase p) R.PORT_CTRL_ENABLE s = 1 then 2 else 0) = st at *
  obtain ⟨hport, hdown, hcount, hlanes, hcheck, hpass, honly⟩ := downShown_spec hp hst s
  have hother : ∀ f : Fld, f.off < 0x100 → f.off ≠ R.PORT_STATUS_STATE.off → getF (portBase p) f (downShown p st s) = getF (portBase p) f s := by
    intro f hf hne
    refine honly.getF_eq ?_ port_ne_lostAt
    rintro (h | h)
    · exact hne (Nat.add_left_cancel h)
    · exact portWord_ne_fab hf (by decide) h
  obtain ⟨c, k, hframe⟩ := regsOnly_downShown p st s
  generalize downShown p st s = v at *
  obtain ⟨hdowns, hlink, hblocks, hmems, htime, hqueue⟩ := hfrom
  have hentered := entered_raise (srcPort p) 0x52 1 0 0 (setLink p (getLink p s).cleared v)
  have hraise := restKept_raise (srcPort p) 0x52 1 0 0 (setLink p (getLink p s).cleared v)
  have hgrow := queuesGrow_raise (srcPort p) 0x52 1 0 0 (setLink p (getLink p s).cleared v)
  have hread : ∀ f : Fld, f.off < 0x100 → getF (portBase p) f t = getF (portBase p) f v := fun f hf =>
    (hlater.getF_eq hf).trans (getF_of_word ((csrGet_raise _ _ _ _ _ _ port_ne_lostAt).trans (csrGet_setLink ..)))
  have hlog : (setLink p (getLink p s).cleared v).log = s.log := by rw [hframe]; rfl
  have hnow : (setLink p (getLink p s).cleared v).count = s.count := by rw [hframe]; rfl
  have hclear : getLink p (setLink p (getLink p s).cleared v) = (getLink p s).cleared := by rw [getLink_setLink, if_pos rfl]
  have hblocks' : SameBlocks s (setLink p (getLink p s).cleared v) := by rw [hframe]; exact ⟨rfl, rfl⟩
  have hmems' : MemoriesKept s (setLink p (getLink p s).cleared v) := by rw [hframe]; exact ⟨rfl, rfl, rfl, rfl, rfl⟩
  generalize setLink p (getLink p s).cleared v = w at *
  obtain ⟨-, hlink', hqueues, hblocks'', hmems''⟩ := hlater
  have hsame := (hblocks.trans hblocks').trans (hraise.sameBlocks.trans hblocks'')
  refine ⟨⟨?_, (hread _ (by decide)).trans hdown, bumped_between hcount hdowns (hread _ (by decide)), (hread _ (by decide)).trans hlanes,
    (hread _ (by decide)).trans hcheck, (hread _ (by decide)).trans hpass, fun hroom => ?_, ?_, hsame.cores, hsame.engines,
    ((hmems.trans hmems').trans hraise.requestsOnly.memoriesKept).trans hmems''⟩,
    fun f hf hne => (hread f hf).trans (hother f hf hne), (QueuesGrow.of_eq (congrArg Logbook.queues hlog)).trans (.trans hgrow hqueues)⟩
  · rw [hread _ (by decide), hother _ (by decide) (by decide), hstate, portState, hread _ (by decide)]
    exact hport
  · rw [hlog, hnow, htime] at hentered
    obtain ⟨e, he, hfields⟩ := hentered (by omega)
    exact ⟨e, (hqueues _).subset he, hfields⟩
  · rw [hlink', getLink_of_restKept hraise, hclear, hlink, Link.cleared]

end Sys2Proof.Machine
end

section
/-! PROOFS. The statement about the port commands (R261, R275 to R279, R479). -/

namespace Sys2Proof.Machine

open Sys2Proof.Claims

section
variable {p : Nat} (hp : p < 22)
include hp

theorem portState_downNoted (s : State) : portState p (downNoted p s) < 3 := by
  obtain ⟨⟨hstate, -⟩, -⟩ := wentDown_of_kept hp (.refl p s) (PortKept.refl p (downNoted p s)).toPortHeld
  rw [hstate]
  split <;> decide

/-- With nothing left to send, what follows leaves the port alone. -/
theorem portKept_portDown {s : State} (hreplay : (getLink p s).replay = []) (hwaiting : (getLink p s).waiting = []) : PortKept p (downNoted p s) (portDown p s) := by
  have hparent := (syncOnly_parentDown p (downNoted p s)).portKept p
  rw [portDown_eq, hreplay, hwaiting]
  split
  · exact hparent.trans (portKept_recheck hp (by
      rw [portState]
      refine lt_of_eq_of_lt (hparent.getF_eq (by decide)) (portState_downNoted hp s)))
  · exact hparent

theorem portDown_wentDown {s₀ s : State} (hfrom : DownFrom p s₀ s) (hreplay : (getLink p s₀).replay = []) (hwaiting : (getLink p s₀).waiting = []) :
    WentDown p s₀ (portDown p s) ∧ (∀ f : Fld, f.off < 0x100 → f.off ≠ R.PORT_STATUS_STATE.off → getF (portBase p) f (portDown p s) = getF (portBase p) f s) ∧
      QueuesGrow s (portDown p s) :=
  wentDown_of_kept hp hfrom (portKept_portDown hp (s := s) (by rw [hfrom.link, hreplay]) (by rw [hfrom.link, hwaiting])).toPortHeld

end

section
variable (p : Fin 22) (s : State) (hreplay : (getLink p s).replay = []) (hwaiting : (getLink p s).waiting = [])
include hreplay hwaiting

theorem lossOfSignal_spec (hst : 3 ≤ portState p s) : ∃ t, Runs (.portLossOfSignal p) s t ∧ WentDown p s t := by
  obtain ⟨hwent, -⟩ := portDown_wentDown p.isLt (.refl p s) hreplay hwaiting
  exact ⟨portDown p s, congrArg Host.Outcome.next (if_pos hst), hwent⟩

/-- What a retrain notes before the port goes DOWN. -/
def retrainNoted (p : Nat) (s : State) : State := raise (srcPort p) 0x53 0 0 0 (bumpF (portBase p) R.PORT_RETRAINS_COUNT 1 s)

omit hreplay hwaiting in
theorem retrainNoted_spec : DownFrom p s (retrainNoted p s) ∧ Bumped (portBase p) R.PORT_RETRAINS_COUNT s (retrainNoted p s) ∧
    Logged (srcPort p) 0x53 0 s (retrainNoted p s) := by
  have hbump := bumped_bumpF (f := R.PORT_RETRAINS_COUNT) (by decide) (portBase p) s
  have hdowns := getF_bumpF_apart (f := R.PORT_RETRAINS_COUNT) (g := R.PORT_STATUS_DOWN_COUNT) (portBase p) 1 s (by decide)
  have hrest := restKept_bumpF (portBase p) R.PORT_RETRAINS_COUNT 1 s
  have hlog := bumpF_log (portBase p) R.PORT_RETRAINS_COUNT 1 s
  have hnow := bumpF_count (portBase p) R.PORT_RETRAINS_COUNT 1 s
  unfold retrainNoted
  generalize bumpF (portBase p) R.PORT_RETRAINS_COUNT 1 s = u at *
  have hraise := restKept_raise (srcPort p) 0x53 0 0 0 u
  have hlogged := logged_of_same (logged_raise (srcPort p) 0x53 0 0 0 u) hlog hnow
  have hlen := sGet_queues_raise (srcPort p) 0x53 0 0 0 (srcPort p) u
  have hread : ∀ f : Fld, getF (portBase p) f (raise (srcPort p) 0x53 0 0 0 u) = getF (portBase p) f u := fun f =>
    getF_of_word (csrGet_raise _ _ _ _ _ _ port_ne_lostAt)
  generalize raise (srcPort p) 0x53 0 0 0 u = t at *
  have hall := hrest.trans hraise
  refine ⟨⟨(hread _).trans hdowns, getLink_of_restKept hall p, hall.sameBlocks, hall.requestsOnly.memoriesKept, ?_, ?_⟩, bumped_between hbump rfl (hread _), hlogged⟩
  · obtain ⟨c, l, k, e, rfl⟩ := hall
    rfl
  · rw [hlen, hlog]
    split <;> simp

theorem portRetrain_spec (hst : portState p s ≠ 0) : ∃ t, Runs (.portRetrain p) s t ∧ WentDown p s t ∧ Bumped (portBase p) R.PORT_RETRAINS_COUNT s t ∧
    Logged (srcPort p) 0x53 0 s t := by
  obtain ⟨hfrom, hbump, hlog⟩ := retrainNoted_spec p s
  obtain ⟨hwent, hkept, hqueues⟩ := portDown_wentDown p.isLt hfrom hreplay hwaiting
  exact ⟨portDown p (retrainNoted p s), congrArg Host.Outcome.next (if_neg hst), hwent, bumped_between hbump rfl (hkept _ (by decide) (by decide)),
    logged_later hlog hqueues⟩

omit hreplay hwaiting in
theorem downFrom_disabled : DownFrom p s (setF (portBase p) R.PORT_CTRL_ENABLE 0 s) := by
  have hdowns := getF_setF_apart (f := R.PORT_CTRL_ENABLE) (g := R.PORT_STATUS_DOWN_COUNT) (portBase p) 0 s (by decide)
  obtain ⟨c, hc, -⟩ := onlyWords_setF (portBase p) R.PORT_CTRL_ENABLE 0 s
  rw [hc] at hdowns ⊢
  exact ⟨hdowns, rfl, ⟨rfl, rfl⟩, ⟨rfl, rfl, rfl, rfl, rfl⟩, rfl, Nat.le_succ _⟩

theorem portDisable_spec (hst : portState p s ≠ 0) : ∃ t, Runs (.portDisable p) s t ∧ WentDown p s t ∧ getF (portBase p) R.PORT_CTRL_ENABLE t = 0 := by
  have hstate : portState p (setF (portBase p) R.PORT_CTRL_ENABLE 0 s) = portState p s := getF_setF_apart _ _ _ (by decide)
  have hclear := getF_setF (portBase p) 0 R.PORT_CTRL_ENABLE s (by decide)
  obtain ⟨hwent, hkept, -⟩ := portDown_wentDown p.isLt (downFrom_disabled p s) hreplay hwaiting
  refine ⟨portDown p (setF (portBase p) R.PORT_CTRL_ENABLE 0 s), congrArg Host.Outcome.next ?_, hwent, (hkept _ (by decide) (by decide)).trans hclear⟩
  rw [portDisable]
  exact if_neg (by rwa [hstate])

omit hreplay hwaiting in
theorem portDisable_disabled (hst : portState p s = 0) : ∃ t, Runs (.portDisable p) s t ∧ getF (portBase p) R.PORT_CTRL_ENABLE t = 0 ∧ portState p t = 0 ∧
    OnlyRegs (regAt (portBase p) [R.PORT_CTRL_ENABLE]) s t := by
  have hstate : portState p (setF (portBase p) R.PORT_CTRL_ENABLE 0 s) = 0 := (getF_setF_apart _ _ _ (by decide)).trans hst
  refine ⟨setF (portBase p) R.PORT_CTRL_ENABLE 0 s, congrArg Host.Outcome.next ?_, getF_setF _ _ _ _ (by decide), hstate,
    (OnlyRegs.refl _ s).setF ⟨R.PORT_CTRL_ENABLE, by simp, rfl⟩ 0⟩
  rw [portDisable]
  exact if_pos hstate

end

/-! ### A message not delivered is sent on the parallel port (R275) -/

theorem portKept_setLink {p q : Nat} (hne : p ≠ q) (x : Link) (s : State) : PortKept p s (setLink q x s) where
  block d _ _ := csrGet_setLink d _ q x s
  link := (getLink_setLink ..).trans (if_neg hne)
  queues := .of_eq rfl
  blocks := ⟨rfl, rfl⟩
  memories := ⟨rfl, rfl, rfl, rfl, rfl⟩
  out := rfl

/-- A port that goes DOWN leaves the others alone. -/
theorem portKept_downNoted {p q : Nat} (hp : p < 22) (hq : q < 22) (hne : q ≠ p) (s : State) : PortKept q s (downNoted p s) := by
  have hst : (if getF (portBase p) R.PORT_CTRL_ENABLE s = 1 then 2 else 0) < 2 ^ 3 := by split <;> decide
  unfold downNoted
  generalize (if getF (portBase p) R.PORT_CTRL_ENABLE s = 1 then 2 else 0) = st at *
  obtain ⟨-, -, -, -, -, -, honly⟩ := downShown_spec hp hst s
  obtain ⟨c, k, hframe⟩ := regsOnly_downShown p st s
  have hshown : PortKept q s (downShown p st s) := portKept_of_onlyRegs honly (fun x hx h => h.elim (portWord_ne hp hq hne (by decide) hx)
    (portWord_ne_fab hx (by decide))) (.of_eq (by rw [hframe]))
  exact hshown.trans ((portKept_setLink hne _ _).trans (portKept_raise ..))

theorem PortHeld.portCarries_eq {q : Nat} {s t : State} (h : PortHeld q s t) (vc : Nat) : portCarries vc q t = portCarries vc q s := by
  rw [portCarries, portCarries, portUsable, portUsable, h.getF_eq (by decide), h.link]

/-- Sending on another port leaves a port as it was. -/
theorem portHeld_portSent {p q : Nat} (hp : p < 22) (hq : q < 22) (hne : p ≠ q) (m : Msg) (s : State) :
    PortHeld p s (portSent q m s) ∧ (portSent q m s).out = s.out ++ [.link q m] := by
  have hbytes : PortKept p s (addPair (portBase q) R.PORT_TX_BYTES_LO_VALUE R.PORT_TX_BYTES_HI_VALUE (msgBytes m) s) := by
    refine portKept_of_onlyRegs (onlyRegs_addPair ..) (fun x hx h => ?_) (.of_eq rfl)
    obtain ⟨f, hf, heq⟩ := h
    simp only [List.mem_cons, List.not_mem_nil, or_false] at hf
    rcases hf with rfl | rfl <;> exact portWord_ne hq hp hne (by decide) hx heq
  unfold portSent
  generalize addPair (portBase q) R.PORT_TX_BYTES_LO_VALUE R.PORT_TX_BYTES_HI_VALUE (msgBytes m) s = u at *
  generalize linkSend (.caravan m) (getLink q s) = x
  obtain ⟨hheld, hout⟩ := hbytes.trans (portKept_setLink hne x u)
  generalize setLink q x u = v at *
  obtain ⟨hblock, hlink, hqueues, hblocks, hmems⟩ := hheld
  exact ⟨⟨hblock, hlink, hqueues, ⟨hblocks.engines, hblocks.cores⟩, hmems⟩, by rw [emit, hout]⟩

/-- The Caravan port of the other plane. -/
def parallelPort (p : Nat) : Nat := if p < 9 then p + 9 else p - 9

theorem parallelPort_spec {p : Nat} (hp : p < 18) : parallelPort p < 18 ∧ parallelPort p ≠ p := by
  unfold parallelPort
  split <;> omega

/-- A message that a failed port had not delivered leaves by the parallel port, where that carries it and has room. -/
theorem lossOfSignal_resends (p : Fin 22) (s : State) {e : Replay} {m : Msg} (hreplay : (getLink p s).replay = [e]) (hbody : e.body = .caravan m)
    (hwaiting : (getLink p s).waiting = []) (hp : p.val < 18) (hst : 3 ≤ portState p s) (hplain : isReducing m = false)
    (hcarries : portCarries m.hdr.vc.toNat (parallelPort p) s = true) (hroom : linkRoom (.caravan m) (getLink (parallelPort p) s) = true) :
    ∃ t, Runs (.portLossOfSignal p) s t ∧ WentDown p s t ∧ t.out = s.out ++ [.link (parallelPort p) m] := by
  obtain ⟨hrange, hne⟩ := parallelPort_spec hp
  have hsync := syncOnly_parentDown p (downNoted p s)
  have hother := (portKept_downNoted p.isLt (q := parallelPort p) (by omega) hne s).trans (hsync.portKept (parallelPort p))
  have hself := hsync.portKept p
  have hrun : portDown p s = recheck (resend p m (parentDown p (downNoted p s))) := by
    rw [portDown_eq, if_pos hp, hreplay, hwaiting, List.map_cons, List.map_nil, hbody]
    rfl
  generalize parentDown p (downNoted p s) = u at *
  have hsend : resend p m u = portSent (parallelPort p) m u := by
    have hcarries' : portCarries m.hdr.vc.toNat (parallelPort p) u = true := by rw [hother.portCarries_eq, hcarries]
    have hroom' : linkRoom (.caravan m) (getLink (parallelPort p) u) = true := by rw [hother.link, hroom]
    rw [resend, if_neg (by simp [hplain])]
    exact (if_pos hcarries').trans (portSend_of_room hroom')
  obtain ⟨hsent, hout⟩ := portHeld_portSent p.isLt (q := parallelPort p) (by omega) hne.symm m u
  rw [hsend] at hrun
  generalize portSent (parallelPort p) m u = v at *
  have hheld := hself.toPortHeld.trans hsent
  have hcheck := portKept_recheck p.isLt (s := v) (lt_of_eq_of_lt (hheld.getF_eq (by decide)) (portState_downNoted p.isLt s))
  obtain ⟨hwent, -⟩ := wentDown_of_kept p.isLt (.refl p s) (hheld.trans hcheck.toPortHeld)
  rw [← hrun] at hwent hcheck
  exact ⟨portDown p s, congrArg Host.Outcome.next (if_pos hst), hwent, by rw [hcheck.out, hout, hother.out]⟩

/-- Settles O39: each command by its own lemma; what takes a port down is one step that the checks of other ports leave alone. -/
theorem portsTrainCheckAndGoDown : Obligations.PortsTrainCheckAndGoDown := by
  intro p lanes pass serial pkg port s
  refine ⟨portSelftest_spec p s, portSelftest_ignored p s, portSelftestDone_spec p s pass, fun hst hpass => ⟨portAdmit_outside p s hst hpass,
    portAdmit_inside p s hst hpass⟩, portAdmit_refused p s, fun hreplay hwaiting => ⟨lossOfSignal_spec p s hreplay hwaiting,
    portRetrain_spec p s hreplay hwaiting, portDisable_spec p s hreplay hwaiting⟩, fun e m hreplay hbody hwaiting hp hst hplain hcarries hroom =>
    lossOfSignal_resends p s hreplay hbody hwaiting hp hst hplain hcarries hroom, fun hst => congrArg Host.Outcome.next (if_neg (by omega)),
    fun hst => ⟨congrArg Host.Outcome.next (if_pos hst), portDisable_disabled p s hst⟩, portEnable_spec p s, portTrained_spec p s lanes,
    portMissing_spec p s, fun hst hp hplan hnone => ⟨portIdentity_match p serial pkg port s hst hp hplan hnone,
    portIdentity_mismatch p serial pkg port s hst hp hplan hnone⟩⟩

end Sys2Proof.Machine
end

section
/-! PROOFS. Flits of a Caravan port: what a discarded flit and one taken in order leave, and a replay (R258, R260 to R262). -/

namespace Sys2Proof.Machine

open Sys2Proof.Claims

/-! ### Only one port's link changes -/

section
variable {p : Nat} {touched : Nat → Prop} {s t u : State}

theorem OnlyLink.refl (p : Nat) (touched : Nat → Prop) (s : State) : OnlyLink p touched s s := ⟨fun _ _ => rfl, fun _ _ _ _ => rfl, rfl⟩

theorem frame_of_onlyLink (h : OnlyLink p touched s t) :
    ∃ k c l n e f, t = { s with links := k, csr := c, log := l, totals := n, stepErr := e, fresh := f } :=
  ⟨t.links, t.csr, t.log, t.totals, t.stepErr, t.fresh, by rw [← h.2.2]⟩

theorem onlyLink_trans (h : OnlyLink p touched s t) (h' : OnlyLink p touched t u) : OnlyLink p touched s u := by
  obtain ⟨k, c, l, n, e, f, hframe⟩ := frame_of_onlyLink h
  obtain ⟨k', c', l', n', e', f', hframe'⟩ := frame_of_onlyLink h'
  obtain ⟨hlinks, hwords, -⟩ := h
  obtain ⟨hlinks', hwords', -⟩ := h'
  refine ⟨fun q hq => (hlinks' q hq).trans (hlinks q hq), fun d off hoff hlost => (hwords' d off hoff hlost).trans (hwords d off hoff hlost), ?_⟩
  rw [hframe', hframe]

theorem onlyLink_setLink (p : Nat) (touched : Nat → Prop) (x : Link) (s : State) : OnlyLink p touched s (setLink p x s) :=
  ⟨fun _ hq => (getLink_setLink ..).trans (if_neg hq), fun d off _ _ => csrGet_setLink d off p x s, rfl⟩

theorem onlyLink_of_onlyRegs (h : OnlyRegs touched s t) : OnlyLink p touched s t := by
  obtain ⟨c, l, n, e, hframe⟩ := restKept_of_onlyRegs h
  refine ⟨fun q _ => getLink_of_restKept (restKept_of_onlyRegs h) q, h.1, ?_⟩
  rw [hframe]

end

/-! ### One flit formed (R260, R261) -/

theorem formFlit_spec (idle : Bool) (slots : List Slot) (l : Link) :
    (formFlit idle slots l).1.nak = l.nak ∧ (formFlit idle slots l).1.idle = idle ∧ (formFlit idle slots l).1.ack = l.rxSeq - 1 ∧
    (formFlit idle slots l).2.sent = l.sent ++ [(formFlit idle slots l).1] ∧ (formFlit idle slots l).2.nak = false ∧
    (formFlit idle slots l).2.rxSeq = l.rxSeq ∧ (formFlit idle slots l).2.replay = l.replay ∧ (formFlit idle slots l).2.waiting = l.waiting ∧
    (formFlit idle slots l).2.spent = l.spent := ⟨rfl, rfl, rfl, rfl, rfl, rfl, rfl, rfl, rfl⟩

/-- The link after an idle flit left. -/
def Link.idled (l : Link) : Link := (formFlit true (List.replicate 31 0) l).2

theorem getLink_sendIdle (p : Nat) (s : State) : getLink p (sendIdle p s) = (getLink p s).idled := by
  rw [sendIdle, getLink_setLink, if_pos rfl, Link.idled]

theorem onlyLink_sendIdle (p : Nat) (touched : Nat → Prop) (s : State) : OnlyLink p touched s (sendIdle p s) := onlyLink_setLink ..

/-! ### Discarded flits (R261) -/

theorem getLink_flitDiscard (p : Nat) (s : State) : getLink p (flitDiscard p s) = { getLink p s with nak := true }.idled := by
  rw [flitDiscard, getLink_sendIdle, getLink_setLink, if_pos rfl]

theorem onlyLink_flitDiscard (p : Nat) (touched : Nat → Prop) (s : State) : OnlyLink p touched s (flitDiscard p s) :=
  onlyLink_trans (onlyLink_setLink ..) (onlyLink_sendIdle ..)

/-- What a discarded flit leaves, where nothing sent or received of the link had changed before. -/
theorem nakSent_flitDiscard {p : Nat} {s u : State} (hsent : (getLink p u).sent = (getLink p s).sent) (hseq : (getLink p u).rxSeq = (getLink p s).rxSeq)
    (hreplay : (getLink p u).replay = (getLink p s).replay) : NakSent p s (flitDiscard p u) := by
  obtain ⟨hnak, hidle, hack, hout, -, hrx, hkept, -⟩ := formFlit_spec true (List.replicate 31 0) { getLink p u with nak := true }
  refine ⟨_, ?_, hnak, hidle, ?_, ?_, ?_⟩
  · rw [getLink_flitDiscard, ← hsent]
    exact hout
  · rw [hack, ← hseq]
  · rw [getLink_flitDiscard, ← hseq]
    exact hrx
  · rw [getLink_flitDiscard, ← hreplay]
    exact hkept

/-! ### A flit received (R258, R260, R261) -/

/-- The link after the code words that came with a flit are counted. -/
def Link.fecCounted (k : Nat) (l : Link) : Link :=
  { l with fecOk := min (2 ^ 24 - 1) (l.fecOk + Config.freeResult 96 k % 2), fecBad := min 255 (l.fecBad + Config.freeResult 101 k % 2) }

theorem fecCount_eq {p : Nat} (hp : p < 18) (s : State) : fecCount p s = setLink p ((getLink p s).fecCounted s.fresh) { s with fresh := s.fresh + 1 } := if_pos hp

theorem getLink_fecCount {p : Nat} (hp : p < 18) (s : State) : getLink p (fecCount p s) = (getLink p s).fecCounted s.fresh := by
  rw [fecCount_eq hp, getLink_setLink, if_pos rfl]

theorem onlyLink_fecCount {p : Nat} (hp : p < 18) (touched : Nat → Prop) (s : State) : OnlyLink p touched s (fecCount p s) := by
  rw [fecCount_eq hp]
  exact onlyLink_trans (t := { s with fresh := s.fresh + 1 }) ⟨fun _ _ => rfl, fun _ _ _ _ => rfl, rfl⟩ (onlyLink_setLink ..)

/-- With nothing waiting for room a flush does nothing. -/
theorem linkFlush_of_none {p : Nat} {s : State} (h : (getLink p s).waiting = []) :
    getLink p (linkFlush p s) = getLink p s ∧ ∀ touched, OnlyLink p touched s (linkFlush p s) := by
  have hflush : linkFlush p s = setLink p { getLink p s with waiting := [] } s := by rw [linkFlush, h, List.foldl_nil]
  rw [hflush, getLink_setLink, if_pos rfl, ← h]
  exact ⟨rfl, fun touched => onlyLink_setLink ..⟩

/-- What a flit in order acknowledges leaves the replay buffer, and its credits return. -/
def Link.headed (f : Flit) (l : Link) : Link :=
  let keep := l.replay.filter (fun e => decide ((f.ack - e.last).toNat ≥ 2048))
  let moved := decide (keep.length < l.replay.length)
  { l with nak := false, replay := keep, sends := if moved then 0 else l.sends,
           spent := if f.crSlots = 0 then l.spent else sIns f.crQ.toNat (sGet 0 l.spent f.crQ.toNat - f.crSlots.toNat) l.spent }

/-- The header of a flit without NAK, where no message waits for room. -/
theorem flitHeader_spec {p : Nat} {f : Flit} {s : State} (hnak : f.nak = false) (hwaiting : (getLink p s).waiting = []) :
    getLink p (flitHeader p f s) = (getLink p s).headed f ∧ ∀ touched, OnlyLink p touched s (flitHeader p f s) := by
  have hheaded : getLink p (setLink p ((getLink p s).headed f) s) = (getLink p s).headed f := by rw [getLink_setLink, if_pos rfl]
  have hrun : flitHeader p f s = linkFlush p (setLink p ((getLink p s).headed f) s) := if_neg (by simp [hnak])
  obtain ⟨hflush, honly⟩ := linkFlush_of_none (s := setLink p ((getLink p s).headed f) s) (by rw [hheaded]; exact hwaiting)
  rw [hrun, hflush, hheaded]
  exact ⟨rfl, fun touched => onlyLink_trans (onlyLink_setLink ..) (honly touched)⟩

/-- What a flit acknowledges and returns, and that no NAK is owed. -/
def Acked (f : Flit) (l k : Link) : Prop :=
  k.nak = false ∧ k.replay = l.replay.filter (fun e => decide ((f.ack - e.last).toNat ≥ 2048)) ∧
    sGet 0 k.spent f.crQ.toNat = sGet 0 l.spent f.crQ.toNat - f.crSlots.toNat

theorem acked_headed (f : Flit) (l : Link) : Acked f l (l.headed f) := by
  refine ⟨rfl, rfl, ?_⟩
  show sGet 0 (if f.crSlots = 0 then l.spent else _) _ = _
  split
  next h => rw [h]; rfl
  next => rw [sGet_sIns, if_pos rfl]

/-- A register of a port that a change of links leaves. -/
theorem getF_of_onlyLink {p q : Nat} {f : Fld} {s t : State} (h : OnlyLink p (fun _ => False) s t) : getF (portBase q) f t = getF (portBase q) f s :=
  getF_of_word (h.2.1 _ _ not_false port_ne_lostAt)

section
variable {p : Fin 24} {f : Flit} {s : State} (hp : p.val < 18) (hport : flitPort p s = true)
include hp hport

theorem flitReceive_badCrc (hcrc : f.crc.toNat ≠ flitCrc f) : ∃ t, Runs (.flitReceive p f) s t ∧ NakSent p s t ∧
    Bumped (portBase p) R.PORT_REPLAY_CRC_ERRORS s t ∧ OnlyLink p (regAt (portBase p) [R.PORT_REPLAY_CRC_ERRORS]) s t := by
  refine ⟨flitDiscard p (bumpF (portBase p) R.PORT_REPLAY_CRC_ERRORS 1 (fecCount p s)), ?_, ?_⟩
  · refine (if_neg (by simp [hport])).trans ((if_pos hcrc).trans ?_)
    rw [if_pos hp]
  · have hlink := getLink_fecCount hp s
    have hfec := fun touched => onlyLink_fecCount hp touched s
    generalize fecCount p s = u at *
    have hbump := bumped_bumpF (f := R.PORT_REPLAY_CRC_ERRORS) (by decide) (portBase p) u
    have hcount : OnlyRegs (regAt (portBase p) [R.PORT_REPLAY_CRC_ERRORS]) u (bumpF (portBase p) R.PORT_REPLAY_CRC_ERRORS 1 u) :=
      (OnlyRegs.refl _ u).bumpF ⟨R.PORT_REPLAY_CRC_ERRORS, by simp, rfl⟩ 1
    have hkept := (getLink_of_restKept (restKept_bumpF (portBase p) R.PORT_REPLAY_CRC_ERRORS 1 u) p).trans hlink
    generalize bumpF (portBase p) R.PORT_REPLAY_CRC_ERRORS 1 u = v at *
    have hdiscard := fun touched => onlyLink_flitDiscard p touched v
    exact ⟨nakSent_flitDiscard (by rw [hkept]; rfl) (by rw [hkept]; rfl) (by rw [hkept]; rfl),
      bumped_between hbump (getF_of_onlyLink (hfec _)) (getF_of_onlyLink (hdiscard _)),
      onlyLink_trans (hfec _) (onlyLink_trans (onlyLink_of_onlyRegs hcount) (hdiscard _))⟩

theorem flitReceive_outOfOrder (hcrc : f.crc.toNat = flitCrc f) (hseq : f.seq ≠ (getLink p s).rxSeq) : ∃ t, Runs (.flitReceive p f) s t ∧ NakSent p s t ∧
    OnlyLink p (fun _ => False) s t := by
  have hlink := getLink_fecCount hp s
  refine ⟨flitDiscard p (fecCount p s), ?_, ?_⟩
  · refine (if_neg (by simp [hport])).trans ((if_neg (by simp [hcrc])).trans (if_pos ?_))
    rw [hlink]
    exact hseq
  · have hfec := onlyLink_fecCount hp (fun _ => False) s
    generalize fecCount p s = u at *
    exact ⟨nakSent_flitDiscard (by rw [hlink]; rfl) (by rw [hlink]; rfl) (by rw [hlink]; rfl), onlyLink_trans hfec (onlyLink_flitDiscard ..)⟩

section
variable (hcrc : f.crc.toNat = flitCrc f) (hseq : f.seq = (getLink p s).rxSeq) (hnak : f.nak = false) (hwaiting : (getLink p s).waiting = [])
include hcrc hseq hnak hwaiting

omit hnak hwaiting in
/-- A flit in order with a good CRC is taken. -/
theorem flitReceive_inOrder : flitReceive p f s =
    if f.idle then .next (flitHeader p f (fecCount p s)) else andThen (flitBody p f (fecCount p s)) (fun s => .next (flitHeader p f (sendIdle p s))) := by
  have hlink := getLink_fecCount hp s
  have hrevive : halRevive p (fecCount p s) = fecCount p s := if_pos (by omega)
  rw [flitReceive, if_neg (by simp [hport]), if_neg (by simp [hcrc]), if_neg (by rw [hlink]; exact not_not.2 hseq), hrevive]

theorem flitReceive_idle (hidle : f.idle = true) : ∃ t, Runs (.flitReceive p f) s t ∧ Acked f (getLink p s) (getLink p t) ∧
    (getLink p t).rxSeq = (getLink p s).rxSeq ∧ OnlyLink p (fun _ => False) s t := by
  have hlink := getLink_fecCount hp s
  refine ⟨flitHeader p f (fecCount p s), (flitReceive_inOrder hp hport hcrc hseq).trans (if_pos hidle), ?_⟩
  · have hfec := onlyLink_fecCount hp (fun _ => False) s
    generalize fecCount p s = u at *
    obtain ⟨hheader, honly⟩ := flitHeader_spec (s := u) hnak (by rw [hlink]; exact hwaiting)
    rw [hheader, hlink]
    exact ⟨acked_headed f _, rfl, onlyLink_trans hfec (honly _)⟩

omit hcrc hseq hnak hwaiting hport in
/-- A flit whose first slot is a NOP carries no message. -/
theorem flitBody_of_nop {h : Slot} {rest : List Slot} (hasm : (getLink p s).asm = []) (hslots : f.slots = h :: rest) (hnop : bitsAt h.toNat 124 4 = 0) :
    flitBody p f s = .next (setLink p { getLink p s with rxSeq := (getLink p s).rxSeq + 1, asm := [] } s) := by
  have hcut : cutCaravan (h :: rest) = ([], []) := by
    rw [cutCaravan, List.length_cons, cutMsgs, if_pos (by simpa using hnop)]
    rfl
  rw [flitBody, hasm, hslots]
  refine (if_pos hp).trans ?_
  rw [List.nil_append, hcut]
  rfl

theorem flitReceive_nop {h : Slot} {rest : List Slot} (hidle : f.idle = false) (hasm : (getLink p s).asm = []) (hslots : f.slots = h :: rest)
    (hnop : bitsAt h.toNat 124 4 = 0) : ∃ t, Runs (.flitReceive p f) s t ∧ Acked f (getLink p s) (getLink p t) ∧
    (getLink p t).rxSeq = (getLink p s).rxSeq + 1 ∧ OnlyLink p (fun _ => False) s t := by
  have hlink := getLink_fecCount hp s
  have hbody := flitBody_of_nop (f := f) (s := fecCount p s) hp (by rw [hlink]; exact hasm) hslots hnop
  refine ⟨flitHeader p f (sendIdle p (setLink p { getLink p (fecCount p s) with rxSeq := (getLink p (fecCount p s)).rxSeq + 1, asm := [] } (fecCount p s))), ?_, ?_⟩
  · refine (flitReceive_inOrder hp hport hcrc hseq).trans ((if_neg (by simp [hidle])).trans ?_)
    rw [hbody]
    rfl
  · have hfec := onlyLink_fecCount hp (fun _ => False) s
    generalize fecCount p s = u at *
    have hsent := (getLink_sendIdle p (setLink p { getLink p u with rxSeq := (getLink p u).rxSeq + 1, asm := [] } u)).trans
      (congrArg Link.idled ((getLink_setLink ..).trans (if_pos rfl)))
    have honly := onlyLink_trans (onlyLink_setLink p (fun _ => False) { getLink p u with rxSeq := (getLink p u).rxSeq + 1, asm := [] } u)
      (onlyLink_sendIdle p _ _)
    generalize sendIdle p _ = v at *
    obtain ⟨hheader, honly'⟩ := flitHeader_spec (s := v) hnak (by rw [hsent, hlink]; exact hwaiting)
    rw [hheader, hsent, hlink]
    exact ⟨acked_headed f _, rfl, onlyLink_trans hfec (onlyLink_trans honly (honly' _))⟩

end

end

end Sys2Proof.Machine
end

section
/-! PROOFS. Link replay of a Caravan port (R261). -/

namespace Sys2Proof.Machine

open Sys2Proof.Claims

/-- Bodies sent leave as messages, and nothing else changes. -/
theorem foldl_emit (p : Nat) : ∀ (l : List Replay) (s : State),
    l.foldl (fun s e => emit (outOf p e.body) s) s = { s with out := s.out ++ l.map (fun e => outOf p e.body) }
  | [], s => by rw [List.foldl_nil, List.map_nil, List.append_nil]
  | e :: l, s => by
    rw [List.foldl_cons, foldl_emit p l, emit, List.map_cons]
    dsimp only
    rw [List.append_assoc]
    rfl

/-- The link after a replay: one more sending, at this moment. -/
def Link.replayed (now : DWord) (l : Link) : Link :=
  { l with sends := l.sends + 1, replayAt := [now], sent := l.sent ++ l.replay.flatMap (fun e => e.flits) }

/-- The state after a replay whose count and times call for no retrain. -/
def replayed (p : Nat) (s : State) : State :=
  replaySend p (bumpF (portBase p) R.PORT_REPLAY_REPLAYS 1 (setLink p { getLink p s with sends := (getLink p s).sends + 1, replayAt := [s.count] } s))

theorem portReplay_eq {p : Nat} {s : State} (hsends : (getLink p s).sends < 7) (hfirst : (getLink p s).replayAt = []) : portReplay p s = replayed p s := by
  have hfew : ¬ ((getLink p s).sends + 1 ≥ 8 ∨ (s.count :: []).length > max 1 (effF (portBase p) R.PORT_RETRAIN_THR_REPLAYS_PER_MS R.PORT_CTRL_LEVEL
      (replayed p s))) := by
    rw [List.length_singleton]
    omega
  rw [portReplay, hfirst]
  exact if_neg hfew

theorem replayed_spec (p : Nat) (s : State) : ∃ u, replayed p s = { u with out := s.out ++ (getLink p s).replay.map (fun e => outOf p e.body) } ∧ u.out = s.out ∧
    getLink p u = (getLink p s).replayed s.count ∧ Bumped (portBase p) R.PORT_REPLAY_REPLAYS s u ∧ OnlyLink p (regAt (portBase p) [R.PORT_REPLAY_REPLAYS]) s u := by
  rw [replayed]
  have hlink := (getLink_setLink p p { getLink p s with sends := (getLink p s).sends + 1, replayAt := [s.count] } s).trans (if_pos rfl)
  have honly := fun touched => onlyLink_setLink p touched { getLink p s with sends := (getLink p s).sends + 1, replayAt := [s.count] } s
  generalize setLink p { getLink p s with sends := (getLink p s).sends + 1, replayAt := [s.count] } s = v at *
  have hbump := bumped_bumpF (f := R.PORT_REPLAY_REPLAYS) (by decide) (portBase p) v
  have hcount : OnlyRegs (regAt (portBase p) [R.PORT_REPLAY_REPLAYS]) v (bumpF (portBase p) R.PORT_REPLAY_REPLAYS 1 v) :=
    (OnlyRegs.refl _ v).bumpF ⟨R.PORT_REPLAY_REPLAYS, by simp, rfl⟩ 1
  have hlink' := (getLink_of_restKept (restKept_bumpF (portBase p) R.PORT_REPLAY_REPLAYS 1 v) p).trans hlink
  generalize bumpF (portBase p) R.PORT_REPLAY_REPLAYS 1 v = w at *
  have hall := onlyLink_trans (honly _) (onlyLink_of_onlyRegs (p := p) hcount)
  have hout : w.out = s.out := by
    obtain ⟨k, c, l, n, e, f, hframe⟩ := frame_of_onlyLink hall
    rw [hframe]
  have hcount' := bumped_between hbump (getF_of_onlyLink (honly _)) rfl
  rw [replaySend, foldl_emit, hlink']
  refine ⟨setLink p ((getLink p s).replayed s.count) w, ?_, hout, (getLink_setLink ..).trans (if_pos rfl), hcount', onlyLink_trans hall (onlyLink_setLink ..)⟩
  rw [← hout]
  rfl

theorem linkReplayTimeout_spec {p : Fin 24} {s : State} (hp : p.val < 18) (hst : portState p s ≥ 3) (hreplay : (getLink p s).replay ≠ [])
    (hsends : (getLink p s).sends < 7) (hfirst : (getLink p s).replayAt = []) :
    ∃ t, Runs (.linkReplayTimeout p) s t ∧ t.out = s.out ++ (getLink p s).replay.map (fun e => outOf p e.body) ∧ Bumped (portBase p) R.PORT_REPLAY_REPLAYS s t ∧
      getLink p t = (getLink p s).replayed s.count ∧ OnlyLink p (regAt (portBase p) [R.PORT_REPLAY_REPLAYS]) s { t with out := s.out } := by
  have hrun : replayTimeout p s = replayed p s := by rw [replayTimeout, if_pos hp, if_pos ⟨hst, hreplay⟩, portReplay_eq hsends hfirst]
  obtain ⟨u, hu, hout, hlink, hbump, honly⟩ := replayed_spec p s
  rw [hu] at hrun
  refine ⟨_, congrArg Host.Outcome.next hrun, rfl, hbump, hlink, ?_⟩
  rw [← hout]
  exact honly

theorem linkReplayTimeout_idle {p : Fin 24} {s : State} (hp : p.val < 18) (hreplay : (getLink p s).replay = []) : Runs (.linkReplayTimeout p) s s := by
  refine congrArg Host.Outcome.next ?_
  rw [replayTimeout, if_pos hp, if_neg (by simp [hreplay])]

end Sys2Proof.Machine
end

section
/-! PROOFS. Route frames: their checks, acknowledgement, delivery once and retransmission, and the statement about links (R285 to R287). -/

namespace Sys2Proof.Machine

open Sys2Proof.Claims

/-! ### Peers (R287) -/

theorem getPeer_setPeer (k j : Nat) (x : RoutePeer) (s : State) : getPeer j (setPeer k x s) = if j = k then x else getPeer j s := sGet_sIns ..

theorem portUsable_setPeer (q k : Nat) (x : RoutePeer) (s : State) : portUsable q (setPeer k x s) = portUsable q s := rfl

theorem peerRoom_of_known {fd k : Nat} {p : RoutePeer} {s : State} (h : sFind s.peers k = some p) : peerRoom fd k s = s := if_pos (.inl (by rw [h]; rfl))

/-- With nothing waiting for the window a flush sends nothing. -/
theorem routeFlush_of_none {fd k : Nat} {s : State} (h : (getPeer k s).queue = []) (n : Nat) : routeFlush fd k n s = s := by
  cases n with
  | zero => rfl
  | succ n =>
    rw [routeFlush]
    dsimp only
    split
    · rfl
    · rw [h]

/-- A known peer to which nothing waits to be sent: what a frame of it acknowledges leaves the window. -/
theorem routeRelease_of_known {fd : Nat} {f : RouteFrame} {p : RoutePeer} {s : State} (h : sFind s.peers (peerKey fd f.src.toNat) = some p) (hqueue : p.queue = []) :
    routeRelease fd f s = setPeer (peerKey fd f.src.toNat) { p with window := p.window.filter (fun e => !routeAcked f.ackSeq f.sack e.1.seq) } s := by
  rw [routeRelease, h]
  exact routeFlush_of_none (by rw [getPeer_setPeer, if_pos rfl]; exact hqueue) _

/-! ### Words of Route ports -/

theorem routePort_ne_rt {q fd x y : Nat} (hx : x < 0x100) (hy : y < 0x1000) : portBase q + x ≠ rtBase fd + y := by
  unfold portBase rtBase fabBase
  split <;> omega

/-- Bytes counted on a port leave every port's STATE. -/
theorem portUsable_addPair {p q : Nat} (hp : p < 22) (hq : q < 22) {lo hi : Fld} (hlo : 8 < lo.off ∧ lo.off < 0x100) (hhi : 8 < hi.off ∧ hi.off < 0x100)
    (n : Nat) (s : State) : portUsable q (addPair (portBase p) lo hi n s) = portUsable q s := by
  have hstate : R.PORT_STATUS_STATE.off = 8 := rfl
  have hne : ∀ f : Fld, 8 < f.off ∧ f.off < 0x100 → portBase q + R.PORT_STATUS_STATE.off ≠ portBase p + f.off := fun f hf h => by
    by_cases hqp : q = p
    · rw [hqp] at h
      omega
    · exact portWord_ne hp hq hqp hf.2 (by decide) h
  rw [portUsable, portUsable, getF_of_word (csrGet_addPair_other (hne lo hlo) (hne hi hhi) n _ s)]

theorem getF_port_bumpRt {q fd : Nat} {f g : Fld} (hg : g.off < 0x100) (hf : f.off < 0x1000) (s : State) :
    getF (portBase q) g (bumpF (rtBase fd) f 1 s) = getF (portBase q) g s :=
  getF_of_word (csrGet_bumpF_other _ _ _ _ _ (routePort_ne_rt hg hf))

theorem portUsable_bumpRt {q fd : Nat} {f : Fld} (hf : f.off < 0x1000) (s : State) : portUsable q (bumpF (rtBase fd) f 1 s) = portUsable q s := by
  rw [portUsable, portUsable, getF_port_bumpRt (by decide) hf]

/-! ### A frame leaves (R285, R286) -/

theorem routeFrame_spec (r typ dst : Nat) (seq : BitVec 32) (slots : List Slot) (p : RoutePeer) (s : State) :
    (routeFrame r typ dst seq slots p s).typ = BitVec.ofNat 4 typ ∧ (routeFrame r typ dst seq slots p s).dst = BitVec.ofNat 16 dst ∧
    (routeFrame r typ dst seq slots p s).ackSeq = p.rxNext - 1 ∧ (routeFrame r typ dst seq slots p s).slots = slots ∧
    (routeFrame r typ dst seq slots p s).dmac = if typ = 2 then broadcastMac else routeMac (getF (rtBase (routeDie r)) R.RT_MAC_BYTE_BYTE s) dst r :=
  ⟨rfl, rfl, rfl, rfl, rfl⟩

/-- A frame sent: its bytes counted on its port. -/
theorem routeOut_of_usable {r : Nat} {s : State} (h : portUsable (18 + r) s = true) (f : RouteFrame) :
    routeOut r f s = emit (.route r f) (addPair (portBase (18 + r)) R.PORT_TX_BYTES_LO_VALUE R.PORT_TX_BYTES_HI_VALUE (16 * f.slots.length) s) := if_pos h

/-- Between a state and a later one bytes were counted on Route port `r` and frame `a` left by it. -/
def FrameSent (r : Nat) (a : RouteFrame) (s t : State) : Prop :=
  (∃ c, t = { s with csr := c, out := s.out ++ [.route r a] }) ∧ ∀ d off, ¬ routeWords r off → csrGet d off t = csrGet d off s

theorem frameSent_routeOut {r : Nat} {s : State} (h : portUsable (18 + r) s = true) (f : RouteFrame) : FrameSent r f s (routeOut r f s) := by
  rw [routeOut_of_usable h]
  obtain ⟨c, hc, hwords⟩ := onlyWords_addPair (portBase (18 + r)) R.PORT_TX_BYTES_LO_VALUE R.PORT_TX_BYTES_HI_VALUE (16 * f.slots.length) s
  generalize addPair (portBase (18 + r)) R.PORT_TX_BYTES_LO_VALUE R.PORT_TX_BYTES_HI_VALUE (16 * f.slots.length) s = u at *
  refine ⟨⟨c, by rw [emit, hc]⟩, fun d off hoff => hwords d off ?_⟩
  rintro (h | h)
  · exact hoff ⟨_, by simp, h⟩
  · exact hoff ⟨_, by simp, h⟩

/-! ### A frame comes in (R285, R287) -/

/-- Bytes of a frame that came in are counted. -/
def frameCounted (r : Nat) (f : RouteFrame) (s : State) : State :=
  addPair (portBase (18 + r)) R.PORT_RX_BYTES_LO_VALUE R.PORT_RX_BYTES_HI_VALUE (16 * f.slots.length) s

theorem onlyWords_frameCounted (r : Nat) (f : RouteFrame) (s : State) : OnlyWords (routeWords r) s (frameCounted r f s) := by
  refine (onlyWords_addPair ..).mono ?_
  rintro off (h | h)
  · exact ⟨_, by simp, h⟩
  · exact ⟨_, by simp, h⟩

theorem routeFrameIn_of_good {r typ : Nat} {f : RouteFrame} {s : State} (h : FrameGood r typ f s) (body : State → State) :
    routeFrameIn r typ f body s = body (frameCounted r f s) := by
  obtain ⟨hup, hvid, htype, hdst, htyp, hcrc⟩ := h
  rw [routeFrameIn, if_neg (by simp [hup]), if_neg (by simp [hvid, htype]), if_neg (by simp [hcrc]), if_neg (by simp [hdst, htyp]), frameCounted]

theorem routeFrameIn_foreign {r typ : Nat} {f : RouteFrame} {s : State} (hup : routeUp r s = true) (htype : f.etherType ≠ 0xA3C1) (body : State → State) :
    routeFrameIn r typ f body s = bumpF (rtBase (routeDie r)) R.RT_FOREIGN_COUNT 1 s := by
  rw [routeFrameIn, if_neg (by simp [hup]), if_pos (.inr htype)]

theorem routeFrameIn_badCrc {r typ : Nat} {f : RouteFrame} {s : State} (hup : routeUp r s = true) (hvid : f.vid = routeVid (routeDie r) s)
    (htype : f.etherType = 0xA3C1) (hcrc : f.crc.toNat ≠ routeCrc f) (body : State → State) :
    routeFrameIn r typ f body s = bumpF (rtBase (routeDie r)) R.RT_CRC_COUNT 1 s := by
  rw [routeFrameIn, if_neg (by simp [hup]), if_neg (by simp [hvid, htype]), if_pos hcrc]

theorem counted_bumpF (b : Nat) {f : Fld} (hf : f.lo + f.w ≤ 32) (s : State) : Bumped b f s (bumpF b f 1 s) ∧ OnlyRegs (regAt b [f]) s (bumpF b f 1 s) :=
  ⟨bumped_bumpF hf b s, (OnlyRegs.refl _ s).bumpF ⟨f, by simp, rfl⟩ 1⟩

/-! ### A DATA frame (R287) -/

/-- The acknowledgement of a peer's frames. -/
def ackFrame (r : Nat) (peer : BitVec 16) (s : State) : RouteFrame :=
  routeFrame r 1 peer.toNat (getPeer (peerKey (routeDie r) peer.toNat) s).txSeq [] (getPeer (peerKey (routeDie r) peer.toNat) s) s

/-- An acknowledgement leaves by a usable port and names the last SEQ received in order. -/
theorem routeAckSend_spec {r : Nat} (peer : BitVec 16) {q : RoutePeer} {s : State} (husable : portUsable (18 + r) s = true)
    (hpeer : getPeer (peerKey (routeDie r) peer.toNat) s = q) :
    ∃ a : RouteFrame, FrameSent r a s (routeAckSend r peer s) ∧ a.typ = 1 ∧ a.dst = peer ∧ a.ackSeq = q.rxNext - 1 := by
  obtain ⟨htyp, hdst, hack, -⟩ := routeFrame_spec r 1 peer.toNat (getPeer (peerKey (routeDie r) peer.toNat) s).txSeq []
    (getPeer (peerKey (routeDie r) peer.toNat) s) s
  refine ⟨ackFrame r peer s, frameSent_routeOut husable _, htyp, hdst.trans (by simp), ?_⟩
  rw [← hpeer]
  exact hack

/-- The counts of the Route transport lie beside the counts of its ports. -/
theorem not_routeWords_rt (r fd : Nat) {f : Fld} (hf : f.off < 0x1000) : ¬ routeWords r (rtBase fd + f.off) := by
  rintro ⟨g, hg, h⟩
  simp only [List.mem_cons, List.not_mem_nil, or_false] at hg
  rcases hg with rfl | rfl | rfl | rfl <;> exact routePort_ne_rt (by decide) hf h.symm

/-- A known peer, nothing waiting for it nor sent and unacknowledged, and a frame that carries no message. -/
structure QuietPeer (r : Nat) (f : RouteFrame) (p : RoutePeer) (s : State) : Prop where
  good : FrameGood r 0 f s
  known : sFind s.peers (peerKey (routeDie r) f.src.toNat) = some p
  window : p.window = []
  queue : p.queue = []
  plain : f.flags.toNat % 2 = 0
  empty : f.nslots = 0

section
variable {r : Nat} (hr : r < 4) {f : RouteFrame} {p : RoutePeer} {s : State} (h : QuietPeer r f p s)
include h

/-- The state in which the acknowledgement is formed: bytes counted, the peer as it was. -/
def frameTaken (r : Nat) (f : RouteFrame) (p : RoutePeer) (s : State) : State := setPeer (peerKey (routeDie r) f.src.toNat) p (frameCounted r f s)

theorem routeData_eq : routeData r f s = if routeSeen f.seq p then routeAckSend r f.src (bumpF (rtBase (routeDie r)) R.RT_DUP_COUNT 1 (frameTaken r f p s))
    else routeAckSend r f.src (setPeer (peerKey (routeDie r) f.src.toNat) (routeAdvance 65 { p with rxBeyond := f.seq :: p.rxBeyond }) (frameTaken r f p s)) := by
  obtain ⟨hgood, hknown, hwindow, hqueue, hplain, hempty⟩ := h
  have hknown' : sFind (frameCounted r f s).peers (peerKey (routeDie r) f.src.toNat) = some p := hknown
  have hrelease : routeRelease (routeDie r) f (frameCounted r f s) = frameTaken r f p s := by
    rw [routeRelease_of_known hknown' hqueue, frameTaken, hwindow, List.filter_nil, ← hwindow]
  have hpeer : getPeer (peerKey (routeDie r) f.src.toNat) (frameTaken r f p s) = p := by rw [frameTaken, getPeer_setPeer, if_pos rfl]
  have hstart : routeStart f p = p := if_neg (by omega)
  have hmsgs : (cutCaravan (f.slots.take f.nslots.toNat)).1 = [] := by
    rw [hempty]
    rfl
  rw [routeData, routeFrameIn_of_good hgood]
  dsimp only
  rw [peerRoom_of_known hknown', hrelease, hpeer, hstart, hmsgs, List.foldl_nil]

include hr

theorem portUsable_taken : portUsable (18 + r) (frameTaken r f p s) = true := by
  obtain ⟨⟨hup, -⟩, -⟩ := h
  rw [routeUp, Bool.and_eq_true] at hup
  rw [frameTaken, portUsable_setPeer, frameCounted, portUsable_addPair (by omega) (by omega) (by decide) (by decide), hup.2]

/-- A frame in order advances what is expected and is acknowledged with its own SEQ. -/
theorem routeData_new (hseq : f.seq = p.rxNext) (hbeyond : p.rxBeyond = []) : ∃ a, (getPeer (peerKey (routeDie r) f.src.toNat) (routeData r f s) =
    { p with rxNext := p.rxNext + 1 }) ∧ (routeData r f s).out = s.out ++ [.route r a] ∧ a.typ = 1 ∧ a.dst = f.src ∧ a.ackSeq = f.seq ∧
    RegsKeptBut (routeWords r) s (routeData r f s) ∧ { routeData r f s with peers := s.peers, out := s.out, csr := s.csr } = s := by
  have hnew : routeSeen f.seq p = false := by simp [routeSeen, hseq, hbeyond]
  have hadvance : routeAdvance 65 { p with rxBeyond := f.seq :: p.rxBeyond } = { p with rxNext := p.rxNext + 1 } := by
    have hfilter : [p.rxNext].filter (fun q => decide (q ≠ p.rxNext)) = [] := by simp
    rw [hseq, hbeyond, routeAdvance, if_pos (by simp), hfilter, routeAdvance, if_neg (by simp), ← hbeyond]
  have husable := portUsable_taken hr h
  obtain ⟨c, hc, hwords⟩ := onlyWords_frameCounted r f s
  rw [routeData_eq h, hnew, hadvance, if_neg (by simp)]
  rw [frameTaken] at husable ⊢
  rw [hc] at husable hwords ⊢
  generalize hnext : ({ p with rxNext := p.rxNext + 1 } : RoutePeer) = q
  have hpeer : ∀ u, getPeer (peerKey (routeDie r) f.src.toNat) (setPeer (peerKey (routeDie r) f.src.toNat) q u) = q := fun u => by rw [getPeer_setPeer, if_pos rfl]
  obtain ⟨a, ⟨⟨c', hframe⟩, hsent⟩, htyp, hdst, hack⟩ := routeAckSend_spec f.src ((portUsable_setPeer ..).trans husable) (hpeer _)
  rw [hframe]
  rw [hframe] at hsent
  refine ⟨a, hpeer _, rfl, htyp, hdst, ?_, fun d off hoff _ => (hsent d off hoff).trans (hwords d off hoff), rfl⟩
  rw [hack, ← hnext, hseq]
  exact BitVec.add_sub_cancel ..

/-- A frame seen before is counted and acknowledged, and delivers nothing. -/
theorem routeData_seen (hseen : routeSeen f.seq p = true) : ∃ a, getPeer (peerKey (routeDie r) f.src.toNat) (routeData r f s) = p ∧
    (routeData r f s).out = s.out ++ [.route r a] ∧ a.typ = 1 ∧ a.dst = f.src ∧ a.ackSeq = p.rxNext - 1 ∧
    Bumped (rtBase (routeDie r)) R.RT_DUP_COUNT s (routeData r f s) ∧ MemoriesKept s (routeData r f s) ∧ (routeData r f s).cores = s.cores := by
  have husable := portUsable_taken hr h
  rw [routeData_eq h, if_pos hseen]
  have hpeer : getPeer (peerKey (routeDie r) f.src.toNat) (frameTaken r f p s) = p := by rw [frameTaken, getPeer_setPeer, if_pos rfl]
  obtain ⟨c, hc, hwords⟩ := onlyWords_frameCounted r f s
  have hbefore : getF (rtBase (routeDie r)) R.RT_DUP_COUNT (frameTaken r f p s) = getF (rtBase (routeDie r)) R.RT_DUP_COUNT s :=
    getF_of_word (hwords _ _ (not_routeWords_rt r _ (by decide)))
  have hframe : ∃ c ps, frameTaken r f p s = { s with csr := c, peers := ps } := ⟨c, _, by rw [frameTaken, hc]; rfl⟩
  generalize frameTaken r f p s = u at *
  have hbump := bumped_bumpF (f := R.RT_DUP_COUNT) (by decide) (rtBase (routeDie r)) u
  have husable' := (portUsable_bumpRt (q := 18 + r) (fd := routeDie r) (f := R.RT_DUP_COUNT) (by decide) u).trans husable
  obtain ⟨c', n, hcount⟩ := (RegsOnly.refl u).bumpF (rtBase (routeDie r)) R.RT_DUP_COUNT 1
  have hpeer' : getPeer (peerKey (routeDie r) f.src.toNat) (bumpF (rtBase (routeDie r)) R.RT_DUP_COUNT 1 u) = p := by
    rw [hcount]
    exact hpeer
  generalize bumpF (rtBase (routeDie r)) R.RT_DUP_COUNT 1 u = v at *
  obtain ⟨a, ⟨⟨c'', hsent⟩, hkept⟩, htyp, hdst, hack⟩ := routeAckSend_spec f.src husable' hpeer'
  generalize routeAckSend r f.src v = t at *
  obtain ⟨c₀, ps, hu⟩ := hframe
  have hall : t = { s with csr := c'', peers := ps, totals := n, out := s.out ++ [.route r a] } := by rw [hsent, hcount, hu]
  refine ⟨a, ?_, by rw [hall], htyp, hdst, hack, bumped_between hbump hbefore (getF_of_word (hkept _ _ (not_routeWords_rt r _ (by decide)))), ?_, by rw [hall]⟩
  · rw [← hpeer', hsent]
    rfl
  · rw [hall]
    exact ⟨rfl, rfl, rfl, rfl, rfl⟩

end

/-! ### Acknowledgements, announcements and retransmission (R285, R287) -/

/-- An ACK removes the frames it names. -/
theorem routeAck_spec (r : Fin 4) {f : RouteFrame} {p : RoutePeer} {s : State} (hgood : FrameGood r 1 f s)
    (hknown : sFind s.peers (peerKey (routeDie r) f.src.toNat) = some p) (hqueue : p.queue = []) : ∃ t, Runs (.routeAck r f) s t ∧
      getPeer (peerKey (routeDie r) f.src.toNat) t = { p with window := p.window.filter (fun e => !routeAcked f.ackSeq f.sack e.1.seq) } ∧
      RegsKeptBut (routeWords r) s t ∧ { t with peers := s.peers, csr := s.csr } = s := by
  obtain ⟨c, hc, hwords⟩ := onlyWords_frameCounted r f s
  have hrun := routeFrameIn_of_good hgood (routeRelease (routeDie r) f)
  rw [hc] at hrun hwords
  rw [routeRelease_of_known (s := { s with csr := c }) hknown hqueue] at hrun
  refine ⟨_, congrArg Host.Outcome.next hrun, by rw [getPeer_setPeer, if_pos rfl], fun d off hoff _ => hwords d off hoff, rfl⟩

theorem routeAnnounce_spec (r : Fin 4) {s : State} (hup : routeUp r s = true) : ∃ t a, Runs (.routeAnnounce r) s t ∧ t.out = s.out ++ [.route r a] ∧
    a.typ = 2 ∧ a.dmac = broadcastMac ∧ a.slots = [] ∧ { t with out := s.out } = s := by
  obtain ⟨htyp, -, -, hslots, hmac⟩ := routeFrame_spec r 2 (Config.freeResult 72 1) 0 [] RoutePeer.init s
  generalize hframe : routeFrame r 2 (Config.freeResult 72 1) 0 [] RoutePeer.init s = a at *
  refine ⟨emit (.route r a) s, a, congrArg Host.Outcome.next ?_, rfl, htyp, hmac, hslots, rfl⟩
  rw [routeAnnounce, if_pos hup, hframe]

/-- Of a die's two Route ports the one chosen for a message is usable if one of them is. -/
theorem portUsable_routePort {fd : Nat} {h : MsgHdr} {s : State} (husable : portUsable (18 + 2 * fd) s = true ∨ portUsable (19 + 2 * fd) s = true) :
    portUsable (18 + routePort fd h s) s = true := by
  rw [routePort]
  generalize hbit : (h.src.toNat ^^^ h.dst.toNat ^^^ h.line.toNat % 2 ^ 16) % 2 = bit
  have hbit' : bit < 2 := hbit ▸ Nat.mod_lt _ (by decide)
  have hboth : portUsable (18 + (2 * fd + bit)) s = true ∨ portUsable (18 + (4 * fd + 1 - (2 * fd + bit))) s = true := by
    obtain rfl | rfl : bit = 0 ∨ bit = 1 := by omega
    · rwa [show 18 + (2 * fd + 0) = 18 + 2 * fd by omega, show 18 + (4 * fd + 1 - (2 * fd + 0)) = 19 + 2 * fd by omega]
    · rw [show 18 + (2 * fd + 1) = 19 + 2 * fd by omega, show 18 + (4 * fd + 1 - (2 * fd + 1)) = 18 + 2 * fd by omega]
      exact husable.symm
  split
  next hsel => exact ((Bool.and_eq_true _ _).mp hsel).2
  next hsel =>
    by_contra hnot
    exact hsel (by simpa [hboth.resolve_left hnot] using hnot)

/-- One transmission more of a peer's frame `q`. -/
def windowCounted (k : Nat) (q : BitVec 32) (s : State) : State :=
  setPeer k { getPeer k s with window := (getPeer k s).window.map (fun x => if x.1.seq = q then (x.1, x.2 + 1) else x) } s

/-- No reducing write was lost, so nothing is recorded. -/
theorem foldl_plain {fd src : Nat} : ∀ (l : List Msg), (∀ m ∈ l, isReducing m = false) → ∀ s : State,
    l.foldl (fun s m => if isReducing m then redUncertain fd src s else s) s = s
  | [], _, _ => rfl
  | m :: l, h, s => by
    obtain ⟨hm, hl⟩ := List.forall_mem_cons.1 h
    rw [List.foldl_cons, if_neg (by simp [hm]), foldl_plain l hl]

section
variable {fd : Fin 2} {peer : BitVec 16} {q : BitVec 32} {e : RouteFrame × Nat} {s : State}
  (hfind : (getPeer (peerKey fd peer.toNat) s).window.find? (fun e => e.1.seq = q) = some e)
include hfind

/-- A frame that may be sent again is, on a port that is usable, and its transmissions are counted. -/
theorem routeRto_resends (hfew : e.2 < effF (rtBase fd) R.RT_RTO_MAX_TX R.RT_CFG_LEVEL s)
    (husable : portUsable (18 + 2 * fd.val) s = true ∨ portUsable (19 + 2 * fd.val) s = true) :
    ∃ t r, Runs (.routeRtoExpiry fd peer q) s t ∧ t.out = s.out ++ [.route r e.1] ∧ Bumped (rtBase fd) R.RT_RETX_COUNT s t ∧
      (getPeer (peerKey fd peer.toNat) t).window = (getPeer (peerKey fd peer.toNat) s).window.map (fun x => if x.1.seq = q then (x.1, x.2 + 1) else x) ∧
      MemoriesKept s t ∧ t.cores = s.cores := by
  have hrun : routeRto fd peer q s = routeOut (routePort fd (hdrOf ((e.1.slots.headD 0).toNat)) (windowCounted (peerKey fd peer.toNat) q s)) e.1
      (bumpF (rtBase fd) R.RT_RETX_COUNT 1 (windowCounted (peerKey fd peer.toNat) q s)) := by
    rw [routeRto, hfind]
    exact if_neg (by omega)
  have husable' : portUsable (18 + routePort fd (hdrOf ((e.1.slots.headD 0).toNat)) (windowCounted (peerKey fd peer.toNat) q s))
      (bumpF (rtBase fd) R.RT_RETX_COUNT 1 (windowCounted (peerKey fd peer.toNat) q s)) = true := by
    rw [portUsable_bumpRt (by decide)]
    exact portUsable_routePort (by rwa [windowCounted, portUsable_setPeer, portUsable_setPeer])
  have hpeer : getPeer (peerKey fd peer.toNat) (windowCounted (peerKey fd peer.toNat) q s) = _ := (getPeer_setPeer ..).trans (if_pos rfl)
  have hframe : ∃ ps, windowCounted (peerKey fd peer.toNat) q s = { s with peers := ps } := ⟨_, rfl⟩
  generalize routePort fd (hdrOf ((e.1.slots.headD 0).toNat)) (windowCounted (peerKey fd peer.toNat) q s) = r at *
  generalize windowCounted (peerKey fd peer.toNat) q s = u at *
  have hbump := bumped_bumpF (f := R.RT_RETX_COUNT) (by decide) (rtBase fd) u
  obtain ⟨c, n, hcount⟩ := (RegsOnly.refl u).bumpF (rtBase fd) R.RT_RETX_COUNT 1
  generalize bumpF (rtBase fd) R.RT_RETX_COUNT 1 u = v at *
  obtain ⟨⟨c', hsent⟩, hkept⟩ := frameSent_routeOut husable' e.1
  rw [← hrun] at hsent hkept
  obtain ⟨ps, hu⟩ := hframe
  generalize hrun' : routeRto fd peer q s = t at *
  have hall : t = { s with csr := c', totals := n, peers := ps, out := s.out ++ [.route r e.1] } := by rw [hsent, hcount, hu]
  refine ⟨t, r, congrArg Host.Outcome.next hrun', by rw [hall], bumped_between hbump (by rw [hu]; rfl)
    (getF_of_word (hkept _ _ (not_routeWords_rt r fd (by decide)))), ?_, ?_, by rw [hall]⟩
  · have hpeers : getPeer (peerKey fd peer.toNat) t = getPeer (peerKey fd peer.toNat) u := by
      rw [hall, hu]
      rfl
    rw [hpeers, hpeer]
  · rw [hall]
    exact ⟨rfl, rfl, rfl, rfl, rfl⟩

/-- A frame sent for the last time clears its peer. -/
theorem routeRto_clears (hlast : effF (rtBase fd) R.RT_RTO_MAX_TX R.RT_CFG_LEVEL s ≤ e.2)
    (hplain : ∀ x ∈ (getPeer (peerKey fd peer.toNat) s).window, ∀ m ∈ frameMsgs x.1, isReducing m = false) :
    ∃ t, Runs (.routeRtoExpiry fd peer q) s t ∧ sFind t.peers (peerKey fd peer.toNat) = none ∧
      (∀ j, j ≠ peerKey fd peer.toNat → sFind t.peers j = sFind s.peers j) ∧ { t with peers := s.peers } = s := by
  have hidle : routeUnreachable fd (peerKey fd peer.toNat) (getPeer (peerKey fd peer.toNat) s) s = { s with peers := sDel (peerKey fd peer.toNat) s.peers } :=
    foldl_plain _ (by simpa using fun m a b hx hm => hplain (a, b) hx m hm) _
  refine ⟨{ s with peers := sDel (peerKey fd peer.toNat) s.peers }, congrArg Host.Outcome.next ?_, ?_, fun j hj => ?_, rfl⟩
  · rw [routeRto, hfind, ← hidle]
    exact if_pos hlast
  · exact (sFind_sDel ..).trans (if_pos rfl)
  · exact (sFind_sDel ..).trans (if_neg hj)

end

/-- Settles O41: flits, replays, Route frames and retransmissions, each by its own lemma. -/
theorem linksAcknowledgeAndReplay : Obligations.LinksAcknowledgeAndReplay := by
  intro s
  refine ⟨fun p f hp hport => ⟨flitReceive_badCrc hp hport, flitReceive_outOfOrder hp hport, fun hcrc hseq hnak hwaiting =>
      ⟨flitReceive_idle hp hport hcrc hseq hnak hwaiting, fun h rest => flitReceive_nop hp hport hcrc hseq hnak hwaiting⟩⟩,
    fun p hp => ⟨linkReplayTimeout_spec hp, linkReplayTimeout_idle hp⟩, fun r f hup => ⟨fun htype => ?_, fun hvid htype hcrc => ?_,
      fun p hgood hknown hwindow hqueue hplain hempty => ⟨fun hseq hbeyond => ?_, fun hseen => ?_⟩, fun p => routeAck_spec r, routeAnnounce_spec r hup⟩,
    fun fd peer q e hfind => ⟨routeRto_resends hfind, routeRto_clears hfind⟩⟩
  · exact ⟨_, congrArg Host.Outcome.next (routeFrameIn_foreign hup htype _), counted_bumpF _ (by decide) s⟩
  · exact ⟨_, congrArg Host.Outcome.next (routeFrameIn_badCrc hup hvid htype hcrc _), counted_bumpF _ (by decide) s⟩
  · obtain ⟨a, ha⟩ := routeData_new r.isLt ⟨hgood, hknown, hwindow, hqueue, hplain, hempty⟩ hseq hbeyond
    exact ⟨routeData r f s, a, rfl, ha⟩
  · obtain ⟨a, ha⟩ := routeData_seen r.isLt ⟨hgood, hknown, hwindow, hqueue, hplain, hempty⟩ hseen
    exact ⟨routeData r f s, a, rfl, ha⟩

end Sys2Proof.Machine
end

section
/-! PROOFS. The answers of a Halter home, and what the companion's requests do to the line they name (R246, R289 to R292). -/

namespace Sys2Proof.Machine

open Sys2Proof.Claims

/-! ### An answer leaves (R261, R289) -/

/-- Only the ports changed and what the package has sent. -/
def SentOnly (s t : State) : Prop := ∃ l o, t = { s with links := l, out := o }

/-- The answer to `m` with opcode `opc` on channel `vc`. -/
def halAnswer (m : HalMsg) (opc vc len pm : Nat) (lines : List Line) : HalMsg :=
  ⟨BitVec.ofNat 6 opc, BitVec.ofNat 2 vc, BitVec.ofNat 3 len, false, m.txid, m.line, BitVec.ofNat 8 pm, lines⟩

theorem length_halSlots_le (m : HalMsg) : (halSlots m).length ≤ 8 * m.lines.length + 1 := by
  have height : ∀ v, (lineSlots v).length = 8 := fun v => by simp [lineSlots]
  rw [halSlots]
  split
  · simp only [List.length_cons, List.length_map]
    omega
  · simp only [List.length_cons, List.length_flatMap, height, List.map_const', List.sum_replicate, smul_eq_mul]
    omega

/-- A message of at most one line takes one flit. -/
theorem linkRoom_halter {x : HalMsg} {l : Link} (hwaiting : l.waiting = []) (hroom : replayFlits l + 3 ≤ 512) (hlines : x.lines.length ≤ 1) :
    linkRoom (.halter x) l = true := by
  have hslots : (bodyOf (.halter x)).length ≤ 8 * x.lines.length + 1 := length_halSlots_le x
  rw [linkRoom, hwaiting]
  simp only [List.isEmpty_nil, Bool.true_and, decide_eq_true_eq]
  omega

/-- With room on its port an answer leaves at once, and nothing else changes. -/
theorem halSend_spec {m : HalMsg} {s : State} (hroom : HalRoom m.line.toNat s) (opc vc len pm : Nat) {lines : List Line} (hlines : lines.length ≤ 1) :
    SentOnly s (halSend opc vc len m.txid m.line pm lines s) ∧ Answered m opc pm lines s (halSend opc vc len m.txid m.line pm lines s) := by
  obtain ⟨hwaiting, hflits⟩ := hroom
  have hput : halSend opc vc len m.txid m.line pm lines s = emit (.halter (halAnswer m opc vc len pm lines))
      (setLink (22 + halPort m.line.toNat s) (linkSend (.halter (halAnswer m opc vc len pm lines)) (getLink (22 + halPort m.line.toNat s) s)) s) :=
    if_pos (linkRoom_halter (x := halAnswer m opc vc len pm lines) hwaiting hflits hlines)
  rw [hput]
  exact ⟨⟨_, _, rfl⟩, halAnswer m opc vc len pm lines, rfl, rfl, rfl, rfl, rfl, rfl⟩

/-- What was sent after `s` and before `t` is what was sent between states with the same output. -/
theorem answered_of_out {m : HalMsg} {opc pm : Nat} {lines : List Line} {s t u v : State} (h : Answered m opc pm lines u v) (hbefore : u.out = s.out)
    (hafter : t.out = v.out) : Answered m opc pm lines s t := by
  obtain ⟨x, hout, hfields⟩ := h
  exact ⟨x, by rw [hafter, hout, hbefore], hfields⟩

theorem SentOnly.frame {s t : State} (h : SentOnly s t) : { t with out := s.out, links := s.links } = s := by
  obtain ⟨l, o, rfl⟩ := h
  rfl

/-! ### The request's line (R290) -/

section
variable {m : HalMsg} {pl : Nat} {s : State} (hasks : AsksLine m pl s)
include hasks

theorem halLines_of_asks : halLines m s = some [pl] := by
  obtain ⟨hlen, hup, htarget, -⟩ := hasks
  have hpl : 128 * pl / 128 = pl := Nat.mul_div_cancel_left pl (by decide)
  have hone : List.range (m.len.toNat + 1) = [0] := by rw [hlen]; rfl
  rw [halLines, if_pos hup, hone, List.mapM_cons, List.mapM_nil, Nat.add_zero, htarget]
  exact congrArg (fun n => some [n]) hpl

/-- The line is one of HBM's. -/
theorem line_of_asks : pl < compKey 0 := by
  obtain ⟨-, -, htarget, -⟩ := hasks
  obtain ⟨hline, -⟩ := line_of_target_hbm htarget
  rwa [Nat.mul_div_cancel_left pl (by decide)] at hline

/-- No transaction holds the request back. -/
theorem halAccept_of_asks : halAccept m s = halServe m s := by
  obtain ⟨-, -, -, hsnooped, hawaited, -⟩ := id hasks
  rw [halAccept, halLines_of_asks hasks]
  simp [hsnooped, hawaited]

/-- The directory has room for the line's entry. -/
theorem dirRoom_of_asks {t : State} (hdepot : t.depot = s.depot) (hdir : t.hal.dir = s.hal.dir) : dirRoom pl t = t := by
  obtain ⟨-, -, -, -, -, -, hroom⟩ := hasks
  have hlines : dirLines (homeDie pl) t = dirLines (homeDie pl) s := by rw [dirLines, dirLines, hdepot, hdir]
  exact if_pos (.inl (hlines ▸ hroom))

end

/-! ### The Depots' copy of a line (R246, R254) -/

/-- A line of HBM is written back to HBM: nothing but lines changes. -/
theorem linesOnly_writeBack {pl : Nat} (hpl : pl < compKey 0) (x : DepotLine) (s : State) : LinesOnly s (writeBack pl x s) := by
  rw [writeBack]
  split
  · rw [if_neg (by omega)]
    split
    · obtain ⟨ps, hmark⟩ := poisonAdd_frame pl (hbmWrite (pl * 128) 128 x.data.toNat s)
      exact (linesOnly_hbmWrite ..).trans ⟨_, ps, _, _, hmark⟩
    · exact linesOnly_hbmWrite ..
  · exact .refl s

theorem depot_writeBack (pl : Nat) (x : DepotLine) (s : State) : (writeBack pl x s).depot = s.depot := by
  obtain ⟨hb, ps, cs, ha, l, o, h⟩ := writeBack_frame pl x s
  rw [h]

/-- The Depots' modified copy is written back and kept; no line's value changes. -/
theorem depotClean_spec {pl : Nat} (hpl : pl < compKey 0) (s : State) : LinesOnly s (depotClean pl s) ∧ ∀ q, lineNat q (depotClean pl s) = lineNat q s := by
  cases hfind : sFind s.depot pl with
  | none =>
    have hsame : depotClean pl s = s := by rw [depotClean, hfind]
    rw [hsame]
    exact ⟨.refl s, fun _ => rfl⟩
  | some x =>
    rw [depotClean, hfind]
    dsimp only
    split
    case isFalse => exact ⟨.refl s, fun _ => rfl⟩
    obtain ⟨hothers, -, -⟩ := writeBack_spec pl x { s with depot := sIns pl { x with dirty := false } s.depot }
    have hlines := linesOnly_writeBack hpl x { s with depot := sIns pl { x with dirty := false } s.depot }
    have hdepot := depot_writeBack pl x { s with depot := sIns pl { x with dirty := false } s.depot }
    generalize writeBack pl x { s with depot := sIns pl { x with dirty := false } s.depot } = t at *
    refine ⟨.trans ⟨_, _, _, _, rfl⟩ hlines, fun q => ?_⟩
    rcases eq_or_ne q pl with rfl | hq
    · have hnew : sFind t.depot q = some { x with dirty := false } := by rw [hdepot, sFind_sIns, if_pos rfl]
      rw [lineNat_of_find hnew, lineNat_of_find hfind]
    · exact (readsSame_of_lineKept (s := s) (by rw [hdepot, sFind_sIns, if_neg hq]) (hothers q hq)).1

/-- The Depots' copy is gone; no other line changes. -/
theorem depotDrop_spec {pl : Nat} (hpl : pl < compKey 0) (s : State) : LinesOnly s (depotDrop pl s) ∧ sFind (depotDrop pl s).depot pl = none ∧
    ∀ q, q ≠ pl → ReadsSame q s (depotDrop pl s) := by
  cases hfind : sFind s.depot pl with
  | none =>
    have hsame : depotDrop pl s = s := by rw [depotDrop, hfind]
    rw [hsame]
    exact ⟨.refl s, hfind, fun _ _ => ⟨rfl, rfl⟩⟩
  | some x =>
    rw [depotDrop, hfind]
    dsimp only
    obtain ⟨hothers, -, -⟩ := writeBack_spec pl x { s with depot := sDel pl s.depot }
    have hlines := linesOnly_writeBack hpl x { s with depot := sDel pl s.depot }
    have hdepot := depot_writeBack pl x { s with depot := sDel pl s.depot }
    generalize writeBack pl x { s with depot := sDel pl s.depot } = t at *
    refine ⟨.trans ⟨_, _, _, _, rfl⟩ hlines, by rw [hdepot, sFind_sDel, if_pos rfl], fun q hq => ?_⟩
    exact readsSame_of_lineKept (s := s) (by rw [hdepot, sFind_sDel, if_neg hq]) (hothers q hq)

end Sys2Proof.Machine
end

section
/-! PROOFS. The companion's requests and snoops (R290 to R292). -/

namespace Sys2Proof.Machine

open Sys2Proof.Claims

/-! ### What a home that serves a request changes -/

/-- Only lines, the Halter controller and the ports changed. -/
def HomeOnly (s t : State) : Prop := ∃ hb ps dp cs h l o, t = { s with hbm := hb, poison := ps, depot := dp, chans := cs, hal := h, links := l, out := o }

theorem HomeOnly.trans {s t u : State} (h : HomeOnly s t) (h' : HomeOnly t u) : HomeOnly s u := by
  obtain ⟨hb, ps, dp, cs, ha, l, o, rfl⟩ := h
  obtain ⟨hb', ps', dp', cs', ha', l', o', rfl⟩ := h'
  exact ⟨hb', ps', dp', cs', ha', l', o', rfl⟩

theorem LinesOnly.homeOnly {s t : State} (h : LinesOnly s t) : HomeOnly s t := by
  obtain ⟨hb, ps, dp, cs, rfl⟩ := h
  exact ⟨hb, ps, dp, cs, s.hal, s.links, s.out, rfl⟩

theorem SentOnly.homeOnly {s t : State} (h : SentOnly s t) : HomeOnly s t := by
  obtain ⟨l, o, rfl⟩ := h
  exact ⟨s.hbm, s.poison, s.depot, s.chans, s.hal, l, o, rfl⟩

theorem homeOnly_hal (s : State) (h : Halter) : HomeOnly s { s with hal := h } := ⟨s.hbm, s.poison, s.depot, s.chans, h, s.links, s.out, rfl⟩

theorem HomeOnly.tileSram_blocks {s t : State} (h : HomeOnly s t) : t.tileSram = s.tileSram ∧ t.cores = s.cores ∧ t.engines = s.engines := by
  obtain ⟨hb, ps, dp, cs, ha, l, o, rfl⟩ := h
  exact ⟨rfl, rfl, rfl⟩

theorem otherLinesKept_of_homeOnly {pl : Nat} {s t : State} (h : HomeOnly s t) (hothers : ∀ q, q ≠ pl → lineNat q t = lineNat q s) : OtherLinesKept pl s t :=
  ⟨hothers, h.tileSram_blocks⟩

theorem SentOnly.lineNat_eq {s t : State} (h : SentOnly s t) (q : Nat) : lineNat q t = lineNat q s ∧ linePoison q t = linePoison q s := by
  obtain ⟨l, o, rfl⟩ := h
  exact ⟨rfl, rfl⟩

theorem SentOnly.depot_hal {s t : State} (h : SentOnly s t) : t.depot = s.depot ∧ t.hal = s.hal := by
  obtain ⟨l, o, rfl⟩ := h
  exact ⟨rfl, rfl⟩

theorem LinesOnly.out_hal {s t : State} (h : LinesOnly s t) : t.out = s.out ∧ t.hal = s.hal := by
  obtain ⟨hb, ps, dp, cs, rfl⟩ := h
  exact ⟨rfl, rfl⟩

/-- Room on a port depends on registers and links alone. -/
theorem halRoom_of_linesOnly {line : Nat} {s t : State} (h : LinesOnly s t) (hroom : HalRoom line s) : HalRoom line t := by
  obtain ⟨hb, ps, dp, cs, rfl⟩ := h
  exact hroom

theorem halMsg_of_opc {opc : Nat} {m : HalMsg} (h : m.opc.toNat = opc) (body : State → State) (s : State) : halMsg opc m body s = body s := if_pos h

/-- The poison mask of one line. -/
theorem pmaskOf_one (pl : Nat) (s : State) : pmaskOf [pl] s = b2n (linePoison pl s) := by
  cases h : linePoison pl s <;> simp [pmaskOf, packBits, b2n, h]

/-- Nobody waits at the home: a line that came back lets nothing go on. -/
theorem afterSnoop_of_nobody {t : State} (h : t.hal.waiting = []) : afterSnoop t = t := by
  have hsame : { t with hal := { t.hal with waiting := [] } } = t := by rw [← h]
  have hgo : afterSnoop t = { t with hal := { t.hal with waiting := [] } } := by
    rw [afterSnoop, h]
    rfl
  exact hgo.trans hsame

/-! ### Requests for one line (R291, R292) -/

section
variable {m : HalMsg} {pl : Nat} {s : State} (hasks : AsksLine m pl s)
include hasks

theorem room_of_asks : HalRoom m.line.toNat s := by
  obtain ⟨-, -, -, -, -, hroom, -⟩ := hasks
  exact hroom

/-- A served request for one line. -/
theorem runs_served {i : Instr} {opc : Nat} (hrun : exec i s = .next (halMsg opc m (halAccept m) s)) (hopc : m.opc.toNat = opc) {t : State}
    (ht : halServe m s = t) : Runs i s t :=
  hrun.trans (congrArg Host.Outcome.next ((halMsg_of_opc hopc _ s).trans ((halAccept_of_asks hasks).trans ht)))

/-- The line shared with the companion: its value stays, and goes to the companion. -/
theorem rdS_spec (hopc : m.opc = 0x01) : ∃ t, Runs (.rdS m) s t ∧ Answered m 0x18 (b2n (linePoison pl s)) [BitVec.ofNat 1024 (lineNat pl s)] s t ∧
    sFind t.hal.dir pl = some .shared ∧ (∀ q, lineNat q t = lineNat q s) ∧ t.tileSram = s.tileSram ∧ t.cores = s.cores := by
  have hnat : m.opc.toNat = 0x01 := by rw [hopc]; rfl
  obtain ⟨hsent, hans⟩ := halSend_spec (room_of_asks hasks) 0x18 3 0 (b2n (linePoison pl s)) (lines := [BitVec.ofNat 1024 (lineNat pl s)]) (Nat.le_refl 1)
  have hserve : halServe m s = setDir pl .shared (depotClean pl (dirRoom pl
      (halSend 0x18 3 0 m.txid m.line (b2n (linePoison pl s)) [BitVec.ofNat 1024 (lineNat pl s)] s))) := by
    rw [halServe, halLines_of_asks hasks]
    dsimp only
    rw [hnat, ← pmaskOf_one]
    rfl
  generalize halSend 0x18 3 0 m.txid m.line (b2n (linePoison pl s)) [BitVec.ofNat 1024 (lineNat pl s)] s = u at *
  obtain ⟨hdepot, hhal⟩ := hsent.depot_hal
  rw [dirRoom_of_asks hasks hdepot (congrArg _ hhal)] at hserve
  obtain ⟨hlines, hvalues⟩ := depotClean_spec (line_of_asks hasks) u
  generalize depotClean pl u = v at *
  obtain ⟨htile, hcores, -⟩ := (hsent.homeOnly.trans hlines.homeOnly).tileSram_blocks
  exact ⟨setDir pl .shared v, runs_served hasks rfl hnat hserve, answered_of_out hans rfl hlines.out_hal.1, by rw [setDir, sFind_sIns, if_pos rfl],
    fun q => (hvalues q).trans (hsent.lineNat_eq q).1, htile, hcores⟩

/-- The line given to the companion alone: an answer has left, the Depots' copy goes, and the directory shows the owner. -/
theorem owned_spec {opc pm : Nat} {lines : List Line} {u : State} (hsent : SentOnly s u) (hans : Answered m opc pm lines s u) :
    Answered m opc pm lines s (setDir pl .owned (depotDrop pl u)) ∧ sFind (setDir pl .owned (depotDrop pl u)).hal.dir pl = some .owned ∧
    sFind (setDir pl .owned (depotDrop pl u)).depot pl = none ∧ OtherLinesKept pl s (setDir pl .owned (depotDrop pl u)) := by
  obtain ⟨hlines, hgone, hothers⟩ := depotDrop_spec (line_of_asks hasks) u
  generalize depotDrop pl u = v at *
  exact ⟨answered_of_out hans rfl hlines.out_hal.1, by rw [setDir, sFind_sIns, if_pos rfl], hgone, otherLinesKept_of_homeOnly
    ((hsent.homeOnly.trans hlines.homeOnly).trans (homeOnly_hal v _)) fun q hq => (hothers q hq).1.trans (hsent.lineNat_eq q).1⟩

theorem rdO_spec (hopc : m.opc = 0x02) : ∃ t, Runs (.rdO m) s t ∧ Answered m 0x19 (b2n (linePoison pl s)) [BitVec.ofNat 1024 (lineNat pl s)] s t ∧
    sFind t.hal.dir pl = some .owned ∧ sFind t.depot pl = none ∧ OtherLinesKept pl s t := by
  have hnat : m.opc.toNat = 0x02 := by rw [hopc]; rfl
  obtain ⟨hsent, hans⟩ := halSend_spec (room_of_asks hasks) 0x19 3 0 (b2n (linePoison pl s)) (lines := [BitVec.ofNat 1024 (lineNat pl s)]) (Nat.le_refl 1)
  have hserve : halServe m s = setDir pl .owned (depotDrop pl (dirRoom pl
      (halSend 0x19 3 0 m.txid m.line (b2n (linePoison pl s)) [BitVec.ofNat 1024 (lineNat pl s)] s))) := by
    rw [halServe, halLines_of_asks hasks]
    dsimp only
    rw [hnat, ← pmaskOf_one]
    rfl
  generalize halSend 0x19 3 0 m.txid m.line (b2n (linePoison pl s)) [BitVec.ofNat 1024 (lineNat pl s)] s = u at *
  obtain ⟨hdepot, hhal⟩ := hsent.depot_hal
  rw [dirRoom_of_asks hasks hdepot (congrArg _ hhal)] at hserve
  exact ⟨_, runs_served hasks rfl hnat hserve, owned_spec hasks hsent hans⟩

theorem upg_spec (hopc : m.opc = 0x03) (hheld : (sFind s.hal.dir pl).isSome = true) : ∃ t, Runs (.upg m) s t ∧ Answered m 0x15 0 [] s t ∧
    sFind t.hal.dir pl = some .owned ∧ sFind t.depot pl = none ∧ OtherLinesKept pl s t := by
  have hnat : m.opc.toNat = 0x03 := by rw [hopc]; rfl
  obtain ⟨hsent, hans⟩ := halSend_spec (room_of_asks hasks) 0x15 2 0 0 (lines := []) (Nat.zero_le 1)
  have hserve : halServe m s = setDir pl .owned (depotDrop pl (halSend 0x15 2 0 m.txid m.line 0 [] s)) := by
    rw [halServe, halLines_of_asks hasks]
    dsimp only
    rw [hnat]
    exact if_pos hheld
  exact ⟨_, runs_served hasks rfl hnat hserve, owned_spec hasks hsent hans⟩

theorem rdNc_spec (hopc : m.opc = 0x04) : ∃ t, Runs (.rdNc m) s t ∧ Answered m 0x19 (b2n (linePoison pl s)) [BitVec.ofNat 1024 (lineNat pl s)] s t ∧
    { t with out := s.out, links := s.links } = s := by
  have hnat : m.opc.toNat = 0x04 := by rw [hopc]; rfl
  obtain ⟨hsent, hans⟩ := halSend_spec (room_of_asks hasks) 0x19 3 m.len.toNat (b2n (linePoison pl s)) (lines := [BitVec.ofNat 1024 (lineNat pl s)])
    (Nat.le_refl 1)
  have hserve : halServe m s = halSend 0x19 3 m.len.toNat m.txid m.line (b2n (linePoison pl s)) [BitVec.ofNat 1024 (lineNat pl s)] s := by
    rw [halServe, halLines_of_asks hasks]
    dsimp only
    rw [hnat, ← pmaskOf_one]
    rfl
  exact ⟨_, runs_served hasks rfl hnat hserve, hans, hsent.frame⟩

/-- A whole line of the companion's is the line's value; the directory shows no copy of the companion's; the answer leaves. -/
theorem taken_spec {x : Line} {poison : Bool} (hoos : chanOos pl s = false) {t : State}
    (ht : halSend 0x15 2 0 m.txid m.line 0 [] (wholeLine pl x.toNat poison (delDir pl s)) = t) :
    t.hal.waiting = s.hal.waiting ∧ Answered m 0x15 0 [] s t ∧ lineNat pl t = x.toNat ∧ linePoison pl t = poison ∧ sFind t.hal.dir pl = none ∧
    OtherLinesKept pl s t := by
  obtain ⟨hline, hpoison, hothers⟩ := wholeLine_spec (s := delDir pl s) x.toNat poison hoos
  have hlines := linesOnly_wholeLine pl x.toNat poison (delDir pl s)
  generalize wholeLine pl x.toNat poison (delDir pl s) = v at *
  obtain ⟨hout, hhal⟩ := hlines.out_hal
  have hroom := room_of_asks hasks
  change HalRoom m.line.toNat (delDir pl s) at hroom
  obtain ⟨hsent, hans⟩ := halSend_spec (halRoom_of_linesOnly hlines hroom) 0x15 2 0 0 (lines := []) (Nat.zero_le 1)
  rw [ht] at hsent hans
  obtain ⟨hvalue, hmark⟩ := hsent.lineNat_eq pl
  obtain ⟨-, hdir⟩ := hsent.depot_hal
  refine ⟨by rw [hdir, hhal]; rfl, answered_of_out hans hout rfl, ?_, hmark.trans hpoison, ?_, otherLinesKept_of_homeOnly
    (((homeOnly_hal s _).trans hlines.homeOnly).trans hsent.homeOnly) fun q hq => (hsent.lineNat_eq q).1.trans (hothers q hq).1⟩
  · rw [hvalue, hline, Nat.mod_eq_of_lt x.isLt]
  · rw [hdir, hhal, delDir, sFind_sDel, if_pos rfl]

theorem wrFull_spec {x : Line} (hopc : m.opc = 0x05) (hx : m.lines = [x]) (hoos : chanOos pl s = false) :
    ∃ t, Runs (.wrFull m) s t ∧ Answered m 0x15 0 [] s t ∧
    lineNat pl t = x.toNat ∧ linePoison pl t = bitAt m.pmask.toNat 0 ∧ sFind t.hal.dir pl = none ∧ OtherLinesKept pl s t := by
  have hnat : m.opc.toNat = 0x05 := by rw [hopc]; rfl
  have hserve : halServe m s = halSend 0x15 2 0 m.txid m.line 0 [] (wholeLine pl x.toNat (bitAt m.pmask.toNat 0) (delDir pl s)) := by
    rw [halServe, halLines_of_asks hasks]
    dsimp only
    rw [hnat, hx]
    rfl
  obtain ⟨-, htaken⟩ := taken_spec hasks (x := x) (poison := bitAt m.pmask.toNat 0) hoos rfl
  exact ⟨_, runs_served hasks rfl hnat hserve, htaken⟩

theorem wb_spec {x : Line} (hopc : m.opc = 0x14) (hx : m.lines = [x]) (hoos : chanOos pl s = false) (hnobody : NobodyWaits s) :
    ∃ t, Runs (.wb m) s t ∧ Answered m 0x15 0 [] s t ∧
    lineNat pl t = x.toNat ∧ linePoison pl t = bitAt m.pmask.toNat 0 ∧ sFind t.hal.dir pl = none ∧ OtherLinesKept pl s t := by
  have hnat : m.opc.toNat = 0x14 := by rw [hopc]; rfl
  have hserve : halWb m s = halSend 0x15 2 0 m.txid m.line 0 [] (wholeLine pl x.toNat (bitAt m.pmask.toNat 0) (delDir pl s)) := by
    rw [halWb, halLines_of_asks hasks, hx]
    rfl
  obtain ⟨hwaiting, htaken⟩ := taken_spec hasks (x := x) (poison := bitAt m.pmask.toNat 0) hoos rfl
  exact ⟨_, congrArg Host.Outcome.next ((halMsg_of_opc hnat _ s).trans ((congrArg afterSnoop hserve).trans
    (afterSnoop_of_nobody (hwaiting.trans hnobody)))), htaken⟩


end

end Sys2Proof.Machine
end

section
/-! PROOFS. Refused requests, snoops from the companion, and the answers to the package's own snoops (R290 to R293). -/

namespace Sys2Proof.Machine

open Sys2Proof.Claims

/-! ### A request beside the HBM windows (R290) -/

theorem onlyRegs_of_sent {touched : Nat → Prop} {s u t : State} (hsent : SentOnly s u) (h : OnlyRegs touched u t) :
    OnlyRegs touched s { t with out := s.out, links := s.links } := by
  obtain ⟨l, o, rfl⟩ := hsent
  obtain ⟨hwords, -⟩ := id h
  obtain ⟨c, g, k, e, rfl⟩ := restKept_of_onlyRegs h
  exact ⟨hwords, rfl⟩

section
variable {m : HalMsg} {s : State} (hroom : HalRoom m.line.toNat s)
include hroom

theorem halRefuse_spec : Answered m 0x3F 0 [] s (halRefuse m s) ∧ Logged 0xF003 0x51 1 s (halRefuse m s) ∧
    OnlyLogged s { halRefuse m s with out := s.out, links := s.links } := by
  obtain ⟨hsent, hans⟩ := halSend_spec hroom 0x3F 2 0 0 (lines := []) (Nat.zero_le 1)
  rw [halRefuse]
  generalize halSend 0x3F 2 0 m.txid m.line 0 [] s = u at *
  have honly := onlyLogged_raise 0xF003 0x51 1 0 0 u
  have hlogged := logged_raise 0xF003 0x51 1 0 0 u
  obtain ⟨-, hout⟩ := OnlyRegs.links_eq honly
  refine ⟨answered_of_out hans rfl hout, ?_, onlyRegs_of_sent hsent honly⟩
  obtain ⟨l, o, rfl⟩ := hsent
  exact logged_of_same hlogged rfl rfl

omit hroom in
theorem halAccept_of_none (hnone : halLines m s = none) : halAccept m s = halRefuse m s := by rw [halAccept, hnone]

/-! ### Snoops from the companion (R291, R292) -/

/-- A line that no Depot holds: the answer is RSP_I, and nothing else changes. -/
theorem halSnooped_absent (inv : Bool) (hnone : ∀ w, winLine m.line.toNat s = some w → sFind s.depot (compKey w) = none) :
    Answered m 0x10 0 [] s (halSnooped inv m s) ∧ { halSnooped inv m s with out := s.out, links := s.links } = s := by
  obtain ⟨hsent, hans⟩ := halSend_spec hroom 0x10 2 0 0 (lines := []) (Nat.zero_le 1)
  have hsend : halSnooped inv m s = halSend 0x10 2 0 m.txid m.line 0 [] s := by
    rw [halSnooped]
    cases hw : winLine m.line.toNat s with
    | none => rfl
    | some w =>
      dsimp only
      rw [hnone w hw]
  rw [hsend]
  exact ⟨hans, hsent.frame⟩

/-- A line that a Depot holds: the copy goes or stays clean, and the answer carries it where it was modified. -/
theorem halSnooped_held (inv : Bool) {w : Nat} {d : DepotLine} (hw : winLine m.line.toNat s = some w) (hd : sFind s.depot (compKey w) = some d) :
    let t := halSnooped inv m s
    sFind t.depot (compKey w) = (if inv then none else some { d with dirty := false, own := false }) ∧
    Answered m (if d.dirty = true then if inv then 0x12 else 0x13 else if inv then 0x10 else 0x11) (if d.dirty = true then b2n d.poison else 0)
      (if d.dirty = true then [d.data] else []) s t ∧ t.hbm = s.hbm ∧ t.cores = s.cores := by
  intro t
  have hdepot : ∀ dp pm (lines : List Line) opc, lines.length ≤ 1 → t = halSend opc 2 0 m.txid m.line pm lines { s with depot := dp } →
      sFind t.depot (compKey w) = sFind dp (compKey w) ∧ Answered m opc pm lines s t ∧ t.hbm = s.hbm ∧ t.cores = s.cores := by
    intro dp pm lines opc hlen ht
    have hkept := hroom
    change HalRoom m.line.toNat { s with depot := dp } at hkept
    obtain ⟨⟨l, o, hsent⟩, hans⟩ := halSend_spec hkept opc 2 0 pm hlen
    rw [← ht] at hsent hans
    refine ⟨by rw [hsent], answered_of_out hans rfl rfl, by rw [hsent], by rw [hsent]⟩
  have hheld : t = snoopHeld inv m (compKey w) d s := by
    change halSnooped inv m s = _
    rw [halSnooped, hw]
    dsimp only
    rw [hd]
  have hentry : ∀ e, sFind (if inv then sDel (compKey w) s.depot else sIns (compKey w) e s.depot) (compKey w) = if inv then none else some e := fun e => by
    cases inv <;> simp
  rw [snoopHeld] at hheld
  rw [← hentry]
  cases hdirty : d.dirty with
  | true => exact hdepot _ _ _ _ (Nat.le_refl 1) (hheld.trans (if_pos hdirty))
  | false => exact hdepot _ _ _ _ (Nat.zero_le 1) (hheld.trans (if_neg (by simp [hdirty])))

end

/-! ### The answers to the package's own snoops (R291 to R293) -/

/-- Only the Halter controller changed. -/
def HalOnly (s t : State) : Prop := ∃ h, t = { s with hal := h }

/-- A snoop that ends: it leaves the list, and the directory shows the copy the companion keeps. -/
def snoopEnded (x : Snoop) (shared : Bool) (s : State) : State :=
  { s with hal := { s.hal with snoops := s.hal.snoops.filter (fun y => y.txid ≠ x.txid),
                               dir := if shared && !x.inv then sIns x.line .shared s.hal.dir else sDel x.line s.hal.dir } }

section
variable {q : BitVec 16} {x : Snoop} {s : State} (hx : s.hal.snoops.find? (fun y => y.txid = q) = some x)
include hx

theorem txid_of_find : x.txid = q := by simpa using List.find?_some hx

/-- The end of a snoop, without data. -/
theorem snoopClose_none (shared : Bool) : snoopClose q shared none s = snoopEnded x shared s := by
  rw [snoopClose, hx, ← txid_of_find hx, snoopEnded]
  cases hkept : shared && !x.inv
  · dsimp only
    rw [hkept]
    rfl
  · dsimp only
    rw [hkept]
    rfl

/-- The data of an answer are the line's value. -/
theorem snoopClose_data (shared : Bool) (d : Line) (p : Bool) : snoopClose q shared (some (d, p)) s = wholeLine x.line d.toNat p (snoopEnded x shared s) := by
  rw [← snoopClose_none hx, snoopClose, snoopClose, hx]
  rfl

end

theorem snoopEnded_spec (x : Snoop) (shared : Bool) (s : State) : (∀ y ∈ (snoopEnded x shared s).hal.snoops, y.txid ≠ x.txid) ∧
    sFind (snoopEnded x shared s).hal.dir x.line = (if shared then if x.inv = true then none else some .shared else none) ∧
    HalOnly s (snoopEnded x shared s) ∧ (snoopEnded x shared s).hal.waiting = s.hal.waiting := by
  refine ⟨fun y hy => by simpa using (List.mem_filter.1 hy).2, ?_, ⟨_, rfl⟩, rfl⟩
  rw [snoopEnded]
  cases shared <;> cases x.inv <;> simp

end Sys2Proof.Machine
end

section
/-! PROOFS. Answered and unanswered snoops: the line's value and poison, and the directory's entry (R291 to R293). -/

namespace Sys2Proof.Machine

open Sys2Proof.Claims

/-! ### Snoop answers (R291, R292) -/

theorem HalOnly.kept {s t : State} (h : HalOnly s t) : MemoriesKept s t ∧ t.cores = s.cores := by
  obtain ⟨x, rfl⟩ := h
  exact ⟨⟨rfl, rfl, rfl, rfl, rfl⟩, rfl⟩

theorem HalOnly.homeOnly {s t : State} (h : HalOnly s t) : HomeOnly s t := by
  obtain ⟨x, rfl⟩ := h
  exact homeOnly_hal s x

theorem HalOnly.lines_eq {s t : State} (h : HalOnly s t) (pl : Nat) : lineNat pl t = lineNat pl s ∧ chanOos pl t = chanOos pl s := by
  obtain ⟨x, rfl⟩ := h
  exact ⟨rfl, rfl⟩

section
variable {m : HalMsg} {x : Snoop} {s : State} (hx : s.hal.snoops.find? (fun y => y.txid = m.txid) = some x) (hnobody : NobodyWaits s)
include hx hnobody

/-- An answer without data closes its snoop, and no memory changes. -/
theorem rsp_spec {i : Instr} {opc : Nat} {shared : Bool} (hrun : exec i s = .next (halMsg opc m (onSnoopRsp shared false m) s)) (hopc : m.opc.toNat = opc) :
    ∃ t, Runs i s t ∧ (∀ y ∈ t.hal.snoops, y.txid ≠ m.txid) ∧
      sFind t.hal.dir x.line = (if shared then if x.inv = true then none else some .shared else none) ∧ MemoriesKept s t ∧ t.cores = s.cores := by
  obtain ⟨hclosed, hdir, hhal, hwaiting⟩ := snoopEnded_spec x shared s
  have hend : onSnoopRsp shared false m s = afterSnoop (snoopEnded x shared s) := congrArg afterSnoop (snoopClose_none hx shared)
  rw [afterSnoop_of_nobody (hwaiting.trans hnobody)] at hend
  rw [txid_of_find hx] at hclosed
  exact ⟨snoopEnded x shared s, hrun.trans (congrArg Host.Outcome.next ((halMsg_of_opc hopc _ s).trans hend)), hclosed, hdir, hhal.kept⟩

/-- The data of an answer are the line's value, and it closes its snoop. -/
theorem rspData_spec {d : Line} (hd : m.lines = [d]) (hoos : chanOos x.line s = false) {i : Instr} {opc : Nat} {shared : Bool}
    (hrun : exec i s = .next (halMsg opc m (onSnoopRsp shared true m) s)) (hopc : m.opc.toNat = opc) : ∃ t, Runs i s t ∧
      (∀ y ∈ t.hal.snoops, y.txid ≠ m.txid) ∧ sFind t.hal.dir x.line = (if shared then if x.inv = true then none else some .shared else none) ∧
      lineNat x.line t = d.toNat ∧ linePoison x.line t = bitAt m.pmask.toNat 0 ∧ OtherLinesKept x.line s t := by
  obtain ⟨hclosed, hdir, hhal, hwaiting⟩ := snoopEnded_spec x shared s
  have hend : onSnoopRsp shared true m s = afterSnoop (wholeLine x.line d.toNat (bitAt m.pmask.toNat 0) (snoopEnded x shared s)) := by
    rw [onSnoopRsp, hd]
    exact congrArg afterSnoop (snoopClose_data hx shared d (bitAt m.pmask.toNat 0))
  generalize snoopEnded x shared s = u at *
  obtain ⟨hline, hpoison, hothers⟩ := wholeLine_spec d.toNat (bitAt m.pmask.toNat 0) ((hhal.lines_eq x.line).2.trans hoos)
  have hlines := linesOnly_wholeLine x.line d.toNat (bitAt m.pmask.toNat 0) u
  generalize wholeLine x.line d.toNat (bitAt m.pmask.toNat 0) u = v at *
  obtain ⟨-, hsame⟩ := hlines.out_hal
  rw [afterSnoop_of_nobody (by rw [hsame, hwaiting, hnobody])] at hend
  rw [txid_of_find hx, ← hsame] at hclosed
  rw [← hsame] at hdir
  exact ⟨v, hrun.trans (congrArg Host.Outcome.next ((halMsg_of_opc hopc _ s).trans hend)), hclosed, hdir, hline.trans (Nat.mod_eq_of_lt d.isLt), hpoison,
    otherLinesKept_of_homeOnly (hhal.homeOnly.trans hlines.homeOnly) fun q hq => (hothers q hq).1.trans (hhal.lines_eq q).1⟩

end

/-! ### Lines taken back (R293, R294) -/

/-- A line taken back is counted and shown. -/
def takenNoted (s : State) : State := setF halBase R.HAL_STATUS_SNP_TIMEOUT 1 (bumpF halBase R.HAL_STATUS_SNP_TIMEOUT_COUNT 1 s)

theorem fieldsOnly_takenNoted (s : State) : FieldsOnly halBase [R.HAL_STATUS_SNP_TIMEOUT, R.HAL_STATUS_SNP_TIMEOUT_COUNT] s (takenNoted s) :=
  ((FieldsOnly.refl _ _ s).bumpF (by simp) 1).setF (by simp) 1

/-- What taking lines back keeps: HBM, the cores and all but marks of poison, registers and Logbook; poisoned lines stay so, events stay in their queues. -/
structure TakeKept (s t : State) : Prop where
  frame : ∃ c l k e ps dp, t = { s with csr := c, log := l, totals := k, stepErr := e, poison := ps, depot := dp }
  poisoned : ∀ q, linePoison q s = true → linePoison q t = true
  queues : QueuesGrow s t
  err : s.stepErr = true → t.stepErr = true
  down : getF halBase R.HAL_STATUS_DOWN t = getF halBase R.HAL_STATUS_DOWN s

theorem TakeKept.refl (s : State) : TakeKept s s := ⟨⟨_, _, _, _, _, _, rfl⟩, fun _ h => h, .of_eq rfl, id, rfl⟩

theorem TakeKept.trans {s t u : State} (h : TakeKept s t) (h' : TakeKept t u) : TakeKept s u where
  frame := by
    obtain ⟨c, l, k, e, ps, dp, rfl⟩ := h.frame
    obtain ⟨c', l', k', e', ps', dp', hu⟩ := h'.frame
    exact ⟨c', l', k', e', ps', dp', hu⟩
  poisoned q hq := h'.poisoned q (h.poisoned q hq)
  queues := h.queues.trans h'.queues
  err hs := h'.err (h.err hs)
  down := h'.down.trans h.down

theorem poisonLine_frame (pl : Nat) (s : State) : ∃ ps dp, poisonLine pl s = { s with poison := ps, depot := dp } := by
  rw [poisonLine]
  split
  · exact ⟨s.poison, _, rfl⟩
  · obtain ⟨ps, h⟩ := poisonAdd_frame pl s
    exact ⟨ps, s.depot, h⟩

theorem getF_raise_hal (f : Fld) (src code sev arg0 arg1 : Nat) (s : State) (hf : halBase + f.off ≠ lostAt) :
    getF halBase f (raise src code sev arg0 arg1 s) = getF halBase f s := getF_of_word (csrGet_raise _ _ _ _ _ _ hf)

/-- A line taken back is poisoned, counted and recorded. -/
theorem takenBack_spec {pl : Nat} {s t : State} (ht : takenBack pl s = t) : TakeKept s t ∧ linePoison pl t = true ∧
    getF halBase R.HAL_STATUS_SNP_TIMEOUT t = 1 ∧ Bumped halBase R.HAL_STATUS_SNP_TIMEOUT_COUNT s t ∧ Logged 0xF003 0x5B 2 s t ∧ t.stepErr = true := by
  obtain ⟨⟨c, k, hnoted⟩, hfields⟩ := fieldsOnly_takenNoted s
  have hflag : getF halBase R.HAL_STATUS_SNP_TIMEOUT (takenNoted s) = 1 := getF_setF _ _ _ _ (by decide)
  have hbump : Bumped halBase R.HAL_STATUS_SNP_TIMEOUT_COUNT s (takenNoted s) :=
    bumped_between (bumped_bumpF (by decide) _ s) rfl (getF_setF_beside _ _ _ (by decide) (by decide))
  change raise 0xF003 0x5B 2 0 0 (poisonLine pl (takenNoted s)) = t at ht
  generalize takenNoted s = u at *
  obtain ⟨-, hpoison, hothers⟩ := poisonLine_spec pl u
  obtain ⟨ps, dp, hmarked⟩ := poisonLine_frame pl u
  generalize poisonLine pl u = v at *
  have hrest := restKept_raise 0xF003 0x5B 2 0 0 v
  have hqueues := queuesGrow_raise 0xF003 0x5B 2 0 0 v
  have hlogged := logged_raise 0xF003 0x5B 2 0 0 v
  have herr := stepErr_raise (le_refl 2) 0xF003 0x5B 0 0 v
  have hraise := fun f hf => getF_raise_hal f 0xF003 0x5B 2 0 0 v hf
  rw [ht] at hrest hqueues hlogged herr
  simp only [ht] at hraise
  have hword : ∀ f, halBase + f.off ≠ lostAt → getF halBase f t = getF halBase f u := fun f hf => (hraise f hf).trans (by rw [hmarked]; rfl)
  have hlog : v.log = s.log := by rw [hmarked, hnoted]
  have hnow : v.count = s.count := by rw [hmarked, hnoted]
  obtain ⟨c', l', k', e', hframe⟩ := hrest
  have hmark : ∀ q, linePoison q t = linePoison q v := fun q => by rw [hframe]; rfl
  refine ⟨⟨⟨c', l', k', e', ps, dp, by rw [hframe, hmarked, hnoted]⟩, fun q hq => ?_, ?_, fun _ => herr, ?_⟩, (hmark pl).trans hpoison, ?_, ?_, ?_, herr⟩
  · rw [hmark]
    rcases eq_or_ne q pl with rfl | hne
    · exact hpoison
    · rw [(hothers q hne).2, hnoted]
      exact hq
  · exact QueuesGrow.trans (.of_eq (congrArg Logbook.queues hlog)) hqueues
  · exact (hword _ (by decide)).trans (hfields _ (by decide) (by decide))
  · exact (hword _ (by decide)).trans hflag
  · exact bumped_between hbump rfl (hword _ (by decide))
  · exact logged_of_same hlogged hlog hnow

/-- A snoop that was never answered: its line is taken back (R293). -/
theorem snpTimeout_spec {q : BitVec 16} {x : Snoop} {s : State} (hx : s.hal.snoops.find? (fun y => y.txid = q) = some x) (hnobody : NobodyWaits s) :
    ∃ t, Runs (.halterSnpTimeout q) s t ∧ (∀ y ∈ t.hal.snoops, y.txid ≠ q) ∧ sFind t.hal.dir x.line = none ∧ linePoison x.line t = true ∧
      getF halBase R.HAL_STATUS_SNP_TIMEOUT t = 1 ∧ Bumped halBase R.HAL_STATUS_SNP_TIMEOUT_COUNT s t ∧ Logged 0xF003 0x5B 2 s t ∧ t.stepErr = true := by
  obtain ⟨hclosed, hdir, ⟨h, hhal⟩, hwaiting⟩ := snoopEnded_spec x false s
  have hend : halTimeout q s = takenBack x.line (snoopEnded x false s) := by
    rw [halTimeout, hx, ← snoopClose_none hx]
  generalize snoopEnded x false s = u at *
  obtain ⟨hkept, hpoison, hflag, hbump, hlogged, herr⟩ := takenBack_spec (pl := x.line) (s := u) rfl
  generalize takenBack x.line u = t at *
  obtain ⟨c, l, k, e, ps, dp, hframe⟩ := hkept.frame
  have hsame : t.hal = u.hal := by rw [hframe]
  rw [txid_of_find hx, ← hsame] at hclosed
  rw [← hsame] at hdir
  refine ⟨t, congrArg Host.Outcome.next ((congrArg afterSnoop hend).trans (afterSnoop_of_nobody (by rw [hsame, hwaiting, hnobody]))), hclosed,
    hdir, hpoison, hflag, ?_, logged_of_same hlogged (by rw [hhal]) (by rw [hhal]), herr⟩
  rw [hhal] at hbump
  exact hbump

end Sys2Proof.Machine
end

section
/-! PROOFS. The package's own requests to the companion, and lost Halter ports (R290 to R294). -/

namespace Sys2Proof.Machine

open Sys2Proof.Claims

/-! ### Requests of the package (R291) -/

/-- A request that ended is gone from the list; the others stand. -/
theorem reqClose_spec (r : HalReq) (s : State) : (∀ y ∈ (reqClose r s).hal.reqs, y.txid ≠ r.txid) ∧
    (∀ y, y.txid ≠ r.txid → (y ∈ (reqClose r s).hal.reqs ↔ y ∈ s.hal.reqs)) ∧ HalOnly s (reqClose r s) ∧
    { reqClose r s with hal := { (reqClose r s).hal with reqs := s.hal.reqs } } = s :=
  ⟨fun y hy => by simpa using (List.mem_filter.1 hy).2, fun y hy => by simp [reqClose, List.mem_filter, hy], ⟨_, rfl⟩, rfl⟩

/-- A completion of anything but an upgrade only ends its request. -/
theorem cmp_spec {m : HalMsg} {s : State} (hopc : m.opc = 0x15) (hplain : ∀ y ∈ s.hal.reqs, y.txid = m.txid → y.opc ≠ 0x03) :
    ∃ t, Runs (.cmp m) s t ∧ (∀ y ∈ t.hal.reqs, y.txid ≠ m.txid) ∧ (∀ y, y.txid ≠ m.txid → (y ∈ t.hal.reqs ↔ y ∈ s.hal.reqs)) ∧
      { t with hal := { t.hal with reqs := s.hal.reqs } } = s := by
  have hnat : m.opc.toNat = 0x15 := by rw [hopc]; rfl
  have hrun : ∀ t, halComplete m s = t → Runs (.cmp m) s t := fun t ht => congrArg Host.Outcome.next ((halMsg_of_opc hnat _ s).trans ht)
  cases hr : s.hal.reqs.find? (fun y => y.txid = m.txid) with
  | none =>
    refine ⟨s, hrun s (by rw [halComplete, hr]), fun y hy => ?_, fun _ _ => Iff.rfl, rfl⟩
    simpa using List.find?_eq_none.1 hr y hy
  | some r =>
    have htxid : r.txid = m.txid := by simpa using List.find?_some hr
    obtain ⟨hgone, hothers, -, hframe⟩ := reqClose_spec r s
    rw [htxid] at hgone hothers
    refine ⟨reqClose r s, hrun _ ?_, hgone, hothers, hframe⟩
    rw [halComplete, hr]
    exact if_neg (hplain r (List.mem_of_find?_eq_some hr) htxid)

/-- No write waits for the companion line. -/
theorem compRelease_of_nobody (key : Nat) {u : State} (hnobody : u.hal.waiting = []) : compRelease key u = u := by
  have hsame : { u with hal := { u.hal with waiting := [] } } = u := by rw [← hnobody]
  have hgo : compRelease key u = { u with hal := { u.hal with waiting := [] } } := by
    rw [compRelease, hnobody]
    rfl
  exact hgo.trans hsame

/-- Depot 0 takes a companion line for the package itself. -/
theorem companionDie_none (line : Nat) : companionDie .none (compKey line) = 0 := by
  have hkey : compKey line ≥ compKey 0 := by unfold compKey; omega
  have hdie : ownerDie .none (compKey line) = 0 := if_pos hkey
  exact congrArg (Fin.ofNat 4) hdie

section
variable {m : HalMsg} {r : HalReq} {s : State} (hr : s.hal.reqs.find? (fun y => y.txid = m.txid) = some r)
include hr

theorem txid_of_req : r.txid = m.txid := by simpa using List.find?_some hr

/-- The list without the request. -/
theorem reqClose_gone : ∀ y ∈ (reqClose r s).hal.reqs, y.txid ≠ m.txid := by
  obtain ⟨hgone, -⟩ := reqClose_spec r s
  rwa [txid_of_req hr] at hgone

/-- A granted upgrade makes the Depot's copy the only one. -/
theorem upgraded_spec {d : DepotLine} (hopc : m.opc = 0x15) (hup : r.opc = 0x03) (hd : sFind s.depot (compKey r.line) = some d) (hnobody : NobodyWaits s) :
    ∃ t, Runs (.cmp m) s t ∧ sFind t.depot (compKey r.line) = some { d with own := true } ∧ (∀ y ∈ t.hal.reqs, y.txid ≠ m.txid) ∧ t.hbm = s.hbm ∧
      t.cores = s.cores := by
  have hnat : m.opc.toNat = 0x15 := by rw [hopc]; rfl
  have hdone : halComplete m s = compRelease (compKey r.line)
      { reqClose r s with depot := sIns (compKey r.line) { d with own := true } s.depot } := by
    rw [halComplete, hr]
    dsimp only
    rw [if_pos hup, reqClose, hd]
  have hfree : (reqClose r s).hal.waiting = [] := hnobody
  exact ⟨_, congrArg Host.Outcome.next ((halMsg_of_opc hnat _ s).trans (hdone.trans (compRelease_of_nobody _ hfree))),
    by rw [sFind_sIns, if_pos rfl], reqClose_gone hr, rfl, rfl⟩

/-- Data that answer a request of the package. -/
theorem halAnswered_of_req {d : Line} (hd : m.lines = [d]) (own : Bool) :
    halAnswered own m (m.lines.headD 0) (bitAt m.pmask.toNat 0) s = giveCompanion r own d (bitAt m.pmask.toNat 0) s := by
  rw [halAnswered, hr, hd]
  rfl

/-- A copy for the package itself goes into Depot 0. -/
theorem copied_spec {d : Line} (hshared : r.opc = 0x01) (howner : r.owner = .none) (hopc : m.opc = 0x18) (hd : m.lines = [d])
    (hways : (waysOf 0 (compKey r.line) s).length < 16) :
    ∃ t, Runs (.dataS m) s t ∧ sFind t.depot (compKey r.line) = some ⟨d, false, bitAt m.pmask.toNat 0, 0, [], false⟩ ∧
      (∀ y ∈ t.hal.reqs, y.txid ≠ m.txid) ∧ t.hbm = s.hbm ∧ t.cores = s.cores := by
  have hnat : m.opc.toNat = 0x18 := by rw [hopc]; rfl
  have hkey : ¬ compKey r.line < compKey 0 := by unfold compKey; omega
  have hmade : depotMade 0 (compKey r.line) (reqClose r s) = reqClose r s := by
    rw [depotMade, if_neg fun h => hkey h.1]
    exact if_pos hways
  have hput := depotPut_eq 0 (compKey r.line) ⟨d, false, bitAt m.pmask.toNat 0, 0, [], false⟩ (reqClose r s)
  rw [hmade] at hput
  have hgiven : halAnswered false m (m.lines.headD 0) (bitAt m.pmask.toNat 0) s =
      depotPut 0 (compKey r.line) ⟨d, false, bitAt m.pmask.toNat 0, 0, [], false⟩ (reqClose r s) := by
    rw [halAnswered_of_req hr hd, giveCompanion, if_neg (by omega), if_neg (by omega), howner, companionDie_none]
    rfl
  exact ⟨_, congrArg Host.Outcome.next ((halMsg_of_opc hnat _ s).trans (hgiven.trans hput)), by rw [sFind_sIns, if_pos rfl], reqClose_gone hr, rfl, rfl⟩

/-- A line that is not cached goes to the engine that waits for it. -/
theorem given_spec {k : Nat} (hplain : r.opc = 0x04) (howner : r.owner = .eng k) (own : Bool) (x : Line) (poison : Bool) :
    let key := 0xFFFF * 2 ^ 41 + 2 ^ 39 + r.line
    let t := giveCompanion r own x poison s
    (∀ y ∈ t.hal.reqs, y.txid ≠ m.txid) ∧ sFind (getEng k t).rx key = some x ∧ (poison = true → key ∈ (getEng k t).rxPoison) ∧
      (∀ j, j ≠ k → getEng j t = getEng j s) ∧ MemoriesKept s t ∧ t.cores = s.cores := by
  intro key t
  have hgive : t = setEng k { getEng k (reqClose r s) with
      rx := sIns (pkgNum (reqClose r s) * 2 ^ 41 + 2 ^ 39 + r.line) x (sIns key x (getEng k (reqClose r s)).rx),
      rxPoison := if poison then [key, pkgNum (reqClose r s) * 2 ^ 41 + 2 ^ 39 + r.line] ++ (getEng k (reqClose r s)).rxPoison
        else (getEng k (reqClose r s)).rxPoison } (reqClose r s) := by
    change giveCompanion r own x poison s = _
    rw [giveCompanion, if_pos hplain, howner]
    rfl
  rw [hgive]
  refine ⟨reqClose_gone hr, ?_, fun hp => ?_, fun j hj => ?_, ⟨rfl, rfl, rfl, rfl, rfl⟩, rfl⟩
  · rw [getEng_setEng, if_pos rfl, sFind_sIns, sFind_sIns, if_pos rfl, ite_self]
  · rw [getEng_setEng, if_pos rfl, if_pos hp]
    exact List.mem_cons_self
  · rw [getEng_setEng, if_neg hj]
    rfl

/-- A refused request. -/
theorem halNack_of_req : halNack m s = giveCompanion r (decide (r.opc = 2 ∨ r.opc = 3)) 0 true s := by
  rw [halNack, hr]
  rfl

end

end Sys2Proof.Machine
end

section
/-! PROOFS. Lost Halter ports (R294), and the obligation about the Halter link. -/

namespace Sys2Proof.Machine

open Sys2Proof.Claims

/-! ### One port lost (R294) -/

theorem onlyRegs_of_relinked {touched : Nat → Prop} {s a t : State} {l : Store Link} (hbefore : OnlyRegs touched s a)
    (hafter : OnlyRegs touched { a with links := l } t) : OnlyRegs touched s { t with links := s.links } := by
  obtain ⟨hwords, -⟩ := id hbefore
  obtain ⟨hwords', -⟩ := id hafter
  obtain ⟨c, g, k, e, rfl⟩ := restKept_of_onlyRegs hbefore
  obtain ⟨c', g', k', e', rfl⟩ := restKept_of_onlyRegs hafter
  exact ⟨fun d off hoff hlost => (hwords' d off hoff hlost).trans (hwords d off hoff hlost), rfl⟩

/-- The port's link is cleared and its STATE shows it DOWN. -/
def halPortLost (p : Nat) (s : State) : State := setLink (22 + p) Link.init (setF halBase (halState p) 1 s)

/-- The other port carries the link alone. -/
def halDegraded (s : State) : State := setF halBase R.HAL_STATUS_DEGRADED 1 s

/-- The STATE fields of both ports and DEGRADED are fields of one word, beside each other. -/
theorem halState_fields : ∀ p : Fin 2, FieldsBeside (halState p) (halState (1 - p.val)) ∧ FieldsBeside R.HAL_STATUS_DEGRADED (halState p) ∧
    (halState p).off = R.HAL_STATUS_DEGRADED.off ∧ (halState p).lo + (halState p).w ≤ 32 ∧ (halState p).w = 3 ∧
    (halState (1 - p.val)).lo + (halState (1 - p.val)).w ≤ 32 := by decide

theorem getF_setLink (base : Nat) (f : Fld) (p : Nat) (x : Link) (s : State) : getF base f (setLink p x s) = getF base f s := rfl

section
variable {p : Fin 2} {s : State} (hup : getF halBase (halState p) s = 5) (hother : getF halBase (halState (1 - p.val)) s = 5)
  (hreplay : (getLink (22 + p) s).replay = []) (hwaiting : (getLink (22 + p) s).waiting = [])
include hup hother hreplay hwaiting

/-- Nothing waits to be sent again, and the other port is ACTIVE. -/
theorem halPortDown_eq : halPortDown p s = raise (0xF000 + p) 0x59 1 0 0 (halDegraded (halPortLost p s)) := by
  obtain ⟨hbeside, -, -, -, -, hfit⟩ := halState_fields p
  have hleft : getF halBase (halState (1 - p.val)) (halPortLost p s) = 5 :=
    (getF_setLink ..).trans ((getF_setF_beside _ _ s hbeside hfit).trans hother)
  rw [halPortDown, if_neg (by omega)]
  dsimp only
  rw [hreplay, hwaiting]
  exact if_pos hleft

theorem halterPortDown_spec : ∃ t, Runs (.halterPortDown p) s t ∧ getLink (22 + p) t = Link.init ∧ getF halBase (halState p) t = 1 ∧
    getF halBase R.HAL_STATUS_DEGRADED t = 1 ∧ Logged (0xF000 + p) 0x59 1 s t ∧
    OnlyRegs (regAt halBase [R.HAL_STATUS_DEGRADED]) s { t with links := s.links } := by
  have hrun : Runs (.halterPortDown p) s (raise (0xF000 + p) 0x59 1 0 0 (halDegraded (halPortLost p s))) :=
    congrArg Host.Outcome.next (halPortDown_eq hup hother hreplay hwaiting)
  obtain ⟨-, hbeside, hoff, hfit, hwidth, -⟩ := halState_fields p
  have hword : regAt halBase [R.HAL_STATUS_DEGRADED] (halBase + R.HAL_STATUS_DEGRADED.off) := ⟨_, List.mem_singleton_self _, rfl⟩
  have hlost : OnlyRegs (regAt halBase [R.HAL_STATUS_DEGRADED]) s (setF halBase (halState p) 1 s) := (OnlyRegs.refl _ s).setF (hoff ▸ hword) 1
  have hstate : getF halBase (halState p) (halPortLost p s) = 1 := by
    rw [halPortLost, getF_setLink, getF_setF _ _ _ _ hfit, hwidth]
    exact Nat.mod_eq_of_lt (by decide)
  have hlink : getLink (22 + p) (halPortLost p s) = Link.init := by rw [halPortLost, getLink_setLink, if_pos rfl]
  have hframe : halPortLost p s = { setF halBase (halState p) 1 s with links := (halPortLost p s).links } := rfl
  have hlog : (halPortLost p s).log = s.log := rfl
  have hnow : (halPortLost p s).count = s.count := rfl
  generalize halPortLost p s = u at *
  generalize setF halBase (halState p) 1 s = a at *
  have hdegraded : getF halBase R.HAL_STATUS_DEGRADED (halDegraded u) = 1 := getF_setF _ _ _ _ (by decide)
  have hstate' : getF halBase (halState p) (halDegraded u) = 1 := (getF_setF_beside _ _ u hbeside hfit).trans hstate
  have honly : OnlyRegs (regAt halBase [R.HAL_STATUS_DEGRADED]) u (halDegraded u) := (OnlyRegs.refl _ u).setF hword 1
  have hlog' : (halDegraded u).log = s.log := (setF_log ..).trans hlog
  have hnow' : (halDegraded u).count = s.count := (setF_count ..).trans hnow
  generalize halDegraded u = v at *
  have hkept := honly.raise (0xF000 + p) 0x59 1 0 0
  have hraise := fun f hf => getF_raise_hal f (0xF000 + p) 0x59 1 0 0 v hf
  have hlogged := logged_raise (0xF000 + p) 0x59 1 0 0 v
  generalize raise (0xF000 + p) 0x59 1 0 0 v = t at *
  refine ⟨t, hrun, (getLink_of_restKept (restKept_of_onlyRegs hkept) _).trans hlink, (hraise _ (hoff ▸ by decide)).trans hstate',
    (hraise _ (by decide)).trans hdegraded, logged_of_same hlogged hlog' hnow', onlyRegs_of_relinked hlost (l := u.links) ?_⟩
  rwa [← hframe]

end

/-! ### The link lost (R294, R365) -/

/-- Lines taken back one after another are all poisoned. -/
theorem takenBack_all : ∀ (l : List Nat) (s : State), TakeKept s (l.foldl (fun s pl => takenBack pl s) s) ∧
    ∀ pl ∈ l, linePoison pl (l.foldl (fun s pl => takenBack pl s) s) = true
  | [], s => ⟨.refl s, fun _ h => absurd h List.not_mem_nil⟩
  | a :: l, s => by
    obtain ⟨hfirst, hpoison, -⟩ := takenBack_spec (pl := a) (s := s) rfl
    obtain ⟨hrest, hothers⟩ := takenBack_all l (takenBack a s)
    refine ⟨hfirst.trans hrest, fun pl hpl => ?_⟩
    rcases List.mem_cons.1 hpl with rfl | hmem
    · exact hrest.poisoned _ hpoison
    · exact hothers pl hmem

/-- The loss is shown and recorded. -/
def halLost (s : State) : State := raise 0xF003 0x5A 3 0 0 (setF halBase R.HAL_STATUS_DOWN 1 { s with hal := { s.hal with down := true } })

theorem halLost_spec (s : State) : RestKept { s with hal := { s.hal with down := true } } (halLost s) ∧ getF halBase R.HAL_STATUS_DOWN (halLost s) = 1 ∧
    Logged 0xF003 0x5A 3 s (halLost s) ∧ (halLost s).stepErr = true := by
  have hset := restKept_setF halBase R.HAL_STATUS_DOWN 1 { s with hal := { s.hal with down := true } }
  have hdown : getF halBase R.HAL_STATUS_DOWN (setF halBase R.HAL_STATUS_DOWN 1 { s with hal := { s.hal with down := true } }) = 1 :=
    getF_setF _ _ _ _ (by decide)
  have hlog : (setF halBase R.HAL_STATUS_DOWN 1 { s with hal := { s.hal with down := true } }).log = s.log := setF_log ..
  have hnow : (setF halBase R.HAL_STATUS_DOWN 1 { s with hal := { s.hal with down := true } }).count = s.count := setF_count ..
  rw [halLost]
  generalize setF halBase R.HAL_STATUS_DOWN 1 { s with hal := { s.hal with down := true } } = u at *
  exact ⟨hset.trans (restKept_raise ..), (getF_raise_hal _ _ _ _ _ _ _ (by decide)).trans hdown, logged_of_same (logged_raise _ _ _ _ _ u) hlog hnow,
    stepErr_raise (by decide) ..⟩

/-- Both ports lost while no job runs: every line the companion owned is poisoned. -/
theorem halterDown_spec {s : State} (h0 : getF halBase R.HAL_STATUS_STATE0 s ≠ 5) (h1 : getF halBase R.HAL_STATUS_STATE1 s ≠ 5) (hreqs : s.hal.reqs = [])
    (hnobody : NobodyWaits s) (hrunning : s.pkg ≠ .running) (hfrozen : s.pkg ≠ .frozen) : ∃ t, Runs .halterDown s t ∧
      getF halBase R.HAL_STATUS_DOWN t = 1 ∧ t.hal.dir = [] ∧ t.hal.snoops = [] ∧ t.stepErr = true ∧ Logged 0xF003 0x5A 3 s t ∧
      (∀ pl, (pl, .owned) ∈ s.hal.dir → linePoison pl t = true) ∧ t.hbm = s.hbm ∧ t.cores = s.cores := by
  obtain ⟨hrest, hdown, hlogged, herr⟩ := halLost_spec s
  have hall : halDown s = recoveryFreeze 5 ((takeBackAll (halLost s)).hal.reqs.foldl (fun s r => reqFailed r s) (takeBackAll (halLost s))) :=
    if_neg (by simp [h0, h1])
  generalize halLost s = u at *
  obtain ⟨c, l, k, e, hu⟩ := hrest
  have hback : takeBackAll u = ((s.hal.dir.filter (fun e => e.2 = .owned)).map (fun e => e.1)).foldl (fun s pl => takenBack pl s)
      { u with hal := { u.hal with dir := [], snoops := [] } } := by rw [takeBackAll, hu]
  obtain ⟨hkept, hpoison⟩ := takenBack_all ((s.hal.dir.filter (fun e => e.2 = .owned)).map (fun e => e.1))
    { u with hal := { u.hal with dir := [], snoops := [] } }
  rw [← hback] at hkept hpoison
  generalize takeBackAll u = t at *
  have hdown' := hkept.down.trans hdown
  have herr' := hkept.err herr
  have hlogged' : Logged 0xF003 0x5A 3 s t := logged_later hlogged hkept.queues
  obtain ⟨c', l', k', e', ps, dp, ht⟩ := hkept.frame
  have hhal : t.hal = { s.hal with down := true, dir := [], snoops := [] } := by rw [ht, hu]
  have hpkg : t.pkg = s.pkg := by rw [ht, hu]
  have hend : halDown s = t := by
    rw [hall, hhal, hreqs]
    exact recoveryFreeze_idle 5 (hpkg ▸ hrunning) (hpkg ▸ hfrozen)
  refine ⟨t, congrArg Host.Outcome.next ((congrArg afterSnoop hend).trans (afterSnoop_of_nobody (by rw [hhal, hnobody]))), hdown', by rw [hhal], by rw [hhal],
    herr', hlogged', fun pl hpl => hpoison pl ?_, by rw [ht, hu], by rw [ht, hu]⟩
  exact List.mem_map.2 ⟨_, List.mem_filter.2 ⟨hpl, by simp⟩, rfl⟩

/-! ### The obligation -/

/-- The value of an opcode. -/
theorem toNat_of_opc {m : HalMsg} {o : BitVec 6} (h : m.opc = o) {n : Nat} (ho : o.toNat = n) : m.opc.toNat = n := by rw [h, ho]

/-- A request of each kind for lines beside the HBM windows is refused. -/
theorem runs_refused {m : HalMsg} {s : State} (hnone : halLines m s = none) {i : Instr}
    (hi : (i = .rdS m ∧ m.opc = 0x01) ∨ (i = .rdO m ∧ m.opc = 0x02) ∨ (i = .upg m ∧ m.opc = 0x03) ∨ (i = .rdNc m ∧ m.opc = 0x04) ∨
      (i = .wrFull m ∧ m.opc = 0x05)) : Runs i s (halRefuse m s) := by
  have hrun : ∀ {opc}, exec i s = .next (halMsg opc m (halAccept m) s) → m.opc.toNat = opc → Runs i s (halRefuse m s) := fun hexec hopc =>
    hexec.trans (congrArg Host.Outcome.next ((halMsg_of_opc hopc _ s).trans (halAccept_of_none hnone)))
  rcases hi with ⟨rfl, hopc⟩ | ⟨rfl, hopc⟩ | ⟨rfl, hopc⟩ | ⟨rfl, hopc⟩ | ⟨rfl, hopc⟩ <;> exact hrun rfl (toNat_of_opc hopc rfl)

/-- Settles O42: the home serves, refuses and answers as stated, and lost ports take the companion's lines back. -/
theorem halterKeepsLinesCoherent : Obligations.HalterKeepsLinesCoherent := by
  unfold Obligations.HalterKeepsLinesCoherent
  intro m s
  have hsnooped : ∀ {inv i opc}, exec i s = .next (halMsg opc m (halSnooped inv m) s) → m.opc.toNat = opc → Runs i s (halSnooped inv m s) := fun hrun hopc =>
    hrun.trans (congrArg Host.Outcome.next (halMsg_of_opc hopc _ s))
  refine ⟨fun pl hasks => ⟨rdS_spec hasks, fun hopc _ => rdO_spec hasks hopc, fun hopc hheld _ => upg_spec hasks hopc hheld, rdNc_spec hasks,
      fun _ => wrFull_spec hasks, fun _ => wb_spec hasks⟩,
    fun hnone hroom i hi => ⟨_, runs_refused hnone hi, halRefuse_spec hroom⟩,
    fun hnone hroom => ⟨fun hopc => ⟨_, hsnooped rfl (toNat_of_opc hopc rfl), halSnooped_absent hroom true hnone⟩,
      fun hopc => ⟨_, hsnooped rfl (toNat_of_opc hopc rfl), halSnooped_absent hroom false hnone⟩⟩,
    fun w d hw hd hroom => ⟨fun hopc => ⟨_, hsnooped rfl (toNat_of_opc hopc rfl), halSnooped_held hroom true hw hd⟩,
      fun hopc => ⟨_, hsnooped rfl (toNat_of_opc hopc rfl), halSnooped_held hroom false hw hd⟩⟩,
    fun x hx hnobody => ⟨fun hopc => rsp_spec hx hnobody (shared := false) rfl (toNat_of_opc hopc rfl),
      fun hopc => rsp_spec hx hnobody (shared := true) rfl (toNat_of_opc hopc rfl),
      fun d hd hoos => ⟨fun hopc => rspData_spec hx hnobody hd hoos (shared := false) rfl (toNat_of_opc hopc rfl),
        fun hopc => rspData_spec hx hnobody hd hoos (shared := true) rfl (toNat_of_opc hopc rfl)⟩, snpTimeout_spec hx hnobody⟩,
    cmp_spec, fun r d hr hup hopc hd hnobody => upgraded_spec hr hopc hup hd hnobody,
    fun r d hr hshared howner hopc hd hways => copied_spec hr hshared howner hopc hd hways, fun r k d hr hplain howner hd => ?_,
    fun p hup hother hreplay hwaiting => halterPortDown_spec hup hother hreplay hwaiting, halterDown_spec⟩
  have hdata : ∀ own, halAnswered own m (m.lines.headD 0) (bitAt m.pmask.toNat 0) s = giveCompanion r own d (bitAt m.pmask.toNat 0) s :=
    halAnswered_of_req hr hd
  exact ⟨fun hopc => ⟨_, congrArg Host.Outcome.next ((halMsg_of_opc (toNat_of_opc hopc rfl) _ s).trans (hdata false)), given_spec hr hplain howner false d _⟩,
    fun hopc => ⟨_, congrArg Host.Outcome.next ((halMsg_of_opc (toNat_of_opc hopc rfl) _ s).trans (hdata true)), given_spec hr hplain howner true d _⟩,
    fun hopc => ⟨_, congrArg Host.Outcome.next ((halMsg_of_opc (toNat_of_opc hopc rfl) _ s).trans (halNack_of_req hr)), given_spec hr hplain howner _ 0 true⟩⟩

end Sys2Proof.Machine
end
